-- ==== Sys2Proof/Word.lean ====
section
/-! DEFINITION. The word and byte types of the YA-6400's interfaces (R5, R25). -/

namespace Sys2Proof

/-- A byte. -/
abbrev Byte := BitVec 8

/-- A 32-bit word: a command parameter, a reply result, a register (R25, R57). -/
abbrev Word := BitVec 32

end Sys2Proof
end

