-- ==== Sys2Proof/Config.lean ====
section
/-! DEFINITION. What the spec leaves open or does not give: free values, and secrets and constants of one device, each an
opaque constant without a body (assumption log 6 and 7). -/

namespace Sys2Proof.Config

/-- A free 32-bit value, fresh for each counter value: a measurement or another value the spec does not fix. -/
opaque freeWord : Nat → BitVec 32

/-- A free yes-or-no fact, fresh for each counter value. -/
opaque freeBool : Nat → Bool

/-- The random source of R17 and R428: 256 random bits for each draw. -/
opaque random : Nat → BitVec 256

/-- Arrival point of a port's extended-multiblock boundary in a calibration, 0-127 (R110). -/
opaque arrival : Nat → Nat → BitVec 7

/-- Subsystems (bit n - 1) that a self-test run finds faulty beyond what the state shows (R69). -/
opaque selfTest : Nat → BitVec 20

/-- Of those, the subsystems wholly out of service (R69). -/
opaque selfTestOut : Nat → BitVec 20

/-- Instances a self-test run finds out of service in a subsystem (R68). -/
opaque selfTestCount : Nat → Nat → BitVec 8

/-- The octets that the receive lane of a port carries: port, sample instant, octet of the frame 0-31 (R107, R108). -/
opaque laneOctet : Nat → Nat → Nat → BitVec 8

/-- The Brand private key, a P-256 scalar: the device's secret, which the spec derives from a root that it does not give
(R421). -/
opaque brandKey : BitVec 256

/-- The Kelwaer anchors in OTP, P-256 public keys (R472). -/
opaque kelwaerAnchors : List (List (BitVec 8))

/-- The Brand certificate in OTP (R421). -/
opaque brandCert : List (BitVec 8)

/-- What the tandem partner reports when a pair is formed: its role, position, and whether its
herd ID, firmware version and tack set agree (R397). -/
opaque partner : Nat → Bool × Bool × Bool

/-- The entries of the 8 x 16 rate-1/2 LDPC base matrix (R91), none for an empty block; the matrix is a data file
outside the spec (assumption log 21). -/
opaque ldpcShift : Nat → Nat → Option (BitVec 4)

/-- What a byte of device DRAM reads as, at an instant and an address, where the spec gives no layout or no value for it
(R20, R21; assumption log 117). -/
opaque dramOctet : Nat → Nat → BitVec 8

end Sys2Proof.Config
end

