-- ==== Sys2Proof/Syntax.lean ====
section
/-! DEFINITION. The commands: one constructor of Instr per row of the table, with the row's operands. -/

namespace Sys2Proof

/-- A command packet as Bridle takes it from Q0-Q15 (R25): the queue it lay in, its tag, header word 1,
the whole parameter words that follow, and the bytes beyond the last whole word (R26). -/
structure Packet where
  queue : Fin 16
  tag : BitVec 16
  word1 : Word
  params : List Word
  extra : Fin 4
  deriving DecidableEq, Repr

/-- Who acts on a semaphore (agent codes 0x01, 0x40 plus the herd ID, 0x80). -/
inductive Agent where
  | host
  | peer (hid : Fin 64)
  | bridle
  deriving DecidableEq, Repr

/-- A reply message from a herd peer (R31, R33). -/
structure ReplyIn where
  src : Fin 64
  epoch : Word
  tag : BitVec 16
  status : BitVec 16
  results : List Word
  deriving DecidableEq, Repr

/-- What a start finds outside the registers (R460-R462, R420, R437, R470, R482). -/
structure SaddleIn where
  /-- levels of HID[5:0] -/
  hid : BitVec 6
  /-- REFIN is present -/
  refin : Bool
  /-- VIN was lost before this start, so DRAM contents are lost (R446) -/
  vinLost : Bool
  /-- the VBAT check pattern is intact -/
  vbatOk : Bool
  /-- attempts the root key took, none when every one of the 4 failed -/
  root : Option (Fin 4)
  /-- the flash has every property of R466 -/
  flashOk : Bool
  /-- the boot ROM's checks of slots A and B pass -/
  slotA : Bool
  slotB : Bool
  /-- DRAM trains -/
  dram : Bool
  /-- the ledger's check value is good -/
  ledgerOk : Bool
  /-- the CRC-32C of the active and of the previous tack is good -/
  tackOk : Bool
  prevOk : Bool
  /-- the recovery location holds an image that passes R472 (R483) -/
  recovery : Bool
  deriving DecidableEq, Repr

/-- An uncorrectable DRAM read: its address, and the stretch of signal or the queue it hits (R23). -/
structure UeIn where
  addr : BitVec 35
  start : BitVec 64
  stop : BitVec 64
  queue : Fin 1024
  deriving DecidableEq, Repr

/-- What the transform of a window shows: the bin of its peak, the peak's power and the mean power of its bins (R128). -/
structure WindowIn where
  bin : Int
  peak : Nat
  mean : Nat
  deriving DecidableEq, Repr

/-- The last windows of a stream, oldest first, and the end of the last one at the antenna in ns (R128, R130). -/
structure DetectIn where
  plain : Fin 4
  beam : Fin 64
  bw : Fin 4
  /-- SF - 5 -/
  sf : Fin 8
  chan : Fin 160
  stop : BitVec 64
  windows : List WindowIn
  deriving DecidableEq, Repr

/-- What a residue pass re-estimates for a failed-list entry: its record's SEQ, T_START and OFFSET (R167). -/
structure RedemodIn where
  seq : Word
  tStart : BitVec 64
  offset : Word
  deriving DecidableEq, Repr

/-- The shifts measured on the header symbols, in 1/256 chip, and the end of the last of them (R76, R83, R518). -/
structure HeaderIn where
  shifts : List Nat
  stop : BitVec 64
  snr : BitVec 16
  power : BitVec 16
  offset : Word
  deriving DecidableEq, Repr

/-- What a track measured when its last symbol ended (R136, R143). -/
structure LastIn where
  /-- t0 of R12: the last sample on the lane -/
  lane : BitVec 64
  snr : BitVec 16
  power : BitVec 16
  offset : Word
  drift : BitVec 16
  /-- log-likelihood ratios of the payload's word positions in units of 1/8, symbol by symbol, before saturation (R135) -/
  llrs : List Int
  deriving DecidableEq, Repr

/-- What the LDPC decoder returns: whether every block meets its checks, the largest iteration count,
and the whitened information bits of the blocks (R89, R93). -/
structure DecodeIn where
  blocksOk : Bool
  iter : Fin 33
  info : List Bool
  deriving DecidableEq, Repr

/-- A combining report (R178). -/
structure Report where
  hid : Fin 64
  plain : Fin 4
  beam : Fin 64
  bw : Fin 4
  sf : Fin 8
  sync : Byte
  hdr : BitVec 16
  snr : BitVec 16
  tEnd : BitVec 64
  carrier : Word
  seq : Word
  cutWanted : Bool
  metrics : List (BitVec 8)
  deriving DecidableEq, Repr

/-- A cut notice (R184). -/
structure NoticeIn where
  src : Fin 64
  epoch : Word
  bytes : List Byte
  hdr : BitVec 16
  tEnd : BitVec 64
  carrier : Word
  seq : Word
  deriving DecidableEq, Repr

/-- A decoded frame as the link engine takes it: its bytes and the record fields that travel with it (R234). -/
structure Heard where
  hid : Fin 64
  plain : Fin 4
  beam : Fin 64
  bw : Fin 4
  sf : Fin 8
  chan : Fin 160
  sync : Byte
  cr : Fin 4
  snr : BitVec 16
  tStart : BitVec 64
  tEnd : BitVec 64
  layer : Fin 5
  combined : Fin 9
  /-- the decision is late for a reason outside the link engine (R519, R13) -/
  late : Bool
  bytes : List Byte
  deriving DecidableEq, Repr

/-- An acknowledgement built by a home for a frame this device received (R247). -/
structure AckIn where
  plain : Fin 4
  beam : Fin 64
  bw : Fin 4
  sf : Fin 8
  cr : Fin 4
  net : Fin 16
  dst : Word
  t0 : BitVec 64
  /-- the uplink's channel, on whose centre of the receiving plain the acknowledgement goes out (R245) -/
  chan : Fin 160
  frame : List Byte
  deriving DecidableEq, Repr

/-- A rendezvous candidate passed by a node's home (R268). -/
structure CandIn where
  home : Fin 64
  net : Fin 16
  dst : Word
  plain : Fin 4
  t0 : BitVec 64
  carrier : Word
  radio : Word
  late : Bool
  announced : Bool
  /-- PENDING, as the node's queue stands at its home (R267) -/
  pending : Bool
  tenant : Byte
  service : Fin 8
  tcorr : BitVec 16
  payload : List Byte
  deriving DecidableEq, Repr

/-- The outcome of a candidate passed to another member (R268). -/
structure OutcomeIn where
  net : Fin 16
  dst : Word
  t0 : BitVec 64
  admitted : Bool
  status : BitVec 16
  deriving DecidableEq, Repr

/-- A frame received on a backhaul port: the bytes from the destination address to the last byte before
the FCS, the FCS, and the instant, in ST, at which its first bit crossed the lands (R319, R324, R362). -/
structure EthIn where
  bytes : List Byte
  fcs : Word
  tRx : BitVec 64
  deriving DecidableEq, Repr

/-- A packet forwarded across the herd to a node's home (R308, R309). -/
structure PacketIn where
  src : Fin 64
  net : Fin 16
  addr : Word
  tenant : Byte
  service : Fin 8
  crossings : Nat
  /-- resolved to a node whose home this is, so not searched again (R308); else searched anew -/
  home : Bool
  bytes : List Byte
  deriving DecidableEq, Repr

/-- A flood-fallback copy (R310, R311). -/
structure FloodIn where
  net : Fin 16
  addr : Word
  tenant : Byte
  service : Fin 8
  frame : List Byte
  deriving DecidableEq, Repr

/-- A received herd flit (R328): its 64 words. What a message means is left to the message rows. -/
structure FlitIn where
  words : List Word
  /-- on the last flit of a PTP message that came for the transparent clock, its frame from the destination address on
  (R364) -/
  ptp : Option (List Byte)
  deriving DecidableEq, Repr

/-- Cause of a host reset (R347). -/
inductive HostResetKind where
  | perst
  | flr
  | d3hot
  deriving DecidableEq, Repr

/-- A DMA descriptor as the engine reads it from host memory, and its buffer (R343). -/
structure DescIn where
  addr : BitVec 64
  len : BitVec 16
  own : Bool
  last : Bool
  data : List Byte
  /-- a PCIe completion reported an error (R346) -/
  error : Bool
  deriving DecidableEq, Repr

/-- A change of state of TB0-TB3 that comes due (R350-R352). -/
structure BaseIn where
  /-- 1 locked, 2 holdover, 3 lost -/
  state : Fin 4
  deriving DecidableEq, Repr

/-- What a delay survey brings (R369, R370): a neighbour's probe with its stamps t1 and t2, the four stamps of an answered
probe pair, 1 ms without an answer, the survey passed on by a neighbour at a position of its path with the delay it measured,
or the end of a survey, with the position of its break. -/
inductive ProbeIn where
  | request (l : Fin 4) (t1 t2 : BitVec 64)
  | pair (l : Fin 4) (t1 t2 t3 t4 : BitVec 64)
  | unanswered
  | passed (path : List Nat) (pos delay : Nat)
  | ended (path : List Nat) (brk : Option Nat)
  deriving DecidableEq, Repr

/-- What has come of a home move at its slot (R315): every copy inserted, the target's table full, or the target reset. -/
inductive MoveOutcome where
  | done
  | full
  | peerReset
  deriving DecidableEq, Repr

/-- A home switch: the address prefix that moves, its new home and the outcome of the copies (R315). -/
structure SwitchIn where
  net : Fin 16
  pfx : Word
  len : Fin 33
  target : Fin 64
  outcome : MoveOutcome
  /-- at the target: the 64 words of each record it holds a copy of (R302) -/
  copies : List (List Word)
  deriving DecidableEq, Repr

/-- What ends STALL, and how many sleep cycles it lasted (R372, R459). -/
inductive WakeCause where
  | hostWrite
  | perst
  | timer
  deriving DecidableEq, Repr

/-- A wake from STALL (R459, R372). -/
structure WakeIn where
  cause : WakeCause
  cycles : Nat
  deriving DecidableEq, Repr

/-- Type of a reins frame (R405). -/
inductive ReinsType where
  | renewal
  | ack
  | release
  | revert
  | grant
  | marker
  deriving DecidableEq, Repr

/-- A reins frame as its 64 bits on the line (R405). -/
structure ReinsFrame where
  bits : BitVec 64
  deriving DecidableEq, Repr

/-- An image chain block from a herd peer (R474). -/
structure BlockIn where
  src : Fin 64
  num : Nat
  count : Nat
  crc : Word
  bytes : List Byte
  /-- the rest of the chain, after the receiver (R474) -/
  rest : List (Fin 64)
  deriving DecidableEq, Repr

/-- A herd message as the holder mirrors it to its partner (R400): the fields of the row that takes such a message. -/
inductive HerdIn where
  | command (src : Fin 64) (op : BitVec 16) (c : Packet)
  | reply (r : ReplyIn)
  | semaphore (n : Fin 64) (peer : Fin 64) (release : Bool)
  | frame (src : Fin 64) (h : Heard)
  | homeAck (x : AckIn)
  | report (r : Report) (epoch : Word)
  | notice (x : NoticeIn)
  | candidate (x : CandIn)
  | outcome (x : OutcomeIn)
  | packet (x : PacketIn)
  | flood (x : FloodIn)
  | homeSwitch (x : SwitchIn)
  | membership (l : Fin 4) (present : BitVec 64)
  | time (l : Fin 4) (ts age : BitVec 64)
  | survey (x : ProbeIn)
  | chainBlock (x : BlockIn)
  | chainAck (src : Fin 64) (epoch : Word) (count : Nat)
  deriving DecidableEq, Repr

/-- A mirrored input (R400): of a backhaul frame its port, length and CRC-32C, since the frame itself comes over the lane buffers
(R398); a host write of PD_VOTE or PD_POLICY among them (R451). -/
inductive Mirrored where
  | command (op : BitVec 16) (c : Packet)
  | backhaul (p : Fin 2) (len : Nat) (crc : Word)
  | grants (v : BitVec 4)
  | blank (i : Fin 8) (active : Bool)
  | pps (falling : Bool)
  | capture (t : Fin 16) (falling : Bool)
  | vote (d : Fin 47) (policy : Bool) (v : Word)
  | herd (m : HerdIn)
  deriving DecidableEq, Repr

/-- IEEE 1149.1 and 1149.6 instructions (R497). -/
inductive JtagIr where
  | bypass
  | idcode
  | samplePreload
  | extest
  | clamp
  | acExtest
  deriving DecidableEq, Repr

/-- The commands and events of spec/opcode_table.json, one constructor per row: a host command carries its
packet, an event the facts that come from outside the device. -/
inductive Instr where
  /-- NOP (R40): Command that does nothing and returns no result words. -/
  | nop (c : Packet)
  /-- GET_IDENTITY (R40): Returns DEV_ID, REVISION, FW_VERSION, BOOT_EPOCH and the serial words. -/
  | getIdentity (c : Packet)
  /-- ABORT_COMMAND (R42): Aborts the command in flight with a given tag, or reports why it cannot. -/
  | abortCommand (c : Packet)
  /-- GET_COMMAND_STATE (R40): Returns whether a tag is not in flight, waiting, running or has its reply held. -/
  | getCommandState (c : Packet)
  /-- RESET_DEVICE (R41): Aborts every other command in flight, posts its own reply last and prepares a device reset. -/
  | resetDevice (c : Packet)
  /-- DEVICE_RESET_INSTANT (R41): Once the reply queues are empty or 10 ms has passed, the device resets as if RESET_N had been pulsed. -/
  | deviceResetInstant
  /-- QUEUE_CONFIGURE (R43): Sets a queue's spill cap and CUT_THRESH, refused while the queue holds words. -/
  | queueConfigure (c : Packet)
  /-- QUEUE_RESET (R50): Empties one queue, reports the words discarded and posts event 0x0002 with detail 1. -/
  | queueReset (c : Packet)
  /-- QUEUE_STATUS (R40): Returns a queue's depth, packets, spill bytes, drop count and UNDERRUN reads. -/
  | queueStatus (c : Packet)
  /-- SPILL_STATUS (R40): Returns the spill pool use and the sum of all caps. -/
  | spillStatus (c : Packet)
  /-- SOUNDNESS_REPORT (R68): Returns the 22-word soundness report for the 20 subsystems. -/
  | soundnessReport (c : Packet)
  /-- SELF_TEST_RUN (R69): Runs the self-test on the masked subsystems, changes their soundness and posts event 0x0004 on each change. -/
  | selfTestRun (c : Packet)
  /-- TROUBLE_LOG_READ (R67): Returns trouble-log entries from a given sequence number, or from the oldest entry present. -/
  | troubleLogRead (c : Packet)
  /-- TROUBLE_LOG_CLEAR (R67): Discards every trouble-log entry without restarting the numbering. -/
  | troubleLogClear (c : Packet)
  /-- UNDEFINED_OPCODE (R39): A command whose opcode is not defined completes with ST_INVALID_OPCODE. -/
  | undefinedOpcode (op : BitVec 16) (c : Packet)
  /-- CMD_MALFORMED (R26): A command queue packet shorter than 8 bytes is discarded without a reply, counted, and sets CMD_MALFORMED. -/
  | cmdMalformed (q : Fin 16) (bytes : Nat)
  /-- REPLY_RELEASE (R35): A reply held for a full reply queue is posted once the queue has room, and its command leaves flight. -/
  | replyRelease (q : Fin 16)
  /-- HERD_COMMAND (R512): A command message forwarded over the herd links is judged and executed on the target device. -/
  | herdCommand (src : Fin 64) (op : BitVec 16) (c : Packet)
  /-- HERD_REPLY (R31): A reply message from a herd peer reaches the entry device and is posted to the paired reply queue, unless it carries an old boot epoch. -/
  | herdReply (r : ReplyIn)
  /-- PUSH (R56): A 64-bit host write to PUSH appends one word to a queue, or is dropped and counted. -/
  | push (q : Fin 1024) (data : BitVec 64)
  /-- PUSH_LAST (R56): A 64-bit host write to PUSH_LAST appends one word and ends the packet. -/
  | pushLast (q : Fin 1024) (data : BitVec 64)
  /-- POP (R47): An 8-byte host read of POP removes and returns one visible word, or returns the last value and sets UNDERRUN. -/
  | pop (q : Fin 1024)
  /-- ARM (R55): A write of CTRL.ARM arms the queue interrupt once, raising it at once if a word is visible. -/
  | arm (q : Fin 1024) (v : Word)
  /-- DROP_REST (R48): A write of CTRL.DROP_REST discards the rest of the packet the consumer has begun, or the head packet. -/
  | dropRest (q : Fin 1024) (v : Word)
  /-- CTRL_RESET (R50): A write of CTRL.RESET resets the queue as QUEUE_RESET does and posts event 0x0002. -/
  | ctrlReset (q : Fin 1024) (v : Word)
  /-- CONSUMER_BINDING (R53): A write to CONSUMER or DMA_ENGINE changes the queue's consumer binding, or is refused and sets CFG_REFUSED. -/
  | consumerBinding (q : Fin 1024) (v : Word)
  /-- QUEUE_POINTER_MISMATCH (R49): A mismatch between the two pointer copies resets the queue, sets PTR_ERR and posts a queue-reset event. -/
  | queuePointerMismatch (q : Fin 1024)
  /-- SEM_ACQ (R60): A read of SEM_ACQ attempts to acquire the semaphore for the reading agent. -/
  | semAcq (n : Fin 64) (a : Agent)
  /-- SEM_REL (R61): A write of 1 to SEM_REL releases the semaphore if the writer holds it. -/
  | semRel (n : Fin 64) (a : Agent) (v : Word)
  /-- SEMAPHORE_REQUEST (R62): A herd peer's semaphore request message is resolved in stamped order and answered. -/
  | semaphoreRequest (n : Fin 64) (peer : Fin 64) (release : Bool)
  /-- DOORBELL (R59): A write of n to DBq tells the bound DMA engine that n further command packets are ready. -/
  | doorbell (q : Fin 16) (n : Word)
  /-- REGISTER_WRITE (R7): A host write to a register without a row of its own acts by its access code: RW fields are set, W1C bits cleared. -/
  | registerWrite (off : BitVec 20) (wide : Bool) (v : BitVec 64)
  /-- UNSUPPORTED_REQUEST (R340): A BAR0 access of an unsupported size or alignment completes as Unsupported Request and sets PCIE_ERR with no other effect. -/
  | unsupportedRequest (off : BitVec 20) (size : Nat) (write : Bool)
  /-- BAR2_WRITE (R21): A host write through the BAR2 aperture lands in image staging, or is discarded and sets APERTURE. -/
  | bar2Write (off : BitVec 26) (bytes : List Byte)
  /-- MODE_SET (R448): Enters GRAZE or STALL, or leaves them, running the domain entry of R452. -/
  | modeSet (c : Packet)
  /-- MODE_STATUS (R464): Returns the mode, whether a transition runs, the last wake cause and the sense cycles. -/
  | modeStatus (c : Packet)
  /-- GRAZE_SET (R454): Sets WAKE_PERIOD, SENSE_THRESH, GRAZE_AUTO and GRAZE_IDLE. -/
  | grazeSet (c : Packet)
  /-- GRAZE_SENSE_SET (R454): Sets a plain's sense set and returns its load. -/
  | grazeSenseSet (c : Packet)
  /-- STALL_SET (R459): Sets STALL_WAKE. -/
  | stallSet (c : Packet)
  /-- POWER_STATUS (R464): Returns VIN, input power, case temperature, rail faults and the domains that are on. -/
  | powerStatus (c : Packet)
  /-- POWER_COUNTERS_READ (R464): Returns the power counters, clearing them if asked. -/
  | powerCountersRead (c : Packet)
  /-- PLAIN_CONFIGURE (R106): Assigns ports to a disabled plain and enables or disables it. -/
  | plainConfigure (c : Packet)
  /-- PLAIN_DISABLE (R139): Withdraws a plain, draining or aborting its tracks. -/
  | plainDisable (c : Packet)
  /-- PLAIN_STATUS (R147): Returns a plain's ports, enable, beams, grid and SF masks and tracks in use. -/
  | plainStatus (c : Packet)
  /-- CHAIN_ENABLE (R520): Sets a plain's chain enable mask, withdrawing or adding chains. -/
  | chainEnable (c : Packet)
  /-- SYNC_SET (R132): Sets the sync values configured for a plain. -/
  | syncSet (c : Packet)
  /-- SEARCH_SET (R148): Sets a plain's grid and SF masks, as one withdrawal or addition. -/
  | searchSet (c : Packet)
  /-- DETECT_SET (R128): Sets DET_COUNT and DET_THRESH for a plain. -/
  | detectSet (c : Packet)
  /-- TRACK_CAP_SET (R126): Sets a plain's TRACK_CAP. -/
  | trackCapSet (c : Packet)
  /-- RECORD_SET (R143): Sets a plain's record and report queues, RAW_PAYLOAD and level reports. -/
  | recordSet (c : Packet)
  /-- LINK_CALIBRATE (R110): Measures port arrival points and sets each plain's release point. -/
  | linkCalibrate (c : Packet)
  /-- PORT_LATENCY_SET (R112): Sets a port's EXT_LATENCY and the whole-sample alignment delay. -/
  | portLatencySet (c : Packet)
  /-- PORT_STATUS (R147): Returns a port's plain, lane state, receive latency, CRC-12 errors and re-links. -/
  | portStatus (c : Packet)
  /-- SYSREF_SET (R109): Chooses the SYSREF pattern of a plain. -/
  | sysrefSet (c : Packet)
  /-- LANE_POLARITY_SET (R147): Sets a port's lane polarity inversion. -/
  | lanePolaritySet (c : Packet)
  /-- GAIN_SET (R114): Gives a device chain a gain word and runs its gain script at once or at the slot boundary. -/
  | gainSet (c : Packet)
  /-- GAIN_GET (R147): Returns the gain word in force for a device chain. -/
  | gainGet (c : Packet)
  /-- LEVEL_SET (R117): Sets a plain's CLIP_LIMIT. -/
  | levelSet (c : Packet)
  /-- BEAM_WEIGHTS_WRITE (R120): Writes one beam's weights into a plain's shadow bank. -/
  | beamWeightsWrite (c : Packet)
  /-- BEAM_TABLE_ACTIVATE (R120): Checks the shadow bank's CRC-32C and schedules the bank swap. -/
  | beamTableActivate (c : Packet)
  /-- BEAM_WEIGHTS_READ (R147): Returns a beam's weights from either bank and its saturated-sample count. -/
  | beamWeightsRead (c : Packet)
  /-- BEAM_ENABLE (R515): Sets a plain's beam enable mask, withdrawing or adding beams. -/
  | beamEnable (c : Packet)
  /-- PADDOCK_WITHDRAW (R142): Withdraws paddocks from service, draining or aborting their tracks. -/
  | paddockWithdraw (c : Packet)
  /-- PADDOCK_RESTORE (R141): Returns paddocks to service. -/
  | paddockRestore (c : Packet)
  /-- FABRIC_STATUS (R147): Returns paddocks in service, search load, tracks in use and decoder queue depth. -/
  | fabricStatus (c : Packet)
  /-- RX_COUNTERS_READ (R149): Returns a plain's receive counters, clearing them if asked. -/
  | rxCountersRead (c : Packet)
  /-- CUT_SET (R156): Sets a plain's CUT_ENABLE, AUTO_RETRY, CUT_EVENTS and CUT_MAX_LAYER. -/
  | cutSet (c : Packet)
  /-- CUT_STATUS (R186): Returns the cutting engine's jobs, residue passes, rate and failed-list entries. -/
  | cutStatus (c : Packet)
  /-- CUT_RETRY (R172): Queues again one or every job awaiting retry after an engine restart. -/
  | cutRetry (c : Packet)
  /-- STORE_STATUS (R155): Returns a plain's ring base, size, write offset, its time and the window. -/
  | storeStatus (c : Packet)
  /-- SPAN_MARKS_READ (R154): Returns a plain's span marks. -/
  | spanMarksRead (c : Packet)
  /-- CUT_ENGINE_RESTART (R172): Restarts the cutting engine, ending every job with ST_RETRY_ENGINE_RESTARTED. -/
  | cutEngineRestart (c : Packet)
  /-- COMBINE_SET (R176): Sets the combining member mask, window, threshold and queue, discarding open sets. -/
  | combineSet (c : Packet)
  /-- COMBINE_STATUS (R186): Returns open sets, reports held and the last combiner chosen. -/
  | combineStatus (c : Packet)
  /-- CUT_COUNTERS_READ (R186): Returns a plain's cutting counters. -/
  | cutCountersRead (c : Packet)
  /-- COMBINE_COUNTERS_READ (R186): Returns the combining counters. -/
  | combineCountersRead (c : Packet)
  /-- RADIO_SPI_SET (R191): Sets a port's SPI clock divider, mode, RD_POS and DATA_WIDTH. -/
  | radioSpiSet (c : Packet)
  /-- RADIO_SCRIPT_RUN (R194): Runs a host script on a port's radio chips and returns the READ data. -/
  | radioScriptRun (c : Packet)
  /-- CAL_WRITE (R197): Writes a calibration entry of a port. -/
  | calWrite (c : Packet)
  /-- CAL_READ (R226): Returns a calibration entry of a port. -/
  | calRead (c : Packet)
  /-- PLAIN_TUNE (R198): Runs a calibration entry on every port of a disabled plain and makes it the receive entry and f_T. -/
  | plainTune (c : Packet)
  /-- GAIN_SCRIPT_SET (R196): Sets a device chain's gain script. -/
  | gainScriptSet (c : Packet)
  /-- RETURN_SET (R201): Sets a port's return state and quiet script. -/
  | returnSet (c : Packet)
  /-- TX_PORT_SET (R208): Sets a port's TX_CHAINS and TX_EXT_LATENCY. -/
  | txPortSet (c : Packet)
  /-- TX_PLAIN_SET (R213): Sets a plain's PA_LEAD, PA_LAG, TX_MAX_SIM and TUNE_SHARED. -/
  | txPlainSet (c : Packet)
  /-- TX_DEFAULTS_SET (R211): Sets a plain's default N_pre, RAMP_LEN and PILOT. -/
  | txDefaultsSet (c : Packet)
  /-- TX_BEAM_WEIGHTS_WRITE (R214): Writes transmit beam weights into a plain's shadow bank. -/
  | txBeamWeightsWrite (c : Packet)
  /-- TX_BEAM_TABLE_ACTIVATE (R214): Checks and schedules the swap of a plain's transmit beam bank. -/
  | txBeamTableActivate (c : Packet)
  /-- TX_BEAM_WEIGHTS_READ (R214): Returns transmit beam weights and the plain's saturated-sample count. -/
  | txBeamWeightsRead (c : Packet)
  /-- COEX_SET (R222): Sets a plain's coexistence mode, COX_LEAD, policy and blanking map. -/
  | coexSet (c : Packet)
  /-- COEX_STATUS (R226): Returns COX_GNT and BLANK levels and the plains blanked. -/
  | coexStatus (c : Packet)
  /-- RCK_STORE (R202): Stores an RCK setting. -/
  | rckStore (c : Packet)
  /-- RCK_SELECT (R203): Hops an RCK to a stored setting, running a band search if needed. -/
  | rckSelect (c : Packet)
  /-- RCK_STATUS (R226): Returns an RCK's setting in force, lock, stored bands and unlock count. -/
  | rckStatus (c : Packet)
  /-- SEQUENCER_STATUS (R226): Returns a port sequencer's state, f_T entry, return state and script faults. -/
  | sequencerStatus (c : Packet)
  /-- TX_COUNTERS_READ (R226): Returns a plain's transmit counters. -/
  | txCountersRead (c : Packet)
  /-- LINK_NETWORK_SET (R228): Configures one of 16 networks. -/
  | linkNetworkSet (c : Packet)
  /-- LINK_NETWORK_STATUS (R253): Returns a network's epoch, overlap, START_COUNT and broadcast counter. -/
  | linkNetworkStatus (c : Packet)
  /-- LINK_EPOCH_ADVANCE (R241): Advances a network's key epoch and starts the overlap. -/
  | linkEpochAdvance (c : Packet)
  /-- LINK_SEEN_SET (R239): Sets SEEN_AGE. -/
  | linkSeenSet (c : Packet)
  /-- IPHC_CONTEXT_SET (R244): Sets one IPHC context of a tenant. -/
  | iphcContextSet (c : Packet)
  /-- REPLAY_STATE_READ (R235): Returns a node's replay window. -/
  | replayStateRead (c : Packet)
  /-- KEY_CACHE_FLUSH (R431): Flushes the key cache for one network or all. -/
  | keyCacheFlush (c : Packet)
  /-- CRYPTO_ENGINE_RESTART (R252): Restarts the crypto engine and reprocesses frames in flight. -/
  | cryptoEngineRestart (c : Packet)
  /-- IMAGE_LOAD (R248): Registers a node image from image staging after checking its CRC-32C. -/
  | imageLoad (c : Packet)
  /-- IMAGE_START (R250): Starts sending a node image in rounds. -/
  | imageStart (c : Packet)
  /-- IMAGE_STOP (R250): Stops an image transfer and optionally unregisters it. -/
  | imageStop (c : Packet)
  /-- IMAGE_STATUS (R253): Returns an image transfer's state and round. -/
  | imageStatus (c : Packet)
  /-- LINK_COUNTERS_READ (R253): Returns a network's link counters. -/
  | linkCountersRead (c : Packet)
  /-- SCHEDULE_SET (R255): Sets NET_EPOCH, SLOT_LEN and TX_OFFSET while no slotframe is in use. -/
  | scheduleSet (c : Packet)
  /-- SCHEDULE_STATUS (R293): Returns ASN, k, TX_OFFSET and the time base in use. -/
  | scheduleStatus (c : Packet)
  /-- SLOTFRAME_SET (R259): Sets a slotframe's length from a named ASN. -/
  | slotframeSet (c : Packet)
  /-- HOPSEQ_SET (R258): Sets a plain's hop sequence from a named ASN. -/
  | hopseqSet (c : Packet)
  /-- CELL_WRITE (R260): Writes a cell-table entry. -/
  | cellWrite (c : Packet)
  /-- CELL_READ (R293): Returns a cell-table entry. -/
  | cellRead (c : Packet)
  /-- GUARD_CLASS_SET (R272): Sets a guard class's B_c, F_c and G_c. -/
  | guardClassSet (c : Packet)
  /-- RENDEZVOUS_SET (R265): Writes a node's rendezvous cells and downlink parameters on its home. -/
  | rendezvousSet (c : Packet)
  /-- RENDEZVOUS_READ (R293): Returns a node's rendezvous block, ê and next guard. -/
  | rendezvousRead (c : Packet)
  /-- DOWNLINK_PURGE (R293): Discards a node's waiting downlinks with ST_ABORTED_BY_HOST. -/
  | downlinkPurge (c : Packet)
  /-- SUBBAND_SET (R275): Sets a duty-cycle sub-band of a plain. -/
  | subbandSet (c : Packet)
  /-- LEDGER_READ (R293): Returns a sub-band's usage, budget, cold flag and refusals. -/
  | ledgerRead (c : Packet)
  /-- LEDGER_LOAD (R278): Loads a sub-band's buckets, replacing them when cold, raising them otherwise. -/
  | ledgerLoad (c : Packet)
  /-- SHAPER_SUBSCRIBER_SET (R280): Sets a tenant's shaping buckets. -/
  | shaperSubscriberSet (c : Packet)
  /-- SHAPER_SERVICE_SET (R280): Sets a service's shaping buckets and DL_LIFETIME. -/
  | shaperServiceSet (c : Packet)
  /-- SHAPER_PORT_SET (R280): Sets a shaping port's buckets. -/
  | shaperPortSet (c : Packet)
  /-- SHAPER_READ (R293): Returns the tokens of a shaping bucket pair. -/
  | shaperRead (c : Packet)
  /-- TX_RECORD_SET (R292): Sets a plain's transmit record queue and record options. -/
  | txRecordSet (c : Packet)
  /-- SHORTFALL_READ (R288): Returns a tenant's shortfall counters. -/
  | shortfallRead (c : Packet)
  /-- SCHED_COUNTERS_READ (R293): Returns a plain's schedule counters. -/
  | schedCountersRead (c : Packet)
  /-- PREFIX_INSERT (R296): Inserts or replaces a prefix-memory entry. -/
  | prefixInsert (c : Packet)
  /-- PREFIX_DELETE (R298): Deletes a prefix-memory entry. -/
  | prefixDelete (c : Packet)
  /-- PREFIX_SEARCH (R297): Returns the longest matching prefix-memory entry. -/
  | prefixSearch (c : Packet)
  /-- PREFIX_NEXT (R312): Walks the prefix memory in key order. -/
  | prefixNext (c : Packet)
  /-- NODE_INSERT (R301): Inserts a node record on its home. -/
  | nodeInsert (c : Packet)
  /-- NODE_DELETE (R314): Deletes a node record, refusing its waiting downlinks. -/
  | nodeDelete (c : Packet)
  /-- NODE_READ (R304): Returns a node record as it stands. -/
  | nodeRead (c : Packet)
  /-- NODE_UPDATE (R316): Updates a node's TENANT and HOST_DATA. -/
  | nodeUpdate (c : Packet)
  /-- NODE_NEXT (R312): Walks the node table from a cursor. -/
  | nodeNext (c : Packet)
  /-- FLUSH_BY_PORT (R313): Clears or deletes paths learned through a port and deletes routes through it. -/
  | flushByPort (c : Packet)
  /-- NODE_HOME_MOVE (R315): Copies a prefix's node records to a target member and arranges the home switch. -/
  | nodeHomeMove (c : Packet)
  /-- HOME_SWITCH (R315): At the chosen slot boundary every member applies the new home entry and the old home hands over its records and downlinks. -/
  | homeSwitch (x : SwitchIn)
  /-- FWD_TENANT_SET (R307): Sets a tenant's host queue and DSCP_SERVICE. -/
  | fwdTenantSet (c : Packet)
  /-- FWD_FLOOD_SET (R310): Sets a network's flood member set. -/
  | fwdFloodSet (c : Packet)
  /-- FWD_STATUS (R316): Returns the forwarding table occupancy and cache statistics. -/
  | fwdStatus (c : Packet)
  /-- FWD_COUNTERS_READ (R316): Returns the forwarding counters. -/
  | fwdCountersRead (c : Packet)
  /-- BH_PORT_SET (R321): Configures a backhaul port. -/
  | bhPortSet (c : Packet)
  /-- BH_FILTER_SET (R320): Sets a backhaul address filter entry. -/
  | bhFilterSet (c : Packet)
  /-- BH_VLAN_SET (R322): Maps a VID of a port to a tenant. -/
  | bhVlanSet (c : Packet)
  /-- BH_EGRESS_SET (R325): Sets a port's egress entry for a tenant. -/
  | bhEgressSet (c : Packet)
  /-- BH_STATUS (R348): Returns a backhaul port's link, FEC, MAX_FRAME and queue depths. -/
  | bhStatus (c : Packet)
  /-- BH_COUNTERS_READ (R348): Returns a backhaul port's counters. -/
  | bhCountersRead (c : Packet)
  /-- HERD_LINK_SET (R330): Enables a herd link and sets its lane options. -/
  | herdLinkSet (c : Packet)
  /-- HERD_ROUTE_SET (R333): Sets the herd routing entry of a destination. -/
  | herdRouteSet (c : Packet)
  /-- HERD_LINK_STATUS (R348): Returns a herd link's state and neighbour. -/
  | herdLinkStatus (c : Packet)
  /-- HERD_COUNTERS_READ (R348): Returns a herd link's counters. -/
  | herdCountersRead (c : Packet)
  /-- APERTURE_SET (R341): Moves the BAR2 aperture. -/
  | apertureSet (c : Packet)
  /-- DMA_ENGINE_SET (R342): Binds and starts a DMA engine on a queue and descriptor ring. -/
  | dmaEngineSet (c : Packet)
  /-- DMA_ENGINE_STOP (R348): Stops a DMA engine and returns its next ring index. -/
  | dmaEngineStop (c : Packet)
  /-- DMA_STATUS (R348): Returns a DMA engine's state and progress. -/
  | dmaStatus (c : Packet)
  /-- PCIE_STATUS (R348): Returns link speed, width and AER status. -/
  | pcieStatus (c : Packet)
  /-- TB_SELECT (R354): Sets the priority list of bases that ST follows and its slew settings. -/
  | tbSelect (c : Packet)
  /-- TIME_STATUS_READ (R384): Returns TIME_STATUS, base offsets and the ST rate correction. -/
  | timeStatusRead (c : Packet)
  /-- PTP_SET (R363): Configures a PTP slave domain. -/
  | ptpSet (c : Packet)
  /-- TB_REARM (R352): Returns a base to unlocked so that its next lock steps it. -/
  | tbRearm (c : Packet)
  /-- TB4_LOAD (R353): Steps TB4 once and sets TB4_DISCIPLINE. -/
  | tb4Load (c : Packet)
  /-- PPS_SET (R366): Configures PPS_IN and PPS_OUT. -/
  | ppsSet (c : Packet)
  /-- PPS_TOD_SET (R366): Gives the TAI seconds of the next PPS pulse. -/
  | ppsTodSet (c : Packet)
  /-- TC_SET (R364): Sets the transparent clock ports and TS_LATENCY. -/
  | tcSet (c : Packet)
  /-- HERD_TIME_SET (R368): Names the herd time source and HT_INTERVAL. -/
  | herdTimeSet (c : Packet)
  /-- SURVEY_RUN (R369): Starts a delay survey along a path of herd IDs. -/
  | surveyRun (c : Packet)
  /-- SURVEY_READ (R384): Returns a link's stored delay and marks. -/
  | surveyRead (c : Packet)
  /-- TIME_COUNTERS_READ (R384): Returns the time counters. -/
  | timeCountersRead (c : Packet)
  /-- HERD_ID_SET (R386): Overrides the strapped herd ID while every herd link is disabled. -/
  | herdIdSet (c : Packet)
  /-- HERD_MEMBERS_SET (R387): Sets the configured members and SPLIT_DELAY. -/
  | herdMembersSet (c : Packet)
  /-- HERD_STATUS (R418): Returns the present mask, split and minority state and counts. -/
  | herdStatus (c : Packet)
  /-- HERD_LEAVE (R394): Prepares the device to leave the herd, withdrawing its plains. -/
  | herdLeave (c : Packet)
  /-- FOREIGN_SET (R392): Sets a port's FOREIGN_VID. -/
  | foreignSet (c : Packet)
  /-- TANDEM_FORM (R397): Forms a tandem with the given role, position, link and lease settings. -/
  | tandemForm (c : Packet)
  /-- TANDEM_DISSOLVE (R418): Dissolves the tandem. -/
  | tandemDissolve (c : Packet)
  /-- TANDEM_STATUS (R418): Returns the tandem role, step state and revert progress. -/
  | tandemStatus (c : Packet)
  /-- REINS_HANDOVER (R409): Hands the reins to the in-step partner at a slot boundary. -/
  | reinsHandover (c : Packet)
  /-- TANDEM_RESYNC (R413): Resynchronises the member without the reins from the holder. -/
  | tandemResync (c : Packet)
  /-- BRIDLE_STATUS (R418): Returns the voting channels, withdrawals and restarts. -/
  | bridleStatus (c : Packet)
  /-- TANDEM_COUNTERS_READ (R418): Returns the tandem counters. -/
  | tandemCountersRead (c : Packet)
  /-- VAULT_STATUS (R440): Returns the vault state, slot counts, TAMPER_COUNT and MASK_PERIOD. -/
  | vaultStatus (c : Packet)
  /-- SLOT_GENERATE (R426): Generates a TRANSPORT key pair in an empty slot. -/
  | slotGenerate (c : Packet)
  /-- SLOT_IMPORT (R427): Unwraps and loads a ZONE or OPERATOR key into an empty slot. -/
  | slotImport (c : Packet)
  /-- SLOT_RETIRE (R425): Erases a slot's key material and evicts derived keys. -/
  | slotRetire (c : Packet)
  /-- SLOT_INFO (R440): Returns a slot's state, type, origin, check value and public key. -/
  | slotInfo (c : Packet)
  /-- ATTEST (R438): Returns a Brand-signed statement about a slot. -/
  | attest (c : Packet)
  /-- BRAND_CERT_READ (R421): Returns the Brand certificate. -/
  | brandCertRead (c : Packet)
  /-- ZONE_NEXT_SET (R430): Binds or cancels the zone slot for a network's next epoch. -/
  | zoneNextSet (c : Packet)
  /-- MASK_SET (R428): Sets MASK_PERIOD. -/
  | maskSet (c : Packet)
  /-- TAMPER_SET (R436): Sets the tamper inputs, actions, switch levels and LOCK. -/
  | tamperSet (c : Packet)
  /-- TAMPER_STATUS (R440): Returns the tripped inputs and the last zeroising input. -/
  | tamperStatus (c : Packet)
  /-- TAMPER_CLEAR (R435): Releases the TAMPERED latch while no enabled input is tripped. -/
  | tamperClear (c : Packet)
  /-- VAULT_ZEROISE (R436): Asserts the zeroise line without latching TAMPERED. -/
  | vaultZeroise (c : Packet)
  /-- FW_BEGIN (R473): Erases the inactive firmware slot and begins loading an image. -/
  | fwBegin (c : Packet)
  /-- FW_BLOCK_WRITE (R473): Programs and checks one image block from image staging. -/
  | fwBlockWrite (c : Packet)
  /-- FW_STATUS (R484): Returns firmware slot states, loading progress and chain state. -/
  | fwStatus (c : Packet)
  /-- FW_CHAIN_SET (R474): Sets the image chain of herd IDs. -/
  | fwChainSet (c : Packet)
  /-- FW_CHAIN_RESUME (R475): Resumes passing the image along the chain. -/
  | fwChainResume (c : Packet)
  /-- FW_ACTIVATE (R480): Begins running Bridle on the verified inactive firmware slot. -/
  | fwActivate (c : Packet)
  /-- FW_POLICY_SET (R476): Writes the countersignature policy into the control record. -/
  | fwPolicySet (c : Packet)
  /-- TACK_SAVE (R478): Saves the configuration in force as the new active tack. -/
  | tackSave (c : Packet)
  /-- TACK_REVERT (R478): Swaps the active and previous tacks, resetting now if asked. -/
  | tackRevert (c : Packet)
  /-- TACK_STATUS (R484): Returns the active and previous tacks and the lock. -/
  | tackStatus (c : Packet)
  /-- TACK_LOCK (R479): Locks or unlocks the tack sets. -/
  | tackLock (c : Packet)
  /-- FLASH_READ (R484): Reads bytes from the host area of flash. -/
  | flashRead (c : Packet)
  /-- FLASH_PROGRAM (R468): Programs erased bytes of the host area. -/
  | flashProgram (c : Packet)
  /-- FLASH_ERASE (R469): Erases host-area sectors under the journal. -/
  | flashErase (c : Packet)
  /-- FLASH_STATUS (R484): Returns the flash size, re-erase marks and journal use. -/
  | flashStatus (c : Packet)
  /-- FLASH_OPERATION_COMPLETE (R468): A flash erase or program finishes, is read back and journaled, and its command completes. -/
  | flashOperationComplete (ok : Bool)
  /-- FLASH_SECTOR_REERASE (R470): After SADDLE step 12 the flash manager re-erases each sector marked for re-erase. -/
  | flashSectorReerase (sector : Nat)
  /-- SADDLE (R460): From VIN valid and RESET_N high, the start-up sequence runs to datapath-ready. -/
  | saddle (x : SaddleIn)
  /-- REFIN_DETECTED (R462): A SADDLE waiting at step 4 continues once REFIN is detected. -/
  | refinDetected (x : SaddleIn)
  /-- RESET_N_FALL (R446): RESET_N falling writes back the node cache, saves the stash and puts DRAM in self-refresh. -/
  | resetNFall (width : Nat) (saved : Bool)
  /-- POWER_FAIL (R444): Low VIN, VIN_EN falling or a surge starts power-fail handling, which runs to the end. -/
  | powerFail (erasing : Option Nat)
  /-- VIN_SURGE (R442): VIN above 60 V sets VIN_SURGE. -/
  | vinSurge
  /-- RAIL_FAULT (R443): A rail leaving ±5 % sets RAIL_FAULT and posts event 0x0103. -/
  | railFault (rails : Word)
  /-- THERMAL_WARN (R65): Case temperature within 5 °C of the maximum sets THERMAL_WARN. -/
  | thermalWarn
  /-- VBAT_LOW (R65): VBAT below 2.2 V sets VBAT_LOW. -/
  | vbatLow
  /-- CLK_LOSS (R19): Loss of REFIN or root PLL lock gates the RCKs, ends transmissions and tracks and sets CLK_LOSS. -/
  | clkLoss
  /-- DATAPATH_RESTART (R19): After the root PLL has held lock for 10 ms the device restarts the datapath. -/
  | datapathRestart
  /-- SERDES_UNLOCK (R65): A serdes PLL losing lock sets SERDES_UNLOCK. -/
  | serdesUnlock
  /-- DRAM_PLL_UNLOCK (R65): The DRAM PLL losing lock sets DRAM_PLL_UNLOCK. -/
  | dramPllUnlock
  /-- DRAM_UE (R23): An uncorrectable DRAM read sets DRAM_UE and is handled by region. -/
  | dramUe (x : UeIn)
  /-- DRAM_SCRUB (R23): The scrubber visits DRAM and counts corrected errors, setting DRAM_CE beyond 1,000 in 24 h. -/
  | dramScrub (corrected : Nat) (dayEnds : Bool)
  /-- RENDEZVOUS_INDEX_REBUILD (R23): Bridle rebuilds a rendezvous index entry lost to an uncorrectable error. -/
  | rendezvousIndexRebuild (index : Nat)
  /-- SRAM_PARITY (R65): An on-die SRAM parity error sets SRAM_PARITY. -/
  | sramParity
  /-- LANE_LOSS (R113): A receive lane losing synchronisation zeroes its chains, marks the store and tracks and starts a re-link. -/
  | laneLoss (p : Fin 16)
  /-- LANE_RELINK (R113): A re-linked receive lane returns at the next multiblock boundary or waits for calibration. -/
  | laneRelink (p : Fin 16) (arrival : Fin 128)
  /-- TX_LANE_FAULT (R209): A transmit lane fault ends the plain's transmissions and re-links the lane. -/
  | txLaneFault (p : Fin 16)
  /-- SYSREF_FAULT (R65): SYSREF alignment lost sets SYSREF_FAULT. -/
  | sysrefFault (p : Fin 4)
  /-- RCK_UNLOCK (R206): An RCK losing lock outside a hop holds its output low and relocks. -/
  | rckUnlock (r : Fin 4)
  /-- RCK_RELOCK (R206): After 1 ms of lock the RCK output is released and event 0x0402 posted. -/
  | rckRelock (r : Fin 4)
  /-- DETECTION (R128): DET_COUNT agreeing windows declare a detection that claims a track or is refused. -/
  | detection (d : DetectIn)
  /-- PREAMBLE_TIMEOUT (R131): No down-chirps within 64 symbols releases the track. -/
  | preambleTimeout (t : Fin 4096)
  /-- SYNC_DECISION (R132): The track decides the sync nibbles and continues or drops the frame. -/
  | syncDecision (t : Fin 4096) (k1 k2 : Nat) (tStart : BitVec 64)
  /-- HEADER_RESULT (R133): The decoder returns the header result, ending the track or fixing the frame's length. -/
  | headerResult (t : Fin 4096) (x : HeaderIn)
  /-- PILOT (R134): At each pilot the track re-estimates carrier offset and timing. -/
  | pilot (t : Fin 4096) (offset : Word) (stop : BitVec 64)
  /-- TRACK_LAST_SYMBOL (R136): At its last symbol the track hands the packet to the decoder queue and is released. -/
  | trackLastSymbol (t : Fin 4096) (x : LastIn)
  /-- DECODER_QUEUE_ENTRY (R519): A finished track waiting for a full decoder queue enters it when room appears. -/
  | decoderQueueEntry
  /-- DECODER_RESULT (R93): The decoder result arrives; success queues a cutting job, failure may send a combining report. -/
  | decoderResult (x : DecodeIn)
  /-- DECODER_SELF_CHECK (R151): Once a second the decoder decodes a stored test vector and sets DECODER_FAULT on a mismatch. -/
  | decoderSelfCheck (ok : Bool)
  /-- LEVEL_REPORT (R116): At the end of each 100 ms window a plain posts its level report and judges clipping. -/
  | levelReport (p : Fin 4) (chains : List (List Word))
  /-- WITHDRAWAL_DRAIN_COMPLETE (R139): When the last draining track ends the capacity is powered down and the reply posted. -/
  | withdrawalDrainComplete (q : Fin 16) (tag : BitVec 16)
  /-- WITHDRAWAL_DRAIN_TIMEOUT (R140): After 4.0 s remaining tracks are aborted and the reply posted. -/
  | withdrawalDrainTimeout (q : Fin 16) (tag : BitVec 16)
  /-- BEAM_TABLE_SWAP (R120): At the named slot the beam banks swap and the reply is posted. -/
  | beamTableSwap (p : Fin 4) (tx : Bool)
  /-- BEAM_PARITY_ERROR (R122): A parity error forces a beam's output to zero and sets BEAM_TABLE_ERR. -/
  | beamParityError (p : Fin 4) (b : Fin 64) (tx : Bool)
  /-- PORT_SCRIPT_START (R195): A waiting script starts on its port in class order. -/
  | portScriptStart (p : Fin 16)
  /-- PORT_SCRIPT_COMPLETE (R194): A script ends, or stops on a VERIFY mismatch, and its effects follow. -/
  | portScriptComplete (p : Fin 16) (cls : Nat) (received : List Word)
  /-- CUT_JOB_DISPATCH (R158): A queued cutting job is dispatched when the engine has room. -/
  | cutJobDispatch
  /-- CUT_SUBTRACTION_START (R159): A dispatched job begins subtraction once overlapping jobs and residue tracks allow. -/
  | cutSubtractionStart (job : Nat)
  /-- CUT_SUBTRACTION_END (R167): Subtraction ends and the residue pass starts re-demodulation and re-detection. -/
  | cutSubtractionEnd (job : Nat) (p : Fin 4)
  /-- RESIDUE_DETECTION (R167): The residue pass declares a new detection or re-demodulates a failed-list entry. -/
  | residueDetection (job : Nat) (d : DetectIn) (redemod : Option RedemodIn)
  /-- CUT_JOB_COMPLETE (R158): A job's residue pass has searched its window and handed on its tracks. -/
  | cutJobComplete (job : Nat)
  /-- CUT_JOB_EXPIRED (R160): The ring overwrites a job's span and the job ends as expired. -/
  | cutJobExpired (job progress : Nat)
  /-- CUT_ENGINE_FAULT_RESTART (R172): A cutting-engine self-check failure restarts the engine. -/
  | cutEngineFaultRestart
  /-- CUT_JOB_RELEASE (R172): A job not resumed within 1 s is released and marked PARTIAL_CUT. -/
  | cutJobRelease (job : Nat)
  /-- COMBINING_REPORT (R180): A combining report reaches the combiner and joins or opens a set, with a decode attempt. -/
  | combiningReport (r : Report) (epoch : Word)
  /-- COMBINE_DECODE_RESULT (R183): A combined decode succeeds or fails, closing the set and posting a record. -/
  | combineDecodeResult (set : Nat) (x : DecodeIn)
  /-- COMBINE_WINDOW_EXPIRY (R181): A combining set closes at COMBINE_WINDOW without a decode. -/
  | combineWindowExpiry (set : Nat)
  /-- CUT_NOTICE (R184): A cut notice reaches a reporter, which offers the frame to its cutting engine. -/
  | cutNotice (x : NoticeIn)
  /-- LINK_ENGINE_FRAME (R233): The link engine takes a decoded frame through its receive steps and delivers it. -/
  | linkEngineFrame
  /-- FORWARDED_FRAME (R234): A forwarded frame reaches the node's home and enters its link engine. -/
  | forwardedFrame (src : Fin 64) (h : Heard)
  /-- HOME_ACK (R247): An acknowledgement built by a home reaches the receiving device for transmission. -/
  | homeAck (x : AckIn)
  /-- SEEN_CACHE_AGE (R239): A seen-cache entry ages out after SEEN_AGE. -/
  | seenCacheAge (src ctr : Word)
  /-- EPOCH_OVERLAP_END (R241): The previous epoch's overlap ends and its cache entries are evicted. -/
  | epochOverlapEnd (n : Fin 16)
  /-- CRYPTO_ENGINE_FAULT_RESTART (R252): A crypto self-check failure restarts the engine and reprocesses frames. -/
  | cryptoEngineFaultRestart
  /-- IMAGE_ROUND_COMPLETE (R250): An image round ends and report collection begins. -/
  | imageRoundComplete (id : BitVec 16)
  /-- REPORT_WAIT_EXPIRY (R250): After REPORT_WAIT the next round starts or the transfer ends. -/
  | reportWaitExpiry (id : BitVec 16)
  /-- SLOT_BOUNDARY (R259): At a slot boundary pending schedule and plain settings take effect. -/
  | slotBoundary
  /-- CELL_SELECTION (R285): At t0 − 2.0 ms the candidates of a plain are judged and admitted in precedence order. -/
  | cellSelection (p : Fin 4) (asn : BitVec 40)
  /-- RENDEZVOUS_CANDIDATE_PASS (R268): At t0 − 3.0 ms the home passes a candidate to the transmitting member. -/
  | rendezvousCandidatePass (index : Nat) (cell : Fin 4) (asn : BitVec 40)
  /-- RENDEZVOUS_CANDIDATE (R268): A candidate from the home reaches the transmitting member and is selected there. -/
  | rendezvousCandidate (x : CandIn)
  /-- CANDIDATE_OUTCOME (R268): A member's candidate outcome reaches the home. -/
  | candidateOutcome (x : OutcomeIn)
  /-- FRAME_BUILD (R15): The link engine builds an admitted frame and the transmit chain loads it. -/
  | frameBuild (tx : Nat)
  /-- COX_REQUEST_RISE (R223): COX_REQ rises at t0 − COX_LEAD. -/
  | coxRequestRise (p : Fin 4) (tx : Option Nat) (asn : BitVec 40)
  /-- COX_GRANT_JUDGED (R224): COX_GNT is judged at t0 − 110 µs and the transmission proceeds or is not started. -/
  | coxGrantJudged (tx : Nat) (grant : Bool)
  /-- PREP (R220): At t0 − 100 µs the sequencer hops the tuning and runs the entry script. -/
  | prep (tx : Nat) (p : Fin 4)
  /-- TX_SWITCH_ON (R220): At t0 − 80 µs T/R goes to transmit and TXEN rises. -/
  | txSwitchOn (tx : Nat)
  /-- PAEN_ASSERT (R220): At t0 − PA_LEAD PAEN rises. -/
  | paenAssert (tx : Nat)
  /-- FIRST_SAMPLE_RELEASE (R215): The first sample is released so that the ramp starts at t0, or the transmission is not started. -/
  | firstSampleRelease (tx : Nat) (inTime : Bool)
  /-- TX_UNDERRUN (R216): A starved transmit lane ends the transmission early. -/
  | txUnderrun (tx : Nat)
  /-- TRANSMISSION_END (R220): A transmission ends at t0 + T_air and its record is posted. -/
  | transmissionEnd (tx : Nat)
  /-- PAEN_RELEASE (R220): PA_LAG after the end PAEN falls. -/
  | paenRelease (tx : Nat)
  /-- RETURN (R201): 2 µs later TXEN falls, T/R returns to receive and the return state runs. -/
  | returnRx (tx : Nat)
  /-- OWN_TRANSMISSION_SPAN_END (R217): 20 µs after RETURN completes the own-transmission span ends. -/
  | ownTransmissionSpanEnd (p : Fin 4)
  /-- BLANK_ASSERT (R225): A mapped BLANK input becoming active blanks the plain and ends or stops its transmissions. -/
  | blankAssert (i : Fin 8)
  /-- BLANK_RELEASE (R225): A BLANK input going inactive unblanks the plain, with marking for 20 µs more. -/
  | blankRelease (i : Fin 8)
  /-- DL_LIFETIME_EXPIRY (R287): A deferred downlink's lifetime ends and it is refused. -/
  | dlLifetimeExpiry (seq : Nat)
  /-- LEDGER_SECOND (R277): Each second of ST opens a new ledger bucket and applies pending sub-band changes. -/
  | ledgerSecond
  /-- SHAPER_REFILL (R281): Each millisecond every shaping bucket gains its rate. -/
  | shaperRefill
  /-- BH_FRAME_RECEIVED (R319): A backhaul frame is judged, tagged to a tenant and classified. -/
  | bhFrameReceived (p : Fin 2) (f : EthIn)
  /-- FORWARDED_PACKET (R308): A packet forwarded by another member reaches the node's home. -/
  | forwardedPacket (x : PacketIn)
  /-- FLOOD_COPY (R311): A flood-fallback copy reaches a member and waits for a broadcast cell. -/
  | floodCopy (x : FloodIn)
  /-- BH_FRAME_TRANSMIT (R325): A backhaul egress packet is framed and sent. -/
  | bhFrameTransmit (p : Fin 2)
  /-- HOST_TX_FRAME (R326): A host transmit-queue packet is padded and sent on the port. -/
  | hostTxFrame (p : Fin 2)
  /-- BH_LINK_DOWN (R327): A backhaul link loss sets BH_DOWN. -/
  | bhLinkDown (p : Fin 2)
  /-- BH_LINK_UP (R327): A backhaul link recovers by itself. -/
  | bhLinkUp (p : Fin 2)
  /-- HERD_FLIT_RECEIVED (R331): A herd flit is accepted, stomped, or discarded with a NAK, and cut through if in transit. -/
  | herdFlitReceived (l : Fin 4) (f : FlitIn)
  /-- HERD_FLIT_TRANSMIT (R334): A waiting flit is sent when a credit of its channel and class is available. -/
  | herdFlitTransmit (l : Fin 4)
  /-- HERD_LINK_UP (R330): After 64 good flits the link is up and the neighbour recorded. -/
  | herdLinkUp (l : Fin 4) (hid : Fin 64) (epoch : Word)
  /-- HERD_REPLAY_TIMEOUT (R331): After 2 µs without an acknowledgement the sender resends. -/
  | herdReplayTimeout (l : Fin 4)
  /-- HERD_LINK_DOWN (R331): Too many resends or 10 µs without a flit take the link down. -/
  | herdLinkDown (l : Fin 4)
  /-- HERD_MESSAGE_TIMEOUT (R336): A message not wholly received within 1 ms is discarded. -/
  | herdMessageTimeout (src : Fin 64) (vc : Bool) (seq : BitVec 16)
  /-- MEMBERSHIP_SEND (R387): Every 10 ms the device sends a membership message on each link. -/
  | membershipSend
  /-- MEMBERSHIP_MESSAGE (R387): A membership message updates the present set. -/
  | membershipMessage (l : Fin 4) (present : BitVec 64)
  /-- HERD_SPLIT (R388): A member absent for SPLIT_DELAY declares a split and authority is judged. -/
  | herdSplit
  /-- HERD_HEAL (R393): Every member present for SPLIT_DELAY heals the split. -/
  | herdHeal
  /-- HOST_RESET (R347): PERST_N, FLR or D3hot-to-D0 resets only the host attachment. -/
  | hostReset (kind : HostResetKind)
  /-- DMA_POLL (R344): A host-to-device engine reads its head descriptor at its POLL interval or doorbell. -/
  | dmaPoll (e : Fin 16) (d : DescIn)
  /-- DMA_D2H_TRANSFER (R344): A device-to-host engine pops visible words into host buffers. -/
  | dmaD2hTransfer (e : Fin 16) (d : DescIn)
  /-- DMA_HOLDOFF_EXPIRY (R344): At the end of HOLDOFF coalesced MSI-X messages are raised. -/
  | dmaHoldoffExpiry (e : Fin 16)
  /-- DELAY_REQ_SEND (R363): A Delay_Req is sent at its interval. -/
  | delayReqSend (b : Fin 2)
  /-- TB_STATE_CHANGE (R351): A base becomes locked, holdover or lost and ST reselects. -/
  | tbStateChange (b : Fin 4) (x : BaseIn)
  /-- REVERT_DELAY_EXPIRY (R358): A higher-listed base locked for REVERT_DELAY becomes the base ST follows. -/
  | revertDelayExpiry
  /-- FIRST_WAIT_EXPIRY (R355): FIRST_WAIT after TB_SELECT, a listed TB4 counts for ST's first lock. -/
  | firstWaitExpiry
  /-- PPS_IN_EDGE (R366): A PPS_IN edge is stamped and accepted or rejected for TB2. -/
  | ppsInEdge (falling : Bool)
  /-- PPS_MISSING (R366): A PPS window with no accepted pulse sets PPS_MISSING. -/
  | ppsMissing
  /-- PPS_OUT_PULSE (R367): PPS_OUT rises at each whole second of ST plus its offset. -/
  | ppsOutPulse
  /-- HERD_TIME_SEND (R368): Every HT_INTERVAL a herd time message is sent on each link. -/
  | herdTimeSend
  /-- HERD_TIME_MESSAGE (R368): A herd time message sets TB3 from the source's time and the link delay. -/
  | herdTimeMessage (l : Fin 4) (ts age : BitVec 64)
  /-- SURVEY_PROBE (R369): Probe pairs measure a link's delay and pass the survey on, or break it. -/
  | surveyProbe (x : ProbeIn)
  /-- SLEEP_CALIBRATION (R371): Every 32,768 sleep cycles the sleep period is measured and published. -/
  | sleepCalibration (period : Word)
  /-- SNAP (R379): A write of SNAP latches ST and TB0–TB4 in one TICK. -/
  | snap (v : Word)
  /-- TB4_INC_HI (R353): A write of TB4_INC_HI makes the new TB4 increment apply from the next TICK. -/
  | tb4IncHi (v : Word)
  /-- GT_MATCH (R374): A gait timer count equal to GT_COMPARE performs its mode's match action. -/
  | gtMatch (t : Fin 16)
  /-- GT_CAP_EDGE (R377): A capture input edge copies the count to GT_CAPTURE. -/
  | gtCapEdge (t : Fin 16) (falling : Bool)
  /-- GT_CLEAR (R382): A write of GT_CTRL.CLEAR sets the count to 0 and the output low. -/
  | gtClear (t : Fin 16) (v : Word)
  /-- GT_COUNT_WRITE (R376): A write to GT_COUNT loads the count and cancels a match in the same count. -/
  | gtCountWrite (t : Fin 16) (v : Word)
  /-- GT_COMPARE_WRITE (R376): A write to GT_COMPARE sets the compare value, replacing a periodic add in the same count. -/
  | gtCompareWrite (t : Fin 16) (v : Word)
  /-- GT_CAPTURE_READ (R377): A read of GT_CAPTURE returns the capture and clears CAP_FULL. -/
  | gtCaptureRead (t : Fin 16)
  /-- PD_VOTE_WRITE (R451): A host write to PD_VOTE.HOST keeps a domain on or withdraws host votes. -/
  | pdVoteWrite (d : Fin 47) (v : Word)
  /-- DOMAIN_IDLE_GATE (R452): A domain without a vote for IDLE_MS gates in the five steps of entry. -/
  | domainIdleGate (d : Fin 47) (ok : Bool)
  /-- DOMAIN_UNGATE (R450): A returning vote ungates a domain, retrying on failure. -/
  | domainUngate (d : Fin 47) (failures : Nat)
  /-- MODE_ENTRY_DRAIN_COMPLETE (R452): After the drain of a GRAZE or STALL entry, save, isolate and gate complete the entry. -/
  | modeEntryDrainComplete
  /-- GRAZE_SENSE_CYCLE (R455): Every WAKE_PERIOD a plain's sense cycle ungates PDp and begins sensing. -/
  | grazeSenseCycle (p : Fin 4)
  /-- GRAZE_SENSE_DECISION (R455): At the end of the sense window a hit wakes the device, else SENSE is cleared. -/
  | grazeSenseDecision (p : Fin 4) (peak : Nat)
  /-- GRAZE_SCHEDULED_WAKE (R455): At t0 − 10 ms of a live cell with a candidate the device wakes from GRAZE. -/
  | grazeScheduledWake (p : Fin 4)
  /-- GRAZE_AUTO_ENTRY (R457): With GRAZE_AUTO, GRAZE_IDLE without activity re-enters GRAZE. -/
  | grazeAutoEntry
  /-- STALL_WAKE (R459): A host write, PERST_N falling or STALL_WAKE ends STALL with time make-up. -/
  | stallWake (x : WakeIn)
  /-- MIRRORED_INPUT (R400): A mirrored input from the reins holder is applied by both members at its stamp plus 8 µs. -/
  | mirroredInput (asn : BitVec 40) (seq : Nat) (x : Mirrored)
  /-- SLOT_DIGEST (R403): A partner's slot digest is compared by ASN, with mismatch handling. -/
  | slotDigest (asn : BitVec 40) (digest : BitVec 64)
  /-- DIGEST_MISSING (R404): A partner whose digest is missing for 4 slots has left the step. -/
  | digestMissing
  /-- REINS_RENEWAL_SEND (R406): Every 100 µs the holder's lease hardware sends a renewal on both paths. -/
  | reinsRenewalSend
  /-- REINS_RENEWAL (R406): A renewal reaches the partner, which acknowledges it on the same path. -/
  | reinsRenewal (path : Fin 2) (f : ReinsFrame)
  /-- REINS_RELEASE (R409): A release frame reaches the partner naming the handover instant. -/
  | reinsRelease (f : ReinsFrame)
  /-- REVERT_REQUEST (R414): A revert request reaches the holder, which grants a handover. -/
  | revertRequest (f : ReinsFrame)
  /-- HANDOVER_GRANT (R409): A handover grant reaches the requester naming T_h. -/
  | handoverGrant (f : ReinsFrame)
  /-- ALIGNMENT_MARKER (R399): A marker reins frame aligns a joining member's counters and ST to the holder's. -/
  | alignmentMarker (f : ReinsFrame) (st : BitVec 64)
  /-- HANDOVER_INSTANT (R409): At T_h drivers and REINS_SEL change hands and the mirror source moves. -/
  | handoverInstant
  /-- LEASE_END_HOLDER (R407): At its lease end − 100 µs without a later renewal the holder's drivers go high impedance. -/
  | leaseEndHolder
  /-- SILENT_TAKEOVER (R410): At the latest lease end + 100 µs the in-step partner takes the reins and handles the gap. -/
  | silentTakeover
  /-- REINS_LOST (R406): A reins path silent for 3 renewal periods sets REINS_LOST. -/
  | reinsLost (path : Fin 2)
  /-- REVERT_HOLD_EXPIRY (R414): After REVERT_HOLD of matching digests the Lead sends a revert request. -/
  | revertHoldExpiry
  /-- BRIDLE_VOTE (R415): A Bridle channel disagreeing or failing self-test gives up its vote. -/
  | bridleVote (ch : Fin 3) (selfTest : Bool)
  /-- BRIDLE_CHECKPOINT (R416): At a checkpoint the voting channels copy their state into a channel out of the vote. -/
  | bridleCheckpoint (passed : Bool)
  /-- BRIDLE_MAJORITY_LOSS (R417): With no two channels agreeing, SOUND falls and Bridle restarts. -/
  | bridleMajorityLoss
  /-- BRIDLE_RESTART_COMPLETE (R417): Bridle comes back on its firmware and CMD_READY rises. -/
  | bridleRestartComplete
  /-- TAMPER_TRIP (R432): A tamper input trips and zeroises or reports. -/
  | tamperTrip (i : Fin 10)
  /-- VAULT_REMASK (R428): Every MASK_PERIOD every slot is re-masked. -/
  | vaultRemask
  /-- FW_CHAIN_BLOCK (R474): An image chain block reaches a device, which programs it and passes it on. -/
  | fwChainBlock (x : BlockIn)
  /-- FW_CHAIN_ACK (R474): An acknowledgement of a chain block reaches its sender. -/
  | fwChainAck (src : Fin 64) (epoch : Word) (count : Nat)
  /-- FW_CHAIN_ACK_TIMEOUT (R475): A chain block unacknowledged within 100 ms is resent, breaking the chain after three. -/
  | fwChainAckTimeout
  /-- ACTIVATION_PAUSE_END (R480): When running commands complete, ACT_PAUSE rises and Bridle restarts on the new firmware. -/
  | activationPauseEnd
  /-- ACTIVATION_TIMEOUT (R480): A command still running at 2.0 s ends activation with ST_INVALID_STATE. -/
  | activationTimeout
  /-- ACTIVATION_FIRMWARE_UP (R480): The new firmware passes or fails its self-test and service resumes. -/
  | activationFirmwareUp (passed : Bool)
  /-- TAMPER_SENSOR_IN_RANGE (R432): A tripped tamper input returns to its normal level or range and is no longer reported as tripped now. -/
  | tamperSensorInRange (i : Fin 10)
  /-- RCK_HOP_LOCK (R203): An RCK hop started by RCK_SELECT reaches lock after its band search of up to 2 ms, releasing the output, storing the band and completing the command. -/
  | rckHopLock (r : Fin 4) (ns : Nat)
  /-- RING_OVERWRITE (R154): The sample-store ring overwrites the last sample of a span mark or the first sample of a failed-list frame, discarding the mark or the entry. -/
  | ringOverwrite (p : Fin 4) (oldest : BitVec 64)
  /-- NODE_CACHE_WRITE_BACK (R303): A changed node-cache record is written back to DRAM within 100 ms of its change, which makes it visible to BAR2 reads. -/
  | nodeCacheWriteBack (index : Nat)
  /-- JTAG_INSTRUCTION (R497): An IEEE 1149.1 instruction shifted in on JTAG is loaded, with EXTEST, CLAMP and the 1149.6 instructions replaced by BYPASS unless RESET_N is low. -/
  | jtagInstruction (ir : JtagIr)
  /-- UP_DOWN_TURNING_POINT (R374): An up/down gait timer's count reaches GT_TOP or 0 and reverses direction, changing GT_STATUS.DOWN. -/
  | upDownTurningPoint (t : Fin 16)
  deriving DecidableEq, Repr

end Sys2Proof
end

