-- ==== Sys2Proof/Machine/State.lean ====
section
/-! DEFINITION. The state of the YA-6400 as plain data: every register, table, queue, counter and mode the
spec gives the device, the outcomes a step can have, and the state after reset. Each field's docstring names its
rule; INVENTORY.md lists the same fields with their reset values. -/

namespace Sys2Proof.Machine

/-- A table by number: the entries that differ from what the number reads as when unlisted, numbers rising. -/
abbrev Tab (α : Type) := List (Nat × α)

/-- A trouble bit by name (R65); a per-instance field carries its instance. -/
inductive TrbBit where
  | vinLow
  | vinSurge
  | railFault
  | thermalWarn
  | clkLoss
  | serdesUnlock
  | dramPllUnlock
  | sleepCal
  | rckUnlock (n : Fin 4)
  | sysrefFault (n : Fin 4)
  | vbatLow
  | domainFault
  | laneFault (n : Fin 16)
  | trackOverflow (n : Fin 4)
  | clip (n : Fin 4)
  | beamTableErr
  | decoderFault
  | cutBusy
  | cutRestart
  | combineDiscard
  | ledgerExhausted (n : Fin 4)
  | coxMissed (n : Fin 4)
  | blankAbort (n : Fin 4)
  | txUnderrun
  | txTiming
  | scriptFault
  | shaperRefusal
  | precedenceLoss
  | guardRefusal
  | replay
  | micFail
  | rootKeyFail
  | cryptoRestart
  | ackLate
  | linkOverload
  | imageErr
  | nodeInsertFail
  | floodFallback
  | noRoute
  | prefixFull
  | ptrErr
  | queueOverflow
  | spillExhausted
  | dramCe
  | dramUe
  | aperture
  | sramParity
  | cmdMalformed
  | bhDown (n : Fin 2)
  | bhFcs (n : Fin 2)
  | bhTrunc (n : Fin 2)
  | herdDown (n : Fin 4)
  | herdRetry (n : Fin 4)
  | pcieErr
  | dmaFault
  | tbLoss (n : Fin 4)
  | tbSwitch
  | ppsMissing
  | surveyPartial
  | rateLimit
  | gtOverrun
  | peerReset
  | herdSplit
  | minority
  | digestMismatch
  | reinsLost
  | takeover
  | bridleVote
  | selftestFail
  | tamper
  | tamperSensor
  | semAbandoned
  | flashReerase
  | activationFail
  deriving DecidableEq, Repr

/-- Status codes (R36). -/
inductive Status where
  | ok
  | deferredDuty
  | deferredShaper
  | deferredPrecedence
  | deferredRendezvous
  | deferredCapacity
  | deferredCoexPending
  | refusedDuty
  | refusedShaper
  | refusedPrecedence
  | refusedCapacity
  | refusedCoex
  | refusedBlanked
  | refusedNoRoute
  | refusedNodeUnknown
  | refusedTableFull
  | invalidOpcode
  | invalidParameter
  | invalidLength
  | invalidState
  | invalidNotErased
  | invalidCheckValue
  | notPermittedNoReins
  | notPermittedMinority
  | notPermittedTackLocked
  | notPermittedSlotUsed
  | notPermittedTamperLatched
  | retryPeerReset
  | retryEngineRestarted
  | retryModeTransition
  | retryActivationPause
  | failedHardware
  | failedSignature
  | failedFlash
  | failedRootKey
  | abortedByHost
  | abortedCapacityRemoved
  | abortedReset
  deriving DecidableEq, Repr

/-- Operating mode (R58, R447). -/
inductive Mode where
  | saddle
  | gallop
  | trot
  | graze
  | stall
  | remount
  deriving DecidableEq, Repr

/-- Where a command in flight stands (R40). -/
inductive Phase where
  | waiting
  | running
  | held
  deriving DecidableEq, Repr

/-- Where a command comes from: the host's queue, a herd peer that forwards it (R31), or the mirror source of a tandem (R400). -/
inductive CmdSource where
  | host
  | peer (hid : Nat)
  | mirror
  deriving DecidableEq, Repr

/-- What happens on air (R97, R218). -/
inductive AirEvent where
  | start
  | stop
  | fast
  deriving DecidableEq, Repr

/-- Port sequencer state (R189). -/
inductive SeqState where
  | idle
  | rx
  | prep
  | tx
  | ret
  | script
  | held
  deriving DecidableEq, Repr

/-- The command behind a withdrawal (R139, R394, R453, R458). -/
inductive DrainKind where
  | plain
  | chains (left : BitVec 128)
  | search
  | beams
  | paddocks
  | herdLeave
  | mode (target : Mode)
  deriving DecidableEq, Repr

/-- State of a cutting job (R158, R172). -/
inductive JobState where
  | queued
  | dispatched
  | subtracting
  | subtracted
  | residue
  | awaiting
  deriving DecidableEq, Repr

/-- A symbol of a frame: an up-chirp shifted by k chips, or a down-chirp (R73, R75). -/
inductive Chirp where
  | up (k : Nat)
  | down
  deriving DecidableEq, Repr

/-- Stage of a transmission (R220). -/
inductive TxState where
  | selected
  | built
  | judged
  | prep
  | switched
  | paen
  | onAir
  | ended
  | paenOff
  deriving DecidableEq, Repr

/-- A schedule change that waits for its slot (R259). -/
inductive Change where
  | frame (s len : Nat)
  | hop (p : Nat) (seq : List Word)
  | cell (i : Nat) (w0 w1 : Word)
  deriving DecidableEq, Repr

/-- A host write to a pannier window or doorbell held in STALL (R459). -/
inductive HeldWrite where
  | push (q : Nat) (data : BitVec 64) (last : Bool)
  | bell (q : Nat) (n : Word)
  | reg (off : BitVec 20) (wide : Bool) (v : BitVec 64)
  deriving DecidableEq, Repr

/-- A flash operation under way (R468, R469, R473, R478). -/
inductive FlashKind where
  | erase (sector n : Nat)
  | program (addr : Nat) (data : List Byte)
  | tackSave (label : Word) (activate : Bool)
  | fwBegin (slot count : Nat) (chain : Bool)
  | fwBlock (slot num : Nat) (data : List Byte)
  deriving DecidableEq, Repr

/-- A herd message the device originates (R329), without its flit headers. -/
inductive HerdMsg where
  | command (dst : Nat) (op : Nat) (c : Packet)
  | reply (dst : Nat) (words : List Word)
  | frame (dst : Nat) (h : Heard)
  | homeAck (dst : Nat) (a : AckIn)
  | packet (dst : Nat) (p : PacketIn)
  | moveCopy (dst : Nat) (record : List Word)
  | homeEntry (dst : Nat) (net : Nat) (pfx : Word) (len target : Nat)
  | flood (dst : Nat) (f : FloodIn)
  | report (dst : Nat) (r : Report)
  | notice (dst : Nat) (n : NoticeIn)
  | candidate (dst : Nat) (c : CandIn)
  | outcome (dst : Nat) (x : OutcomeIn)
  | semAnswer (dst : Nat) (n result : Nat)
  | time (link : Nat) (t : BitVec 64)
  | ptp (link : Nat) (frame : List Byte)
  | survey (dst : Nat) (path : List Nat) (pos delay : Nat)
  | surveyEnd (dst : Nat) (path : List Nat) (brk : Option Nat)
  | probe (link : Nat) (t1 : BitVec 64)
  | probeAnswer (link : Nat) (t1 t2 t3 : BitVec 64)
  | mirror (asn seq : Nat) (x : Mirrored)
  | reins (f : ReinsFrame)
  | membership (link : Nat) (present : BitVec 64)
  | digest (asn : Nat) (d : BitVec 64)
  | chainBlock (dst num count : Nat) (rest : List Nat) (bytes : List Byte)
  | chainAck (dst count : Nat)
  deriving DecidableEq, Repr

/-- Health of one subsystem (R68, R69). -/
structure Soundness where
  /-- 0 sound, 1 lame, 2 retired (R68) -/
  state : Nat := 0
  /-- instances out of service, 8 bits (R68) -/
  instances : Nat := 0
  /-- trouble register [15:13] and bit [4:0] that caused the last change (R68) -/
  reason : BitVec 16 := 0
  deriving DecidableEq, Repr

/-- Identity, global status, clocks and site pins. -/
structure Dev where
  /-- HERD_ID in force, 6 bits (R58, R386) -/
  hid : BitVec 6 := 0
  /-- level of the HID[5:0] lands, 6 bits (R386, R487) -/
  hidStrap : BitVec 6 := 0
  /-- FW_VERSION, 32 bits, 0 in SADDLE before step 8 (R58) -/
  fwVersion : Word := 0
  /-- SERIAL_HI:SERIAL_LO, factory value (R58) -/
  serial : BitVec 64 := 0
  /-- BOOT_EPOCH of this start, 32 bits (R58, R337) -/
  bootEpoch : Word := 0
  /-- GLOBAL_STATUS.MODE (R58, R447) -/
  mode : Mode := .saddle
  /-- GLOBAL_STATUS.CMD_READY (R58, R460) -/
  cmdReady : Bool := false
  /-- GLOBAL_STATUS.DATA_READY (R58, R460) -/
  dataReady : Bool := false
  /-- the SOUND land and GLOBAL_STATUS.SOUND (R58, R69, R461) -/
  soundPin : Bool := false
  /-- GLOBAL_STATUS.ACT_PAUSE (R58, R480) -/
  actPause : Bool := false
  /-- PG land (R443, R496) -/
  pg : Bool := false
  /-- logic outputs driven, not high impedance (R496) -/
  outputsOn : Bool := false
  /-- REFIN present at the land (R19, R462, R498) -/
  refin : Bool := true
  /-- clock loss in force: datapath stopped, RCKs gated (R19) -/
  clkLost : Bool := false
  /-- SADDLE waits at step 4 for REFIN (R462) -/
  saddleWait : Bool := false
  /-- DRAM trained at the last SADDLE step 9 (R462) -/
  dramOk : Bool := true
  /-- corrected DRAM errors counted in the running 24 h (R23, R65) -/
  dramCe : Nat := 0
  /-- power-fail handling has started (R444) -/
  powerFail : Bool := false
  /-- VIN valid (R442) -/
  vin : Bool := true
  /-- RESET_DEVICE waits for the reply queues until this ST (R41) -/
  resetPending : Option (BitVec 64) := none
  /-- RESET_N is low (R446) -/
  resetLow : Bool := false
  /-- IEEE 1149.1 instruction loaded (R497) -/
  jtagIr : JtagIr := .bypass
  /-- subsystems 1-20 (R68) -/
  soundness : Tab Soundness := []
  /-- next SOUNDNESS_REPORT sequence number (R68) -/
  reportSeq : Word := 0
  /-- rendezvous index entries lost to an uncorrectable error and not yet rebuilt (R23) -/
  idxRebuild : List Nat := []
  deriving DecidableEq, Repr

/-- One command in flight (R27). -/
structure InFlight where
  /-- command queue it came from (R35) -/
  queue : Nat := 0
  /-- TAG (R25) -/
  tag : BitVec 16 := 0
  /-- OPCODE (R25) -/
  opcode : Nat := 0
  /-- NO_REPLY (R30) -/
  noReply : Bool := false
  /-- herd ID of the entry device of a forwarded command (R31) -/
  origin : Option Nat := none
  /-- waiting, running or reply held (R40) -/
  phase : Phase := .running
  /-- a host reset discards its reply (R347) -/
  replyDrop : Bool := false
  /-- executed in step from a mirrored input (R400, R401) -/
  mirrored : Bool := false
  /-- its place among the commands that the device has taken (R29) -/
  seq : Nat := 0
  deriving DecidableEq, Repr

/-- A reply held for a full reply queue (R35). -/
structure HeldReply where
  /-- reply queue -/
  queue : Nat := 0
  /-- TAG -/
  tag : BitVec 16 := 0
  /-- the whole reply, header words included (R34) -/
  words : List Word := []
  /-- RESET_DEVICE's own reply, which follows every other (R41) -/
  final : Bool := false
  /-- herd ID of the entry device that it goes to, when the command came over the herd (R31) -/
  origin : Option Nat := none
  deriving DecidableEq, Repr

/-- A command forwarded to a peer and not yet answered (R31, R33). -/
structure Forwarded where
  /-- target herd ID -/
  peer : Nat := 0
  /-- command queue at the entry device -/
  queue : Nat := 0
  /-- TAG -/
  tag : BitVec 16 := 0
  /-- NO_REPLY -/
  noReply : Bool := false
  /-- its place among the commands that the device has taken (R29) -/
  seq : Nat := 0
  deriving DecidableEq, Repr

/-- A command that waits to start: held before CMD_READY (R347) or accepted and ORDERED (R29). -/
structure WaitingCmd where
  /-- where the command came from -/
  src : CmdSource := .host
  /-- its opcode -/
  op : Nat := 0
  /-- its packet -/
  packet : Packet := ⟨0, 0, 0, [], 0⟩
  /-- taken from its queue; in flight when it executes on this device (R27) -/
  accepted : Bool := false
  /-- its place among the commands that the device has taken (R29) -/
  seq : Nat := 0
  deriving DecidableEq, Repr

/-- Bridle's command interpreter. -/
structure CmdUnit where
  /-- commands in flight, at most 1,024 (R27) -/
  inFlight : List InFlight := []
  /-- replies held for room (R35) -/
  held : List HeldReply := []
  /-- commands forwarded and unanswered (R31) -/
  forwarded : List Forwarded := []
  /-- commands held before CMD_READY or waiting for ORDERED (R29, R347) -/
  waiting : List WaitingCmd := []
  /-- malformed packets counted, 32 bits saturating (R26) -/
  malformed : Nat := 0
  /-- the place that the next command taken has; places count from 1 (R29) -/
  seqNext : Nat := 1
  /-- the place of the waiting command that is being started; 0 while none is (R29) -/
  starting : Nat := 0
  /-- the instant of the latest completion (R42) -/
  doneAt : BitVec 64 := 0
  /-- tags of the commands that completed at that instant (R42) -/
  doneNow : List (BitVec 16) := []
  deriving DecidableEq, Repr

/-- One 8-byte queue word (R46, R56). -/
structure QWord where
  /-- the word -/
  data : BitVec 64 := 0
  /-- last word of its packet -/
  last : Bool := false
  /-- valid bytes of a last word, 1-8 -/
  bytes : Nat := 8
  deriving DecidableEq, Repr

/-- One pannier queue Q0-Q1023 (R43-R56). -/
structure Queue where
  /-- spill cap in 4 KiB units, 0-16,384 (R43) -/
  cap : Nat := 0
  /-- CUT_THRESH in bytes, 16 bits (R40, CUT register) -/
  cutThresh : Nat := 0
  /-- CTRL.CONSUMER; 0b10 for Q0-Q15 (R52) -/
  consumer : BitVec 2 := 0
  /-- CTRL.DMA_ENGINE (R52) -/
  dmaEngine : BitVec 4 := 0
  /-- CTRL.VECTOR (R52) -/
  vector : BitVec 6 := 0
  /-- interrupt armed (R55) -/
  armed : Bool := false
  /-- CTRL.ENABLE; 1 for Q0-Q63 (R52) -/
  enable : Bool := false
  /-- STATUS.UNDERRUN (R54) -/
  underrun : Bool := false
  /-- STATUS.OVERFLOW (R54) -/
  overflow : Bool := false
  /-- STATUS.PTR_ERR (R54) -/
  ptrErr : Bool := false
  /-- STATUS.RESET and POP_INFO[5], set by every device reset (R50, R54) -/
  resetFlag : Bool := true
  /-- STATUS.CFG_REFUSED (R54) -/
  cfgRefused : Bool := false
  /-- words present, head first; DEPTH and the head, tail and spill pointers follow from it (R43, R49) -/
  words : List QWord := []
  /-- the consumer has taken part of the head packet (R48) -/
  begun : Bool := false
  /-- words of the head packet already taken (R46 cut-through) -/
  popped : Nat := 0
  /-- further words of the producer's packet are discarded up to its last (R45, R48, R508) -/
  discard : Bool := false
  /-- last value popped since the queue was reset (R47) -/
  lastPop : BitVec 64 := 0
  /-- POP_INFO[0] (window table) -/
  popLast : Bool := false
  /-- POP_INFO[3:1] (window table) -/
  popBytes : Nat := 0
  /-- POP_INFO[4] -/
  popUnderrun : Bool := false
  /-- LAST_BYTES, 3 bits -/
  lastBytes : Nat := 0
  /-- packets dropped, 32 bits saturating (R508) -/
  drops : Nat := 0
  /-- UNDERRUN reads, 32 bits saturating (R40) -/
  underruns : Nat := 0
  /-- the instant of the latest push (R51) -/
  pushAt : BitVec 64 := 0
  /-- words at the tail that were pushed at that instant (R51) -/
  pushed : Nat := 0
  /-- the instant at which hardware last set a bit of STATUS (R8) -/
  setAt : BitVec 64 := 0
  /-- the bits of STATUS that it set then (R8) -/
  setNow : BitVec 5 := 0
  deriving DecidableEq, Repr

/-- One hardware semaphore (R60). -/
structure Sem where
  /-- agent code of the holder (R60) -/
  holder : Option (BitVec 8) := none
  /-- ABANDONED mark (R63) -/
  abandoned : Bool := false
  deriving DecidableEq, Repr

/-- Trouble-log entry (R66). -/
structure LogEntry where
  /-- sequence number -/
  seq : Word := 0
  /-- register and bit -/
  bit : TrbBit := .vinLow
  /-- further sets absorbed, 16 bits saturating -/
  absorbed : Nat := 0
  /-- lost to an uncorrectable DRAM error; it reads as zero (R23) -/
  lost : Bool := false
  /-- time of the set -/
  time : BitVec 64 := 0
  deriving DecidableEq, Repr

/-- Trouble bits, masks and log (R64-R67). -/
structure Trouble where
  /-- TRB0-TRB7, each 32 bits, W1C, reset 0 (R64, R65) -/
  regs : Tab Word := []
  /-- TRB_MASK0-7, each 32 bits, 0xFFFF_FFFF (R64) -/
  masks : Tab Word := []
  /-- trouble log ring, oldest first, at most 1,048,576 (R66) -/
  log : List LogEntry := []
  /-- next sequence number; 0 after the log is lost with VIN (R66) -/
  logNext : Word := 0
  /-- ring position of the next entry (R22, R66) -/
  logPos : Nat := 0
  /-- the instant of the latest set of a trouble bit (R8) -/
  setAt : BitVec 64 := 0
  /-- the bits set at that instant (R8) -/
  setNow : List TrbBit := []
  deriving DecidableEq, Repr

/-- A frame sent on a backhaul port (R325, R326). -/
structure BhOut where
  /-- 0 BH0, 1 BH1 -/
  port : Nat := 0
  /-- the frame before its FCS -/
  bytes : List Byte := []
  deriving DecidableEq, Repr

/-- A transmission's change on air. -/
structure AirOut where
  /-- plain -/
  plain : Nat := 0
  /-- the transmission -/
  txId : Nat := 0
  /-- start, end, or fast ramp-down (R97, R218) -/
  event : AirEvent := .start
  deriving DecidableEq, Repr

/-- What the device has sent to the outside, oldest first (the model's own record). -/
structure Out where
  /-- MSI-X vectors raised (R55, R64) -/
  msi : List Nat := []
  /-- herd messages originated, waiting in the egress queues (R329) -/
  herd : List HerdMsg := []
  /-- flits sent: link, whether stomped, words 0-3 (R328, R332, R334) -/
  flits : List (Nat × Bool × List Word) := []
  /-- backhaul frames sent (R325) -/
  bh : List BhOut := []
  /-- transmissions on air (R220) -/
  air : List AirOut := []
  /-- reins frames sent on both paths (R405) -/
  reins : List ReinsFrame := []
  /-- PTP messages sent by the slave clocks or forwarded, (port, type) (R363, R364) -/
  ptp : List (Nat × Nat) := []
  /-- descriptors completed by the DMA engines, (engine, bytes, byte 10 as left) (R343, R345) -/
  dma : List (Nat × Nat × Nat) := []
  /-- instants at which PPS_OUT rose (R367) -/
  ppsOut : List (BitVec 64) := []
  /-- values returned by the reads that act: POP, SEM_ACQ, GT_CAPTURE, in order (R47, R60, R377) -/
  reads : List (BitVec 64) := []
  /-- SPI frames sent, (port, LEN, frame), in order (R191, R193) -/
  spi : List (Nat × Nat × BitVec 40) := []
  /-- semaphore answers to peers, (peer, semaphore, result) (R62) -/
  semAnswers : List (Nat × Nat × Nat) := []
  deriving DecidableEq, Repr

/-- The addressed memories. -/
structure Mem where
  /-- image staging region of device DRAM, byte addresses 0x7_3800_0000-0x7_F7FF_FFFF (R20, R21) -/
  dram : List Host.Cell := []
  /-- 8-byte words of the staging region, by address / 8, with an uncorrectable error (R23) -/
  bad : List Nat := []
  /-- host area of the flash, byte offsets within it (R467, R484) -/
  flash : List Host.Cell := []
  deriving DecidableEq, Repr

/-- One script step (R192). -/
structure SpiStep where
  /-- FRAME[39:0] -/
  frame : BitVec 40 := 0
  /-- LEN 8-40 -/
  len : Nat := 8
  /-- VERIFY -/
  verify : Bool := false
  /-- READ -/
  read : Bool := false
  /-- DELAY in 10 ns units -/
  delay : Nat := 0
  deriving DecidableEq, Repr

/-- One calibration entry (R197). -/
structure CalEntry where
  /-- frequency in Hz -/
  freq : Word := 0
  /-- RX_OK -/
  rxOk : Bool := false
  /-- TX_OK -/
  txOk : Bool := false
  /-- RCK setting 0-7, 15 no change -/
  rck : Nat := 15
  /-- script of 1-8 steps; no script is an empty entry -/
  steps : List SpiStep := []
  deriving DecidableEq, Repr

/-- One gain-script step (R196). -/
structure GainStep where
  /-- the two step words -/
  step : SpiStep := {}
  /-- GAIN_POS -/
  pos : Nat := 0
  /-- GAIN_WIDTH -/
  width : Nat := 1
  deriving DecidableEq, Repr

/-- Settings of a radio port RP0-RP15. -/
structure PortCfg where
  /-- EXT_LATENCY, ns, 16 bits (R111) -/
  extLatency : Nat := 0
  /-- receive lane inverted (R107, R147) -/
  rxInv : Bool := false
  /-- transmit lane inverted (R107, R147) -/
  txInv : Bool := false
  /-- SPI divider D, 3-255 (R191) -/
  spiD : Nat := 3
  /-- SPI mode 0-3 (R191) -/
  spiMode : Nat := 0
  /-- RD_POS 0-39 (R193) -/
  rdPos : Nat := 0
  /-- DATA_WIDTH code 0-3 (R193, R226) -/
  dataWidth : Nat := 0
  /-- 512 calibration entries, all empty (R197) -/
  cal : Tab CalEntry := []
  /-- return state, RX_HOME (R201) -/
  returnState : Nat := 1
  /-- quiet script of 0-8 steps (R201) -/
  quiet : List SpiStep := []
  /-- TX_CHAINS 1-4 (R208) -/
  txChains : Nat := 1
  /-- TX_EXT_LATENCY, ns, 16 bits (R215) -/
  txExtLatency : Nat := 0
  deriving DecidableEq, Repr

/-- Settings of a device chain 0-127. -/
structure ChainCfg where
  /-- gain word in force (R114) -/
  gain : BitVec 16 := 0
  /-- gain script of 0-2 steps (R196) -/
  script : List GainStep := []
  deriving DecidableEq, Repr

/-- Receive settings of a plain P0-P3. -/
structure PlainCfg where
  /-- port mask (R103, R516) -/
  ports : BitVec 16 := 0
  /-- plain enabled (R106, R516) -/
  enabled : Bool := false
  /-- chain enable mask, every plain chain (R516) -/
  chainMask : BitVec 128 := BitVec.allOnes 128
  /-- grid mask (R516) -/
  gridMask : BitVec 4 := 0xF
  /-- SF mask, bit SF - 5 (R516) -/
  sfMask : BitVec 8 := 0xFF
  /-- beam enable mask (R515, R516) -/
  beamMask : BitVec 64 := 0
  /-- active beam count (R516) -/
  beams : Nat := 0
  /-- BEAM_SHIFT of the active bank (R118) -/
  beamShift : Nat := 0
  /-- active weight bank, by beam (R119: none before an activation) -/
  bank : Tab (List Word) := []
  /-- configured sync values, 0-4 (R132) -/
  sync : List Byte := []
  /-- DET_COUNT (R128) -/
  detCount : Nat := 4
  /-- DET_THRESH in 0.1 dB (R128) -/
  detThresh : Nat := 80
  /-- TRACK_CAP (R126) -/
  trackCap : Nat := 4096
  /-- record queue, Q34 + p (R143) -/
  recQ : Nat := 34
  /-- report queue (R147) -/
  repQ : Nat := 38
  /-- RAW_PAYLOAD (R143) -/
  rawPayload : Bool := false
  /-- level reports on (R116) -/
  levels : Bool := false
  /-- CLIP_LIMIT (R117) -/
  clipLimit : Nat := 0
  /-- SYSREF pattern, periodic (R109) -/
  sysref : Nat := 0
  /-- SYSREF K (R109) -/
  sysrefK : Nat := 16
  /-- centre frequency f_P in Hz (R103, R198) -/
  fP : Word := 0
  /-- receive entry (R198) -/
  rxEntry : Option Nat := none
  deriving DecidableEq, Repr

/-- Receive settings. -/
structure RxCfg where
  /-- plains P0-P3 at their reset values (R516) -/
  plains : Tab PlainCfg := []
  /-- ports RP0-RP15 at their reset values -/
  ports : Tab PortCfg := []
  /-- device chains 0-127 at their reset values -/
  chains : Tab ChainCfg := []
  /-- paddocks withdrawn; every paddock in service at reset (R125) -/
  padOut : BitVec 32 := 0
  deriving DecidableEq, Repr

/-- Cutting settings of a plain (R186). -/
structure CutCfg where
  /-- CUT_ENABLE (R156) -/
  enable : Bool := true
  /-- AUTO_RETRY (R172) -/
  autoRetry : Bool := true
  /-- CUT_EVENTS (R175) -/
  events : Bool := false
  /-- CUT_MAX_LAYER (R156) -/
  maxLayer : Nat := 4
  deriving DecidableEq, Repr

/-- Combining settings (R176). -/
structure CombCfg where
  /-- combining member mask -/
  mask : BitVec 64 := 0
  /-- COMBINE_WINDOW in ms -/
  window : Nat := 20
  /-- COMBINE_MIN_SNR, signed 0.1 dB (R177) -/
  minSnr : BitVec 16 := -60#16
  /-- combined-record queue (R183) -/
  queue : Nat := 39
  deriving DecidableEq, Repr

/-- Transmit and coexistence settings of a plain. -/
structure TxPlainCfg where
  /-- PA_LEAD in us (R220) -/
  paLead : Nat := 10
  /-- PA_LAG in us (R220) -/
  paLag : Nat := 5
  /-- TX_MAX_SIM (R213) -/
  maxSim : Nat := 4
  /-- TUNE_SHARED (R200) -/
  tuneShared : Bool := true
  /-- default N_pre (R211) -/
  nPre : Nat := 10
  /-- RAMP_LEN in us (R211) -/
  rampLen : Nat := 32
  /-- default PILOT (R211) -/
  pilot : Bool := false
  /-- coexistence mode (R222) -/
  coexMode : Nat := 0
  /-- COX_LEAD in us (R223) -/
  coxLead : Nat := 1000
  /-- COX_POLICY (R224) -/
  coxPolicy : Bool := false
  /-- BLANK_MARK (R225) -/
  blankMark : Bool := false
  /-- BLANK_MAP (R225) -/
  blankMap : BitVec 8 := 0
  /-- active transmit beam count (R214) -/
  txBeams : Nat := 0
  /-- TX_SHIFT (R212) -/
  txShift : Nat := 0
  /-- active transmit weight bank (R214) -/
  txBank : Tab (List Word) := []
  /-- transmit record queue, Q40 + p (R292) -/
  recQ : Nat := 40
  /-- records on (R292) -/
  records : Bool := false
  /-- deferral records on (R292) -/
  deferrals : Bool := false
  deriving DecidableEq, Repr

/-- A stored RCK setting (R202). -/
structure RckSetting where
  /-- output frequency in Hz -/
  freq : Word := 0
  /-- phase-detector mode 0-2 -/
  pd : Nat := 0
  deriving DecidableEq, Repr

/-- Transmit settings. -/
structure TxCfg where
  /-- plains P0-P3 at their reset values -/
  plains : Tab TxPlainCfg := []
  /-- BLANK_POL, active high (R225) -/
  blankPol : BitVec 8 := 0
  /-- stored settings, key 8 x RCK + setting (R202) -/
  rck : Tab RckSetting := []
  deriving DecidableEq, Repr

/-- A network 0-15 (R228). -/
structure NetCfg where
  /-- LINK_NETWORK_SET has configured it (R228) -/
  configured : Bool := false
  /-- sync value -/
  sync : Byte := 0
  /-- network number -/
  number : BitVec 16 := 0
  /-- zone-key vault slot of the current epoch -/
  slot : Nat := 0
  /-- current key epoch E (R241) -/
  epoch : BitVec 16 := 0
  /-- EPOCH_OVERLAP in s (R241) -/
  overlap : Nat := 604800
  /-- default tenant -/
  tenant : Nat := 0
  /-- LEARN_NEW -/
  learnNew : Bool := false
  /-- ALLOW_CLEAR -/
  allowClear : Bool := false
  /-- ACK_GAP in ms (R247) -/
  ackGap : Nat := 4
  /-- FLOOD_TTL (R239) -/
  floodTtl : Nat := 4
  /-- node-command queue 34-1,023 (R253) -/
  cmdQ : Nat := 34
  deriving DecidableEq, Repr

/-- An IPHC context (R244, R253). -/
structure IphcCtx where
  /-- valid -/
  valid : Bool := false
  /-- prefix length 0-128 -/
  len : Nat := 0
  /-- prefix, network byte order read as a number -/
  pfx : BitVec 128 := 0
  deriving DecidableEq, Repr

/-- Link settings. -/
structure LinkCfg where
  /-- networks 0-15, none configured -/
  nets : Tab NetCfg := []
  /-- contexts, key 16 x tenant + context, none valid -/
  ctx : Tab IphcCtx := []
  /-- SEEN_AGE in s (R239) -/
  seenAge : Nat := 60
  deriving DecidableEq, Repr

/-- A guard class (R272). -/
structure Guard where
  /-- B_c in 0.01 ppm -/
  b : Nat := 0
  /-- F_c in us -/
  f : Nat := 0
  /-- G_c in us -/
  g : Nat := 0
  deriving DecidableEq, Repr

/-- Slot schedule. -/
structure SchedCfg where
  /-- NET_EPOCH in ns (R255) -/
  netEpoch : BitVec 64 := 0
  /-- SLOT_LEN is 1.024 ms x 2^k (R255) -/
  k : Nat := 3
  /-- TX_OFFSET in us (R256) -/
  txOffset : Nat := 1000
  /-- slotframe lengths 0-15, 0 at reset (R257) -/
  frames : Tab Nat := []
  /-- hop sequences of the plains, empty at reset (R258) -/
  hops : Tab (List Word) := []
  /-- cell table, 4,096 entries, unused (R260) -/
  cells : Tab (Word × Word) := []
  /-- guard classes 0-7 at the table of R272 -/
  guards : Tab Guard := []
  deriving DecidableEq, Repr

/-- A sub-band entry (R275). -/
structure SubBand where
  /-- LOW in Hz; reset DC5 -/
  low : Word := 0
  /-- HIGH in Hz; reset DC5 -/
  high : Word := 0
  /-- limit in per mille; reset DC5 -/
  limit : Nat := 0
  /-- W in s, default 3,600 -/
  window : Nat := 3600
  /-- enable, reset 0 -/
  enable : Bool := false
  deriving DecidableEq, Repr

/-- Rates and bursts of one shaping bucket pair (R280). -/
structure Shape where
  /-- committed rate, us/s -/
  cRate : Nat := 0
  /-- committed burst, us -/
  cBurst : Nat := 0
  /-- excess rate, us/s -/
  eRate : Nat := 1000000
  /-- excess burst, us -/
  eBurst : Nat := 4294967295
  deriving DecidableEq, Repr

/-- Duty-cycle table and shaping. -/
structure AirCfg where
  /-- sub-bands, key 16 x plain + j; none enabled (R275) -/
  bands : Tab SubBand := []
  /-- bucket settings, key 4096 x level + index (R280) -/
  shapes : Tab Shape := []
  /-- DL_LIFETIME in s by 8 x tenant + service, 3,600 (R287) -/
  lifetime : Tab Nat := []
  deriving DecidableEq, Repr

/-- A prefix-memory entry (R295). -/
structure PrefixEntry where
  /-- TYPE: 1 home entry -/
  home : Bool := false
  /-- TENANT, or network of a home entry -/
  tenant : Nat := 0
  /-- LENGTH -/
  len : Nat := 0
  /-- PREFIX read most significant byte first -/
  key : BitVec 128 := 0
  /-- RESULT -/
  result : Nat := 0
  /-- ARG -/
  arg : Nat := 0
  /-- SERVICE -/
  service : Nat := 0
  deriving DecidableEq, Repr

/-- Forwarding settings. -/
structure FwdCfg where
  /-- prefix memory, at most 16,384 entries, descending LENGTH (R295, R298) -/
  prefixes : List PrefixEntry := []
  /-- host queue of each tenant, 0 none (R307, R316) -/
  hostQ : Tab Nat := []
  /-- DSCP_SERVICE of each tenant (R308) -/
  dscp : Tab Bool := []
  /-- flood member set of each network (R310) -/
  flood : Tab (BitVec 64) := []
  deriving DecidableEq, Repr

/-- An egress entry (R325). -/
structure Egress where
  /-- destination address -/
  dst : BitVec 48 := 0
  /-- source address -/
  src : BitVec 48 := 0
  /-- VID -/
  vid : BitVec 12 := 0
  /-- PCP -/
  pcp : BitVec 3 := 0
  /-- tagged -/
  tagged : Bool := false
  deriving DecidableEq, Repr

/-- Settings of a backhaul port. -/
structure BhCfg where
  /-- enable (R348) -/
  enable : Bool := false
  /-- BCAST (R320) -/
  bcast : Bool := false
  /-- DIAG (R321) -/
  diag : Bool := false
  /-- RS-FEC (R318) -/
  fec : Bool := false
  /-- lane polarity (R348) -/
  polarity : BitVec 4 := 0
  /-- MAX_FRAME (R321) -/
  maxFrame : Nat := 2048
  /-- UNTAGGED_TENANT (R322) -/
  untagged : BitVec 16 := 0xFFFF
  /-- CTRL_Q, 0 none (R323) -/
  ctrlQ : Nat := 0
  /-- HOST_TXQ, 0 none (R326) -/
  hostTxq : Nat := 0
  /-- valid filter entries 0-15, none at reset (R320) -/
  filters : Tab (BitVec 48) := []
  /-- tenant of each mapped VID, none mapped (R322) -/
  vlan : Tab Nat := []
  /-- valid egress entries by tenant (R325) -/
  egress : Tab Egress := []
  /-- FOREIGN_VID, 12 bits (R392) -/
  foreignVid : Nat := 0
  /-- receive TS_LATENCY in ns (R362) -/
  tsRx : Nat := 0
  /-- transmit TS_LATENCY in ns (R362) -/
  tsTx : Nat := 0
  deriving DecidableEq, Repr

/-- Settings of a herd link. -/
structure HerdLinkCfg where
  /-- enable (R330, R348) -/
  enable : Bool := false
  /-- lane polarity -/
  polarity : BitVec 4 := 0
  /-- lane reversal -/
  reversal : Bool := false
  deriving DecidableEq, Repr

/-- A herd routing entry (R333). -/
structure Route where
  /-- primary link -/
  primary : Nat := 0
  /-- its valid bit -/
  primaryV : Bool := false
  /-- alternate link -/
  alternate : Nat := 0
  /-- its valid bit -/
  alternateV : Bool := false
  /-- class rule 0 keep, 1 class 0, 2 class 1 -/
  rule : Nat := 0
  deriving DecidableEq, Repr

/-- Herd settings. -/
structure HerdCfg where
  /-- links H0-H3, disabled -/
  links : Tab HerdLinkCfg := []
  /-- routing table by destination, no valid link -/
  routes : Tab Route := []
  /-- configured members; none stands for the device's own herd ID only (R387) -/
  members : Option (BitVec 64) := none
  /-- SPLIT_DELAY in ms (R387) -/
  splitDelay : Nat := 100
  /-- HERD_ID_SET override (R386) -/
  hidOverride : Option (BitVec 6) := none
  deriving DecidableEq, Repr

/-- A PTP slave domain (R363). -/
structure PtpCfg where
  /-- enable -/
  enable : Bool := false
  /-- domainNumber -/
  domain : Byte := 0
  /-- transport 0 Ethernet, 1 UDP/IPv6 -/
  udp : Bool := false
  /-- backhaul port -/
  port : Nat := 0
  /-- LOG_DELAY_REQ, signed -7 to +6 -/
  logDelay : BitVec 8 := 0
  /-- PTP_TIMEOUT in s (R363) -/
  timeout : Nat := 10
  /-- own IPv6 address -/
  ip : BitVec 128 := 0
  /-- own MAC address -/
  mac : BitVec 48 := 0
  /-- VID -/
  vid : BitVec 12 := 0
  /-- tagged -/
  tagged : Bool := false
  deriving DecidableEq, Repr

/-- Time settings. -/
structure TimeCfg where
  /-- priority list of bases, empty at reset (R354) -/
  list : List Nat := []
  /-- SLEW_MAX in ppm (R357) -/
  slewMax : Nat := 100
  /-- REVERT_DELAY in s (R358) -/
  revertDelay : Nat := 10
  /-- FIRST_WAIT in s (R355) -/
  firstWait : Nat := 60
  /-- domain A (R363) -/
  ptpA : PtpCfg := {}
  /-- domain B (R363) -/
  ptpB : PtpCfg := {}
  /-- TB4_DISCIPLINE (R353) -/
  discipline : Bool := false
  /-- PPS_IN enable (R366) -/
  ppsIn : Bool := false
  /-- falling edge (R366) -/
  ppsFalling : Bool := false
  /-- PPS_OUT enable (R367) -/
  ppsOut : Bool := false
  /-- PPS_DELAY in ns, signed (R366) -/
  ppsDelay : Word := 0
  /-- width in us (R367) -/
  ppsWidth : Nat := 1
  /-- PPS_OUT offset in ns, signed (R367) -/
  ppsOffset : Word := 0
  /-- transparent-clock ports (R364) -/
  tcPorts : BitVec 6 := 0
  /-- herd time source (R368) -/
  herdSource : Nat := 0
  /-- HT_INTERVAL in ms (R368) -/
  htInterval : Nat := 10
  deriving DecidableEq, Repr

/-- Mode settings. -/
structure PwrCfg where
  /-- WAKE_PERIOD in ms (R454) -/
  wakePeriod : Nat := 64
  /-- SENSE_THRESH in 0.1 dB (R455) -/
  senseThresh : Nat := 80
  /-- GRAZE_AUTO (R457) -/
  grazeAuto : Bool := false
  /-- GRAZE_IDLE in s (R457) -/
  grazeIdle : Nat := 10
  /-- sense sets: beam, grid and SF masks (R454) -/
  sense : Tab (BitVec 64 × BitVec 4 × BitVec 8) := []
  /-- STALL_WAKE in s (R459) -/
  stallWake : Nat := 0
  deriving DecidableEq, Repr

/-- Tandem settings (R397). -/
structure TanCfg where
  /-- LEASE_LEN in us (R406) -/
  lease : Nat := 1000
  /-- REVERT_HOLD in s (R414) -/
  revertHold : Nat := 10
  /-- REVERT (R414) -/
  revert : Bool := true
  /-- TAKEOVER_MASK (R408) -/
  takeover : BitVec 20 := 0
  deriving DecidableEq, Repr

/-- Tamper configuration (R432, R436). -/
structure TamperCfg where
  /-- enable mask (R432) -/
  enable : BitVec 10 := 0x3C0
  /-- action mask, 1 zeroise (R432) -/
  action : BitVec 10 := 0x3C0
  /-- closed level of TSW[1:0] (R440) -/
  closed : BitVec 2 := 0
  /-- LOCK (R436) -/
  lock : Bool := false
  deriving DecidableEq, Repr

/-- The configuration in force: what a tack set holds (R477). -/
structure Cfg where
  /-- receive settings -/
  rx : RxCfg := {}
  /-- cutting settings by plain -/
  cut : Tab CutCfg := []
  /-- combining settings -/
  comb : CombCfg := {}
  /-- transmit settings -/
  tx : TxCfg := {}
  /-- link settings -/
  link : LinkCfg := {}
  /-- schedule -/
  sched : SchedCfg := {}
  /-- duty-cycle table and shaping -/
  air : AirCfg := {}
  /-- forwarding -/
  fwd : FwdCfg := {}
  /-- backhaul ports BH0, BH1 -/
  bh : Tab BhCfg := []
  /-- herd -/
  herd : HerdCfg := {}
  /-- APERTURE_BASE (R341) -/
  aperture : BitVec 64 := 0x738000000
  /-- time -/
  time : TimeCfg := {}
  /-- modes -/
  pwr : PwrCfg := {}
  /-- tandem -/
  tan : TanCfg := {}
  /-- MASK_PERIOD in s (R428) -/
  maskPeriod : Nat := 60
  deriving DecidableEq, Repr

/-- A script on a port (R192-R195). -/
structure Script where
  /-- class 1 PREP, 2 RETURN, 3 gain, 4 host (R227) -/
  cls : Nat := 4
  /-- steps -/
  steps : List SpiStep := []
  /-- command (queue, tag) it completes -/
  tag : Option (Nat × BitVec 16) := none
  /-- device chain of a gain script -/
  chain : Nat := 0
  /-- gain word it brings into force -/
  gain : BitVec 16 := 0
  /-- AT_SLOT (R114) -/
  atSlot : Bool := false
  /-- the slot boundary at which an AT_SLOT script is to end, fixed at its acceptance (R114, R195) -/
  boundary : BitVec 64 := 0
  /-- the transmission that a PREP hop serves (R194) -/
  tx : Option Nat := none
  deriving DecidableEq, Repr

/-- A radio port RP0-RP15 as it runs. -/
structure Port where
  /-- release point (R110, R517) -/
  release : Option Nat := none
  /-- arrival point of the last calibration, 0-127 (R110) -/
  arrival : Nat := 0
  /-- link latency in 5 ns cycles (R110) -/
  linkLat : Nat := 0
  /-- lane state 0 down, 1 data, 2 awaiting calibration (R147) -/
  lane : Nat := 0
  /-- whole-sample alignment delay (R112) -/
  align : Nat := 0
  /-- CRC-12 errors (R147, R149) -/
  crcErr : Nat := 0
  /-- re-links (R147, R149) -/
  relinks : Nat := 0
  /-- port sequencer state (R189) -/
  seq : SeqState := .idle
  /-- RPn_TR, rest level receive (R189) -/
  tr : Bool := false
  /-- RPn_TXEN (R189) -/
  txen : Bool := false
  /-- RPn_PAEN (R189) -/
  paen : Bool := false
  /-- a PREP hop failed on the port: it returns as in RX_HOME (R194) -/
  goHome : Bool := false
  /-- script running (R195) -/
  running : Option Script := none
  /-- scripts waiting, in acceptance order (R195) -/
  queued : List Script := []
  /-- script faults, 32 bits saturating (R226) -/
  faults : Nat := 0
  deriving DecidableEq, Repr

/-- A reception track (R126-R146). -/
structure Track where
  /-- track number 128 x paddock + slot -/
  num : Nat := 0
  /-- plain -/
  plain : Nat := 0
  /-- beam -/
  beam : Nat := 0
  /-- BW code 0-3 -/
  bw : Nat := 0
  /-- spreading factor -/
  sf : Nat := 7
  /-- channel index -/
  chan : Nat := 0
  /-- detection instant -/
  inst : BitVec 64 := 0
  /-- peak energy -/
  energy : Nat := 0
  /-- other beams that detected the frame, (beam, energy) -/
  alts : List (Nat × Nat) := []
  /-- sync value, once decided -/
  sync : Byte := 0
  /-- 0 preamble, 1 header, 2 payload, 3 finished -/
  stage : Nat := 0
  /-- header H -/
  hdr : Option (BitVec 24) := none
  /-- HDR_FAIL (R143) -/
  hdrFail : Nat := 0
  /-- MARKS (R145, R173) -/
  marks : Word := 0
  /-- T_START -/
  tStart : BitVec 64 := 0
  /-- T_END (R518) -/
  tEnd : BitVec 64 := 0
  /-- SNR -/
  snr : BitVec 16 := 0
  /-- POWER -/
  power : BitVec 16 := 0
  /-- OFFSET -/
  offset : Word := 0
  /-- DRIFT -/
  drift : BitVec 16 := 0
  /-- LAYER -/
  layer : Nat := 0
  /-- cutting job of a residue track -/
  job : Option Nat := none
  /-- COMBINED -/
  combined : Nat := 0
  /-- ITER -/
  iter : Nat := 0
  /-- decoded bytes -/
  bytes : List Byte := []
  /-- arrival of the last sample on the lane, t0 of R12 -/
  laneT0 : BitVec 64 := 0
  /-- carrier estimate of the detection in bins (R130) -/
  bin : Int := 0
  /-- SEQ of its record, once it has one (R146) -/
  seq : Word := 0
  /-- herd ID of the report that gives a combined frame its fields (R183) -/
  hid : Option Nat := none
  /-- it waited for room in the decoder queue (R519) -/
  waited : Bool := false
  /-- soft metrics of the payload, -127 to 127 in units of 1/8 (R135) -/
  metrics : List Int := []
  /-- pilots followed (R134) -/
  pilots : Nat := 0
  /-- end of the last pilot followed (R134) -/
  pilotAt : BitVec 64 := 0
  /-- decode-complete instant (R16) -/
  doneAt : BitVec 64 := 0
  deriving DecidableEq, Repr

/-- A detection, or a failed-list entry to demodulate again, that waits for the end of its instant to compete for a track
(R16, R127, R169). -/
structure Pend where
  /-- the track it would claim -/
  track : Track := {}
  /-- SEQ of the failed-list entry (R167) -/
  redemod : Option Word := none
  deriving DecidableEq, Repr

/-- A frame in the link engine's input order (R16, R233). -/
structure LinkItem where
  /-- this device's own frame -/
  track : Track := {}
  /-- a frame that a member forwarded: its herd ID and the frame (R234) -/
  member : Option (Nat × Heard) := none
  /-- joining instant (R13) -/
  joined : BitVec 64 := 0
  /-- it overruns (R13) -/
  overrun : Bool := false
  deriving DecidableEq, Repr

/-- LINK_CALIBRATE waiting for its ports to reach data phase (R110). -/
structure CalWait where
  /-- command queue -/
  queue : Nat := 0
  /-- TAG -/
  tag : BitVec 16 := 0
  /-- ports named -/
  mask : Word := 0
  deriving DecidableEq, Repr

/-- A withdrawal that drains (R139-R141). -/
structure Withdrawal where
  /-- command queue -/
  queue : Nat := 0
  /-- TAG -/
  tag : BitVec 16 := 0
  /-- plain, none for paddocks, herd and mode drains -/
  plain : Option Nat := none
  /-- paddocks withdrawn -/
  paddocks : BitVec 32 := 0
  /-- what the command was -/
  kind : DrainKind := .plain
  /-- tracks still draining -/
  tracks : List Nat := []
  /-- 4.0 s limit (R140) -/
  deadline : BitVec 64 := 0
  /-- tracks aborted so far -/
  aborted : Nat := 0
  /-- of those, the tracks of each plain -/
  byPlain : List Nat := [0, 0, 0, 0]
  /-- plain settings to return to on an abort (R141) -/
  before : PlainCfg := {}
  /-- plain settings when the drain completes (R148) -/
  after : PlainCfg := {}
  deriving DecidableEq, Repr

/-- An accepted activation waiting for its slot (R120). -/
structure BeamSwap where
  /-- plain -/
  plain : Nat := 0
  /-- transmit table (R214) -/
  tx : Bool := false
  /-- beams -/
  count : Nat := 1
  /-- shift -/
  shift : Nat := 0
  /-- slot -/
  asn : Nat := 0
  /-- command queue -/
  queue : Nat := 0
  /-- TAG -/
  tag : BitVec 16 := 0
  deriving DecidableEq, Repr

/-- Receive state of a plain. -/
structure RxPlain where
  /-- shadow weight bank (R120) -/
  shadow : Tab (List Word) := []
  /-- transmit shadow bank (R214) -/
  txShadow : Tab (List Word) := []
  /-- saturated samples by beam (R118) -/
  sat : Tab Nat := []
  /-- beams forced to zero by a parity error (R122) -/
  beamZero : BitVec 64 := 0
  /-- the 10 receive counters (R147, R149) -/
  counters : List Nat := List.replicate 10 0
  /-- ports whose chains are fed as zero (R113, R517) -/
  lossPorts : BitVec 16 := 0
  /-- transmit beams forced to zero by a parity error (R122, R214) -/
  txZero : BitVec 64 := 0
  /-- the last 100 ms window whose level report was judged (R115) -/
  lastWindow : Nat := 0
  /-- instant of the last LINK_CALIBRATE on the plain, for its SYSREF pattern (R109) -/
  calAt : Option (BitVec 64) := none
  /-- since when each enabled beam is searched (R148) -/
  beamSince : Tab (BitVec 64) := []
  /-- since when each enabled grid is searched (R148) -/
  gridSince : Tab (BitVec 64) := []
  /-- since when each enabled SF, as bit SF - 5, is searched (R148) -/
  sfSince : Tab (BitVec 64) := []
  /-- since when each enabled plain chain feeds the beams (R148) -/
  chainSince : Tab (BitVec 64) := []
  deriving DecidableEq, Repr

/-- Receive array as it runs. -/
structure Rx where
  /-- ports RP0-RP15 -/
  ports : Tab Port := []
  /-- plains P0-P3 -/
  plains : Tab RxPlain := []
  /-- tracks in progress and finished (R126, R519) -/
  tracks : List Track := []
  /-- decoder queue, at most 512 (R136) -/
  decq : List Track := []
  /-- detections of the present instant (R16, R127) -/
  detq : List Pend := []
  /-- frames waiting for the link engine, in its input order (R16, R233) -/
  linkq : List LinkItem := []
  /-- withdrawals that drain (R139) -/
  drains : List Withdrawal := []
  /-- accepted activations (R120) -/
  swaps : List BeamSwap := []
  /-- next record SEQ (R143) -/
  seq : Word := 0
  /-- calibrations that wait for their ports (R110) -/
  calWait : List CalWait := []
  /-- the decoder's last self-check failed (R151) -/
  decoderBad : Bool := false
  deriving DecidableEq, Repr

/-- What the cutting engine rebuilds a frame from (R162). -/
structure CutFrame where
  /-- BW code -/
  bw : Nat := 0
  /-- spreading factor -/
  sf : Nat := 7
  /-- channel -/
  chan : Nat := 0
  /-- decoded bytes -/
  bytes : List Byte := []
  /-- header -/
  hdr : BitVec 24 := 0
  /-- sync value -/
  sync : Byte := 0
  /-- T_START -/
  tStart : BitVec 64 := 0
  /-- T_END -/
  tEnd : BitVec 64 := 0
  /-- OFFSET in Hz -/
  offset : Word := 0
  /-- DRIFT in Hz/s -/
  drift : BitVec 16 := 0
  deriving DecidableEq, Repr

/-- A subtraction made on a plain's ring (R163). -/
structure CutRec where
  /-- job -/
  job : Nat := 0
  /-- the frame subtracted -/
  frame : CutFrame := {}
  /-- antenna time up to which it is subtracted -/
  upto : BitVec 64 := 0
  deriving DecidableEq, Repr

/-- A stretch over which a ring takes samples without a break (R19, R152). -/
structure StoreRun where
  /-- its first instant -/
  start : BitVec 64 := 0
  /-- sample instants written before it since the ring restarted empty -/
  before : Nat := 0
  /-- its end, none while samples are taken -/
  stop : Option (BitVec 64) := none
  deriving DecidableEq, Repr

/-- A cutting job (R156-R161). -/
structure CutJob where
  /-- order of creation -/
  id : Nat := 0
  /-- SEQ of the cut frame's record, 0xFFFF_FFFF from a notice (R175) -/
  seq : Word := 0
  /-- plain -/
  plain : Nat := 0
  /-- track number -/
  track : Nat := 0
  /-- layer of the frame -/
  layer : Nat := 0
  /-- T_START -/
  tStart : BitVec 64 := 0
  /-- T_END -/
  tEnd : BitVec 64 := 0
  /-- decode-complete instant (R16) -/
  done : BitVec 64 := 0
  /-- BW code -/
  bw : Nat := 0
  /-- channel -/
  chan : Nat := 0
  /-- OFFSET of the frame -/
  offset : Word := 0
  /-- queued, dispatched, subtracting, waiting for a residue pass, residue pass, ended awaiting retry -/
  state : JobState := .queued
  /-- progress in percent (R175) -/
  progress : Nat := 0
  /-- packets accepted from its residue pass (R175) -/
  accepted : Nat := 0
  /-- from a cut notice (R184) -/
  notice : Bool := false
  /-- instant of the engine restart that ended it (R172) -/
  endedAt : BitVec 64 := 0
  /-- the frame to rebuild (R162) -/
  frame : CutFrame := {}
  /-- CUT_EVENTS at the posting of its record (R186) -/
  events : Bool := false
  /-- AUTO_RETRY at the posting of its record (R186) -/
  autoRetry : Bool := true
  /-- failed-list entries its pass has tried (R167) -/
  tried : List Word := []
  deriving DecidableEq, Repr

/-- A span mark (R154). -/
structure SpanMark where
  /-- 1 LANE_LOSS, 2 BLANKED, 3 ECC_UE, 4 PARTIAL_CUT -/
  kind : Nat := 1
  /-- port mask -/
  ports : BitVec 16 := 0
  /-- start -/
  start : BitVec 64 := 0
  /-- end; none while the span runs -/
  stop : Option (BitVec 64) := none
  deriving DecidableEq, Repr

/-- A failed-list entry (R166). -/
structure Failed where
  /-- the frame's measured parameters and record -/
  track : Track := {}
  /-- SEQ of its record -/
  seq : Word := 0
  deriving DecidableEq, Repr

/-- Cutting state of a plain. -/
structure CutPlain where
  /-- span marks, oldest first, at most 4,096 (R154) -/
  marks : List SpanMark := []
  /-- failed list, oldest first, at most 1,024 (R166) -/
  failed : List Failed := []
  /-- frames decoded whose first sample is in the ring (R168, R171) -/
  decoded : List Track := []
  /-- ring base, device DRAM address (R152) -/
  ringBase : Nat := 0
  /-- ring size in bytes (R152) -/
  ringSize : Nat := 0
  /-- instant at which the ring restarted empty (R153) -/
  startedAt : BitVec 64 := 0
  /-- the stretches of samples taken since, oldest first (R19) -/
  runs : List StoreRun := []
  /-- spans stored or read as zero, kinds 1 and 3 of the marks, oldest first (R23, R113, R164) -/
  zeros : List SpanMark := []
  /-- subtractions, oldest first (R155, R163) -/
  cuts : List CutRec := []
  /-- the 19 cutting counters (R186) -/
  counters : List Nat := List.replicate 19 0
  deriving DecidableEq, Repr

/-- Cutting engine. -/
structure Cut where
  /-- by plain -/
  plains : Tab CutPlain := []
  /-- jobs, in the order of creation (R157) -/
  jobs : List CutJob := []
  /-- next job id -/
  nextId : Nat := 0
  deriving DecidableEq, Repr

/-- A decode attempt of a combining set (R182). -/
structure CombAttempt where
  /-- reports summed -/
  reports : Nat := 0
  /-- sums of their metrics, position by position -/
  sums : List Int := []
  /-- it stands in the decoder queue -/
  queued : Bool := false
  deriving DecidableEq, Repr

/-- A combining set (R180). -/
structure CombSet where
  /-- order of opening -/
  id : Nat := 0
  /-- stamp of the first report -/
  opened : BitVec 64 := 0
  /-- reports with the boot epoch of their reporter, in the order of joining (R185) -/
  reports : List (Report × Word) := []
  /-- closed, kept to know late reports (R181) -/
  closed : Bool := false
  /-- decode attempts that wait for the decoder, oldest first (R182) -/
  attempts : List CombAttempt := []
  deriving DecidableEq, Repr

/-- Herd combiner. -/
structure Comb where
  /-- sets, at most 8,192 open (R180) -/
  sets : List CombSet := []
  /-- next set id -/
  nextId : Nat := 0
  /-- combiner last chosen for a local report (R186) -/
  lastCombiner : Nat := 0
  /-- reports of the present instant, each with its reporter's boot epoch (R16) -/
  inq : List (Report × Word) := []
  /-- the 11 combining counters (R186) -/
  counters : List Nat := List.replicate 11 0
  deriving DecidableEq, Repr

/-- A downlink or other frame that waits to be transmitted (R266, R287). -/
structure Downlink where
  /-- enqueue sequence (R16) -/
  seq : Nat := 0
  /-- pannier queue it waits in (R14, R16) -/
  queue : Nat := 64
  /-- network -/
  net : Nat := 0
  /-- destination node, or broadcast -/
  addr : Word := 0
  /-- tenant -/
  tenant : Nat := 0
  /-- service -/
  service : Nat := 0
  /-- enqueue instant -/
  enq : BitVec 64 := 0
  /-- the packet as it came, before compression (R308) -/
  packet : List Byte := []
  /-- compressed payload, or the built frame of a flood copy -/
  payload : List Byte := []
  /-- KIND 0 downlink, 4 broadcast, 5 image block, 6 flood fallback (R291) -/
  kind : Nat := 0
  /-- last deferral (R287) -/
  status : Option Status := none
  /-- announced (R267) -/
  announced : Bool := false
  /-- a first deferral has been recorded (R292) -/
  deferred : Bool := false
  /-- ranks whose shortfall counter already holds its airtime, bit rank - 1 (R288) -/
  short : BitVec 4 := 0
  /-- selected or passed to another member, its outcome still open (R266, R268) -/
  flying : Bool := false
  deriving DecidableEq, Repr

/-- A transmission from its selection to its return (R220). -/
structure Tx where
  /-- order of selection -/
  id : Nat := 0
  /-- plain -/
  plain : Nat := 0
  /-- transmit beam -/
  beam : Nat := 0
  /-- BW code -/
  bw : Nat := 0
  /-- SF -/
  sf : Nat := 7
  /-- CR -/
  cr : Nat := 0
  /-- N_pre -/
  nPre : Nat := 10
  /-- PILOT -/
  pilot : Bool := false
  /-- RAMP_LEN in us -/
  ramp : Nat := 32
  /-- LEVEL in -0.5 dB -/
  level : Nat := 0
  /-- L -/
  len : Nat := 1
  /-- KIND (R291) -/
  kind : Nat := 0
  /-- network -/
  net : Nat := 0
  /-- destination -/
  dst : Word := 0
  /-- tenant -/
  tenant : Nat := 0
  /-- service -/
  service : Nat := 0
  /-- t0 -/
  t0 : BitVec 64 := 0
  /-- T_air in us (R96) -/
  tAir : Nat := 0
  /-- carrier in Hz -/
  carrier : Word := 0
  /-- entry to hop to, none to stay (R199) -/
  entry : Option Nat := none
  /-- rank 3-5 -/
  rank : Nat := 5
  /-- 0 not shaped, 1 committed, 2 excess (R282) -/
  cls : Nat := 2
  /-- sub-bands charged (R276) -/
  bands : List Nat := []
  /-- stage of R220 -/
  state : TxState := .selected
  /-- built link frame -/
  frame : List Byte := []
  /-- TCORR carried (R271) -/
  tcorr : Int := 0
  /-- counters acknowledged -/
  ackOf : List Word := []
  /-- symbols of the frame as loaded, preamble to payload (R15, R77) -/
  symbols : List Chirp := []
  /-- each port's release of the first sample (R215) -/
  release : List (Nat × BitVec 64) := []
  /-- coexistence mode as selected (R226) -/
  coexMode : Nat := 0
  /-- COX_POLICY as selected (R226) -/
  coxPolicy : Bool := false
  /-- BLANK_MAP as selected (R226) -/
  blankMap : BitVec 8 := 0
  /-- TUNE_SHARED as selected (R226) -/
  tuneShared : Bool := true
  /-- TX_MAX_SIM as selected (R212, R226) -/
  maxSim : Nat := 4
  /-- on air with the transmit bank that a swap has retired (R214) -/
  oldBank : Bool := false
  /-- payload to send -/
  payload : List Byte := []
  /-- the waiting item it came from -/
  dl : Option Downlink := none
  /-- herd ID of the home that passed the candidate (R268) -/
  home : Option Nat := none
  /-- final status -/
  status : Status := .ok
  /-- ns taken from the port's committed bucket (R282) -/
  taken : Int := 0
  /-- end of its fast ramp-down at the lane, 0 while none (R218) -/
  endAt : BitVec 64 := 0
  /-- PA_LEAD as selected, us (R226) -/
  paLead : Nat := 10
  /-- PA_LAG as selected, us (R226) -/
  paLag : Nat := 5
  /-- COX_LEAD as selected, us (R226) -/
  coxLead : Nat := 1000
  /-- its step 6 has come (R220) -/
  paUp : Bool := false
  /-- PENDING of its frame (R267) -/
  pending : Bool := false
  deriving DecidableEq, Repr

/-- Transmit state of a plain. -/
structure TxPlain where
  /-- transmit tuning in force, entry (R198) -/
  fT : Option Nat := none
  /-- own-transmission span open (R217) -/
  ownSpan : Bool := false
  /-- end of the own-transmission span, once RETURN has completed (R217) -/
  spanEnd : Option (BitVec 64) := none
  /-- end of the 20 us tail after a BLANK input (R225) -/
  tail : BitVec 64 := 0
  /-- COX_REQ[p] (R223) -/
  coxReq : Bool := false
  /-- settings taking effect at the next slot boundary (R226) -/
  pending : Option TxPlainCfg := none
  /-- the 9 transmit counters (R226) -/
  counters : List Nat := List.replicate 9 0
  deriving DecidableEq, Repr

/-- A reference synthesiser RCK0-RCK3. -/
structure Rck where
  /-- setting in force (R202) -/
  sel : Option Nat := none
  /-- locked (R226) -/
  locked : Bool := false
  /-- output held low (R202) -/
  low : Bool := true
  /-- settings with a stored band (R202) -/
  bands : BitVec 8 := 0
  /-- unlock count (R226) -/
  unlocks : Nat := 0
  /-- hop in progress: setting, command it completes (R203) -/
  hop : Option (Nat × Option (Nat × BitVec 16)) := none
  /-- hops that wait for the one in progress, in order (R203) -/
  next : List (Nat × Option (Nat × BitVec 16)) := []
  deriving DecidableEq, Repr

/-- Transmit chain, coexistence and reference clocks. -/
structure Radio where
  /-- by plain -/
  plains : Tab TxPlain := []
  /-- RCK0-RCK3 -/
  rck : Tab Rck := []
  /-- transmissions from selection to return -/
  txs : List Tx := []
  /-- transmissions that ended in the last 12 ms, in a tandem (R411) -/
  recent : List Tx := []
  /-- next transmission id -/
  nextId : Nat := 0
  /-- transmit record SEQ (R291) -/
  seq : Word := 0
  /-- COX_GNT[3:0] levels as last sampled, low when open (R226, R495) -/
  grants : BitVec 4 := 0
  /-- BLANK[7:0] levels, low when open (R226, R495) -/
  blank : BitVec 8 := 0
  deriving DecidableEq, Repr

/-- A replay window (R235). -/
structure Window where
  /-- WIN_EPOCH -/
  epoch : BitVec 16 := 0
  /-- LAST -/
  last : Word := 0
  /-- MAP -/
  map : BitVec 64 := 0
  deriving DecidableEq, Repr

/-- An unrecorded window (R238). -/
structure Unrec where
  /-- network -/
  net : Nat := 0
  /-- address -/
  addr : Word := 0
  /-- its window -/
  win : Window := {}
  /-- order of last use (R16) -/
  used : Nat := 0
  deriving DecidableEq, Repr

/-- A seen-cache entry (R239). -/
structure Seen where
  /-- network -/
  net : Nat := 0
  /-- SRC -/
  src : Word := 0
  /-- CTR -/
  ctr : Word := 0
  /-- when it was inserted -/
  time : BitVec 64 := 0
  /-- order of last use (R16) -/
  used : Nat := 0
  deriving DecidableEq, Repr

/-- A derived-key cache entry (R240). -/
structure KeyEntry where
  /-- network -/
  net : Nat := 0
  /-- address -/
  addr : Word := 0
  /-- epoch -/
  epoch : BitVec 16 := 0
  /-- zone slot it derives from (R425) -/
  slot : Nat := 0
  /-- K_node -/
  key : List Byte := []
  /-- order of last use (R16) -/
  used : Nat := 0
  deriving DecidableEq, Repr

/-- A registered node image (R248, R250). -/
structure Image where
  /-- image ID -/
  id : Nat := 0
  /-- network -/
  net : Nat := 0
  /-- staging offset -/
  offset : Nat := 0
  /-- length in bytes -/
  len : Nat := 0
  /-- 0 loaded, 1 sending, 2 collecting, 3 done, 4 stopped -/
  state : Nat := 0
  /-- round -/
  round : Nat := 0
  /-- blocks sent this round -/
  sent : Nat := 0
  /-- reports received -/
  reports : Nat := 0
  /-- MAX_ROUNDS -/
  maxRounds : Nat := 1
  /-- REPORT_WAIT in s -/
  reportWait : Nat := 1
  /-- blocks still to send this round, ascending -/
  todo : List Nat := []
  /-- blocks named in reports of this round -/
  missing : List Nat := []
  /-- enqueue sequence of its blocks (R16) -/
  seq : Nat := 0
  /-- end of REPORT_WAIT -/
  deadline : BitVec 64 := 0
  deriving DecidableEq, Repr

/-- A network as it runs. -/
structure Net where
  /-- zone slot of epoch E - 1 and end of its overlap (R241) -/
  prev : Option (Nat × BitVec 64) := none
  /-- broadcast counter of E, none while never set (R243) -/
  bctr : Option Nat := none
  /-- broadcast counter of E - 1 (R243) -/
  bctrPrev : Option Nat := none
  /-- the 16 link counters (R253) -/
  counters : List Nat := List.replicate 16 0
  deriving DecidableEq, Repr

/-- Link engine. -/
structure Link where
  /-- networks 0-15 -/
  nets : Tab Net := []
  /-- unrecorded window table, at most 4,096 (R238) -/
  unrec : List Unrec := []
  /-- seen-cache, at most 65,536 (R239) -/
  seen : List Seen := []
  /-- derived-key cache, at most 65,536 (R240, R431) -/
  keys : List KeyEntry := []
  /-- registered images, at most 4 (R248) -/
  images : List Image := []
  /-- joining instants of the last 10 ms (R13) -/
  joined : List (BitVec 64) := []
  /-- order-of-use clock of the caches (R16) -/
  clock : Nat := 0
  /-- image transport errors counted (R250) -/
  imageErr : Nat := 0
  /-- the crypto engine failed its self-check since the last self-test (R252) -/
  engineFault : Bool := false
  deriving DecidableEq, Repr

/-- A schedule change waiting for its slot (R259). -/
structure SchedChange where
  /-- slot -/
  asn : Nat := 0
  /-- the change -/
  what : Change := .frame 0 0
  deriving DecidableEq, Repr

/-- A candidate formed for a cell (R266, R268). -/
structure Candidate where
  /-- plain -/
  plain : Nat := 0
  /-- t0 -/
  t0 : BitVec 64 := 0
  /-- the transmission it asks for -/
  tx : Tx := {}
  /-- announced (R267) -/
  announced : Bool := false
  /-- late acknowledgement -/
  late : Bool := false
  deriving DecidableEq, Repr

/-- Schedule state of a plain. -/
structure PlainSched where
  /-- the 12 schedule counters (R293) -/
  counters : List Nat := List.replicate 12 0
  /-- the next ASN whose cells may be selected (R285) -/
  selected : Nat := 0
  deriving DecidableEq, Repr

/-- Slot scheduler. -/
structure Sched where
  /-- ASN of the last slot boundary, 40 bits (R255, R379) -/
  asn : Nat := 0
  /-- changes waiting (R259) -/
  pend : List SchedChange := []
  /-- waiting downlinks, broadcasts, image blocks and flood copies -/
  wait : List Downlink := []
  /-- next enqueue sequence (R16) -/
  nextSeq : Nat := 0
  /-- candidates received from homes (R268) -/
  passed : List Candidate := []
  /-- by plain -/
  plains : Tab PlainSched := []
  /-- the four 64-bit shortfall counters of each tenant (R288) -/
  shortfall : Tab (List Nat) := []
  /-- candidates passed to members: record index, t0, late counters carried (R268) -/
  sentTo : List (Nat × BitVec 64 × Nat) := []
  deriving DecidableEq, Repr

/-- The ledger of a sub-band (R277). -/
structure Band where
  /-- airtime in us, by second of ST (R277) -/
  buckets : Tab Nat := []
  /-- the second whose bucket holds the cold charge (R278) -/
  coldAt : Nat := 0
  /-- cold (R278) -/
  cold : Bool := false
  /-- refusals (R293) -/
  refusals : Nat := 0
  /-- change waiting for the next second (R278) -/
  pending : Option SubBand := none
  /-- the band has been enabled since the loss of VIN (R278) -/
  seen : Bool := false
  deriving DecidableEq, Repr

/-- Tokens of a bucket pair, in ns of airtime (R281). -/
structure Tokens where
  /-- committed -/
  c : Int := 0
  /-- excess -/
  e : Int := 4294967295000
  deriving DecidableEq, Repr

/-- Ledger and shaper as they run. -/
structure Air where
  /-- key 16 x plain + j -/
  bands : Tab Band := []
  /-- the ledger was lost with VIN and its sub-bands start cold (R278) -/
  lost : Bool := true
  /-- last second opened, numbered from 86,400 at ST 0 (R277, R278) -/
  second : Nat := 86400
  /-- key as the settings -/
  tokens : Tab Tokens := []
  /-- shaping commands waiting for the next refill (R281) -/
  pendShape : Tab Shape := []
  /-- lifetimes waiting for the next refill, key 8 x tenant + service (R281) -/
  pendLife : Tab Nat := []
  /-- last millisecond refilled (R281) -/
  ms : Nat := 0
  deriving DecidableEq, Repr

/-- A node record (R302, R264). -/
structure NodeRec where
  /-- ADDR -/
  addr : Word := 0
  /-- NETWORK -/
  net : Nat := 0
  /-- PATH_VALID -/
  pathValid : Bool := false
  /-- HOST_INSERTED -/
  hostIns : Bool := false
  /-- TENANT -/
  tenant : Nat := 0
  /-- PATH_HID -/
  pathHid : Nat := 0
  /-- PATH_PLAIN -/
  pathPlain : Nat := 0
  /-- PATH_BEAM -/
  pathBeam : Nat := 0
  /-- PATH_SNR -/
  pathSnr : BitVec 16 := 0
  /-- PATH_SF -/
  pathSf : Nat := 0
  /-- PATH_BW -/
  pathBw : Nat := 0
  /-- PATH_CHANNEL -/
  pathChan : Nat := 0
  /-- CTR of the copy that set the path (R306) -/
  pathCtr : Option Word := none
  /-- T_PATH -/
  tPath : BitVec 64 := 0
  /-- T_HEARD -/
  tHeard : BitVec 64 := 0
  /-- HOPS_LAST -/
  hopsLast : Nat := 0
  /-- WIN_EPOCH, LAST, MAP; none before a first frame (R235) -/
  win : Option Window := none
  /-- DL_CTR (R243, R301) -/
  dlCtr : Word := 0xFFFFFFFF
  /-- the model's own: epoch under which DL_CTR was last used (R243, log 110) -/
  ctrEpoch : BitVec 16 := 0
  /-- UPLINKS, saturating -/
  uplinks : Nat := 0
  /-- DOWNLINKS, saturating -/
  downlinks : Nat := 0
  /-- LATE_CTR, oldest first, at most 8 -/
  late : List Word := []
  /-- rendezvous words 0-3 -/
  cells : List Word := [0#32, 0#32, 0#32, 0#32]
  /-- rendezvous word 4 -/
  radio : Word := 0
  /-- D in 0.01 ppm -/
  drift : Option Int := none
  /-- E_LAST in us -/
  eLast : Int := 0
  /-- T_UP -/
  tUp : BitVec 64 := 0
  /-- T_SYNC -/
  tSync : BitVec 64 := 0
  /-- C_SUM in us -/
  cSum : Int := 0
  /-- ACCEPTED_LOG, newest first, at most 4 -/
  log : List (Word × BitVec 64) := []
  /-- HOST_DATA, 16 words -/
  host : List Word := []
  /-- the model's own: counters of downlinks that ended early, which the node's acknowledgement may still complete, at most
  16 (R232, log 34) -/
  unsure : List Word := []
  deriving DecidableEq, Repr

/-- A home move waiting for its slot (R315). -/
structure Move where
  /-- network -/
  net : Nat := 0
  /-- address prefix -/
  pfx : Word := 0
  /-- length -/
  len : Nat := 0
  /-- target herd ID -/
  target : Nat := 0
  /-- slot of the switch -/
  asn : Nat := 0
  /-- command queue -/
  queue : Nat := 0
  /-- TAG -/
  tag : BitVec 16 := 0
  deriving DecidableEq, Repr

/-- Forwarding unit as it runs. -/
structure Fwd where
  /-- node table by index: ways below 1,048,576, stash above (R300) -/
  nodes : Tab NodeRec := []
  /-- indexes whose change the node cache has not written back (R303) -/
  dirty : List Nat := []
  /-- the records as DRAM holds them (R303) -/
  dram : Tab NodeRec := []
  /-- the 9 forwarding counters (R316) -/
  counters : List Nat := List.replicate 9 0
  /-- records in the node cache, most recently used first, at most 65,536 (R303) -/
  cache : List Nat := []
  /-- node cache hits (R316) -/
  hits : Nat := 0
  /-- node cache misses (R316) -/
  misses : Nat := 0
  /-- home moves under way (R315) -/
  moves : List Move := []
  /-- downlinks dropped because they do not fit 230 bytes after compression (R244) -/
  oversize : Nat := 0
  /-- drift samples discarded (R270) -/
  driftDrop : Nat := 0
  deriving DecidableEq, Repr

/-- A backhaul port as it runs. -/
structure BhPort where
  /-- link up (R348) -/
  up : Bool := false
  /-- queue last served on the port (R16, R326) -/
  lastQ : Nat := 1023
  /-- the 16 port counters (R348) -/
  counters : List Nat := List.replicate 16 0
  deriving DecidableEq, Repr

/-- A flit of a hop, kept for replay or waiting in transit (R331, R332). -/
structure FlitRec where
  /-- SEQ -/
  seq : Nat := 0
  /-- VC -/
  vc : Bool := false
  /-- CLASS -/
  cls : Bool := false
  /-- TYPE -/
  typ : Nat := 0
  /-- DST -/
  dst : Nat := 0
  /-- HOPS -/
  hops : Nat := 0
  /-- FIRST -/
  first : Bool := true
  /-- LAST -/
  last : Bool := true
  /-- SRC -/
  src : Nat := 0
  /-- EPOCH -/
  epoch : Word := 0
  /-- BYTES -/
  bytes : Nat := 0
  /-- words 4-62 as they came, in transit -/
  payload : List Word := []
  /-- resends -/
  resends : Nat := 0
  /-- the message it belongs to, when this device originated it -/
  msg : Option HerdMsg := none
  /-- MSG_SEQ -/
  msgSeq : Nat := 0
  /-- link by which it came, in transit -/
  ingress : Option Nat := none
  deriving DecidableEq, Repr

/-- A message of which this device has sent some flits (R328). -/
structure Sending where
  /-- the message -/
  msg : HerdMsg := .reply 0 []
  /-- its MSG_SEQ -/
  msgSeq : Nat := 0
  /-- flits sent -/
  sent : Nat := 0
  deriving DecidableEq, Repr

/-- A herd link as it runs. -/
structure HLink where
  /-- link up (R330) -/
  up : Bool := false
  /-- neighbour herd ID (R330, R348) -/
  neighbour : Option Nat := none
  /-- neighbour EPOCH (R348) -/
  nEpoch : Word := 0
  /-- next SEQ, 8 bits (R331) -/
  txSeq : Nat := 0
  /-- flits kept for replay, at most 64 (R331) -/
  unacked : List FlitRec := []
  /-- flits in transit that wait for a credit (R332, R334) -/
  transit : List FlitRec := []
  /-- messages partly sent, by VC -/
  sending : Tab Sending := []
  /-- expected SEQ, 8 bits (R331) -/
  rxSeq : Nat := 0
  /-- a flit with a SEQ has been accepted since the link came up, ACK_V (R328) -/
  rxAny : Bool := false
  /-- consecutive good flits while the link is down (R330) -/
  good : Nat := 0
  /-- a NAK is owed to the neighbour (R331) -/
  nak : Bool := false
  /-- credits REQ0, REQ1, RSP0, RSP1 (R334) -/
  credits : List Nat := [32, 32, 32, 32]
  /-- credits to return (R328) -/
  owed : List Nat := [0, 0, 0, 0]
  /-- the 10 link counters (R348) -/
  counters : List Nat := List.replicate 10 0
  /-- stored survey delay in ns (R369) -/
  delay : Option Nat := none
  /-- STALE mark (R370) -/
  stale : Bool := false
  /-- probe delays of the running survey (R369) -/
  surveys : List Int := []
  deriving DecidableEq, Repr

/-- What the device knows of a herd ID. -/
structure Peer where
  /-- last boot epoch seen (R337) -/
  epoch : Option Word := none
  /-- last MSG_SEQ accepted, request channel (R336) -/
  seqReq : Option Nat := none
  /-- last MSG_SEQ accepted, response channel (R336) -/
  seqRsp : Option Nat := none
  /-- absent since (R388) -/
  absent : Option (BitVec 64) := none
  /-- present since (R393) -/
  present : Option (BitVec 64) := none
  deriving DecidableEq, Repr

/-- A message being received (R336). -/
structure Reasm where
  /-- source -/
  src : Nat := 0
  /-- channel -/
  vc : Bool := false
  /-- MSG_SEQ -/
  seq : Nat := 0
  /-- TYPE -/
  typ : Nat := 0
  /-- link -/
  link : Nat := 0
  /-- instant of its FIRST flit -/
  first : BitVec 64 := 0
  deriving DecidableEq, Repr

/-- Herd protocol and membership. -/
structure Herd where
  /-- H0-H3 -/
  links : Tab HLink := []
  /-- by herd ID -/
  peers : Tab Peer := []
  /-- messages being received (R336) -/
  reasm : List Reasm := []
  /-- next MSG_SEQ by 2 x destination + VC (R328) -/
  msgSeq : Tab Nat := []
  /-- messages to send again from their first flit, with their MSG_SEQ (R336) -/
  again : List (HerdMsg × Nat) := []
  /-- messages discarded for an unreachable destination (R333) -/
  unreachable : Nat := 0
  /-- packets waiting in the herd egress queue towards a peer (R392) -/
  egress : Tab (List PacketIn) := []
  /-- members each neighbour last listed as present, by link (R387) -/
  told : Tab (BitVec 64) := []
  /-- present mask as last brought up to date (R387) -/
  shown : BitVec 64 := 0
  /-- members for whose absence a split has been declared (R388) -/
  lost : BitVec 64 := 0
  /-- split declared (R388) -/
  split : Bool := false
  /-- in the minority (R389) -/
  minority : Bool := false
  /-- HERD_LEAVE has run (R394) -/
  leaving : Bool := false
  /-- no herd messages originated but replies and membership (R394) -/
  leaveMsgs : Bool := false
  deriving DecidableEq, Repr

/-- A DMA engine (R342-R346). -/
structure Engine where
  /-- bound -/
  bound : Bool := false
  /-- direction: 1 device-to-host -/
  d2h : Bool := false
  /-- queue -/
  queue : Nat := 0
  /-- ring address -/
  ring : BitVec 64 := 0
  /-- ring entries -/
  entries : Nat := 16
  /-- MSI-X vector -/
  vector : Nat := 0
  /-- POLL in us (R344) -/
  poll : Nat := 10
  /-- HOLDOFF in us -/
  holdoff : Nat := 0
  /-- running -/
  running : Bool := false
  /-- faulted -/
  faulted : Bool := false
  /-- fault detail (R346) -/
  fault : Nat := 0
  /-- ring index of the next descriptor -/
  index : Nat := 0
  /-- packets moved, 32 bits (R348) -/
  packets : Nat := 0
  /-- doorbell count left (R344) -/
  bells : Nat := 0
  /-- a message is held back by HOLDOFF (R344) -/
  msiDue : Bool := false
  /-- when the vector was last raised (R344) -/
  lastMsi : Option (BitVec 64) := none
  /-- bytes of the packet under way that fill no whole word yet (R342) -/
  carry : List Byte := []
  deriving DecidableEq, Repr

/-- PCIe endpoint. -/
structure HostIf where
  /-- DMA engines 0-15, unbound -/
  engines : Tab Engine := []
  /-- PERST_N level (R450) -/
  perstN : Bool := true
  /-- link speed code 1-5 (R348) -/
  speed : Nat := 5
  /-- link width (R348) -/
  width : Nat := 4
  /-- AER uncorrectable status (R348) -/
  aerU : Word := 0
  /-- AER correctable status (R348) -/
  aerC : Word := 0
  deriving DecidableEq, Repr

/-- A time base (R350). -/
structure Base where
  /-- value, 64.32 fixed point ns (R350, R513) -/
  val : BitVec 96 := 0
  /-- increment per TICK, 32.32 ns, 10 ns (R352, R353, R513) -/
  inc : BitVec 64 := 0xA00000000
  /-- 0 unlocked, 1 locked, 2 holdover, 3 lost (R380) -/
  state : Nat := 0
  /-- already stepped since reset or TB_REARM (R352) -/
  stepped : Bool := false
  /-- consecutive valid inputs (R350) -/
  good : Nat := 0
  /-- ST of the last input: a Sync, a pulse or a herd time message (R350) -/
  last : BitVec 64 := 0
  /-- what its source gives less what the base shows, in ns, at the last valid input (R352) -/
  err : Int := 0
  /-- ST since when it has been locked (R358) -/
  since : BitVec 64 := 0
  deriving DecidableEq, Repr

/-- A delay survey this device started or takes part in (R369). -/
structure Survey where
  /-- path of herd IDs -/
  path : List Nat := []
  /-- position of this device in the path -/
  pos : Nat := 0
  /-- the link onwards is measured -/
  measured : Bool := false
  /-- command queue -/
  queue : Nat := 0
  /-- TAG -/
  tag : BitVec 16 := 0
  deriving DecidableEq, Repr

/-- A master heard by its Announce messages (R363, IEEE 1588). -/
structure Foreign where
  /-- sourcePortIdentity, 80 bits -/
  source : BitVec 80 := 0
  /-- priority1, clockClass, clockAccuracy, offsetScaledLogVariance, priority2 and grandmasterIdentity, in the order compared -/
  quality : List Nat := []
  /-- stepsRemoved -/
  steps : Nat := 0
  /-- logMessageInterval of its Announces -/
  logInterval : Int := 0
  /-- stamp of the last Announce -/
  last : BitVec 64 := 0
  /-- two Announces have come within four of their intervals -/
  qualified : Bool := false
  deriving DecidableEq, Repr

/-- The slave clock of a PTP domain as it runs (R363). -/
structure PtpRun where
  /-- the masters heard -/
  foreign : List Foreign := []
  /-- the chosen master -/
  master : Option (BitVec 80) := none
  /-- logMessageInterval of its Syncs -/
  syncLog : Int := 0
  /-- a two-step Sync that awaits its Follow_Up: sequenceId, arrival in the base, correction in ns -/
  awaiting : Option (Nat × BitVec 64 × Int) := none
  /-- the last measured difference master to slave in ns, correction taken off -/
  ms : Option Int := none
  /-- sequenceId of the next Delay_Req -/
  seq : Nat := 0
  /-- departure in the base of a Delay_Req not yet answered -/
  asked : Option (BitVec 64) := none
  /-- the measured delay in ns -/
  delay : Option Int := none
  deriving DecidableEq, Repr

/-- Work that the device does at an interval, or whose answer it awaits for a time-out. -/
inductive Period where
  /-- re-masking of the vault every MASK_PERIOD (R428) -/
  | remask
  /-- DMA engine e reads its head descriptor at POLL (R344) -/
  | poll (e : Nat)
  /-- Delay_Req of domain b (R363) -/
  | delayReq (b : Nat)
  /-- herd time messages every HT_INTERVAL (R368) -/
  | herdTime
  /-- the answer to a survey's probe, 1 ms (R370) -/
  | probe
  /-- membership messages every 10 ms (R387) -/
  | membership
  /-- renewals of the lease every 100 us (R406) -/
  | renewal
  /-- the acknowledgement of a chain block, 100 ms (R475) -/
  | chainAck
  deriving DecidableEq, Repr

/-- Time unit. -/
structure Time where
  /-- ST, 64.32 fixed point ns (R379) -/
  st : BitVec 96 := 0
  /-- ST rate correction in 0.001 ppm (R384) -/
  stRate : Int := 0
  /-- TB0-TB4; TB4 always locked (R350) -/
  tbs : Tab Base := []
  /-- base that ST follows (R380) -/
  sel : Nat := 4
  /-- ST has had its first lock (R380) -/
  stLocked : Bool := false
  /-- TB4 at TB_SELECT, from which FIRST_WAIT counts (R355) -/
  selAt : Option (BitVec 96) := none
  /-- TB4 has been stepped (R353) -/
  tb4Stepped : Bool := false
  /-- TB4_INC_LO as last written (R353, R379) -/
  incLo : Word := 0
  /-- SNAP0-SNAP5 (R379) -/
  snap : List (BitVec 64) := List.replicate 6 0
  /-- TAI seconds of the next pulse (R366) -/
  tod : Option Nat := none
  /-- consecutive missing pulses (R350) -/
  ppsMiss : Nat := 0
  /-- the whole second of TB2 whose pulse was the last accepted (R366) -/
  ppsSec : Nat := 0
  /-- the slave clocks of domains A and B (R363) -/
  ptp : Tab PtpRun := []
  /-- SLEEP_COUNT (R379) -/
  sleepCount : Word := 0
  /-- phase of the sleep oscillator, 2^-16 ns -/
  sleepPhase : Nat := 0
  /-- SLEEP_PERIOD (R379) -/
  sleepPeriod : Word := 0x77359400
  /-- survey under way (R369) -/
  survey : Option Survey := none
  /-- the 9 time counters (R384) -/
  counters : List Nat := List.replicate 9 0
  /-- a base or ST is held at its rate limit (R352) -/
  rateLimited : Bool := false
  /-- TICK stopped in STALL (R372) -/
  stopped : Bool := false
  /-- when work of an interval was last done, and since when a time-out runs (R344, R363, R368, R370, R387, R406, R428, R475) -/
  ran : List (Period × BitVec 64) := []
  deriving DecidableEq, Repr

/-- A gait timer 0-15 (R381). -/
structure Gait where
  /-- GT_CTRL, 32 bits (R382) -/
  ctrl : Word := 0
  /-- GT_COUNT (R381) -/
  count : Word := 0
  /-- GT_COMPARE (R381) -/
  compare : Word := 0xFFFFFFFF
  /-- GT_INTERVAL (R381) -/
  interval : Word := 0
  /-- GT_TOP (R381) -/
  top : Word := 0xFFFFFFFF
  /-- GT_CAPTURE (R381) -/
  capture : Word := 0
  /-- GT_STATUS, 32 bits (R383) -/
  status : Word := 0
  /-- prescaler phase (R374) -/
  pre : Nat := 0
  /-- output level of the timer (R378) -/
  level : Bool := false
  /-- a match on the present count has been served (R375) -/
  matched : Bool := false
  /-- the instant at which hardware last set a bit of GT_STATUS (R8) -/
  setAt : BitVec 64 := 0
  /-- the bits of GT_STATUS that it set then (R8) -/
  setNow : Word := 0
  deriving DecidableEq, Repr

/-- Tandem and reins. -/
structure Tandem where
  /-- in a tandem (R418) -/
  joined : Bool := false
  /-- 0 Lead or stand-alone, 1 Wheel (R58) -/
  role : Bool := false
  /-- board position -/
  pos : Bool := false
  /-- tandem link -/
  link : Nat := 0
  /-- reins held, GLOBAL_STATUS.REINS_HELD (R58) -/
  reins : Bool := false
  /-- 0 alone, 1 in step, 2 resynchronising, 3 out (R418) -/
  step : Nat := 0
  /-- resynchronisation stage (R413) -/
  stage : Nat := 0
  /-- tandem epoch (R397) -/
  epoch : Word := 0
  /-- last matched ASN (R418) -/
  lastAsn : Word := 0
  /-- start of the revert hold (R414) -/
  holdStart : Option (BitVec 64) := none
  /-- end of the lease this holder last sent (R406) -/
  leaseOwn : Option (BitVec 64) := none
  /-- latest lease end received (R406) -/
  leaseSeen : Option (BitVec 64) := none
  /-- handover instant T_h, whether this device takes the reins, cause (R409) -/
  handover : Option (BitVec 64 × Bool × Nat) := none
  /-- output drivers enabled, not HELD (R190, R401) -/
  outputs : Bool := true
  /-- REINS_SEL (R407) -/
  reinsSel : Bool := false
  /-- herd links to peers held down (R407) -/
  peerDown : Bool := false
  /-- reins frame SEQ, modulo 16 (R405) -/
  frameSeq : Nat := 0
  /-- renewal periods without a frame, by path (R406) -/
  pathSilent : List Nat := [0, 0]
  /-- ST of the last frame, by path (R406) -/
  pathHeard : List (BitVec 64) := [0, 0]
  /-- sequence number of the next mirrored input (R16, R400) -/
  mirrorSeq : Nat := 0
  /-- backhaul frames of the last 1 ms that came by this member's own lanes and that no mirrored input has named, with their
  instants and ports (R398, R400, R411) -/
  bhHeard : List (BitVec 64 × Nat × EthIn) := []
  /-- consecutive slots without the partner's digest (R404) -/
  missing : Nat := 0
  /-- own digest of the last slot (R403) -/
  digest : Option (Nat × BitVec 64) := none
  /-- items covered by the digest of this slot (R403) -/
  items : List (Nat × List Word) := []
  /-- TANDEM_RESYNC under way (R413) -/
  resync : Option (Nat × BitVec 16) := none
  /-- a revert request of this member is out (R414) -/
  asked : Bool := false
  /-- frames sent on the backhaul in the last 12 ms (R411) -/
  bhSent : List (BitVec 64 × BhOut) := []
  /-- the 9 tandem counters (R418) -/
  counters : List Nat := List.replicate 9 0
  /-- stage of FW_ACTIVATE in a tandem (R481) -/
  fwStage : Nat := 0
  /-- first of the matching digests that FW_ACTIVATE waits for (R481) -/
  fwSince : Option (BitVec 64) := none
  /-- mirrored inputs of this instant: ASN, sequence, input (R16, R400) -/
  mirrorq : List (Nat × Nat × Mirrored) := []
  deriving DecidableEq, Repr

/-- Bridle lockstep (R415-R417). -/
structure Bridle where
  /-- channels in the vote (R418) -/
  votes : BitVec 3 := 7
  /-- channels out until device reset (R416) -/
  out : BitVec 3 := 0
  /-- vote withdrawals of the last second (R416) -/
  history : List (Nat × BitVec 64) := []
  /-- vote withdrawals since reset (R418) -/
  withdrawals : Nat := 0
  /-- restarts since reset (R418) -/
  restarts : Nat := 0
  /-- Bridle restarts (R417) -/
  restarting : Bool := false
  deriving DecidableEq, Repr

/-- A vault slot (R423). -/
structure Slot where
  /-- 0 EMPTY, 1 LOADED, 2 RETIRED (R424) -/
  state : Nat := 0
  /-- type 1 ZONE, 2 TRANSPORT, 3 OPERATOR, 0 none -/
  typ : Nat := 0
  /-- 0 none, 1 generated, 2 imported (R438) -/
  origin : Nat := 0
  /-- key check value, 3 bytes -/
  check : List Byte := []
  /-- public key X, Y of a TRANSPORT slot -/
  pub : List Byte := []
  /-- key field, 32 bytes, held wrapped under the root -/
  key : List Byte := []
  /-- mask M of its two shares (R428) -/
  mask : BitVec 256 := 0
  deriving DecidableEq, Repr

/-- START_COUNT values of a network (R243). -/
structure StartCount where
  /-- START_COUNT, 8 bits -/
  cur : Nat := 255
  /-- its held state -/
  curHeld : Bool := true
  /-- START_COUNT_PREV, 8 bits -/
  prev : Nat := 255
  /-- its held state -/
  prevHeld : Bool := true
  deriving DecidableEq, Repr

/-- Key vault, tamper domain and the rest of the VBAT domain. -/
structure Vault where
  /-- slots 0-63, EMPTY (R423) -/
  slots : Tab Slot := []
  /-- ZONE_NEXT_SET bindings by network (R430) -/
  next : Tab Nat := []
  /-- tamper configuration in force (R432) -/
  tamper : TamperCfg := {}
  /-- TAMPERED latch (R433) -/
  tampered : Bool := false
  /-- TAMPER_COUNT, 32 bits saturating (R433) -/
  count : Nat := 0
  /-- VBAT_LOST (R437) -/
  vbatLost : Bool := false
  /-- check pattern intact (R437) -/
  pattern : Bool := true
  /-- PF_FLAG (R444, R445) -/
  pfFlag : Bool := false
  /-- power-fail starts since the domain was set up (R464) -/
  pfStarts : Nat := 0
  /-- START_COUNT values by network (R243) -/
  start : Tab StartCount := []
  /-- vault unlocked (R422, R440) -/
  unlocked : Bool := false
  /-- root rebuilt (R420, R440) -/
  rootOk : Bool := false
  /-- Brand key present (R421, R440) -/
  brand : Bool := false
  /-- root attempts used at the last start (R440) -/
  attempts : Nat := 0
  /-- inputs tripped now (R440) -/
  tripped : BitVec 10 := 0
  /-- input that last zeroised (R440) -/
  lastZero : Option Nat := none
  /-- report-only trips since reset (R440) -/
  reports : Nat := 0
  deriving DecidableEq, Repr

/-- A mode transition that runs (R449, R452). -/
structure Transition where
  /-- GRAZE or STALL -/
  target : Mode := .graze
  /-- command queue -/
  queue : Nat := 0
  /-- TAG -/
  tag : BitVec 16 := 0
  /-- by GRAZE_AUTO -/
  auto : Bool := false
  deriving DecidableEq, Repr

/-- A power domain 0-46 (R451). -/
structure Domain where
  /-- PD_VOTE.HOST (R451) -/
  host : BitVec 8 := 0
  /-- PD_VOTE.SENSE (R451) -/
  sense : Bool := false
  /-- PD_POLICY (R451) -/
  policy : Word := 0xC9
  /-- PD_STATE.STATE (R451) -/
  state : Nat := 0
  /-- PD_STATE.FAULT (R451) -/
  fault : Bool := false
  /-- idle timer: since when the domain has been on without a vote (R451) -/
  idle : Option (BitVec 64) := none
  deriving DecidableEq, Repr

/-- Power domains and modes as they run. -/
structure Pwr where
  /-- domains 0-46 -/
  domains : Tab Domain := []
  /-- transition that runs (R449) -/
  trans : Option Transition := none
  /-- mode before GRAZE or STALL (R448) -/
  before : Mode := .saddle
  /-- mode before STALL (R448) -/
  beforeStall : Mode := .saddle
  /-- last wake cause 0-5 (R464) -/
  lastWake : Option Nat := none
  /-- sense cycles since entry (R464) -/
  senseCycles : Nat := 0
  /-- plains whose sense cycle runs (R455) -/
  sensing : BitVec 4 := 0
  /-- the first 5 power counters (R464) -/
  counters : List Nat := List.replicate 5 0
  /-- SLEEP_COUNT at STALL entry (R459) -/
  stallAt : Word := 0
  /-- last track start or transmission (R457) -/
  lastAct : BitVec 64 := 0
  /-- start of the last sense cycle by plain (R455) -/
  lastSense : Tab (BitVec 64) := []
  /-- woken from GRAZE since the last MODE_SET 3 (R457) -/
  woken : Bool := false
  /-- host writes held in STALL, applied after exit (R459) -/
  heldPush : List HeldWrite := []
  deriving DecidableEq, Repr

/-- A tack set (R477). -/
structure Tack where
  /-- number -/
  number : Word := 0
  /-- label -/
  label : Word := 0
  /-- firmware slot it names -/
  slot : Nat := 0
  /-- configuration held -/
  cfg : Cfg := {}
  /-- copy of the tamper configuration (R436) -/
  tamper : TamperCfg := {}
  /-- setting in force by RCK (R203, R477) -/
  rck : Tab Nat := []
  /-- spill cap and CUT_THRESH by queue (R43, R477) -/
  caps : Tab (Nat × Nat) := []
  /-- settings of the DMA engines (R344, R477) -/
  engines : Tab Engine := []
  deriving DecidableEq, Repr

/-- A firmware slot (R471-R473). -/
structure FwSlot where
  /-- 0 erased, 1 loading, 2 VERIFIED, 3 invalid, 4 running (R484) -/
  state : Nat := 0
  /-- version -/
  version : Word := 0
  /-- STEP_MIN -/
  stepMin : Word := 0
  /-- blocks held, in order -/
  blocks : List (List Byte) := []
  /-- block count of the load -/
  count : Nat := 0
  deriving DecidableEq, Repr

/-- A flash operation under way (R468, R469). -/
structure FlashOp where
  /-- erase, program, tack save, firmware begin, image block -/
  kind : FlashKind := .erase 0 0
  /-- command (queue, tag) it completes -/
  cmd : Option (Nat × BitVec 16) := none
  /-- herd ID to which the block is acknowledged (R474) -/
  peer : Option Nat := none
  /-- snapshot that a tack save writes (R478) -/
  tack : Option Tack := none
  /-- already under way (R42) -/
  begun : Bool := false
  deriving DecidableEq, Repr

/-- Firmware, tack sets and flash manager. -/
structure Fw where
  /-- slots A 0 and B 1 -/
  slots : Tab FwSlot := [(0, { state := 2, version := 0x01000000#32 })]
  /-- slot Bridle runs on -/
  running : Nat := 0
  /-- slot being loaded (R473) -/
  loading : Option Nat := none
  /-- image chain (R474) -/
  chain : List Nat := []
  /-- 0 idle, 1 passing, 2 broken, 3 complete (R484) -/
  chainState : Nat := 0
  /-- block passed to the next device and not yet acknowledged (R474) -/
  chainAt : Nat := 0
  /-- sends of that block (R475) -/
  chainTries : Nat := 0
  /-- herd ID at the break (R484) -/
  chainBreak : Option Nat := none
  /-- FW_CHAIN_RESUME waiting for the next device's count (R475) -/
  resume : Option (Nat × BitVec 16) := none
  /-- countersignature required (R476) -/
  policy : Bool := false
  /-- OPERATOR slot of the policy (R476) -/
  policySlot : Nat := 0
  /-- active tack (R477) -/
  active : Option Tack := none
  /-- previous tack (R477) -/
  prev : Option Tack := none
  /-- the active tack is revertible (R478) -/
  revertible : Bool := false
  /-- tack sets locked (R479) -/
  locked : Bool := false
  /-- number of the next save (R477) -/
  nextTack : Word := 1
  /-- flash operations under way -/
  ops : List FlashOp := []
  /-- sectors marked for re-erase (R470) -/
  reerase : List Nat := []
  /-- journal entries: kind 0 begun, 1 suspended, 2 resumed, 3 ended, 4 closed; sector (R469) -/
  journal : List (Nat × Nat) := []
  /-- flash size in MiB (R466) -/
  flashMiB : Nat := 64
  /-- flash has every property of R466 -/
  flashOk : Bool := true
  /-- BOOT_EPOCH kept in flash (R337, R467) -/
  lastEpoch : Word := 0
  /-- FW_ACTIVATE under way: queue, tag, label, t0 (R480) -/
  act : Option (Nat × BitVec 16 × Word × BitVec 64) := none
  /-- the new firmware runs and waits for its tack (R480) -/
  actRan : Bool := false
  /-- FLASH_READ commands that wait for an erase: queue, tag, address, length (R469) -/
  reads : List (Nat × BitVec 16 × Nat × Nat) := []
  /-- tack slot that holds the active tack, 0 A, 1 B (R467, R477) -/
  tackSlot : Nat := 0
  /-- FW_ACTIVATE of a tandem that waits for the other member: queue, tag, label or FW_VERSION, tack number (R481) -/
  pair : Option (Nat × BitVec 16 × Word × Word) := none
  deriving DecidableEq, Repr

/-- The device. -/
structure State where
  /-- configuration in force -/
  cfg : Cfg := {}
  /-- identity, status, clocks -/
  dev : Dev := {}
  /-- command interpreter -/
  cmd : CmdUnit := {}
  /-- Q0-Q1023 -/
  que : Tab Queue := []
  /-- semaphores 0-63 -/
  sem : Tab Sem := []
  /-- requests of peers that arrived at this instant, not yet resolved: semaphore, herd ID, release (R62) -/
  semReq : List (Nat × Nat × Bool) := []
  /-- trouble bits and log -/
  trb : Trouble := {}
  /-- what the device has sent -/
  out : Out := {}
  /-- staging DRAM and flash host area -/
  mem : Mem := {}
  /-- receive array -/
  rx : Rx := {}
  /-- cutting engine -/
  cut : Cut := {}
  /-- combiner -/
  comb : Comb := {}
  /-- transmit chain and clocks -/
  radio : Radio := {}
  /-- link engine -/
  link : Link := {}
  /-- slot scheduler -/
  sched : Sched := {}
  /-- ledger and shaper -/
  air : Air := {}
  /-- forwarding unit -/
  fwd : Fwd := {}
  /-- BH0, BH1 -/
  bh : Tab BhPort := []
  /-- herd protocol -/
  herd : Herd := {}
  /-- PCIe endpoint -/
  host : HostIf := {}
  /-- time unit -/
  time : Time := {}
  /-- gait timers 0-15 -/
  gait : Tab Gait := []
  /-- tandem -/
  tan : Tandem := {}
  /-- Bridle channels -/
  bri : Bridle := {}
  /-- vault, tamper, VBAT domain -/
  vault : Vault := {}
  /-- power -/
  pwr : Pwr := {}
  /-- firmware, tack sets, flash -/
  fw : Fw := {}
  /-- counter of the free values taken so far, applied to the opaque constants of Config -/
  free : Nat := 0
  /-- commands that wait for step, first in, first out -/
  pending : List Instr := []
  deriving DecidableEq, Repr

/-- Why a command could not be carried out although the machine holds it: none of these is raised by a
well-formed command, and the spec names no stop of the device. -/
inductive Fault where
  /-- Raised by the rows whose operand contradicts the row (a CMD_MALFORMED of 8 bytes or more, an
  UNDEFINED_OPCODE with a defined opcode, an UNSUPPORTED_REQUEST of a supported access): what WellFormed
  refuses. Safe: such a command is none of the table's. -/
  | illFormed
  deriving DecidableEq, Repr

/-- Refusals of exec. -/
inductive Refusal where
  /-- Raised by the arm of a command without a meaning. Safe. -/
  | notModelled (mnemonic : String)
  deriving DecidableEq, Repr

/-- The device right after reset: every field at its reset value, nothing pending, SADDLE still to run. -/
def State.reset : State where

end Sys2Proof.Machine
end

