-- ==== Sys2Proof/Machine/Bits.lean ====
section
/-! DEFINITION. Bit fields, signed numbers, byte strings in words (R5, R514), and tables by number. -/

namespace Sys2Proof.Machine

/-- Bits hi..lo of a word as a number. -/
def bits {n : Nat} (w : BitVec n) (hi lo : Nat) : Nat := (w.toNat >>> lo) % 2 ^ (hi + 1 - lo)

/-- Bit i of a word. -/
def bit {n : Nat} (w : BitVec n) (i : Nat) : Bool := w.getLsbD i

/-- A number read as n-bit two's complement. -/
def signed (n v : Nat) : Int := if v % 2 ^ n < 2 ^ (n - 1) then (v % 2 ^ n : Nat) else ((v % 2 ^ n : Nat) : Int) - 2 ^ n

/-- A flag as a number. -/
def flag (b : Bool) : Nat := if b then 1 else 0

/-- An integer as a 32-bit word, two's complement. -/
def ofInt (v : Int) : Word := BitVec.ofInt 32 v

/-- A number kept at the top of its n-bit range (R149). -/
def saturate (n v : Nat) : Nat := min v (2 ^ n - 1)

/-- A 64-bit value as its low and its high word (R5). -/
def loHi (v : BitVec 64) : List Word := [v.setWidth 32, (v >>> 32).setWidth 32]

/-- A 64-bit value from its low and its high word (R5). -/
def wide (lo hi : Word) : BitVec 64 := hi.setWidth 64 <<< 32 ||| lo.setWidth 64

/-- The instances a mask names, rising. -/
def maskList {n : Nat} (m : BitVec n) : List Nat := (List.range n).filter (fun i => m.getLsbD i)

/-- How many instances a mask names. -/
def maskCount {n : Nat} (m : BitVec n) : Nat := (maskList m).length

/-- A mask with bit i set or cleared. -/
def setBit {n : Nat} (m : BitVec n) (i : Nat) (b : Bool) : BitVec n :=
  if b then m ||| BitVec.ofNat n (2 ^ i) else m &&& ~~~ BitVec.ofNat n (2 ^ i)

/-- The mask of the numbers of a list. -/
def maskOf (n : Nat) (l : List Nat) : BitVec n := l.foldl (fun m i => setBit m i true) 0

/-- A number as k bytes, least significant first (R5). -/
def leBytes (k v : Nat) : List Byte := (List.range k).map (fun i => BitVec.ofNat 8 (v >>> (8 * i)))

/-- A number as k bytes, most significant first (network byte order, R5). -/
def beBytes (k v : Nat) : List Byte := (leBytes k v).reverse

/-- Bytes read least significant first (R5). -/
def leNat : List Byte → Nat
  | [] => 0
  | b :: r => b.toNat + 256 * leNat r

/-- Bytes read most significant first. -/
def beNat (l : List Byte) : Nat := leNat l.reverse

/-- The four bytes of a word in memory order (R514). -/
def wordBytes (w : Word) : List Byte := leBytes 4 w.toNat

/-- The first n bytes of a string packed in words (R514). -/
def bytesOfWords (ws : List Word) (n : Nat) : List Byte := (ws.flatMap wordBytes).take n

/-- A byte string packed in words, the last one padded with zero bytes (R514). -/
def wordsOfBytes (l : List Byte) : List Word :=
  (List.range ((l.length + 3) / 4)).map (fun i => BitVec.ofNat 32 (leNat ((l.drop (4 * i)).take 4)))

/-- Two fields of 16 bits in one word, the high one first. -/
def pair16 (hi lo : Nat) : Word := BitVec.ofNat 32 (hi % 65536 * 65536 + lo % 65536)

/-- Four fields of 8 bits in one word, the highest first. -/
def quad8 (a b c d : Nat) : Word :=
  BitVec.ofNat 32 (a % 256 * 16777216 + b % 256 * 65536 + c % 256 * 256 + d % 256)

/-- A number as a word. -/
def w32 (n : Nat) : Word := BitVec.ofNat 32 n

/-- Byte at position i of a string, zero beyond its end. -/
def byteAt (l : List Byte) (i : Nat) : Nat := (l.getD i 0#8).toNat

/-- The slice of n bytes from position i. -/
def slice (l : List Byte) (i n : Nat) : List Byte := (l.drop i).take n

/-- Exclusive or of two byte strings. -/
def xorBytes (a b : List Byte) : List Byte := List.zipWith (· ^^^ ·) a b

/-- The entry of a table at number k; d is what an unlisted number reads as. -/
def tabGet {α : Type} (t : Tab α) (k : Nat) (d : α) : α :=
  match t with
  | [] => d
  | (k', v) :: r => if k = k' then v else tabGet r k d

/-- The table with v at number k, numbers rising. -/
def tabSet {α : Type} (t : Tab α) (k : Nat) (v : α) : Tab α :=
  match t with
  | [] => [(k, v)]
  | (k', v') :: r =>
    if k = k' then (k, v) :: r else if k < k' then (k, v) :: (k', v') :: r else (k', v') :: tabSet r k v

/-- The table without number k. -/
def tabDel {α : Type} (t : Tab α) (k : Nat) : Tab α := t.filter (fun e => e.1 != k)

/-- The table's listed entry at number k, if any. -/
def tabFind {α : Type} (t : Tab α) (k : Nat) : Option α :=
  match t with
  | [] => none
  | (k', v) :: r => if k = k' then some v else tabFind r k

/-- A list with position i changed by f. -/
def listMod {α : Type} (l : List α) (i : Nat) (f : α → α) : List α :=
  match l, i with
  | [], _ => []
  | x :: r, 0 => f x :: r
  | x :: r, i + 1 => x :: listMod r i f

/-- The first item with property p, and the list without it. -/
def takeFirst {α : Type} (p : α → Bool) (l : List α) : Option (α × List α) :=
  match l with
  | [] => none
  | x :: r => if p x then some (x, r) else (takeFirst p r).map (fun y => (y.1, x :: y.2))

/-- The item that comes first under an order: `before a b` says that a comes strictly before b; of equals the
earlier in the list wins. -/
def firstBy {α : Type} (before : α → α → Bool) (l : List α) : Option α :=
  match l with
  | [] => none
  | x :: r =>
    match firstBy before r with
    | none => some x
    | some y => if before y x then some y else some x

/-- Lexicographic comparison of two keys of equal length: a comes strictly before b. -/
def keyBefore : List Nat → List Nat → Bool
  | a :: r, b :: q => if a < b then true else if b < a then false else keyBefore r q
  | _, _ => false

end Sys2Proof.Machine
end

