-- ==== Sys2Proof/Machine/Operands.lean ====
section
/-! DEFINITION. The operands of a command: header fields (R25), parameter words, and the forms the command
tables use for them. -/

namespace Sys2Proof.Machine

/-- PLEN: the number of parameter words the header announces (R25). -/
def plen (c : Packet) : Nat := bits c.word1 15 0

/-- BROADCAST (R25). -/
def broadcast (c : Packet) : Bool := bit c.word1 16

/-- NO_REPLY (R25, R30). -/
def noReply (c : Packet) : Bool := bit c.word1 17

/-- ORDERED (R25, R29). -/
def ordered (c : Packet) : Bool := bit c.word1 18

/-- The reserved bits [23:19] of header word 1 (R6, R25). -/
def headerReserved (c : Packet) : Nat := bits c.word1 23 19

/-- PRIORITY (R25). -/
def priority (c : Packet) : Nat := bits c.word1 25 24

/-- TARGET (R25). -/
def target (c : Packet) : Nat := bits c.word1 31 26

/-- Length of the queue packet in bytes: the two header words, the parameter words and the bytes beyond (R26). -/
def packetBytes (c : Packet) : Nat := 8 + 4 * c.params.length + c.extra.val

/-- Parameter word i. -/
def pw (c : Packet) (i : Nat) : Word := c.params.getD i 0#32

/-- Parameter word i as a number. -/
def pn (c : Packet) (i : Nat) : Nat := (pw c i).toNat

/-- Bits hi..lo of parameter word i. -/
def pf (c : Packet) (i hi lo : Nat) : Nat := bits (pw c i) hi lo

/-- Parameter word i as a signed number. -/
def pi (c : Packet) (i : Nat) : Int := (pw c i).toInt

/-- Parameter words i and i + 1 as one 64-bit value, low word first (R5). -/
def p64 (c : Packet) (i : Nat) : BitVec 64 := wide (pw c i) (pw c (i + 1))

/-- Word i has no bit set from bit n upward: its reserved bits are zero (R6). -/
def fits (c : Packet) (i n : Nat) : Bool := pn c i < 2 ^ n

/-- Word i lies in lo..hi. -/
def within (c : Packet) (i lo hi : Nat) : Bool := lo ≤ pn c i && pn c i ≤ hi

/-- Word i has only bits of mask m set (R6). -/
def only (c : Packet) (i m : Nat) : Bool := pw c i &&& ~~~ w32 m = 0#32

/-- The bytes of a string of n bytes that starts at parameter word i (R514). -/
def pbytes (c : Packet) (i n : Nat) : List Byte := bytesOfWords (c.params.drop i) n

/-- The parameter words from word i, k of them. -/
def pwords (c : Packet) (i k : Nat) : List Word := (c.params.drop i).take k

/-- The bytes of word i from byte k upward are zero, as R514 pads them. -/
def padded (c : Packet) (i k : Nat) : Bool := pn c i < 2 ^ (8 * k)

end Sys2Proof.Machine
end

