-- ==== Sys2Proof/Machine/Flags.lean ====
section
/-! DEFINITION. Codes and flags: status codes (R36), the place of every trouble bit (R65), mode and role codes
(R58), and the word GLOBAL_STATUS. -/

namespace Sys2Proof.Machine

/-- The code of a status (R36). -/
def statusCode : Status → BitVec 16
  | .ok => 0x0000#16
  | .deferredDuty => 0x0101#16
  | .deferredShaper => 0x0102#16
  | .deferredPrecedence => 0x0103#16
  | .deferredRendezvous => 0x0104#16
  | .deferredCapacity => 0x0105#16
  | .deferredCoexPending => 0x0106#16
  | .refusedDuty => 0x0201#16
  | .refusedShaper => 0x0202#16
  | .refusedPrecedence => 0x0203#16
  | .refusedCapacity => 0x0204#16
  | .refusedCoex => 0x0205#16
  | .refusedBlanked => 0x0206#16
  | .refusedNoRoute => 0x0207#16
  | .refusedNodeUnknown => 0x0208#16
  | .refusedTableFull => 0x0209#16
  | .invalidOpcode => 0x0301#16
  | .invalidParameter => 0x0302#16
  | .invalidLength => 0x0303#16
  | .invalidState => 0x0304#16
  | .invalidNotErased => 0x0305#16
  | .invalidCheckValue => 0x0306#16
  | .notPermittedNoReins => 0x0401#16
  | .notPermittedMinority => 0x0402#16
  | .notPermittedTackLocked => 0x0403#16
  | .notPermittedSlotUsed => 0x0404#16
  | .notPermittedTamperLatched => 0x0405#16
  | .retryPeerReset => 0x0501#16
  | .retryEngineRestarted => 0x0502#16
  | .retryModeTransition => 0x0503#16
  | .retryActivationPause => 0x0504#16
  | .failedHardware => 0x0601#16
  | .failedSignature => 0x0602#16
  | .failedFlash => 0x0603#16
  | .failedRootKey => 0x0604#16
  | .abortedByHost => 0x0701#16
  | .abortedCapacityRemoved => 0x0702#16
  | .abortedReset => 0x0703#16

/-- The register TRB0-TRB7 that holds a trouble bit (R65). -/
def trbReg : TrbBit → Nat
  | .vinLow => 0
  | .vinSurge => 0
  | .railFault => 0
  | .thermalWarn => 0
  | .clkLoss => 0
  | .serdesUnlock => 0
  | .dramPllUnlock => 0
  | .sleepCal => 0
  | .rckUnlock _ => 0
  | .sysrefFault _ => 0
  | .vbatLow => 0
  | .domainFault => 0
  | .laneFault _ => 1
  | .trackOverflow _ => 1
  | .clip _ => 1
  | .beamTableErr => 1
  | .decoderFault => 1
  | .cutBusy => 1
  | .cutRestart => 1
  | .combineDiscard => 1
  | .ledgerExhausted _ => 2
  | .coxMissed _ => 2
  | .blankAbort _ => 2
  | .txUnderrun => 2
  | .txTiming => 2
  | .scriptFault => 2
  | .shaperRefusal => 2
  | .precedenceLoss => 2
  | .guardRefusal => 2
  | .replay => 3
  | .micFail => 3
  | .rootKeyFail => 3
  | .cryptoRestart => 3
  | .ackLate => 3
  | .linkOverload => 3
  | .imageErr => 3
  | .nodeInsertFail => 3
  | .floodFallback => 3
  | .noRoute => 3
  | .prefixFull => 3
  | .ptrErr => 4
  | .queueOverflow => 4
  | .spillExhausted => 4
  | .dramCe => 4
  | .dramUe => 4
  | .aperture => 4
  | .sramParity => 4
  | .cmdMalformed => 4
  | .bhDown _ => 5
  | .bhFcs _ => 5
  | .bhTrunc _ => 5
  | .herdDown _ => 5
  | .herdRetry _ => 5
  | .pcieErr => 5
  | .dmaFault => 5
  | .tbLoss _ => 6
  | .tbSwitch => 6
  | .ppsMissing => 6
  | .surveyPartial => 6
  | .rateLimit => 6
  | .gtOverrun => 6
  | .peerReset => 7
  | .herdSplit => 7
  | .minority => 7
  | .digestMismatch => 7
  | .reinsLost => 7
  | .takeover => 7
  | .bridleVote => 7
  | .selftestFail => 7
  | .tamper => 7
  | .tamperSensor => 7
  | .semAbandoned => 7
  | .flashReerase => 7
  | .activationFail => 7

/-- The bit of a trouble bit in its register (R65); a per-instance field has bit n for instance n. -/
def trbPos : TrbBit → Nat
  | .vinLow => 0
  | .vinSurge => 1
  | .railFault => 2
  | .thermalWarn => 3
  | .clkLoss => 4
  | .serdesUnlock => 5
  | .dramPllUnlock => 6
  | .sleepCal => 7
  | .rckUnlock n => 8 + n.val
  | .sysrefFault n => 12 + n.val
  | .vbatLow => 16
  | .domainFault => 17
  | .laneFault n => 0 + n.val
  | .trackOverflow n => 16 + n.val
  | .clip n => 20 + n.val
  | .beamTableErr => 24
  | .decoderFault => 25
  | .cutBusy => 26
  | .cutRestart => 27
  | .combineDiscard => 28
  | .ledgerExhausted n => 0 + n.val
  | .coxMissed n => 4 + n.val
  | .blankAbort n => 8 + n.val
  | .txUnderrun => 12
  | .txTiming => 13
  | .scriptFault => 14
  | .shaperRefusal => 15
  | .precedenceLoss => 16
  | .guardRefusal => 17
  | .replay => 0
  | .micFail => 1
  | .rootKeyFail => 2
  | .cryptoRestart => 3
  | .ackLate => 4
  | .linkOverload => 5
  | .imageErr => 6
  | .nodeInsertFail => 7
  | .floodFallback => 8
  | .noRoute => 9
  | .prefixFull => 10
  | .ptrErr => 0
  | .queueOverflow => 1
  | .spillExhausted => 2
  | .dramCe => 3
  | .dramUe => 4
  | .aperture => 5
  | .sramParity => 6
  | .cmdMalformed => 7
  | .bhDown n => 0 + n.val
  | .bhFcs n => 2 + n.val
  | .bhTrunc n => 4 + n.val
  | .herdDown n => 6 + n.val
  | .herdRetry n => 10 + n.val
  | .pcieErr => 14
  | .dmaFault => 15
  | .tbLoss n => 0 + n.val
  | .tbSwitch => 4
  | .ppsMissing => 5
  | .surveyPartial => 6
  | .rateLimit => 7
  | .gtOverrun => 8
  | .peerReset => 0
  | .herdSplit => 1
  | .minority => 2
  | .digestMismatch => 3
  | .reinsLost => 4
  | .takeover => 5
  | .bridleVote => 6
  | .selftestFail => 7
  | .tamper => 8
  | .tamperSensor => 9
  | .semAbandoned => 10
  | .flashReerase => 11
  | .activationFail => 12

/-- The bits of TRBn that R65 lists; every other bit is reserved (R64). -/
def trbDefined (n : Nat) : Word :=
  match n with
  | 0 => 0x0003ffff#32
  | 1 => 0x1fffffff#32
  | 2 => 0x0003ffff#32
  | 3 => 0x000007ff#32
  | 4 => 0x000000ff#32
  | 5 => 0x0000ffff#32
  | 6 => 0x000001ff#32
  | 7 => 0x00001fff#32
  | _ => 0#32

/-- GLOBAL_STATUS.MODE (R58). -/
def modeCode : Mode → Nat
  | .saddle => 0
  | .gallop => 1
  | .trot => 2
  | .graze => 3
  | .stall => 4
  | .remount => 5

/-- GLOBAL_STATUS as a word (R58). -/
def globalStatus (s : State) : Word :=
  w32 (modeCode s.dev.mode + 8 * flag s.dev.cmdReady + 16 * flag s.dev.dataReady + 32 * flag s.dev.soundPin
    + 64 * flag s.tan.role + 128 * flag s.tan.reins + 256 * flag s.dev.actPause
    + 65536 * (s.cmd.inFlight.length % 2048))

/-- State code of GET_COMMAND_STATE (R40). -/
def phaseCode : Phase → Nat
  | .waiting => 1
  | .running => 2
  | .held => 3

/-- SEQ code of a port sequencer state, by the order of R189's table. -/
def seqCode : SeqState → Nat
  | .idle => 0
  | .rx => 1
  | .prep => 2
  | .tx => 3
  | .ret => 4
  | .script => 5
  | .held => 6

/-- The codes of agents at the semaphores. -/
def agentCode : Agent → BitVec 8
  | .host => 0x01#8
  | .peer h => BitVec.ofNat 8 (0x40 + h.val)
  | .bridle => 0x80#8

/-- The opcodes that the command tables define (R39). -/
def definedOpcodes : List Nat := [
  0x0000, 0x0001, 0x0002, 0x0003, 0x0004, 0x0100, 0x0101, 0x0102, 0x0103, 0x0104, 0x0105, 0x0106,
  0x0200, 0x0201, 0x0202, 0x0203, 0x0204, 0x0205, 0x0206, 0x0207, 0x0208, 0x0210, 0x0211, 0x0212,
  0x0213, 0x0214, 0x0220, 0x0221, 0x0222, 0x0230, 0x0231, 0x0232, 0x0233, 0x0240, 0x0241, 0x0242,
  0x0250, 0x0300, 0x0301, 0x0302, 0x0303, 0x0304, 0x0305, 0x0310, 0x0311, 0x0320, 0x0321, 0x0400,
  0x0401, 0x0402, 0x0403, 0x0404, 0x0405, 0x0406, 0x0407, 0x0408, 0x0409, 0x0410, 0x0411, 0x0412,
  0x0420, 0x0421, 0x0430, 0x0431, 0x0432, 0x0450, 0x0451, 0x0500, 0x0501, 0x0502, 0x0503, 0x0504,
  0x0505, 0x0506, 0x0507, 0x0510, 0x0511, 0x0512, 0x0513, 0x0520, 0x0600, 0x0601, 0x0602, 0x0603,
  0x0604, 0x0605, 0x0606, 0x0610, 0x0611, 0x0612, 0x0620, 0x0621, 0x0622, 0x0630, 0x0631, 0x0632,
  0x0633, 0x0640, 0x0641, 0x0650, 0x0700, 0x0701, 0x0702, 0x0703, 0x0710, 0x0711, 0x0712, 0x0713,
  0x0714, 0x0715, 0x0720, 0x0730, 0x0731, 0x0740, 0x0750, 0x0800, 0x0801, 0x0802, 0x0803, 0x0804,
  0x0805, 0x0820, 0x0821, 0x0822, 0x0823, 0x0840, 0x0841, 0x0842, 0x0843, 0x0844, 0x08C0, 0x08C1,
  0x08C2, 0x08C3, 0x0900, 0x0901, 0x0902, 0x0903, 0x0904, 0x0905, 0x0906, 0x0907, 0x0908, 0x0909,
  0x090A, 0x0920, 0x0A00, 0x0A01, 0x0A02, 0x0A03, 0x0A04, 0x0A05, 0x0A06, 0x0A07, 0x0A08, 0x0A10,
  0x0A11, 0x0A12, 0x0A13, 0x0B00, 0x0B01, 0x0B02, 0x0B03, 0x0B04, 0x0B10, 0x0B11, 0x0B12, 0x0B13,
  0x0B14, 0x0B20, 0x0B21, 0x0C00, 0x0C01, 0x0C02, 0x0C03, 0x0C04, 0x0C05, 0x0C06, 0x0C10, 0x0C11,
  0x0C12, 0x0C13, 0x0C20, 0x0C21, 0x0C22, 0x0C23, 0x0D00, 0x0D01, 0x0D02, 0x0D03]

/-- The opcode is defined in its range (R39). -/
def opcodeDefined (op : Nat) : Bool := definedOpcodes.contains op

end Sys2Proof.Machine
end

