-- ==== Sys2Proof/Machine/Ops.lean ====
section
/-! DEFINITION. The named operations over the device's state: time, memory, trouble bits, pannier queues, events,
replies, herd messages and free values. -/

namespace Sys2Proof.Machine

/-! ### Time -/

/-- ST in whole nanoseconds: the time of events and records. -/
def now (s : State) : BitVec 64 := (s.time.st >>> 32).setWidth 64

/-- An instant d nanoseconds after now. -/
def after (s : State) (d : Nat) : BitVec 64 := now s + BitVec.ofNat 64 d

/-- Instant a has reached target t, by signed difference (R361). -/
def notBefore (a t : BitVec 64) : Bool := !(a - t).msb

/-- The instant t has come. -/
def reached (s : State) (t : BitVec 64) : Bool := notBefore (now s) t

/-- When work of an interval was last done, or since when its time-out runs. -/
def ranAt (s : State) (p : Period) : Option (BitVec 64) := (s.time.ran.find? (fun e => e.1 = p)).map (·.2)

/-- An interval of ns nanoseconds is over, or none has begun. -/
def periodDue (p : Period) (ns : Nat) (s : State) : Bool :=
  match ranAt s p with
  | some t => reached s (t + BitVec.ofNat 64 ns)
  | none => true

/-- An interval begins now. -/
def ranNow (p : Period) (s : State) : State :=
  { s with time := { s.time with ran := (p, now s) :: s.time.ran.filter (fun e => e.1 != p) } }

/-- The instant t has passed. -/
def past (s : State) (t : BitVec 64) : Bool := reached s t && now s != t

/-- Slot a has reached slot t, by signed difference of their 40 bits (R361). -/
def asnReached (a t : Nat) : Bool := (a + 2 ^ 40 - t % 2 ^ 40) % 2 ^ 40 < 2 ^ 39

/-- Activity for GRAZE_IDLE: a track started, or a transmission that pends no more (R457). -/
def noteActivity (s : State) : State := { s with pwr := { s.pwr with lastAct := now s } }

/-! ### Memory: two address spaces of bytes in canonical form -/

/-- Addresses strictly rise and no entry equals what an unlisted address reads as. -/
def Memory.wf (d : Byte) : List Host.Cell → Bool
  | [] => true
  | [c] => c.2 != d
  | c :: c' :: r => c.2 != d && decide (c.1 < c'.1) && Memory.wf d (c' :: r)

/-- The byte at an address; d is what an unlisted address reads as. -/
def memGet (d : Byte) (m : List Host.Cell) (a : Nat) : Byte :=
  match m with
  | [] => d
  | (k, v) :: r => if a = k then v else memGet d r a

/-- The memory with byte v at address a. -/
def memSet (d : Byte) (m : List Host.Cell) (a : Nat) (v : Byte) : List Host.Cell :=
  match m with
  | [] => if v = d then [] else [(a, v)]
  | (k, w) :: r =>
    if a = k then (if v = d then r else (a, v) :: r)
    else if a < k then (if v = d then (k, w) :: r else (a, v) :: (k, w) :: r)
    else (k, w) :: memSet d r a v

/-- The memory with a byte string at address a. -/
def memSetAll (d : Byte) (m : List Host.Cell) (a : Nat) : List Byte → List Host.Cell
  | [] => m
  | b :: r => memSetAll d (memSet d m a b) (a + 1) r

/-- n bytes from address a. -/
def memRead (d : Byte) (m : List Host.Cell) (a n : Nat) : List Byte :=
  (List.range n).map (fun i => memGet d m (a + i))

/-- What a byte of the staging region that nothing has written reads as (DESIGN CHOICE, log 9). -/
def dramBlank : Byte := 0x00#8

/-- What a byte of the flash host area that nothing has programmed reads as: erased (DESIGN CHOICE, log 9). -/
def flashBlank : Byte := 0xFF#8

/-- First address of the image staging region (R20). -/
def stagingBase : Nat := 0x738000000

/-- Size of the image staging region, 3,072 MiB (R20). -/
def stagingSize : Nat := 0xC0000000

/-- n bytes at an offset of the staging region. -/
def stagingRead (s : State) (off n : Nat) : List Byte := memRead dramBlank s.mem.dram (stagingBase + off) n

/-- A span of the staging region holds a word with an uncorrectable error (R23). -/
def stagingBad (s : State) (off n : Nat) : Bool :=
  s.mem.bad.any (fun w => decide (stagingBase + off ≤ 8 * w + 7) && decide (8 * w < stagingBase + off + n))

/-! ### Free values -/

/-- A free word of the spec's making, and the state with the next one due (log 6). -/
def drawWord (s : State) : Word × State := (Config.freeWord s.free, { s with free := s.free + 1 })

/-- A free yes-or-no fact, and the state with the next one due (log 6). -/
def drawBool (s : State) : Bool × State := (Config.freeBool s.free, { s with free := s.free + 1 })

/-- 256 random bits, and the state with the next draw due (R17). -/
def drawRandom (s : State) : BitVec 256 × State := (Config.random s.free, { s with free := s.free + 1 })

/-! ### Queues (R43-R56) -/

/-- What an unlisted queue holds: the reset values of R52 and R54. -/
def queueDefault (q : Nat) : Queue := { consumer := if q < 16 then 0b10#2 else 0b00#2, enable := decide (q < 64) }

/-- Queue q. -/
def que (s : State) (q : Nat) : Queue := tabGet s.que q (queueDefault q)

/-- The state with queue q replaced. -/
def setQue (s : State) (q : Nat) (v : Queue) : State := { s with que := tabSet s.que q v }

/-- Words beyond the 1,024 bytes on die, in bytes of spill (R43). -/
def spillOf (words : Nat) : Nat := 8 * words - 1024

/-- Bytes of the spill pool in use (R43). -/
def poolUsed (s : State) : Nat := (s.que.map (fun e => spillOf e.2.words.length)).sum

/-- The spill pool, 4 GiB (R43). -/
def poolSize : Nat := 0x100000000

/-- What stands against n more words in queue q: the cap, the pool or nothing (R45). -/
def overCap (s : State) (q n : Nat) : Bool := (que s q).cap * 4096 < spillOf ((que s q).words.length + n)

/-- The pool has no room for n more words in queue q (R45). -/
def overPool (s : State) (q n : Nat) : Bool :=
  poolSize < poolUsed s + spillOf ((que s q).words.length + n) - spillOf (que s q).words.length

/-- The words up to and including the last word of the last complete packet. -/
def completeWords (ws : List QWord) : List QWord := (ws.reverse.dropWhile (fun w => !w.last)).reverse

/-- The words of the head packet that are queued. -/
def headWords : List QWord → List QWord
  | [] => []
  | w :: r => if w.last then [w] else w :: headWords r

/-- The words behind the head packet. -/
def behindHead : List QWord → List QWord
  | [] => []
  | w :: r => if w.last then r else behindHead r

/-- Complete packets present (DEPTH). -/
def packetsIn (q : Queue) : Nat := (q.words.filter (fun w => w.last)).length

/-- The head packet is visible to the consumer (R46): complete, or CUT_THRESH bytes of it are queued, or begun. -/
def visible (q : Queue) : Bool :=
  !q.words.isEmpty && (q.begun || q.words.any (fun w => w.last)
    || (0 < q.cutThresh && q.cutThresh ≤ 8 * (q.popped + q.words.length)))

/-- An open packet, one whose last word its producer has not pushed, stands at the tail. -/
def openTail (q : Queue) : Bool :=
  match q.words.getLast? with
  | some w => !w.last
  | none => q.begun && !q.discard

/-- A drop counted in the queue (R508, saturating as R149). -/
def countDrop (q : Queue) : Queue := { q with drops := saturate 32 (q.drops + 1) }

/-- The queue without the words of its open packet (R45). -/
def dropOpen (q : Queue) : Queue :=
  let kept := completeWords q.words
  { q with words := kept, begun := q.begun && !kept.isEmpty, popped := if kept.isEmpty then 0 else q.popped
           pushed := q.pushed - (q.words.length - kept.length) }

/-- The queue with words pushed at instant t. -/
def appendWords (t : BitVec 64) (ws : List QWord) (q : Queue) : Queue :=
  { q with words := q.words ++ ws, pushAt := t, pushed := (if q.pushAt = t then q.pushed else 0) + ws.length }

/-- Bits of STATUS that hardware sets at instant t, remembered against a write of 1 at that same instant (R8). -/
def noteStatus (t : BitVec 64) (b : BitVec 5) (q : Queue) : Queue :=
  { q with setAt := t, setNow := (if q.setAt = t then q.setNow else 0#5) ||| b }

/-- STATUS.OVERFLOW set at instant t (R45). -/
def overflowAt (t : BitVec 64) (q : Queue) : Queue := noteStatus t 2#5 { q with overflow := true }

/-- MSI-X message of vector v recorded as raised (R55, R64). -/
def msi (v : Nat) (s : State) : State := { s with out := { s.out with msi := s.out.msi ++ [v] } }

/-- Queue q replaced by v after a push; its interrupt raised when a word first became visible (R55). -/
def settle (q : Nat) (v : Queue) (s : State) : State :=
  if !visible (que s q) && visible v && v.armed && v.vector != 0#6 then
    msi v.vector.toNat (setQue s q { v with armed := false })
  else setQue s q v

/-- One word pushed into queue q by an entitled producer, and the trouble bits this sets (R45, R52, R508). -/
def pushWord (q : Nat) (w : QWord) (s : State) : State × List TrbBit :=
  let v := que s q
  if v.discard then (setQue s q { v with discard := !w.last }, [])
  else if !v.enable then (setQue s q { countDrop (dropOpen v) with discard := !w.last }, [])
  else if overCap s q 1 then
    (setQue s q (overflowAt (now s) { countDrop (dropOpen v) with discard := !w.last }), [.queueOverflow])
  else if overPool s q 1 then
    (setQue s q (overflowAt (now s) { countDrop (dropOpen v) with discard := !w.last }), [.queueOverflow, .spillExhausted])
  else (settle q (appendWords (now s) [w] v) s, [])

/-- A packet's words as queue words, the last one with its valid bytes. -/
def queueWords (l : List Byte) : List QWord :=
  let n := max 1 ((l.length + 7) / 8)
  (List.range n).map (fun i =>
    { data := BitVec.ofNat 64 (leNat ((l.drop (8 * i)).take 8)), last := decide (i + 1 = n),
      bytes := if i + 1 = n then l.length - 8 * i else 8 })

/-- A whole packet pushed into queue q by the device, and the trouble bits this sets (R45). -/
def pushWords (q : Nat) (ws : List QWord) (s : State) : State × List TrbBit :=
  let v := que s q
  if !v.enable then (setQue s q (countDrop v), [])
  else if overCap s q ws.length then (setQue s q (overflowAt (now s) (countDrop v)), [.queueOverflow])
  else if overPool s q ws.length then (setQue s q (overflowAt (now s) (countDrop v)), [.queueOverflow, .spillExhausted])
  else (settle q (appendWords (now s) ws v) s, [])

/-! ### Trouble bits, log and events (R64-R67) -/

/-- Register TRBn. -/
def trbWord (s : State) (n : Nat) : Word := tabGet s.trb.regs n 0#32

/-- Register TRB_MASKn (R64). -/
def trbMask (s : State) (n : Nat) : Word := tabGet s.trb.masks n 0xFFFFFFFF#32

/-- The trouble bit is set. -/
def trouble (s : State) (b : TrbBit) : Bool := bit (trbWord s (trbReg b)) (trbPos b)

/-- TRB_SUMMARY bit n (R64). -/
def summaryBit (s : State) (n : Nat) : Bool := trbWord s n &&& trbMask s n != 0#32

/-- TRB_SUMMARY (R64). -/
def trbSummary (s : State) : Word := maskOf 32 ((List.range 8).filter (summaryBit s))

/-- ALERT_N is driven low (R64). -/
def alert (s : State) : Bool := (List.range 8).any (summaryBit s)

/-- The trouble log holds at most 1,048,576 entries (R22, R66). -/
def logSize : Nat := 1048576

/-- A log entry for a bit that has just changed to 1 (R66). -/
def appendLog (b : TrbBit) (s : State) : State :=
  let full := decide (logSize ≤ s.trb.log.length)
  let kept := if full then s.trb.log.drop 1 else s.trb.log
  { s with trb := { s.trb with
      log := kept ++ [{ seq := s.trb.logNext, bit := b, absorbed := 0, time := now s }]
      logNext := s.trb.logNext + 1
      logPos := (s.trb.logPos + 1) % logSize } }

/-- A bit that hardware sets now, remembered against a write of 1 at this same instant (R8). -/
def noteTrouble (b : TrbBit) (s : State) : State :=
  { s with trb := { s.trb with setAt := now s, setNow := b :: (if s.trb.setAt = now s then s.trb.setNow else []) } }

/-- A further set of a bit that is set already, counted in its latest entry (R66). -/
def absorb (b : TrbBit) (s : State) : State :=
  let rec go : List LogEntry → List LogEntry
    | [] => []
    | e :: r => if e.bit = b then { e with absorbed := saturate 16 (e.absorbed + 1) } :: r else e :: go r
  { s with trb := { s.trb with log := (go s.trb.log.reverse).reverse } }

/-- The bit set in its register. -/
def markTrouble (b : TrbBit) (s : State) : State :=
  { s with trb := { s.trb with regs := tabSet s.trb.regs (trbReg b) (setBit (trbWord s (trbReg b)) (trbPos b) true) } }

/-- The bytes of an event: code and source, detail, time (the records of Q32 and Q33). -/
def eventBytes (s : State) (code source : Nat) (detail : Word) : List Byte :=
  wordBytes (pair16 code source) ++ wordBytes detail ++ leBytes 8 (now s).toNat

/-- A trouble bit's set: absorbed while the bit stays set; otherwise logged and, unmasked, raised as MSI-X vector 0
and posted as event 0x0001, whose own drop is trouble in turn (R64, R66); depth bounds that chain, since each level
sets one of two bits. -/
def raiseAt : Nat → TrbBit → State → State
  | 0, _, s => s
  | d + 1, b, s =>
    if trouble s b then noteTrouble b (absorb b s)
    else
      let s1 := appendLog b (markTrouble b (noteTrouble b s))
      if bit (trbMask s (trbReg b)) (trbPos b) then
        let p := pushWords 32 (queueWords (eventBytes s1 0x0001 (trbReg b) (w32 (trbPos b)))) (msi 0 s1)
        p.2.foldl (fun t c => raiseAt d c t) p.1
      else s1

/-- A trouble bit's set (R64, R66). -/
def raise (b : TrbBit) (s : State) : State := raiseAt 4 b s

/-- Several trouble bits set, in order. -/
def raiseAll (l : List TrbBit) (s : State) : State := l.foldl (fun t b => raise b t) s

/-- A packet of bytes pushed by the device (R45). -/
def pushBytes (q : Nat) (l : List Byte) (s : State) : State :=
  let p := pushWords q (queueWords l) s
  raiseAll p.2 p.1

/-- A packet of 32-bit words pushed by the device. -/
def pushPacket (q : Nat) (ws : List Word) (s : State) : State := pushBytes q (ws.flatMap wordBytes) s

/-- An event posted to a queue. -/
def postEventTo (q code source : Nat) (detail : Word) (s : State) : State :=
  pushBytes q (eventBytes s code source detail) s

/-- An event posted to Q32. -/
def postEvent (code source : Nat) (detail : Word) (s : State) : State := postEventTo 32 code source detail s

/-- Words of a packet discarded while its producer still pushes: the packet counts as a drop and its further words are
discarded (R508). -/
def cutOpen (q : Queue) : Queue := if openTail q then { countDrop q with discard := true } else q

/-- The words pushed at instant t, which R51 orders behind every other event of that instant. -/
def newWords (t : BitVec 64) (v : Queue) : List QWord :=
  if v.pushAt = t then v.words.drop (v.words.length - v.pushed) else []

/-- The queue as it stood before the pushes of instant t. -/
def beforePush (t : BitVec 64) (v : Queue) : Queue :=
  { v with words := v.words.take (v.words.length - (newWords t v).length), pushed := 0, discard := false }

/-- Words of one instant pushed again, those discarded that belong to a packet already cut (R51, R508). -/
def pushAgain (t : BitVec 64) (v : Queue) : List QWord → Queue
  | [] => v
  | w :: r => pushAgain t (if v.discard then { v with discard := !w.last } else appendWords t [w] v) r

/-- A reset or DROP_REST applied ahead of the pushes of its own instant (R51). -/
def aheadOfPushes (t : BitVec 64) (f : Queue → Queue) (v : Queue) : Queue :=
  let r := pushAgain t (f (beforePush t v)) (newWords t v)
  { r with discard := r.discard || v.discard }

/-- The contents of a queue discarded; its configuration and its pending flags stay (R49, R50). -/
def emptied (v : Queue) : Queue :=
  { cutOpen v with words := [], begun := false, popped := 0, lastPop := 0#64 }

/-- A queue reset at instant t: what is pushed at that instant comes after it (R49-R51). -/
def emptyQueue (t : BitVec 64) (v : Queue) : Queue := aheadOfPushes t emptied v

/-- QUEUE_RESET or a host reset of queue q, with its event (R50). -/
def resetQueue (q : Nat) (s : State) : State := postEvent 0x0002 q 1#32 (setQue s q (emptyQueue (now s) (que s q)))

/-- The packet begun removed, else the packet at the head; nothing when no packet is present (R48). -/
def dropHead (v : Queue) : Queue :=
  if v.words.isEmpty && !v.begun then v
  else
    let headOpen := !v.words.any (fun w => w.last)
    let v' := if headOpen then cutOpen v else v
    { v' with words := behindHead v.words, begun := false, popped := 0 }

/-- DROP_REST at instant t (R48): what is pushed at that instant comes after it (R51). -/
def dropRest (t : BitVec 64) (v : Queue) : Queue := aheadOfPushes t dropHead v

/-- CTRL as it reads (R52): the actions read as zero. -/
def ctrlWord (v : Queue) : Word :=
  w32 (v.consumer.toNat + 4 * v.dmaEngine.toNat + 64 * v.vector.toNat + 32768 * flag v.enable)

/-- A change of CONSUMER or DMA_ENGINE that R53 refuses for queue q. -/
def bindingRefused (q : Nat) (v : Queue) (consumer : BitVec 2) (engine : BitVec 4) : Bool :=
  (consumer != v.consumer || engine != v.dmaEngine) &&
    (!v.words.isEmpty || (q < 16 && consumer != v.consumer))
  || (consumer == 0b11#2) || (16 ≤ q && q < 32 && 1 < consumer.toNat)

/-- CONSUMER and DMA_ENGINE written at instant t (R53). -/
def bindQueue (t : BitVec 64) (q : Nat) (consumer : BitVec 2) (engine : BitVec 4) (v : Queue) : Queue :=
  if bindingRefused q v consumer engine then noteStatus t 16#5 { v with cfgRefused := true }
  else { v with consumer := consumer, dmaEngine := engine }

/-- ARM written as 1: raised at once when a word is already visible (R55). -/
def armQueue (q : Nat) (s : State) : State :=
  let v := que s q
  if visible v && v.vector != 0#6 then msi v.vector.toNat (setQue s q { v with armed := false })
  else setQue s q { v with armed := true }

/-- A write of CTRL of queue q, its parts in the order of R510; the event of a reset is a push, which R51 puts last. -/
def ctrlWrite (q : Nat) (w : Word) (s : State) : State :=
  let s1 := if bit w 14 then setQue s q (emptyQueue (now s) (que s q)) else s
  let s2 := if bit w 13 then setQue s1 q (dropRest (now s) (que s1 q)) else s1
  let s3 := setQue s2 q (bindQueue (now s) q (w.setWidth 2) ((w >>> 2).setWidth 4) (que s2 q))
  let s4 := setQue s3 q { que s3 q with vector := (w >>> 6).setWidth 6, enable := bit w 15 }
  let s5 := if bit w 12 then armQueue q s4 else s4
  if bit w 14 then postEvent 0x0002 q 1#32 s5 else s5

/-- One visible word taken from queue q by its consumer. -/
def popWord (v : Queue) : Queue :=
  match v.words with
  | [] => v
  | w :: r =>
    { v with words := r, begun := !w.last, popped := if w.last then 0 else v.popped + 1, lastPop := w.data }

/-- The head packet of queue q removed whole. -/
def takePacket (v : Queue) : Queue := { v with words := behindHead v.words, begun := false, popped := 0 }

/-- The bytes of the head packet, when it is complete and its consumer has not begun it. -/
def headPacket (v : Queue) : Option (List Byte) :=
  if v.words.any (fun w => w.last) && !v.begun then
    some ((headWords v.words).flatMap (fun w => (leBytes 8 w.data.toNat).take w.bytes))
  else none

/-- An item of class k (1 records, 2 replies, 3 packets, 4 ledger charges) that the slot digest of a tandem covers
(R403); outside a tandem there is no digest. -/
def cover (k : Nat) (ws : List Word) (s : State) : State :=
  if s.tan.joined then { s with tan := { s.tan with items := s.tan.items ++ [(k, ws)] } } else s

/-! ### Herd messages, home map -/

/-- Herd message m originated (R329), unless the device is leaving the herd or stands outside it (R394). -/
def sendHerd (m : HerdMsg) (s : State) : State := { s with out := { s.out with herd := s.out.herd ++ [m] } }

/-- The device's herd ID in force. -/
def ownHid (s : State) : Nat := s.dev.hid.toNat

/-- EPOCH of the flits that this device originates: the tandem's in a tandem (R337, R397). -/
def herdEpoch (s : State) : Word := if s.tan.joined then s.tan.epoch else s.dev.bootEpoch

/-! ### Soundness and semaphores (R60-R63, R68) -/

/-- Health of subsystem n. -/
def soundness (s : State) (n : Nat) : Soundness := tabGet s.dev.soundness n {}

/-- Subsystems by state (R68). -/
def soundCount (s : State) (st : Nat) : Nat := ((List.range 20).filter (fun i => (soundness s (i + 1)).state = st)).length

/-- Semaphore n. -/
def sem (s : State) (n : Nat) : Sem := tabGet s.sem n {}

/-- The state with semaphore n replaced. -/
def setSem (s : State) (n : Nat) (v : Sem) : State := { s with sem := tabSet s.sem n v }

/-- Semaphore n released and marked because its holder reset (R63). -/
def abandonSem (n : Nat) (s : State) : State :=
  match (sem s n).holder with
  | some a => postEvent 0x0003 n (a.setWidth 32) (raise .semAbandoned (setSem s n { holder := none, abandoned := true }))
  | none => s

/-- Every semaphore an agent holds abandoned (R63). -/
def abandonAll (a : BitVec 8) (s : State) : State :=
  ((List.range 64).filter (fun n => (sem s n).holder = some a)).foldl (fun t n => abandonSem n t) s

end Sys2Proof.Machine
end

