-- ==== Sys2Proof/Machine/Command.lean ====
section
/-! DEFINITION. How Bridle takes a command: acceptance, the checks in the order of R38, forwarding over the herd,
execution, and the reply (R25-R38, R511, R512). -/

namespace Sys2Proof.Machine

/-- What executing a command gives: status and result words of its reply, the new state, and whether the command
stays in flight and is answered later. -/
structure Answer where
  state : State
  status : Status := .ok
  results : List Word := []
  later : Bool := false
  /-- its reply follows every reply that is held (R41) -/
  final : Bool := false

/-- One row of a command table: opcode, the number of parameter words (none for a count word outside its own range,
R511), parameter ranges and reserved fields (R6), the not-permitted checks in reason order, the state the command
needs, and its effect. -/
structure CmdSpec where
  op : Nat
  /-- the opcode is defined (R39) -/
  known : Bool := true
  len : Packet → Option Nat
  /-- the word that the count of a list stands in (R511) -/
  countAt : Option Nat := none
  /-- the ranges and reserved fields that the packet itself shows, which an entry device judges too (R512) -/
  valid : Packet → Bool
  /-- the ranges that the executing device's own tables give -/
  here : Packet → State → Bool := fun _ _ => true
  perm : Packet → State → Option Status
  ready : Packet → State → Bool
  run : Packet → State → Answer

/-- A command done as asked, without result words. -/
def done (s : State) : Answer := { state := s }

/-- A command done as asked, with result words. -/
def doneWith (r : List Word) (s : State) : Answer := { state := s, results := r }

/-- A command that ends with a status and no effect. -/
def ends (st : Status) (s : State) : Answer := { state := s, status := st }

/-- A command that runs on. -/
def runsOn (s : State) : Answer := { state := s, later := true }

/-! ### Forwarding -/

/-- The routing entry of a destination (R333). -/
def route (s : State) (dst : Nat) : Route := tabGet s.cfg.herd.routes dst {}

/-- Herd link l as it runs. -/
def hlink (s : State) (l : Nat) : HLink := tabGet s.herd.links l {}

/-- The state with herd link l replaced. -/
def setHlink (s : State) (l : Nat) (v : HLink) : State :=
  { s with herd := { s.herd with links := tabSet s.herd.links l v } }

/-- The link on which a message for a destination leaves: the primary while it is up, else the alternate (R333). -/
def routeLink (s : State) (dst : Nat) : Option Nat :=
  let r := route s dst
  if r.primaryV && (hlink s r.primary).up then some r.primary
  else if r.alternateV && (hlink s r.alternate).up then some r.alternate
  else none

/-- A destination is reachable while one of its entry's valid links is up (R333). -/
def reachable (s : State) (dst : Nat) : Bool := (routeLink s dst).isSome

/-- The configured members: the device's own herd ID until HERD_MEMBERS_SET gives a mask (R387). -/
def members (s : State) : BitVec 64 := s.cfg.herd.members.getD (BitVec.ofNat 64 (2 ^ ownHid s))

/-- This member of a tandem does not hold the reins (R401). -/
def nonHolder (s : State) : Bool := s.tan.joined && !s.tan.reins

/-- A message originated, unless the device executes without the reins (R401) or has left the herd, which still
sends replies and membership messages (R394). -/
def originate (m : HerdMsg) (s : State) : State :=
  let kept := match m with
    | .reply _ _ => true
    | .membership _ _ => true
    | _ => !s.herd.leaveMsgs
  if kept && !nonHolder s then sendHerd m s else s

/-- An external input that the reins holder mirrors to its partner over the tandem link, under its (ASN, sequence) stamp (R16,
R400). -/
def mirrorOut (x : Mirrored) (s : State) : State :=
  if s.tan.joined && s.tan.reins then
    sendHerd (.mirror s.sched.asn s.tan.mirrorSeq x) { s with tan := { s.tan with mirrorSeq := s.tan.mirrorSeq + 1 } }
  else s

/-- A herd message that the reins holder mirrors (R400). -/
def mirrorHerd (m : HerdIn) (s : State) : State := mirrorOut (.herd m) s

/-! ### Checks -/

/-- 1,024 commands are in flight (R27). -/
def capacityFull (s : State) : Bool := 1024 ≤ s.cmd.inFlight.length

/-- A command in flight has this tag (R28). -/
def tagInFlight (s : State) (t : BitVec 16) : Bool := s.cmd.inFlight.any (fun e => e.tag = t)

/-- Commands that run while a mode transition runs (R449). -/
def runsInTransition (op : Nat) : Bool :=
  op < 0x100 || op = 0x0D00 || op = 0x0D01 || op = 0x0D02 || op = 0x0D03 || op = 0x0101 || op = 0x0105

/-- Host commands that the member without the reins executes (R401, R439), and TANDEM_RESYNC, which R418 gives to it alone
(DEDUCED, log 58). -/
def runsWithoutReins (op : Nat) : Bool :=
  op = 0x0001 || op = 0x0003 || op = 0x0D00 || op = 0x0D02 || (0x0A00 ≤ op && op ≤ 0x0AFF)
    || op = 0x0B02 || op = 0x0B12 || op = 0x0B20 || op = 0x0B14

/-- Commands that run in this state of the device: all but in REMOUNT (R483) and without DRAM (R462). -/
def opcodeRuns (s : State) (op : Nat) : Bool :=
  if s.dev.mode = .remount then op < 0x100 || op = 0x0C00 || op = 0x0C01 || op = 0x0C02
  else s.dev.dramOk || op < 0x100 || (0x0C00 ≤ op && op < 0x0E00) || op = 0x0105

/-- The activation pause: from acceptance of FW_ACTIVATE until its new firmware serves commands (R480). -/
def activationPause (s : State) : Bool := s.fw.act.isSome && !s.fw.actRan

/-- The packet's length contradicts PLEN, or passes 4 KiB (R26). -/
def lengthBad (c : Packet) : Bool := packetBytes c != 8 + 4 * plen c || 4096 < packetBytes c

/-- The packet ends before the word that holds its count: a length mismatch, since missing words are never taken as zero
(R511). -/
def countMissing (spec : CmdSpec) (c : Packet) : Bool :=
  match spec.countAt with
  | some i => plen c ≤ i
  | none => false

/-- Checks 2 to 6 of R38 as the entry device makes them for every command (R512). -/
def entryCheck (spec : CmdSpec) (c : Packet) (s : State) : Option Status :=
  if activationPause s then some .retryActivationPause
  else if s.pwr.trans.isSome && !runsInTransition spec.op then some .retryModeTransition
  else if lengthBad c then some .invalidLength
  else if !spec.known then some .invalidOpcode
  else if countMissing spec c then some .invalidLength
  else match spec.len c with
    | none => some .invalidParameter
    | some n =>
      if plen c != n then some .invalidLength
      else if headerReserved c != 0 || !spec.valid c then some .invalidParameter
      else none

/-- The reins check of a command from the host's own queue (R401). -/
def reinsCheck (src : CmdSource) (spec : CmdSpec) (s : State) : Option Status :=
  if src = .host && nonHolder s && !runsWithoutReins spec.op then some .notPermittedNoReins else none

/-- The rest of R38: the ranges that the executing device's tables give, then checks 7 and 8 with the result words of R28. -/
def lastCheck (src : CmdSource) (spec : CmdSpec) (c : Packet) (s : State) : Option (Status × List Word) :=
  match (if spec.here c s then none else some .invalidParameter).or ((reinsCheck src spec s).or (spec.perm c s)) with
  | some st => some (st, [])
  | none =>
    if tagInFlight s c.tag then some (.invalidState, [1#32])
    else if !opcodeRuns s spec.op || !spec.ready c s then some (.invalidState, [])
    else none

/-! ### Replies -/

/-- The words of a reply (R34). -/
def replyWords (s : State) (tag : BitVec 16) (st : Status) (r : List Word) : List Word :=
  [pair16 (statusCode st).toNat tag.toNat, w32 (67108864 * ownHid s + r.length)] ++ r

/-- The place of the command that is being taken or started (R29). -/
def takenSeq (s : State) : Nat := if s.cmd.starting = 0 then s.cmd.seqNext else s.cmd.starting

/-- The next command taken comes after all before it (R29). -/
def nextSeq (s : State) : State := { s with cmd := { s.cmd with seqNext := s.cmd.seqNext + 1 } }

/-- A command in flight (R27), kept to 1,024. -/
def addInFlight (e : InFlight) (s : State) : State :=
  if capacityFull s then s
  else nextSeq { s with cmd := { s.cmd with inFlight := s.cmd.inFlight ++ [{ e with seq := takenSeq s }] } }

/-- The command leaves flight; one whose reply is held stays until that reply fits (R35). -/
def dropInFlight (q : Nat) (tag : BitVec 16) (s : State) : State :=
  { s with cmd := { s.cmd with inFlight := s.cmd.inFlight.filter (fun e => !(e.queue = q && e.tag = tag && e.phase != .held)) } }

/-- A command with this tag completes now (R42). -/
def noteDone (tag : BitVec 16) (s : State) : State :=
  let l := if s.cmd.doneAt = now s then s.cmd.doneNow else []
  { s with cmd := { s.cmd with doneAt := now s, doneNow := l ++ [tag] } }

/-- A command with this tag completed at this instant (R42). -/
def doneNow (s : State) (tag : BitVec 16) : Bool := s.cmd.doneAt = now s && s.cmd.doneNow.contains tag

/-- A reply kept for its queue, its command in flight until it is posted (R35, R41). -/
def holdReply (e : InFlight) (final : Bool) (ws : List Word) (s : State) : State :=
  let s1 := addInFlight { e with phase := .held } s
  { s1 with cmd := { s1.cmd with held := s1.cmd.held ++
      [{ queue := e.queue + 16, tag := e.tag, words := ws, final := final, origin := e.origin }] } }

/-- No reply is posted: NO_REPLY with ST_OK (R30), a host reset since (R347), or a mirrored command on a member without the
reins (R401). -/
def postsNone (e : InFlight) (st : Status) (s : State) : Bool :=
  (e.noReply && st = .ok) || e.replyDrop || (e.mirrored && nonHolder s)

/-- The reply of a command that has left flight: none with NO_REPLY and ST_OK (R30), none from a member without the
reins to a mirrored command (R401), over the herd to an entry device (R31), else to the paired queue, held with the
command in flight while that queue is at its cap (R35); at the pool limit the push drops it (R45). -/
def sendReply (e : InFlight) (st : Status) (r : List Word) (s0 : State) : State :=
  let s := cover 2 [pair16 (statusCode st).toNat e.tag.toNat] (noteDone e.tag s0)
  if postsNone e st s then s
  else
    let ws := replyWords s e.tag st r
    match e.origin with
    | some h => originate (.reply h ws) s
    | none =>
      if !overCap s (e.queue + 16) ((ws.length + 1) / 2) then pushPacket (e.queue + 16) ws s else holdReply e false ws s

/-- A running command completes with a status and result words; a member that no longer holds the reins posts no reply to it
(R401, R402). -/
def complete (q : Nat) (tag : BitVec 16) (st : Status) (r : List Word) (s : State) : State :=
  match s.cmd.inFlight.find? (fun e => e.queue = q && e.tag = tag && e.phase != .held) with
  | some e => sendReply { e with replyDrop := e.replyDrop || (nonHolder s && !runsWithoutReins e.opcode) } st r (dropInFlight q tag s)
  | none => s

/-- Several running commands complete with one status. -/
def completeAll (l : List (Nat × BitVec 16)) (st : Status) (s : State) : State :=
  l.foldl (fun t e => complete e.1 e.2 st [] t) s

/-- The in-flight entry of a command. -/
def entryOf (src : CmdSource) (op : Nat) (c : Packet) : InFlight :=
  { queue := c.queue.val, tag := c.tag, opcode := op, noReply := noReply c,
    origin := match src with
      | .peer h => some h
      | _ => none
    mirrored := decide (src = .mirror) }

/-! ### Acceptance and execution -/

/-- The bytes of a command packet that its fields fix (R25). -/
def headerBytes (op : Nat) (c : Packet) : List Byte :=
  wordBytes (pair16 op c.tag.toNat) ++ wordBytes c.word1 ++ c.params.flatMap wordBytes

/-- The packet leaves the head of its queue, where the host's pushes have put it (log 3). -/
def offHead (op : Nat) (c : Packet) (s : State) : State :=
  let v := que s c.queue.val
  match headPacket v with
  | some b =>
    if b.length = packetBytes c && b.take (headerBytes op c).length = headerBytes op c then
      setQue s c.queue.val (takePacket v)
    else s
  | none => s

/-- Bridle takes the packet from its queue, and the reins holder mirrors it (R400). -/
def takeHead (op : Nat) (c : Packet) (s : State) : State := mirrorOut (.command (BitVec.ofNat 16 op) c) (offHead op c s)

/-- Commands of this queue are served now: CMD_READY is set, commands that arrive in the activation pause are answered
(R480), or the ROM serves Q0 in REMOUNT (R347, R483). -/
def served (s : State) (c : Packet) : Bool :=
  s.dev.cmdReady || s.dev.actPause || (s.dev.mode = .remount && c.queue = 0)

/-- A command that reached this device over the herd has its target here already (R31). -/
def fromPeer : CmdSource → Bool
  | .peer _ => true
  | _ => false

/-- A command taken from a queue before place n has not completed (R29); one whose reply is held has. -/
def earlierThan (s : State) (q n : Nat) : Bool :=
  s.cmd.inFlight.any (fun e => e.queue = q && e.origin.isNone && e.phase != .held && e.seq < n)
    || s.cmd.forwarded.any (fun f => f.queue = q && f.seq < n)
    || s.cmd.waiting.any (fun w => w.packet.queue.val = q && !fromPeer w.src && w.seq < n)

/-- A command taken earlier from this queue has not completed (R29). -/
def earlierRuns (s : State) (c : Packet) : Bool := earlierThan s c.queue.val (takenSeq s)

/-- The command is kept until it can start. -/
def holdCommand (src : CmdSource) (op : Nat) (c : Packet) (accepted : Bool) (s : State) : State :=
  { s with cmd := { s.cmd with waiting := s.cmd.waiting ++
      [{ src := src, op := op, packet := c, accepted := accepted, seq := takenSeq s }] } }

/-- A reply that follows those held: at once when there are none (R41). -/
def lastReply (e : InFlight) (st : Status) (r : List Word) (s : State) : State :=
  if s.cmd.held.isEmpty || postsNone e st s then sendReply e st r s
  else holdReply e true (replyWords s e.tag st r) (cover 2 [pair16 (statusCode st).toNat e.tag.toNat] (noteDone e.tag s))

/-- The command executes and is answered, at once or later. -/
def execute (src : CmdSource) (spec : CmdSpec) (c : Packet) (s : State) : State :=
  let a := spec.run c s
  let e := entryOf src spec.op c
  if a.later then addInFlight e a.state
  else if a.final then lastReply e a.status a.results a.state
  else sendReply e a.status a.results a.state

/-- A command refused or found invalid: its reply and no other effect (R37). -/
def answer (src : CmdSource) (spec : CmdSpec) (c : Packet) (st : Status) (r : List Word) (s : State) : State :=
  sendReply (entryOf src spec.op c) st r s

/-- Checks 7 and 8 and execution. -/
def judgeLast (src : CmdSource) (spec : CmdSpec) (c : Packet) (s : State) : State :=
  match lastCheck src spec c s with
  | some (st, r) => answer src spec c st r s
  | none => execute src spec c s

/-- A command on the device that executes it, judged in the order of R38. -/
def judgeOwn (src : CmdSource) (spec : CmdSpec) (c : Packet) (s : State) : State :=
  if capacityFull s then answer src spec c .refusedCapacity [] s
  else match entryCheck spec c s with
    | some st => answer src spec c st [] s
    | none => judgeLast src spec c s

/-- The command sent to a peer and remembered until its reply comes (R31). On a device that has run HERD_LEAVE it is
remembered too and not sent, since such a device originates no messages (DESIGN CHOICE, log 100). -/
def forwardTo (dst : Nat) (spec : CmdSpec) (c : Packet) (s : State) : State :=
  let s1 := originate (.command dst spec.op c) s
  nextSeq { s1 with cmd := { s1.cmd with forwarded := s1.cmd.forwarded ++
      [{ peer := dst, queue := c.queue.val, tag := c.tag, noReply := noReply c, seq := takenSeq s1 }] } }

/-- A command for another member, judged by the entry device in the order of R512. -/
def judgeForward (src : CmdSource) (spec : CmdSpec) (c : Packet) (s : State) : State :=
  match (entryCheck spec c s).or (reinsCheck src spec s) with
  | some st => answer src spec c st [] s
  | none =>
    if reachable s (target c) then forwardTo (target c) spec c s
    else answer src spec c .refusedNoRoute [] s

/-- The members a broadcast goes to besides the entry device: those reachable now (R32). -/
def broadcastTo (s : State) : List Nat :=
  (maskList (members s)).filter (fun h => h != ownHid s && reachable s h)

/-- A broadcast command: the first checks once, then each reachable member judges the rest for itself (R32, R512). -/
def judgeBroadcast (src : CmdSource) (spec : CmdSpec) (c : Packet) (s : State) : State :=
  match (entryCheck spec c s).or (reinsCheck src spec s) with
  | some st => answer src spec c st [] s
  | none =>
    let s1 := (broadcastTo s).foldl (fun t h => forwardTo h spec c t) s
    if capacityFull s1 then answer src spec c .refusedCapacity [] s1 else judgeLast src spec c s1

/-- A command that may start: forwarded, broadcast or executed here. -/
def dispatchCommand (src : CmdSource) (spec : CmdSpec) (c : Packet) (s : State) : State :=
  if !fromPeer src && broadcast c then judgeBroadcast src spec c s
  else if !fromPeer src && target c != ownHid s then judgeForward src spec c s
  else judgeOwn src spec c s

/-- The command executes on this device, besides any other it may go to. -/
def executesHere (c : Packet) (s : State) : Bool := broadcast c || target c = ownHid s

/-- ORDERED keeps this command waiting: an earlier one of its queue has not completed (R29), and no check of R38 that
could be made now ends it at once. The count and the tags in flight play a part only where the command executes here (R27, R28,
R512). -/
def mustWait (spec : CmdSpec) (c : Packet) (s : State) : Bool :=
  ordered c && earlierRuns s c && (entryCheck spec c s).isNone
    && !(executesHere c s && (capacityFull s || tagInFlight s c.tag))

/-- The command kept waiting: in flight where it executes here (R27). -/
def keepWaiting (src : CmdSource) (spec : CmdSpec) (c : Packet) (s : State) : State :=
  let s1 := holdCommand src spec.op c true s
  if executesHere c s then addInFlight { entryOf src spec.op c with phase := .waiting } s1 else nextSeq s1

/-- A command that Bridle takes: kept while ORDERED says so (R29), else judged and executed. -/
def takeCommand (src : CmdSource) (spec : CmdSpec) (c : Packet) (s : State) : State :=
  if !fromPeer src && mustWait spec c s then keepWaiting src spec c s
  else dispatchCommand src spec c s

/-- A command as Bridle meets it: held before CMD_READY (R347), else taken. -/
def startCommand (src : CmdSource) (spec : CmdSpec) (c : Packet) (s : State) : State :=
  if !served s c then nextSeq (holdCommand src spec.op c false s)
  else takeCommand src spec c (if src = .host then takeHead spec.op c s else s)

/-- A host command: always a next state. -/
def runCommand (spec : CmdSpec) (c : Packet) (s : State) : Host.Outcome State Fault Refusal := .next (startCommand .host spec c s)

/-- The shape most commands have: a fixed number of parameter words, nothing that forbids the command, every state. -/
def plainSpec (op n : Nat) (valid : Packet → Bool) (run : Packet → State → Answer) : CmdSpec :=
  { op := op, len := fun _ => some n, valid := valid, perm := fun _ _ => none, ready := fun _ _ => true, run := run }

/-! ### Waiting commands -/

/-- A waiting command may start now: one with ORDERED needs every command taken earlier from its queue to have completed
(R29), one held before CMD_READY needs its queue to be served. -/
def mayStart (s : State) (w : WaitingCmd) : Bool :=
  served s w.packet && !(ordered w.packet && earlierThan s w.packet.queue.val w.seq)

/-- The waiting commands that may start, in the order in which they came. -/
def startable (s : State) : List WaitingCmd := s.cmd.waiting.filter (mayStart s)

/-- Of the waiting commands that may start, the one R16 puts first: the higher priority class, then the earlier. -/
def nextWaiting (s : State) : Option WaitingCmd :=
  firstBy (fun a b => priority b.packet < priority a.packet) (startable s)

/-- The in-flight list without the waiting entry of a command. -/
def withoutWaiting (w : WaitingCmd) (l : List InFlight) : List InFlight :=
  l.filter (fun e => !(e.seq = w.seq && e.phase = .waiting))

/-- The state in which waiting command w starts: it no longer waits, it is not in flight before it is judged, and it keeps its
place (R29). -/
def takeWaiting (w : WaitingCmd) (s : State) : State :=
  { s with cmd := { s.cmd with
      waiting := s.cmd.waiting.erase w, starting := w.seq
      inFlight := if w.accepted then withoutWaiting w s.cmd.inFlight else s.cmd.inFlight } }

/-- The state once the waiting command has been started. -/
def endStart (s : State) : State := { s with cmd := { s.cmd with starting := 0 } }

end Sys2Proof.Machine
end

