-- ==== Sys2Proof/Machine/Crc.lean ====
section
/-! DEFINITION. The cyclic redundancy checks of the spec: HCRC (R82), CRC-16 (R87), CRC-32C, and the CRC-32 of IEEE 802.3 frames
(R319). -/

namespace Sys2Proof.Machine

/-- One step of a most-significant-first CRC over a bit: register of n bits, polynomial p. -/
def crcStep (n p r : Nat) (b : Bool) : Nat :=
  let top := (r >>> (n - 1)) % 2
  let r' := (2 * r) % 2 ^ n
  if (top = 1) != b then r' ^^^ p else r'

/-- The bits of a byte, most significant first. -/
def msbBits (b : Byte) : List Bool := (List.range 8).map (fun i => b.getLsbD (7 - i))

/-- A CRC of n bits, most significant bit first, over bytes. -/
def crcMsb (n p init : Nat) (l : List Byte) : Nat := (l.flatMap msbBits).foldl (crcStep n p) init

/-- HCRC over H[15:0] (R82). -/
def headerCrc (h : BitVec 16) : Byte := BitVec.ofNat 8 (crcMsb 8 0x07 0x00 (leBytes 2 h.toNat))

/-- CRC-16 of the payload (R87). -/
def crc16 (l : List Byte) : Nat := crcMsb 16 0x1021 0xFFFF l

/-- One step of the reflected CRC-32C over a bit of a byte. -/
def crc32cStep (r : Nat) : Nat := if r % 2 = 1 then (r / 2) ^^^ 0x82F63B78 else r / 2

/-- CRC-32C (Castagnoli) of bytes. -/
def crc32c (l : List Byte) : Word :=
  w32 (l.foldl (fun r b => (List.range 8).foldl (fun x _ => crc32cStep x) (r ^^^ b.toNat)) 0xFFFFFFFF ^^^ 0xFFFFFFFF)

/-- One step of the reflected CRC-32 of IEEE 802.3 over a bit of a byte. -/
def crc32Step (r : Nat) : Nat := if r % 2 = 1 then (r / 2) ^^^ 0xEDB88320 else r / 2

/-- CRC-32 of IEEE 802.3, the Ethernet FCS, of bytes; its first byte on the line is [7:0] (R319, R328). -/
def crc32 (l : List Byte) : Word :=
  w32 (l.foldl (fun r b => (List.range 8).foldl (fun x _ => crc32Step x) (r ^^^ b.toNat)) 0xFFFFFFFF ^^^ 0xFFFFFFFF)

end Sys2Proof.Machine
end

