-- ==== Sys2Proof/Machine/Health.lean ====
section
/-! DEFINITION. Authority and health: who is present in the herd and who has full authority (R387-R389), the release of
the reins (R405-R409), SOUND and the soundness self-test (R68, R69, R408). -/

namespace Sys2Proof.Machine

/-! ### Presence and authority -/

/-- What the device has learnt of a member: it is the neighbour on a link that is up, or a neighbour's latest membership
message lists it (R387). -/
def heardMember (s : State) (h : Nat) : Bool :=
  (List.range 4).any (fun l => (hlink s l).up && ((hlink s l).neighbour = some h || bit (tabGet s.herd.told l 0#64) h))

/-- A member is present while it is reachable by what the device has learnt; the device itself always is (R387). -/
def present (s : State) (h : Nat) : Bool := h = ownHid s || (reachable s h && heardMember s h)

/-- The configured members found present (R387). -/
def presentMask (s : State) : BitVec 64 := maskOf 64 ((maskList (members s)).filter (present s))

/-- Full authority (R389): more than half of the members present, or half of them with the lowest. -/
def fullAuthority (s : State) : Bool :=
  let n := maskCount (members s)
  let m := maskCount (presentMask s)
  n < 2 * m || (2 * m = n && match (maskList (members s)).head? with
    | some l => present s l
    | none => false)

/-- What a device in the minority answers to a network-wide action (R390). -/
def minorityCheck (s : State) : Option Status := if s.herd.minority then some .notPermittedMinority else none

/-- What a device answers to a change of its tack sets while they are locked (R479). -/
def lockCheck (s : State) : Option Status := if s.fw.locked then some .notPermittedTackLocked else none

/-! ### Reins frames and release -/

/-- TYPE of a reins frame (R405). -/
def reinsCode : ReinsType → Nat
  | .renewal => 1
  | .ack => 2
  | .release => 3
  | .revert => 4
  | .grant => 5
  | .marker => 6

/-- The CRC-16 of a frame over its bytes 0-5, little-endian (R87, R405). -/
def reinsCrc (v : BitVec 64) : Nat := crc16 (leBytes 6 v.toNat)

/-- The low 48 bits of a frame with its CRC (R405). -/
def sealReins (typ : ReinsType) (seq : Nat) (instant : BitVec 40) : ReinsFrame :=
  let v := BitVec.ofNat 64 (reinsCode typ + 16 * (seq % 16)) ||| (instant.setWidth 64 <<< 8)
  { bits := v ||| (BitVec.ofNat 64 (reinsCrc v) <<< 48) }

/-- The CRC of a frame is right (R405). -/
def reinsGood (f : ReinsFrame) : Bool := f.bits >>> 48 = BitVec.ofNat 64 (reinsCrc f.bits)

/-- A good frame of a type (R405). -/
def reinsIs (f : ReinsFrame) (typ : ReinsType) : Bool := reinsGood f && (f.bits.setWidth 4).toNat = reinsCode typ

/-- SEQ of a frame. -/
def reinsSeq (f : ReinsFrame) : Nat := ((f.bits >>> 4).setWidth 4).toNat

/-- INSTANT of a frame: ST [49:10]. -/
def reinsInstant (f : ReinsFrame) : BitVec 40 := (f.bits >>> 8).setWidth 40

/-- The next frame of a type that names an instant (R405). -/
def reinsFrame (s : State) (typ : ReinsType) (t : BitVec 64) : ReinsFrame := sealReins typ s.tan.frameSeq ((t >>> 10).setWidth 40)

/-- A reins frame sent on both paths: the reins lines and, as a herd message, the tandem link (R405). -/
def sendReins (typ : ReinsType) (t : BitVec 64) (s : State) : State :=
  let f := reinsFrame s typ t
  let s1 := sendHerd (.reins f) s
  { s1 with out := { s1.out with reins := s1.out.reins ++ [f] }
            tan := { s1.tan with frameSeq := (s1.tan.frameSeq + 1) % 16 } }

/-- An instant rounded up to a whole 80 ns sample of ST (R409). -/
def upToSample (t : BitVec 64) : BitVec 64 := BitVec.ofNat 64 ((t.toNat + 79) / 80 * 80)

/-- The holder holds the reins and its partner is in step. -/
def mayRelease (s : State) : Bool := s.tan.joined && s.tan.reins && s.tan.step = 1

/-- The holder releases the reins at once, naming T_h, while the partner is in step (R408, R409). -/
def releaseReins (s : State) : State :=
  if mayRelease s && s.tan.handover.isNone then
    let th := upToSample (after s 3000)
    let s1 := sendReins .release th s
    { s1 with tan := { s1.tan with handover := some (th, false, 0) } }
  else s

/-- What R408 asks for when a self-test fails or Bridle loses its majority: a release while the partner is in step, and
TRB7.SELFTEST_FAIL. -/
def failOver (s : State) : State := raise .selftestFail (releaseReins s)

/-! ### SOUND -/

/-- Bridle holds a majority: at least two voting channels, and it is not restarting. -/
def bridleMajority (s : State) : Bool := 2 ≤ maskCount s.bri.votes && !s.bri.restarting

/-- SOUND as R69 gives it: no subsystem retired and a Bridle majority; low before SADDLE step 11 (R461). -/
def soundNow (s : State) : Bool := soundCount s 2 = 0 && bridleMajority s

/-- SADDLE has reached step 11, from which on SOUND follows R69 (R461). -/
def pastStart (s : State) : Bool := s.dev.cmdReady || (s.dev.mode != .saddle && s.dev.mode != .remount)

/-- SOUND brought up to date. -/
def setSound (s : State) : State :=
  { s with dev := { s.dev with soundPin := pastStart s && soundNow s } }

/-! ### Self-test -/

/-- Subsystems that the state itself shows to be out of service: the decoder after a failed self-check (R151), the sample store without DRAM (R462), the key vault
without its root (R422) or zeroised (R433). -/
def knownOut (s : State) (n : Nat) : Bool :=
  (n = 7 && s.rx.decoderBad) || (n = 9 && !s.dev.dramOk) || (n = 12 && (!s.vault.rootOk || s.vault.tampered))

/-- Bridle with a channel out until device reset is lame (R416). -/
def knownLame (s : State) (n : Nat) : Bool := n = 20 && s.bri.out != 0#3

/-- The trouble bit behind a fault that the state shows, in the form of R68. -/
def knownReason (s : State) (n : Nat) : BitVec 16 :=
  if n = 12 then
    if s.vault.rootOk then BitVec.ofNat 16 (trbReg .tamper * 8192 + trbPos .tamper)
    else BitVec.ofNat 16 (trbReg .rootKeyFail * 8192 + trbPos .rootKeyFail)
  else if n = 20 then BitVec.ofNat 16 (trbReg .bridleVote * 8192 + trbPos .bridleVote)
  else if n = 7 then BitVec.ofNat 16 (trbReg .decoderFault * 8192 + trbPos .decoderFault)
  else BitVec.ofNat 16 (trbReg .dramUe * 8192 + trbPos .dramUe)

/-- What a self-test finds of subsystem n: 0 sound, 1 lame, 2 retired. A retired one stays so until device reset (R69);
what the state does not show is a free outcome (log 17). -/
def selfTestFinds (s : State) (n : Nat) : Nat :=
  if (soundness s n).state = 2 || knownOut s n then 2
  else if bit (Config.selfTest s.free) (n - 1) then (if bit (Config.selfTestOut s.free) (n - 1) then 2 else 1)
  else if knownLame s n then 1 else 0

/-- Instances out of service that the state shows: Bridle channels out, else the one instance the subsystem has. -/
def knownCount (s : State) (n : Nat) : Nat := if n = 20 then maskCount s.bri.out else 1

/-- Instances out of service and reason after a self-test finds `v` (R68). The count is of this test; the reason is that of the
last change, so it stays while the state does, and a return to sound, which no trouble bit causes, keeps it too (DESIGN CHOICE,
log 102). -/
def soundnessAfter (s : State) (n v : Nat) : Soundness :=
  let old := soundness s n
  let known := knownOut s n || (v = 1 && knownLame s n)
  let reason := if known then knownReason s n else (Config.freeWord s.free).setWidth 16 &&& 0xE01F#16
  if v = 0 then { old with state := 0, instances := 0 }
  else { state := v, instances := if known then knownCount s n else (Config.selfTestCount s.free n).toNat,
         reason := if v = old.state then old.reason else reason }

/-- The soundness of subsystem n changed, with its event (R69). -/
def setSoundness (n : Nat) (v : Soundness) (s : State) : State :=
  let changed := v.state != (soundness s n).state
  let s1 := { s with dev := { s.dev with soundness := tabSet s.dev.soundness n v } }
  if changed then postEvent 0x0004 n (w32 v.state) s1 else s1

/-- The subsystems named by a mask, bit n - 1 for subsystem n. -/
def subsystems (mask : BitVec 20) : List Nat := (maskList mask).map (· + 1)

/-- Resynchronisation begins (R413): counted; the holder's snapshot is the holder's own. -/
def beginResync (s : State) : State :=
  { s with tan := { s.tan with step := 2, stage := 1, holdStart := none
                               counters := listMod s.tan.counters 7 (fun k => saturate 32 (k + 1)) } }

/-- The self-test on the masked subsystems (R69): the subsystems that failed, and the state after it. A retirement, or a
lameness named in TAKEOVER_MASK, is a failure of R408; a member without the reins that fails leaves the step,
and resynchronises once a later full self-test passes (R404). -/
def selfTest (mask : BitVec 20) (s : State) : BitVec 20 × State :=
  let ns := subsystems mask
  let found := ns.map (fun n => (n, selfTestFinds s n))
  let failed := maskOf 20 ((found.filter (fun e => e.2 != 0)).map (fun e => e.1 - 1))
  let changed := found.filter (fun e => e.2 != (soundness s e.1).state)
  let grave := changed.any (fun e => e.2 = 2 || (e.2 = 1 && bit s.cfg.tan.takeover (e.1 - 1)))
  let s1 := found.foldl (fun t e => setSoundness e.1 (soundnessAfter s e.1 e.2) t) s
  let s2 := setSound { s1 with free := s1.free + 1 }
  let s3 := if grave then failOver s2 else s2
  let s4 := if failed != 0#20 && nonHolder s3 && s3.tan.step = 1 then { s3 with tan := { s3.tan with step := 3 } } else s3
  let again := failed = 0#20 && mask = BitVec.allOnes 20 && nonHolder s4 && s4.tan.step = 3
  (failed, if again then beginResync s4 else s4)

/-- The full soundness self-test (R69, R404). -/
def fullSelfTest (s : State) : BitVec 20 × State := selfTest (BitVec.allOnes 20) s

end Sys2Proof.Machine
end

