-- ==== Sys2Proof/Machine/Device.lean ====
section
/-! DEFINITION. The device and diagnostic commands (R39-R41, R66-R69), malformed packets (R26) and the release of held
replies (R35). -/

namespace Sys2Proof.Machine

/-! ### NOP, GET_IDENTITY, GET_COMMAND_STATE -/

def nopSpec : CmdSpec := plainSpec 0x0000 0 (fun _ => true) (fun _ s => done s)

/-- NOP (R40). -/
def execNop (c : Packet) (s : State) : Host.Outcome State Fault Refusal := runCommand nopSpec c s

/-- DEV_ID (R58). -/
def devId : Word := 0x64004B4D#32

/-- REVISION: stepping 0xB1, module revision 2 (R58). -/
def revision : Word := 0x000002B1#32

/-- The six words of GET_IDENTITY (R40). -/
def identityWords (s : State) : List Word :=
  [devId, revision, s.dev.fwVersion, s.dev.bootEpoch] ++ loHi s.dev.serial

def getIdentitySpec : CmdSpec := plainSpec 0x0001 0 (fun _ => true) (fun _ s => doneWith (identityWords s) s)

/-- GET_IDENTITY (R40). -/
def execGetIdentity (c : Packet) (s : State) : Host.Outcome State Fault Refusal :=
  runCommand getIdentitySpec c s

/-- What GET_COMMAND_STATE answers about a tag (R40); a command that asks about itself is running. -/
def commandState (s : State) (own t : BitVec 16) : Nat :=
  if own = t then 2
  else match s.cmd.inFlight.find? (fun e => e.tag = t) with
    | some e => phaseCode e.phase
    | none => 0

def getCommandStateSpec : CmdSpec :=
  plainSpec 0x0003 1 (fun c => fits c 0 16) (fun c s => doneWith [w32 (commandState s c.tag ((pw c 0).setWidth 16))] s)

/-- GET_COMMAND_STATE (R40). -/
def execGetCommandState (c : Packet) (s : State) : Host.Outcome State Fault Refusal :=
  runCommand getCommandStateSpec c s

/-! ### RESET_DEVICE -/

/-- Commands for other members that wait here end with a status: they are in flight on no device yet (R27, R29). -/
def endForeign (st : Status) (s : State) : State :=
  let l := s.cmd.waiting.filter (fun w => w.accepted && !executesHere w.packet s)
  l.foldl (fun t w => sendReply (entryOf w.src w.op w.packet) st [] t) s

/-- No command that has been taken waits any more. -/
def dropTaken (s : State) : State := { s with cmd := { s.cmd with waiting := s.cmd.waiting.filter (fun w => !w.accepted) } }

/-- Every command in flight that has no reply yet completes with ST_ABORTED_RESET, and none waits (R41). -/
def abortInFlight (s : State) : State :=
  let l := (s.cmd.inFlight.filter (fun e => e.phase != .held)).map (fun e => (e.queue, e.tag))
  dropTaken (endForeign .abortedReset (completeAll l .abortedReset s))

/-- RESET_DEVICE accepted (R41): the others end, and the reset comes when the reply queues are empty or 10 ms have passed. -/
def startReset (s : State) : State :=
  let s1 := abortInFlight s
  { s1 with dev := { s1.dev with resetPending := some (after s1 10000000) } }

def resetDeviceSpec : CmdSpec :=
  plainSpec 0x0004 1 (fun c => pw c 0 = 0x6B656C77#32) (fun _ s => { state := startReset s, final := true })

/-- RESET_DEVICE (R41): the others end, its own reply is last; DEVICE_RESET_INSTANT follows. -/
def execResetDevice (c : Packet) (s : State) : Host.Outcome State Fault Refusal :=
  runCommand resetDeviceSpec c s

/-! ### Soundness -/

/-- Word n + 1 of the soundness report (R68). -/
def soundnessWord (s : State) (n : Nat) : Word :=
  let v := soundness s n
  w32 (v.state + 256 * v.instances + 65536 * v.reason.toNat)

/-- The 22 words of the soundness report (R68). -/
def soundnessWords (s : State) : List Word :=
  [s.dev.reportSeq, quad8 0 (soundCount s 2) (soundCount s 1) (soundCount s 0)]
    ++ (List.range 20).map (fun i => soundnessWord s (i + 1))

def soundnessReportSpec : CmdSpec := plainSpec 0x0D00 0 (fun _ => true) (fun _ s =>
  doneWith (soundnessWords s) { s with dev := { s.dev with reportSeq := s.dev.reportSeq + 1 } })

/-- SOUNDNESS_REPORT (R68). -/
def execSoundnessReport (c : Packet) (s : State) : Host.Outcome State Fault Refusal :=
  runCommand soundnessReportSpec c s

def selfTestRunSpec : CmdSpec := plainSpec 0x0D01 1 (fun c => fits c 0 20) (fun c s =>
  let r := selfTest ((pw c 0).setWidth 20) s
  doneWith [r.1.setWidth 32] r.2)

/-- SELF_TEST_RUN (R40, R69). -/
def execSelfTestRun (c : Packet) (s : State) : Host.Outcome State Fault Refusal :=
  runCommand selfTestRunSpec c s

/-! ### Trouble log -/

/-- The four words of a log entry (R66). -/
def logWords (e : LogEntry) : List Word :=
  if e.lost then [0#32, 0#32, 0#32, 0#32]
  else [e.seq, w32 (65536 * e.absorbed + 256 * trbReg e.bit + trbPos e.bit)] ++ loHi e.time

/-- The entries from a sequence number onwards, from the oldest when that one has been overwritten (R67). -/
def logFrom (s : State) (first : Word) : List LogEntry :=
  match s.trb.log with
  | [] => []
  | e :: _ => s.trb.log.drop (first - e.seq).toInt.toNat

def troubleLogReadSpec : CmdSpec := plainSpec 0x0D02 2 (fun c => within c 1 1 255) (fun c s =>
  let l := (logFrom s (pw c 0)).take (pn c 1)
  doneWith (w32 l.length :: l.flatMap logWords) s)

/-- TROUBLE_LOG_READ (R67). -/
def execTroubleLogRead (c : Packet) (s : State) : Host.Outcome State Fault Refusal :=
  runCommand troubleLogReadSpec c s

def troubleLogClearSpec : CmdSpec := plainSpec 0x0D03 0 (fun _ => true) (fun _ s =>
  doneWith [w32 s.trb.log.length] { s with trb := { s.trb with log := [] } })

/-- TROUBLE_LOG_CLEAR (R67): the numbering goes on. -/
def execTroubleLogClear (c : Packet) (s : State) : Host.Outcome State Fault Refusal :=
  runCommand troubleLogClearSpec c s

/-! ### Undefined opcodes and malformed packets -/

/-- An undefined opcode ends at its place in R38. -/
def undefinedSpec (op : Nat) : CmdSpec :=
  { plainSpec op 0 (fun _ => true) (fun _ s => done s) with known := false }

/-- UNDEFINED_OPCODE (R39). A defined opcode is not this row's (fault illFormed). -/
def execUndefinedOpcode (op : BitVec 16) (c : Packet) (s : State) : Host.Outcome State Fault Refusal :=
  if opcodeDefined op.toNat then .fault .illFormed
  else runCommand (undefinedSpec op.toNat) c s

/-- The head packet of a command queue removed when it has n bytes: Bridle takes it (log 3). -/
def takeShort (q n : Nat) (s : State) : State :=
  match headPacket (que s q) with
  | some b => if b.length = n then setQue s q (takePacket (que s q)) else s
  | none => s

/-- CMD_MALFORMED (R26): discarded without a reply, counted. A packet of 8 bytes or more is not this row's. -/
def execCmdMalformed (q : Fin 16) (bytes : Nat) (s : State) : Host.Outcome State Fault Refusal :=
  if 8 ≤ bytes then .fault .illFormed
  else
    let s1 := takeShort q.val bytes s
    .next (raise .cmdMalformed { s1 with cmd := { s1.cmd with malformed := saturate 32 (s1.cmd.malformed + 1) } })

/-! ### Replies -/

/-- A held reply goes out now: it fits its queue, or goes over the herd; RESET_DEVICE's own only behind every other (R41). -/
def replyMayGo (h : HeldReply) (rest : List HeldReply) (s : State) : Bool :=
  if h.final && !rest.isEmpty then false
  else h.origin.isSome || !overCap s h.queue ((h.words.length + 1) / 2)

/-- A held reply posted, to its queue or to the entry device. -/
def postHeld (h : HeldReply) (s : State) : State :=
  match h.origin with
  | some d => originate (.reply d h.words) s
  | none => pushPacket h.queue h.words s

/-- The first held reply of a queue, once it fits, is posted and its command leaves flight (R35). -/
def releaseReply (q : Nat) (s : State) : State :=
  match takeFirst (fun h => h.queue = q) s.cmd.held with
  | some (h, rest) =>
    if replyMayGo h rest s then
      postHeld h { s with cmd := { s.cmd with
        held := rest
        inFlight := s.cmd.inFlight.filter (fun e => !(e.queue + 16 = q && e.tag = h.tag && e.phase = .held)) } }
    else s
  | none => s

/-- REPLY_RELEASE (R35). -/
def execReplyRelease (q : Fin 16) (s : State) : Host.Outcome State Fault Refusal :=
  .next (releaseReply (q.val + 16) s)

/-- What the device knows of a herd ID. -/
def peerOf (s : State) (h : Nat) : Peer := tabGet s.herd.peers h {}

/-- The state with what it knows of a herd ID replaced. -/
def setPeer (s : State) (h : Nat) (v : Peer) : State :=
  { s with herd := { s.herd with peers := tabSet s.herd.peers h v } }

/-- A message from this peer stamped with this epoch is of an old boot epoch (R33, R337). -/
def oldEpoch (s : State) (h : Nat) (e : Word) : Bool :=
  match (peerOf s h).epoch with
  | some known => decide ((e - known).toInt < 0)
  | none => false

/-- A reply that a peer sends for a forwarded command, posted as R31 gives with the peer as responder; a member without the
reins posts none (R401). -/
def takeReply (r : ReplyIn) (s : State) : State :=
  match takeFirst (fun f => f.peer = r.src.val && f.tag = r.tag) s.cmd.forwarded with
  | none => s
  | some (f, rest) =>
    let s1 := { s with cmd := { s.cmd with forwarded := rest } }
    if (f.noReply && r.status = 0#16) || nonHolder s then s1
    else
      let ws := [pair16 r.status.toNat r.tag.toNat, w32 (67108864 * r.src.val + r.results.length)] ++ r.results
      if !overCap s1 (f.queue + 16) ((ws.length + 1) / 2) then pushPacket (f.queue + 16) ws s1
      else { s1 with cmd := { s1.cmd with held := s1.cmd.held ++ [{ queue := f.queue + 16, tag := r.tag, words := ws }] } }

/-- HERD_REPLY (R31, R33): a reply of an old boot epoch is discarded. -/
def execHerdReply (r : ReplyIn) (s0 : State) : Host.Outcome State Fault Refusal :=
  let s := mirrorHerd (.reply r) s0
  .next (if oldEpoch s r.src.val r.epoch then s else takeReply r s)

end Sys2Proof.Machine
end

