-- ==== Sys2Proof/Machine/Queues.lean ====
section
/-! DEFINITION. Pannier queues as the host and the hardware act on them (R43-R56, R508-R510) and the semaphores
(R60-R63). -/

namespace Sys2Proof.Machine

/-! ### Queue commands (R40) -/

def queueConfigureSpec : CmdSpec :=
  { plainSpec 0x08C0 3 (fun c => within c 0 0 1023 && within c 1 0 16384 && within c 2 0 65528 && pn c 2 % 8 = 0)
      (fun c s => done (setQue s (pn c 0) { que s (pn c 0) with cap := pn c 1, cutThresh := pn c 2 })) with
    ready := fun c s => (que s (pn c 0)).words.isEmpty }

/-- QUEUE_CONFIGURE (R43, R53): not while the queue holds words. -/
def execQueueConfigure (c : Packet) (s : State) : Host.Outcome State Fault Refusal :=
  runCommand queueConfigureSpec c s

def queueResetSpec : CmdSpec := plainSpec 0x08C1 1 (fun c => within c 0 0 1023) (fun c s =>
  let gone := (que s (pn c 0)).words.length - (emptyQueue (now s) (que s (pn c 0))).words.length
  doneWith [w32 gone] (resetQueue (pn c 0) s))

/-- QUEUE_RESET (R50). -/
def execQueueReset (c : Packet) (s : State) : Host.Outcome State Fault Refusal :=
  runCommand queueResetSpec c s

/-- The five words of QUEUE_STATUS (R40). -/
def queueStatusWords (v : Queue) : List Word :=
  [w32 v.words.length, w32 (packetsIn v), w32 (spillOf v.words.length), w32 v.drops, w32 v.underruns]

def queueStatusSpec : CmdSpec := plainSpec 0x08C2 1 (fun c => within c 0 0 1023) (fun c s =>
  doneWith (queueStatusWords (que s (pn c 0))) s)

/-- QUEUE_STATUS (R40). -/
def execQueueStatus (c : Packet) (s : State) : Host.Outcome State Fault Refusal :=
  runCommand queueStatusSpec c s

/-- The sum of all caps in units of 4,096 bytes (R40). -/
def capSum (s : State) : Nat := (s.que.map (fun e => e.2.cap)).sum

def spillStatusSpec : CmdSpec := plainSpec 0x08C3 0 (fun _ => true) (fun _ s =>
  doneWith [w32 (poolUsed s / 4096), w32 (capSum s)] s)

/-- SPILL_STATUS (R40). -/
def execSpillStatus (c : Packet) (s : State) : Host.Outcome State Fault Refusal :=
  runCommand spillStatusSpec c s

/-! ### Host windows -/

/-- A push of the host into this queue is discarded: its producer is the device, as for the backhaul egress queues
(R325), or its consumer the host (R44, R56). -/
def hostBarred (q : Nat) (v : Queue) : Bool := (16 ≤ q && q < 66) || v.consumer.toNat ≤ 1

/-- A word of the host's packet pushed, or the packet discarded and counted (R56). -/
def hostPushWord (q : Nat) (w : QWord) (s : State) : State :=
  let v := que s q
  if hostBarred q v then
    if v.discard then setQue s q { v with discard := !w.last }
    else setQue s q { countDrop v with discard := !w.last }
  else
    let p := pushWord q w s
    raiseAll p.2 p.1

/-- A host write to PUSH, or to PUSH_LAST, which takes the valid bytes from LAST_BYTES and returns it to 0 (R56). -/
def hostPush (q : Nat) (data : BitVec 64) (last : Bool) (s : State) : State :=
  if last then
    let v := que s q
    let s1 := hostPushWord q { data := data, last := true, bytes := if v.lastBytes = 0 then 8 else v.lastBytes } s
    setQue s1 q { que s1 q with lastBytes := 0 }
  else hostPushWord q { data := data, last := false, bytes := 8 } s

/-- A host write to a pannier window: held in STALL, whose exit it causes (R459). -/
def hostPushOrHold (q : Nat) (data : BitVec 64) (last : Bool) (s : State) : State :=
  if s.dev.mode = .stall then
    { s with pwr := { s.pwr with heldPush := s.pwr.heldPush ++ [.push q data last] } }
  else hostPush q data last s

/-- PUSH (R56). -/
def execPush (q : Fin 1024) (data : BitVec 64) (s : State) : Host.Outcome State Fault Refusal :=
  .next (hostPushOrHold q.val data false s)

/-- PUSH_LAST (R56): LAST_BYTES gives the word's valid bytes and returns to 0. -/
def execPushLast (q : Fin 1024) (data : BitVec 64) (s : State) : Host.Outcome State Fault Refusal :=
  .next (hostPushOrHold q.val data true s)

/-- The value of a read that acts, as the host receives it. -/
def recordRead (v : BitVec 64) (s : State) : State := { s with out := { s.out with reads := s.out.reads ++ [v] } }

/-- A host read of POP: zero and no change while CONSUMER is not 0b00 (R509); with no visible word the last value and
UNDERRUN (R47); else the next visible word. After a read that underran, POP_INFO [0] and [3:1] are 0 (DESIGN CHOICE, log 101). -/
def hostPop (q : Nat) (s : State) : State :=
  let v := que s q
  if v.consumer != 0#2 then recordRead 0#64 s
  else if visible v then
    match v.words with
    | w :: _ =>
      recordRead w.data (setQue s q
        { popWord v with popLast := w.last, popBytes := w.bytes % 8, popUnderrun := false })
    | [] => s
  else
    recordRead v.lastPop (setQue s q
      (noteStatus (now s) 1#5
        { v with underrun := true, underruns := saturate 32 (v.underruns + 1), popLast := false, popBytes := 0,
                 popUnderrun := true }))

/-- POP (R47, R509). -/
def execPop (q : Fin 1024) (s : State) : Host.Outcome State Fault Refusal := .next (hostPop q.val s)

/-! ### CTRL -/

/-- ARM (R55): a write of CTRL with bit 12 set; its other parts act as R510 orders. -/
def execArm (q : Fin 1024) (v : Word) (s : State) : Host.Outcome State Fault Refusal :=
  if bit v 12 then .next (ctrlWrite q.val v s) else .fault .illFormed

/-- DROP_REST (R48): a write of CTRL with bit 13 set. -/
def execDropRest (q : Fin 1024) (v : Word) (s : State) : Host.Outcome State Fault Refusal :=
  if bit v 13 then .next (ctrlWrite q.val v s) else .fault .illFormed

/-- CTRL.RESET (R50): a write of CTRL with bit 14 set. -/
def execCtrlReset (q : Fin 1024) (v : Word) (s : State) : Host.Outcome State Fault Refusal :=
  if bit v 14 then .next (ctrlWrite q.val v s) else .fault .illFormed

/-- A write of CTRL that gives a binding (R53). -/
def execConsumerBinding (q : Fin 1024) (v : Word) (s : State) : Host.Outcome State Fault Refusal :=
  .next (ctrlWrite q.val v s)

/-- A pointer mismatch (R49): the queue is reset, PTR_ERR set twice over, and the event goes to Q33 when Q32 failed. -/
def pointerMismatch (q : Nat) (s : State) : State :=
  let s1 := setQue s q (noteStatus (now s) 4#5 { emptyQueue (now s) (que s q) with ptrErr := true })
  postEventTo (if q = 32 then 33 else 32) 0x0002 q 0#32 (raise .ptrErr s1)

/-- QUEUE_POINTER_MISMATCH (R49). -/
def execQueuePointerMismatch (q : Fin 1024) (s : State) : Host.Outcome State Fault Refusal :=
  .next (pointerMismatch q.val s)

/-! ### Semaphores -/

/-- What an attempt of agent a on semaphore v gives: the result code of R60 and the semaphore after it. -/
def acquireSem (v : Sem) (a : BitVec 8) : Nat × Sem :=
  match v.holder with
  | some h => if h = a then (0, v) else (1, v)
  | none => (if v.abandoned then 2 else 0, { holder := some a, abandoned := false })

/-- The word an acquire read returns: result and the holder after it (R60). -/
def acquireWord (v : Sem) (a : BitVec 8) : Word :=
  let r := acquireSem v a
  w32 (r.1 + 256 * (match r.2.holder with
    | some h => h.toNat
    | none => 0))

/-- A release by agent a: only the holder's has an effect (R61). -/
def releaseSem (v : Sem) (a : BitVec 8) : Sem := if v.holder = some a then { v with holder := none } else v

/-- Agent a's read of SEM_ACQ, when its turn among the attempts of this instant has come (R60). -/
def acquireRead (n : Nat) (a : BitVec 8) (s : State) : State :=
  recordRead ((acquireWord (sem s n) a).setWidth 64) (setSem s n (acquireSem (sem s n) a).2)

/-- A request of herd peer h resolved: its effect, and the answer that goes back to it (R62). -/
def resolveRequest (s : State) (r : Nat × Nat × Bool) : State :=
  let n := r.1
  let h := r.2.1
  let v := sem s n
  let a := BitVec.ofNat 8 (64 + h)
  let x := if r.2.2 then (0, releaseSem v a) else acquireSem v a
  let s1 := setSem s n x.2
  originate (.semAnswer h n x.1) { s1 with out := { s1.out with semAnswers := s1.out.semAnswers ++ [(h, n, x.1)] } }

/-- The requests of one instant in the order of R62: the lower agent code first; of one agent, as they came. -/
def requestOrder (l : List (Nat × Nat × Bool)) : List (Nat × Nat × Bool) :=
  (List.range 64).flatMap (fun h => l.filter (fun r => r.2.1 = h))

/-- The requests of this instant from agents below code a resolved (R62). -/
def resolveBelow (a : Nat) (s : State) : State :=
  let l := requestOrder (s.semReq.filter (fun r => 64 + r.2.1 < a))
  l.foldl resolveRequest { s with semReq := s.semReq.filter (fun r => !(64 + r.2.1 < a)) }

/-- Every request of an instant resolved as that instant ends (R62). -/
def resolveRequests (s : State) : State := resolveBelow 256 s

/-- SEM_ACQ (R60); requests of the same instant from agents with lower codes come first (R62). -/
def execSemAcq (n : Fin 64) (a : Agent) (s : State) : Host.Outcome State Fault Refusal :=
  .next (acquireRead n.val (agentCode a) (resolveBelow (agentCode a).toNat s))

/-- SEM_REL (R61): bit 0 of the word written must be 1. -/
def execSemRel (n : Fin 64) (a : Agent) (v : Word) (s : State) : Host.Outcome State Fault Refusal :=
  .next (if bit v 0 then setSem s n.val (releaseSem (sem s n.val) (agentCode a)) else s)

/-- SEMAPHORE_REQUEST (R62): a peer's acquire or release is stamped with this instant and resolved with the others of that
stamp as the instant ends. -/
def execSemaphoreRequest (n : Fin 64) (peer : Fin 64) (release : Bool) (s0 : State) : Host.Outcome State Fault Refusal :=
  let s := mirrorHerd (.semaphore n peer release) s0
  .next { s with semReq := s.semReq ++ [(n.val, peer.val, release)] }

end Sys2Proof.Machine
end

