-- ==== Sys2Proof/Machine/Time.lean ====
section
/-! DEFINITION. The time unit: time bases TB0-TB4, ST, PTP, PPS, herd time and the delay survey (R350-R372, R379-R385,
R513). -/

namespace Sys2Proof.Machine

/-! ### Bases -/

/-- What an unlisted base holds: TB4 is always locked (R350, R380). -/
def baseDefault (n : Nat) : Base := { state := if n = 4 then 1 else 0 }

/-- Time base n. -/
def base (s : State) (n : Nat) : Base := tabGet s.time.tbs n (baseDefault n)

/-- The state with time base n replaced. -/
def setBase (s : State) (n : Nat) (v : Base) : State := { s with time := { s.time with tbs := tabSet s.time.tbs n v } }

/-- Ten nanoseconds in 32.32 fixed point: the increment of every base at reset (R350, R353). -/
def tenNs : BitVec 64 := 0xA00000000#64

/-- Whole nanoseconds of a 64.32 value. -/
def wholeNs (v : BitVec 96) : BitVec 64 := (v >>> 32).setWidth 64

/-- Whole nanoseconds as a 64.32 value. -/
def fromNs (v : BitVec 64) : BitVec 96 := v.setWidth 96 <<< 32

/-- The base that ST follows. -/
def followed (s : State) : Base := base s s.time.sel

/-- The offset of base n from ST in nanoseconds (R384). -/
def offsetOf (s : State) (n : Nat) : Int := (wholeNs (base s n).val - now s).toInt

/-- A time counter raised (R384, R149). -/
def countTime (i : Nat) (s : State) : State :=
  { s with time := { s.time with counters := listMod s.time.counters i (fun v => saturate 32 (v + 1)) } }

/-- TIME_STATUS (R380). -/
def timeStatus (s : State) : Word :=
  w32 (s.time.sel + 8 * flag s.time.stLocked + 16 * flag (decide (100 < (offsetOf s s.time.sel).natAbs))
    + 256 * (base s 0).state + 1024 * (base s 1).state + 4096 * (base s 2).state + 16384 * (base s 3).state + 65536)

/-! ### ST: what it follows, and its steps -/

/-- Position of base n in the priority list; the list's length when it is not listed. -/
def rankOf (s : State) (n : Nat) : Nat := s.cfg.time.list.idxOf n

/-- The base that R354 selects from the states as they stand. -/
def wanted (s : State) : Nat :=
  match s.cfg.time.list.find? (fun n => (base s n).state = 1) with
  | some n => n
  | none => (s.cfg.time.list.find? (fun n => (base s n).state = 2)).getD 4

/-- A base has stayed locked for REVERT_DELAY (R358). -/
def stayedLocked (s : State) (n : Nat) : Bool :=
  reached s ((base s n).since + BitVec.ofNat 64 (s.cfg.time.revertDelay * 1000000000))

/-- ST changes the base it follows, with TB_SWITCH and event 0x0902 (R358). -/
def follow (n : Nat) (s : State) : State :=
  if n = s.time.sel then s
  else
    let old := s.time.sel
    postEvent 0x0902 n (w32 old) (raise .tbSwitch { s with time := { s.time with sel := n } })

/-- Reselection (R354, R358): a higher-listed base that has locked again waits for REVERT_DELAY while the present one
is locked; fresh exempts a base from that wait. -/
def reselect (fresh : Option Nat) (s : State) : State :=
  let n := wanted s
  let higher := rankOf s n < rankOf s s.time.sel && rankOf s s.time.sel < s.cfg.time.list.length
  if higher && (followed s).state = 1 && fresh != some n && !stayedLocked s n then s else follow n s

/-- Slot length in units of 2^k x 1.024 ms, in nanoseconds (R255). -/
def slotNs (s : State) : Nat := 1024000 * 2 ^ s.cfg.sched.k

/-- ASN of an instant, 40 bits (R255). -/
def asnAt (s : State) (t : BitVec 64) : Nat := (t - s.cfg.sched.netEpoch).toNat / slotNs s % 2 ^ 40

/-- The ledger's number of the second of an instant: raised by 86,400, the longest window (R275, R277). -/
def ledgerSecond (t : BitVec 64) : Nat := 86400 + t.toNat / 1000000000

/-- The buckets of a sub-band under new seconds, in their order (R355). -/
def relabel (old new : Nat) (v : Band) : Band :=
  { v with buckets := v.buckets.map (fun e => (e.1 + new - old, e.2)), coldAt := v.coldAt + new - old }

/-- ST set to a value outside its rate, which the slot clock follows (R357, R359). -/
def setSt (v : BitVec 96) (s : State) : State :=
  let s1 := { s with time := { s.time with st := v } }
  { s1 with sched := { s1.sched with asn := asnAt s1 (wholeNs v) } }

/-- ST set with the ledger relabelling its seconds, so that it neither ages out airtime nor adds any (R355). -/
def stepSt (v : BitVec 96) (s : State) : State :=
  let s1 := setSt v s
  let sec := ledgerSecond (wholeNs v)
  let air : Air := { s1.air with
    second := sec, ms := (wholeNs v).toNat / 1000000, bands := s1.air.bands.map (fun e => (e.1, relabel s1.air.second sec e.2)) }
  { s1 with air := air }

/-- What is timed from an instant of ST before its step lies as far back after it. -/
def shiftSince (d : BitVec 64) (v : Base) : Base := { v with since := v.since + d, last := v.last + d }

/-- ST stepped, with the instants since when its bases have been locked and had their last inputs, and since when intervals and
idle timers run (R355, R358). -/
def jumpSt (v : BitVec 96) (s : State) : State :=
  let d := wholeNs v - now s
  let s1 := stepSt v s
  { s1 with
    time := { s1.time with tbs := s1.time.tbs.map (fun e => (e.1, shiftSince d e.2)), ran := s1.time.ran.map (fun e => (e.1, e.2 + d)) }
    pwr := { s1.pwr with domains := s1.pwr.domains.map (fun e => (e.1, { e.2 with idle := e.2.idle.map (· + d) })) } }

/-- ST's first lock (R355): one step to the base it then follows; a TB4 never loaded is stepped to ST (R353). -/
def firstLock (s : State) : State :=
  if s.time.stLocked then s
  else
    let s1 := jumpSt (if s.time.sel = 4 && !s.time.tb4Stepped then s.time.st else (followed s).val) s
    let s2 := { s1 with time := { s1.time with stLocked := true, selAt := none } }
    if s2.time.tb4Stepped then s2
    else
      let s3 := setBase s2 4 { base s2 4 with val := s2.time.st }
      { s3 with time := { s3.time with tb4Stepped := true } }

/-- A listed base other than TB4 is locked (R355). -/
def listedLocked (s : State) : Bool := s.cfg.time.list.any (fun n => n != 4 && (base s n).state = 1)

/-- A listed TB4 counts for the first lock: at once as the sole base, else once FIRST_WAIT has passed (R355). -/
def tb4Counts (s : State) : Bool :=
  s.cfg.time.list.contains 4 && (s.cfg.time.list.all (· = 4) ||
    match s.time.selAt with
    | some t => fromNs (BitVec.ofNat 64 (s.cfg.time.firstWait * 1000000000)) ≤ (base s 4).val - t
    | none => false)

/-- ST locks for the first time when R355 says so. -/
def tryFirstLock (s : State) : State :=
  if !s.time.stLocked && (listedLocked s || tb4Counts s) then firstLock s else s

/-! ### The advance of a TICK -/

/-- The most by which SLEW_MAX lets ST close an offset in one TICK (R357). -/
def slewStep (s : State) : Nat := (followed s).inc.toNat * s.cfg.time.slewMax / 1000000

/-- A correction kept within its bound. -/
def clampInt (bound v : Int) : Int := if bound < v then bound else if v < -bound then -bound else v

/-- What ST adds in one TICK: the increment of the base it follows, and after its first lock the correction that closes
its offset within SLEW_MAX (R354, R357). -/
def stAdvance (s : State) : Int × Bool :=
  let inc : Int := (followed s).inc.toNat
  if s.time.stLocked then
    let d := ((followed s).val - s.time.st).toInt
    (inc + clampInt (slewStep s) d, decide ((slewStep s : Int) < d ∨ d < -(slewStep s : Int)))
  else (inc, false)

/-- The rate correction of ST in 0.001 ppm (R384). -/
def rateOf (adv : Int) : Int := (adv - tenNs.toNat) * 1000000000 / tenNs.toNat

/-- A base after one TICK. -/
def advanceBase (v : Base) : Base := { v with val := v.val + v.inc.setWidth 96 }

/-- TB4 disciplined to ST takes its rate (R353). -/
def disciplined (s : State) : Bool :=
  s.cfg.time.discipline && s.time.sel != 4 && (followed s).state = 1

/-- 500 ppm of 10 ns in 2^-32 ns (R352). -/
def rateBound : Int := 21474836

/-- Base n is held at its rate limit (R352). -/
def atBound (s : State) (n : Nat) : Bool :=
  let d : Int := (base s n).inc.toNat - tenNs.toNat
  (base s n).stepped && decide (rateBound ≤ d ∨ d ≤ -rateBound)

/-- The time bases and ST after one TICK (R350, R353, R357). While ST or a base of TB0-TB3 is held at its limit, RATE_LIMIT is
set (R352): as ST reaches it, and again once cleared (log 27). -/
def tickTime (s : State) : State :=
  let a := stAdvance s
  let b4 := base s 4
  let b4' := if disciplined s then { b4 with inc := BitVec.ofInt 64 a.1 } else b4
  let tbs := [(0, advanceBase (base s 0)), (1, advanceBase (base s 1)), (2, advanceBase (base s 2)),
    (3, advanceBase (base s 3)), (4, advanceBase b4')]
  let s1 := { s with time := { s.time with tbs := tbs, st := s.time.st + BitVec.ofInt 96 a.1, stRate := rateOf a.1
                                           rateLimited := a.2 } }
  if (a.2 && !s.time.rateLimited) || ((a.2 || (List.range 4).any (atBound s)) && !trouble s .rateLimit) then raise .rateLimit s1
  else s1

/-- The sleep counter after 10 ns: one count per SLEEP_PERIOD, in 2^-16 ns (R371, R379). -/
def tickSleep (s : State) : State :=
  let p := s.time.sleepPhase + 655360
  if s.time.sleepPeriod.toNat ≤ p then
    { s with time := { s.time with sleepPhase := p - s.time.sleepPeriod.toNat, sleepCount := s.time.sleepCount + 1 } }
  else { s with time := { s.time with sleepPhase := p } }

/-! ### Discipline of TB0-TB3 -/

/-- A base corrected by its increment alone, within 500 ppm; at the bound RATE_LIMIT is set (R352). -/
def steer (n : Nat) (rate : Int) (s : State) : State :=
  let s1 := setBase s n { base s n with inc := BitVec.ofInt 64 (tenNs.toNat + clampInt rateBound rate) }
  if rateBound < rate || rate < -rateBound then raise .rateLimit s1 else s1

/-- A valid input of a base at its source's difference from it, in ns: remembered, and a base that has been stepped is
corrected by its increment, by a law that the spec leaves open (a free value; log 20). -/
def discipline (n : Nat) (err : Int) (s : State) : State :=
  let s1 := setBase s n { base s n with err := err }
  if (base s n).stepped then steer n (Config.freeWord s1.free).toInt { s1 with free := s1.free + 1 } else s1

/-- A source has given an input now; `valid` says whether it counts towards a lock (R350). -/
def noteInput (n : Nat) (valid : Bool) (s : State) : State :=
  setBase s n { base s n with last := now s, good := if valid then (base s n).good + 1 else 0 }

/-- The slave clock of a PTP domain. -/
def ptpRun (s : State) (b : Nat) : PtpRun := tabGet s.time.ptp b {}

/-- The state with the slave clock of a PTP domain replaced. -/
def setPtp (s : State) (b : Nat) (v : PtpRun) : State := { s with time := { s.time with ptp := tabSet s.time.ptp b v } }

/-- The PTP settings of domain A or B. -/
def ptpCfg (s : State) (b : Nat) : PtpCfg := if b = 0 then s.cfg.time.ptpA else s.cfg.time.ptpB

/-- 2^k seconds in nanoseconds, k signed (IEEE 1588 logMessageInterval). -/
def logNs (k : Int) : Nat := if 0 ≤ k then 1000000000 * 2 ^ (min k 32).toNat else 1000000000 / 2 ^ (min (-k) 32).toNat

/-! ### Commands (R384) -/

/-- The bases that word 1 of TB_SELECT lists. -/
def listedBases (c : Packet) : List Nat := (List.range (pn c 0)).map (fun i => pf c 1 (4 * i + 3) (4 * i))

def tbSelectSpec : CmdSpec := plainSpec 0x0900 5
  (fun c => within c 0 1 5 && fits c 1 20 && (listedBases c).all (· ≤ 4) && within c 2 1 500 && within c 3 0 3600 && within c 4 0 3600)
  (fun c s =>
    let s1 := { s with
      cfg := { s.cfg with time := { s.cfg.time with
        list := listedBases c, slewMax := pn c 2, revertDelay := pn c 3, firstWait := pn c 4 } }
      time := { s.time with selAt := some (base s 4).val } }
    done (tryFirstLock (reselect (some (wanted s1)) s1)))

/-- TB_SELECT (R354, R355). -/
def execTbSelect (c : Packet) (s : State) : Host.Outcome State Fault Refusal := runCommand tbSelectSpec c s

/-- A signed offset saturating at 32 bits (R384). -/
def offsetWord (v : Int) : Word := ofInt (if v < -2147483648 then -2147483648 else if 2147483647 < v then 2147483647 else v)

/-- The seven words of TIME_STATUS_READ (R384). -/
def timeStatusWords (s : State) : List Word :=
  timeStatus s :: (List.range 5).map (fun n => offsetWord (offsetOf s n)) ++ [ofInt s.time.stRate]

def timeStatusReadSpec : CmdSpec := plainSpec 0x0901 0 (fun _ => true) (fun _ s => doneWith (timeStatusWords s) s)

/-- TIME_STATUS_READ (R384). -/
def execTimeStatusRead (c : Packet) (s : State) : Host.Outcome State Fault Refusal :=
  runCommand timeStatusReadSpec c s

/-- The PTP settings that a packet gives (R363, R384). -/
def ptpOf (c : Packet) : PtpCfg :=
  { enable := bit (pw c 1) 8, domain := (pw c 1).setWidth 8, udp := bit (pw c 1) 9, port := pf c 1 10 10
    logDelay := (pw c 2).setWidth 8, timeout := pn c 3, ip := BitVec.ofNat 128 (beNat (pbytes c 4 16))
    mac := (p64 c 8).setWidth 48, vid := (pw c 10).setWidth 12, tagged := bit (pw c 10) 12 }

def ptpSetSpec : CmdSpec := plainSpec 0x0902 11
  (fun c => within c 0 0 1 && fits c 1 11 && fits c 2 8 && -7 ≤ signed 8 (pn c 2) && signed 8 (pn c 2) ≤ 6
    && within c 3 1 600 && fits c 9 16 && fits c 10 13)
  (fun c s =>
    let t := if pn c 0 = 0 then { s.cfg.time with ptpA := ptpOf c } else { s.cfg.time with ptpB := ptpOf c }
    done { s with cfg := { s.cfg with time := t } })

/-- PTP_SET (R363). -/
def execPtpSet (c : Packet) (s : State) : Host.Outcome State Fault Refusal := runCommand ptpSetSpec c s

/-- A change of a base's state, with its trouble and event (R351, R385). -/
def setBaseState (n st : Nat) (s : State) : State :=
  if (base s n).state = st then s
  else
    let s1 := setBase s n { base s n with state := st, since := now s }
    let s2 := if st = 3 then raiseAll (if h : n < 4 then [.tbLoss ⟨n, h⟩] else []) s1 else s1
    postEvent 0x0901 n (w32 st) s2

def tbRearmSpec : CmdSpec :=
  { plainSpec 0x0903 1 (fun c => within c 0 0 3) (fun c s =>
      let s1 := setBaseState (pn c 0) 0 s
      done (setBase s1 (pn c 0) { base s1 (pn c 0) with stepped := false, good := 0 })) with
    ready := fun c s => s.time.sel != pn c 0 }

/-- TB_REARM (R352): not on the base that ST is following. -/
def execTbRearm (c : Packet) (s : State) : Host.Outcome State Fault Refusal := runCommand tbRearmSpec c s

def tb4LoadSpec : CmdSpec :=
  { plainSpec 0x0904 3 (fun c => fits c 2 1) (fun c s =>
      let v := fromNs (p64 c 0)
      let d := v - (base s 4).val
      let s1 := setBase s 4 { base s 4 with val := v }
      done { s1 with
        time := { s1.time with tb4Stepped := true, selAt := s1.time.selAt.map (· + d) }
        cfg := { s1.cfg with time := { s1.cfg.time with discipline := bit (pw c 2) 0 } } }) with
    ready := fun _ s => !s.time.tb4Stepped }

/-- TB4_LOAD (R353): TB4 is stepped once. -/
def execTb4Load (c : Packet) (s : State) : Host.Outcome State Fault Refusal := runCommand tb4LoadSpec c s

def ppsSetSpec : CmdSpec := plainSpec 0x0905 4 (fun c => fits c 0 3 && within c 2 1 500000) (fun c s =>
  done { s with cfg := { s.cfg with time := { s.cfg.time with
    ppsIn := bit (pw c 0) 0, ppsFalling := bit (pw c 0) 1, ppsOut := bit (pw c 0) 2, ppsDelay := pw c 1,
    ppsWidth := pn c 2, ppsOffset := pw c 3 } } })

/-- PPS_SET (R366, R367). -/
def execPpsSet (c : Packet) (s : State) : Host.Outcome State Fault Refusal := runCommand ppsSetSpec c s

def ppsTodSetSpec : CmdSpec := plainSpec 0x0906 2 (fun c => fits c 1 16) (fun c s =>
  let s1 := if s.time.tod.isNone then setBase s 2 { base s 2 with good := 0 } else s
  done { s1 with time := { s1.time with tod := some (p64 c 0).toNat } })

/-- PPS_TOD_SET (R366): only pulses after the first time of day count towards the lock (R350). -/
def execPpsTodSet (c : Packet) (s : State) : Host.Outcome State Fault Refusal := runCommand ppsTodSetSpec c s

/-- Settings of backhaul port p. -/
def bhCfg (s : State) (p : Nat) : BhCfg := tabGet s.cfg.bh p {}

/-- The state with the settings of backhaul port p replaced. -/
def setBhCfg (s : State) (p : Nat) (v : BhCfg) : State := { s with cfg := { s.cfg with bh := tabSet s.cfg.bh p v } }

def tcSetSpec : CmdSpec := plainSpec 0x0907 5
  (fun c => fits c 0 6 && fits c 1 16 && fits c 2 16 && fits c 3 16 && fits c 4 16)
  (fun c s =>
    let s1 := { s with cfg := { s.cfg with time := { s.cfg.time with tcPorts := (pw c 0).setWidth 6 } } }
    let s2 := setBhCfg s1 0 { bhCfg s1 0 with tsRx := pn c 1, tsTx := pn c 2 }
    done (setBhCfg s2 1 { bhCfg s2 1 with tsRx := pn c 3, tsTx := pn c 4 }))

/-- TC_SET (R362, R364). -/
def execTcSet (c : Packet) (s : State) : Host.Outcome State Fault Refusal := runCommand tcSetSpec c s

def herdTimeSetSpec : CmdSpec := plainSpec 0x0908 2 (fun c => within c 0 0 63 && within c 1 1 100) (fun c s =>
  done { s with cfg := { s.cfg with time := { s.cfg.time with herdSource := pn c 0, htInterval := pn c 1 } } })

/-- HERD_TIME_SET (R368). -/
def execHerdTimeSet (c : Packet) (s : State) : Host.Outcome State Fault Refusal :=
  runCommand herdTimeSetSpec c s

def timeCountersReadSpec : CmdSpec := plainSpec 0x0920 1 (fun c => fits c 0 1) (fun c s =>
  doneWith (s.time.counters.map w32)
    (if bit (pw c 0) 0 then { s with time := { s.time with counters := List.replicate 9 0 } } else s))

/-- TIME_COUNTERS_READ (R384). -/
def execTimeCountersRead (c : Packet) (s : State) : Host.Outcome State Fault Refusal :=
  runCommand timeCountersReadSpec c s

/-! ### Registers with an action (R353, R379) -/

/-- ST and TB0-TB4 latched in one TICK (R379). -/
def takeSnap (v : Word) (s : State) : State :=
  if bit v 0 then
    { s with time := { s.time with snap := now s :: (List.range 5).map (fun n => wholeNs (base s n).val) } }
  else s

/-- SNAP written with bit 0 set (R379). -/
def execSnap (v : Word) (s : State) : Host.Outcome State Fault Refusal := .next (takeSnap v s)

/-- The fraction of TB4's increment written: it takes effect with the whole part, and a disciplined TB4 ignores it (R353). -/
def writeIncLo (v : Word) (s : State) : State :=
  if s.cfg.time.discipline then s else { s with time := { s.time with incLo := v } }

/-- The whole part of TB4's increment written: the new increment applies from the next TICK (R353). -/
def writeIncHi (v : Word) (s : State) : State :=
  if s.cfg.time.discipline then s else setBase s 4 { base s 4 with inc := wide s.time.incLo v }

/-- TB4_INC_HI written (R353). -/
def execTb4IncHi (v : Word) (s : State) : Host.Outcome State Fault Refusal := .next (writeIncHi v s)

/-! ### Changes of state of TB0-TB3 -/

/-- Consecutive valid inputs that lock a base: 1 from holdover, else 8 for PTP and 4 for PPS and herd time (R350, R351). -/
def inputsToLock (s : State) (n : Nat) : Nat := if (base s n).state = 2 then 1 else if n < 2 then 8 else 4

/-- A base may lock now: its inputs stand, TB2 has a time of day (R366), TB3 a source other than the device (R368). -/
def mayLock (s : State) (n : Nat) : Bool :=
  (base s n).state != 1 && inputsToLock s n ≤ (base s n).good
    && (n != 2 || s.time.tod.isSome) && (n != 3 || s.cfg.time.herdSource != ownHid s)

/-- What is measured in a base moves with its step: the PTP stamps held, and the second of the last pulse. -/
def shiftMeasured (n : Nat) (d : Int) (s : State) : State :=
  if n < 2 then
    let v := ptpRun s n
    setPtp s n { v with ms := v.ms.map (· + d), asked := v.asked.map (· + BitVec.ofInt 64 d),
                        awaiting := v.awaiting.map (fun e => (e.1, e.2.1 + BitVec.ofInt 64 d, e.2.2)) }
  else if n = 2 then { s with time := { s.time with ppsSec := s.time.tod.getD 1 - 1 } }
  else s

/-- The one step of a base: by what its source last gave less what the base showed (R352). -/
def stepBase (n : Nat) (s : State) : State :=
  let v := base s n
  shiftMeasured n v.err (setBase s n { v with val := v.val + fromNs (BitVec.ofInt 64 v.err), stepped := true, err := 0 })

/-- A base locks: stepped at its first lock after reset or TB_REARM, else by rate alone (R351, R352). -/
def lockBase (n : Nat) (s : State) : State :=
  let again := (base s n).stepped
  let s1 := if again then s else stepBase n s
  tryFirstLock (reselect (if again then none else some n) (setBaseState n 1 s1))

/-- So many nanoseconds have passed since the last input of a base. -/
def quietFor (s : State) (n ns : Nat) : Bool := reached s ((base s n).last + BitVec.ofNat 64 ns)

/-- A locked base goes into holdover (R350): no Sync for three Sync intervals, one pulse missing, or no herd time message for
three times HT_INTERVAL. -/
def holdDue (s : State) (n : Nat) : Bool :=
  if n < 2 then quietFor s n (3 * logNs (ptpRun s n).syncLog)
  else if n = 2 then 1 ≤ s.time.ppsMiss
  else quietFor s 3 (3000000 * s.cfg.time.htInterval)

/-- A base is lost (R350): no Sync for PTP_TIMEOUT, three pulses missing, no herd time message for 1 s or its source
unreachable. -/
def lossDue (s : State) (n : Nat) : Bool :=
  if n < 2 then quietFor s n (1000000000 * (ptpCfg s n).timeout)
  else if n = 2 then 3 ≤ s.time.ppsMiss
  else quietFor s 3 1000000000 || (routeLink s s.cfg.time.herdSource).isNone

/-- A base in holdover keeps its increment (R351). -/
def holdBase (n : Nat) (s : State) : State :=
  if (base s n).state = 1 then reselect none (setBaseState n 2 s) else s

/-- A base becomes lost (R351). -/
def loseBase (n : Nat) (s : State) : State :=
  if (base s n).state = 1 || (base s n).state = 2 then
    let s1 := setBase s n { base s n with good := 0 }
    reselect none (setBaseState n 3 s1)
  else s

/-- TB_STATE_CHANGE (R350, R351, R354): a base becomes locked, holdover or lost, and ST reselects. A change whose
condition does not hold leaves the state as it is. -/
def execTbStateChange (b : Fin 4) (x : BaseIn) (s : State) : Host.Outcome State Fault Refusal :=
  .next (match x.state with
    | 0 => s
    | 1 => if mayLock s b.val then lockBase b.val s else s
    | 2 => if holdDue s b.val then holdBase b.val s else s
    | _ => if lossDue s b.val then loseBase b.val s else s)

/-- REVERT_DELAY_EXPIRY (R358). -/
def execRevertDelayExpiry (s : State) : Host.Outcome State Fault Refusal := .next (reselect none s)

/-- FIRST_WAIT_EXPIRY (R355). -/
def execFirstWaitExpiry (s : State) : Host.Outcome State Fault Refusal := .next (tryFirstLock s)

/-! ### PPS -/

/-- The second boundary of a pulse: the edge's stamp in TB2 less PPS_DELAY (R366). -/
def pulseInstant (s : State) : Int := ((wholeNs (base s 2).val).toNat : Int) - s.cfg.time.ppsDelay.toInt

/-- The distance of a pulse from the nearest whole second of TB2, in ns: signed. -/
def pulseError (s : State) : Int :=
  let f := pulseInstant s % 1000000000
  if f < 500000000 then f else f - 1000000000

/-- A pulse is accepted: every one before TB2 first locks, then only within 10 us of a whole second (R366). -/
def pulseAccepted (s : State) : Bool := !(base s 2).stepped || (pulseError s).natAbs ≤ 10000

/-- What a pulse says TB2 should show less what it shows: the time of day before its step, the nearest second after it. -/
def pulseOffset (s : State) : Int :=
  if (base s 2).stepped then -pulseError s else 1000000000 * (s.time.tod.getD 0 : Int) - pulseInstant s

/-- An accepted pulse: counted, one more second, and TB2 steered by it once it has been stepped (R366, R352). -/
def takePulse (s : State) : State :=
  let s1 := countTime 3 (discipline 2 (pulseOffset s) (noteInput 2 true s))
  { s1 with time := { s1.time with
    ppsMiss := 0, tod := s1.time.tod.map (· + 1), ppsSec := ((pulseInstant s - pulseError s) / 1000000000).toNat } }

/-- PPS_IN_EDGE (R366): an edge of the chosen polarity with PPS_IN enabled. -/
def execPpsInEdge (falling : Bool) (s0 : State) : Host.Outcome State Fault Refusal :=
  let s := mirrorOut (.pps falling) s0
  .next (if s.cfg.time.ppsIn && falling = s.cfg.time.ppsFalling then
    (if pulseAccepted s then takePulse s else countTime 4 s)
  else s)

/-- The whole second of TB2 whose window, 10 us to either side, was the last to end. -/
def lastWindow (s : State) : Nat := ((wholeNs (base s 2).val).toNat - 10001) / 1000000000

/-- A window of TB2 has ended with no accepted pulse and has not been counted: windows since the last accepted pulse less those
counted as missing (R366). -/
def pulseMissed (s : State) : Bool :=
  s.cfg.time.ppsIn && (base s 2).stepped && decide (s.time.ppsSec + s.time.ppsMiss < lastWindow s)

/-- PPS_MISSING (R366): a window of TB2 has ended with no accepted pulse. -/
def execPpsMissing (s : State) : Host.Outcome State Fault Refusal :=
  .next (if pulseMissed s then
    let s1 := setBase s 2 { base s 2 with good := 0 }
    raise .ppsMissing { s1 with time := { s1.time with ppsMiss := s1.time.ppsMiss + 1 } }
  else s)

/-- This TICK begins a whole second of ST plus the PPS_OUT offset (R367). -/
def ppsOutDue (s : State) : Bool :=
  s.cfg.time.ppsOut && s.time.stLocked && decide (((now s).toNat - s.cfg.time.ppsOffset.toInt) % 1000000000 < 10)

/-- The level of PPS_OUT: high for the width set from each whole second of ST plus its offset, low until ST's first lock, and
not driven by a member without the reins (R367, R401). -/
def ppsOutLevel (s : State) : Bool :=
  s.cfg.time.ppsOut && s.time.stLocked && s.tan.outputs
    && decide (((now s).toNat - s.cfg.time.ppsOffset.toInt) % 1000000000 < 1000 * s.cfg.time.ppsWidth)

/-- PPS_OUT_PULSE (R367); a member without the reins drives nothing (R401). -/
def execPpsOutPulse (s : State) : Host.Outcome State Fault Refusal :=
  .next (if ppsOutDue s && s.tan.outputs then { s with out := { s.out with ppsOut := s.out.ppsOut ++ [now s] } } else s)

/-! ### Herd time -/

/-- The links that are up, rising. -/
def linksUp (s : State) : List Nat := (List.range 4).filter (fun l => (hlink s l).up)

/-- The time a herd time message carries: ST at the source, TB3 at a member whose TB3 is locked (R368). -/
def herdTimeOf (s : State) : Option (BitVec 64) :=
  if s.cfg.time.herdSource = ownHid s then some (now s)
  else if (base s 3).state = 1 then some (wholeNs (base s 3).val) else none

/-- HERD_TIME_SEND (R368): every HT_INTERVAL one message on each link that is up. -/
def execHerdTimeSend (s : State) : Host.Outcome State Fault Refusal :=
  .next (match herdTimeOf s with
    | some t =>
      if periodDue .herdTime (1000000 * s.cfg.time.htInterval) s then
        (linksUp s).foldl (fun u l => originate (.time l t) u) (ranNow .herdTime s)
      else s
    | none => s)

/-- A herd time message on the link towards the source, with that link's stored delay (R368). -/
def takeHerdTime (d : Nat) (ts age : BitVec 64) (s : State) : State :=
  let target := ts + BitVec.ofNat 64 d + age
  countTime 5 (discipline 3 (target - wholeNs (base s 3).val).toInt (noteInput 3 true s))

/-- HERD_TIME_MESSAGE (R368): taken only from the link used towards the source; a link without a delay is counted. -/
def execHerdTimeMessage (l : Fin 4) (ts age : BitVec 64) (s0 : State) : Host.Outcome State Fault Refusal :=
  let s := mirrorHerd (.time l ts age) s0
  .next (if s.cfg.time.herdSource = ownHid s || routeLink s s.cfg.time.herdSource != some l.val then s
    else match (hlink s l.val).delay with
      | some d => takeHerdTime d ts age s
      | none => countTime 6 s)

/-! ### Delay survey -/

/-- The link up to a neighbour, found by the recorded neighbour herd ID (R369). -/
def linkTo (s : State) (h : Nat) : Option Nat :=
  (List.range 4).find? (fun l => (hlink s l).up && (hlink s l).neighbour = some h)

/-- The links towards a herd ID marked STALE, their values kept (R370). -/
def markStale (h : Nat) (s : State) : State :=
  (List.range 4).foldl (fun t l => if (hlink t l).neighbour = some h && (hlink t l).delay.isSome then
    setHlink t l { hlink t l with stale := true, surveys := [] } else t) s

/-- Positions of a herd ID in a path. -/
def placesIn (path : List Nat) (h : Nat) : List Nat := (List.range path.length).filter (fun i => path.getD i 64 = h)

/-- The values of this device that a break at position i leaves STALE: those of the link from path[i] onwards and of every
link beyond it, at either end (R370). -/
def staleBeyond (path : List Nat) (i : Nat) (s : State) : State :=
  ((placesIn path (ownHid s)).filter (fun j => i ≤ j)).foldl (fun t j =>
    let t1 := if j + 1 < path.length then markStale (path.getD (j + 1) 64) t else t
    if i < j then markStale (path.getD (j - 1) 64) t1 else t1) s

/-- A survey's end as this device learns of it (R369, R370): values beyond the break are STALE; the first device of the path
sets the trouble bit, posts the event and answers the command. -/
def endSurvey (path : List Nat) (brk : Option Nat) (s : State) : State :=
  let s1 := match brk with
    | some i => staleBeyond path i s
    | none => s
  match s.time.survey with
  | none => s1
  | some v =>
    if v.path != path then s1
    else
      let s2 := { s1 with time := { s1.time with survey := none } }
      if v.pos != 0 then s2
      else match brk with
        | none => complete v.queue v.tag .ok [0#32, 0#32, w32 (path.length - 1)] (postEvent 0x0903 0 0#32 s2)
        | some i => complete v.queue v.tag .ok [1#32, w32 i, w32 i] (postEvent 0x0903 1 (w32 i) (raise .surveyPartial s2))

/-- This device is where a survey ends: it says so to the first device of the path and, at a break, to those beyond it. -/
def finishSurvey (path : List Nat) (brk : Option Nat) (s : State) : State :=
  let others := (path.headD 0 :: (match brk with
    | some i => path.drop (i + 1)
    | none => [])).eraseDups.filter (fun h => h != ownHid s)
  endSurvey path brk (others.foldl (fun t h => originate (.surveyEnd h path brk) t) s)

/-- This device takes its place in a survey: it probes its link to the next device of the path, by the recorded neighbour
herd ID; the survey ends at the last device, and breaks where no link is up (R369, R370). -/
def beginSurvey (v : Survey) (s : State) : State :=
  let s1 := { s with time := { s.time with survey := some v } }
  if v.path.length ≤ v.pos + 1 then finishSurvey v.path none s1
  else match linkTo s1 (v.path.getD (v.pos + 1) 64) with
    | some l => originate (.probe l (now s1)) (setHlink (ranNow .probe s1) l { hlink s1 l with surveys := [] })
    | none => finishSurvey v.path (some v.pos) s1

/-- The path that the words of SURVEY_RUN give. -/
def surveyPath (c : Packet) : List Nat := (pwords c 1 (pn c 0)).map (·.toNat)

def surveyRunSpec : CmdSpec :=
  { op := 0x0909
    len := fun c => if 2 ≤ pn c 0 && pn c 0 ≤ 64 then some (1 + pn c 0) else none
    countAt := some 0
    valid := fun c => (surveyPath c).all (· ≤ 63)
    here := fun c s => (surveyPath c).head? = some (ownHid s)
    perm := fun _ _ => none
    ready := fun _ s => s.time.survey.isNone
    run := fun c s =>
      runsOn (beginSurvey { path := surveyPath c, pos := 0, queue := c.queue.val, tag := c.tag } s) }

/-- SURVEY_RUN (R369, R370): the reply follows the survey; it breaks at once without a link to the next device. -/
def execSurveyRun (c : Packet) (s : State) : Host.Outcome State Fault Refusal := runCommand surveyRunSpec c s

def surveyReadSpec : CmdSpec := plainSpec 0x090A 1 (fun c => within c 0 0 3) (fun c s =>
  let v := hlink s (pn c 0)
  doneWith [w32 (v.delay.getD 0), w32 (flag v.delay.isSome + 2 * flag v.stale), w32 (v.neighbour.getD 0)] s)

/-- SURVEY_READ (R384). -/
def execSurveyRead (c : Packet) (s : State) : Host.Outcome State Fault Refusal :=
  runCommand surveyReadSpec c s

/-- The delay of a probe pair from its four stamps (R369). -/
def probeDelay (t1 t2 t3 t4 : BitVec 64) : Int := ((t4 - t1).toInt - (t3 - t2).toInt) / 2

/-- An integer inserted in rising order. -/
def insertInt (v : Int) : List Int → List Int
  | [] => [v]
  | x :: r => if v ≤ x then v :: x :: r else x :: insertInt v r

/-- The median of a list: of an even number, the mean of the two in the middle (log 20). -/
def median (l : List Int) : Int :=
  let o := l.foldr insertInt []
  (o.getD ((o.length - 1) / 2) 0 + o.getD (o.length / 2) 0) / 2

/-- A delay stored on a link clears its STALE mark (R369). -/
def storeDelay (l d : Nat) (s : State) : State :=
  setHlink s l { hlink s l with delay := some d, stale := false, surveys := [] }

/-- The link that this device measures now: its link to the next device of the survey's path, until it is measured. -/
def surveyedLink (s : State) : Option Nat :=
  match s.time.survey with
  | some v => if v.measured then none else linkTo s (v.path.getD (v.pos + 1) 64)
  | none => none

/-- The link is measured: its delay stored, and the survey passed on with it; a device that is not the first has then done its
part (R369). -/
def passSurvey (v : Survey) (l d : Nat) (s : State) : State :=
  let s1 := originate (.survey (v.path.getD (v.pos + 1) 64) v.path (v.pos + 1) d) (storeDelay l d s)
  { s1 with time := { s1.time with survey := if v.pos = 0 then some { v with measured := true } else none } }

/-- A probe pair answered on the link measured now: the next probe leaves, or at the sixteenth the median is stored and the
survey passes on (R369). -/
def takeProbe (l : Nat) (d : Int) (s : State) : State :=
  match s.time.survey with
  | none => s
  | some v =>
    if surveyedLink s != some l then s
    else
      let ds := (hlink s l).surveys ++ [d]
      if ds.length < 16 then originate (.probe l (now s)) (setHlink (ranNow .probe s) l { hlink s l with surveys := ds })
      else passSurvey v l (median ds).toNat s

/-- A survey passed on by the device before this one in its path: the delay it measured is stored on the link back to it, and
this device measures the next link (R369). One that already takes part in a survey breaks the new one (log 20). -/
def joinSurvey (path : List Nat) (pos d : Nat) (s : State) : State :=
  let s1 := match linkTo s (path.getD (pos - 1) 64) with
    | some l => storeDelay l d s
    | none => s
  if s1.time.survey.isSome then
    if pos + 1 < path.length then finishSurvey path (some pos) s1 else finishSurvey path none s1
  else beginSurvey { path := path, pos := pos } s1

/-- No probe has been answered within 1 ms: the survey breaks here (R370). -/
def probeLost (s : State) : State :=
  match s.time.survey with
  | some v => if v.measured || !periodDue .probe 1000000 s then s else finishSurvey v.path (some v.pos) s
  | none => s

/-- SURVEY_PROBE (R369, R370). -/
def execSurveyProbe (x : ProbeIn) (s0 : State) : Host.Outcome State Fault Refusal :=
  let s := mirrorHerd (.survey x) s0
  .next (match x with
    | .request l t1 t2 => originate (.probeAnswer l.val t1 t2 (now s)) s
    | .pair l t1 t2 t3 t4 => takeProbe l.val (probeDelay t1 t2 t3 t4) s
    | .unanswered => probeLost s
    | .passed path pos d => joinSurvey path pos d s
    | .ended path brk => endSurvey path brk s)

/-! ### Sleep oscillator -/

/-- The nominal sleep period in 2^-16 ns (R371, R379). -/
def nominalPeriod : Word := 0x77359400#32

/-- The period lies within 500 ppm of the nominal one (R371). -/
def periodGood (p : Word) : Bool := (p.toNat : Int) - nominalPeriod.toNat ≤ 1000000 && nominalPeriod.toNat - (p.toNat : Int) ≤ 1000000

/-- SLEEP_CALIBRATION (R371): outside STALL, the measured period is published. -/
def execSleepCalibration (period : Word) (s : State) : Host.Outcome State Fault Refusal :=
  .next (if s.dev.mode = .stall then s
    else
      let s1 := { s with time := { s.time with sleepPeriod := period } }
      if periodGood period then s1 else raise .sleepCal s1)

/-- The sleep period that make-up uses (R371). -/
def makeUpPeriod (s : State) : Nat :=
  if periodGood s.time.sleepPeriod then s.time.sleepPeriod.toNat else nominalPeriod.toNat

/-- What N sleep cycles add to a 64.32 value: N periods of 2^-16 ns (R372). -/
def makeUpOf (s : State) (n : Nat) : BitVec 96 := BitVec.ofNat 96 (n * makeUpPeriod s * 65536)

/-- ST and TB0-TB4 after N cycles of STALL (R372): TB0-TB3 that were locked are in holdover, and ST reselects (R354).
The time has passed, so the ledger and the buckets see it pass. -/
def makeUpTime (n : Nat) (s : State) : State :=
  let d := makeUpOf s n
  let s1 := (List.range 5).foldl (fun t i => setBase t i { base t i with val := (base t i).val + d }) s
  let s2 := (List.range 4).foldl (fun t i => if (base t i).state = 1 then setBaseState i 2 t else t) s1
  reselect none (setSt (s2.time.st + d) { s2 with time := { s2.time with stopped := false } })

end Sys2Proof.Machine
end

