-- ==== Sys2Proof/Machine/GaitTimers.lean ====
section
/-! DEFINITION. The sixteen gait timers (R373-R378, R381-R383). -/

namespace Sys2Proof.Machine

/-- Gait timer t. -/
def gait (s : State) (t : Nat) : Gait := tabGet s.gait t {}

/-- The state with gait timer t replaced. -/
def setGait (s : State) (t : Nat) (v : Gait) : State := { s with gait := tabSet s.gait t v }

/-- GT_CTRL.ENABLE (R382). -/
def gtEnable (v : Gait) : Bool := bit v.ctrl 0

/-- GT_CTRL.MODE (R382). -/
def gtMode (v : Gait) : Nat := bits v.ctrl 2 1

/-- GT_CTRL.PRESCALE (R382). -/
def gtPrescale (v : Gait) : Nat := bits v.ctrl 10 3

/-- GT_CTRL.OUT (R382). -/
def gtOut (v : Gait) : Nat := bits v.ctrl 13 11

/-- GT_CTRL.ACTION (R382). -/
def gtAction (v : Gait) : Nat := bits v.ctrl 15 14

/-- GT_CTRL.CAP_SRC (R382). -/
def gtCapSrc (v : Gait) : Nat := bits v.ctrl 18 16

/-- GT_CTRL.CAP_EDGE (R382). -/
def gtCapEdge (v : Gait) : Nat := bits v.ctrl 20 19

/-- GT_CTRL.VECTOR (R382). -/
def gtVector (v : Gait) : Nat := bits v.ctrl 26 21

/-- GT_STATUS.DOWN (R383). -/
def gtDown (v : Gait) : Bool := bit v.status 4

/-- Bits of GT_CTRL that keep what is written: CLEAR acts and [31:30] read as zero (R382). -/
def gtCtrlMask : Word := 0x1FFFFFFF#32

/-- The vector raised when it is not zero and the interrupt is enabled (R378). -/
def gtIrq (v : Gait) (on : Bool) (s : State) : State := if on && gtVector v != 0 then msi (gtVector v) s else s

/-- A match is due: the count equals GT_COMPARE and has not been served; in up/down mode only within GT_TOP (R374, R375). -/
def matchDue (v : Gait) : Bool :=
  gtEnable v && !v.matched && v.count = v.compare && (gtMode v < 2 || (gtMode v = 2 && v.compare ≤ v.top))

/-- The output after a match in one-shot or periodic mode (R382). -/
def matchLevel (v : Gait) : Bool :=
  match gtAction v with
  | 0 => true
  | 1 => false
  | 2 => !v.level
  | _ => true

/-- A timer after its match (R374): one-shot clears ENABLE, periodic adds its interval. -/
def matched (v : Gait) : Gait :=
  let v1 := { v with matched := true, status := setBit v.status 0 true }
  match gtMode v with
  | 0 => { v1 with ctrl := setBit v.ctrl 0 false, level := matchLevel v }
  | 1 => { v1 with compare := v.compare + v.interval, level := matchLevel v }
  | _ => v1

/-- Bits of GT_STATUS that hardware sets at an instant, remembered against a write of 1 at that same instant (R8). -/
def noteGt (t : BitVec 64) (b : Word) (v : Gait) : Gait :=
  { v with setAt := t, setNow := (if v.setAt = t then v.setNow else 0#32) ||| b }

/-- The match of timer t, when one is due. -/
def serveMatch (t : Nat) (s : State) : State :=
  let v := gait s t
  if matchDue v then gtIrq v (bit v.ctrl 27) (setGait s t (noteGt (now s) 1#32 (matched v))) else s

/-- GT_MATCH (R374, R375): nothing happens unless the count equals GT_COMPARE. -/
def execGtMatch (t : Fin 16) (s : State) : Host.Outcome State Fault Refusal := .next (serveMatch t.val s)

/-- The turning point of an up/down timer: down from GT_TOP, up from 0 (R374). -/
def turned (v : Gait) : Gait :=
  if gtEnable v && gtMode v = 2 then
    if !gtDown v && v.top ≤ v.count then { v with status := setBit v.status 4 true }
    else if gtDown v && v.count = 0#32 then { v with status := setBit v.status 4 false }
    else v
  else v

/-- UP_DOWN_TURNING_POINT (R374). -/
def execUpDownTurningPoint (t : Fin 16) (s : State) : Host.Outcome State Fault Refusal :=
  .next (setGait s t.val (turned (gait s t.val)))

/-- The count after one prescaled step (R374). -/
def countStep (v : Gait) : Gait :=
  let u := turned v
  let c := if gtMode u = 2 then (if gtDown u then (if u.count = 0#32 then 0#32 else u.count - 1) else
      (if u.top = 0#32 then 0#32 else u.count + 1)) else u.count + 1
  { u with count := c, matched := false, level := if gtMode u < 2 && gtAction u = 3 then false else u.level }

/-- A timer after one TICK: it counts at TICK / (PRESCALE + 1) (R374); a one-shot pulse of one count ends (R382). -/
def tickGait (v : Gait) : Gait :=
  let full := gtPrescale v ≤ v.pre
  if gtEnable v && gtMode v < 3 then
    if full then countStep { v with pre := 0 } else { v with pre := v.pre + 1 }
  else if gtMode v = 0 && gtAction v = 3 && v.matched && v.level then
    if full then { v with pre := 0, level := false } else { v with pre := v.pre + 1 }
  else v

/-- Every timer after one TICK; a match on the present count is served as the count ends, so that a write of GT_COUNT in the
same count still cancels it (R375, R376). -/
def tickGaits (s : State) : State :=
  let s1 := (s.gait.filter (fun e => gtPrescale e.2 ≤ e.2.pre)).foldl (fun u e => serveMatch e.1 u) s
  { s1 with gait := s1.gait.map (fun e => (e.1, tickGait e.2)) }

/-- One TICK, 10 ns: the time bases, ST, the sleep counter and the gait timers; in STALL the sleep counter alone; nothing
without VIN or while RESET_N is low (R350, R371, R372, R374, R513). -/
def tick (s : State) : State :=
  if !s.dev.vin || s.dev.resetLow then s
  else if s.time.stopped then tickSleep s
  else tickGaits (tickSleep (tickTime s))

/-- The level a timer gives to its output (R374, R382). -/
def gtLevel (v : Gait) : Bool :=
  if gtMode v = 2 then (gtEnable v && v.compare ≤ v.count) != bit v.ctrl 14 else v.level

/-- GT_OUT[k]: driven by the lowest-numbered timer that selects it, low while none does (R378). -/
def gtOutput (s : State) (k : Nat) : Bool :=
  match (List.range 16).find? (fun t => gtOut (gait s t) = k + 1) with
  | some t => gtLevel (gait s t)
  | none => false

/-- The edge is one the timer captures (R382). -/
def edgeSelected (v : Gait) (falling : Bool) : Bool :=
  match gtCapEdge v with
  | 0 => !falling
  | 1 => falling
  | 2 => true
  | _ => false

/-- A capture (R377): an unread one is overwritten and marked OVERRUN. -/
def capture (t : Nat) (s : State) : State :=
  let v := gait s t
  let twice := bit v.status 1
  let v1 := { v with capture := v.count, status := setBit (if twice then setBit v.status 2 true else v.status) 1 true }
  let s1 := gtIrq v (bit v.ctrl 28) (setGait s t (if twice then noteGt (now s) 4#32 v1 else v1))
  if twice then raise .gtOverrun s1 else s1

/-- GT_CAP_EDGE (R377): an edge on the timer's selected input; none is taken in STALL (R373). -/
def execGtCapEdge (t : Fin 16) (falling : Bool) (s0 : State) : Host.Outcome State Fault Refusal :=
  let s := mirrorOut (.capture t falling) s0
  let v := gait s t.val
  .next (if 1 ≤ gtCapSrc v && gtCapSrc v ≤ 4 && edgeSelected v falling && s.dev.mode != .stall then capture t.val s else s)

/-- A write of GT_CTRL: with CLEAR the count goes to 0 and the output low (R382). -/
def writeGtCtrl (v : Gait) (w : Word) : Gait :=
  let v1 := { v with ctrl := w &&& gtCtrlMask }
  if bit w 29 then
    { v1 with count := 0#32, pre := 0, level := false, matched := false, status := setBit v1.status 4 false }
  else v1

/-- GT_COUNT written: it loads the count, and cancels a match of the same count (R376). -/
def writeCount (t : Nat) (v : Word) (s : State) : State := setGait s t { gait s t with count := v, matched := false }

/-- GT_COMPARE written: a match on the old value in the same count stands, and the written value replaces what the
periodic add would have given (R376). -/
def writeCompare (t : Nat) (v : Word) (s : State) : State :=
  let s1 := serveMatch t s
  setGait s1 t { gait s1 t with compare := v }

/-- GT_CLEAR (R382): a write of GT_CTRL with CLEAR set. -/
def execGtClear (t : Fin 16) (v : Word) (s : State) : Host.Outcome State Fault Refusal :=
  if bit v 29 then .next (setGait s t.val (writeGtCtrl (gait s t.val) v)) else .fault .illFormed

/-- GT_COUNT_WRITE (R376). -/
def execGtCountWrite (t : Fin 16) (v : Word) (s : State) : Host.Outcome State Fault Refusal := .next (writeCount t.val v s)

/-- GT_COMPARE_WRITE (R376). -/
def execGtCompareWrite (t : Fin 16) (v : Word) (s : State) : Host.Outcome State Fault Refusal := .next (writeCompare t.val v s)

/-- GT_CAPTURE read: CAP_FULL clears (R377). -/
def execGtCaptureRead (t : Fin 16) (s : State) : Host.Outcome State Fault Refusal :=
  let v := gait s t.val
  .next (recordRead (v.capture.setWidth 64) (setGait s t.val { v with status := setBit v.status 1 false }))

/-! ### Make-up at wake from STALL (R372, R373) -/

/-- TICKs that N sleep cycles make up. -/
def makeUpTicks (s : State) (n : Nat) : Nat := n * makeUpPeriod s / 655360

/-- A compare value that k counts from the present one pass. -/
def passed (v : Gait) (k : Nat) : Bool := let d := (v.compare - v.count).toNat; 0 < d && d ≤ k

/-- A periodic compare value moved by whole intervals until it lies ahead of the count (R373). -/
def aheadOf (compare interval count : Word) : Word :=
  if interval = 0#32 then compare
  else
    let behind := (count - compare).toNat
    compare + BitVec.ofNat 32 ((behind / interval.toNat + 1) * interval.toNat)

/-- The position of an up/down timer in its period, and the timer at a position. -/
def upDownAt (v : Gait) (k : Nat) : Gait :=
  let top := v.top.toNat
  if top = 0 then v
  else
    let pos := ((if gtDown v then 2 * top - v.count.toNat else v.count.toNat) + k) % (2 * top)
    if pos < top then { v with count := w32 pos, status := setBit v.status 4 false }
    else { v with count := w32 (2 * top - pos), status := setBit v.status 4 true }

/-- A timer that k counts were made up for, and whether a match was (R373). -/
def makeUpGait (v : Gait) (k : Nat) : Gait × Bool :=
  if gtMode v = 2 then ({ upDownAt v k with matched := false }, false)
  else if passed v k then
    let m := matched v
    let m1 := { m with status := setBit m.status 3 true }
    if gtMode v = 0 then ({ m1 with count := v.compare }, true)
    else
      let c := v.count + BitVec.ofNat 32 k
      ({ m1 with count := c, compare := aheadOf v.compare v.interval c, matched := false }, true)
  else ({ v with count := v.count + BitVec.ofNat 32 k, matched := false }, false)

/-- An enabled timer after a make-up of that many TICKs: whole prescaled counts, the rest carried (R372). -/
def makeUpTimer (ticks t : Nat) (s : State) : State :=
  let v := gait s t
  if gtEnable v && gtMode v < 3 then
    let total := v.pre + ticks
    let r := makeUpGait v (total / (gtPrescale v + 1))
    let v1 := { r.1 with pre := total % (gtPrescale v + 1) }
    gtIrq v (r.2 && bit v.ctrl 27) (setGait s t (if r.2 then noteGt (now s) 9#32 v1 else v1))
  else s

/-- Every enabled timer made up for N sleep cycles (R372). -/
def makeUpGaits (n : Nat) (s : State) : State :=
  (List.range 16).foldl (fun u t => makeUpTimer (makeUpTicks s n) t u) s

end Sys2Proof.Machine
end

