-- ==== Sys2Proof/Machine/Phy.lean ====
section
/-! DEFINITION. The chirp air interface (R70-R98, R507): symbol and airtime arithmetic, sync value, header, payload
coding, and the symbols of a frame. BW is given by its code 0-3 for 62.5, 125, 250 and 500 kHz. -/

namespace Sys2Proof.Machine

/-! ### Symbols (R70-R72, R76) -/

/-- Wide-bin mode (R71). -/
def wideBin (sf bw : Nat) : Bool := 9 + bw ≤ sf

/-- Bits of a payload symbol (R72). -/
def payloadBits (sf bw : Nat) : Nat := if wideBin sf bw then sf - 2 else sf

/-- Symbol time in microseconds: 2^SF / BW (R70). -/
def symbolUs (sf bw : Nat) : Nat := 2 ^ (sf + 4) / 2 ^ bw

/-- The value of a b-bit word before its shift: inverse Gray coding (R76). -/
def inverseGray : Nat → Nat → Nat
  | 0, _ => 0
  | b + 1, w =>
    let above := inverseGray b (w / 2)
    2 * above + (above % 2 + w % 2) % 2

/-- The symbol value of a b-bit word (R76). -/
def symbolValue (w b sf : Nat) : Nat := inverseGray b w * 2 ^ (sf - b)

/-- The word of a shift measured in 1/256 chip: rounded to the nearest multiple of 2^(SF - b) chips, a half upwards, then
modulo N (R76, R507; the unit of the measurement is the model's, log 104). -/
def symbolWord (k b sf : Nat) : Nat :=
  let q := (2 * k + 256 * 2 ^ (sf - b)) / (512 * 2 ^ (sf - b)) % 2 ^ b
  (q ^^^ (q >>> 1)) % 2 ^ b

/-! ### Sync value (R79, R80) -/

/-- The two sync symbols of a sync value (R79). -/
def syncSymbols (v : Byte) (sf : Nat) : List Nat :=
  let m := 2 ^ (sf - 4)
  [m * bits v 7 4 + m / 2, 2 ^ sf - m * bits v 3 0 - m / 2]

/-- The sync value of two shifts measured in 1/256 chip: each nibble the nearest integer, a half upwards, then modulo 16
(R80, R507). -/
def syncValue (k1 k2 sf : Nat) : Byte :=
  let m := 256 * 2 ^ (sf - 4)
  BitVec.ofNat 8 (k1 / m % 16 * 16 + (256 * 2 ^ sf - k2) / m % 16)

/-! ### Header (R81-R85) -/

/-- The remainder of a polynomial below degree k + 11 by g(x) = 0xC75, bits k - 1 .. 0 above x^11 taken in turn (R83). -/
def golayRem : Nat → Nat → Nat
  | 0, r => r
  | k + 1, r => golayRem k (if (r >>> (k + 11)) % 2 = 1 then r ^^^ (0xC75 <<< k) else r)

/-- How many bits of a number are set, of its lowest k. -/
def weight : Nat → Nat → Nat
  | 0, _ => 0
  | k + 1, v => v % 2 + weight k (v / 2)

/-- The extended Golay codeword of a 12-bit message (R83). -/
def golayEncode (m : Nat) : Nat :=
  let c := m <<< 11 ^^^ golayRem 12 (m <<< 11)
  c + weight 23 c % 2 * 2 ^ 23

/-- The message whose codeword lies within 3 bits of c: the one its message bits name, else the one a search finds;
none at 4 errors (R85). -/
def golayDecode (c : BitVec 24) : Option Nat :=
  let near := fun m => decide (weight 24 (golayEncode m ^^^ c.toNat) ≤ 3)
  if near (bits c 22 11) then some (bits c 22 11) else (List.range 4096).find? near

/-- LEN of a header (R81). -/
def hdrLen (h : BitVec 24) : Nat := bits h 7 0

/-- CR of a header (R81). -/
def hdrCr (h : BitVec 24) : Nat := bits h 9 8

/-- PILOT of a header (R81). -/
def hdrPilot (h : BitVec 24) : Bool := bit h 10

/-! ### Payload arithmetic (R88, R90, R92, R94, R96) -/

/-- Code blocks of a payload of L bytes (R88). -/
def codeBlocks (l : Nat) : Nat := (8 * (l + 2) + 127) / 128

/-- Codeword length of a code rate (R90). -/
def codeLen (cr : Nat) : Nat := if cr = 0 then 256 else if cr = 1 then 192 else 160

/-- Payload symbols N_ps (R92). -/
def payloadSymbols (sf bw cr l : Nat) : Nat :=
  (codeBlocks l * codeLen cr + payloadBits sf bw - 1) / payloadBits sf bw

/-- Header symbols N_hdr (R77). -/
def headerSymbols (sf : Nat) : Nat := (48 + sf - 3) / (sf - 2)

/-- Pilots N_p (R94). -/
def pilotSymbols (pilot : Bool) (nps : Nat) : Nat := if pilot then (nps - 1) / 16 else 0

/-- Symbols of a frame. -/
def frameSymbols (sf bw cr l nPre : Nat) (pilot : Bool) : Nat :=
  nPre + 4 + headerSymbols sf + payloadSymbols sf bw cr l + pilotSymbols pilot (payloadSymbols sf bw cr l)

/-- T_air in microseconds (R96); every symbol time is a whole number of them. -/
def airtime (sf bw cr l nPre : Nat) (pilot : Bool) : Nat := frameSymbols sf bw cr l nPre pilot * symbolUs sf bw

/-- PILOT of a frame the device sends: set above 64 payload symbols, else as asked (R95). -/
def pilotFor (sf bw cr l : Nat) (asked : Bool) : Bool := asked || 64 < payloadSymbols sf bw cr l

/-- The header of a frame (R81, R82). -/
def headerOf (l cr : Nat) (pilot : Bool) : BitVec 24 :=
  let low := BitVec.ofNat 16 (l % 256 + 256 * (cr % 4) + 1024 * flag pilot)
  BitVec.ofNat 24 (low.toNat + 65536 * (headerCrc low).toNat)

/-- What makes a header invalid, by the first check of R85 that fails: 1 Golay, 2 HCRC, 3 fields, 4 PILOT; 0 for none. -/
def headerFault (sf bw : Nat) (h : BitVec 24) : Nat :=
  if headerCrc (h.setWidth 16) != (h >>> 16).setWidth 8 then 2
  else if hdrLen h = 0 || hdrCr h = 3 || bits h 15 11 != 0 then 3
  else if !hdrPilot h && 64 < payloadSymbols sf bw (hdrCr h) (hdrLen h) then 4
  else 0

/-- A word whose first bit is the most significant. -/
def msbWord (l : List Bool) : Nat := l.foldl (fun w b => 2 * w + flag b) 0

/-- The bits of a b-bit word, most significant first. -/
def wordBits (b w : Nat) : List Bool := (List.range b).map (fun i => decide ((w >>> (b - 1 - i)) % 2 = 1))

/-- The hard decisions on header symbols: the 48 header bits of the measured shifts (R76, R84). -/
def headerSoft (sf : Nat) (shifts : List Nat) : List Bool :=
  (shifts.flatMap (fun k => wordBits (sf - 2) (symbolWord k (sf - 2) sf))).take 48

/-- The header that the measured shifts of the header symbols carry, and the check it fails (R83-R85). -/
def headerDecode (sf bw : Nat) (shifts : List Nat) : Nat × BitVec 24 :=
  let h := headerSoft sf shifts
  match golayDecode (BitVec.ofNat 24 (msbWord (h.take 24))), golayDecode (BitVec.ofNat 24 (msbWord (h.drop 24))) with
  | some m0, some m1 =>
    let h := BitVec.ofNat 24 (m0 + 4096 * m1)
    (headerFault sf bw h, h)
  | _, _ => (1, 0#24)

/-! ### The symbols of a frame (R77, R84, R87-R94) -/

/-- The 48 header bits (R84). -/
def headerBits (h : BitVec 24) : List Bool :=
  wordBits 24 (golayEncode (bits h 11 0)) ++ wordBits 24 (golayEncode (bits h 23 12))

/-- The header symbols (R84): words of SF - 2 bits, zero beyond the last header bit. -/
def headerSymbolList (h : BitVec 24) (sf : Nat) : List Nat :=
  let hb := headerBits h
  (List.range (headerSymbols sf)).map (fun j =>
    symbolValue (msbWord ((List.range (sf - 2)).map (fun i => hb.getD (j * (sf - 2) + i) false))) (sf - 2) sf)

/-- One step of the whitening register: its output bit and next value (R89). -/
def whitenStep (s : Nat) : Nat := (s >>> 1) ||| (((s ^^^ (s >>> 5)) % 2) <<< 8)

/-- Bits whitened from register s on (R89). -/
def whiten (s : Nat) : List Bool → List Bool
  | [] => []
  | b :: r => (b != decide (s % 2 = 1)) :: whiten (whitenStep s) r

/-- The information bits of a payload: its bytes and CRC-16, low byte first, bit 0 first, zero-padded to whole blocks
(R87, R88). -/
def infoBits (l : List Byte) : List Bool :=
  let u := (l ++ leBytes 2 (crc16 l)).flatMap (fun b => (List.range 8).map (fun i => b.getLsbD i))
  u ++ List.replicate (codeBlocks l.length * 128 - u.length) false

/-- The bytes that de-whitened information bits carry, bit 0 first: the L payload bytes and their CRC-16; padding bits
are dropped (R87-R89). -/
def infoBytes (len : Nat) (x : List Bool) : List Byte :=
  let u := whiten 0x1FF x
  (List.range (len + 2)).map (fun i => BitVec.ofNat 8 (msbWord ((u.drop (8 * i)).take 8).reverse))

/-- Block rows of a code rate's base matrix (R90). -/
def codeRows (cr : Nat) : Nat := (codeLen cr - 128) / 16

/-- The base matrix entry in block row r and block column c, none for an empty block: the published rate-1/2 matrix, of
which the other rates take the top-left corner, with no parity block beyond column 8 + r and a non-empty one there
(R91). -/
def baseEntry (r c : Nat) : Option (BitVec 4) :=
  if c < 8 + r then Config.ldpcShift r c
  else if c = 8 + r then some ((Config.ldpcShift r c).getD 0)
  else none

/-- A 16-bit block times the identity matrix cyclically shifted right by s columns: bit i of the product is bit i + s of
the block, modulo 16 (R91). -/
def circulant (s : BitVec 4) (x : BitVec 16) : BitVec 16 := x.rotateRight s.toNat

/-- The sum of block row r of the parity-check matrix over the first n block columns of a codeword (R90, R91). -/
def checkRow (v : List (BitVec 16)) (r n : Nat) : BitVec 16 :=
  (List.range n).foldl (fun a c => match baseEntry r c with
    | some s => a ^^^ circulant s (v.getD c 0)
    | none => a) 0

/-- A codeword with the parity block of row r after it: the block that makes the row's sum zero (R91). -/
def addParity (v : List (BitVec 16)) (r : Nat) : List (BitVec 16) :=
  v ++ [(checkRow v r (8 + r)).rotateLeft ((Config.ldpcShift r (8 + r)).getD 0).toNat]

/-- The codeword of a code rate over 8 information blocks, its parity solved row by row (R90, R91). -/
def encodeBlocks (rows : Nat) (x : List (BitVec 16)) : List (BitVec 16) := (List.range rows).foldl addParity x

/-- Every parity check of a codeword is met: H times v is zero (R90). -/
def checksMet (rows : Nat) (v : List (BitVec 16)) : Bool :=
  (List.range rows).all (fun r => checkRow v r (8 + rows) = 0)

/-- The block of 16 bits that starts at bit 16 c, its first bit as bit 0. -/
def block16 (x : List Bool) (c : Nat) : BitVec 16 := BitVec.ofNat 16 (msbWord ((x.drop (16 * c)).take 16).reverse)

/-- The bits of a block, bit 0 first. -/
def blockBits (b : BitVec 16) : List Bool := (List.range 16).map (fun i => b.getLsbD i)

/-- The coded stream: each block of 128 whitened bits followed by its parity (R89-R91). -/
def codedBits (cr : Nat) (l : List Byte) : List Bool :=
  let w := whiten 0x1FF (infoBits l)
  (List.range (codeBlocks l.length)).flatMap (fun c =>
    let x := (w.drop (128 * c)).take 128
    (encodeBlocks (codeRows cr) ((List.range 8).map (block16 x))).flatMap blockBits)

/-- Payload symbol s of a coded stream v of n bits over N_ps symbols (R92). -/
def payloadSymbol (v : List Bool) (n nps b sf s : Nat) : Nat :=
  let w := (List.range b).foldl (fun w q => w + flag (v.getD ((q * nps + s) % n) false) * 2 ^ ((q + s) % b)) 0
  symbolValue w b sf

/-- The payload symbols with their pilots: a 0 chirp after symbol 16m - 1 for 16m < N_ps (R92, R94). -/
def payloadSymbolList (l : List Byte) (sf bw cr : Nat) (pilot : Bool) : List Nat :=
  let n := codeBlocks l.length * codeLen cr
  let b := payloadBits sf bw
  let nps := payloadSymbols sf bw cr l.length
  let v := codedBits cr l
  (List.range nps).flatMap (fun s =>
    let k := payloadSymbol v n nps b sf s
    if pilot && (s + 1) % 16 = 0 && s + 1 < nps then [k, 0] else [k])

/-- The symbols of a frame in order: preamble, two down-chirps, sync, header, payload with its pilots (R77). -/
def frameChirps (l : List Byte) (sync : Byte) (sf bw cr nPre : Nat) (pilot : Bool) : List Chirp :=
  List.replicate nPre (.up 0) ++ [.down, .down] ++ (syncSymbols sync sf).map .up
    ++ (headerSymbolList (headerOf l.length cr pilot) sf).map .up ++ (payloadSymbolList l sf bw cr pilot).map .up

/-- The start of symbol i after the start of the frame, in microseconds (R77). -/
def symbolStart (sf bw i : Nat) : Nat := i * symbolUs sf bw

/-- The effective ramp length in nanoseconds: min(RAMP_LEN, T_sym / 4) (R97). -/
def rampNs (rampUs sf bw : Nat) : Nat := min (1000 * rampUs) (250 * symbolUs sf bw)

end Sys2Proof.Machine
end

