-- ==== Sys2Proof/Machine/RxOps.lean ====
section
/-! DEFINITION. What the receive array shares: settings of plains and ports, search load (R125), the mode that follows
from the configuration (R447), record words and record posting (R143-R146), track contexts (R126) and marks (R145). -/

namespace Sys2Proof.Machine

/-! ### Settings -/

/-- Receive settings of plain p (R516). -/
def plainCfg (s : State) (p : Nat) : PlainCfg := tabGet s.cfg.rx.plains p { recQ := 34 + p }

/-- Plain p with these receive settings. -/
def setPlainCfg (s : State) (p : Nat) (v : PlainCfg) : State :=
  { s with cfg := { s.cfg with rx := { s.cfg.rx with plains := tabSet s.cfg.rx.plains p v } } }

/-- Settings of port RPn. -/
def portCfg (s : State) (n : Nat) : PortCfg := tabGet s.cfg.rx.ports n {}

/-- Port n with these settings. -/
def setPortCfg (s : State) (n : Nat) (v : PortCfg) : State :=
  { s with cfg := { s.cfg with rx := { s.cfg.rx with ports := tabSet s.cfg.rx.ports n v } } }

/-- Settings of device chain d. -/
def chainCfg (s : State) (d : Nat) : ChainCfg := tabGet s.cfg.rx.chains d {}

/-- Device chain d with these settings. -/
def setChainCfg (s : State) (d : Nat) (v : ChainCfg) : State :=
  { s with cfg := { s.cfg with rx := { s.cfg.rx with chains := tabSet s.cfg.rx.chains d v } } }

/-- Port n as it runs. -/
def portRun (s : State) (n : Nat) : Port := tabGet s.rx.ports n {}

/-- Port n in this run state. -/
def setPort (s : State) (n : Nat) (v : Port) : State := { s with rx := { s.rx with ports := tabSet s.rx.ports n v } }

/-- Receive state of plain p. -/
def rxPlain (s : State) (p : Nat) : RxPlain := tabGet s.rx.plains p {}

/-- Plain p in this receive state. -/
def setRxPlain (s : State) (p : Nat) (v : RxPlain) : State :=
  { s with rx := { s.rx with plains := tabSet s.rx.plains p v } }

/-- Receive counter i of plain p raised by one (R147, R149). -/
def countRx (i p : Nat) (s : State) : State :=
  let v := rxPlain s p
  setRxPlain s p { v with counters := listMod v.counters i (fun n => saturate 32 (n + 1)) }

/-- The ports of plain p, rising. -/
def portsOf (s : State) (p : Nat) : List Nat := maskList (plainCfg s p).ports

/-- The plain that holds port n (R103). -/
def plainOfPort (s : State) (n : Nat) : Option Nat := (List.range 4).find? (fun p => bit (plainCfg s p).ports n)

/-- How many plain chains plain p has (R105). -/
def chainsOf (s : State) (p : Nat) : Nat := 8 * (portsOf s p).length

/-- The device chain of plain chain c (R105). -/
def deviceChain (s : State) (p c : Nat) : Nat := 8 * (portsOf s p).getD (c / 8) 0 + c % 8

/-- The plain chain of device chain d, in the plain that holds its port. -/
def plainChain (s : State) (p d : Nat) : Nat := 8 * (portsOf s p).idxOf (d / 8) + d % 8

/-- Power domain d as it runs (R451). -/
def domain (s : State) (d : Nat) : Domain := tabGet s.pwr.domains d {}

/-- The state with domain d replaced. -/
def setDomain (s : State) (d : Nat) (v : Domain) : State :=
  { s with pwr := { s.pwr with domains := tabSet s.pwr.domains d v } }

/-- Paddock k is in service: not withdrawn, and its domain has not failed to ungate (R125, R452). -/
def inService (s : State) (k : Nat) : Bool :=
  !bit s.cfg.rx.padOut k && !((domain s k).fault && (domain s k).state = 0)

/-- The paddocks in service. -/
def paddocksIn (s : State) : BitVec 32 := maskOf 32 ((List.range 32).filter (inService s))

/-! ### Search load (R125) -/

/-- The beams of a mask below an active count. -/
def beamsBelow (m : BitVec 64) (n : Nat) : BitVec 64 := maskOf 64 ((maskList m).filter (· < n))

/-- Σ SF over an SF mask. -/
def sfSum (m : BitVec 8) : Nat := ((maskList m).map (· + 5)).sum

/-- The search load of beam, grid and SF masks, in units (R125). -/
def loadUnits (beams : BitVec 64) (grids : BitVec 4) (sfs : BitVec 8) : Nat :=
  maskCount beams * maskCount grids * sfSum sfs

/-- The search load of a plain's settings. -/
def plainLoad (v : PlainCfg) : Nat :=
  if v.enabled then loadUnits (beamsBelow v.beamMask v.beams) v.gridMask v.sfMask else 0

/-- The beam enable mask after a swap to n beams: what a larger count brings in comes enabled (R515). -/
def maskAfterSwap (v : PlainCfg) (n : Nat) : BitVec 64 :=
  maskOf 64 ((List.range n).filter (fun b => v.beams ≤ b || bit v.beamMask b))

/-- Settings with the activations already accepted for the plain (R121). -/
def withSwaps (s : State) (p : Nat) (v : PlainCfg) : PlainCfg :=
  (s.rx.swaps.filter (fun w => w.plain = p && !w.tx)).foldl
    (fun u w => { u with beams := w.count, beamMask := maskAfterSwap u w.count }) v

/-- Settings with the additions that a withdrawal makes at its end (R148). -/
def withAdditions (w : Withdrawal) (v : PlainCfg) : PlainCfg :=
  { v with gridMask := v.gridMask ||| (w.after.gridMask &&& ~~~ w.before.gridMask)
           sfMask := v.sfMask ||| (w.after.sfMask &&& ~~~ w.before.sfMask)
           beamMask := beamsBelow (v.beamMask ||| (w.after.beamMask &&& ~~~ w.before.beamMask)) v.beams
           chainMask := v.chainMask ||| (w.after.chainMask &&& ~~~ w.before.chainMask) }

/-- What settings v of plain q stand for and will come to: as they are, after the activations accepted, and with the
additions that wait for a drain (R121, R125, R148). -/
def settingsAhead (s : State) (q : Nat) (v : PlainCfg) : List PlainCfg :=
  let l := (s.rx.drains.filter (fun w => w.plain = some q)).map (fun w => withAdditions w v)
  (v :: l).flatMap (fun u => [u, withSwaps s q u])

/-- The greatest search load that settings v of plain q come to. -/
def loadAhead (s : State) (q : Nat) (v : PlainCfg) : Nat := (settingsAhead s q v).foldl (fun m u => max m (plainLoad u)) 0

/-- The search load that the device can come to when plain p has settings v. -/
def searchLoadWith (s : State) (p : Nat) (v : PlainCfg) : Nat :=
  ((List.range 4).map (fun q => loadAhead s q (if q = p then v else plainCfg s q))).sum

/-- The search load of the configuration, as FABRIC_STATUS reports it. -/
def searchLoad (s : State) : Nat := ((List.range 4).map (fun q => plainLoad (plainCfg s q))).sum

/-- The greatest load of the configuration in force with what is accepted already. -/
def searchLoadAll (s : State) : Nat := searchLoadWith s 4 {}

/-- What the paddocks of a mask carry (R125). -/
def searchRoom (m : BitVec 32) : Nat := 1088 * maskCount m

/-- The settings v of plain p fit the search budget. -/
def fitsBudget (s : State) (p : Nat) (v : PlainCfg) : Bool := searchLoadWith s p v ≤ searchRoom (paddocksIn s)

/-- The beams formed across all plains when plain p has n (R119). -/
def beamsWith (s : State) (p n : Nat) : Nat :=
  ((List.range 4).map (fun q => if q = p then n else (withSwaps s q (plainCfg s q)).beams)).sum

/-! ### Changes of the search (R141, R148) -/

/-- A withdrawal drains that bars other withdrawals and configuration commands on plain p (R141). -/
def draining (s : State) (p : Nat) : Bool :=
  s.rx.drains.any (fun w => w.plain = some p || match w.kind with
    | .herdLeave => true
    | .mode _ => true
    | _ => false)

/-- The window boundary that comes next at t ns or stands there: half symbols of the shortest symbol, into which those of
every stream fall (log 106). -/
def nextWindow (t : BitVec 64) : BitVec 64 := BitVec.ofNat 64 ((t.toNat + 31999) / 32000 * 32000)

/-- The present instant put against every number of a list. -/
def stampAll (t : BitVec 64) (l : List Nat) (m : Tab (BitVec 64)) : Tab (BitVec 64) := l.foldl (fun u k => tabSet u k t) m

/-- The beams of a plain that are searched. -/
def beamsOn (v : PlainCfg) : BitVec 64 := if v.enabled then beamsBelow v.beamMask v.beams else 0

/-- Plain p with settings v in place of its own: what they add is searched, or fed to the beams, from its next window
boundary (R141, R148). -/
def changePlain (p : Nat) (v : PlainCfg) (s : State) : State :=
  let u := plainCfg s p
  let r := rxPlain s p
  let t := nextWindow (now s)
  setRxPlain (setPlainCfg s p v) p { r with
    beamSince := stampAll t (maskList (beamsOn v &&& ~~~ beamsOn u)) r.beamSince
    gridSince := stampAll t (maskList (v.gridMask &&& ~~~ u.gridMask)) r.gridSince
    sfSince := stampAll t (maskList (v.sfMask &&& ~~~ u.sfMask)) r.sfSince
    chainSince := stampAll t (maskList (v.chainMask &&& ~~~ u.chainMask)) r.chainSince }

/-! ### Mode (R447) -/

/-- A part of the search of an enabled plain is off: a beam, grid, spreading factor or chain. -/
def searchNarrowed (s : State) (p : Nat) : Bool :=
  let v := plainCfg s p
  v.gridMask != 0xF#4 || v.sfMask != 0xFF#8 || (List.range v.beams).any (fun b => !bit v.beamMask b)
    || (List.range (chainsOf s p)).any (fun c => !bit v.chainMask c)

/-- Something is off by configuration, so that a running device reads TROT. -/
def offByCfg (s : State) : Bool :=
  s.cfg.rx.padOut != 0#32
    || (List.range 4).any (fun p => !(plainCfg s p).enabled || (plainCfg s p).ports = 0#16 || searchNarrowed s p)
    || (List.range 2).any (fun b => !(bhCfg s b).enable)
    || (List.range 4).any (fun l => !(tabGet s.cfg.herd.links l {}).enable)

/-- The mode a running device is in by its configuration. -/
def runningMode (s : State) : Mode := if offByCfg s then .trot else .gallop

/-- GLOBAL_STATUS.MODE brought up to date while the device runs. -/
def refreshMode (s : State) : State :=
  if s.dev.mode = .gallop || s.dev.mode = .trot then { s with dev := { s.dev with mode := runningMode s } } else s

/-- The mode in force changed, with event 0x0101 (R465). -/
def changeMode (m : Mode) (s : State) : State :=
  let old := s.dev.mode
  let s1 := { s with dev := { s.dev with mode := m } }
  if m = old then s1 else postEvent 0x0101 (modeCode m) (w32 (modeCode old)) s1

/-! ### Reception records (R143-R146) -/

/-- Valid bits and beams of up to three other beams (word 12). -/
def altWord (alts : List (Nat × Nat)) : Word :=
  let a (i : Nat) : Nat := match alts[i]? with
    | some e => e.1 % 64 + 64
    | none => 0
  w32 (a 0 + 256 * a 1 + 65536 * a 2)

/-- OFFSET_EDGE belongs to the record: the magnitude of OFFSET exceeds 30 kHz (R145). -/
def offsetEdge (t : Track) : Bool := 30000 < t.offset.toInt.natAbs

/-- The marks of a record (R145, R173). -/
def recordMarks (t : Track) (raw : Bool) : Word :=
  setBit (setBit t.marks 6 raw) 9 (offsetEdge t)

/-- Word 2 of a record: outcome and header fields, zero where the header is invalid. -/
def outcomeWord (t : Track) (outcome : Nat) : Word :=
  match t.hdr with
  | some h => w32 (outcome + 16 * t.hdrFail + 256 * hdrLen h + 65536 * hdrCr h + 262144 * flag (hdrPilot h) + 524288 * t.iter)
  | none => w32 (outcome + 16 * t.hdrFail)

/-- The 16 words of a reception record (R143). -/
def recordWords (t : Track) (outcome status : Nat) (raw : Bool) (link : List Word) : List Word :=
  [t.seq, w32 (t.plain + 4 * t.beam + 256 * t.bw + 1024 * t.sf + 16384 * t.chan + 16777216 * t.sync.toNat),
   outcomeWord t outcome, w32 (t.num + 4096 * t.layer + 65536 * t.combined), recordMarks t raw]
  ++ loHi t.tStart ++ loHi t.tEnd
  ++ [pair16 t.power.toNat t.snr.toNat, t.offset, pair16 status t.drift.toNat, altWord t.alts] ++ link

/-- A record posted to a queue; a drop counts for the plain (R146). -/
def postRecordTo (q p : Nat) (words : List Word) (payload : List Byte) (s : State) : State :=
  let bytes := words.flatMap wordBytes ++ (wordsOfBytes payload).flatMap wordBytes
  let r := pushWords q (queueWords bytes) (cover 1 words s)
  let s1 := raiseAll r.2 r.1
  if r.2.isEmpty then s1 else countRx 8 p s1

/-- A record of the plain's own receiver posted to its record queue, with the decoded bytes behind it when RAW_PAYLOAD
asks for them (R143). -/
def postRecord (t : Track) (outcome status : Nat) (link : List Word) (s : State) : State :=
  let raw := (plainCfg s t.plain).rawPayload && outcome = 0
  postRecordTo (plainCfg s t.plain).recQ t.plain (recordWords t outcome status raw link) (if raw then t.bytes else []) s

/-- The next record sequence number taken (R146). -/
def takeSeq (s : State) : State := { s with rx := { s.rx with seq := s.rx.seq + 1 } }

/-- A record of a frame that was not decoded, under the next sequence number. -/
def postFailed (t : Track) (outcome status : Nat) (s : State) : State :=
  postRecord { t with seq := s.rx.seq } outcome status [0#32, 0#32, 0#32] (takeSeq s)

/-! ### Tracks (R126) -/

/-- The track with number n. -/
def trackAt (s : State) (n : Nat) : Option Track := s.rx.tracks.find? (fun t => t.num = n)

/-- The state with f applied to track n. -/
def modTrack (n : Nat) (f : Track → Track) (s : State) : State :=
  { s with rx := { s.rx with tracks := s.rx.tracks.map (fun t => if t.num = n then f t else t) } }

/-- A track is in progress until it has completed its last symbol (R519). -/
def inProgress (t : Track) : Bool := t.stage < 3

/-- Contexts that plain p uses. -/
def tracksOf (s : State) (p : Nat) : Nat := (s.rx.tracks.filter (fun t => t.plain = p)).length

/-- The context a new track takes: the lowest slot of the lowest paddock in service (R126); none when no context is
free or the plain is at TRACK_CAP (R127). -/
def freeContext (s : State) (p : Nat) : Option Nat :=
  if (plainCfg s p).trackCap ≤ tracksOf s p then none
  else
    let used := s.rx.tracks.map (fun t => t.num)
    (List.range 4096).find? (fun n => inService s (n / 128) && !used.contains n)

/-- A context claimed by a track. -/
def claimTrack (t : Track) (s : State) : State :=
  { s with rx := { s.rx with tracks := s.rx.tracks ++ [t] }, pwr := { s.pwr with lastAct := now s } }

/-- Track n releases its context, and no withdrawal waits for it any more. -/
def releaseTrack (n : Nat) (s : State) : State :=
  { s with rx := { s.rx with
      tracks := s.rx.tracks.filter (fun t => t.num != n)
      drains := s.rx.drains.map (fun w => { w with tracks := w.tracks.filter (· != n) }) } }

/-- A mark set in a track (R145). -/
def markTrack (i : Nat) (t : Track) : Track := { t with marks := setBit t.marks i true }

/-- A mark set in every live track in progress that has property f. -/
def markTracks (i : Nat) (f : Track → Bool) (s : State) : State :=
  { s with rx := { s.rx with
      tracks := s.rx.tracks.map (fun t => if inProgress t && t.job.isNone && f t then markTrack i t else t) } }

/-- The airtime of a track's frame without its preamble's length, which the receiver does not know: the symbols from the
down-chirps on (R96). -/
def symbolsAfterHeader (t : Track) (h : BitVec 24) : Nat :=
  let n := payloadSymbols t.sf t.bw (hdrCr h) (hdrLen h)
  n + pilotSymbols (hdrPilot h) n

/-- A frame that joins the link engine's input order now: whether it overruns is settled by count; of forwarded copies
with one stamp the lower herd ID goes first (R13, R16, R234). -/
def joinLink (i : LinkItem) (s : State) : State :=
  let l := s.link.joined.filter (fun t => !reached s (t + 10000000#64)) ++ [now s]
  let x : LinkItem := { i with joined := now s, overrun := decide (2500 < l.length) }
  let later (y : LinkItem) : Bool := match x.member, y.member with
    | some a, some b => y.joined = now s && decide (a.1 < b.1)
    | _, _ => false
  let q := s.rx.linkq
  { s with rx := { s.rx with linkq := q.takeWhile (fun y => !later y) ++ [x] ++ q.dropWhile (fun y => !later y) },
           link := { s.link with joined := l } }

/-- One of this device's own frames joins the link engine's input order and takes its record number there (R146). -/
def joinOwn (t : Track) (s : State) : State := joinLink { track := { t with seq := s.rx.seq } } (takeSeq s)

/-- Nanoseconds rounded to a multiple of 10. -/
def toTen (t : BitVec 64) : BitVec 64 := BitVec.ofNat 64 ((t.toNat + 5) / 10 * 10)

/-- The receive latency of a port in ns (R111). -/
def receiveLatency (s : State) (n : Nat) : Nat := (portCfg s n).extLatency + 5 * (portRun s n).linkLat

/-- The latency that every sample of a plain shows once the earlier ports are delayed (R111, R112). -/
def plainLatency (s : State) (p : Nat) : Nat := (portsOf s p).foldl (fun m n => max m (receiveLatency s n)) 0

/-- The present instant at the antenna of plain p (R111). -/
def antennaNow (s : State) (p : Nat) : BitVec 64 := BitVec.ofNat 64 ((now s).toNat - plainLatency s p)

/-- The channel's centre relative to f_P in Hz (R123). -/
def channelOffset (bw chan : Nat) : Int := ((2 * chan + 1) * 62500 * 2 ^ bw / 2 : Nat) - (5000000 : Int)

/-- The absolute carrier of a frame (R178). -/
def carrierOf (s : State) (p bw chan : Nat) (offset : Word) : Word :=
  ofInt ((plainCfg s p).fP.toNat + channelOffset bw chan + offset.toInt)

/-- Symbol length in ns. -/
def symbolNs (sf bw : Nat) : Nat := 1000 * symbolUs sf bw

/-- n symbols of a frame in ns, its symbol time corrected from its carrier offset: node carrier and chip clock share one
fractional error (R100). -/
def symbolsNs (s : State) (t : Track) (n : Nat) : Nat :=
  let f : Int := (plainCfg s t.plain).fP.toNat + channelOffset t.bw t.chan
  let g := f + t.offset.toInt
  if f ≤ 0 || g ≤ 0 then n * symbolNs t.sf t.bw else (n * symbolNs t.sf t.bw * f.toNat + g.toNat / 2) / g.toNat

end Sys2Proof.Machine
end

