-- ==== Sys2Proof/Machine/Wave.lean ====
section
/-! DEFINITION. The waveform of a frame (R73-R75, R77, R97, R210, R218): frequency and phase of its chirps as exact
fractions, amplitude, and samples in fixed point (log 105). A time inside a symbol of n chips is a / d chips. -/

namespace Sys2Proof.Machine

/-! ### Frequency and phase (R73-R75) -/

/-- Frequency relative to the channel centre at a / d chips, in units of BW / (2 n d) (R73, R75). -/
def chirpFreq (n : Nat) (c : Chirp) (a d : Nat) : Int :=
  match c with
  | .up k => 2 * (((k * d + a) % (n * d) : Nat) : Int) - (n * d : Nat)
  | .down => (n * d : Nat) - 2 * (a : Int)

/-- Phase gathered since the start of the symbol at a / d chips, in units of 1 / (2 n d d) turns: the integral of the
frequency, continuous across the fold (R74). -/
def chirpPhase (n : Nat) (c : Chirp) (a d : Nat) : Int :=
  let sweep : Int := (a * a : Nat) - (n * d * a : Nat)
  match c with
  | .up k => (2 * k * d * a : Nat) + sweep - (if n * d ≤ k * d + a then (2 * n * d * (k * d + a - n * d) : Nat) else 0)
  | .down => -sweep

/-- Phase of the sequence s_k[m], one sample per chip, in units of 1 / (2 n) turns: u u - n u with u = m + k (R74). -/
def chirpSeq (n k m : Nat) : Int := ((m + k) * (m + k) : Nat) - (n * (m + k) : Nat)

/-- Phase of a frame at a / d chips after its start; every symbol gathers a whole number of turns, so it is continuous at
the boundaries (R74, R77). -/
def framePhase (n : Nat) (w : List Chirp) (a d : Nat) : Int :=
  match w[a / (n * d)]? with
  | some c => chirpPhase n c (a % (n * d)) d
  | none => 0

/-! ### Fixed point -/

/-- One in the fixed point of the sample arithmetic. -/
def fixOne : Int := 18446744073709551616

/-- 2 pi in fixed point. -/
def fixTwoPi : Int := 115904311329233965478

/-- Terms k, k + 1, ... of the cosine series of an angle with square x2. -/
def cosTerms : Nat → Nat → Int → Int → Int
  | 0, _, _, _ => 0
  | m + 1, k, x2, t => t + cosTerms m (k + 1) x2 (-(t * x2 / fixOne) / ((2 * k + 1) * (2 * k + 2) : Nat))

/-- The cosine of p / q turns in fixed point. -/
def cosTurn (p : Int) (q : Nat) : Int :=
  let r := p % q
  let c := if (q : Int) < 2 * r then r - q else r
  let x := fixTwoPi * c / q
  cosTerms 24 0 (x * x / fixOne) fixOne

/-- The sine of p / q turns in fixed point. -/
def sinTurn (p : Int) (q : Nat) : Int := cosTurn (4 * p - q) (4 * q)

/-- A fraction rounded to the nearest integer, ties away from zero (R118). -/
def roundAway (v : Int) (d : Nat) : Int :=
  if v < 0 then -((2 * (-v) + d) / (2 * d)) else (2 * v + d) / (2 * d)

/-- A value saturated to 16 bits (R118). -/
def saturate16 (v : Int) : Int := if v < -32768 then -32768 else if 32767 < v then 32767 else v

/-- The largest r below 2^k whose 40th power times m does not exceed b. -/
def root40 (m b : Nat) : Nat → Nat → Nat
  | 0, r => r
  | k + 1, r => root40 m b k (if (r + 2 ^ k) ^ 40 * m ≤ b then r + 2 ^ k else r)

/-- The linear amplitude of a LEVEL of -lvl / 2 dB, in units of 2^-32 (R211, R212). -/
def levelAmp (lvl : Nat) : Nat := root40 (10 ^ lvl) (2 ^ 1280) 33 0

/-! ### Envelope (R97, R218) -/

/-- The amplitude at t ns of an airtime with ramps of tr ns: raised cosines inside T_air, mirror images of each other
(R97). -/
def envelope (tr air t : Nat) : Int :=
  if air ≤ t then 0
  else if t < tr then (fixOne - cosTurn t (2 * tr)) / 2
  else if air < t + tr then (fixOne - cosTurn ((air : Int) - t) (2 * tr)) / 2
  else fixOne

/-- The amplitude t ns into a fast ramp-down: a raised-cosine fall over 400 ns (R218). -/
def fastFall (t : Nat) : Int := if 400 ≤ t then 0 else (fixOne + cosTurn t 800) / 2

/-! ### Samples -/

/-- A sample of a frame at a / d chips after its start, of unit amplitude in fixed point, turned by another p / q turns. -/
def frameSample (n : Nat) (w : List Chirp) (a d : Nat) (p : Int) (q : Nat) : Int × Int :=
  let turns := framePhase n w a d * q + p * (2 * n * d * d : Nat)
  (cosTurn turns (2 * n * d * d * q), sinTurn turns (2 * n * d * d * q))

/-- The 32-bit word of the oscillator that places a carrier f Hz from f_T at 25 MS/s, nearest (R210). -/
def oscWord (f : Int) : BitVec 32 := BitVec.ofInt 32 (roundAway (f * 4294967296) 25000000)

end Sys2Proof.Machine
end

