-- ==== Sys2Proof/Machine/Samples.lean ====
section
/-! DEFINITION. Samples: what the lanes carry (R108), the beams formed from them (R118), the sample store rings and what
they hold (R152-R155, R164), and the rebuilding and subtraction of a frame (R162, R163). A sample instant is numbered by
its device time in units of 80 ns. -/

namespace Sys2Proof.Machine

/-! ### Lanes (R105, R108, R112) -/

/-- The sample of converter k on the receive lane of port n: most significant octet first (R108). -/
def laneSample (n m k : Nat) : BitVec 16 :=
  BitVec.ofNat 16 (256 * (Config.laneOctet n m (2 * k)).toNat + (Config.laneOctet n m (2 * k + 1)).toNat)

/-- I and Q of chain c of port n: converters 2c and 2c + 1 (R108). -/
def laneChain (n m c : Nat) : Int × Int := ((laneSample n m (2 * c)).toInt, (laneSample n m (2 * c + 1)).toInt)

/-- The port of plain chain c (R105). -/
def chainPort (s : State) (p c : Nat) : Nat := (portsOf s p).getD (c / 8) 0

/-- Plain chain c at instant m, its port delayed to align with the slowest (R112). -/
def chainSample (s : State) (p c m : Nat) : Int × Int :=
  laneChain (chainPort s p c) (m - (portRun s (chainPort s p c)).align) (c % 8)

/-! ### Beams (R118, R122, R515) -/

/-- A weight's I or Q, signed Q1.14 (R118). -/
def weightPart (w : Word) (q : Bool) : Int := ((if q then w >>> 16 else w).setWidth 16).toInt

/-- The product of a weight and a sample. -/
def weighted (w : Word) (x : Int × Int) : Int × Int :=
  (weightPart w false * x.1 - weightPart w true * x.2, weightPart w false * x.2 + weightPart w true * x.1)

/-- A pair added to a pair. -/
def addPair (a b : Int × Int) : Int × Int := (a.1 + b.1, a.2 + b.2)

/-- The plain chain feeds the beams at instant m: it is enabled (R106, R148) and its port delivers samples (R113, R517). -/
def chainFeeds (s : State) (p c m : Nat) : Bool :=
  bit (plainCfg s p).chainMask c && decide ((tabGet (rxPlain s p).chainSince c 0).toNat ≤ 80 * m)
    && !bit (rxPlain s p).lossPorts (chainPort s p c)

/-- A plain chain's weight in a beam of the active bank. -/
def chainWeight (v : PlainCfg) (b c : Nat) : Word := (tabGet v.bank b []).getD c 0#32

/-- Beam b is formed: within the active count, enabled, and its weights sound (R122, R515). -/
def beamFormed (s : State) (p b : Nat) : Bool :=
  decide (b < (plainCfg s p).beams) && bit (plainCfg s p).beamMask b && !bit (rxPlain s p).beamZero b

/-- The exact sum of beam b at instant m (R118). -/
def beamSum (s : State) (p b m : Nat) : Int × Int :=
  (((List.range (chainsOf s p)).filter (fun c => chainFeeds s p c m)).map
    (fun c => weighted (chainWeight (plainCfg s p) b c) (chainSample s p c m))).foldl addPair (0, 0)

/-- A sum divided by 2^(14 + shift), rounded to nearest with ties away from zero, not yet saturated (R118). -/
def scaled (shift : Nat) (x : Int × Int) : Int × Int := (roundAway x.1 (2 ^ (14 + shift)), roundAway x.2 (2 ^ (14 + shift)))

/-- A pair saturates. -/
def saturates (x : Int × Int) : Bool := saturate16 x.1 != x.1 || saturate16 x.2 != x.2

/-- A pair saturated to 16 bits. -/
def saturatePair (x : Int × Int) : Int × Int := (saturate16 x.1, saturate16 x.2)

/-- Beam b of plain p at instant m (R118); a beam that is not formed is zero. -/
def beamSample (s : State) (p b m : Nat) : Int × Int :=
  if beamFormed s p b then saturatePair (scaled (plainCfg s p).beamShift (beamSum s p b m)) else (0, 0)

/-- The datapath takes samples: a running device with clocks, outside GRAZE's sensing and STALL. -/
def datapathRuns (s : State) : Bool :=
  s.dev.dataReady && !s.dev.clkLost && (s.dev.mode = .gallop || s.dev.mode = .trot) && !s.dev.resetLow && !s.dev.powerFail

/-- The beams of plain p whose sample saturates at instant m. -/
def saturatedBeams (s : State) (p m : Nat) : List Nat :=
  (List.range (plainCfg s p).beams).filter (fun b =>
    beamFormed s p b && saturates (scaled (plainCfg s p).beamShift (beamSum s p b m)))

/-- The saturated samples of a sample instant counted for each beam (R118). -/
def countBeams (s : State) : State :=
  if datapathRuns s && (now s).toNat % 80 = 0 then
    ((List.range 4).filter (fun p => (plainCfg s p).enabled)).foldl (fun t p =>
      (saturatedBeams s p ((now s).toNat / 80)).foldl (fun u b =>
        setRxPlain u p { rxPlain u p with sat := tabSet (rxPlain u p).sat b (saturate 32 (tabGet (rxPlain u p).sat b 0 + 1)) }) t) s
  else s

/-! ### Cutting settings and counters -/

/-- Cutting settings of plain p. -/
def cutCfg (s : State) (p : Nat) : CutCfg := tabGet s.cfg.cut p {}

/-- Cutting state of plain p. -/
def cutPlain (s : State) (p : Nat) : CutPlain := tabGet s.cut.plains p {}

/-- Plain p in this cutting state. -/
def setCutPlain (s : State) (p : Nat) (v : CutPlain) : State :=
  { s with cut := { s.cut with plains := tabSet s.cut.plains p v } }

/-- Cutting counter i of plain p raised by n (R186, R187). -/
def countCut (i p n : Nat) (s : State) : State :=
  let v := cutPlain s p
  setCutPlain s p { v with counters := listMod v.counters i (fun k => saturate 32 (k + n)) }

/-! ### Rings (R152-R155) -/

/-- Ports of all enabled plains. -/
def storePorts (s : State) : Nat :=
  ((List.range 4).map (fun p => if (plainCfg s p).enabled then (portsOf s p).length else 0)).sum

/-- The size of plain p's ring in bytes (R152): its share of 24 GiB, in whole multiples of 8 sample instants. -/
def ringBytes (s : State) (p : Nat) : Nat :=
  let k := (portsOf s p).length
  if (plainCfg s p).enabled then 25769803776 * k / storePorts s / (256 * k) * (256 * k) else 0

/-- Sample instants of plain p's ring. -/
def ringInstants (s : State) (p : Nat) : Nat := (cutPlain s p).ringSize / (32 * (portsOf s p).length)

/-- What the ring of plain p spans in ns. -/
def ringNs (s : State) (p : Nat) : Nat := 80 * ringInstants s p

/-- Sample instants written into plain p's ring by instant t since it restarted empty; none while samples are not taken
(R19). -/
def writtenAt (s : State) (p : Nat) (t : BitVec 64) : Nat :=
  match (cutPlain s p).runs.getLast? with
  | some r => r.before + ((match r.stop with
      | some e => min e.toNat t.toNat
      | none => t.toNat) - r.start.toNat) / 80
  | none => 0

/-- Sample instants written into plain p's ring so far. -/
def written (s : State) (p : Nat) : Nat := writtenAt s p (now s)

/-- The device time of the i-th sample instant written, or of the next one to be written. -/
def instantTime (s : State) (p i : Nat) : Nat :=
  match ((cutPlain s p).runs.filter (fun r => decide (r.before ≤ i))).getLast? with
  | some r => r.start.toNat + 80 * (i - r.before)
  | none => (cutPlain s p).startedAt.toNat

/-- The antenna time of the oldest sample that plain p's ring holds at instant t. -/
def oldestAt (s : State) (p : Nat) (t : BitVec 64) : BitVec 64 :=
  BitVec.ofNat 64 (instantTime s p (writtenAt s p t - ringInstants s p) - plainLatency s p)

/-- A sample of plain p is in its ring (R156). -/
def inRing (s : State) (p : Nat) (t : BitVec 64) : Bool := (cutPlain s p).ringSize != 0 && notBefore t (oldestAt s p (now s))

/-- The write offset of plain p's ring in bytes (R155). -/
def writeOffset (s : State) (p : Nat) : Nat :=
  if ringInstants s p = 0 then 0 else written s p % ringInstants s p * (32 * (portsOf s p).length)

/-- The antenna-referred time of the sample instant at the write offset (R155). -/
def writeTime (s : State) (p : Nat) : BitVec 64 := BitVec.ofNat 64 (instantTime s p (written s p) - plainLatency s p)

/-- Plain p's ring takes samples no more (R19). -/
def stopRing (p : Nat) (s : State) : State :=
  let v := cutPlain s p
  setCutPlain s p { v with runs := v.runs.map (fun r => if r.stop.isNone then { r with stop := some (now s) } else r) }

/-- Plain p's ring takes samples again. -/
def startRing (p : Nat) (s : State) : State :=
  let v := cutPlain s p
  if v.ringSize = 0 || v.runs.any (fun r => r.stop.isNone) then s
  else setCutPlain s p { v with runs := v.runs ++ [{ start := now s, before := written s p }] }

/-! ### Span marks (R154) -/

/-- A mark touches the span from a to b. -/
def touches (m : SpanMark) (a b : BitVec 64) : Bool :=
  m.start ≤ b && match m.stop with
    | some e => a ≤ e
    | none => true

/-- A mark covers the span from a to b whole. -/
def covers (m : SpanMark) (a b : BitVec 64) : Bool :=
  m.start ≤ a && match m.stop with
    | some e => b ≤ e
    | none => true

/-- A mark of a kind touches the span from a to b in plain p's ring. -/
def spanMarked (s : State) (p kind : Nat) (a b : BitVec 64) : Bool :=
  (cutPlain s p).marks.any (fun m => m.kind = kind && touches m a b)

/-- The span is stored or read as zero: a port's lost lane, or an uncorrectable DRAM error (R23, R113). -/
def zeroKind (k : Nat) : Bool := k = 1 || k = 3

/-- A span mark added, the oldest discarded beyond 4,096 (R154); samples that are zero stay so without it. -/
def addMark (p : Nat) (m : SpanMark) (s : State) : State :=
  let v := cutPlain s p
  let kept := if v.marks.length < 4096 then v.marks else v.marks.drop 1
  setCutPlain s p { v with marks := kept ++ [m], zeros := if zeroKind m.kind then v.zeros ++ [m] else v.zeros }

/-- The running marks of a kind that m names closed at the antenna time t. -/
def closeMarks (p : Nat) (m : SpanMark → Bool) (t : BitVec 64) (s : State) : State :=
  let v := cutPlain s p
  let close (x : SpanMark) : SpanMark := if m x && x.stop.isNone then { x with stop := some t } else x
  setCutPlain s p { v with marks := v.marks.map close, zeros := v.zeros.map close }

/-! ### The rebuilt frame (R162) -/

/-- The carrier of a frame's channel on plain p in Hz, and with the frame's offset; 0 and 0 where no centre is tuned. -/
def frameCarrier (s : State) (p : Nat) (f : CutFrame) : Nat × Nat :=
  let c : Int := (plainCfg s p).fP.toNat + channelOffset f.bw f.chan
  let g := c + f.offset.toInt
  if c ≤ 0 || g ≤ 0 then (1, 1) else (c.toNat, g.toNat)

/-- Chips gathered v units of 5 ns after the frame's start, as a fraction: the node's chip clock shares the error of its
carrier (R100, R162). -/
def chipTime (s : State) (p : Nat) (f : CutFrame) (v : Nat) : Nat × Nat :=
  let k := frameCarrier s p f
  (v * 2 ^ f.bw * k.2, 3200 * k.1)

/-- The preamble's length that the frame's span leaves (R77, R96). -/
def framePreamble (f : CutFrame) : Nat :=
  let t := symbolNs f.sf f.bw
  let n := payloadSymbols f.sf f.bw (hdrCr f.hdr) (hdrLen f.hdr)
  ((f.tEnd - f.tStart).toNat + t / 2) / t - (4 + headerSymbols f.sf + n + pilotSymbols (hdrPilot f.hdr) n)

/-- Every symbol of the rebuilt frame: preamble, down-chirps, sync, header, payload and pilots (R162). -/
def frameSymbolList (f : CutFrame) : List Chirp :=
  frameChirps f.bytes f.sync f.sf f.bw (hdrCr f.hdr) (framePreamble f) (hdrPilot f.hdr)

/-- The turns that carrier offset and drift add v units of 5 ns after the frame's start, in units of 1 / 8e16 (R162). -/
def carrierTurns (f : CutFrame) (v : Nat) : Int :=
  (channelOffset f.bw f.chan + f.offset.toInt) * (v * 400000000 : Nat) + f.drift.toInt * (v * v : Nat)

/-- The rebuilt waveform at v units of 5 ns, 1/16 sample, after the frame's start, with a rectangular envelope (R162). -/
def rebuilt (s : State) (p : Nat) (f : CutFrame) (v : Nat) : Int × Int :=
  let c := chipTime s p f v
  frameSample (2 ^ f.sf) (frameSymbolList f) c.1 c.2 (carrierTurns f v) 80000000000000000

/-! ### Subtraction (R163, R164) -/

/-- The antenna time of sample instant m of plain p. -/
def antennaOf (s : State) (p m : Nat) : Nat := 80 * m - plainLatency s p

/-- The time of sample instant m after the frame's start, in units of 5 ns. -/
def frameOffset (s : State) (p : Nat) (f : CutFrame) (m : Nat) : Nat := (antennaOf s p m - f.tStart.toNat) / 5

/-- The segment of 16 symbols, counted from the frame's start, in which instant m lies (R163). -/
def segmentOf (s : State) (p : Nat) (f : CutFrame) (m : Nat) : Nat :=
  let c := chipTime s p f (frameOffset s p f m)
  c.1 / (2 ^ f.sf * c.2) / 16

/-- The sample instants of a frame. -/
def frameInstants (s : State) (p : Nat) (f : CutFrame) : List Nat :=
  let a := (f.tStart.toNat + plainLatency s p + 79) / 80
  let b := (f.tEnd.toNat + plainLatency s p) / 80
  (List.range (b - a)).map (fun i => a + i)

/-- The samples of chain c at instant m read as zero by the mark (R23, R113). -/
def zeroBy (s : State) (p c m : Nat) (x : SpanMark) : Bool :=
  (x.kind = 3 || bit x.ports (chainPort s p c)) && touches x (BitVec.ofNat 64 (antennaOf s p m)) (BitVec.ofNat 64 (antennaOf s p m))

/-- The engine skips chain c at instant m: a LANE_LOSS span of its port (R164). -/
def skipped (s : State) (p c m : Nat) : Bool := (cutPlain s p).zeros.any (fun x => x.kind = 1 && zeroBy s p c m x)

/-- What the ring took for chain c at instant m, before any subtraction: zero over a lost lane (R106, R113). -/
def rawSample (s : State) (p c m : Nat) : Int × Int :=
  if (cutPlain s p).zeros.any (fun x => x.kind = 1 && zeroBy s p c m x) then (0, 0) else chainSample s p c m

/-- The gain of chain c over the segment of instant m against samples x: the numerator sum of x r*, and the denominator
sum of |r|^2 (R163). -/
def segmentGain (s : State) (p c : Nat) (f : CutFrame) (x : Nat → Int × Int) (m : Nat) : (Int × Int) × Int :=
  let k := segmentOf s p f m
  ((frameInstants s p f).filter (fun i => segmentOf s p f i = k && !skipped s p c i)).foldl (fun g i =>
    let r := rebuilt s p f (frameOffset s p f i)
    let y := x i
    (addPair g.1 (y.1 * r.1 + y.2 * r.2, y.2 * r.1 - y.1 * r.2), g.2 + r.1 * r.1 + r.2 * r.2)) ((0, 0), 0)

/-- The sample of chain c at instant m with the frame taken out, rounded to nearest, not yet saturated (R163). -/
def subtracted (s : State) (p c : Nat) (f : CutFrame) (x : Nat → Int × Int) (m : Nat) : Int × Int :=
  let g := segmentGain s p c f x m
  let r := rebuilt s p f (frameOffset s p f m)
  let y := x m
  if g.2 ≤ 0 then y
  else (roundAway (y.1 * g.2 - (g.1.1 * r.1 - g.1.2 * r.2)) g.2.toNat, roundAway (y.2 * g.2 - (g.1.1 * r.2 + g.1.2 * r.1)) g.2.toNat)

/-- The subtraction has written instant m of chain c (R160, R164). -/
def cutReaches (s : State) (p c : Nat) (x : CutRec) (m : Nat) : Bool :=
  let t := antennaOf s p m
  decide (x.frame.tStart.toNat ≤ t) && decide (t < x.upto.toNat) && !skipped s p c m

/-- The samples of chain c after subtractions, the newest first (R155, R163). -/
def residueOf (s : State) (p c : Nat) : List CutRec → Nat → Int × Int
  | [], m => rawSample s p c m
  | x :: older, m =>
    let before := residueOf s p c older
    if cutReaches s p c x m then saturatePair (subtracted s p c x.frame before m) else before m

/-- What the ring of plain p holds for chain c at instant m: residue where a job has subtracted, zero over an
uncorrectable error (R23, R155). -/
def storedSample (s : State) (p c m : Nat) : Int × Int :=
  if (cutPlain s p).zeros.any (zeroBy s p c m) then (0, 0) else residueOf s p c (cutPlain s p).cuts.reverse m

/-- The saturated results that a subtraction writes from antenna time a on, over every chain (R163). -/
def cutSaturated (s : State) (p : Nat) (x : CutRec) (older : List CutRec) (a : BitVec 64) : Nat :=
  ((List.range (chainsOf s p)).map (fun c =>
    ((frameInstants s p x.frame).filter (fun m => cutReaches s p c x m && decide (a.toNat ≤ antennaOf s p m)
      && saturates (subtracted s p c x.frame (residueOf s p c older.reverse) m))).length)).sum

/-- The subtraction of a job on plain p. -/
def cutRecOf (s : State) (p job : Nat) : Option CutRec := (cutPlain s p).cuts.find? (fun x => x.job = job)

/-- The subtractions made before a job's. -/
def cutsBefore (s : State) (p job : Nat) : List CutRec := (cutPlain s p).cuts.takeWhile (fun x => x.job != job)

/-- A job's subtraction on plain p has reached antenna time t. -/
def cutUpto (p job : Nat) (t : BitVec 64) (s : State) : State :=
  let v := cutPlain s p
  setCutPlain s p { v with cuts := v.cuts.map (fun x => if x.job = job then { x with upto := t } else x) }

/-- The bytes of a ring sample as the host reads them: I in [15:0], Q in [31:16], little-endian (R108, R152). -/
def sampleWord (x : Int × Int) : Word := pair16 (BitVec.ofInt 16 x.2).toNat (BitVec.ofInt 16 x.1).toNat

end Sys2Proof.Machine
end

