-- ==== Sys2Proof/Machine/Cutting.lean ====
section
/-! DEFINITION. Repartition of the store (R153), cutting jobs from queueing to their end (R156-R175), and the cutting commands
(R186). -/

namespace Sys2Proof.Machine

/-! ### Jobs -/

/-- Jobs in flight: from dispatch until they complete (R158). -/
def jobRuns (j : CutJob) : Bool := j.state != .queued && j.state != .awaiting

/-- Jobs in flight. -/
def jobsRunning (s : State) : Nat := (s.cut.jobs.filter jobRuns).length

/-- Jobs queued. -/
def jobsQueued (s : State) : Nat := (s.cut.jobs.filter (fun j => j.state = .queued)).length

/-- Residue passes that run (R170). -/
def passesRunning (s : State) : Nat := (s.cut.jobs.filter (fun j => j.state = .residue)).length

/-- The job with an id. -/
def jobAt (s : State) (id : Nat) : Option CutJob := s.cut.jobs.find? (fun j => j.id = id)

/-- The state with job j in place of the one with its id. -/
def setJob (j : CutJob) (s : State) : State :=
  { s with cut := { s.cut with jobs := s.cut.jobs.map (fun k => if k.id = j.id then j else k) } }

/-- The job gone. -/
def dropJob (id : Nat) (s : State) : State :=
  { s with cut := { s.cut with jobs := s.cut.jobs.filter (fun k => k.id != id) } }

/-- The event of a job's end, on the plain's record queue where CUT_EVENTS was set when its record was posted (R175, R186). -/
def jobEvent (j : CutJob) (code source : Nat) (s : State) : State :=
  if j.events then postEventTo (plainCfg s j.plain).recQ code source j.seq s else s

/-- The job ends as expired (R153, R160): source 0 not started, 1 stopped part-way. -/
def expireJob (j : CutJob) (source : Nat) (s : State) : State :=
  jobEvent j 0x0302 source (countCut 5 j.plain 1 (dropJob j.id s))

/-- The instant at which `progress` percent of a job's span is subtracted. -/
def progressAt (j : CutJob) (progress : Nat) : BitVec 64 :=
  j.tStart + BitVec.ofNat 64 ((j.tEnd - j.tStart).toNat * progress / 100)

/-- The part of a job that is already subtracted marked PARTIAL_CUT (R154, R160, R172). -/
def partialCut (j : CutJob) (progress : Nat) (s : State) : State :=
  if progress = 0 then s
  else addMark j.plain { kind := 4, ports := 0#16, start := j.tStart, stop := some (progressAt j progress) } s

/-- The rings of enabled plains laid out anew and empty; marks, failed lists and jobs gone; a span that still runs, blanked
or of a lost lane, is marked again from here (R152-R154). -/
def repartition (s : State) : State :=
  let s1 := (s.cut.jobs.filter (fun j => j.state != .awaiting)).foldl (fun t j => expireJob j 0 t) s
  let lay (t : State) (p : Nat) : State :=
    let base := ((List.range p).map (ringBytes t)).sum
    let v := cutPlain t p
    let runs : List StoreRun := if ringBytes t p = 0 then [] else
      [{ start := now t, stop := if t.dev.clkLost then some (now t) else none }]
    setCutPlain t p { v with marks := (v.marks.filter (fun m => m.kind = 2 && m.stop.isNone)).map
                               (fun m => { m with start := antennaNow t p })
                             failed := [], decoded := [], ringBase := base, ringSize := ringBytes t p, startedAt := now t
                             runs := runs, zeros := [], cuts := [] }
  let s2 := (List.range 4).foldl lay s1
  let lost (t : State) (p : Nat) : State :=
    if (plainCfg t p).enabled then
      (maskList ((rxPlain t p).lossPorts &&& (plainCfg t p).ports)).foldl
        (fun u n => addMark p { kind := 1, ports := maskOf 16 [n], start := antennaNow u p } u) t
    else t
  (List.range 4).foldl lost s2

/-- Why a decoded frame does not become a job (R156): 0 it does, 1 cutting disabled, 2 layer, 3 span. -/
def notCut (s : State) (t : Track) : Nat :=
  let v := cutCfg s t.plain
  if !v.enable then 1
  else if v.maxLayer ≤ t.layer then 2
  else if !inRing s t.plain t.tStart || spanMarked s t.plain 3 t.tStart t.tEnd then 3
  else 0

/-- A decoded frame offered to the cutting engine (R156, R157), with the marks that its record carries. -/
def offerCut (t : Track) (notice : Bool) (s : State) : Track × State :=
  let r := notCut s t
  if r != 0 then ({ t with marks := t.marks ||| w32 (131072 * r) }, countCut (1 + r) t.plain 1 s)
  else if 256 ≤ jobsQueued s then (markTrack 4 t, raise .cutBusy (countCut 1 t.plain 1 s))
  else
    let f : CutFrame := { bw := t.bw, sf := t.sf, chan := t.chan, bytes := t.bytes, hdr := t.hdr.getD 0#24, sync := t.sync,
                          tStart := t.tStart, tEnd := t.tEnd, offset := t.offset, drift := t.drift }
    let v := cutCfg s t.plain
    let j : CutJob := { id := s.cut.nextId, seq := if notice then 0xFFFFFFFF#32 else t.seq, plain := t.plain,
                        track := t.num, layer := t.layer, tStart := t.tStart, tEnd := t.tEnd, done := t.doneAt, bw := t.bw,
                        chan := t.chan, offset := t.offset, notice := notice, frame := f, events := v.events,
                        autoRetry := v.autoRetry }
    (markTrack 16 t, countCut 0 t.plain 1 { s with cut := { s.cut with jobs := s.cut.jobs ++ [j], nextId := s.cut.nextId + 1 } })

/-- The order of cutting jobs (R16); jobs resumed after a restart come first, in their own order (R172). -/
def jobKey (j : CutJob) : List Nat := [if j.endedAt = 0#64 then 1 else 0, j.done.toNat, j.plain, j.track, j.id]

/-- One job comes before another (R16). -/
def jobBefore (a b : CutJob) : Bool := keyBefore (jobKey a) (jobKey b)

/-- The duration R160 estimates for a job in ns: its chain-samples at 4.0 G chain-samples/s. -/
def jobEstimate (s : State) (j : CutJob) : Nat := (j.tEnd - j.tStart).toNat / 80 * chainsOf s j.plain / 4

/-- The first sample of the job's span stays in the ring for the estimated duration and 10 ms more (R160). -/
def spanStays (s : State) (j : CutJob) : Bool :=
  (cutPlain s j.plain).ringSize != 0 && notBefore j.tStart (oldestAt s j.plain (after s (jobEstimate s j + 10000000)))

/-- A job that ends as expired before its subtraction goes on; what an earlier run of it subtracted is marked (R160, R154,
R172). -/
def expireUnstarted (j : CutJob) (s : State) : State := partialCut j j.progress (expireJob j 0 s)

/-- A queued job dispatched, or ended: its span would not stay, or an uncorrectable error has marked it (R23, R160; log
107). -/
def dispatchJob (j : CutJob) (s : State) : State :=
  if spanStays s j && !spanMarked s j.plain 3 j.tStart j.tEnd then setJob { j with state := .dispatched } s
  else expireUnstarted j s

/-- The first queued job dispatched, while fewer than 64 are in flight (R158). -/
def dispatchNext (s : State) : State :=
  match firstBy jobBefore (s.cut.jobs.filter (fun j => j.state = .queued)) with
  | none => s
  | some j => if 64 ≤ jobsRunning s then s else dispatchJob j s

/-- CUT_JOB_DISPATCH (R158, R160). -/
def execCutJobDispatch (s : State) : Host.Outcome State Fault Refusal := .next (dispatchNext s)

/-- The spans of two jobs of one plain overlap (R159). -/
def overlap (a b c d : BitVec 64) : Bool := a ≤ d && c ≤ b

/-- A residue track of the plain is reading samples inside the job's span (R159). -/
def readInside (s : State) (j : CutJob) : Bool :=
  s.rx.tracks.any (fun t => t.plain = j.plain && t.job.isSome && inProgress t && t.tStart ≤ j.tEnd
    && (t.hdr.isNone || j.tStart ≤ t.tEnd))

/-- An earlier job that the job overlaps has not completed (R159). -/
def waitsForJob (s : State) (j : CutJob) : Bool :=
  s.cut.jobs.any (fun k => k.plain = j.plain && k.state != .awaiting && jobBefore k j
    && overlap j.tStart j.tEnd k.tStart k.tEnd)

/-- The subtraction of a job opened on its plain's ring; a resumed one goes on from where it stood (R165). -/
def openCut (j : CutJob) (s : State) : State :=
  let v := cutPlain s j.plain
  if (cutRecOf s j.plain j.id).isSome then s
  else setCutPlain s j.plain { v with cuts := v.cuts ++ [{ job := j.id, frame := j.frame, upto := j.tStart }] }

/-- CUT_SUBTRACTION_START (R159): when no earlier overlapping job and no residue track stands in the way. -/
def execCutSubtractionStart (job : Nat) (s : State) : Host.Outcome State Fault Refusal :=
  match jobAt s job with
  | some j =>
    if j.state = .dispatched && !waitsForJob s j && !readInside s j then
      .next (openCut j (setJob { j with state := .subtracting } s))
    else .next s
  | none => .next s

/-- Jobs whose subtraction has ended begin their residue passes while fewer than 16 run (R170). -/
def startPass (s : State) : State :=
  if 16 ≤ passesRunning s then s
  else match firstBy jobBefore (s.cut.jobs.filter (fun j => j.state = .subtracted)) with
    | some j => setJob { j with state := .residue } s
    | none => s

/-- The subtraction of a job carried on to antenna time t, its saturated results counted (R163). -/
def advanceCut (j : CutJob) (t : BitVec 64) (s : State) : State :=
  match cutRecOf s j.plain j.id with
  | some x => countCut 8 j.plain (cutSaturated s j.plain { x with upto := t } (cutsBefore s j.plain j.id) x.upto) (cutUpto j.plain j.id t s)
  | none => s

/-- CUT_SUBTRACTION_END (R163, R167) of a job of plain p: the frame is out of the ring, and the residue pass starts. -/
def execCutSubtractionEnd (job : Nat) (p : Fin 4) (s : State) : Host.Outcome State Fault Refusal :=
  match jobAt s job with
  | some j =>
    if j.state = .subtracting && j.plain = p.val then
      .next (startPass (setJob { j with state := .subtracted, progress := 100 } (advanceCut j (j.tEnd + 10#64) s)))
    else .next s
  | none => .next s

/-! ### Residue pass (R166-R170) -/

/-- A frame's band in Hz relative to f_P: its centre's offset and half its width. -/
def bandOf (bw chan : Nat) (offset : Word) : Int × Int := (channelOffset bw chan + offset.toInt, (62500 * 2 ^ bw / 2 : Nat))

/-- Two bands overlap, the first widened by w on each side. -/
def bandsMeet (a b : Int × Int) (w : Int) : Bool := (a.1 - b.1).natAbs < (a.2 + b.2 + w).toNat

/-- Two detections are the same frame (R130). -/
def sameFrame (a b : Track) : Bool :=
  a.plain = b.plain && a.bw = b.bw && a.sf = b.sf && a.chan ≤ b.chan + 1 && b.chan ≤ a.chan + 1
    && ((a.inst.toNat : Int) - b.inst.toNat).natAbs * 8 ≤ symbolNs a.sf a.bw && (a.bin - b.bin).natAbs ≤ 1

/-- The last DET_COUNT windows of a detection, when there are so many (R128). -/
def lastWindows (n : Nat) (d : DetectIn) : List WindowIn := d.windows.drop (d.windows.length - n)

/-- The windows agree: the peaks lie in one bin, within 1 bin of the first (R128; DEDUCED, log 108). -/
def binsAgree (l : List WindowIn) : Bool :=
  match l with
  | [] => false
  | w :: r => r.all (fun x => (x.bin - w.bin).natAbs ≤ 1)

/-- A window's peak stands DET_THRESH, in 0.1 dB, above its mean bin power (R128). -/
def peakStands (thresh : Nat) (w : WindowIn) : Bool := decide (w.mean ^ 100 * 10 ^ thresh ≤ w.peak ^ 100)

/-- DET_COUNT consecutive windows declare a detection (R128). -/
def windowsDeclare (v : PlainCfg) (d : DetectIn) : Bool :=
  let l := lastWindows v.detCount d
  decide (v.detCount ≤ d.windows.length) && binsAgree l && l.all (peakStands v.detThresh)

/-- How long n windows of a stream last, each half a symbol after the one before (R128). -/
def windowsNs (sf bw n : Nat) : Nat := symbolNs sf bw * (n + 1) / 2

/-- The track that a detection claims under the settings of its plain: its instant is the end of the last window, its frame
is taken to start with the first of the windows that agreed (R128, R130, R518; DEDUCED, log 108). -/
def trackOf (v : PlainCfg) (d : DetectIn) (n : Nat) : Track :=
  let l := lastWindows v.detCount d
  let i := toTen d.stop
  { num := n, plain := d.plain.val, beam := d.beam.val, bw := d.bw.val, sf := 5 + d.sf.val, chan := d.chan.val,
    inst := i, energy := l.foldl (fun m w => max m w.peak) 0, bin := (l.map (fun w => w.bin)).getLastD 0,
    tStart := toTen (i - BitVec.ofNat 64 (windowsNs (5 + d.sf.val) d.bw.val v.detCount)) }

/-- The channel exists on its grid (R123). -/
def channelExists (d : DetectIn) : Bool := d.chan.val < 160 / 2 ^ d.bw.val

/-- The windows of a detection touch a blanked span of the plain (R137). -/
def touchesBlanked (s : State) (p : Nat) (t : Track) : Bool :=
  spanMarked s p 2 (t.inst - BitVec.ofNat 64 (windowsNs t.sf t.bw (plainCfg s p).detCount)) t.inst

/-- The beam, grid and spreading factor of a detection are searched (R515, R148). -/
def searched (s : State) (p : Nat) (t : Track) : Bool :=
  let v := plainCfg s p
  t.beam < v.beams && bit v.beamMask t.beam && bit v.gridMask t.bw && bit v.sfMask (t.sf - 5)

/-- The windows of a detection lie in the time since which its stream is searched (R141, R148). -/
def searchedSince (s : State) (p : Nat) (t : Track) : Bool :=
  let r := rxPlain s p
  tabGet r.beamSince t.beam 0 ≤ t.tStart && tabGet r.gridSince t.bw 0 ≤ t.tStart && tabGet r.sfSince (t.sf - 5) 0 ≤ t.tStart

/-- Re-detection looks there: the residue window and the channels that touch the cut frame's band widened by 30 kHz
(R167). -/
def inResidueWindow (j : CutJob) (t : Track) : Bool :=
  j.tStart.toNat ≤ t.inst.toNat + 16 * symbolNs t.sf t.bw && t.inst ≤ j.tEnd
    && bandsMeet (bandOf j.bw j.chan j.offset) (bandOf t.bw t.chan 0#32) 30000

/-- A frame that re-detection must not start again: decoded on the plain, followed live, or on the failed list (R168). -/
def known (s : State) (p : Nat) (t : Track) : Bool :=
  (cutPlain s p).decoded.any (sameFrame t) || s.rx.tracks.any (fun u => inProgress u && sameFrame t u)
    || (cutPlain s p).failed.any (fun f => sameFrame t f.track)

/-- The failed-list entry that a job's pass demodulates again: it overlaps the cut frame in time and in band (R167). -/
def failedFor (s : State) (j : CutJob) (seq : Word) : Option Failed :=
  (cutPlain s j.plain).failed.find? (fun f => f.seq = seq && overlap j.tStart j.tEnd f.track.tStart f.track.tEnd
    && bandsMeet (bandOf j.bw j.chan j.offset) (bandOf f.track.bw f.track.chan f.track.offset) 0)

/-- The failed list without the entry of a record. -/
def dropFailed (p : Nat) (seq : Word) (s : State) : State :=
  let v := cutPlain s p
  setCutPlain s p { v with failed := v.failed.filter (fun f => f.seq != seq) }

/-- The track that demodulates a failed-list entry again, with the offset and timing re-estimated on the residue; its header
again when that had failed (R167). -/
def redemodTrack (j : CutJob) (f : Failed) (x : RedemodIn) : Track :=
  { f.track with layer := j.layer + 1, job := some j.id, marks := w32 524288, stage := if f.track.hdr.isSome then 2 else 1,
                 hdrFail := 0, bytes := [], iter := 0, metrics := [], pilots := 0, offset := x.offset, tStart := toTen x.tStart,
                 tEnd := f.track.tEnd + (toTen x.tStart - f.track.tStart) }

/-- A pend in its place for the end of the instant (R16). -/
def addPend (x : Pend) (s : State) : State := { s with rx := { s.rx with detq := s.rx.detq ++ [x] } }

/-- The job's pass has tried a failed-list entry (R167). -/
def noteTried (j : CutJob) (seq : Word) (s : State) : State := setJob { j with tried := j.tried ++ [seq] } s

/-- A new preamble found on the residue (R167-R169): it competes for a track at the end of the instant. -/
def redetect (j : CutJob) (d : DetectIn) (s : State) : State :=
  let v := plainCfg s j.plain
  let t := trackOf v d 0
  if !windowsDeclare v d || !channelExists d || !searched s j.plain t || !inResidueWindow j t || known s j.plain t
    || touchesBlanked s j.plain t then s
  else addPend { track := { t with layer := j.layer + 1, job := some j.id } } (countCut 9 j.plain 1 s)

/-- RESIDUE_DETECTION (R167-R169). -/
def execResidueDetection (job : Nat) (d : DetectIn) (redemod : Option RedemodIn) (s : State) : Host.Outcome State Fault Refusal :=
  match jobAt s job with
  | some j =>
    if j.state != .residue || d.plain.val != j.plain then .next s
    else match redemod with
      | some x => match failedFor s j x.seq with
        | some f => .next (addPend { track := redemodTrack j f x, redemod := some x.seq } (noteTried j x.seq s))
        | none => .next s
      | none => .next (redetect j d s)
  | none => .next s

/-- A pend of the residue takes a track, or is refused and counted (R169); a re-demodulated entry leaves the list. -/
def claimResidue (x : Pend) (s : State) : State :=
  match freeContext s x.track.plain with
  | none => countCut 10 x.track.plain 1 s
  | some n =>
    let s1 := match x.redemod with
      | some seq => dropFailed x.track.plain seq s
      | none => s
    claimTrack { x.track with num := n } s1

/-- Failed-list entries that the job's pass has still to try (R167). -/
def untried (s : State) (j : CutJob) : Bool :=
  (cutPlain s j.plain).failed.any (fun f => !j.tried.contains f.seq && (failedFor s j f.seq).isSome)

/-- CUT_JOB_COMPLETE (R158, R167, R175): every failed-list entry that the pass covers has been tried, and every residue
track the pass started has been handed to the decoder. -/
def execCutJobComplete (job : Nat) (s : State) : Host.Outcome State Fault Refusal :=
  match jobAt s job with
  | some j =>
    if j.state = .residue && !untried s j && !s.rx.tracks.any (fun t => t.job = some j.id)
        && !s.rx.detq.any (fun x => x.track.job = some j.id) then
      .next (startPass (jobEvent j 0x0301 j.accepted (dropJob j.id s)))
    else .next s
  | none => .next s

/-- CUT_JOB_EXPIRED (R160): the ring has overwritten the first sample of a job in flight before its subtraction ended. -/
def execCutJobExpired (job progress : Nat) (s : State) : Host.Outcome State Fault Refusal :=
  match jobAt s job with
  | some j =>
    if inRing s j.plain j.tStart then .next s
    else if j.state = .subtracting then
      .next (partialCut j (min progress 100) (advanceCut j (progressAt j (min progress 100)) (expireJob j 1 s)))
    else if j.state = .dispatched then .next (expireUnstarted j s)
    else .next s
  | none => .next s

/-! ### Engine restart (R172) -/

/-- How far a job has come when the engine restarts: nothing before its subtraction, all of it after, and between the
two a free number of percent. -/
def progressNow (s : State) (j : CutJob) : Nat :=
  if j.state = .subtracting then max j.progress ((Config.freeWord s.free).toNat % 101) else j.progress

/-- One job ended by the restart, kept for 1 s; AUTO_RETRY queues it again at once. What it has subtracted stays
subtracted: the ring holds whole bursts up to its progress point, the journaled burst restored (R165). -/
def endByRestart (j : CutJob) (s : State) : State :=
  let k : CutJob := { j with progress := progressNow s j, endedAt := now s, tried := [],
                             state := if j.autoRetry then .queued else .awaiting }
  let s1 := if j.state = .subtracting then advanceCut j (progressAt j k.progress) s else s
  jobEvent k 0x0303 k.progress (countCut 6 j.plain 1 (setJob k { s1 with free := s.free + 1 }))

/-- Jobs queued again go into flight at once, in their order, until 64 run or the device holds no more than 256 queued (R4,
R157, R172; log 30). -/
def drainRetries : Nat → State → State
  | 0, s => s
  | k + 1, s => drainRetries k (dispatchNext s)

/-- A cutting command (R186). -/
def isCutCommand (op : Nat) : Bool := 0x0300 ≤ op && op ≤ 0x0305 || op = 0x0320

/-- Commands in flight that meet a condition complete with a status, those that still wait included. -/
def completeWhere (f : InFlight → Bool) (st : Status) (s : State) : State :=
  let l := (s.cmd.inFlight.filter (fun e => f e && e.phase != .held)).map (fun e => (e.queue, e.tag))
  let s1 := { s with cmd := { s.cmd with
      waiting := s.cmd.waiting.filter (fun w => !(w.accepted && l.contains (w.packet.queue.val, w.packet.tag))) } }
  completeAll l st s1

/-- The engine restarts (R172): every job in flight or queued ends, cutting commands in flight complete, the trouble bit
is set and event 0x0310 posted. -/
def restartCutting (s : State) : State :=
  let l := s.cut.jobs.filter (fun j => j.state != .awaiting)
  let s1 := l.foldl (fun t j => endByRestart j t) s
  let s2 := (s1.rx.tracks.filter (fun t => t.job.isSome)).foldl (fun t k => releaseTrack k.num t) s1
  let s3 := completeWhere (fun e => isCutCommand e.opcode) .retryEngineRestarted s2
  drainRetries (jobsQueued s3 - 256) (postEvent 0x0310 0 (w32 l.length) (raise .cutRestart s3))

/-- CUT_ENGINE_FAULT_RESTART (R172). -/
def execCutEngineFaultRestart (s : State) : Host.Outcome State Fault Refusal := .next (restartCutting s)

/-- CUT_JOB_RELEASE (R172): a job not resumed within 1 s is released, and what it had subtracted is marked. -/
def execCutJobRelease (job : Nat) (s : State) : Host.Outcome State Fault Refusal :=
  match jobAt s job with
  | some j =>
    if j.state = .awaiting && reached s (j.endedAt + 1000000000#64) then
      .next (partialCut j j.progress (jobEvent j 0x0304 j.progress (countCut 7 j.plain 1 (dropJob j.id s))))
    else .next s
  | none => .next s

/-- RING_OVERWRITE (R154, R166): what the ring no longer holds leaves the mark list, the failed list and the list of
decoded frames. -/
def execRingOverwrite (p : Fin 4) (oldest : BitVec 64) (s : State) : Host.Outcome State Fault Refusal :=
  let v := cutPlain s p.val
  if notBefore (oldestAt s p.val (now s)) oldest then
    let w : CutPlain := { v with
      marks := v.marks.filter (fun m => match m.stop with
        | some e => notBefore e oldest
        | none => true)
      zeros := v.zeros.filter (fun m => match m.stop with
        | some e => notBefore e oldest
        | none => true)
      cuts := v.cuts.filter (fun x => notBefore x.frame.tEnd oldest)
      failed := v.failed.filter (fun f => notBefore f.track.tStart oldest)
      decoded := v.decoded.filter (fun t => notBefore t.tStart oldest) }
    .next (setCutPlain s p.val w)
  else .next s

/-! ### Failed list (R166) -/

/-- A live frame placed on the failed list; the oldest entry makes room beyond 1,024, counted. -/
def listFailed (t : Track) (seq : Word) (s : State) : State :=
  let v := cutPlain s t.plain
  let full := 1024 ≤ v.failed.length
  let s1 := setCutPlain s t.plain
    { v with failed := (if full then v.failed.drop 1 else v.failed) ++ [{ track := t, seq := seq }] }
  if full then countCut 18 t.plain 1 s1 else s1

/-- A frame decoded on the plain, remembered while its first sample is in the ring (R168, R171). -/
def rememberDecoded (t : Track) (s : State) : State :=
  let v := cutPlain s t.plain
  setCutPlain s t.plain { v with decoded := v.decoded ++ [t] }

/-! ### Commands (R186) -/

def cutSetSpec : CmdSpec :=
  { plainSpec 0x0300 3 (fun c => within c 0 0 3 && fits c 1 3 && within c 2 1 4) (fun c s =>
      let v : CutCfg := { enable := bit (pw c 1) 0, autoRetry := bit (pw c 1) 1, events := bit (pw c 1) 2, maxLayer := pn c 2 }
      done { s with cfg := { s.cfg with cut := tabSet s.cfg.cut (pn c 0) v } }) with ready := fun c s => !draining s (pn c 0) }

/-- CUT_SET (R156, R186): for records posted from now on; it is a configuration command, which a drain bars (R141). -/
def execCutSet (c : Packet) (s : State) : Host.Outcome State Fault Refusal := runCommand cutSetSpec c s

/-- The chain-sample rate in use in M/s (R161). -/
def cutRate (s : State) : Nat :=
  min 8000 (4000 * (s.cut.jobs.filter (fun j => j.state = .subtracting)).length)

/-- The six words of CUT_STATUS. -/
def cutStatusWords (s : State) : List Word :=
  [w32 (jobsRunning s), w32 (jobsQueued s), w32 (passesRunning s),
   w32 (s.cut.jobs.filter (fun j => j.state = .awaiting)).length, w32 (cutRate s),
   w32 ((List.range 4).map (fun p => (cutPlain s p).failed.length)).sum]

def cutStatusSpec : CmdSpec := plainSpec 0x0301 0 (fun _ => true) (fun _ s => doneWith (cutStatusWords s) s)

/-- CUT_STATUS (R186). -/
def execCutStatus (c : Packet) (s : State) : Host.Outcome State Fault Refusal := runCommand cutStatusSpec c s

/-- The jobs that CUT_RETRY names: those that await retry within their 1 s, in order, while no more than 256 stand queued
(R4, R157, R172). -/
def retryJobs (seq : Word) (s : State) : List CutJob :=
  (s.cut.jobs.filter (fun j => j.state = .awaiting && !reached s (j.endedAt + 1000000000#64)
    && (seq = 0xFFFFFFFF#32 || j.seq = seq))).take (256 - jobsQueued s)

def cutRetrySpec : CmdSpec :=
  { plainSpec 0x0302 1 (fun _ => true) (fun c s =>
      let l := retryJobs (pw c 0) s
      doneWith [w32 l.length] (l.foldl (fun t j => setJob { j with state := .queued } t) s)) with
    ready := fun c s => pw c 0 = 0xFFFFFFFF#32 || !(retryJobs (pw c 0) s).isEmpty }

/-- CUT_RETRY (R172). -/
def execCutRetry (c : Packet) (s : State) : Host.Outcome State Fault Refusal := runCommand cutRetrySpec c s

/-- The seven words of STORE_STATUS. -/
def storeStatusWords (s : State) (p : Nat) : List Word :=
  loHi (BitVec.ofNat 64 (cutPlain s p).ringBase) ++ [w32 ((cutPlain s p).ringSize / 128), w32 (writeOffset s p / 128)]
    ++ loHi (writeTime s p) ++ [w32 (ringNs s p / 1000)]

def storeStatusSpec : CmdSpec := plainSpec 0x0303 1 (fun c => within c 0 0 3) (fun c s =>
  doneWith (storeStatusWords s (pn c 0)) s)

/-- STORE_STATUS (R155). -/
def execStoreStatus (c : Packet) (s : State) : Host.Outcome State Fault Refusal :=
  runCommand storeStatusSpec c s

/-- The six words of a span mark; a mark that still runs ends now. -/
def markWords (s : State) (p : Nat) (m : SpanMark) : List Word :=
  [pair16 m.ports.toNat m.kind, 0#32] ++ loHi m.start ++ loHi (m.stop.getD (antennaNow s p))

def spanMarksReadSpec : CmdSpec := plainSpec 0x0304 3 (fun c => within c 0 0 3 && within c 2 1 128) (fun c s =>
  let l := ((cutPlain s (pn c 0)).marks.drop (pn c 1)).take (pn c 2)
  doneWith (w32 l.length :: l.flatMap (markWords s (pn c 0))) s)

/-- SPAN_MARKS_READ (R154). -/
def execSpanMarksRead (c : Packet) (s : State) : Host.Outcome State Fault Refusal :=
  runCommand spanMarksReadSpec c s

def cutEngineRestartSpec : CmdSpec := plainSpec 0x0305 0 (fun _ => true) (fun _ s =>
  doneWith [w32 (s.cut.jobs.filter (fun j => j.state != .awaiting)).length] (restartCutting s))

/-- CUT_ENGINE_RESTART (R172). -/
def execCutEngineRestart (c : Packet) (s : State) : Host.Outcome State Fault Refusal :=
  runCommand cutEngineRestartSpec c s

def cutCountersReadSpec : CmdSpec := plainSpec 0x0320 2 (fun c => within c 0 0 3 && fits c 1 1) (fun c s =>
  let v := cutPlain s (pn c 0)
  let s1 := if pn c 1 = 1 then setCutPlain s (pn c 0) { v with counters := List.replicate 19 0 } else s
  doneWith (v.counters.map w32) s1)

/-- CUT_COUNTERS_READ (R186, R187). -/
def execCutCountersRead (c : Packet) (s : State) : Host.Outcome State Fault Refusal :=
  runCommand cutCountersReadSpec c s

end Sys2Proof.Machine
end

