-- ==== Sys2Proof/Machine/Combining.lean ====
section
/-! DEFINITION. Herd combining: reports, the choice of the combiner, combining sets, decode results and cut notices
(R176-R185), and the combining commands (R186). -/

namespace Sys2Proof.Machine

/-- Combining counter i raised by one (R186). -/
def countComb (i : Nat) (s : State) : State :=
  { s with comb := { s.comb with counters := listMod s.comb.counters i (fun n => saturate 32 (n + 1)) } }

/-- Combining is enabled while its member mask is not zero (R176). -/
def combining (s : State) : Bool := s.cfg.comb.mask != 0#64

/-! ### Sending a report -/

/-- The SNR of R101 at 1 % packet error for a spreading factor, in 0.1 dB. -/
def snrThreshold (sf : Nat) : Int := ([-40, -70, -95, -120, -145, -170, -195, -220] : List Int).getD (sf - 5) 0

/-- A failed frame qualifies for a report (R177). -/
def qualifies (s : State) (t : Track) : Bool :=
  combining s && bit s.cfg.comb.mask (ownHid s) && t.layer = 0
    && snrThreshold t.sf + s.cfg.comb.minSnr.toInt ≤ t.snr.toInt

/-- The members of the mask, ascending, rotated so that position k comes first. -/
def membersFrom (s : State) (k : Nat) : List Nat :=
  let l := maskList s.cfg.comb.mask
  l.drop k ++ l.take k

/-- The CRC-16 over SYNC, H[7:0], H[15:8], SF and the BW code that chooses the combiner (R179). -/
def combinerCrc (sync : Byte) (hdr : BitVec 16) (sf bw : Nat) : Nat :=
  crc16 (sync :: leBytes 2 hdr.toNat ++ [BitVec.ofNat 8 sf, BitVec.ofNat 8 bw])

/-- The combiner of a frame (R179): the member the header chooses, else the next in ascending order that is reachable
and is not this device. -/
def combinerOf (s : State) (t : Track) : Option Nat :=
  let l := membersFrom s (combinerCrc t.sync ((t.hdr.getD 0#24).setWidth 16) t.sf t.bw % maskCount s.cfg.comb.mask)
  match l with
  | [] => none
  | h :: r =>
    if h = ownHid s || reachable s h then some h
    else r.find? (fun k => k != ownHid s && reachable s k)

/-- The number of soft metrics of a frame: N_ps times b (R178). -/
def metricCount (t : Track) : Nat :=
  let h := t.hdr.getD 0#24
  payloadSymbols t.sf t.bw (hdrCr h) (hdrLen h) * payloadBits t.sf t.bw

/-- The report of a failed frame with the metrics its track formed (R135, R178). -/
def reportOf (s : State) (t : Track) : Report :=
  { hid := ⟨s.dev.hid.toNat, s.dev.hid.isLt⟩, plain := Fin.ofNat 4 t.plain, beam := Fin.ofNat 64 t.beam,
    bw := Fin.ofNat 4 t.bw, sf := Fin.ofNat 8 (t.sf - 5), sync := t.sync, hdr := (t.hdr.getD 0#24).setWidth 16,
    snr := t.snr, tEnd := t.tEnd, carrier := carrierOf s t.plain t.bw t.chan t.offset, seq := t.seq,
    cutWanted := (cutCfg s t.plain).enable && inRing s t.plain t.tStart,
    metrics := (List.range (metricCount t)).map (fun k => BitVec.ofInt 8 (t.metrics.getD k 0)) }

/-- The words of a report: 8 of fields, then the metrics as bytes, padded with zeros to a whole word (R178). -/
def reportWords (r : Report) : List Word :=
  [w32 (r.hid.val + 64 * r.plain.val + 256 * r.beam.val + 16384 * r.bw.val + 65536 * (5 + r.sf.val) + 1048576 * r.sync.toNat),
   pair16 r.snr.toNat r.hdr.toNat] ++ loHi r.tEnd
  ++ [r.carrier, r.seq, w32 (r.metrics.length + 65536 * flag r.cutWanted), 0#32] ++ wordsOfBytes r.metrics

/-! ### Sets -/

/-- A set is open until its window ends or it decodes (R181). -/
def setOpen (s : State) (x : CombSet) : Bool :=
  !x.closed && !reached s (x.opened + BitVec.ofNat 64 (1000000 * s.cfg.comb.window))

/-- Two values differ by no more than d. -/
def near (a b d : Nat) : Bool := a ≤ b + d && b ≤ a + d

/-- A report matches a set (R180): SYNC, HDR, SF and BW equal, T_END within min(T_sym / 4, 200 us), CARRIER within 2 kHz
of the set's first report. -/
def matchesSet (r : Report) (x : CombSet) : Bool :=
  match x.reports with
  | [] => false
  | (f, _) :: _ =>
    r.sync = f.sync && r.hdr = f.hdr && r.sf = f.sf && r.bw = f.bw
      && near r.tEnd.toNat f.tEnd.toNat (min (symbolNs (5 + r.sf.val) r.bw.val / 4) 200000)
      && near r.carrier.toNat f.carrier.toNat 2000

/-- The state with set x in place of the one with its id. -/
def setComb (x : CombSet) (s : State) : State :=
  { s with comb := { s.comb with sets := s.comb.sets.map (fun y => if y.id = x.id then x else y) } }

/-- Open sets. -/
def openSets (s : State) : Nat := (s.comb.sets.filter (setOpen s)).length

/-- A report opens a set. -/
def openSet (r : Report) (epoch : Word) (s : State) : State :=
  countComb 3 { s with comb := { s.comb with
    sets := s.comb.sets ++ [{ id := s.comb.nextId, opened := now s, reports := [(r, epoch)] }], nextId := s.comb.nextId + 1 } }

/-- Packets and combining attempts in the decoder's queue (R136, R182). -/
def decoderDepth (s : State) : Nat :=
  s.rx.decq.length + (s.comb.sets.map (fun x => (x.attempts.filter (fun a => a.queued)).length)).sum

/-- The metrics of reports added position by position, exactly (R182). -/
def sumMetrics (l : List (Report × Word)) : List Int :=
  let n := l.foldl (fun m x => max m x.1.metrics.length) 0
  (List.range n).map (fun k => (l.map (fun x => (x.1.metrics.getD k 0#8).toInt)).sum)

/-- A report joins a set; from the second on, the combiner makes a decode attempt of what the set then holds, which waits
for room in the decoder queue when that is full (R136, R182). -/
def joinSet (r : Report) (epoch : Word) (x : CombSet) (s : State) : State :=
  if 8 ≤ x.reports.length then raise .combineDiscard (countComb 6 s)
  else
    let l := x.reports ++ [(r, epoch)]
    let a : CombAttempt := { reports := l.length, sums := sumMetrics l, queued := decide (decoderDepth s < 512) }
    setComb { x with reports := l, attempts := x.attempts ++ [a] } s

/-- A report at the combiner (R180, R181). -/
def takeReport (r : Report) (epoch : Word) (s : State) : State :=
  let s1 := countComb 2 s
  match s1.comb.sets.find? (fun x => setOpen s1 x && matchesSet r x) with
  | some x => joinSet r epoch x s1
  | none =>
    if s1.comb.sets.any (matchesSet r) then countComb 8 s1
    else if 8192 ≤ openSets s1 then countComb 7 s1
    else openSet r epoch s1

/-- A report stamped with the present instant; it enters the combiner at the instant's end (R16). -/
def stampReport (r : Report) (epoch : Word) (s : State) : State :=
  { s with comb := { s.comb with inq := s.comb.inq ++ [(r, epoch)] } }

/-- The reports of one stamp in the order in which they enter: lower reporting herd ID first (R16). -/
def reportsInOrder (l : List (Report × Word)) : List (Report × Word) :=
  (List.range 64).flatMap (fun h => l.filter (fun x => x.1.hid.val = h))

/-- The reports of the instant that ends enter the combiner (R16, R180). -/
def resolveReports (s : State) : State :=
  (reportsInOrder s.comb.inq).foldl (fun t x => takeReport x.1 x.2 t) { s with comb := { s.comb with inq := [] } }

/-- COMBINING_REPORT (R180, R185): a report under an old boot epoch is discarded. -/
def execCombiningReport (r : Report) (epoch : Word) (s0 : State) : Host.Outcome State Fault Refusal :=
  let s := mirrorHerd (.report r epoch) s0
  .next (if oldEpoch s r.hid.val epoch then countComb 9 s else stampReport r epoch s)

/-- The report of a failed frame sent to its combiner, or combined locally; with the mark of its record (R177, R179). -/
def sendReport (t : Track) (s : State) : Track × State :=
  if !combining s || t.layer != 0 then (t, s)
  else if !qualifies s t then (t, s)
  else
    match (if s.herd.leaving then none else combinerOf s t) with
    | none => (markTrack 21 t, countComb 1 s)
    | some h =>
      let r := reportOf s t
      let s1 := countComb 0 { s with free := s.free + 1, comb := { s.comb with lastCombiner := h } }
      (markTrack 20 t, if h = ownHid s then stampReport r (herdEpoch s) s1 else originate (.report h r) s1)

/-! ### Decode results -/

/-- The report that gives a combined record its fields (R183): the highest SNR, at equal SNR the lower HID. -/
def bestReport (l : List Report) : Option Report :=
  firstBy (fun a b => b.snr.toInt < a.snr.toInt || (a.snr.toInt = b.snr.toInt && a.hid.val < b.hid.val)) l

/-- The header that a report's HDR gives (R83: the HCRC follows from it). -/
def headerFrom (h : BitVec 16) : BitVec 24 := (headerCrc h).setWidth 24 <<< 16 ||| h.setWidth 24

/-- N_pre of a frame of which only the header is known: a free value of 8 to 64 (R78). -/
def freePreamble (s : State) : Nat := 8 + (Config.freeWord s.free).toNat % 57

/-- The frame that a combined decode gives (R183); T_START is T_END less T_air. -/
def combinedTrack (s : State) (b : Report) (n : Nat) (x : DecodeIn) : Track :=
  let h := headerFrom b.hdr
  let sf := 5 + b.sf.val
  let air := airtime sf b.bw.val (hdrCr h) (hdrLen h) (freePreamble s) (hdrPilot h)
  { hid := some b.hid.val, plain := b.plain.val, beam := b.beam.val, bw := b.bw.val, sf := sf, sync := b.sync, stage := 3, hdr := some h,
    snr := b.snr, tEnd := b.tEnd, tStart := b.tEnd - BitVec.ofNat 64 (1000 * air), combined := n, iter := x.iter.val,
    bytes := (infoBytes (hdrLen h) x.info).take (hdrLen h), marks := w32 32 }

/-- The payload is decoded (R89, R93): every block of its whole number meets its checks, and the CRC-16 of the de-whitened
bytes matches the L bytes before it. -/
def decodeOk (len : Nat) (x : DecodeIn) : Bool :=
  let l := infoBytes len x.info
  x.blocksOk && x.info.length = 128 * codeBlocks len && crc16 (l.take len) = leNat (l.drop len)

/-- The reporter's frame of a cut notice offered to its cutting engine (R184). -/
def takeNotice (x : NoticeIn) (s : State) : State :=
  match (List.range 4).findSome? (fun p => (cutPlain s p).failed.find? (fun f => f.seq = x.seq)) with
  | some f =>
    let t : Track := { f.track with hdr := some (headerFrom x.hdr), bytes := x.bytes, tEnd := x.tEnd, layer := 0, doneAt := now s }
    (offerCut t true (dropFailed f.track.plain x.seq s)).2
  | none => s

/-- The cut notice for a reporter (R184): sent, or taken here when this device reported; none for a peer whose boot epoch
has changed since its report (R185). -/
def sendNotice (r : Report) (epoch : Word) (bytes : List Byte) (s : State) : State :=
  let x : NoticeIn := { src := ⟨s.dev.hid.toNat, s.dev.hid.isLt⟩, epoch := herdEpoch s, bytes := bytes, hdr := r.hdr,
                        tEnd := r.tEnd, carrier := r.carrier, seq := r.seq }
  if !r.cutWanted then s
  else if r.hid.val = ownHid s then takeNotice x s
  else if oldEpoch s r.hid.val epoch then s
  else originate (.notice r.hid.val x) s

/-- A successful combined decode of n reports (R182-R184): the set closes, the frame goes to the link engine, and each
reporter that asked for it gets a cut notice. -/
def combined (x : CombSet) (n : Nat) (b : Report) (d : DecodeIn) (s : State) : State :=
  let t := combinedTrack s b n d
  let s1 := countComb 4 (setComb { x with closed := true, attempts := [] } { s with free := s.free + 1 })
  x.reports.foldl (fun u r => sendNotice r.1 r.2 t.bytes u) (joinOwn { t with doneAt := now s } s1)

/-- COMBINE_DECODE_RESULT (R182, R183): of the set's oldest attempt in the decoder queue; the record's fields come from the
reports that it summed. -/
def execCombineDecodeResult (set : Nat) (x : DecodeIn) (s : State) : Host.Outcome State Fault Refusal :=
  match s.comb.sets.find? (fun y => y.id = set) with
  | none => .next s
  | some y =>
    match (if setOpen s y then y.attempts.find? (fun a => a.queued) else none) with
    | none => .next s
    | some a => match bestReport ((y.reports.take a.reports).map (fun r => r.1)) with
      | none => .next s
      | some b =>
        if decodeOk (hdrLen (headerFrom b.hdr)) x then .next (combined y a.reports b x s)
        else .next (setComb { y with attempts := y.attempts.erase a } s)

/-- COMBINE_WINDOW_EXPIRY (R181, R182): a set whose window ends undecoded is discarded and counted. -/
def execCombineWindowExpiry (set : Nat) (s : State) : Host.Outcome State Fault Refusal :=
  match s.comb.sets.find? (fun y => y.id = set) with
  | some y =>
    if y.closed || setOpen s y then .next s
    else .next (countComb 5 (setComb { y with closed := true, attempts := [] } s))
  | none => .next s

/-- CUT_NOTICE (R184, R185, R394): none under an old boot epoch, none once the device is leaving the herd. -/
def execCutNotice (x : NoticeIn) (s0 : State) : Host.Outcome State Fault Refusal :=
  let s := mirrorHerd (.notice x) s0
  .next (if oldEpoch s x.src.val x.epoch || s.herd.leaving then s else takeNotice x s)

/-! ### Commands -/

/-- Every open set discarded and counted as expired (R187). -/
def discardSets (s : State) : State :=
  let n := (s.comb.sets.filter (fun x => !x.closed)).length
  { s with comb := { s.comb with
      sets := s.comb.sets.filter (fun x => x.closed)
      counters := listMod s.comb.counters 5 (fun k => saturate 32 (k + n)) } }

def combineSetSpec : CmdSpec :=
  plainSpec 0x0310 5 (fun c => within c 2 5 200 && fits c 3 16 && within c 4 34 63) (fun c s =>
    let s1 := discardSets s
    let v : CombCfg := { mask := p64 c 0, window := pn c 2, minSnr := (pw c 3).setWidth 16, queue := pn c 4 }
    done { s1 with cfg := { s1.cfg with comb := v } })

/-- COMBINE_SET (R176, R187). -/
def execCombineSet (c : Packet) (s : State) : Host.Outcome State Fault Refusal := runCommand combineSetSpec c s

/-- Reports held in open sets. -/
def reportsHeld (s : State) : Nat := ((s.comb.sets.filter (setOpen s)).map (fun x => x.reports.length)).sum

def combineStatusSpec : CmdSpec := plainSpec 0x0311 0 (fun _ => true) (fun _ s =>
  doneWith [w32 (openSets s), w32 (reportsHeld s), w32 s.comb.lastCombiner] s)

/-- COMBINE_STATUS (R186). -/
def execCombineStatus (c : Packet) (s : State) : Host.Outcome State Fault Refusal :=
  runCommand combineStatusSpec c s

def combineCountersReadSpec : CmdSpec := plainSpec 0x0321 1 (fun c => fits c 0 1) (fun c s =>
  let s1 := if pn c 0 = 1 then { s with comb := { s.comb with counters := List.replicate 11 0 } } else s
  doneWith (s.comb.counters.map w32) s1)

/-- COMBINE_COUNTERS_READ (R186). -/
def execCombineCountersRead (c : Packet) (s : State) : Host.Outcome State Fault Refusal :=
  runCommand combineCountersReadSpec c s

end Sys2Proof.Machine
end

