-- ==== Sys2Proof/Machine/Withdraw.lean ====
section
/-! DEFINITION. Ending tracks early (R138, R140, R518, R519) and withdrawals of receive capacity: acceptance, drain,
completion and abort (R139-R142, R148, R520). -/

namespace Sys2Proof.Machine

/-! ### Tracks ended early -/

/-- T_END of a track that ends now: the end of T_air once its header is valid, else the instant it ends at the antenna
(R518); T_START is the one estimated so far. -/
def endOf (s : State) (t : Track) : BitVec 64 := if t.hdr.isSome then t.tEnd else toTen (antennaNow s t.plain)

/-- A track ended with an outcome and a record. -/
def endTrack (outcome status : Nat) (t : Track) (s : State) : State :=
  postFailed { t with tEnd := endOf s t } outcome status (releaseTrack t.num s)

/-- A track aborted by a withdrawal (R140). -/
def abortTrack (t : Track) (s : State) : State := endTrack 4 0x0702 t (countRx 7 t.plain s)

/-- Of the tracks numbered in a list, those in progress. -/
def runningOf (s : State) (l : List Nat) : List Track := s.rx.tracks.filter (fun t => l.contains t.num && inProgress t)

/-- How many tracks of a list are in progress on each plain. -/
def runningBy (s : State) (l : List Nat) : List Nat :=
  (List.range 4).map (fun p => ((runningOf s l).filter (fun t => t.plain = p)).length)

/-- Every track of the list that is in progress aborted. -/
def abortTracks (l : List Nat) (s : State) : State := (runningOf s l).foldl (fun u t => abortTrack t u) s

/-! ### Withdrawals -/

/-- Some withdrawal drains. -/
def drainsAny (s : State) : Bool := !s.rx.drains.isEmpty

/-- A plain's ports lose their links: its front end is off (R450). -/
def lanesDown (p : Nat) (s : State) : State :=
  (portsOf s p).foldl (fun t n => setPort t n { portRun t n with lane := 0 }) s

/-- A plain's drain has completed: it is disabled and the store repartitioned (R139, R153). -/
def disablePlain (p : Nat) (s : State) : State :=
  if (plainCfg s p).enabled then
    refreshMode (repartition (lanesDown p (setPlainCfg s p { plainCfg s p with enabled := false })))
  else s

/-- A beam of the active bank has a non-zero weight for a chain of the mask (R520). -/
def usesChains (v : PlainCfg) (b : Nat) (m : BitVec 128) : Bool := (maskList m).any (fun c => chainWeight v b c != 0#32)

/-- What a completed withdrawal leaves: the capacity off, and the additions made that waited for it (R139, R148). -/
def withdrawalDone (w : Withdrawal) (s : State) : State :=
  let p := w.plain.getD 0
  let v := plainCfg s p
  match w.kind with
  | .plain => disablePlain p s
  | .chains left =>
    refreshMode (changePlain p { v with chainMask := w.after.chainMask }
      (markTracks 1 (fun t => t.plain = p && usesChains v t.beam left) s))
  | .search => refreshMode (changePlain p (withAdditions w v) s)
  | .beams => refreshMode (changePlain p (withAdditions w v) s)
  | .paddocks => refreshMode s
  | .herdLeave =>
    let s1 := ((List.range 4).filter (fun q => (plainCfg s q).enabled)).foldl
      (fun t q => postEvent 0x0203 q (w32 (w.byPlain.getD q 0)) (disablePlain q t)) s
    { s1 with herd := { s1.herd with leaveMsgs := true } }
  | .mode _ => s

/-- The event of a completed withdrawal (R150). -/
def withdrawalEvent (w : Withdrawal) (s : State) : State :=
  match w.kind with
  | .mode _ => s
  | .herdLeave => s
  | _ => postEvent 0x0203 (w.plain.getD 0xFFFF) (w32 w.aborted) s

/-- A withdrawal's end: its effects and its event. -/
def finishWithdrawal (w : Withdrawal) (s : State) : State :=
  let s1 := { s with rx := { s.rx with drains := s.rx.drains.filter (fun x => !(x.queue = w.queue && x.tag = w.tag)) } }
  withdrawalEvent w (withdrawalDone w s1)

/-- A withdrawal begins: what is withdrawn already takes no detections; tracks in progress on it are marked DRAINED and
drain, or end at once with FORCE (R139, R140). -/
def beginWithdrawal (w : Withdrawal) (force : Bool) (s : State) : Answer :=
  let s1 := { s with rx := { s.rx with
      tracks := s.rx.tracks.map (fun t => if w.tracks.contains t.num && inProgress t then markTrack 8 t else t) } }
  let n := if force then (runningOf s1 w.tracks).length else 0
  let k := if force then runningBy s1 w.tracks else [0, 0, 0, 0]
  let x : Withdrawal := { w with deadline := after s 4000000000, aborted := n, byPlain := k }
  let s2 := { s1 with rx := { s1.rx with drains := s1.rx.drains ++ [x] } }
  let s3 := if force then abortTracks w.tracks s2 else s2
  match s3.rx.drains.find? (fun x => x.queue = w.queue && x.tag = w.tag) with
  | some x => if x.tracks.isEmpty then doneWith [w32 n] (finishWithdrawal x s3) else runsOn s3
  | none => done s3

/-- A withdrawal that drains no more: its reply (R139, R140). -/
def closeWithdrawal (w : Withdrawal) (s : State) : State :=
  complete w.queue w.tag .ok [w32 w.aborted] (finishWithdrawal w s)

/-- The withdrawal of a command. -/
def withdrawalOf (s : State) (q : Nat) (tag : BitVec 16) : Option Withdrawal :=
  s.rx.drains.find? (fun w => w.queue = q && w.tag = tag)

/-- A drain that a mode transition runs; its end is MODE_ENTRY_DRAIN_COMPLETE (R452). -/
def isModeDrain (w : Withdrawal) : Bool :=
  match w.kind with
  | .mode _ => true
  | _ => false

/-- WITHDRAWAL_DRAIN_COMPLETE (R139): the last track on the withdrawn capacity has ended. -/
def execWithdrawalDrainComplete (q : Fin 16) (tag : BitVec 16) (s : State) : Host.Outcome State Fault Refusal :=
  match withdrawalOf s q.val tag with
  | some w => if w.tracks.isEmpty && !isModeDrain w then .next (closeWithdrawal w s) else .next s
  | none => .next s

/-- The tracks of a drain that has run 4.0 s aborted and counted (R140). -/
def timeOut (w : Withdrawal) (s : State) : State :=
  let n := (runningOf s w.tracks).length
  let k := runningBy s w.tracks
  let more (x : Withdrawal) : Withdrawal :=
    if x.queue = w.queue && x.tag = w.tag then { x with aborted := x.aborted + n, byPlain := List.zipWith (· + ·) x.byPlain k } else x
  abortTracks w.tracks { s with rx := { s.rx with drains := s.rx.drains.map more } }

/-- WITHDRAWAL_DRAIN_TIMEOUT (R140, R519): finished tracks that wait for the decoder queue are not aborted. -/
def execWithdrawalDrainTimeout (q : Fin 16) (tag : BitVec 16) (s : State) : Host.Outcome State Fault Refusal :=
  match withdrawalOf s q.val tag with
  | some w =>
    if !reached s w.deadline then .next s
    else
      let s1 := timeOut w s
      match withdrawalOf s1 q.val tag with
      | some x => if x.tracks.isEmpty && !isModeDrain x then .next (closeWithdrawal x s1) else .next s1
      | none => .next s1
  | none => .next s

/-- A draining withdrawal aborted by the host: the configuration as before its command, tracks unmarked (R141). -/
def abortWithdrawal (w : Withdrawal) (s : State) : State :=
  let p := w.plain.getD 0
  let v := plainCfg s p
  let unmark (t : Track) : Track :=
    if w.tracks.contains t.num && inProgress t then { t with marks := setBit t.marks 8 false } else t
  let s1 := { s with rx := { s.rx with
    tracks := s.rx.tracks.map unmark
    drains := s.rx.drains.filter (fun x => !(x.queue = w.queue && x.tag = w.tag)) } }
  match w.kind with
  | .search => refreshMode (changePlain p { v with gridMask := w.before.gridMask, sfMask := w.before.sfMask } s1)
  | .beams => refreshMode (changePlain p { v with beamMask := beamsBelow (v.beamMask ||| w.before.beamMask) v.beams } s1)
  | .paddocks =>
    refreshMode { s1 with cfg := { s1.cfg with rx := { s1.cfg.rx with padOut := s1.cfg.rx.padOut &&& ~~~ w.paddocks } } }
  | .herdLeave => { s1 with herd := { s1.herd with leaving := false } }
  | _ => s1

/-- Track numbers of the tracks with property f. -/
def trackNums (s : State) (f : Track → Bool) : List Nat := (s.rx.tracks.filter f).map (fun t => t.num)

end Sys2Proof.Machine
end

