-- ==== Sys2Proof/Machine/Tracks.lean ====
section
/-! DEFINITION. From detection to decode: the events of a track's life (R128-R138, R518, R519), the decoder (R93, R151),
and the records of frames that do not reach the link engine. -/

namespace Sys2Proof.Machine

/-! ### Detection (R128, R130, R126, R127) -/

/-- The plain declares detections: it is enabled and no withdrawal of the whole plain drains (R139). -/
def detecting (s : State) (p : Nat) : Bool :=
  datapathRuns s && (plainCfg s p).enabled && !s.rx.drains.any (fun w => match w.kind with
    | .plain => w.plain = some p
    | .herdLeave => true
    | .mode _ => true
    | _ => false)

/-- The detection can be declared there: its windows agree, on a stream that is searched since before them, free of blanking
(R128, R137, R148). -/
def detectable (s : State) (d : DetectIn) : Bool :=
  let p := d.plain.val
  let t := trackOf (plainCfg s p) d 0
  detecting s p && windowsDeclare (plainCfg s p) d && channelExists d && searched s p t && searchedSince s p t
    && !bit (rxPlain s p).beamZero d.beam.val && !touchesBlanked s p t

/-- Other beams of a frame in order of energy, equal energies by lower beam, at most three (R130). -/
def addAlt (b e own : Nat) (l : List (Nat × Nat)) : List (Nat × Nat) :=
  if b = own then l.filter (fun x => x.1 != own)
  else
    let best := l.foldl (fun m x => if x.1 = b then max m x.2 else m) e
    let rest := l.filter (fun x => x.1 != b && x.1 != own)
    let after (x : Nat × Nat) : Bool := best < x.2 || (best = x.2 && x.1 < b)
    (rest.takeWhile after ++ [(b, best)] ++ rest.dropWhile after).take 3

/-- The track moves to a detection of its frame with greater peak energy; at equal energy it stays on the lower beam and
then the lower channel (R130). -/
def moveTrack (d : Track) (t : Track) : Track :=
  let moves := t.energy < d.energy || (t.energy = d.energy && (d.beam < t.beam || (d.beam = t.beam && d.chan < t.chan)))
  if moves then
    { t with beam := d.beam, chan := d.chan, energy := d.energy, bin := d.bin,
             alts := addAlt t.beam t.energy d.beam (t.alts.filter (fun x => x.1 != d.beam)) }
  else { t with alts := addAlt d.beam d.energy t.beam t.alts }

/-- The live track that already follows the frame of a detection, for one symbol after its own detection (R130). -/
def sameTrack (s : State) (d : Track) : Option Track :=
  s.rx.tracks.find? (fun t => t.stage = 0 && t.job.isNone && sameFrame t d)

/-- The marks that follow from the span a frame has covered by the antenna time b (R145). -/
def spanMarks (s : State) (b : BitVec 64) (t : Track) : Track :=
  let u := if spanMarked s t.plain 2 t.tStart b then markTrack 0 t else t
  if spanMarked s t.plain 1 t.tStart b then markTrack 3 u else u

/-- A declared detection: another of a frame that is followed, a new track, or a refusal (R126, R127, R130). -/
def declare (t : Track) (s : State) : State :=
  let p := t.plain
  match sameTrack s t with
  | some u => modTrack u.num (moveTrack t) s
  | none =>
    if s.rx.tracks.any (fun u => u.job.isNone && sameFrame u t) then s
    else
      let s1 := countRx 0 p s
      match freeContext s1 p with
      | some n => noteActivity (claimTrack (spanMarks s1 (antennaNow s1 p) { t with num := n }) s1)
      | none => raise (.trackOverflow (Fin.ofNat 4 p)) (countRx 1 p s1)

/-- DETECTION (R128): declared, it competes for a track with the other detections of its instant (R16). -/
def execDetection (d : DetectIn) (s : State) : Host.Outcome State Fault Refusal :=
  .next (if detectable s d then addPend { track := trackOf (plainCfg s d.plain.val) d 0 } s else s)

/-- The order in which detections take tracks: detection instant, plain, beam, bandwidth, spreading factor, channel (R16). -/
def pendKey (x : Pend) : List Nat :=
  [x.track.inst.toNat, x.track.plain, x.track.beam, x.track.bw, x.track.sf, x.track.chan]

/-- One detection comes before another (R16). -/
def pendBefore (a b : Pend) : Bool := keyBefore (pendKey a) (pendKey b)

/-- A detection in its place among others. -/
def insertPend (x : Pend) (l : List Pend) : List Pend :=
  l.takeWhile (fun y => !pendBefore x y) ++ [x] ++ l.dropWhile (fun y => !pendBefore x y)

/-- A detection takes its track: on the residue while its job runs, else live (R127, R169). -/
def settlePend (x : Pend) (s : State) : State :=
  match x.track.job with
  | some j => if (jobAt s j).any (fun k => k.state = .residue) then claimResidue x s else s
  | none => declare x.track s

/-- The detections of the instant that ends take tracks in order (R16, R127, R169). -/
def resolveDetections (s : State) : State :=
  (s.rx.detq.foldl (fun l x => insertPend x l) []).foldl (fun t x => settlePend x t) { s with rx := { s.rx with detq := [] } }

/-! ### The track's decisions -/

/-- PREAMBLE_TIMEOUT (R131): no down-chirps within 64 symbols of the detection instant; no record. -/
def execPreambleTimeout (t : Fin 4096) (s : State) : Host.Outcome State Fault Refusal :=
  match trackAt s t.val with
  | some u =>
    if u.stage = 0 && (u.job.isSome || notBefore (antennaNow s u.plain) (u.inst + BitVec.ofNat 64 (64 * symbolNs u.sf u.bw))) then
      .next (releaseTrack u.num (countRx 2 u.plain s))
    else .next s
  | none => .next s

/-- SYNC_DECISION (R132): the track goes on, or the frame is dropped and counted, without a record. -/
def execSyncDecision (t : Fin 4096) (k1 k2 : Nat) (tStart : BitVec 64) (s : State) : Host.Outcome State Fault Refusal :=
  match trackAt s t.val with
  | some u =>
    if u.stage != 0 then .next s
    else
      let v := syncValue (k1 % (256 * 2 ^ u.sf)) (k2 % (256 * 2 ^ u.sf)) u.sf
      if (plainCfg s u.plain).sync.contains v then
        .next (modTrack u.num (fun x => spanMarks s (antennaNow s x.plain) { x with stage := 1, sync := v, tStart := toTen tStart }) s)
      else .next (releaseTrack u.num (countRx 3 u.plain s))
  | none => .next s

/-- The track after a header result (R133): L, CR and PILOT fix its end, with symbol timing corrected from the measured
offset (R100). -/
def takeHeader (s : State) (x : HeaderIn) (u : Track) : Track :=
  let r := headerDecode u.sf u.bw x.shifts
  let v : Track := { u with snr := x.snr, power := x.power, offset := x.offset }
  if r.1 = 0 then
    { v with hdr := some r.2, hdrFail := 0, stage := 2,
             tEnd := toTen (x.stop + BitVec.ofNat 64 (symbolsNs s v (symbolsAfterHeader u r.2))) }
  else { v with hdr := none, hdrFail := r.1, tEnd := toTen x.stop }

/-- A live frame whose header is invalid: counted, placed on the failed list, and recorded (R133, R166). -/
def headerInvalid (u : Track) (s : State) : State :=
  let v := markTrack 22 u
  let s1 := countRx 4 u.plain (releaseTrack u.num s)
  postFailed v 1 0 (listFailed v s1.rx.seq s1)

/-- The residue decode of a job fails a check of R171: discarded and counted under it (13 + condition 2 + ...). -/
def discardResidue (condition : Nat) (u : Track) (s : State) : State := countCut (14 + condition) u.plain 1 s

/-- HEADER_RESULT (R133, R171). -/
def execHeaderResult (t : Fin 4096) (x : HeaderIn) (s : State) : Host.Outcome State Fault Refusal :=
  match trackAt s t.val with
  | some u =>
    if u.stage != 1 || x.shifts.length != headerSymbols u.sf then .next s
    else
      let v := takeHeader s x u
      if v.hdrFail = 0 then .next (modTrack u.num (fun _ => v) s)
      else if u.job.isSome then .next (discardResidue 1 u (releaseTrack u.num s))
      else .next (headerInvalid v s)
  | none => .next s

/-- Symbols from the header to the end of the track's frame (R133). -/
def symbolsLeft (u : Track) : Nat := symbolsAfterHeader u (u.hdr.getD 0#24)

/-- Pilots of the track's frame (R94). -/
def pilotsOf (u : Track) : Nat :=
  let h := u.hdr.getD 0#24
  pilotSymbols (hdrPilot h) (payloadSymbols u.sf u.bw (hdrCr h) (hdrLen h))

/-- The drift between two pilots: the change of offset over the time between them, in Hz/s to the nearest (R134). -/
def driftOf (a b : Word) (ns : Nat) : BitVec 16 := BitVec.ofInt 16 (saturate16 (roundAway ((b.toInt - a.toInt) * 1000000000) ns))

/-- A track after its next pilot, which ended at the antenna at `stop` with this offset: offset, drift and timing
re-estimated (R100, R134). -/
def takePilot (s : State) (offset : Word) (stop : BitVec 64) (u : Track) : Track :=
  let v : Track := { u with offset := offset, pilots := u.pilots + 1, pilotAt := stop,
                            drift := if u.pilots = 0 then u.drift else driftOf u.offset offset (stop - u.pilotAt).toNat }
  { v with tEnd := toTen (stop + BitVec.ofNat 64 (symbolsNs s v (symbolsLeft u - 17 * v.pilots))) }

/-- PILOT (R134): carrier offset, drift and symbol timing re-estimated at each pilot of the frame. -/
def execPilot (t : Fin 4096) (offset : Word) (stop : BitVec 64) (s : State) : Host.Outcome State Fault Refusal :=
  match trackAt s t.val with
  | some u =>
    if u.stage = 2 && u.pilots < pilotsOf u && (u.pilots = 0 || u.pilotAt < stop) then
      .next (modTrack u.num (takePilot s offset stop) s)
    else .next s
  | none => .next s

/-! ### The decoder queue (R136, R519) -/

/-- The span of payload symbol k of a track's frame at the antenna, pilots counted in (R94). -/
def symbolSpan (s : State) (u : Track) (k : Nat) : BitVec 64 × BitVec 64 :=
  let i := if pilotsOf u = 0 then k else k + k / 16
  let start := u.tEnd - BitVec.ofNat 64 (symbolsNs s u (symbolsLeft u))
  (start + BitVec.ofNat 64 (symbolsNs s u i), start + BitVec.ofNat 64 (symbolsNs s u (i + 1)))

/-- Payload symbol k lies wholly in a blanked or lane-loss span (R135). -/
def symbolLost (s : State) (u : Track) (k : Nat) : Bool :=
  let a := symbolSpan s u k
  (cutPlain s u.plain).marks.any (fun m => (m.kind = 1 || m.kind = 2) && covers m a.1 a.2)

/-- A log-likelihood ratio in units of 1/8, saturated at 127 either way (R135). -/
def softMetric (v : Int) : Int := if v < -127 then -127 else if 127 < v then 127 else v

/-- The soft metrics of a payload (R135): one per bit of each symbol's word; 0 for the symbols lost. -/
def softMetrics (s : State) (u : Track) (l : List Int) : List Int :=
  let b := payloadBits u.sf u.bw
  (List.range (metricCount u)).map (fun j => if symbolLost s u (j / b) then 0 else softMetric (l.getD j 0))

/-- A track at the end of its last symbol: what it has measured, its metrics, and for a residue track the marks of the span
it read (R134, R135, R145). Offset is the last pilot's; drift comes from two pilots, else from the payload symbols (log
109). -/
def finishTrack (s : State) (x : LastIn) (u : Track) : Track :=
  let v : Track := { u with stage := 3, laneT0 := x.lane, snr := x.snr, power := x.power,
                            offset := if u.pilots = 0 then x.offset else u.offset
                            drift := if u.pilots < 2 then x.drift else u.drift, metrics := softMetrics s u x.llrs }
  if v.job.isSome then spanMarks s v.tEnd v else v

/-- A finished track handed to the decoder queue: it is released (R136). -/
def enterDecoder (t : Track) (s : State) : State :=
  let s1 := releaseTrack t.num s
  { s1 with rx := { s1.rx with decq := s1.rx.decq ++ [t] } }

/-- TRACK_LAST_SYMBOL (R136, R519): the packet goes to the decoder, or waits for room in its queue behind those that wait
already. -/
def execTrackLastSymbol (t : Fin 4096) (x : LastIn) (s : State) : Host.Outcome State Fault Refusal :=
  match trackAt s t.val with
  | some u =>
    if u.stage != 2 then .next s
    else
      let v := finishTrack s x u
      if decoderDepth s < 512 && !s.rx.tracks.any (fun w => w.stage = 3) then .next (enterDecoder v s)
      else .next (modTrack u.num (fun _ => v) s)
  | none => .next s

/-- The order of tracks at the decoder (R16): earlier last-symbol instant, then lower track number. -/
def decoderBefore (a b : Track) : Bool := keyBefore [a.tEnd.toNat, a.num] [b.tEnd.toNat, b.num]

/-- The first combining attempt that waits for room enters the decoder's queue (R182). -/
def enterAttempt (s : State) : State :=
  match s.comb.sets.find? (fun x => x.attempts.any (fun a => !a.queued)) with
  | some x =>
    let l := x.attempts.takeWhile (fun a => a.queued)
    setComb { x with attempts := l ++ (((x.attempts.drop l.length).take 1).map (fun a => { a with queued := true }))
                                   ++ x.attempts.drop (l.length + 1) } s
  | none => s

/-- DECODER_QUEUE_ENTRY (R136, R519): the first finished track that waits enters when the queue has room, and with none the
first combining attempt that waits (R182). -/
def execDecoderQueueEntry (s : State) : Host.Outcome State Fault Refusal :=
  if 512 ≤ decoderDepth s || s.dev.clkLost then .next s
  else match firstBy decoderBefore (s.rx.tracks.filter (fun t => t.stage = 3)) with
    | some t => .next (enterDecoder { t with waited := true } s)
    | none => .next (enterAttempt s)

/-! ### The decoder's result (R93) -/

/-- A decoded live frame: its record number, its cutting job, and its way to the link engine (R146, R157). -/
def decodedLive (t : Track) (s : State) : State :=
  let u : Track := { t with seq := s.rx.seq }
  let r := offerCut u false (takeSeq s)
  let s1 := rememberDecoded r.1 (countRx 6 t.plain r.2)
  joinLink { track := r.1 } s1

/-- A live frame whose payload failed: the failed list, a combining report, and the record (R93, R166, R177). -/
def payloadFailed (t : Track) (s : State) : State :=
  let u : Track := markTrack 22 { t with seq := s.rx.seq }
  let r := sendReport u (countRx 5 t.plain (listFailed u u.seq s))
  postFailed { r.1 with seq := r.2.rx.seq } 2 0 r.2

/-- The decoder's result for one packet. -/
def decoded (t : Track) (x : DecodeIn) (s : State) : State :=
  let len := hdrLen (t.hdr.getD 0#24)
  let u : Track := { t with iter := x.iter.val, bytes := (infoBytes len x.info).take len, doneAt := now s }
  if decodeOk len x then
    if t.job.isSome then joinOwn { u with marks := u.marks ||| 32#32 } s
    else decodedLive u s
  else if t.job.isSome then discardResidue 1 u s
  else payloadFailed { u with bytes := [] } s

/-- DECODER_RESULT (R93, R16): the packet that is first in order. -/
def execDecoderResult (x : DecodeIn) (s : State) : Host.Outcome State Fault Refusal :=
  match firstBy decoderBefore s.rx.decq with
  | some t => .next (decoded t x { s with rx := { s.rx with decq := s.rx.decq.erase t } })
  | none => .next s

/-- DECODER_SELF_CHECK (R151): once a second, while no packet waits for the decoder; a differing result sets the trouble
bit, and the soundness self-test judges the decoder, subsystem 7. -/
def execDecoderSelfCheck (ok : Bool) (s : State) : Host.Outcome State Fault Refusal :=
  if decoderDepth s != 0 then .next s
  else if ok then .next { s with rx := { s.rx with decoderBad := false } }
  else .next (selfTest (maskOf 20 [6]) (raise .decoderFault { s with rx := { s.rx with decoderBad := true } })).2

/-- Every track in progress ended by clock loss, and the rings take no samples (R19, R138). -/
def clockLossTracks (s : State) : State :=
  (List.range 4).foldl (fun u p => stopRing p u) ((s.rx.tracks.filter inProgress).foldl (fun u t => endTrack 3 0 t u) s)

end Sys2Proof.Machine
end

