-- ==== Sys2Proof/Machine/RadioCtl.lean ====
section
/-! DEFINITION. Port sequencers and their scripts, calibration tables and tuning, reference synthesisers, and the
settings of the transmit chain and of coexistence (R189-R206, R208, R211-R214, R222, R226, R227). -/

namespace Sys2Proof.Machine

/-! ### Settings and run state -/

/-- Transmit settings of plain p in force. -/
def txCfg (s : State) (p : Nat) : TxPlainCfg := tabGet s.cfg.tx.plains p { recQ := 40 + p }

/-- Plain p with these transmit settings. -/
def setTxCfg (s : State) (p : Nat) (v : TxPlainCfg) : State :=
  { s with cfg := { s.cfg with tx := { s.cfg.tx with plains := tabSet s.cfg.tx.plains p v } } }

/-- Transmit state of plain p. -/
def txRun (s : State) (p : Nat) : TxPlain := tabGet s.radio.plains p {}

/-- Plain p in this transmit state. -/
def setTxRun (s : State) (p : Nat) (v : TxPlain) : State :=
  { s with radio := { s.radio with plains := tabSet s.radio.plains p v } }

/-- Transmit counter i of plain p raised by n (R226, R149). -/
def countTx (i p n : Nat) (s : State) : State :=
  let v := txRun s p
  setTxRun s p { v with counters := listMod v.counters i (fun k => saturate 32 (k + n)) }

/-- The transmit settings that the next change starts from: those waiting for the slot boundary, else those in force
(R226). -/
def txNext (s : State) (p : Nat) : TxPlainCfg := (txRun s p).pending.getD (txCfg s p)

/-- A change of a plain's transmit settings, in force from the next slot boundary (R226). -/
def txChange (p : Nat) (f : TxPlainCfg → TxPlainCfg) (s : State) : State :=
  setTxRun s p { txRun s p with pending := some (f (txNext s p)) }

/-- RCKr as it runs. -/
def rck (s : State) (r : Nat) : Rck := tabGet s.radio.rck r {}

/-- The state with RCKr replaced. -/
def setRck (s : State) (r : Nat) (v : Rck) : State := { s with radio := { s.radio with rck := tabSet s.radio.rck r v } }

/-- The port is in an enabled plain. -/
def inEnabledPlain (s : State) (n : Nat) : Bool :=
  match plainOfPort s n with
  | some p => (plainCfg s p).enabled
  | none => false

/-! ### Scripts (R191-R196) -/

/-- A script step from its two words (R192). -/
def stepOf (w0 w1 : Word) : SpiStep :=
  { frame := (w1.setWidth 8).setWidth 40 <<< 32 ||| w0.setWidth 40, len := bits w1 13 8, verify := bit w1 14,
    read := bit w1 15, delay := bits w1 31 16 }

/-- The two words of a step (R192). -/
def stepWords (v : SpiStep) : List Word :=
  [v.frame.setWidth 32, w32 (bits v.frame 39 32 + 256 * v.len + 16384 * flag v.verify + 32768 * flag v.read + 65536 * v.delay)]

/-- n steps of two words each from parameter word i. -/
def stepsAt (c : Packet) (i n : Nat) : List SpiStep := (List.range n).map (fun k => stepOf (pw c (i + 2 * k)) (pw c (i + 2 * k + 1)))

/-- A step that R192 and R193 allow: LEN 8-40, and not both VERIFY and READ. -/
def stepOk (v : SpiStep) : Bool := 8 ≤ v.len && v.len ≤ 40 && !(v.verify && v.read)

/-- A frame's duration in ns at divider D (R191). -/
def frameNs (d len : Nat) : Nat := 5 * len * (d + 1) + 120

/-- A step's duration in ns (R193). -/
def stepNs (d : Nat) (v : SpiStep) : Nat := (if v.verify || v.read then 2 else 1) * frameNs d v.len + 10 * v.delay

/-- A script's duration in ns (R193). -/
def scriptNs (d : Nat) (l : List SpiStep) : Nat := (l.map (stepNs d)).sum

/-- A calibration entry of a port (R197). -/
def calEntry (s : State) (n e : Nat) : CalEntry := tabGet (portCfg s n).cal e {}

/-- A calibration entry holds a script (R197). -/
def calWritten (v : CalEntry) : Bool := !v.steps.isEmpty

/-- A script added to those that wait on a port. -/
def queueScript (n : Nat) (v : Script) (s : State) : State :=
  setPort s n { portRun s n with queued := (portRun s n).queued ++ [v] }

/-- READ data as the port receives it: DATA_WIDTH bits (R193). -/
def readData (s : State) (n : Nat) (w : Word) : Word := w32 (w.toNat % 2 ^ (8 + 8 * (portCfg s n).dataWidth))

/-- The first slot boundary at or after an instant (R255). -/
def boundaryFrom (s : State) (t : BitVec 64) : BitVec 64 :=
  s.cfg.sched.netEpoch + BitVec.ofNat 64 (((t - s.cfg.sched.netEpoch).toNat + slotNs s - 1) / slotNs s * slotNs s)

/-- A transmission stands between PREP and the end of RETURN. -/
def txActive (t : Tx) : Bool :=
  match t.state with
  | .selected => false
  | .built => false
  | .judged => false
  | _ => true

/-- A transmission stands between its steps 5 and 11, the span that groups it with others (R221). -/
def keyed (t : Tx) : Bool := txActive t && t.state != .prep

/-- A PREP hop of RCKr runs or waits (R203). -/
def prepHopping (s : State) (r : Nat) : Bool := ((rck s r).hop.toList ++ (rck s r).next).any (fun h => h.2.isNone)

/-- The port's PREP of a booked transmission lies before an instant, or a transmission runs (R195). -/
def prepBefore (s : State) (p : Nat) (t : BitVec 64) : Bool :=
  s.radio.txs.any (fun x => x.plain = p && (txActive x || !notBefore x.t0 (t + 100000#64)))

/-- A waiting script may start (R195): PREP once the hop's RCK has locked (R203) and RETURN at once; gain and host scripts
when they end before the next PREP booked; AT_SLOT from its slot boundary minus the script's duration on. -/
def scriptMayStart (s : State) (n : Nat) (v : Script) : Bool :=
  let d := scriptNs (portCfg s n).spiD v.steps
  match plainOfPort s n with
  | some p => v.cls = 2 || (v.cls = 1 && !prepHopping s p)
      || (2 < v.cls && !prepBefore s p (after s d) && (!v.atSlot || notBefore (after s d) v.boundary))
  | none => v.cls < 3 || !v.atSlot || notBefore (after s d) v.boundary

/-- The order in which waiting scripts start: by class, then in acceptance order (R195). -/
def scriptBefore (a b : Script) : Bool := max a.cls 2 < max b.cls 2

/-- PORT_SCRIPT_START (R195): one script at a time. -/
def execPortScriptStart (p : Fin 16) (s : State) : Host.Outcome State Fault Refusal :=
  let v := portRun s p.val
  match v.running, firstBy scriptBefore (v.queued.filter (scriptMayStart s p.val)) with
  | none, some x => .next (setPort s p.val { v with running := some x, queued := v.queued.erase x })
  | _, _ => .next s

/-- A VERIFY mismatch at a step of a script (R194, R227). -/
def scriptFault (n cls step : Nat) (s : State) : State :=
  let s1 := setPort s n { portRun s n with faults := saturate 32 ((portRun s n).faults + 1) }
  postEvent 0x0401 n (w32 (step % 256 + 256 * cls)) (raise .scriptFault s1)

/-- A frame with bit RD_POS set (R193). -/
def readFrame (pos : Nat) (f : BitVec 40) : BitVec 40 := f ||| BitVec.ofNat 40 (2 ^ pos)

/-- The frames that a step sends, each with its LEN (R193). -/
def stepFrames (pos : Nat) (v : SpiStep) : List (Nat × BitVec 40) :=
  if v.read then [(v.len, readFrame pos v.frame), (v.len, readFrame pos v.frame)]
  else if v.verify then [(v.len, v.frame), (v.len, readFrame pos v.frame)]
  else [(v.len, v.frame)]

/-- What a script comes to. -/
structure ScriptRun where
  /-- frames sent -/
  frames : List (Nat × BitVec 40) := []
  /-- data of the READ steps -/
  reads : List Word := []
  /-- step of the VERIFY mismatch that ended it -/
  mismatch : Option Nat := none

/-- The steps from number k on, run with the words that the port's second frames clock in: `data` cuts a word to DATA_WIDTH
bits (R193, R194); a word that is not given is zero. -/
def runSteps (data : Word → Word) (pos : Nat) : List SpiStep → List Word → Nat → ScriptRun
  | [], _, _ => {}
  | v :: rest, ws, k =>
    let w := data (ws.headD 0#32)
    let fs := stepFrames pos v
    if v.verify && w != data (v.frame.setWidth 32) then { frames := fs, mismatch := some k }
    else
      let r := runSteps data pos rest (if v.verify || v.read then ws.drop 1 else ws) (k + 1)
      { r with frames := fs ++ r.frames, reads := if v.read then w :: r.reads else r.reads }

/-- A port's script run with the words received (R193, R194). -/
def runScript (s : State) (n : Nat) (v : Script) (received : List Word) : ScriptRun :=
  runSteps (readData s n) (portCfg s n).rdPos v.steps received 0

/-- Frames on a port's SPI, unless the device does not drive its radios (R190). -/
def sendFrames (n : Nat) (fs : List (Nat × BitVec 40)) (s : State) : State :=
  if s.tan.outputs then { s with out := { s.out with spi := s.out.spi ++ fs.map (fun f => (n, f.1, f.2)) } } else s

/-- A RETURN script of the plain runs or waits on some port. -/
def returning (s : State) (p : Nat) : Bool :=
  (portsOf s p).any (fun n => (portRun s n).queued.any (fun v => v.cls = 2) || match (portRun s n).running with
    | some v => v.cls = 2
    | none => false)

/-- The sequencer state that the plain's transmissions leave once no RETURN runs: TX from the first sample of one, PREP
before (R189). -/
def restSeq (s : State) (p : Nat) : SeqState :=
  if s.radio.txs.any (fun x => x.plain = p && keyed x && x.state != .switched && x.state != .paen) then .tx
  else if s.radio.txs.any (fun x => x.plain = p && txActive x) then .prep
  else .idle

/-- The plain's ports in the state that its transmissions leave. -/
def settleSeq (p : Nat) (s : State) : State :=
  (portsOf s p).foldl (fun t n => setPort t n { portRun t n with seq := restSeq s p }) s

/-- RCKr begins the hop that is next in turn; that of a PREP waits for a RETURN in progress (R195, R203). -/
def rckStart (r : Nat) (s : State) : State :=
  let v := rck s r
  match v.hop, v.next with
  | none, h :: rest =>
    if h.2.isNone && returning s r then s
    else setRck s r { v with hop := some h, next := rest, low := true, locked := false }
  | _, _ => s

/-- RETURN has completed on the last port: the own-transmission span ends 20 us later (R217), unless a transmission has
begun its PREP. -/
def returnDone (p : Nat) (s : State) : State :=
  if returning s p || s.radio.txs.any (fun x => x.plain = p && keyed x) then s
  else
    let s1 := rckStart p (settleSeq p s)
    if (txRun s p).ownSpan && restSeq s p = .idle then setTxRun s1 p { txRun s1 p with spanEnd := some (after s1 20000) } else s1

/-! ### Script commands -/

/-- PLEN of a command that takes its number of parameter words from a count word in lo..hi (R511). -/
def countLen (i lo hi base per : Nat) (c : Packet) : Option Nat :=
  if within c i lo hi then some (base + per * pn c i) else none

def radioSpiSetSpec : CmdSpec :=
  { plainSpec 0x0400 3 (fun c => within c 0 0 15 && fits c 1 10 && 3 ≤ pf c 1 7 0 && fits c 2 8 && pf c 2 5 0 ≤ 39)
      (fun c s => done (setPortCfg s (pn c 0) { portCfg s (pn c 0) with
        spiD := pf c 1 7 0, spiMode := pf c 1 9 8, rdPos := pf c 2 5 0, dataWidth := pf c 2 7 6 })) with
    ready := fun c s => !inEnabledPlain s (pn c 0)
      && (portCfg s (pn c 0)).cal.all (fun e => scriptNs (pf c 1 7 0) e.2.steps ≤ 12000) }

/-- RADIO_SPI_SET (R191, R197): not on an enabled plain, and not at a clock that takes an entry over 12 us. -/
def execRadioSpiSet (c : Packet) (s : State) : Host.Outcome State Fault Refusal := runCommand radioSpiSetSpec c s

def radioScriptRunSpec : CmdSpec :=
  { plainSpec 0x0401 0 (fun c => within c 0 0 15 && (stepsAt c 2 (pn c 1)).all stepOk)
      (fun c s => runsOn (queueScript (pn c 0)
        { cls := 4, steps := stepsAt c 2 (pn c 1), tag := some (c.queue.val, c.tag) } s)) with
    len := countLen 1 1 8 2 2, countAt := some 1 }

/-- RADIO_SCRIPT_RUN (R194, R195): it completes with the script. -/
def execRadioScriptRun (c : Packet) (s : State) : Host.Outcome State Fault Refusal :=
  runCommand radioScriptRunSpec c s

/-- PLEN of CAL_WRITE: its step count stands in word 3 [11:8] (R511). -/
def calLen (c : Packet) : Option Nat := if 1 ≤ pf c 3 11 8 && pf c 3 11 8 ≤ 8 then some (4 + 2 * pf c 3 11 8) else none

/-- The entry that CAL_WRITE gives. -/
def calOf (c : Packet) : CalEntry :=
  { freq := pw c 2, rxOk := bit (pw c 3) 0, txOk := bit (pw c 3) 1, rck := pf c 3 7 4, steps := stepsAt c 4 (pf c 3 11 8) }

/-- The entry is the receive entry or f_T of the enabled plain that holds the port. -/
def entryInUse (s : State) (n e : Nat) : Bool :=
  match plainOfPort s n with
  | some p => (plainCfg s p).enabled && ((plainCfg s p).rxEntry = some e || (txRun s p).fT = some e)
  | none => false

def calWriteSpec : CmdSpec :=
  { plainSpec 0x0402 0 (fun _ => true)
      (fun c s => done (setPortCfg s (pn c 0)
        { portCfg s (pn c 0) with cal := tabSet (portCfg s (pn c 0)).cal (pn c 1) (calOf c) })) with
    len := calLen, countAt := some 3
    valid := fun c => within c 0 0 15 && within c 1 0 511 && only c 3 0xFF3 && (pf c 3 7 4 ≤ 7 || pf c 3 7 4 = 15)
      && (calOf c).steps.all stepOk
    here := fun c s => scriptNs (portCfg s (pn c 0)).spiD (calOf c).steps ≤ 12000
    ready := fun c s => !entryInUse s (pn c 0) (pn c 1) }

/-- CAL_WRITE (R197). -/
def execCalWrite (c : Packet) (s : State) : Host.Outcome State Fault Refusal := runCommand calWriteSpec c s

/-- What CAL_READ returns: words 2 onwards as written, or one zero word for an empty entry (R226). -/
def calWords (v : CalEntry) : List Word :=
  if calWritten v then
    [v.freq, w32 (flag v.rxOk + 2 * flag v.txOk + 16 * v.rck + 256 * v.steps.length)] ++ v.steps.flatMap stepWords
  else [0#32]

def calReadSpec : CmdSpec := plainSpec 0x0403 2 (fun c => within c 0 0 15 && within c 1 0 511) (fun c s =>
  doneWith (calWords (calEntry s (pn c 0) (pn c 1))) s)

/-- CAL_READ (R226). -/
def execCalRead (c : Packet) (s : State) : Host.Outcome State Fault Refusal := runCommand calReadSpec c s

/-- Entry e is written with property f and one frequency on every port of plain p (R198, R199). -/
def entryOnAll (s : State) (p e : Nat) (f : CalEntry → Bool) : Bool :=
  match portsOf s p with
  | [] => false
  | n :: r => (n :: r).all (fun m => calWritten (calEntry s m e) && f (calEntry s m e) && (calEntry s m e).freq = (calEntry s n e).freq)

/-- The frequency of entry e on plain p. -/
def entryFreq (s : State) (p e : Nat) : Word :=
  match portsOf s p with
  | [] => 0#32
  | n :: _ => (calEntry s n e).freq

def plainTuneSpec : CmdSpec :=
  { plainSpec 0x0404 2 (fun _ => true) (fun c s =>
      let p := pn c 0
      let e := pn c 1
      let s1 := setPlainCfg s p { plainCfg s p with fP := entryFreq s p e, rxEntry := some e }
      let s2 := setTxRun s1 p { txRun s1 p with fT := some e }
      done ((portsOf s p).foldl (fun t n => queueScript n { cls := 4, steps := (calEntry s n e).steps } t) s2)) with
    valid := fun c => within c 0 0 3 && within c 1 0 511
    here := fun c s => entryOnAll s (pn c 0) (pn c 1) (fun v => v.rxOk)
    ready := fun c s => !(plainCfg s (pn c 0)).enabled && !draining s (pn c 0) }

/-- PLAIN_TUNE (R198). -/
def execPlainTune (c : Packet) (s : State) : Host.Outcome State Fault Refusal := runCommand plainTuneSpec c s

/-- A gain-script step from its three words (R226). -/
def gainStepAt (c : Packet) (i : Nat) : GainStep :=
  { step := stepOf (pw c i) (pw c (i + 1)), pos := pf c (i + 2) 5 0, width := pf c (i + 2) 12 8 }

/-- The gain-script steps of GAIN_SCRIPT_SET. -/
def gainSteps (c : Packet) : List GainStep := (List.range (pn c 1)).map (fun k => gainStepAt c (2 + 3 * k))

/-- A gain-script step that R192 and R196 allow. -/
def gainStepOk (v : GainStep) : Bool := stepOk v.step && v.pos ≤ 39 && 1 ≤ v.width && v.width ≤ 16 && v.pos + v.width ≤ v.step.len

def gainScriptSetSpec : CmdSpec :=
  { plainSpec 0x0405 0 (fun c => within c 0 0 127 && (gainSteps c).all gainStepOk
      && (List.range (pn c 1)).all (fun k => only c (4 + 3 * k) 0x1F3F))
      (fun c s => done (setChainCfg s (pn c 0) { chainCfg s (pn c 0) with script := gainSteps c })) with
    len := countLen 1 0 2 2 3, countAt := some 1 }

/-- GAIN_SCRIPT_SET (R196). -/
def execGainScriptSet (c : Packet) (s : State) : Host.Outcome State Fault Refusal :=
  runCommand gainScriptSetSpec c s

/-- A gain-script step with the low GAIN_WIDTH bits of the gain word in its field (R196). -/
def gainFrame (g : BitVec 16) (v : GainStep) : SpiStep :=
  let field : BitVec 40 := BitVec.ofNat 40 ((2 ^ v.width - 1) * 2 ^ v.pos)
  { v.step with frame := (v.step.frame &&& ~~~ field) ||| BitVec.ofNat 40 (g.toNat % 2 ^ v.width * 2 ^ v.pos) }

/-- Duration of a chain's gain script in ns (R193, R196). -/
def gainNs (s : State) (d : Nat) : Nat := scriptNs (portCfg s (d / 8)).spiD ((chainCfg s d).script.map (·.step))

def gainSetSpec : CmdSpec :=
  { plainSpec 0x0220 3 (fun c => within c 0 0 127 && fits c 1 16 && fits c 2 1) (fun c s =>
      let d := pn c 0
      let g : BitVec 16 := (pw c 1).setWidth 16
      runsOn (queueScript (d / 8) { cls := 3, steps := (chainCfg s d).script.map (gainFrame g),
                                    tag := some (c.queue.val, c.tag), chain := d, gain := g, atSlot := bit (pw c 2) 0,
                                    boundary := boundaryFrom s (after s (gainNs s d)) } s)) with
    ready := fun c s => !(chainCfg s (pn c 0)).script.isEmpty && !(match plainOfPort s (pn c 0 / 8) with
      | some p => draining s p
      | none => false) }

/-- GAIN_SET (R114, R196): the reply follows the script's completion. AT_SLOT names the first boundary by which the script
can end (DESIGN CHOICE, log 113). -/
def execGainSet (c : Packet) (s : State) : Host.Outcome State Fault Refusal := runCommand gainSetSpec c s

def gainGetSpec : CmdSpec := plainSpec 0x0221 1 (fun c => within c 0 0 127) (fun c s =>
  doneWith [(chainCfg s (pn c 0)).gain.setWidth 32] s)

/-- GAIN_GET (R147). -/
def execGainGet (c : Packet) (s : State) : Host.Outcome State Fault Refusal := runCommand gainGetSpec c s

def returnSetSpec : CmdSpec :=
  { plainSpec 0x0406 0 (fun c => within c 0 0 15 && within c 1 0 2 && (stepsAt c 3 (pn c 2)).all stepOk)
      (fun c s => done (setPortCfg s (pn c 0)
        { portCfg s (pn c 0) with returnState := pn c 1, quiet := stepsAt c 3 (pn c 2) })) with
    len := countLen 2 0 8 3 2, countAt := some 2 }

/-- RETURN_SET (R201). -/
def execReturnSet (c : Packet) (s : State) : Host.Outcome State Fault Refusal := runCommand returnSetSpec c s

def txPortSetSpec : CmdSpec :=
  { plainSpec 0x0407 3 (fun c => within c 0 0 15 && within c 1 1 4 && fits c 2 16) (fun c s =>
      done (setPortCfg s (pn c 0) { portCfg s (pn c 0) with txChains := pn c 1, txExtLatency := pn c 2 })) with
    ready := fun c s => !inEnabledPlain s (pn c 0) }

/-- TX_PORT_SET (R208, R215). -/
def execTxPortSet (c : Packet) (s : State) : Host.Outcome State Fault Refusal := runCommand txPortSetSpec c s

/-! ### Plain settings -/

def txPlainSetSpec : CmdSpec :=
  { plainSpec 0x0408 5 (fun c => within c 0 0 3 && within c 1 1 70 && within c 2 1 70 && within c 3 1 16 && fits c 4 1)
      (fun c s => done (txChange (pn c 0)
        (fun v => { v with paLead := pn c 1, paLag := pn c 2, maxSim := pn c 3, tuneShared := bit (pw c 4) 0 }) s)) with
    ready := fun c s => !draining s (pn c 0) }

/-- TX_PLAIN_SET (R200, R213, R220). -/
def execTxPlainSet (c : Packet) (s : State) : Host.Outcome State Fault Refusal := runCommand txPlainSetSpec c s

def txDefaultsSetSpec : CmdSpec :=
  { plainSpec 0x0409 4 (fun c => within c 0 0 3 && within c 1 8 64 && within c 2 4 256 && fits c 3 1)
      (fun c s => done (txChange (pn c 0)
        (fun v => { v with nPre := pn c 1, rampLen := pn c 2, pilot := bit (pw c 3) 0 }) s)) with
    ready := fun c s => !draining s (pn c 0) }

/-- TX_DEFAULTS_SET (R211). -/
def execTxDefaultsSet (c : Packet) (s : State) : Host.Outcome State Fault Refusal :=
  runCommand txDefaultsSetSpec c s

/-- BLANK inputs active now (R225). -/
def blankActive (s : State) : BitVec 8 := s.radio.blank ^^^ s.cfg.tx.blankPol

/-- Plain p is blanked (R225). -/
def blankedNow (s : State) (p : Nat) : Bool :=
  (txCfg s p).coexMode = 2 && blankActive s &&& (txCfg s p).blankMap != 0#8

/-- A transmission stands on a blanked plain, by the settings it was selected with (R225, R226). -/
def blankedFor (s : State) (x : Tx) : Bool := x.coexMode = 2 && blankActive s &&& x.blankMap != 0#8

/-- The levels of COX_GNT[3:0] sampled: pins whose level no command gives between two judgements, so a free value (log
114). -/
def sampleGrants (s : State) : State :=
  { s with free := s.free + 1, radio := { s.radio with grants := (Config.freeWord s.free).setWidth 4 } }

def coexStatusSpec : CmdSpec := plainSpec 0x0421 0 (fun _ => true) (fun _ s0 =>
  let s := sampleGrants s0
  doneWith [s.radio.grants.setWidth 32, s.radio.blank.setWidth 32, maskOf 32 ((List.range 4).filter (blankedNow s))] s)

/-- COEX_STATUS (R226). -/
def execCoexStatus (c : Packet) (s : State) : Host.Outcome State Fault Refusal := runCommand coexStatusSpec c s

/-! ### Reference synthesisers (R202-R206) -/

/-- A stored setting of an RCK. -/
def rckSetting (s : State) (r k : Nat) : Option RckSetting := tabFind s.cfg.tx.rck (8 * r + k)

def rckStoreSpec : CmdSpec :=
  { plainSpec 0x0430 4 (fun c => within c 0 0 3 && within c 1 0 7 && within c 2 10000000 250000000 && within c 3 0 2)
      (fun c s =>
        let v : RckSetting := { freq := pw c 2, pd := pn c 3 }
        let s1 := { s with cfg := { s.cfg with tx := { s.cfg.tx with rck := tabSet s.cfg.tx.rck (8 * pn c 0 + pn c 1) v } } }
        done (setRck s1 (pn c 0) { rck s1 (pn c 0) with bands := setBit (rck s1 (pn c 0)).bands (pn c 1) false })) with
    ready := fun c s => (rck s (pn c 0)).sel != some (pn c 1) }

/-- RCK_STORE (R202): the setting's band is to be found at its first lock. -/
def execRckStore (c : Packet) (s : State) : Host.Outcome State Fault Refusal := runCommand rckStoreSpec c s

def rckSelectSpec : CmdSpec :=
  { plainSpec 0x0431 2 (fun c => within c 0 0 3 && within c 1 0 7) (fun c s =>
      let v := rck s (pn c 0)
      runsOn (rckStart (pn c 0) (setRck s (pn c 0) { v with next := v.next ++ [(pn c 1, some (c.queue.val, c.tag))] }))) with
    ready := fun c s => (rckSetting s (pn c 0) (pn c 1)).isSome }

/-- RCK_SELECT (R203): the output is low until RCK_HOP_LOCK. One that comes during another hop waits for it (DESIGN CHOICE,
log 113). -/
def execRckSelect (c : Packet) (s : State) : Host.Outcome State Fault Refusal := runCommand rckSelectSpec c s

/-- The words of RCK_STATUS. -/
def rckWords (v : Rck) : List Word :=
  [match v.sel with
    | some k => w32 k
    | none => 0xFFFFFFFF#32,
   w32 (flag v.locked + 2 * flag v.low), v.bands.setWidth 32, w32 v.unlocks]

def rckStatusSpec : CmdSpec := plainSpec 0x0432 1 (fun c => within c 0 0 3) (fun c s => doneWith (rckWords (rck s (pn c 0))) s)

/-- RCK_STATUS (R226). -/
def execRckStatus (c : Packet) (s : State) : Host.Outcome State Fault Refusal := runCommand rckStatusSpec c s

/-- RCK_HOP_LOCK (R203): at most 5 us for a setting with a stored band and 2 ms without; the band found is stored. The hop
that waits next begins. -/
def execRckHopLock (r : Fin 4) (ns : Nat) (s : State) : Host.Outcome State Fault Refusal :=
  let v := rck s r.val
  match v.hop with
  | none => .next s
  | some (k, cmd) =>
    if s.dev.clkLost || (if bit v.bands k then 5000 else 2000000) < ns then .next s
    else
      let s1 := rckStart r.val (setRck s r.val
        { v with sel := some k, locked := true, low := false, bands := setBit v.bands k true, hop := none })
      .next (match cmd with
        | some (q, tag) => complete q tag .ok [w32 ns] s1
        | none => s1)

/-- RCK_UNLOCK (R206): lock lost outside a hop. -/
def execRckUnlock (r : Fin 4) (s : State) : Host.Outcome State Fault Refusal :=
  let v := rck s r.val
  if v.locked && v.hop.isNone then
    .next (postEvent 0x0402 r.val 0#32 (raise (.rckUnlock r)
      (setRck s r.val { v with locked := false, low := true, unlocks := saturate 32 (v.unlocks + 1) })))
  else .next s

/-- RCK_RELOCK (R206): lock has held for 1 ms. -/
def execRckRelock (r : Fin 4) (s : State) : Host.Outcome State Fault Refusal :=
  let v := rck s r.val
  if v.sel.isSome && !v.locked && v.hop.isNone && !s.dev.clkLost then
    .next (postEvent 0x0402 r.val 1#32 (setRck s r.val { v with locked := true, low := false }))
  else .next s

/-! ### Status -/

/-- The state a port sequencer is in (R189). -/
def seqNow (s : State) (n : Nat) : SeqState :=
  let v := portRun s n
  if !s.tan.outputs then .held
  else if v.seq != .idle then v.seq
  else if v.running.isSome then .script
  else if inEnabledPlain s n then .rx
  else .idle

/-- The lines of a port sequencer. -/
structure RadioPins where
  /-- RPn_CS_N -/
  csN : Bool
  /-- RPn_SCLK -/
  sclk : Bool
  /-- RPn_MOSI -/
  mosi : Bool
  /-- RPn_TR, high for transmit -/
  tr : Bool
  /-- RPn_TXEN -/
  txen : Bool
  /-- RPn_PAEN -/
  paen : Bool
  deriving DecidableEq, Repr

/-- What port n drives between SPI frames, whose lines then rest: CS_N high, SCLK at its mode's idle level, MOSI low (R189);
none at high impedance (R190). -/
def radioPins (s : State) (n : Nat) : Option RadioPins :=
  let v := portRun s n
  if s.tan.outputs then
    some { csN := true, sclk := decide (2 ≤ (portCfg s n).spiMode), mosi := false, tr := v.tr, txen := v.txen, paen := v.paen }
  else none

/-- An entry number, or 0xFFFF_FFFF for none. -/
def entryWord : Option Nat → Word
  | some e => w32 e
  | none => 0xFFFFFFFF#32

def sequencerStatusSpec : CmdSpec := plainSpec 0x0450 1 (fun c => within c 0 0 15) (fun c s =>
  let fT := match plainOfPort s (pn c 0) with
    | some p => (txRun s p).fT
    | none => none
  doneWith [w32 (seqCode (seqNow s (pn c 0))), entryWord fT, w32 (portCfg s (pn c 0)).returnState,
            w32 (portRun s (pn c 0)).faults] s)

/-- SEQUENCER_STATUS (R226). -/
def execSequencerStatus (c : Packet) (s : State) : Host.Outcome State Fault Refusal :=
  runCommand sequencerStatusSpec c s

/-- Multiblocks with a CRC-12 error since the count was last taken: what a lane's noise does is a free value (log 16). -/
def growth (s : State) : Nat := (Config.freeWord s.free).toNat

def txCountersReadSpec : CmdSpec := plainSpec 0x0451 2 (fun c => within c 0 0 3 && fits c 1 1) (fun c s =>
  let v := txRun s (pn c 0)
  let s1 := if pn c 1 = 1 then setTxRun s (pn c 0) { v with counters := List.replicate 9 0 } else s
  doneWith (v.counters.map w32) s1)

/-- TX_COUNTERS_READ (R226). -/
def execTxCountersRead (c : Packet) (s : State) : Host.Outcome State Fault Refusal :=
  runCommand txCountersReadSpec c s

/-! ### Blanked spans (R137, R217, R225) -/

/-- The plain's samples are treated as blanked now: by the device's own transmission, or by its inputs with BLANK_MARK. -/
def spanRuns (s : State) (p : Nat) : Bool := (txRun s p).ownSpan || ((txCfg s p).blankMark && blankedNow s p)

/-- A span mark BLANKED runs on the plain. -/
def blankOpen (s : State) (p : Nat) : Bool := (cutPlain s p).marks.any (fun m => m.kind = 2 && m.stop.isNone)

/-- A blanked span begins: its mark, and BLANKED on the tracks in progress (R137, R154). -/
def openBlank (p : Nat) (s : State) : State :=
  let s1 := markTracks 0 (fun t => t.plain = p) s
  if blankOpen s1 p then s1 else addMark p { kind := 2, ports := (plainCfg s p).ports, start := antennaNow s p } s1

/-- The instant until which marking runs: now, or the end of the 20 us after a BLANK input (R225). -/
def blankStop (s : State) (p : Nat) : BitVec 64 :=
  if past s (txRun s p).tail then antennaNow s p else antennaNow s p + ((txRun s p).tail - now s)

/-- The blanked span ends once nothing blanks the plain any more. -/
def closeBlank (p : Nat) (s : State) : State :=
  if spanRuns s p then s else closeMarks p (fun m => m.kind = 2) (blankStop s p) s

/-- The blanked span of a plain as its settings and inputs leave it. -/
def settleBlank (p : Nat) (s : State) : State := if spanRuns s p then openBlank p s else closeBlank p s

/-- The own-transmission span opens (R217). -/
def openSpan (p : Nat) (s : State) : State :=
  openBlank p (setTxRun s p { txRun s p with ownSpan := true, spanEnd := none })

end Sys2Proof.Machine
end

