-- ==== Sys2Proof/Machine/Nodes.lean ====
section
/-! DEFINITION. Prefix memory and home map (R295-R299), node table, cache and records (R300-R303), rendezvous blocks and
node timing (R264, R269-R273), cells and slots (R255-R260), and the unrecorded window table (R238). -/

namespace Sys2Proof.Machine

/-! ### Prefix memory and home map -/

/-- A 128-bit key from its four words, byte 0 in word 0 [7:0] (R295). -/
def keyOfWords (ws : List Word) : BitVec 128 := BitVec.ofNat 128 (beNat (bytesOfWords ws 16))

/-- The four words of a key (R295). -/
def keyWords (k : BitVec 128) : List Word := wordsOfBytes (beBytes 16 k.toNat)

/-- The first len bits of two keys are equal. -/
def samePrefix (len : Nat) (a b : BitVec 128) : Bool := (a ^^^ b) >>> (128 - len) = 0#128

/-- The entry that a search finds: the matching one with the greatest LENGTH, which is the first in the order kept
(R297, R298). -/
def prefixSearch (s : State) (home : Bool) (tenant : Nat) (key : BitVec 128) : Option PrefixEntry :=
  s.cfg.fwd.prefixes.find? (fun e => e.home = home && e.tenant = tenant && samePrefix e.len e.key key)

/-- A node address as the key of a home entry (R295). -/
def homeKey (addr : Word) : BitVec 128 := addr.setWidth 128 <<< 96

/-- The home of a node; the device that holds the frame or packet when no home entry matches (R299). -/
def homeOf (s : State) (net : Nat) (addr : Word) : Nat :=
  match prefixSearch s true net (homeKey addr) with
  | some e => e.arg
  | none => ownHid s

/-- This device is the node's home. -/
def isHome (s : State) (net : Nat) (addr : Word) : Bool := homeOf s net addr = ownHid s

/-- Two entries name one place of the prefix memory (R296). -/
def sameEntry (a b : PrefixEntry) : Bool := a.home = b.home && a.tenant = b.tenant && a.len = b.len && a.key = b.key

/-- The memory with an entry inserted behind those of greater or equal LENGTH, or replaced (R296, R298). -/
def insertPrefix (e : PrefixEntry) (l : List PrefixEntry) : List PrefixEntry :=
  if l.any (sameEntry e) then l.map (fun x => if sameEntry e x then e else x)
  else l.takeWhile (fun x => e.len ≤ x.len) ++ [e] ++ l.dropWhile (fun x => e.len ≤ x.len)

/-- The state with the prefix memory replaced. -/
def setPrefixes (l : List PrefixEntry) (s : State) : State :=
  { s with cfg := { s.cfg with fwd := { s.cfg.fwd with prefixes := l } } }

/-! ### Networks, counters -/

/-- Settings of a network (R228). -/
def netCfg (s : State) (n : Nat) : NetCfg := tabGet s.cfg.link.nets n {}

/-- A network as it runs. -/
def netRun (s : State) (n : Nat) : Net := tabGet s.link.nets n {}

/-- The state with a network replaced. -/
def setNet (s : State) (n : Nat) (v : Net) : State := { s with link := { s.link with nets := tabSet s.link.nets n v } }

/-- Link counter i of network n raised (R253, R149). -/
def countLink (i n : Nat) (s : State) : State :=
  let v := netRun s n
  setNet s n { v with counters := listMod v.counters i (fun k => saturate 32 (k + 1)) }

/-- Forwarding counter i raised (R316, R149). -/
def countFwd (i : Nat) (s : State) : State :=
  { s with fwd := { s.fwd with counters := listMod s.fwd.counters i (fun k => saturate 32 (k + 1)) } }

/-! ### Node table (R300-R303) -/

/-- Records held at most (R300). -/
def nodeLimit : Nat := 1048576

/-- The way-w position of a node (R300). -/
def wayOf (net : Nat) (addr : Word) (w : Nat) : Nat :=
  262144 * w + (crc32c (BitVec.ofNat 8 w :: BitVec.ofNat 8 net :: wordBytes addr)).toNat % 262144

/-- The positions an insertion tries, in order (R301). -/
def positions (net : Nat) (addr : Word) : List Nat :=
  (List.range 4).map (wayOf net addr) ++ (List.range 64).map (nodeLimit + ·)

/-- The record of a node and its index. -/
def nodeEntry (s : State) (net : Nat) (addr : Word) : Option (Nat × NodeRec) :=
  s.fwd.nodes.find? (fun e => e.2.net = net && e.2.addr = addr)

/-- The record of a node. -/
def nodeOf (s : State) (net : Nat) (addr : Word) : Option NodeRec := (nodeEntry s net addr).map (·.2)

/-- A record's present contents written to DRAM (R303). -/
def writeBack (i : Nat) (f : Fwd) : Fwd :=
  { f with
    dram := match tabFind f.nodes i with
      | some r => tabSet f.dram i r
      | none => tabDel f.dram i
    dirty := f.dirty.filter (· != i) }

/-- Every changed record written to DRAM, as before self-refresh (R303, R300). -/
def writeBackAll (s : State) : State := { s with fwd := s.fwd.dirty.foldl (fun f i => writeBack i f) s.fwd }

/-- A record of the ways met through the node cache: a hit or a miss, and the least recently used record out when the cache
is full, written back if it has changed (R303, R16). The stash lies on die (R300). -/
def touchNode (i : Nat) (s : State) : State :=
  if nodeLimit ≤ i then s
  else
  let f := s.fwd
  let rest := f.cache.filter (· != i)
  let out := (rest.drop 65535).filter f.dirty.contains
  let g := { f with
    cache := i :: rest.take 65535
    hits := if f.cache.contains i then f.hits + 1 else f.hits
    misses := if f.cache.contains i then f.misses else f.misses + 1 }
  { s with fwd := out.foldl (fun f j => writeBack j f) g }

/-- Index i changed since its last write-back. -/
def markDirty (i : Nat) (f : Fwd) : Fwd := { f with dirty := if f.dirty.contains i then f.dirty else f.dirty ++ [i] }

/-- Record i replaced. -/
def setNode (i : Nat) (r : NodeRec) (s : State) : State :=
  let t := touchNode i s
  { t with fwd := markDirty i { t.fwd with nodes := tabSet t.fwd.nodes i r } }

/-- Record i removed. -/
def dropNode (i : Nat) (s : State) : State :=
  let f := s.fwd
  { s with fwd := markDirty i { f with nodes := tabDel f.nodes i, cache := f.cache.filter (· != i) } }

/-- The record of a node changed by f, if there is one. -/
def modNode (net : Nat) (addr : Word) (f : NodeRec → NodeRec) (s : State) : State :=
  match nodeEntry s net addr with
  | some (i, r) => setNode i (f r) s
  | none => s

/-- The position that an insertion takes (R301). -/
def freePosition (s : State) (net : Nat) (addr : Word) : Option Nat :=
  if nodeLimit ≤ s.fwd.nodes.length then none
  else (positions net addr).find? (fun i => (tabFind s.fwd.nodes i).isNone)

/-- A failed insertion: counted, with its trouble bit and event (R301). -/
def insertFailed (net : Nat) (addr : Word) (s : State) : State :=
  postEvent 0x0701 net addr (raise .nodeInsertFail (countFwd 3 s))

/-- Stash entries in use (R316). -/
def stashUsed (s : State) : Nat := (s.fwd.nodes.filter (fun e => nodeLimit ≤ e.1)).length

/-! ### Unrecorded windows (R238) -/

/-- The unrecorded window of a node. -/
def unrecOf (s : State) (net : Nat) (addr : Word) : Option Window :=
  (s.link.unrec.find? (fun e => e.net = net && e.addr = addr)).map (fun e => e.win)

/-- The order-of-use clock of the caches moved on (R16). -/
def useClock (s : State) : State := { s with link := { s.link with clock := s.link.clock + 1 } }

/-- A list without its least recently used item once it has n of them; of equals the first goes (R16). -/
def evict {α : Type} (n : Nat) (used : α → Nat) (l : List α) : List α :=
  if l.length < n then l
  else match firstBy (fun a b => used a.1 < used b.1) (l.zip (List.range l.length)) with
    | some (_, i) => l.eraseIdx i
    | none => l

/-- The table without a node's window. -/
def dropUnrec (net : Nat) (addr : Word) (s : State) : State :=
  { s with link := { s.link with unrec := s.link.unrec.filter (fun e => !(e.net = net && e.addr = addr)) } }

/-- A node's window kept in the table of 4,096 entries, the least recently used entry evicted when it is full (R238). -/
def putUnrec (net : Nat) (addr : Word) (w : Window) (s : State) : State :=
  let s1 := useClock (dropUnrec net addr s)
  let e : Unrec := { net := net, addr := addr, win := w, used := s1.link.clock }
  { s1 with link := { s1.link with unrec := evict 4096 (fun x => x.used) s1.link.unrec ++ [e] } }

/-! ### Slots and cells (R255-R260) -/

/-- Start of a slot (R255). -/
def slotStart (s : State) (asn : Nat) : BitVec 64 := s.cfg.sched.netEpoch + BitVec.ofNat 64 (asn * slotNs s)

/-- The nominal instant of a slot (R256). -/
def nominal (s : State) (asn : Nat) : BitVec 64 := slotStart s asn + BitVec.ofNat 64 (1000 * s.cfg.sched.txOffset)

/-- Length of a slotframe, 0 when not in use (R257). -/
def frameLen (s : State) (f : Nat) : Nat := tabGet s.cfg.sched.frames f 0

/-- Hop sequence of a plain (R258). -/
def hopSeq (s : State) (p : Nat) : List Word := tabGet s.cfg.sched.hops p []

/-- The cell stands at this slot and its plain has a hop sequence (R257, R258). -/
def live (s : State) (f off p asn : Nat) : Bool :=
  off < frameLen s f && asn % frameLen s f = off && !(hopSeq s p).isEmpty

/-- The channel of a live cell (R258). -/
def hopOf (s : State) (p asn co : Nat) : Word := (hopSeq s p).getD ((asn + co) % (hopSeq s p).length) 0#32

/-- Slotframe, offset, channel offset and plain of a cell word (R260, R264). -/
def cellFrame (w : Word) : Nat := bits w 3 0
def cellOffset (w : Word) : Nat := bits w 19 4
def cellChoff (w : Word) : Nat := bits w 27 20
def cellPlain (w : Word) : Nat := bits w 29 28

/-- A cell word is live on its plain at a slot. -/
def cellLive (s : State) (w : Word) (asn : Nat) : Bool := live s (cellFrame w) (cellOffset w) (cellPlain w) asn

/-- Kind of a cell-table entry: 0 unused, 1 shared, 2 beacon, 3 broadcast (R260). -/
def cellKind (w0 : Word) : Nat := bits w0 31 30

/-- The table's live cells of a kind on a plain at a slot, by entry (R260). -/
def liveCells (s : State) (kind p asn : Nat) : List (Nat × Word × Word) :=
  s.cfg.sched.cells.filter (fun e => cellKind e.2.1 = kind && cellPlain e.2.1 = p && cellLive s e.2.1 asn)

/-- The first slot from asn on at which a cell word is live. -/
def nextLive (s : State) (w : Word) (asn : Nat) : Option Nat :=
  let n := frameLen s (cellFrame w)
  if cellOffset w < n && !(hopSeq s (cellPlain w)).isEmpty then some (asn + (cellOffset w + n - asn % n) % n) else none

/-- A PROTECT cell of the plain is live in a slot that the interval overlaps (R261). -/
def protectedIn (s : State) (p : Nat) (a b : BitVec 64) : Bool :=
  s.cfg.sched.cells.any (fun e => cellKind e.2.1 = 1 && bit e.2.2 24 && cellPlain e.2.1 = p &&
    match nextLive s e.2.1 (asnAt s a) with
    | some n => asnReached (asnAt s (b - 1#64)) n
    | none => false)

/-- A cell that its slotframe's length leaves without a slot: its slot would come with its offset taken modulo the length
(R259; DEDUCED, log 40). -/
def cutOff (s : State) (w : Word) (asn : Nat) : Bool :=
  let n := frameLen s (cellFrame w)
  0 < n && n ≤ cellOffset w && asn % n = cellOffset w % n

/-! ### Node timing (R246, R269-R273) -/

/-- The rendezvous cells in use, with their number (R264). -/
def nodeCells (r : NodeRec) : List (Nat × Word) :=
  ((List.range r.cells.length).zip r.cells).filter (fun e => bit e.2 31)

/-- Nanoseconds by which an instant lies after the nearest nominal instant; halfway counts as after (R246, R270; log 41). -/
def nominalError (s : State) (t : BitVec 64) : Int :=
  let n := slotNs s
  let d := (((t - nominal s 0).toInt % (n : Int)) : Int)
  if 2 * d ≤ (n : Int) then d else d - n

/-- A quotient rounded to the nearest whole number, an exact half away from zero (R246). -/
def roundDiv (a : Int) (b : Nat) : Int :=
  let q : Nat := (2 * a.natAbs + b) / (2 * b)
  if a < 0 then -(q : Int) else q

/-- A time correction saturated at 32,767 us (R246, R271). -/
def saturateUs (v : Int) : Int := clampInt 32767 v

/-- e of an uplink in us, which is also the TCORR of its acknowledgement (R246, R270). -/
def uplinkError (s : State) (t : BitVec 64) : Int := saturateUs (roundDiv (nominalError s t) 1000)

/-- A timing uplink in a node's record: a drift sample, E_LAST, T_UP and C_SUM, and with FOLLOW the radio word (R270). -/
def takeTiming (s : State) (t : BitVec 64) (sf bw beam : Nat) (r : NodeRec) : NodeRec :=
  let e := uplinkError s t
  let dt := (t - r.tUp).toNat
  let num : Int := (e - r.eLast + r.cSum) * 100000000000
  let d := if r.tUp != 0#64 && 1000000000 ≤ (t - r.tUp).toInt && num.natAbs ≤ 5000 * dt then
      some (match r.drift with
        | none => roundDiv num dt
        | some d => roundDiv (3 * d * (dt : Int) + num) (4 * dt))
    else r.drift
  let radio := if bit r.radio 24 then
      (r.radio &&& ~~~ 0x3F3F#32) ||| w32 (sf % 16 + 16 * (bw % 4) + 256 * (beam % 64))
    else r.radio
  { r with drift := d, eLast := e, tUp := t, cSum := 0, radio := radio }

/-- A drift sample is formed and discarded because it exceeds 50 ppm (R270). -/
def driftRejected (s : State) (t : BitVec 64) (r : NodeRec) : Bool :=
  r.tUp != 0#64 && 1000000000 ≤ (t - r.tUp).toInt
    && 5000 * (t - r.tUp).toNat < ((uplinkError s t - r.eLast + r.cSum) * 100000000000).natAbs

/-- The node's clock error estimated for an instant, in us (R271). -/
def clockError (r : NodeRec) (t : BitVec 64) : Int :=
  let d : Int := r.drift.getD 0
  saturateUs (roundDiv ((r.eLast - r.cSum) * 100000000000 + d * (t - r.tUp).toInt) 100000000000)

/-- Guard class c (R272). -/
def guardDefault (c : Nat) : Guard :=
  ([⟨500, 500, 2000⟩, ⟨1000, 1000, 5000⟩, ⟨2000, 1000, 10000⟩, ⟨2000, 2000, 20000⟩, ⟨4000, 2000, 50000⟩,
    ⟨4000, 5000, 100000⟩, ⟨10000, 5000, 200000⟩, ⟨10000, 10000, 500000⟩] : List Guard).getD c {}

def guardOf (s : State) (c : Nat) : Guard := tabGet s.cfg.sched.guards c (guardDefault c)

/-- The guard class of a node (R264). -/
def nodeGuard (s : State) (r : NodeRec) : Guard := guardOf s (bits r.radio 23 21)

/-- The guard G of a rendezvous, times 10^11 us (R273). -/
def guardNeed (s : State) (r : NodeRec) (t0 : BitVec 64) : Nat :=
  2 * (nodeGuard s r).b * (t0 - r.tSync).toNat + (nodeGuard s r).f * 100000000000

/-- The guard rule refuses the rendezvous (R273). -/
def guardRefuses (s : State) (r : NodeRec) (t0 : BitVec 64) : Bool :=
  r.tSync = 0#64 || (nodeGuard s r).g * 100000000000 < guardNeed s r t0

/-- A device frame to the node starts: its TCORR is taken as applied (R271). -/
def frameStarts (t0 : BitVec 64) (tcorr : Int) (r : NodeRec) : NodeRec := { r with tSync := t0, cSum := r.cSum + tcorr }

/-! ### What waits for a node -/

/-- The downlinks that wait for a node, in the order of R16 (R266). -/
def waitingFor (s : State) (net : Nat) (addr : Word) : List Downlink :=
  s.sched.wait.filter (fun d => d.kind = 0 && d.net = net && d.addr = addr)

/-- The head downlink has been announced (R264, R267). -/
def headAnnounced (s : State) (net : Nat) (addr : Word) : Bool :=
  match (waitingFor s net addr).head? with
  | some d => d.announced
  | none => false

/-- A counter kept for a late acknowledgement; beyond 8 the oldest is dropped and counted (R247). -/
def addLate (netId : Nat) (addr ctr : Word) (s : State) : State :=
  match nodeEntry s netId addr with
  | some (i, r) =>
    let l := r.late ++ [ctr]
    let s1 := if 8 < l.length then countLink 15 netId s else s
    setNode i { r with late := l.drop (l.length - 8) } s1
  | none => countLink 15 netId s

/-- The oldest downlink order of R16: by enqueue sequence, then by queue number. -/
def waitBefore (a b : Downlink) : Bool := keyBefore [a.seq, a.queue] [b.seq, b.queue]

/-- An item put back into its place among the waiting ones (R219, R287). -/
def putWaiting (d : Downlink) (s : State) : State :=
  let l := s.sched.wait
  { s with sched := { s.sched with wait := l.takeWhile (fun x => waitBefore x d) ++ [d] ++ l.dropWhile (fun x => waitBefore x d) } }

/-- A waiting item changed by f. -/
def modWaiting (seq : Nat) (f : Downlink → Downlink) (s : State) : State :=
  { s with sched := { s.sched with wait := s.sched.wait.map (fun d => if d.seq = seq then f d else d) } }

/-- A waiting item taken out. -/
def dropWaiting (seq : Nat) (s : State) : State :=
  { s with sched := { s.sched with wait := s.sched.wait.filter (fun d => d.seq != seq) } }

/-! ### Records in words (R264, R302) -/

/-- Signed 16-bit field of an integer. -/
def field16 (v : Int) : Nat := (BitVec.ofInt 16 v).toNat

/-- The 12 words of a rendezvous block (R264). -/
def rendezvousWords (s : State) (r : NodeRec) : List Word :=
  r.cells.take 4 ++ [r.radio, pair16 (field16 r.eLast) (match r.drift with
      | some d => field16 d
      | none => 0x8000)]
  ++ loHi r.tUp ++ loHi r.tSync
  ++ [w32 (field16 r.cSum + 65536 * (waitingFor s r.net r.addr).length + 2097152 * r.late.length
      + 33554432 * flag (headAnnounced s r.net r.addr)), 0#32]

/-- The 64 words of a record (R302). -/
def nodeWords (s : State) (r : NodeRec) : List Word :=
  let w := r.win.getD {}
  let log := (r.log.flatMap (fun e => e.1 :: loHi e.2)) ++ List.replicate 12 0#32
  [r.addr, quad8 (r.pathBeam % 64) (r.pathHid % 64 + 64 * (r.pathPlain % 4)) r.tenant
      (r.net % 16 + 16 + 32 * flag r.pathValid + 64 * flag r.hostIns),
   pair16 (r.pathSf % 16 + 16 * (r.pathBw % 4) + 256 * r.pathChan) r.pathSnr.toNat]
  ++ loHi r.tPath ++ loHi r.tHeard ++ [w32 (r.hopsLast % 16), w.epoch.setWidth 32, w.last] ++ loHi w.map
  ++ [r.dlCtr, w32 r.uplinks, w32 r.downlinks, 0#32] ++ (r.late ++ List.replicate 8 0#32).take 8
  ++ rendezvousWords s r ++ log.take 12 ++ (r.host ++ List.replicate 16 0#32).take 16

end Sys2Proof.Machine
end

