-- ==== Sys2Proof/Machine/Airtime.lean ====
section
/-! DEFINITION. The duty-cycle ledger (R275-R279) and airtime shaping (R280-R283) with their commands, the transmit record
queues (R292), and the shortfall and schedule counters (R288, R293). -/

namespace Sys2Proof.Machine

/-! ### Ledger -/

/-- Settings of sub-band k = 16 x plain + j in force (R275). -/
def bandCfg (s : State) (k : Nat) : SubBand := tabGet s.cfg.air.bands k {}

/-- Settings of sub-band k replaced. -/
def setBandCfg (s : State) (k : Nat) (v : SubBand) : State :=
  { s with cfg := { s.cfg with air := { s.cfg.air with bands := tabSet s.cfg.air.bands k v } } }

/-- Ledger of sub-band k. -/
def band (s : State) (k : Nat) : Band := tabGet s.air.bands k {}

/-- Ledger of sub-band k replaced. -/
def setBand (s : State) (k : Nat) (v : Band) : State := { s with air := { s.air with bands := tabSet s.air.bands k v } }

/-- Budget of a sub-band in us: limit x W x 1,000 (R277). -/
def budgetOf (v : SubBand) : Nat := v.limit * v.window * 1000

/-- The usage U of sub-band k: its W most recent buckets, those of coming seconds included (R277; DEDUCED, log 42). -/
def usage (s : State) (k : Nat) : Nat :=
  (((band s k).buckets.filter (fun e => s.air.second < e.1 + (bandCfg s k).window)).map (·.2)).sum

/-- The ledger's number of the second that contains an instant: the second of ST raised by the longest window, so that
buckets from before a reset of ST keep their order below it (R278, R355). -/
def secondOf (t : BitVec 64) : Nat := ledgerSecond t

/-- The band's edges contain a channel (R276): twice the frequencies, so that half a bandwidth is whole. -/
def inBand (v : SubBand) (f : Word) (bw : Nat) : Bool :=
  v.enable && 2 * v.low.toNat + 62500 * 2 ^ bw ≤ 2 * f.toNat && 2 * f.toNat + 62500 * 2 ^ bw ≤ 2 * v.high.toNat

/-- The sub-bands of plain p in which a transmission lies, as numbers j (R276). -/
def bandsOf (s : State) (p : Nat) (f : Word) (bw : Nat) : List Nat :=
  (List.range 16).filter (fun j => inBand (bandCfg s (16 * p + j)) f bw)

/-- Airtime A fits sub-band k (R277). -/
def bandFits (s : State) (k a : Nat) : Bool := usage s k + a ≤ budgetOf (bandCfg s k)

/-- The bucket of a second changed by f. -/
def modBucket (k sec : Nat) (f : Nat → Nat) (s : State) : State :=
  let v := band s k
  setBand s k { v with buckets := tabSet v.buckets sec (f (tabGet v.buckets sec 0)) }

/-- Airtime charged to every sub-band listed, in the bucket of the second that contains t0 (R277). -/
def charge (p : Nat) (js : List Nat) (t0 : BitVec 64) (a : Nat) (s : State) : State :=
  js.foldl (fun t j => modBucket (16 * p + j) (secondOf t0) (· + a) t) s

/-- The charge returned (R219). -/
def returnCharge (p : Nat) (js : List Nat) (t0 : BitVec 64) (a : Nat) (s : State) : State :=
  js.foldl (fun t j => modBucket (16 * p + j) (secondOf t0) (· - a) t) s

/-- Sub-band k starts cold with settings v: its current bucket holds the whole budget (R278). -/
def startCold (k : Nat) (v : SubBand) (s : State) : State :=
  setBand s k { band s k with buckets := [(s.air.second, budgetOf v)], cold := true, coldAt := s.air.second, seen := true }

/-- Refusals of sub-band k counted (R293). -/
def countRefusal (k : Nat) (s : State) : State :=
  setBand s k { band s k with refusals := saturate 32 ((band s k).refusals + 1) }

/-- The settings that SUBBAND_SET gives. -/
def bandOfCmd (c : Packet) : SubBand :=
  { low := pw c 2, high := pw c 3, limit := pn c 4, window := pn c 5, enable := bit (pw c 6) 0 }

def subbandSetSpec : CmdSpec := plainSpec 0x0620 7
  (fun c => within c 0 0 3 && within c 1 0 15 && within c 4 0 1000 && within c 5 1 86400 && fits c 6 1)
  (fun c s =>
    let k := 16 * pn c 0 + pn c 1
    let v := bandOfCmd c
    let s1 := setBandCfg s k { bandCfg s k with enable := v.enable }
    let s2 := setBand s1 k { band s1 k with pending := some v }
    done (if v.enable && s.air.lost && !(band s k).seen then startCold k v s2 else s2))

/-- SUBBAND_SET (R275, R278): bounds, limit and window from the next second; a first enable after a loss of VIN starts
cold. -/
def execSubbandSet (c : Packet) (s : State) : Host.Outcome State Fault Refusal := runCommand subbandSetSpec c s

def ledgerReadSpec : CmdSpec := plainSpec 0x0621 2 (fun c => within c 0 0 3 && within c 1 0 15) (fun c s =>
  let k := 16 * pn c 0 + pn c 1
  doneWith (loHi (BitVec.ofNat 64 (usage s k)) ++ loHi (BitVec.ofNat 64 (budgetOf (bandCfg s k)))
    ++ [w32 (flag (band s k).cold), w32 (band s k).refusals]) s)

/-- LEDGER_READ (R293). -/
def execLedgerRead (c : Packet) (s : State) : Host.Outcome State Fault Refusal := runCommand ledgerReadSpec c s

/-- The loaded buckets, newest second first. -/
def loadedBuckets (s : State) (l : List Word) : List (Nat × Nat) :=
  ((List.range l.length).zip l).map (fun e => (s.air.second - e.1, e.2.toNat))

/-- A load of sub-band k: buckets replaced when cold, raised otherwise (R278). -/
def loadBand (k : Nat) (l : List Word) (s : State) : State :=
  let v := band s k
  let raised (t : Tab Nat) (e : Nat × Nat) : Tab Nat := tabSet t e.1 (max e.2 (tabGet t e.1 0))
  let old := if v.cold then [] else v.buckets
  setBand s k { v with buckets := (loadedBuckets s l).foldl raised old, cold := false }

def ledgerLoadSpec : CmdSpec :=
  { plainSpec 0x0622 0 (fun c => within c 0 0 3 && within c 1 0 15)
      (fun c s => done (loadBand (16 * pn c 0 + pn c 1) (pwords c 3 (pn c 2)) s)) with
    len := countLen 2 1 1000 3 1, countAt := some 2 }

/-- LEDGER_LOAD (R278). -/
def execLedgerLoad (c : Packet) (s : State) : Host.Outcome State Fault Refusal := runCommand ledgerLoadSpec c s

/-- A sub-band as a new second opens: changes that waited take effect, buckets beyond the longest window go, and a cold
charge that has left the window ends the cold state (R277, R278). -/
def bandSecond (sec k : Nat) (s : State) : State :=
  let v := band s k
  let old := bandCfg s k
  let cfg := match v.pending with
    | some x => { x with enable := old.enable }
    | none => old
  setBand (setBandCfg s k cfg) k { v with
    pending := none, buckets := v.buckets.filter (fun e => sec < e.1 + 86400),
    cold := v.cold && decide (sec < v.coldAt + cfg.window) }

/-- LEDGER_SECOND (R277). -/
def execLedgerSecond (s : State) : Host.Outcome State Fault Refusal :=
  let sec := secondOf (now s)
  if s.air.second < sec then
    .next ((List.range 64).foldl (fun t k => bandSecond sec k t) { s with air := { s.air with second := sec } })
  else .next s

/-! ### Shaping -/

/-- Key of a bucket pair: level 0 subscriber, 1 service, 2 port (R280). -/
def shapeKey (level index : Nat) : Nat := 4096 * level + index

/-- Rates and bursts of a bucket pair (R280). -/
def shapeOf (s : State) (k : Nat) : Shape := tabGet s.cfg.air.shapes k {}

/-- Tokens of a bucket pair in ns (R281). -/
def tokens (s : State) (k : Nat) : Tokens := tabGet s.air.tokens k {}

/-- Tokens of a bucket pair replaced. -/
def setTokens (s : State) (k : Nat) (v : Tokens) : State := { s with air := { s.air with tokens := tabSet s.air.tokens k v } }

/-- The three bucket pairs of a downlink on a shaping port (R280). -/
def shapeKeys (tenant service port : Nat) : List Nat :=
  [shapeKey 0 tenant, shapeKey 1 (8 * tenant + service), shapeKey 2 port]

/-- The class of A us of airtime: 1 committed, 2 excess, none when neither covers it (R282). -/
def shapeClass (s : State) (ks : List Nat) (a : Nat) : Option Nat :=
  let n : Int := (1000 * a : Nat)
  if ks.all (fun k => n ≤ (tokens s k).c) then some 1
  else if ks.all (fun k => n ≤ (tokens s k).e) then some 2
  else none

/-- Airtime that can never fit: at some level it exceeds both bursts (R283). -/
def neverFits (s : State) (ks : List Nat) (a : Nat) : Bool :=
  ks.any (fun k => (shapeOf s k).cBurst < a && (shapeOf s k).eBurst < a)

/-- n ns more in the buckets of a class (R282, R219). -/
def addTokens (ks : List Nat) (cls : Nat) (n : Int) (s : State) : State :=
  ks.foldl (fun t k =>
    let v := tokens t k
    setTokens t k (if cls = 1 then { v with c := v.c + n } else { v with e := v.e + n })) s

/-- What an unshaped transmission takes from its port's committed bucket, which falls to minus its burst at most (R282). -/
def portTake (s : State) (port a : Nat) : Int :=
  let k := shapeKey 2 port
  let c := (tokens s k).c
  let low : Int := -(1000 * (shapeOf s k).cBurst : Nat)
  c - min c (max (c - (1000 * a : Nat)) low)

/-- The state with that taken. -/
def takePort (port : Nat) (n : Int) (s : State) : State := addTokens [shapeKey 2 port] 1 (-n) s

/-- A bucket pair after ms milliseconds of refill (R281): a rate in us/s is the same number of ns/ms. -/
def refilled (v : Shape) (ms : Nat) (t : Tokens) : Tokens :=
  { c := min (t.c + (ms * v.cRate : Nat)) (1000 * v.cBurst : Nat), e := min (t.e + (ms * v.eRate : Nat)) (1000 * v.eBurst : Nat) }

/-- A shaping command that waited takes effect: its bucket pair is then listed (R281). -/
def applyShape (e : Nat × Shape) (s : State) : State :=
  let s1 := { s with cfg := { s.cfg with air := { s.cfg.air with shapes := tabSet s.cfg.air.shapes e.1 e.2 } } }
  setTokens s1 e.1 (tokens s1 e.1)

/-- SHAPER_REFILL (R281). -/
def execShaperRefill (s : State) : Host.Outcome State Fault Refusal :=
  let ms := (now s).toNat / 1000000
  if s.air.ms < ms then
    let n := ms - s.air.ms
    let s1 := s.air.pendShape.foldl (fun t e => applyShape e t) s
    let life := s.air.pendLife.foldl (fun t e => tabSet t e.1 e.2) s1.cfg.air.lifetime
    let toks := s1.air.tokens.map (fun e => (e.1, refilled (shapeOf s1 e.1) n e.2))
    let air : Air := { s1.air with tokens := toks, pendShape := [], pendLife := [], ms := ms }
    .next { s1 with air := air, cfg := { s1.cfg with air := { s1.cfg.air with lifetime := life } } }
  else .next s

/-- Rates and bursts from parameter word i (R293). -/
def shapeAt (c : Packet) (i : Nat) : Shape := { cRate := pn c i, cBurst := pn c (i + 1), eRate := pn c (i + 2), eBurst := pn c (i + 3) }

/-- Rates within their range. -/
def ratesOk (c : Packet) (i : Nat) : Bool := within c i 0 1000000 && within c (i + 2) 0 1000000

/-- A shaping command accepted. -/
def pendShape (k : Nat) (v : Shape) (s : State) : State :=
  { s with air := { s.air with pendShape := tabSet s.air.pendShape k v } }

def shaperSubscriberSetSpec : CmdSpec := plainSpec 0x0630 5 (fun c => within c 0 0 255 && ratesOk c 1) (fun c s =>
  done (pendShape (shapeKey 0 (pn c 0)) (shapeAt c 1) s))

/-- SHAPER_SUBSCRIBER_SET (R280). -/
def execShaperSubscriberSet (c : Packet) (s : State) : Host.Outcome State Fault Refusal :=
  runCommand shaperSubscriberSetSpec c s

def shaperServiceSetSpec : CmdSpec := plainSpec 0x0631 7
  (fun c => within c 0 0 255 && within c 1 0 7 && ratesOk c 2 && within c 6 1 86400)
  (fun c s =>
    let i := 8 * pn c 0 + pn c 1
    let s1 := pendShape (shapeKey 1 i) (shapeAt c 2) s
    done { s1 with air := { s1.air with pendLife := tabSet s1.air.pendLife i (pn c 6) } })

/-- SHAPER_SERVICE_SET (R280, R287). -/
def execShaperServiceSet (c : Packet) (s : State) : Host.Outcome State Fault Refusal :=
  runCommand shaperServiceSetSpec c s

def shaperPortSetSpec : CmdSpec := plainSpec 0x0632 5 (fun c => within c 0 0 63 && ratesOk c 1) (fun c s =>
  done (pendShape (shapeKey 2 (pn c 0)) (shapeAt c 1) s))

/-- SHAPER_PORT_SET (R280). -/
def execShaperPortSet (c : Packet) (s : State) : Host.Outcome State Fault Refusal :=
  runCommand shaperPortSetSpec c s

/-- Tokens in whole microseconds, as a signed word. -/
def tokenWord (n : Int) : Word := ofInt (n / 1000)

def shaperReadSpec : CmdSpec := plainSpec 0x0633 2
  (fun c => within c 0 0 2 && (pn c 1 < (if pn c 0 = 0 then 256 else if pn c 0 = 1 then 2048 else 64)))
  (fun c s =>
    let v := tokens s (shapeKey (pn c 0) (pn c 1))
    doneWith [tokenWord v.c, tokenWord v.e] s)

/-- SHAPER_READ (R293). -/
def execShaperRead (c : Packet) (s : State) : Host.Outcome State Fault Refusal := runCommand shaperReadSpec c s

/-- Lifetime of a service in seconds (R287). -/
def lifetimeOf (s : State) (tenant service : Nat) : Nat := tabGet s.cfg.air.lifetime (8 * tenant + service) 3600

/-! ### Records, shortfalls, counters -/

def txRecordSetSpec : CmdSpec :=
  { plainSpec 0x0640 3 (fun c => within c 0 0 3 && within c 1 34 63 && fits c 2 2) (fun c s =>
      done (setTxCfg s (pn c 0) { txCfg s (pn c 0) with
        recQ := pn c 1, records := bit (pw c 2) 0, deferrals := bit (pw c 2) 1 })) with
    ready := fun c s => !draining s (pn c 0) }

/-- TX_RECORD_SET (R292). -/
def execTxRecordSet (c : Packet) (s : State) : Host.Outcome State Fault Refusal := runCommand txRecordSetSpec c s

/-- Shortfall counters of a tenant, ranks 1-4 (R288). -/
def shortfalls (s : State) (tenant : Nat) : List Nat := tabGet s.sched.shortfall tenant [0, 0, 0, 0]

/-- Airtime added to a tenant's shortfall counter of a rank. -/
def addShortfall (tenant rank a : Nat) (s : State) : State :=
  let l := listMod (shortfalls s tenant) (rank - 1) (fun v => saturate 64 (v + a))
  { s with sched := { s.sched with shortfall := tabSet s.sched.shortfall tenant l } }

def shortfallReadSpec : CmdSpec := plainSpec 0x0641 2 (fun c => within c 0 0 255 && fits c 1 1) (fun c s =>
  let s1 := if pn c 1 = 1 then
      { s with sched := { s.sched with shortfall := tabSet s.sched.shortfall (pn c 0) [0, 0, 0, 0] } }
    else s
  doneWith ((shortfalls s (pn c 0)).flatMap (fun v => loHi (BitVec.ofNat 64 v))) s1)

/-- SHORTFALL_READ (R288). -/
def execShortfallRead (c : Packet) (s : State) : Host.Outcome State Fault Refusal :=
  runCommand shortfallReadSpec c s

/-- Schedule state of plain p. -/
def plainSched (s : State) (p : Nat) : PlainSched := tabGet s.sched.plains p {}

/-- Schedule state of plain p replaced. -/
def setPlainSched (s : State) (p : Nat) (v : PlainSched) : State :=
  { s with sched := { s.sched with plains := tabSet s.sched.plains p v } }

/-- Schedule counter i of plain p raised (R293, R149). -/
def countSched (i p : Nat) (s : State) : State :=
  let v := plainSched s p
  setPlainSched s p { v with counters := listMod v.counters i (fun k => saturate 32 (k + 1)) }

def schedCountersReadSpec : CmdSpec := plainSpec 0x0650 2 (fun c => within c 0 0 3 && fits c 1 1) (fun c s =>
  let v := plainSched s (pn c 0)
  let s1 := if pn c 1 = 1 then setPlainSched s (pn c 0) { v with counters := List.replicate 12 0 } else s
  doneWith (v.counters.map w32) s1)

/-- SCHED_COUNTERS_READ (R293). -/
def execSchedCountersRead (c : Packet) (s : State) : Host.Outcome State Fault Refusal :=
  runCommand schedCountersReadSpec c s

end Sys2Proof.Machine
end

