-- ==== Sys2Proof/Machine/Crypto.lean ====
section
/-! DEFINITION. The published functions that the spec names: AES (FIPS 197), AES-CMAC (NIST SP 800-38B), AES-CCM (SP
800-38C), AES key wrap (SP 800-38F), SHA-256 (FIPS 180-4), and ECDH and ECDSA over P-256 (SP 800-56A, FIPS 186-4)
(log 7). Byte strings are lists, first byte first. -/

namespace Sys2Proof.Machine

/-- A byte string in pieces of n bytes, the last perhaps shorter. -/
def pieces (n : Nat) (l : List Byte) : List (List Byte) := (List.range ((l.length + n - 1) / n)).map (fun i => slice l (n * i) n)

/-- A byte string filled with zeros to a multiple of n bytes. -/
def padTo (n : Nat) (l : List Byte) : List Byte := l ++ List.replicate ((n - l.length % n) % n) 0#8

/-! ### AES (FIPS 197) -/

/-- A byte times x in the field of AES. -/
def xtime (b : Byte) : Byte := (b <<< 1) ^^^ (if b.msb then 0x1B#8 else 0#8)

/-- The product of two bytes in the field of AES. -/
def fieldMul (a b : Byte) : Byte :=
  ((List.range 8).foldl (fun (r : Byte × Byte) i => (if bit b i then r.1 ^^^ r.2 else r.1, xtime r.2)) (0#8, a)).1

/-- The inverse of a byte, zero for zero: its 254th power. -/
def fieldInv (a : Byte) : Byte :=
  ((List.range 7).foldl (fun (r : Byte × Byte) _ => let q := fieldMul r.2 r.2; (fieldMul r.1 q, q)) (1#8, a)).1

/-- SubBytes of one byte. -/
def subByte (b : Byte) : Byte :=
  let i := fieldInv b
  i ^^^ i.rotateLeft 1 ^^^ i.rotateLeft 2 ^^^ i.rotateLeft 3 ^^^ i.rotateLeft 4 ^^^ 0x63#8

/-- InvSubBytes of one byte. -/
def invSubByte (b : Byte) : Byte := fieldInv (b.rotateLeft 1 ^^^ b.rotateLeft 3 ^^^ b.rotateLeft 6 ^^^ 0x05#8)

/-- ShiftRows by a given number of columns per row; a state is 16 bytes, column after column. -/
def shiftRows (step : Nat) (l : List Byte) : List Byte :=
  (List.range 16).map (fun i => l.getD (i % 4 + 4 * ((i / 4 + step * (i % 4)) % 4)) 0#8)

/-- Each column times a circulant matrix with this first row. -/
def mixColumns (m : List Byte) (l : List Byte) : List Byte :=
  (List.range 16).map (fun i => (List.range 4).foldl (fun v k =>
    v ^^^ fieldMul (m.getD ((k + 4 - i % 4) % 4) 0#8) (l.getD (4 * (i / 4) + k) 0#8)) 0#8)

/-- The next word of a key schedule with keys of nk words (FIPS 197, 5.2). -/
def nextKeyWord (nk : Nat) (ws : List (List Byte)) : List Byte :=
  let i := ws.length
  let t := ws.getD (i - 1) []
  let u := if i % nk = 0 then
      xorBytes ((t.drop 1 ++ t.take 1).map subByte) [(List.range (i / nk - 1)).foldl (fun b _ => xtime b) 1#8, 0#8, 0#8, 0#8]
    else if 6 < nk && i % nk = 4 then t.map subByte else t
  xorBytes (ws.getD (i - nk) []) u

/-- The round keys of a key of nk words. -/
def roundKeys (nk : Nat) (key : List Byte) : List (List Byte) :=
  let ws := (List.range (3 * nk + 28)).foldl (fun ws _ => ws ++ [nextKeyWord nk ws]) (pieces 4 key)
  pieces 16 ws.flatten

/-- One block encrypted (FIPS 197, 5.1). -/
def aesEncrypt (nk : Nat) (key block : List Byte) : List Byte :=
  let ks := roundKeys nk key
  let last := nk + 6
  (List.range last).foldl (fun t r =>
    let u := shiftRows 1 (t.map subByte)
    xorBytes (if r + 1 = last then u else mixColumns [2#8, 3#8, 1#8, 1#8] u) (ks.getD (r + 1) []))
    (xorBytes block (ks.getD 0 []))

/-- One block decrypted (FIPS 197, 5.3). -/
def aesDecrypt (nk : Nat) (key block : List Byte) : List Byte :=
  let ks := roundKeys nk key
  let last := nk + 6
  (List.range last).foldl (fun t r =>
    let u := xorBytes ((shiftRows 3 t).map invSubByte) (ks.getD (last - 1 - r) [])
    if r + 1 = last then u else mixColumns [14#8, 11#8, 13#8, 9#8] u)
    (xorBytes block (ks.getD last []))

/-- AES-128 of one block. -/
def aes128 (key block : List Byte) : List Byte := aesEncrypt 4 key block

/-! ### AES-CMAC (SP 800-38B) -/

/-- A 16-byte string doubled in the field of CMAC. -/
def cmacDouble (l : List Byte) : List Byte :=
  let v : BitVec 128 := BitVec.ofNat 128 (beNat l)
  beBytes 16 ((v <<< 1) ^^^ (if v.msb then 0x87#128 else 0#128)).toNat

/-- The last block of a message under the subkeys of K. -/
def cmacLast (key last : List Byte) : List Byte :=
  let k1 := cmacDouble (aes128 key (List.replicate 16 0#8))
  if last.length = 16 then xorBytes last k1 else xorBytes (padTo 16 (last ++ [0x80#8])) (cmacDouble k1)

/-- AES-CMAC of a message under a 16-byte key. -/
def aesCmac (key msg : List Byte) : List Byte :=
  let bs := pieces 16 msg
  let chain := (bs.dropLast).foldl (fun x b => aes128 key (xorBytes x b)) (List.replicate 16 0#8)
  aes128 key (xorBytes chain (cmacLast key (bs.getLastD [])))

/-! ### AES-CCM (SP 800-38C) with a 13-byte nonce and an 8-byte tag (R242) -/

/-- The key stream block with a counter. -/
def ccmStream (key nonce : List Byte) (i : Nat) : List Byte := aes128 key (1#8 :: nonce ++ beBytes 2 i)

/-- The 8-byte tag before encryption, of associated data and a payload. -/
def ccmMac (key nonce aad payload : List Byte) : List Byte :=
  let b0 := 0x59#8 :: nonce ++ beBytes 2 payload.length
  let blocks := pieces 16 (b0 ++ padTo 16 (beBytes 2 aad.length ++ aad) ++ padTo 16 payload)
  (blocks.foldl (fun x b => aes128 key (xorBytes x b)) (List.replicate 16 0#8)).take 8

/-- The payload under the key stream. -/
def ccmCrypt (key nonce data : List Byte) : List Byte :=
  let bs := pieces 16 data
  ((bs.zip (List.range bs.length)).map (fun e => xorBytes e.1 (ccmStream key nonce (e.2 + 1)))).flatten

/-- A payload sealed: its ciphertext and the 8-byte tag. -/
def ccmSeal (key nonce aad payload : List Byte) : List Byte :=
  ccmCrypt key nonce payload ++ xorBytes (ccmMac key nonce aad payload) (ccmStream key nonce 0)

/-- A ciphertext with its tag opened; none when the tag is not right. -/
def ccmOpen (key nonce aad data : List Byte) : Option (List Byte) :=
  let n := data.length - 8
  let payload := ccmCrypt key nonce (data.take n)
  if 8 ≤ data.length && xorBytes (ccmMac key nonce aad payload) (ccmStream key nonce 0) = data.drop n then some payload else none

/-! ### AES-256 key wrap, unwrapping (SP 800-38F) -/

/-- One step backwards: the register A and the semiblocks R, step t of 6 n. -/
def unwrapStep (key : List Byte) (n : Nat) (x : List Byte × List (List Byte)) (t : Nat) : List Byte × List (List Byte) :=
  let i := (t + n - 1) % n
  let b := aesDecrypt 8 key (xorBytes x.1 (beBytes 8 t) ++ x.2.getD i [])
  (b.take 8, x.2.set i (b.drop 8))

/-- A wrapped key taken out of its wrapping under a 32-byte key; none when the integrity check fails. -/
def keyUnwrap (key data : List Byte) : Option (List Byte) :=
  let ps := pieces 8 data
  let n := ps.length - 1
  let x := ((List.range (6 * n)).reverse.map (· + 1)).foldl (unwrapStep key n) (ps.headD [], ps.drop 1)
  if x.1 = List.replicate 8 0xA6#8 then some x.2.flatten else none

/-! ### SHA-256 (FIPS 180-4) -/

/-- The first 64 prime numbers. -/
def shaPrimes : List Nat :=
  [2, 3, 5, 7, 11, 13, 17, 19, 23, 29, 31, 37, 41, 43, 47, 53] ++ [59, 61, 67, 71, 73, 79, 83, 89, 97, 101, 103, 107, 109, 113, 127, 131]
  ++ [137, 139, 149, 151, 157, 163, 167, 173, 179, 181, 191, 193, 197, 199, 211, 223]
  ++ [227, 229, 233, 239, 241, 251, 257, 263, 269, 271, 277, 281, 283, 293, 307, 311]

/-- The greatest r below 2^k with r^e ≤ v, found bit by bit from the top. -/
def rootBits (e v : Nat) : Nat → Nat → Nat
  | 0, r => r
  | k + 1, r => rootBits e v k (if (r + 2 ^ k) ^ e ≤ v then r + 2 ^ k else r)

/-- The first 32 bits of the fraction of the e-th root of p. -/
def rootFraction (e p : Nat) : Word := w32 (rootBits e (p * 2 ^ (32 * e)) 40 0)

/-- The 64 constants: fractions of the cube roots of the primes. -/
def shaConstants : List Word := shaPrimes.map (rootFraction 3)

/-- The initial hash value: fractions of the square roots of the first eight primes. -/
def shaInit : List Word := (shaPrimes.take 8).map (rootFraction 2)

/-- A message padded to whole blocks. -/
def shaPad (l : List Byte) : List Byte :=
  l ++ [0x80#8] ++ List.replicate ((119 - l.length % 64) % 64) 0#8 ++ beBytes 8 (8 * l.length)

/-- The 64 message words of a block. -/
def shaSchedule (block : List Byte) : List Word :=
  (List.range 48).foldl (fun ws i =>
    let a := ws.getD (i + 1) 0#32
    let b := ws.getD (i + 14) 0#32
    let s0 := a.rotateRight 7 ^^^ a.rotateRight 18 ^^^ (a >>> 3)
    let s1 := b.rotateRight 17 ^^^ b.rotateRight 19 ^^^ (b >>> 10)
    ws ++ [ws.getD i 0#32 + s0 + ws.getD (i + 9) 0#32 + s1]) ((pieces 4 block).map (fun b => w32 (beNat b)))

/-- One round on the eight working words. -/
def shaRound (v : List Word) (kw : Word × Word) : List Word :=
  let a := v.getD 0 0#32
  let e := v.getD 4 0#32
  let s1 := e.rotateRight 6 ^^^ e.rotateRight 11 ^^^ e.rotateRight 25
  let ch := (e &&& v.getD 5 0#32) ^^^ (~~~ e &&& v.getD 6 0#32)
  let t1 := v.getD 7 0#32 + s1 + ch + kw.1 + kw.2
  let s0 := a.rotateRight 2 ^^^ a.rotateRight 13 ^^^ a.rotateRight 22
  let maj := (a &&& v.getD 1 0#32) ^^^ (a &&& v.getD 2 0#32) ^^^ (v.getD 1 0#32 &&& v.getD 2 0#32)
  [t1 + s0 + maj, a, v.getD 1 0#32, v.getD 2 0#32, v.getD 3 0#32 + t1, e, v.getD 5 0#32, v.getD 6 0#32]

/-- SHA-256. -/
def sha256 (l : List Byte) : List Byte :=
  ((pieces 64 (shaPad l)).foldl (fun h b => List.zipWith (· + ·) h ((shaConstants.zip (shaSchedule b)).foldl shaRound h)) shaInit).flatMap
    (fun w => beBytes 4 w.toNat)

/-! ### P-256 (FIPS 186-4) -/

/-- The field's prime. -/
def pPrime : Nat := 2 ^ 256 - 2 ^ 224 + 2 ^ 192 + 2 ^ 96 - 1

/-- The order of the base point. -/
def pOrder : Nat := 0xFFFFFFFF00000000FFFFFFFFFFFFFFFFBCE6FAADA7179E84F3B9CAC2FC632551

/-- The coefficient b of the curve. -/
def pCoeff : Nat := 0x5AC635D8AA3A93E7B3EBBD55769886BC651D06B0CC53B0F63BCE3C3E27D2604B

/-- The base point. -/
def pBase : Nat × Nat :=
  (0x6B17D1F2E12C4247F8BCE6E563A440F277037D812DEB33A0F4A13945D898C296,
   0x4FE342E2FE1A7F9B8EE7EB4A7C0F9E162BCE33576B315ECECBB6406837BF51F5)

/-- a to the power given by the lowest k bits of e, modulo m. -/
def powMod (m a e : Nat) : Nat → Nat
  | 0 => 1 % m
  | k + 1 => let h := powMod m (a * a % m) (e / 2) k; if e % 2 = 1 then a * h % m else h

/-- The inverse modulo a prime. -/
def invMod (m a : Nat) : Nat := powMod m (a % m) (m - 2) 256

/-- The sum of two points; none is the point at infinity. -/
def pointAdd (a b : Option (Nat × Nat)) : Option (Nat × Nat) :=
  match a, b with
  | none, q => q
  | q, none => q
  | some (x, y), some (u, v) =>
    if x = u && (y + v) % pPrime = 0 then none
    else
      let k := if x = u then (3 * x * x + (pPrime - 3)) * invMod pPrime (2 * y) % pPrime
        else (v + (pPrime - y)) * invMod pPrime (u + (pPrime - x)) % pPrime
      let z := (k * k + 2 * pPrime - x - u) % pPrime
      some (z, (k * (x + pPrime - z) + (pPrime - y)) % pPrime)

/-- A point times the lowest k bits of a number. -/
def pointMul (q : Option (Nat × Nat)) (e : Nat) : Nat → Option (Nat × Nat)
  | 0 => none
  | k + 1 => let h := pointMul (pointAdd q q) (e / 2) k; if e % 2 = 1 then pointAdd q h else h

/-- The point of a 64-byte public key X, Y. -/
def pointOf (l : List Byte) : Nat × Nat := (beNat (l.take 32), beNat (slice l 32 32))

/-- The 64 bytes of a point. -/
def pointBytes : Option (Nat × Nat) → List Byte
  | some (x, y) => beBytes 32 x ++ beBytes 32 y
  | none => List.replicate 64 0#8

/-- The public key of a private scalar (R426). -/
def p256Public (priv : List Byte) : List Byte := pointBytes (pointMul (some pBase) (beNat priv) 256)

/-- Public-key validation of SP 800-56A: coordinates in range and on the curve (R427); the point at infinity has no such
coordinates. -/
def p256Valid (pub : List Byte) : Bool :=
  let q := pointOf pub
  q.1 < pPrime && q.2 < pPrime && q.2 * q.2 % pPrime = (q.1 * q.1 * q.1 + (pPrime - 3) * q.1 + pCoeff) % pPrime

/-- The x-coordinate of the ECDH shared point (R427). -/
def ecdh (priv pub : List Byte) : List Byte := (pointBytes (pointMul (some (pointOf pub)) (beNat priv) 256)).take 32

/-- ECDSA verification of a digest: public key, digest, signature r, s (R472). -/
def ecdsaOk (pub digest sig : List Byte) : Bool :=
  let r := beNat (sig.take 32)
  let t := beNat (slice sig 32 32)
  let w := invMod pOrder t
  0 < r && r < pOrder && 0 < t && t < pOrder && p256Valid pub
    && match pointAdd (pointMul (some pBase) (beNat digest * w % pOrder) 256)
          (pointMul (some (pointOf pub)) (r * w % pOrder) 256) with
      | some (x, _) => x % pOrder = r
      | none => false

/-- The ECDSA signature of a digest under a private scalar with a nonce made from a draw of the random source (R438); how a
draw gives a nonce below the order is the model's (DESIGN CHOICE, log 7). -/
def ecdsaSign (priv draw : Nat) (digest : List Byte) : List Byte :=
  let k := draw % (pOrder - 1) + 1
  match pointMul (some pBase) k 256 with
  | some (x, _) =>
    let r := x % pOrder
    beBytes 32 r ++ beBytes 32 (invMod pOrder k * (beNat digest + r * priv) % pOrder)
  | none => List.replicate 64 0#8

end Sys2Proof.Machine
end

