-- ==== Sys2Proof/Machine/Iphc.lean ====
section
/-! DEFINITION. IPv6 header compression and UDP next-header compression (RFC 6282) as R244 takes them. Byte strings are
lists, first byte first; a context is its ID, prefix length and prefix. -/

namespace Sys2Proof.Machine

/-! ### Addresses (RFC 6282, 3.2.2 to 3.2.4) -/

/-- A context: ID, prefix length, prefix. -/
abbrev Context := Nat × Nat × BitVec 128

/-- The interface identifier of a node address (R244). -/
def iidOf (a : Word) : List Byte := [0x02#8, 0#8, 0#8, 0#8] ++ beBytes 4 a.toNat

/-- The link-local prefix in 8 bytes. -/
def localPrefix : List Byte := [0xFE#8, 0x80#8] ++ List.replicate 6 0#8

/-- The identifier that 16 inline bits stand for. -/
def shortIid (b : List Byte) : List Byte := [0#8, 0#8, 0#8, 0xFF#8, 0xFE#8, 0#8] ++ b

/-- An address whose first bits a context gives and whose other bits come from 16 bytes. -/
def withContext (c : Context) (base : List Byte) : List Byte :=
  let keep : BitVec 128 := BitVec.ofNat 128 (2 ^ (128 - c.2.1) - 1)
  beBytes 16 ((c.2.2 &&& ~~~ keep) ||| (BitVec.ofNat 128 (beNat base) &&& keep)).toNat

/-- n bytes taken from the front; none when there are fewer. -/
def takeBytes (n : Nat) (l : List Byte) : Option (List Byte × List Byte) := if n ≤ l.length then some (l.take n, l.drop n) else none

/-- Inline bytes of a unicast address in mode 0-3. -/
def unicastSize (mode : Nat) : Nat := [16, 8, 2, 0].getD mode 16

/-- The identifier of a unicast address from its inline bytes and the frame's address. -/
def identifier (iid inl : List Byte) (mode : Nat) : List Byte := if mode = 1 then inl else if mode = 2 then shortIid inl else iid

/-- A stateless unicast address (SAC or DAC 0). -/
def statelessAddress (iid inl : List Byte) (mode : Nat) : List Byte :=
  if mode = 0 then inl else localPrefix ++ identifier iid inl mode

/-- A stateful unicast address (SAC or DAC 1, mode 1-3). -/
def statefulAddress (c : Context) (iid inl : List Byte) (mode : Nat) : List Byte :=
  withContext c (List.replicate 8 0#8 ++ identifier iid inl mode)

/-- Inline bytes of a stateless multicast address in mode 0-3. -/
def multicastSize (mode : Nat) : Nat := [16, 6, 4, 1].getD mode 16

/-- A stateless multicast address from its inline bytes (M 1, DAC 0). -/
def multicastAddress (inl : List Byte) (mode : Nat) : List Byte :=
  match mode with
  | 0 => inl
  | 1 => [0xFF#8] ++ inl.take 1 ++ List.replicate 9 0#8 ++ inl.drop 1
  | 2 => [0xFF#8] ++ inl.take 1 ++ List.replicate 11 0#8 ++ inl.drop 1
  | _ => [0xFF#8, 0x02#8] ++ List.replicate 13 0#8 ++ inl

/-- A multicast address with a context's prefix of at most 64 bits (M 1, DAC 1, DAM 0; R244). -/
def prefixMulticast (c : Context) (inl : List Byte) : List Byte :=
  [0xFF#8] ++ inl.take 2 ++ [BitVec.ofNat 8 c.2.1] ++ (withContext c (List.replicate 16 0#8)).take 8 ++ inl.drop 2

/-! ### UDP checksum -/

/-- The sum of 16-bit groups with end-around carry. -/
def onesSum (l : List Byte) : Nat :=
  let n := ((List.range ((l.length + 1) / 2)).map (fun i => 256 * byteAt l (2 * i) + byteAt l (2 * i + 1))).sum
  let a := n % 65536 + n / 65536
  a % 65536 + a / 65536

/-- The checksum of a UDP datagram whose own field is zero (RFC 8200, 8.1). -/
def udpChecksum (src dst udp : List Byte) : Nat :=
  let v := 65535 - onesSum (src ++ dst ++ beBytes 4 udp.length ++ [0#8, 0#8, 0#8, 17#8] ++ udp)
  if v = 0 then 65535 else v

/-! ### Decompression -/

/-- Traffic class, flow label and what follows them (TF). -/
def readFlow (tf : Nat) (l : List Byte) : Option ((Nat × Nat) × List Byte) :=
  (takeBytes ([4, 3, 1, 0].getD tf 0) l).map (fun x =>
    let b := beNat x.1
    let cls (v : Nat) : Nat := v % 64 * 4 + v / 64
    match tf with
    | 0 => ((cls (b / 16777216), b % 1048576), x.2)
    | 1 => ((b / 4194304, b % 1048576), x.2)
    | 2 => ((cls b, 0), x.2)
    | _ => ((0, 0), x.2))

/-- The source address and what follows it (SAC, SAM). -/
def readSource (c : Option Context) (iid : List Byte) (sac : Bool) (sam : Nat) (l : List Byte) : Option (List Byte × List Byte) :=
  if sac && sam = 0 then some (List.replicate 16 0#8, l)
  else
    match takeBytes (unicastSize sam) l with
    | none => none
    | some x => if sac then c.map (fun k => (statefulAddress k iid x.1 sam, x.2)) else some (statelessAddress iid x.1 sam, x.2)

/-- The destination address and what follows it (M, DAC, DAM); reserved encodings are not supported. -/
def readDest (c : Option Context) (iid : List Byte) (m dac : Bool) (dam : Nat) (l : List Byte) : Option (List Byte × List Byte) :=
  if m && dac then
    match c, takeBytes 6 l with
    | some k, some x => if dam = 0 && k.2.1 ≤ 64 then some (prefixMulticast k x.1, x.2) else none
    | _, _ => none
  else if m then (takeBytes (multicastSize dam) l).map (fun x => (multicastAddress x.1 dam, x.2))
  else if dac && dam = 0 then none
  else readSource c iid dac dam l

/-- Source and destination port and what follows them (RFC 6282, 4.3.3). -/
def readPorts (p : Nat) (l : List Byte) : Option ((Nat × Nat) × List Byte) :=
  (takeBytes ([4, 3, 3, 1].getD p 4) l).map (fun x =>
    let b := beNat x.1
    match p with
    | 0 => ((b / 65536, b % 65536), x.2)
    | 1 => ((b / 256, 0xF000 + b % 256), x.2)
    | 2 => ((0xF000 + b / 65536, b % 65536), x.2)
    | _ => ((0xF0B0 + b / 16, 0xF0B0 + b % 16), x.2))

/-- A UDP datagram out of its compressed header; the checksum may be elided only on a secured frame (R244). -/
def readUdp (src dst : List Byte) (secured : Bool) (l : List Byte) : Option (List Byte) :=
  match l with
  | [] => none
  | h :: r =>
    if bits h 7 3 != 30 || (bit h 2 && !secured) then none
    else match readPorts (bits h 1 0) r with
      | none => none
      | some x => match takeBytes (if bit h 2 then 0 else 2) x.2 with
        | none => none
        | some y =>
          let head := beBytes 2 x.1.1 ++ beBytes 2 x.1.2 ++ beBytes 2 (8 + y.2.length)
          let sum := if bit h 2 then beBytes 2 (udpChecksum src dst (head ++ [0#8, 0#8] ++ y.2)) else y.1
          some (head ++ sum ++ y.2)

/-- An IPv6 header of 40 bytes. -/
def ipv6Header (cls flow len next hop : Nat) (src dst : List Byte) : List Byte :=
  beBytes 4 (6 * 268435456 + cls * 1048576 + flow) ++ beBytes 2 len ++ [BitVec.ofNat 8 next, BitVec.ofNat 8 hop] ++ src ++ dst

/-- One byte inline, or a value that the encoding gives. -/
def readByte (inl : Bool) (v : Nat) (l : List Byte) : Option (Nat × List Byte) :=
  if inl then (takeBytes 1 l).map (fun x => (beNat x.1, x.2)) else some (v, l)

/-- The context that a CID nibble names. -/
def contextAt (cs : List Context) (i : Nat) : Option Context := cs.find? (fun c => c.1 = i)

/-- What follows the two header bytes and the CID byte. -/
def iphcBody (cs : List Context) (src dst : Word) (secured : Bool) (h : BitVec 16) (cid : Byte) (l : List Byte) :
    Option (List Byte) := do
  let f ← readFlow (bits h 12 11) l
  let n ← readByte (!bit h 10) 17 f.2
  let hl ← readByte (bits h 9 8 = 0) ([0, 1, 64, 255].getD (bits h 9 8) 0) n.2
  let a ← readSource (contextAt cs (bits cid 7 4)) (iidOf src) (bit h 6) (bits h 5 4) hl.2
  let d ← readDest (contextAt cs (bits cid 3 0)) (iidOf dst) (bit h 3) (bit h 2) (bits h 1 0) a.2
  let body ← if bit h 10 then readUdp a.1 d.1 secured d.2 else some d.2
  some (ipv6Header f.1.1 f.1.2 body.length n.1 hl.1 a.1 d.1 ++ body)

/-- A payload decompressed (R244): none when it is not supported. -/
def iphcOpen (cs : List Context) (src dst : Word) (secured : Bool) (l : List Byte) : Option (List Byte) :=
  match l with
  | b0 :: b1 :: r =>
    let h : BitVec 16 := BitVec.ofNat 16 (256 * b0.toNat + b1.toNat)
    if bits h 15 13 != 3 then none
    else if bit h 7 then
      match r with
      | cid :: t => iphcBody cs src dst secured h cid t
      | [] => none
    else iphcBody cs src dst secured h 0#8 r
  | _ => none

/-! ### Compression -/

/-- An encoding of an address: the flag of a stateful one, its mode, its context, its inline bytes. -/
structure AddrCode where
  stateful : Bool := false
  multicast : Bool := false
  mode : Nat := 0
  ctx : Nat := 0
  inl : List Byte := []
  deriving DecidableEq, Repr

/-- The shortest of a list of encodings, the first of equals. -/
def shortest (l : List AddrCode) : AddrCode :=
  l.foldl (fun m c => if c.inl.length < m.inl.length then c else m) (l.headD {})

/-- The inline bytes that a unicast address would need in a mode. -/
def inlineOf (a : List Byte) (mode : Nat) : List Byte := a.drop (16 - unicastSize mode)

/-- The encodings of a unicast address, stateless ones first, then by context ID (R244). -/
def unicastCodes (cs : List Context) (iid a : List Byte) : List AddrCode :=
  (([0, 1, 2, 3].filter (fun m => statelessAddress iid (inlineOf a m) m = a)).map (fun m => ({ mode := m, inl := inlineOf a m } : AddrCode)))
  ++ cs.flatMap (fun c => ([1, 2, 3].filter (fun m => statefulAddress c iid (inlineOf a m) m = a)).map
      (fun m => ({ stateful := true, mode := m, ctx := c.1, inl := inlineOf a m } : AddrCode)))

/-- The encoding of a source address: the unspecified one has its own. -/
def sourceCode (cs : List Context) (iid a : List Byte) : AddrCode :=
  if a = List.replicate 16 0#8 then { stateful := true } else shortest (unicastCodes cs iid a)

/-- The inline bytes that a multicast address would need in a mode. -/
def multicastInline (a : List Byte) (mode : Nat) : List Byte :=
  match mode with
  | 0 => a
  | 1 => slice a 1 1 ++ a.drop 11
  | 2 => slice a 1 1 ++ a.drop 13
  | _ => a.drop 15

/-- The encodings of a multicast address, stateless ones first, then by context ID (R244). -/
def multicastCodes (cs : List Context) (a : List Byte) : List AddrCode :=
  let two := slice a 1 2 ++ a.drop 12
  (([0, 1, 2, 3].filter (fun m => multicastAddress (multicastInline a m) m = a)).map
    (fun m => ({ multicast := true, mode := m, inl := multicastInline a m } : AddrCode)))
  ++ (cs.filter (fun c => c.2.1 ≤ 64 && prefixMulticast c two = a)).map
      (fun c => ({ stateful := true, multicast := true, ctx := c.1, inl := two } : AddrCode))

/-- The encoding of a destination address. -/
def destCode (cs : List Context) (iid a : List Byte) : AddrCode :=
  if byteAt a 0 = 255 then shortest (multicastCodes cs a) else shortest (unicastCodes cs iid a)

/-- TF and the inline bytes of a traffic class and flow label. -/
def flowCode (cls flow : Nat) : Nat × List Byte :=
  let swapped := cls % 4 * 64 + cls / 4
  if flow = 0 then (if cls = 0 then (3, []) else (2, beBytes 1 swapped))
  else if cls / 4 = 0 then (1, beBytes 3 (cls * 4194304 + flow))
  else (0, beBytes 4 (swapped * 16777216 + flow))

/-- HLIM and the inline byte of a hop limit. -/
def hopCode (v : Nat) : Nat × List Byte :=
  if v = 1 then (1, []) else if v = 64 then (2, []) else if v = 255 then (3, []) else (0, beBytes 1 v)

/-- The compressed ports of a UDP header: P and inline bytes. -/
def portCode (s d : Nat) : Nat × List Byte :=
  if s / 16 = 0xF0B && d / 16 = 0xF0B then (3, beBytes 1 (s % 16 * 16 + d % 16))
  else if d / 256 = 0xF0 then (1, beBytes 2 s ++ beBytes 1 (d % 256))
  else if s / 256 = 0xF0 then (2, beBytes 1 (s % 256) ++ beBytes 2 d)
  else (0, beBytes 2 s ++ beBytes 2 d)

/-- The payload is a UDP datagram whose length field is its length. -/
def plainUdp (next : Nat) (body : List Byte) : Bool :=
  next = 17 && 8 ≤ body.length && decide (beNat (slice body 4 2) = body.length)

/-- A UDP datagram compressed, its checksum elided (R244). -/
def udpCode (body : List Byte) : List Byte :=
  let p := portCode (beNat (body.take 2)) (beNat (slice body 2 2))
  [BitVec.ofNat 8 (0xF4 + p.1)] ++ p.2 ++ body.drop 8

/-- An IPv6 packet compressed with the shortest encoding of each field (R244); `src` and `dst` are the frame's addresses. -/
def iphcSeal (cs : List Context) (src dst : Word) (l : List Byte) : List Byte :=
  let f := flowCode (beNat (l.take 4) / 1048576 % 256) (beNat (l.take 4) % 1048576)
  let next := byteAt l 6
  let h := hopCode (byteAt l 7)
  let a := sourceCode cs (iidOf src) (slice l 8 16)
  let d := destCode cs (iidOf dst) (slice l 24 16)
  let body := l.drop 40
  let udp := plainUdp next body
  let cid := a.ctx != 0 || d.ctx != 0
  let w := 24576 + 2048 * f.1 + 1024 * flag udp + 256 * h.1 + 128 * flag cid + 64 * flag a.stateful + 16 * a.mode
    + 8 * flag d.multicast + 4 * flag d.stateful + d.mode
  beBytes 2 w ++ (if cid then [BitVec.ofNat 8 (16 * a.ctx + d.ctx)] else []) ++ f.2 ++ (if udp then [] else [BitVec.ofNat 8 next])
    ++ h.2 ++ a.inl ++ d.inl ++ (if udp then udpCode body else body)

end Sys2Proof.Machine
end

