-- ==== Sys2Proof/Machine/LinkFrame.lean ====
section
/-! DEFINITION. Link frames (R229-R232), the replay window (R235), keys and the key cache (R240), epochs (R241), CCM
(R242), the device's counters (R243), and IPHC contexts (R244). -/

namespace Sys2Proof.Machine

/-! ### Addresses and frames -/

/-- The broadcast address (R229). -/
def everyNode : Word := 0xFFFFFFFF#32

/-- The device's own source address (R229). -/
def ownAddress (s : State) : Word := 0xFFFFFF00#32 + w32 (ownHid s)

/-- An address of a device (R229). -/
def deviceAddress (a : Word) : Bool := 0xFFFFFF00#32 ≤ a && a ≤ 0xFFFFFF3F#32

/-- The fields of a received link frame (R230); missing bytes read as zero. -/
structure LinkFields where
  fc : BitVec 16
  hop : Nat
  ctr : Word
  src : Word
  dst : Option Word
  aad : List Byte
  body : List Byte
  /-- shorter than its fields require -/
  short : Bool
  deriving DecidableEq, Repr

/-- The word of four bytes at a position. -/
def wordAt (l : List Byte) (i : Nat) : Word := w32 (leNat (slice l i 4))

/-- A received frame taken apart (R230). The associated data has HOP as 0x00 (R242). -/
def parseFrame (l : List Byte) : LinkFields :=
  let fc : BitVec 16 := BitVec.ofNat 16 (leNat (l.take 2))
  let head := (if bit fc 7 then 15 else 11) + (if bit fc 10 then 2 else 0)
  { fc := fc, hop := byteAt l 2, ctr := wordAt l 3, src := wordAt l 7
    dst := if bit fc 7 then some (wordAt l 11) else none
    aad := l.take 2 ++ [0#8] ++ slice l 3 (head - 3), body := l.drop head
    short := decide (l.length < head + (if bit fc 3 then 8 else 0)) }

/-- TYPE (R231). -/
def frameType (f : LinkFields) : Nat := bits f.fc 2 0
/-- SEC (R231). -/
def frameSec (f : LinkFields) : Bool := bit f.fc 3
/-- ACK_REQ (R231); a time request is treated as if it were set (R232). -/
def frameAckReq (f : LinkFields) : Bool := bit f.fc 4 || frameType f = 7
/-- FLOOD (R231). -/
def frameFlood (f : LinkFields) : Bool := bit f.fc 5
/-- Hop count (R230). -/
def frameHops (f : LinkFields) : Nat := f.hop % 16

/-- A node-originated frame is malformed (R232). -/
def malformed (f : LinkFields) : Bool :=
  f.short || bits f.fc 15 11 != 0 || bit f.fc 10 || bit f.fc 6 || frameType f = 2 || frameType f = 5

/-- The frame is addressed to the device (R232). -/
def addressedHere (f : LinkFields) : Bool := f.dst.isNone || f.dst = some 0#32

/-- Words 13-15 of a reception record (R251). -/
def linkWords (f : LinkFields) (outcome : Nat) (booked : Bool) (ack : Nat) : List Word :=
  [w32 (outcome + 16 * frameType f + 128 * flag (frameSec f) + 256 * flag (bit f.fc 4) + 512 * flag (frameFlood f)
    + 1024 * flag booked + 2048 * frameHops f + 65536 * ack), f.src, f.ctr]

/-! ### Replay window (R235) -/

/-- The three answers of replay_check. -/
inductive ReplayResult where
  | fresh
  | duplicate
  | replay
  | staleEpoch
  deriving DecidableEq, Repr

/-- Epochs compare by 16-bit signed difference (R235). -/
def epochBefore (a b : BitVec 16) : Bool := (a - b).toInt < 0

/-- replay_check (R235). -/
def replayCheck (w : Option Window) (ctr : Word) (ep : BitVec 16) : ReplayResult :=
  match w with
  | none => .fresh
  | some x =>
    if epochBefore ep x.epoch then .staleEpoch
    else if epochBefore x.epoch ep then .fresh
    else if x.last < ctr then .fresh
    else
      let d := (x.last - ctr).toNat
      if 64 ≤ d then .replay else if bit x.map d then .duplicate else .fresh

/-- replay_commit (R235). -/
def replayCommit (w : Option Window) (ctr : Word) (ep : BitVec 16) : Window :=
  match w with
  | none => { epoch := ep, last := ctr, map := 1 }
  | some x =>
    if epochBefore x.epoch ep then { epoch := ep, last := ctr, map := 1 }
    else if x.last < ctr then
      let d := (ctr - x.last).toNat
      { x with last := ctr, map := if 64 ≤ d then 1 else (x.map <<< d) ||| 1 }
    else { x with map := x.map ||| BitVec.ofNat 64 (2 ^ (x.last - ctr).toNat) }

/-! ### Epochs and keys -/

/-- The previous epoch's zone slot while its overlap lasts (R241). -/
def overlapSlot (s : State) (n : Nat) : Option Nat :=
  match (netRun s n).prev with
  | some (slot, stop) => if reached s stop then none else some slot
  | none => none

/-- The epoch to which a received frame resolves (R241). -/
def resolveEpoch (s : State) (n : Nat) (k : Nat) : Option (BitVec 16) :=
  let e := (netCfg s n).epoch
  if e.toNat % 4 = k then some e
  else if (overlapSlot s n).isSome && (e - 1).toNat % 4 = k then some (e - 1)
  else none

/-- The epoch of a device frame to a node with this window (R241). -/
def sendEpoch (s : State) (n : Nat) (w : Option Window) : BitVec 16 :=
  let e := (netCfg s n).epoch
  match w with
  | some x => if x.epoch = e - 1 && (overlapSlot s n).isSome then e - 1 else e
  | none => e

/-- A vault slot. -/
def vaultSlot (s : State) (k : Nat) : Slot := tabGet s.vault.slots k {}

/-- The key of a zone slot that can be used (R240, R422). -/
def zoneKey (s : State) (k : Nat) : Option (List Byte) :=
  let v := vaultSlot s k
  if s.vault.unlocked && s.vault.rootOk && v.state = 1 && v.typ = 1 then some (v.key.take 16) else none

/-- The zone slot of a network's epoch. -/
def epochSlot (s : State) (n : Nat) (ep : BitVec 16) : Option Nat :=
  if ep = (netCfg s n).epoch then some (netCfg s n).slot else overlapSlot s n

/-- The 14 bytes from which a node's key is derived (R240). -/
def kdfInput (addr : Word) (ep : BitVec 16) : List Byte :=
  [0x01#8, 0x59#8, 0x4E#8, 0x4B#8, 0x44#8, 0x00#8] ++ wordBytes addr ++ leBytes 2 ep.toNat ++ [0x00#8, 0x80#8]

/-- The key of an address under an epoch, by the cache of 65,536 entries, and the state after the access; none when the
zone slot cannot be used (R240). -/
def nodeKey (n : Nat) (addr : Word) (ep : BitVec 16) (s : State) : Option (List Byte) × State :=
  let mine (e : KeyEntry) : Bool := e.net = n && e.addr = addr && e.epoch = ep
  let s1 := useClock s
  match s.link.keys.find? mine with
  | some e =>
    let used (x : KeyEntry) : KeyEntry := if mine x then { x with used := s1.link.clock } else x
    (some e.key, { s1 with link := { s1.link with keys := s1.link.keys.map used } })
  | none =>
    match epochSlot s n ep with
    | none => (none, s)
    | some k =>
      match zoneKey s k with
      | none => (none, s)
      | some z =>
        let e : KeyEntry := { net := n, addr := addr, epoch := ep, slot := k, key := aesCmac z (kdfInput addr ep), used := s1.link.clock }
        (some e.key, { s1 with link := { s1.link with keys := evict 65536 (fun x => x.used) s1.link.keys ++ [e] } })

/-- Key-cache entries with property f evicted. -/
def dropKeys (f : KeyEntry → Bool) (s : State) : State :=
  { s with link := { s.link with keys := s.link.keys.filter (fun e => !f e) } }

/-- The nonce of a secured frame (R242). -/
def nonceOf (s : State) (n : Nat) (src ctr : Word) (ep : BitVec 16) : List Byte :=
  wordBytes src ++ wordBytes ctr ++ leBytes 2 (netCfg s n).number.toNat ++ [(netCfg s n).sync] ++ leBytes 2 ep.toNat

/-! ### The device's counters (R243) -/

/-- START_COUNT values of a network. -/
def startCount (s : State) (n : Nat) : StartCount := tabGet s.vault.start n {}

/-- First value of the counter block of an epoch; none while the epoch is held (R243). -/
def ctrBlock (s : State) (n : Nat) (ep : BitVec 16) (bcast : Bool) : Option Nat :=
  let v := startCount s n
  let half := if bcast then 8388608 else 0
  if ep = (netCfg s n).epoch then (if v.curHeld then none else some (16777216 * v.cur + half))
  else if v.prevHeld then none else some (16777216 * v.prev + half)

/-- The counter that a frame takes, given the next one stored: from the first value of the block when it lies outside
it; none once the block is used up under the epoch in question (R243). -/
def nextCtr (base stored : Nat) (used : Bool) : Option Nat :=
  if used && stored = base + 8388608 then none
  else if base ≤ stored && stored < base + 8388608 then some stored
  else some base

/-- The stored broadcast counter of a network's epoch. -/
def bctrOf (s : State) (n : Nat) (ep : BitVec 16) : Option Nat :=
  if ep = (netCfg s n).epoch then (netRun s n).bctr else (netRun s n).bctrPrev

/-- The counter of a broadcast or flood under an epoch, and the state with it used; none when the network may not
transmit under that epoch (R243). -/
def takeBroadcastCtr (n : Nat) (ep : BitVec 16) (s : State) : Option (Word × State) :=
  match ctrBlock s n ep true with
  | none => none
  | some base =>
    let c := match bctrOf s n ep with
      | some v => nextCtr base v true
      | none => some base
    match c with
    | none => none
    | some v =>
      let r := netRun s n
      some (w32 v, setNet s n (if ep = (netCfg s n).epoch then { r with bctr := some (v + 1) } else { r with bctrPrev := some (v + 1) }))

/-- The counter of a unicast frame to a node with a record, and the state with it used (R243). -/
def takeNodeCtr (n : Nat) (addr : Word) (ep : BitVec 16) (s : State) : Option (Word × State) :=
  match nodeEntry s n addr, ctrBlock s n ep false with
  | some (i, r), some base =>
    match nextCtr base r.dlCtr.toNat (decide (r.ctrEpoch = ep)) with
    | some v => some (w32 v, setNode i { r with dlCtr := w32 (v + 1), ctrEpoch := ep } s)
    | none => none
  | _, _ => none

/-! ### Building device frames (R230, R231, R242) -/

/-- What a device frame is to carry. -/
structure FrameAsk where
  typ : Nat
  flood : Bool := false
  pending : Bool := false
  dst : Word
  tcorr : Int := 0
  payload : List Byte
  deriving DecidableEq, Repr

/-- FC of a device frame under an epoch. -/
def fcOf (a : FrameAsk) (ep : BitVec 16) : Nat :=
  a.typ + 8 + 32 * flag a.flood + 64 * flag a.pending + 128 + 256 * (ep.toNat % 4) + 1024

/-- The fields from FC to TCORR with a given HOP byte. -/
def frameHead (s : State) (a : FrameAsk) (ep : BitVec 16) (ctr : Word) (hop : Nat) : List Byte :=
  leBytes 2 (fcOf a ep) ++ [BitVec.ofNat 8 hop] ++ wordBytes ctr ++ wordBytes (ownAddress s) ++ wordBytes a.dst
    ++ leBytes 2 (field16 a.tcorr)

/-- A device frame under a key and counter: floods start with FLOOD_TTL, others with HOP 0x00 (R239). -/
def sealFrame (s : State) (n : Nat) (a : FrameAsk) (ep : BitVec 16) (ctr : Word) (key : List Byte) : List Byte :=
  frameHead s a ep ctr (if a.flood then 16 * (netCfg s n).floodTtl else 0)
    ++ ccmSeal key (nonceOf s n (ownAddress s) ctr ep) (frameHead s a ep ctr 0) a.payload

/-- Length of a device frame with a payload of n bytes (R230). -/
def deviceLen (n : Nat) : Nat := 25 + n

/-- What a device frame without a key is refused with: by a zeroisation, else by the root (R242, R434). -/
def keyStatus (s : State) (n : Nat) : Status :=
  if s.vault.tampered || ((vaultSlot s (netCfg s n).slot).state = 0 && 0 < s.vault.count) then .notPermittedTamperLatched
  else .failedRootKey

/-- A frame to a node with a record built: its bytes, or the status that refuses it (R242, R243). -/
def buildUnicast (n : Nat) (a : FrameAsk) (s : State) : (Status ⊕ List Byte) × State :=
  match nodeOf s n a.dst with
  | none => (.inl .refusedNodeUnknown, s)
  | some r =>
    let ep := sendEpoch s n r.win
    match nodeKey n a.dst ep s with
    | (none, s1) => (.inl (keyStatus s1 n), s1)
    | (some k, s1) =>
      match takeNodeCtr n a.dst ep s1 with
      | some (ctr, s2) => (.inr (sealFrame s2 n a ep ctr k), s2)
      | none => (.inl .invalidState, s1)

/-- A frame under a broadcast counter built, with the key of an address and an epoch (R243). -/
def buildBroadcast (n : Nat) (a : FrameAsk) (ep : BitVec 16) (s : State) : (Status ⊕ List Byte) × State :=
  match nodeKey n a.dst ep s with
  | (none, s1) => (.inl (keyStatus s1 n), s1)
  | (some k, s1) =>
    match takeBroadcastCtr n ep s1 with
    | some (ctr, s2) => (.inr (sealFrame s2 n a ep ctr k), s2)
    | none => (.inl .invalidState, s1)

/-! ### IPHC (R244) -/

/-- The valid contexts of a tenant: ID, prefix length, prefix (R244). -/
def contextsOf (s : State) (tenant : Nat) : List Context :=
  (List.range 16).filterMap (fun i =>
    match tabFind s.cfg.link.ctx (16 * tenant + i) with
    | some c => if c.valid then some (i, c.len, c.pfx) else none
    | none => none)

/-- An uplink payload decompressed; none when it is not supported (R244). -/
def decompress (s : State) (tenant : Nat) (src : Word) (secured : Bool) (l : List Byte) : Option (List Byte) :=
  iphcOpen (contextsOf s tenant) src 0#32 secured l

/-- A downlink packet compressed for a destination (R244). -/
def compress (s : State) (tenant : Nat) (dst : Word) (l : List Byte) : List Byte :=
  iphcSeal (contextsOf s tenant) (ownAddress s) dst l

end Sys2Proof.Machine
end

