-- ==== Sys2Proof/Machine/TxOps.lean ====
section
/-! DEFINITION. A transmission from candidate to outcome: tuning (R199, R204), the judgement of R285, charges (R277, R282,
R219), deferral, refusal and record (R279, R283, R287, R288, R290-R292). -/

namespace Sys2Proof.Machine

/-! ### Times -/

/-- An instant n nanoseconds before t. -/
def before (t : BitVec 64) (n : Nat) : BitVec 64 := t - BitVec.ofNat 64 n

/-- The end of T_air of a transmission. -/
def airEnd (x : Tx) : BitVec 64 := x.t0 + BitVec.ofNat 64 (1000 * x.tAir)

/-- The end on air as it stands: earlier than that of T_air once the transmission has ended early (R218). -/
def txEnd (x : Tx) : BitVec 64 := if x.endAt = 0#64 then airEnd x else x.endAt

/-- Step 11 of R220. -/
def stepEleven (x : Tx) : BitVec 64 := txEnd x + BitVec.ofNat 64 (1000 * x.paLag + 2000)

/-- Two transmissions' airtimes overlap. -/
def airOverlaps (x y : Tx) : Bool := !notBefore x.t0 (txEnd y) && !notBefore y.t0 (txEnd x)

/-- The booked transmissions of plain p. -/
def booked (s : State) (p : Nat) : List Tx := s.radio.txs.filter (fun x => x.plain = p)

/-- The transmission with an id. -/
def txAt (s : State) (id : Nat) : Option Tx := s.radio.txs.find? (fun x => x.id = id)

/-- A transmission replaced. -/
def setTx (x : Tx) (s : State) : State :=
  { s with radio := { s.radio with txs := s.radio.txs.map (fun y => if y.id = x.id then x else y) } }

/-- A transmission removed. -/
def dropTx (id : Nat) (s : State) : State :=
  noteActivity { s with radio := { s.radio with txs := s.radio.txs.filter (fun y => y.id != id) } }

/-! ### Tuning (R199-R201, R204) -/

/-- A carrier of a bandwidth fits a tuning (R199). -/
def tuningFits (f fc : Word) (bw : Nat) : Bool := 2 * ((fc.toNat : Int) - f.toNat).natAbs + 62500 * 2 ^ bw ≤ 10000000

/-- Every port's RCK setting of an entry is 0xF or has a stored band (R199, R204). -/
def entryBand (s : State) (p e : Nat) : Bool :=
  (portsOf s p).all (fun n => (calEntry s n e).rck = 15 || bit (rck s p).bands (calEntry s n e).rck)

/-- The entries that a transmission fits but for their RCK band, rising (R199). -/
def fittingEntries (s : State) (x : Tx) : List Nat :=
  (List.range 512).filter (fun e => entryOnAll s x.plain e (fun v => v.txOk) && tuningFits (entryFreq s x.plain e) x.carrier x.bw)

/-- A port of the plain retunes to the receive entry at RETURN, with TUNE_SHARED as the transmission was selected
(R194, R200, R201, R226). -/
def returnsHome (s : State) (p : Nat) (shared : Bool) : Bool :=
  shared || (portsOf s p).any (fun n => (portCfg s n).returnState != 0 || (portRun s n).goHome)

/-- f_T as it will stand at an instant, given the transmissions booked and their returns (R199; DEDUCED, log 43). -/
def tuningAt (s : State) (p : Nat) (t : BitVec 64) : Option Nat :=
  let step (cur : Option Nat) (x : Tx) : Option Nat :=
    if notBefore t (before x.t0 100000) then
      (if notBefore (stepEleven x) t || !returnsHome s p x.tuneShared then x.entry else (plainCfg s p).rxEntry)
    else cur
  (booked s p).foldl step (txRun s p).fT

/-- A transmission of the plain stands in PREP or TX at an instant. -/
def busyAt (s : State) (p : Nat) (t : BitVec 64) : Bool :=
  (booked s p).any (fun x => notBefore t (before x.t0 100000) && notBefore (stepEleven x) t)

/-- The tuning of a transmission fits as it stands. -/
def staysTuned (s : State) (x : Tx) : Bool :=
  match tuningAt s x.plain (before x.t0 100000) with
  | some e => tuningFits (entryFreq s x.plain e) x.carrier x.bw
  | none => false

/-- The entry chosen for a transmission, or the status that stands against it (R199). -/
def chooseEntry (s : State) (x : Tx) : Status ⊕ Option Nat :=
  let t := before x.t0 100000
  if staysTuned s x then .inr (tuningAt s x.plain t)
  else match (fittingEntries s x).find? (entryBand s x.plain) with
    | none => .inl .invalidParameter
    | some e => if busyAt s x.plain t then .inl .deferredCapacity else .inr (some e)

/-- Entries that the choice passes over for want of an RCK band (R204). -/
def passedOver (s : State) (x : Tx) : List Nat :=
  if staysTuned s x then [] else (fittingEntries s x).takeWhile (fun e => !entryBand s x.plain e)

/-- The events of the entries that a selection passes over (R204). -/
def postPassed (x : Tx) (s : State) : State := (passedOver s x).foldl (fun t e => postEvent 0x0405 x.plain (w32 e) t) s

/-! ### Judgement (R285) -/

/-- Refused rather than deferred: acknowledgements and beacons (R279, R290). -/
def refusable (x : Tx) : Bool := x.kind = 1 || x.kind = 2 || x.kind = 3

/-- Shaping keys of a transmission: its tenant, its service, and port 16p plus its lowest sub-band (R280). -/
def txPort (x : Tx) : Nat := 16 * x.plain + x.bands.headD 0
def txKeys (x : Tx) : List Nat := shapeKeys x.tenant x.service (txPort x)

/-- The node of a unicast frame has a transmission with overlapping airtime (R266). -/
def nodeBusy (s : State) (x : Tx) : Bool :=
  x.dst != everyNode && s.radio.txs.any (fun y => y.net = x.net && y.dst = x.dst && airOverlaps x y)

/-- The transmissions of a list on air at an instant. -/
def airAt (l : List Tx) (t : BitVec 64) : Nat := (l.filter (fun y => notBefore t y.t0 && !notBefore t (txEnd y))).length

/-- The plain's limit of simultaneous transmissions is reached at some instant of a transmission: at its start, or at the
start of another during it (R213). -/
def simFull (s : State) (x : Tx) : Bool :=
  let l := (booked s x.plain).filter (airOverlaps x)
  (x.t0 :: (l.map (·.t0)).filter (fun t => notBefore t x.t0)).any (fun t => (txCfg s x.plain).maxSim ≤ airAt l t)

/-- The sub-bands of a transmission that its airtime does not fit. -/
def fullBands (s : State) (x : Tx) : List Nat := x.bands.filter (fun j => !bandFits s (16 * x.plain + j) x.tAir)

/-- Shaping stands against a transmission that is shaped: its class no longer covers it, or it has none (R282, R283). -/
def shaperAgainst (s : State) (x : Tx) : Option Status :=
  let n : Int := (1000 * x.tAir : Nat)
  if x.rank = 3 then none
  else if x.cls = 1 then (if (txKeys x).all (fun k => n ≤ (tokens s k).c) then none else some .deferredShaper)
  else if x.cls = 2 then (if (txKeys x).all (fun k => n ≤ (tokens s k).e) then none else some .deferredShaper)
  else if neverFits s (txKeys x) x.tAir then some .refusedShaper else some .deferredShaper

/-- The first check that a candidate fails against the transmissions booked, in the deferral's form (R285). -/
def judge (s : State) (x : Tx) : Option Status :=
  if nodeBusy s x then some .deferredCapacity
  else match chooseEntry s x with
    | .inl st => some st
    | .inr _ =>
      if simFull s x then some .deferredCapacity
      else if x.kind != 1 && protectedIn s x.plain x.t0 (airEnd x) then some .deferredCapacity
      else if x.bands.isEmpty then some .refusedDuty
      else if !(fullBands s x).isEmpty then some .deferredDuty
      else shaperAgainst s x

/-- The refusal that stands for a deferral where R279 and R290 ask for one. -/
def refusalOf : Status → Status
  | .deferredDuty => .refusedDuty
  | .deferredShaper => .refusedShaper
  | .deferredPrecedence => .refusedPrecedence
  | .deferredRendezvous => .refusedCapacity
  | .deferredCapacity => .refusedCapacity
  | .deferredCoexPending => .refusedCoex
  | st => st

/-- A deferral (R36). -/
def isDeferral : Status → Bool
  | .deferredDuty => true
  | .deferredShaper => true
  | .deferredPrecedence => true
  | .deferredRendezvous => true
  | .deferredCapacity => true
  | .deferredCoexPending => true
  | _ => false

/-! ### Records (R291, R292) -/

/-- The eight words of a transmit record (R291). -/
def txWords (s : State) (x : Tx) (st : Status) (event : Nat) : List Word :=
  [s.radio.seq,
   w32 (x.plain + 4 * (x.beam % 64) + 256 * (x.bw % 4) + 1024 * (x.sf % 16) + 16384 * x.kind
     + 262144 * (x.tenant % 256) + 67108864 * (x.service % 8) + 536870912 * event),
   w32 ((statusCode st).toNat + 65536 * x.bands.headD 0 + 1048576 * x.rank), x.dst, w32 x.tAir]
  ++ loHi x.t0 ++ [x.carrier]

/-- A transmit record posted to the plain's queue (R292). -/
def postTx (x : Tx) (st : Status) (event : Nat) (s : State) : State :=
  let ws := txWords s x st event
  pushPacket (txCfg s x.plain).recQ ws
    (cover 1 ws { s with radio := { s.radio with seq := s.radio.seq + 1 } })

/-- The record of a final event. -/
def finalRecord (x : Tx) (st : Status) (event : Nat) (s : State) : State :=
  if (txCfg s x.plain).records then postTx x st event s else s

/-! ### Shortfalls (R288) -/

/-- Airtime of a downlink lost to a rank, once per rank; another tenant's rank 4 only (R288). -/
def shortfall (x : Tx) (rank : Nat) (causer : Option Nat) (s : State) : State :=
  let s1 := if x.rank = 4 && 1 ≤ rank && rank ≤ 3 then raise .precedenceLoss s else s
  match x.dl with
  | none => s1
  | some d =>
    if rank = 0 || 4 < rank || bit d.short (rank - 1) || (rank = 4 && causer = some x.tenant) then s1
    else addShortfall x.tenant rank x.tAir s1

/-- The waiting item with the rank noted. -/
def noteRank (rank : Nat) (d : Downlink) : Downlink :=
  if rank = 0 || 4 < rank then d else { d with short := setBit d.short (rank - 1) true }

/-! ### Outcomes -/

/-- The schedule counter of a deferral or refusal (R293). -/
def outcomeCounter : Status → Option Nat
  | .refusedDuty => some 1
  | .deferredDuty => some 2
  | .refusedShaper => some 3
  | .deferredShaper => some 4
  | .refusedPrecedence => some 5
  | .deferredPrecedence => some 6
  | .refusedCapacity => some 7
  | .deferredCapacity => some 8
  | _ => none

/-- The outcome of a passed candidate returned to its home (R268). -/
def tellHome (x : Tx) (admitted : Bool) (st : Status) (s : State) : State :=
  match x.home with
  | some h =>
    let o : OutcomeIn := { net := Fin.ofNat 16 x.net, dst := x.dst, t0 := x.t0, admitted := admitted, status := statusCode st }
    originate (.outcome h o) s
  | none => s

/-- The image with an id. -/
def imageAt (s : State) (id : Nat) : Option Image := s.link.images.find? (fun i => i.id = id)

/-- An image replaced. -/
def setImage (i : Image) (s : State) : State :=
  { s with link := { s.link with images := s.link.images.map (fun x => if x.id = i.id then i else x) } }

/-- The block number that an image-block item carries. -/
def blockOf (d : Downlink) : Nat := leNat (d.payload.take 2)

/-- A deferred item waits again, with its status and its first deferral noted (R287, R292). -/
def waitAgain (d : Downlink) (st : Status) (s : State) : State :=
  if d.kind = 5 then
    match imageAt s d.queue with
    | some i => setImage { i with todo := blockOf d :: i.todo } s
    | none => s
  else
    let e := { d with status := some st, deferred := true, flying := false }
    if s.sched.wait.any (fun y => y.seq = d.seq) then modWaiting d.seq (fun _ => e) s else putWaiting e s

/-- The item that stands for a candidate, out of the waiting ones. -/
def takeItem (x : Tx) (s : State) : State :=
  match x.dl with
  | some d =>
    if d.kind = 5 then
      match imageAt s d.queue with
      | some i => setImage { i with todo := i.todo.filter (· != blockOf d) } s
      | none => s
    else dropWaiting d.seq s
  | none => s

/-- A deferral's record at the first deferral of a downlink (R292). -/
def deferralRecord (x : Tx) (st : Status) (s : State) : State :=
  let first := match x.dl with
    | some d => !d.deferred
    | none => false
  if first && (txCfg s x.plain).records && (txCfg s x.plain).deferrals then postTx x st 0 s else s

/-- The end of a candidate or transmission with a status: a deferral keeps its item waiting, anything else ends it with
its record (R219, R287, R292). -/
def outcome (x : Tx) (st : Status) (event rank : Nat) (s : State) : State :=
  let s1 := if event = 1 || event = 2 then s else match outcomeCounter st with
    | some i => countSched i x.plain s
    | none => s
  if isDeferral st then
    let s2 := deferralRecord x st s1
    let s3 := match x.dl with
      | some d => waitAgain (noteRank rank d) st (takeItem x s2)
      | none => s2
    tellHome x false st s3
  else tellHome x (st = .ok) st (finalRecord x st event (takeItem x s1))

/-- The ledger's refusal in its trouble bit and counters (R279, R293). -/
def dutyRefused (x : Tx) (s : State) : State :=
  (fullBands s x).foldl (fun t j => countRefusal (16 * x.plain + j) t) (raise (.ledgerExhausted (Fin.ofNat 4 x.plain)) s)

/-- A candidate that selection does not accept: status, counters, trouble bits, shortfall, outcome (R279, R283, R285,
R288). -/
def fail (x : Tx) (st : Status) (rank : Nat) (causer : Option Nat) (s : State) : State :=
  let st' := if refusable x then refusalOf st else st
  let s1 := if st = .deferredDuty || st = .refusedDuty then dutyRefused x s else s
  let s2 := if st' = .refusedShaper then raise .shaperRefusal s1 else s1
  let s3 := if st' = .deferredCapacity then countTx 7 x.plain 1 s2 else s2
  outcome x st' 3 rank (shortfall x rank causer s3)

/-! ### Admission -/

/-- Charges of an admitted transmission: the ledger, and its class or the port's committed bucket (R277, R282). -/
def chargeTx (x : Tx) (s : State) : Tx × State :=
  let s1 := cover 4 [w32 x.plain, maskOf 32 x.bands, w32 x.tAir] (charge x.plain x.bands x.t0 x.tAir s)
  if x.rank = 3 then
    let n := portTake s1 (txPort x) x.tAir
    ({ x with taken := n }, takePort (txPort x) n s1)
  else (x, addTokens (txKeys x) x.cls (-(1000 * x.tAir : Nat)) s1)

/-- The charges returned (R219). -/
def refund (x : Tx) (s : State) : State :=
  let s1 := returnCharge x.plain x.bands x.t0 x.tAir s
  if x.rank = 3 then addTokens [shapeKey 2 (txPort x)] 1 x.taken s1
  else addTokens (txKeys x) x.cls (1000 * x.tAir : Nat) s1

/-- Airtime of a downlink of n payload bytes to a node (R96, R230, R264). -/
def nodeAirtime (s : State) (r : NodeRec) (p n : Nat) : Nat :=
  let sf := bits r.radio 3 0
  let bw := bits r.radio 5 4
  let cr := bits r.radio 7 6
  airtime sf bw cr (deviceLen n) (txCfg s p).nPre (pilotFor sf bw cr (deviceLen n) (bit r.radio 14))

/-- The next downlink for a node announced at the selection of a frame to it: PENDING of that frame, and the state with
the next downlink charged to its buckets (R267). -/
def announce (x : Tx) (s : State) : Bool × State :=
  match nodeOf s x.net x.dst, (waitingFor s x.net x.dst).filter (fun d => !d.flying) with
  | some r, d :: _ =>
    if d.announced then (true, s)
    else
      let a := nodeAirtime s r x.plain d.payload.length
      let ks := shapeKeys d.tenant d.service (txPort x)
      match shapeClass s ks a with
      | some cls =>
        (true, modWaiting d.seq (fun e => { e with announced := true }) (addTokens ks cls (-(1000 * a : Nat)) s))
      | none => (false, s)
  | _, _ => (false, s)

/-- A candidate admitted: charged, booked, its item taken from the waiting ones, PENDING settled (R285, R267). -/
def takeOn (x : Tx) (s : State) : State :=
  let e := match chooseEntry s x with
    | .inr e => e
    | .inl _ => none
  let c := chargeTx { x with id := s.radio.nextId, entry := e } (takeItem x s)
  let a := if x.dst = everyNode || x.home.isSome || x.kind = 6 then (x.pending, c.2) else announce c.1 c.2
  let y : Tx := { c.1 with pending := a.1, state := .selected }
  let s1 := countSched 0 x.plain a.2
  { s1 with radio := { s1.radio with txs := s1.radio.txs ++ [y], nextId := s1.radio.nextId + 1 } }

/-- A candidate's rank and class at the start of a selection (R282, R284): acknowledgements, beacons and announced
downlinks rank 3, committed downlinks 4, others 5. -/
def classify (s : State) (announced : Bool) (x : Tx) : Tx :=
  let y : Tx := { x with bands := bandsOf s x.plain x.carrier x.bw }
  if refusable y || announced then { y with rank := 3, cls := 0 }
  else match shapeClass s (txKeys y) y.tAir with
    | some 1 => { y with rank := 4, cls := 1 }
    | some _ => { y with rank := 5, cls := 2 }
    | none => { y with rank := 5, cls := 0 }

/-- A transmission with the plain's defaults and lead times (R211, R226), PILOT and T_air settled (R95, R96). -/
def fillTx (s : State) (pilot : Bool) (x : Tx) : Tx :=
  let v := txCfg s x.plain
  let pl := pilotFor x.sf x.bw x.cr x.len pilot
  { x with nPre := v.nPre, ramp := v.rampLen, pilot := pl, tAir := airtime x.sf x.bw x.cr x.len v.nPre pl,
           paLead := v.paLead, paLag := v.paLag, coxLead := v.coxLead, coexMode := v.coexMode, coxPolicy := v.coxPolicy,
           blankMap := v.blankMap, tuneShared := v.tuneShared, maxSim := v.maxSim }

/-- The chirps of a transmission's frame (R73-R96). -/
def chirpsOf (s : State) (x : Tx) (frame : List Byte) : List Chirp :=
  frameChirps frame (netCfg s x.net).sync x.sf x.bw x.cr x.nPre x.pilot

/-! ### Items that end without a cell -/

/-- The cell word that stands for an item in its record when no cell was its end: a node's first cell, or the first broadcast
cell of the network (log 49). -/
def placeOf (s : State) (d : Downlink) : Word :=
  if d.kind = 0 then
    match nodeOf s d.net d.addr with
    | some r => ((nodeCells r).head?.map (·.2)).getD 0#32
    | none => 0#32
  else ((s.cfg.sched.cells.find? (fun e => cellKind e.2.1 = 3 && bits e.2.2 3 0 = d.net)).map (fun e => e.2.1)).getD 0#32

/-- The transmission that an item's record names when the item ends while waiting (log 49). -/
def waitingTx (s : State) (d : Downlink) : Tx :=
  let p := cellPlain (placeOf s d)
  let r : NodeRec := (nodeOf s d.net d.addr).getD {}
  let x : Tx := { plain := p, sf := bits r.radio 3 0, bw := bits r.radio 5 4, cr := bits r.radio 7 6, beam := bits r.radio 13 8,
                  kind := d.kind, net := d.net, dst := d.addr, tenant := d.tenant, service := d.service, dl := some d,
                  t0 := now s, tAir := if d.kind = 0 then nodeAirtime s r p d.payload.length else 0 }
  x

/-- An item that does not join the waiting ones: refused with its record, and counted where it has a counter (R243, R266,
R292, R293). -/
def refuseItem (st : Status) (d : Downlink) (s : State) : State :=
  finalRecord (waitingTx s d) st 3 (match outcomeCounter st with
    | some i => countSched i (cellPlain (placeOf s d)) s
    | none => s)

end Sys2Proof.Machine
end

