-- ==== Sys2Proof/Machine/Resolve.lean ====
section
/-! DEFINITION. Where a packet goes: the forwarding search (R307), local tenants (R308), herd crossings (R309, R391), waiting
downlinks (R244, R266), the flood fallback (R310, R311), and foreign-home packets (R392). -/

namespace Sys2Proof.Machine

/-! ### Ends without a destination -/

/-- No route: counted, with its trouble bit (R307). -/
def noRoute (s : State) : State := raise .noRoute (countFwd 1 s)

/-- A packet on its way out of the device, in the slot digest of a tandem (R403). -/
def coverPacket (l : List Byte) (s : State) : State := cover 3 [crc32c l] s

/-! ### Waiting frames -/

/-- An item joins those that wait to be transmitted (R16). -/
def waitItem (d : Downlink) (s : State) : State :=
  let e : Downlink := { d with seq := s.sched.nextSeq, enq := now s }
  { s with sched := { s.sched with wait := s.sched.wait ++ [e], nextSeq := s.sched.nextSeq + 1 } }

/-- A downlink's payload that does not fit is dropped and counted (R244). -/
def dropOversize (s : State) : State := { s with fwd := { s.fwd with oversize := s.fwd.oversize + 1 } }

/-- A downlink that holds a packet compressed for its destination (R244; compressed when it joins the queue, log 44). -/
def downlinkOf (s : State) (net : Nat) (addr : Word) (tenant service kind : Nat) (l : List Byte) : Downlink :=
  { net := net, addr := addr, tenant := tenant, service := service, packet := l,
    payload := compress s tenant addr l, kind := kind }

/-- A packet joins the waiting downlinks of a node with a record: refused without a valid rendezvous cell or beyond 16
(R266). The spec numbers no pannier queue for these downlinks: the model keeps them all in one list under queue number 0,
told apart by tenant and service, with no cap in bytes of their own (DESIGN CHOICE, log 115). -/
def enqueueNode (r : NodeRec) (tenant service : Nat) (l : List Byte) (s : State) : State :=
  let d := downlinkOf s r.net r.addr tenant service 0 l
  if (nodeCells r).isEmpty then refuseItem .refusedNoRoute d s
  else if 16 ≤ (waitingFor s r.net r.addr).length then refuseItem .refusedCapacity d s
  else if 230 < d.payload.length then dropOversize s
  else waitItem d s

/-- A packet for every node of a network waits for a broadcast cell, under the network's default tenant and service 7
(R263, R280). -/
def enqueueBroadcast (net : Nat) (l : List Byte) (s : State) : State :=
  let d := downlinkOf s net everyNode (netCfg s net).tenant 7 4 l
  if 230 < d.payload.length then dropOversize s else waitItem d s

/-! ### Flood fallback (R310, R311) -/

/-- A flood-fallback copy waits on this member (R311). -/
def waitFlood (net : Nat) (addr : Word) (tenant service : Nat) (frame : List Byte) (s : State) : State :=
  waitItem { net := net, addr := addr, tenant := tenant, service := service, payload := frame, kind := 6 } s

/-- A copy for one member of the flood set: its own waits here, another's leaves over the herd while that member is
reachable. -/
def floodTo (net : Nat) (addr : Word) (tenant service : Nat) (frame : List Byte) (h : Nat) (s : State) : State :=
  if h = ownHid s then waitFlood net addr tenant service frame s
  else if reachable s h then
    let f : FloodIn := { net := Fin.ofNat 16 net, addr := addr, tenant := BitVec.ofNat 8 tenant, service := Fin.ofNat 8 service, frame := frame }
    originate (.flood h f) s
  else s

/-- The flood member set of a network (R310). -/
def floodSet (s : State) (net : Nat) : BitVec 64 := tabGet s.cfg.fwd.flood net 0#64

/-- A downlink for a node without a record but with an unrecorded window, built once and copied to the flood set (R310). -/
def floodDownlink (net : Nat) (addr : Word) (w : Window) (tenant service : Nat) (l : List Byte) (s : State) : State :=
  let payload := compress s tenant addr l
  if 230 < payload.length then dropOversize s
  else
    let ask : FrameAsk := { typ := 3, flood := true, dst := addr, payload := payload }
    match buildBroadcast net ask (sendEpoch s net (some w)) s with
    | (.inl st, s1) => refuseItem st { downlinkOf s net addr tenant service 6 l with payload := payload } s1
    | (.inr frame, s1) =>
      (maskList (floodSet s1 net)).foldl (fun t h => floodTo net addr tenant service frame h t)
        (raise .floodFallback (countFwd 4 s1))

/-! ### Crossing the herd (R308, R309, R391) -/

/-- A packet sent over the herd: dropped as no route to this device itself, to a member that cannot be reached, or on a
third crossing, which is counted as such too. -/
def crossHerd (dst : Nat) (p : PacketIn) (s : State) : State :=
  if 2 ≤ p.crossings then noRoute (countFwd 5 s)
  else if dst = ownHid s || !reachable s dst then noRoute s
  else
    let q : PacketIn := { p with src := ⟨s.dev.hid.toNat, s.dev.hid.isLt⟩, crossings := p.crossings + 1 }
    originate (.packet dst q) (coverPacket p.bytes s)

/-- A packet for a node, resolved by R308: over the herd to its home, to the waiting downlinks, to the flood fallback, or
unknown. -/
def toNode (p : PacketIn) (s : State) : State :=
  let net := p.net.val
  let tenant := p.tenant.toNat
  let h := homeOf s net p.addr
  if h != ownHid s then
    if p.crossings < 2 && reachable s h then crossHerd h { p with home := true } (countFwd 6 s) else crossHerd h p s
  else if p.addr = everyNode then enqueueBroadcast net p.bytes s
  else match nodeOf s net p.addr, unrecOf s net p.addr with
    | some r, _ => if r.tenant = tenant then enqueueNode r tenant p.service.val p.bytes s else countFwd 2 s
    | none, some w => floodDownlink net p.addr w tenant p.service.val p.bytes s
    | none, none => countFwd 2 s

/-! ### The search (R307) -/

/-- A packet that holds an IPv6 header (R307). -/
def ipv6 (l : List Byte) : Bool := 40 ≤ l.length && byteAt l 0 / 16 = 6

/-- IPv6 destination. -/
def ipv6Dst (l : List Byte) : BitVec 128 := BitVec.ofNat 128 (beNat (slice l 24 16))

/-- The service of a packet: the entry's, or traffic class [7:5] for a tenant with DSCP_SERVICE (R308). -/
def serviceOf (s : State) (tenant : Nat) (e : PrefixEntry) (l : List Byte) : Nat :=
  if tabGet s.cfg.fwd.dscp tenant false then byteAt l 0 % 16 / 2 else e.service

/-- The node that a destination's interface identifier names (R308). -/
def identified (l : List Byte) : Option Word :=
  let a : Word := w32 (beNat (slice l 36 4))
  if slice l 32 4 = [0x02#8, 0x00#8, 0x00#8, 0x00#8] && (a = everyNode || (a != 0#32 && a ≤ 0xFFFFFEFF#32)) then some a else none

/-- A packet into the egress queue of a backhaul port, behind a word that names its tenant and marks a foreign-home packet
(R325; the queue's inner layout is the model's, log 45). -/
def toBackhaul (port tenant : Nat) (foreign : Bool) (l : List Byte) (s : State) : State :=
  pushBytes (64 + port) (leBytes 8 (tenant + 256 * flag foreign) ++ l) (coverPacket l s)

/-- The host queue of a tenant, 0 for none (R307). -/
def hostQueue (s : State) (tenant : Nat) : Nat := tabGet s.cfg.fwd.hostQ tenant 0

/-- The result of a search carried out; `port` says what becomes of a packet for a backhaul port. -/
def carryOut (e : PrefixEntry) (p : PacketIn) (port : Nat → State → State) (s : State) : State :=
  let tenant := p.tenant.toNat
  if e.result = 0 then countFwd 0 s
  else if e.result = 1 then
    match identified p.bytes with
    | some a => toNode { p with net := Fin.ofNat 16 e.arg, addr := a, service := Fin.ofNat 8 (serviceOf s tenant e p.bytes) } s
    | none => countFwd 2 s
  else if e.result = 2 then crossHerd e.arg { p with home := false } s
  else if e.result = 3 then port e.arg s
  else if hostQueue s tenant = 0 then noRoute s
  else pushBytes (hostQueue s tenant) p.bytes (coverPacket p.bytes s)

/-- A packet searched with its tenant (R307). -/
def searchPacket (p : PacketIn) (port : Nat → State → State) (s : State) : State :=
  if !ipv6 p.bytes then countFwd 8 s
  else match prefixSearch s false p.tenant.toNat (ipv6Dst p.bytes) with
    | some e => carryOut e p port s
    | none => noRoute s

/-- A packet resolved (R307). -/
def resolvePacket (p : PacketIn) (s : State) : State :=
  searchPacket p (fun n t => toBackhaul n p.tenant.toNat false p.bytes t) s

/-- A packet that starts at this device, of a tenant. -/
def packetOf (tenant : Nat) (l : List Byte) : PacketIn :=
  { src := 0, net := 0, addr := 0#32, tenant := BitVec.ofNat 8 tenant, service := 0, crossings := 0, home := false, bytes := l }

/-! ### Foreign-home packets (R392) -/

/-- Bytes that a herd egress queue holds: what is on die, since no command gives it a spill cap (R43, R45; log 46). -/
def herdQueueBytes : Nat := 1024

/-- The packets waiting towards a peer (R392). -/
def waitingTo (s : State) (h : Nat) : List PacketIn := tabGet s.herd.egress h []

/-- The bytes of packets in whole queue words. -/
def wordsHeld (l : List PacketIn) : Nat := (l.map (fun p => 8 * ((p.bytes.length + 7) / 8))).sum

/-- A packet waits in the herd egress queue towards its home, within its cap (R392, R45). -/
def waitForPeer (h : Nat) (p : PacketIn) (s : State) : State :=
  if herdQueueBytes < wordsHeld (waitingTo s h ++ [p]) then raise .queueOverflow s
  else { s with herd := { s.herd with egress := tabSet s.herd.egress h (waitingTo s h ++ [p]) } }

/-- Tandem counter i raised (R418, R149). -/
def countTan (i : Nat) (s : State) : State :=
  { s with tan := { s.tan with counters := listMod s.tan.counters i (fun k => saturate 32 (k + 1)) } }

/-- Some backhaul link is up. -/
def backhaulUp (s : State) : Bool := (List.range 2).any (fun p => (tabGet s.bh p {}).up)

/-- A foreign-home packet: by its own backhaul with FOREIGN_VID, or waiting towards its home (R392). -/
def foreignPacket (h tenant : Nat) (l : List Byte) (s : State) : State :=
  let p := packetOf tenant l
  let out (n : Nat) (t : State) : State :=
    if (bhCfg t n).foreignVid = 0 || !backhaulUp t then waitForPeer h p t else toBackhaul n tenant true l t
  searchPacket p out (countTan 8 s)

/-- Packets that waited towards a peer leave in queue order once it can be reached (R393), from a device that leaves the herd
too (R394). -/
def releaseTo (h : Nat) (s : State) : State :=
  if reachable s h then
    let herd : Herd := { s.herd with egress := tabDel s.herd.egress h, leaveMsgs := false }
    let t := (waitingTo s h).foldl (fun t p => crossHerd h p t) { s with herd := herd }
    { t with herd := { t.herd with leaveMsgs := s.herd.leaveMsgs } }
  else s

end Sys2Proof.Machine
end

