-- ==== Sys2Proof/Machine/LinkEngine.lean ====
section
/-! DEFINITION. The link engine (R233, R234): replay window, keys, learning (R305, R306), timing (R269, R270), the
acknowledgement decision (R247, R286), delivery, foreign-home frames (R392), and what the engine does by itself: seen-cache
ageing, the end of an epoch overlap, its restart, and image rounds (R239, R241, R250, R252). -/

namespace Sys2Proof.Machine

/-! ### What a frame finds -/

/-- The network of a sync value (R228). -/
def netOfSync (s : State) (v : Byte) : Option Nat :=
  (List.range 16).find? (fun n => (netCfg s n).configured && (netCfg s n).sync = v)

/-- A live frame: neither cut nor combined (R269). -/
def liveFrame (h : Heard) : Bool := h.layer = 0 && h.combined = 0

/-- The pair of a flood stands in the seen-cache and has not aged out (R239). -/
def seenBefore (s : State) (src ctr : Word) : Bool :=
  s.link.seen.any (fun e => e.src = src && e.ctr = ctr && !reached s (e.time + BitVec.ofNat 64 (1000000000 * s.cfg.link.seenAge)))

/-- The seen-cache after a lookup: a hit is used, a miss is inserted, the least recently used pair out of 65,536 (R239,
R16). -/
def seenLookup (src ctr : Word) (s : State) : State :=
  let s1 := useClock s
  let mine (e : Seen) : Bool := e.src = src && e.ctr = ctr
  let old := s1.link.seen
  let kept := if seenBefore s src ctr then old.map (fun e => if mine e then { e with used := s1.link.clock } else e)
    else
      let e : Seen := { src := src, ctr := ctr, time := now s, used := s1.link.clock }
      evict 65536 (fun x => x.used) (old.filter (fun x => !mine x)) ++ [e]
  { s1 with link := { s1.link with seen := kept } }

/-- The window against which a frame is checked: the record's, or the unrecorded one (R235, R238, R392). -/
def windowFor (s : State) (foreign : Bool) (n : Nat) (src : Word) : Option Window :=
  if foreign then unrecOf s n src
  else match nodeOf s n src with
    | some r => r.win
    | none => unrecOf s n src

/-- Step 8: the payload, or the outcome that ends the frame (R240, R242). -/
def openFrame (n : Nat) (f : LinkFields) (ep : BitVec 16) (s : State) : (Nat ⊕ List Byte) × State :=
  if !frameSec f then (.inr f.body, s)
  else match nodeKey n f.src ep s with
    | (none, s1) => (.inl 11, s1)
    | (some k, s1) =>
      match ccmOpen k (nonceOf s1 n f.src f.ctr ep) f.aad f.body with
      | some l => (.inr l, s1)
      | none => (.inl 12, s1)

/-! ### Step 9: window and learning -/

/-- A record inserted for a node: it takes over an unrecorded window (R301; DEDUCED, log 47); none when the table has no
place. -/
def insertNode (n : Nat) (addr : Word) (tenant : Nat) (host : Bool) (s : State) : Option Nat × State :=
  match freePosition s n addr with
  | some i =>
    let r : NodeRec := { addr := addr, net := n, tenant := tenant, hostIns := host, win := unrecOf s n addr }
    (some i, setNode i r (dropUnrec n addr s))
  | none => (none, insertFailed n addr s)

/-- The record of an accepted frame's node, inserted when it has none (R301); a foreign-home node gets none (R392). -/
def ensureNode (foreign : Bool) (n : Nat) (src : Word) (s : State) : State :=
  if foreign || (nodeEntry s n src).isSome then s else (insertNode n src (netCfg s n).tenant false s).2

/-- The window committed (R235, R238). -/
def commitWindow (foreign : Bool) (n : Nat) (f : LinkFields) (ep : BitVec 16) (s : State) : State :=
  match if foreign then none else nodeEntry s n f.src with
  | some (i, r) => setNode i { r with win := some (replayCommit r.win f.ctr ep) } s
  | none => putUnrec n f.src (replayCommit (unrecOf s n f.src) f.ctr ep) s

/-- The path fields of a frame (R305). -/
def withPath (h : Heard) (ctr : Word) (r : NodeRec) : NodeRec :=
  { r with pathHid := h.hid.val, pathPlain := h.plain.val, pathBeam := h.beam.val, pathSnr := h.snr, pathSf := 5 + h.sf.val,
           pathBw := h.bw.val, pathChan := h.chan.val, pathCtr := some ctr }

/-- An accepted frame in its node's record (R305, R302). -/
def learnAccepted (h : Heard) (f : LinkFields) (r : NodeRec) : NodeRec :=
  let a : NodeRec := { r with tHeard := h.tEnd, hopsLast := frameHops f, uplinks := saturate 32 (r.uplinks + 1),
                              log := ((f.ctr, h.tEnd) :: r.log).take 4 }
  if frameHops f = 0 then { withPath h f.ctr a with tPath := h.tEnd, pathValid := true } else a

/-- A duplicate that is the better copy of the frame that set the path (R306). -/
def betterCopy (h : Heard) (f : LinkFields) (r : NodeRec) : Bool :=
  frameHops f = 0 && r.pathCtr = some f.ctr && r.pathSnr.toInt < h.snr.toInt && (h.tEnd - r.tPath).toInt.natAbs ≤ 50000000

/-- A better copy takes the path (R306). -/
def learnDuplicate (h : Heard) (n : Nat) (f : LinkFields) (s : State) : State :=
  match nodeEntry s n f.src with
  | some (i, r) => if betterCopy h f r then countFwd 7 (setNode i (withPath h f.ctr r) s) else s
  | none => s

/-- A timing uplink in its node's record (R269, R270). -/
def learnTiming (h : Heard) (n : Nat) (f : LinkFields) (s : State) : State :=
  if liveFrame h && frameHops f = 0 then
    match nodeEntry s n f.src with
    | some (i, r) =>
      let s1 := setNode i (takeTiming s h.tStart (5 + h.sf.val) h.bw.val h.beam.val r) s
      if driftRejected s h.tStart r then { s1 with fwd := { s1.fwd with driftDrop := s1.fwd.driftDrop + 1 } } else s1
    | none => s
  else s

/-! ### Acknowledgements (R245-R247, R286) -/

/-- A duplicate is a retransmission: it starts after the accepted copy's end (R247). -/
def retransmission (h : Heard) (f : LinkFields) (r : Option NodeRec) : Bool :=
  frameAckReq f && frameHops f = 0 && match r with
    | some x => x.log.any (fun e => e.1 = f.ctr && !notBefore e.2 h.tStart)
    | none => false

/-- Payload of an acknowledgement (R245). -/
def ackPayload (l : List Word) : List Byte := BitVec.ofNat 8 l.length :: l.flatMap wordBytes

/-- COX_REQ rises at booking when booking falls after t0 - COX_LEAD (R286). -/
def requestAtBooking (x : Tx) (s : State) : State :=
  if (txCfg s x.plain).coexMode = 1 && reached s (before x.t0 (1000 * x.coxLead)) then
    setTxRun s x.plain { txRun s x.plain with coxReq := true }
  else s

/-- A booked transmission that will not start: charges back and its record (R219, R285). -/
def refuseBooked (x : Tx) (st : Status) (s : State) : State := outcome x st 3 1 (refund x (dropTx x.id s))

/-- The transmission of an immediate acknowledgement (R245). -/
def ackTx (s : State) (h : Heard) (n : Nat) (dst ctr : Word) (tenant : Nat) : Tx :=
  let x : Tx := { plain := h.plain.val, beam := h.beam.val, bw := h.bw.val, sf := 5 + h.sf.val, cr := h.cr.val, len := deviceLen 5,
                  kind := 1, net := n, dst := dst, tenant := tenant, ackOf := [ctr],
                  t0 := h.tEnd + BitVec.ofNat 64 (1000000 * (netCfg s n).ackGap), tcorr := uplinkError s h.tStart,
                  carrier := carrierOf s h.plain.val h.bw.val h.chan.val 0#32 }
  classify s false (fillTx s (txCfg s h.plain.val).pilot x)

/-- What an acknowledgement carries. -/
def ackAsk (x : Tx) : FrameAsk := { typ := 1, pending := x.pending, dst := x.dst, tcorr := x.tcorr, payload := ackPayload x.ackOf }

/-- What the acknowledgement decision gives: booked, ACK_STATUS, and whether the counter waits as a late one. -/
structure AckResult where
  booked : Bool := false
  status : Nat := 0
  late : Bool := false
  state : State

/-- The status of a refusal as ACK_STATUS. -/
def ackRefused (st : Status) (late : Bool) (s : State) : AckResult :=
  { status := (statusCode st).toNat, late := late, state := s }

/-- An admitted acknowledgement built; too late for PREP it is refused and becomes a late one (R286). -/
def buildAck (y : Tx) (s : State) : AckResult :=
  if past s (before y.t0 100000) then ackRefused .refusedCapacity true (refuseBooked y .refusedCapacity s)
  else match buildUnicast y.net (ackAsk y) s with
    | (.inl st, s1) => ackRefused st false (refuseBooked y st s1)
    | (.inr frame, s1) =>
      { booked := true, state := requestAtBooking y (countLink 14 y.net
        (setTx { y with frame := frame, symbols := chirpsOf s y frame, state := .built } s1)) }

/-- An immediate acknowledgement selected at its booking (R286). -/
def bookAck (x : Tx) (s0 : State) : AckResult :=
  let s := postPassed x s0
  if (nodeOf s x.net x.dst).isNone then ackRefused .refusedNodeUnknown false (outcome x .refusedNodeUnknown 3 1 s)
  else match judge s x with
    | some st => ackRefused (refusalOf st) false (fail x st 1 none s)
    | none =>
      let s1 := takeOn x s
      match txAt s1 s.radio.nextId with
      | some y => buildAck y s1
      | none => { state := s1 }

/-- An immediate acknowledgement built by the home and returned to the device that received the frame (R247); the home takes
its time correction as applied (DEDUCED, log 48). -/
def returnAck (h : Heard) (n : Nat) (f : LinkFields) (r : NodeRec) (s : State) : State :=
  let x := ackTx s h n f.src f.ctr r.tenant
  let a := announce x s
  match buildUnicast n (ackAsk { x with pending := a.1 }) a.2 with
  | (.inl _, s1) => s1
  | (.inr frame, s1) =>
    let m : AckIn := { plain := h.plain, beam := h.beam, bw := h.bw, sf := h.sf, cr := h.cr, net := Fin.ofNat 16 n, dst := f.src,
                       t0 := x.t0, chan := h.chan, frame := frame }
    originate (.homeAck h.hid.val m) (modNode n f.src (frameStarts x.t0 x.tcorr) s1)

/-- The acknowledgement decision for a frame that asks for one and may have it (R247): at once for a live frame with hop count
0 decided in time, else late. -/
def decideAck (h : Heard) (n : Nat) (f : LinkFields) (remote late : Bool) (s : State) : AckResult :=
  if liveFrame h && frameHops f = 0 && !late then
    if remote then
      { state := match nodeOf s n f.src with
          | some r => returnAck h n f r s
          | none => s }
    else
      let a := bookAck (ackTx s h n f.src f.ctr (match nodeOf s n f.src with
        | some r => r.tenant
        | none => (netCfg s n).tenant)) s
      if a.late then { a with state := addLate n f.src f.ctr a.state } else a
  else { late := true, state := addLate n f.src f.ctr s }

/-! ### Delivery (R232, R248-R250) -/

/-- Blocks of an image (R248). -/
def imageBlocks (i : Image) : Nat := (i.len + 191) / 192

/-- An image transport error: counted, with its trouble bit (R250, R254). -/
def imageError (s : State) : State := raise .imageErr { s with link := { s.link with imageErr := s.link.imageErr + 1 } }

/-- The blocks that a missing-block report names (R250). -/
def reportBlocks (l : List Byte) : List Nat :=
  ((List.range 256).filter (fun k => (l.getD (4 + k / 8) 0#8).getLsbD (k % 8))).map (fun k => leNat (slice l 2 2) + k)

/-- A missing-block report (R250): collected after a round, each block once, ascending. -/
def takeMissing (n : Nat) (l : List Byte) (s : State) : State :=
  match imageAt s (leNat (l.take 2)) with
  | none => imageError s
  | some i =>
    if i.net != n || l.length != 36 || (reportBlocks l).any (fun b => imageBlocks i ≤ b) then imageError s
    else if i.state = 2 then
      let more := (List.range (imageBlocks i)).filter (fun b => i.missing.contains b || (reportBlocks l).contains b)
      setImage { i with reports := i.reports + 1, missing := more } s
    else s

/-- The counters that an acknowledgement names (R245). -/
def ackedCounters (l : List Byte) : List Word := (List.range (byteAt l 0)).map (fun k => wordAt l (1 + 4 * k))

/-- A node's acknowledgement completes the downlinks whose counters it names (R232). A downlink that has gone out whole is
complete already; one that ended early completes here and counts as such (R302; DEDUCED, log 34). -/
def completeDownlinks (n : Nat) (src : Word) (l : List Byte) (s : State) : State :=
  modNode n src (fun r =>
    let named := r.unsure.filter (ackedCounters l).contains
    { r with unsure := r.unsure.filter (fun c => !named.contains c), downlinks := saturate 32 (r.downlinks + named.length) }) s

/-- An accepted frame's payload delivered (R232, R233 step 9). `home` names the home of a foreign-home frame. -/
def deliver (n : Nat) (f : LinkFields) (home : Option Nat) (tenant : Nat) (payload : List Byte) (s : State) : State :=
  if frameType f = 0 || frameType f = 3 then
    match home with
    | some h => foreignPacket h tenant payload s
    | none => resolvePacket (packetOf tenant payload) s
  else if frameType f = 4 && !payload.isEmpty then pushBytes (netCfg s n).cmdQ payload s
  else if frameType f = 6 then takeMissing n payload s
  else if frameType f = 1 && home.isNone then completeDownlinks n f.src payload s
  else s

/-! ### The steps of R233 -/

/-- What the engine answers for a frame. -/
structure LinkResult where
  outcome : Nat
  booked : Bool := false
  ack : Nat := 0
  late : Bool := false
  state : State

/-- A frame that ends with an outcome, counted for its network (R253). -/
def linkEnds (n outcome : Nat) (s : State) : LinkResult := { outcome := outcome, state := countLink outcome n s }

/-- REPLAY or STALE_EPOCH (R236). -/
def linkReplay (n outcome : Nat) (s : State) : LinkResult := linkEnds n outcome (raise .replay s)

/-- A frame that gets an acknowledgement decision, with what follows it. -/
def withAck (outcome : Nat) (a : AckResult) (f : State → State) : LinkResult :=
  { outcome := outcome, booked := a.booked, ack := a.status, late := a.late, state := f a.state }

/-- A duplicate (R236, R247, R269, R306): learned from, and acknowledged again when it is a retransmission. -/
def linkDuplicate (h : Heard) (n : Nat) (f : LinkFields) (remote foreign late : Bool) (s : State) : LinkResult :=
  let r := if foreign then none else nodeOf s n f.src
  let s1 := if foreign then s else learnTiming h n f (learnDuplicate h n f s)
  if retransmission h f r then withAck 10 (decideAck h n f remote late s1) (countLink 10 n)
  else linkEnds n 10 s1

/-- Step 9 (R233): window, learning, decompression, acknowledgement, delivery. -/
def linkAccept (h : Heard) (n : Nat) (f : LinkFields) (remote late : Bool) (home : Option Nat) (ep : BitVec 16)
    (payload : List Byte) (s : State) : LinkResult :=
  let foreign := home.isSome
  let s1 := commitWindow foreign n f ep (ensureNode foreign n f.src s)
  let s2 := if foreign then s1 else learnTiming h n f (modNode n f.src (learnAccepted h f) s1)
  let tenant := match if foreign then none else nodeOf s2 n f.src with
    | some r => r.tenant
    | none => (netCfg s2 n).tenant
  let data := frameType f = 0 || frameType f = 3
  let body := if data then decompress s2 tenant f.src (frameSec f) payload else some payload
  let out := if body.isSome then 0 else 13
  let a : AckResult := if frameAckReq f then decideAck h n f remote late s2 else { state := s2 }
  withAck out a (fun t => countLink out n (match body with
    | some l => deliver n f home tenant l t
    | none => t))

/-- Steps 6 to 9 for a frame whose flood and record checks are done. -/
def linkCheck (h : Heard) (n : Nat) (f : LinkFields) (remote late : Bool) (home : Option Nat) (s : State) : LinkResult :=
  if !frameSec f && !(netCfg s n).allowClear then linkEnds n 7 s
  else match resolveEpoch s n (bits f.fc 9 8) with
    | none => linkReplay n 8 s
    | some ep =>
      match replayCheck (windowFor s home.isSome n f.src) f.ctr ep with
      | .staleEpoch => linkReplay n 8 s
      | .replay => linkReplay n 9 s
      | .duplicate => linkDuplicate h n f remote home.isSome late s
      | .fresh =>
        match openFrame n f ep s with
        | (.inl o, s1) => linkEnds n o (if o = 12 && liveFrame h then raise .micFail s1 else s1)
        | (.inr l, s1) => linkAccept h n f remote late home ep l s1

/-- Steps 4 to 9 (R233): the seen-cache, then the record. -/
def linkHome (h : Heard) (n : Nat) (f : LinkFields) (remote late : Bool) (home : Option Nat) (s : State) : LinkResult :=
  let hit := frameFlood f && seenBefore s f.src f.ctr
  let s1 := if frameFlood f then seenLookup f.src f.ctr s else s
  if hit then linkDuplicate h n f remote home.isSome late s1
  else if home.isNone && (nodeOf s1 n f.src).isNone && !(netCfg s1 n).learnNew then linkEnds n 6 s1
  else linkCheck h n f remote late home s1

/-- Steps 1 to 9 for a frame of this device's own receiver (R233). -/
def linkSteps (h : Heard) (late : Bool) (s : State) : LinkResult :=
  let f := parseFrame h.bytes
  let net := netOfSync s h.sync
  if deviceAddress f.src then
    match net with
    | some n => linkEnds n 2 s
    | none => { outcome := 2, state := s }
  else match net with
    | none => { outcome := 3, state := s }
    | some n =>
      if malformed f then linkEnds n 4 s
      else if !addressedHere f then linkEnds n 5 s
      else
        let home := homeOf s n f.src
        if home = ownHid s then linkHome h n f false late none s
        else if reachable s home then linkEnds n 1 (originate (.frame home { h with late := late }) s)
        else linkHome h n f false late (some home) s

/-! ### Overload (R13) -/

/-- The trouble bits of an overrunning frame that is acknowledged late (R13, R254). -/
def overrunTrouble (overrun : Bool) (r : LinkResult) : LinkResult :=
  if overrun then { r with state := raise .linkOverload (if r.late then raise .ackLate r.state else r.state) } else r

/-! ### LINK_ENGINE_FRAME -/

/-- A decoded frame as the engine takes it. -/
def heardOf (s : State) (t : Track) : Heard :=
  { hid := Fin.ofNat 64 (t.hid.getD (ownHid s)), plain := Fin.ofNat 4 t.plain, beam := Fin.ofNat 64 t.beam, bw := Fin.ofNat 4 t.bw,
    sf := Fin.ofNat 8 (t.sf - 5), chan := Fin.ofNat 160 t.chan, sync := t.sync, cr := Fin.ofNat 4 (hdrCr (t.hdr.getD 0#24)),
    snr := t.snr, tStart := t.tStart, tEnd := t.tEnd, layer := Fin.ofNat 5 t.layer, combined := Fin.ofNat 9 t.combined,
    late := false, bytes := t.bytes }

/-- A frame that waited for room in the decoder queue has its decision after R12 step 8 (R519); no other frame is late by
the engine's progress (R13). -/
def lateByWait (s : State) (t : Track) : Bool := t.waited && past s (t.laneT0 + 1500000#64)

/-- A link outcome that leaves a residue or combined frame new and verified (R171, R183). -/
def foundNew (outcome : Nat) : Bool := outcome = 0 || outcome = 1 || outcome = 13

/-- Source and counter of the frame are those of a frame decoded on the plain (R171). -/
def decodedTwice (s : State) (t : Track) : Bool :=
  let f := parseFrame t.bytes
  (cutPlain s t.plain).decoded.any (fun u => (parseFrame u.bytes).src = f.src && (parseFrame u.bytes).ctr = f.ctr)

/-- The link words of a record (R251). -/
def resultWords (t : Track) (r : LinkResult) : List Word := linkWords (parseFrame t.bytes) r.outcome r.booked r.ack

/-- The track with the mark of a late acknowledgement (R145). -/
def markLate (r : LinkResult) (t : Track) : Track := if r.late then markTrack 5 t else t

/-- A live frame's record (R143). -/
def recordLive (t : Track) (r : LinkResult) : State := postRecord (markLate r t) 0 0 (resultWords t r) r.state

/-- A residue frame accepted or discarded (R171), under the number it took on joining (R146): an accepted one is offered to
the cutting engine and counted. -/
def recordResidue (t : Track) (r : LinkResult) (s : State) : State :=
  if !foundNew r.outcome then discardResidue 2 t r.state
  else if decodedTwice s t then discardResidue 3 t s
  else
    let o := offerCut t false r.state
    let s1 := countCut (10 + t.layer) t.plain 1 (rememberDecoded o.1 o.2)
    let s2 := match t.job with
      | some j => match jobAt s1 j with
        | some k => setJob { k with accepted := k.accepted + 1 } s1
        | none => s1
      | none => s1
    postRecord (markLate r o.1) 0 0 (resultWords t r) s2

/-- A combined frame recorded under the number it took on joining (R146), or counted when it fails the link checks
(R183). -/
def recordCombined (t : Track) (r : LinkResult) : State :=
  if !foundNew r.outcome then countComb 10 r.state
  else
    let raw := (plainCfg r.state t.plain).rawPayload
    postRecordTo r.state.cfg.comb.queue t.plain (recordWords (markLate r t) 0 0 raw (resultWords t r)) (if raw then t.bytes else [])
      r.state

/-- One of this device's own frames through the engine to its record. -/
def linkOwn (i : LinkItem) (s : State) : State :=
  let t := i.track
  let r := overrunTrouble i.overrun (linkSteps (heardOf s t) (i.overrun || lateByWait s t) s)
  if t.job.isSome then recordResidue t r s else if t.combined = 0 then recordLive t r else recordCombined t r

/-- A frame that a member forwarded: the home takes steps 4 to 9, and a device that is no longer the home forwards it on
(R234, R315). -/
def linkForwarded (g : Heard) (i : LinkItem) (s : State) : State :=
  let f := parseFrame g.bytes
  match netOfSync s g.sync with
  | none => s
  | some n =>
    let home := homeOf s n f.src
    if home != ownHid s && reachable s home then originate (.frame home g) s
    else (overrunTrouble i.overrun (linkHome g n f true (i.overrun || g.late) none s)).state

/-- A frame through the engine. -/
def linkFrame (i : LinkItem) (s : State) : State :=
  match i.member with
  | some m => linkForwarded m.2 i s
  | none => linkOwn i s

/-- LINK_ENGINE_FRAME (R233, R16): the first frame in the engine's input order. -/
def execLinkEngineFrame (s : State) : Host.Outcome State Fault Refusal :=
  match s.rx.linkq with
  | [] => .next s
  | i :: rest => .next (linkFrame i { s with rx := { s.rx with linkq := rest } })

/-- FORWARDED_FRAME (R234): a frame that a member received joins the engine's input order by its stamped arrival. -/
def execForwardedFrame (src : Fin 64) (h : Heard) (s0 : State) : Host.Outcome State Fault Refusal :=
  let s := mirrorHerd (.frame src h) s0
  let g : Heard := { h with hid := if h.combined = 0 then src else h.hid }
  .next (joinLink { member := some (src.val, g) } s)

/-- HOME_ACK (R247): an acknowledgement built by the home, booked and transmitted by the device that received the frame. -/
def execHomeAck (x : AckIn) (s0 : State) : Host.Outcome State Fault Refusal :=
  let s := mirrorHerd (.homeAck x) s0
  let p := x.plain.val
  let y : Tx := { plain := p, beam := x.beam.val, bw := x.bw.val, sf := 5 + x.sf.val, cr := x.cr.val, len := x.frame.length, kind := 1,
                  net := x.net.val, dst := x.dst, tenant := (netCfg s x.net.val).tenant, t0 := x.t0, frame := x.frame,
                  carrier := carrierOf s p x.bw.val x.chan.val 0#32 }
  let z := classify s false (fillTx s (txCfg s p).pilot y)
  let s2 := postPassed z s
  match judge s2 z with
  | some st => .next (fail z st 1 none s2)
  | none =>
    let s1 := takeOn z s2
    match txAt s1 s2.radio.nextId with
    | none => .next s1
    | some w =>
      if past s (before w.t0 100000) then .next (refuseBooked w .refusedCapacity s1)
      else .next (requestAtBooking w (countLink 14 w.net (setTx { w with symbols := chirpsOf s w w.frame, state := .built } s1)))

/-! ### What the engine does by itself -/

/-- SEEN_CACHE_AGE (R239): a pair leaves when it has stood for SEEN_AGE. -/
def execSeenCacheAge (src ctr : Word) (s : State) : Host.Outcome State Fault Refusal :=
  let stays (e : Seen) : Bool := !(e.src = src && e.ctr = ctr && reached s (e.time + BitVec.ofNat 64 (1000000000 * s.cfg.link.seenAge)))
  .next { s with link := { s.link with seen := s.link.seen.filter stays } }

/-- The overlap of a network ended: the previous epoch's keys evicted, its slot and broadcast counter released (R241). -/
def endOverlap (n : Nat) (s : State) : State :=
  let old := (netCfg s n).epoch - 1
  let s1 := dropKeys (fun e => e.net = n && e.epoch = old) s
  setNet s1 n { netRun s1 n with prev := none, bctrPrev := none }

/-- EPOCH_OVERLAP_END (R241). -/
def execEpochOverlapEnd (n : Fin 16) (s : State) : Host.Outcome State Fault Refusal :=
  match (netRun s n.val).prev with
  | some (_, stop) => if reached s stop then .next (endOverlap n.val s) else .next s
  | none => .next s

/-- A crypto command (R252). -/
def isCryptoCommand (op : Nat) : Bool := 0x0500 ≤ op && op ≤ 0x0520

/-- The crypto engine restarts (R252); each frame takes its steps at once, so none lies between steps 7 and 9 (log 19). -/
def restartCrypto (s : State) : State :=
  postEvent 0x0502 0 0#32 (raise .cryptoRestart (completeWhere (fun e => isCryptoCommand e.opcode) .retryEngineRestarted s))

/-- CRYPTO_ENGINE_FAULT_RESTART (R252): after a failed self-check. -/
def execCryptoEngineFaultRestart (s : State) : Host.Outcome State Fault Refusal :=
  .next (restartCrypto { s with link := { s.link with engineFault := true } })

/-- A block of the image is booked or on air. -/
def blockFlying (s : State) (id : Nat) : Bool :=
  s.radio.txs.any (fun x => x.kind = 5 && match x.dl with
    | some d => d.queue = id
    | none => false)

/-- IMAGE_ROUND_COMPLETE (R250): every block of the round sent; reports are collected for REPORT_WAIT. -/
def execImageRoundComplete (id : BitVec 16) (s : State) : Host.Outcome State Fault Refusal :=
  match imageAt s id.toNat with
  | some i =>
    if i.state = 1 && i.todo.isEmpty && !blockFlying s i.id then
      let j : Image := { i with state := 2, reports := 0, missing := [], deadline := after s (1000000000 * i.reportWait) }
      .next (postEvent 0x0510 i.id (w32 i.round) (setImage j s))
    else .next s
  | none => .next s

/-- An image transfer ended (R250, R253). -/
def endTransfer (i : Image) (state detail : Nat) (s : State) : State :=
  postEvent 0x0511 i.id (w32 detail) (setImage { i with state := state, todo := [] } s)

/-- REPORT_WAIT_EXPIRY (R250): the transfer ends, or the next round sends every block reported missing. -/
def execReportWaitExpiry (id : BitVec 16) (s : State) : Host.Outcome State Fault Refusal :=
  match imageAt s id.toNat with
  | some i =>
    if i.state != 2 || !reached s i.deadline then .next s
    else if i.reports = 0 then .next (endTransfer i 3 0 s)
    else if i.maxRounds ≤ i.round + 1 then .next (endTransfer i 3 1 s)
    else
      let j : Image := { i with state := 1, round := i.round + 1, sent := 0, todo := i.missing, missing := [], seq := s.sched.nextSeq }
      let s1 := setImage j s
      .next { s1 with sched := { s1.sched with nextSeq := s1.sched.nextSeq + 1 } }
  | none => .next s

end Sys2Proof.Machine
end

