-- ==== Sys2Proof/Machine/LinkCmd.lean ====
section
/-! DEFINITION. The link commands (R253): networks, epochs, contexts, windows, keys, images, counters. -/

namespace Sys2Proof.Machine

/-! ### Networks and epochs -/

/-- The state with the settings of a network. -/
def setNetCfg (s : State) (n : Nat) (v : NetCfg) : State :=
  { s with cfg := { s.cfg with link := { s.cfg.link with nets := tabSet s.cfg.link.nets n v } } }

/-- A vault slot that holds a loaded zone key (R253, R430). -/
def zoneLoaded (s : State) (k : Nat) : Bool := (vaultSlot s k).state = 1 && (vaultSlot s k).typ = 1

/-- Another network has the sync value (R228). -/
def syncTaken (s : State) (n : Nat) (v : Byte) : Bool :=
  (List.range 16).any (fun m => m != n && (netCfg s m).configured && (netCfg s m).sync = v)

/-- Settings that LINK_NETWORK_SET gives. -/
def netOf (c : Packet) : NetCfg :=
  { configured := true, sync := (pw c 1).setWidth 8, number := (pw c 1 >>> 16).setWidth 16, slot := pn c 2, epoch := (pw c 3).setWidth 16,
    overlap := pn c 4, tenant := pf c 5 7 0, learnNew := bit (pw c 5) 8, allowClear := bit (pw c 5) 9, ackGap := pn c 6,
    floodTtl := pf c 7 3 0, cmdQ := pn c 8 }

def linkNetworkSetSpec : CmdSpec :=
  { plainSpec 0x0500 9 (fun _ => true) (fun c s =>
      let n := pn c 0
      let old := netCfg s n
      let s1 := if old.slot = pn c 2 then s else dropKeys (fun e => e.net = n && e.epoch = old.epoch) s
      done (setNetCfg s1 n (netOf c))) with
    valid := fun c => within c 0 0 15 && only c 1 0xFFFF00FF && within c 2 0 63 && fits c 3 16 && fits c 5 10 && within c 6 2 16
      && fits c 7 4 && within c 8 34 1023
    here := fun c s => !syncTaken s (pn c 0) ((pw c 1).setWidth 8)
    ready := fun c s => zoneLoaded s (pn c 2)
      && (!(netCfg s (pn c 0)).configured || (netCfg s (pn c 0)).epoch = (pw c 3).setWidth 16) }

/-- LINK_NETWORK_SET (R228, R253). -/
def execLinkNetworkSet (c : Packet) (s : State) : Host.Outcome State Fault Refusal :=
  runCommand linkNetworkSetSpec c s

/-- Broadcasts of the network are held back by R243 under the current epoch. -/
def netBlocked (s : State) (n : Nat) : Bool := (takeBroadcastCtr n (netCfg s n).epoch s).isNone

/-- Seconds of the overlap still to run (R241). -/
def overlapLeft (s : State) (n : Nat) : Nat :=
  match (netRun s n).prev with
  | some (_, stop) => if reached s stop then 0 else (stop - now s).toNat / 1000000000
  | none => 0

def linkNetworkStatusSpec : CmdSpec := plainSpec 0x0501 1 (fun c => within c 0 0 15) (fun c s =>
  let n := pn c 0
  doneWith [(netCfg s n).epoch.setWidth 32, w32 (overlapLeft s n), w32 (startCount s n).cur, w32 ((netRun s n).bctr.getD 0),
            w32 (flag (netBlocked s n))] s)

/-- LINK_NETWORK_STATUS (R253). -/
def execLinkNetworkStatus (c : Packet) (s : State) : Host.Outcome State Fault Refusal :=
  runCommand linkNetworkStatusSpec c s

/-- START_COUNT values at an epoch advance (R243). -/
def advanceCounts (v : StartCount) : StartCount := { cur := 0, curHeld := false, prev := v.cur, prevHeld := v.curHeld }

/-- The broadcast counter that the new epoch starts from: the present one, but never set once it has used up its block, which
an advance releases (R243). -/
def advanceBctr (s : State) (n : Nat) : Option Nat :=
  if (takeBroadcastCtr n (netCfg s n).epoch s).isNone && !(startCount s n).curHeld then none else (netRun s n).bctr

/-- A network's epoch advanced (R241, R243, R430): a running overlap ends, the present epoch and its slot become the previous
ones, and the slot named by ZONE_NEXT_SET serves the new epoch. -/
def advanceEpoch (n : Nat) (s : State) : State :=
  let s1 := endOverlap n s
  let v := netCfg s1 n
  let stop := after s1 (1000000000 * v.overlap)
  let r := netRun s1 n
  let s2 := setNet s1 n { r with prev := some (v.slot, stop), bctrPrev := r.bctr, bctr := advanceBctr s1 n }
  let s3 := setNetCfg s2 n { v with epoch := v.epoch + 1, slot := tabGet s2.vault.next n v.slot }
  { s3 with vault := { s3.vault with next := tabDel s3.vault.next n, start := tabSet s3.vault.start n (advanceCounts (startCount s3 n)) } }

def linkEpochAdvanceSpec : CmdSpec :=
  { plainSpec 0x0502 1 (fun c => within c 0 0 15) (fun c s =>
      doneWith [((netCfg s (pn c 0)).epoch + 1).setWidth 32] (advanceEpoch (pn c 0) s)) with
    perm := fun _ s => minorityCheck s
    ready := fun c s => (netCfg s (pn c 0)).configured }

/-- LINK_EPOCH_ADVANCE (R241, R253, R390). -/
def execLinkEpochAdvance (c : Packet) (s : State) : Host.Outcome State Fault Refusal :=
  runCommand linkEpochAdvanceSpec c s

def linkSeenSetSpec : CmdSpec := plainSpec 0x0503 1 (fun c => within c 0 1 3600) (fun c s =>
  done { s with cfg := { s.cfg with link := { s.cfg.link with seenAge := pn c 0 } } })

/-- LINK_SEEN_SET (R239). -/
def execLinkSeenSet (c : Packet) (s : State) : Host.Outcome State Fault Refusal := runCommand linkSeenSetSpec c s

def iphcContextSetSpec : CmdSpec := plainSpec 0x0504 7
  (fun c => within c 0 0 255 && within c 1 0 15 && fits c 2 9 && pf c 2 7 0 ≤ 128) (fun c s =>
  let v : IphcCtx := { valid := bit (pw c 2) 8, len := pf c 2 7 0, pfx := keyOfWords (pwords c 3 4) }
  done { s with cfg := { s.cfg with link := { s.cfg.link with ctx := tabSet s.cfg.link.ctx (16 * pn c 0 + pn c 1) v } } })

/-- IPHC_CONTEXT_SET (R244). -/
def execIphcContextSet (c : Packet) (s : State) : Host.Outcome State Fault Refusal :=
  runCommand iphcContextSetSpec c s

/-- The window of a node, and whether it stands in the unrecorded window table (R238). -/
def windowAt (s : State) (n : Nat) (addr : Word) : Option (Window × Bool) :=
  match (nodeOf s n addr).bind (fun r => r.win) with
  | some w => some (w, false)
  | none => (unrecOf s n addr).map (fun w => (w, true))

def replayStateReadSpec : CmdSpec := plainSpec 0x0505 2 (fun c => within c 0 0 15) (fun c s =>
  match windowAt s (pn c 0) (pw c 1) with
  | some (w, u) => doneWith ([w.epoch.setWidth 32, w.last] ++ loHi w.map ++ [w32 (flag u)]) s
  | none => ends .refusedNodeUnknown s)

/-- REPLAY_STATE_READ (R253). -/
def execReplayStateRead (c : Packet) (s : State) : Host.Outcome State Fault Refusal :=
  runCommand replayStateReadSpec c s

/-- Cache entries that KEY_CACHE_FLUSH names. -/
def flushes (c : Packet) (e : KeyEntry) : Bool := pw c 0 = 0xFFFFFFFF#32 || e.net = pn c 0

def keyCacheFlushSpec : CmdSpec := plainSpec 0x0506 1 (fun c => within c 0 0 15 || pw c 0 = 0xFFFFFFFF#32) (fun c s =>
  doneWith [w32 (s.link.keys.filter (flushes c)).length] (dropKeys (flushes c) s))

/-- KEY_CACHE_FLUSH (R431). -/
def execKeyCacheFlush (c : Packet) (s : State) : Host.Outcome State Fault Refusal :=
  runCommand keyCacheFlushSpec c s

def cryptoEngineRestartSpec : CmdSpec := plainSpec 0x0507 0 (fun _ => true) (fun _ s => doneWith [0#32] (restartCrypto s))

/-- CRYPTO_ENGINE_RESTART (R252). -/
def execCryptoEngineRestart (c : Packet) (s : State) : Host.Outcome State Fault Refusal :=
  runCommand cryptoEngineRestartSpec c s

/-! ### Images (R248-R250) -/

/-- The image lies in the staging region. -/
def imageRange (c : Packet) : Bool := (p64 c 1).toNat + pn c 3 ≤ stagingSize

def imageLoadSpec : CmdSpec :=
  { plainSpec 0x0510 6 (fun c => within c 0 1 65535 && within c 3 1 1048576 && imageRange c && within c 5 0 15) (fun c s =>
      let i : Image := { id := pn c 0, net := pn c 5, offset := (p64 c 1).toNat, len := pn c 3 }
      if stagingBad s i.offset i.len then ends .failedHardware s
      else if crc32c (stagingRead s i.offset i.len) != pw c 4 then ends .invalidCheckValue (raise .imageErr s)
      else if 4 ≤ s.link.images.length then ends .refusedTableFull s
      else doneWith [w32 (imageBlocks i)] { s with link := { s.link with images := s.link.images ++ [i] } }) with
    ready := fun c s => (imageAt s (pn c 0)).isNone && (netCfg s (pn c 5)).configured }

/-- IMAGE_LOAD (R248). -/
def execImageLoad (c : Packet) (s : State) : Host.Outcome State Fault Refusal := runCommand imageLoadSpec c s

/-- The image of a command in one of some states. -/
def imageIn (c : Packet) (s : State) (l : List Nat) : Bool :=
  match imageAt s (pn c 0) with
  | some i => l.contains i.state
  | none => false

def imageStartSpec : CmdSpec :=
  { plainSpec 0x0511 3 (fun c => within c 0 1 65535 && within c 1 1 255 && within c 2 1 86400) (fun c s =>
      match imageAt s (pn c 0) with
      | some i =>
        let j : Image := { i with state := 1, round := 0, sent := 0, reports := 0, missing := [], todo := List.range (imageBlocks i),
                                  maxRounds := pn c 1, reportWait := pn c 2, seq := s.sched.nextSeq }
        let s1 := setImage j s
        done { s1 with sched := { s1.sched with nextSeq := s1.sched.nextSeq + 1 } }
      | none => done s) with
    ready := fun c s => imageIn c s [0, 3, 4] }

/-- IMAGE_START (R250). -/
def execImageStart (c : Packet) (s : State) : Host.Outcome State Fault Refusal := runCommand imageStartSpec c s

def imageStopSpec : CmdSpec :=
  { plainSpec 0x0512 2 (fun c => within c 0 1 65535 && fits c 1 1) (fun c s =>
      match imageAt s (pn c 0) with
      | some i =>
        let s1 := if i.state = 1 || i.state = 2 then endTransfer i 4 2 s else s
        done (if pn c 1 = 1 then { s1 with link := { s1.link with images := s1.link.images.filter (fun x => x.id != i.id) } } else s1)
      | none => done s) with
    ready := fun c s => (imageAt s (pn c 0)).isSome }

/-- IMAGE_STOP (R250). -/
def execImageStop (c : Packet) (s : State) : Host.Outcome State Fault Refusal := runCommand imageStopSpec c s

def imageStatusSpec : CmdSpec :=
  { plainSpec 0x0513 1 (fun c => within c 0 1 65535) (fun c s =>
      match imageAt s (pn c 0) with
      | some i => doneWith [w32 i.state, w32 i.round, w32 i.sent, w32 i.reports] s
      | none => done s) with
    ready := fun c s => (imageAt s (pn c 0)).isSome }

/-- IMAGE_STATUS (R253). -/
def execImageStatus (c : Packet) (s : State) : Host.Outcome State Fault Refusal := runCommand imageStatusSpec c s

def linkCountersReadSpec : CmdSpec := plainSpec 0x0520 2 (fun c => within c 0 0 15 && fits c 1 1) (fun c s =>
  let v := netRun s (pn c 0)
  doneWith (v.counters.map w32)
    (if pn c 1 = 1 then setNet s (pn c 0) { v with counters := List.replicate 16 0 } else s))

/-- LINK_COUNTERS_READ (R253, R149). -/
def execLinkCountersRead (c : Packet) (s : State) : Host.Outcome State Fault Refusal :=
  runCommand linkCountersReadSpec c s

end Sys2Proof.Machine
end

