-- ==== Sys2Proof/Machine/Receive.lean ====
section
/-! DEFINITION. The receive commands (R147) and the events of receive lanes, beam tables and level reports (R110-R122,
R515-R517). -/

namespace Sys2Proof.Machine

/-- A command of plain p whose word 0 names it and that no drain bars (R141). -/
def plainReady (c : Packet) (s : State) : Bool := !draining s (pn c 0)

/-- A receive configuration command of n words on the plain of word 0. -/
def rxSpec (op n : Nat) (valid : Packet → Bool) (f : Packet → PlainCfg → PlainCfg) : CmdSpec :=
  { plainSpec op n (fun c => within c 0 0 3 && valid c)
      (fun c s => done (setPlainCfg s (pn c 0) (f c (plainCfg s (pn c 0))))) with ready := plainReady }

/-! ### Ports and plains -/

/-- The whole-sample delay that aligns port n with the slowest port of its plain (R112). -/
def alignOf (s : State) (n : Nat) : Nat :=
  match plainOfPort s n with
  | some p => (plainLatency s p - receiveLatency s n + 40) / 80
  | none => 0

/-- The delays of a plain's ports brought up to date. A difference of more than 63 samples that PLAIN_CONFIGURE or a
calibration brings about, for which the spec names no answer, leaves the delay at 63 (DESIGN CHOICE, log 103). -/
def realign (p : Nat) (s : State) : State :=
  (portsOf s p).foldl (fun t n => setPort t n { portRun t n with align := min 63 (alignOf t n) }) s

/-- The ports of a plain begin to link: a port with a release point stays down until its re-link is judged against it, the
others reach data phase and await calibration; none delivers samples yet (R113, R517). -/
def linkPorts (p : Nat) (s : State) : State :=
  let s1 := (portsOf s p).foldl (fun t n =>
    setPort t n { portRun t n with lane := if (portRun t n).release.isSome then 0 else 2 }) s
  setRxPlain s1 p { rxPlain s1 p with lossPorts := (plainCfg s1 p).ports }

/-- Ports that leave or join a plain hold no release point (R517). Such a port keeps the link latency last measured on it as
part of its receive latency until it is measured again (DESIGN CHOICE, log 103). -/
def movePorts (p : Nat) (mask : BitVec 16) (s : State) : State :=
  let old := (plainCfg s p).ports
  let s1 := (maskList (old ^^^ mask)).foldl (fun t n => setPort t n { portRun t n with release := none, lane := 0 }) s
  setPlainCfg s1 p { plainCfg s1 p with ports := mask }

/-- A plain enabled: its ports link, and the store is repartitioned (R106, R153, R517). -/
def enablePlain (p : Nat) (s : State) : State :=
  refreshMode (repartition (linkPorts p (changePlain p { plainCfg s p with enabled := true } s)))

def plainConfigureSpec : CmdSpec :=
  { plainSpec 0x0200 3 (fun _ => true) (fun c s =>
      let p := pn c 0
      let mask : BitVec 16 := (pw c 1).setWidth 16
      let s1 := realign p (movePorts p mask s)
      if pn c 2 = 0 then done (refreshMode s1)
      else if fitsBudget s1 p { plainCfg s1 p with enabled := true } then done (enablePlain p s1)
      else ends .refusedCapacity s) with
    valid := fun c => within c 0 0 3 && fits c 1 16 && fits c 2 1 && !(pn c 2 = 1 && pn c 1 = 0)
    here := fun c s => (maskList (pw c 1)).all (fun n => match plainOfPort s n with
        | some q => q = pn c 0
        | none => true)
    ready := fun c s => !(plainCfg s (pn c 0)).enabled && plainReady c s }

/-- PLAIN_CONFIGURE (R103, R106, R517). -/
def execPlainConfigure (c : Packet) (s : State) : Host.Outcome State Fault Refusal :=
  runCommand plainConfigureSpec c s

def plainDisableSpec : CmdSpec :=
  { plainSpec 0x0201 2 (fun c => within c 0 0 3 && fits c 1 1) (fun c s =>
      let p := pn c 0
      if (plainCfg s p).enabled then
        beginWithdrawal { queue := c.queue.val, tag := c.tag, plain := some p, kind := .plain,
                          tracks := trackNums s (fun t => t.plain = p) } (bit (pw c 1) 0) s
      else doneWith [0#32] s) with ready := plainReady }

/-- PLAIN_DISABLE (R139, R140). -/
def execPlainDisable (c : Packet) (s : State) : Host.Outcome State Fault Refusal :=
  runCommand plainDisableSpec c s

/-- The six words of PLAIN_STATUS. The one word for the beams gives the active beam count: six words leave no room for the
64-bit mask of R515 (DESIGN CHOICE, log 103). -/
def plainStatusWords (s : State) (p : Nat) : List Word :=
  let v := plainCfg s p
  [v.ports.setWidth 32, w32 (flag v.enabled), w32 v.beams, v.gridMask.setWidth 32, v.sfMask.setWidth 32, w32 (tracksOf s p)]

def plainStatusSpec : CmdSpec := plainSpec 0x0202 1 (fun c => within c 0 0 3) (fun c s =>
  doneWith (plainStatusWords s (pn c 0)) s)

/-- PLAIN_STATUS (R147). -/
def execPlainStatus (c : Packet) (s : State) : Host.Outcome State Fault Refusal :=
  runCommand plainStatusSpec c s

/-! ### Masks (R148, R520) -/

/-- The 128-bit mask of words 1-4. -/
def chainWords (c : Packet) : BitVec 128 :=
  BitVec.ofNat 128 (pn c 1 + 2 ^ 32 * pn c 2 + 2 ^ 64 * pn c 3 + 2 ^ 96 * pn c 4)

/-- The plain chains of plain p as a mask. -/
def allChains (s : State) (p : Nat) : BitVec 128 := maskOf 128 (List.range (chainsOf s p))

def chainEnableSpec : CmdSpec :=
  { plainSpec 0x0203 5 (fun c => within c 0 0 3) (fun c s =>
      let p := pn c 0
      let v := plainCfg s p
      let left := v.chainMask &&& ~~~ chainWords c &&& allChains s p
      if left = 0#128 then doneWith [0#32] (refreshMode (changePlain p { v with chainMask := chainWords c } s))
      else
        beginWithdrawal { queue := c.queue.val, tag := c.tag, plain := some p, kind := .chains left, before := v,
                          after := { v with chainMask := chainWords c },
                          tracks := trackNums s (fun t => t.plain = p && t.job.isNone && usesChains v t.beam left) } false s) with
    ready := plainReady }

/-- CHAIN_ENABLE (R520): a withdrawn chain feeds the beams until the drain completes. -/
def execChainEnable (c : Packet) (s : State) : Host.Outcome State Fault Refusal := runCommand chainEnableSpec c s

/-- A change of a plain's search masks: an addition, or one withdrawal with its additions after it (R148). -/
def searchChange (c : Packet) (kind : DrainKind) (after : PlainCfg) (force : Bool) (s : State) : Answer :=
  let p := pn c 0
  let v := plainCfg s p
  let narrowed : PlainCfg := { v with gridMask := v.gridMask &&& after.gridMask, sfMask := v.sfMask &&& after.sfMask,
                                      beamMask := v.beamMask &&& after.beamMask }
  let narrows := narrowed.gridMask != v.gridMask || narrowed.sfMask != v.sfMask || narrowed.beamMask != v.beamMask
  let widens := narrowed.gridMask != after.gridMask || narrowed.sfMask != after.sfMask || narrowed.beamMask != after.beamMask
  if widens && !fitsBudget s p after then ends .refusedCapacity s
  else if !narrows then doneWith [0#32] (refreshMode (changePlain p after s))
  else
    let gone (t : Track) : Bool := t.plain = p && t.job.isNone &&
      !(bit narrowed.gridMask t.bw && bit narrowed.sfMask (t.sf - 5) && (bit narrowed.beamMask t.beam || !bit v.beamMask t.beam))
    beginWithdrawal { queue := c.queue.val, tag := c.tag, plain := some p, kind := kind, before := v, after := after,
                      tracks := trackNums s gone } force (refreshMode (setPlainCfg s p narrowed))

def searchSetSpec : CmdSpec :=
  { plainSpec 0x0205 3 (fun c => within c 0 0 3 && only c 1 0xFF0F && fits c 2 1) (fun c s =>
      searchChange c .search { plainCfg s (pn c 0) with gridMask := (pw c 1).setWidth 4, sfMask := (pw c 1 >>> 8).setWidth 8 }
        (bit (pw c 2) 0) s) with ready := plainReady }

/-- SEARCH_SET (R148). -/
def execSearchSet (c : Packet) (s : State) : Host.Outcome State Fault Refusal := runCommand searchSetSpec c s

def beamEnableSpec : CmdSpec :=
  { plainSpec 0x0233 4 (fun _ => true) (fun c s =>
      searchChange c .beams { plainCfg s (pn c 0) with beamMask := p64 c 1 } (bit (pw c 3) 0) s) with
    valid := fun c => within c 0 0 3 && fits c 3 1
    here := fun c s => beamsBelow (p64 c 1) (plainCfg s (pn c 0)).beams = p64 c 1
    ready := plainReady }

/-- BEAM_ENABLE (R148, R515): a beam enabled lies within the active count. -/
def execBeamEnable (c : Packet) (s : State) : Host.Outcome State Fault Refusal := runCommand beamEnableSpec c s

/-! ### Plain settings -/

def syncSetSpec : CmdSpec :=
  { rxSpec 0x0204 0 (fun c => (List.range (pn c 1)).all (fun i => fits c (2 + i) 8))
      (fun c v => { v with sync := (List.range (pn c 1)).map (fun i => (pw c (2 + i)).setWidth 8) }) with
    len := countLen 1 0 4 2 1, countAt := some 1 }

/-- SYNC_SET (R132). -/
def execSyncSet (c : Packet) (s : State) : Host.Outcome State Fault Refusal := runCommand syncSetSpec c s

def detectSetSpec : CmdSpec :=
  rxSpec 0x0206 3 (fun c => within c 1 3 6 && within c 2 40 200) (fun c v => { v with detCount := pn c 1, detThresh := pn c 2 })

/-- DETECT_SET (R128). -/
def execDetectSet (c : Packet) (s : State) : Host.Outcome State Fault Refusal := runCommand detectSetSpec c s

def trackCapSetSpec : CmdSpec :=
  rxSpec 0x0207 2 (fun c => within c 1 1 4096) (fun c v => { v with trackCap := pn c 1 })

/-- TRACK_CAP_SET (R126). -/
def execTrackCapSet (c : Packet) (s : State) : Host.Outcome State Fault Refusal := runCommand trackCapSetSpec c s

def recordSetSpec : CmdSpec :=
  rxSpec 0x0208 4 (fun c => within c 1 34 63 && within c 2 34 63 && fits c 3 2)
    (fun c v => { v with recQ := pn c 1, repQ := pn c 2, rawPayload := bit (pw c 3) 0, levels := bit (pw c 3) 1 })

/-- RECORD_SET (R143). -/
def execRecordSet (c : Packet) (s : State) : Host.Outcome State Fault Refusal := runCommand recordSetSpec c s

def sysrefSetSpec : CmdSpec :=
  rxSpec 0x0213 3 (fun c => within c 1 0 2 && within c 2 1 1024) (fun c v => { v with sysref := pn c 1, sysrefK := pn c 2 })

/-- SYSREF_SET (R109). -/
def execSysrefSet (c : Packet) (s : State) : Host.Outcome State Fault Refusal := runCommand sysrefSetSpec c s

def levelSetSpec : CmdSpec := rxSpec 0x0222 2 (fun c => fits c 1 16) (fun c v => { v with clipLimit := pn c 1 })

/-- LEVEL_SET (R117). -/
def execLevelSet (c : Packet) (s : State) : Host.Outcome State Fault Refusal := runCommand levelSetSpec c s

/-! ### Calibration (R110, R517) -/

/-- What a calibration measures on a port, in SAMP cycles. -/
def arrivalOf (s : State) (n : Nat) : Nat := (Config.arrival s.free n).toNat

/-- Of some ports, the one measured earliest, and the one measured latest; of equals the lower. -/
def earliest (s : State) (l : List Nat) : Nat := (firstBy (fun a b => arrivalOf s a < arrivalOf s b) l).getD 0
def latest (s : State) (l : List Nat) : Nat := (firstBy (fun a b => arrivalOf s b < arrivalOf s a) l).getD 0

/-- The measured values of a plain's ports spread over more than 100 cycles (R110). -/
def spread (s : State) (l : List Nat) : Bool := arrivalOf s (earliest s l) + 100 < arrivalOf s (latest s l)

/-- The extended-multiblock boundary that comes next at t ns, or stands there (R107). -/
def nextBlock (t : BitVec 64) : BitVec 64 := BitVec.ofNat 64 ((t.toNat + 639) / 640 * 640)

/-- A port's chains are released again: lane state 1, its LANE_LOSS span closed at the next extended-multiblock boundary
(R113, R517). -/
def laneReturns (p n : Nat) (s : State) : State :=
  let s1 := setPort s n { portRun s n with lane := 1 }
  let s2 := setRxPlain s1 p { rxPlain s1 p with lossPorts := setBit (rxPlain s1 p).lossPorts n false }
  closeMarks p (fun m => m.kind = 1 && bit m.ports n) (BitVec.ofNat 64 ((nextBlock (now s2)).toNat - plainLatency s2 p)) s2

/-- The calibration of the named ports of one plain (R110): the release point of every port measured, and its latency. -/
def calibratePlain (p : Nat) (named : List Nat) (s : State) : State :=
  let r := (arrivalOf s (latest s named) + 2) % 128
  let one (t : State) (n : Nat) : State :=
    let v := portRun t n
    let a := if named.contains n then arrivalOf s n else v.arrival
    if named.contains n || v.release.isSome then
      setPort t n { v with release := some r, arrival := a, linkLat := 36 + (r + 128 - a) % 128 }
    else t
  let s1 := realign p ((portsOf s p).foldl one s)
  named.foldl (fun t n => laneReturns p n t) s1

/-- The named ports of a plain. -/
def namedPorts (s : State) (mask : Word) (p : Nat) : List Nat := (maskList mask).filter (fun n => bit (plainCfg s p).ports n)

/-- The plains among whose ports the calibration fails (R110). -/
def spreadPlains (s : State) (mask : Word) : List Nat := (List.range 4).filter (fun p => spread s (namedPorts s mask p))

/-- The calibration on the ports of a mask, plain by plain. -/
def calibrate (mask : Word) (s : State) : State :=
  let bad := spreadPlains s mask
  let s1 := (List.range 4).foldl (fun t p =>
    if bad.contains p || (namedPorts s mask p).isEmpty then t else calibratePlain p (namedPorts s mask p) t) s
  { s1 with free := s.free + 1 }

/-- The word of a calibrated port. -/
def calibrationWord (s : State) (n : Nat) : Word := pair16 (portRun s n).linkLat (portRun s n).arrival

/-- Every port of a mask is in data phase. -/
def dataPhase (s : State) (mask : Word) : Bool := (maskList mask).all (fun n => (portRun s n).lane != 0)

/-- The plains whose ports a mask names. -/
def plainsNamed (s : State) (mask : Word) : List Nat := (List.range 4).filter (fun p => !(namedPorts s mask p).isEmpty)

/-- Each named plain sends its SYSREF pattern (R109, R110 step 1). -/
def sendSysref (mask : Word) (s : State) : State :=
  (plainsNamed s mask).foldl (fun t p => setRxPlain t p { rxPlain t p with calAt := some (now t) }) s

/-- SYSREFp pulses at instant t: on extended-multiblock boundaries, by the pattern of the plain (R109). -/
def sysrefPulse (s : State) (p : Nat) (t : BitVec 64) : Bool :=
  let v := plainCfg s p
  let k := 640 * v.sysrefK
  if v.sysref = 0 then t.toNat % k = 0
  else match (rxPlain s p).calAt with
    | none => false
    | some c =>
      let a := (nextBlock c).toNat
      let i := (t.toNat - a) / k
      a ≤ t.toNat && (t.toNat - a) % k = 0 && decide (if v.sysref = 1 then i < 64 else i = 0)

/-- Status and result of a calibration, and the state after it (R110). Where several named plains spread too far, the result
names the ports of the lowest, and the other plains are calibrated (DESIGN CHOICE, log 103). -/
def runCalibration (mask : Word) (s : State) : Answer :=
  let s1 := calibrate mask s
  match spreadPlains s mask with
  | [] => doneWith ((maskList mask).map (calibrationWord s1)) s1
  | p :: _ =>
    let l := namedPorts s mask p
    { state := s1, status := .failedHardware, results := [w32 (earliest s l), w32 (latest s l)] }

def linkCalibrateSpec : CmdSpec :=
  { plainSpec 0x0210 1 (fun c => fits c 0 16) (fun c s =>
      let s1 := sendSysref (pw c 0) s
      if dataPhase s1 (pw c 0) then runCalibration (pw c 0) s1
      else
        let w : CalWait := { queue := c.queue.val, tag := c.tag, mask := pw c 0 }
        runsOn { s1 with rx := { s1.rx with calWait := s1.rx.calWait ++ [w] } }) with
    ready := fun c s => (maskList (pw c 0)).all (inEnabledPlain s) && !(plainsNamed s (pw c 0)).any (draining s) }

/-- A waiting calibration carried out and its command completed. -/
def endCalWait (w : CalWait) (s : State) : State :=
  let a := runCalibration w.mask { s with rx := { s.rx with calWait := s.rx.calWait.erase w } }
  complete w.queue w.tag a.status a.results a.state

/-- The calibrations whose ports have all reached data phase are carried out (R110 step 1). -/
def settleCalWaits (s : State) : State :=
  (s.rx.calWait.filter (fun w => dataPhase s w.mask)).foldl (fun t w => endCalWait w t) s

/-- LINK_CALIBRATE (R110): it waits for every named port to reach data phase, which only ports of enabled plains do. -/
def execLinkCalibrate (c : Packet) (s : State) : Host.Outcome State Fault Refusal :=
  runCommand linkCalibrateSpec c s

/-- Port n with EXT_LATENCY v. -/
def withLatency (n v : Nat) (s : State) : State := setPortCfg s n { portCfg s n with extLatency := v }

/-- A port of the plain differs from the slowest by more than 63 samples of 80 ns (R112). -/
def tooLate (s : State) (n : Nat) : Bool :=
  match plainOfPort s n with
  | some p => (portsOf s p).any (fun m => 5040 < plainLatency s p - receiveLatency s m)
  | none => false

def portLatencySetSpec : CmdSpec :=
  { plainSpec 0x0211 2 (fun _ => true) (fun c s =>
      let s1 := withLatency (pn c 0) (pn c 1) s
      let s2 := match plainOfPort s1 (pn c 0) with
        | some p => realign p s1
        | none => s1
      doneWith [w32 (alignOf s1 (pn c 0))] s2) with
    valid := fun c => within c 0 0 15 && fits c 1 16
    here := fun c s => !tooLate (withLatency (pn c 0) (pn c 1) s) (pn c 0)
    ready := fun c s => match plainOfPort s (pn c 0) with
      | some p => !draining s p
      | none => true }

/-- PORT_LATENCY_SET (R111, R112). -/
def execPortLatencySet (c : Packet) (s : State) : Host.Outcome State Fault Refusal :=
  runCommand portLatencySetSpec c s

/-- The five words of PORT_STATUS. -/
def portStatusWords (s : State) (n : Nat) : List Word :=
  [match plainOfPort s n with
    | some p => w32 p
    | none => 0xFFFFFFFF#32,
   w32 (portRun s n).lane, w32 (receiveLatency s n), w32 (portRun s n).crcErr, w32 (portRun s n).relinks]

/-- CRC-12 errors counted since the count was last taken, on a lane that is linked (log 16). -/
def countCrc (n : Nat) (s : State) : State :=
  let v := portRun s n
  let e := if v.lane = 0 then v.crcErr else saturate 32 (v.crcErr + growth s)
  setPort { s with free := s.free + 1 } n { v with crcErr := e }

def portStatusSpec : CmdSpec := plainSpec 0x0212 1 (fun c => within c 0 0 15) (fun c s =>
  doneWith (portStatusWords (countCrc (pn c 0) s) (pn c 0)) (countCrc (pn c 0) s))

/-- PORT_STATUS (R147). -/
def execPortStatus (c : Packet) (s : State) : Host.Outcome State Fault Refusal := runCommand portStatusSpec c s

def lanePolaritySetSpec : CmdSpec :=
  { plainSpec 0x0214 2 (fun c => within c 0 0 15 && fits c 1 2) (fun c s =>
      done (setPortCfg s (pn c 0) { portCfg s (pn c 0) with rxInv := bit (pw c 1) 0, txInv := bit (pw c 1) 1 })) with
    ready := fun c s => !inEnabledPlain s (pn c 0) }

/-- LANE_POLARITY_SET (R147). -/
def execLanePolaritySet (c : Packet) (s : State) : Host.Outcome State Fault Refusal :=
  runCommand lanePolaritySetSpec c s

/-! ### Beam tables (R118-R122, R214, R515) -/

/-- Plain transmit chains: the enabled transmit chains of the plain's ports (R208). -/
def txChainsOf (s : State) (p : Nat) : Nat := ((portsOf s p).map (fun n => (portCfg s n).txChains)).sum

/-- How many chains a table of plain p weights. -/
def tableChains (s : State) (p : Nat) (tx : Bool) : Nat := if tx then txChainsOf s p else chainsOf s p

/-- A plain's shadow bank. -/
def shadowBank (s : State) (p : Nat) (tx : Bool) : Tab (List Word) := if tx then (rxPlain s p).txShadow else (rxPlain s p).shadow

/-- A plain's active bank. -/
def activeBank (s : State) (p : Nat) (tx : Bool) : Tab (List Word) := if tx then (txCfg s p).txBank else (plainCfg s p).bank

/-- A plain's shadow bank replaced. -/
def setShadow (s : State) (p : Nat) (tx : Bool) (b : Tab (List Word)) : State :=
  if tx then setRxPlain s p { rxPlain s p with txShadow := b } else setRxPlain s p { rxPlain s p with shadow := b }

/-- The weights of n chains of a beam of a bank; unwritten ones are zero (R120). -/
def beamWeights (b : Tab (List Word)) (beam n : Nat) : List Word := (List.range n).map (fun i => (tabGet b beam []).getD i 0#32)

/-- The check value of a bank's first beams (R120). -/
def bankCrc (b : Tab (List Word)) (count n : Nat) : Word :=
  crc32c ((List.range count).flatMap (fun k => (beamWeights b k n).flatMap wordBytes))

/-- An activation waits for its slot on the plain's table. -/
def swapPending (s : State) (p : Nat) (tx : Bool) : Bool := s.rx.swaps.any (fun w => w.plain = p && w.tx = tx)

/-- The shadow bank still serves a transmission on air that began before the last swap (R214). -/
def shadowServes (s : State) (p : Nat) (tx : Bool) : Bool :=
  tx && s.radio.txs.any (fun x => x.plain = p && x.oldBank && x.state = .onAir)

def weightsWriteSpec (op : Nat) (tx : Bool) : CmdSpec :=
  { plainSpec op 0 (fun c => within c 0 0 3 && within c 1 0 63)
      (fun c s => done (setShadow s (pn c 0) tx (tabSet (shadowBank s (pn c 0) tx) (pn c 1) (pwords c 3 (pn c 2))))) with
    len := countLen 2 0 128 3 1, countAt := some 2
    ready := fun c s => plainReady c s && !swapPending s (pn c 0) tx && !shadowServes s (pn c 0) tx }

/-- BEAM_WEIGHTS_WRITE (R120). -/
def execBeamWeightsWrite (c : Packet) (s : State) : Host.Outcome State Fault Refusal :=
  runCommand (weightsWriteSpec 0x0230 false) c s

/-- TX_BEAM_WEIGHTS_WRITE (R214). -/
def execTxBeamWeightsWrite (c : Packet) (s : State) : Host.Outcome State Fault Refusal :=
  runCommand (weightsWriteSpec 0x0410 true) c s

/-- The ASN of words 4 and 5. -/
def asnWords (c : Packet) : Nat := pn c 4 + 2 ^ 32 * pn c 5

/-- The slot named has not passed and lies at most 65,536 slots ahead, or none is named (R120). -/
def asnAhead (s : State) (a : Nat) : Bool := a = 0 || (!asnReached (asnAt s (now s)) a && asnReached (asnAt s (now s) + 65536) a)

/-- An activation of n receive beams breaks R119 or the search budget (R121). -/
def activationRefused (s : State) (p n : Nat) : Bool :=
  let v := withSwaps s p (plainCfg s p)
  128 < beamsWith s p n
    || !(searchLoadWith { s with rx := { s.rx with swaps := s.rx.swaps.filter (fun w => !(w.plain = p && !w.tx)) } } p
          { v with beams := n, beamMask := maskAfterSwap v n } ≤ searchRoom (paddocksIn s))

/-- The check value's mismatch (R120). -/
def badTable (p : Nat) (s : State) : Answer := ends .invalidCheckValue (postEvent 0x0202 p 0xFFFF#32 (raise .beamTableErr s))

def tableActivateSpec (op : Nat) (tx : Bool) : CmdSpec :=
  { plainSpec op 6 (fun _ => true) (fun c s =>
      let p := pn c 0
      if !tx && activationRefused s p (pn c 1) then ends .refusedCapacity s
      else if bankCrc (shadowBank s p tx) (pn c 1) (tableChains s p tx) != pw c 3 then badTable p s
      else
        let a := if asnWords c = 0 then asnAt s (now s) + 1 else asnWords c
        let w : BeamSwap := { plain := p, tx := tx, count := pn c 1, shift := pn c 2, asn := a, queue := c.queue.val, tag := c.tag }
        runsOn { s with rx := { s.rx with swaps := s.rx.swaps ++ [w] } }) with
    valid := fun c => within c 0 0 3 && within c 1 1 64 && within c 2 0 7 && fits c 5 8
    here := fun c s => asnAhead s (asnWords c)
    ready := fun c s => plainReady c s && !swapPending s (pn c 0) tx }

/-- BEAM_TABLE_ACTIVATE (R120, R121). A second one while an activation of the plain waits for its slot, for which the spec
names no answer, gets ST_INVALID_STATE (DESIGN CHOICE, log 103). -/
def execBeamTableActivate (c : Packet) (s : State) : Host.Outcome State Fault Refusal :=
  runCommand (tableActivateSpec 0x0231 false) c s

/-- TX_BEAM_TABLE_ACTIVATE (R214). -/
def execTxBeamTableActivate (c : Packet) (s : State) : Host.Outcome State Fault Refusal :=
  runCommand (tableActivateSpec 0x0411 true) c s

/-- The receive banks swap (R120, R515): counts, masks and marks follow. -/
def swapRx (w : BeamSwap) (s : State) : State :=
  let v := plainCfg s w.plain
  let r := rxPlain s w.plain
  let s1 := changePlain w.plain { v with bank := r.shadow, beams := w.count, beamShift := w.shift, beamMask := maskAfterSwap v w.count } s
  let s2 := setRxPlain s1 w.plain { rxPlain s1 w.plain with shadow := v.bank, beamZero := 0#64 }
  refreshMode (markTracks 1 (fun t => t.plain = w.plain) s2)

/-- The transmit banks swap; a transmission on air keeps the bank it began with, which a swap makes the shadow or, after
another, the active one again (R214). -/
def swapTx (w : BeamSwap) (s : State) : State :=
  let v := txCfg s w.plain
  let r := rxPlain s w.plain
  let s1 := setTxCfg s w.plain { v with txBank := r.txShadow, txBeams := w.count, txShift := w.shift }
  let s2 := setRxPlain s1 w.plain { r with txShadow := v.txBank, txZero := 0#64 }
  let old (x : Tx) : Tx := if x.plain = w.plain && (x.state = .onAir) then { x with oldBank := !x.oldBank } else x
  { s2 with radio := { s2.radio with txs := s2.radio.txs.map old } }

/-- BEAM_TABLE_SWAP (R120): at the start of the slot named. -/
def execBeamTableSwap (p : Fin 4) (tx : Bool) (s : State) : Host.Outcome State Fault Refusal :=
  match s.rx.swaps.find? (fun w => w.plain = p.val && w.tx = tx) with
  | some w =>
    if w.asn != 0 && !asnReached (asnAt s (now s)) w.asn then .next s
    else
      let s1 := { s with rx := { s.rx with swaps := s.rx.swaps.erase w } }
      .next (complete w.queue w.tag .ok [w32 w.count] (if tx then swapTx w s1 else swapRx w s1))
  | none => .next s

/-- The saturated-sample count that a weights read returns: the beam's, or the plain's transmit counter (R118, R212). -/
def satCount (s : State) (p b : Nat) (tx : Bool) : Nat :=
  if tx then (txRun s p).counters.getD 8 0 else tabGet (rxPlain s p).sat b 0

def weightsReadSpec (op : Nat) (tx : Bool) : CmdSpec :=
  plainSpec op 3 (fun c => within c 0 0 3 && within c 1 0 63 && fits c 2 1) (fun c s =>
    let p := pn c 0
    let b := if pn c 2 = 1 then shadowBank s p tx else activeBank s p tx
    doneWith (beamWeights b (pn c 1) (tableChains s p tx) ++ [w32 (satCount s p (pn c 1) tx)]) s)

/-- BEAM_WEIGHTS_READ (R147). -/
def execBeamWeightsRead (c : Packet) (s : State) : Host.Outcome State Fault Refusal :=
  runCommand (weightsReadSpec 0x0232 false) c s

/-- TX_BEAM_WEIGHTS_READ (R214). -/
def execTxBeamWeightsRead (c : Packet) (s : State) : Host.Outcome State Fault Refusal :=
  runCommand (weightsReadSpec 0x0412 true) c s

/-- BEAM_PARITY_ERROR (R122): the beam's output is zero until the next activation, and its tracks are marked. -/
def execBeamParityError (p : Fin 4) (b : Fin 64) (tx : Bool) (s : State) : Host.Outcome State Fault Refusal :=
  let r := rxPlain s p.val
  let s1 := if tx then setRxPlain s p.val { r with txZero := setBit r.txZero b.val true }
    else markTracks 1 (fun t => t.plain = p.val && t.beam = b.val)
      (setRxPlain s p.val { r with beamZero := setBit r.beamZero b.val true })
  .next (postEvent 0x0202 p.val (w32 b.val) (raise .beamTableErr s1))

/-! ### Paddocks (R125, R142) -/

def paddockWithdrawSpec : CmdSpec :=
  plainSpec 0x0240 2 (fun c => fits c 1 1) (fun c s =>
    let s1 := { s with cfg := { s.cfg with rx := { s.cfg.rx with padOut := s.cfg.rx.padOut ||| pw c 0 } } }
    if searchRoom (paddocksIn s1) < searchLoadAll s then ends .refusedCapacity s
    else
      beginWithdrawal { queue := c.queue.val, tag := c.tag, plain := none, kind := .paddocks,
                        paddocks := pw c 0 &&& ~~~ s.cfg.rx.padOut,
                        tracks := trackNums s (fun t => bit (pw c 0) (t.num / 128)) } (bit (pw c 1) 0) (refreshMode s1))

/-- PADDOCK_WITHDRAW (R142). -/
def execPaddockWithdraw (c : Packet) (s : State) : Host.Outcome State Fault Refusal :=
  runCommand paddockWithdrawSpec c s

def paddockRestoreSpec : CmdSpec := plainSpec 0x0241 1 (fun _ => true) (fun c s =>
  let s1 := { s with cfg := { s.cfg with rx := { s.cfg.rx with padOut := s.cfg.rx.padOut &&& ~~~ pw c 0 } } }
  doneWith [w32 (maskCount (paddocksIn s1))] (refreshMode s1))

/-- PADDOCK_RESTORE (R141). Its result word gives the number of paddocks in service (DESIGN CHOICE, log 103). -/
def execPaddockRestore (c : Packet) (s : State) : Host.Outcome State Fault Refusal :=
  runCommand paddockRestoreSpec c s

/-- Free contexts in the paddocks in service. -/
def freeTracks (s : State) : Nat :=
  128 * maskCount (paddocksIn s) - (s.rx.tracks.filter (fun t => inService s (t.num / 128))).length

/-- The eight words of FABRIC_STATUS. -/
def fabricWords (s : State) : List Word :=
  [paddocksIn s, w32 (searchLoad s)] ++ (List.range 4).map (fun p => w32 (tracksOf s p))
    ++ [w32 (freeTracks s), w32 (decoderDepth s)]

def fabricStatusSpec : CmdSpec := plainSpec 0x0242 0 (fun _ => true) (fun _ s => doneWith (fabricWords s) s)

/-- FABRIC_STATUS (R147). -/
def execFabricStatus (c : Packet) (s : State) : Host.Outcome State Fault Refusal := runCommand fabricStatusSpec c s

def rxCountersReadSpec : CmdSpec := plainSpec 0x0250 2 (fun c => within c 0 0 3 && fits c 1 1) (fun c s =>
  let v := rxPlain s (pn c 0)
  let s1 := if pn c 1 = 1 then setRxPlain s (pn c 0) { v with counters := List.replicate 10 0 } else s
  doneWith (v.counters.map w32) s1)

/-- RX_COUNTERS_READ (R149). -/
def execRxCountersRead (c : Packet) (s : State) : Host.Outcome State Fault Refusal :=
  runCommand rxCountersReadSpec c s

/-! ### Receive lanes (R113) -/

/-- LANE_LOSS (R113). -/
def execLaneLoss (p : Fin 16) (s : State) : Host.Outcome State Fault Refusal :=
  match plainOfPort s p.val with
  | some q =>
    if !(plainCfg s q).enabled || (portRun s p.val).lane = 0 then .next s
    else
      let fresh := !bit (rxPlain s q).lossPorts p.val
      let s1 := setPort s p.val { portRun s p.val with lane := 0 }
      let s2 := setRxPlain s1 q { rxPlain s1 q with lossPorts := setBit (rxPlain s1 q).lossPorts p.val true }
      let s3 := if fresh then addMark q { kind := 1, ports := maskOf 16 [p.val], start := antennaNow s2 q } s2 else s2
      .next (markTracks 3 (fun t => t.plain = q) (postEvent 0x0201 p.val 0#32 (raise (.laneFault p) s3)))
  | none => .next s

/-- LANE_RELINK (R113): the chains return when the arrival point is the calibrated one; else the port waits. -/
def execLaneRelink (p : Fin 16) (arrival : Fin 128) (s : State) : Host.Outcome State Fault Refusal :=
  let v := portRun s p.val
  match plainOfPort s p.val with
  | some q =>
    if !(plainCfg s q).enabled || v.lane != 0 then .next s
    else
      let s1 := setPort s p.val { v with relinks := saturate 32 (v.relinks + 1), lane := 2 }
      if v.release.isNone then .next (settleCalWaits s1)
      else if v.arrival = arrival.val then .next (settleCalWaits (laneReturns q p.val s1))
      else .next (settleCalWaits (postEvent 0x0201 p.val 1#32 (raise (.sysrefFault (Fin.ofNat 4 q)) s1)))
  | none => .next s

/-- SYSREF_FAULT (R65). -/
def execSysrefFault (p : Fin 4) (s : State) : Host.Outcome State Fault Refusal := .next (raise (.sysrefFault p) s)

/-! ### Level reports (R115-R117) -/

/-- A level word: mean power in [15:0] and the clip count, saturating (R116). -/
def levelWord (x : BitVec 16 × Nat) : Word := pair16 (saturate 16 x.2) x.1.toNat

/-- The bytes of a level report (R116). -/
def levelBytes (p : Nat) (stop : BitVec 64) (l : List (BitVec 16 × Nat)) : List Byte :=
  ([pair16 0x0210 p, w32 l.length] ++ loHi stop ++ l.map levelWord).flatMap wordBytes

/-- The level report posted; a drop is counted (R116, R147). -/
def postLevels (p : Nat) (stop : BitVec 64) (l : List (BitVec 16 × Nat)) (s : State) : State :=
  let r := pushWords (plainCfg s p).repQ (queueWords (levelBytes p stop l)) s
  let s1 := raiseAll r.2 r.1
  if r.2.isEmpty then s1 else countRx 9 p s1

/-- A sample clips: its I or Q is -32,768 or +32,767 (R115). -/
def clips (w : Word) : Bool :=
  let part (x : BitVec 16) : Bool := x = 0x8000#16 || x = 0x7FFF#16
  part (w.setWidth 16) || part ((w >>> 16).setWidth 16)

/-- The sum of I squared and Q squared over samples. -/
def powerSum (l : List Word) : Nat :=
  (l.map (fun w => (weightPart w false).natAbs ^ 2 + (weightPart w true).natAbs ^ 2)).sum

/-- Mean power of samples in 0.1 dBFS: 10 log10 of the mean of I squared and Q squared over 32,768 squared, to the nearest,
limited to -1,000 ... +30 (R115; the rounding is the model's, log 111). -/
def meanPower (l : List Word) : Int :=
  let a := powerSum l ^ 200 * 10 ^ 1999
  let b := (l.length * 2 ^ 30) ^ 200
  (((List.range 1030).filter (fun j => l.length != 0 && decide (10 ^ (2 * j) * b ≤ a))).length : Int) - 1000

/-- The level of a chain over a window: its mean power and its clip count (R115). -/
def chainLevel (l : List Word) : BitVec 16 × Nat := (BitVec.ofInt 16 (meanPower l), (l.filter clips).length)

/-- CLIPPED on the tracks of a plain that were in progress in the window that began at t: those in progress still, and those
whose last sample came later than that (R117, R145). -/
def markClipped (p : Nat) (t : BitVec 64) (s : State) : State :=
  let f (u : Track) : Track := if u.plain = p && u.job.isNone && u.combined = 0 && notBefore u.laneT0 t then markTrack 7 u else u
  let s1 := markTracks 7 (fun u => u.plain = p) s
  { s1 with rx := { s1.rx with
      tracks := s1.rx.tracks.map (fun u => if u.stage = 3 then f u else u)
      decq := s1.rx.decq.map f
      linkq := s1.rx.linkq.map (fun i => if i.member.isNone then { i with track := f i.track } else i) } }

/-- LEVEL_REPORT (R115-R117): at the end of a 100 ms window of the selected time base, from the samples of each plain chain
in it, I in [15:0] and Q in [31:16]. No window is judged while clock loss stops the samples (DESIGN CHOICE, log 103). -/
def execLevelReport (p : Fin 4) (chains : List (List Word)) (s : State) : Host.Outcome State Fault Refusal :=
  let w := (now s).toNat / 100000000
  if !(plainCfg s p.val).enabled || s.dev.clkLost || w ≤ (rxPlain s p.val).lastWindow then .next s
  else
    let l := (List.range (chainsOf s p.val)).map (fun i => chainLevel (chains.getD i []))
    let s1 := setRxPlain s p.val { rxPlain s p.val with lastWindow := w }
    let s2 := if (plainCfg s p.val).levels then postLevels p.val (BitVec.ofNat 64 (100000000 * w)) l s1 else s1
    if l.any (fun x => (plainCfg s p.val).clipLimit < x.2) then
      .next (markClipped p.val (BitVec.ofNat 64 (100000000 * (w - 1))) (raise (.clip p) s2))
    else .next s2

end Sys2Proof.Machine
end

