-- ==== Sys2Proof/Machine/Schedule.lean ====
section
/-! DEFINITION. The slot schedule: slots, slotframes, hop sequences and cells (R255-R260), rendezvous (R264-R268), selection
(R285), lifetimes (R287), and the schedule commands (R293). -/

namespace Sys2Proof.Machine

/-! ### Changes in force (R259) -/

/-- The state with the schedule settings replaced. -/
def setSched (s : State) (v : SchedCfg) : State := { s with cfg := { s.cfg with sched := v } }

/-- One change made. -/
def makeChange (c : Change) (v : SchedCfg) : SchedCfg :=
  match c with
  | .frame f len => { v with frames := tabSet v.frames f len }
  | .hop p seq => { v with hops := tabSet v.hops p seq }
  | .cell i w0 w1 => { v with cells := tabSet v.cells i (w0, w1) }

/-- The changes due by a slot made, in the order in which they were asked for. -/
def applyChanges (asn : Nat) (s : State) : State :=
  let due (c : SchedChange) : Bool := c.asn = 0 || asnReached asn c.asn
  let s1 := setSched s ((s.sched.pend.filter due).foldl (fun v c => makeChange c.what v) s.cfg.sched)
  { s1 with sched := { s1.sched with pend := s1.sched.pend.filter (fun c => !due c) } }

/-- A change waits for its slot. -/
def addChange (asn : Nat) (c : Change) (s : State) : State :=
  { s with sched := { s.sched with pend := s.sched.pend ++ [{ asn := asn, what := c }] } }

/-! ### Commands on the schedule -/

/-- Length of a slot with parameter k in us (R255). -/
def slotUs (k : Nat) : Nat := 1024 * 2 ^ k

/-- Every slotframe is out of use. -/
def framesEmpty (s : State) : Bool := s.cfg.sched.frames.all (fun e => e.2 = 0)

/-- A schedule command that a minority half refuses (R390, R293). -/
def schedSpec (spec : CmdSpec) : CmdSpec := { spec with perm := fun _ s => minorityCheck s }

/-- The slot clock read anew: after SCHEDULE_SET the ASN counts from the new epoch. -/
def rebaseAsn (s : State) : State :=
  let a := asnAt s (now s)
  (List.range 4).foldl (fun t p => setPlainSched t p { plainSched t p with selected := a })
    { s with sched := { s.sched with asn := a } }

def scheduleSetSpec : CmdSpec := schedSpec
  { plainSpec 0x0600 4 (fun c => within c 2 0 6 && within c 3 0 65535 && pn c 3 < slotUs (pn c 2)) (fun c s =>
      done (rebaseAsn (setSched s { s.cfg.sched with netEpoch := p64 c 0, k := pn c 2, txOffset := pn c 3 }))) with
    ready := fun _ s => framesEmpty s }

/-- SCHEDULE_SET (R255, R256, R259). -/
def execScheduleSet (c : Packet) (s : State) : Host.Outcome State Fault Refusal := runCommand scheduleSetSpec c s

def scheduleStatusSpec : CmdSpec := plainSpec 0x0601 0 (fun _ => true) (fun _ s =>
  doneWith (loHi (BitVec.ofNat 64 s.sched.asn) ++ [w32 s.cfg.sched.k, w32 s.cfg.sched.txOffset, w32 s.time.sel]) s)

/-- SCHEDULE_STATUS (R293). -/
def execScheduleStatus (c : Packet) (s : State) : Host.Outcome State Fault Refusal :=
  runCommand scheduleStatusSpec c s

/-- The ASN of parameter words 2 and 3. -/
def namedAsn (c : Packet) : Nat := pn c 2 + 2 ^ 32 * pn c 3

/-- The slot at which a change named by words 2 and 3 takes effect (R259). -/
def changeAsn (c : Packet) (s : State) : Nat := if namedAsn c = 0 then asnAt s (now s) + 1 else namedAsn c

def slotframeSetSpec : CmdSpec := schedSpec
  { plainSpec 0x0602 4 (fun _ => true) (fun c s => done (addChange (changeAsn c s) (.frame (pn c 0) (pn c 1)) s)) with
    valid := fun c => within c 0 0 15 && within c 1 0 65535
    here := fun c s => asnAhead s (namedAsn c) }

/-- SLOTFRAME_SET (R257, R259). -/
def execSlotframeSet (c : Packet) (s : State) : Host.Outcome State Fault Refusal := runCommand slotframeSetSpec c s

def hopseqSetSpec : CmdSpec := schedSpec
  { plainSpec 0x0603 0 (fun _ => true) (fun c s => done (addChange (changeAsn c s) (.hop (pn c 0) (pwords c 4 (pn c 1))) s)) with
    len := countLen 1 1 256 4 1, countAt := some 1
    valid := fun c => within c 0 0 3
    here := fun c s => asnAhead s (namedAsn c) }

/-- HOPSEQ_SET (R258, R259). -/
def execHopseqSet (c : Packet) (s : State) : Host.Outcome State Fault Refusal := runCommand hopseqSetSpec c s

/-- A cell-table entry that R260 allows; an unused entry may hold anything in its fields. -/
def cellOk (w0 w1 : Word) : Bool :=
  bits w1 31 25 = 0 && bits w1 11 10 != 3 && cellOffset w0 ≤ 65534 && (cellKind w0 = 0 || (5 ≤ bits w1 7 4 && bits w1 7 4 ≤ 12))

/-- The first slot whose nominal instant lies more than 2.0 ms after now (R259). -/
def cellAsn (s : State) : Nat :=
  let a := asnAt s (now s)
  a + ((List.range 8).find? (fun i => !notBefore (after s 2000000) (nominal s (a + i)))).getD 8

def cellWriteSpec : CmdSpec := schedSpec
  (plainSpec 0x0604 3 (fun c => within c 0 0 4095 && cellOk (pw c 1) (pw c 2)) (fun c s =>
    done (applyChanges (asnAt s (now s)) (addChange (cellAsn s) (.cell (pn c 0) (pw c 1) (pw c 2)) s))))

/-- CELL_WRITE (R259, R260). -/
def execCellWrite (c : Packet) (s : State) : Host.Outcome State Fault Refusal := runCommand cellWriteSpec c s

/-- A cell-table entry in force (R260). -/
def cellAt (s : State) (i : Nat) : Word × Word := tabGet s.cfg.sched.cells i (0#32, 0#32)

def cellReadSpec : CmdSpec := plainSpec 0x0605 1 (fun c => within c 0 0 4095) (fun c s =>
  doneWith [(cellAt s (pn c 0)).1, (cellAt s (pn c 0)).2] s)

/-- CELL_READ (R293). -/
def execCellRead (c : Packet) (s : State) : Host.Outcome State Fault Refusal := runCommand cellReadSpec c s

def guardClassSetSpec : CmdSpec := plainSpec 0x0606 4 (fun c => within c 0 0 7 && within c 1 1 10000 && pn c 2 < pn c 3) (fun c s =>
  let g : Guard := { b := pn c 1, f := pn c 2, g := pn c 3 }
  done (setSched s { s.cfg.sched with guards := tabSet s.cfg.sched.guards (pn c 0) g }))

/-- GUARD_CLASS_SET (R272). -/
def execGuardClassSet (c : Packet) (s : State) : Host.Outcome State Fault Refusal := runCommand guardClassSetSpec c s

/-! ### Rendezvous commands -/

/-- A command on a node's record that needs this device as its home (R265, R316). -/
def homeRec (s : State) (net : Nat) (addr : Word) : Option (Nat × NodeRec) :=
  if isHome s net addr then nodeEntry s net addr else none

/-- The (slotframe, slot offset) pairs of a block's valid cells, each once (R265). -/
def indexKeys (l : List Word) : List Nat := ((l.filter (fun w => bit w 31)).map (fun w => bits w 19 0)).eraseDups

/-- A block would exceed the rendezvous index: 4,194,304 entries in all, 4,096 for one (slotframe, slot offset) (R265). -/
def indexFull (s : State) (i : Nat) (l : List Word) : Bool :=
  let others := s.fwd.nodes.filter (fun e => e.1 != i)
  4194304 < (others.map (fun e => (indexKeys e.2.cells).length)).sum + (indexKeys l).length
    || (indexKeys l).any (fun k => 4096 ≤ (others.filter (fun e => (indexKeys e.2.cells).contains k)).length)

/-- A rendezvous block that R264 allows: reserved bits zero, offsets in range, and radio parameters that exist once a cell is
valid. -/
def blockOk (c : Packet) : Bool :=
  (List.range 4).all (fun i => !bit (pw c (2 + i)) 30 && cellOffset (pw c (2 + i)) ≤ 65534)
    && (!(List.range 4).any (fun i => bit (pw c (2 + i)) 31) || (5 ≤ pf c 6 3 0 && pf c 6 3 0 ≤ 12 && pf c 6 7 6 != 3))

def rendezvousSetSpec : CmdSpec := plainSpec 0x0610 7 (fun c => within c 0 0 15 && blockOk c) (fun c s =>
  match homeRec s (pn c 0) (pw c 1) with
  | none => ends .refusedNodeUnknown s
  | some (i, r) =>
    if indexFull s i (pwords c 2 4) then ends .refusedTableFull s
    else done (setNode i { r with cells := pwords c 2 4, radio := pw c 6 } s))

/-- RENDEZVOUS_SET (R264, R265). -/
def execRendezvousSet (c : Packet) (s : State) : Host.Outcome State Fault Refusal :=
  runCommand rendezvousSetSpec c s

/-- The nominal instant of a node's next live cell. -/
def nextCell (s : State) (r : NodeRec) : Option (BitVec 64) :=
  let a := asnAt s (now s)
  let from' := if !reached s (nominal s a) then a else a + 1
  ((nodeCells r).filterMap (fun e => nextLive s e.2 from')).foldl (fun m n => match m with
    | some k => some (min k n)
    | none => some n) none |>.map (nominal s)

/-- G for the node's next live cell in us, rounded; a free value when no cell of the node is live (R293, log 50). -/
def nextGuard (s : State) (r : NodeRec) : Word :=
  match nextCell s r with
  | some t => w32 ((2 * guardNeed s r t + 100000000000) / 200000000000)
  | none => Config.freeWord s.free

def rendezvousReadSpec : CmdSpec := plainSpec 0x0611 2 (fun c => within c 0 0 15) (fun c s =>
  match homeRec s (pn c 0) (pw c 1) with
  | none => ends .refusedNodeUnknown s
  | some (_, r) =>
    doneWith (rendezvousWords s r ++ [ofInt (clockError r (now s)), nextGuard s r]) { s with free := s.free + 1 })

/-- RENDEZVOUS_READ (R293). -/
def execRendezvousRead (c : Packet) (s : State) : Host.Outcome State Fault Refusal :=
  runCommand rendezvousReadSpec c s

/-! ### Items that end without a cell -/

/-- A waiting item refused or discarded, with its record. -/
def endWaiting (st : Status) (d : Downlink) (s : State) : State :=
  let x := waitingTx s d
  finalRecord x st 3 (dropWaiting d.seq s)

/-- Items of a node that wait and are not out for a transmission. -/
def purgeable (s : State) (net : Nat) (addr : Word) : List Downlink := (waitingFor s net addr).filter (fun d => !d.flying)

def downlinkPurgeSpec : CmdSpec := plainSpec 0x0612 2 (fun c => within c 0 0 15) (fun c s =>
  match homeRec s (pn c 0) (pw c 1) with
  | none => ends .refusedNodeUnknown s
  | some _ =>
    let l := purgeable s (pn c 0) (pw c 1)
    doneWith [w32 l.length] (l.foldl (fun t d => endWaiting .abortedByHost d t) s))

/-- DOWNLINK_PURGE (R293). -/
def execDownlinkPurge (c : Packet) (s : State) : Host.Outcome State Fault Refusal :=
  runCommand downlinkPurgeSpec c s

/-- The refusal of a downlink whose lifetime ends, after its last deferral (R287); one never judged waited for its
rendezvous (R290). -/
def lifetimeRefusal : Option Status → Status
  | some st => refusalOf st
  | none => .refusedCapacity

/-- DL_LIFETIME_EXPIRY (R287). -/
def execDlLifetimeExpiry (seq : Nat) (s : State) : Host.Outcome State Fault Refusal :=
  match s.sched.wait.find? (fun d => d.seq = seq) with
  | some d =>
    if d.flying || !reached s (d.enq + BitVec.ofNat 64 (1000000000 * lifetimeOf s d.tenant d.service)) then .next s
    else .next (countSched 10 (cellPlain (placeOf s d)) (endWaiting (lifetimeRefusal d.status) d s))
  | none => .next s

/-! ### Slot boundary -/

/-- Cells of the table and of the records whose offset is not below their slotframe's length and which would stand at this
slot, counted for their plain (R259). -/
def countCutOff (asn : Nat) (s : State) : State :=
  let table := (s.cfg.sched.cells.filter (fun e => cellKind e.2.1 != 0)).map (fun e => e.2.1)
  let nodes := s.fwd.nodes.flatMap (fun e => (nodeCells e.2).map (·.2))
  ((table ++ nodes).filter (fun w => cutOff s w asn)).foldl (fun t w => countSched 11 (cellPlain w) t) s

/-- The slot digest of the slot that ends, sent to the partner (R403): the CRC-32C of its items, class by class in the order of
the rule, and their number; ST at the slot's start closes the list (log 38). -/
def digestOf (s : State) (asn : Nat) : BitVec 64 :=
  let ws := [1, 2, 3, 4].flatMap (fun k => (s.tan.items.filter (fun e => e.1 = k)).flatMap (·.2)) ++ loHi (slotStart s asn)
  wide (crc32c (ws.flatMap wordBytes)) (w32 (s.tan.items.length + 1))

/-- The partner's digest of the last slot compared has not come: one more is missing (R404). -/
def digestDue (s : State) : State :=
  match s.tan.digest with
  | some (a, _) =>
    if s.tan.step = 1 && s.tan.lastAsn != w32 a then countTan 1 { s with tan := { s.tan with missing := s.tan.missing + 1 } } else s
  | none => s

/-- The digest of the slot just ended formed and sent over the tandem link. -/
def formDigest (asn : Nat) (s : State) : State :=
  if s.tan.joined then
    let d := digestOf s asn
    let t := digestDue s
    sendHerd (.digest asn d) { t with tan := { t.tan with digest := some (asn, d), items := [] } }
  else s

/-! ### Candidates (R262, R263, R266, R268) -/

/-- A candidate with its place in the order of R16: enqueue sequence, queue number, and a number that tells apart what has
neither; and the broadcast cell it would use. -/
structure Cand where
  tx : Tx
  seq : Nat := 0
  queue : Nat := 0
  cell : Option Nat := none

/-- A transmission in a cell of the table. -/
def cellTx (s : State) (asn : Nat) (e : Nat × Word × Word) : Tx :=
  let p := cellPlain e.2.1
  let n := bits e.2.2 3 0
  { plain := p, sf := bits e.2.2 7 4, bw := bits e.2.2 9 8, cr := bits e.2.2 11 10, beam := bits e.2.2 17 12, level := bits e.2.2 23 18,
    net := n, dst := everyNode, tenant := (netCfg s n).tenant, service := 7, t0 := nominal s asn,
    carrier := hopOf s p asn (cellChoff e.2.1) }

/-- The payload of a beacon (R262). -/
def beaconPayload (s : State) (p n asn : Nat) : List Byte :=
  leBytes 5 asn ++ [BitVec.ofNat 8 s.cfg.sched.k, BitVec.ofNat 8 ((hopSeq s p).length - 1)] ++ leBytes 2 s.cfg.sched.txOffset
    ++ [BitVec.ofNat 8 (flag (s.link.images.any (fun i => i.net = n && (i.state = 1 || i.state = 2))) + 2 * flag (decide (s.time.sel = 4)))]

/-- The beacons of a plain at a slot (R262). -/
def beacons (s : State) (p asn : Nat) : List Cand :=
  (liveCells s 2 p asn).map (fun e =>
    let x := cellTx s asn e
    let y : Tx := { x with kind := 3, len := 35, payload := beaconPayload s p x.net asn }
    { tx := classify s false (fillTx s (txCfg s p).pilot y), queue := e.1 })

/-- The payload of an image block (R249). -/
def blockPayload (s : State) (i : Image) (b : Nat) : List Byte :=
  let l := stagingRead s (i.offset + 192 * b) (min 192 (i.len - 192 * b))
  let d := l ++ List.replicate (192 - l.length) 0#8
  leBytes 2 i.id ++ leBytes 2 b ++ leBytes 2 (imageBlocks i) ++ d ++ wordBytes (crc32c d)

/-- The next block of each image of a network that is being sent, as an item (R250, R263). -/
def blockItems (s : State) (n : Nat) : List Downlink :=
  (s.link.images.filter (fun i => i.net = n && i.state = 1)).filterMap (fun i => match i.todo with
    | [] => none
    | b :: _ => some { seq := i.seq, queue := i.id, net := n, addr := everyNode, tenant := (netCfg s n).tenant, service := 7,
                       payload := leBytes 2 b, kind := 5 })

/-- What may go out in a broadcast cell of a network (R263). -/
def broadcastItems (s : State) (n : Nat) : List Downlink :=
  s.sched.wait.filter (fun d => (d.kind = 4 || d.kind = 6) && d.net = n && !d.flying) ++ blockItems s n

/-- The candidate that an item forms in a broadcast cell. -/
def broadcastCand (s : State) (asn : Nat) (e : Nat × Word × Word) (d : Downlink) : Cand :=
  let x := cellTx s asn e
  let len := if d.kind = 4 then deviceLen d.payload.length else if d.kind = 5 then 227 else d.payload.length
  let load := match imageAt s d.queue with
    | some i => if d.kind = 5 then blockPayload s i (blockOf d) else d.payload
    | none => d.payload
  let y : Tx := { x with kind := d.kind, len := len, dst := d.addr, tenant := d.tenant, service := d.service, payload := load,
                         frame := if d.kind = 6 then d.payload else [], dl := some d }
  { tx := classify s false (fillTx s (txCfg s x.plain).pilot y), seq := d.seq, queue := d.queue, cell := some e.1 }

/-- The candidates of a plain's broadcast cells at a slot. -/
def broadcasts (s : State) (p asn : Nat) : List Cand :=
  (liveCells s 3 p asn).flatMap (fun e => (broadcastItems s (bits e.2.2 3 0)).map (broadcastCand s asn e))

/-- The member that transmits for a node; none when the path that TX_LEARNED names is not valid (R264, R313). -/
def txMember (r : NodeRec) : Option Nat :=
  if bit r.radio 31 then (if r.pathValid then some r.pathHid else none) else some (bits r.radio 30 25)

/-- A transmission to a node in one of its cells. -/
def nodeTx (r : NodeRec) (t0 : BitVec 64) (p : Nat) (carrier radio : Word) : Tx :=
  { plain := p, sf := bits radio 3 0, bw := bits radio 5 4, cr := bits radio 7 6, beam := bits radio 13 8, level := bits radio 20 15,
    net := r.net, dst := r.addr, tenant := r.tenant, t0 := t0, carrier := carrier, tcorr := clockError r t0 }

/-- The head downlink of a node that is not out for a transmission (R266). -/
def headOf (s : State) (r : NodeRec) : Option Downlink := (purgeable s r.net r.addr).head?

/-- The frame that a node's rendezvous asks for: its late acknowledgements, else its head downlink (R266). -/
def rendezvousTx (s : State) (r : NodeRec) (w : Word) (asn : Nat) : Option (Tx × Bool) :=
  let x := nodeTx r (nominal s asn) (cellPlain w) (hopOf s (cellPlain w) asn (cellChoff w)) r.radio
  let pilot := bit r.radio 14
  if !r.late.isEmpty then
    let y : Tx := { x with kind := 2, ackOf := r.late, payload := ackPayload r.late, len := deviceLen (1 + 4 * r.late.length) }
    some (fillTx s pilot y, false)
  else (headOf s r).map (fun d =>
    let y : Tx := { x with kind := 0, service := d.service, tenant := d.tenant, payload := d.payload,
                           len := deviceLen d.payload.length, dl := some d }
    (fillTx s pilot y, d.announced))

/-- The candidate of a node at a slot on a plain. -/
def rendezvousCand (s : State) (i : Nat) (r : NodeRec) (w : Word) (asn : Nat) : Option Cand :=
  (rendezvousTx s r w asn).map (fun e =>
    let q := match e.1.dl with
      | some d => (d.seq, d.queue)
      | none => (0, 4096 + i)
    { tx := classify s e.2 e.1, seq := q.1, queue := q.2 })

/-- The nodes with a live rendezvous cell on a plain at a slot, with that cell; nodes whose index entries are lost wait for
their rebuild (R23). -/
def meetings (s : State) (p asn : Nat) : List (Nat × NodeRec × Word) :=
  s.fwd.nodes.filterMap (fun e =>
    if s.dev.idxRebuild.contains e.1 then none
    else ((nodeCells e.2).find? (fun c => cellPlain c.2 = p && cellLive s c.2 asn)).map (fun c => (e.1, e.2, c.2)))

/-- Something waits for the node. -/
def needsFrame (s : State) (r : NodeRec) : Bool := !r.late.isEmpty || (headOf s r).isSome

/-- The waiting downlinks of a node carry a status (R273). -/
def statusAll (r : NodeRec) (st : Status) (s : State) : State :=
  (purgeable s r.net r.addr).foldl (fun t d => modWaiting d.seq (fun e => { e with status := some st }) t) s

/-- The node's downlinks stay waiting with a status; the head has its deferral record (R273, R292). -/
def deferNode (r : NodeRec) (w : Word) (asn : Nat) (st : Status) (s : State) : State :=
  match headOf s r, rendezvousTx s { r with late := [] } w asn with
  | some _, some (x, a) => statusAll r st (outcome (classify s a x) st 3 0 s)
  | _, _ => s

/-- A rendezvous that the guard rule refuses (R273). -/
def guardRefused (r : NodeRec) (w : Word) (asn : Nat) (s : State) : State :=
  deferNode r w asn .deferredRendezvous (raise .guardRefusal (countSched 9 (cellPlain w) s))

/-- What is settled of a plain's rendezvous before its candidates are judged: guard refusals, and nodes whose path is not
known (R273, R313). -/
def settleMeetings (p asn : Nat) (s : State) : State :=
  (meetings s p asn).foldl (fun t m =>
    let r := m.2.1
    if !needsFrame t r || (match txMember r with
        | some h => h != ownHid t
        | none => false) then t
    else if guardRefuses t r (nominal t asn) then guardRefused r m.2.2 asn t
    else if (txMember r).isNone then deferNode r m.2.2 asn .deferredCapacity t
    else t) s

/-- The candidates of this device's own nodes (R266). -/
def rendezvousCands (s : State) (p asn : Nat) : List Cand :=
  (meetings s p asn).filterMap (fun m =>
    let r := m.2.1
    if txMember r = some (ownHid s) && !guardRefuses s r (nominal s asn) then rendezvousCand s m.1 r m.2.2 asn else none)

/-- The candidates that homes have passed for a plain and instant (R268). -/
def passedCands (s : State) (p : Nat) (t0 : BitVec 64) : List Cand :=
  (s.sched.passed.filter (fun c => c.plain = p && c.t0 = t0)).map (fun c =>
    { tx := classify s c.announced (fillTx s c.tx.pilot { c.tx with pending := c.tx.pending }), seq := c.tx.id, queue := 64 })

/-- All candidates of a selection. -/
def allCands (s : State) (p asn : Nat) : List Cand :=
  beacons s p asn ++ broadcasts s p asn ++ rendezvousCands s p asn ++ passedCands s p (nominal s asn)

/-! ### Selection (R285) -/

/-- The order of R16 within a selection: rank, enqueue sequence, queue number. -/
def candBefore (a b : Cand) : Bool := keyBefore [a.tx.rank, a.seq, a.queue] [b.tx.rank, b.seq, b.queue]

/-- A candidate put in its place. -/
def insertCand (c : Cand) : List Cand → List Cand
  | [] => [c]
  | d :: r => if candBefore c d then c :: d :: r else d :: insertCand c r

/-- Candidates in the order in which they are judged. -/
def inOrder (l : List Cand) : List Cand := l.foldl (fun o c => insertCand c o) []

/-- What a selection has done so far: the state, the broadcast cells used, and each admission with the state it left. -/
structure Selection where
  state : State
  cells : List Nat := []
  admitted : List (Tx × State) := []

/-- The item of a candidate still waits. -/
def stillWaits (s : State) (x : Tx) : Bool :=
  match x.dl with
  | none => true
  | some d =>
    if x.home.isSome then true
    else if d.kind = 5 then match imageAt s d.queue with
      | some i => i.todo.contains (blockOf d)
      | none => false
    else s.sched.wait.any (fun e => e.seq = d.seq && !e.flying)

/-- The late counters that an acknowledgement frame carries leave the record (R247). -/
def takeLate (x : Tx) (s : State) : State :=
  if x.kind = 2 && x.home.isNone then modNode x.net x.dst (fun r => { r with late := r.late.filter (fun c => !x.ackOf.contains c) }) s
  else s

/-- The rank that a failing check counts against (R288). -/
def rankOfStatus : Status → Nat
  | .deferredDuty => 1
  | .refusedDuty => 1
  | _ => 0

/-- The admission that made a candidate fail: the first after which it does. -/
def causeOf (x : Tx) (l : List (Tx × State)) : Option Tx := (l.find? (fun e => (judge e.2 x).isSome)).map (·.1)

/-- A candidate that fails: PRECEDENCE when it would have been admitted alone (R285). -/
def failCand (start : State) (x : Tx) (st : Status) (v : Selection) : State :=
  let s := takeLate x v.state
  if (judge start x).isNone then
    match causeOf x v.admitted with
    | some y => fail x .deferredPrecedence y.rank (some y.tenant) s
    | none => fail x .deferredPrecedence 0 none s
  else fail x st (rankOfStatus st) none s

/-- One candidate judged (R285); a broadcast cell carries one frame (R263). -/
def judgeCand (start : State) (v : Selection) (c : Cand) : Selection :=
  if !stillWaits v.state c.tx || (match c.cell with
      | some k => v.cells.contains k
      | none => false) then v
  else
    let s := postPassed c.tx v.state
    match judge s c.tx with
    | some st => { v with state := failCand start c.tx st { v with state := s } }
    | none =>
      let t := takeOn c.tx (takeLate c.tx s)
      { state := t, cells := v.cells ++ c.cell.toList, admitted := v.admitted ++ [(c.tx, t)] }

/-- The selection of a plain's candidates. -/
def select (p asn : Nat) (s : State) : Selection :=
  let t := settleMeetings p asn s
  let l := inOrder (allCands t p asn)
  let u := { t with sched := { t.sched with passed := t.sched.passed.filter (fun c => !(c.plain = p && c.t0 = nominal t asn)) } }
  l.foldl (judgeCand u) { state := u }

/-- A request raised for a selection that admits nothing falls at once (R223). -/
def dropRequest (p : Nat) (none' : Bool) (s : State) : State :=
  if none' && !s.radio.txs.any (fun x => x.plain = p && reached s (before x.t0 (1000 * x.coxLead))) then
    setTxRun s p { txRun s p with coxReq := false }
  else s

/-- CELL_SELECTION (R285): once for each plain and slot, from t0 - 2.0 ms on, with the schedule of that slot. -/
def execCellSelection (p : Fin 4) (asn : BitVec 40) (s : State) : Host.Outcome State Fault Refusal :=
  let a := asn.toNat
  let t0 := nominal s a
  if !reached s (before t0 2000000) || reached s t0 || a < (plainSched s p.val).selected || !(plainCfg s p.val).enabled
      || !datapathRuns s then .next s
  else
    let view := applyChanges a (setPlainSched s p.val { plainSched s p.val with selected := a + 1 })
    let v := select p.val a view
    let s1 := setSched v.state s.cfg.sched
    .next (dropRequest p.val v.admitted.isEmpty { s1 with sched := { s1.sched with pend := s.sched.pend } })

/-! ### Candidates of other members (R268) -/

/-- A candidate for the member that transmits. -/
def candOf (s : State) (r : NodeRec) (x : Tx) (announced pending : Bool) : CandIn :=
  { home := ⟨s.dev.hid.toNat, s.dev.hid.isLt⟩, net := Fin.ofNat 16 r.net, dst := r.addr, plain := Fin.ofNat 4 x.plain, t0 := x.t0,
    carrier := x.carrier, radio := r.radio, late := decide (x.kind = 2), announced := announced, pending := pending,
    tenant := BitVec.ofNat 8 x.tenant, service := Fin.ofNat 8 x.service, tcorr := BitVec.ofInt 16 x.tcorr, payload := x.payload }

/-- A node's candidate passed to a member that can be reached; PENDING is settled at the home (R267, R268). -/
def passTo (h i : Nat) (r : NodeRec) (x : Tx) (announced : Bool) (s : State) : State :=
  let s1 := match x.dl with
    | some d => modWaiting d.seq (fun e => { e with flying := true }) s
    | none => s
  let a := announce x s1
  let s2 := originate (.candidate h (candOf a.2 r x announced a.1)) a.2
  { s2 with sched := { s2.sched with sentTo := s2.sched.sentTo ++ [(i, x.t0, x.ackOf.length)] } }

/-- The rendezvous of a node's cell settled by its home for another member. -/
def passRendezvous (i h asn : Nat) (r : NodeRec) (w : Word) (s : State) : State :=
  if guardRefuses s r (nominal s asn) then guardRefused r w asn s
  else match rendezvousTx s r w asn with
    | none => s
    | some (x, a) => if reachable s h then passTo h i r x a s else deferNode r w asn .deferredCapacity s

/-- RENDEZVOUS_CANDIDATE_PASS (R268): at t0 - 3.0 ms, once for a node and instant. -/
def execRendezvousCandidatePass (index : Nat) (cell : Fin 4) (asn : BitVec 40) (s : State) : Host.Outcome State Fault Refusal :=
  let a := asn.toNat
  let v := applyChanges a s
  let t0 := nominal s a
  match tabFind s.fwd.nodes index with
  | none => .next s
  | some r =>
    let w := r.cells.getD cell.val 0#32
    let due := reached s (before t0 3000000) && !reached s (before t0 2000000) && bit w 31 && cellLive v w a
      && needsFrame s r && !s.sched.sentTo.any (fun e => e.1 = index && e.2.1 = t0) && !s.dev.idxRebuild.contains index
    match txMember r with
    | some h =>
      if due && h != ownHid s then
        let t := passRendezvous index h a r w v
        .next { setSched t s.cfg.sched with sched := { t.sched with pend := s.sched.pend } }
      else .next s
    | none => .next s

/-- The transmission of a passed candidate. -/
def passedTx (s : State) (x : CandIn) : Tx :=
  let r : NodeRec := { net := x.net.val, addr := x.dst }
  let y := nodeTx r x.t0 x.plain.val x.carrier x.radio
  let z : Tx := { y with kind := if x.late then 2 else 0, tenant := x.tenant.toNat, service := x.service.val, payload := x.payload,
                         len := deviceLen x.payload.length, tcorr := x.tcorr.toInt, home := some x.home.val, pending := x.pending,
                         id := s.sched.nextSeq }
  fillTx s (bit x.radio 14) z

/-- RENDEZVOUS_CANDIDATE (R268): kept for its selection; one that comes after t0 - 2.0 ms is deferred. -/
def execRendezvousCandidate (x : CandIn) (s0 : State) : Host.Outcome State Fault Refusal :=
  let s := mirrorHerd (.candidate x) s0
  let y := passedTx s x
  if past s (before x.t0 2000000) then .next (tellHome y false .deferredCapacity s)
  else
    let c : Candidate := { plain := x.plain.val, t0 := x.t0, tx := y, announced := x.announced, late := x.late }
    .next { s with sched := { s.sched with passed := s.sched.passed ++ [c], nextSeq := s.sched.nextSeq + 1 } }

/-- Every status (R36). -/
def allStatuses : List Status :=
  [.ok, .deferredDuty, .deferredShaper, .deferredPrecedence, .deferredRendezvous, .deferredCapacity, .deferredCoexPending,
   .refusedDuty, .refusedShaper, .refusedPrecedence, .refusedCapacity, .refusedCoex, .refusedBlanked, .refusedNoRoute,
   .refusedNodeUnknown, .refusedTableFull, .invalidParameter, .invalidState, .failedHardware, .failedRootKey,
   .notPermittedTamperLatched, .notPermittedNoReins]

/-- The status of a code. -/
def statusOf (code : BitVec 16) : Status := (allStatuses.find? (fun st => statusCode st = code)).getD .refusedCapacity

/-- The home's item after the outcome of its candidate: gone, or waiting again (R268, R287). -/
def settleItem (x : OutcomeIn) (s : State) : State :=
  match (waitingFor s x.net.val x.dst).find? (fun d => d.flying) with
  | none => s
  | some d => if x.admitted || !isDeferral (statusOf x.status) then dropWaiting d.seq s else waitAgain d (statusOf x.status) s

/-- The node's record after a candidate that went on air: its frame's time correction applied, its late counters or its
downlink done (R247, R271, R302). -/
def settleNode (x : OutcomeIn) (n : Nat) (s : State) : State :=
  modNode x.net.val x.dst (fun r =>
    let a := if x.admitted then frameStarts x.t0 (clockError r x.t0) r else r
    if 0 < n then { a with late := a.late.drop n }
    else if x.admitted then { a with downlinks := saturate 32 (a.downlinks + 1) } else a) s

/-- CANDIDATE_OUTCOME (R268): the outcome of a candidate that this home passed. -/
def execCandidateOutcome (x : OutcomeIn) (s0 : State) : Host.Outcome State Fault Refusal :=
  let s := mirrorHerd (.outcome x) s0
  match nodeEntry s x.net.val x.dst with
  | none => .next s
  | some (i, _) =>
    match s.sched.sentTo.find? (fun e => e.1 = i && e.2.1 = x.t0) with
    | none => .next s
    | some e =>
      let s1 := { s with sched := { s.sched with sentTo := s.sched.sentTo.filter (· != e) } }
      .next (settleNode x e.2.2 (if e.2.2 = 0 then settleItem x s1 else s1))

end Sys2Proof.Machine
end

