-- ==== Sys2Proof/Machine/Transmit.lean ====
section
/-! DEFINITION. A transmission from its frame to RETURN (R220, R221): building (R230, R242, R249), coexistence (R222-R225),
PREP and its hop (R199, R203), release and air (R215-R218), RETURN (R201), the own-transmission span (R217). -/

namespace Sys2Proof.Machine

/-! ### Ports and RETURN (R201, R220, R221) -/

/-- The ports of a plain changed. -/
def onPorts (p : Nat) (f : Port → Port) (s : State) : State :=
  (portsOf s p).foldl (fun t n => setPort t n (f (portRun t n))) s

/-- A transmission of the plain other than one stands between its steps 5 and 11 (R221). -/
def othersKeyed (s : State) (p id : Nat) : Bool := s.radio.txs.any (fun x => x.plain = p && x.id != id && keyed x)

/-- COX_REQ falls unless another transmission of the plain still needs it (R221, R224). -/
def lowerRequest (p : Nat) (s : State) : State :=
  if s.radio.txs.any (fun x => x.plain = p && (txActive x || reached s (before x.t0 (1000 * x.coxLead)))) then s
  else setTxRun s p { txRun s p with coxReq := false }

/-- A RETURN script for a port, if it has steps. -/
def returnScript (n : Nat) (steps : List SpiStep) (s : State) : State :=
  if steps.isEmpty then s else queueScript n { cls := 2, steps := steps } s

/-- What a port does in RETURN (R201); after a failed PREP hop it returns as in RX_HOME (R194). -/
def returnPort (p n : Nat) (shared : Bool) (s0 : State) : State :=
  let st := if (portRun s0 n).goHome then 1 else (portCfg s0 n).returnState
  let s := setPort s0 n { portRun s0 n with goHome := false }
  let home := if (txRun s p).fT = (plainCfg s p).rxEntry then [] else match (plainCfg s p).rxEntry with
    | some e => (calEntry s n e).steps
    | none => []
  if st = 0 && !shared then s
  else if st = 2 then returnScript n home (returnScript n (portCfg s n).quiet s)
  else returnScript n home s

/-- RETURN begins on every port of the plain (R201, R220 step 11); it ends with the last script. -/
def beginReturn (p : Nat) (shared : Bool) (s : State) : State :=
  let s1 := onPorts p (fun v => { v with tr := false, txen := false, paen := false, seq := .ret }) s
  let s2 := (portsOf s p).foldl (fun t n => returnPort p n shared t) s1
  let s3 := if returnsHome s p shared && (plainCfg s p).rxEntry.isSome then setTxRun s2 p { txRun s2 p with fT := (plainCfg s p).rxEntry } else s2
  returnDone p s3

/-! ### Ends -/

/-- What is on air changed, unless the device does not drive its radios (R401). -/
def onAir (x : Tx) (e : AirEvent) (s : State) : State :=
  if !s.tan.outputs then s
  else { s with out := { s.out with air := s.out.air ++ [{ plain := x.plain, txId := x.id, event := e }] } }

/-- The ports after a transmission of the plain has gone from PREP or later: RETURN when it was the only one of its group,
else the state that the others leave (R189, R221). -/
def leavePorts (x : Tx) (s : State) : State :=
  if !txActive x then s
  else if othersKeyed s x.plain x.id then settleSeq x.plain s
  else beginReturn x.plain x.tuneShared s

/-- A transmission that is not started (R219, R227): charges back, counted, recorded; its ports return when it was the only
one. -/
def notStarted (x : Tx) (st : Status) (counter rank : Nat) (event : Option Nat) (s : State) : State :=
  let s1 := refund x (dropTx x.id s)
  let s2 := match event with
    | some d => postEvent 0x0404 x.plain (w32 d) (countTx counter x.plain 1 s1)
    | none => s1
  let s3 := outcome x st 3 rank (shortfall x rank none s2)
  lowerRequest x.plain (leavePorts x s3)

/-- The counter of a downlink that ends early is kept: the node may have heard enough of it to acknowledge it (R232,
log 34). -/
def noteUnsure (x : Tx) (s : State) : State :=
  if x.kind = 0 && x.home.isNone then modNode x.net x.dst (fun r => { r with unsure := (wordAt x.frame 3 :: r.unsure).take 16 }) s
  else s

/-- The fast ramp-down of a transmission: it begins within 600 ns of its cause, a free value, and takes 400 ns (R218). -/
def rampDown (x : Tx) (st : Status) (s : State) : State :=
  let stop := after s ((Config.freeWord s.free).toNat % 601 + 400)
  noteUnsure x (onAir x .fast (setTx { x with state := .ended, endAt := stop, status := st } { s with free := s.free + 1 }))

/-- A transmission on air ended by the fast ramp-down (R218, R227). -/
def endEarly (x : Tx) (st : Status) (counter rank detail : Nat) (s : State) : State :=
  let s1 := rampDown x st s
  let s2 := postEvent 0x0403 x.plain (w32 detail) (countTx counter x.plain 1 s1)
  outcome x st 2 rank (shortfall x rank none s2)

/-! ### Building (R15 step 2) -/

/-- The epoch and counter of a frame for a node whose record another member holds: the spec carries neither to this member,
so both are free within what R241 and R243 allow (log 51). -/
def buildPassed (x : Tx) (a : FrameAsk) (s : State) : (Status ⊕ List Byte) × State :=
  let e := (netCfg s x.net).epoch
  let ep := if (overlapSlot s x.net).isSome && Config.freeBool s.free then e - 1 else e
  let t := { s with free := s.free + 1 }
  match nodeKey x.net x.dst ep t with
  | (none, s1) => (.inl (keyStatus s1 x.net), s1)
  | (some k, s1) =>
    match ctrBlock s1 x.net ep false with
    | none => (.inl .invalidState, s1)
    | some base => (.inr (sealFrame s1 x.net a ep (w32 (base + (Config.freeWord s.free).toNat % 8388608)) k), s1)

/-- What a transmission's frame carries. -/
def askOf (x : Tx) : FrameAsk :=
  { typ := if x.kind = 1 || x.kind = 2 then 1 else if x.kind = 3 then 2 else if x.kind = 5 then 5 else 0,
    flood := decide (x.kind = 5), pending := x.pending, dst := x.dst, tcorr := x.tcorr, payload := x.payload }

/-- The frame of a transmission built (R230): unicast under the node's counter, the rest under the broadcast counter of the
current epoch; a flood copy is already built. -/
def buildFor (x : Tx) (s : State) : (Status ⊕ List Byte) × State :=
  if x.kind = 6 then (.inr x.payload, s)
  else if x.home.isSome then buildPassed x (askOf x) s
  else if x.dst = everyNode then buildBroadcast x.net (askOf x) (netCfg s x.net).epoch s
  else buildUnicast x.net (askOf x) s

/-- FRAME_BUILD (R15 step 2, R242): the frame is built, and loaded into the transmit chain as chirps; from t0 - 1.5 ms on; a frame that cannot be built is refused. -/
def execFrameBuild (tx : Nat) (s : State) : Host.Outcome State Fault Refusal :=
  match txAt s tx with
  | none => .next s
  | some x =>
    if x.state != .selected || !reached s (before x.t0 1500000) then .next s
    else match buildFor x s with
      | (.inl st, s1) => .next (notStarted x st 0 0 none s1)
      | (.inr frame, s1) => .next (setTx { x with frame := frame, symbols := chirpsOf s x frame, state := .built } s1)

/-! ### Coexistence (R223, R224) -/

/-- The candidates of a slot's cells stand now (R223). -/
def cellHasCandidate (s : State) (p asn : Nat) : Bool := !(allCands (applyChanges asn s) p asn).isEmpty

/-- COX_REQUEST_RISE (R223): at t0 - COX_LEAD, for a booked transmission, or for a cell before its selection when COX_LEAD
exceeds 2.0 ms. -/
def execCoxRequestRise (p : Fin 4) (tx : Option Nat) (asn : BitVec 40) (s : State) : Host.Outcome State Fault Refusal :=
  let v := txCfg s p.val
  let up := setTxRun s p.val { txRun s p.val with coxReq := true }
  match tx with
    | some id =>
      match txAt s id with
      | some x => if x.plain = p.val && x.coexMode = 1 && reached s (before x.t0 (1000 * x.coxLead)) && !txActive x then .next up else .next s
      | none => .next s
    | none =>
      let t0 := nominal s asn.toNat
      if v.coexMode = 1 && 2000 < v.coxLead && reached s (before t0 (1000 * v.coxLead)) && !reached s t0 && cellHasCandidate s p.val asn.toNat then .next up
      else .next s

/-- The status of a transmission without its grant (R224). -/
def coxStatus (x : Tx) : Status :=
  if refusable x || x.coxPolicy then .refusedCoex else .deferredCoexPending

/-- COX_GRANT_JUDGED (R223, R224): once, at t0 - 110 us, in request/grant mode. -/
def execCoxGrantJudged (tx : Nat) (grant : Bool) (s : State) : Host.Outcome State Fault Refusal :=
  match txAt s tx with
  | none => .next s
  | some x =>
    if x.coexMode != 1 || x.state != .built || !reached s (before x.t0 110000) then .next s
    else
      let v := setBit s.radio.grants x.plain grant
      let s0 := mirrorOut (.grants v) s
      let s1 := { s0 with radio := { s0.radio with grants := v } }
      if grant then .next (setTx { x with state := .judged } s1)
      else .next (raise (.coxMissed (Fin.ofNat 4 x.plain)) (notStarted x (coxStatus x) 4 1 (some 0) s1))

/-! ### PREP (R194, R199, R203) -/

/-- The RCK setting that an entry names: that of the first port whose copy names one (R197, R203). -/
def entryRck (s : State) (p e : Nat) : Option Nat := ((portsOf s p).map (fun n => (calEntry s n e).rck)).find? (· != 15)

/-- The setting that RCKr has in force once the hops before are done. -/
def rckTarget (v : Rck) : Option Nat :=
  match v.hop.toList ++ v.next with
  | [] => v.sel
  | l => l.getLast?.map (·.1)

/-- The RCK setting to which a hop to an entry hops the plain's RCK first (R203). -/
def rckHopTo (s : State) (p e : Nat) : Option Nat :=
  match entryRck s p e with
  | some k => if rckTarget (rck s p) = some k then none else some k
  | none => none

/-- The entry that PREP hops to, if the transmission needs a hop. -/
def hopNeeded (s : State) (x : Tx) : Option Nat :=
  match x.entry with
  | some e => if (txRun s x.plain).fT = some e then none else some e
  | none => none

/-- The tuning hop of PREP: the RCK hop first, then the entry's script on every port (R195, R203); receive is blanked when
the synthesiser is shared or the reference hops (R200, R203). -/
def hop (x : Tx) (e : Nat) (s : State) : State :=
  let p := x.plain
  let k := rckHopTo s p e
  let s1 := if x.tuneShared || k.isSome then openSpan p s else s
  let s2 := match k with
    | some k => rckStart p (setRck s1 p { rck s1 p with next := (rck s1 p).next ++ [(k, none)] })
    | none => s1
  let s3 := (portsOf s p).foldl (fun t n => queueScript n { cls := 1, steps := (calEntry s n e).steps, tx := some x.id } t) s2
  setTxRun s3 p { txRun s3 p with fT := some e }

/-- A hop can be made without a band search, which PREP never runs (R204). -/
def hopHasBand (s : State) (p e : Nat) : Bool :=
  match rckHopTo s p e with
  | some k => bit (rck s p).bands k
  | none => true

/-- PREP carried out (R220 step 4). A hop whose RCK setting has lost its stored band since the selection cannot be made; the
transmission is then not started, with the status of one that fits no entry (DESIGN CHOICE, log 112). -/
def prepare (x : Tx) (s : State) : State :=
  let y : Tx := { x with state := .prep }
  let s1 := onPorts x.plain (fun v => { v with seq := .prep }) (setTx y s)
  if blankedFor s x then notStarted y .refusedBlanked 5 1 (some 1) s1
  else match hopNeeded s x with
    | some e => if hopHasBand s x.plain e then hop x e s1 else notStarted y .invalidParameter 0 0 none s1
    | none => s1

/-- PREP (R220 step 4) of a transmission of plain p: at t0 - 100 us; nothing is started while the clock is lost (R19). -/
def execPrep (tx : Nat) (p : Fin 4) (s : State) : Host.Outcome State Fault Refusal :=
  match txAt s tx with
  | none => .next s
  | some x =>
    let ready := x.state = .judged || (x.state = .built && x.coexMode != 1)
    if ready && x.plain = p.val && !s.dev.clkLost && reached s (before x.t0 100000) then .next (prepare x s) else .next s

/-- A PREP hop has failed on a port (R194): its transmission is not started, and the port returns as in RX_HOME. -/
def hopFailed (n : Nat) (tx : Option Nat) (s : State) : State :=
  let s1 := setPort s n { portRun s n with goHome := true }
  match tx.bind (txAt s1) with
  | some x => if x.state = .prep || x.state = .switched then notStarted x .failedHardware 6 0 (some 3) s1 else s1
  | none => match plainOfPort s1 n with
    | some p => if s1.radio.txs.any (fun x => x.plain = p && keyed x) then s1 else beginReturn p false s1
    | none => s1

/-- What a script's end brings (R114, R194). -/
def scriptEffect (n : Nat) (v : Script) (r : ScriptRun) (s : State) : State :=
  let bad := r.mismatch.isSome
  let reply (t : State) (ws : List Word) : State := match v.tag with
    | some (q, tag) => complete q tag (if bad then .failedHardware else .ok) ws t
    | none => t
  if v.cls = 3 then
    let s1 := if bad then s else setChainCfg s v.chain { chainCfg s v.chain with gain := v.gain }
    reply (markTracks 2 (fun t => plainOfPort s n = some t.plain) s1) []
  else if v.cls = 2 then
    match plainOfPort s n with
    | some p => returnDone p s
    | none => s
  else if v.cls = 1 then (if bad then hopFailed n v.tx s else s)
  else reply s r.reads

/-- A script of port n over, with the run r of its steps: its frames are sent, a mismatch is reported, its effects follow
(R193, R194). -/
def scriptEnds (n : Nat) (v : Script) (r : ScriptRun) (s : State) : State :=
  let s1 := sendFrames n r.frames (setPort s n { portRun s n with running := none })
  let s2 := match r.mismatch with
    | some k => scriptFault n v.cls k s1
    | none => s1
  scriptEffect n v r s2

/-- PORT_SCRIPT_COMPLETE (R193, R194): the script of class cls (R227) that port p runs has sent its frames and taken the words received, one for each VERIFY or
READ step; it ends whole, or at its first VERIFY mismatch. -/
def execPortScriptComplete (p : Fin 16) (cls : Nat) (received : List Word) (s : State) : Host.Outcome State Fault Refusal :=
  match (portRun s p.val).running with
  | none => .next s
  | some v =>
    if v.cls = cls then .next (scriptEnds p.val v (runScript s p.val v received) s) else .next s

/-- TX_SWITCH_ON (R220 step 5): T/R to transmit, TXEN high, and the own-transmission span opens (R217). -/
def execTxSwitchOn (tx : Nat) (s : State) : Host.Outcome State Fault Refusal :=
  match txAt s tx with
  | none => .next s
  | some x =>
    if x.state != .prep || s.dev.clkLost || !reached s (before x.t0 80000) then .next s
    else .next (openSpan x.plain (onPorts x.plain (fun v => { v with tr := true, txen := true }) (setTx { x with state := .switched } s)))

/-- PAEN_ASSERT (R220 step 6): at t0 - PA_LEAD. -/
def execPaenAssert (tx : Nat) (s : State) : Host.Outcome State Fault Refusal :=
  match txAt s tx with
  | none => .next s
  | some x =>
    if (x.state != .switched && x.state != .onAir) || x.paUp || s.dev.clkLost || !reached s (before x.t0 (1000 * x.paLead)) then .next s
    else .next (onPorts x.plain (fun v => { v with paen := true }) (setTx { x with paUp := true } s))

/-! ### Release and end on air -/

/-- When a port releases the first sample of a transmission (R215). -/
def releaseAt (s : State) (x : Tx) (n : Nat) : BitVec 64 := before x.t0 (520 + (portCfg s n).txExtLatency)

/-- How long before t0 the first of the plain's ports releases (R215). -/
def releaseLead (s : State) (p : Nat) : Nat := 520 + (portsOf s p).foldl (fun m n => max m (portCfg s n).txExtLatency) 0

/-- The hop of a transmission is under way: a script of its PREP runs or waits on a port. -/
def hopPending (s : State) (x : Tx) : Bool :=
  (portsOf s x.plain).any (fun n => ((portRun s n).running.toList ++ (portRun s n).queued).any (fun v => v.tx = some x.id))

/-- The node's record when a frame to it starts (R271). -/
def noteStart (x : Tx) (s : State) : State :=
  if x.dst = everyNode || x.kind = 6 || x.home.isSome then s else modNode x.net x.dst (frameStarts x.t0 x.tcorr) s

/-- An image block that starts counts for its round (R250). -/
def noteBlock (x : Tx) (s : State) : State :=
  match x.dl with
  | some d => if d.kind = 5 then match imageAt s d.queue with
      | some i => setImage { i with sent := i.sent + 1 } s
      | none => s
    else s
  | none => s

/-- A transmission starts on air. -/
def startOnAir (x : Tx) (s : State) : State :=
  let y : Tx := { x with state := .onAir, release := (portsOf s x.plain).map (fun n => (n, releaseAt s x n)) }
  let s1 := onPorts x.plain (fun v => { v with seq := .tx }) (setTx y s)
  let s2 := onAir y .start (countTx 0 x.plain 1 s1)
  noteBlock y (noteStart y { s2 with pwr := { s2.pwr with lastAct := now s } })

/-- FIRST_SAMPLE_RELEASE (R215, R216, R220 step 7): released in time, or not started. A lost clock (R19) and a hop still
under way (DESIGN CHOICE, log 112) count as not in time. -/
def execFirstSampleRelease (tx : Nat) (inTime : Bool) (s : State) : Host.Outcome State Fault Refusal :=
  match txAt s tx with
  | none => .next s
  | some x =>
    let early := x.state = .selected || x.state = .built || x.state = .judged || x.state = .prep || x.state = .switched
    if !reached s (before x.t0 (releaseLead s x.plain)) || !early then .next s
    else if !inTime || s.dev.clkLost || hopPending s x then
      .next (raise .txTiming (notStarted x .failedHardware 6 0 (some 2) s))
    else if x.state != .switched then .next s
    else if blankedFor s x then .next (notStarted x .refusedBlanked 5 1 (some 1) s)
    else .next (startOnAir x s)

/-- TX_UNDERRUN (R216): the lane starved of samples after release. -/
def execTxUnderrun (tx : Nat) (s : State) : Host.Outcome State Fault Refusal :=
  match txAt s tx with
  | none => .next s
  | some x => if x.state = .onAir then .next (raise .txUnderrun (endEarly x .failedHardware 3 0 1 s)) else .next s

/-- The transmissions of a plain on air. -/
def airing (s : State) (p : Nat) : List Tx := (booked s p).filter (fun x => x.state = .onAir)

/-- TX_LANE_FAULT (R209): every transmission of the port's plain ends early, and the lane re-links. -/
def execTxLaneFault (p : Fin 16) (s : State) : Host.Outcome State Fault Refusal :=
  let s1 := match plainOfPort s p.val with
    | some q => (airing s q).foldl (fun t x => endEarly x .failedHardware 3 0 2 t) s
    | none => s
  .next (postEvent 0x0201 p.val 2#32 (raise (.laneFault p) s1))

/-- A downlink that has gone out whole counts in its node's record (R302). -/
def noteSent (x : Tx) (s : State) : State :=
  if x.kind = 0 && x.home.isNone then modNode x.net x.dst (fun r => { r with downlinks := saturate 32 (r.downlinks + 1) }) s else s

/-- A transmission that ends is remembered for 12 ms in a tandem, for the gap of a takeover (R411). -/
def rememberTx (x : Tx) (s : State) : State :=
  if s.tan.joined then
    let kept := s.radio.recent.filter (fun y => !reached s (txEnd y + 12000000#64))
    { s with radio := { s.radio with recent := kept ++ [x] } }
  else s

/-- TRANSMISSION_END (R220 step 9). -/
def execTransmissionEnd (tx : Nat) (s : State) : Host.Outcome State Fault Refusal :=
  match txAt s tx with
  | none => .next s
  | some x =>
    if x.state != .onAir || !reached s (airEnd x) then .next s
    else
      let s1 := onAir x .stop (countTx 1 x.plain 1 (setTx { x with state := .ended } s))
      .next (outcome x .ok 1 0 (noteSent x (rememberTx x s1)))

/-- PAEN_RELEASE (R220 step 10, R221): PAEN falls with the last transmission of the group. -/
def execPaenRelease (tx : Nat) (s : State) : Host.Outcome State Fault Refusal :=
  match txAt s tx with
  | none => .next s
  | some x =>
    if x.state != .ended || !reached s (txEnd x + BitVec.ofNat 64 (1000 * x.paLag)) then .next s
    else
      let s1 := setTx { x with state := .paenOff } s
      let last := !s1.radio.txs.any (fun y => y.plain = x.plain && keyed y && y.state != .paenOff)
      .next (if last then onPorts x.plain (fun v => { v with paen := false }) s1 else s1)

/-- RETURN (R201, R220 step 11, R221): the transmission is done with; the plain returns after the last of its group. -/
def execReturnRx (tx : Nat) (s : State) : Host.Outcome State Fault Refusal :=
  match txAt s tx with
  | none => .next s
  | some x =>
    if x.state != .paenOff || !reached s (stepEleven x) then .next s
    else
      let s1 := dropTx x.id s
      .next (if othersKeyed s1 x.plain x.id then settleSeq x.plain s1 else lowerRequest x.plain (beginReturn x.plain x.tuneShared s1))

/-- OWN_TRANSMISSION_SPAN_END (R217): 20 us after RETURN on the last port. -/
def execOwnTransmissionSpanEnd (p : Fin 4) (s : State) : Host.Outcome State Fault Refusal :=
  match (txRun s p.val).spanEnd with
  | some t =>
    if reached s t then .next (closeBlank p.val (setTxRun s p.val { txRun s p.val with ownSpan := false, spanEnd := none }))
    else .next s
  | none => .next s

/-! ### Blanking (R225) -/

/-- The level of a BLANK input. -/
def setBlank (i : Nat) (active : Bool) (s : State) : State :=
  { s with radio := { s.radio with blank := setBit s.radio.blank i (active != bit s.cfg.tx.blankPol i) } }

/-- A transmission on a plain that has just become blanked. -/
def blankTx (x : Tx) (s : State) : State :=
  if x.state = .prep || x.state = .switched then notStarted x .refusedBlanked 5 1 (some 1) s
  else if x.state = .onAir then raise (.blankAbort (Fin.ofNat 4 x.plain)) (endEarly x .refusedBlanked 2 1 0 s)
  else s

/-- A plain as its inputs leave it: its transmissions judged, its marking begun, or run on for 20 us from the release
(R225). -/
def settleInputs (p : Nat) (was : Bool) (s : State) : State :=
  let s1 := (booked s p).foldl (fun t x => if blankedFor t x then blankTx x t else t) s
  let s2 := if was && !blankedNow s1 p && (txCfg s1 p).blankMark then setTxRun s1 p { txRun s1 p with tail := after s1 20000 } else s1
  if was = blankedNow s2 p then s2 else settleBlank p s2

/-- The inputs or their polarity changed by f, and every plain as they leave it. -/
def changeInputs (f : State → State) (s : State) : State :=
  (List.range 4).foldl (fun t p => settleInputs p (blankedNow s p) t) (f s)

/-- BLANK_ASSERT (R225). -/
def execBlankAssert (i : Fin 8) (s0 : State) : Host.Outcome State Fault Refusal :=
  let s := mirrorOut (.blank i true) s0
  .next (changeInputs (setBlank i.val true) s)

/-- BLANK_RELEASE (R225). -/
def execBlankRelease (i : Fin 8) (s0 : State) : Host.Outcome State Fault Refusal :=
  let s := mirrorOut (.blank i false) s0
  .next (changeInputs (setBlank i.val false) s)

/-- BLANK_POL replaced, for the device (R225, R226). -/
def setBlankPol (v : BitVec 8) (s : State) : State := { s with cfg := { s.cfg with tx := { s.cfg.tx with blankPol := v } } }

def coexSetSpec : CmdSpec :=
  { plainSpec 0x0420 5
      (fun c => within c 0 0 3 && within c 1 0 2 && within c 2 200 20000 && only c 3 0xFF03 && fits c 4 8)
      (fun c s =>
        let s1 := txChange (pn c 0) (fun v => { v with
          coexMode := pn c 1, coxLead := pn c 2, coxPolicy := bit (pw c 3) 0, blankMark := bit (pw c 3) 1,
          blankMap := (pw c 3 >>> 8).setWidth 8 }) s
        done (changeInputs (setBlankPol ((pw c 4).setWidth 8)) s1)) with
    ready := fun c s => !draining s (pn c 0) }

/-- COEX_SET (R222): the plain's settings from its next slot boundary on, BLANK_POL for the device at once. -/
def execCoexSet (c : Packet) (s : State) : Host.Outcome State Fault Refusal := runCommand coexSetSpec c s

/-! ### Slot boundary (R222, R226, R255, R259) -/

/-- A plain's settings that waited for the boundary; a change of coexistence mode waits on while a transmission of the plain
stands in PREP or TX (R222, R226). The span that blanks receive follows; transmissions keep what they were selected with. -/
def settlePlain (p : Nat) (s : State) : State :=
  match (txRun s p).pending with
  | none => s
  | some v =>
    let old := txCfg s p
    let busy := s.radio.txs.any (fun x => x.plain = p && txActive x)
    let mode := if busy then old.coexMode else v.coexMode
    let new : TxPlainCfg := { old with
      paLead := v.paLead, paLag := v.paLag, maxSim := v.maxSim, tuneShared := v.tuneShared, nPre := v.nPre, rampLen := v.rampLen,
      pilot := v.pilot, coexMode := mode, coxLead := v.coxLead, coxPolicy := v.coxPolicy, blankMark := v.blankMark,
      blankMap := v.blankMap }
    let left : Option TxPlainCfg := if mode = v.coexMode then none else some v
    settleBlank p (setTxCfg (setTxRun s p { txRun s p with pending := left }) p new)

/-- SLOT_BOUNDARY (R255, R259): due when ST has passed into another slot. -/
def execSlotBoundary (s : State) : Host.Outcome State Fault Refusal :=
  let a := asnAt s (now s)
  if a = s.sched.asn then .next s
  else
    let s1 := formDigest s.sched.asn s
    let s2 := applyChanges a { s1 with sched := { s1.sched with asn := a } }
    .next (countCutOff a ((List.range 4).foldl (fun t p => settlePlain p t) s2))

end Sys2Proof.Machine
end

