-- ==== Sys2Proof/Machine/Forward.lean ====
section
/-! DEFINITION. The forwarding commands and events (R295-R316): prefix memory, node table, flushes, home moves, tenants and
flood sets, packets that arrive from other members, and the write-back and rebuild of node data (R23, R303). -/

namespace Sys2Proof.Machine

/-! ### Prefix memory commands -/

/-- An entry from parameter words i to i + 4 (R295). -/
def entryOfWords (c : Packet) (i : Nat) : PrefixEntry :=
  { home := bit (pw c (i + 4)) 25, tenant := pf c (i + 4) 7 0, len := pf c (i + 4) 15 8, key := keyOfWords (pwords c i 4)
    result := pf c (i + 4) 18 16, arg := pf c (i + 4) 24 19, service := pf c (i + 4) 29 27 }

/-- The five words of an entry in use (R295). -/
def entryWords (e : PrefixEntry) : List Word :=
  keyWords e.key ++ [w32 (e.tenant + 256 * e.len + 65536 * (e.result % 8) + 524288 * (e.arg % 64) + 33554432 * flag e.home
    + 67108864 + 134217728 * (e.service % 8))]

/-- The longest prefix of a type: 128 bits, 32 for a home entry (R295). -/
def lengthLimit (e : PrefixEntry) : Nat := if e.home then 32 else 128

/-- The key fields of an entry lie in range (R295). -/
def keyOk (e : PrefixEntry) : Bool := e.len ≤ lengthLimit e && (!e.home || e.tenant ≤ 15)

/-- RESULT and ARG of a route, and ARG of a home entry, lie in range (R295). -/
def resultOk (e : PrefixEntry) : Bool :=
  e.home || (e.result ≤ 4 && (e.result != 1 || e.arg ≤ 15) && (e.result != 3 || e.arg ≤ 1))

/-- A key bit at or beyond LENGTH is set (R296). -/
def keyBeyond (e : PrefixEntry) : Bool := e.key <<< e.len != 0#128

/-- Entries the prefix memory holds (R295). -/
def prefixLimit : Nat := 16384

/-- An entry inserted or replaced; a full memory refuses a new one (R296, R298). -/
def loadPrefix (e : PrefixEntry) (s : State) : Option State :=
  let l := s.cfg.fwd.prefixes
  if prefixLimit ≤ l.length && !l.any (sameEntry e) then none else some (setPrefixes (insertPrefix e l) s)

def prefixInsertSpec : CmdSpec := plainSpec 0x0700 5
  (fun c =>
    let e := entryOfWords c 0
    pf c 4 31 30 = 0 && bit (pw c 4) 26 && keyOk e && resultOk e && !keyBeyond e)
  (fun c s =>
    match loadPrefix (entryOfWords c 0) s with
    | some t => done t
    | none => ends .refusedTableFull (raise .prefixFull s))

/-- PREFIX_INSERT (R296, R298). -/
def execPrefixInsert (c : Packet) (s : State) : Host.Outcome State Fault Refusal :=
  runCommand prefixInsertSpec c s

def prefixDeleteSpec : CmdSpec := plainSpec 0x0701 5 (fun c => pf c 4 31 30 = 0 && keyOk (entryOfWords c 0)) (fun c s =>
  let l := s.cfg.fwd.prefixes
  let e := entryOfWords c 0
  doneWith [w32 (flag (l.any (sameEntry e)))] (setPrefixes (l.filter (fun x => !sameEntry e x)) s))

/-- PREFIX_DELETE (R296, R316). -/
def execPrefixDelete (c : Packet) (s : State) : Host.Outcome State Fault Refusal :=
  runCommand prefixDeleteSpec c s

/-- The five words of a search that finds nothing: word 4 is 0, and the spec says nothing of the others (log 52). -/
def noEntryWords (s : State) : List Word := (List.range 4).map (fun i => Config.freeWord (s.free + i)) ++ [0#32]

def prefixSearchSpec : CmdSpec := plainSpec 0x0702 6
  (fun c => within c 0 0 1 && within c 1 0 (if pn c 0 = 1 then 15 else 255)) (fun c s =>
  match prefixSearch s (pn c 0 = 1) (pn c 1) (keyOfWords (pwords c 2 4)) with
  | some e => doneWith (entryWords e) s
  | none => doneWith (noEntryWords s) { s with free := s.free + 4 })

/-- PREFIX_SEARCH (R297, R316). -/
def execPrefixSearch (c : Packet) (s : State) : Host.Outcome State Fault Refusal :=
  runCommand prefixSearchSpec c s

/-- The key by which PREFIX_NEXT walks: (TYPE, TENANT, PREFIX, LENGTH) (R312). -/
def walkKey (e : PrefixEntry) : List Nat := [flag e.home, e.tenant, e.key.toNat, e.len]

/-- An entry put into its place in the order of the walk. -/
def insertWalk (e : PrefixEntry) : List PrefixEntry → List PrefixEntry
  | [] => [e]
  | x :: r => if keyBefore (walkKey e) (walkKey x) then e :: x :: r else x :: insertWalk e r

/-- The entries in the order of the walk (R312). -/
def walkOrder (l : List PrefixEntry) : List PrefixEntry := l.foldl (fun o e => insertWalk e o) []

def prefixNextSpec : CmdSpec := plainSpec 0x0703 7 (fun c => only c 0 1 && pf c 5 31 30 = 0 && within c 6 1 64) (fun c s =>
  let last := walkKey (entryOfWords c 1)
  let rest := (walkOrder s.cfg.fwd.prefixes).filter (fun e => bit (pw c 0) 0 || keyBefore last (walkKey e))
  let l := rest.take (pn c 6)
  doneWith (w32 l.length :: l.flatMap entryWords) s)

/-- PREFIX_NEXT (R312). -/
def execPrefixNext (c : Packet) (s : State) : Host.Outcome State Fault Refusal := runCommand prefixNextSpec c s

/-! ### Node table commands -/

/-- A node's address (R229). -/
def nodeAddress (a : Word) : Bool := a != 0#32 && a ≤ 0xFFFFFEFF#32

def nodeInsertSpec : CmdSpec := plainSpec 0x0710 3 (fun c => within c 0 0 15 && nodeAddress (pw c 1) && within c 2 0 255)
  (fun c s =>
    if !isHome s (pn c 0) (pw c 1) then ends .refusedNodeUnknown s
    else if (nodeEntry s (pn c 0) (pw c 1)).isSome then ends .invalidState s
    else match insertNode (pn c 0) (pw c 1) (pn c 2) true s with
      | (some i, t) => doneWith [w32 i] t
      | (none, t) => ends .refusedTableFull t)

/-- NODE_INSERT (R301, R316). -/
def execNodeInsert (c : Packet) (s : State) : Host.Outcome State Fault Refusal := runCommand nodeInsertSpec c s

/-- The late acknowledgements of a record refused, as one record of their kind names them (R314). -/
def refuseLate (r : NodeRec) (s : State) : State :=
  if r.late.isEmpty then s
  else
    let x := waitingTx s { net := r.net, addr := r.addr, tenant := r.tenant, service := 7 }
    finalRecord { x with kind := 2, dl := none, ackOf := r.late, tAir := 0 } .refusedNodeUnknown 3 s

/-- A record deleted: what waits for its node is refused and its index entries go with it (R314). -/
def deleteNode (i : Nat) (r : NodeRec) (s : State) : State :=
  let s1 := (purgeable s r.net r.addr).foldl (fun t d => endWaiting .refusedNodeUnknown d t) s
  let s2 := dropNode i (refuseLate r s1)
  { s2 with dev := { s2.dev with idxRebuild := s2.dev.idxRebuild.filter (· != i) } }

def nodeDeleteSpec : CmdSpec := plainSpec 0x0711 2 (fun c => within c 0 0 15) (fun c s =>
  match homeRec s (pn c 0) (pw c 1) with
  | some (i, r) => done (deleteNode i r s)
  | none => ends .refusedNodeUnknown s)

/-- NODE_DELETE (R314, R316). -/
def execNodeDelete (c : Packet) (s : State) : Host.Outcome State Fault Refusal := runCommand nodeDeleteSpec c s

def nodeReadSpec : CmdSpec := plainSpec 0x0712 2 (fun c => within c 0 0 15) (fun c s =>
  match homeRec s (pn c 0) (pw c 1) with
  | some (i, r) => doneWith (nodeWords s r) (touchNode i s)
  | none => ends .refusedNodeUnknown s)

/-- NODE_READ (R303, R304, R316). -/
def execNodeRead (c : Packet) (s : State) : Host.Outcome State Fault Refusal := runCommand nodeReadSpec c s

def nodeUpdateSpec : CmdSpec := plainSpec 0x0713 19 (fun c => within c 0 0 15 && fits c 2 8) (fun c s =>
  match homeRec s (pn c 0) (pw c 1) with
  | some (i, r) => done (setNode i { r with tenant := pf c 2 7 0, host := pwords c 3 16 } s)
  | none => ends .refusedNodeUnknown s)

/-- NODE_UPDATE (R316). -/
def execNodeUpdate (c : Packet) (s : State) : Host.Outcome State Fault Refusal := runCommand nodeUpdateSpec c s

/-- The records that a walk meets from a cursor on, by index (R312). -/
def walkFrom (s : State) (cursor : Nat) (net : Word) : List (Nat × NodeRec) :=
  s.fwd.nodes.filter (fun e => cursor ≤ e.1 && (net = 0xFFFFFFFF#32 || w32 e.2.net = net))

/-- The cursor after a walk's records: behind the last of them, or at the end (R312). -/
def nextCursor (taken rest : List (Nat × NodeRec)) : Word :=
  match rest, taken.getLast? with
  | [], _ => 0xFFFFFFFF#32
  | _, some (i, _) => w32 (i + 1)
  | _, none => 0xFFFFFFFF#32

def nodeNextSpec : CmdSpec := plainSpec 0x0714 3
  (fun c => within c 0 0 1048639 && within c 1 1 64 && (within c 2 0 15 || pw c 2 = 0xFFFFFFFF#32)) (fun c s =>
  let l := walkFrom s (pn c 0) (pw c 2)
  let taken := l.take (pn c 1)
  doneWith (nextCursor taken (l.drop (pn c 1)) :: w32 taken.length ::
    taken.flatMap (fun e => [e.2.addr, w32 (e.2.net % 16), w32 e.1])) s)

/-- NODE_NEXT (R312, R316). -/
def execNodeNext (c : Packet) (s : State) : Host.Outcome State Fault Refusal := runCommand nodeNextSpec c s

/-! ### FLUSH_BY_PORT -/

/-- The link through which a member is reached: the one in use, else its primary (R313, R333). -/
def linkTowards (s : State) (h : Nat) : Option Nat :=
  (routeLink s h).or (if (route s h).primaryV then some (route s h).primary else none)

/-- A record's path was learned through the port that the command names, before its acceptance (R313). -/
def learnedThrough (c : Packet) (s : State) (r : NodeRec) : Bool :=
  let here := r.pathHid = ownHid s && r.pathPlain = pn c 1
  r.pathValid && past s r.tPath &&
    (if pn c 0 = 0 then here
     else if pn c 0 = 1 then here && bit (p64 c 2) r.pathBeam
     else pn c 0 = 2 && r.pathHid != ownHid s && linkTowards s r.pathHid = some (pn c 1))

/-- A route whose RESULT points through the port (R313). -/
def routedThrough (c : Packet) (s : State) (e : PrefixEntry) : Bool :=
  !e.home && ((pn c 0 = 2 && e.result = 2 && e.arg != ownHid s && linkTowards s e.arg = some (pn c 1))
    || (pn c 0 = 3 && e.result = 3 && e.arg = pn c 1))

/-- A record flushed: its path forgotten, or the record deleted. -/
def flushNode (delete : Bool) (e : Nat × NodeRec) (s : State) : State :=
  if delete then deleteNode e.1 e.2 s else setNode e.1 { e.2 with pathValid := false } s

def flushByPortSpec : CmdSpec := plainSpec 0x0715 5
  (fun c => within c 0 0 3 && within c 1 0 (if pn c 0 = 3 then 1 else 3) && only c 4 1) (fun c s =>
  let hit := s.fwd.nodes.filter (fun e => learnedThrough c s e.2)
  let gone := s.cfg.fwd.prefixes.filter (routedThrough c s)
  let s1 := hit.foldl (fun t e => flushNode (bit (pw c 4) 0) e t) s
  doneWith [w32 hit.length, w32 gone.length]
    (setPrefixes (s.cfg.fwd.prefixes.filter (fun e => !routedThrough c s e)) s1))

/-- FLUSH_BY_PORT (R313). -/
def execFlushByPort (c : Packet) (s : State) : Host.Outcome State Fault Refusal :=
  runCommand flushByPortSpec c s

/-! ### Home moves (R315) -/

/-- A node address lies under an address prefix. -/
def underPrefix (pfx : Word) (len : Nat) (a : Word) : Bool := samePrefix len (homeKey pfx) (homeKey a)

/-- The records that a move takes along. -/
def movedRecs (s : State) (net : Nat) (pfx : Word) (len : Nat) : List (Nat × NodeRec) :=
  s.fwd.nodes.filter (fun e => e.2.net = net && underPrefix pfx len e.2.addr)

/-- The first slot boundary at least 10 ms after now (R315). -/
def moveAsn (s : State) : Nat :=
  let t := after s 10000000
  if slotStart s (asnAt s t) = t then asnAt s t else asnAt s t + 1

def nodeHomeMoveSpec : CmdSpec :=
  { plainSpec 0x0720 4 (fun c => within c 0 0 15 && within c 2 0 32 && within c 3 0 63 && homeKey (pw c 1) <<< pn c 2 = 0#128)
      (fun c s =>
        if homeOf s (pn c 0) (pw c 1) != ownHid s then ends .refusedNodeUnknown s
        else if pn c 3 != ownHid s && !reachable s (pn c 3) then ends .refusedNoRoute s
        else
          let l := movedRecs s (pn c 0) (pw c 1) (pn c 2)
          let s1 := l.foldl (fun t e => originate (.moveCopy (pn c 3) (nodeWords s e.2)) t) s
          let m : Move := { net := pn c 0, pfx := pw c 1, len := pn c 2, target := pn c 3, asn := moveAsn s,
                            queue := c.queue.val, tag := c.tag }
          runsOn { s1 with fwd := { s1.fwd with moves := s1.fwd.moves ++ [m] } }) with
    perm := fun _ s => minorityCheck s }

/-- NODE_HOME_MOVE (R315): it runs on until HOME_SWITCH. -/
def execNodeHomeMove (c : Packet) (s : State) : Host.Outcome State Fault Refusal :=
  runCommand nodeHomeMoveSpec c s

/-- The home entry that a switch brings into force (R315). -/
def switchEntry (x : SwitchIn) : PrefixEntry :=
  { home := true, tenant := x.net.val, len := x.len.val, key := homeKey x.pfx, arg := x.target.val }

/-- The new home entry applied on this member (R315). -/
def applySwitch (x : SwitchIn) (s : State) : State :=
  match loadPrefix (switchEntry x) s with
  | some t => t
  | none => raise .prefixFull s

/-- A waiting downlink forwarded to the new home as the packet it came as (R315, R308). -/
def handDownlink (target : Nat) (d : Downlink) (s : State) : State :=
  let p : PacketIn := { packetOf d.tenant d.packet with
    net := Fin.ofNat 16 d.net, addr := d.addr, service := Fin.ofNat 8 d.service, home := true }
  crossHerd target p (dropWaiting d.seq s)

/-- A moved record leaves the old home: its downlinks go to the target (R315). -/
def handRecord (target : Nat) (e : Nat × NodeRec) (s : State) : State :=
  let s1 := (purgeable s e.2.net e.2.addr).foldl (fun t d => handDownlink target d t) s
  dropNode e.1 s1

/-- The old home's part of the switch: the new entry here and on every reachable member, the records and downlinks handed
over, and the command completed (R315). -/
def leaveHome (m : Move) (x : SwitchIn) (s : State) : State :=
  let l := movedRecs s m.net m.pfx m.len
  let s1 := (broadcastTo s).foldl (fun t h => originate (.homeEntry h m.net m.pfx m.len m.target) t) (applySwitch x s)
  let s2 := if m.target = ownHid s then s1 else l.foldl (fun t e => handRecord m.target e t) s1
  complete m.queue m.tag .ok [w32 l.length] s2

/-- The move that a switch ends. -/
def sameMove (x : SwitchIn) (m : Move) : Bool :=
  m.net = x.net.val && m.pfx = x.pfx && m.len = x.len.val && m.target = x.target.val

/-- Word i of a copied record. -/
def rw (l : List Word) (i : Nat) : Word := l.getD i 0#32

/-- Two words of a copied record as one value. -/
def rw64 (l : List Word) (i : Nat) : BitVec 64 := wide (rw l i) (rw l (i + 1))

/-- The window of a copied record; one all zero stands for none (R235, log 53). -/
def windowOfWords (l : List Word) : Option Window :=
  let w : Window := { epoch := (rw l 8).setWidth 16, last := rw l 9, map := rw64 l 10 }
  if w = ({} : Window) then none else some w

/-- ACCEPTED_LOG of a copied record; an entry all zero stands for none (R302, log 53). -/
def logOfWords (l : List Word) : List (Word × BitVec 64) :=
  ((List.range 4).map (fun i => (rw l (36 + 3 * i), rw64 l (37 + 3 * i)))).filter (fun e => e != (0#32, 0#64))

/-- A record from the 64 words of its copy (R302, R264). -/
def recOfWords (l : List Word) : NodeRec :=
  { addr := rw l 0, net := bits (rw l 1) 3 0, pathValid := bit (rw l 1) 5, hostIns := bit (rw l 1) 6,
    tenant := bits (rw l 1) 15 8, pathHid := bits (rw l 1) 21 16, pathPlain := bits (rw l 1) 23 22,
    pathBeam := bits (rw l 1) 29 24, pathSf := bits (rw l 2) 19 16, pathBw := bits (rw l 2) 21 20,
    pathChan := bits (rw l 2) 31 24, pathSnr := (rw l 2).setWidth 16, tPath := rw64 l 3, tHeard := rw64 l 5,
    hopsLast := bits (rw l 7) 3 0, win := windowOfWords l, dlCtr := rw l 12, uplinks := (rw l 13).toNat,
    downlinks := (rw l 14).toNat, late := (l.drop 16).take (bits (rw l 34) 24 21), cells := (l.drop 24).take 4, radio := rw l 28,
    drift := if bits (rw l 29) 15 0 = 0x8000 then none else some (signed 16 (bits (rw l 29) 15 0)),
    eLast := signed 16 (bits (rw l 29) 31 16), tUp := rw64 l 30, tSync := rw64 l 32, cSum := signed 16 (bits (rw l 34) 15 0),
    log := logOfWords l, host := (l.drop 48).take 16 }

/-- A copied record inserted at the target (R315). -/
def insertCopy (l : List Word) (s : State) : State :=
  let r := recOfWords l
  match freePosition s r.net r.addr with
  | some i => if (nodeEntry s r.net r.addr).isSome then s else setNode i r s
  | none => s

/-- A member's part of the switch: the target inserts the copies (R315). -/
def joinHome (x : SwitchIn) (s : State) : State :=
  let s1 := if x.target.val = ownHid s then x.copies.foldl (fun t l => insertCopy l t) s else s
  applySwitch x s1

/-- The state without a move. -/
def dropMove (m : Move) (s : State) : State := { s with fwd := { s.fwd with moves := s.fwd.moves.erase m } }

/-- HOME_SWITCH (R315). -/
def execHomeSwitch (x : SwitchIn) (s0 : State) : Host.Outcome State Fault Refusal :=
  let s := mirrorHerd (.homeSwitch x) s0
  match s.fwd.moves.find? (sameMove x), x.outcome with
  | some m, .done => if asnReached (asnAt s (now s)) m.asn then .next (leaveHome m x (dropMove m s)) else .next s
  | some m, .full => .next (complete m.queue m.tag .refusedTableFull [] (dropMove m s))
  | some m, .peerReset => .next (complete m.queue m.tag .retryPeerReset [] (dropMove m s))
  | none, .done => .next (joinHome x s)
  | none, _ => .next s

/-! ### Tenants, flood sets, status, counters -/

def fwdTenantSetSpec : CmdSpec := plainSpec 0x0730 3
  (fun c => within c 0 0 255 && (pn c 1 = 0 || within c 1 64 1023) && only c 2 1) (fun c s =>
  let f := s.cfg.fwd
  done { s with cfg := { s.cfg with fwd := { f with hostQ := tabSet f.hostQ (pn c 0) (pn c 1)
                                                    dscp := tabSet f.dscp (pn c 0) (bit (pw c 2) 0) } } })

/-- FWD_TENANT_SET (R307, R308). -/
def execFwdTenantSet (c : Packet) (s : State) : Host.Outcome State Fault Refusal :=
  runCommand fwdTenantSetSpec c s

def fwdFloodSetSpec : CmdSpec := plainSpec 0x0731 3 (fun c => within c 0 0 15) (fun c s =>
  done { s with cfg := { s.cfg with fwd := { s.cfg.fwd with flood := tabSet s.cfg.fwd.flood (pn c 0) (p64 c 1) } } })

/-- FWD_FLOOD_SET (R310). -/
def execFwdFloodSet (c : Packet) (s : State) : Host.Outcome State Fault Refusal :=
  runCommand fwdFloodSetSpec c s

def fwdStatusSpec : CmdSpec := plainSpec 0x0740 0 (fun _ => true) (fun _ s =>
  doneWith [w32 s.cfg.fwd.prefixes.length, w32 s.fwd.nodes.length, w32 (stashUsed s), w32 s.link.unrec.length,
            w32 (s.fwd.hits / 1024), w32 (s.fwd.misses / 1024)] s)

/-- FWD_STATUS (R316). -/
def execFwdStatus (c : Packet) (s : State) : Host.Outcome State Fault Refusal := runCommand fwdStatusSpec c s

def fwdCountersReadSpec : CmdSpec := plainSpec 0x0750 1 (fun c => only c 0 1) (fun c s =>
  doneWith (s.fwd.counters.map w32)
    (if bit (pw c 0) 0 then { s with fwd := { s.fwd with counters := List.replicate 9 0 } } else s))

/-- FWD_COUNTERS_READ (R316). -/
def execFwdCountersRead (c : Packet) (s : State) : Host.Outcome State Fault Refusal :=
  runCommand fwdCountersReadSpec c s

/-! ### Packets and copies from other members -/

/-- FORWARDED_PACKET (R308, R309): a packet resolved to a node is not searched again. -/
def execForwardedPacket (x : PacketIn) (s0 : State) : Host.Outcome State Fault Refusal :=
  let s := mirrorHerd (.packet x) s0
  .next (if x.home then toNode x s else resolvePacket x s)

/-- FLOOD_COPY (R311). -/
def execFloodCopy (x : FloodIn) (s0 : State) : Host.Outcome State Fault Refusal :=
  let s := mirrorHerd (.flood x) s0
  .next (waitFlood x.net.val x.addr x.tenant.toNat x.service.val x.frame s)

/-! ### Node data in DRAM -/

/-- NODE_CACHE_WRITE_BACK (R303): a changed record of the ways reaches DRAM; the stash is copied at a reset and on STALL entry
alone (R300). -/
def execNodeCacheWriteBack (index : Nat) (s : State) : Host.Outcome State Fault Refusal :=
  .next (if index < nodeLimit && s.fwd.dirty.contains index then { s with fwd := writeBack index s.fwd } else s)

/-- RENDEZVOUS_INDEX_REBUILD (R23): the entry's cells carry downlinks again. -/
def execRendezvousIndexRebuild (index : Nat) (s : State) : Host.Outcome State Fault Refusal :=
  .next { s with dev := { s.dev with idxRebuild := s.dev.idxRebuild.filter (· != index) } }

end Sys2Proof.Machine
end

