-- ==== Sys2Proof/Machine/Ptp.lean ====
section
/-! DEFINITION. The parts of a backhaul frame, PTP messages, the slave clocks of domains A and B, and the transparent clock
(R362-R365). -/

namespace Sys2Proof.Machine

/-! ### Port state and counters -/

/-- A backhaul port as it runs. -/
def bhRun (s : State) (p : Nat) : BhPort := tabGet s.bh p {}

/-- The state with a backhaul port replaced. -/
def setBh (s : State) (p : Nat) (v : BhPort) : State := { s with bh := tabSet s.bh p v }

/-- Port counter i of port p raised (R348, R149). -/
def countBh (i p : Nat) (s : State) : State :=
  setBh s p { bhRun s p with counters := listMod (bhRun s p).counters i (fun k => saturate 32 (k + 1)) }

/-- A trouble bit of port p. -/
def bhTrouble (f : Fin 2 → TrbBit) (p : Nat) (s : State) : State := raise (f (Fin.ofNat 2 p)) s

/-! ### The parts of a frame -/

/-- Two bytes of a frame, the first one higher. -/
def be16 (l : List Byte) (i : Nat) : Nat := beNat (slice l i 2)

/-- Destination address, its first byte on the line highest (R320). -/
def dstMac (l : List Byte) : BitVec 48 := BitVec.ofNat 48 (beNat (l.take 6))

/-- The frame has an 802.1Q tag (R322). -/
def vlanTagged (l : List Byte) : Bool := be16 l 12 = 0x8100

/-- VID of the tag, 0 when untagged (R324). -/
def vidOf (l : List Byte) : Nat := if vlanTagged l then be16 l 14 % 4096 else 0

/-- EtherType behind the tag, if any. -/
def etherType (l : List Byte) : Nat := be16 l (if vlanTagged l then 16 else 12)

/-- Bytes before the payload. -/
def headLen (l : List Byte) : Nat := if vlanTagged l then 18 else 14

/-- What follows the EtherType. -/
def etherPayload (l : List Byte) : List Byte := l.drop (headLen l)

/-- An IPv6 packet without the padding of its frame: as long as its header says (log 54). -/
def ipv6Trim (l : List Byte) : List Byte := if 40 ≤ l.length then l.take (40 + be16 l 4) else l

/-! ### PTP messages (R363-R365) -/

/-- The frame carries a PTP message over UDP/IPv6 (R323). -/
def ptpUdp (l : List Byte) : Bool :=
  let q := etherPayload l
  etherType l = 0x86DD && byteAt q 6 = 17 && (be16 q 42 = 319 || be16 q 42 = 320)

/-- Where the PTP message starts in the frame. -/
def ptpAt (l : List Byte) : Nat := headLen l + (if ptpUdp l then 48 else 0)

/-- messageType of the PTP message of a frame (IEEE 1588). -/
def ptpType (l : List Byte) : Nat := byteAt l (ptpAt l) % 16

/-- A peer-delay message, which the device does not support (R363, R364). -/
def peerDelay (t : Nat) : Bool := t = 2 || t = 3 || t = 10

/-- The 16-bit words of a byte string added up, an odd last byte as the higher half. -/
def sum16 : List Byte → Nat
  | [] => 0
  | [a] => 256 * a.toNat
  | a :: b :: r => 256 * a.toNat + b.toNat + sum16 r

/-- The UDP checksum of the datagram of an IPv6 packet whose checksum field is zero. -/
def udpSum (q : List Byte) : Nat :=
  let n := q.length - 40
  let v := sum16 (slice q 8 32) + n + 17 + sum16 (q.drop 40)
  let f := v % 65536 + v / 65536
  let c := 65535 - (f % 65536 + f / 65536)
  if c = 0 then 65535 else c

/-- A frame with its UDP checksum made good (R364). -/
def fixUdp (l : List Byte) : List Byte :=
  if ptpUdp l then
    let at' := headLen l + 46
    let z := l.take at' ++ [0#8, 0#8] ++ l.drop (at' + 2)
    l.take at' ++ beBytes 2 (udpSum (ipv6Trim (etherPayload z))) ++ l.drop (at' + 2)
  else l

/-- A message as the transparent clock sends it on: a Sync or Delay_Req has its residence time, in 2^-16 ns, added to its
correctionField (R365). The time is what the stamps of R362 will have measured, a free number of nanoseconds. -/
def residenceAdded (ns : Nat) (l : List Byte) : List Byte :=
  if ptpType l ≤ 1 then
    let i := ptpAt l + 8
    fixUdp (l.take i ++ beBytes 8 ((beNat (slice l i 8) + 65536 * ns) % 2 ^ 64) ++ l.drop (i + 8))
  else l

/-- A frame sent on a backhaul port, its FCS appended (R325, R326); in a tandem it is remembered for 12 ms (R411). -/
def sendBh (p : Nat) (l : List Byte) (s : State) : State :=
  let f : BhOut := { port := p, bytes := l ++ wordBytes (crc32 l) }
  let kept := s.tan.bhSent.filter (fun e => !reached s (e.1 + 12000000#64))
  { s with out := { s.out with bh := s.out.bh ++ [f] }
           tan := { s.tan with bhSent := if s.tan.joined then kept ++ [(now s, f)] else s.tan.bhSent } }

/-- A backhaul port can send. -/
def bhReady (s : State) (p : Nat) : Bool := (bhCfg s p).enable && (bhRun s p).up

/-- The backhaul ports of the transparent clock other than the one a message came by (R364). -/
def clockPorts (s : State) (except : Option Nat) : List Nat :=
  (List.range 2).filter (fun p => bit s.cfg.time.tcPorts p && except != some p && bhReady s p)

/-- The herd links of the transparent clock that are up. -/
def clockLinks (s : State) : List Nat := (List.range 4).filter (fun l => bit s.cfg.time.tcPorts (2 + l) && (hlink s l).up)

/-- One copy of a message sent on, with its residence time from stamp to stamp: the latencies of the ports and the time from
land to land, which the spec leaves to the hardware (a free value). -/
def forwardCopy (latency : Nat) (send : List Byte → State → State) (l : List Byte) (s : State) : State :=
  send (residenceAdded (latency + (Config.freeWord s.free).toNat) l) { s with free := s.free + 1 }

/-- A PTP message forwarded by the transparent clock from a port whose receive TS_LATENCY is `rx` (R362, R364, R365). -/
def clockForward (rx : Nat) (ports links : List Nat) (l : List Byte) (s : State) : State :=
  let s1 := ports.foldl (fun t p => forwardCopy (rx + (bhCfg s p).tsTx) (sendBh p) l t) s
  let s2 := links.foldl (fun t n => forwardCopy rx (fun f => originate (.ptp n f)) l t) s1
  if ptpType l ≤ 1 && !(ports ++ links).isEmpty then countTime 7 s2 else s2

/-! ### The slave clocks (R363; message layouts and the best master clock algorithm of IEEE 1588-2019, log 119) -/

/-- The PTP message of a frame. -/
def ptpMessage (l : List Byte) : List Byte := l.drop (ptpAt l)

/-- A domain's slave clock takes the message: enabled, from its port, over its transport, of its domainNumber (R363). -/
def ptpFor (c : PtpCfg) (p : Nat) (l : List Byte) : Bool :=
  c.enable && c.port = p && c.udp = ptpUdp l && byteAt (ptpMessage l) 4 = c.domain.toNat

/-- sourcePortIdentity. -/
def ptpSource (m : List Byte) : BitVec 80 := BitVec.ofNat 80 (beNat (slice m 20 10))

/-- sequenceId. -/
def ptpSeq (m : List Byte) : Nat := be16 m 30

/-- logMessageInterval, signed. -/
def ptpLog (m : List Byte) : Int := signed 8 (byteAt m 33)

/-- correctionField in whole nanoseconds: signed, in 2^-16 ns. -/
def ptpCorrection (m : List Byte) : Int := (BitVec.ofNat 64 (beNat (slice m 8 8))).toInt / 65536

/-- The 10-byte time-stamp of a message, in nanoseconds. -/
def ptpTime (m : List Byte) : BitVec 64 :=
  BitVec.ofNat 64 (1000000000 * beNat (slice m 34 6) + beNat (slice m 40 4))

/-- The twoStepFlag. -/
def twoStep (m : List Byte) : Bool := byteAt m 6 / 2 % 2 = 1

/-- clockIdentity of the device in a domain: its MAC address with FF-FE between the halves (PRESUMED, log 119). -/
def ownClockId (c : PtpCfg) : List Byte :=
  let a := beBytes 6 c.mac.toNat
  a.take 3 ++ [0xFF#8, 0xFE#8] ++ a.drop 3

/-- Port identity of the device in a domain: port number 1. -/
def ownPortId (c : PtpCfg) : List Byte := ownClockId c ++ [0#8, 1#8]

/-- What a master's Announce says of its grandmaster, in the order in which the data set comparison takes it. -/
def announced (m : List Byte) : List Nat :=
  [byteAt m 47, byteAt m 48, byteAt m 49, be16 m 50, byteAt m 52, beNat (slice m 53 8)]

/-- One list of numbers precedes another. -/
def precedes : List Nat → List Nat → Bool
  | a :: r, b :: t => if a = b then precedes r t else decide (a < b)
  | _, _ => false

/-- Data set comparison of two masters: of one grandmaster, the fewer steps and then the lower identity; else the better
quality. -/
def betterMaster (a b : Foreign) : Bool :=
  if a.quality.getLast? = b.quality.getLast? then precedes [a.steps, a.source.toNat] [b.steps, b.source.toNat]
  else precedes a.quality b.quality

/-- A master stands for the choice at an instant: two Announces within four intervals, the last within three, and fewer than 255
steps. -/
def eligible (t : BitVec 64) (f : Foreign) : Bool :=
  f.qualified && f.steps < 255 && decide ((t - f.last).toNat < 3 * logNs f.logInterval)

/-- The best master that stands for the choice. -/
def bestMaster (t : BitVec 64) (l : List Foreign) : Option Foreign :=
  (l.filter (eligible t)).foldl (fun b f => match b with
    | none => some f
    | some g => if betterMaster f g then some f else b) none

/-- An Announce noted for its master. -/
def noteAnnounce (t : BitVec 64) (m : List Byte) (l : List Foreign) : List Foreign :=
  let src := ptpSource m
  let near := l.any (fun f => f.source = src && decide ((t - f.last).toNat < 4 * logNs (ptpLog m)))
  let f : Foreign := { source := src, quality := announced m, steps := be16 m 61, logInterval := ptpLog m, last := t, qualified := near }
  (l.filter (fun g => g.source != src)) ++ [f]

/-- The master chosen at an instant; a new one begins without a measured delay, and its Syncs count anew (R350). -/
def chooseMaster (b : Nat) (t : BitVec 64) (s : State) : State :=
  let v := ptpRun s b
  let m := (bestMaster t v.foreign).map (·.source)
  if m = v.master then s
  else setBase (setPtp s b { v with master := m, awaiting := none, ms := none, asked := none, delay := none }) b { base s b with good := 0 }

/-- The count of base b at an instant of ST. -/
def baseAt (s : State) (b : Nat) (t : BitVec 64) : BitVec 64 := wholeNs (base s b).val - (now s - t)

/-- A Sync measured: it left the master at t1 and came at t2 of the base, correction c. With a measured delay it counts towards
the lock, and the base learns its offset (R350, R352). -/
def measureSync (b : Nat) (t1 t2 : BitVec 64) (c : Int) (s : State) : State :=
  let v := ptpRun s b
  let ms := (t2 - t1).toInt - c
  let s1 := noteInput b v.delay.isSome (setPtp s b { v with ms := some ms, awaiting := none })
  match v.delay with
  | some d => discipline b (d - ms) s1
  | none => s1

/-- A Sync of the chosen master: a two-step one waits for its Follow_Up (R363). -/
def takeSync (b : Nat) (t : BitVec 64) (m : List Byte) (s : State) : State :=
  let s1 := countTime b (setPtp s b { ptpRun s b with syncLog := ptpLog m })
  if twoStep m then setPtp s1 b { ptpRun s1 b with awaiting := some (ptpSeq m, baseAt s1 b t, ptpCorrection m) }
  else measureSync b (ptpTime m) (baseAt s1 b t) (ptpCorrection m) s1

/-- A Follow_Up of the chosen master, for the Sync of its sequenceId (R363). -/
def takeFollowUp (b : Nat) (m : List Byte) (s : State) : State :=
  match (ptpRun s b).awaiting with
  | some (q, t2, c) => if q = ptpSeq m then measureSync b (ptpTime m) t2 (c + ptpCorrection m) s else s
  | none => s

/-- A Delay_Resp of the chosen master to this device's last Delay_Req: the delay is half of both measured differences (R363). -/
def takeDelayResp (b : Nat) (m : List Byte) (s : State) : State :=
  let v := ptpRun s b
  match v.asked, v.ms with
  | some t3, some ms =>
    if slice m 44 10 = ownPortId (ptpCfg s b) && (ptpSeq m + 1) % 65536 = v.seq then
      setPtp s b { v with asked := none, delay := some ((ms + ((ptpTime m - t3).toInt - ptpCorrection m)) / 2) }
    else s
  | _, _ => s

/-- A message for the slave clock of domain b, stamped at t (R363): Announces choose the master, and the rest is taken from the
master alone. -/
def slaveClock (b p : Nat) (t : BitVec 64) (l : List Byte) (s : State) : State :=
  if !ptpFor (ptpCfg s b) p l then s
  else
    let m := ptpMessage l
    if ptpType l = 11 then
      chooseMaster b t (setPtp s b { ptpRun s b with foreign := noteAnnounce t m (ptpRun s b).foreign })
    else
      let s1 := chooseMaster b t s
      if (ptpRun s1 b).master != some (ptpSource m) then s1
      else match ptpType l with
        | 0 => takeSync b t m s1
        | 8 => takeFollowUp b m s1
        | 9 => takeDelayResp b m s1
        | _ => s1

/-- The 44 bytes of a Delay_Req of a domain with a sequenceId. -/
def delayReq (c : PtpCfg) (q : Nat) : List Byte :=
  [0x01#8, 0x12#8, 0#8, 44#8, c.domain] ++ List.replicate 15 0#8 ++ ownPortId c ++ beBytes 2 q ++ [1#8, 0x7F#8] ++ List.replicate 10 0#8

/-- The Ethernet frame of a Delay_Req over the chosen transport, tagged as set (R363); without FCS, filled to 60 bytes. -/
def delayReqFrame (c : PtpCfg) (q : Nat) : List Byte :=
  let tag := if c.tagged then beBytes 2 0x8100 ++ beBytes 2 c.vid.toNat else []
  let dst := if c.udp then 0x333300000181 else 0x011B19000000
  let head := beBytes 6 dst ++ beBytes 6 c.mac.toNat ++ tag
  let l := if c.udp then
      head ++ beBytes 2 0x86DD ++ beBytes 4 0x60000000 ++ beBytes 2 52 ++ [17#8, 64#8] ++ beBytes 16 c.ip.toNat
        ++ beBytes 16 0xFF0E0000000000000000000000000181 ++ beBytes 2 319 ++ beBytes 2 319 ++ beBytes 2 52 ++ [0#8, 0#8] ++ delayReq c q
    else head ++ beBytes 2 0x88F7 ++ delayReq c q
  fixUdp l ++ List.replicate (60 - l.length) 0#8

/-- A Delay_Req leaves (R363): stamped as it crosses the lands plus the port's transmit TS_LATENCY (R362); one that its
predecessor's answer has not overtaken counts as a time-out (R384). -/
def askDelay (b : Nat) (s : State) : State :=
  let c := ptpCfg s b
  let v := ptpRun s b
  let s1 := if v.asked.isSome then countTime 2 s else s
  let t := wholeNs (base s b).val + BitVec.ofNat 64 (bhCfg s c.port).tsTx
  let s2 := setPtp s1 b { v with asked := some t, seq := (v.seq + 1) % 65536 }
  sendBh c.port (delayReqFrame c v.seq) { s2 with out := { s2.out with ptp := s2.out.ptp ++ [(c.port, 1)] } }

/-- DELAY_REQ_SEND (R363): every 2^LOG_DELAY_REQ s an enabled slave clock with a master sends a Delay_Req, messageType 1, on its
port when that can send; a member without the reins drives nothing (R401). -/
def execDelayReqSend (b : Fin 2) (s : State) : Host.Outcome State Fault Refusal :=
  .next (if (ptpCfg s b.val).enable && (ptpRun s b.val).master.isSome && bhReady s (ptpCfg s b.val).port && !nonHolder s
      && periodDue (.delayReq b.val) (logNs (ptpCfg s b.val).logDelay.toInt) s then
    askDelay b.val (ranNow (.delayReq b.val) s)
  else s)

/-- A PTP message that came by backhaul port p with stamp t: to the slave clocks and through the transparent clock (R363,
R364). -/
def takePtp (p : Nat) (t : BitVec 64) (l : List Byte) (s : State) : State :=
  if peerDelay (ptpType l) then countTime 8 s
  else
    let s1 := slaveClock 1 p t l (slaveClock 0 p t l s)
    if bit s.cfg.time.tcPorts p then clockForward (bhCfg s p).tsRx (clockPorts s1 (some p)) (clockLinks s1) l s1 else s1

end Sys2Proof.Machine
end

