-- ==== Sys2Proof/Machine/Backhaul.lean ====
section
/-! DEFINITION. The backhaul ports BH0 and BH1 (R318-R327, R348): judging received frames, transmission, link changes, and the port commands. -/

namespace Sys2Proof.Machine

/-! ### Receive (R319-R324) -/

/-- The destination passes the port's filter (R320). -/
def filterMatches (v : BhCfg) (a : BitVec 48) : Bool :=
  v.filters.any (fun e => e.2 = a) || (v.bcast && a = BitVec.allOnes 48)

/-- The tenant of a frame (R322). -/
def tenantOf (v : BhCfg) (l : List Byte) : Option Nat :=
  if vidOf l = 0 then (if v.untagged = 0xFFFF#16 then none else some v.untagged.toNat) else tabFind v.vlan (vidOf l)

/-- A frame record's bytes (R324). -/
def frameRecord (code p : Nat) (v : BhCfg) (trunc : Bool) (f : EthIn) : List Byte :=
  let kept := if trunc then f.bytes.take (v.maxFrame - 4) else f.bytes
  let t := f.tRx - BitVec.ofNat 64 v.tsRx
  let head := [pair16 code p,
    w32 (kept.length + 65536 * vidOf f.bytes + 268435456 * flag (vlanTagged f.bytes) + 536870912 * flag trunc)] ++ loHi t
  (head ++ wordsOfBytes kept).flatMap wordBytes

/-- A frame longer than MAX_FRAME: marked, counted, and kept for the diagnostic queue alone (R321). -/
def truncated (p : Nat) (v : BhCfg) (f : EthIn) (s : State) : State :=
  let s1 := bhTrouble .bhTrunc p (countBh 4 p s)
  if v.diag then pushBytes 33 (frameRecord 0x0802 p v true f) s1 else s1

/-- A frame for the port control queue (R323). -/
def toControl (p : Nat) (v : BhCfg) (f : EthIn) (s : State) : State :=
  if v.ctrlQ = 0 then countBh 10 p s else pushBytes v.ctrlQ (frameRecord 0x0801 p v false f) (countBh 9 p s)

/-! ### Judging a received frame (R319) -/

/-- An IPv6 destination in fe80::/10 or ff02::/16 (R323). -/
def controlDst (q : List Byte) : Bool :=
  (byteAt q 24 = 0xFE && byteAt q 25 / 64 = 2) || (byteAt q 24 = 0xFF && byteAt q 25 = 2)

/-- A frame classified by R323. -/
def classifyFrame (p tenant : Nat) (v : BhCfg) (f : EthIn) (s : State) : State :=
  let t := etherType f.bytes
  let q := etherPayload f.bytes
  if t = 0x88F7 || ptpUdp f.bytes then takePtp p (f.tRx - BitVec.ofNat 64 v.tsRx) f.bytes (countBh 8 p s)
  else if t = 0x86DD && !controlDst q then resolvePacket (packetOf tenant (ipv6Trim q)) (countBh 7 p s)
  else toControl p v f s

/-- The FCS of a frame is right (R319). -/
def fcsOk (f : EthIn) : Bool := crc32 f.bytes = f.fcs

/-- A frame that has arrived on an enabled port, by the steps of R319. -/
def judgeFrame (p : Nat) (v : BhCfg) (f : EthIn) (s0 : State) : State :=
  let s := countBh 0 p s0
  if f.bytes.length + 4 < 64 then countBh 1 p s
  else if !filterMatches v (dstMac f.bytes) then countBh 2 p s
  else if !fcsOk f then bhTrouble .bhFcs p (countBh 3 p s)
  else if v.maxFrame < f.bytes.length + 4 then truncated p v f s
  else if etherType f.bytes = 0x8808 then countBh 5 p s
  else match tenantOf v f.bytes with
    | none => countBh 6 p s
    | some t => classifyFrame p t v f s

/-- A frame received; a disabled port receives none. -/
def receiveFrame (p : Nat) (f : EthIn) (s : State) : State := if (bhCfg s p).enable then judgeFrame p (bhCfg s p) f s else s

/-- A frame on the lanes of a member without the reins: kept for 1 ms, for the mirrored input that names it (R398, R400, R411). -/
def hearFrame (p : Nat) (f : EthIn) (s : State) : State :=
  let kept := s.tan.bhHeard.filter (fun e => !reached s (e.1 + 1000000#64))
  { s with tan := { s.tan with bhHeard := kept ++ [(now s, p, f)] } }

/-- A frame as the holder mirrors it: its port, length and CRC-32C (R400). -/
def mirrorFrame (p : Fin 2) (f : EthIn) (s : State) : State :=
  if (bhCfg s p.val).enable then mirrorOut (.backhaul p (f.bytes.length + 4) (crc32c f.bytes)) s else s

/-- BH_FRAME_RECEIVED (R319, R400). -/
def execBhFrameReceived (p : Fin 2) (f : EthIn) (s : State) : Host.Outcome State Fault Refusal :=
  .next (if nonHolder s then hearFrame p.val f s else receiveFrame p.val f (mirrorFrame p f s))

/-- The frame on the member's own lanes that a mirrored input names (R400). -/
def takeMirrored (p len : Nat) (crc : Word) (s : State) : State :=
  match s.tan.bhHeard.find? (fun e => e.2.1 = p && e.2.2.bytes.length + 4 = len && crc32c e.2.2.bytes = crc) with
  | some e => receiveFrame p e.2.2 { s with tan := { s.tan with bhHeard := s.tan.bhHeard.erase e } }
  | none => s

/-- The frames of the last 1 ms that the mirror stream did not cover, taken at a takeover in the order in which they came
(R411). -/
def takeUncovered (s : State) : State :=
  let l := s.tan.bhHeard.filter (fun e => !reached s (e.1 + 1000000#64))
  l.foldl (fun t e => receiveFrame e.2.1 e.2.2 t) { s with tan := { s.tan with bhHeard := [] } }

/-! ### Transmit (R325, R326) -/

/-- The internal unit of a port finds a whole packet in a queue that it consumes (R44, R52). -/
def portPacket (s : State) (q : Nat) : Option (List Byte) :=
  if (que s q).consumer = 2#2 then headPacket (que s q) else none

/-- The queues of a port that hold a packet, rising. -/
def portQueues (s : State) (p : Nat) : List Nat :=
  let h := (bhCfg s p).hostTxq
  let l := if h = 0 || h = 64 + p then [64 + p] else if h < 64 + p then [h, 64 + p] else [64 + p, h]
  l.filter (fun q => (portPacket s q).isSome)

/-- The queue whose turn it is: the first with a packet behind the one last served, going round (R16). -/
def portTurn (s : State) (p : Nat) : Option Nat :=
  let l := portQueues s p
  (l.find? (fun q => (bhRun s p).lastQ < q)).or l.head?

/-- The head packet of a queue taken for the port. -/
def servedHead (p q : Nat) (s : State) : State :=
  let s1 := setQue s q (takePacket (que s q))
  setBh s1 p { bhRun s1 p with lastQ := q }

/-- A frame padded to 60 bytes (R325, R326). -/
def padFrame (l : List Byte) : List Byte := l ++ List.replicate (60 - l.length) 0#8

/-- The 802.1Q tag of a VID with a PCP. -/
def vlanTag (pcp vid : Nat) : List Byte := [0x81#8, 0x00#8] ++ beBytes 2 (pcp * 8192 + vid)

/-- The tag of a packet's frame: the entry's, or FOREIGN_VID with the entry's PCP (R325, R392). -/
def egressTag (v : BhCfg) (e : Egress) (foreign : Bool) : List Byte :=
  if foreign then vlanTag e.pcp.toNat v.foreignVid
  else if e.tagged then vlanTag e.pcp.toNat e.vid.toNat else []

/-- The frame of a packet (R325). -/
def egressFrame (v : BhCfg) (e : Egress) (foreign : Bool) (l : List Byte) : List Byte :=
  padFrame (beBytes 6 e.dst.toNat ++ beBytes 6 e.src.toNat ++ egressTag v e foreign ++ [0x86#8, 0xDD#8] ++ l)

/-- A packet of the egress queue, behind its tenant word (log 45), sent or dropped (R325). -/
def sendEgress (p : Nat) (b : List Byte) (s : State) : State :=
  let v := bhCfg s p
  match tabFind v.egress (byteAt b 0) with
  | none => countBh 12 p s
  | some e =>
    let f := egressFrame v e (byteAt b 1 != 0) (b.drop 8)
    if v.maxFrame < f.length + 4 then countBh 13 p s else sendBh p f (countBh 11 p s)

/-- A packet of the host transmit queue sent or dropped (R326). -/
def sendHostFrame (p : Nat) (b : List Byte) (s : State) : State :=
  if b.length < 14 || (bhCfg s p).maxFrame - 4 < b.length then countBh 15 p s else sendBh p (padFrame b) (countBh 14 p s)

/-- The port serves queue q, when it can and the turn is that queue's (R326, R327). -/
def servePort (p q : Nat) (send : List Byte → State → State) (s : State) : State :=
  if bhReady s p && portTurn s p = some q then
    match portPacket s q with
    | some b => send b (servedHead p q s)
    | none => s
  else s

/-- BH_FRAME_TRANSMIT (R325). -/
def execBhFrameTransmit (p : Fin 2) (s : State) : Host.Outcome State Fault Refusal :=
  .next (servePort p.val (64 + p.val) (sendEgress p.val) s)

/-- HOST_TX_FRAME (R326). -/
def execHostTxFrame (p : Fin 2) (s : State) : Host.Outcome State Fault Refusal :=
  let q := (bhCfg s p.val).hostTxq
  .next (if q = 0 || q = 64 + p.val then s else servePort p.val q (sendHostFrame p.val) s)

/-! ### Link changes (R327) -/

/-- BH_LINK_DOWN (R327). -/
def execBhLinkDown (p : Fin 2) (s : State) : Host.Outcome State Fault Refusal :=
  .next (if (bhRun s p.val).up then raise (.bhDown p) (setBh s p.val { bhRun s p.val with up := false }) else s)

/-- BH_LINK_UP (R327): an enabled port has its link. -/
def execBhLinkUp (p : Fin 2) (s : State) : Host.Outcome State Fault Refusal :=
  .next (if (bhCfg s p.val).enable then setBh s p.val { bhRun s p.val with up := true } else s)

/-! ### Commands (R348) -/

/-- A queue number from 64 on, or 0 for none. -/
def queueOrNone (n : Nat) : Bool := n = 0 || (64 ≤ n && n ≤ 1023)

/-- A tenant, or 0xFFFF for none. -/
def tenantOrNone (n : Nat) : Bool := n ≤ 255 || n = 65535

def bhPortSetSpec : CmdSpec :=
  { plainSpec 0x0800 6 (fun c => within c 0 0 1 && fits c 1 8 && within c 2 1518 9216 && tenantOrNone (pn c 3)
      && queueOrNone (pn c 4) && queueOrNone (pn c 5)) (fun c s =>
      let p := pn c 0
      let v : BhCfg := { bhCfg s p with
        enable := bit (pw c 1) 0, bcast := bit (pw c 1) 1, diag := bit (pw c 1) 2, fec := bit (pw c 1) 3
        polarity := (pw c 1 >>> 4).setWidth 4, maxFrame := pn c 2, untagged := (pw c 3).setWidth 16, ctrlQ := pn c 4, hostTxq := pn c 5 }
      let s1 := setBhCfg s p v
      done (if v.enable then s1 else setBh s1 p { bhRun s1 p with up := false })) with
    ready := fun c s =>
      let v := bhCfg s (pn c 0)
      !v.enable || (v.fec = bit (pw c 1) 3 && v.polarity = (pw c 1 >>> 4).setWidth 4) }

/-- BH_PORT_SET (R321, R348): FEC and lane polarity change only while the port is disabled. -/
def execBhPortSet (c : Packet) (s : State) : Host.Outcome State Fault Refusal := runCommand bhPortSetSpec c s

/-- A 48-bit address from words i and i + 1. -/
def macOf (c : Packet) (i : Nat) : BitVec 48 := (p64 c i).setWidth 48

def bhFilterSetSpec : CmdSpec := plainSpec 0x0801 5
  (fun c => within c 0 0 1 && within c 1 0 15 && fits c 3 16 && only c 4 1 && macOf c 2 != BitVec.allOnes 48) (fun c s =>
  let v := bhCfg s (pn c 0)
  let l := if bit (pw c 4) 0 then tabSet v.filters (pn c 1) (macOf c 2) else tabDel v.filters (pn c 1)
  done (setBhCfg s (pn c 0) { v with filters := l }))

/-- BH_FILTER_SET (R320). -/
def execBhFilterSet (c : Packet) (s : State) : Host.Outcome State Fault Refusal := runCommand bhFilterSetSpec c s

def bhVlanSetSpec : CmdSpec := plainSpec 0x0802 3 (fun c => within c 0 0 1 && within c 1 1 4094 && tenantOrNone (pn c 2)) (fun c s =>
  let v := bhCfg s (pn c 0)
  let l := if pn c 2 = 65535 then tabDel v.vlan (pn c 1) else tabSet v.vlan (pn c 1) (pn c 2)
  done (setBhCfg s (pn c 0) { v with vlan := l }))

/-- BH_VLAN_SET (R322). -/
def execBhVlanSet (c : Packet) (s : State) : Host.Outcome State Fault Refusal := runCommand bhVlanSetSpec c s

def bhEgressSetSpec : CmdSpec := plainSpec 0x0803 7
  (fun c => within c 0 0 1 && within c 1 0 255 && fits c 3 16 && fits c 5 16 && fits c 6 17) (fun c s =>
  let v := bhCfg s (pn c 0)
  let e : Egress := { dst := macOf c 2, src := macOf c 4, vid := (pw c 6).setWidth 12, pcp := (pw c 6 >>> 12).setWidth 3, tagged := bit (pw c 6) 15 }
  let l := if bit (pw c 6) 16 then tabSet v.egress (pn c 1) e else tabDel v.egress (pn c 1)
  done (setBhCfg s (pn c 0) { v with egress := l }))

/-- BH_EGRESS_SET (R325). -/
def execBhEgressSet (c : Packet) (s : State) : Host.Outcome State Fault Refusal := runCommand bhEgressSetSpec c s

/-- Depth of a queue in words, 0 for none. -/
def depthOf (s : State) (q : Nat) : Nat := if q = 0 then 0 else (que s q).words.length

def bhStatusSpec : CmdSpec := plainSpec 0x0804 1 (fun c => within c 0 0 1) (fun c s =>
  let v := bhCfg s (pn c 0)
  doneWith [w32 (flag (bhRun s (pn c 0)).up + 2 * flag v.fec), w32 v.maxFrame, w32 (depthOf s (64 + pn c 0)),
            w32 (depthOf s v.hostTxq)] s)

/-- BH_STATUS (R348). -/
def execBhStatus (c : Packet) (s : State) : Host.Outcome State Fault Refusal := runCommand bhStatusSpec c s

def bhCountersReadSpec : CmdSpec := plainSpec 0x0805 2 (fun c => within c 0 0 1 && only c 1 1) (fun c s =>
  let v := bhRun s (pn c 0)
  doneWith (v.counters.map w32)
    (if bit (pw c 1) 0 then setBh s (pn c 0) { v with counters := List.replicate 16 0 } else s))

/-- BH_COUNTERS_READ (R348). -/
def execBhCountersRead (c : Packet) (s : State) : Host.Outcome State Fault Refusal :=
  runCommand bhCountersReadSpec c s

end Sys2Proof.Machine
end

