-- ==== Sys2Proof/Machine/Chain.lean ====
section
/-! DEFINITION. The image chain as a sender sees it (R474, R475): passing blocks on, resending, and the break. -/

namespace Sys2Proof.Machine

/-- Firmware slot k. -/
def fwSlot (s : State) (k : Nat) : FwSlot := tabGet s.fw.slots k {}

/-- The state with the firmware unit replaced. -/
def setFw (s : State) (v : Fw) : State := { s with fw := v }

/-- Contiguous good blocks of the slot loaded last (R484). -/
def heldBlocks (s : State) : List (List Byte) :=
  match s.fw.loading with
  | some k => (fwSlot s k).blocks
  | none => []

/-- Block count of the image loaded last. -/
def imageCount (s : State) : Nat :=
  match s.fw.loading with
  | some k => (fwSlot s k).count
  | none => 0

/-- The next device of the chain (R474). -/
def chainNext (s : State) : Option Nat := s.fw.chain.head?

/-- The chain breaks (R475): event 0x0C01, and FW_CHAIN_RESUME that waits for this device's answer ends. -/
def breakChain (s : State) : State :=
  match chainNext s with
  | some h =>
    let s1 := setFw s { s.fw with chainState := 2, chainBreak := some h, chainTries := 0, resume := none }
    let s2 := postEvent 0x0C01 h (w32 (heldBlocks s).length) s1
    match s.fw.resume with
    | some (q, t) => complete q t .refusedNoRoute [] s2
    | none => s2
  | none => s

/-- The block now due sent to the next device, the k-th time (R475). -/
def sendBlock (k : Nat) (s : State) : State :=
  match chainNext s, (heldBlocks s)[s.fw.chainAt]? with
  | some h, some b =>
    if reachable s h then
      let s1 := originate (.chainBlock h s.fw.chainAt (imageCount s) (s.fw.chain.drop 1) b) s
      ranNow .chainAck (setFw s1 { s1.fw with chainTries := k })
    else breakChain s
  | _, _ => s

/-- The next block sent once it is held and the one before is acknowledged (R474). -/
def passBlock (s : State) : State :=
  if s.fw.chainState = 1 && s.fw.chainTries = 0 then sendBlock 1 s else s

/-- The chain breaks when the next device has become unreachable (R475). -/
def checkChain (s : State) : State :=
  match chainNext s with
  | some h => if s.fw.chainState = 1 && !reachable s h then breakChain s else s
  | none => s

end Sys2Proof.Machine
end

