-- ==== Sys2Proof/Machine/HerdLinks.lean ====
section
/-! DEFINITION. The herd links (R328-R337, R348): presence (R387), link changes, peer resets, flits received, sent and sent
again, messages put together, and the link commands. -/

namespace Sys2Proof.Machine

/-! ### Presence (R387) -/

/-- A membership message on every link that is up (R387). -/
def tellMembership (s : State) : State :=
  let m := presentMask s
  (linksUp s).foldl (fun t l => originate (.membership l m) t) s

/-- A member's times of absence and presence brought up to date (R388, R393). -/
def datePresence (s : State) (h : Nat) : State :=
  let v := peerOf s h
  if present s h then
    if v.present.isSome then s else setPeer s h { v with present := some (now s), absent := none }
  else if v.absent.isSome then s
  else setPeer s h { v with absent := some (now s), present := none }

/-- What follows a change of links, routes, members or messages: times of absence, a message at a change of the present set,
and packets that waited for a member that can be reached again (R387, R388, R392). -/
def refreshPresence (s : State) : State :=
  let s1 := (maskList (members s)).foldl datePresence s
  let s2 := { s1 with herd := { s1.herd with lost := s1.herd.lost &&& ~~~ presentMask s1 } }
  let s3 := (s2.herd.egress.map (·.1)).foldl (fun t h => releaseTo h t) s2
  if s3.herd.shown = presentMask s3 then s3
  else tellMembership { s3 with herd := { s3.herd with shown := presentMask s3 } }

/-! ### Peer resets (R337, R396) -/

/-- The commands forwarded to a peer complete from the entry device (R33). -/
def retryForwarded (h : Nat) (s : State) : State :=
  let l := s.cmd.forwarded.filter (fun f => f.peer = h)
  let s1 := { s with cmd := { s.cmd with forwarded := s.cmd.forwarded.filter (fun f => f.peer != h) } }
  l.foldl (fun t f => sendReply { queue := f.queue, tag := f.tag } .retryPeerReset [] t) s1

/-- Home moves to a peer end and leave the homes unchanged (R315). -/
def retryMoves (h : Nat) (s : State) : State :=
  (s.fwd.moves.filter (fun m => m.target = h)).foldl
    (fun t m => complete m.queue m.tag .retryPeerReset [] (dropMove m t)) s

/-- The candidates out at a peer come back as for a member that cannot be reached (R268, R396). -/
def returnCandidates (h : Nat) (s : State) : State :=
  let mine := s.sched.sentTo.filter (fun e => match tabFind s.fwd.nodes e.1 with
    | some r => txMember r = some h
    | none => false)
  let s1 := { s with sched := { s.sched with sentTo := s.sched.sentTo.filter (fun e => !mine.contains e) } }
  mine.foldl (fun t e => match tabFind t.fwd.nodes e.1 with
    | some r =>
      let x : OutcomeIn := { net := Fin.ofNat 16 r.net, dst := r.addr, t0 := e.2.1, admitted := false, status := statusCode .deferredCapacity }
      if e.2.2 = 0 then settleItem x t else t
    | none => t) s1

/-- A delay survey towards a peer that has reset breaks (R370). -/
def breakSurvey (h : Nat) (s : State) : State :=
  match s.time.survey with
  | some u => if !u.measured && u.path.getD (u.pos + 1) 64 = h then finishSurvey u.path (some u.pos) s else s
  | none => s

/-- Cut notices to a device: not sent to one whose boot epoch has changed since its report (R185). -/
def noticeTo (h : Nat) : HerdMsg → Bool
  | .notice d _ => d = h
  | _ => false

/-- The notices that wait for a peer discarded (R185). -/
def dropNotices (h : Nat) (s : State) : State :=
  { s with out := { s.out with herd := s.out.herd.filter (fun m => !noticeTo h m) },
           herd := { s.herd with again := s.herd.again.filter (fun m => !noticeTo h m.1) } }

/-- A peer has reset: its epoch recorded, its message numbers open, and what it owed or held settled (R185, R337, R396). -/
def peerReset (h : Nat) (e : Word) (s0 : State) : State :=
  let s := dropNotices h s0
  let v := peerOf s h
  let s1 := setPeer s h { v with epoch := some e, seqReq := none, seqRsp := none }
  let s2 := { s1 with herd := { s1.herd with reasm := s1.herd.reasm.filter (fun r => r.src != h) } }
  let s3 := postEvent 0x0822 h e (raise .peerReset s2)
  breakSurvey h (returnCandidates h (retryMoves h (abandonAll (BitVec.ofNat 8 (64 + h)) (retryForwarded h s3))))

/-- What an epoch seen from a source says: older, or newer and recorded; the first one is recorded in silence (R337). -/
def noteEpoch (h : Nat) (e : Word) (s : State) : Bool × State :=
  match (peerOf s h).epoch with
  | none => (true, setPeer s h { peerOf s h with epoch := some e })
  | some known =>
    if (e - known).toInt < 0 then (false, s)
    else if e = known then (true, s) else (true, peerReset h e s)

/-! ### Link changes (R330, R331) -/

/-- Link counter i of link l raised (R348, R149). -/
def countHerd (i l : Nat) (s : State) : State :=
  setHlink s l { hlink s l with counters := listMod (hlink s l).counters i (fun k => saturate 32 (k + 1)) }

/-- Link l is the one wired to the tandem partner. -/
def tandemLink (s : State) (l : Nat) : Bool := s.tan.joined && s.tan.link = l

/-- The messages of a link that are not wholly acknowledged, in the order of their sending, each once (R336). -/
def unsettled (v : HLink) : List (HerdMsg × Nat) :=
  (v.unacked.filterMap (fun f => f.msg.map (fun m => (m, f.msgSeq))) ++ v.sending.map (fun e => (e.2.msg, e.2.msgSeq))).eraseDups

/-- A link leaves service: what it held is sent again by the links now in force, and its flits are forgotten (R336). -/
def dropLink (l : Nat) (s : State) : State :=
  let v := hlink s l
  let s1 := setHlink s l { v with up := false, unacked := [], transit := [], sending := [], txSeq := 0, rxSeq := 0, nak := false,
                                  credits := [32, 32, 32, 32], owed := [0, 0, 0, 0], surveys := [], rxAny := false,
                                  good := 0 }
  let herd : Herd := { s1.herd with again := s1.herd.again ++ unsettled v, told := tabDel s1.herd.told l }
  checkChain (refreshPresence { s1 with herd := herd })

/-- A link goes down (R331). -/
def failLink (l : Nat) (s : State) : State :=
  dropLink l (postEvent 0x0820 l 0#32 (raise (.herdDown (Fin.ofNat 4 l)) (countHerd 5 l s)))

/-- HERD_LINK_DOWN (R331). -/
def execHerdLinkDown (l : Fin 4) (s : State) : Host.Outcome State Fault Refusal :=
  .next (if (hlink s l.val).up then failLink l.val s else s)

/-- The link is held down: not enabled, or to a peer of a member that has lost the reins (R407). -/
def linkBarred (s : State) (l : Nat) : Bool :=
  !(tabGet s.cfg.herd.links l {}).enable || (s.tan.peerDown && !tandemLink s l)

/-- A link comes up with a neighbour (R330). -/
def raiseLink (l h : Nat) (e : Word) (s : State) : State :=
  let p := if h = ownHid s then (true, s) else noteEpoch h e s
  if p.1 then
    let s1 := setHlink p.2 l { hlink p.2 l with up := true, neighbour := some h, nEpoch := e }
    refreshPresence (postEvent 0x0821 l (w32 h) s1)
  else countHerd 8 l s

/-- A neighbour with the device's own herd ID holds the link down, unless it is the tandem partner (R330, R397). -/
def duplicateId (l h : Nat) (e : Word) (s : State) : State :=
  let s1 := setHlink s l { hlink s l with neighbour := some h, nEpoch := e }
  postEvent 0x0820 l 1#32 (raise (.herdDown (Fin.ofNat 4 l)) s1)

/-- HERD_LINK_UP (R330): 64 consecutive good flits have come. -/
def execHerdLinkUp (l : Fin 4) (hid : Fin 64) (epoch : Word) (s : State) : Host.Outcome State Fault Refusal :=
  .next (if linkBarred s l.val || (hlink s l.val).up || (hlink s l.val).good < 64 then s
    else if hid.val = ownHid s && !tandemLink s l.val then duplicateId l.val hid.val epoch s
    else raiseLink l.val hid.val epoch s)

/-! ### Flits (R328) -/

/-- Check of a received flit's CRC: good, stomped, or bad (R331). -/
inductive FlitCrc where
  | good
  | stomped
  | bad
  deriving DecidableEq, Repr

/-- The fields of a flit (R328). -/
structure Flit where
  dst : Fin 64
  src : Fin 64
  vc : Bool
  cls : Bool
  first : Bool
  last : Bool
  typ : Byte
  seq : BitVec 8
  epoch : Word
  msgSeq : BitVec 16
  bytes : Byte
  hops : BitVec 4
  ack : Option (BitVec 8)
  nak : Bool
  credits : List (Fin 16)
  payload : List Word
  crc : FlitCrc
  ptp : Option (List Byte)
  deriving DecidableEq, Repr

/-- The CRC of a flit: of bytes 0 to 251 (R328). -/
def flitCrc (ws : List Word) : Word := crc32 (bytesOfWords ws 252)

/-- What word 63 of a flit says: the inverse of the right CRC marks a stomped one (R331). -/
def checkFlit (ws : List Word) : FlitCrc :=
  if ws.getD 63 0#32 = flitCrc ws then .good else if ws.getD 63 0#32 = ~~~ flitCrc ws then .stomped else .bad

/-- The fields of a received flit (R328). -/
def flitOf (x : FlitIn) : Flit :=
  let w0 := x.words.getD 0 0#32
  let w2 := x.words.getD 2 0#32
  let w3 := x.words.getD 3 0#32
  { dst := Fin.ofNat 64 (bits w0 5 0), src := Fin.ofNat 64 (bits w0 11 6), vc := bit w0 12, cls := bit w0 13, first := bit w0 14,
    last := bit w0 15, typ := (w0 >>> 16).setWidth 8, seq := (w0 >>> 24).setWidth 8, epoch := x.words.getD 1 0#32,
    msgSeq := w2.setWidth 16, bytes := (w2 >>> 16).setWidth 8, hops := (w2 >>> 24).setWidth 4,
    ack := if bit w3 8 then some (w3.setWidth 8) else none, nak := bit w3 9,
    credits := [Fin.ofNat 16 (bits w3 19 16), Fin.ofNat 16 (bits w3 23 20), Fin.ofNat 16 (bits w3 27 24), Fin.ofNat 16 (bits w3 31 28)],
    payload := (x.words.drop 4).take 59, crc := checkFlit x.words, ptp := x.ptp }

/-- Words 0 to 2 of a flit sent (R328). -/
def flitHead (f : FlitRec) : List Word :=
  [w32 (f.dst % 64 + 64 * (f.src % 64) + 4096 * flag f.vc + 8192 * flag f.cls + 16384 * flag f.first + 32768 * flag f.last
     + 65536 * (f.typ % 256) + 16777216 * (f.seq % 256)), f.epoch,
   w32 (f.msgSeq % 65536 + 65536 * (f.bytes % 256) + 16777216 * (f.hops % 16))]

/-- Word 3 of a flit sent on a link: acknowledgement, NAK and the credits returned (R328, R331). -/
def linkWord (v : HLink) : Word :=
  let owed (i : Nat) : Nat := min 15 (v.owed.getD i 0)
  w32 ((v.rxSeq + 255) % 256 + 256 * flag v.rxAny + 512 * flag v.nak + 65536 * owed 0 + 1048576 * owed 1 + 16777216 * owed 2
    + 268435456 * owed 3)

/-- A flit put on a link's line; what its word 3 returns is owed no more. -/
def lineFlit (l : Nat) (stomped : Bool) (f : FlitRec) (s : State) : State :=
  let v := hlink s l
  let s1 := setHlink s l { v with nak := false, owed := v.owed.map (fun k => k - min k 15) }
  { s1 with out := { s1.out with flits := s1.out.flits ++ [(l, stomped, flitHead f ++ [linkWord v])] } }

/-- A link-control flit: herd ID and epoch of this device, acknowledgement and credits, and no SEQ (R330; its other fields
are zero, DESIGN CHOICE, log 118). -/
def sendControl (l : Nat) (s : State) : State :=
  lineFlit l false { dst := (hlink s l).neighbour.getD 0, src := ownHid s, epoch := herdEpoch s, first := false, last := false } s

/-! ### Messages on the line (R329) -/

/-- TYPE of a message (R329). -/
def msgType : HerdMsg → Nat
  | .command _ _ _ => 0x01
  | .reply _ _ => 0x02
  | .frame _ _ => 0x03
  | .homeAck _ _ => 0x04
  | .packet _ _ => 0x05
  | .moveCopy _ _ => 0x05
  | .homeEntry _ _ _ _ _ => 0x05
  | .flood _ _ => 0x05
  | .report _ _ => 0x06
  | .notice _ _ => 0x06
  | .candidate _ _ => 0x07
  | .outcome _ _ => 0x08
  | .semAnswer _ _ _ => 0x09
  | .time _ _ => 0x0A
  | .ptp _ _ => 0x0A
  | .survey _ _ _ _ => 0x0A
  | .surveyEnd _ _ _ => 0x0A
  | .probe _ _ => 0x0A
  | .probeAnswer _ _ _ _ => 0x0A
  | .mirror _ _ _ => 0x0B
  | .reins _ => 0x0B
  | .membership _ _ => 0x0B
  | .digest _ _ => 0x0B
  | .chainBlock _ _ _ _ _ => 0x0C
  | .chainAck _ _ => 0x0C

/-- VC of a message: response for replies, returned acknowledgements, outcomes, answers and chain acknowledgements (R329). -/
def msgVc : HerdMsg → Bool
  | .reply _ _ => true
  | .homeAck _ _ => true
  | .outcome _ _ => true
  | .semAnswer _ _ _ => true
  | .chainAck _ _ => true
  | .probeAnswer _ _ _ _ => true
  | _ => false

/-- Where a message goes: to a herd ID, or to the neighbour on a link. -/
def msgDst (s : State) : HerdMsg → Nat ⊕ Nat
  | .command d _ _ => .inl d
  | .reply d _ => .inl d
  | .frame d _ => .inl d
  | .homeAck d _ => .inl d
  | .packet d _ => .inl d
  | .moveCopy d _ => .inl d
  | .homeEntry d _ _ _ _ => .inl d
  | .flood d _ => .inl d
  | .report d _ => .inl d
  | .notice d _ => .inl d
  | .candidate d _ => .inl d
  | .outcome d _ => .inl d
  | .semAnswer d _ _ => .inl d
  | .time l _ => .inr l
  | .ptp l _ => .inr l
  | .survey d _ _ _ => .inl d
  | .surveyEnd d _ _ => .inl d
  | .probe l _ => .inr l
  | .probeAnswer l _ _ _ => .inr l
  | .mirror _ _ _ => .inr s.tan.link
  | .reins _ => .inr s.tan.link
  | .membership l _ => .inr l
  | .digest _ _ => .inr s.tan.link
  | .chainBlock d _ _ _ _ => .inl d
  | .chainAck d _ => .inl d

/-- The link by which a message leaves now (R333). -/
def msgLink (s : State) (m : HerdMsg) : Option Nat :=
  match msgDst s m with
  | .inl d => routeLink s d
  | .inr l => if (hlink s l).up then some l else none

/-- DST of a message's flits. -/
def msgDstId (s : State) (m : HerdMsg) : Nat :=
  match msgDst s m with
  | .inl d => d
  | .inr l => (hlink s l).neighbour.getD 0

/-- The bytes of data of a mirrored input: what it adds to its stamp (DESIGN CHOICE, log 55). -/
def mirrorBytes : Mirrored → Nat
  | .command _ c => 8 + 4 * c.params.length
  | .backhaul _ _ _ => 8
  | .grants _ => 4
  | .blank _ _ => 4
  | .pps _ => 4
  | .capture _ _ => 4
  | .vote _ _ _ => 8
  | .herd m => match m with
    | .command _ _ c => 8 + 4 * c.params.length
    | .reply r => 4 * r.results.length
    | .frame _ h => 48 + h.bytes.length
    | .homeAck a => 24 + a.frame.length
    | .packet p => 12 + p.bytes.length
    | .flood f => 12 + f.frame.length
    | .report r _ => 4 * (reportWords r).length
    | .notice n => 28 + n.bytes.length
    | .candidate c => 40 + c.payload.length
    | .chainBlock b => 16 + b.rest.length + b.bytes.length
    | _ => 24

/-- The bytes of data that a message carries; the layouts that the spec does not give are counted by their content
(DESIGN CHOICE, log 55). -/
def msgBytes : HerdMsg → Nat
  | .command _ _ c => 8 + 4 * c.params.length
  | .reply _ ws => 4 * ws.length
  | .frame _ h => 48 + h.bytes.length
  | .homeAck _ a => 24 + a.frame.length
  | .packet _ p => 12 + p.bytes.length
  | .moveCopy _ _ => 256
  | .homeEntry _ _ _ _ _ => 20
  | .flood _ f => 12 + f.frame.length
  | .report _ r => 4 * (reportWords r).length
  | .notice _ n => 28 + n.bytes.length
  | .candidate _ c => 40 + c.payload.length
  | .outcome _ _ => 20
  | .semAnswer _ _ _ => 8
  | .time _ _ => 8
  | .ptp _ l => l.length
  | .survey _ p _ _ => 12 + p.length
  | .surveyEnd _ p _ => 8 + p.length
  | .probe _ _ => 8
  | .probeAnswer _ _ _ _ => 24
  | .mirror _ _ x => 12 + mirrorBytes x
  | .reins _ => 8
  | .membership _ _ => 8
  | .digest _ _ => 16
  | .chainBlock _ _ _ r b => 16 + r.length + b.length
  | .chainAck _ _ => 8

/-- Flits of a message: 1 to 44 of 236 bytes (R328, R329). -/
def msgFlits (m : HerdMsg) : Nat := min 44 (max 1 ((msgBytes m + 235) / 236))

/-! ### Sending (R331, R333, R334) -/

/-- Place of a credit among REQ0, REQ1, RSP0, RSP1. -/
def creditIndex (f : FlitRec) : Nat := 2 * flag f.vc + flag f.cls

/-- The link may send the flit: a credit of its channel and class, and room for its replay copy (R331, R334). -/
def maySend (v : HLink) (f : FlitRec) : Bool := 0 < v.credits.getD (creditIndex f) 0 && v.unacked.length < 64

/-- CLASS of a hop by the class rule of the route (R333). -/
def classFor (s : State) (dst : Nat) (cls : Bool) : Bool :=
  match (route s dst).rule with
  | 0 => cls
  | 1 => false
  | _ => true

/-- A flit leaves on a link: SEQ and a credit taken, kept for replay, acknowledgement and credits returned with it, and its
buffer given back to the link it came by (R328, R331, R334). -/
def sendFlit (l : Nat) (f : FlitRec) (s : State) : State :=
  let v := hlink s l
  let g : FlitRec := { f with seq := v.txSeq }
  let s1 := setHlink s l { v with txSeq := (v.txSeq + 1) % 256, unacked := v.unacked ++ [g],
                                  credits := listMod v.credits (creditIndex f) (· - 1) }
  let s2 := countHerd 0 l (lineFlit l false g s1)
  match f.ingress with
  | some i => setHlink s2 i { hlink s2 i with owed := listMod (hlink s2 i).owed (creditIndex f) (· + 1) }
  | none => s2

/-- The flit in transit on a link that is next in a channel. -/
def transitHead (v : HLink) (vc : Bool) : Option FlitRec := v.transit.find? (fun f => f.vc = vc)

/-- The message of a channel that a link sends next: the one begun, else the first to send again, else the first that
waits. -/
def ownHead (s : State) (l : Nat) (vc : Bool) : Option Sending :=
  match tabFind (hlink s l).sending (flag vc) with
  | some x => some x
  | none =>
    match s.herd.again.find? (fun e => msgVc e.1 = vc && msgLink s e.1 = some l) with
    | some (m, n) => some { msg := m, msgSeq := n, sent := 0 }
    | none =>
      (s.out.herd.find? (fun m => msgVc m = vc && msgLink s m = some l)).map
        (fun m => { msg := m, msgSeq := tabGet s.herd.msgSeq (2 * msgDstId s m + flag vc) 0, sent := 0 })

/-- The next flit of a message. -/
def ownFlit (s : State) (x : Sending) : FlitRec :=
  let d := msgDstId s x.msg
  { vc := msgVc x.msg, cls := classFor s d false, typ := msgType x.msg, dst := d, last := decide (msgFlits x.msg ≤ x.sent + 1)
    first := x.sent = 0, src := ownHid s, epoch := herdEpoch s, bytes := min 236 (msgBytes x.msg - 236 * x.sent)
    msg := some x.msg, msgSeq := x.msgSeq }

/-- A message begun leaves the ones that wait, and takes its MSG_SEQ the first time it is sent (R328, R336). -/
def beginMessage (x : Sending) (s : State) : State :=
  if x.sent != 0 then s
  else if s.herd.again.contains (x.msg, x.msgSeq) then
    { s with herd := { s.herd with again := s.herd.again.erase (x.msg, x.msgSeq) } }
  else
    let k := 2 * msgDstId s x.msg + flag (msgVc x.msg)
    { s with out := { s.out with herd := s.out.herd.erase x.msg }
             herd := { s.herd with msgSeq := tabSet s.herd.msgSeq k ((x.msgSeq + 1) % 65536) } }

/-- One flit of the device's own message sent. -/
def sendOwn (l : Nat) (x : Sending) (s : State) : State :=
  let f := ownFlit s x
  let s1 := sendFlit l f (beginMessage x s)
  let v := hlink s1 l
  let k := flag (msgVc x.msg)
  setHlink s1 l { v with sending := if f.last then tabDel v.sending k else tabSet v.sending k { x with sent := x.sent + 1 } }

/-- A channel of a link sends its next flit, one in transit first; none when it has none or no credit (R334). -/
def sendChannel (l : Nat) (vc : Bool) (s : State) : Option State :=
  let v := hlink s l
  match transitHead v vc with
  | some f => if maySend v f then some (sendFlit l f (setHlink s l { v with transit := v.transit.erase f })) else none
  | none =>
    match ownHead s l vc with
    | some x => if maySend v (ownFlit s x) then some (sendOwn l x s) else none
    | none => none

/-- Messages for a destination that cannot be reached are discarded and counted (R333). -/
def discardUnreachable (s : State) : State :=
  let lost := s.out.herd.filter (fun m => (msgLink s m).isNone)
  let again := s.herd.again.filter (fun e => (msgLink s e.1).isSome)
  let n := lost.length + (s.herd.again.length - again.length)
  { s with out := { s.out with herd := s.out.herd.filter (fun m => (msgLink s m).isSome) }
           herd := { s.herd with again := again, unreachable := s.herd.unreachable + n } }

/-- HERD_FLIT_TRANSMIT (R16, R330, R334): a response flit goes before a request flit, and a link-control flit when no message
flit may go; an enabled link that is not up sends link control alone. -/
def execHerdFlitTransmit (l : Fin 4) (s : State) : Host.Outcome State Fault Refusal :=
  .next (if (hlink s l.val).up then
    let t := discardUnreachable s
    ((sendChannel l.val true t).or (sendChannel l.val false t)).getD (sendControl l.val t)
  else if linkBarred s l.val then s
  else sendControl l.val s)

/-- A round of resending: every flit not acknowledged goes again; a flit sent again 16 times takes the link down (R331). -/
def resendAll (l : Nat) (s : State) : State :=
  let v := hlink s l
  if v.unacked.isEmpty then s
  else if v.unacked.any (fun f => 16 ≤ f.resends) then failLink l s
  else
    let s1 := setHlink s l { v with unacked := v.unacked.map (fun f => { f with resends := f.resends + 1 }) }
    let s2 := v.unacked.foldl (fun t f => lineFlit l false f t) s1
    raise (.herdRetry (Fin.ofNat 4 l)) (countHerd 4 l s2)

/-- HERD_REPLAY_TIMEOUT (R331). -/
def execHerdReplayTimeout (l : Fin 4) (s : State) : Host.Outcome State Fault Refusal :=
  .next (if (hlink s l.val).up then resendAll l.val s else s)

/-! ### Receiving (R331, R332, R336, R337) -/

/-- Flits acknowledged up to a SEQ leave the replay copies (R331). -/
def dropAcked (a : Nat) (l : List FlitRec) : List FlitRec :=
  if l.any (fun f => f.seq = a) then (l.dropWhile (fun f => f.seq != a)).drop 1 else l

/-- What word 3 of a good flit brings: acknowledgement, credits, and a NAK (R328, R331, R334). -/
def takeLinkWord (l : Nat) (f : Flit) (s : State) : State :=
  let v := hlink s l
  let kept := match f.ack with
    | some a => dropAcked a.toNat v.unacked
    | none => v.unacked
  let credits := (List.range 4).map (fun i => min 32 (v.credits.getD i 0 + (f.credits.getD i 0).val))
  let s1 := setHlink s l { v with unacked := kept, credits := credits }
  if f.nak then resendAll l s1 else s1

/-- The receiver owes a NAK (R331). -/
def oweNak (l : Nat) (s : State) : State := setHlink s l { hlink s l with nak := true }

/-- A buffer is free again: its credit is owed to the neighbour (R334). -/
def freeBuffer (l : Nat) (f : Flit) (s : State) : State :=
  setHlink s l { hlink s l with owed := listMod (hlink s l).owed (2 * flag f.vc + flag f.cls) (· + 1) }

/-- The link by which a flit in transit goes on; a member without the reins relays to its partner what comes for the tandem
or in transit (R332, R333, R401). -/
def nextHop (s : State) (l : Nat) (f : Flit) : Option Nat :=
  if nonHolder s && s.tan.link != l then (if (hlink s s.tan.link).up then some s.tan.link else none) else routeLink s f.dst.val

/-- A flit in transit waits on its next link, and goes at once when it may (R332); without a next link it is discarded and
counted (R333). -/
def passOn (l : Nat) (f : Flit) (s : State) : State :=
  if 15 < f.hops.toNat + 1 then countHerd 7 l (freeBuffer l f s)
  else match nextHop s l f with
    | none =>
      let t := freeBuffer l f s
      { t with herd := { t.herd with unreachable := t.herd.unreachable + 1 } }
    | some n =>
      let g : FlitRec := { vc := f.vc, cls := classFor s f.dst.val f.cls, typ := f.typ.toNat, dst := f.dst.val, hops := f.hops.toNat + 1
                           first := f.first, last := f.last, src := f.src.val, epoch := f.epoch, bytes := f.bytes.toNat
                           payload := f.payload, msgSeq := f.msgSeq.toNat, ingress := some l }
      let v := hlink s n
      if v.transit.isEmpty && maySend v g then sendFlit n g s else setHlink s n { v with transit := v.transit ++ [g] }

/-- The outgoing copy of a flit in transit whose CRC fails is stomped; it takes no SEQ (R331, R332). -/
def stompCopy (l : Nat) (f : Flit) (s : State) : State :=
  if f.typ = 0#8 || f.seq.toNat != (hlink s l).rxSeq || f.dst.val = ownHid s || 15 < f.hops.toNat + 1 then s
  else match nextHop s l f with
    | none => s
    | some n =>
      let v := hlink s n
      let g : FlitRec := { seq := v.txSeq, vc := f.vc, cls := classFor s f.dst.val f.cls, typ := f.typ.toNat, dst := f.dst.val,
                           hops := f.hops.toNat + 1, first := f.first, last := f.last, src := f.src.val, epoch := f.epoch,
                           bytes := f.bytes.toNat, payload := f.payload, msgSeq := f.msgSeq.toNat }
      if v.transit.isEmpty && maySend v g then lineFlit n true g s else s

/-- MSG_SEQ is newer than the last one accepted, by 16-bit signed difference (R336). -/
def seqNewer (v : Option Nat) (n : BitVec 16) : Bool :=
  match v with
  | some k => 0 < (n - BitVec.ofNat 16 k).toInt
  | none => true

/-- The message being received from a source on a channel. -/
def reasmOf (s : State) (src : Nat) (vc : Bool) : Option Reasm := s.herd.reasm.find? (fun r => r.src = src && r.vc = vc)

/-- The state without the message being received from a source on a channel. -/
def dropReasm (src : Nat) (vc : Bool) (s : State) : State :=
  { s with herd := { s.herd with reasm := s.herd.reasm.filter (fun r => !(r.src = src && r.vc = vc)) } }

/-- The message is accepted or, when stale, discarded and counted (R336). -/
def acceptMessage (l src : Nat) (vc : Bool) (n : BitVec 16) (s : State) : State :=
  let v := peerOf s src
  if seqNewer (if vc then v.seqRsp else v.seqReq) n then
    setPeer s src (if vc then { v with seqRsp := some n.toNat } else { v with seqReq := some n.toNat })
  else countHerd 9 l s

/-- A PTP message of the transparent clock goes to backhaul ports (R364). -/
def takeClockFlit (l : Nat) (f : Flit) (s : State) : State :=
  match f.ptp with
  | some b =>
    if !bit s.cfg.time.tcPorts (2 + l) || f.typ.toNat != 0x0A then s
    else if peerDelay (ptpType b) then countTime 8 s else clockForward 0 (clockPorts s none) [] b s
  | none => s

/-- A FIRST flit begins a message; one begun before on the channel stays incomplete and is counted (R336). -/
def beginReasm (l : Nat) (f : Flit) (s : State) : State :=
  if f.first then
    let s1 := if (reasmOf s f.src.val f.vc).isSome then countHerd 9 l (dropReasm f.src.val f.vc s) else s
    let r : Reasm := { src := f.src.val, vc := f.vc, seq := f.msgSeq.toNat, typ := f.typ.toNat, link := l, first := now s }
    { s1 with herd := { s1.herd with reasm := s1.herd.reasm ++ [r] } }
  else s

/-- A flit for this device joins its message; the last one ends it. The message's own effect is that of its row. -/
def takeFlit (l : Nat) (f : Flit) (s : State) : State :=
  let s1 := beginReasm l f (freeBuffer l f s)
  match reasmOf s1 f.src.val f.vc with
  | some r =>
    if r.seq != f.msgSeq.toNat || !f.last then s1
    else takeClockFlit l f (acceptMessage l f.src.val f.vc f.msgSeq (dropReasm f.src.val f.vc s1))
  | none => s1

/-- The flit is for this device and not to be relayed (R401). -/
def flitHere (s : State) (l : Nat) (f : Flit) : Bool := f.dst.val = ownHid s && !(nonHolder s && s.tan.link != l)

/-- A flit accepted in order: epochs, types and routing loops discard it, and it is passed on or taken (R329, R332, R337). -/
def acceptFlit (l : Nat) (f : Flit) (s : State) : State :=
  let v := hlink s l
  let s1 := countHerd 1 l (setHlink s l { v with rxSeq := (v.rxSeq + 1) % 256, rxAny := true, nak := false })
  let p := if f.src.val = ownHid s then (true, s1) else noteEpoch f.src.val f.epoch s1
  if !p.1 then countHerd 8 l (freeBuffer l f p.2)
  else if !flitHere s l f then passOn l f p.2
  else if 0x0C < f.typ.toNat then countHerd 6 l (freeBuffer l f p.2)
  else takeFlit l f p.2

/-- A flit with a good CRC (R331): link control has no SEQ. -/
def goodFlit (l : Nat) (f : Flit) (s : State) : State :=
  let s1 := takeLinkWord l f s
  if !(hlink s1 l).up then s1
  else if f.typ = 0#8 then
    let p := if f.src.val = ownHid s1 then (true, s1) else noteEpoch f.src.val f.epoch s1
    if p.1 then p.2 else countHerd 8 l p.2
  else if f.seq.toNat = (hlink s1 l).rxSeq then acceptFlit l f s1 else oweNak l s1

/-- A flit that comes while the link is down: consecutive good ones bring it up (R330). -/
def trainLink (l : Nat) (f : Flit) (s : State) : State :=
  if linkBarred s l then s
  else setHlink s l { hlink s l with good := if f.crc = .good then min 64 ((hlink s l).good + 1) else 0 }

/-- A flit with a bad CRC: counted and answered with NAK; the copy already on its way is stomped (R331, R332). -/
def badFlit (l : Nat) (f : Flit) (s : State) : State := oweNak l (stompCopy l f (countHerd 2 l s))

/-- HERD_FLIT_RECEIVED (R328, R331): a stomped flit is no error and takes no SEQ. -/
def execHerdFlitReceived (l : Fin 4) (x : FlitIn) (s : State) : Host.Outcome State Fault Refusal :=
  let f := flitOf x
  .next (if !(hlink s l.val).up then trainLink l.val f s
    else match f.crc with
      | .stomped => countHerd 3 l.val s
      | .bad => badFlit l.val f s
      | .good => goodFlit l.val f s)

/-- HERD_MESSAGE_TIMEOUT (R336): 1 ms after its FIRST flit a message is discarded. -/
def execHerdMessageTimeout (src : Fin 64) (vc : Bool) (seq : BitVec 16) (s : State) : Host.Outcome State Fault Refusal :=
  .next (match reasmOf s src.val vc with
    | some r =>
      if r.seq = seq.toNat && reached s (r.first + 1000000#64) then countHerd 9 r.link (dropReasm src.val vc s) else s
    | none => s)

/-! ### Commands (R348) -/

/-- Settings of a herd link. -/
def linkCfg (s : State) (l : Nat) : HerdLinkCfg := tabGet s.cfg.herd.links l {}

/-- The settings that HERD_LINK_SET gives. -/
def linkSet (c : Packet) : HerdLinkCfg :=
  { enable := bit (pw c 1) 0, polarity := (pw c 1 >>> 1).setWidth 4, reversal := bit (pw c 1) 5 }

/-- The state with the herd settings replaced. -/
def setHerdCfg (s : State) (v : HerdCfg) : State := { s with cfg := { s.cfg with herd := v } }

def herdLinkSetSpec : CmdSpec :=
  { plainSpec 0x0820 2 (fun c => within c 0 0 3 && fits c 1 6) (fun c s =>
      let s1 := setHerdCfg s { s.cfg.herd with links := tabSet s.cfg.herd.links (pn c 0) (linkSet c) }
      done (if (linkSet c).enable || !(hlink s1 (pn c 0)).up then s1 else dropLink (pn c 0) s1)) with
    ready := fun c s =>
      let v := linkCfg s (pn c 0)
      !v.enable || (v.polarity = (linkSet c).polarity && v.reversal = (linkSet c).reversal) }

/-- HERD_LINK_SET (R330, R348): lane options change only while the link is disabled. -/
def execHerdLinkSet (c : Packet) (s : State) : Host.Outcome State Fault Refusal := runCommand herdLinkSetSpec c s

/-- The routing entry that HERD_ROUTE_SET gives (R333). -/
def routeSet (c : Packet) : Route :=
  { primary := pf c 1 1 0, primaryV := bit (pw c 1) 2, alternate := pf c 1 4 3, alternateV := bit (pw c 1) 5, rule := pf c 1 7 6 }

def herdRouteSetSpec : CmdSpec := plainSpec 0x0821 2 (fun c => within c 0 0 63 && fits c 1 8 && pf c 1 7 6 != 3) (fun c s =>
  done (checkChain (refreshPresence (setHerdCfg s { s.cfg.herd with routes := tabSet s.cfg.herd.routes (pn c 0) (routeSet c) }))))

/-- HERD_ROUTE_SET (R333). -/
def execHerdRouteSet (c : Packet) (s : State) : Host.Outcome State Fault Refusal :=
  runCommand herdRouteSetSpec c s

def herdLinkStatusSpec : CmdSpec := plainSpec 0x0822 1 (fun c => within c 0 0 3) (fun c s =>
  let v := hlink s (pn c 0)
  doneWith [w32 (flag v.up), (v.neighbour.map w32).getD 0xFFFFFFFF#32, v.nEpoch, w32 v.unacked.length] s)

/-- HERD_LINK_STATUS (R348). -/
def execHerdLinkStatus (c : Packet) (s : State) : Host.Outcome State Fault Refusal :=
  runCommand herdLinkStatusSpec c s

def herdCountersReadSpec : CmdSpec := plainSpec 0x0823 2 (fun c => within c 0 0 3 && only c 1 1) (fun c s =>
  let v := hlink s (pn c 0)
  doneWith (v.counters.map w32)
    (if bit (pw c 1) 0 then setHlink s (pn c 0) { v with counters := List.replicate 10 0 } else s))

/-- HERD_COUNTERS_READ (R348). -/
def execHerdCountersRead (c : Packet) (s : State) : Host.Outcome State Fault Refusal :=
  runCommand herdCountersReadSpec c s

end Sys2Proof.Machine
end

