-- ==== Sys2Proof/Machine/HostPort.lean ====
section
/-! DEFINITION. The host attachment (R338-R348): BAR2 and its aperture, unsupported requests, doorbells, the DMA engines,
and the host reset. -/

namespace Sys2Proof.Machine

/-! ### BAR2 (R21, R341) -/

def apertureSetSpec : CmdSpec := plainSpec 0x0840 2 (fun c => (p64 c 0).toNat % 67108864 = 0 && (p64 c 0).toNat < 34359738368) (fun c s =>
  done { s with cfg := { s.cfg with aperture := p64 c 0 } })

/-- APERTURE_SET (R341). -/
def execApertureSet (c : Packet) (s : State) : Host.Outcome State Fault Refusal := runCommand apertureSetSpec c s

/-- The address lies in the image staging region (R20). -/
def inStaging (a : Nat) : Bool := stagingBase ≤ a && a < stagingBase + stagingSize

/-- The bytes of a host write that land in the image staging region. -/
def writeStaging (a : Nat) (l : List Byte) (s : State) : State :=
  let skip := stagingBase - a
  let kept := (l.drop skip).take (stagingBase + stagingSize - (a + skip))
  let written (w : Nat) : Bool := decide (a + skip ≤ 8 * w + 7) && decide (8 * w < a + skip + kept.length)
  { s with mem := { s.mem with dram := memSetAll dramBlank s.mem.dram (a + skip) kept
                               bad := s.mem.bad.filter (fun w => !written w) } }

/-- BAR2_WRITE (R21): bytes for any other region are discarded, with TRB4.APERTURE. The aperture is 64 MiB (R339). -/
def execBar2Write (off : BitVec 26) (bytes : List Byte) (s : State) : Host.Outcome State Fault Refusal :=
  let l := bytes.take (67108864 - off.toNat)
  let a := s.cfg.aperture.toNat + off.toNat
  let s1 := writeStaging a l s
  .next (if l.isEmpty || (inStaging a && inStaging (a + l.length - 1)) then s1 else raise .aperture s1)

/-! ### Unsupported requests (R340) -/

/-- An access that BAR0 supports: 4 or 8 bytes, aligned (R340). -/
def supported (off : BitVec 20) (size : Nat) : Bool := (size = 4 && off.toNat % 4 = 0) || (size = 8 && off.toNat % 8 = 0)

/-- UNSUPPORTED_REQUEST (R340): PCIE_ERR and the AER status bit of an Unsupported Request, bit 20 (PRESUMED, log 56), and no
other effect. A supported access is not this row's. -/
def execUnsupportedRequest (off : BitVec 20) (size : Nat) (write : Bool) (s : State) : Host.Outcome State Fault Refusal :=
  match supported off size, write with
  | true, _ => .fault .illFormed
  | false, _ => .next (raise .pcieErr { s with host := { s.host with aerU := s.host.aerU ||| 0x00100000#32 } })

def pcieStatusSpec : CmdSpec := plainSpec 0x0844 0 (fun _ => true) (fun _ s =>
  doneWith [w32 (s.host.speed % 16 + 16 * (s.host.width % 16)), s.host.aerU, s.host.aerC] s)

/-- PCIE_STATUS (R348). -/
def execPcieStatus (c : Packet) (s : State) : Host.Outcome State Fault Refusal := runCommand pcieStatusSpec c s

/-! ### DMA engines (R342-R346) -/

/-- DMA engine e. -/
def engine (s : State) (e : Nat) : Engine := tabGet s.host.engines e {}

/-- The state with a DMA engine replaced. -/
def setEngine (s : State) (e : Nat) (v : Engine) : State := { s with host := { s.host with engines := tabSet s.host.engines e v } }

/-- A binding that R342 allows: a queue that the host feeds, or one whose DMA consumer is this engine. -/
def bindable (s : State) (e : Nat) (d2h : Bool) (q : Nat) : Bool :=
  let v := que s q
  if d2h then v.consumer = 1#2 && v.dmaEngine.toNat = e else !hostBarred q v

/-- The engine that DMA_ENGINE_SET gives. -/
def engineOf (c : Packet) (old : Engine) : Engine :=
  { bound := true, d2h := bit (pw c 1) 0, queue := pn c 2, ring := p64 c 3, entries := pn c 5, vector := pn c 6, poll := pn c 7
    holdoff := pn c 8, running := true, packets := old.packets }

def dmaEngineSetSpec : CmdSpec :=
  { plainSpec 0x0841 9 (fun c => within c 0 0 15 && fits c 1 1 && within c 2 0 1023 && (p64 c 3).toNat % 16 = 0
      && (List.range 13).any (fun k => pn c 5 = 2 ^ (k + 4)) && fits c 6 6 && within c 7 1 1000 && within c 8 0 1000)
      (fun c s => done (setEngine s (pn c 0) (engineOf c (engine s (pn c 0))))) with
    ready := fun c s => !(engine s (pn c 0)).running && bindable s (pn c 0) (bit (pw c 1) 0) (pn c 2) }

/-- DMA_ENGINE_SET (R342). -/
def execDmaEngineSet (c : Packet) (s : State) : Host.Outcome State Fault Refusal :=
  runCommand dmaEngineSetSpec c s

def dmaEngineStopSpec : CmdSpec := plainSpec 0x0842 1 (fun c => within c 0 0 15) (fun c s =>
  let v := engine s (pn c 0)
  doneWith [w32 v.index] (setEngine s (pn c 0) { v with running := false, bells := 0 }))

/-- DMA_ENGINE_STOP (R348). -/
def execDmaEngineStop (c : Packet) (s : State) : Host.Outcome State Fault Refusal :=
  runCommand dmaEngineStopSpec c s

def dmaStatusSpec : CmdSpec := plainSpec 0x0843 1 (fun c => within c 0 0 15) (fun c s =>
  let v := engine s (pn c 0)
  doneWith [w32 (flag v.running + 2 * flag v.faulted), w32 v.fault, w32 v.index, w32 v.packets] s)

/-- DMA_STATUS (R348). -/
def execDmaStatus (c : Packet) (s : State) : Host.Outcome State Fault Refusal := runCommand dmaStatusSpec c s

/-- A doorbell of queue q counted at the host-to-device engine bound to it (R59, R344). -/
def ringBell (q : Nat) (n : Word) (s : State) : State :=
  match (List.range 16).find? (fun e => (engine s e).running && !(engine s e).d2h && (engine s e).queue = q) with
  | some e => setEngine s e { engine s e with bells := (engine s e).bells + n.toNat }
  | none => s

/-- DOORBELL (R59); in STALL the write is held (R459). -/
def execDoorbell (q : Fin 16) (n : Word) (s : State) : Host.Outcome State Fault Refusal :=
  .next (if s.dev.mode = .stall then { s with pwr := { s.pwr with heldPush := s.pwr.heldPush ++ [.bell q.val n] } }
    else ringBell q.val n s)

/-- The engine stops: 0 address, 1 length, 2 OWN, 3 completion error (R346). -/
def dmaFault (e detail : Nat) (s : State) : State :=
  let s1 := setEngine s e { engine s e with running := false, faulted := true, fault := detail, bells := 0 }
  postEvent 0x0840 e (w32 detail) (raise .dmaFault s1)

/-- The next descriptor of the ring, and what becomes of this one, recorded. -/
def nextDesc (e bytes b10 : Nat) (s : State) : State :=
  let v := engine s e
  let s1 := setEngine s e { v with index := (v.index + 1) % v.entries }
  { s1 with out := { s1.out with dma := s1.out.dma ++ [(e, bytes, b10)] } }

/-- Words pushed into a queue one after the other (R342). -/
def pushAll (q : Nat) (l : List QWord) (s : State) : State :=
  l.foldl (fun t w =>
    let p := pushWord q w t
    raiseAll p.2 p.1) s

/-- Whole words of a byte string that does not end its packet. -/
def wholeWords (l : List Byte) : List QWord :=
  (List.range (l.length / 8)).map (fun i => { data := BitVec.ofNat 64 (leNat (slice l (8 * i) 8)), last := false, bytes := 8 })

/-- A packet ends at an engine: counted, and one doorbell served (R344, R348). -/
def packetMoved (e : Nat) (s : State) : State :=
  let v := engine s e
  setEngine s e { v with packets := saturate 32 (v.packets + 1), bells := v.bells - 1 }

/-- A host-to-device descriptor taken: its bytes join those carried over; END ends the packet (R342-R344). -/
def takeDesc (e : Nat) (d : DescIn) (s : State) : State :=
  let v := engine s e
  let l := v.carry ++ d.data.take d.len.toNat
  if d.last then
    packetMoved e (nextDesc e d.len.toNat 2 (pushAll v.queue (queueWords l) (setEngine s e { v with carry := [] })))
  else
    nextDesc e d.len.toNat 0 (pushAll v.queue (wholeWords l) (setEngine s e { v with carry := l.drop (8 * (l.length / 8)) }))

/-- What stops an engine at a descriptor: 8-byte alignment, and a length out of the range of its direction (R343, R346). -/
def descFault (d2h : Bool) (d : DescIn) : Option Nat :=
  if d.error then some 3
  else if d.addr.toNat % 8 != 0 then some 0
  else if d2h && (d.len.toNat % 8 != 0 || d.len.toNat < 64) then some 1
  else if !d2h && d.len.toNat = 0 then some 1
  else none

/-- A host-to-device engine of a command queue has work only while doorbells stand (R344). -/
def hasWork (v : Engine) : Bool := 16 ≤ v.queue || 0 < v.bells

/-- A host-to-device engine reads its head descriptor: at a doorbell at once, else POLL after it last found none to take (R344). -/
def pollDue (s : State) (e : Nat) : Bool := 0 < (engine s e).bells || periodDue (.poll e) (1000 * (engine s e).poll) s

/-- DMA_POLL (R344, R346). -/
def execDmaPoll (e : Fin 16) (d : DescIn) (s : State) : Host.Outcome State Fault Refusal :=
  let v := engine s e.val
  .next (if !v.running || v.d2h || !hasWork v || !pollDue s e.val then s
    else if d.error then dmaFault e.val 3 s
    else if !d.own then (if 0 < v.bells then dmaFault e.val 2 s else ranNow (.poll e.val) s)
    else match descFault false d with
      | some k => dmaFault e.val k s
      | none => takeDesc e.val d s)

/-- The words of the head packet that fill a buffer of n bytes, when they are there: n bytes, or all up to the last. -/
def bufferWords (v : Queue) (n : Nat) : Option (List QWord) :=
  let h := headWords v.words
  if !visible v then none
  else if n / 8 ≤ h.length then some (h.take (n / 8))
  else if h.any (fun w => w.last) then some h else none

/-- The MSI-X vector of an engine raised, or held back until HOLDOFF has passed (R344). -/
def engineMsi (e : Nat) (s : State) : State :=
  let v := engine s e
  let free := match v.lastMsi with
    | some t => reached s (t + BitVec.ofNat 64 (1000 * v.holdoff))
    | none => true
  if free then msi v.vector (setEngine s e { v with lastMsi := some (now s), msiDue := false })
  else setEngine s e { v with msiDue := true }

/-- A device-to-host buffer filled: END at the packet's last word, RESET while the queue's reset stands (R343-R345). -/
def fillBuffer (e : Nat) (l : List QWord) (s : State) : State :=
  let q := (engine s e).queue
  let bytes := (l.map (fun w => w.bytes)).sum
  let last := l.any (fun w => w.last)
  let s1 := setQue s q (l.foldl (fun v _ => popWord v) (que s q))
  let s2 := nextDesc e bytes (2 * flag last + 4 * flag (que s q).resetFlag) s1
  if last then engineMsi e (packetMoved e s2) else s2

/-- DMA_D2H_TRANSFER (R344-R346): it waits for words and for OWN. -/
def execDmaD2hTransfer (e : Fin 16) (d : DescIn) (s : State) : Host.Outcome State Fault Refusal :=
  let v := engine s e.val
  .next (if !v.running || !v.d2h || !visible (que s v.queue) then s
    else if d.error then dmaFault e.val 3 s
    else if !d.own then s
    else match descFault true d, bufferWords (que s v.queue) d.len.toNat with
      | some k, _ => dmaFault e.val k s
      | none, some l => fillBuffer e.val l s
      | none, none => s)

/-- DMA_HOLDOFF_EXPIRY (R344). -/
def execDmaHoldoffExpiry (e : Fin 16) (s : State) : Host.Outcome State Fault Refusal :=
  .next (if (engine s e.val).msiDue then engineMsi e.val s else s)

/-! ### Host reset (R347) -/

/-- Queues whose producer or consumer is the host: Q0-Q63, and of the others those in use but the backhaul egress queues
that internal units fill and empty (R44, R347; log 57). -/
def hostQueues (s : State) : List Nat :=
  List.range 64 ++ (List.range 960).filterMap (fun i =>
    let q := 64 + i
    if (que s q).enable && !(q < 66 && (que s q).consumer = 2#2) then some q else none)

/-- Commands in flight run to completion without replies; held replies and packets not yet taken go (R347). -/
def dropReplies (s : State) : State :=
  { s with cmd := { s.cmd with
      inFlight := (s.cmd.inFlight.filter (fun e => e.phase != .held || e.origin.isSome)).map
        (fun e => if e.origin.isNone then { e with replyDrop := true } else e)
      held := []
      forwarded := []
      waiting := s.cmd.waiting.filter (fun w => w.accepted) } }

/-- Every engine stopped and unbound; what it has moved stays counted (R347). -/
def unbindEngines (s : State) : State :=
  { s with host := { s.host with engines := s.host.engines.map (fun e => (e.1, { packets := e.2.packets })), aerU := 0#32, aerC := 0#32 } }

/-- The host attachment reset (R347): everything else goes on. -/
def hostResetEffect (s : State) : State :=
  let qs := hostQueues s
  let s1 := dropReplies (unbindEngines { s with cfg := { s.cfg with aperture := 0x738000000#64 } })
  let s2 := qs.foldl (fun t q => setQue t q (emptyQueue (now t) (que t q))) s1
  abandonAll 1#8 (qs.foldl (fun t q => postEvent 0x0002 q 1#32 t) s2)

/-- HOST_RESET (R347): PERST_N, FLR and D3hot-to-D0 alike. -/
def execHostReset (kind : HostResetKind) (s : State) : Host.Outcome State Fault Refusal :=
  match kind with
  | .perst => .next (hostResetEffect s)
  | .flr => .next (hostResetEffect s)
  | .d3hot => .next (hostResetEffect s)

end Sys2Proof.Machine
end

