-- ==== Sys2Proof/Machine/Membership.lean ====
section
/-! DEFINITION. Herd identity and membership (R386-R396): herd ID, configured members, splits and healing, leaving, and
FOREIGN_VID. -/

namespace Sys2Proof.Machine

/-! ### Identity and members -/

/-- Every herd link is disabled (R386). -/
def linksDisabled (s : State) : Bool := (List.range 4).all (fun l => !(linkCfg s l).enable)

def herdIdSetSpec : CmdSpec :=
  { plainSpec 0x0B00 1 (fun c => within c 0 0 63) (fun c s =>
      let h : BitVec 6 := (pw c 0).setWidth 6
      done (setHerdCfg { s with dev := { s.dev with hid := h } } { s.cfg.herd with hidOverride := some h })) with
    ready := fun _ s => linksDisabled s }

/-- HERD_ID_SET (R386). -/
def execHerdIdSet (c : Packet) (s : State) : Host.Outcome State Fault Refusal := runCommand herdIdSetSpec c s

/-- Authority judged (R389): a device that comes into the minority says so. -/
def judgeAuthority (s : State) : State :=
  let m := s.herd.split && !fullAuthority s
  let s1 := { s with herd := { s.herd with minority := m } }
  if m && !s.herd.minority then raise .minority s1 else s1

/-- The times of herd IDs that are no members are forgotten. -/
def forgetStrangers (s : State) : State :=
  let keep (e : Nat × Peer) : Nat × Peer :=
    if (members s).getLsbD e.1 then e else (e.1, { e.2 with absent := none, present := none })
  { s with herd := { s.herd with peers := s.herd.peers.map keep } }

def herdMembersSetSpec : CmdSpec := plainSpec 0x0B01 3 (fun c => within c 2 10 10000) (fun c s =>
  let s1 := setHerdCfg s { s.cfg.herd with members := some (p64 c 0), splitDelay := pn c 2 }
  done (judgeAuthority (refreshPresence (forgetStrangers s1))))

/-- HERD_MEMBERS_SET (R387, R390): authority is judged anew under the new set. -/
def execHerdMembersSet (c : Packet) (s : State) : Host.Outcome State Fault Refusal :=
  runCommand herdMembersSetSpec c s

def herdStatusSpec : CmdSpec := plainSpec 0x0B02 0 (fun _ => true) (fun _ s =>
  doneWith (loHi (presentMask s) ++ [w32 (flag s.herd.split + 2 * flag s.herd.minority), w32 (maskCount (members s)),
                                     w32 (maskCount (presentMask s))]) s)

/-- HERD_STATUS (R418). -/
def execHerdStatus (c : Packet) (s : State) : Host.Outcome State Fault Refusal := runCommand herdStatusSpec c s

def foreignSetSpec : CmdSpec := plainSpec 0x0B04 2 (fun c => within c 0 0 1 && fits c 1 12) (fun c s =>
  done (setBhCfg s (pn c 0) { bhCfg s (pn c 0) with foreignVid := pn c 1 }))

/-- FOREIGN_SET (R392). -/
def execForeignSet (c : Packet) (s : State) : Host.Outcome State Fault Refusal := runCommand foreignSetSpec c s

/-! ### Leaving (R394) -/

def herdLeaveSpec : CmdSpec :=
  { plainSpec 0x0B03 1 (fun c => fits c 0 1) (fun c s =>
      let w : Withdrawal := { queue := c.queue.val, tag := c.tag, plain := none, kind := .herdLeave, tracks := trackNums s (fun _ => true) }
      beginWithdrawal w (bit (pw c 0) 0) { s with herd := { s.herd with leaving := true } }) with
    ready := fun _ s => !(List.range 4).any (draining s) }

/-- HERD_LEAVE (R394): it runs on while its plains drain. -/
def execHerdLeave (c : Packet) (s : State) : Host.Outcome State Fault Refusal := runCommand herdLeaveSpec c s

/-! ### Membership messages (R387) -/

/-- MEMBERSHIP_SEND (R387): the message of every 10 ms. -/
def execMembershipSend (s : State) : Host.Outcome State Fault Refusal :=
  .next (if periodDue .membership 10000000 s then tellMembership (refreshPresence (ranNow .membership s)) else s)

/-- MEMBERSHIP_MESSAGE (R387). -/
def execMembershipMessage (l : Fin 4) (present : BitVec 64) (s0 : State) : Host.Outcome State Fault Refusal :=
  let s := mirrorHerd (.membership l present) s0
  .next (if (hlink s l.val).up then
    refreshPresence { s with herd := { s.herd with told := tabSet s.herd.told l.val present } }
  else s)

/-! ### Splits and healing (R388, R389, R393) -/

/-- The time SPLIT_DELAY in nanoseconds. -/
def splitNs (s : State) : BitVec 64 := BitVec.ofNat 64 (1000000 * s.cfg.herd.splitDelay)

/-- The members that have been absent for SPLIT_DELAY (R388). -/
def overdue (s : State) : BitVec 64 :=
  maskOf 64 ((maskList (members s)).filter (fun h => match (peerOf s h).absent with
    | some t => reached s (t + splitNs s)
    | none => false))

/-- HERD_SPLIT (R388): a member's absence has lasted SPLIT_DELAY and no split has been declared for it. -/
def execHerdSplit (s0 : State) : Host.Outcome State Fault Refusal :=
  let s := refreshPresence s0
  if overdue s &&& ~~~ s.herd.lost = 0#64 then .next s
  else
    let m := presentMask s
    let s1 := raise .herdSplit { s with herd := { s.herd with split := true, lost := overdue s } }
    let s2 := postEvent 0x0B01 1 ((m >>> 32).setWidth 32) (postEvent 0x0B01 0 (m.setWidth 32) s1)
    .next (judgeAuthority s2)

/-- Every configured member has been present for SPLIT_DELAY (R393). -/
def wholeAgain (s : State) : Bool :=
  (maskList (members s)).all (fun h => h = ownHid s || match (peerOf s h).present with
    | some t => reached s (t + splitNs s)
    | none => false)

/-- HERD_HEAL (R393). -/
def execHerdHeal (s0 : State) : Host.Outcome State Fault Refusal :=
  let s := refreshPresence s0
  if s.herd.split && wholeAgain s then
    let s1 := { s with herd := { s.herd with split := false, minority := false, lost := 0#64 } }
    .next ((maskList (members s1)).foldl (fun t h => releaseTo h t) (postEvent 0x0B02 0 0#32 s1))
  else .next s

end Sys2Proof.Machine
end

