-- ==== Sys2Proof/Machine/Snapshot.lean ====
section
/-! DEFINITION. The snapshot that a member takes when it resynchronises (R413): what the other member held, which nothing here can
say, so free values (assumption log 67). -/

namespace Sys2Proof.Config

open Sys2Proof.Machine

/-- The device state of the reins holder at the slot boundary of its snapshot, free for each draw (R413, log 67). -/
opaque held : Nat → Option State

end Sys2Proof.Config

namespace Sys2Proof.Machine

/-- The holder's tables, counters and ledger in place of this member's (R413): settings but those of the tandem itself, semaphores,
the receive array, combining, transmit chain, link engine, schedule, airtime, forwarding, ports and gait timers. -/
def takeSnapshot (s : State) : State :=
  match Config.held s.free with
  | some h => { s with
      free := s.free + 1, cfg := { h.cfg with tan := s.cfg.tan }, sem := h.sem, rx := h.rx, comb := h.comb, radio := h.radio,
      link := h.link, sched := h.sched, air := h.air, fwd := h.fwd, bh := h.bh, gait := h.gait }
  | none => { s with free := s.free + 1 }

end Sys2Proof.Machine
end

