-- ==== Sys2Proof/Machine/Tandem.lean ====
section
/-! DEFINITION. The tandem (R397-R414): forming and dissolving, slot digests, reins frames, handovers and takeovers,
resynchronisation and revert; and Bridle's channels (R415-R417). -/

namespace Sys2Proof.Machine

/-! ### Forming a pair (R397, R399) -/

/-- The state with the tandem replaced. -/
def setTan (s : State) (v : Tandem) : State := { s with tan := v }

/-- The partner answers on the tandem link with the same herd ID (R397). -/
def partnerThere (s : State) (l : Nat) : Bool := (hlink s l).neighbour = some (ownHid s)

/-- What the pair needs: the partner on the link, the other role and position, and equal versions and tack sets (R397). What
the partner reports is a free fact. -/
def mayForm (c : Packet) (s : State) : Bool :=
  let r := Config.partner s.free
  partnerThere s (pf c 0 3 2) && r.1 != bit (pw c 0) 0 && r.2.1 != bit (pw c 0) 1 && r.2.2

/-- The tandem settings that TANDEM_FORM gives. -/
def tanSettings (c : Packet) (s : State) : TanCfg :=
  { s.cfg.tan with lease := pn c 1, revertHold := pn c 2, revert := bit (pw c 3) 0, takeover := (pw c 4).setWidth 20 }

/-- The pair formed (R397, R399, R401): the Lead takes the reins, its boot epoch is the pair's, and it sends the marker. -/
def formPair (c : Packet) (s : State) : State :=
  let wheel := bit (pw c 0) 0
  let l := pf c 0 3 2
  let t : Tandem := { s.tan with
    joined := true, role := wheel, pos := bit (pw c 0) 1, link := l, reins := !wheel, step := 1, stage := 0
    epoch := if wheel then (hlink s l).nEpoch else s.dev.bootEpoch
    lastAsn := w32 s.sched.asn, outputs := !wheel, reinsSel := !wheel, holdStart := none, leaseOwn := none, leaseSeen := none
    handover := none, missing := 0, digest := none, items := [], asked := false, peerDown := false
    pathSilent := [0, 0], pathHeard := [now s, now s], mirrorSeq := 0, bhHeard := [] }
  let s1 := setTan { s with cfg := { s.cfg with tan := tanSettings c s }, free := s.free + 1 } t
  if wheel then s1 else sendReins .marker (now s1) s1

def tandemFormSpec : CmdSpec :=
  { plainSpec 0x0B10 5 (fun c => fits c 0 4 && within c 1 500 10000 && within c 2 1 3600 && fits c 3 1 && fits c 4 20)
      (fun c s => done (formPair c s)) with
    ready := mayForm }

/-- TANDEM_FORM (R397). -/
def execTandemForm (c : Packet) (s : State) : Host.Outcome State Fault Refusal := runCommand tandemFormSpec c s

/-- The pair dissolved: the holder's outputs stay, the other member's stay suppressed (R418). -/
def dissolvePair (s : State) : State :=
  setTan s { s.tan with joined := false, role := false, reins := false, step := 0, stage := 0, handover := none, leaseOwn := none
                        leaseSeen := none, holdStart := none, digest := none, items := [], asked := false, bhSent := [] }

def tandemDissolveSpec : CmdSpec :=
  { plainSpec 0x0B11 0 (fun _ => true) (fun _ s => done (dissolvePair s)) with ready := fun _ s => s.tan.joined }

/-- TANDEM_DISSOLVE (R418). -/
def execTandemDissolve (c : Packet) (s : State) : Host.Outcome State Fault Refusal :=
  runCommand tandemDissolveSpec c s

/-- Whole seconds of the revert hold served (R414). -/
def holdServed (s : State) : Nat :=
  match s.tan.holdStart with
  | some t => min s.cfg.tan.revertHold ((now s - t).toNat / 1000000000)
  | none => 0

def tandemStatusSpec : CmdSpec := plainSpec 0x0B12 0 (fun _ => true) (fun _ s =>
  let t := s.tan
  doneWith [w32 (flag t.joined + 2 * flag t.role + 4 * flag t.pos + 8 * flag t.reins), w32 t.step, w32 t.stage, t.epoch, t.lastAsn,
            w32 (holdServed s)] s)

/-- TANDEM_STATUS (R418). -/
def execTandemStatus (c : Packet) (s : State) : Host.Outcome State Fault Refusal := runCommand tandemStatusSpec c s

def tandemCountersReadSpec : CmdSpec := plainSpec 0x0B21 1 (fun c => only c 0 1) (fun c s =>
  doneWith (s.tan.counters.map w32) (if bit (pw c 0) 0 then setTan s { s.tan with counters := List.replicate 9 0 } else s))

/-- TANDEM_COUNTERS_READ (R418). -/
def execTandemCountersRead (c : Packet) (s : State) : Host.Outcome State Fault Refusal :=
  runCommand tandemCountersReadSpec c s

/-- The first slot boundary at least 2 ms from now (R409). -/
def boundaryIn2ms (s : State) : BitVec 64 :=
  let t := after s 2000000
  if slotStart s (asnAt s t) = t then t else slotStart s (asnAt s t + 1)

/-- A handover at a slot boundary granted: T_h named on both paths (R409). -/
def grantHandover (cause : Nat) (s : State) : State :=
  let th := boundaryIn2ms s
  let s1 := sendReins .grant th s
  setTan s1 { s1.tan with handover := some (th, false, cause) }

def reinsHandoverSpec : CmdSpec :=
  { plainSpec 0x0B13 0 (fun _ => true) (fun _ s => doneWith [(boundaryIn2ms s).setWidth 32] (grantHandover 3 s)) with
    ready := fun _ s => mayRelease s && s.tan.handover.isNone }

/-- REINS_HANDOVER (R409, R414): granted at once; the reins change hands at T_h. -/
def execReinsHandover (c : Packet) (s : State) : Host.Outcome State Fault Refusal :=
  runCommand reinsHandoverSpec c s

/-! ### Resynchronisation (R413) -/

def tandemResyncSpec : CmdSpec :=
  { plainSpec 0x0B14 0 (fun _ => true) (fun c s =>
      let s1 := beginResync s
      runsOn (setTan s1 { s1.tan with resync := some (c.queue.val, c.tag) })) with
    ready := fun _ s => nonHolder s && s.tan.resync.isNone }

/-- TANDEM_RESYNC (R413): its reply follows when the member is in step. -/
def execTandemResync (c : Packet) (s : State) : Host.Outcome State Fault Refusal := runCommand tandemResyncSpec c s

/-- ALIGNMENT_MARKER (R399, R413): a member that joins the step takes the holder's ST, corrected by the measured round trip. -/
def execAlignmentMarker (f : ReinsFrame) (st : BitVec 64) (s : State) : Host.Outcome State Fault Refusal :=
  .next (if reinsIs f .marker && nonHolder s && s.tan.step != 3 then
    let s1 := jumpSt (fromNs st) s
    setTan s1 { s1.tan with stage := if s1.tan.step = 2 then 3 else s1.tan.stage }
  else s)

/-! ### Slot digests (R403, R404) -/

/-- FW_ACTIVATE of a tandem as the other member comes back into step (R481): the holder begins to count matching digests; the
member that took the reins meanwhile posts the reply. -/
def pairInStep (s : State) : State :=
  if s.tan.fwStage = 1 then setTan s { s.tan with fwStage := 2, fwSince := none }
  else if s.tan.fwStage = 7 then
    match s.fw.pair with
    | some (q, t, v, n) =>
      let s1 := setTan { s with fw := { s.fw with pair := none } } { s.tan with fwStage := 0 }
      complete q t .ok [v, n] s1
    | none => s
  else s

/-- A matching digest while FW_ACTIVATE of a tandem waits: after 1 s of them the holder hands over the reins (R481). -/
def pairDigest (s : State) : State :=
  if s.tan.fwStage = 2 then
    match s.tan.fwSince with
    | none => setTan s { s.tan with fwSince := some (now s) }
    | some t =>
      if reached s (t + 1000000000#64) && mayRelease s && s.tan.handover.isNone then
        let s1 := grantHandover 3 s
        setTan s1 { s1.tan with fwStage := 3 }
      else s
  else s

/-- A network's START_COUNT values and broadcast counters as the Lead has them: values that no command brings here, so free
ones (R243, log 116). -/
def takeCounts (n : Nat) (s : State) : State :=
  let w := Config.freeWord s.free
  let v : StartCount := { cur := bits w 7 0, curHeld := bit w 8, prev := bits w 23 16, prevHeld := bit w 24 }
  let ctr (i j : Nat) : Option Nat := if bit w i then some (Config.freeWord (s.free + j)).toNat else none
  let s1 := setNet s n { netRun s n with bctr := ctr 9 1, bctrPrev := ctr 25 2 }
  { s1 with vault := { s1.vault with start := tabSet s1.vault.start n v }, free := s.free + 3 }

/-- The node counters as the Lead has them (R243, log 116). -/
def takeNodeCounts (s : State) : State :=
  { s with free := s.free + nodeLimit + 64, fwd := { s.fwd with
      dirty := s.fwd.nodes.map (·.1)
      nodes := s.fwd.nodes.map (fun e => (e.1, { e.2 with dlCtr := Config.freeWord (s.free + e.1), ctrEpoch := (netCfg s e.2.net).epoch })) } }

/-- A member that resynchronises takes the holder's counters with its snapshot (R243, R413). -/
def takeLeadCounters (s : State) : State :=
  if s.tan.step = 2 then takeNodeCounts ((List.range 16).foldl (fun t n => takeCounts n t) s) else s

/-- The member is in step: a resynchronisation ends with its reply, and peer links need not stay down (R407, R413). -/
def enterStep (s0 : State) : State :=
  let s := takeLeadCounters (if s0.tan.step = 2 then takeSnapshot s0 else s0)
  let r := s.tan.resync
  let s1 := setTan s { s.tan with step := 1, stage := if s.tan.step = 2 then 4 else s.tan.stage, resync := none, peerDown := false, missing := 0 }
  let s2 := match r with
    | some (q, t) => complete q t .ok [] s1
    | none => s1
  pairInStep s2

/-- A configured Lead without the reins, in step, that has passed the full self-test begins its revert hold (R414). -/
def beginHold (s : State) : State :=
  if nonHolder s && !s.tan.role && s.cfg.tan.revert && s.tan.step = 1 && s.tan.holdStart.isNone then
    let r := fullSelfTest s
    if r.1 = 0#20 then setTan r.2 { r.2.tan with holdStart := some (now s) } else r.2
  else s

/-- Digests match (R404, R413). -/
def digestMatches (asn : Word) (s : State) : State :=
  let s1 := setTan s { s.tan with lastAsn := asn, missing := 0 }
  beginHold (pairDigest (if s1.tan.step = 1 then s1 else enterStep s1))

/-- Digests differ (R404): both test themselves; the holder's failure releases the reins (R408), the other's takes it out of
step, and if both pass the other resynchronises. -/
def digestDiffers (asn : Word) (s : State) : State :=
  let s1 := setTan (countTan 0 s) { (countTan 0 s).tan with missing := 0, holdStart := none, fwSince := none }
  let r := fullSelfTest (postEvent 0x0B03 0 asn (raise .digestMismatch s1))
  let t := r.2
  if r.1 != 0#20 then t
  else if nonHolder t then beginResync t
  else setTan t { t.tan with step := 2 }

/-- SLOT_DIGEST (R403, R404): the partner's digest of the last slot. While a member joins the step, a digest that differs
only says that it is not yet in step (R413; DEDUCED, log 59). -/
def execSlotDigest (asn : BitVec 40) (digest : BitVec 64) (s : State) : Host.Outcome State Fault Refusal :=
  .next (match s.tan.digest with
    | some (a, d) =>
      if !s.tan.joined || a != asn.toNat || (s.tan.step = 3 && nonHolder s) || (1 < s.tan.step && d != digest) then s
      else if d = digest then digestMatches (w32 a) s else digestDiffers (w32 a) s
    | none => s)

/-- DIGEST_MISSING (R404): after 4 consecutive slots without its digest the partner has left the step. -/
def execDigestMissing (s : State) : Host.Outcome State Fault Refusal :=
  .next (if s.tan.joined && s.tan.step = 1 && 4 ≤ s.tan.missing then setTan s { s.tan with step := 3, holdStart := none } else s)

/-! ### Reins frames and leases (R405-R407) -/

/-- The instant that a frame names, the one nearest to now of those with its ST [49:10] (R361, R405). -/
def frameInstant (s : State) (f : ReinsFrame) : BitVec 64 :=
  let d := (reinsInstant f - (now s >>> 10).setWidth 40).toInt
  ((now s >>> 10) + BitVec.ofInt 64 d) <<< 10

/-- LEASE_LEN in nanoseconds (R406). -/
def leaseNs (s : State) : Nat := 1000 * s.cfg.tan.lease

/-- REINS_RENEWAL_SEND (R406, R407): while Bridle holds a majority the holder renews its lease every 100 us on both paths. -/
def execReinsRenewalSend (s : State) : Host.Outcome State Fault Refusal :=
  .next (if s.tan.joined && s.tan.reins && bridleMajority s && periodDue .renewal 100000 s then
    let t := after s (leaseNs s)
    let s1 := sendReins .renewal t (ranNow .renewal s)
    setTan s1 { s1.tan with leaseOwn := some t }
  else s)

/-- A frame has come on a path: it is not silent (R406). -/
def hearPath (path : Nat) (s : State) : State :=
  setTan s { s.tan with pathSilent := s.tan.pathSilent.set path 0, pathHeard := s.tan.pathHeard.set path (now s) }

/-- The later of two instants, by signed difference (R361). -/
def laterOf (a : Option (BitVec 64)) (b : BitVec 64) : BitVec 64 :=
  match a with
  | some x => if 0 ≤ (x - b).toInt then x else b
  | none => b

/-- Drivers and REINS_SEL off (R407, R409). -/
def dropDrivers (s : State) : State := setTan s { s.tan with reins := false, outputs := false, reinsSel := false, leaseOwn := none }

/-- Drivers and REINS_SEL on (R409). -/
def takeDrivers (s : State) : State := setTan s { s.tan with reins := true, outputs := true, reinsSel := true, holdStart := none, asked := false }

/-- Both members hold the reins: the configured Lead keeps them in step and sound; the other releases at once and
resynchronises (R412). -/
def settleBoth (s : State) : State :=
  if !s.tan.reins then s
  else if !s.tan.role && s.tan.step = 1 && soundNow s then s
  else beginResync (dropDrivers (sendReins .release (now s) s))

/-- The acknowledgement of a renewal on the path by which it came: 0 the reins lines, 1 the tandem link (R406). -/
def ackRenewal (path : Nat) (f : ReinsFrame) (s : State) : State :=
  let a := sealReins .ack (reinsSeq f) (reinsInstant f)
  if path = 0 then { s with out := { s.out with reins := s.out.reins ++ [a] } } else sendHerd (.reins a) s

/-- A renewal taken by the partner: the lease end kept when later, and acknowledged (R406). -/
def takeRenewal (path : Nat) (f : ReinsFrame) (s0 : State) : State :=
  let s := settleBoth s0
  ackRenewal path f (setTan s { s.tan with leaseSeen := some (laterOf s.tan.leaseSeen (frameInstant s f)) })

/-- REINS_RENEWAL (R406): also an acknowledgement, which only shows its path alive. -/
def execReinsRenewal (path : Fin 2) (f : ReinsFrame) (s : State) : Host.Outcome State Fault Refusal :=
  .next (if !s.tan.joined || !reinsGood f then s
    else if reinsIs f .renewal then takeRenewal path.val f (hearPath path.val s) else hearPath path.val s)

/-- A path has carried no frame for 3 renewal periods of 100 us, and this has not been said (R406). -/
def pathLost (s : State) (path : Nat) : Bool :=
  s.tan.joined && s.tan.pathSilent.getD path 0 < 3 && reached s (s.tan.pathHeard.getD path 0#64 + 300000#64)

/-- REINS_LOST (R406): 3 renewal periods without a frame on a path. -/
def execReinsLost (path : Fin 2) (s : State) : Host.Outcome State Fault Refusal :=
  .next (if pathLost s path.val then
    raise .reinsLost (countTan 6 (setTan s { s.tan with pathSilent := s.tan.pathSilent.set path.val 3 }))
  else s)

/-- A handover in which this member takes the reins at the instant a frame names (R409). -/
def awaitReins (f : ReinsFrame) (cause : Nat) (s : State) : State :=
  setTan s { s.tan with handover := some (frameInstant s f, true, cause) }

/-- REINS_RELEASE (R409). -/
def execReinsRelease (f : ReinsFrame) (s : State) : Host.Outcome State Fault Refusal :=
  .next (if reinsIs f .release && nonHolder s && s.tan.step = 1 then awaitReins f 0 s else s)

/-- REVERT_REQUEST (R414): the holder grants. -/
def execRevertRequest (f : ReinsFrame) (s : State) : Host.Outcome State Fault Refusal :=
  .next (if reinsIs f .revert && mayRelease s && s.tan.handover.isNone then grantHandover 2 s else s)

/-- HANDOVER_GRANT (R409, R414). -/
def execHandoverGrant (f : ReinsFrame) (s : State) : Host.Outcome State Fault Refusal :=
  .next (if reinsIs f .grant && nonHolder s && s.tan.step = 1 then awaitReins f (if s.tan.asked then 2 else 3) s else s)

/-- REVERT_HOLD_EXPIRY (R414): the Lead asks for its reins. -/
def execRevertHoldExpiry (s : State) : Host.Outcome State Fault Refusal :=
  .next (match s.tan.holdStart with
    | some t =>
      if nonHolder s && !s.tan.role && s.cfg.tan.revert && s.tan.step = 1
          && reached s (t + BitVec.ofNat 64 (1000000000 * s.cfg.tan.revertHold)) then
        let s1 := sendReins .revert (now s) s
        setTan s1 { s1.tan with asked := true }
      else s
    | none => s)

/-! ### Handovers and takeovers (R409-R411) -/

/-- Event 0x0B04 of a takeover (R419). -/
def takenEvent (cause : Nat) (s : State) : State := postEvent 0x0B04 (ownHid s) (w32 cause) s

/-- This member takes the reins at T_h (R409, R414): cause 0 follows the holder's own diagnosis. -/
def takeReins (cause : Nat) (s : State) : State :=
  let s1 := takeDrivers (setTan s { s.tan with fwStage := if s.tan.fwStage = 6 then 7 else s.tan.fwStage })
  if cause = 0 then takenEvent 0 (raise .takeover (countTan 2 (setTan s1 { s1.tan with step := 3 })))
  else takenEvent cause (countTan (if cause = 2 then 4 else 5) s1)

/-- The former holder now activates its own firmware (R481). -/
def pairYield (s : State) : State :=
  if s.tan.fwStage = 3 then
    match s.fw.pair with
    | some (q, t, label, _) =>
      setTan { s with fw := { s.fw with pair := none, act := some (q, t, label, now s) } } { s.tan with fwStage := 4 }
    | none => s
  else s

/-- This member gives the reins up at T_h: after a failure of its own it is out of step (R404, R409). -/
def yieldReins (cause : Nat) (s : State) : State :=
  let s1 := dropDrivers s
  if cause = 0 then setTan s1 { s1.tan with step := 3 }
  else pairYield (takenEvent cause (countTan (if cause = 2 then 4 else 5) s1))

/-- HANDOVER_INSTANT (R409). -/
def execHandoverInstant (s : State) : Host.Outcome State Fault Refusal :=
  .next (match s.tan.handover with
    | some (th, takes, cause) =>
      if reached s th then
        let s1 := setTan s { s.tan with handover := none }
        if takes then takeReins cause s1 else yieldReins cause s1
      else s
    | none => s)

/-- Herd links to peers, not to the partner, held down (R407). -/
def holdPeersDown (s : State) : State :=
  let ls := (linksUp s).filter (fun l => !tandemLink s l)
  ls.foldl (fun t l => dropLink l t) (setTan s { s.tan with peerDown := true })

/-- LEASE_END_HOLDER (R406, R407): 100 us before its lease end the holder's drivers go. -/
def execLeaseEndHolder (s : State) : Host.Outcome State Fault Refusal :=
  .next (match s.tan.leaseOwn with
    | some t =>
      if s.tan.joined && s.tan.reins && reached s (before t 100000) then
        let s1 := holdPeersDown (dropDrivers s)
        setTan s1 { s1.tan with step := 3, handover := none }
      else s
    | none => s)

/-- The airtime of a transmission overlapped the span from a to now. -/
def inGap (s : State) (a : BitVec 64) (x : Tx) : Bool := reached s x.t0 && decide (0 < (txEnd x - a).toInt)

/-- A transmission taken as undelivered (R411): a downlink waits again at its place, an immediate acknowledgement becomes a
late one, beacons and broadcasts are not repeated. -/
def undeliver (x : Tx) (s : State) : State :=
  let s1 := match x.dl with
    | some d => if x.kind = 0 && x.home.isNone then putWaiting { d with flying := false } (dropWaiting d.seq s) else s
    | none => s
  if x.kind = 1 then x.ackOf.foldl (fun t k => addLate x.net x.dst k t) s1 else s1

/-- The gap of a silent takeover handled (R411): transmissions of the gap undelivered, backhaul frames of the gap sent
again, oldest first, and those received that the mirror stream did not cover taken. -/
def handleGap (a : BitVec 64) (s : State) : State :=
  let onAirNow := s.radio.txs.filter (fun x => x.state = .onAir && inGap s a x)
  let ended := (s.radio.recent.filter (inGap s a)).filter (fun x => x.status = .ok)
  let s1 := (ended ++ onAirNow).foldl (fun t x => undeliver x t) s
  let keep (x : Tx) : Tx := if x.state = .onAir && inGap s a x then { x with dl := none, ackOf := [] } else x
  let s2 := { s1 with radio := { s1.radio with txs := s1.radio.txs.map keep, recent := [] } }
  let again := (s.tan.bhSent.filter (fun e => 0 ≤ (e.1 - a).toInt)).map (·.2)
  takeUncovered { s2 with out := { s2.out with bh := s2.out.bh ++ again } }

/-- SILENT_TAKEOVER (R406, R410): in step, and 100 us past the latest lease end. -/
def execSilentTakeover (s : State) : Host.Outcome State Fault Refusal :=
  .next (match s.tan.leaseSeen with
    | some t =>
      if nonHolder s && s.tan.step = 1 && reached s (t + 100000#64) then
        let s1 := takeDrivers s
        let s2 := countTan 3 (setTan s1 { s1.tan with step := 3, handover := none, leaseSeen := none })
        takenEvent 1 (handleGap (before t 100000) (raise .takeover (raise .reinsLost s2)))
      else s
    | none => s)

/-! ### Bridle's channels (R415-R417) -/

/-- The state with Bridle's channels replaced. -/
def setBri (s : State) (v : Bridle) : State := { s with bri := v }

def bridleStatusSpec : CmdSpec := plainSpec 0x0B20 0 (fun _ => true) (fun _ s =>
  doneWith [s.bri.votes.setWidth 32, w32 s.bri.withdrawals, w32 s.bri.restarts] s)

/-- BRIDLE_STATUS (R418). -/
def execBridleStatus (c : Packet) (s : State) : Host.Outcome State Fault Refusal := runCommand bridleStatusSpec c s

/-- A channel gives up its vote (R415). -/
def giveUpVote (ch : Nat) (selfTest : Bool) (s : State) : State :=
  let v := s.bri
  let recent := (v.history.filter (fun e => !reached s (e.2 + 1000000000#64))) ++ [(ch, now s)]
  let s1 := setBri s { v with votes := setBit v.votes ch false, withdrawals := v.withdrawals + 1, history := recent }
  postEvent 0x0B05 ch (w32 (flag selfTest)) (raise .bridleVote (setSound s1))

/-- The channel has given up its vote three times within 1 s (R416). -/
def thirdTime (ch : Nat) (s : State) : Bool := 3 ≤ (s.bri.history.filter (fun e => e.1 = ch)).length

/-- BRIDLE_VOTE (R415, R416): at the third time within 1 s the channel stays out, and Bridle tests itself. -/
def execBridleVote (ch : Fin 3) (selfTest : Bool) (s : State) : Host.Outcome State Fault Refusal :=
  .next (if bit s.bri.votes ch.val then
    let s1 := giveUpVote ch.val selfTest s
    if thirdTime ch.val s1 then (Sys2Proof.Machine.selfTest 0x80000#20 (setBri s1 { s1.bri with out := setBit s1.bri.out ch.val true })).2
    else s1
  else s)

/-- Channels that a checkpoint copies state into: without a vote, and not out until device reset (R416). -/
def rejoining (s : State) : BitVec 3 := ~~~ s.bri.votes &&& ~~~ s.bri.out

/-- BRIDLE_CHECKPOINT (R416, R63): the channel rejoins when its self-test passes; Bridle's semaphores are abandoned. -/
def execBridleCheckpoint (passed : Bool) (s : State) : Host.Outcome State Fault Refusal :=
  .next (if rejoining s = 0#3 || s.bri.restarting then s
    else abandonAll 0x80#8 (if passed then setSound (setBri s { s.bri with votes := s.bri.votes ||| rejoining s }) else s))

/-- BRIDLE_MAJORITY_LOSS (R417): SOUND falls, the reins may go (R408), and Bridle restarts. -/
def execBridleMajorityLoss (s : State) : Host.Outcome State Fault Refusal :=
  .next (if s.bri.restarting then s
    else
      let s1 := abortInFlight (failOver (setSound (setBri s { s.bri with restarting := true, restarts := s.bri.restarts + 1 })))
      abandonAll 0x80#8 { s1 with dev := { s1.dev with cmdReady := false, soundPin := false } })

/-- BRIDLE_RESTART_COMPLETE (R417): every channel not out votes again, and commands are served. -/
def execBridleRestartComplete (s : State) : Host.Outcome State Fault Refusal :=
  .next (if s.bri.restarting then
    let s1 := setBri s { s.bri with restarting := false, votes := ~~~ s.bri.out, history := [] }
    setSound { s1 with dev := { s1.dev with cmdReady := true } }
  else s)

end Sys2Proof.Machine
end

