-- ==== Sys2Proof/Machine/Vault.lean ====
section
/-! DEFINITION. The key vault, the tamper domain and attestation (R420-R441). -/

namespace Sys2Proof.Machine

/-! ### Slots -/

/-- The state with vault slot k replaced. -/
def setSlot (k : Nat) (v : Slot) (s : State) : State := { s with vault := { s.vault with slots := tabSet s.vault.slots k v } }

/-- The slots by state (R440). -/
def slotCount (s : State) (st : Nat) : Nat := ((List.range 64).filter (fun k => (vaultSlot s k).state = st)).length

/-- The vault is unlocked under a rebuilt root, so that slot keys can be used (R422). -/
def vaultOpen (s : State) : Bool := s.vault.unlocked && s.vault.rootOk

/-- The not-permitted checks of generating and importing, in reason order (R424, R435). -/
def newSlotCheck (k : Nat) (s : State) : Option Status :=
  if (vaultSlot s k).state != 0 then some .notPermittedSlotUsed
  else if s.vault.tampered then some .notPermittedTamperLatched
  else none

def vaultStatusSpec : CmdSpec := plainSpec 0x0A00 0 (fun _ => true) (fun _ s =>
  let v := s.vault
  let flags := flag v.unlocked + 2 * flag v.rootOk + 4 * flag v.brand + 8 * flag v.tampered + 16 * flag v.vbatLost
    + 32 * flag v.tamper.lock
  doneWith [w32 flags, quad8 0 (slotCount s 2) (slotCount s 1) (slotCount s 0), w32 v.count, w32 s.cfg.maskPeriod,
            w32 v.attempts] s)

/-- VAULT_STATUS (R440). -/
def execVaultStatus (c : Packet) (s : State) : Host.Outcome State Fault Refusal :=
  runCommand vaultStatusSpec c s

/-- A TRANSPORT key pair made from the random source (R17, R426): the private scalar and the slot that holds it. -/
def transportSlot (r m : BitVec 256) : Slot :=
  let priv := beBytes 32 r.toNat
  { state := 1, typ := 2, origin := 1, pub := p256Public priv, key := priv, mask := m }

def slotGenerateSpec : CmdSpec :=
  { plainSpec 0x0A01 2 (fun c => within c 0 0 63 && within c 1 2 2) (fun c s =>
      if vaultOpen s then
        let d := drawRandom s
        let m := drawRandom d.2
        let v := transportSlot d.1 m.1
        doneWith (wordsOfBytes v.pub) (setSlot (pn c 0) v m.2)
      else ends .failedRootKey s) with
    perm := fun c s => newSlotCheck (pn c 0) s }

/-- SLOT_GENERATE (R426). -/
def execSlotGenerate (c : Packet) (s : State) : Host.Outcome State Fault Refusal :=
  runCommand slotGenerateSpec c s

/-- The key-encryption key of an import (R427). -/
def importKek (priv pub : List Byte) (slot typ : Nat) : List Byte :=
  sha256 ([0x00#8, 0x00#8, 0x00#8, 0x01#8] ++ ecdh priv pub ++ [0x59#8, 0x4E#8, 0x4B#8, 0x57#8]
    ++ [BitVec.ofNat 8 slot, BitVec.ofNat 8 typ])

/-- The key check value of a key field (R423). -/
def checkValue (typ : Nat) (field : List Byte) : List Byte :=
  if typ = 1 then (aes128 (field.take 16) (List.replicate 16 0#8)).take 3 else field.take 3

/-- The key field of an import when every check of R427 passes. -/
def importField (s : State) (c : Packet) : Option (List Byte) :=
  let typ := pn c 1
  let kek := importKek (vaultSlot s (pn c 2)).key (pbytes c 3 64) (pn c 0) typ
  match keyUnwrap kek (pbytes c 19 40) with
  | none => none
  | some f =>
    if typ = 1 && (f.drop 16).any (fun b => b != 0#8) then none
    else if checkValue typ f != pbytes c 29 3 then none
    else some f

def slotImportSpec : CmdSpec :=
  { plainSpec 0x0A02 30 (fun c => within c 0 0 63 && (pn c 1 = 1 || pn c 1 = 3) && within c 2 0 63 && fits c 29 24
        && p256Valid (pbytes c 3 64)) (fun c s =>
      if vaultOpen s then
        match importField s c with
        | some f =>
          let m := drawRandom s
          done (setSlot (pn c 0) { state := 1, typ := pn c 1, origin := 2, check := checkValue (pn c 1) f, key := f, mask := m.1 } m.2)
        | none => ends .invalidCheckValue s
      else ends .failedRootKey s) with
    perm := fun c s => newSlotCheck (pn c 0) s
    ready := fun c s => (vaultSlot s (pn c 2)).state = 1 && (vaultSlot s (pn c 2)).typ = 2 }

/-- SLOT_IMPORT (R427). -/
def execSlotImport (c : Packet) (s : State) : Host.Outcome State Fault Refusal :=
  runCommand slotImportSpec c s

/-- Network n uses slot k: for its current epoch, or for the previous one while the overlap lasts (R425). -/
def netUses (s : State) (k n : Nat) : Bool :=
  ((netCfg s n).configured && (netCfg s n).slot = k) || overlapSlot s n = some k

/-- The networks that use slot k, as a mask (R440). -/
def netsUsing (s : State) (k : Nat) : BitVec 16 := maskOf 16 ((List.range 16).filter (netUses s k))

/-- A cached key was derived from slot k (R425). -/
def derivedFrom (s : State) (k : Nat) (e : KeyEntry) : Bool := epochSlot s e.net e.epoch = some k

def slotRetireSpec : CmdSpec :=
  { plainSpec 0x0A03 1 (fun c => within c 0 0 63) (fun c s =>
      let k := pn c 0
      let s1 := dropKeys (derivedFrom s k) s
      done (setSlot k { vaultSlot s k with state := 2, key := [], mask := 0 } s1)) with
    ready := fun c s => (vaultSlot s (pn c 0)).state = 1 && netsUsing s (pn c 0) = 0#16
      && !s.vault.next.any (fun e => e.2 = pn c 0) }

/-- SLOT_RETIRE (R424, R425). -/
def execSlotRetire (c : Packet) (s : State) : Host.Outcome State Fault Refusal :=
  runCommand slotRetireSpec c s

/-- A byte string as exactly n bytes, zero where it has none. -/
def exactly (n : Nat) (l : List Byte) : List Byte := (List.range n).map (fun i => l.getD i 0#8)

def slotInfoSpec : CmdSpec := plainSpec 0x0A04 1 (fun c => within c 0 0 63) (fun c s =>
  let v := vaultSlot s (pn c 0)
  doneWith ([w32 v.state, w32 v.typ, w32 v.origin, w32 (leNat (v.check.take 3))] ++ wordsOfBytes (exactly 64 v.pub)
    ++ [(netsUsing s (pn c 0)).setWidth 32]) s)

/-- SLOT_INFO (R440). -/
def execSlotInfo (c : Packet) (s : State) : Host.Outcome State Fault Refusal :=
  runCommand slotInfoSpec c s

/-! ### Attestation -/

/-- Bytes 0-123 of the statement about slot k (R438). -/
def statement (s : State) (k : Nat) (nonce : List Byte) : List Byte :=
  let v := vaultSlot s k
  let flags := 1 + 2 * flag (v.state = 2) + 4 * flag s.vault.tampered + 8 * flag s.vault.vbatLost
  [0x59#8, 0x4E#8, 0x41#8, 0x54#8, 0x01#8, BitVec.ofNat 8 k, BitVec.ofNat 8 v.typ, BitVec.ofNat 8 v.origin, BitVec.ofNat 8 flags]
    ++ exactly 3 (if v.typ = 2 then [] else v.check) ++ exactly 64 v.pub ++ leBytes 8 s.dev.serial.toNat
    ++ leBytes 4 s.vault.count ++ wordBytes s.dev.bootEpoch ++ nonce

/-- A signature under the Brand key with a nonce drawn (R438). -/
def brandSign (draw : BitVec 256) (digest : List Byte) : List Byte := ecdsaSign Config.brandKey.toNat draw.toNat digest

def attestSpec : CmdSpec := plainSpec 0x0A05 9 (fun c => within c 0 0 63) (fun c s =>
  if s.vault.brand then
    let st := statement s (pn c 0) (pbytes c 1 32)
    let d := drawRandom s
    doneWith (wordsOfBytes (st ++ exactly 64 (brandSign d.1 (sha256 st)))) d.2
  else ends .failedRootKey s)

/-- ATTEST (R438). -/
def execAttest (c : Packet) (s : State) : Host.Outcome State Fault Refusal := runCommand attestSpec c s

def brandCertReadSpec : CmdSpec := plainSpec 0x0A06 0 (fun _ => true) (fun _ s =>
  let cert := Config.brandCert.take 1024
  doneWith (w32 cert.length :: wordsOfBytes cert) s)

/-- BRAND_CERT_READ (R421): the certificate lies in OTP, so no root is needed. -/
def execBrandCertRead (c : Packet) (s : State) : Host.Outcome State Fault Refusal :=
  runCommand brandCertReadSpec c s

/-! ### Zone keys and masks -/

/-- The not-permitted checks of ZONE_NEXT_SET, in reason order (R430, R435). -/
def zoneNextCheck (s : State) : Option Status :=
  (minorityCheck s).or (if s.vault.tampered then some .notPermittedTamperLatched else none)

def zoneNextSetSpec : CmdSpec :=
  { plainSpec 0x0A07 2 (fun c => within c 0 0 15 && (within c 1 0 63 || pw c 1 = 0xFFFFFFFF#32)) (fun c s =>
      if pw c 1 = 0xFFFFFFFF#32 then done { s with vault := { s.vault with next := tabDel s.vault.next (pn c 0) } }
      else done { s with vault := { s.vault with next := tabSet s.vault.next (pn c 0) (pn c 1) } }) with
    perm := fun _ s => zoneNextCheck s
    ready := fun c s => pw c 1 = 0xFFFFFFFF#32 || zoneLoaded s (pn c 1) }

/-- ZONE_NEXT_SET (R430). -/
def execZoneNextSet (c : Packet) (s : State) : Host.Outcome State Fault Refusal :=
  runCommand zoneNextSetSpec c s

def maskSetSpec : CmdSpec := plainSpec 0x0A08 1 (fun c => within c 0 1 3600) (fun c s =>
  done { s with cfg := { s.cfg with maskPeriod := pn c 0 } })

/-- MASK_SET (R428). -/
def execMaskSet (c : Packet) (s : State) : Host.Outcome State Fault Refusal := runCommand maskSetSpec c s

/-- Slot k re-masked with a new random mask: its shares become W xor M' and M' (R428). -/
def remaskSlot (s : State) (k : Nat) : State :=
  let d := drawRandom s
  setSlot k { vaultSlot s k with mask := d.1 } d.2

/-- VAULT_REMASK (R428): every MASK_PERIOD all 64 slots get a new mask; what they hold stays. -/
def execVaultRemask (s : State) : Host.Outcome State Fault Refusal :=
  .next (if periodDue .remask (1000000000 * s.cfg.maskPeriod) s then (List.range 64).foldl remaskSlot (ranNow .remask s) else s)

/-! ### Tamper -/

/-- The state after the zeroise line (R433, R436): key cache, slots and ZONE_NEXT_SET bindings cleared, LOCK cleared,
TAMPER_COUNT one more and saturating; the Brand key is back from the root at once (R434). -/
def clearVault (s : State) : State :=
  { s with vault := { s.vault with slots := [], next := [], tamper := { s.vault.tamper with lock := false },
                                   count := saturate 32 (s.vault.count + 1) }
           link := { s.link with keys := [] } }

/-- Vault commands in flight as the zeroise line asserts: those that wait complete with ST_NOT_PERMITTED_TAMPER_LATCHED and write no
slot (R434). -/
def endVaultCommands (s : State) : State :=
  let mine (e : InFlight) : Bool := 0x0A00 ≤ e.opcode && e.opcode < 0x0B00 && e.phase = .waiting
  let l := s.cmd.inFlight.filter mine
  let gone (w : WaitingCmd) : Bool := w.accepted && l.any (fun e => e.seq = w.seq)
  completeAll (l.map (fun e => (e.queue, e.tag))) .notPermittedTamperLatched
    { s with cmd := { s.cmd with waiting := s.cmd.waiting.filter (fun w => !gone w) } }

/-- What a self-test that retires the key vault brings with it (R433, R69, R404, R408). -/
def retireVault (s : State) : State :=
  let was := soundness s 12
  let reason := BitVec.ofNat 16 (trbReg .tamper * 8192 + trbPos .tamper)
  if was.state = 2 then s
  else
    let s1 := setSound (setSoundness 12 { was with state := 2, instances := 1, reason := reason } s)
    let s2 := failOver s1
    if nonHolder s2 && s2.tan.step = 1 then { s2 with tan := { s2.tan with step := 3 } } else s2

/-- Event 0x0A02 posted for a zeroisation; its detail is left open (R441). -/
def postZeroised (source : Nat) (s : State) : State :=
  let d := drawWord s
  postEvent 0x0A02 source d.1 d.2

/-- Input i zeroises (R433). Without VIN only the VBAT domain is there to change. -/
def zeroiseBy (i : Nat) (s : State) : State :=
  let s1 := clearVault (endVaultCommands s)
  let s2 : State := { s1 with vault := { s1.vault with tampered := true, lastZero := some i } }
  if s.dev.vin then retireVault (postZeroised i (raise .tamper s2)) else s2

/-- Input i only reports (R432). -/
def reportTamper (i : Nat) (s : State) : State :=
  if s.dev.vin then
    let s1 : State := { s with vault := { s.vault with reports := s.vault.reports + 1 } }
    postEvent 0x0A01 i 0#32 (raise .tamperSensor s1)
  else s

/-- TAMPER_TRIP (R432): the input is tripped now; enabled, it zeroises or reports. The VBAT input watches only while VIN is
absent. -/
def execTamperTrip (i : Fin 10) (s : State) : Host.Outcome State Fault Refusal :=
  if i.val = 9 && s.dev.vin then .next s
  else
    let s1 : State := { s with vault := { s.vault with tripped := setBit s.vault.tripped i.val true } }
    if !bit s.vault.tamper.enable i.val then .next s1
    else if bit s.vault.tamper.action i.val then .next (zeroiseBy i.val s1)
    else .next (reportTamper i.val s1)

/-- TAMPER_SENSOR_IN_RANGE (R432, R440). -/
def execTamperSensorInRange (i : Fin 10) (s : State) : Host.Outcome State Fault Refusal :=
  .next { s with vault := { s.vault with tripped := setBit s.vault.tripped i.val false } }

def tamperSetSpec : CmdSpec :=
  { plainSpec 0x0A10 4 (fun c => fits c 0 10 && fits c 1 10 && fits c 2 2 && fits c 3 1) (fun c s =>
      let v : TamperCfg := { enable := (pw c 0).setWidth 10, action := (pw c 1).setWidth 10, closed := (pw c 2).setWidth 2,
                             lock := bit (pw c 3) 0 }
      done { s with vault := { s.vault with tamper := v } }) with
    ready := fun _ s => !s.vault.tamper.lock }

/-- TAMPER_SET (R436). -/
def execTamperSet (c : Packet) (s : State) : Host.Outcome State Fault Refusal := runCommand tamperSetSpec c s

def tamperStatusSpec : CmdSpec := plainSpec 0x0A11 0 (fun _ => true) (fun _ s =>
  doneWith [s.vault.tripped.setWidth 32, (s.vault.lastZero.map w32).getD 0xFFFFFFFF#32, w32 s.vault.reports] s)

/-- TAMPER_STATUS (R440). -/
def execTamperStatus (c : Packet) (s : State) : Host.Outcome State Fault Refusal :=
  runCommand tamperStatusSpec c s

def tamperClearSpec : CmdSpec :=
  { plainSpec 0x0A12 1 (fun c => pw c 0 = 0x74616D70#32) (fun _ s =>
      done { s with vault := { s.vault with tampered := false } }) with
    ready := fun _ s => s.vault.tamper.enable &&& s.vault.tripped = 0#10 }

/-- TAMPER_CLEAR (R435). -/
def execTamperClear (c : Packet) (s : State) : Host.Outcome State Fault Refusal :=
  runCommand tamperClearSpec c s

def vaultZeroiseSpec : CmdSpec := plainSpec 0x0A13 1 (fun c => pw c 0 = 0x7A65726F#32) (fun _ s =>
  done (retireVault (postZeroised 0xFFFF (clearVault (endVaultCommands s)))))

/-- VAULT_ZEROISE (R436): no latch and no TRB7.TAMPER. -/
def execVaultZeroise (c : Packet) (s : State) : Host.Outcome State Fault Refusal :=
  runCommand vaultZeroiseSpec c s

end Sys2Proof.Machine
end

