-- ==== Sys2Proof/Machine/Firmware.lean ====
section
/-! DEFINITION. Flash, firmware images, the image chain, tack sets and activation (R466-R485). -/

namespace Sys2Proof.Machine

/-! ### Flash layout and journal -/

/-- Start of the host area in flash (R467). -/
def hostArea : Nat := 0x1900000

/-- Bytes of the host area: to the end of the flash fitted (R467). -/
def hostSize (s : State) : Nat := 1048576 * s.fw.flashMiB - hostArea

/-- The flash sector, 64 KiB, that holds a byte of the host area. -/
def hostSector (addr : Nat) : Nat := (hostArea + addr) / 65536

/-- First sector of firmware slot k and of tack slot k (R467). -/
def fwSector (k : Nat) : Nat := 0x10 + 0x80 * k
def tackSector (k : Nat) : Nat := 0x110 + 0x40 * k

/-- n bytes of the host area. -/
def flashBytes (s : State) (addr n : Nat) : List Byte := memRead flashBlank s.mem.flash addr n

/-- The host area with bytes at an address. -/
def flashWrite (addr : Nat) (l : List Byte) (s : State) : State :=
  { s with mem := { s.mem with flash := memSetAll flashBlank s.mem.flash addr l } }

/-- One journal entry (R469). -/
def journal (kind sector : Nat) (s : State) : State := setFw s { s.fw with journal := s.fw.journal ++ [(kind, sector)] }

/-- The journal of an erase of n sectors whose first has begun: each ended, and the next begun (R469). -/
def journalErased (first n : Nat) (s : State) : State :=
  (List.range n).foldl (fun t i => if i + 1 = n then journal 3 (first + i) t else journal 0 (first + i + 1) (journal 3 (first + i) t)) s

/-- The sectors that an erase operation covers: the first and how many. -/
def eraseSpan (s : State) : FlashKind → Option (Nat × Nat)
  | .erase k n => some (k, n)
  | .tackSave _ _ => some (tackSector (1 - s.fw.tackSlot), 64)
  | .fwBegin k _ _ => some (fwSector k, 128)
  | .program _ _ => none
  | .fwBlock _ _ _ => none

/-! ### Operations under way (R468, R469) -/

/-- Firmware slot k replaced. -/
def setFwSlot (k : Nat) (v : FwSlot) (s : State) : State := setFw s { s.fw with slots := tabSet s.fw.slots k v }

/-- The command of an operation completes. -/
def completeOp (o : FlashOp) (st : Status) (r : List Word) (s : State) : State :=
  match o.cmd with
  | some (q, t) => complete q t st r s
  | none => s

/-- What the start of an operation changes (R469, R473, R478): the first sector's erase is journaled; a slot under rewriting
is invalid; the previous tack is lost with its slot, and unrevertible when its firmware goes. -/
def startOp (o : FlashOp) (s : State) : State :=
  let s1 := match eraseSpan s o.kind with
    | some (k, _) => journal 0 k s
    | none => s
  match o.kind with
  | .tackSave _ _ => setFw s1 { s1.fw with prev := none, revertible := false }
  | .fwBegin k n _ =>
    let named := match s.fw.prev with
      | some t => t.slot = k
      | none => false
    let s2 := setFwSlot k { state := 3, count := n } s1
    setFw s2 { s2.fw with revertible := s2.fw.revertible && !named, loading := some k }
  | _ => s1

/-- Why an operation ends at its start (R468): a host program needs a wholly erased target, and no part of it in a sector
marked for re-erase. -/
def startRefusal (s : State) : FlashKind → Option Status
  | .program a l =>
    if (List.range l.length).any (fun i => s.fw.reerase.contains (hostSector (a + i))) then some .failedFlash
    else if (flashBytes s a l.length).any (fun b => b != 0xFF#8) then some .invalidNotErased
    else none
  | _ => none

/-- The operation at the head starts, unless power-fail handling runs (R444); one refused at its start ends and the next one
starts. The number bounds how many may end so. -/
def startHead : Nat → State → State
  | 0, s => s
  | n + 1, s =>
    match s.fw.ops with
    | [] => s
    | o :: r =>
      if o.begun || s.dev.powerFail then s
      else match startRefusal s o.kind with
        | some st => startHead n (completeOp o st [] (setFw s { s.fw with ops := r }))
        | none =>
          let s1 := startOp o s
          setFw s1 { s1.fw with ops := { o with begun := true } :: r }

/-- An operation joins the flash manager's work, one after the other. -/
def addOp (o : FlashOp) (s : State) : State :=
  let s1 := setFw s { s.fw with ops := s.fw.ops ++ [o] }
  startHead s1.fw.ops.length s1

/-! ### Reads (R469, R470) -/

/-- A span of the host area meets the sectors of an erase under way. -/
def underErase (s : State) (addr n : Nat) : Bool :=
  match s.fw.ops with
  | o :: _ =>
    match o.begun, eraseSpan s o.kind with
    | true, some (k, m) => decide (k ≤ hostSector (addr + n - 1)) && decide (hostSector addr < k + m)
    | _, _ => false
  | [] => false

/-- An erase is in progress (R484). -/
def erasing (s : State) : Bool :=
  match s.fw.ops with
  | o :: _ => o.begun && (eraseSpan s o.kind).isSome
  | [] => false

/-- The sector whose erase a read suspends: the journal's last begun one. -/
def erasedNow (s : State) : Nat :=
  match s.fw.ops with
  | o :: _ => ((eraseSpan s o.kind).map (·.1)).getD 0
  | [] => 0

/-- A read served: it suspends and resumes an erase under way (R469). -/
def readServed (s : State) : State :=
  if erasing s then journal 2 (erasedNow s) (journal 1 (erasedNow s) s) else s

/-- A span lies wholly in sectors that are not marked for re-erase (R470). -/
def readable (s : State) (addr n : Nat) : Bool :=
  !(s.fw.reerase.any (fun k => decide (hostSector addr ≤ k) && decide (k ≤ hostSector (addr + n - 1))))

/-- Reads that waited for an erase are served once no erase covers them. -/
def serveReads (s : State) : State :=
  let l := s.fw.reads.filter (fun r => !underErase s r.2.2.1 r.2.2.2)
  let s1 := setFw s { s.fw with reads := s.fw.reads.filter (fun r => underErase s r.2.2.1 r.2.2.2) }
  l.foldl (fun t r => complete r.1 r.2.1 .ok (wordsOfBytes (flashBytes t r.2.2.1 r.2.2.2)) t) s1

/-- Address and length of a flash command (R484). -/
def flashSpan (c : Packet) (s : State) : Bool :=
  within c 1 4 4080 && pn c 1 % 4 = 0 && pn c 0 + pn c 1 ≤ hostSize s

def flashReadSpec : CmdSpec :=
  { plainSpec 0x0C20 2 (fun _ => true) (fun c s =>
      let a := pn c 0
      let n := pn c 1
      if !readable s a n then ends .failedFlash s
      else if underErase s a n then runsOn (setFw s { s.fw with reads := s.fw.reads ++ [(c.queue.val, c.tag, a, n)] })
      else doneWith (wordsOfBytes (flashBytes s a n)) (readServed s)) with
    valid := fun c => pn c 0 % 4 = 0
    here := flashSpan }

/-- FLASH_READ (R469, R470, R484). -/
def execFlashRead (c : Packet) (s : State) : Host.Outcome State Fault Refusal := runCommand flashReadSpec c s

/-- Parameter words of FLASH_PROGRAM, by its length word (R484, R511). -/
def programLen (c : Packet) : Option Nat :=
  if within c 1 4 4080 && pn c 1 % 4 = 0 then some (2 + pn c 1 / 4) else none

def flashProgramSpec : CmdSpec :=
  { plainSpec 0x0C21 0 (fun _ => true) (fun c s =>
      let o : FlashOp := { kind := .program (pn c 0) (pbytes c 2 (pn c 1)) }
      if s.fw.ops.isEmpty then
        match startRefusal s o.kind with
        | some st => ends st s
        | none => runsOn (addOp { o with cmd := some (c.queue.val, c.tag) } s)
      else runsOn (addOp { o with cmd := some (c.queue.val, c.tag) } s)) with
    len := programLen, countAt := some 1
    here := flashSpan }

/-- FLASH_PROGRAM (R468, R484). -/
def execFlashProgram (c : Packet) (s : State) : Host.Outcome State Fault Refusal :=
  runCommand flashProgramSpec c s

def flashEraseSpec : CmdSpec :=
  { plainSpec 0x0C22 2 (fun _ => true) (fun c s =>
      runsOn (addOp { kind := .erase (hostSector (pn c 0)) (pn c 1), cmd := some (c.queue.val, c.tag) } s)) with
    valid := fun c => pn c 0 % 65536 = 0 && within c 1 1 64
    here := fun c s => pn c 0 + 65536 * pn c 1 ≤ hostSize s }

/-- FLASH_ERASE (R469, R484). -/
def execFlashErase (c : Packet) (s : State) : Host.Outcome State Fault Refusal := runCommand flashEraseSpec c s

def flashStatusSpec : CmdSpec := plainSpec 0x0C23 0 (fun _ => true) (fun _ s =>
  doneWith [w32 s.fw.flashMiB, w32 s.fw.reerase.length, w32 s.fw.journal.length, w32 (flag (erasing s))] s)

/-- FLASH_STATUS (R484). -/
def execFlashStatus (c : Packet) (s : State) : Host.Outcome State Fault Refusal := runCommand flashStatusSpec c s

/-! ### Images (R471-R473) -/

/-- The SHA-256 of bytes 0-51 of a header (R471). -/
def headerDigest (h : List Byte) : List Byte := sha256 (h.take 52)

/-- The countersignature of a header under the policy in force (R472, R476): none when it is good. -/
def counterCheck (s : State) (h : List Byte) : Option Status :=
  if !s.fw.policy then none
  else if !vaultOpen s then some .failedRootKey
  else
    let v := vaultSlot s s.fw.policySlot
    let pub := slice h 120 64
    if byteAt h 116 % 2 = 1 && ecdsaOk pub (headerDigest h) (slice h 184 64) && v.state = 1 && v.typ = 3
      && sha256 pub = v.key then none
    else some .failedSignature

/-- A digest's signature holds under one of the Kelwaer anchors in OTP (R472). -/
def kelwaerOk (digest sig : List Byte) : Bool := Config.kelwaerAnchors.any (fun pub => ecdsaOk pub digest sig)

/-- The checks of block 0 (R472). -/
def headerCheck (s : State) (h : List Byte) : Option Status :=
  if kelwaerOk (headerDigest h) (slice h 52 64) then counterCheck s h else some .failedSignature

/-- The payload hash of an image matches its header (R472). -/
def payloadOk (blocks : List (List Byte)) : Bool :=
  match blocks with
  | h :: r => decide (sha256 r.flatten = slice h 20 32)
  | [] => false

/-- The firmware slot that FW_BEGIN loads: A in REMOUNT (R483), else the one the active tack does not name (R473). -/
def loadSlot (s : State) : Nat :=
  if s.dev.mode = .remount then 0
  else match s.fw.active with
    | some t => 1 - t.slot
    | none => 1 - s.fw.running

def fwBeginSpec : CmdSpec :=
  { plainSpec 0x0C00 2 (fun c => within c 0 2 2048 && fits c 1 1) (fun c s =>
      if s.fw.flashOk then
        runsOn (addOp { kind := .fwBegin (loadSlot s) (pn c 0) (bit (pw c 1) 0), cmd := some (c.queue.val, c.tag) } s)
      else ends .failedFlash s) with
    perm := fun _ s => lockCheck s }

/-- FW_BEGIN (R473, R479, R466). -/
def execFwBegin (c : Packet) (s : State) : Host.Outcome State Fault Refusal := runCommand fwBeginSpec c s

/-- The slot being loaded, while it takes blocks. -/
def openLoad (s : State) : Option Nat :=
  match s.fw.loading with
  | some k => if (fwSlot s k).state = 1 then some k else none
  | none => none

/-- Image blocks on their way into the flash. -/
def pendingBlocks (s : State) : Nat :=
  (s.fw.ops.filter (fun o => match o.kind with
    | .fwBlock _ _ _ => true
    | _ => false)).length

/-- The load ends: the slot is invalid and blocks on their way are dropped (R472). -/
def endLoad (k : Nat) (s : State) : State := setFwSlot k { fwSlot s k with state := 3, blocks := [] } s

/-- A block whose CRC-32C is good joins the flash manager's work; block 0 passes the header checks first (R472): none when
it does, else the status that ends the load. -/
def blockCheck (s : State) (num : Nat) (b : List Byte) : Option Status := if num = 0 then headerCheck s b else none

/-- The bytes that FW_BLOCK_WRITE names in the image staging region (R473). -/
def stagedBlock (c : Packet) (s : State) : List Byte := stagingRead s (wide (pw c 1) (pw c 2)).toNat 4096

def fwBlockWriteSpec : CmdSpec :=
  { plainSpec 0x0C01 4 (fun c => within c 0 0 2047 && (wide (pw c 1) (pw c 2)).toNat % 4096 = 0
        && decide ((wide (pw c 1) (pw c 2)).toNat + 4096 ≤ stagingSize)) (fun c s =>
      let n := pn c 0
      if n < (heldBlocks s).length then doneWith [w32 (heldBlocks s).length] s
      else
        let b := stagedBlock c s
        let k := s.fw.loading.getD 0
        if stagingBad s (wide (pw c 1) (pw c 2)).toNat 4096 then ends .failedHardware s
        else if crc32c b != pw c 3 then ends .invalidCheckValue s
        else match blockCheck s n b with
          | some st => ends st (endLoad k s)
          | none => runsOn (addOp { kind := .fwBlock k n b, cmd := some (c.queue.val, c.tag) } s)) with
    ready := fun c s => s.dev.dramOk && (pn c 0 < (heldBlocks s).length
      || ((openLoad s).isSome && pn c 0 = (heldBlocks s).length + pendingBlocks s && pn c 0 < imageCount s)) }

/-- FW_BLOCK_WRITE (R472, R473). -/
def execFwBlockWrite (c : Packet) (s : State) : Host.Outcome State Fault Refusal :=
  runCommand fwBlockWriteSpec c s

/-- Bridle runs on slot k. -/
def runsSlot (s : State) (k : Nat) : Bool := s.fw.running = k && (s.dev.mode != .remount) && s.dev.fwVersion != 0#32

/-- State and version of slot k (R484). -/
def slotWords (s : State) (k : Nat) : List Word :=
  [w32 (if runsSlot s k && (fwSlot s k).state = 2 then 4 else (fwSlot s k).state), (fwSlot s k).version]

def fwStatusSpec : CmdSpec := plainSpec 0x0C02 0 (fun _ => true) (fun _ s =>
  doneWith (slotWords s 0 ++ slotWords s 1 ++ [w32 (heldBlocks s).length, w32 s.fw.chainState,
    (s.fw.chainBreak.map w32).getD 0xFFFFFFFF#32]) s)

/-- FW_STATUS (R484). -/
def execFwStatus (c : Packet) (s : State) : Host.Outcome State Fault Refusal := runCommand fwStatusSpec c s

/-! ### Image chain (R474, R475) -/

/-- Parameter words of FW_CHAIN_SET, by its count word (R511). -/
def chainLen (c : Packet) : Option Nat := if pn c 0 ≤ 63 then some (1 + pn c 0) else none

def fwChainSetSpec : CmdSpec :=
  { plainSpec 0x0C03 0 (fun c => (c.params.drop 1).all (fun w => w.toNat ≤ 63)) (fun c s =>
      done (setFw s { s.fw with chain := (c.params.drop 1).map (·.toNat), chainState := 0, chainBreak := none, chainTries := 0 })) with
    len := chainLen, countAt := some 0 }

/-- FW_CHAIN_SET (R474). -/
def execFwChainSet (c : Packet) (s : State) : Host.Outcome State Fault Refusal := runCommand fwChainSetSpec c s

def fwChainResumeSpec : CmdSpec :=
  { plainSpec 0x0C04 0 (fun _ => true) (fun c s =>
      match chainNext s with
      | some h =>
        if reachable s h then
          let s1 := setFw s { s.fw with chainState := 1, chainAt := 0, chainTries := 0, chainBreak := none,
                                        resume := some (c.queue.val, c.tag) }
          runsOn (passBlock s1)
        else ends .refusedNoRoute s
      | none => ends .invalidState s) with
    ready := fun _ s => !(heldBlocks s).isEmpty && !s.fw.chain.isEmpty && s.fw.resume.isNone }

/-- FW_CHAIN_RESUME (R475): its reply follows when the next device has reported its count. -/
def execFwChainResume (c : Packet) (s : State) : Host.Outcome State Fault Refusal :=
  runCommand fwChainResumeSpec c s

/-- FW_CHAIN_RESUME answered with the count that the next device reports (R475). -/
def answerResume (count : Nat) (s : State) : State :=
  match s.fw.resume with
  | some (q, t) => complete q t .ok [w32 count] (setFw s { s.fw with resume := none })
  | none => s

/-- An acknowledgement of the next device taken (R474): the chain goes on from the count it gives. -/
def takeChainAck (count : Nat) (s : State) : State :=
  let beyond := decide (imageCount s ≤ count)
  let s1 := answerResume count (setFw s { s.fw with chainAt := count, chainTries := 0, chainState := if beyond then 3 else 1 })
  passBlock s1

/-- FW_CHAIN_ACK (R474, R475): one of an old boot epoch does not count. -/
def execFwChainAck (src : Fin 64) (epoch : Word) (count : Nat) (s0 : State) : Host.Outcome State Fault Refusal :=
  let s := mirrorHerd (.chainAck src epoch count) s0
  .next (if s.fw.chainState = 1 && 0 < s.fw.chainTries && chainNext s = some src.val && !oldEpoch s src.val epoch then
    takeChainAck count s
  else s)

/-- FW_CHAIN_ACK_TIMEOUT (R475): after 100 ms the block is sent again, and the chain breaks after three sends. -/
def execFwChainAckTimeout (s : State) : Host.Outcome State Fault Refusal :=
  .next (if s.fw.chainState = 1 && 0 < s.fw.chainTries && periodDue .chainAck 100000000 s then
    (if s.fw.chainTries < 3 then sendBlock (s.fw.chainTries + 1) s else breakChain s)
  else s)

/-- An acknowledgement of chain blocks sent to a peer with the count of contiguous good blocks (R474). -/
def ackBlocks (h : Nat) (s : State) : State := originate (.chainAck h (heldBlocks s).length) s

/-- A new image begins over the chain with its header (R474). -/
def beginChainImage (x : BlockIn) (s : State) : State :=
  let k := loadSlot s
  let on := !x.rest.isEmpty
  let s1 := setFw s { s.fw with chain := x.rest.map (·.val), chainBreak := none }
  match headerCheck s x.bytes with
  | some _ => s
  | none =>
    let s2 := addOp { kind := .fwBegin k x.count on } s1
    addOp { kind := .fwBlock k 0 x.bytes, peer := some x.src.val } s2

/-- A good chain block taken (R474): one already held, or out of order, is acknowledged with the count; a header of another
image begins a load. -/
def takeChainBlock (x : BlockIn) (s : State) : State :=
  let held := heldBlocks s
  if x.num < held.length && held[x.num]? = some x.bytes && imageCount s = x.count then
    ackBlocks x.src.val (setFw s { s.fw with chain := if s.fw.chain.isEmpty then x.rest.map (·.val) else s.fw.chain })
  else if x.num = 0 then beginChainImage x s
  else match openLoad s with
    | some k =>
      if x.num = held.length + pendingBlocks s && x.num < imageCount s then
        addOp { kind := .fwBlock k x.num x.bytes, peer := some x.src.val } s
      else ackBlocks x.src.val s
    | none => ackBlocks x.src.val s

/-- FW_CHAIN_BLOCK (R472, R474): a block whose CRC-32C is bad is dropped, and the sender sends it again. -/
def execFwChainBlock (x : BlockIn) (s0 : State) : Host.Outcome State Fault Refusal :=
  let s := mirrorHerd (.chainBlock x) s0
  .next (if x.bytes.length = 4096 && crc32c x.bytes = x.crc && s.fw.flashOk then takeChainBlock x s else s)

/-! ### Policy and tack sets (R476-R479) -/

def fwPolicySetSpec : CmdSpec :=
  { plainSpec 0x0C06 2 (fun c => fits c 0 1 && within c 1 0 63) (fun c s =>
      done (setFw s { s.fw with policy := bit (pw c 0) 0, policySlot := pn c 1 })) with
    perm := fun _ s => lockCheck s
    ready := fun c s => (vaultSlot s (pn c 1)).state = 1 && (vaultSlot s (pn c 1)).typ = 3 }

/-- FW_POLICY_SET (R476). -/
def execFwPolicySet (c : Packet) (s : State) : Host.Outcome State Fault Refusal :=
  runCommand fwPolicySetSpec c s

/-- The RCK settings in force, by RCK. -/
def rckSettings (s : State) : Tab Nat := s.radio.rck.filterMap (fun e => e.2.sel.map (fun k => (e.1, k)))

/-- The spill caps and CUT_THRESH values set, by queue. -/
def queueCaps (s : State) : Tab (Nat × Nat) :=
  (s.que.filter (fun e => e.2.cap != 0 || e.2.cutThresh != 0)).map (fun e => (e.1, e.2.cap, e.2.cutThresh))

/-- What DMA_ENGINE_SET gave an engine. -/
def engineSettings (v : Engine) : Engine :=
  { bound := v.bound, d2h := v.d2h, queue := v.queue, ring := v.ring, entries := v.entries, vector := v.vector, poll := v.poll,
    holdoff := v.holdoff }

/-- The configuration in force as a tack set (R477); its number is given when it is saved. -/
def snapshot (label : Word) (slot : Nat) (s : State) : Tack :=
  { label := label, slot := slot, cfg := s.cfg, tamper := s.vault.tamper, rck := rckSettings s, caps := queueCaps s,
    engines := s.host.engines.map (fun e => (e.1, engineSettings e.2)) }

/-- The not-permitted checks of a change of tack sets that a split herd refuses too, in reason order (R390, R479). -/
def tackCheck (s : State) : Option Status := (minorityCheck s).or (lockCheck s)

def tackSaveSpec : CmdSpec :=
  { plainSpec 0x0C10 1 (fun _ => true) (fun c s =>
      runsOn (addOp { kind := .tackSave (pw c 0) false, cmd := some (c.queue.val, c.tag),
                      tack := some (snapshot (pw c 0) s.fw.running s) } s)) with
    perm := fun _ s => tackCheck s }

/-- TACK_SAVE (R478). -/
def execTackSave (c : Packet) (s : State) : Host.Outcome State Fault Refusal := runCommand tackSaveSpec c s

/-- A tack save is under way or waits. -/
def savePending (s : State) : Bool :=
  s.fw.ops.any (fun o => match o.kind with
    | .tackSave _ _ => true
    | _ => false)

/-- The active and the previous tack swap roles (R478). -/
def swapTacks (s : State) : State :=
  setFw s { s.fw with active := s.fw.prev, prev := s.fw.active, tackSlot := 1 - s.fw.tackSlot }

def tackRevertSpec : CmdSpec :=
  { plainSpec 0x0C11 1 (fun c => fits c 0 1) (fun c s =>
      let n := (s.fw.prev.map (·.number)).getD 0#32
      let s1 := swapTacks s
      if bit (pw c 0) 0 then
        let s2 := abortInFlight s1
        doneWith [n] { s2 with dev := { s2.dev with resetPending := some (after s2 10000000) } }
      else doneWith [n] s1) with
    perm := fun _ s => tackCheck s
    ready := fun _ s => s.fw.prev.isSome && s.fw.revertible && s.fw.act.isNone && !savePending s }

/-- TACK_REVERT (R478, R480): with NOW the device resets as R41 gives. -/
def execTackRevert (c : Packet) (s : State) : Host.Outcome State Fault Refusal := runCommand tackRevertSpec c s

/-- Number, label and firmware slot of a tack; free words where there is none (R484 gives no value). -/
def tackWords (t : Option Tack) (s : State) : List Word × State :=
  match t with
  | some v => ([v.number, v.label, w32 v.slot], s)
  | none =>
    let a := drawWord s
    let b := drawWord a.2
    let d := drawWord b.2
    ([a.1, b.1, d.1], d.2)

def tackStatusSpec : CmdSpec := plainSpec 0x0C12 0 (fun _ => true) (fun _ s =>
  let a := tackWords s.fw.active s
  let b := tackWords s.fw.prev a.2
  doneWith (a.1 ++ b.1 ++ [w32 (flag s.fw.revertible + 2 * flag s.fw.locked)]) b.2)

/-- TACK_STATUS (R484). -/
def execTackStatus (c : Packet) (s : State) : Host.Outcome State Fault Refusal := runCommand tackStatusSpec c s

def tackLockSpec : CmdSpec :=
  plainSpec 0x0C13 2 (fun c => pw c 0 = 1#32 || (pw c 0 = 0#32 && pw c 1 = 0x756E6C6B#32)) (fun c s =>
    done (setFw s { s.fw with locked := bit (pw c 0) 0 }))

/-- TACK_LOCK (R479). -/
def execTackLock (c : Packet) (s : State) : Host.Outcome State Fault Refusal := runCommand tackLockSpec c s

/-! ### Activation (R480, R481) -/

/-- The slot that FW_ACTIVATE brings into service: the one Bridle does not run on. -/
def otherSlot (s : State) : Nat := 1 - s.fw.running

/-- A tandem allows FW_ACTIVATE (R481). -/
def pairAllows (s : State) : Bool :=
  !s.tan.joined || (s.tan.step = 1 && decide ((fwSlot s (otherSlot s)).stepMin.toNat ≤ s.dev.fwVersion.toNat))

/-- Waiting commands complete with ST_RETRY_ACTIVATION_PAUSE (R480). -/
def retryWaiting (s : State) : State :=
  let l := s.cmd.waiting.filter (fun w => w.accepted)
  let l' := (l.filter (fun w => executesHere w.packet s)).map (fun w => (w.packet.queue.val, w.packet.tag))
  dropTaken (endForeign .retryActivationPause (completeAll l' .retryActivationPause s))

/-- Activation of this device begins (R480): t0 is now. -/
def beginActivation (q : Nat) (t : BitVec 16) (label : Word) (s : State) : State :=
  let s1 := retryWaiting s
  setFw s1 { s1.fw with act := some (q, t, label, now s1), actRan := false }

def fwActivateSpec : CmdSpec :=
  { plainSpec 0x0C05 1 (fun _ => true) (fun c s =>
      if !s.tan.joined then runsOn (beginActivation c.queue.val c.tag (pw c 0) s)
      else if nonHolder s then
        let s1 := beginActivation c.queue.val c.tag (pw c 0) s
        runsOn (setTan s1 { s1.tan with fwStage := 5 })
      else
        let s1 := setFw s { s.fw with pair := some (c.queue.val, c.tag, pw c 0, 0#32) }
        runsOn (setTan s1 { s1.tan with fwStage := 1, fwSince := none })) with
    perm := fun _ s => tackCheck s
    ready := fun _ s => (fwSlot s (otherSlot s)).state = 2 && s.fw.act.isNone && s.fw.pair.isNone && pairAllows s }

/-- FW_ACTIVATE (R480, R481): in a tandem the partner activates first. -/
def execFwActivate (c : Packet) (s : State) : Host.Outcome State Fault Refusal := runCommand fwActivateSpec c s

/-- A command other than the activating one still runs (R480). -/
def othersRun (s : State) (q : Nat) (t : BitVec 16) : Bool :=
  s.cmd.inFlight.any (fun e => e.phase = .running && !(e.queue = q && e.tag = t))

/-- ACTIVATION_PAUSE_END (R480, step 3): Bridle restarts on the new firmware, its semaphores abandoned (R63); in a tandem the member leaves the step for its
pause (R481). -/
def execActivationPauseEnd (s : State) : Host.Outcome State Fault Refusal :=
  .next (match s.fw.act with
    | some (q, t, _, _) =>
      if s.fw.actRan || s.dev.actPause || othersRun s q t then s
      else
        let s1 := abandonAll 0x80#8 { s with dev := { s.dev with actPause := true, cmdReady := false } }
        if s1.tan.joined then setTan s1 { s1.tan with step := 3 } else s1
    | none => s)

/-- ACTIVATION_TIMEOUT (R480, step 2). -/
def execActivationTimeout (s : State) : Host.Outcome State Fault Refusal :=
  .next (match s.fw.act with
    | some (q, t, _, t0) =>
      if s.fw.actRan || s.dev.actPause || !reached s (t0 + 2000000000#64) then s
      else complete q t .invalidState [] (setTan (setFw s { s.fw with act := none }) { s.tan with fwStage := 0 })
    | none => s)

/-- Service resumes after the restart. -/
def endPause (s : State) : State := setSound { s with dev := { s.dev with actPause := false, cmdReady := true } }

/-- The new firmware serves commands (R480, step 4), and its tack is saved (step 5). -/
def firmwareRuns (label : Word) (s : State) : State :=
  let k := otherSlot s
  let s1 := setFw s { s.fw with running := k, actRan := true }
  let s2 := endPause { s1 with dev := { s1.dev with fwVersion := (fwSlot s k).version } }
  let s3 := addOp { kind := .tackSave label true, tack := some (snapshot label k s2) } s2
  if nonHolder s3 then beginResync s3 else s3

/-- The new firmware fails its self-test: Bridle restarts on the former one (R63), which serves again, and the new slot is invalid
(R480). -/
def firmwareFails (q : Nat) (t : BitVec 16) (s : State) : State :=
  let k := otherSlot s
  let s1 := setFwSlot k { fwSlot s k with state := 3 } (endPause (abandonAll 0x80#8 s))
  let s2 := raise .activationFail (setTan (setFw s1 { s1.fw with act := none }) { s1.tan with fwStage := 0 })
  let s3 := complete q t .failedHardware [] s2
  if nonHolder s3 then beginResync s3 else s3

/-- The other member of the pair has failed in its activation (R481). -/
def partnerFails (s : State) : State :=
  match s.fw.pair with
  | some (q, t, _, _) =>
    let s1 := setTan (setFw s { s.fw with pair := none }) { s.tan with fwStage := 0 }
    complete q t .failedHardware [] (raise .activationFail s1)
  | none => s

/-- ACTIVATION_FIRMWARE_UP (R480, R481): on a member that waits for the other's activation it is the other's outcome. -/
def execActivationFirmwareUp (passed : Bool) (s : State) : Host.Outcome State Fault Refusal :=
  .next (match s.fw.act with
    | some (q, t, label, _) =>
      if !s.dev.actPause then s
      else if passed then firmwareRuns label s else firmwareFails q t s
    | none => if !passed && (s.tan.fwStage = 1 || s.tan.fwStage = 7) then partnerFails s else s)

/-- Activation is complete with its tack (R480, step 5): reply and event, the reply left to the member that holds the reins
at the end of a tandem's sequence (R481). -/
def activationDone (number : Word) (s : State) : State :=
  match s.fw.act with
  | some (q, t, _, _) =>
    let s1 := postEvent 0x0C04 0 number (setFw s { s.fw with act := none, actRan := false })
    if s1.tan.fwStage = 5 then
      setTan (setFw s1 { s1.fw with pair := some (q, t, s1.dev.fwVersion, number) }) { s1.tan with fwStage := 6 }
    else complete q t .ok [s1.dev.fwVersion, number] (setTan s1 { s1.tan with fwStage := 0 })
  | none => s

/-! ### FLASH_OPERATION_COMPLETE -/

/-- A saved tack becomes the active one and the former active one the previous (R478). -/
def tackSaved (o : FlashOp) (activate : Bool) (s : State) : State :=
  match o.tack with
  | some t =>
    let n := s.fw.nextTack
    let f := s.fw
    let s1 := setFw s { f with prev := f.active, revertible := f.active.isSome, active := some { t with number := n },
                               tackSlot := 1 - f.tackSlot, nextTack := n + 1 }
    if activate then activationDone n s1 else completeOp o .ok [n] s1
  | none => s

/-- The header's version and STEP_MIN brought into the slot (R471). -/
def headerTaken (b : List Byte) (v : FwSlot) : FwSlot :=
  { v with version := w32 (leNat (slice b 8 4)), stepMin := w32 (leNat (slice b 12 4)) }

/-- A block added to its slot: after the last one the payload hash judges it (R472). -/
def slotWith (v : FwSlot) (num : Nat) (b : List Byte) : FwSlot :=
  let w := if num = 0 then headerTaken b v else v
  let l := w.blocks ++ [b]
  { w with blocks := l, state := if l.length < w.count then 1 else if payloadOk l then 2 else 3 }

/-- A block programmed and verified: its slot holds one more; the chain passes it on, and a peer's block is acknowledged
(R474). An image complete in REMOUNT returns the device to SADDLE (R483). -/
def blockHeld (o : FlashOp) (k num : Nat) (b : List Byte) (s : State) : State :=
  let v := slotWith (fwSlot s k) num b
  let s1 := setFwSlot k v s
  let s2 := passBlock (match o.peer with
    | some h => ackBlocks h s1
    | none => s1)
  let s3 := if v.state = 3 then completeOp o .invalidCheckValue [] s2 else completeOp o .ok [w32 v.blocks.length] s2
  if v.state = 2 && s3.dev.mode = .remount then changeMode .saddle s3 else s3

/-- What an operation that has ended well leaves. -/
def opDone (o : FlashOp) (s : State) : State :=
  match o.kind with
  | .erase k n => completeOp o .ok [] (flashWrite (65536 * k - hostArea) (List.replicate (65536 * n) 0xFF#8) s)
  | .program a l => completeOp o .ok [] (flashWrite a l s)
  | .tackSave _ activate => tackSaved o activate s
  | .fwBegin k n chain =>
    let s1 := setFwSlot k { state := 1, count := n } s
    let passes := chain && !s1.fw.chain.isEmpty
    completeOp o .ok [w32 k] (setFw s1 { s1.fw with
      loading := some k, chainState := if passes then 1 else 0, chainAt := 0, chainTries := 0 })
  | .fwBlock k n b => if (fwSlot s k).state = 1 then blockHeld o k n b s else completeOp o .invalidState [] s

/-- Bytes of the host area that a failed operation leaves unknown: free values. -/
def scramble (addr n : Nat) (s : State) : State :=
  let l := (List.range n).map (fun i => (Config.freeWord (s.free + i)).setWidth 8)
  flashWrite addr l { s with free := s.free + n }

/-- What an operation that has failed leaves: ST_FAILED_FLASH (R468). -/
def opFailed (o : FlashOp) (s : State) : State :=
  match o.kind with
  | .erase k n => completeOp o .failedFlash [] (scramble (65536 * k - hostArea) (65536 * n) s)
  | .program a l => completeOp o .failedFlash [] (scramble a l.length s)
  | .tackSave _ activate =>
    match activate, s.fw.act with
    | true, some (q, t, _, _) => complete q t .failedFlash [] (setTan (setFw s { s.fw with act := none, actRan := false })
        { s.tan with fwStage := 0 })
    | _, _ => completeOp o .failedFlash [] s
  | .fwBegin _ _ _ => completeOp o .failedFlash [] s
  | .fwBlock k _ _ => completeOp o .failedFlash [] (endLoad k s)

/-- FLASH_OPERATION_COMPLETE (R468, R469, R473, R478): the operation under way ends, its erases are journaled, reads that
waited are served and the next operation starts. -/
def execFlashOperationComplete (ok : Bool) (s : State) : Host.Outcome State Fault Refusal :=
  .next (match s.fw.ops with
    | o :: r =>
      if !o.begun then s
      else
        let s1 := match eraseSpan s o.kind with
          | some (k, n) => if ok then journalErased k n s else s
          | none => s
        let s2 := setFw s1 { s1.fw with ops := r }
        let s3 := serveReads (if ok then opDone o s2 else opFailed o s2)
        startHead s3.fw.ops.length s3
    | [] => s)

/-- FLASH_SECTOR_REERASE (R470): after SADDLE step 12 a marked sector is erased; it then reads as 0xFF. -/
def execFlashSectorReerase (sector : Nat) (s : State) : Host.Outcome State Fault Refusal :=
  .next (if s.dev.dataReady && s.fw.reerase.contains sector then
    let s1 := journal 3 sector (journal 0 sector (setFw s { s.fw with reerase := s.fw.reerase.filter (· != sector) }))
    if hostArea ≤ 65536 * sector then flashWrite (65536 * sector - hostArea) (List.replicate 65536 0xFF#8) s1 else s1
  else s)

end Sys2Proof.Machine
end

