-- ==== Sys2Proof/Machine/Modes.lean ====
section
/-! DEFINITION. Operating modes and power domains (R447-R459, R464, R465): GRAZE, STALL, votes, gating and ungating. -/

namespace Sys2Proof.Machine

/-! ### Power domains (R450-R452) -/

/-- Power domain d. -/
def pdom (s : State) (d : Nat) : Domain := tabGet s.pwr.domains d {}

/-- The state with domain d replaced. -/
def setPdom (d : Nat) (v : Domain) (s : State) : State := { s with pwr := { s.pwr with domains := tabSet s.pwr.domains d v } }

/-- The state with the power unit replaced. -/
def setPwr (s : State) (v : Pwr) : State := { s with pwr := v }

/-- A power counter raised (R464, R149). -/
def countPwr (i : Nat) (s : State) : State :=
  setPwr s { s.pwr with counters := listMod s.pwr.counters i (fun k => saturate 32 (k + 1)) }

/-- A paddock that a withdrawal drains (R450). -/
def paddockDrains (s : State) (d : Nat) : Bool := s.rx.drains.any (fun w => bit w.paddocks d)

/-- The next `ns` nanoseconds hold a live cell of plain p that has a candidate. -/
def cellWithin (ns : Nat) (s : State) (p : Nat) : Bool :=
  let a := asnAt s (now s)
  let n := (asnAt s (after s ns) + 2 - a) % 2 ^ 40
  (List.range (min n 16)).any (fun i =>
    let t0 := nominal s (a + i)
    notBefore t0 (now s) && notBefore (after s ns) t0 && cellHasCandidate s p (a + i))

/-- The transmit chain is wanted: from t0 - 3.0 ms of a transmission that has a candidate until its RETURN ends (R450). -/
def chainWanted (s : State) : Bool :=
  s.radio.txs.any (fun x => reached s (before x.t0 3000000)) || (List.range 4).any (cellWithin 3000000 s)

/-- The owner vote of domain d (R450). -/
def ownerVote (s : State) (d : Nat) : Bool :=
  if d < 32 then bit (paddocksIn s) d || paddockDrains s d
  else if d < 36 then (plainCfg s (d - 32)).enabled
  else if d = 36 then !s.cut.jobs.isEmpty
  else if d = 37 then chainWanted s
  else if d = 38 then (List.range 16).any (fun n => (netCfg s n).configured)
  else if d = 39 then !s.cfg.fwd.prefixes.isEmpty
  else if d < 42 then (bhCfg s (d - 40)).enable
  else if d < 46 then (tabGet s.cfg.herd.links (d - 42) {}).enable
  else s.host.perstN

/-- Some bit of the vote of domain d is set. -/
def voted (s : State) (d : Nat) : Bool := (pdom s d).host != 0#8 || (pdom s d).sense || ownerVote s d

/-- PD_VOTE as it reads (R451). -/
def voteWord (s : State) (d : Nat) : Word :=
  w32 ((pdom s d).host.toNat + 256 * flag (ownerVote s d) + 512 * flag (pdom s d).sense)

/-- PD_STATE as it reads (R451). -/
def domainWord (s : State) (d : Nat) : Word := w32 ((pdom s d).state + 4 * flag (pdom s d).fault)

/-- The idle timer of domain d: it starts as the last vote goes, and a vote that returns cancels it (R451). -/
def noteVote (d : Nat) (s : State) : State :=
  let v := pdom s d
  let since := if v.state = 2 && !voted s d then some (v.idle.getD (now s)) else none
  if since = v.idle then s else setPdom d { v with idle := since } s

/-- The idle timers of every domain brought up to date (R451). -/
def noteVotes (s : State) : State := (List.range 47).foldl (fun t d => noteVote d t) s

/-- A domain that is on is to gate (R451): no vote stands, and under POLICY 1 none has for IDLE_MS. -/
def gateDue (s : State) (d : Nat) : Bool :=
  let v := pdom s d
  v.state = 2 && !voted s d && (!bit v.policy 0 || match v.idle with
    | some t => reached s (t + BitVec.ofNat 64 (1000000 * bits v.policy 16 1))
    | none => false)

/-- PD_POLICY as a write leaves it (R451): IDLE_MS kept within 1-60,000, reserved bits as they were. -/
def policyWrite (old v : Word) : Word :=
  let ms := min 60000 (max 1 (bits v 16 1))
  (old &&& 0xFFFE0000#32) ||| w32 (bits v 0 0 + 2 * ms)

/-- HOST of PD_VOTE set, its one field that can be written (R451). -/
def setVote (d : Nat) (v : Word) (s : State) : State := setPdom d { pdom s d with host := v.setWidth 8 } s

/-- PD_POLICY set (R451). -/
def setPolicy (d : Nat) (v : Word) (s : State) : State := setPdom d { pdom s d with policy := policyWrite (pdom s d).policy v } s

/-- PD_VOTE written by the host; a member without the reins ignores it (R451). -/
def writeVote (d : Nat) (v : Word) (s : State) : State := if nonHolder s then s else setVote d v (mirrorOut (.vote (Fin.ofNat 47 d) false v) s)

/-- PD_POLICY written by the host; a member without the reins ignores it (R451). -/
def writePolicy (d : Nat) (v : Word) (s : State) : State := if nonHolder s then s else setPolicy d v (mirrorOut (.vote (Fin.ofNat 47 d) true v) s)

/-- PD_VOTE_WRITE (R451). -/
def execPdVoteWrite (d : Fin 47) (v : Word) (s : State) : Host.Outcome State Fault Refusal := .next (writeVote d.val v s)

/-- A gate or an ungate has failed (R452): 0 gate, 1 ungate. -/
def domainFailed (d detail : Nat) (s : State) : State :=
  let s1 := countPwr 4 (setPdom d { pdom s d with fault := true } s)
  postEvent 0x0103 (d + 1) (w32 detail) (raise .domainFault s1)

/-- DOMAIN_IDLE_GATE (R451, R452): a domain whose drop policy gates it is gated, or stays on and is marked. -/
def execDomainIdleGate (d : Fin 47) (ok : Bool) (s : State) : Host.Outcome State Fault Refusal :=
  .next (if !gateDue s d.val then s
    else if ok then setPdom d.val { pdom s d.val with state := 0, fault := false } s
    else domainFailed d.val 0 s)

/-- DOMAIN_UNGATE (R450, R452): a gated domain with a vote comes on within its three tries, or is marked. -/
def execDomainUngate (d : Fin 47) (failures : Nat) (s : State) : Host.Outcome State Fault Refusal :=
  .next (if (pdom s d.val).state != 0 || !voted s d.val then s
    else if failures < 3 then setPdom d.val { pdom s d.val with state := 2, fault := false } s
    else domainFailed d.val 1 s)

/-- The domains of a list gated or on, without a failure. -/
def setDomains (l : List Nat) (on : Bool) (s : State) : State :=
  l.foldl (fun t d => setPdom d { pdom t d with state := if on then 2 else 0, fault := false } t) s

/-- Every domain with a vote on: those that start-up or a wake restores. -/
def restoreDomains (s : State) : State := setDomains ((List.range 47).filter (voted s)) true s

/-- The domains on, as a mask (R464). -/
def domainsOn (s : State) : BitVec 47 := maskOf 47 ((List.range 47).filter (fun d => (pdom s d).state = 2))

/-! ### Mode changes (R448, R449) -/

/-- Queue number under which the drain of an entry by GRAZE_AUTO stands: no command queue. -/
def autoQueue : Nat := 16

/-- The drain of the transition that runs. -/
def entryDrain (s : State) : Option Withdrawal :=
  match s.pwr.trans with
  | some t => withdrawalOf s t.queue t.tag
  | none => none

/-- Step 1 and 2 of an entry (R452): no new work enters, and tracks drain or, with FORCE, end (R453). -/
def beginEntry (target : Mode) (q : Nat) (tag : BitVec 16) (force : Bool) (s : State) : State :=
  let l := trackNums s inProgress
  let w : Withdrawal := { queue := q, tag := tag, kind := .mode target, tracks := l, deadline := after s 4000000000,
                          aborted := if force then l.length else 0 }
  let marked := s.rx.tracks.map (fun t => if inProgress t then markTrack 8 t else t)
  let s1 := { s with rx := { s.rx with tracks := marked, drains := s.rx.drains ++ [w] } }
  let s2 := setPwr s1 { s1.pwr with trans := some { target := target, queue := q, tag := tag, auto := decide (q = autoQueue) } }
  if force then abortTracks l s2 else s2

/-- A transition abandoned (R452): work continues as if entry had not begun; its command ends with the status given. -/
def abandonEntry (st : Status) (s : State) : State :=
  match s.pwr.trans with
  | some t =>
    let s1 := match withdrawalOf s t.queue t.tag with
      | some w => abortWithdrawal w s
      | none => s
    complete t.queue t.tag st [] (countPwr 3 (setPwr s1 { s1.pwr with trans := none }))
  | none => s

/-- What GRAZE gates: every paddock, the cutting engine and the transmit chain (R453). -/
def grazeGates : List Nat := List.range 32 ++ [36, 37]

/-- GRAZE in force (R448, R453). -/
def enterGraze (s : State) : State :=
  let s1 := setPwr s { s.pwr with before := s.dev.mode, senseCycles := 0, sensing := 0#4, lastSense := [] }
  changeMode .graze (setDomains grazeGates false s1)

/-- Links, lanes and backhaul ports down as their domains gate (R458). -/
def gateLinks (s : State) : State :=
  let s1 := (List.range 4).foldl (fun t p => lanesDown p t) s
  let s2 := (linksUp s1).foldl (fun t l => dropLink l t) s1
  { s2 with bh := s2.bh.map (fun e => (e.1, { e.2 with up := false })) }

/-- STALL in force (R458): every buffered write drained, TICK stopped, every domain but PCIe gated. -/
def enterStall (s : State) : State :=
  let s1 := writeBackAll (gateLinks s)
  let s2 := setPwr s1 { s1.pwr with beforeStall := s.dev.mode, stallAt := s.time.sleepCount, sensing := 0#4 }
  let s3 := { s2 with time := { s2.time with stopped := true }, dev := { s2.dev with dataReady := false, cmdReady := false } }
  changeMode .stall (setDomains (List.range 46) false s3)

/-- The drain of an entry taken off the list. -/
def dropDrain (t : Transition) (s : State) : State :=
  { s with rx := { s.rx with drains := s.rx.drains.filter (fun w => !(w.queue = t.queue && w.tag = t.tag)) } }

/-- An entry whose drain is over is completed: save, isolate, gate (R452); its command is answered with the tracks aborted. -/
def finishEntry (t : Transition) (aborted : Nat) (s : State) : State :=
  let s1 := dropDrain t (setPwr s { s.pwr with trans := none, woken := s.pwr.woken && t.auto })
  let s2 := complete t.queue t.tag .ok [w32 aborted] s1
  if t.target = .stall then enterStall s2 else enterGraze s2

/-- MODE_ENTRY_DRAIN_COMPLETE (R452): tracks have drained and no transmission is active. -/
def execModeEntryDrainComplete (s : State) : Host.Outcome State Fault Refusal :=
  .next (match s.pwr.trans, entryDrain s with
    | some t, some w => if w.tracks.isEmpty && !s.radio.txs.any txActive then finishEntry t w.aborted s else s
    | _, _ => s)

/-! ### GRAZE (R453-R457) -/

/-- Sense set of plain p: beam, grid and SF masks. -/
def senseSet (s : State) (p : Nat) : BitVec 64 × BitVec 4 × BitVec 8 := tabGet s.cfg.pwr.sense p (0#64, 0#4, 0#8)

/-- Load of a sense set (R454). -/
def senseLoad (v : BitVec 64 × BitVec 4 × BitVec 8) : Nat := loadUnits v.1 v.2.1 v.2.2

/-- The plain is enabled and has a sense set. -/
def senses (s : State) (p : Nat) : Bool := (plainCfg s p).enabled && senseLoad (senseSet s p) != 0

/-- The sense window W_s of a sense set in nanoseconds: twice its largest symbol (R454). -/
def senseWindow (v : BitVec 64 × BitVec 4 × BitVec 8) : Nat :=
  2 * (maskList v.2.1).foldl (fun m g => (maskList v.2.2).foldl (fun k i => max k (symbolNs (5 + i) g)) m) 0

/-- W_s + 0.5 ms lies below WAKE_PERIOD (R454). -/
def windowFits (v : BitVec 64 × BitVec 4 × BitVec 8) (period : Nat) : Bool := senseWindow v + 500000 < 1000000 * period

/-- Plain p runs its sense cycle. -/
def sensing (s : State) (p : Nat) : Bool := bit s.pwr.sensing p

/-- The SENSE vote of paddock p and of the front end of plain p (R455). -/
def voteSense (p : Nat) (v : Bool) (s : State) : State :=
  let s1 := setPdom p { pdom s p with sense := v, state := if v then 2 else 0 } s
  let s2 := setPdom (p + 32) { pdom s1 (p + 32) with sense := v } s1
  setPwr s2 { s2.pwr with sensing := setBit s2.pwr.sensing p v }

/-- Every SENSE vote withdrawn. -/
def clearSense (s : State) : State := (List.range 4).foldl (fun t p => if sensing t p then voteSense p false t else t) s

/-- A wake from GRAZE (R455): every domain gated on entry is restored and the running mode is back. -/
def wakeGraze (source cause : Nat) (s : State) : State :=
  let s1 := clearSense s
  let s2 := setPwr s1 { s1.pwr with lastWake := some cause, woken := true, lastAct := now s1 }
  changeMode (runningMode s2) (restoreDomains (postEvent 0x0102 source (w32 cause) s2))

/-- GRAZE_SENSE_CYCLE (R455, step 1). -/
def execGrazeSenseCycle (p : Fin 4) (s : State) : Host.Outcome State Fault Refusal :=
  let due := match tabFind s.pwr.lastSense p.val with
    | some t => reached s (t + BitVec.ofNat 64 (1000000 * s.cfg.pwr.wakePeriod))
    | none => true
  .next (if s.dev.mode = .graze && senses s p.val && !sensing s p.val && due then
    let s1 := countPwr 0 (voteSense p.val true s)
    setPwr s1 { s1.pwr with senseCycles := s1.pwr.senseCycles + 1, lastSense := tabSet s1.pwr.lastSense p.val (now s) }
  else s)

/-- GRAZE_SENSE_DECISION (R455, step 3): how far the highest window peak stands above its mean, in 0.1 dB. -/
def execGrazeSenseDecision (p : Fin 4) (peak : Nat) (s : State) : Host.Outcome State Fault Refusal :=
  .next (if s.dev.mode = .graze && sensing s p.val then
    (if s.cfg.pwr.senseThresh ≤ peak then wakeGraze p.val 0 (countPwr 1 s) else voteSense p.val false s)
  else s)

/-- The next 10 ms hold a live cell of plain p that has a candidate (R455). -/
def cellComes (s : State) (p : Nat) : Bool := cellWithin 10000000 s p

/-- GRAZE_SCHEDULED_WAKE (R455, R452): it ends GRAZE, or abandons an entry under way. -/
def execGrazeScheduledWake (p : Fin 4) (s : State) : Host.Outcome State Fault Refusal :=
  let entering := match s.pwr.trans with
    | some t => decide (t.target = Mode.graze)
    | none => false
  .next (if !cellComes s p.val then s
    else if entering then abandonEntry .retryModeTransition s
    else if s.dev.mode = .graze then wakeGraze p.val 1 (countPwr 2 s) else s)

/-- Entry to GRAZE is allowed: a plain has a sense set and no withdrawal drains (R453). -/
def grazeAllowed (s : State) : Bool := (List.range 4).any (senses s) && !drainsAny s

/-- The device runs in GALLOP or TROT. -/
def running (s : State) : Bool := s.dev.mode = .gallop || s.dev.mode = .trot

/-- GRAZE_AUTO_ENTRY (R457). -/
def execGrazeAutoEntry (s : State) : Host.Outcome State Fault Refusal :=
  let idleNs := 1000000000 * s.cfg.pwr.grazeIdle
  .next (if running s && s.cfg.pwr.grazeAuto && s.pwr.woken && s.pwr.trans.isNone && grazeAllowed s
      && !s.rx.tracks.any inProgress && s.radio.txs.isEmpty && reached s (s.pwr.lastAct + BitVec.ofNat 64 idleNs) then enterGraze s
  else s)

/-! ### Commands (R464) -/

/-- The mode that MODE_SET asks for. -/
def modeAsked (c : Packet) : Mode := if pn c 0 = 3 then .graze else .stall

def modeSetSpec : CmdSpec :=
  { plainSpec 0x0100 2 (fun c => (pn c 0 = 0 || pn c 0 = 3 || pn c 0 = 4) && fits c 1 1) (fun c s =>
      if pn c 0 = 0 then doneWith [0#32] (wakeGraze 0xFFFF 2 s)
      else runsOn (beginEntry (modeAsked c) c.queue.val c.tag (bit (pw c 1) 0) s)) with
    ready := fun c s =>
      if pn c 0 = 0 then s.dev.mode = .graze
      else if pn c 0 = 3 then running s && grazeAllowed s
      else (running s || s.dev.mode = .graze) && !s.tan.joined && !drainsAny s }

/-- MODE_SET (R448, R449, R453, R458). -/
def execModeSet (c : Packet) (s : State) : Host.Outcome State Fault Refusal := runCommand modeSetSpec c s

/-- The last wake cause; a free word before the first wake. -/
def wakeWord (s : State) : Word × State :=
  match s.pwr.lastWake with
  | some k => (w32 k, s)
  | none => drawWord s

def modeStatusSpec : CmdSpec := plainSpec 0x0101 0 (fun _ => true) (fun _ s =>
  let w := wakeWord s
  doneWith [w32 (modeCode s.dev.mode), w32 (flag s.pwr.trans.isSome), w.1, w32 s.pwr.senseCycles] w.2)

/-- MODE_STATUS (R464). -/
def execModeStatus (c : Packet) (s : State) : Host.Outcome State Fault Refusal := runCommand modeStatusSpec c s

def grazeSetSpec : CmdSpec :=
  { plainSpec 0x0102 4 (fun _ => true) (fun c s =>
      done { s with cfg := { s.cfg with pwr := { s.cfg.pwr with
        wakePeriod := pn c 0, senseThresh := pn c 1, grazeAuto := bit (pw c 2) 0, grazeIdle := pn c 3 } } }) with
    valid := fun c => within c 0 8 1024 && within c 1 40 200 && fits c 2 1 && within c 3 1 3600
    here := fun c s => (List.range 4).all (fun p => windowFits (senseSet s p) (pn c 0)) }

/-- GRAZE_SET (R454, R455, R457). -/
def execGrazeSet (c : Packet) (s : State) : Host.Outcome State Fault Refusal := runCommand grazeSetSpec c s

/-- The sense set that GRAZE_SENSE_SET gives. -/
def senseOf (c : Packet) : BitVec 64 × BitVec 4 × BitVec 8 :=
  (wide (pw c 1) (pw c 2), (pw c 3).setWidth 4, (pw c 3 >>> 8).setWidth 8)

def grazeSenseSetSpec : CmdSpec :=
  { plainSpec 0x0103 4 (fun _ => true) (fun c s =>
      doneWith [w32 (senseLoad (senseOf c))]
        { s with cfg := { s.cfg with pwr := { s.cfg.pwr with sense := tabSet s.cfg.pwr.sense (pn c 0) (senseOf c) } } }) with
    valid := fun c => within c 0 0 3 && only c 3 0xFF0F && senseLoad (senseOf c) ≤ 1088
    here := fun c s => windowFits (senseOf c) s.cfg.pwr.wakePeriod }

/-- GRAZE_SENSE_SET (R454). -/
def execGrazeSenseSet (c : Packet) (s : State) : Host.Outcome State Fault Refusal :=
  runCommand grazeSenseSetSpec c s

def stallSetSpec : CmdSpec := plainSpec 0x0104 1 (fun c => within c 0 0 86400) (fun c s =>
  done { s with cfg := { s.cfg with pwr := { s.cfg.pwr with stallWake := pn c 0 } } })

/-- STALL_SET (R459). -/
def execStallSet (c : Packet) (s : State) : Host.Outcome State Fault Refusal := runCommand stallSetSpec c s

def powerStatusSpec : CmdSpec := plainSpec 0x0105 0 (fun _ => true) (fun _ s =>
  let vin := drawWord s
  let power := drawWord vin.2
  let temp := drawWord power.2
  let rails := drawWord temp.2
  let on := domainsOn s
  doneWith [vin.1, power.1, temp.1, rails.1, on.setWidth 32, (on >>> 32).setWidth 32] rails.2)

/-- POWER_STATUS (R464): the four measurements are free values. -/
def execPowerStatus (c : Packet) (s : State) : Host.Outcome State Fault Refusal := runCommand powerStatusSpec c s

def powerCountersReadSpec : CmdSpec := plainSpec 0x0106 1 (fun c => fits c 0 1) (fun c s =>
  let l := (s.pwr.counters ++ [s.vault.pfStarts]).map w32
  doneWith l (if bit (pw c 0) 0 then setPwr s { s.pwr with counters := List.replicate 5 0 } else s))

/-- POWER_COUNTERS_READ (R464): power-fail starts count since the VBAT domain was set up. -/
def execPowerCountersRead (c : Packet) (s : State) : Host.Outcome State Fault Refusal :=
  runCommand powerCountersReadSpec c s

end Sys2Proof.Machine
end

