-- ==== Sys2Proof/Machine/Faults.lean ====
section
/-! DEFINITION. Clocks, supply warnings, DRAM errors and JTAG (R19, R23, R65, R442, R443, R497). -/

namespace Sys2Proof.Machine

/-! ### Clock loss (R19) -/

/-- A transmission on air ended by the fast ramp-down for a loss of clock or power: neither counted nor posted by R227. The
spec gives such an end no status; ST_FAILED_HARDWARE on clock loss is the model's (DESIGN CHOICE, log 77). -/
def fastEnd (x : Tx) (st : Status) (s : State) : State :=
  outcome x st 2 0 (shortfall x 0 none (rampDown x st s))

/-- Every transmission on air ended by the fast ramp-down. -/
def endAllOnAir (st : Status) (s : State) : State :=
  (s.radio.txs.filter (fun x => x.state = .onAir)).foldl (fun t x => fastEnd x st t) s

/-- RCK0-RCK3 gated low (R19). -/
def gateRcks (s : State) : State :=
  (List.range 4).foldl (fun t r => setRck t r { rck t r with low := true, locked := false }) s

/-- CLK_LOSS (R19): RCKs gated, transmissions and tracks ended, no samples accepted. -/
def execClkLoss (s : State) : Host.Outcome State Fault Refusal :=
  .next (if s.dev.clkLost then s
    else
      let s1 := endAllOnAir .failedHardware (gateRcks s)
      raise .clkLoss (clockLossTracks { s1 with dev := { s1.dev with clkLost := true } }))

/-- DATAPATH_RESTART (R19): the root PLL has held lock for 10 ms; the rings take samples again. -/
def execDatapathRestart (s : State) : Host.Outcome State Fault Refusal :=
  .next ((List.range 4).foldl (fun t p => startRing p t) { s with dev := { s.dev with clkLost := false } })

/-! ### Warnings (R65) -/

/-- SERDES_UNLOCK. -/
def execSerdesUnlock (s : State) : Host.Outcome State Fault Refusal := .next (raise .serdesUnlock s)

/-- DRAM_PLL_UNLOCK. -/
def execDramPllUnlock (s : State) : Host.Outcome State Fault Refusal := .next (raise .dramPllUnlock s)

/-- VIN_SURGE (R442). -/
def execVinSurge (s : State) : Host.Outcome State Fault Refusal := .next (raise .vinSurge s)

/-- RAIL_FAULT (R443, R465). -/
def execRailFault (rails : Word) (s : State) : Host.Outcome State Fault Refusal :=
  .next (postEvent 0x0103 0 rails (raise .railFault s))

/-- THERMAL_WARN (R65, R501). -/
def execThermalWarn (s : State) : Host.Outcome State Fault Refusal := .next (raise .thermalWarn s)

/-- VBAT_LOW (R65). -/
def execVbatLow (s : State) : Host.Outcome State Fault Refusal := .next (raise .vbatLow s)

/-- SRAM_PARITY (R65). -/
def execSramParity (s : State) : Host.Outcome State Fault Refusal := .next (raise .sramParity s)

/-! ### DRAM errors (R23) -/

/-- DRAM_SCRUB (R23, R65): corrected errors counted over 24 h. -/
def execDramScrub (corrected : Nat) (dayEnds : Bool) (s : State) : Host.Outcome State Fault Refusal :=
  let n := s.dev.dramCe + corrected
  let s1 := { s with dev := { s.dev with dramCe := if dayEnds then 0 else n } }
  .next (if 1000 < n && corrected != 0 then raise .dramCe s1 else s1)

/-- The plain whose ring holds an address of the sample store (R152). -/
def ringOf (s : State) (a : Nat) : Option Nat :=
  (List.range 4).find? (fun p => (cutPlain s p).ringBase ≤ a && a < (cutPlain s p).ringBase + (cutPlain s p).ringSize)

/-- A span of the sample store marked ECC_UE: its samples read as zero, and jobs over it are refused (R23, R154). -/
def markUe (x : UeIn) (s : State) : State :=
  match ringOf s x.addr.toNat with
  | some p => addMark p { kind := 3, ports := (plainCfg s p).ports, start := x.start, stop := some x.stop } s
  | none => s

/-- The words of a queue cut into packets; the last one may be open. -/
def packetsOf (l : List QWord) : List (List QWord) :=
  l.foldr (fun w r => if w.last then [w] :: r else match r with
    | [] => [[w]]
    | k :: t => (w :: k) :: t) []

/-- Which packet of a list holds word `n`, counting words from 0: its place in the list. -/
def packetAt : List (List QWord) → Nat → Nat
  | [], _ => 0
  | k :: t, n => if n < k.length then 0 else packetAt t (n - k.length) + 1

/-- The packet that holds the first word spilled, behind the 64 words of the head, dropped and counted (R23, R43). -/
def dropSpilled (v : Queue) : Queue :=
  if v.words.length ≤ 128 then v
  else
    let ks := packetsOf v.words
    let i := packetAt ks 64
    let gone : List QWord := (ks[i]?).getD []
    let rest : List QWord := (ks.eraseIdx i).foldl (fun a k => a ++ k) []
    let v1 : Queue := countDrop { v with words := rest, begun := v.begun && decide (i ≠ 0) }
    if gone.any (fun w => w.last) then v1 else { v1 with discard := true }

/-- A node-table record that cannot be read is invalidated: its node is unknown until it is learnt again (R23). -/
def loseNode (i : Nat) (s : State) : State :=
  match tabFind s.fwd.nodes i with
  | some r => deleteNode i r s
  | none => s

/-- A record of the stash's save area lost: the stash on die stands and is saved anew, unless the copy is all there is, before
it is restored (R23, R300). -/
def loseSaved (i : Nat) (s : State) : State :=
  let s1 := { s with fwd := markDirty i { s.fwd with dram := tabDel s.fwd.dram i } }
  if s.dev.mode = .saddle || s.dev.mode = .stall then loseNode i s1 else s1

/-- One combining report lost: which one the buffer held is a free fact, since R180 gives buffers no places (R23). -/
def loseReport (s : State) : State :=
  let n := (s.comb.sets.map (fun v => v.reports.length)).sum
  let k := (Config.freeWord s.free).toNat % (n + 1)
  let r := s.comb.sets.foldl (fun (a : Nat × List CombSet) v =>
    (a.1 + v.reports.length, a.2 ++ [if a.1 ≤ k && k < a.1 + v.reports.length then
      { v with reports := v.reports.eraseIdx (k - a.1) } else v])) (0, [])
  { s with comb := { s.comb with sets := r.2 }, free := s.free + 1 }

/-- The log entry at a ring position reads as zero (R23). -/
def loseLogEntry (pos : Nat) (s : State) : State :=
  let n := s.trb.log.length
  let back := (s.trb.logPos + logSize - 1 - pos) % logSize
  if back < n then { s with trb := { s.trb with log := listMod s.trb.log (n - 1 - back) (fun e => { e with lost := true }) } } else s

/-- An unreadable trouble-log state: the next entry takes one more than the highest number readable, or 0 (R23). -/
def loseLogState (s : State) : State :=
  let l := s.trb.log.filter (fun e => !e.lost)
  let top := match l with
    | [] => 0#32
    | e :: r => (r.foldl (fun m x => if 0 ≤ (x.seq - m).toInt then x.seq else m) e.seq) + 1
  { s with trb := { s.trb with logNext := top } }

/-- A ledger bucket that cannot be read is taken as its sub-band's whole budget (R23, R278). -/
def loseBucket (k slot : Nat) (s : State) : State :=
  let age := (s.air.second % 86400 + 86400 - slot % 86400) % 86400
  modBucket k (s.air.second - age) (fun _ => budgetOf (bandCfg s k)) s

/-- The device logs and ledger region (R22, R23). -/
def ueLogs (o : Nat) (s : State) : State :=
  if o < 0x1000000 then loseLogEntry (o / 16) s
  else if o < 0x3000000 then
    let b := (o - 0x1000000) / 4
    if b < 64 * 86400 then loseBucket (b / 86400) (b % 86400) s else s
  else if o < 0x3004000 then loseSaved (nodeLimit + (o - 0x3000000) / 256) s
  else if o < 0x3004400 then loseLogState s
  else s

/-- An uncorrectable read handled by region (R20, R23). -/
def ueRegion (x : UeIn) (s : State) : State :=
  let a := x.addr.toNat
  if a < 0x600000000 then markUe x s
  else if a < 0x700000000 then setQue s x.queue.val (dropSpilled (que s x.queue.val))
  else if a < 0x710000000 then loseNode ((a - 0x700000000) / 256) s
  else if a < 0x718000000 then
    let i := (a - 0x710000000) / 128
    { s with dev := { s.dev with idxRebuild := if s.dev.idxRebuild.contains i then s.dev.idxRebuild else s.dev.idxRebuild ++ [i] } }
  else if a < 0x738000000 then loseReport s
  else if a < 0x7F8000000 then
    { s with mem := { s.mem with bad := if s.mem.bad.contains (a / 8) then s.mem.bad else a / 8 :: s.mem.bad } }
  else ueLogs (a - 0x7F8000000) s

/-- DRAM_UE (R23). -/
def execDramUe (x : UeIn) (s : State) : Host.Outcome State Fault Refusal := .next (ueRegion x (raise .dramUe s))

/-! ### JTAG (R497) -/

/-- Instructions accepted only while RESET_N is low. -/
def resetOnly : JtagIr → Bool
  | .extest => true
  | .clamp => true
  | .acExtest => true
  | .bypass => false
  | .idcode => false
  | .samplePreload => false

/-- JTAG_INSTRUCTION (R497). -/
def execJtagInstruction (ir : JtagIr) (s : State) : Host.Outcome State Fault Refusal :=
  .next { s with dev := { s.dev with jtagIr := if resetOnly ir && !s.dev.resetLow then .bypass else ir } }

end Sys2Proof.Machine
end

