-- ==== Sys2Proof/Machine/Startup.lean ====
section
/-! DEFINITION. What a reset keeps, power-fail handling, and the start-up sequence SADDLE with REMOUNT (R337, R420-R422,
R437, R444-R446, R460-R462, R470, R478, R482, R483, R500, R517). -/

namespace Sys2Proof.Machine

/-! ### What a reset keeps (R446) -/

/-- The ledger over a device reset: buckets and cold states stay, renumbered to the second in which ST starts again. -/
def keptAir (s : State) : Air :=
  let old := s.air.second
  { bands := s.air.bands.map (fun e => (e.1, { relabel old 86400 e.2 with refusals := 0, pending := none })), lost := s.air.lost }

/-- The vault over a reset: the VBAT domain stays, the keys rebuilt from the root go (R431, R437). -/
def keptVault (s : State) : Vault :=
  { s.vault with unlocked := false, rootOk := false, brand := false, attempts := 0, reports := 0 }

/-- The firmware unit over a reset: what lies in flash stays. -/
def keptFw (s : State) : Fw :=
  { s.fw with chain := [], chainState := 0, chainAt := 0, chainTries := 0, chainBreak := none, resume := none,
              locked := false, ops := [], reads := [], act := none, actRan := false, pair := none }

/-- The trouble log over a device reset (R67). -/
def keptTrouble (s : State) : Trouble := { log := s.trb.log, logNext := s.trb.logNext, logPos := s.trb.logPos }

/-- The device's own facts over a reset: the serial number, straps, inputs and the JTAG instruction. -/
def keptDev (vinLost : Bool) (s : State) : Dev :=
  { hid := s.dev.hidStrap, hidStrap := s.dev.hidStrap, serial := s.dev.serial, refin := s.dev.refin, vin := s.dev.vin,
    jtagIr := s.dev.jtagIr, idxRebuild := if vinLost then [] else s.dev.idxRebuild }

/-- The forwarding unit over a device reset: DRAM's node table and stash, as last written back (R300, R303, R446). -/
def keptFwd (s : State) : Fwd := { nodes := s.fwd.dram, dram := s.fwd.dram }

/-- The device reset: everything at its reset value but what R446 keeps, and the record of what has left the device. -/
def resetState (vinLost : Bool) (s : State) : State :=
  let mem : Mem := if vinLost then { flash := s.mem.flash } else s.mem
  { dev := keptDev vinLost s, trb := if vinLost then {} else keptTrouble s, mem := mem, air := if vinLost then {} else keptAir s,
    fwd := if vinLost then {} else keptFwd s, vault := keptVault s, fw := keptFw s,
    radio := { grants := s.radio.grants, blank := s.radio.blank },
    time := { sleepCount := if vinLost then 0#32 else s.time.sleepCount, sleepPhase := if vinLost then 0 else s.time.sleepPhase },
    host := { perstN := s.host.perstN, speed := s.host.speed, width := s.host.width },
    out := s.out, free := s.free, pending := s.pending }

/-! ### Flash operations cut short (R444, R469, R470) -/

/-- The journal of an erase of n sectors from sector k of which m have ended. -/
def journalUpTo (k n m : Nat) (s : State) : State :=
  if n ≤ m then journalErased k n s else (List.range m).foldl (fun t i => journal 0 (k + i + 1) (journal 3 (k + i) t)) s

/-- A page program cut short in page j of a range: earlier pages are written; page j completes, or holds unknown bytes. -/
def cutProgram (addr : Nat) (l : List Byte) (j : Nat) (completes : Bool) (s : State) : State :=
  let start := min l.length (256 * j - addr % 256)
  let stop := min l.length (256 * (j + 1) - addr % 256)
  if completes then flashWrite addr (l.take stop) s
  else scramble (addr + start) (stop - start) (flashWrite addr (l.take start) s)

/-- The operation under way as a reset or power-fail handling meets it: m sectors of an erase have ended; a host program is
cut short in a page that is a free fact. -/
def cutOp (m : Nat) (completes : Bool) (s : State) : State :=
  match s.fw.ops with
  | o :: _ =>
    if !o.begun then s
    else match o.kind with
      | .program a l =>
        let d := drawWord s
        cutProgram a l (d.1.toNat % ((l.length + a % 256 + 255) / 256)) completes d.2
      | .erase k n =>
        journalUpTo k n m (flashWrite (65536 * k - hostArea) (List.replicate (65536 * min m n) 0xFF#8) s)
      | _ => match eraseSpan s o.kind with
        | some (k, n) => journalUpTo k n m s
        | none => s
  | [] => s

/-- How many sectors of the erase under way have ended: a free fact. -/
def sectorsEnded (s : State) : Nat × State :=
  let d := drawWord s
  let n := match s.fw.ops with
    | o :: _ => ((eraseSpan s o.kind).map (·.2)).getD 0
    | [] => 0
  (d.1.toNat % (n + 1), d.2)

/-! ### Device reset and power-fail handling -/

/-- A device reset, with or without the write-back of R446. -/
def deviceReset (saved : Bool) (s : State) : State :=
  let m := sectorsEnded s
  let s1 := cutOp m.1 false m.2
  resetState false (if saved then writeBackAll s1 else s1)

/-- The reply queues are empty and no reply is held (R41). -/
def repliesGone (s : State) : Bool := (List.range 16).all (fun n => (que s (n + 16)).words.isEmpty) && s.cmd.held.isEmpty

/-- DEVICE_RESET_INSTANT (R41): the reset that RESET_DEVICE or TACK_REVERT has asked for. -/
def execDeviceResetInstant (s : State) : Host.Outcome State Fault Refusal :=
  .next (match s.dev.resetPending with
    | some t => if repliesGone s || reached s t then deviceReset true s else s
    | none => s)

/-- RESET_N_FALL (R446, R500): a pulse of at most 10 us is ignored; between 10 us and 1 ms the write-back may be incomplete. -/
def execResetNFall (width : Nat) (saved : Bool) (s : State) : Host.Outcome State Fault Refusal :=
  .next (if !s.dev.vin || width ≤ 10000 then s
    else
      let s1 := deviceReset (saved || decide (1000000 ≤ width)) s
      { s1 with dev := { s1.dev with resetLow := true } })

/-- Steps 1-5 of power-fail handling (R444): a holder releases, transmissions end, a page program completes, an erase is
abandoned, and the journal is closed. -/
def failSteps (erasing : Option Nat) (s : State) : State :=
  let s1 := endAllOnAir .failedHardware (releaseReins s)
  journal 4 0 (cutOp (erasing.getD 0) true s1)

/-- POWER_FAIL (R444): once started it runs to the end, the internal reset; VIN is then taken as lost (R446). -/
def execPowerFail (erasing : Option Nat) (s : State) : Host.Outcome State Fault Refusal :=
  .next (if !s.dev.vin || s.dev.powerFail then s
    else
      let s1 := failSteps erasing s
      let v : Vault := { s1.vault with pfFlag := true, pfStarts := saturate 32 (s1.vault.pfStarts + 1) }
      let s2 := resetState true { s1 with vault := v }
      { s2 with dev := { s2.dev with vin := false, powerFail := true } })

/-! ### SADDLE steps 1-6 -/

/-- Step 1 (R386, R460): the strap is sampled. -/
def sampleStrap (x : SaddleIn) (s : State) : State :=
  { s with dev := { s.dev with hidStrap := x.hid, hid := x.hid, resetLow := false, vin := true, powerFail := false }, herd := {} }

/-- A counter block's value at a start (R243). -/
def nextStart (v : StartCount) : StartCount :=
  { cur := if v.cur < 255 then v.cur + 1 else 255, curHeld := v.curHeld || decide (255 ≤ v.cur),
    prev := if v.prev < 255 then v.prev + 1 else 255, prevHeld := v.prevHeld || decide (255 ≤ v.prev) }

/-- The VBAT domain cleared after it lost power (R437). -/
def vbatLost (s : State) : State :=
  let v : Vault := { s.vault with
    slots := [], next := [], tamper := {}, tampered := false, count := 0, vbatLost := true, pattern := true, pfFlag := false
    pfStarts := 0, start := [], lastZero := none }
  postEvent 0x0A03 0 0#32 (raise .vbatLow { s with vault := v })

/-- Step 3 (R243, R437, R445): the VBAT domain checked, START_COUNT advanced, PF_FLAG handled. -/
def checkVbat (ok : Bool) (s : State) : State :=
  if ok then
    let s1 : State := { s with vault := { s.vault with start := s.vault.start.map (fun e => (e.1, nextStart e.2)) } }
    if s1.vault.pfFlag then raise .vinLow { s1 with vault := { s1.vault with pfFlag := false } } else s1
  else vbatLost s

/-- Steps 1-3, with PG (R443). -/
def saddleThree (x : SaddleIn) (s : State) : State :=
  let s1 := sampleStrap x s
  checkVbat x.vbatOk { s1 with dev := { s1.dev with pg := true } }

/-- Step 6 (R420-R422): the root rebuilt at some attempt, or every attempt failed. -/
def rebuildRoot (root : Option (Fin 4)) (s : State) : State :=
  match root with
  | some k =>
    let v : Vault := { s.vault with unlocked := true, rootOk := true, brand := true, attempts := k.val + 1 }
    { s with vault := v }
  | none =>
    let v : Vault := { s.vault with unlocked := false, rootOk := false, brand := false, attempts := 4 }
    raise .rootKeyFail { s with vault := v, link := { s.link with keys := [] } }

/-! ### SADDLE step 7 -/

/-- The last journal entry of a sector, close entries apart. -/
def lastEntry (l : List (Nat × Nat)) (k : Nat) : Option Nat :=
  ((l.filter (fun e => e.1 != 4 && e.2 = k)).getLast?).map (·.1)

/-- The sectors whose last entry is begun, suspended or resumed (R470). -/
def unfinished (l : List (Nat × Nat)) : List Nat :=
  ((l.filter (fun e => e.1 = 0)).map (·.2)).eraseDups.filter (fun k => match lastEntry l k with
    | some kind => decide (kind ≤ 2)
    | none => false)

/-- The firmware or tack slot that holds a marked sector is invalid (R470). -/
def invalidate (k : Nat) (s : State) : State :=
  if 0x10 ≤ k && k < 0x110 then
    let j := (k - 0x10) / 0x80
    setFwSlot j { fwSlot s j with state := 3, blocks := [] } s
  else if 0x110 ≤ k && k < 0x190 then
    if (k - 0x110) / 0x40 = s.fw.tackSlot then setFw s { s.fw with active := none }
    else setFw s { s.fw with prev := none, revertible := false }
  else s

/-- A sector marked for re-erase (R470). -/
def markSector (s : State) (k : Nat) : State :=
  let s1 := setFw s { s.fw with reerase := if s.fw.reerase.contains k then s.fw.reerase else s.fw.reerase ++ [k] }
  postEvent 0x0C05 0 (w32 k) (raise .flashReerase (invalidate k s1))

/-- The journal replayed (R470). -/
def replayJournal (s : State) : State := (unfinished s.fw.journal).foldl markSector s

/-- The firmware policy can be met: the root is there and the slot it names holds an operator key (R472, R476). -/
def policyMet (s : State) : Bool :=
  !s.fw.policy || (vaultOpen s && (vaultSlot s s.fw.policySlot).state = 1 && (vaultSlot s s.fw.policySlot).typ = 3)

/-- The boot ROM's checks of slot k pass (R472, R482). -/
def bootable (x : SaddleIn) (s : State) (k : Nat) : Bool :=
  (fwSlot s k).state = 2 && (if k = 0 then x.slotA else x.slotB) && policyMet s

/-- The slot that the active tack names; without one, the slot that ran before. -/
def bootSlot (s : State) : Nat :=
  match s.fw.active with
  | some t => t.slot
  | none => s.fw.running

/-- An image that cannot be used leaves its slot invalid. -/
def failSlot (k : Nat) (s : State) : State :=
  if (fwSlot s k).state = 2 then setFwSlot k { fwSlot s k with state := 3 } s else s

/-- The slot to boot from, after the checks of R482: the named one, else the other with event 0x0C02, else none. -/
def chooseSlot (x : SaddleIn) (s : State) : Option Nat × State :=
  let k := bootSlot s
  if bootable x s k then (some k, s)
  else if bootable x s (1 - k) then (some (1 - k), postEvent 0x0C02 0 (w32 k) (failSlot k s))
  else (none, failSlot (1 - k) (failSlot k s))

/-- The boot epoch of this start, one more than that of the start before (R337). -/
def nextBootEpoch (s : State) : State :=
  let e := s.fw.lastEpoch + 1
  setFw { s with dev := { s.dev with bootEpoch := e } } { s.fw with lastEpoch := e }

/-- The image in the recovery location written to slot A: its version and STEP_MIN are free facts (R483). -/
def recover (s : State) : State :=
  let v := drawWord s
  let m := drawWord v.2
  let s1 := setFwSlot 0 { state := 2, version := v.1, stepMin := m.1 } m.2
  changeMode .saddle s1

/-- The herd links as the ROM enables them: reset settings, enabled (R483). -/
def romLinks : Tab HerdLinkCfg := (List.range 4).map (fun l => (l, { enable := true }))

/-- REMOUNT entered (R462, R466, R483). -/
def enterRemount (x : SaddleIn) (s : State) : State :=
  let s1 := changeMode .remount { s with cfg := { s.cfg with herd := { s.cfg.herd with links := romLinks } } }
  let s2 := setFw { s1 with dev := { s1.dev with dramOk := x.dram, fwVersion := 0 } } { s1.fw with flashOk := x.flashOk }
  if x.flashOk && x.recovery then recover s2 else s2

/-! ### SADDLE steps 8-12 -/

/-- The tack that step 10 applies, and the detail of its event (R478). -/
def chooseTack (x : SaddleIn) (s : State) : Option Tack × Nat :=
  match s.fw.active, s.fw.prev with
  | some t, p => if x.tackOk then (some t, 0) else match p with
    | some u => if x.prevOk then (some u, 1) else (none, 2)
    | none => (none, 2)
  | none, some u => if x.prevOk then (some u, 1) else (none, 2)
  | none, none => (none, 2)

/-- The tack's copy of the tamper configuration: ignored while LOCK is set (R436). -/
def applyTamper (v : TamperCfg) (s : State) : State :=
  if s.vault.tamper.lock then postEvent 0x0A04 0 0#32 s else { s with vault := { s.vault with tamper := v } }

/-- The RCK settings of a tack: each RCK hops to its setting (R203, R477). -/
def applyRcks (l : Tab Nat) (s : State) : State :=
  l.foldl (fun t e => setRck t e.1 { rck t e.1 with hop := some (e.2, none), locked := false, low := true }) s

/-- The queue settings of a tack (R477). -/
def applyCaps (l : Tab (Nat × Nat)) (s : State) : State :=
  l.foldl (fun t e => setQue t e.1 { que t e.1 with cap := e.2.1, cutThresh := e.2.2 }) s

/-- The DMA engines of a tack, those whose binding R342 allows as the queues now stand. -/
def applyEngines (l : Tab Engine) (s : State) : State :=
  l.foldl (fun t e => if e.2.bound && bindable t e.1 e.2.d2h e.2.queue then setEngine t e.1 { e.2 with running := true } else t) s

/-- A tack's contents brought into force. -/
def applyTack (t : Tack) (s : State) : State :=
  let s1 := applyTamper t.tamper { s with cfg := t.cfg }
  let s2 : State := { s1 with dev := { s1.dev with hid := t.cfg.herd.hidOverride.getD s1.dev.hidStrap } }
  applyEngines t.engines (applyCaps t.caps (applyRcks t.rck s2))

/-- The plains that the configuration enables. -/
def plainsOn (s : State) : List Nat := (List.range 4).filter (fun p => (plainCfg s p).enabled)

/-- The ports of the enabled plains. -/
def portsOn (s : State) : Word := ((plainsOn s).foldl (fun m p => m ||| (plainCfg s p).ports) 0#16).setWidth 32

/-- Plains that the tack enables: their ports link and are calibrated, and the store is laid out (R110, R153, R517). -/
def startPlains (s0 : State) : State :=
  let s := (plainsOn s0).foldl (fun t p => linkPorts p (realign p t)) s0
  let bad := spreadPlains s (portsOn s)
  let s1 := calibrate (portsOn s) (sendSysref (portsOn s) s)
  let s3 := (bad.filter (plainsOn s).contains).foldl (fun t p => raise (.sysrefFault (Fin.ofNat 4 p)) t) s1
  let s4 := (List.range 4).foldl (fun t p => setTxRun t p { txRun t p with fT := (plainCfg t p).rxEntry }) s3
  repartition s4

/-- Sub-bands that come enabled start cold when the ledger is not there or does not check (R278). -/
def startLedger (ok : Bool) (s : State) : State :=
  ((List.range 64).filter (fun k => (bandCfg s k).enable)).foldl
    (fun t k => if !ok || (t.air.lost && !(band t k).seen) then startCold k (bandCfg t k) t else t) s

/-- Steps 8-10: Bridle on slot k, DRAM, the tack set, and the outputs at their rest levels (R458, R460, R478, R496). -/
def saddleTen (x : SaddleIn) (k : Nat) (s : State) : State :=
  let s1 := setFw s { s.fw with running := k }
  let s2 : State := { s1 with dev := { s1.dev with fwVersion := (fwSlot s1 k).version, dramOk := x.dram }, bri := {} }
  let t := chooseTack x s2
  let s3 := match t.1 with
    | some v => applyTack v s2
    | none => { s2 with cfg := {} }
  let s4 := startLedger x.ledgerOk (startPlains (postEvent 0x0C03 0 (w32 t.2) s3))
  { s4 with dev := { s4.dev with outputsOn := true } }

/-- The last event of Q32 dropped while the queue is beyond its cap (R43, R45). -/
def trimEvents (s : State) : State :=
  if overCap s 32 0 then
    let v := que s 32
    raise .queueOverflow (setQue s 32 (overflowAt (now s) (countDrop { v with words := v.words.take (v.words.length - 2) })))
  else s

/-- The event of a device reset, ahead of every other event of Q32 (R50); where those fill the queue, the last of them no longer
fits (R43, R45). -/
def resetEvent (s : State) : State :=
  let v := que s 32
  let ev := queueWords (eventBytes s 0x0002 0xFFFF 2#32)
  trimEvents (settle 32 { v with words := if v.begun then headWords v.words ++ ev ++ behindHead v.words else ev ++ v.words } s)

/-- Steps 11 and 12 (R460-R462): CMD_READY, the self-test and SOUND; with DRAM the datapath runs. -/
def saddleTwelve (s : State) : State :=
  let s1 := resetEvent { s with dev := { s.dev with cmdReady := true } }
  let s2 := restoreDomains (setSound (fullSelfTest s1).2)
  if s2.dev.dramOk then changeMode (runningMode s2) { s2 with dev := { s2.dev with dataReady := true } } else s2

/-- From step 5 on (R460). -/
def saddleRest (x : SaddleIn) (s : State) : State :=
  let s1 := rebuildRoot x.root { s with dev := { s.dev with clkLost := false, refin := true, saddleWait := false } }
  if !x.flashOk then enterRemount x s1
  else
    let s2 := replayJournal (nextBootEpoch (setFw s1 { s1.fw with flashOk := true }))
    match chooseSlot x s2 with
    | (some k, t) => saddleTwelve (saddleTen x k t)
    | (none, t) => enterRemount x t

/-- Step 4 (R462): without REFIN the sequence waits. -/
def saddleFour (x : SaddleIn) (s : State) : State :=
  if x.refin then saddleRest x s
  else raise .clkLoss { s with dev := { s.dev with refin := false, saddleWait := true } }

/-- A start can begin: the device stands at the beginning of SADDLE. -/
def mayStartUp (s : State) : Bool := s.dev.mode = .saddle && !s.dev.cmdReady && !s.dev.saddleWait && !s.dev.actPause

/-- SADDLE (R460). -/
def execSaddle (x : SaddleIn) (s : State) : Host.Outcome State Fault Refusal :=
  .next (if mayStartUp s then
    saddleFour x (saddleThree x (if x.vinLost then resetState true s else s))
  else s)

/-- REFIN_DETECTED (R462): a sequence that waits at step 4 goes on. -/
def execRefinDetected (x : SaddleIn) (s : State) : Host.Outcome State Fault Refusal :=
  .next (if s.dev.mode = .saddle && s.dev.saddleWait then saddleRest x s else s)

end Sys2Proof.Machine
end

