-- ==== Sys2Proof/Machine/Registers.lean ====
section
/-! DEFINITION. Host writes to BAR0 by the register map and the access codes (R7, R8, R57-R61, R64, R340, R379-R383, R451), and
the wake from STALL with the writes it held back (R372, R373, R459). -/

namespace Sys2Proof.Machine

/-! ### Trouble registers (R64) -/

/-- A W1C register after a write: each 1 clears its bit (R7), but for a bit that hardware sets at the same instant (R8). -/
def cleared (old v set : Word) : Word := old &&& (~~~ v ||| set)

/-- The bits of TRBn that hardware has set at this instant (R8). -/
def setThisInstant (s : State) (n : Nat) : Word :=
  if s.trb.setAt = now s then maskOf 32 ((s.trb.setNow.filter (fun b => trbReg b = n)).map trbPos) else 0#32

/-- The trouble block: TRB0-TRB7 and their masks; the summary and what is reserved ignore writes. -/
def writeTrouble (o : Nat) (v : Word) (s : State) : State :=
  if o < 0x20 then { s with trb := { s.trb with regs := tabSet s.trb.regs (o / 4) (cleared (trbWord s (o / 4)) v (setThisInstant s (o / 4))) } }
  else if 0x40 ≤ o && o < 0x60 then { s with trb := { s.trb with masks := tabSet s.trb.masks ((o - 0x40) / 4) v } }
  else s

/-! ### Pannier queues (R52-R56) -/

/-- STATUS of a queue written: W1C bits (R54), but for those hardware sets at the same instant (R8). -/
def clearStatus (q : Nat) (w : Word) (s : State) : State :=
  let u := que s q
  let v := if u.setAt = now s then w &&& ~~~ u.setNow.setWidth 32 else w
  setQue s q { u with
    underrun := u.underrun && !bit v 0, overflow := u.overflow && !bit v 1, ptrErr := u.ptrErr && !bit v 2
    resetFlag := u.resetFlag && !bit v 3, cfgRefused := u.cfgRefused && !bit v 4 }

/-- The control block of queue q: CTRL and STATUS; CUT and DEPTH ignore writes. -/
def writeControl (q o : Nat) (v : Word) (s : State) : State :=
  if o = 0 then ctrlWrite q v s else if o = 8 then clearStatus q v s else s

/-- LAST_BYTES of queue q written (R56). -/
def writeLastBytes (q : Nat) (v : Word) (s : State) : State := setQue s q { que s q with lastBytes := bits v 2 0 }

/-- A 4-byte write in the window of queue q: PUSH and PUSH_LAST ignore it, and the rest but LAST_BYTES is read-only (R56). -/
def writeWindow (q o : Nat) (v : Word) (s : State) : State := if o = 0x18 then writeLastBytes q v s else s

/-- An 8-byte write in the window of queue q (R56). -/
def writeWindowWide (q o : Nat) (v : BitVec 64) (s : State) : State :=
  if o = 0 then hostPush q v false s
  else if o = 8 then hostPush q v true s
  else if o = 0x18 then writeLastBytes q (v.setWidth 32) s
  else s

/-! ### Time, gait timers, power votes (R379-R383, R451) -/

/-- The time counter block: SNAP and TB4_INC. -/
def writeTimeReg (o : Nat) (v : Word) (s : State) : State :=
  if o = 0x40 then takeSnap v s else if o = 0x80 then writeIncLo v s else if o = 0x84 then writeIncHi v s else s

/-- GT_STATUS written at instant t: MATCH, OVERRUN and STALL_MATCH are W1C (R383), but for those set at that instant (R8). -/
def clearGtStatus (t : BitVec 64) (v : Word) (g : Gait) : Gait :=
  { g with status := cleared g.status (v &&& 0xD#32) (if g.setAt = t then g.setNow else 0#32) }

/-- The block of gait timer t (R381). -/
def writeGait (t o : Nat) (v : Word) (s : State) : State :=
  if o = 0x00 then setGait s t (writeGtCtrl (gait s t) v)
  else if o = 0x04 then writeCount t v s
  else if o = 0x08 then writeCompare t v s
  else if o = 0x0C then setGait s t { gait s t with interval := v }
  else if o = 0x10 then setGait s t { gait s t with top := v }
  else if o = 0x18 then setGait s t (clearGtStatus (now s) v (gait s t))
  else s

/-- The block of power domain d (R451). -/
def writeDomain (d o : Nat) (v : Word) (s : State) : State :=
  if 47 ≤ d then s else if o = 0 then writeVote d v s else if o = 4 then writePolicy d v s else s

/-! ### The BAR0 map (R57) -/

/-- The semaphore block: a write of SEM_REL by the host; SEM_ACQ ignores writes (R61). -/
def writeSem (n o : Nat) (v : Word) (s : State) : State :=
  if o = 4 && bit v 0 then setSem s n (releaseSem (sem s n) (agentCode .host)) else s

/-- A write of one word at a BAR0 offset; reserved space and read-only registers ignore it (R7, R57). -/
def writeReg (off : Nat) (v : Word) (s : State) : State :=
  if off < 0x1000 then s
  else if off < 0x2000 then writeTrouble (off - 0x1000) v s
  else if off < 0x2200 then writeSem ((off - 0x2000) / 8) (off % 8) v s
  else if off < 0x4000 then s
  else if off < 0x8000 then writeControl ((off - 0x4000) / 16) (off % 16) v s
  else if off < 0x10000 then s
  else if off < 0x20000 then writeWindow ((off - 0x10000) / 64) (off % 64) v s
  else if off < 0x21000 then writeTimeReg (off - 0x20000) v s
  else if off < 0x21200 then writeGait ((off - 0x21000) / 32) (off % 32) v s
  else if off < 0x30000 then s
  else if off < 0x31000 then writeDomain ((off - 0x30000) / 16) (off % 16) v s
  else if off < 0x40000 then s
  else if off < 0x40040 then ringBell ((off - 0x40000) / 4) v s
  else s

/-- The offset lies in the pannier windows. -/
def inWindows (off : Nat) : Bool := 0x10000 ≤ off && off < 0x20000

/-- A host write of 4 or 8 bytes: outside the pannier windows an 8-byte write writes two words, the lower first. -/
def writeBar0 (off : Nat) (wide : Bool) (v : BitVec 64) (s : State) : State :=
  if !wide then writeReg off (v.setWidth 32) s
  else if inWindows off then writeWindowWide ((off - 0x10000) / 64) (off % 64) v s
  else writeReg (off + 4) ((v >>> 32).setWidth 32) (writeReg off (v.setWidth 32) s)

/-- The write goes to a pannier window or a doorbell, which STALL holds back (R459). -/
def heldInStall (off : Nat) : Bool := inWindows off || (0x40000 ≤ off && off < 0x40040)

/-- REGISTER_WRITE (R7, R57). An access that BAR0 does not support is the row UNSUPPORTED_REQUEST (fault illFormed). -/
def execRegisterWrite (off : BitVec 20) (wide : Bool) (v : BitVec 64) (s : State) : Host.Outcome State Fault Refusal :=
  if !supported off (if wide then 8 else 4) then .fault .illFormed
  else if s.dev.mode = .stall && heldInStall off.toNat then
    .next (setPwr s { s.pwr with heldPush := s.pwr.heldPush ++ [.reg off wide v] })
  else .next (writeBar0 off.toNat wide v s)

/-! ### Wake from STALL (R372, R373, R459) -/

/-- A held write applied. -/
def applyHeld (s : State) : HeldWrite → State
  | .push q data last => hostPush q data last s
  | .bell q n => ringBell q n s
  | .reg off wide v => writeBar0 off.toNat wide v s

/-- The cause holds: a write is held, or STALL_WAKE seconds have passed on the sleep counter. -/
def wakes (x : WakeIn) (s : State) : Bool :=
  match x.cause with
  | .hostWrite => !s.pwr.heldPush.isEmpty
  | .perst => true
  | .timer => s.cfg.pwr.stallWake != 0 && decide (s.cfg.pwr.stallWake * 1000000000 * 65536 ≤ x.cycles * makeUpPeriod s)

/-- The cause as MODE_STATUS gives it (R464). -/
def wakeCode : WakeCause → Nat
  | .hostWrite => 3
  | .perst => 4
  | .timer => 5

/-- The domains that entry to STALL gated restored; in GRAZE its own gates stand. -/
def restoreAfterStall (s : State) : State :=
  let s1 := restoreDomains s
  if s.pwr.beforeStall = .graze then setDomains grazeGates false s1 else s1

/-- STALL over (R459): TICK restarts with the make-up, the mode before entry is back, and held writes are applied. -/
def wakeStall (x : WakeIn) (s : State) : State :=
  let count := s.pwr.stallAt + BitVec.ofNat 32 x.cycles
  let s1 := makeUpGaits x.cycles (makeUpTime x.cycles { s with time := { s.time with sleepCount := count } })
  let s2 : State := { s1 with dev := { s1.dev with dataReady := true, cmdReady := true } }
  let s3 := setPwr s2 { s2.pwr with lastWake := some (wakeCode x.cause), heldPush := [] }
  s.pwr.heldPush.foldl applyHeld (changeMode s.pwr.beforeStall (restoreAfterStall s3))

/-- An entry to STALL runs and has not reached its isolation (R452). -/
def entersStall (s : State) : Bool :=
  match s.pwr.trans with
  | some t => decide (t.target = Mode.stall)
  | none => false

/-- STALL_WAKE (R452, R459): it ends STALL, or abandons an entry under way. -/
def execStallWake (x : WakeIn) (s : State) : Host.Outcome State Fault Refusal :=
  .next (if s.dev.mode = .stall then (if wakes x s then wakeStall x s else s)
    else if entersStall s then abandonEntry .retryModeTransition s
    else s)

end Sys2Proof.Machine
end

