-- ==== Sys2Proof/Machine/Remote.lean ====
section
/-! DEFINITION. ABORT_COMMAND (R42, R141), the table of host commands, and commands and inputs that come over the herd
(R31, R400, R401, R512). -/

namespace Sys2Proof.Machine

/-! ### ABORT_COMMAND -/

/-- This is the record of the command with a queue and a tag. -/
def isOf (e : InFlight) (x : Option (Nat × BitVec 16)) : Bool := x = some (e.queue, e.tag)

/-- A port without the scripts of a command: one that runs stops between two frames. -/
def dropScripts (e : InFlight) (v : Port) : Port :=
  let running := match v.running with
    | some x => if isOf e x.tag then none else some x
    | none => none
  { v with running := running, queued := v.queued.filter (fun x => !isOf e x.tag) }

/-- An RCK whose hop a command asked for and no longer wants: its output stays gated until lock is reported. -/
def dropHop (e : InFlight) (v : Rck) : Rck :=
  match v.hop with
  | some (_, t) => if isOf e t then { v with hop := none } else v
  | none => v

/-- What waits for the command is forgotten: scripts, hops, bank swaps, home moves, a survey, reads of flash, a
resynchronisation's reply, a resumed chain, the first stage of a tandem's activation. -/
def forget (e : InFlight) (s : State) : State :=
  let s1 : State := { s with
    rx := { s.rx with ports := s.rx.ports.map (fun p => (p.1, dropScripts e p.2))
                      swaps := s.rx.swaps.filter (fun w => !(w.queue = e.queue && w.tag = e.tag)) }
    radio := { s.radio with rck := s.radio.rck.map (fun r => (r.1, dropHop e r.2)) }
    fwd := { s.fwd with moves := s.fwd.moves.filter (fun m => !(m.queue = e.queue && m.tag = e.tag)) }
    time := { s.time with survey := s.time.survey.filter (fun v => !(v.queue = e.queue && v.tag = e.tag)) } }
  let s2 := setFw s1 { s1.fw with
    reads := s1.fw.reads.filter (fun r => !(r.1 = e.queue && r.2.1 = e.tag))
    chainState := if isOf e s1.fw.resume then 0 else s1.fw.chainState
    resume := if isOf e s1.fw.resume then none else s1.fw.resume }
  let mine := match s2.fw.pair with
    | some (q, t, _, _) => decide (q = e.queue ∧ t = e.tag)
    | none => false
  let s3 := if mine then setTan (setFw s2 { s2.fw with pair := none }) { s2.tan with fwStage := 0, fwSince := none } else s2
  if isOf e s3.tan.resync then setTan s3 { s3.tan with resync := none } else s3

/-- The command's flash operation. -/
def opOf (s : State) (e : InFlight) : Option FlashOp := s.fw.ops.find? (fun o => isOf e o.cmd)

/-- A flash program under way, which cannot be aborted (R42). -/
def isProgram : FlashKind → Bool
  | .program _ _ => true
  | .fwBlock _ _ _ => true
  | .tackSave _ _ => true
  | .erase _ _ => false
  | .fwBegin _ _ _ => false

/-- An erase under way stops: the sectors that have ended stay erased, of the one under erase nothing is known, and its journal
entry stays open (R469, R470). -/
def stopErase (o : FlashOp) (s : State) : State :=
  let m := sectorsEnded s
  let s1 := cutOp m.1 false m.2
  match o.kind with
  | .erase k n => if m.1 < n then scramble (65536 * (k + m.1) - hostArea) 65536 s1 else s1
  | _ => s1

/-- The command's flash operation taken off the flash manager's work. -/
def dropOp (e : InFlight) (s : State) : State :=
  match opOf s e with
  | some o =>
    let s1 := if o.begun then stopErase o s else s
    let s2 := setFw s1 { s1.fw with ops := s1.fw.ops.filter (fun x => !isOf e x.cmd) }
    let s3 := serveReads s2
    startHead s3.fw.ops.length s3
  | none => s

/-- Commands that cannot be aborted (R42, R440); of a command that runs, a flash program under way. -/
def notAbortable (s : State) (e : InFlight) : Bool :=
  e.opcode = 0x0004 || e.opcode = 0x0002 || (0x0A00 ≤ e.opcode && e.opcode < 0x0B00) || match opOf s e with
    | some o => o.begun && isProgram o.kind
    | none => false

/-- A waiting command taken off the list. -/
def dropWaitingCmd (e : InFlight) (s : State) : State :=
  { s with cmd := { s.cmd with
      waiting := s.cmd.waiting.filter (fun w => !(w.accepted && w.seq = e.seq)) } }

/-- A command in flight aborted: a withdrawal or a mode entry is undone (R141, R452), other work stops, and the command
completes with ST_ABORTED_BY_HOST. -/
def abortCmd (e : InFlight) (s : State) : State :=
  match withdrawalOf s e.queue e.tag with
  | some w =>
    if isModeDrain w then abandonEntry .abortedByHost s
    else complete e.queue e.tag .abortedByHost [] (abortWithdrawal w s)
  | none => complete e.queue e.tag .abortedByHost [] (dropOp e (forget e (dropWaitingCmd e s)))

/-- ABORT_COMMAND's result and effect for tag t, its own tag being `own`; a completion at the same instant stands (R42). -/
def abortTag (own t : BitVec 16) (s : State) : Answer :=
  if own = t then doneWith [2#32] s
  else match s.cmd.inFlight.find? (fun e => e.tag = t) with
    | none => doneWith [if doneNow s t then 1#32 else 3#32] s
    | some e =>
      if e.phase = .held then doneWith [1#32] s
      else if notAbortable s e then doneWith [2#32] s
      else doneWith [0#32] (abortCmd e s)

def abortCommandSpec : CmdSpec :=
  plainSpec 0x0002 1 (fun c => fits c 0 16) (fun c s => abortTag c.tag ((pw c 0).setWidth 16) s)

/-- ABORT_COMMAND (R42). -/
def execAbortCommand (c : Packet) (s : State) : Host.Outcome State Fault Refusal :=
  runCommand abortCommandSpec c s

/-! ### The command table -/

/-- Host commands, part 1. -/
def commandSpecs1 : List CmdSpec :=
  [nopSpec, getIdentitySpec, abortCommandSpec, getCommandStateSpec, resetDeviceSpec, queueConfigureSpec,
   queueResetSpec, queueStatusSpec, spillStatusSpec, soundnessReportSpec, selfTestRunSpec, troubleLogReadSpec,
   troubleLogClearSpec, modeSetSpec, modeStatusSpec, grazeSetSpec, grazeSenseSetSpec, stallSetSpec, powerStatusSpec,
   powerCountersReadSpec, plainConfigureSpec, plainDisableSpec, plainStatusSpec, chainEnableSpec]

/-- Host commands, part 2. -/
def commandSpecs2 : List CmdSpec :=
  [syncSetSpec, searchSetSpec, detectSetSpec, trackCapSetSpec, recordSetSpec, linkCalibrateSpec, portLatencySetSpec,
   portStatusSpec, sysrefSetSpec, lanePolaritySetSpec, gainSetSpec, gainGetSpec, levelSetSpec, weightsWriteSpec 0x0230 false,
   tableActivateSpec 0x0231 false, weightsReadSpec 0x0232 false, beamEnableSpec, paddockWithdrawSpec, paddockRestoreSpec,
   fabricStatusSpec, rxCountersReadSpec, cutSetSpec, cutStatusSpec, cutRetrySpec]

/-- Host commands, part 3. -/
def commandSpecs3 : List CmdSpec :=
  [storeStatusSpec, spanMarksReadSpec, cutEngineRestartSpec, combineSetSpec, combineStatusSpec, cutCountersReadSpec,
   combineCountersReadSpec, radioSpiSetSpec, radioScriptRunSpec, calWriteSpec, calReadSpec, plainTuneSpec,
   gainScriptSetSpec, returnSetSpec, txPortSetSpec, txPlainSetSpec, txDefaultsSetSpec, weightsWriteSpec 0x0410 true,
   tableActivateSpec 0x0411 true, weightsReadSpec 0x0412 true, coexSetSpec, coexStatusSpec, rckStoreSpec, rckSelectSpec]

/-- Host commands, part 4. -/
def commandSpecs4 : List CmdSpec :=
  [rckStatusSpec, sequencerStatusSpec, txCountersReadSpec, linkNetworkSetSpec, linkNetworkStatusSpec,
   linkEpochAdvanceSpec, linkSeenSetSpec, iphcContextSetSpec, replayStateReadSpec, keyCacheFlushSpec,
   cryptoEngineRestartSpec, imageLoadSpec, imageStartSpec, imageStopSpec, imageStatusSpec, linkCountersReadSpec,
   scheduleSetSpec, scheduleStatusSpec, slotframeSetSpec, hopseqSetSpec, cellWriteSpec, cellReadSpec,
   guardClassSetSpec, rendezvousSetSpec]

/-- Host commands, part 5. -/
def commandSpecs5 : List CmdSpec :=
  [rendezvousReadSpec, downlinkPurgeSpec, subbandSetSpec, ledgerReadSpec, ledgerLoadSpec, shaperSubscriberSetSpec,
   shaperServiceSetSpec, shaperPortSetSpec, shaperReadSpec, txRecordSetSpec, shortfallReadSpec,
   schedCountersReadSpec, prefixInsertSpec, prefixDeleteSpec, prefixSearchSpec, prefixNextSpec, nodeInsertSpec,
   nodeDeleteSpec, nodeReadSpec, nodeUpdateSpec, nodeNextSpec, flushByPortSpec, nodeHomeMoveSpec, fwdTenantSetSpec]

/-- Host commands, part 6. -/
def commandSpecs6 : List CmdSpec :=
  [fwdFloodSetSpec, fwdStatusSpec, fwdCountersReadSpec, bhPortSetSpec, bhFilterSetSpec, bhVlanSetSpec,
   bhEgressSetSpec, bhStatusSpec, bhCountersReadSpec, herdLinkSetSpec, herdRouteSetSpec, herdLinkStatusSpec,
   herdCountersReadSpec, apertureSetSpec, dmaEngineSetSpec, dmaEngineStopSpec, dmaStatusSpec, pcieStatusSpec,
   tbSelectSpec, timeStatusReadSpec, ptpSetSpec, tbRearmSpec, tb4LoadSpec, ppsSetSpec]

/-- Host commands, part 7. -/
def commandSpecs7 : List CmdSpec :=
  [ppsTodSetSpec, tcSetSpec, herdTimeSetSpec, surveyRunSpec, surveyReadSpec, timeCountersReadSpec, herdIdSetSpec,
   herdMembersSetSpec, herdStatusSpec, herdLeaveSpec, foreignSetSpec, tandemFormSpec, tandemDissolveSpec,
   tandemStatusSpec, reinsHandoverSpec, tandemResyncSpec, bridleStatusSpec, tandemCountersReadSpec, vaultStatusSpec,
   slotGenerateSpec, slotImportSpec, slotRetireSpec, slotInfoSpec, attestSpec]

/-- Host commands, part 8. -/
def commandSpecs8 : List CmdSpec :=
  [brandCertReadSpec, zoneNextSetSpec, maskSetSpec, tamperSetSpec, tamperStatusSpec, tamperClearSpec,
   vaultZeroiseSpec, fwBeginSpec, fwBlockWriteSpec, fwStatusSpec, fwChainSetSpec, fwChainResumeSpec, fwActivateSpec,
   fwPolicySetSpec, tackSaveSpec, tackRevertSpec, tackStatusSpec, tackLockSpec, flashReadSpec, flashProgramSpec,
   flashEraseSpec, flashStatusSpec]

/-- Every host command of the opcode map (R39). -/
def commandSpecs : List CmdSpec :=
  commandSpecs1 ++ commandSpecs2 ++ commandSpecs3 ++ commandSpecs4 ++ commandSpecs5 ++ commandSpecs6 ++ commandSpecs7 ++ commandSpecs8

/-- What an opcode stands for; one that is not defined ends with ST_INVALID_OPCODE (R39). -/
def specOf (op : Nat) : CmdSpec := (commandSpecs.find? (fun v => v.op = op)).getD (undefinedSpec op)

/-- HERD_COMMAND (R31, R512): a command that an entry device has forwarded, judged and executed here. -/
def execHerdCommand (src : Fin 64) (op : BitVec 16) (c : Packet) (s0 : State) : Host.Outcome State Fault Refusal :=
  let s := mirrorHerd (.command src op c) s0
  .next (startCommand (.peer src.val) (specOf op.toNat) c s)

/-- A waiting command starts: one taken already is judged at once (R29). -/
def startWaiting (w : WaitingCmd) (s : State) : State :=
  endStart (if w.accepted then dispatchCommand w.src (specOf w.op) w.packet (takeWaiting w s)
    else startCommand w.src (specOf w.op) w.packet (takeWaiting w s))

/-! ### Mirrored inputs (R400, R401) -/

/-- A herd message taken as the row of its type takes it. -/
def takeHerdIn (m : HerdIn) (s : State) : Host.Outcome State Fault Refusal :=
  match m with
  | .command src op c => execHerdCommand src op c s
  | .reply r => execHerdReply r s
  | .semaphore n peer release => execSemaphoreRequest n peer release s
  | .frame src h => execForwardedFrame src h s
  | .homeAck x => execHomeAck x s
  | .report r epoch => execCombiningReport r epoch s
  | .notice x => execCutNotice x s
  | .candidate x => execRendezvousCandidate x s
  | .outcome x => execCandidateOutcome x s
  | .packet x => execForwardedPacket x s
  | .flood x => execFloodCopy x s
  | .homeSwitch x => execHomeSwitch x s
  | .membership l present => execMembershipMessage l present s
  | .time l ts age => execHerdTimeMessage l ts age s
  | .survey x => execSurveyProbe x s
  | .chainBlock x => execFwChainBlock x s
  | .chainAck src epoch count => execFwChainAck src epoch count s

/-- The input applied as the holder applies its own. -/
def applyMirrored (x : Mirrored) (s : State) : Host.Outcome State Fault Refusal :=
  match x with
  | .command op c => .next (startCommand .mirror (specOf op.toNat) c s)
  | .backhaul p len crc => .next (takeMirrored p.val len crc s)
  | .grants v => .next { s with radio := { s.radio with grants := v } }
  | .blank k active => if active then execBlankAssert k s else execBlankRelease k s
  | .pps falling => execPpsInEdge falling s
  | .capture t falling => execGtCapEdge t falling s
  | .vote d policy v => .next (if policy then setPolicy d.val v s else setVote d.val v s)
  | .herd m => takeHerdIn m s

/-- A mirrored input applied, if the device takes it. -/
def settleMirrored (x : Mirrored) (s : State) : State :=
  match applyMirrored x s with
  | .next t => t
  | _ => s

/-- The mirrored inputs of the instant applied in (ASN, sequence) order (R16). -/
def resolveMirrored (s : State) : State :=
  let before (a b : Nat × Nat × Mirrored) : Bool := keyBefore [a.1, a.2.1] [b.1, b.2.1]
  let put (l : List (Nat × Nat × Mirrored)) (x : Nat × Nat × Mirrored) : List (Nat × Nat × Mirrored) :=
    l.takeWhile (fun y => !before x y) ++ [x] ++ l.dropWhile (fun y => !before x y)
  (s.tan.mirrorq.foldl put []).foldl (fun t x => settleMirrored x.2.2 t) { s with tan := { s.tan with mirrorq := [] } }

/-- MIRRORED_INPUT (R16, R400): the member without the reins applies it at the end of the instant, after those that come at it
with a lower stamp. -/
def execMirroredInput (asn : BitVec 40) (seq : Nat) (x : Mirrored) (s : State) : Host.Outcome State Fault Refusal :=
  .next (if nonHolder s then { s with tan := { s.tan with mirrorq := s.tan.mirrorq ++ [(asn.toNat, seq, x)] } } else s)

end Sys2Proof.Machine
end

