-- ==== Sys2Proof/Machine/Dispatch.lean ====
section
/-! DEFINITION. The effect of every command: one arm per constructor of Instr, each one call of its meaning. -/

namespace Sys2Proof.Machine

def exec (i : Instr) (s : State) : Host.Outcome State Fault Refusal :=
  match i with
  | .nop c => Sys2Proof.Machine.execNop c s
  | .getIdentity c => Sys2Proof.Machine.execGetIdentity c s
  | .abortCommand c => Sys2Proof.Machine.execAbortCommand c s
  | .getCommandState c => Sys2Proof.Machine.execGetCommandState c s
  | .resetDevice c => Sys2Proof.Machine.execResetDevice c s
  | .deviceResetInstant => Sys2Proof.Machine.execDeviceResetInstant s
  | .queueConfigure c => Sys2Proof.Machine.execQueueConfigure c s
  | .queueReset c => Sys2Proof.Machine.execQueueReset c s
  | .queueStatus c => Sys2Proof.Machine.execQueueStatus c s
  | .spillStatus c => Sys2Proof.Machine.execSpillStatus c s
  | .soundnessReport c => Sys2Proof.Machine.execSoundnessReport c s
  | .selfTestRun c => Sys2Proof.Machine.execSelfTestRun c s
  | .troubleLogRead c => Sys2Proof.Machine.execTroubleLogRead c s
  | .troubleLogClear c => Sys2Proof.Machine.execTroubleLogClear c s
  | .undefinedOpcode op c => Sys2Proof.Machine.execUndefinedOpcode op c s
  | .cmdMalformed q bytes => Sys2Proof.Machine.execCmdMalformed q bytes s
  | .replyRelease q => Sys2Proof.Machine.execReplyRelease q s
  | .herdCommand src op c => Sys2Proof.Machine.execHerdCommand src op c s
  | .herdReply r => Sys2Proof.Machine.execHerdReply r s
  | .push q data => Sys2Proof.Machine.execPush q data s
  | .pushLast q data => Sys2Proof.Machine.execPushLast q data s
  | .pop q => Sys2Proof.Machine.execPop q s
  | .arm q v => Sys2Proof.Machine.execArm q v s
  | .dropRest q v => Sys2Proof.Machine.execDropRest q v s
  | .ctrlReset q v => Sys2Proof.Machine.execCtrlReset q v s
  | .consumerBinding q v => Sys2Proof.Machine.execConsumerBinding q v s
  | .queuePointerMismatch q => Sys2Proof.Machine.execQueuePointerMismatch q s
  | .semAcq n a => Sys2Proof.Machine.execSemAcq n a s
  | .semRel n a v => Sys2Proof.Machine.execSemRel n a v s
  | .semaphoreRequest n peer release => Sys2Proof.Machine.execSemaphoreRequest n peer release s
  | .doorbell q n => Sys2Proof.Machine.execDoorbell q n s
  | .registerWrite off wide v => Sys2Proof.Machine.execRegisterWrite off wide v s
  | .unsupportedRequest off size write => Sys2Proof.Machine.execUnsupportedRequest off size write s
  | .bar2Write off bytes => Sys2Proof.Machine.execBar2Write off bytes s
  | .modeSet c => Sys2Proof.Machine.execModeSet c s
  | .modeStatus c => Sys2Proof.Machine.execModeStatus c s
  | .grazeSet c => Sys2Proof.Machine.execGrazeSet c s
  | .grazeSenseSet c => Sys2Proof.Machine.execGrazeSenseSet c s
  | .stallSet c => Sys2Proof.Machine.execStallSet c s
  | .powerStatus c => Sys2Proof.Machine.execPowerStatus c s
  | .powerCountersRead c => Sys2Proof.Machine.execPowerCountersRead c s
  | .plainConfigure c => Sys2Proof.Machine.execPlainConfigure c s
  | .plainDisable c => Sys2Proof.Machine.execPlainDisable c s
  | .plainStatus c => Sys2Proof.Machine.execPlainStatus c s
  | .chainEnable c => Sys2Proof.Machine.execChainEnable c s
  | .syncSet c => Sys2Proof.Machine.execSyncSet c s
  | .searchSet c => Sys2Proof.Machine.execSearchSet c s
  | .detectSet c => Sys2Proof.Machine.execDetectSet c s
  | .trackCapSet c => Sys2Proof.Machine.execTrackCapSet c s
  | .recordSet c => Sys2Proof.Machine.execRecordSet c s
  | .linkCalibrate c => Sys2Proof.Machine.execLinkCalibrate c s
  | .portLatencySet c => Sys2Proof.Machine.execPortLatencySet c s
  | .portStatus c => Sys2Proof.Machine.execPortStatus c s
  | .sysrefSet c => Sys2Proof.Machine.execSysrefSet c s
  | .lanePolaritySet c => Sys2Proof.Machine.execLanePolaritySet c s
  | .gainSet c => Sys2Proof.Machine.execGainSet c s
  | .gainGet c => Sys2Proof.Machine.execGainGet c s
  | .levelSet c => Sys2Proof.Machine.execLevelSet c s
  | .beamWeightsWrite c => Sys2Proof.Machine.execBeamWeightsWrite c s
  | .beamTableActivate c => Sys2Proof.Machine.execBeamTableActivate c s
  | .beamWeightsRead c => Sys2Proof.Machine.execBeamWeightsRead c s
  | .beamEnable c => Sys2Proof.Machine.execBeamEnable c s
  | .paddockWithdraw c => Sys2Proof.Machine.execPaddockWithdraw c s
  | .paddockRestore c => Sys2Proof.Machine.execPaddockRestore c s
  | .fabricStatus c => Sys2Proof.Machine.execFabricStatus c s
  | .rxCountersRead c => Sys2Proof.Machine.execRxCountersRead c s
  | .cutSet c => Sys2Proof.Machine.execCutSet c s
  | .cutStatus c => Sys2Proof.Machine.execCutStatus c s
  | .cutRetry c => Sys2Proof.Machine.execCutRetry c s
  | .storeStatus c => Sys2Proof.Machine.execStoreStatus c s
  | .spanMarksRead c => Sys2Proof.Machine.execSpanMarksRead c s
  | .cutEngineRestart c => Sys2Proof.Machine.execCutEngineRestart c s
  | .combineSet c => Sys2Proof.Machine.execCombineSet c s
  | .combineStatus c => Sys2Proof.Machine.execCombineStatus c s
  | .cutCountersRead c => Sys2Proof.Machine.execCutCountersRead c s
  | .combineCountersRead c => Sys2Proof.Machine.execCombineCountersRead c s
  | .radioSpiSet c => Sys2Proof.Machine.execRadioSpiSet c s
  | .radioScriptRun c => Sys2Proof.Machine.execRadioScriptRun c s
  | .calWrite c => Sys2Proof.Machine.execCalWrite c s
  | .calRead c => Sys2Proof.Machine.execCalRead c s
  | .plainTune c => Sys2Proof.Machine.execPlainTune c s
  | .gainScriptSet c => Sys2Proof.Machine.execGainScriptSet c s
  | .returnSet c => Sys2Proof.Machine.execReturnSet c s
  | .txPortSet c => Sys2Proof.Machine.execTxPortSet c s
  | .txPlainSet c => Sys2Proof.Machine.execTxPlainSet c s
  | .txDefaultsSet c => Sys2Proof.Machine.execTxDefaultsSet c s
  | .txBeamWeightsWrite c => Sys2Proof.Machine.execTxBeamWeightsWrite c s
  | .txBeamTableActivate c => Sys2Proof.Machine.execTxBeamTableActivate c s
  | .txBeamWeightsRead c => Sys2Proof.Machine.execTxBeamWeightsRead c s
  | .coexSet c => Sys2Proof.Machine.execCoexSet c s
  | .coexStatus c => Sys2Proof.Machine.execCoexStatus c s
  | .rckStore c => Sys2Proof.Machine.execRckStore c s
  | .rckSelect c => Sys2Proof.Machine.execRckSelect c s
  | .rckStatus c => Sys2Proof.Machine.execRckStatus c s
  | .sequencerStatus c => Sys2Proof.Machine.execSequencerStatus c s
  | .txCountersRead c => Sys2Proof.Machine.execTxCountersRead c s
  | .linkNetworkSet c => Sys2Proof.Machine.execLinkNetworkSet c s
  | .linkNetworkStatus c => Sys2Proof.Machine.execLinkNetworkStatus c s
  | .linkEpochAdvance c => Sys2Proof.Machine.execLinkEpochAdvance c s
  | .linkSeenSet c => Sys2Proof.Machine.execLinkSeenSet c s
  | .iphcContextSet c => Sys2Proof.Machine.execIphcContextSet c s
  | .replayStateRead c => Sys2Proof.Machine.execReplayStateRead c s
  | .keyCacheFlush c => Sys2Proof.Machine.execKeyCacheFlush c s
  | .cryptoEngineRestart c => Sys2Proof.Machine.execCryptoEngineRestart c s
  | .imageLoad c => Sys2Proof.Machine.execImageLoad c s
  | .imageStart c => Sys2Proof.Machine.execImageStart c s
  | .imageStop c => Sys2Proof.Machine.execImageStop c s
  | .imageStatus c => Sys2Proof.Machine.execImageStatus c s
  | .linkCountersRead c => Sys2Proof.Machine.execLinkCountersRead c s
  | .scheduleSet c => Sys2Proof.Machine.execScheduleSet c s
  | .scheduleStatus c => Sys2Proof.Machine.execScheduleStatus c s
  | .slotframeSet c => Sys2Proof.Machine.execSlotframeSet c s
  | .hopseqSet c => Sys2Proof.Machine.execHopseqSet c s
  | .cellWrite c => Sys2Proof.Machine.execCellWrite c s
  | .cellRead c => Sys2Proof.Machine.execCellRead c s
  | .guardClassSet c => Sys2Proof.Machine.execGuardClassSet c s
  | .rendezvousSet c => Sys2Proof.Machine.execRendezvousSet c s
  | .rendezvousRead c => Sys2Proof.Machine.execRendezvousRead c s
  | .downlinkPurge c => Sys2Proof.Machine.execDownlinkPurge c s
  | .subbandSet c => Sys2Proof.Machine.execSubbandSet c s
  | .ledgerRead c => Sys2Proof.Machine.execLedgerRead c s
  | .ledgerLoad c => Sys2Proof.Machine.execLedgerLoad c s
  | .shaperSubscriberSet c => Sys2Proof.Machine.execShaperSubscriberSet c s
  | .shaperServiceSet c => Sys2Proof.Machine.execShaperServiceSet c s
  | .shaperPortSet c => Sys2Proof.Machine.execShaperPortSet c s
  | .shaperRead c => Sys2Proof.Machine.execShaperRead c s
  | .txRecordSet c => Sys2Proof.Machine.execTxRecordSet c s
  | .shortfallRead c => Sys2Proof.Machine.execShortfallRead c s
  | .schedCountersRead c => Sys2Proof.Machine.execSchedCountersRead c s
  | .prefixInsert c => Sys2Proof.Machine.execPrefixInsert c s
  | .prefixDelete c => Sys2Proof.Machine.execPrefixDelete c s
  | .prefixSearch c => Sys2Proof.Machine.execPrefixSearch c s
  | .prefixNext c => Sys2Proof.Machine.execPrefixNext c s
  | .nodeInsert c => Sys2Proof.Machine.execNodeInsert c s
  | .nodeDelete c => Sys2Proof.Machine.execNodeDelete c s
  | .nodeRead c => Sys2Proof.Machine.execNodeRead c s
  | .nodeUpdate c => Sys2Proof.Machine.execNodeUpdate c s
  | .nodeNext c => Sys2Proof.Machine.execNodeNext c s
  | .flushByPort c => Sys2Proof.Machine.execFlushByPort c s
  | .nodeHomeMove c => Sys2Proof.Machine.execNodeHomeMove c s
  | .homeSwitch x => Sys2Proof.Machine.execHomeSwitch x s
  | .fwdTenantSet c => Sys2Proof.Machine.execFwdTenantSet c s
  | .fwdFloodSet c => Sys2Proof.Machine.execFwdFloodSet c s
  | .fwdStatus c => Sys2Proof.Machine.execFwdStatus c s
  | .fwdCountersRead c => Sys2Proof.Machine.execFwdCountersRead c s
  | .bhPortSet c => Sys2Proof.Machine.execBhPortSet c s
  | .bhFilterSet c => Sys2Proof.Machine.execBhFilterSet c s
  | .bhVlanSet c => Sys2Proof.Machine.execBhVlanSet c s
  | .bhEgressSet c => Sys2Proof.Machine.execBhEgressSet c s
  | .bhStatus c => Sys2Proof.Machine.execBhStatus c s
  | .bhCountersRead c => Sys2Proof.Machine.execBhCountersRead c s
  | .herdLinkSet c => Sys2Proof.Machine.execHerdLinkSet c s
  | .herdRouteSet c => Sys2Proof.Machine.execHerdRouteSet c s
  | .herdLinkStatus c => Sys2Proof.Machine.execHerdLinkStatus c s
  | .herdCountersRead c => Sys2Proof.Machine.execHerdCountersRead c s
  | .apertureSet c => Sys2Proof.Machine.execApertureSet c s
  | .dmaEngineSet c => Sys2Proof.Machine.execDmaEngineSet c s
  | .dmaEngineStop c => Sys2Proof.Machine.execDmaEngineStop c s
  | .dmaStatus c => Sys2Proof.Machine.execDmaStatus c s
  | .pcieStatus c => Sys2Proof.Machine.execPcieStatus c s
  | .tbSelect c => Sys2Proof.Machine.execTbSelect c s
  | .timeStatusRead c => Sys2Proof.Machine.execTimeStatusRead c s
  | .ptpSet c => Sys2Proof.Machine.execPtpSet c s
  | .tbRearm c => Sys2Proof.Machine.execTbRearm c s
  | .tb4Load c => Sys2Proof.Machine.execTb4Load c s
  | .ppsSet c => Sys2Proof.Machine.execPpsSet c s
  | .ppsTodSet c => Sys2Proof.Machine.execPpsTodSet c s
  | .tcSet c => Sys2Proof.Machine.execTcSet c s
  | .herdTimeSet c => Sys2Proof.Machine.execHerdTimeSet c s
  | .surveyRun c => Sys2Proof.Machine.execSurveyRun c s
  | .surveyRead c => Sys2Proof.Machine.execSurveyRead c s
  | .timeCountersRead c => Sys2Proof.Machine.execTimeCountersRead c s
  | .herdIdSet c => Sys2Proof.Machine.execHerdIdSet c s
  | .herdMembersSet c => Sys2Proof.Machine.execHerdMembersSet c s
  | .herdStatus c => Sys2Proof.Machine.execHerdStatus c s
  | .herdLeave c => Sys2Proof.Machine.execHerdLeave c s
  | .foreignSet c => Sys2Proof.Machine.execForeignSet c s
  | .tandemForm c => Sys2Proof.Machine.execTandemForm c s
  | .tandemDissolve c => Sys2Proof.Machine.execTandemDissolve c s
  | .tandemStatus c => Sys2Proof.Machine.execTandemStatus c s
  | .reinsHandover c => Sys2Proof.Machine.execReinsHandover c s
  | .tandemResync c => Sys2Proof.Machine.execTandemResync c s
  | .bridleStatus c => Sys2Proof.Machine.execBridleStatus c s
  | .tandemCountersRead c => Sys2Proof.Machine.execTandemCountersRead c s
  | .vaultStatus c => Sys2Proof.Machine.execVaultStatus c s
  | .slotGenerate c => Sys2Proof.Machine.execSlotGenerate c s
  | .slotImport c => Sys2Proof.Machine.execSlotImport c s
  | .slotRetire c => Sys2Proof.Machine.execSlotRetire c s
  | .slotInfo c => Sys2Proof.Machine.execSlotInfo c s
  | .attest c => Sys2Proof.Machine.execAttest c s
  | .brandCertRead c => Sys2Proof.Machine.execBrandCertRead c s
  | .zoneNextSet c => Sys2Proof.Machine.execZoneNextSet c s
  | .maskSet c => Sys2Proof.Machine.execMaskSet c s
  | .tamperSet c => Sys2Proof.Machine.execTamperSet c s
  | .tamperStatus c => Sys2Proof.Machine.execTamperStatus c s
  | .tamperClear c => Sys2Proof.Machine.execTamperClear c s
  | .vaultZeroise c => Sys2Proof.Machine.execVaultZeroise c s
  | .fwBegin c => Sys2Proof.Machine.execFwBegin c s
  | .fwBlockWrite c => Sys2Proof.Machine.execFwBlockWrite c s
  | .fwStatus c => Sys2Proof.Machine.execFwStatus c s
  | .fwChainSet c => Sys2Proof.Machine.execFwChainSet c s
  | .fwChainResume c => Sys2Proof.Machine.execFwChainResume c s
  | .fwActivate c => Sys2Proof.Machine.execFwActivate c s
  | .fwPolicySet c => Sys2Proof.Machine.execFwPolicySet c s
  | .tackSave c => Sys2Proof.Machine.execTackSave c s
  | .tackRevert c => Sys2Proof.Machine.execTackRevert c s
  | .tackStatus c => Sys2Proof.Machine.execTackStatus c s
  | .tackLock c => Sys2Proof.Machine.execTackLock c s
  | .flashRead c => Sys2Proof.Machine.execFlashRead c s
  | .flashProgram c => Sys2Proof.Machine.execFlashProgram c s
  | .flashErase c => Sys2Proof.Machine.execFlashErase c s
  | .flashStatus c => Sys2Proof.Machine.execFlashStatus c s
  | .flashOperationComplete ok => Sys2Proof.Machine.execFlashOperationComplete ok s
  | .flashSectorReerase sector => Sys2Proof.Machine.execFlashSectorReerase sector s
  | .saddle x => Sys2Proof.Machine.execSaddle x s
  | .refinDetected x => Sys2Proof.Machine.execRefinDetected x s
  | .resetNFall width saved => Sys2Proof.Machine.execResetNFall width saved s
  | .powerFail erasing => Sys2Proof.Machine.execPowerFail erasing s
  | .vinSurge => Sys2Proof.Machine.execVinSurge s
  | .railFault rails => Sys2Proof.Machine.execRailFault rails s
  | .thermalWarn => Sys2Proof.Machine.execThermalWarn s
  | .vbatLow => Sys2Proof.Machine.execVbatLow s
  | .clkLoss => Sys2Proof.Machine.execClkLoss s
  | .datapathRestart => Sys2Proof.Machine.execDatapathRestart s
  | .serdesUnlock => Sys2Proof.Machine.execSerdesUnlock s
  | .dramPllUnlock => Sys2Proof.Machine.execDramPllUnlock s
  | .dramUe x => Sys2Proof.Machine.execDramUe x s
  | .dramScrub corrected dayEnds => Sys2Proof.Machine.execDramScrub corrected dayEnds s
  | .rendezvousIndexRebuild index => Sys2Proof.Machine.execRendezvousIndexRebuild index s
  | .sramParity => Sys2Proof.Machine.execSramParity s
  | .laneLoss p => Sys2Proof.Machine.execLaneLoss p s
  | .laneRelink p arrival => Sys2Proof.Machine.execLaneRelink p arrival s
  | .txLaneFault p => Sys2Proof.Machine.execTxLaneFault p s
  | .sysrefFault p => Sys2Proof.Machine.execSysrefFault p s
  | .rckUnlock r => Sys2Proof.Machine.execRckUnlock r s
  | .rckRelock r => Sys2Proof.Machine.execRckRelock r s
  | .detection d => Sys2Proof.Machine.execDetection d s
  | .preambleTimeout t => Sys2Proof.Machine.execPreambleTimeout t s
  | .syncDecision t k1 k2 tStart => Sys2Proof.Machine.execSyncDecision t k1 k2 tStart s
  | .headerResult t x => Sys2Proof.Machine.execHeaderResult t x s
  | .pilot t offset stop => Sys2Proof.Machine.execPilot t offset stop s
  | .trackLastSymbol t x => Sys2Proof.Machine.execTrackLastSymbol t x s
  | .decoderQueueEntry => Sys2Proof.Machine.execDecoderQueueEntry s
  | .decoderResult x => Sys2Proof.Machine.execDecoderResult x s
  | .decoderSelfCheck ok => Sys2Proof.Machine.execDecoderSelfCheck ok s
  | .levelReport p chains => Sys2Proof.Machine.execLevelReport p chains s
  | .withdrawalDrainComplete q tag => Sys2Proof.Machine.execWithdrawalDrainComplete q tag s
  | .withdrawalDrainTimeout q tag => Sys2Proof.Machine.execWithdrawalDrainTimeout q tag s
  | .beamTableSwap p tx => Sys2Proof.Machine.execBeamTableSwap p tx s
  | .beamParityError p b tx => Sys2Proof.Machine.execBeamParityError p b tx s
  | .portScriptStart p => Sys2Proof.Machine.execPortScriptStart p s
  | .portScriptComplete p cls received => Sys2Proof.Machine.execPortScriptComplete p cls received s
  | .cutJobDispatch => Sys2Proof.Machine.execCutJobDispatch s
  | .cutSubtractionStart job => Sys2Proof.Machine.execCutSubtractionStart job s
  | .cutSubtractionEnd job p => Sys2Proof.Machine.execCutSubtractionEnd job p s
  | .residueDetection job d redemod => Sys2Proof.Machine.execResidueDetection job d redemod s
  | .cutJobComplete job => Sys2Proof.Machine.execCutJobComplete job s
  | .cutJobExpired job progress => Sys2Proof.Machine.execCutJobExpired job progress s
  | .cutEngineFaultRestart => Sys2Proof.Machine.execCutEngineFaultRestart s
  | .cutJobRelease job => Sys2Proof.Machine.execCutJobRelease job s
  | .combiningReport r epoch => Sys2Proof.Machine.execCombiningReport r epoch s
  | .combineDecodeResult set x => Sys2Proof.Machine.execCombineDecodeResult set x s
  | .combineWindowExpiry set => Sys2Proof.Machine.execCombineWindowExpiry set s
  | .cutNotice x => Sys2Proof.Machine.execCutNotice x s
  | .linkEngineFrame => Sys2Proof.Machine.execLinkEngineFrame s
  | .forwardedFrame src h => Sys2Proof.Machine.execForwardedFrame src h s
  | .homeAck x => Sys2Proof.Machine.execHomeAck x s
  | .seenCacheAge src ctr => Sys2Proof.Machine.execSeenCacheAge src ctr s
  | .epochOverlapEnd n => Sys2Proof.Machine.execEpochOverlapEnd n s
  | .cryptoEngineFaultRestart => Sys2Proof.Machine.execCryptoEngineFaultRestart s
  | .imageRoundComplete id => Sys2Proof.Machine.execImageRoundComplete id s
  | .reportWaitExpiry id => Sys2Proof.Machine.execReportWaitExpiry id s
  | .slotBoundary => Sys2Proof.Machine.execSlotBoundary s
  | .cellSelection p asn => Sys2Proof.Machine.execCellSelection p asn s
  | .rendezvousCandidatePass index cell asn => Sys2Proof.Machine.execRendezvousCandidatePass index cell asn s
  | .rendezvousCandidate x => Sys2Proof.Machine.execRendezvousCandidate x s
  | .candidateOutcome x => Sys2Proof.Machine.execCandidateOutcome x s
  | .frameBuild tx => Sys2Proof.Machine.execFrameBuild tx s
  | .coxRequestRise p tx asn => Sys2Proof.Machine.execCoxRequestRise p tx asn s
  | .coxGrantJudged tx grant => Sys2Proof.Machine.execCoxGrantJudged tx grant s
  | .prep tx p => Sys2Proof.Machine.execPrep tx p s
  | .txSwitchOn tx => Sys2Proof.Machine.execTxSwitchOn tx s
  | .paenAssert tx => Sys2Proof.Machine.execPaenAssert tx s
  | .firstSampleRelease tx inTime => Sys2Proof.Machine.execFirstSampleRelease tx inTime s
  | .txUnderrun tx => Sys2Proof.Machine.execTxUnderrun tx s
  | .transmissionEnd tx => Sys2Proof.Machine.execTransmissionEnd tx s
  | .paenRelease tx => Sys2Proof.Machine.execPaenRelease tx s
  | .returnRx tx => Sys2Proof.Machine.execReturnRx tx s
  | .ownTransmissionSpanEnd p => Sys2Proof.Machine.execOwnTransmissionSpanEnd p s
  | .blankAssert k => Sys2Proof.Machine.execBlankAssert k s
  | .blankRelease k => Sys2Proof.Machine.execBlankRelease k s
  | .dlLifetimeExpiry seq => Sys2Proof.Machine.execDlLifetimeExpiry seq s
  | .ledgerSecond => Sys2Proof.Machine.execLedgerSecond s
  | .shaperRefill => Sys2Proof.Machine.execShaperRefill s
  | .bhFrameReceived p f => Sys2Proof.Machine.execBhFrameReceived p f s
  | .forwardedPacket x => Sys2Proof.Machine.execForwardedPacket x s
  | .floodCopy x => Sys2Proof.Machine.execFloodCopy x s
  | .bhFrameTransmit p => Sys2Proof.Machine.execBhFrameTransmit p s
  | .hostTxFrame p => Sys2Proof.Machine.execHostTxFrame p s
  | .bhLinkDown p => Sys2Proof.Machine.execBhLinkDown p s
  | .bhLinkUp p => Sys2Proof.Machine.execBhLinkUp p s
  | .herdFlitReceived l f => Sys2Proof.Machine.execHerdFlitReceived l f s
  | .herdFlitTransmit l => Sys2Proof.Machine.execHerdFlitTransmit l s
  | .herdLinkUp l hid epoch => Sys2Proof.Machine.execHerdLinkUp l hid epoch s
  | .herdReplayTimeout l => Sys2Proof.Machine.execHerdReplayTimeout l s
  | .herdLinkDown l => Sys2Proof.Machine.execHerdLinkDown l s
  | .herdMessageTimeout src vc seq => Sys2Proof.Machine.execHerdMessageTimeout src vc seq s
  | .membershipSend => Sys2Proof.Machine.execMembershipSend s
  | .membershipMessage l present => Sys2Proof.Machine.execMembershipMessage l present s
  | .herdSplit => Sys2Proof.Machine.execHerdSplit s
  | .herdHeal => Sys2Proof.Machine.execHerdHeal s
  | .hostReset kind => Sys2Proof.Machine.execHostReset kind s
  | .dmaPoll e d => Sys2Proof.Machine.execDmaPoll e d s
  | .dmaD2hTransfer e d => Sys2Proof.Machine.execDmaD2hTransfer e d s
  | .dmaHoldoffExpiry e => Sys2Proof.Machine.execDmaHoldoffExpiry e s
  | .delayReqSend b => Sys2Proof.Machine.execDelayReqSend b s
  | .tbStateChange b x => Sys2Proof.Machine.execTbStateChange b x s
  | .revertDelayExpiry => Sys2Proof.Machine.execRevertDelayExpiry s
  | .firstWaitExpiry => Sys2Proof.Machine.execFirstWaitExpiry s
  | .ppsInEdge falling => Sys2Proof.Machine.execPpsInEdge falling s
  | .ppsMissing => Sys2Proof.Machine.execPpsMissing s
  | .ppsOutPulse => Sys2Proof.Machine.execPpsOutPulse s
  | .herdTimeSend => Sys2Proof.Machine.execHerdTimeSend s
  | .herdTimeMessage l ts age => Sys2Proof.Machine.execHerdTimeMessage l ts age s
  | .surveyProbe x => Sys2Proof.Machine.execSurveyProbe x s
  | .sleepCalibration period => Sys2Proof.Machine.execSleepCalibration period s
  | .snap v => Sys2Proof.Machine.execSnap v s
  | .tb4IncHi v => Sys2Proof.Machine.execTb4IncHi v s
  | .gtMatch t => Sys2Proof.Machine.execGtMatch t s
  | .gtCapEdge t falling => Sys2Proof.Machine.execGtCapEdge t falling s
  | .gtClear t v => Sys2Proof.Machine.execGtClear t v s
  | .gtCountWrite t v => Sys2Proof.Machine.execGtCountWrite t v s
  | .gtCompareWrite t v => Sys2Proof.Machine.execGtCompareWrite t v s
  | .gtCaptureRead t => Sys2Proof.Machine.execGtCaptureRead t s
  | .pdVoteWrite d v => Sys2Proof.Machine.execPdVoteWrite d v s
  | .domainIdleGate d ok => Sys2Proof.Machine.execDomainIdleGate d ok s
  | .domainUngate d failures => Sys2Proof.Machine.execDomainUngate d failures s
  | .modeEntryDrainComplete => Sys2Proof.Machine.execModeEntryDrainComplete s
  | .grazeSenseCycle p => Sys2Proof.Machine.execGrazeSenseCycle p s
  | .grazeSenseDecision p peak => Sys2Proof.Machine.execGrazeSenseDecision p peak s
  | .grazeScheduledWake p => Sys2Proof.Machine.execGrazeScheduledWake p s
  | .grazeAutoEntry => Sys2Proof.Machine.execGrazeAutoEntry s
  | .stallWake x => Sys2Proof.Machine.execStallWake x s
  | .mirroredInput asn seq x => Sys2Proof.Machine.execMirroredInput asn seq x s
  | .slotDigest asn digest => Sys2Proof.Machine.execSlotDigest asn digest s
  | .digestMissing => Sys2Proof.Machine.execDigestMissing s
  | .reinsRenewalSend => Sys2Proof.Machine.execReinsRenewalSend s
  | .reinsRenewal path f => Sys2Proof.Machine.execReinsRenewal path f s
  | .reinsRelease f => Sys2Proof.Machine.execReinsRelease f s
  | .revertRequest f => Sys2Proof.Machine.execRevertRequest f s
  | .handoverGrant f => Sys2Proof.Machine.execHandoverGrant f s
  | .alignmentMarker f st => Sys2Proof.Machine.execAlignmentMarker f st s
  | .handoverInstant => Sys2Proof.Machine.execHandoverInstant s
  | .leaseEndHolder => Sys2Proof.Machine.execLeaseEndHolder s
  | .silentTakeover => Sys2Proof.Machine.execSilentTakeover s
  | .reinsLost path => Sys2Proof.Machine.execReinsLost path s
  | .revertHoldExpiry => Sys2Proof.Machine.execRevertHoldExpiry s
  | .bridleVote ch selfTest => Sys2Proof.Machine.execBridleVote ch selfTest s
  | .bridleCheckpoint passed => Sys2Proof.Machine.execBridleCheckpoint passed s
  | .bridleMajorityLoss => Sys2Proof.Machine.execBridleMajorityLoss s
  | .bridleRestartComplete => Sys2Proof.Machine.execBridleRestartComplete s
  | .tamperTrip k => Sys2Proof.Machine.execTamperTrip k s
  | .vaultRemask => Sys2Proof.Machine.execVaultRemask s
  | .fwChainBlock x => Sys2Proof.Machine.execFwChainBlock x s
  | .fwChainAck src epoch count => Sys2Proof.Machine.execFwChainAck src epoch count s
  | .fwChainAckTimeout => Sys2Proof.Machine.execFwChainAckTimeout s
  | .activationPauseEnd => Sys2Proof.Machine.execActivationPauseEnd s
  | .activationTimeout => Sys2Proof.Machine.execActivationTimeout s
  | .activationFirmwareUp passed => Sys2Proof.Machine.execActivationFirmwareUp passed s
  | .tamperSensorInRange k => Sys2Proof.Machine.execTamperSensorInRange k s
  | .rckHopLock r ns => Sys2Proof.Machine.execRckHopLock r ns s
  | .ringOverwrite p oldest => Sys2Proof.Machine.execRingOverwrite p oldest s
  | .nodeCacheWriteBack index => Sys2Proof.Machine.execNodeCacheWriteBack index s
  | .jtagInstruction ir => Sys2Proof.Machine.execJtagInstruction ir s
  | .upDownTurningPoint t => Sys2Proof.Machine.execUpDownTurningPoint t s

end Sys2Proof.Machine
end

