-- ==== Sys2Proof/Machine/TxWave.lean ====
section
/-! DEFINITION. What the transmit lanes carry (R207, R208, R210, R212, R215, R218): the waveform of every transmission on
air, weighted, summed, rounded and saturated. A transmit sample instant is numbered by its device time in units of 40 ns;
times inside a transmission are in units of 2.5 ns, 1/16 sample. -/

namespace Sys2Proof.Machine

/-- The first sample's time at a port in units of 2.5 ns, nearest (R210, R215). -/
def startUnits (x : Tx) (n : Nat) : Nat := (4 * (tabGet x.release n 0#64).toNat + 5) / 10

/-- Time of transmit instant m after the first sample at port n, in units of 2.5 ns. -/
def txElapsed (x : Tx) (n m : Nat) : Nat := 16 * m - startUnits x n

/-- A transmission gives samples to port n at instant m: its first sample has left, and no fast ramp-down has ended. -/
def txLive (x : Tx) (n m : Nat) : Bool :=
  !x.release.isEmpty && decide (startUnits x n ≤ 16 * m) && (x.endAt = 0#64 || decide (40 * m < x.endAt.toNat))

/-- The amplitude in fixed point: ramps inside T_air (R97), and the fall of an early end (R218). -/
def txEnvelope (x : Tx) (n m : Nat) : Int :=
  let a := envelope (rampNs x.ramp x.sf x.bw * 2 / 5) (400 * x.tAir) (txElapsed x n m)
  let fall := x.endAt.toNat - 400
  if x.endAt = 0#64 || 40 * m < fall then a else a * fastFall (40 * m - fall) / fixOne

/-- The oscillator word of a transmission: its carrier from the tuning in force (R210). -/
def txOsc (s : State) (x : Tx) : BitVec 32 :=
  match (txRun s x.plain).fT with
  | some e => oscWord ((x.carrier.toNat : Int) - (entryFreq s x.plain e).toNat)
  | none => 0#32

/-- s_i at instant m for port n, of unit amplitude in fixed point before the envelope: the chirps with continuous phase
(R74), placed at the carrier by the oscillator (R210). -/
def txUnit (s : State) (x : Tx) (n m : Nat) : Int × Int :=
  let u := txElapsed x n m
  frameSample (2 ^ x.sf) x.symbols (u * 2 ^ x.bw) 3200 ((txOsc s x).toInt * u) (16 * 2 ^ 32)

/-- The weight of a plain transmit chain for a transmission: that of the bank it began with (R214); zero for a beam whose
weights are unsound (R122). -/
def txWeight (s : State) (x : Tx) (d : Nat) : Word :=
  if x.oldBank then (tabGet (rxPlain s x.plain).txShadow x.beam []).getD d 0#32
  else if bit (rxPlain s x.plain).txZero x.beam then 0#32
  else (tabGet (txCfg s x.plain).txBank x.beam []).getD d 0#32

/-- The linear amplitude a_i of a transmission with its back-off 1 / TX_MAX_SIM, in units of 2^-32 / 720720 (R212). -/
def txGain (x : Tx) : Nat := levelAmp x.level * (720720 / x.maxSim)

/-- What a transmission adds to plain transmit chain d at port n and instant m, in units of 2^-160 / 720720 of the value
before TX_SHIFT: 32,000 is its peak at 0 dB (R210, R212). -/
def txTerm (s : State) (x : Tx) (n d m : Nat) : Int × Int :=
  let y := weighted (txWeight s x d) (txUnit s x n m)
  let g : Int := 32000 * txGain x * txEnvelope x n m
  (g * y.1, g * y.2)

/-- The first plain transmit chain of a port: the enabled chains of lower-numbered ports come before (R208). -/
def firstTxChain (s : State) (p n : Nat) : Nat :=
  (((portsOf s p).filter (fun k => decide (k < n))).map (fun k => (portCfg s k).txChains)).sum

/-- y_d of transmit chain e of port n at instant m, rounded and not yet saturated (R212). -/
def txScaled (s : State) (p n e m : Nat) : Int × Int :=
  let d := firstTxChain s p n + e
  let y := (((booked s p).filter (fun x => txLive x n m)).map (fun x => txTerm s x n d m)).foldl addPair (0, 0)
  let q := 720720 * 2 ^ (174 + (txCfg s p).txShift)
  (roundAway y.1 q, roundAway y.2 q)

/-- I and Q of transmit chain e of port n at instant m: zero for a chain that is not enabled (R208, R212). -/
def txSample (s : State) (n e m : Nat) : Int × Int :=
  match plainOfPort s n with
  | some p => if (plainCfg s p).enabled && e < (portCfg s n).txChains then saturatePair (txScaled s p n e m) else (0, 0)
  | none => (0, 0)

/-- The sample of converter k on the transmit lane of port n: I of chain k / 2, or its Q (R208). -/
def txConverter (s : State) (n k m : Nat) : BitVec 16 :=
  let x := txSample s n (k / 2) m
  BitVec.ofInt 16 (if k % 2 = 0 then x.1 else x.2)

/-- Octet j of the 16 of a transmit frame: most significant first (R108, R207, R208). -/
def txOctet (s : State) (n m j : Nat) : Byte :=
  let w := txConverter s n (j / 2) m
  if j % 2 = 0 then (w >>> 8).setWidth 8 else w.setWidth 8

/-- The device transmit chain of chain e of port n (R208). -/
def deviceTxChain (n e : Nat) : Nat := 4 * n + e

/-- The saturated samples of a plain's transmit chains at instant m. -/
def txSaturated (s : State) (p m : Nat) : Nat :=
  ((portsOf s p).map (fun n =>
    ((List.range (portCfg s n).txChains).filter (fun e => saturates (txScaled s p n e m))).length)).sum

/-- The saturated samples of a transmit instant counted for each plain (R212, R226). -/
def countTxSamples (s : State) : State :=
  if datapathRuns s && (now s).toNat % 40 = 0 then
    ((List.range 4).filter (fun p => (plainCfg s p).enabled && !(booked s p).isEmpty)).foldl
      (fun t p => countTx 8 p (txSaturated s p ((now s).toNat / 40)) t) s
  else s

end Sys2Proof.Machine
end

