-- ==== Sys2Proof/Machine/Instant.lean ====
section
/-! DEFINITION. What an instant settles before time moves on: the orders of R16 and R62 among what came at it, and the
samples taken at it. -/

namespace Sys2Proof.Machine

/-- The end of the present instant: mirrored inputs (R16, R400), semaphore requests (R62), detections and reports (R16) take
their turn, saturated samples are counted (R118, R212), and idle timers run (R451). -/
def endInstant (s : State) : State :=
  noteVotes (countTxSamples (countBeams (resolveReports (resolveDetections (resolveRequests (resolveMirrored s))))))

end Sys2Proof.Machine
end

