-- ==== Sys2Proof/Machine/Step.lean ====
section
/-! DEFINITION. One step: the command at the front of the queue takes effect; on an empty queue a waiting command
starts, or the instant ends and time advances by one TICK (log 1 and 13). -/

namespace Sys2Proof.Machine

/-- What the device does by itself when no command waits in the queue. -/
def idle (s : State) : State :=
  match nextWaiting s with
  | some w => startWaiting w s
  | none => tick (endInstant s)

/-- One step of the device. -/
def step (s : State) : Host.Outcome State Fault Refusal :=
  match s.pending with
  | [] => .next (idle s)
  | c :: rest => exec c { s with pending := rest }

/-- The state with the command that a table word spells in front: no row of the table gives bits, so none does. -/
def State.withFetchWord (s : State) (nbits w : Nat) : State :=
  match nbits, w with
  | _, _ => s

end Sys2Proof.Machine
end

