-- ==== Sys2Proof/Machine/HostRead.lean ====
section
/-! DEFINITION. What the host reads: the BAR0 map with its access codes (R7, R51-R58, R60, R64, R340, R379-R383, R451, R509)
and device DRAM through BAR2 (R20-R23, R66, R155, R278, R300-R303). -/

namespace Sys2Proof.Machine

/-! ### Registers of BAR0 as they read -/

/-- The identity block (R58). -/
def readIdentity (o : Nat) (s : State) : Word :=
  if o < 0x08 then (if o = 0 then devId else revision)
  else if o = 0x08 then s.dev.fwVersion
  else if o = 0x0C then s.dev.hid.setWidth 32
  else if o = 0x10 then globalStatus s
  else if o = 0x14 then (loHi s.dev.serial).getD 0 0#32
  else if o = 0x18 then (loHi s.dev.serial).getD 1 0#32
  else if o = 0x1C then s.dev.bootEpoch
  else 0#32

/-- The trouble block: TRB0-TRB7, TRB_SUMMARY and the masks (R64). -/
def readTrouble (o : Nat) (s : State) : Word :=
  if o < 0x20 then trbWord s (o / 4)
  else if o = 0x20 then trbSummary s
  else if 0x40 ≤ o && o < 0x60 then trbMask s ((o - 0x40) / 4)
  else 0#32

/-- STATUS of a pannier queue (R54). -/
def statusWord (v : Queue) : Word :=
  w32 (flag v.underrun + 2 * flag v.overflow + 4 * flag v.ptrErr + 8 * flag v.resetFlag + 16 * flag v.cfgRefused)

/-- DEPTH of a pannier queue: words present and complete packets, the latter at most 255 (R51, R508). -/
def depthWord (v : Queue) : Word := w32 (v.words.length % 16777216 + 16777216 * saturate 8 (packetsIn v))

/-- The control block of queue q (R51). -/
def readControl (q o : Nat) (s : State) : Word :=
  if o = 0 then ctrlWord (que s q)
  else if o = 4 then w32 ((que s q).cutThresh % 65536)
  else if o = 8 then statusWord (que s q)
  else depthWord (que s q)

/-- POP_INFO of a pannier queue (R55). -/
def popInfo (v : Queue) : Word :=
  w32 (flag v.popLast + 2 * (v.popBytes % 8) + 16 * flag v.popUnderrun + 32 * flag v.resetFlag)

/-- A 4-byte read in the window of queue q: but for POP_INFO zero, a half of POP included (R55, R509). -/
def readWindow (q o : Nat) (s : State) : Word := if o = 0x20 then popInfo (que s q) else 0#32

/-- ST and TB0-TB4: the 64-bit counter k of the time block. -/
def timeCounter (k : Nat) (s : State) : BitVec 64 := if k = 0 then now s else wholeNs (base s (k - 1)).val

/-- One half of a 64-bit value, as two registers give it. -/
def halfOf (v : BitVec 64) (high : Nat) : Word := (loHi v).getD high 0#32

/-- The time counter block (R379). -/
def readTimeReg (o : Nat) (s : State) : Word :=
  if o < 0x30 then halfOf (timeCounter (o / 8) s) (o % 8 / 4)
  else if o = 0x30 then w32 (s.sched.asn % 4294967296)
  else if o = 0x34 then w32 (s.sched.asn / 4294967296 % 256)
  else if o = 0x38 then timeStatus s
  else if o = 0x3C then s.time.sleepCount
  else if 0x48 ≤ o && o < 0x78 then halfOf (s.time.snap.getD ((o - 0x48) / 8) 0#64) (o % 8 / 4)
  else if o = 0x80 then s.time.incLo
  else if o = 0x84 then halfOf (base s 4).inc 1
  else if o = 0x88 then s.time.sleepPeriod
  else 0#32

/-- The block of gait timer t (R381). -/
def readGait (t o : Nat) (s : State) : Word :=
  let v := gait s t
  if o = 0x00 then v.ctrl
  else if o = 0x04 then v.count
  else if o = 0x08 then v.compare
  else if o = 0x0C then v.interval
  else if o = 0x10 then v.top
  else if o = 0x14 then v.capture
  else if o = 0x18 then v.status
  else 0#32

/-- The block of power domain d (R451). -/
def readDomain (d o : Nat) (s : State) : Word :=
  if 47 ≤ d then 0#32
  else if o = 0 then voteWord s d
  else if o = 4 then (pdom s d).policy
  else if o = 8 then domainWord s d
  else 0#32

/-- What a 4-byte read at a BAR0 offset returns (R57): WO and W1P registers and reserved space give zero (R7). -/
def readReg (off : Nat) (s : State) : Word :=
  if off < 0x1000 then readIdentity off s
  else if off < 0x2000 then readTrouble (off - 0x1000) s
  else if off < 0x2200 then (if off % 8 = 0 then acquireWord (sem s ((off - 0x2000) / 8)) (agentCode .host) else 0#32)
  else if off < 0x4000 then 0#32
  else if off < 0x8000 then readControl ((off - 0x4000) / 16) (off % 16) s
  else if off < 0x10000 then 0#32
  else if off < 0x20000 then readWindow ((off - 0x10000) / 64) (off % 64) s
  else if off < 0x21000 then readTimeReg (off - 0x20000) s
  else if off < 0x21200 then readGait ((off - 0x21000) / 32) (off % 32) s
  else if off < 0x30000 then 0#32
  else if off < 0x31000 then readDomain ((off - 0x30000) / 16) (off % 16) s
  else 0#32

/-- What a 4-byte read does: SEM_ACQ acquires (R60) and GT_CAPTURE clears CAP_FULL (R377); every other changes nothing. -/
def afterRead (off : Nat) (s : State) : State :=
  if 0x2000 ≤ off && off < 0x2200 && off % 8 = 0 then
    let n := (off - 0x2000) / 8
    setSem s n (acquireSem (sem s n) (agentCode .host)).2
  else if 0x21000 ≤ off && off < 0x21200 && off % 32 = 0x14 then
    let t := (off - 0x21000) / 32
    setGait s t { gait s t with status := setBit (gait s t).status 1 false }
  else s

/-- The offset is POP of some queue's window. -/
def isPop (off : Nat) : Bool := inWindows off && off % 64 = 0x10

/-- A host read of 4 or 8 bytes at a supported BAR0 offset: its value, and the state after it. An 8-byte read of POP pops;
any other gives two registers, the lower in [31:0]. -/
def readBar0 (off : Nat) (wide : Bool) (s : State) : BitVec 64 × State :=
  if !wide then ((readReg off s).setWidth 64, afterRead off s)
  else if isPop off then
    let t := hostPop ((off - 0x10000) / 64) s
    (t.out.reads.getLastD 0#64, { t with out := { t.out with reads := s.out.reads } })
  else ((readReg (off + 4) s).setWidth 64 <<< 32 ||| (readReg off s).setWidth 64, afterRead (off + 4) (afterRead off s))

/-! ### Device DRAM through BAR2 (R20-R22, R341) -/

/-- Byte k of a word, little-endian. -/
def wordByte (w : Word) (k : Nat) : Byte := (w >>> (8 * k)).setWidth 8

/-- Byte k of a list of words. -/
def wordsByte (l : List Word) (k : Nat) : Byte := wordByte (l.getD (k / 4) 0#32) (k % 4)

/-- The write number of the sample instant that slot j of plain p's ring holds, when one has been written there. -/
def slotInstant (s : State) (p j : Nat) : Option Nat :=
  let n := written s p
  let r := ringInstants s p
  if r = 0 then none
  else
    let back := (n + r - 1 - j) % r
    if back < n then some (n - 1 - back) else none

/-- A byte of the sample store: sample instants of 32 bytes a port, each chain's I and Q in its order (R108, R152, R155). -/
def ringByte (s : State) (a : Nat) : Byte :=
  match ringOf s a with
  | some p =>
    let o := a - (cutPlain s p).ringBase
    let size := 32 * (portsOf s p).length
    match slotInstant s p (o / size) with
    | some i => wordByte (sampleWord (storedSample s p (o % size / 4) (instantTime s p i / 80))) (o % 4)
    | none => Config.dramOctet (now s).toNat a
  | none => Config.dramOctet (now s).toNat a

/-- A byte of the node table as DRAM holds it (R302, R303); a position without a record has VALID 0. -/
def nodeByte (s : State) (i k a : Nat) : Byte :=
  match tabFind s.fwd.dram i with
  | some r => wordsByte (nodeWords s r) k
  | none => if k = 4 then Config.dramOctet (now s).toNat a &&& 0xEF#8 else Config.dramOctet (now s).toNat a

/-- The trouble-log entry at a ring position (R66). -/
def entryAt (s : State) (pos : Nat) : Option LogEntry :=
  let n := s.trb.log.length
  let back := (s.trb.logPos + logSize - 1 - pos) % logSize
  if back < n then s.trb.log[n - 1 - back]? else none

/-- The bucket of sub-band k that a ledger place holds: places go by second, modulo 86,400 (DEDUCED, log 117). -/
def bucketAt (s : State) (k slot : Nat) : Nat :=
  (((band s k).buckets.filter (fun e => e.1 % 86400 = slot)).map (fun e => e.2)).getLastD 0

/-- A byte of the device logs and ledger region, at its offset (R22). -/
def logsByte (s : State) (o a : Nat) : Byte :=
  if o < 0x1000000 then
    match entryAt s (o / 16) with
    | some e => wordsByte (logWords e) (o % 16)
    | none => Config.dramOctet (now s).toNat a
  else if o < 0x3000000 then
    let b := (o - 0x1000000) / 4
    if b < 64 * 86400 then wordByte (w32 (bucketAt s (b / 86400) (b % 86400))) (o % 4) else Config.dramOctet (now s).toNat a
  else if o < 0x3004000 then nodeByte s (nodeLimit + (o - 0x3000000) / 256) (o % 256) a
  else if o < 0x3004400 then wordsByte [s.trb.logNext, w32 s.trb.logPos] (o - 0x3004000)
  else 0#8

/-- A byte of the image staging region; a word with an uncorrectable error reads as a free value (R21, R23). -/
def stagingByte (s : State) (a : Nat) : Byte :=
  if s.mem.bad.contains (a / 8) then Config.dramOctet (now s).toNat a else memGet dramBlank s.mem.dram a

/-- A byte of device DRAM as the host reads it (R20, R21): the spill pool, the rendezvous index and the combining buffers
have no layout of the spec's, and what they read as is a free value (log 117). -/
def dramByte (s : State) (a : Nat) : Byte :=
  if a < 0x600000000 then ringByte s a
  else if a < 0x700000000 then Config.dramOctet (now s).toNat a
  else if a < 0x710000000 then nodeByte s ((a - 0x700000000) / 256) (a % 256) a
  else if a < 0x738000000 then Config.dramOctet (now s).toNat a
  else if a < 0x7F8000000 then stagingByte s a
  else logsByte s (a - 0x7F8000000) a

/-- Device ID and class code of the endpoint (R338). -/
def pciIdentity : BitVec 16 × BitVec 24 := (0x6400#16, 0x028000#24)

/-- Bytes behind the 64-bit BAR pair that begins at BAR n: registers, aperture, MSI-X table and pending bits (R339). -/
def barBytes (n : Nat) : Option Nat :=
  match n with
  | 0 => some 0x100000
  | 2 => some 0x4000000
  | 4 => some 0x2000
  | _ => none

/-- A host read of n bytes at an offset of BAR2: any region (R21, R341). -/
def readBar2 (off n : Nat) (s : State) : List Byte :=
  (List.range n).map (fun i => dramByte s (s.cfg.aperture.toNat + off + i))

end Sys2Proof.Machine
end

