-- ==== Sys2Proof/Machine/Lands.lean ====
section
/-! DEFINITION. The lands of the radio ports and of the reference clocks (R488, R489): row and column of each signal. -/

namespace Sys2Proof.Machine

/-- A signal of a radio port (R488). -/
inductive PortSignal where
  | rxP | rxN | txP | txN | sclk | csN | mosi | miso | tr | txen | paen
  deriving DecidableEq, Repr

/-- First column of port RPn (R488). -/
def portColumn (n : Nat) : Nat := 6 + 2 * n

/-- The land of a signal of port RPn: row, column (R488). -/
def portLand (n : Nat) : PortSignal → String × Nat
  | .rxP => ("A", portColumn n)
  | .rxN => ("A", portColumn n + 1)
  | .txP => ("C", portColumn n)
  | .txN => ("C", portColumn n + 1)
  | .sclk => ("E", portColumn n)
  | .csN => ("E", portColumn n + 1)
  | .mosi => ("F", portColumn n)
  | .miso => ("F", portColumn n + 1)
  | .tr => ("G", portColumn n)
  | .txen => ("G", portColumn n + 1)
  | .paen => ("H", portColumn n)

/-- The lands of RCKp: positive and negative (R489). -/
def rckLands (p : Nat) : (String × Nat) × (String × Nat) := (("K", 6 + 8 * p), ("K", 7 + 8 * p))

/-- The lands of SYSREFp: positive and negative (R489). -/
def sysrefLands (p : Nat) : (String × Nat) × (String × Nat) := (("K", 8 + 8 * p), ("K", 9 + 8 * p))

end Sys2Proof.Machine
end

