-- ==== Sys2Proof/WellFormed.lean ====
section
/-! DEFINITION. Well-formed commands: the types of the operands hold every field to its width, so that only the operands
that choose between rows of the table are checked here. -/

namespace Sys2Proof

open Sys2Proof.Machine

/-- The operands are those of the command's own row: an UNDEFINED_OPCODE has an opcode that no table defines (R39), a
malformed packet ends before its second header word does (R26), ARM, DROP_REST and CTRL.RESET write the bit that orders
them (R510), GT_CLEAR writes CLEAR (R382), a register write is an access that BAR0 supports, and an unsupported request is
none (R340). -/
def wellFormed : Instr → Bool
  | .undefinedOpcode op _ => !opcodeDefined op.toNat
  | .cmdMalformed _ bytes => bytes < 8
  | .arm _ v => bit v 12
  | .dropRest _ v => bit v 13
  | .ctrlReset _ v => bit v 14
  | .gtClear _ v => bit v 29
  | .registerWrite off wide _ => supported off (if wide then 8 else 4)
  | .unsupportedRequest off size _ => !supported off size
  | _ => true

end Sys2Proof
end

