-- ==== Sys2Proof/Safety.lean ====
section
/-! DEFINITION. The vocabulary of the claims: when a host command meets none of the refusals that every command can meet,
and what it then gives. -/

namespace Sys2Proof.Safety

open Sys2Proof.Machine

/-- A host command with opcode op and n parameter words passes every check that does not depend on its own table row: its
queue is served (R347), it is for this device alone (R31, R32), no earlier command holds it back (R29), none of the checks
1 to 6 of R38 on its form ends it, its tag is free (R28), the opcode runs in this mode (R462, R483), and a member
without the reins may execute it (R401). -/
def clear (op n : Nat) (c : Packet) (s : State) : Bool :=
  served s c && !broadcast c && target c = ownHid s && !(ordered c && earlierRuns s c)
    && !capacityFull s && !activationPause s && !(s.pwr.trans.isSome && !runsInTransition op)
    && c.extra = 0 && c.params.length = n && plen c = n && n ≤ 1022 && headerReserved c = 0
    && !tagInFlight s c.tag && opcodeRuns s op && (!nonHolder s || runsWithoutReins op)

/-- A clear command whose own conditions pre hold, on its operands and on the state u in which Bridle has taken its packet
from the head of its queue, is done at once: the next state is the one eff gives from u, with the reply ST_OK of the given
result words posted. -/
def Runs (i : Packet → Instr) (op n : Nat) (pre : Packet → State → Prop) (words : Packet → State → List Word)
    (eff : Packet → State → State) : Prop :=
  ∀ c s, clear op n c s → pre c (takeHead op c s) →
    exec (i c) s = .next (sendReply (entryOf .host op c) .ok (words c (takeHead op c s)) (eff c (takeHead op c s)))

/-- The same for a command whose number of parameter words its own words give. -/
def RunsLen (i : Packet → Instr) (op : Nat) (n : Packet → Nat) (pre : Packet → State → Prop)
    (words : Packet → State → List Word) (eff : Packet → State → State) : Prop :=
  ∀ c s, clear op (n c) c s → pre c (takeHead op c s) →
    exec (i c) s = .next (sendReply (entryOf .host op c) .ok (words c (takeHead op c s)) (eff c (takeHead op c s)))

/-- A clear command that runs on: it is in flight after the effect eff, and is answered later. -/
def RunsOn (i : Packet → Instr) (op n : Nat) (pre : Packet → State → Prop) (eff : Packet → State → State) : Prop :=
  ∀ c s, clear op n c s → pre c (takeHead op c s) →
    exec (i c) s = .next (addInFlight (entryOf .host op c) (eff c (takeHead op c s)))

/-- A clear command that ends with a status other than ST_OK: its reply and no other effect (R37). -/
def Ends (i : Packet → Instr) (op n : Nat) (pre : Packet → State → Prop) (st : Status) : Prop :=
  ∀ c s, clear op n c s → pre c (takeHead op c s) →
    exec (i c) s = .next (sendReply (entryOf .host op c) st [] (takeHead op c s))

/-- A claim whose hypotheses no input meets says nothing: some operands and state meet them. -/
def Meets (op n : Nat) (pre : Packet → State → Prop) : Prop :=
  ∃ c s, clear op n c s ∧ pre c (takeHead op c s)

/-- What stands in every state that the device reaches: both memories in their canonical form; at most 1,024 commands in flight
(R27); at most 1,048,576 entries in the trouble log (R22, R66); the reserved bits of TRB0-TRB7 zero (R6, R65); and TAMPER_COUNT
within its 32 bits (R433). -/
def StateOk (s : State) : Prop :=
  Memory.wf dramBlank s.mem.dram = true ∧ Memory.wf flashBlank s.mem.flash = true ∧ s.cmd.inFlight.length ≤ 1024
    ∧ s.trb.log.length ≤ 1048576 ∧ (∀ n, trbWord s n &&& ~~~ trbDefined n = 0#32) ∧ s.vault.count ≤ 0xFFFFFFFF

end Sys2Proof.Safety
end

