-- ==== Sys2Proof/Certificates/Slice0/Obligations.lean ====
section
/-! DEFINITION. The statements about the model. A clause `Runs i op n pre words eff` says of a host command: with every general
check passed and pre, it is done at once, its next state is eff of the state that Bridle leaves when it takes the packet,
with the reply ST_OK of the result words; `RunsOn` says that it stays in flight. -/

open Sys2Proof Sys2Proof.Machine Sys2Proof.Safety

/-! ### Steps, device and diagnostic commands, queues -/

/-- The command in front of the queue is the one a step carries out, on the rest of the queue. -/
def Obligations.StepRunsFrontCommand : Prop :=
  ∀ (c : Instr) (rest : List Instr) (s : State),
    step { s with pending := c :: rest } = exec c { s with pending := rest }

/-- On an empty queue the block does its own work: the first waiting command that may start starts, and while there is none
what came at this instant is settled and the time bases and timers advance by one TICK (model's choice, log 1 and 13). -/
def Obligations.EmptyQueueIdles : Prop :=
  ∀ s : State, s.pending = [] →
    (nextWaiting s = none → step s = .next (tick (endInstant s)))
      ∧ ∀ w, nextWaiting s = some w → step s = .next (startWaiting w s)

/-- R40, R41, R66, R67, R68: what each device and diagnostic command does and answers.
R40, R43, R50, R53: what each queue command does and answers. -/
def Obligations.DeviceAndQueueCommandsRun : Prop :=
  (Runs .nop 0x0000 0 (fun _ _ => True) (fun _ _ => []) (fun _ u => u)
  ∧ Runs .getIdentity 0x0001 0 (fun _ _ => True)
      (fun _ u => [0x64004B4D#32, 0x000002B1#32, u.dev.fwVersion, u.dev.bootEpoch,
        u.dev.serial.setWidth 32, (u.dev.serial >>> 32).setWidth 32]) (fun _ u => u)
  ∧ Runs .abortCommand 0x0002 1 (fun c u => pn c 0 < 65536 ∧ pn c 0 ≠ c.tag.toNat ∧ ∀ e ∈ u.cmd.inFlight, e.tag.toNat ≠ pn c 0)
      (fun c u => [if u.cmd.doneAt = now u ∧ (pw c 0).setWidth 16 ∈ u.cmd.doneNow then 1#32 else 3#32]) (fun _ u => u)
  ∧ Runs .abortCommand 0x0002 1 (fun c _ => pn c 0 = c.tag.toNat) (fun _ _ => [2#32]) (fun _ u => u)
  ∧ (∀ e : InFlight, Runs .abortCommand 0x0002 1
      (fun c u => pn c 0 = e.tag.toNat ∧ e.tag ≠ c.tag ∧ u.cmd.inFlight.find? (fun x => x.tag = e.tag) = some e)
      (fun _ u => [if e.phase = .held then 1#32 else if notAbortable u e then 2#32 else 0#32])
      (fun _ u => if e.phase = .held ∨ notAbortable u e = true then u else abortCmd e u))
  ∧ (∀ e : InFlight, Runs .abortCommand 0x0002 1
      (fun c u => pn c 0 = e.tag.toNat ∧ e.tag ≠ c.tag ∧ u.cmd.inFlight.find? (fun x => x.tag = e.tag) = some e
        ∧ e.phase ≠ .held ∧ e.opcode ≠ 0x0002 ∧ e.opcode ≠ 0x0004 ∧ ¬ (0x0A00 ≤ e.opcode ∧ e.opcode < 0x0B00)
        ∧ ∀ o ∈ u.fw.ops, o.cmd ≠ some (e.queue, e.tag))
      (fun _ _ => [0#32]) (fun _ u => abortCmd e u))
  ∧ Runs .getCommandState 0x0003 1 (fun c _ => pn c 0 < 65536 ∧ pn c 0 ≠ c.tag.toNat)
      (fun c u => [match u.cmd.inFlight.find? (fun e => e.tag.toNat = pn c 0) with
        | none => 0#32
        | some e => match e.phase with
          | .waiting => 1#32
          | .running => 2#32
          | .held => 3#32]) (fun _ u => u)
  ∧ (∀ c s, clear 0x0004 1 c s → pw c 0 = 0x6B656C77#32 →
      let e := entryOf .host 0x0004 c
      let v := abortInFlight (takeHead 0x0004 c s)
      let u : State := { v with dev := { v.dev with resetPending := some (now v + 10000000#64) } }
      exec (.resetDevice c) s = .next (if u.cmd.held = [] ∨ noReply c = true then
          sendReply e .ok [] u
        else holdReply e true (replyWords u c.tag .ok []) (cover 2 [pair16 (statusCode .ok).toNat c.tag.toNat] (noteDone c.tag u))))
  ∧ Runs .soundnessReport 0x0D00 0 (fun _ _ => True)
      (fun _ u => [u.dev.reportSeq, w32 (soundCount u 0 + 256 * soundCount u 1 + 65536 * soundCount u 2)]
        ++ (List.range 20).map (fun i =>
          w32 ((soundness u (i + 1)).state + 256 * (soundness u (i + 1)).instances + 65536 * (soundness u (i + 1)).reason.toNat)))
      (fun _ u => { u with dev := { u.dev with reportSeq := u.dev.reportSeq + 1 } })
  ∧ Runs .selfTestRun 0x0D01 1 (fun c _ => pn c 0 < 1048576)
      (fun c u => [(selfTest ((pw c 0).setWidth 20) u).1.setWidth 32]) (fun c u => (selfTest ((pw c 0).setWidth 20) u).2)
  ∧ Runs .troubleLogRead 0x0D02 2 (fun c _ => 1 ≤ pn c 1 ∧ pn c 1 ≤ 255)
      (fun c u => w32 ((logFrom u (pw c 0)).take (pn c 1)).length :: ((logFrom u (pw c 0)).take (pn c 1)).flatMap logWords)
      (fun _ u => u)
  ∧ Runs .troubleLogClear 0x0D03 0 (fun _ _ => True) (fun _ u => [w32 u.trb.log.length])
      (fun _ u => { u with trb := { u.trb with log := [] } }))
  ∧ (Runs .queueConfigure 0x08C0 3
      (fun c u => pn c 0 ≤ 1023 ∧ pn c 1 ≤ 16384 ∧ pn c 2 ≤ 65528 ∧ pn c 2 % 8 = 0 ∧ (que u (pn c 0)).words = [])
      (fun _ _ => [])
      (fun c u => setQue u (pn c 0) { que u (pn c 0) with cap := pn c 1, cutThresh := pn c 2 })
  ∧ Runs .queueReset 0x08C1 1 (fun c _ => pn c 0 ≤ 1023) (fun c u => [w32 ((que u (pn c 0)).words.length - (emptyQueue (now u) (que u (pn c 0))).words.length)])
      (fun c u => postEvent 0x0002 (pn c 0) 1#32 (setQue u (pn c 0) (emptyQueue (now u) (que u (pn c 0)))))
  ∧ (∀ (t : BitVec 64) (v : Queue), v.pushAt ≠ t → (emptyQueue t v).words = [] ∧ (emptyQueue t v).begun = false
      ∧ (emptyQueue t v).consumer = v.consumer ∧ (emptyQueue t v).cap = v.cap ∧ (emptyQueue t v).ptrErr = v.ptrErr
      ∧ (emptyQueue t v).drops = (if openTail v then (countDrop v).drops else v.drops))
  ∧ Runs .queueStatus 0x08C2 1 (fun c _ => pn c 0 ≤ 1023)
      (fun c u => [w32 (que u (pn c 0)).words.length, w32 (packetsIn (que u (pn c 0))),
        w32 (8 * (que u (pn c 0)).words.length - 1024), w32 (que u (pn c 0)).drops, w32 (que u (pn c 0)).underruns])
      (fun _ u => u)
  ∧ Runs .spillStatus 0x08C3 0 (fun _ _ => True)
      (fun _ u => [w32 (poolUsed u / 4096), w32 (u.que.map (fun e => e.2.cap)).sum]) (fun _ u => u))

/-- R56, R47: a host push appends its word to a queue the host may push into, and a host pop of a queue that MMIO serves takes the
first visible word; every other queue is unchanged, and so is every register outside the queues. -/
def Obligations.QueueWindowsMoveWords : Prop :=
  (∀ (q : Fin 1024) (d : BitVec 64) (s : State), s.dev.mode ≠ .stall → (q.val < 16 ∨ 66 ≤ q.val) → (que s q).consumer = 0b10#2 →
    (que s q).enable = true → (que s q).discard = false → overCap s q 1 = false → overPool s q 1 = false →
      ∃ t, exec (.push q d) s = .next t ∧ (que t q).words = (que s q).words ++ [{ data := d, last := false, bytes := 8 }]
        ∧ (que t q).cap = (que s q).cap ∧ (que t q).drops = (que s q).drops
        ∧ (∀ k, k ≠ q.val → que t k = que s k) ∧ t = { s with que := t.que, out := t.out })
  ∧ (∀ (q : Fin 1024) (d : BitVec 64) (s : State), s.dev.mode ≠ .stall → (q.val < 16 ∨ 66 ≤ q.val) → (que s q).consumer = 0b10#2 →
    (que s q).enable = true → (que s q).discard = false → overCap s q 1 = false → overPool s q 1 = false →
      ∃ t, exec (.pushLast q d) s = .next t
        ∧ (que t q).words = (que s q).words
            ++ [{ data := d, last := true, bytes := if (que s q).lastBytes = 0 then 8 else (que s q).lastBytes }]
        ∧ (que t q).lastBytes = 0 ∧ (que t q).cap = (que s q).cap ∧ (que t q).drops = (que s q).drops
        ∧ (∀ k, k ≠ q.val → que t k = que s k) ∧ t = { s with que := t.que, out := t.out })
  ∧ (∀ (q : Fin 1024) (s : State) (w : QWord) (r : List QWord), (que s q).consumer = 0b00#2 → visible (que s q) = true →
    (que s q).words = w :: r →
      ∃ t, exec (.pop q) s = .next t ∧ (que t q).words = r ∧ (que t q).lastPop = w.data ∧ (que t q).popLast = w.last
        ∧ (que t q).popBytes = w.bytes % 8 ∧ (que t q).popUnderrun = false ∧ (que t q).underrun = (que s q).underrun
        ∧ t.out = { s.out with reads := s.out.reads ++ [w.data] } ∧ (∀ k, k ≠ q.val → que t k = que s k)
        ∧ t = { s with que := t.que, out := t.out })

/-- R47: a pop of an empty MMIO queue gives the last value popped, sets UNDERRUN, and takes nothing. -/
def Obligations.PopUnderrun : Prop :=
  ∀ (q : Fin 1024) (s : State), (que s q).consumer = 0b00#2 → visible (que s q) = false →
    ∃ t, exec (.pop q) s = .next t ∧ t.out = { s.out with reads := s.out.reads ++ [(que s q).lastPop] }
      ∧ (que t q).words = (que s q).words ∧ (que t q).underrun = true ∧ (que t q).popUnderrun = true
      ∧ (que t q).lastPop = (que s q).lastPop ∧ (∀ k, k ≠ q.val → que t k = que s k)
      ∧ t = { s with que := t.que, out := t.out }

/-- R509: POP of a queue that MMIO does not serve returns zero and changes nothing. -/
def Obligations.PopNotServed : Prop :=
  ∀ (q : Fin 1024) (s : State), (que s q).consumer ≠ 0b00#2 →
    exec (.pop q) s = .next { s with out := { s.out with reads := s.out.reads ++ [0#64] } }

/-- R510: what a write of CTRL does, its parts in the order of that rule; the rows of ARM, DROP_REST and RESET are the
writes that set their bit. A reset and a DROP_REST act ahead of what is pushed at the same instant, and the event of a reset is
a push, so it comes last (R51). -/
def Obligations.CtrlWriteInOrder : Prop :=
  ∀ (q : Fin 1024) (v : Word) (s : State) (i : Instr),
    (i = .consumerBinding q v ∨ (i = .arm q v ∧ bit v 12 = true) ∨ (i = .dropRest q v ∧ bit v 13 = true)
      ∨ (i = .ctrlReset q v ∧ bit v 14 = true)) →
    let s1 := if bit v 14 then setQue s q (emptyQueue (now s) (que s q)) else s
    let s2 := if bit v 13 then setQue s1 q (dropRest (now s) (que s1 q)) else s1
    let s3 := setQue s2 q (bindQueue (now s) q (v.setWidth 2) ((v >>> 2).setWidth 4) (que s2 q))
    let s4 := setQue s3 q { que s3 q with vector := (v >>> 6).setWidth 6, enable := bit v 15 }
    let s5 := if bit v 12 then armQueue q s4 else s4
    exec i s = .next (if bit v 14 then postEvent 0x0002 q 1#32 s5 else s5)

/-- R49: a pointer mismatch empties the queue, sets PTR_ERR in its status and in TRB4, and posts a queue-reset event
with detail 0 to Q32, or to Q33 when Q32 failed. -/
def Obligations.PointerMismatchResets : Prop :=
  ∀ (q : Fin 1024) (s : State),
    exec (.queuePointerMismatch q) s =
      .next (postEventTo (if q.val = 32 then 33 else 32) 0x0002 q 0#32
        (raise .ptrErr (setQue s q (noteStatus (now s) 4#5 { emptyQueue (now s) (que s q) with ptrErr := true }))))

/-- R60, R61, R62: what an agent's acquire read and release write do to a semaphore, what a peer's request does as its instant
ends, and which of two requests of one instant comes first. -/
def Obligations.SemaphoresActForAgents : Prop :=
  (∀ (n : Fin 64) (a : Agent) (s : State), (∀ r ∈ s.semReq, (agentCode a).toNat ≤ 64 + r.2.1) → ∃ t w, exec (.semAcq n a) s = .next t ∧
    t.out = { s.out with reads := s.out.reads ++ [w] } ∧ (∀ k, k ≠ n.val → sem t k = sem s k)
    ∧ t = { s with sem := t.sem, out := t.out }
    ∧ match (sem s n).holder with
      | some h => sem t n = sem s n ∧ w = BitVec.ofNat 64 ((if h = agentCode a then 0 else 1) + 256 * h.toNat)
      | none => (sem t n).holder = some (agentCode a) ∧ (sem t n).abandoned = false
          ∧ w = BitVec.ofNat 64 ((if (sem s n).abandoned then 2 else 0) + 256 * (agentCode a).toNat))
  ∧ (∀ (n : Fin 64) (a : Agent) (v : Word) (s : State), bit v 0 = true → (sem s n).holder = some (agentCode a) →
      exec (.semRel n a v) s = .next (setSem s n { sem s n with holder := none }))
  ∧ (∀ (n : Fin 64) (a : Agent) (s : State),
      exec (.semAcq n a) s = exec (.semAcq n a) (resolveBelow (agentCode a).toNat s))
  ∧ (∀ (n : Fin 64) (a : Agent) (v : Word) (s : State), (sem s n).holder ≠ some (agentCode a) →
      ∃ t, exec (.semRel n a v) s = .next t ∧ (∀ k, sem t k = sem s k) ∧ t = { s with sem := t.sem })
  ∧ (∀ (n peer : Fin 64) (r : Bool) (s : State), s.tan.joined = false →
      exec (.semaphoreRequest n peer r) s = .next { s with semReq := s.semReq ++ [(n.val, peer.val, r)] })
  ∧ (∀ (n peer : Fin 64) (s : State), (sem s n).holder = none → (sem s n).abandoned = false →
      let t := resolveRequests { s with semReq := [(n.val, peer.val, false)] }
      (sem t n).holder = some (BitVec.ofNat 8 (0x40 + peer.val)) ∧ t.semReq = []
        ∧ (∀ k, k ≠ n.val → sem t k = sem s k) ∧ t.out.semAnswers = s.out.semAnswers ++ [(peer.val, n.val, 0)]
        ∧ t = { s with sem := t.sem, semReq := [], out := t.out })
  ∧ (∀ (n peer : Fin 64) (s : State), (sem s n).holder = some (BitVec.ofNat 8 (0x40 + peer.val)) →
      let t := resolveRequests { s with semReq := [(n.val, peer.val, true)] }
      (sem t n).holder = none ∧ (∀ k, k ≠ n.val → sem t k = sem s k) ∧ t = { s with sem := t.sem, semReq := [], out := t.out })
  ∧ (∀ (n a b : Fin 64) (l : List (Nat × Nat × Bool)) (s : State), (sem s n).holder = none → a < b →
      (l = [(n.val, a.val, false), (n.val, b.val, false)] ∨ l = [(n.val, b.val, false), (n.val, a.val, false)]) →
      (sem (resolveRequests { s with semReq := l }) n).holder = some (BitVec.ofNat 8 (0x40 + a.val)))

/-- R59, R340, R21, R22: a doorbell counts at the engine bound to its queue, a BAR2 write lands in the staging region alone, a BAR2
read gives its bytes there and zero in the reserved part of the logs region, and an unsupported request is counted as a PCIe error
only. -/
def Obligations.HostAccessesAct : Prop :=
  (∀ (q : Fin 16) (n : Word) (s : State) (e : Nat), s.dev.mode ≠ .stall →
      (List.range 16).find? (fun k => (engine s k).running && !(engine s k).d2h && (engine s k).queue = q.val) = some e →
      exec (.doorbell q n) s = .next (setEngine s e { engine s e with bells := (engine s e).bells + n.toNat }))
  ∧ (∀ (off : BitVec 26) (b : Byte) (s : State) (x : Nat), Memory.wf 0x00#8 s.mem.dram = true →
      s.cfg.aperture.toNat + off.toNat = x → 0x738000000 ≤ x → x < 0x7F8000000 →
      ∃ t, exec (.bar2Write off [b]) s = .next t ∧ memGet 0x00#8 t.mem.dram x = b
        ∧ (∀ y, y ≠ x → memGet 0x00#8 t.mem.dram y = memGet 0x00#8 s.mem.dram y) ∧ t.trb = s.trb)
  ∧ (∀ (off : BitVec 26) (b : Byte) (s : State), ¬ (0x738000000 ≤ s.cfg.aperture.toNat + off.toNat
        ∧ s.cfg.aperture.toNat + off.toNat < 0x7F8000000) →
      ∃ t, exec (.bar2Write off [b]) s = .next t ∧ t.mem.dram = s.mem.dram ∧ trouble t .aperture = true)
  ∧ (∀ (off : Nat) (s : State), 0x738000000 ≤ s.cfg.aperture.toNat + off → s.cfg.aperture.toNat + off < 0x7F8000000 →
      (s.cfg.aperture.toNat + off) / 8 ∉ s.mem.bad →
      readBar2 off 1 s = [memGet 0x00#8 s.mem.dram (s.cfg.aperture.toNat + off)])
  ∧ (∀ (off : Nat) (s : State), 0x7FB004400 ≤ s.cfg.aperture.toNat + off → readBar2 off 1 s = [0#8])
  ∧ (∀ (off : BitVec 20) (size : Nat) (wr : Bool) (s : State), ¬ (size = 4 ∧ off.toNat % 4 = 0) →
      ¬ (size = 8 ∧ off.toNat % 8 = 0) →
      ∃ t, exec (.unsupportedRequest off size wr) s = .next t ∧ trouble t .pcieErr = true
        ∧ t = { s with host := t.host, que := t.que, trb := t.trb, out := t.out })

/-- R26, R31, R34, R35, R39, R41: what becomes of an undefined opcode, a malformed packet, a reply held for room, a command
and a reply that come over the herd, and the reset that RESET_DEVICE has asked for. -/
def Obligations.CommandTrafficMoves : Prop :=
  (∀ (op : BitVec 16) (c : Packet) (s : State), opcodeDefined op.toNat = false → clear op.toNat c.params.length c s →
      exec (.undefinedOpcode op c) s =
        .next (sendReply (entryOf .host op.toNat c) .invalidOpcode [] (takeHead op.toNat c s)))
  ∧ (∀ (q : Fin 16) (n : Nat) (s : State), n < 8 → ∃ t, exec (.cmdMalformed q n) s = .next t
      ∧ trouble t .cmdMalformed = true ∧ t.cmd = { s.cmd with malformed := min (s.cmd.malformed + 1) 0xFFFFFFFF }
      ∧ ∀ k, 16 ≤ k → k < 32 → que t k = que s k)
  ∧ (∀ (q : Fin 16) (h : HeldReply) (rest : List HeldReply) (s : State), s.cmd.held = h :: rest → h.queue = q.val + 16 →
      h.origin = none → (h.final = false ∨ rest = []) → overCap s (q.val + 16) ((h.words.length + 1) / 2) = false →
      exec (.replyRelease q) s = .next (pushPacket (q.val + 16) h.words { s with cmd := { s.cmd with
        held := rest
        inFlight := s.cmd.inFlight.filter (fun e => !(e.queue + 16 = q.val + 16 && e.tag = h.tag && e.phase = .held)) } }))
  ∧ (∀ (src : Fin 64) (c : Packet) (s : State), clear 0x0001 0 c s → noReply c = false → s.tan.joined = false →
      ∃ t, exec (.herdCommand src 0x0001#16 c) s = .next t
        ∧ t.out.herd = s.out.herd ++ [.reply src.val ([BitVec.ofNat 32 c.tag.toNat, w32 (67108864 * ownHid s + 6)]
            ++ identityWords s)]
        ∧ (∀ k, que t k = que s k) ∧ t.cmd = { s.cmd with doneAt := now s, doneNow := t.cmd.doneNow } ∧ c.tag ∈ t.cmd.doneNow)
  ∧ (∀ (r : ReplyIn) (f : Forwarded) (rest : List Forwarded) (s : State), s.cmd.forwarded = f :: rest →
      f.peer = r.src.val → f.tag = r.tag → oldEpoch s r.src.val r.epoch = false → f.noReply = false → s.tan.joined = false →
      overCap s (f.queue + 16) ((r.results.length + 3) / 2) = false →
      exec (.herdReply r) s = .next (pushPacket (f.queue + 16)
        ([BitVec.ofNat 32 (65536 * r.status.toNat + r.tag.toNat), w32 (67108864 * r.src.val + r.results.length)] ++ r.results)
        { s with cmd := { s.cmd with forwarded := rest } }))
  ∧ (∀ (s : State) (x : BitVec 64), s.dev.resetPending = some x → reached s x = true →
      ∃ t, exec .deviceResetInstant s = .next t ∧ t.dev.mode = .saddle ∧ t.dev.cmdReady = false ∧ t.cmd.inFlight = []
        ∧ t.cfg = State.reset.cfg ∧ t.que = State.reset.que ∧ t.trb.regs = State.reset.trb.regs ∧ t.trb.log = s.trb.log
        ∧ t.trb.logNext = s.trb.logNext)

/-- R7, R8, R52, R54-R58, R60, R61, R64, R340, R353, R376, R377, R379, R381-R383, R451, R459, R509: a host write of a BAR0
register completes and acts by that register's access code, a bit that hardware sets at the same instant standing against a write
of 1; reserved space and what is read-only ignore it; in STALL a write of a pannier window or a doorbell is held.
A host read gives each register's word by its access code, zero where it is write-only or reserved, and changes nothing but by
SEM_ACQ, POP and GT_CAPTURE. -/
def Obligations.RegisterWritesAct : Prop :=
  (∀ (s : State) (v : BitVec 64), s.dev.mode ≠ .stall →
    let w : Word := v.setWidth 32
    let wr (off : Nat) : Host.Outcome State Fault Refusal := exec (.registerWrite (BitVec.ofNat 20 off) false v) s
    (∀ n : Fin 8, ∃ t, exec (.registerWrite (BitVec.ofNat 20 (0x1000 + 4 * n.val)) false v) s = .next t
        ∧ trbWord t n = trbWord s n &&& (~~~ w ||| setThisInstant s n) ∧ (∀ k, k ≠ n.val → trbWord t k = trbWord s k)
        ∧ t.trb.masks = s.trb.masks ∧ t.trb.log = s.trb.log)
    ∧ (∀ n, s.trb.setAt ≠ now s → setThisInstant s n = 0#32)
    ∧ (∀ b : TrbBit, s.trb.setAt = now s → b ∈ s.trb.setNow → bit (setThisInstant s (trbReg b)) (trbPos b) = true)
    ∧ (∀ off, off % 4 = 0 → off < 0x1000 → wr off = .next s)
    ∧ (∀ n : Fin 64, wr (0x2000 + 8 * n.val) = .next s)
    ∧ (∀ q : Fin 1024, wr (0x4004 + 16 * q.val) = .next s ∧ wr (0x400C + 16 * q.val) = .next s ∧ wr (0x10010 + 64 * q.val) = .next s
        ∧ wr (0x10020 + 64 * q.val) = .next s)
    ∧ (∀ q : Fin 1024, (que s q).setAt ≠ now s → wr (0x4008 + 16 * q.val) = .next (setQue s q { que s q with
        underrun := (que s q).underrun && !bit w 0, overflow := (que s q).overflow && !bit w 1, ptrErr := (que s q).ptrErr && !bit w 2
        resetFlag := (que s q).resetFlag && !bit w 3, cfgRefused := (que s q).cfgRefused && !bit w 4 }))
    ∧ (∀ q : Fin 1024, wr (0x10018 + 64 * q.val) = .next (setQue s q { que s q with lastBytes := w.toNat % 8 }))
    ∧ wr 0x20040 = exec (.snap w) s ∧ wr 0x20084 = exec (.tb4IncHi w) s
    ∧ (s.cfg.time.discipline = false → wr 0x20080 = .next { s with time := { s.time with incLo := w } })
    ∧ (∀ t : Fin 16, wr (0x21004 + 32 * t.val) = exec (.gtCountWrite t w) s ∧ wr (0x21008 + 32 * t.val) = exec (.gtCompareWrite t w) s
        ∧ wr (0x2100C + 32 * t.val) = .next (setGait s t { gait s t with interval := w })
        ∧ wr (0x21010 + 32 * t.val) = .next (setGait s t { gait s t with top := w }) ∧ wr (0x21014 + 32 * t.val) = .next s
        ∧ (bit w 29 = true → wr (0x21000 + 32 * t.val) = exec (.gtClear t w) s)
        ∧ (bit w 29 = false → wr (0x21000 + 32 * t.val) = .next (setGait s t { gait s t with ctrl := w &&& gtCtrlMask }))
        ∧ ((gait s t).setAt ≠ now s → wr (0x21018 + 32 * t.val)
            = .next (setGait s t { gait s t with status := (gait s t).status &&& ~~~ (w &&& 0xD#32) })))
    ∧ (∀ d : Fin 47, wr (0x30000 + 16 * d.val) = exec (.pdVoteWrite d w) s ∧ wr (0x30008 + 16 * d.val) = .next s
        ∧ (s.tan.joined = false → wr (0x30004 + 16 * d.val) = .next (setPdom d { pdom s d with policy := policyWrite (pdom s d).policy w } s)))
    ∧ (∀ off, off % 4 = 0 → (0x2200 ≤ off ∧ off < 0x4000 ∨ 0x8000 ≤ off ∧ off < 0x10000 ∨ 0x21200 ≤ off ∧ off < 0x30000
        ∨ 0x31000 ≤ off ∧ off < 0x40000) → wr off = .next s)
    ∧ (∀ n : Fin 8, ∃ t, exec (.registerWrite (BitVec.ofNat 20 (0x1040 + 4 * n.val)) false v) s = .next t
        ∧ trbMask t n = v.setWidth 32 ∧ (∀ k, k ≠ n.val → trbMask t k = trbMask s k) ∧ t.trb.regs = s.trb.regs)
    ∧ (∀ n : Fin 64, bit (v.setWidth 32) 0 = true →
        exec (.registerWrite (BitVec.ofNat 20 (0x2004 + 8 * n.val)) false v) s = exec (.semRel n .host (v.setWidth 32)) s)
    ∧ (∀ q : Fin 1024, exec (.registerWrite (BitVec.ofNat 20 (0x4000 + 16 * q.val)) false v) s
        = exec (.consumerBinding q (v.setWidth 32)) s)
    ∧ (∀ q : Fin 1024, exec (.registerWrite (BitVec.ofNat 20 (0x10000 + 64 * q.val)) true v) s = exec (.push q v) s)
    ∧ (∀ q : Fin 1024, exec (.registerWrite (BitVec.ofNat 20 (0x10008 + 64 * q.val)) true v) s = exec (.pushLast q v) s)
    ∧ (∀ q : Fin 1024, exec (.registerWrite (BitVec.ofNat 20 (0x10000 + 64 * q.val)) false v) s = .next s)
    ∧ (∀ q : Fin 16, exec (.registerWrite (BitVec.ofNat 20 (0x40000 + 4 * q.val)) false v) s
        = exec (.doorbell q (v.setWidth 32)) s)
    ∧ (∀ off : BitVec 20, off.toNat % 4 = 0 → 0x40040 ≤ off.toNat → exec (.registerWrite off false v) s = .next s))
  ∧ (∀ (s : State) (v : BitVec 64) (q : Fin 1024), s.dev.mode = .stall →
      exec (.registerWrite (BitVec.ofNat 20 (0x10000 + 64 * q.val)) true v) s = .next { s with pwr := { s.pwr with
        heldPush := s.pwr.heldPush ++ [.reg (BitVec.ofNat 20 (0x10000 + 64 * q.val)) true v] } })
  ∧ (∀ s : State,
    let gives (off : Nat) (w : Word) : Prop := readBar0 off false s = (w.setWidth 64, s)
    gives 0x00 0x64004B4D#32 ∧ gives 0x04 0x000002B1#32 ∧ gives 0x08 s.dev.fwVersion ∧ gives 0x0C (s.dev.hid.setWidth 32)
    ∧ gives 0x10 (globalStatus s) ∧ gives 0x14 (s.dev.serial.setWidth 32) ∧ gives 0x18 ((s.dev.serial >>> 32).setWidth 32)
    ∧ gives 0x1C s.dev.bootEpoch
    ∧ (∀ n : Fin 8, gives (0x1000 + 4 * n.val) (trbWord s n) ∧ gives (0x1040 + 4 * n.val) (trbMask s n)) ∧ gives 0x1020 (trbSummary s)
    ∧ (∀ n : Fin 64, readBar0 (0x2000 + 8 * n.val) false s
          = ((acquireWord (sem s n) 1#8).setWidth 64, setSem s n (acquireSem (sem s n) 1#8).2) ∧ gives (0x2004 + 8 * n.val) 0#32)
    ∧ (∀ q : Fin 1024, gives (0x4000 + 16 * q.val) (ctrlWord (que s q))
        ∧ gives (0x4004 + 16 * q.val) (w32 ((que s q).cutThresh % 65536))
        ∧ gives (0x4008 + 16 * q.val) (w32 (flag (que s q).underrun + 2 * flag (que s q).overflow + 4 * flag (que s q).ptrErr
            + 8 * flag (que s q).resetFlag + 16 * flag (que s q).cfgRefused))
        ∧ gives (0x400C + 16 * q.val)
            (w32 ((que s q).words.length % 16777216 + 16777216 * min (packetsIn (que s q)) 255))
        ∧ gives (0x10020 + 64 * q.val) (w32 (flag (que s q).popLast + 2 * ((que s q).popBytes % 8) + 16 * flag (que s q).popUnderrun
            + 32 * flag (que s q).resetFlag))
        ∧ (∀ o, o % 4 = 0 → o < 64 → o ≠ 0x20 → gives (0x10000 + 64 * q.val + o) 0#32))
    ∧ (∀ t : Fin 16, gives (0x21000 + 32 * t.val) (gait s t).ctrl ∧ gives (0x21004 + 32 * t.val) (gait s t).count
        ∧ gives (0x21008 + 32 * t.val) (gait s t).compare ∧ gives (0x2100C + 32 * t.val) (gait s t).interval
        ∧ gives (0x21010 + 32 * t.val) (gait s t).top ∧ gives (0x21018 + 32 * t.val) (gait s t).status
        ∧ readBar0 (0x21014 + 32 * t.val) false s = ((gait s t).capture.setWidth 64,
            setGait s t { gait s t with status := setBit (gait s t).status 1 false }))
    ∧ (∀ d : Fin 47, gives (0x30000 + 16 * d.val) (voteWord s d) ∧ gives (0x30004 + 16 * d.val) (pdom s d).policy
        ∧ gives (0x30008 + 16 * d.val) (domainWord s d))
    ∧ gives 0x20030 (w32 (s.sched.asn % 4294967296)) ∧ gives 0x20038 (timeStatus s) ∧ gives 0x2003C s.time.sleepCount
    ∧ readBar0 0x20000 true s = (now s, s)
    ∧ (∀ off, off % 4 = 0 → (0x2200 ≤ off ∧ off < 0x4000 ∨ 0x8000 ≤ off ∧ off < 0x10000 ∨ 0x21200 ≤ off ∧ off < 0x30000
        ∨ 0x31000 ≤ off) → gives off 0#32)
    ∧ (∀ q : Fin 1024, (que s q).consumer ≠ 0b00#2 → readBar0 (0x10010 + 64 * q.val) true s = (0#64, s))
    ∧ (∀ (q : Fin 1024) (x : QWord) (r : List QWord), (que s q).consumer = 0b00#2 → visible (que s q) = true →
        (que s q).words = x :: r →
        ∃ t, readBar0 (0x10010 + 64 * q.val) true s = (x.data, t) ∧ (que t q).words = r ∧ t = { s with que := t.que }))

/-- R38: of several statuses that apply to a command on the device that executes it, the first in the order of that rule is
the one of its reply. -/
def Obligations.StatusOrder : Prop :=
  (∀ (c : Packet) (s : State), served s c = true → broadcast c = false → target c = ownHid s → ordered c = false →
    let u := takeHead 0x0003 c s
    let reply (st : Status) (r : List Word) := exec (.getCommandState c) s = .next (sendReply (entryOf .host 0x0003 c) st r u)
    if capacityFull s then reply .refusedCapacity []
    else if activationPause s then reply .retryActivationPause []
    else if packetBytes c ≠ 8 + 4 * plen c ∨ 4096 < packetBytes c then reply .invalidLength []
    else if plen c ≠ 1 then reply .invalidLength []
    else if headerReserved c ≠ 0 ∨ 65536 ≤ pn c 0 then reply .invalidParameter []
    else if tagInFlight s c.tag then reply .invalidState [1#32]
    else ∃ r, reply .ok [r])
  ∧ Ends .syncSet 0x0204 0 (fun _ _ => True) .invalidLength ∧ Ends .syncSet 0x0204 1 (fun _ _ => True) .invalidLength
  ∧ (∀ n : Nat, 2 ≤ n → Ends .syncSet 0x0204 n (fun c _ => 4 < pn c 1) .invalidParameter)
  ∧ (∀ n k : Nat, 2 ≤ n → k ≤ 4 → n ≠ 2 + k → Ends .syncSet 0x0204 n (fun c _ => pn c 1 = k) .invalidLength)

/-! ### Trouble, clocks and memory errors -/

/-- R64, R66: a trouble bit that changes from 0 to 1 is set in its register and appended to the log with the next number and
the time; unmasked, it raises vector 0 and posts event 0x0001 when Q32 has room.
R66: a further set of a bit that is set already changes no register and no queue, and adds no entry to the log. -/
def Obligations.TroubleIsLogged : Prop :=
  (∀ (b : TrbBit) (s : State), trouble s b = false → (que s 32).enable = true → overCap s 32 2 = false → overPool s 32 2 = false →
    s.trb.log.length < 1048576 →
    let s1 : State := { s with trb := { s.trb with
      regs := tabSet s.trb.regs (trbReg b) (setBit (trbWord s (trbReg b)) (trbPos b) true)
      log := s.trb.log ++ [{ seq := s.trb.logNext, bit := b, absorbed := 0, time := now s }]
      logNext := s.trb.logNext + 1
      logPos := (s.trb.logPos + 1) % 1048576
      setAt := now s
      setNow := b :: (if s.trb.setAt = now s then s.trb.setNow else []) } }
    raise b s = if bit (trbMask s (trbReg b)) (trbPos b) then
        postEvent 0x0001 (trbReg b) (w32 (trbPos b)) { s1 with out := { s1.out with msi := s1.out.msi ++ [0] } }
      else s1)
  ∧ (∀ (b : TrbBit) (s : State), trouble s b = true →
    ∃ l m, raise b s = { s with trb := { s.trb with log := l, setAt := now s, setNow := b :: m } } ∧ l.length = s.trb.log.length
      ∧ l.map (fun e => (e.seq, e.bit, e.time)) = s.trb.log.map (fun e => (e.seq, e.bit, e.time)))

/-- R19, R23, R65, R497: what the rows of clock loss, supply and memory warnings, DRAM errors and JTAG do. -/
def Obligations.FaultRowsAct : Prop :=
  (∀ s : State, s.dev.clkLost = false →
    let s1 := endAllOnAir .failedHardware (gateRcks s)
    exec .clkLoss s = .next (raise .clkLoss (clockLossTracks { s1 with dev := { s1.dev with clkLost := true } })))
  ∧ (∀ s : State, s.dev.clkLost = true → exec .clkLoss s = .next s)
  ∧ (∀ s : State, ∃ t, exec .clkLoss s = .next t ∧ t.dev.clkLost = true)
  ∧ (∀ (s : State) (r : Nat), r < 4 → (rck (gateRcks s) r).low = true)
  ∧ (∀ s : State, ∃ t, exec .datapathRestart s = .next t ∧ t.dev = { s.dev with clkLost := false } ∧ t = { s with dev := t.dev, cut := t.cut }
      ∧ ∀ p, p < 4 → (cutPlain t p).runs = (if (cutPlain s p).ringSize = 0 ∨ ∃ r ∈ (cutPlain s p).runs, r.stop = none then (cutPlain s p).runs
          else (cutPlain s p).runs ++ [{ start := now s, before := written s p }]))
  ∧ (∀ s : State, exec .serdesUnlock s = .next (raise .serdesUnlock s) ∧ exec .dramPllUnlock s = .next (raise .dramPllUnlock s)
      ∧ exec .vinSurge s = .next (raise .vinSurge s) ∧ exec .thermalWarn s = .next (raise .thermalWarn s)
      ∧ exec .vbatLow s = .next (raise .vbatLow s) ∧ exec .sramParity s = .next (raise .sramParity s))
  ∧ (∀ (rails : Word) (s : State), exec (.railFault rails) s = .next (postEvent 0x0103 0 rails (raise .railFault s)))
  ∧ (∀ (n : Nat) (ends' : Bool) (s : State), ∃ t, exec (.dramScrub n ends') s = .next t
      ∧ t.dev.dramCe = (if ends' then 0 else s.dev.dramCe + n)
      ∧ (1000 < s.dev.dramCe + n → 0 < n → trouble t .dramCe = true))
  ∧ (∀ (x : UeIn) (s : State), 0x738000000 ≤ x.addr.toNat → x.addr.toNat < 0x7F8000000 →
      ∃ t, exec (.dramUe x) s = .next t ∧ trouble t .dramUe = true ∧ x.addr.toNat / 8 ∈ t.mem.bad ∧ t.mem.dram = s.mem.dram)
  ∧ (∀ (x : UeIn) (s : State), 0x600000000 ≤ x.addr.toNat → x.addr.toNat < 0x700000000 →
      ∃ t, exec (.dramUe x) s = .next t ∧ trouble t .dramUe = true
        ∧ (∀ k, k ≠ x.queue.val → k ≠ 32 → que t k = que s k) ∧ t.mem = s.mem)
  ∧ (∀ s : State, s.dev.resetLow = false → exec (.jtagInstruction .extest) s = .next { s with dev := { s.dev with jtagIr := .bypass } })
  ∧ (∀ s : State, exec (.jtagInstruction .idcode) s = .next { s with dev := { s.dev with jtagIr := .idcode } })

/-! ### Receive array -/

/-- R109, R111, R112, R117, R126, R128, R132, R143, R147: the settings of a plain and of a port, while no withdrawal drains on it, and
the periodic SYSREF that the reset setting gives.
R119, R125, R147, R149: what the receive status commands answer; a read of free-running error counts keeps the words it
returns. -/
def Obligations.ReceiveCommandsRun : Prop :=
  (let free (c : Packet) (u : State) : Prop := pn c 0 ≤ 3 ∧ draining u (pn c 0) = false
  let put (c : Packet) (u : State) (v : PlainCfg) : State := setPlainCfg u (pn c 0) v
  let cfg (c : Packet) (u : State) : PlainCfg := plainCfg u (pn c 0)
  (∀ n : Nat, n ≤ 4 → Runs .syncSet 0x0204 (2 + n) (fun c u => free c u ∧ pn c 1 = n ∧ ∀ i, i < n → pn c (2 + i) < 256)
      (fun _ _ => [])
      (fun c u => put c u { cfg c u with sync := (List.range n).map (fun i => (pw c (2 + i)).setWidth 8) }))
  ∧ Runs .detectSet 0x0206 3 (fun c u => free c u ∧ 3 ≤ pn c 1 ∧ pn c 1 ≤ 6 ∧ 40 ≤ pn c 2 ∧ pn c 2 ≤ 200) (fun _ _ => [])
      (fun c u => put c u { cfg c u with detCount := pn c 1, detThresh := pn c 2 })
  ∧ Runs .trackCapSet 0x0207 2 (fun c u => free c u ∧ 1 ≤ pn c 1 ∧ pn c 1 ≤ 4096) (fun _ _ => [])
      (fun c u => put c u { cfg c u with trackCap := pn c 1 })
  ∧ Runs .recordSet 0x0208 4 (fun c u => free c u ∧ 34 ≤ pn c 1 ∧ pn c 1 ≤ 63 ∧ 34 ≤ pn c 2 ∧ pn c 2 ≤ 63 ∧ pn c 3 < 4)
      (fun _ _ => [])
      (fun c u => put c u { cfg c u with recQ := pn c 1, repQ := pn c 2, rawPayload := bit (pw c 3) 0, levels := bit (pw c 3) 1 })
  ∧ Runs .sysrefSet 0x0213 3 (fun c u => free c u ∧ pn c 1 ≤ 2 ∧ 1 ≤ pn c 2 ∧ pn c 2 ≤ 1024) (fun _ _ => [])
      (fun c u => put c u { cfg c u with sysref := pn c 1, sysrefK := pn c 2 })
  ∧ (∀ (p : Nat) (t : BitVec 64) (s : State), (plainCfg s p).sysref = 0 →
      sysrefPulse s p t = decide (t.toNat % (640 * (plainCfg s p).sysrefK) = 0))
  ∧ Runs .levelSet 0x0222 2 (fun c u => free c u ∧ pn c 1 < 65536) (fun _ _ => [])
      (fun c u => put c u { cfg c u with clipLimit := pn c 1 })
  ∧ Runs .portLatencySet 0x0211 2 (fun c u => pn c 0 ≤ 15 ∧ pn c 1 < 65536 ∧ plainOfPort u (pn c 0) = none) (fun _ _ => [0#32])
      (fun c u => setPortCfg u (pn c 0) { portCfg u (pn c 0) with extLatency := pn c 1 })
  ∧ (∀ p : Nat, p < 4 → Runs .portLatencySet 0x0211 2
      (fun c u =>
        let v := setPortCfg u (pn c 0) { portCfg u (pn c 0) with extLatency := pn c 1 }
        pn c 0 ≤ 15 ∧ pn c 1 < 65536 ∧ plainOfPort u (pn c 0) = some p ∧ draining u p = false
        ∧ ∀ m ∈ portsOf v p, plainLatency v p - receiveLatency v m ≤ 5040)
      (fun c u =>
        let v := setPortCfg u (pn c 0) { portCfg u (pn c 0) with extLatency := pn c 1 }
        [w32 ((plainLatency v p - receiveLatency v (pn c 0) + 40) / 80)])
      (fun c u => realign p (setPortCfg u (pn c 0) { portCfg u (pn c 0) with extLatency := pn c 1 })))
  ∧ (∀ p : Nat, p < 4 → Ends .portLatencySet 0x0211 2
      (fun c u =>
        let v := setPortCfg u (pn c 0) { portCfg u (pn c 0) with extLatency := pn c 1 }
        pn c 0 ≤ 15 ∧ pn c 1 < 65536 ∧ plainOfPort u (pn c 0) = some p
        ∧ ∃ m ∈ portsOf v p, 5040 < plainLatency v p - receiveLatency v m) .invalidParameter)
  ∧ Runs .lanePolaritySet 0x0214 2 (fun c u => pn c 0 ≤ 15 ∧ pn c 1 < 4 ∧ inEnabledPlain u (pn c 0) = false) (fun _ _ => [])
      (fun c u => setPortCfg u (pn c 0) { portCfg u (pn c 0) with rxInv := bit (pw c 1) 0, txInv := bit (pw c 1) 1 })
  ∧ (∀ n : Nat, n ≤ 128 → Runs .beamWeightsWrite 0x0230 (3 + n)
      (fun c u => free c u ∧ pn c 1 ≤ 63 ∧ pn c 2 = n ∧ swapPending u (pn c 0) false = false) (fun _ _ => [])
      (fun c u => setRxPlain u (pn c 0)
        { rxPlain u (pn c 0) with shadow := tabSet (rxPlain u (pn c 0)).shadow (pn c 1) ((c.params.drop 3).take n) })))
  ∧ (Runs .plainStatus 0x0202 1 (fun c _ => pn c 0 ≤ 3)
      (fun c u => let v := plainCfg u (pn c 0)
        [v.ports.setWidth 32, if v.enabled then 1#32 else 0#32, w32 v.beams, v.gridMask.setWidth 32, v.sfMask.setWidth 32,
         w32 (u.rx.tracks.filter (fun t => t.plain = pn c 0)).length]) (fun _ u => u)
  ∧ Runs .portStatus 0x0212 1 (fun c _ => pn c 0 ≤ 15)
      (fun c u => [match plainOfPort u (pn c 0) with
          | some p => w32 p
          | none => 0xFFFFFFFF#32,
        w32 (portRun u (pn c 0)).lane, w32 ((portCfg u (pn c 0)).extLatency + 5 * (portRun u (pn c 0)).linkLat),
        w32 (portRun (countCrc (pn c 0) u) (pn c 0)).crcErr, w32 (portRun u (pn c 0)).relinks])
      (fun c u => countCrc (pn c 0) u)
  ∧ Runs .fabricStatus 0x0242 0 (fun _ _ => True)
      (fun _ u => [paddocksIn u, w32 (searchLoad u), w32 (tracksOf u 0), w32 (tracksOf u 1), w32 (tracksOf u 2), w32 (tracksOf u 3),
        w32 (freeTracks u), w32 (decoderDepth u)]) (fun _ u => u)
  ∧ Runs .rxCountersRead 0x0250 2 (fun c _ => pn c 0 ≤ 3 ∧ pn c 1 < 2) (fun c u => (rxPlain u (pn c 0)).counters.map w32)
      (fun c u => if pn c 1 = 1 then setRxPlain u (pn c 0) { rxPlain u (pn c 0) with counters := List.replicate 10 0 } else u)
  ∧ Runs .beamWeightsRead 0x0232 3 (fun c _ => pn c 0 ≤ 3 ∧ pn c 1 ≤ 63 ∧ pn c 2 < 2)
      (fun c u => (List.range (8 * (maskList (plainCfg u (pn c 0)).ports).length)).map (fun i =>
          (tabGet (if pn c 2 = 1 then (rxPlain u (pn c 0)).shadow else (plainCfg u (pn c 0)).bank) (pn c 1) []).getD i 0#32)
        ++ [w32 (tabGet (rxPlain u (pn c 0)).sat (pn c 1) 0)])
      (fun _ u => u))

/-- R103, R106, R110, R120, R125, R139-R142, R148, R520: commands that add or withdraw receive capacity. An addition that the search
budget has no room for is refused. A withdrawal with no track to drain ends at once with 0 tracks aborted; one with tracks in
progress marks them DRAINED and runs on until they end. A calibration waits for its ports to reach data phase. -/
def Obligations.ReceiveCapacityRuns : Prop :=
  let drain (c : Packet) (u : State) (w : Withdrawal) : State :=
    { u with rx := { u.rx with
        tracks := u.rx.tracks.map (fun t => if w.tracks.contains t.num && inProgress t then { t with marks := setBit t.marks 8 true } else t)
        drains := u.rx.drains ++ [{ w with queue := c.queue.val, tag := c.tag, deadline := after u 4000000000 }] } }
  let fresh (c : Packet) (u : State) : Prop := ∀ w ∈ u.rx.drains, w.tag ≠ c.tag
  let moved (c : Packet) (u : State) : State := realign (pn c 0) (movePorts (pn c 0) ((pw c 1).setWidth 16) u)
  let named (c : Packet) (u : State) : Prop := ∀ n ∈ maskList (pw c 1), plainOfPort u n = none ∨ plainOfPort u n = some (pn c 0)
  Runs .plainConfigure 0x0200 3
      (fun c u => pn c 0 ≤ 3 ∧ pn c 1 < 65536 ∧ pn c 2 = 0 ∧ (plainCfg u (pn c 0)).enabled = false ∧ draining u (pn c 0) = false
        ∧ named c u)
      (fun _ _ => []) (fun c u => refreshMode (moved c u))
  ∧ Runs .plainConfigure 0x0200 3
      (fun c u => pn c 0 ≤ 3 ∧ pn c 1 < 65536 ∧ pn c 1 ≠ 0 ∧ pn c 2 = 1 ∧ (plainCfg u (pn c 0)).enabled = false
        ∧ draining u (pn c 0) = false ∧ named c u
        ∧ searchLoadWith (moved c u) (pn c 0) { plainCfg (moved c u) (pn c 0) with enabled := true }
            ≤ 1088 * maskCount (paddocksIn (moved c u)))
      (fun _ _ => []) (fun c u => enablePlain (pn c 0) (moved c u))
  ∧ Ends .plainConfigure 0x0200 3
      (fun c u => pn c 0 ≤ 3 ∧ pn c 1 < 65536 ∧ pn c 1 ≠ 0 ∧ pn c 2 = 1 ∧ (plainCfg u (pn c 0)).enabled = false
        ∧ draining u (pn c 0) = false ∧ named c u
        ∧ 1088 * maskCount (paddocksIn (moved c u))
            < searchLoadWith (moved c u) (pn c 0) { plainCfg (moved c u) (pn c 0) with enabled := true }) .refusedCapacity
  ∧ Ends .plainConfigure 0x0200 3
      (fun c u => pn c 0 ≤ 3 ∧ pn c 1 < 65536 ∧ pn c 2 = 0 ∧ (plainCfg u (pn c 0)).enabled = true ∧ named c u) .invalidState
  ∧ Runs .plainDisable 0x0201 2
      (fun c u => pn c 0 ≤ 3 ∧ pn c 1 < 2 ∧ draining u (pn c 0) = false ∧ (plainCfg u (pn c 0)).enabled = false)
      (fun _ _ => [0#32]) (fun _ u => u)
  ∧ RunsOn .plainDisable 0x0201 2
      (fun c u => pn c 0 ≤ 3 ∧ pn c 1 = 0 ∧ draining u (pn c 0) = false ∧ (plainCfg u (pn c 0)).enabled = true ∧ fresh c u
        ∧ ∃ t ∈ u.rx.tracks, t.plain = pn c 0)
      (fun c u => drain c u {
        queue := 0, tag := 0, plain := some (pn c 0), kind := .plain,
        tracks := (u.rx.tracks.filter (fun t => t.plain = pn c 0)).map (fun t => t.num) })
  ∧ (∀ c s, clear 0x0201 2 c s →
      let u := takeHead 0x0201 c s
      pn c 0 ≤ 3 → pn c 1 = 0 → draining u (pn c 0) = false → (plainCfg u (pn c 0)).enabled = true → fresh c u →
      (∀ t ∈ u.rx.tracks, t.plain ≠ pn c 0) →
      ∃ v, exec (.plainDisable c) s = .next (sendReply (entryOf .host 0x0201 c) .ok [0#32] v) ∧ (plainCfg v (pn c 0)).enabled = false)
  ∧ Runs .chainEnable 0x0203 5
      (fun c u => pn c 0 ≤ 3 ∧ draining u (pn c 0) = false
        ∧ (plainCfg u (pn c 0)).chainMask &&& ~~~ chainWords c &&& allChains u (pn c 0) = 0#128)
      (fun _ _ => [0#32])
      (fun c u => refreshMode (changePlain (pn c 0) { plainCfg u (pn c 0) with chainMask := chainWords c } u))
  ∧ RunsOn .chainEnable 0x0203 5
      (fun c u =>
        let left := (plainCfg u (pn c 0)).chainMask &&& ~~~ chainWords c &&& allChains u (pn c 0)
        pn c 0 ≤ 3 ∧ draining u (pn c 0) = false ∧ left ≠ 0#128 ∧ fresh c u
        ∧ ∃ t ∈ u.rx.tracks, t.plain = pn c 0 ∧ t.job = none ∧ usesChains (plainCfg u (pn c 0)) t.beam left = true)
      (fun c u =>
        let v := plainCfg u (pn c 0)
        let left := v.chainMask &&& ~~~ chainWords c &&& allChains u (pn c 0)
        drain c u {
          queue := 0, tag := 0, plain := some (pn c 0), kind := .chains left, before := v,
          after := { v with chainMask := chainWords c },
          tracks := (u.rx.tracks.filter (fun t => t.plain = pn c 0 && t.job.isNone && usesChains v t.beam left)).map
                      (fun t => t.num) })
  ∧ Runs .searchSet 0x0205 3
      (fun c u => pn c 0 ≤ 3 ∧ pw c 1 &&& 0xFFFF00F0#32 = 0#32 ∧ pn c 2 < 2 ∧ draining u (pn c 0) = false
        ∧ (plainCfg u (pn c 0)).gridMask &&& (pw c 1).setWidth 4 = (plainCfg u (pn c 0)).gridMask
        ∧ (plainCfg u (pn c 0)).sfMask &&& (pw c 1 >>> 8).setWidth 8 = (plainCfg u (pn c 0)).sfMask
        ∧ fitsBudget u (pn c 0) { plainCfg u (pn c 0) with gridMask := (pw c 1).setWidth 4, sfMask := (pw c 1 >>> 8).setWidth 8 } = true)
      (fun _ _ => [0#32])
      (fun c u => refreshMode (changePlain (pn c 0)
        { plainCfg u (pn c 0) with gridMask := (pw c 1).setWidth 4, sfMask := (pw c 1 >>> 8).setWidth 8 } u))
  ∧ Ends .searchSet 0x0205 3
      (fun c u => pn c 0 ≤ 3 ∧ pw c 1 &&& 0xFFFF00F0#32 = 0#32 ∧ pn c 2 < 2 ∧ draining u (pn c 0) = false
        ∧ (plainCfg u (pn c 0)).gridMask &&& (pw c 1).setWidth 4 ≠ (pw c 1).setWidth 4
        ∧ fitsBudget u (pn c 0) { plainCfg u (pn c 0) with gridMask := (pw c 1).setWidth 4, sfMask := (pw c 1 >>> 8).setWidth 8 } = false)
      .refusedCapacity
  ∧ RunsOn .searchSet 0x0205 3
      (fun c u =>
        let v := plainCfg u (pn c 0)
        let sf : BitVec 8 := (pw c 1 >>> 8).setWidth 8
        pn c 0 ≤ 3 ∧ pw c 1 &&& 0xFFFF00F0#32 = 0#32 ∧ pn c 2 = 0 ∧ draining u (pn c 0) = false ∧ fresh c u
        ∧ (pw c 1).setWidth 4 = v.gridMask ∧ v.sfMask &&& sf = sf ∧ v.sfMask ≠ sf ∧ u.dev.mode = .trot
        ∧ ∃ t ∈ u.rx.tracks, t.plain = pn c 0 ∧ t.job = none ∧ bit sf (t.sf - 5) = false)
      (fun c u =>
        let v := plainCfg u (pn c 0)
        let after : PlainCfg := { v with sfMask := (pw c 1 >>> 8).setWidth 8 }
        drain c (refreshMode (setPlainCfg u (pn c 0) after)) {
          queue := 0, tag := 0, plain := some (pn c 0), kind := .search, before := v, after := after,
          tracks := (u.rx.tracks.filter (fun t => t.plain = pn c 0 && t.job.isNone && !(bit v.gridMask t.bw
            && bit after.sfMask (t.sf - 5) && (bit v.beamMask t.beam || !bit v.beamMask t.beam)))).map (fun t => t.num) })
  ∧ Runs .beamEnable 0x0233 4
      (fun c u => pn c 0 ≤ 3 ∧ pn c 3 < 2 ∧ draining u (pn c 0) = false ∧ beamsBelow (p64 c 1) (plainCfg u (pn c 0)).beams = p64 c 1
        ∧ (plainCfg u (pn c 0)).beamMask &&& p64 c 1 = (plainCfg u (pn c 0)).beamMask
        ∧ fitsBudget u (pn c 0) { plainCfg u (pn c 0) with beamMask := p64 c 1 } = true)
      (fun _ _ => [0#32]) (fun c u => refreshMode (changePlain (pn c 0) { plainCfg u (pn c 0) with beamMask := p64 c 1 } u))
  ∧ Ends .beamEnable 0x0233 4
      (fun c u => pn c 0 ≤ 3 ∧ pn c 3 < 2 ∧ beamsBelow (p64 c 1) (plainCfg u (pn c 0)).beams ≠ p64 c 1) .invalidParameter
  ∧ Runs .paddockRestore 0x0241 1 (fun _ _ => True)
      (fun c u => [w32 (maskCount (paddocksIn
        { u with cfg := { u.cfg with rx := { u.cfg.rx with padOut := u.cfg.rx.padOut &&& ~~~ pw c 0 } } }))])
      (fun c u => refreshMode { u with cfg := { u.cfg with rx := { u.cfg.rx with padOut := u.cfg.rx.padOut &&& ~~~ pw c 0 } } })
  ∧ Ends .paddockWithdraw 0x0240 2
      (fun c u => pn c 1 < 2 ∧ 1088 * maskCount (paddocksIn
        { u with cfg := { u.cfg with rx := { u.cfg.rx with padOut := u.cfg.rx.padOut ||| pw c 0 } } }) < searchLoadAll u) .refusedCapacity
  ∧ (∀ c s, clear 0x0240 2 c s → pn c 1 < 2 →
      let u := takeHead 0x0240 c s
      let u1 : State := { u with cfg := { u.cfg with rx := { u.cfg.rx with padOut := u.cfg.rx.padOut ||| pw c 0 } } }
      searchLoadAll u ≤ 1088 * maskCount (paddocksIn u1) → (∀ t ∈ u.rx.tracks, bit (pw c 0) (t.num / 128) = false) →
      fresh c u →
      ∃ v, exec (.paddockWithdraw c) s = .next (sendReply (entryOf .host 0x0240 c) .ok [0#32] (postEvent 0x0203 0xFFFF 0#32 v))
        ∧ v.cfg = u1.cfg ∧ v.que = u.que)
  ∧ RunsOn .paddockWithdraw 0x0240 2
      (fun c u =>
        let u1 : State := { u with cfg := { u.cfg with rx := { u.cfg.rx with padOut := u.cfg.rx.padOut ||| pw c 0 } } }
        pn c 1 = 0 ∧ searchLoadAll u ≤ 1088 * maskCount (paddocksIn u1) ∧ fresh c u
        ∧ ∃ t ∈ u.rx.tracks, bit (pw c 0) (t.num / 128) = true)
      (fun c u =>
        let u1 : State := { u with cfg := { u.cfg with rx := { u.cfg.rx with padOut := u.cfg.rx.padOut ||| pw c 0 } } }
        drain c (refreshMode u1) { queue := 0, tag := 0, plain := none, kind := .paddocks, paddocks := pw c 0 &&& ~~~ u.cfg.rx.padOut
                                   tracks := (u.rx.tracks.filter (fun t => bit (pw c 0) (t.num / 128))).map (fun t => t.num) })
  ∧ Runs .linkCalibrate 0x0210 1
      (fun c u => pn c 0 < 65536 ∧ (∀ n ∈ maskList (pw c 0), inEnabledPlain u n = true ∧ (portRun u n).lane ≠ 0)
        ∧ (∀ p ∈ plainsNamed u (pw c 0), draining u p = false) ∧ spreadPlains (sendSysref (pw c 0) u) (pw c 0) = [])
      (fun c u => (maskList (pw c 0)).map (fun n => pair16 (portRun (calibrate (pw c 0) (sendSysref (pw c 0) u)) n).linkLat
        (portRun (calibrate (pw c 0) (sendSysref (pw c 0) u)) n).arrival)) (fun c u => calibrate (pw c 0) (sendSysref (pw c 0) u))
  ∧ RunsOn .linkCalibrate 0x0210 1
      (fun c u => pn c 0 < 65536 ∧ (∀ n ∈ maskList (pw c 0), inEnabledPlain u n = true) ∧ (∃ n ∈ maskList (pw c 0), (portRun u n).lane = 0)
        ∧ ∀ p ∈ plainsNamed u (pw c 0), draining u p = false)
      (fun c u =>
        let v := sendSysref (pw c 0) u
        { v with rx := { v.rx with calWait := v.rx.calWait ++ [{ queue := c.queue.val, tag := c.tag, mask := pw c 0 }] } })
  ∧ RunsOn .beamTableActivate 0x0231 6
      (fun c u => pn c 0 ≤ 3 ∧ 1 ≤ pn c 1 ∧ pn c 1 ≤ 64 ∧ pn c 2 ≤ 7 ∧ pn c 5 < 256 ∧ asnAhead u (asnWords c) = true
        ∧ draining u (pn c 0) = false ∧ swapPending u (pn c 0) false = false ∧ activationRefused u (pn c 0) (pn c 1) = false
        ∧ bankCrc (rxPlain u (pn c 0)).shadow (pn c 1) (chainsOf u (pn c 0)) = pw c 3)
      (fun c u =>
        let a := if asnWords c = 0 then asnAt u (now u) + 1 else asnWords c
        let w : BeamSwap :=
          { plain := pn c 0, tx := false, count := pn c 1, shift := pn c 2, asn := a, queue := c.queue.val, tag := c.tag }
        { u with rx := { u.rx with swaps := u.rx.swaps ++ [w] } })
  ∧ Ends .beamTableActivate 0x0231 6
      (fun c u => pn c 0 ≤ 3 ∧ 1 ≤ pn c 1 ∧ pn c 1 ≤ 64 ∧ pn c 2 ≤ 7 ∧ pn c 5 < 256 ∧ asnAhead u (asnWords c) = true
        ∧ draining u (pn c 0) = false ∧ swapPending u (pn c 0) false = false ∧ activationRefused u (pn c 0) (pn c 1) = true) .refusedCapacity

/-- R113, R115-R118, R120, R122, R150: what a swap of beam tables, a parity error, the loss and return of a receive lane, a
SYSREF fault and the end of a level window do; a clip count, a mean power within its limits, and a beam's sample: zero where the beam is
not formed, within 16 bits, its sum rounded to the nearest. -/
def Obligations.ReceiveEventsAct : Prop :=
  (∀ (p : Fin 4) (w : BeamSwap) (s : State), s.rx.swaps.find? (fun x => x.plain = p.val && x.tx == false) = some w →
      asnReached (asnAt s (now s)) w.asn = true →
      exec (.beamTableSwap p false) s = .next (complete w.queue w.tag .ok [w32 w.count]
        (swapRx w { s with rx := { s.rx with swaps := s.rx.swaps.erase w } })))
  ∧ (∀ (w : BeamSwap) (s : State), (plainCfg (swapRx w s) w.plain).bank = (rxPlain s w.plain).shadow
      ∧ (plainCfg (swapRx w s) w.plain).beams = w.count ∧ (plainCfg (swapRx w s) w.plain).beamShift = w.shift
      ∧ (rxPlain (swapRx w s) w.plain).shadow = (plainCfg s w.plain).bank
      ∧ ∀ t ∈ (swapRx w s).rx.tracks, t.plain = w.plain → inProgress t = true → t.job = none → bit t.marks 1 = true)
  ∧ (∀ (p : Fin 4) (b : Fin 64) (s : State), ∃ t, exec (.beamParityError p b false) s = .next t
      ∧ bit (rxPlain t p).beamZero b = true ∧ trouble t .beamTableErr = true
      ∧ ∀ x ∈ t.rx.tracks, x.plain = p.val → x.beam = b.val → inProgress x = true → x.job = none → bit x.marks 1 = true)
  ∧ (∀ (n : Fin 16) (p : Nat) (s : State), plainOfPort s n = some p → (plainCfg s p).enabled = true → (portRun s n).lane ≠ 0 →
      ∃ t, exec (.laneLoss n) s = .next t ∧ (portRun t n).lane = 0 ∧ trouble t (.laneFault n) = true
        ∧ ∀ x ∈ t.rx.tracks, x.plain = p → inProgress x = true → x.job = none → bit x.marks 3 = true)
  ∧ (∀ (n : Fin 16) (a : Fin 128) (p : Nat) (s : State), plainOfPort s n = some p → (plainCfg s p).enabled = true →
      (portRun s n).lane = 0 → (portRun s n).release ≠ none → s.rx.calWait = [] →
      ∃ t, exec (.laneRelink n a) s = .next t ∧ (portRun t n).relinks = min ((portRun s n).relinks + 1) 0xFFFFFFFF
        ∧ (portRun t n).lane = (if (portRun s n).arrival = a.val then 1 else 2)
        ∧ ((portRun s n).arrival ≠ a.val → trouble t (.sysrefFault (Fin.ofNat 4 p)) = true))
  ∧ (∀ (p : Fin 4) (s : State), exec (.sysrefFault p) s = .next (raise (.sysrefFault p) s))
  ∧ (∀ (p : Fin 4) (x : List (List Word)) (s : State), (plainCfg s p).enabled = true → s.dev.clkLost = false →
      (rxPlain s p).lastWindow < (now s).toNat / 100000000 → (plainCfg s p).levels = true → x.length = chainsOf s p →
      (∀ l ∈ x, (chainLevel l).2 ≤ (plainCfg s p).clipLimit) →
      exec (.levelReport p x) s = .next (postLevels p (BitVec.ofNat 64 (100000000 * ((now s).toNat / 100000000))) (x.map chainLevel)
        (setRxPlain s p { rxPlain s p with lastWindow := (now s).toNat / 100000000 })))
  ∧ (∀ (p : Fin 4) (x : List (List Word)) (l : List Word) (s : State), (plainCfg s p).enabled = true → s.dev.clkLost = false →
      (rxPlain s p).lastWindow < (now s).toNat / 100000000 → x.length = chainsOf s p → l ∈ x → (plainCfg s p).clipLimit < (chainLevel l).2 →
      ∃ t, exec (.levelReport p x) s = .next t ∧ trouble t (.clip p) = true
        ∧ ∀ u ∈ t.rx.tracks, u.plain = p.val → inProgress u = true → u.job = none → bit u.marks 7 = true)
  ∧ (∀ l : List Word, (chainLevel l).2 = (l.filter (fun (w : Word) => w.setWidth 16 = 0x8000#16 ∨ w.setWidth 16 = 0x7FFF#16
      ∨ (w >>> 16).setWidth 16 = 0x8000#16 ∨ (w >>> 16).setWidth 16 = 0x7FFF#16)).length)
  ∧ (∀ l : List Word, -1000 ≤ meanPower l ∧ meanPower l ≤ 30)
  ∧ (∀ (s : State) (p b m : Nat), beamFormed s p b = false → beamSample s p b m = (0, 0))
  ∧ (∀ (s : State) (p b m : Nat), -32768 ≤ (beamSample s p b m).1 ∧ (beamSample s p b m).1 ≤ 32767
      ∧ -32768 ≤ (beamSample s p b m).2 ∧ (beamSample s p b m).2 ≤ 32767)
  ∧ (∀ (v : Int) (d : Nat), 0 < d → 2 * (roundAway v d * d - v).natAbs ≤ d)

/-- R16, R126-R128, R130-R136, R139, R140, R145, R146, R151, R166, R518: the life of a track from its detection to the decoder's
result, and the end of a withdrawal that drains. A detection competes for a track with the others of its instant in the order of
R16 as the instant ends. -/
def Obligations.TrackEventsAct : Prop :=
  (∀ (d : DetectIn) (s : State), detectable s d = true →
      exec (.detection d) s =
        .next { s with rx := { s.rx with detq := s.rx.detq ++ [{ track := trackOf (plainCfg s d.plain) d 0 }] } })
  ∧ (∀ (d : DetectIn) (s : State), detectable s d = false → exec (.detection d) s = .next s)
  ∧ (∀ (d : DetectIn) (s : State), d.windows.length < (plainCfg s d.plain).detCount → detectable s d = false)
  ∧ (∀ (x : Track) (n : Nat) (s : State), x.job = none → (∀ u ∈ s.rx.tracks, u.job = none → sameFrame u x = false) →
      s.rx.detq = [{ track := x }] → freeContext s x.plain = some n →
      let t := resolveDetections s
      t.rx.detq = [] ∧ t.rx.tracks.map (fun u => u.num) = s.rx.tracks.map (fun u => u.num) ++ [n]
        ∧ (rxPlain t x.plain).counters = listMod (rxPlain s x.plain).counters 0 (fun k => saturate 32 (k + 1)))
  ∧ (∀ (x : Track) (s : State), x.job = none → x.plain < 4 → (∀ u ∈ s.rx.tracks, u.job = none → sameFrame u x = false) →
      s.rx.detq = [{ track := x }] → freeContext s x.plain = none →
      (resolveDetections s).rx.tracks = s.rx.tracks ∧ trouble (resolveDetections s) (.trackOverflow (Fin.ofNat 4 x.plain)) = true)
  ∧ (∀ (x y : Pend) (s : State), keyBefore (pendKey x) (pendKey y) = true → keyBefore (pendKey y) (pendKey x) = false →
      resolveDetections { s with rx := { s.rx with detq := [y, x] } } = resolveDetections { s with rx := { s.rx with detq := [x, y] } })
  ∧ (∀ (n : Fin 4096) (u : Track) (s : State), trackAt s n = some u → u.stage = 0 → u.job = none →
      notBefore (antennaNow s u.plain) (u.inst + BitVec.ofNat 64 (64 * (1000 * symbolUs u.sf u.bw))) = true →
      exec (.preambleTimeout n) s = .next (releaseTrack u.num (countRx 2 u.plain s)))
  ∧ (∀ (n : Fin 4096) (u : Track) (k1 k2 : Nat) (t0 : BitVec 64) (s : State), trackAt s n = some u → u.stage = 0 →
      let v := syncValue (k1 % (256 * 2 ^ u.sf)) (k2 % (256 * 2 ^ u.sf)) u.sf
      exec (.syncDecision n k1 k2 t0) s = .next (if v ∈ (plainCfg s u.plain).sync then
          modTrack u.num (fun x => spanMarks s (antennaNow s x.plain) { x with stage := 1, sync := v, tStart := toTen t0 }) s
        else releaseTrack u.num (countRx 3 u.plain s)))
  ∧ (∀ (s : State) (b : BitVec 64) (u : Track), spanMarks s b u = { u with marks := (spanMarks s b u).marks }
      ∧ (spanMarked s u.plain 2 u.tStart b = true → bit (spanMarks s b u).marks 0 = true)
      ∧ (spanMarked s u.plain 1 u.tStart b = true → bit (spanMarks s b u).marks 3 = true))
  ∧ (∀ (n : Fin 4096) (u : Track) (x : HeaderIn) (s : State), trackAt s n = some u → u.stage = 1 →
      x.shifts.length = headerSymbols u.sf → (headerDecode u.sf u.bw x.shifts).1 = 0 →
      let h := (headerDecode u.sf u.bw x.shifts).2
      let ps := payloadSymbols u.sf u.bw (hdrCr h) (hdrLen h)
      let v : Track := { u with snr := x.snr, power := x.power, offset := x.offset }
      exec (.headerResult n x) s = .next (modTrack u.num (fun _ => { v with
        hdr := some h, hdrFail := 0, stage := 2
        tEnd := toTen (x.stop + BitVec.ofNat 64 (symbolsNs s v (ps + pilotSymbols (hdrPilot h) ps))) }) s))
  ∧ (∀ (s : State) (u : Track) (n : Nat), u.offset = 0#32 → 5000000 < (plainCfg s u.plain).fP.toNat →
      symbolsNs s u n = n * (1000 * symbolUs u.sf u.bw))
  ∧ (∀ (n : Fin 4096) (u : Track) (x : HeaderIn) (s : State), trackAt s n = some u → u.stage = 1 → u.job = none →
      x.shifts.length = headerSymbols u.sf → (headerDecode u.sf u.bw x.shifts).1 ≠ 0 →
      ∃ t, exec (.headerResult n x) s = .next t ∧ trackAt t n = none ∧ t.rx.seq = s.rx.seq + 1)
  ∧ (∀ (n : Fin 4096) (u : Track) (f : Word) (e : BitVec 64) (s : State), trackAt s n = some u → u.stage = 2 → u.pilots = 0 →
      0 < pilotsOf u →
      let v : Track := { u with offset := f, pilots := 1, pilotAt := e }
      exec (.pilot n f e) s =
        .next (modTrack u.num (fun _ => { v with tEnd := toTen (e + BitVec.ofNat 64 (symbolsNs s v (symbolsLeft u - 17))) }) s))
  ∧ (∀ (n : Fin 4096) (u : Track) (f : Word) (e : BitVec 64) (s : State), trackAt s n = some u → u.stage = 2 → 0 < u.pilots →
      u.pilots < pilotsOf u → u.pilotAt < e →
      ∃ v, exec (.pilot n f e) s = .next (modTrack u.num (fun _ => v) s) ∧ v.offset = f ∧ v.pilots = u.pilots + 1
        ∧ v.drift = driftOf u.offset f (e - u.pilotAt).toNat)
  ∧ (∀ (n : Fin 4096) (u : Track) (x : LastIn) (s : State), trackAt s n = some u → u.stage = 2 →
      decoderDepth s < 512 → (∀ w ∈ s.rx.tracks, w.stage ≠ 3) →
      ∃ t v, exec (.trackLastSymbol n x) s = .next t ∧ trackAt t n = none ∧ t.rx.decq = s.rx.decq ++ [v]
        ∧ v = { u with stage := 3, laneT0 := x.lane, snr := x.snr, power := x.power, offset := v.offset, drift := v.drift
                       metrics := v.metrics, marks := v.marks }
        ∧ v.offset = (if u.pilots = 0 then x.offset else u.offset) ∧ v.drift = (if u.pilots < 2 then x.drift else u.drift)
        ∧ v.metrics.length = metricCount u ∧ ∀ k ∈ v.metrics, -127 ≤ k ∧ k ≤ 127)
  ∧ (∀ (n : Fin 4096) (u : Track) (x : LastIn) (s : State), trackAt s n = some u → u.stage = 2 → 512 ≤ decoderDepth s →
      exec (.trackLastSymbol n x) s = .next (modTrack u.num (fun _ => finishTrack s x u) s))
  ∧ (∀ (u : Track) (s : State), firstBy decoderBefore (s.rx.tracks.filter (fun t => t.stage = 3)) = some u → decoderDepth s < 512 →
      s.dev.clkLost = false →
      ∃ t, exec .decoderQueueEntry s = .next t ∧ trackAt t u.num = none ∧ t.rx.decq = s.rx.decq ++ [{ u with waited := true }])
  ∧ (∀ (u : Track) (x : DecodeIn) (s : State), firstBy decoderBefore s.rx.decq = some u → u.job = none →
      decodeOk (hdrLen (u.hdr.getD 0#24)) x = true →
      ∃ t i, exec (.decoderResult x) s = .next t ∧ i ∈ t.rx.linkq ∧ i.member = none ∧ i.joined = now s ∧ t.rx.seq = s.rx.seq + 1
        ∧ i.track.seq = s.rx.seq ∧ i.track.bytes = (infoBytes (hdrLen (u.hdr.getD 0#24)) x.info).take (hdrLen (u.hdr.getD 0#24))
        ∧ i.track.iter = x.iter.val ∧ t.rx.decq = s.rx.decq.erase u)
  ∧ (∀ (u : Track) (x : DecodeIn) (s : State), firstBy decoderBefore s.rx.decq = some u → u.job = none →
      decodeOk (hdrLen (u.hdr.getD 0#24)) x = false →
      ∃ t, exec (.decoderResult x) s = .next t ∧ t.rx.linkq = s.rx.linkq ∧ t.rx.seq = s.rx.seq + 1)
  ∧ (∀ l : List Bool, whiten 0x1FF (whiten 0x1FF l) = l)
  ∧ (∀ s : State, decoderDepth s = 0 → exec (.decoderSelfCheck true) s = .next { s with rx := { s.rx with decoderBad := false } })
  ∧ (∀ s : State, decoderDepth s = 0 → ∃ t, exec (.decoderSelfCheck false) s = .next t ∧ t.rx.decoderBad = true
      ∧ trouble t .decoderFault = true)
  ∧ (∀ (b : Bool) (s : State), decoderDepth s ≠ 0 → exec (.decoderSelfCheck b) s = .next s)
  ∧ (∀ (q : Fin 16) (tag : BitVec 16) (w : Withdrawal) (s : State), withdrawalOf s q tag = some w → w.tracks = [] →
      isModeDrain w = false →
      exec (.withdrawalDrainComplete q tag) s = .next (complete w.queue w.tag .ok [w32 w.aborted] (finishWithdrawal w s)))
  ∧ (∀ (q : Fin 16) (tag : BitVec 16) (w x : Withdrawal) (s : State), withdrawalOf s q tag = some w → reached s w.deadline = true →
      withdrawalOf (timeOut w s) q tag = some x → x.tracks = [] → isModeDrain x = false →
      exec (.withdrawalDrainTimeout q tag) s =
        .next (complete x.queue x.tag .ok [w32 x.aborted] (finishWithdrawal x (timeOut w s))))

/-! ### Cutting and combining -/

/-- R154, R155, R172, R176, R186, R187: what each cutting and combining command does and answers. -/
def Obligations.CuttingCommandsRun : Prop :=
  let due (c : Packet) (u : State) : List CutJob :=
    (u.cut.jobs.filter (fun j => j.state = .awaiting && !reached u (j.endedAt + 1000000000#64)
      && (pw c 0 = 0xFFFFFFFF#32 || j.seq = pw c 0))).take (256 - jobsQueued u)
  Runs .cutSet 0x0300 3
      (fun c u => pn c 0 ≤ 3 ∧ pn c 1 < 8 ∧ 1 ≤ pn c 2 ∧ pn c 2 ≤ 4 ∧ draining u (pn c 0) = false) (fun _ _ => [])
      (fun c u =>
        let v : CutCfg := { enable := bit (pw c 1) 0, autoRetry := bit (pw c 1) 1, events := bit (pw c 1) 2, maxLayer := pn c 2 }
        { u with cfg := { u.cfg with cut := tabSet u.cfg.cut (pn c 0) v } })
  ∧ Runs .cutStatus 0x0301 0 (fun _ _ => True)
      (fun _ u =>
        let count (f : JobState → Bool) : Word := w32 (u.cut.jobs.filter (fun j => f j.state)).length
        [count (fun x => x != .queued && x != .awaiting), count (· = .queued), count (· = .residue), count (· = .awaiting),
         w32 (min 8000 (4000 * (u.cut.jobs.filter (fun j => j.state = .subtracting)).length)),
         w32 ((cutPlain u 0).failed.length + (cutPlain u 1).failed.length + (cutPlain u 2).failed.length + (cutPlain u 3).failed.length)])
      (fun _ u => u)
  ∧ Ends .cutSet 0x0300 3
      (fun c u => pn c 0 ≤ 3 ∧ pn c 1 < 8 ∧ 1 ≤ pn c 2 ∧ pn c 2 ≤ 4 ∧ draining u (pn c 0) = true) .invalidState
  ∧ Runs .cutRetry 0x0302 1 (fun c u => pw c 0 = 0xFFFFFFFF#32 ∨ due c u ≠ []) (fun c u => [w32 (due c u).length])
      (fun c u => (due c u).foldl (fun t j => setJob { j with state := .queued } t) u)
  ∧ Ends .cutRetry 0x0302 1 (fun c u => pw c 0 ≠ 0xFFFFFFFF#32 ∧ due c u = []) .invalidState
  ∧ Runs .storeStatus 0x0303 1 (fun c _ => pn c 0 ≤ 3)
      (fun c u => [w32 (cutPlain u (pn c 0)).ringBase, (BitVec.ofNat 64 (cutPlain u (pn c 0)).ringBase >>> 32).setWidth 32,
        w32 ((cutPlain u (pn c 0)).ringSize / 128), w32 (writeOffset u (pn c 0) / 128), (writeTime u (pn c 0)).setWidth 32,
        (writeTime u (pn c 0) >>> 32).setWidth 32, w32 (ringNs u (pn c 0) / 1000)]) (fun _ u => u)
  ∧ Runs .spanMarksRead 0x0304 3 (fun c _ => pn c 0 ≤ 3 ∧ 1 ≤ pn c 2 ∧ pn c 2 ≤ 128)
      (fun c u =>
        let l := ((cutPlain u (pn c 0)).marks.drop (pn c 1)).take (pn c 2)
        w32 l.length :: l.flatMap (markWords u (pn c 0))) (fun _ u => u)
  ∧ Runs .cutEngineRestart 0x0305 0 (fun _ _ => True)
      (fun _ u => [w32 (u.cut.jobs.filter (fun j => j.state != .awaiting)).length]) (fun _ u => restartCutting u)
  ∧ Runs .combineSet 0x0310 5 (fun c _ => 5 ≤ pn c 2 ∧ pn c 2 ≤ 200 ∧ pn c 3 < 65536 ∧ 34 ≤ pn c 4 ∧ pn c 4 ≤ 63) (fun _ _ => [])
      (fun c u =>
        let v : CombCfg := { mask := p64 c 0, window := pn c 2, minSnr := (pw c 3).setWidth 16, queue := pn c 4 }
        { u with
          cfg := { u.cfg with comb := v }
          comb := { u.comb with
            sets := u.comb.sets.filter (fun x => x.closed)
            counters := listMod u.comb.counters 5
              (fun k => saturate 32 (k + (u.comb.sets.filter (fun x => !x.closed)).length)) } })
  ∧ Runs .combineStatus 0x0311 0 (fun _ _ => True)
      (fun _ u => [w32 (u.comb.sets.filter (setOpen u)).length,
        w32 ((u.comb.sets.filter (setOpen u)).map (fun x => x.reports.length)).sum, w32 u.comb.lastCombiner]) (fun _ u => u)
  ∧ Runs .cutCountersRead 0x0320 2 (fun c _ => pn c 0 ≤ 3 ∧ pn c 1 < 2) (fun c u => (cutPlain u (pn c 0)).counters.map w32)
      (fun c u => if pn c 1 = 1 then setCutPlain u (pn c 0) { cutPlain u (pn c 0) with counters := List.replicate 19 0 } else u)
  ∧ Runs .combineCountersRead 0x0321 1 (fun c _ => pn c 0 < 2) (fun _ u => u.comb.counters.map w32)
      (fun c u => if pn c 0 = 1 then { u with comb := { u.comb with counters := List.replicate 11 0 } } else u)

/-- R23, R154, R158-R160, R162-R164, R166-R172, R175: the life of a cutting job and what the sample ring leaves behind.
R180-R185: reports at the combiner, the result of a combined decode, the end of a window and a cut notice. -/
def Obligations.CuttingAndCombiningEventsAct : Prop :=
  ((∀ (j : CutJob) (s : State), firstBy jobBefore (s.cut.jobs.filter (fun j => j.state = .queued)) = some j → jobsRunning s < 64 →
      exec .cutJobDispatch s = .next (if spanStays s j = true ∧ spanMarked s j.plain 3 j.tStart j.tEnd = false then
          setJob { j with state := .dispatched } s
        else partialCut j j.progress (expireJob j 0 s)))
  ∧ (∀ (j : CutJob) (s : State), jobAt s j.id = some j → j.state = .dispatched → waitsForJob s j = false → readInside s j = false →
      exec (.cutSubtractionStart j.id) s = .next (openCut j (setJob { j with state := .subtracting } s)))
  ∧ (∀ (j : CutJob) (s : State), cutRecOf s j.plain j.id = none →
      (cutPlain (openCut j s) j.plain).cuts = (cutPlain s j.plain).cuts ++ [{ job := j.id, frame := j.frame, upto := j.tStart }])
  ∧ (∀ (j : CutJob) (p : Fin 4) (s : State), jobAt s j.id = some j → j.state = .subtracting → j.plain = p →
      exec (.cutSubtractionEnd j.id p) s =
        .next (startPass (setJob { j with state := .subtracted, progress := 100 } (advanceCut j (j.tEnd + 10#64) s))))
  ∧ (∀ (s : State) (p c m : Nat), (cutPlain s p).cuts = [] → (cutPlain s p).zeros = [] → storedSample s p c m = chainSample s p c m)
  ∧ (∀ (s : State) (p c m : Nat) (x : SpanMark), x ∈ (cutPlain s p).zeros → zeroBy s p c m x = true → storedSample s p c m = (0, 0))
  ∧ (∀ (s : State) (p c m : Nat) (x : CutRec) (l : List CutRec), skipped s p c m = true →
      residueOf s p c (x :: l) m = residueOf s p c l m)
  ∧ (∀ (s : State) (p c m : Nat) (x : CutRec) (l : List CutRec), cutReaches s p c x m = true →
      residueOf s p c (x :: l) m = saturatePair (subtracted s p c x.frame (residueOf s p c l) m))
  ∧ (∀ (j : CutJob) (d : DetectIn) (s : State), jobAt s j.id = some j → j.state = .residue → d.plain.val = j.plain →
      let x := trackOf (plainCfg s j.plain) d 0
      windowsDeclare (plainCfg s j.plain) d = true →
      channelExists d = true → searched s j.plain x = true → inResidueWindow j x = true →
      known s j.plain x = false → touchesBlanked s j.plain x = false →
      ∃ t, exec (.residueDetection j.id d none) s = .next t
        ∧ t.rx.detq = s.rx.detq ++ [{ track := { x with layer := j.layer + 1, job := some j.id } }] ∧ t.rx.tracks = s.rx.tracks)
  ∧ (∀ (j : CutJob) (d : DetectIn) (f : Failed) (x : RedemodIn) (s : State), jobAt s j.id = some j → j.state = .residue →
      d.plain.val = j.plain → failedFor s j x.seq = some f →
      ∃ t y, exec (.residueDetection j.id d (some x)) s = .next t ∧ t.rx.detq = s.rx.detq ++ [{ track := y, redemod := some x.seq }]
        ∧ y.job = some j.id ∧ y.layer = j.layer + 1 ∧ y.marks = 0x00080000#32 ∧ y.tStart = toTen x.tStart ∧ y.offset = x.offset
        ∧ y.stage = (if f.track.hdr.isSome then 2 else 1))
  ∧ (∀ (j : CutJob) (y : Track) (e : Option Word) (n : Nat) (s : State), jobAt s j.id = some j → j.state = .residue → y.job = some j.id →
      s.rx.detq = [{ track := y, redemod := e }] → freeContext s y.plain = some n →
      let t := resolveDetections s
      t.rx.tracks = s.rx.tracks ++ [{ y with num := n }] ∧ ∀ g ∈ (cutPlain t y.plain).failed, e ≠ some g.seq)
  ∧ (∀ (j : CutJob) (s : State), jobAt s j.id = some j → j.state = .residue → untried s j = false →
      (∀ t ∈ s.rx.tracks, t.job ≠ some j.id) → (∀ x ∈ s.rx.detq, x.track.job ≠ some j.id) →
      exec (.cutJobComplete j.id) s = .next (startPass (jobEvent j 0x0301 j.accepted (dropJob j.id s))))
  ∧ (∀ (j : CutJob) (s : State), jobAt s j.id = some j → untried s j = true → exec (.cutJobComplete j.id) s = .next s)
  ∧ (∀ (j : CutJob) (n : Nat) (s : State), jobAt s j.id = some j → j.state = .subtracting → inRing s j.plain j.tStart = false →
      n ≤ 100 → exec (.cutJobExpired j.id n) s = .next (partialCut j n (advanceCut j (progressAt j n) (expireJob j 1 s))))
  ∧ (∀ s : State, exec .cutEngineFaultRestart s = .next (restartCutting s))
  ∧ (∀ s : State, ∃ t, exec .cutEngineFaultRestart s = .next t ∧ trouble t .cutRestart = true)
  ∧ (∀ (j : CutJob) (s : State), jobAt s j.id = some j → j.state = .awaiting → reached s (j.endedAt + 1000000000#64) = true →
      exec (.cutJobRelease j.id) s =
        .next (partialCut j j.progress (jobEvent j 0x0304 j.progress (countCut 7 j.plain 1 (dropJob j.id s)))))
  ∧ (∀ (p : Fin 4) (old : BitVec 64) (s : State), notBefore (oldestAt s p (now s)) old = true →
      ∃ t, exec (.ringOverwrite p old) s = .next t
        ∧ (cutPlain t p).failed = (cutPlain s p).failed.filter (fun f => notBefore f.track.tStart old)
        ∧ (cutPlain t p).decoded = (cutPlain s p).decoded.filter (fun x => notBefore x.tStart old)
        ∧ (∀ m ∈ (cutPlain t p).marks, m ∈ (cutPlain s p).marks)
        ∧ ∀ k, k ≠ p.val → cutPlain t k = cutPlain s k))
  ∧ ((∀ (r : Report) (e : Word) (s : State), oldEpoch s r.hid e = false → s.tan.joined = false →
      exec (.combiningReport r e) s = .next { s with comb := { s.comb with inq := s.comb.inq ++ [(r, e)] } })
  ∧ (∀ (r : Report) (e : Word) (s : State), oldEpoch s r.hid e = true → s.tan.joined = false →
      exec (.combiningReport r e) s = .next (countComb 9 s))
  ∧ (∀ (r : Report) (e : Word) (s : State), (∀ x ∈ s.comb.sets, matchesSet r x = false) →
      (s.comb.sets.filter (setOpen s)).length < 8192 → s.comb.inq = [(r, e)] →
      (resolveReports s).comb.sets = s.comb.sets ++ [{ id := s.comb.nextId, opened := now s, reports := [(r, e)] }]
        ∧ (resolveReports s).comb.inq = [])
  ∧ (∀ (r : Report) (e : Word) (x : CombSet) (s : State),
      s.comb.sets.find? (fun y => setOpen s y && matchesSet r y) = some x → x.reports.length < 8 → s.comb.inq = [(r, e)] →
      let a : CombAttempt := {
        reports := x.reports.length + 1, sums := sumMetrics (x.reports ++ [(r, e)]), queued := decide (decoderDepth s < 512) }
      (resolveReports s).comb.sets = s.comb.sets.map (fun y => if y.id = x.id then
        { x with reports := x.reports ++ [(r, e)], attempts := x.attempts ++ [a] } else y))
  ∧ (∀ (r : Report) (e : Word) (x : CombSet) (s : State),
      s.comb.sets.find? (fun y => setOpen s y && matchesSet r y) = some x → 8 ≤ x.reports.length → s.comb.inq = [(r, e)] →
      (resolveReports s).comb.sets = s.comb.sets ∧ trouble (resolveReports s) .combineDiscard = true)
  ∧ (∀ (y : CombSet) (a : CombAttempt) (b : Report) (x : DecodeIn) (s : State),
      s.comb.sets.find? (fun z => z.id = y.id) = some y → setOpen s y = true → y.attempts.find? (fun k => k.queued) = some a →
      bestReport ((y.reports.take a.reports).map (fun r => r.1)) = some b → decodeOk (hdrLen (headerFrom b.hdr)) x = true →
      ∃ t i, exec (.combineDecodeResult y.id x) s = .next t ∧ i ∈ t.rx.linkq ∧ i.track.combined = a.reports
        ∧ i.track.bytes = (infoBytes (hdrLen (headerFrom b.hdr)) x.info).take (hdrLen (headerFrom b.hdr))
        ∧ ∀ z ∈ t.comb.sets, z.id = y.id → z.closed = true)
  ∧ (∀ (y : CombSet) (s : State), s.comb.sets.find? (fun z => z.id = y.id) = some y → y.closed = false → setOpen s y = false →
      exec (.combineWindowExpiry y.id) s = .next (countComb 5 (setComb { y with closed := true, attempts := [] } s)))
  ∧ (∀ (x : NoticeIn) (s : State), oldEpoch s x.src x.epoch = false → s.herd.leaving = false → s.tan.joined = false →
      exec (.cutNotice x) s = .next (takeNotice x s))
  ∧ (∀ (x : NoticeIn) (s : State), oldEpoch s x.src x.epoch = true → s.tan.joined = false → exec (.cutNotice x) s = .next s))

/-! ### Radio chips and transmit -/

/-- R191, R192, R196-R198, R201, R208: the commands of ports, scripts, calibration entries, tuning and gains. -/
def Obligations.RadioCommandsRun : Prop :=
  let legal (l : List SpiStep) : Prop := ∀ v ∈ l, 8 ≤ v.len ∧ v.len ≤ 40 ∧ ¬ (v.verify = true ∧ v.read = true)
  let cfg (c : Packet) (u : State) : PortCfg := portCfg u (pn c 0)
  Runs .radioSpiSet 0x0400 3
      (fun c u => pn c 0 ≤ 15 ∧ pn c 1 < 1024 ∧ 3 ≤ pf c 1 7 0 ∧ pn c 2 < 256 ∧ pf c 2 5 0 ≤ 39 ∧ inEnabledPlain u (pn c 0) = false
        ∧ ∀ e ∈ (cfg c u).cal, scriptNs (pf c 1 7 0) e.2.steps ≤ 12000) (fun _ _ => [])
      (fun c u =>
        let v : PortCfg := { cfg c u with spiD := pf c 1 7 0, spiMode := pf c 1 9 8, rdPos := pf c 2 5 0, dataWidth := pf c 2 7 6 }
        setPortCfg u (pn c 0) v)
  ∧ (∀ n : Nat, 1 ≤ n → n ≤ 8 → RunsOn .radioScriptRun 0x0401 (2 + 2 * n)
      (fun c _ => pn c 0 ≤ 15 ∧ pn c 1 = n ∧ legal (stepsAt c 2 n))
      (fun c u => queueScript (pn c 0) { cls := 4, steps := stepsAt c 2 n, tag := some (c.queue.val, c.tag) } u))
  ∧ (∀ n : Nat, 1 ≤ n → n ≤ 8 → Runs .calWrite 0x0402 (4 + 2 * n)
      (fun c u => pn c 0 ≤ 15 ∧ pn c 1 ≤ 511 ∧ pf c 3 11 8 = n ∧ pw c 3 &&& ~~~0xFF3#32 = 0#32 ∧ (pf c 3 7 4 ≤ 7 ∨ pf c 3 7 4 = 15)
        ∧ legal (stepsAt c 4 n) ∧ scriptNs (cfg c u).spiD (stepsAt c 4 n) ≤ 12000 ∧ entryInUse u (pn c 0) (pn c 1) = false)
      (fun _ _ => [])
      (fun c u =>
        let e : CalEntry :=
          { freq := pw c 2, rxOk := bit (pw c 3) 0, txOk := bit (pw c 3) 1, rck := pf c 3 7 4, steps := stepsAt c 4 n }
        setPortCfg u (pn c 0) { cfg c u with cal := tabSet (cfg c u).cal (pn c 1) e }))
  ∧ Runs .calRead 0x0403 2 (fun c _ => pn c 0 ≤ 15 ∧ pn c 1 ≤ 511)
      (fun c u =>
        let v := calEntry u (pn c 0) (pn c 1)
        if v.steps = [] then [0#32]
        else [v.freq, w32 (flag v.rxOk + 2 * flag v.txOk + 16 * v.rck + 256 * v.steps.length)] ++ v.steps.flatMap stepWords)
      (fun _ u => u)
  ∧ Runs .plainTune 0x0404 2
      (fun c u => pn c 0 ≤ 3 ∧ pn c 1 ≤ 511 ∧ (plainCfg u (pn c 0)).enabled = false ∧ draining u (pn c 0) = false
        ∧ portsOf u (pn c 0) ≠ []
        ∧ ∀ n ∈ portsOf u (pn c 0), (calEntry u n (pn c 1)).steps ≠ [] ∧ (calEntry u n (pn c 1)).rxOk = true
          ∧ (calEntry u n (pn c 1)).freq = entryFreq u (pn c 0) (pn c 1))
      (fun _ _ => [])
      (fun c u =>
        let u1 := setPlainCfg u (pn c 0)
          { plainCfg u (pn c 0) with fP := entryFreq u (pn c 0) (pn c 1), rxEntry := some (pn c 1) }
        let u2 := setTxRun u1 (pn c 0) { txRun u1 (pn c 0) with fT := some (pn c 1) }
        (portsOf u (pn c 0)).foldl (fun t n => queueScript n { cls := 4, steps := (calEntry u n (pn c 1)).steps } t) u2)
  ∧ (∀ n : Nat, n ≤ 2 → Runs .gainScriptSet 0x0405 (2 + 3 * n)
      (fun c _ => pn c 0 ≤ 127 ∧ pn c 1 = n ∧ ∀ k < n, pw c (4 + 3 * k) &&& ~~~0x1F3F#32 = 0#32
        ∧ legal [(gainStepAt c (2 + 3 * k)).step] ∧ pf c (4 + 3 * k) 5 0 ≤ 39 ∧ 1 ≤ pf c (4 + 3 * k) 12 8
        ∧ pf c (4 + 3 * k) 12 8 ≤ 16 ∧ pf c (4 + 3 * k) 5 0 + pf c (4 + 3 * k) 12 8 ≤ (gainStepAt c (2 + 3 * k)).step.len)
      (fun _ _ => [])
      (fun c u => setChainCfg u (pn c 0)
        { chainCfg u (pn c 0) with script := (List.range n).map (fun k => gainStepAt c (2 + 3 * k)) }))
  ∧ RunsOn .gainSet 0x0220 3
      (fun c u => pn c 0 ≤ 127 ∧ pn c 1 < 65536 ∧ pn c 2 < 2 ∧ (chainCfg u (pn c 0)).script ≠ []
        ∧ ∀ p, plainOfPort u (pn c 0 / 8) = some p → draining u p = false)
      (fun c u => queueScript (pn c 0 / 8)
        { cls := 3, steps := (chainCfg u (pn c 0)).script.map (gainFrame ((pw c 1).setWidth 16)),
          tag := some (c.queue.val, c.tag), chain := pn c 0, gain := (pw c 1).setWidth 16, atSlot := bit (pw c 2) 0,
          boundary := boundaryFrom u (after u (gainNs u (pn c 0))) } u)
  ∧ Ends .gainSet 0x0220 3 (fun c u => pn c 0 ≤ 127 ∧ pn c 1 < 65536 ∧ pn c 2 < 2 ∧ (chainCfg u (pn c 0)).script = []) .invalidState
  ∧ Runs .gainGet 0x0221 1 (fun c _ => pn c 0 ≤ 127) (fun c u => [(chainCfg u (pn c 0)).gain.setWidth 32]) (fun _ u => u)
  ∧ (∀ n : Nat, n ≤ 8 → Runs .returnSet 0x0406 (3 + 2 * n)
      (fun c _ => pn c 0 ≤ 15 ∧ pn c 1 ≤ 2 ∧ pn c 2 = n ∧ legal (stepsAt c 3 n)) (fun _ _ => [])
      (fun c u => setPortCfg u (pn c 0) { cfg c u with returnState := pn c 1, quiet := stepsAt c 3 n }))
  ∧ Runs .txPortSet 0x0407 3
      (fun c u => pn c 0 ≤ 15 ∧ 1 ≤ pn c 1 ∧ pn c 1 ≤ 4 ∧ pn c 2 < 65536 ∧ inEnabledPlain u (pn c 0) = false) (fun _ _ => [])
      (fun c u => setPortCfg u (pn c 0) { cfg c u with txChains := pn c 1, txExtLatency := pn c 2 })
  ∧ Runs .sequencerStatus 0x0450 1 (fun c _ => pn c 0 ≤ 15)
      (fun c u => [w32 (seqCode (seqNow u (pn c 0))),
        match plainOfPort u (pn c 0) with
          | some p => entryWord (txRun u p).fT
          | none => 0xFFFFFFFF#32,
        w32 (cfg c u).returnState, w32 (portRun u (pn c 0)).faults]) (fun _ u => u)

/-- R193, R202, R203, R211, R213, R214, R220, R222, R226: the commands of the transmit chain, of coexistence and of the reference
synthesisers. A plain's settings wait for the next slot boundary. -/
def Obligations.TransmitCommandsRun : Prop :=
  let free (c : Packet) (u : State) : Prop := pn c 0 ≤ 3 ∧ draining u (pn c 0) = false
  Runs .txPlainSet 0x0408 5
      (fun c u => free c u ∧ 1 ≤ pn c 1 ∧ pn c 1 ≤ 70 ∧ 1 ≤ pn c 2 ∧ pn c 2 ≤ 70 ∧ 1 ≤ pn c 3 ∧ pn c 3 ≤ 16 ∧ pn c 4 < 2)
      (fun _ _ => [])
      (fun c u => txChange (pn c 0)
        (fun v => { v with paLead := pn c 1, paLag := pn c 2, maxSim := pn c 3, tuneShared := bit (pw c 4) 0 }) u)
  ∧ Runs .txDefaultsSet 0x0409 4
      (fun c u => free c u ∧ 8 ≤ pn c 1 ∧ pn c 1 ≤ 64 ∧ 4 ≤ pn c 2 ∧ pn c 2 ≤ 256 ∧ pn c 3 < 2) (fun _ _ => [])
      (fun c u => txChange (pn c 0) (fun v => { v with nPre := pn c 1, rampLen := pn c 2, pilot := bit (pw c 3) 0 }) u)
  ∧ Runs .coexSet 0x0420 5
      (fun c u => free c u ∧ pn c 1 ≤ 2 ∧ 200 ≤ pn c 2 ∧ pn c 2 ≤ 20000 ∧ pw c 3 &&& ~~~0xFF03#32 = 0#32 ∧ pn c 4 < 256)
      (fun _ _ => [])
      (fun c u =>
        let u1 := txChange (pn c 0) (fun v => { v with
          coexMode := pn c 1, coxLead := pn c 2, coxPolicy := bit (pw c 3) 0, blankMark := bit (pw c 3) 1,
          blankMap := (pw c 3 >>> 8).setWidth 8 }) u
        changeInputs (setBlankPol ((pw c 4).setWidth 8)) u1)
  ∧ (∀ (v : BitVec 8) (u : State), (∀ p < 4, (txCfg u p).coexMode ≠ 2) → u.radio.txs = [] →
      changeInputs (setBlankPol v) u = { u with cfg := { u.cfg with tx := { u.cfg.tx with blankPol := v } } })
  ∧ (∀ (p : Nat) (f : TxPlainCfg → TxPlainCfg) (u : State), txNext (txChange p f u) p = f (txNext u p)
      ∧ txCfg (txChange p f u) p = txCfg u p)
  ∧ Runs .coexStatus 0x0421 0 (fun _ _ => True)
      (fun _ u => [(sampleGrants u).radio.grants.setWidth 32, u.radio.blank.setWidth 32,
        maskOf 32 ((List.range 4).filter (fun p => (txCfg u p).coexMode = 2
          && (u.radio.blank ^^^ u.cfg.tx.blankPol) &&& (txCfg u p).blankMap != 0#8))]) (fun _ u => sampleGrants u)
  ∧ (∀ n : Nat, n ≤ 128 → Runs .txBeamWeightsWrite 0x0410 (3 + n)
      (fun c u => free c u ∧ pn c 1 ≤ 63 ∧ pn c 2 = n ∧ swapPending u (pn c 0) true = false
        ∧ ∀ x ∈ u.radio.txs, x.plain = pn c 0 → x.oldBank = true → x.state ≠ .onAir) (fun _ _ => [])
      (fun c u => setRxPlain u (pn c 0)
        { rxPlain u (pn c 0) with txShadow := tabSet (rxPlain u (pn c 0)).txShadow (pn c 1) ((c.params.drop 3).take n) }))
  ∧ RunsOn .txBeamTableActivate 0x0411 6
      (fun c u => free c u ∧ 1 ≤ pn c 1 ∧ pn c 1 ≤ 64 ∧ pn c 2 ≤ 7 ∧ pn c 5 < 256 ∧ asnAhead u (asnWords c) = true
        ∧ swapPending u (pn c 0) true = false
        ∧ bankCrc (rxPlain u (pn c 0)).txShadow (pn c 1) (tableChains u (pn c 0) true) = pw c 3)
      (fun c u =>
        let a := if asnWords c = 0 then asnAt u (now u) + 1 else asnWords c
        let w : BeamSwap := { plain := pn c 0, tx := true, count := pn c 1, shift := pn c 2, asn := a, queue := c.queue.val, tag := c.tag }
        { u with rx := { u.rx with swaps := u.rx.swaps ++ [w] } })
  ∧ Runs .txBeamWeightsRead 0x0412 3 (fun c _ => pn c 0 ≤ 3 ∧ pn c 1 ≤ 63 ∧ pn c 2 < 2)
      (fun c u => (List.range (tableChains u (pn c 0) true)).map (fun i =>
          (tabGet (if pn c 2 = 1 then (rxPlain u (pn c 0)).txShadow else (txCfg u (pn c 0)).txBank) (pn c 1) []).getD i 0#32)
        ++ [w32 ((txRun u (pn c 0)).counters.getD 8 0)]) (fun _ u => u)
  ∧ Runs .rckStore 0x0430 4
      (fun c u => pn c 0 ≤ 3 ∧ pn c 1 ≤ 7 ∧ 10000000 ≤ pn c 2 ∧ pn c 2 ≤ 250000000 ∧ pn c 3 ≤ 2 ∧ (rck u (pn c 0)).sel ≠ some (pn c 1))
      (fun _ _ => [])
      (fun c u =>
        let u1 : State := { u with cfg := { u.cfg with tx := { u.cfg.tx with
          rck := tabSet u.cfg.tx.rck (8 * pn c 0 + pn c 1) { freq := pw c 2, pd := pn c 3 } } } }
        setRck u1 (pn c 0) { rck u1 (pn c 0) with bands := setBit (rck u1 (pn c 0)).bands (pn c 1) false })
  ∧ RunsOn .rckSelect 0x0431 2
      (fun c u => pn c 0 ≤ 3 ∧ pn c 1 ≤ 7 ∧ (rckSetting u (pn c 0) (pn c 1)).isSome = true)
      (fun c u => rckStart (pn c 0) (setRck u (pn c 0)
        { rck u (pn c 0) with next := (rck u (pn c 0)).next ++ [(pn c 1, some (c.queue.val, c.tag))] }))
  ∧ (∀ (r k q : Nat) (tag : BitVec 16) (l : List (Nat × Option (Nat × BitVec 16))) (u : State), (rck u r).hop = none →
      (rck u r).next = (k, some (q, tag)) :: l →
      rckStart r u = setRck u r { rck u r with hop := some (k, some (q, tag)), next := l, low := true, locked := false })
  ∧ (∀ (r : Nat) (u : State), (rck u r).hop ≠ none → rckStart r u = u)
  ∧ Ends .rckSelect 0x0431 2 (fun c u => pn c 0 ≤ 3 ∧ pn c 1 ≤ 7 ∧ rckSetting u (pn c 0) (pn c 1) = none) .invalidState
  ∧ Runs .rckStatus 0x0432 1 (fun c _ => pn c 0 ≤ 3)
      (fun c u =>
        let v := rck u (pn c 0)
        [match v.sel with
          | some k => w32 k
          | none => 0xFFFFFFFF#32, w32 (flag v.locked + 2 * flag v.low), v.bands.setWidth 32, w32 v.unlocks]) (fun _ u => u)
  ∧ Runs .txCountersRead 0x0451 2 (fun c _ => pn c 0 ≤ 3 ∧ pn c 1 < 2)
      (fun c u => (txRun u (pn c 0)).counters.map w32)
      (fun c u => if pn c 1 = 1 then setTxRun u (pn c 0) { txRun u (pn c 0) with counters := List.replicate 9 0 } else u)

/-- R194, R195, R203, R206: a port's scripts start and end, and a reference synthesiser hops, unlocks and relocks.
R195: the script that a port starts is one of the waiting ones that may start, no other of those is of an earlier class,
and none of the same class stands before it. -/
def Obligations.ScriptAndClockEventsAct : Prop :=
  ((∀ (p : Fin 16) (x : Script) (s : State), (portRun s p).running = none →
      firstBy scriptBefore ((portRun s p).queued.filter (scriptMayStart s p)) = some x →
      exec (.portScriptStart p) s = .next (setPort s p
        { portRun s p with running := some x, queued := (portRun s p).queued.erase x }))
  ∧ (∀ (p : Fin 16) (x : Script) (s : State), (portRun s p).running = some x → exec (.portScriptStart p) s = .next s)
  ∧ (∀ (p : Fin 16) (x : Script) (cls : Nat) (l : List Word) (s : State), (portRun s p).running = some x → x.cls ≠ cls →
      exec (.portScriptComplete p cls l) s = .next s)
  ∧ (∀ (p : Fin 16) (x : Script) (q : Nat) (tag : BitVec 16) (l : List Word) (s : State), (portRun s p).running = some x →
      x.cls = 4 → x.tag = some (q, tag) → (runScript s p x l).mismatch = none →
      exec (.portScriptComplete p 4 l) s = .next (complete q tag .ok (runScript s p x l).reads
        (sendFrames p (runScript s p x l).frames (setPort s p { portRun s p with running := none }))))
  ∧ (∀ (p : Fin 16) (x : Script) (k q : Nat) (tag : BitVec 16) (l : List Word) (s : State), (portRun s p).running = some x →
      x.cls = 4 → x.tag = some (q, tag) → (runScript s p x l).mismatch = some k →
      exec (.portScriptComplete p 4 l) s = .next (complete q tag .failedHardware (runScript s p x l).reads
        (scriptFault p 4 k (sendFrames p (runScript s p x l).frames (setPort s p { portRun s p with running := none })))))
  ∧ (∀ (p : Fin 16) (x : Script) (q : Nat) (tag : BitVec 16) (l : List Word) (s : State), (portRun s p).running = some x →
      x.cls = 3 → x.tag = some (q, tag) → (runScript s p x l).mismatch = none →
      let s1 := sendFrames p (runScript s p x l).frames (setPort s p { portRun s p with running := none })
      exec (.portScriptComplete p 3 l) s = .next (complete q tag .ok []
        (markTracks 2 (fun t => plainOfPort s1 p = some t.plain)
          (setChainCfg s1 x.chain { chainCfg s1 x.chain with gain := x.gain }))))
  ∧ (∀ (d : Word → Word) (pos k : Nat) (v : SpiStep) (l : List SpiStep) (ws : List Word), v.verify = true →
      d (ws.headD 0#32) ≠ d (v.frame.setWidth 32) → (runSteps d pos (v :: l) ws k).mismatch = some k)
  ∧ (∀ (d : Word → Word) (pos k : Nat) (v : SpiStep) (l : List SpiStep) (w : Word) (ws : List Word), v.read = true →
      v.verify = false →
      (runSteps d pos (v :: l) (w :: ws) k).reads = d w :: (runSteps d pos l ws (k + 1)).reads
        ∧ (runSteps d pos (v :: l) (w :: ws) k).frames = (v.len, readFrame pos v.frame) :: (v.len, readFrame pos v.frame)
            :: (runSteps d pos l ws (k + 1)).frames)
  ∧ (∀ (d : Word → Word) (pos k : Nat) (v : SpiStep) (l : List SpiStep) (ws : List Word), v.read = false → v.verify = false →
      (runSteps d pos (v :: l) ws k).frames = (v.len, v.frame) :: (runSteps d pos l ws (k + 1)).frames)
  ∧ (∀ (n cls k : Nat) (s : State), trouble (scriptFault n cls k s) .scriptFault = true)
  ∧ (∀ (r : Fin 4) (k q ns : Nat) (tag : BitVec 16) (s : State), (rck s r).hop = some (k, some (q, tag)) → s.dev.clkLost = false →
      ns ≤ (if bit (rck s r).bands k then 5000 else 2000000) → (rck s r).next = [] →
      exec (.rckHopLock r ns) s = .next (complete q tag .ok [w32 ns] (setRck s r
        { rck s r with sel := some k, locked := true, low := false, bands := setBit (rck s r).bands k true, hop := none })))
  ∧ (∀ (r : Fin 4) (s : State), (rck s r).locked = true → (rck s r).hop = none →
      exec (.rckUnlock r) s = .next (postEvent 0x0402 r 0#32 (raise (.rckUnlock r)
        (setRck s r { rck s r with locked := false, low := true, unlocks := min ((rck s r).unlocks + 1) 0xFFFFFFFF }))))
  ∧ (∀ (r : Fin 4) (k : Nat) (s : State), (rck s r).sel = some k → (rck s r).locked = false → (rck s r).hop = none →
      s.dev.clkLost = false →
      exec (.rckRelock r) s = .next (postEvent 0x0402 r 1#32 (setRck s r { rck s r with locked := true, low := false }))))
  ∧ (∀ (p : Fin 16) (x : Script) (s t : State), exec (.portScriptStart p) s = .next t → (portRun s p).running = none →
    (portRun t p).running = some x →
      x ∈ (portRun s p).queued ∧ scriptMayStart s p x = true
      ∧ (∀ y ∈ (portRun s p).queued, scriptMayStart s p y = true → max x.cls 2 ≤ max y.cls 2)
      ∧ (∀ y ∈ (portRun s p).queued.takeWhile (fun z => z ≠ x), scriptMayStart s p y = true → max x.cls 2 < max y.cls 2)
      ∧ (∀ k, k ≠ p.val → portRun t k = portRun s k))

/-- R199, R216, R219-R225: a transmission's steps up to its first sample. -/
def Obligations.TransmissionStartsAct : Prop :=
  (∀ (x : Tx) (f : List Byte) (s u : State), txAt s x.id = some x → x.state = .selected → reached s (before x.t0 1500000) = true →
      buildFor x s = (.inr f, u) →
      exec (.frameBuild x.id) s = .next (setTx { x with frame := f, symbols := chirpsOf s x f, state := .built } u))
  ∧ (∀ (x : Tx) (st : Status) (s u : State), txAt s x.id = some x → x.state = .selected → reached s (before x.t0 1500000) = true →
      buildFor x s = (.inl st, u) → exec (.frameBuild x.id) s = .next (notStarted x st 0 0 none u))
  ∧ (∀ (p : Fin 4) (x : Tx) (asn : BitVec 40) (s : State), txAt s x.id = some x → x.plain = p.val → x.coexMode = 1 →
      reached s (before x.t0 (1000 * x.coxLead)) = true → txActive x = false →
      exec (.coxRequestRise p (some x.id) asn) s = .next (setTxRun s p { txRun s p with coxReq := true }))
  ∧ (∀ (p : Fin 4) (asn : BitVec 40) (s : State), (txCfg s p).coexMode = 1 → 2000 < (txCfg s p).coxLead →
      reached s (before (nominal s asn.toNat) (1000 * (txCfg s p).coxLead)) = true → reached s (nominal s asn.toNat) = false →
      exec (.coxRequestRise p none asn) s = .next (if allCands (applyChanges asn.toNat s) p asn.toNat = [] then s
        else setTxRun s p { txRun s p with coxReq := true }))
  ∧ (∀ (x : Tx) (s : State), txAt s x.id = some x → x.coexMode = 1 → x.state = .built → s.tan.joined = false →
      reached s (before x.t0 110000) = true →
      let g (b : Bool) : State := { s with radio := { s.radio with grants := setBit s.radio.grants x.plain b } }
      exec (.coxGrantJudged x.id true) s = .next (setTx { x with state := .judged } (g true))
      ∧ exec (.coxGrantJudged x.id false) s = .next (raise (.coxMissed (Fin.ofNat 4 x.plain)) (notStarted x
          (if (x.kind = 1 ∨ x.kind = 2 ∨ x.kind = 3) ∨ x.coxPolicy = true then .refusedCoex
            else .deferredCoexPending) 4 1 (some 0) (g false))))
  ∧ (∀ (x : Tx) (p : Fin 4) (s : State), txAt s x.id = some x → x.plain = p.val →
      (x.state = .judged ∨ (x.state = .built ∧ x.coexMode ≠ 1)) → s.dev.clkLost = false → reached s (before x.t0 100000) = true →
      let s1 := onPorts x.plain (fun v => { v with seq := .prep }) (setTx { x with state := .prep } s)
      exec (.prep x.id p) s = .next (if blankedFor s x then notStarted { x with state := .prep } .refusedBlanked 5 1 (some 1) s1
        else match hopNeeded s x with
          | some e => if hopHasBand s x.plain e then hop x e s1 else notStarted { x with state := .prep } .invalidParameter 0 0 none s1
          | none => s1))
  ∧ (∀ (x : Tx) (p : Fin 4) (s : State), txAt s x.id = some x → s.dev.clkLost = true →
      exec (.prep x.id p) s = .next s ∧ exec (.txSwitchOn x.id) s = .next s ∧ exec (.paenAssert x.id) s = .next s)
  ∧ (∀ (x : Tx) (s : State), txAt s x.id = some x → x.state = .prep → s.dev.clkLost = false → reached s (before x.t0 80000) = true →
      exec (.txSwitchOn x.id) s = .next (openSpan x.plain (onPorts x.plain (fun v => { v with tr := true, txen := true })
        (setTx { x with state := .switched } s))))
  ∧ (∀ (x : Tx) (s : State), txAt s x.id = some x → (x.state = .switched ∨ x.state = .onAir) → x.paUp = false →
      s.dev.clkLost = false → reached s (before x.t0 (1000 * x.paLead)) = true →
      exec (.paenAssert x.id) s = .next (onPorts x.plain (fun v => { v with paen := true }) (setTx { x with paUp := true } s)))
  ∧ (∀ (x : Tx) (s : State), txAt s x.id = some x → x.state = .switched → s.dev.clkLost = false → hopPending s x = false →
      reached s (before x.t0 (releaseLead s x.plain)) = true →
      exec (.firstSampleRelease x.id true) s = .next (if blankedFor s x then notStarted x .refusedBlanked 5 1 (some 1) s
        else startOnAir x s))
  ∧ (∀ (x : Tx) (b : Bool) (s : State), txAt s x.id = some x →
      (x.state = .selected ∨ x.state = .built ∨ x.state = .judged ∨ x.state = .prep ∨ x.state = .switched) →
      (b = false ∨ s.dev.clkLost = true ∨ hopPending s x = true) → reached s (before x.t0 (releaseLead s x.plain)) = true →
      exec (.firstSampleRelease x.id b) s = .next (raise .txTiming (notStarted x .failedHardware 6 0 (some 2) s)))
  ∧ (∀ (s : State) (p : Nat), releaseLead s p = 520 + (portsOf s p).foldl (fun m n => max m (portCfg s n).txExtLatency) 0)
  ∧ (∀ (s : State) (n e m : Nat), (∀ p, plainOfPort s n = some p → (portCfg s n).txChains ≤ e) → txSample s n e m = (0, 0))
  ∧ (∀ (s : State) (n e m : Nat), -32768 ≤ (txSample s n e m).1 ∧ (txSample s n e m).1 ≤ 32767
      ∧ -32768 ≤ (txSample s n e m).2 ∧ (txSample s n e m).2 ≤ 32767)
  ∧ (∀ (s : State) (n e m : Nat), txConverter s n (2 * e) m = BitVec.ofInt 16 (txSample s n e m).1
      ∧ txConverter s n (2 * e + 1) m = BitVec.ofInt 16 (txSample s n e m).2)
  ∧ (∀ tr air t : Nat, 0 < t → t < air → 2 * tr ≤ air → envelope tr air t = envelope tr air (air - t))
  ∧ (∀ (n k m : Nat), k < n → m < n →
      (chirpPhase n (.up k) m 1 - (chirpSeq n k m - chirpSeq n k 0)) % (2 * n : Nat) = 0)
  ∧ (∀ (n : Nat) (c : Chirp) (d : Nat), chirpPhase n c (n * d) d = 0)
  ∧ (∀ (n a d : Nat), a < n * d → chirpPhase n .down a d = -chirpPhase n (.up 0) a d)

/-- R201, R209, R216-R218, R220, R221, R225: a transmission's end, its return, and what ends it early.
R212, R218, R219: an early end posts event 0x0403, leaves the ledger's charge, and is on air as a fast ramp-down; a
transmission that is not started is no longer booked. -/
def Obligations.TransmissionEndsAct : Prop :=
  ((∀ (x : Tx) (s : State), txAt s x.id = some x → x.state = .onAir →
      exec (.txUnderrun x.id) s = .next (raise .txUnderrun (endEarly x .failedHardware 3 0 1 s)))
  ∧ (∀ (p : Fin 16) (q : Nat) (s : State), plainOfPort s p = some q →
      exec (.txLaneFault p) s = .next (postEvent 0x0201 p 2#32 (raise (.laneFault p)
        ((s.radio.txs.filter (fun x => x.plain = q && x.state = .onAir)).foldl
          (fun t x => endEarly x .failedHardware 3 0 2 t) s))))
  ∧ (∀ (x : Tx) (s : State), txAt s x.id = some x → x.state = .onAir →
      reached s (x.t0 + BitVec.ofNat 64 (1000 * x.tAir)) = true →
      exec (.transmissionEnd x.id) s = .next (outcome x .ok 1 0 (noteSent x (rememberTx x
        (onAir x .stop (countTx 1 x.plain 1 (setTx { x with state := .ended } s)))))))
  ∧ (∀ (x : Tx) (s : State), txAt s x.id = some x → x.state = .ended →
      reached s (txEnd x + BitVec.ofNat 64 (1000 * x.paLag)) = true →
      exec (.paenRelease x.id) s = .next
        (let s1 := setTx { x with state := .paenOff } s
        if ∃ y ∈ s1.radio.txs, y.plain = x.plain ∧ keyed y = true ∧ y.state ≠ .paenOff then s1
        else onPorts x.plain (fun v => { v with paen := false }) s1))
  ∧ (∀ (x : Tx) (s : State), txAt s x.id = some x → x.state = .paenOff →
      reached s (txEnd x + BitVec.ofNat 64 (1000 * x.paLag + 2000)) = true →
      exec (.returnRx x.id) s = .next (if othersKeyed (dropTx x.id s) x.plain x.id then settleSeq x.plain (dropTx x.id s)
        else lowerRequest x.plain (beginReturn x.plain x.tuneShared (dropTx x.id s))))
  ∧ (∀ (p : Fin 4) (x : BitVec 64) (s : State), (txRun s p).spanEnd = some x → reached s x = true →
      exec (.ownTransmissionSpanEnd p) s = .next (closeBlank p (setTxRun s p { txRun s p with ownSpan := false, spanEnd := none })))
  ∧ (∀ (i : Fin 8) (s : State), s.tan.joined = false →
      exec (.blankAssert i) s = .next (changeInputs (setBlank i true) s)
      ∧ exec (.blankRelease i) s = .next (changeInputs (setBlank i false) s))
  ∧ (∀ (f : State → State) (s : State), changeInputs f s = settleInputs 3 (blankedNow s 3) (settleInputs 2 (blankedNow s 2)
      (settleInputs 1 (blankedNow s 1) (settleInputs 0 (blankedNow s 0) (f s)))))
  ∧ (∀ (p : Fin 4) (x : Tx) (s : State), x.plain = p.val →
      ((x.state = .prep ∨ x.state = .switched) → blankTx x s = notStarted x .refusedBlanked 5 1 (some 1) s)
      ∧ (x.state = .onAir → blankTx x s = raise (.blankAbort p) (endEarly x .refusedBlanked 2 1 0 s)))
  ∧ (∀ (p : Fin 4) (b : Bool) (s : State), (∀ x ∈ s.radio.txs, x.plain = p.val → blankedFor s x = false) →
      settleInputs p b s = (if b = blankedNow s p then s
        else settleBlank p (if b && (txCfg s p).blankMark then setTxRun s p { txRun s p with tail := after s 20000 } else s)))
  ∧ (∀ (i : Fin 8) (b : Bool) (s : State),
      (setBlank i b s).radio.blank = setBit s.radio.blank i (if b then !bit s.cfg.tx.blankPol i else bit s.cfg.tx.blankPol i)))
  ∧ ((∀ (x : Tx) (st : Status) (counter rank detail : Nat) (s : State), s.tan.outputs = true →
      ∃ u, endEarly x st counter rank detail s = outcome x st 2 rank (shortfall x rank none u)
        ∧ u.out.air = s.out.air ++ [{ plain := x.plain, txId := x.id, event := .fast }] ∧ u.air = s.air
        ∧ (∀ y, txAt s x.id = some y → ∃ z n, txAt u x.id = some z ∧ z.state = .ended ∧ z.status = st
            ∧ z.endAt = after s (n + 400) ∧ n ≤ 600))
  ∧ (∀ (x : Tx) (s : State), txAt (dropTx x.id s) x.id = none))

/-! ### Link frames, security and images -/

/-- R228, R239, R241, R244, R248-R250, R252, R253: the link commands. -/
def Obligations.LinkCommandsRun : Prop :=
  let net (c : Packet) (u : State) : NetCfg := netCfg u (pn c 0)
  Runs .linkNetworkSet 0x0500 9
      (fun c u => pn c 0 ≤ 15 ∧ pw c 1 &&& ~~~0xFFFF00FF#32 = 0#32 ∧ pn c 2 ≤ 63 ∧ pn c 3 < 65536 ∧ pn c 5 < 1024 ∧ 2 ≤ pn c 6 ∧ pn c 6 ≤ 16
        ∧ pn c 7 < 16 ∧ 34 ≤ pn c 8 ∧ pn c 8 ≤ 1023 ∧ zoneLoaded u (pn c 2) = true
        ∧ (∀ m < 16, m ≠ pn c 0 → (netCfg u m).configured = true → (netCfg u m).sync ≠ (pw c 1).setWidth 8)
        ∧ ((net c u).configured = false ∨ (net c u).epoch = (pw c 3).setWidth 16))
      (fun _ _ => [])
      (fun c u =>
        let v : NetCfg :=
          { configured := true, sync := (pw c 1).setWidth 8, number := (pw c 1 >>> 16).setWidth 16, slot := pn c 2,
            epoch := (pw c 3).setWidth 16, overlap := pn c 4, tenant := pf c 5 7 0, learnNew := bit (pw c 5) 8,
            allowClear := bit (pw c 5) 9, ackGap := pn c 6, floodTtl := pf c 7 3 0, cmdQ := pn c 8 }
        setNetCfg (if (net c u).slot = pn c 2 then u
          else dropKeys (fun e => e.net = pn c 0 && e.epoch = (net c u).epoch) u) (pn c 0) v)
  ∧ Runs .linkNetworkStatus 0x0501 1 (fun c _ => pn c 0 ≤ 15)
      (fun c u => [(net c u).epoch.setWidth 32, w32 (overlapLeft u (pn c 0)), w32 (startCount u (pn c 0)).cur,
        w32 ((netRun u (pn c 0)).bctr.getD 0), w32 (flag (netBlocked u (pn c 0)))]) (fun _ u => u)
  ∧ Runs .linkEpochAdvance 0x0502 1 (fun c u => pn c 0 ≤ 15 ∧ (net c u).configured = true ∧ minorityCheck u = none)
      (fun c u => [((net c u).epoch + 1).setWidth 32]) (fun c u => advanceEpoch (pn c 0) u)
  ∧ Runs .linkSeenSet 0x0503 1 (fun c _ => 1 ≤ pn c 0 ∧ pn c 0 ≤ 3600) (fun _ _ => [])
      (fun c u => { u with cfg := { u.cfg with link := { u.cfg.link with seenAge := pn c 0 } } })
  ∧ Runs .iphcContextSet 0x0504 7 (fun c _ => pn c 0 ≤ 255 ∧ pn c 1 ≤ 15 ∧ pn c 2 < 512 ∧ pf c 2 7 0 ≤ 128) (fun _ _ => [])
      (fun c u =>
        let v : IphcCtx := { valid := bit (pw c 2) 8, len := pf c 2 7 0, pfx := keyOfWords (pwords c 3 4) }
        { u with cfg := { u.cfg with link := { u.cfg.link with ctx := tabSet u.cfg.link.ctx (16 * pn c 0 + pn c 1) v } } })
  ∧ (∀ (w : Window) (unrec : Bool), Runs .replayStateRead 0x0505 2
      (fun c u => pn c 0 ≤ 15 ∧ windowAt u (pn c 0) (pw c 1) = some (w, unrec))
      (fun _ _ => [w.epoch.setWidth 32, w.last, w.map.setWidth 32, (w.map >>> 32).setWidth 32, if unrec then 1#32 else 0#32])
      (fun _ u => u))
  ∧ Ends .replayStateRead 0x0505 2 (fun c u => pn c 0 ≤ 15 ∧ windowAt u (pn c 0) (pw c 1) = none) .refusedNodeUnknown
  ∧ Runs .keyCacheFlush 0x0506 1 (fun c _ => pn c 0 ≤ 15 ∨ pw c 0 = 0xFFFFFFFF#32)
      (fun c u => [w32 (u.link.keys.filter (fun e => pw c 0 = 0xFFFFFFFF#32 || e.net = pn c 0)).length])
      (fun c u => { u with link := { u.link with
        keys := u.link.keys.filter (fun e => !(pw c 0 = 0xFFFFFFFF#32 || e.net = pn c 0)) } })
  ∧ Runs .cryptoEngineRestart 0x0507 0 (fun _ _ => True) (fun _ _ => [0#32]) (fun _ u => restartCrypto u)
  ∧ Runs .imageLoad 0x0510 6
      (fun c u => 1 ≤ pn c 0 ∧ pn c 0 ≤ 65535 ∧ 1 ≤ pn c 3 ∧ pn c 3 ≤ 1048576 ∧ (p64 c 1).toNat + pn c 3 ≤ 0xC0000000 ∧ pn c 5 ≤ 15
        ∧ imageAt u (pn c 0) = none ∧ (netCfg u (pn c 5)).configured = true ∧ stagingBad u (p64 c 1).toNat (pn c 3) = false
        ∧ crc32c (stagingRead u (p64 c 1).toNat (pn c 3)) = pw c 4 ∧ u.link.images.length < 4)
      (fun c _ => [w32 ((pn c 3 + 191) / 192)])
      (fun c u =>
        let i : Image := { id := pn c 0, net := pn c 5, offset := (p64 c 1).toNat, len := pn c 3 }
        { u with link := { u.link with images := u.link.images ++ [i] } })
  ∧ (∀ i : Image, Runs .imageStart 0x0511 3
      (fun c u => 1 ≤ pn c 0 ∧ pn c 0 ≤ 65535 ∧ 1 ≤ pn c 1 ∧ pn c 1 ≤ 255 ∧ 1 ≤ pn c 2 ∧ pn c 2 ≤ 86400 ∧ imageAt u (pn c 0) = some i
        ∧ (i.state = 0 ∨ i.state = 3 ∨ i.state = 4))
      (fun _ _ => [])
      (fun c u =>
        let j : Image :=
          { i with state := 1, round := 0, sent := 0, reports := 0, missing := [], todo := List.range ((i.len + 191) / 192),
                   maxRounds := pn c 1, reportWait := pn c 2, seq := u.sched.nextSeq }
        let u1 := setImage j u
        { u1 with sched := { u1.sched with nextSeq := u1.sched.nextSeq + 1 } }))
  ∧ (∀ i : Image, Runs .imageStop 0x0512 2
      (fun c u => 1 ≤ pn c 0 ∧ pn c 0 ≤ 65535 ∧ pn c 1 < 2 ∧ imageAt u (pn c 0) = some i) (fun _ _ => [])
      (fun c u =>
        let u1 := if i.state = 1 ∨ i.state = 2 then postEvent 0x0511 i.id 2#32 (setImage { i with state := 4, todo := [] } u) else u
        if pn c 1 = 1 then { u1 with link := { u1.link with images := u1.link.images.filter (fun x => x.id != i.id) } } else u1))
  ∧ (∀ i : Image, Runs .imageStatus 0x0513 1 (fun c u => 1 ≤ pn c 0 ∧ pn c 0 ≤ 65535 ∧ imageAt u (pn c 0) = some i)
      (fun _ _ => [w32 i.state, w32 i.round, w32 i.sent, w32 i.reports]) (fun _ u => u))
  ∧ Runs .linkCountersRead 0x0520 2 (fun c _ => pn c 0 ≤ 15 ∧ pn c 1 < 2) (fun c u => (netRun u (pn c 0)).counters.map w32)
      (fun c u => if pn c 1 = 1 then setNet u (pn c 0) { netRun u (pn c 0) with counters := List.replicate 16 0 } else u)

/-- R241, R243: what an epoch advance leaves: the next epoch, the counts moved, the previous slot bound for EPOCH_OVERLAP, and
no key of the epoch that was E - 1; other networks keep theirs.
R235, R237: once a counter has been committed under an epoch, no frame with it under that epoch is new again, and a commit
under the same epoch forgets no counter refused so far.
R243: a counter drawn for the broadcasts of a network lies in the block of its epoch's START_COUNT, the next one drawn
follows it, and a held epoch draws none. -/
def Obligations.CountersNeverRepeat : Prop :=
  (∀ (n : Nat) (s : State), n < 16 →
    (netCfg (advanceEpoch n s) n).epoch = (netCfg s n).epoch + 1
    ∧ (startCount (advanceEpoch n s) n).cur = 0 ∧ (startCount (advanceEpoch n s) n).curHeld = false
    ∧ (startCount (advanceEpoch n s) n).prev = (startCount s n).cur
    ∧ (startCount (advanceEpoch n s) n).prevHeld = (startCount s n).curHeld
    ∧ (netRun (advanceEpoch n s) n).prev = some ((netCfg s n).slot, after s (1000000000 * (netCfg s n).overlap))
    ∧ (netRun (advanceEpoch n s) n).bctrPrev = (netRun s n).bctr
    ∧ (∀ e ∈ (advanceEpoch n s).link.keys, ¬ (e.net = n ∧ e.epoch = (netCfg s n).epoch - 1))
    ∧ (∀ m, m ≠ n → netCfg (advanceEpoch n s) m = netCfg s m ∧ netRun (advanceEpoch n s) m = netRun s m
        ∧ startCount (advanceEpoch n s) m = startCount s m))
  ∧ ((∀ (w : Option Window) (ctr : Word) (ep : BitVec 16), replayCheck w ctr ep = .fresh →
      replayCheck (some (replayCommit w ctr ep)) ctr ep = .duplicate)
  ∧ (∀ (w : Window) (ctr c : Word), replayCheck (some w) ctr w.epoch = .fresh → replayCheck (some w) c w.epoch ≠ .fresh →
      replayCheck (some (replayCommit (some w) ctr w.epoch)) c w.epoch ≠ .fresh)
  ∧ (∀ (w : Window) (ctr : Word) (ep : BitVec 16), (ep - w.epoch).toInt < 0 → replayCheck (some w) ctr ep = .staleEpoch))
  ∧ ((∀ (n : Nat) (s t u : State) (c d : Word), n < 16 → (startCount s n).cur ≤ 255 →
      takeBroadcastCtr n (netCfg s n).epoch s = some (c, t) → takeBroadcastCtr n (netCfg s n).epoch t = some (d, u) →
      16777216 * (startCount s n).cur + 8388608 ≤ c.toNat ∧ c.toNat < 16777216 * ((startCount s n).cur + 1)
        ∧ d.toNat = c.toNat + 1)
  ∧ (∀ (n : Nat) (s : State), (startCount s n).curHeld = true → takeBroadcastCtr n (netCfg s n).epoch s = none))

/-- R233, R235, R236, R242: the first step that ends a frame of the device's own receiver sets its link outcome. -/
def Obligations.LinkOutcomes : Prop :=
  ∀ (h : Heard) (late : Bool) (s : State),
    let f := parseFrame h.bytes
    let r := linkSteps h late s
    let kept : Prop := r.state = s
    if deviceAddress f.src then r.outcome = 2
    else match netOfSync s h.sync with
      | none => r.outcome = 3 ∧ kept
      | some n =>
        if malformed f then r = { outcome := 4, state := countLink 4 n s }
        else if f.dst ≠ none ∧ f.dst ≠ some 0#32 then r = { outcome := 5, state := countLink 5 n s }
        else if homeOf s n f.src ≠ ownHid s ∧ reachable s (homeOf s n f.src) = true then
          r = { outcome := 1, state := countLink 1 n (originate (.frame (homeOf s n f.src) { h with late := late }) s) }
        else homeOf s n f.src = ownHid s → frameFlood f = false →
          if nodeOf s n f.src = none ∧ (netCfg s n).learnNew = false then r = { outcome := 6, state := countLink 6 n s }
          else if frameSec f = false ∧ (netCfg s n).allowClear = false then r = { outcome := 7, state := countLink 7 n s }
          else match resolveEpoch s n (bits f.fc 9 8) with
            | none => r = { outcome := 8, state := countLink 8 n (raise .replay s) }
            | some ep => match replayCheck (windowFor s false n f.src) f.ctr ep with
              | .staleEpoch => r = { outcome := 8, state := countLink 8 n (raise .replay s) }
              | .replay => r = { outcome := 9, state := countLink 9 n (raise .replay s) }
              | .duplicate => r.outcome = 10
              | .fresh => match openFrame n f ep s with
                | (.inl o, u) =>
                  let w := if o = 12 ∧ h.layer = 0 ∧ h.combined = 0 then raise .micFail u else u
                  r = { outcome := o, state := countLink o n w }
                | (.inr l, u) => r = linkAccept h n f false late none ep l u ∧ (r.outcome = 0 ∨ r.outcome = 13)

/-- R16, R234, R239, R241, R247, R250, R252: what the link engine does with frames that wait or come over the herd, and by
itself. -/
def Obligations.LinkEventsAct : Prop :=
  (∀ (i : LinkItem) (rest : List LinkItem) (s : State), s.rx.linkq = i :: rest →
      exec .linkEngineFrame s = .next (linkFrame i { s with rx := { s.rx with linkq := rest } }))
  ∧ (∀ s : State, s.rx.linkq = [] → exec .linkEngineFrame s = .next s)
  ∧ (∀ (i : LinkItem) (s : State), i.member = none → i.track.job = none → i.track.combined = 0 → i.overrun = false →
      linkFrame i s = recordLive i.track
        (linkSteps (heardOf s i.track) (i.track.waited && past s (i.track.laneT0 + 1500000#64)) s))
  ∧ (∀ (i : LinkItem) (s : State), i.member = none → i.track.job = none → i.track.combined = 0 → i.overrun = true →
      trouble (linkFrame i s) .linkOverload = true)
  ∧ (∀ (src : Fin 64) (h : Heard) (s : State), s.tan.joined = false →
      exec (.forwardedFrame src h) s =
        .next (joinLink { member := some (src.val, { h with hid := if h.combined = 0 then src else h.hid }) } s))
  ∧ (∀ (src : Nat) (g : Heard) (n : Nat) (i : LinkItem) (s : State), i.member = some (src, g) → netOfSync s g.sync = some n →
      homeOf s n (parseFrame g.bytes).src = ownHid s → i.overrun = false →
      linkFrame i s = (linkHome g n (parseFrame g.bytes) true g.late none s).state)
  ∧ (∀ (i : LinkItem) (s : State), (∀ t ∈ s.link.joined, reached s (t + 10000000#64) = true) → s.rx.linkq = [] →
      (joinLink i s).rx.linkq = [{ i with joined := now s, overrun := false }])
  ∧ (∀ (a b : Nat) (g h : Heard) (i j : LinkItem) (s : State), s.rx.linkq = [i] → i.member = some (a, g) → j.member = some (b, h) →
      i.joined = now s → b < a → ∃ k, (joinLink j s).rx.linkq = [k, i] ∧ k.member = j.member)
  ∧ (∀ (x : AckIn) (s : State) (st : Status), s.tan.joined = false →
      let y : Tx := { plain := x.plain.val, beam := x.beam.val, bw := x.bw.val, sf := 5 + x.sf.val, cr := x.cr.val,
                      len := x.frame.length, kind := 1, net := x.net.val, dst := x.dst, tenant := (netCfg s x.net.val).tenant,
                      t0 := x.t0, frame := x.frame, carrier := carrierOf s x.plain.val x.bw.val x.chan.val 0#32 }
      let z := classify s false (fillTx s (txCfg s x.plain.val).pilot y)
      judge (postPassed z s) z = some st → exec (.homeAck x) s = .next (fail z st 1 none (postPassed z s)))
  ∧ (∀ (x : AckIn) (s : State) (w : Tx), s.tan.joined = false →
      let y : Tx := { plain := x.plain.val, beam := x.beam.val, bw := x.bw.val, sf := 5 + x.sf.val, cr := x.cr.val,
                      len := x.frame.length, kind := 1, net := x.net.val, dst := x.dst, tenant := (netCfg s x.net.val).tenant,
                      t0 := x.t0, frame := x.frame, carrier := carrierOf s x.plain.val x.bw.val x.chan.val 0#32 }
      let z := classify s false (fillTx s (txCfg s x.plain.val).pilot y)
      let u := postPassed z s
      judge u z = none → txAt (takeOn z u) u.radio.nextId = some w → past s (before w.t0 100000) = false →
      exec (.homeAck x) s = .next (requestAtBooking w (countLink 14 w.net
        (setTx { w with symbols := chirpsOf (takeOn z u) w w.frame, state := .built } (takeOn z u)))))
  ∧ (∀ (src ctr : Word) (s : State), exec (.seenCacheAge src ctr) s = .next { s with link := { s.link with
      seen := s.link.seen.filter (fun e => !(e.src = src && e.ctr = ctr
        && reached s (e.time + BitVec.ofNat 64 (1000000000 * s.cfg.link.seenAge)))) } })
  ∧ (∀ (n : Fin 16) (slot : Nat) (stop : BitVec 64) (s : State), (netRun s n).prev = some (slot, stop) → reached s stop = true →
      ∃ t, exec (.epochOverlapEnd n) s = .next t ∧ (netRun t n).prev = none ∧ (netRun t n).bctrPrev = none
        ∧ t.link.keys = s.link.keys.filter (fun e => !(e.net = n.val && e.epoch = (netCfg s n).epoch - 1)))
  ∧ (∀ s : State, exec .cryptoEngineFaultRestart s = .next (restartCrypto { s with link := { s.link with engineFault := true } }))
  ∧ (∀ s : State, trouble (restartCrypto s) .cryptoRestart = true
      ∧ ∀ e ∈ (restartCrypto s).cmd.inFlight, ¬ (0x0500 ≤ e.opcode ∧ e.opcode ≤ 0x0520 ∧ e.phase ≠ .held))
  ∧ (∀ (id : BitVec 16) (i : Image) (s : State), imageAt s id.toNat = some i → i.state = 1 → i.todo = [] → blockFlying s i.id = false →
      exec (.imageRoundComplete id) s = .next (postEvent 0x0510 i.id (w32 i.round) (setImage
        { i with state := 2, reports := 0, missing := [], deadline := after s (1000000000 * i.reportWait) } s)))
  ∧ (∀ (id : BitVec 16) (i : Image) (s : State), imageAt s id.toNat = some i → i.state = 2 → reached s i.deadline = true →
      (i.reports = 0 ∨ i.maxRounds ≤ i.round + 1) →
      exec (.reportWaitExpiry id) s = .next (postEvent 0x0511 i.id (if i.reports = 0 then 0#32 else 1#32)
        (setImage { i with state := 3, todo := [] } s)))
  ∧ (∀ (id : BitVec 16) (i : Image) (s : State), imageAt s id.toNat = some i → i.state = 2 → reached s i.deadline = true →
      i.reports ≠ 0 → i.round + 1 < i.maxRounds →
      let j : Image := { i with state := 1, round := i.round + 1, sent := 0, todo := i.missing, missing := [], seq := s.sched.nextSeq }
      let s1 := setImage j s
      exec (.reportWaitExpiry id) s = .next { s1 with sched := { s.sched with nextSeq := s.sched.nextSeq + 1 } })

/-! ### Schedule and airtime -/

/-- R255-R260, R264-R266, R272, R293: the commands of the schedule, of cells and of rendezvous.
R275-R278, R280, R281, R287, R288, R292, R293: the commands of the ledger, of shaping and of the schedule's counters. -/
def Obligations.ScheduleAndAirtimeCommandsRun : Prop :=
  (let held (u : State) : Prop := minorityCheck u = none
  let due (c : Packet) (u : State) : Nat := if pn c 2 + 2 ^ 32 * pn c 3 = 0 then asnAt u (now u) + 1 else pn c 2 + 2 ^ 32 * pn c 3
  let queue (u : State) (asn : Nat) (x : Change) : State :=
    { u with sched := { u.sched with pend := u.sched.pend ++ [{ asn := asn, what := x }] } }
  Runs .scheduleSet 0x0600 4
      (fun c u => pn c 2 ≤ 6 ∧ pn c 3 < 65536 ∧ pn c 3 < 1024 * 2 ^ pn c 2 ∧ held u ∧ ∀ e ∈ u.cfg.sched.frames, e.2 = 0)
      (fun _ _ => [])
      (fun c u => rebaseAsn (setSched u { u.cfg.sched with netEpoch := p64 c 0, k := pn c 2, txOffset := pn c 3 }))
  ∧ Runs .scheduleStatus 0x0601 0 (fun _ _ => True)
      (fun _ u => [(BitVec.ofNat 64 u.sched.asn).setWidth 32, (BitVec.ofNat 64 u.sched.asn >>> 32).setWidth 32, w32 u.cfg.sched.k,
        w32 u.cfg.sched.txOffset, w32 u.time.sel]) (fun _ u => u)
  ∧ Runs .slotframeSet 0x0602 4 (fun c u => pn c 0 ≤ 15 ∧ pn c 1 < 65536 ∧ asnAhead u (pn c 2 + 2 ^ 32 * pn c 3) = true ∧ held u)
      (fun _ _ => []) (fun c u => queue u (due c u) (.frame (pn c 0) (pn c 1)))
  ∧ (∀ n : Nat, 1 ≤ n → n ≤ 256 → Runs .hopseqSet 0x0603 (4 + n)
      (fun c u => pn c 0 ≤ 3 ∧ pn c 1 = n ∧ asnAhead u (pn c 2 + 2 ^ 32 * pn c 3) = true ∧ held u) (fun _ _ => [])
      (fun c u => queue u (due c u) (.hop (pn c 0) (pwords c 4 n))))
  ∧ Runs .cellWrite 0x0604 3 (fun c u => pn c 0 ≤ 4095 ∧ cellOk (pw c 1) (pw c 2) = true ∧ held u) (fun _ _ => [])
      (fun c u => applyChanges (asnAt u (now u)) (queue u (cellAsn u) (.cell (pn c 0) (pw c 1) (pw c 2))))
  ∧ Ends .cellWrite 0x0604 3 (fun c u => pn c 0 ≤ 4095 ∧ cellOk (pw c 1) (pw c 2) = true ∧ u.herd.minority = true) .notPermittedMinority
  ∧ Runs .cellRead 0x0605 1 (fun c _ => pn c 0 ≤ 4095)
      (fun c u => [(cellAt u (pn c 0)).1, (cellAt u (pn c 0)).2]) (fun _ u => u)
  ∧ Runs .guardClassSet 0x0606 4 (fun c _ => pn c 0 ≤ 7 ∧ 1 ≤ pn c 1 ∧ pn c 1 ≤ 10000 ∧ pn c 2 < pn c 3) (fun _ _ => [])
      (fun c u => setSched u { u.cfg.sched with guards := tabSet u.cfg.sched.guards (pn c 0) { b := pn c 1, f := pn c 2, g := pn c 3 } })
  ∧ (∀ (i : Nat) (r : NodeRec), Runs .rendezvousSet 0x0610 7
      (fun c u => pn c 0 ≤ 15 ∧ blockOk c = true ∧ homeOf u (pn c 0) (pw c 1) = ownHid u
        ∧ nodeEntry u (pn c 0) (pw c 1) = some (i, r) ∧ indexFull u i (pwords c 2 4) = false)
      (fun _ _ => []) (fun c u => setNode i { r with cells := pwords c 2 4, radio := pw c 6 } u))
  ∧ Ends .rendezvousSet 0x0610 7
      (fun c u => pn c 0 ≤ 15 ∧ blockOk c = true ∧ homeOf u (pn c 0) (pw c 1) ≠ ownHid u) .refusedNodeUnknown
  ∧ (∀ (i : Nat) (r : NodeRec), Runs .rendezvousRead 0x0611 2
      (fun c u => pn c 0 ≤ 15 ∧ homeOf u (pn c 0) (pw c 1) = ownHid u ∧ nodeEntry u (pn c 0) (pw c 1) = some (i, r))
      (fun _ u => rendezvousWords u r ++ [ofInt (clockError r (now u)), nextGuard u r]) (fun _ u => { u with free := u.free + 1 }))
  ∧ (∀ (i : Nat) (r : NodeRec), Runs .downlinkPurge 0x0612 2
      (fun c u => pn c 0 ≤ 15 ∧ homeOf u (pn c 0) (pw c 1) = ownHid u ∧ nodeEntry u (pn c 0) (pw c 1) = some (i, r))
      (fun c u => [w32 (u.sched.wait.filter (fun d => d.kind = 0 && d.net = pn c 0 && d.addr = pw c 1 && !d.flying)).length])
      (fun c u => (u.sched.wait.filter (fun d => d.kind = 0 && d.net = pn c 0 && d.addr = pw c 1 && !d.flying)).foldl
        (fun t d => endWaiting .abortedByHost d t) u)))
  ∧ (let index (c : Packet) : Nat := 16 * pn c 0 + pn c 1
  let rates (c : Packet) (i : Nat) : Prop := pn c i ≤ 1000000 ∧ pn c (i + 2) ≤ 1000000
  let shape (c : Packet) (i : Nat) : Shape :=
    { cRate := pn c i, cBurst := pn c (i + 1), eRate := pn c (i + 2), eBurst := pn c (i + 3) }
  let put (u : State) (k : Nat) (v : Shape) : State := { u with air := { u.air with pendShape := tabSet u.air.pendShape k v } }
  Runs .subbandSet 0x0620 7
      (fun c _ => pn c 0 ≤ 3 ∧ pn c 1 ≤ 15 ∧ pn c 4 ≤ 1000 ∧ 1 ≤ pn c 5 ∧ pn c 5 ≤ 86400 ∧ pn c 6 < 2) (fun _ _ => [])
      (fun c u =>
        let v : SubBand := { low := pw c 2, high := pw c 3, limit := pn c 4, window := pn c 5, enable := bit (pw c 6) 0 }
        let u1 := setBandCfg u (index c) { bandCfg u (index c) with enable := v.enable }
        let u2 := setBand u1 (index c) { band u1 (index c) with pending := some v }
        if v.enable && u.air.lost && !(band u (index c)).seen then startCold (index c) v u2 else u2)
  ∧ Runs .ledgerRead 0x0621 2 (fun c _ => pn c 0 ≤ 3 ∧ pn c 1 ≤ 15)
      (fun c u =>
        let b : Nat := (bandCfg u (index c)).limit * (bandCfg u (index c)).window * 1000
        [w32 (usage u (index c)), (BitVec.ofNat 64 (usage u (index c)) >>> 32).setWidth 32, w32 b,
         (BitVec.ofNat 64 b >>> 32).setWidth 32, w32 (flag (band u (index c)).cold), w32 (band u (index c)).refusals])
      (fun _ u => u)
  ∧ (∀ n : Nat, 1 ≤ n → n ≤ 1000 → Runs .ledgerLoad 0x0622 (3 + n) (fun c _ => pn c 0 ≤ 3 ∧ pn c 1 ≤ 15 ∧ pn c 2 = n) (fun _ _ => [])
      (fun c u => loadBand (index c) (pwords c 3 n) u))
  ∧ Runs .shaperSubscriberSet 0x0630 5 (fun c _ => pn c 0 ≤ 255 ∧ rates c 1) (fun _ _ => [])
      (fun c u => put u (pn c 0) (shape c 1))
  ∧ Runs .shaperServiceSet 0x0631 7 (fun c _ => pn c 0 ≤ 255 ∧ pn c 1 ≤ 7 ∧ rates c 2 ∧ 1 ≤ pn c 6 ∧ pn c 6 ≤ 86400) (fun _ _ => [])
      (fun c u =>
        let u1 := put u (4096 + (8 * pn c 0 + pn c 1)) (shape c 2)
        { u1 with air := { u1.air with pendLife := tabSet u1.air.pendLife (8 * pn c 0 + pn c 1) (pn c 6) } })
  ∧ Runs .shaperPortSet 0x0632 5 (fun c _ => pn c 0 ≤ 63 ∧ rates c 1) (fun _ _ => []) (fun c u => put u (8192 + pn c 0) (shape c 1))
  ∧ Runs .shaperRead 0x0633 2 (fun c _ => pn c 0 ≤ 2 ∧ pn c 1 < (if pn c 0 = 0 then 256 else if pn c 0 = 1 then 2048 else 64))
      (fun c u => [tokenWord (tokens u (4096 * pn c 0 + pn c 1)).c, tokenWord (tokens u (4096 * pn c 0 + pn c 1)).e]) (fun _ u => u)
  ∧ Runs .txRecordSet 0x0640 3 (fun c u => pn c 0 ≤ 3 ∧ 34 ≤ pn c 1 ∧ pn c 1 ≤ 63 ∧ pn c 2 < 4 ∧ draining u (pn c 0) = false)
      (fun _ _ => [])
      (fun c u => setTxCfg u (pn c 0) { txCfg u (pn c 0) with recQ := pn c 1, records := bit (pw c 2) 0, deferrals := bit (pw c 2) 1 })
  ∧ Runs .shortfallRead 0x0641 2 (fun c _ => pn c 0 ≤ 255 ∧ pn c 1 < 2)
      (fun c u => (shortfalls u (pn c 0)).flatMap (fun v => loHi (BitVec.ofNat 64 v)))
      (fun c u => if pn c 1 = 1 then
          { u with sched := { u.sched with shortfall := tabSet u.sched.shortfall (pn c 0) [0, 0, 0, 0] } }
        else u)
  ∧ Runs .schedCountersRead 0x0650 2 (fun c _ => pn c 0 ≤ 3 ∧ pn c 1 < 2) (fun c u => (plainSched u (pn c 0)).counters.map w32)
      (fun c u => if pn c 1 = 1 then
          setPlainSched u (pn c 0) { plainSched u (pn c 0) with counters := List.replicate 12 0 } else u))

/-- R277, R278, R281: an admitted transmission fits every sub-band it lies in, its charge adds its airtime to the bucket of
the second of t0 there, a load never lowers a bucket of a sub-band that is not cold, and refill passes no burst.
R16, R285: a selection judges its candidates by rank first, and loses none. -/
def Obligations.AirtimeAndSelection : Prop :=
  ((∀ (s : State) (x : Tx), judge s x = none →
      x.bands ≠ [] ∧ ∀ j ∈ x.bands, usage s (16 * x.plain + j) + x.tAir
        ≤ (bandCfg s (16 * x.plain + j)).limit * (bandCfg s (16 * x.plain + j)).window * 1000)
  ∧ (∀ (s : State) (p a : Nat) (js : List Nat) (t0 : BitVec 64) (j : Nat), js.Nodup →
      tabGet (band (charge p js t0 a s) (16 * p + j)).buckets (secondOf t0) 0
        = tabGet (band s (16 * p + j)).buckets (secondOf t0) 0 + (if j ∈ js then a else 0))
  ∧ (∀ (s : State) (k : Nat) (l : List Word) (sec : Nat), (band s k).cold = false →
      tabGet (band s k).buckets sec 0 ≤ tabGet (band (loadBand k l s) k).buckets sec 0)
  ∧ (∀ (v : Shape) (ms : Nat) (t : Tokens), (refilled v ms t).c ≤ (1000 * v.cBurst : Nat) ∧ (refilled v ms t).e ≤ (1000 * v.eBurst : Nat)))
  ∧ (∀ l : List Cand, (inOrder l).Perm l
    ∧ (inOrder l).Pairwise (fun a b => a.tx.rank < b.tx.rank ∨ (a.tx.rank = b.tx.rank ∧ a.seq ≤ b.seq)))

/-- R23, R259, R268, R277, R281, R285, R287: what the schedule does at its instants. -/
def Obligations.ScheduleEventsAct : Prop :=
  (∀ s : State, asnAt s (now s) = s.sched.asn → exec .slotBoundary s = .next s)
  ∧ (∀ s : State, asnAt s (now s) ≠ s.sched.asn →
      let a := asnAt s (now s)
      let s1 := formDigest s.sched.asn s
      let s2 := applyChanges a { s1 with sched := { s1.sched with asn := a } }
      exec .slotBoundary s = .next (countCutOff a (settlePlain 3 (settlePlain 2 (settlePlain 1 (settlePlain 0 s2))))))
  ∧ (∀ (p : Fin 4) (asn : BitVec 40) (s : State), reached s (before (nominal s asn.toNat) 2000000) = true →
      reached s (nominal s asn.toNat) = false → (plainSched s p).selected ≤ asn.toNat → (plainCfg s p).enabled = true →
      datapathRuns s = true →
      let view := applyChanges asn.toNat (setPlainSched s p { plainSched s p with selected := asn.toNat + 1 })
      let v := select p asn.toNat view
      let s1 := setSched v.state s.cfg.sched
      exec (.cellSelection p asn) s =
        .next (dropRequest p v.admitted.isEmpty { s1 with sched := { s1.sched with pend := s.sched.pend } }))
  ∧ (∀ (i : Nat) (cell : Fin 4) (asn : BitVec 40) (s : State), tabFind s.fwd.nodes i = none →
      exec (.rendezvousCandidatePass i cell asn) s = .next s)
  ∧ (∀ (i h : Nat) (cell : Fin 4) (asn : BitVec 40) (r : NodeRec) (s : State), tabFind s.fwd.nodes i = some r → txMember r = some h →
      h ≠ ownHid s → reached s (before (nominal s asn.toNat) 3000000) = true →
      reached s (before (nominal s asn.toNat) 2000000) = false →
      let v := applyChanges asn.toNat s
      let w := r.cells.getD cell 0#32
      bit w 31 = true → cellLive v w asn.toNat = true → needsFrame s r = true → i ∉ s.dev.idxRebuild →
      (∀ e ∈ s.sched.sentTo, ¬ (e.1 = i ∧ e.2.1 = nominal s asn.toNat)) →
      let t := passRendezvous i h asn.toNat r w v
      let t1 := setSched t s.cfg.sched
      exec (.rendezvousCandidatePass i cell asn) s = .next { t1 with sched := { t.sched with pend := s.sched.pend } })
  ∧ (∀ (x : CandIn) (s : State), s.tan.joined = false → past s (before x.t0 2000000) = true →
      exec (.rendezvousCandidate x) s = .next (tellHome (passedTx s x) false .deferredCapacity s))
  ∧ (∀ (x : CandIn) (s : State), s.tan.joined = false → past s (before x.t0 2000000) = false →
      exec (.rendezvousCandidate x) s = .next { s with sched := { s.sched with
        passed := s.sched.passed ++
          [{ plain := x.plain.val, t0 := x.t0, tx := passedTx s x, announced := x.announced, late := x.late }]
        nextSeq := s.sched.nextSeq + 1 } })
  ∧ (∀ (x : OutcomeIn) (i : Nat) (r : NodeRec) (e : Nat × BitVec 64 × Nat) (s : State), s.tan.joined = false →
      nodeEntry s x.net x.dst = some (i, r) → s.sched.sentTo.find? (fun y => y.1 = i && y.2.1 = x.t0) = some e → e.2.2 = 0 →
      exec (.candidateOutcome x) s = .next (settleNode x 0 (settleItem x
        { s with sched := { s.sched with sentTo := s.sched.sentTo.filter (· != e) } })))
  ∧ (∀ (d : Downlink) (s : State), s.sched.wait.find? (fun y => y.seq = d.seq) = some d → d.flying = false →
      reached s (d.enq + BitVec.ofNat 64 (1000000000 * lifetimeOf s d.tenant d.service)) = true →
      exec (.dlLifetimeExpiry d.seq) s =
        .next (countSched 10 (cellPlain (placeOf s d)) (endWaiting (lifetimeRefusal d.status) d s)))
  ∧ (lifetimeRefusal (some .deferredDuty) = .refusedDuty ∧ lifetimeRefusal (some .deferredShaper) = .refusedShaper
      ∧ lifetimeRefusal (some .deferredPrecedence) = .refusedPrecedence
      ∧ lifetimeRefusal (some .deferredRendezvous) = .refusedCapacity
      ∧ lifetimeRefusal (some .deferredCapacity) = .refusedCapacity ∧ lifetimeRefusal (some .deferredCoexPending) = .refusedCoex)
  ∧ (∀ s : State, s.air.second < secondOf (now s) →
      exec .ledgerSecond s = .next ((List.range 64).foldl (fun t k => bandSecond (secondOf (now s)) k t)
        { s with air := { s.air with second := secondOf (now s) } }))
  ∧ (∀ s : State, s.air.pendShape = [] → s.air.pendLife = [] → s.air.ms < (now s).toNat / 1000000 →
      ∃ t, exec .shaperRefill s = .next t ∧ t.air.ms = (now s).toNat / 1000000
        ∧ t.air.tokens = s.air.tokens.map (fun e => (e.1, refilled (shapeOf s e.1) ((now s).toNat / 1000000 - s.air.ms) e.2))
        ∧ t.cfg.air.shapes = s.cfg.air.shapes)
  ∧ (∀ (i : Nat) (s : State), ∃ t, exec (.rendezvousIndexRebuild i) s = .next t ∧ i ∉ t.dev.idxRebuild
        ∧ (∀ k, k ≠ i → (k ∈ t.dev.idxRebuild ↔ k ∈ s.dev.idxRebuild)) ∧ t.fwd = s.fwd ∧ t.sched = s.sched)

/-! ### Forwarding and nodes -/

/-- R295-R298, R307, R308, R310, R312, R316: the commands of the prefix memory and of forwarding.
R300-R304, R312-R316: the commands on node records, which run on the node's home. -/
def Obligations.ForwardingAndNodeCommandsRun : Prop :=
  (let entry (c : Packet) (i : Nat) : PrefixEntry :=
    { home := bit (pw c (i + 4)) 25, tenant := pf c (i + 4) 7 0, len := pf c (i + 4) 15 8, key := keyOfWords (pwords c i 4),
      result := pf c (i + 4) 18 16, arg := pf c (i + 4) 24 19, service := pf c (i + 4) 29 27 }
  let sound (e : PrefixEntry) : Prop :=
    (e.home = true → e.tenant ≤ 15 ∧ e.len ≤ 32)
    ∧ (e.home = false → e.len ≤ 128 ∧ e.result ≤ 4 ∧ (e.result = 1 → e.arg ≤ 15) ∧ (e.result = 3 → e.arg ≤ 1))
    ∧ e.key <<< e.len = 0#128
  let put (u : State) (l : List PrefixEntry) : State := { u with cfg := { u.cfg with fwd := { u.cfg.fwd with prefixes := l } } }
  Runs .prefixInsert 0x0700 5
      (fun c u => pf c 4 31 30 = 0 ∧ bit (pw c 4) 26 = true ∧ sound (entry c 0)
        ∧ (u.cfg.fwd.prefixes.length < 16384 ∨ ∃ x ∈ u.cfg.fwd.prefixes, sameEntry (entry c 0) x = true))
      (fun _ _ => []) (fun c u => put u (insertPrefix (entry c 0) u.cfg.fwd.prefixes))
  ∧ Runs .prefixDelete 0x0701 5
      (fun c _ => pf c 4 31 30 = 0 ∧ (if (entry c 0).home then (entry c 0).tenant ≤ 15 ∧ (entry c 0).len ≤ 32 else (entry c 0).len ≤ 128))
      (fun c u => [if ∃ x ∈ u.cfg.fwd.prefixes, sameEntry (entry c 0) x = true then 1#32 else 0#32])
      (fun c u => put u (u.cfg.fwd.prefixes.filter (fun x => !sameEntry (entry c 0) x)))
  ∧ (∀ e : PrefixEntry, Runs .prefixSearch 0x0702 6
      (fun c u => pn c 0 ≤ 1 ∧ pn c 1 ≤ (if pn c 0 = 1 then 15 else 255)
        ∧ prefixSearch u (pn c 0 = 1) (pn c 1) (keyOfWords (pwords c 2 4)) = some e)
      (fun _ _ => entryWords e) (fun _ u => u))
  ∧ Runs .prefixSearch 0x0702 6
      (fun c u => pn c 0 ≤ 1 ∧ pn c 1 ≤ (if pn c 0 = 1 then 15 else 255)
        ∧ prefixSearch u (pn c 0 = 1) (pn c 1) (keyOfWords (pwords c 2 4)) = none)
      (fun _ u => [Config.freeWord u.free, Config.freeWord (u.free + 1), Config.freeWord (u.free + 2),
        Config.freeWord (u.free + 3), 0#32]) (fun _ u => { u with free := u.free + 4 })
  ∧ Runs .prefixNext 0x0703 7 (fun c _ => pn c 0 < 2 ∧ pf c 5 31 30 = 0 ∧ 1 ≤ pn c 6 ∧ pn c 6 ≤ 64)
      (fun c u =>
        let l := ((walkOrder u.cfg.fwd.prefixes).filter
          (fun e => bit (pw c 0) 0 || keyBefore (walkKey (entry c 1)) (walkKey e))).take (pn c 6)
        w32 l.length :: l.flatMap entryWords) (fun _ u => u)
  ∧ Runs .fwdTenantSet 0x0730 3 (fun c _ => pn c 0 ≤ 255 ∧ (pn c 1 = 0 ∨ (64 ≤ pn c 1 ∧ pn c 1 ≤ 1023)) ∧ pn c 2 < 2) (fun _ _ => [])
      (fun c u => { u with cfg := { u.cfg with fwd := { u.cfg.fwd with
        hostQ := tabSet u.cfg.fwd.hostQ (pn c 0) (pn c 1), dscp := tabSet u.cfg.fwd.dscp (pn c 0) (bit (pw c 2) 0) } } })
  ∧ Runs .fwdFloodSet 0x0731 3 (fun c _ => pn c 0 ≤ 15) (fun _ _ => [])
      (fun c u => { u with cfg := { u.cfg with fwd := { u.cfg.fwd with flood := tabSet u.cfg.fwd.flood (pn c 0) (p64 c 1) } } })
  ∧ Runs .fwdStatus 0x0740 0 (fun _ _ => True)
      (fun _ u => [w32 u.cfg.fwd.prefixes.length, w32 u.fwd.nodes.length,
        w32 (u.fwd.nodes.filter (fun e => 1048576 ≤ e.1)).length, w32 u.link.unrec.length, w32 (u.fwd.hits / 1024),
        w32 (u.fwd.misses / 1024)]) (fun _ u => u)
  ∧ Runs .fwdCountersRead 0x0750 1 (fun c _ => pn c 0 < 2) (fun _ u => u.fwd.counters.map w32)
      (fun c u => if pn c 0 = 1 then { u with fwd := { u.fwd with counters := List.replicate 9 0 } } else u))
  ∧ (let rec' (c : Packet) (u : State) (i : Nat) (r : NodeRec) : Prop :=
    pn c 0 ≤ 15 ∧ homeOf u (pn c 0) (pw c 1) = ownHid u ∧ nodeEntry u (pn c 0) (pw c 1) = some (i, r)
  (∀ i : Nat, Runs .nodeInsert 0x0710 3
      (fun c u => pn c 0 ≤ 15 ∧ pw c 1 ≠ 0#32 ∧ pw c 1 ≤ 0xFFFFFEFF#32 ∧ pn c 2 ≤ 255 ∧ homeOf u (pn c 0) (pw c 1) = ownHid u
        ∧ nodeEntry u (pn c 0) (pw c 1) = none ∧ freePosition u (pn c 0) (pw c 1) = some i)
      (fun _ _ => [w32 i])
      (fun c u =>
        let r : NodeRec := { addr := pw c 1, net := pn c 0, tenant := pn c 2, hostIns := true, win := unrecOf u (pn c 0) (pw c 1) }
        setNode i r (dropUnrec (pn c 0) (pw c 1) u)))
  ∧ Ends .nodeInsert 0x0710 3
      (fun c u => pn c 0 ≤ 15 ∧ pw c 1 ≠ 0#32 ∧ pw c 1 ≤ 0xFFFFFEFF#32 ∧ pn c 2 ≤ 255 ∧ homeOf u (pn c 0) (pw c 1) ≠ ownHid u)
      .refusedNodeUnknown
  ∧ (∀ (i : Nat) (r : NodeRec), Runs .nodeDelete 0x0711 2 (fun c u => rec' c u i r) (fun _ _ => []) (fun _ u => deleteNode i r u))
  ∧ (∀ (i : Nat) (r : NodeRec), Runs .nodeRead 0x0712 2 (fun c u => rec' c u i r) (fun _ u => nodeWords u r) (fun _ u => touchNode i u))
  ∧ Ends .nodeRead 0x0712 2 (fun c u => pn c 0 ≤ 15 ∧ nodeEntry u (pn c 0) (pw c 1) = none) .refusedNodeUnknown
  ∧ (∀ (i : Nat) (r : NodeRec), Runs .nodeUpdate 0x0713 19 (fun c u => rec' c u i r ∧ pn c 2 < 256) (fun _ _ => [])
      (fun c u => setNode i { r with tenant := pf c 2 7 0, host := pwords c 3 16 } u))
  ∧ Runs .nodeNext 0x0714 3
      (fun c _ => pn c 0 ≤ 1048639 ∧ 1 ≤ pn c 1 ∧ pn c 1 ≤ 64 ∧ (pn c 2 ≤ 15 ∨ pw c 2 = 0xFFFFFFFF#32))
      (fun c u =>
        let l := u.fwd.nodes.filter (fun e => pn c 0 ≤ e.1 && (pw c 2 = 0xFFFFFFFF#32 || w32 e.2.net = pw c 2))
        nextCursor (l.take (pn c 1)) (l.drop (pn c 1)) :: w32 (l.take (pn c 1)).length
          :: (l.take (pn c 1)).flatMap (fun e => [e.2.addr, w32 (e.2.net % 16), w32 e.1])) (fun _ u => u)
  ∧ Runs .flushByPort 0x0715 5 (fun c _ => pn c 0 ≤ 3 ∧ pn c 1 ≤ (if pn c 0 = 3 then 1 else 3) ∧ pn c 4 < 2)
      (fun c u => [w32 (u.fwd.nodes.filter (fun e => learnedThrough c u e.2)).length,
        w32 (u.cfg.fwd.prefixes.filter (routedThrough c u)).length])
      (fun c u => setPrefixes (u.cfg.fwd.prefixes.filter (fun e => !routedThrough c u e))
        ((u.fwd.nodes.filter (fun e => learnedThrough c u e.2)).foldl
          (fun t e => if bit (pw c 4) 0 then deleteNode e.1 e.2 t else setNode e.1 { e.2 with pathValid := false } t) u))
  ∧ RunsOn .nodeHomeMove 0x0720 4
      (fun c u => pn c 0 ≤ 15 ∧ pn c 2 ≤ 32 ∧ pn c 3 ≤ 63 ∧ homeKey (pw c 1) <<< pn c 2 = 0#128 ∧ minorityCheck u = none
        ∧ homeOf u (pn c 0) (pw c 1) = ownHid u ∧ (pn c 3 = ownHid u ∨ reachable u (pn c 3) = true))
      (fun c u =>
        let u1 := (movedRecs u (pn c 0) (pw c 1) (pn c 2)).foldl (fun t e => originate (.moveCopy (pn c 3) (nodeWords u e.2)) t) u
        let m : Move :=
          { net := pn c 0, pfx := pw c 1, len := pn c 2, target := pn c 3, asn := moveAsn u, queue := c.queue.val, tag := c.tag }
        { u1 with fwd := { u1.fwd with moves := u1.fwd.moves ++ [m] } })
  ∧ Ends .nodeHomeMove 0x0720 4
      (fun c u => pn c 0 ≤ 15 ∧ pn c 2 ≤ 32 ∧ pn c 3 ≤ 63 ∧ homeKey (pw c 1) <<< pn c 2 = 0#128 ∧ u.herd.minority = true)
      .notPermittedMinority)

/-- R296, R297, R298: while the prefix memory is kept in descending LENGTH, an insert keeps it so and leaves one entry for
its key fields, and a search returns a matching entry that no other matching one outlasts.
R307-R309: what becomes of a packet that the forwarding unit searches, by the result of its search. -/
def Obligations.PrefixSearchAndResolution : Prop :=
  ((∀ (e : PrefixEntry) (l : List PrefixEntry), l.Pairwise (fun a b => b.len ≤ a.len) →
      (insertPrefix e l).Pairwise (fun a b => b.len ≤ a.len) ∧ e ∈ insertPrefix e l
        ∧ (∀ x ∈ l, sameEntry e x = false → x ∈ insertPrefix e l)
        ∧ (∀ x ∈ insertPrefix e l, sameEntry e x = true → x = e))
  ∧ (∀ (s : State) (home : Bool) (tenant : Nat) (key : BitVec 128) (e : PrefixEntry),
      s.cfg.fwd.prefixes.Pairwise (fun a b => b.len ≤ a.len) → prefixSearch s home tenant key = some e →
      e ∈ s.cfg.fwd.prefixes ∧ e.home = home ∧ e.tenant = tenant ∧ samePrefix e.len e.key key = true
        ∧ ∀ x ∈ s.cfg.fwd.prefixes, x.home = home → x.tenant = tenant → samePrefix x.len x.key key = true → x.len ≤ e.len)
  ∧ (∀ (s : State) (home : Bool) (tenant : Nat) (key : BitVec 128), prefixSearch s home tenant key = none →
      ∀ x ∈ s.cfg.fwd.prefixes, ¬ (x.home = home ∧ x.tenant = tenant ∧ samePrefix x.len x.key key = true)))
  ∧ (∀ (p : PacketIn) (s : State),
    let l := p.bytes
    let r := resolvePacket p s
    if l.length < 40 ∨ byteAt l 0 / 16 ≠ 6 then r = countFwd 8 s
    else match prefixSearch s false p.tenant.toNat (ipv6Dst l) with
      | none => r = raise .noRoute (countFwd 1 s)
      | some e =>
        (e.result = 0 → r = countFwd 0 s)
        ∧ (e.result = 1 → ∀ a, identified l = some a →
            r = toNode { p with net := Fin.ofNat 16 e.arg, addr := a, service := Fin.ofNat 8 (serviceOf s p.tenant.toNat e l) } s)
        ∧ (e.result = 1 → identified l = none → r = countFwd 2 s)
        ∧ (e.result = 2 → 2 ≤ p.crossings → r = raise .noRoute (countFwd 1 (countFwd 5 s)))
        ∧ (e.result = 2 → p.crossings < 2 → (e.arg = ownHid s ∨ reachable s e.arg = false) → r = raise .noRoute (countFwd 1 s))
        ∧ (e.result = 3 → r = toBackhaul e.arg p.tenant.toNat false l s)
        ∧ (e.result = 4 → tabGet s.cfg.fwd.hostQ p.tenant.toNat 0 = 0 → r = raise .noRoute (countFwd 1 s))
        ∧ (e.result = 4 → tabGet s.cfg.fwd.hostQ p.tenant.toNat 0 ≠ 0 →
            r = pushBytes (tabGet s.cfg.fwd.hostQ p.tenant.toNat 0) l (coverPacket l s)))

/-- R303, R308, R311, R315: packets and copies from other members, the switch of a home, and a record's write-back. -/
def Obligations.ForwardingEventsAct : Prop :=
  (∀ (x : PacketIn) (s : State), x.home = false → s.tan.joined = false → exec (.forwardedPacket x) s = .next (resolvePacket x s))
  ∧ (∀ (x : PacketIn) (r : NodeRec) (s : State), x.home = true → s.tan.joined = false → homeOf s x.net x.addr = ownHid s → x.addr ≠ everyNode →
      nodeOf s x.net x.addr = some r → r.tenant = x.tenant.toNat →
      exec (.forwardedPacket x) s = .next (enqueueNode r r.tenant x.service x.bytes s))
  ∧ (∀ (r : NodeRec) (tenant service : Nat) (l : List Byte) (s : State), (nodeCells r ≠ []) →
      (waitingFor s r.net r.addr).length < 16 → (compress s tenant r.addr l).length ≤ 230 →
      (enqueueNode r tenant service l s).sched.wait = s.sched.wait ++ [{ downlinkOf s r.net r.addr tenant service 0 l with
        seq := s.sched.nextSeq, enq := now s }])
  ∧ (∀ (r : NodeRec) (tenant service : Nat) (l : List Byte) (s : State), nodeCells r = [] →
      enqueueNode r tenant service l s = refuseItem .refusedNoRoute (downlinkOf s r.net r.addr tenant service 0 l) s)
  ∧ (∀ (r : NodeRec) (tenant service : Nat) (l : List Byte) (s : State), nodeCells r ≠ [] → 16 ≤ (waitingFor s r.net r.addr).length →
      enqueueNode r tenant service l s = refuseItem .refusedCapacity (downlinkOf s r.net r.addr tenant service 0 l) s)
  ∧ (∀ (r : NodeRec) (tenant service : Nat) (l : List Byte) (s : State), nodeCells r ≠ [] → (waitingFor s r.net r.addr).length < 16 →
      230 < (compress s tenant r.addr l).length →
      enqueueNode r tenant service l s = { s with fwd := { s.fwd with oversize := s.fwd.oversize + 1 } })
  ∧ (∀ (x : FloodIn) (s : State), s.tan.joined = false → ∃ t, exec (.floodCopy x) s = .next t
      ∧ t.sched.wait = s.sched.wait ++ [{ net := x.net.val, addr := x.addr, tenant := x.tenant.toNat, service := x.service.val,
                                          payload := x.frame, kind := 6, seq := s.sched.nextSeq, enq := now s }])
  ∧ (∀ (x : SwitchIn) (m : Move) (s : State), s.fwd.moves.find? (sameMove x) = some m → x.outcome = .done →
      s.tan.joined = false →
      asnReached (asnAt s (now s)) m.asn = true → exec (.homeSwitch x) s = .next (leaveHome m x (dropMove m s)))
  ∧ (∀ (x : SwitchIn) (m : Move) (s : State), s.fwd.moves.find? (sameMove x) = some m → x.outcome = .full →
      s.tan.joined = false →
      exec (.homeSwitch x) s = .next (complete m.queue m.tag .refusedTableFull [] (dropMove m s)))
  ∧ (∀ (x : SwitchIn) (m : Move) (s : State), s.fwd.moves.find? (sameMove x) = some m → x.outcome = .peerReset →
      s.tan.joined = false →
      exec (.homeSwitch x) s = .next (complete m.queue m.tag .retryPeerReset [] (dropMove m s)))
  ∧ (∀ (x : SwitchIn) (s : State), s.fwd.moves.find? (sameMove x) = none → x.outcome = .done →
      s.tan.joined = false →
      exec (.homeSwitch x) s = .next (joinHome x s))
  ∧ (∀ (i : Nat) (s : State), i ∈ s.fwd.dirty → i < nodeLimit → ∃ t, exec (.nodeCacheWriteBack i) s = .next t ∧ i ∉ t.fwd.dirty
      ∧ tabFind t.fwd.dram i = tabFind s.fwd.nodes i ∧ t.fwd.nodes = s.fwd.nodes ∧ ∀ k, k ≠ i → tabFind t.fwd.dram k = tabFind s.fwd.dram k)

/-! ### Backhaul, herd links and host attachment -/

/-- R320-R322, R325, R348: the backhaul commands.
R330, R333, R341, R342, R348: the commands of the herd links, of the aperture and of the DMA engines. -/
def Obligations.PortCommandsRun : Prop :=
  (let cfg (c : Packet) (u : State) : BhCfg := bhCfg u (pn c 0)
  let queue (n : Nat) : Prop := n = 0 ∨ (64 ≤ n ∧ n ≤ 1023)
  let tenant (n : Nat) : Prop := n ≤ 255 ∨ n = 65535
  Runs .bhPortSet 0x0800 6
      (fun c u => pn c 0 ≤ 1 ∧ pn c 1 < 256 ∧ 1518 ≤ pn c 2 ∧ pn c 2 ≤ 9216 ∧ tenant (pn c 3) ∧ queue (pn c 4) ∧ queue (pn c 5)
        ∧ ((cfg c u).enable = true → (cfg c u).fec = bit (pw c 1) 3 ∧ (cfg c u).polarity = (pw c 1 >>> 4).setWidth 4))
      (fun _ _ => [])
      (fun c u =>
        let v : BhCfg := { cfg c u with
          enable := bit (pw c 1) 0, bcast := bit (pw c 1) 1, diag := bit (pw c 1) 2, fec := bit (pw c 1) 3,
          polarity := (pw c 1 >>> 4).setWidth 4, maxFrame := pn c 2, untagged := (pw c 3).setWidth 16, ctrlQ := pn c 4,
          hostTxq := pn c 5 }
        let u1 := setBhCfg u (pn c 0) v
        if bit (pw c 1) 0 then u1 else setBh u1 (pn c 0) { bhRun u1 (pn c 0) with up := false })
  ∧ Ends .bhPortSet 0x0800 6
      (fun c u => pn c 0 ≤ 1 ∧ pn c 1 < 256 ∧ 1518 ≤ pn c 2 ∧ pn c 2 ≤ 9216 ∧ tenant (pn c 3) ∧ queue (pn c 4) ∧ queue (pn c 5)
        ∧ (cfg c u).enable = true ∧ (cfg c u).fec ≠ bit (pw c 1) 3) .invalidState
  ∧ Runs .bhFilterSet 0x0801 5
      (fun c _ => pn c 0 ≤ 1 ∧ pn c 1 ≤ 15 ∧ pn c 3 < 65536 ∧ pn c 4 < 2 ∧ (p64 c 2).setWidth 48 ≠ 0xFFFFFFFFFFFF#48) (fun _ _ => [])
      (fun c u =>
        let l := if pn c 4 = 1 then tabSet (cfg c u).filters (pn c 1) ((p64 c 2).setWidth 48) else tabDel (cfg c u).filters (pn c 1)
        setBhCfg u (pn c 0) { cfg c u with filters := l })
  ∧ Runs .bhVlanSet 0x0802 3 (fun c _ => pn c 0 ≤ 1 ∧ 1 ≤ pn c 1 ∧ pn c 1 ≤ 4094 ∧ tenant (pn c 2)) (fun _ _ => [])
      (fun c u =>
        let l := if pn c 2 = 65535 then tabDel (cfg c u).vlan (pn c 1) else tabSet (cfg c u).vlan (pn c 1) (pn c 2)
        setBhCfg u (pn c 0) { cfg c u with vlan := l })
  ∧ Runs .bhEgressSet 0x0803 7
      (fun c _ => pn c 0 ≤ 1 ∧ pn c 1 ≤ 255 ∧ pn c 3 < 65536 ∧ pn c 5 < 65536 ∧ pn c 6 < 131072) (fun _ _ => [])
      (fun c u =>
        let e : Egress := { dst := (p64 c 2).setWidth 48, src := (p64 c 4).setWidth 48, vid := (pw c 6).setWidth 12,
                            pcp := (pw c 6 >>> 12).setWidth 3, tagged := bit (pw c 6) 15 }
        let l := if bit (pw c 6) 16 then tabSet (cfg c u).egress (pn c 1) e else tabDel (cfg c u).egress (pn c 1)
        setBhCfg u (pn c 0) { cfg c u with egress := l })
  ∧ Runs .bhStatus 0x0804 1 (fun c _ => pn c 0 ≤ 1)
      (fun c u => [w32 (flag (bhRun u (pn c 0)).up + 2 * flag (cfg c u).fec), w32 (cfg c u).maxFrame,
        w32 (que u (64 + pn c 0)).words.length,
        w32 (if (cfg c u).hostTxq = 0 then 0 else (que u (cfg c u).hostTxq).words.length)]) (fun _ u => u)
  ∧ Runs .bhCountersRead 0x0805 2 (fun c _ => pn c 0 ≤ 1 ∧ pn c 1 < 2) (fun c u => (bhRun u (pn c 0)).counters.map w32)
      (fun c u => if pn c 1 = 1 then setBh u (pn c 0) { bhRun u (pn c 0) with counters := List.replicate 16 0 } else u))
  ∧ (Runs .herdLinkSet 0x0820 2
      (fun c u => pn c 0 ≤ 3 ∧ pn c 1 < 64 ∧ ((linkCfg u (pn c 0)).enable = true →
        (linkCfg u (pn c 0)).polarity = (pw c 1 >>> 1).setWidth 4 ∧ (linkCfg u (pn c 0)).reversal = bit (pw c 1) 5))
      (fun _ _ => [])
      (fun c u =>
        let v : HerdLinkCfg := { enable := bit (pw c 1) 0, polarity := (pw c 1 >>> 1).setWidth 4, reversal := bit (pw c 1) 5 }
        let u1 := setHerdCfg u { u.cfg.herd with links := tabSet u.cfg.herd.links (pn c 0) v }
        if bit (pw c 1) 0 ∨ (hlink u (pn c 0)).up = false then u1 else dropLink (pn c 0) u1)
  ∧ Runs .herdRouteSet 0x0821 2 (fun c _ => pn c 0 ≤ 63 ∧ pn c 1 < 256 ∧ pf c 1 7 6 ≠ 3) (fun _ _ => [])
      (fun c u =>
        let r : Route := { primary := pf c 1 1 0, primaryV := bit (pw c 1) 2, alternate := pf c 1 4 3, alternateV := bit (pw c 1) 5,
                           rule := pf c 1 7 6 }
        checkChain (refreshPresence (setHerdCfg u { u.cfg.herd with routes := tabSet u.cfg.herd.routes (pn c 0) r })))
  ∧ Runs .herdLinkStatus 0x0822 1 (fun c _ => pn c 0 ≤ 3)
      (fun c u =>
        let v := hlink u (pn c 0)
        [w32 (flag v.up), (v.neighbour.map w32).getD 0xFFFFFFFF#32, v.nEpoch, w32 v.unacked.length]) (fun _ u => u)
  ∧ Runs .herdCountersRead 0x0823 2 (fun c _ => pn c 0 ≤ 3 ∧ pn c 1 < 2) (fun c u => (hlink u (pn c 0)).counters.map w32)
      (fun c u => if pn c 1 = 1 then setHlink u (pn c 0) { hlink u (pn c 0) with counters := List.replicate 10 0 } else u)
  ∧ Runs .apertureSet 0x0840 2 (fun c _ => (p64 c 0).toNat % 67108864 = 0 ∧ (p64 c 0).toNat < 34359738368) (fun _ _ => [])
      (fun c u => { u with cfg := { u.cfg with aperture := p64 c 0 } })
  ∧ Runs .dmaEngineSet 0x0841 9
      (fun c u => pn c 0 ≤ 15 ∧ pn c 1 < 2 ∧ pn c 2 ≤ 1023 ∧ (p64 c 3).toNat % 16 = 0 ∧ (∃ k, 4 ≤ k ∧ k ≤ 16 ∧ pn c 5 = 2 ^ k)
        ∧ pn c 6 < 64 ∧ 1 ≤ pn c 7 ∧ pn c 7 ≤ 1000 ∧ pn c 8 ≤ 1000 ∧ (engine u (pn c 0)).running = false
        ∧ bindable u (pn c 0) (bit (pw c 1) 0) (pn c 2) = true) (fun _ _ => [])
      (fun c u =>
        let v : Engine :=
          { bound := true, d2h := bit (pw c 1) 0, queue := pn c 2, ring := p64 c 3, entries := pn c 5, vector := pn c 6, poll := pn c 7,
            holdoff := pn c 8, running := true, packets := (engine u (pn c 0)).packets }
        setEngine u (pn c 0) v)
  ∧ (∀ (u : State) (e q : Nat), bindable u e true q = true ↔ (que u q).consumer = 0b01#2 ∧ (que u q).dmaEngine.toNat = e)
  ∧ Runs .dmaEngineStop 0x0842 1 (fun c _ => pn c 0 ≤ 15) (fun c u => [w32 (engine u (pn c 0)).index])
      (fun c u => setEngine u (pn c 0) { engine u (pn c 0) with running := false, bells := 0 })
  ∧ Runs .dmaStatus 0x0843 1 (fun c _ => pn c 0 ≤ 15)
      (fun c u =>
        let v := engine u (pn c 0)
        [w32 (flag v.running + 2 * flag v.faulted), w32 v.fault, w32 v.index, w32 v.packets]) (fun _ u => u)
  ∧ Runs .pcieStatus 0x0844 0 (fun _ _ => True)
      (fun _ u => [w32 (u.host.speed % 16 + 16 * (u.host.width % 16)), u.host.aerU, u.host.aerC]) (fun _ u => u))

/-- R318-R323: how an enabled backhaul port judges a received frame, the first step that ends it deciding. -/
def Obligations.FramesAreJudgedInOrder : Prop :=
  ∀ (p : Fin 2) (f : EthIn) (s : State), s.tan.joined = false →
    let v := bhCfg s p
    let u := countBh 0 p s
    if v.enable = false then exec (.bhFrameReceived p f) s = .next s
    else if f.bytes.length + 4 < 64 then exec (.bhFrameReceived p f) s = .next (countBh 1 p u)
    else if ¬ ((∃ e ∈ v.filters, e.2 = dstMac f.bytes) ∨ (v.bcast = true ∧ dstMac f.bytes = 0xFFFFFFFFFFFF#48)) then
      exec (.bhFrameReceived p f) s = .next (countBh 2 p u)
    else if crc32 f.bytes ≠ f.fcs then exec (.bhFrameReceived p f) s = .next (raise (.bhFcs p) (countBh 3 p u))
    else if v.maxFrame < f.bytes.length + 4 then
      exec (.bhFrameReceived p f) s = .next (if v.diag then
          pushBytes 33 (frameRecord 0x0802 p v true f) (raise (.bhTrunc p) (countBh 4 p u))
        else raise (.bhTrunc p) (countBh 4 p u))
    else if etherType f.bytes = 0x8808 then exec (.bhFrameReceived p f) s = .next (countBh 5 p u)
    else match tenantOf v f.bytes with
      | none => exec (.bhFrameReceived p f) s = .next (countBh 6 p u)
      | some t =>
        if etherType f.bytes = 0x88F7 ∨ ptpUdp f.bytes = true then
          exec (.bhFrameReceived p f) s = .next (takePtp p (f.tRx - BitVec.ofNat 64 v.tsRx) f.bytes (countBh 8 p u))
        else if etherType f.bytes = 0x86DD ∧ controlDst (etherPayload f.bytes) = false then
          exec (.bhFrameReceived p f) s = .next (resolvePacket (packetOf t (ipv6Trim (etherPayload f.bytes))) (countBh 7 p u))
        else if v.ctrlQ = 0 then exec (.bhFrameReceived p f) s = .next (countBh 10 p u)
        else exec (.bhFrameReceived p f) s = .next (pushBytes v.ctrlQ (frameRecord 0x0801 p v false f) (countBh 9 p u))

/-- R325-R327: frames that a backhaul port sends, and the changes of its link.
R330, R331, R334, R336, R337: what happens on a herd link. -/
def Obligations.BackhaulAndLinkEventsAct : Prop :=
  ((∀ (p : Fin 2) (b : List Byte) (e : Egress) (s : State), (bhCfg s p).enable = true → (bhRun s p).up = true →
      portTurn s p = some (64 + p.val) → portPacket s (64 + p.val) = some b → tabFind (bhCfg s p).egress (byteAt b 0) = some e →
      let f := egressFrame (bhCfg s p) e (byteAt b 1 != 0) (b.drop 8)
      f.length + 4 ≤ (bhCfg s p).maxFrame →
      exec (.bhFrameTransmit p) s = .next (sendBh p f (countBh 11 p (servedHead p (64 + p.val) s))))
  ∧ (∀ (v : BhCfg) (e : Egress) (l : List Byte), e.tagged = false → 46 ≤ l.length →
      egressFrame v e false l = beBytes 6 e.dst.toNat ++ beBytes 6 e.src.toNat ++ [0x86#8, 0xDD#8] ++ l)
  ∧ (∀ (p : Fin 2) (b : List Byte) (s : State), (bhCfg s p).enable = true → (bhRun s p).up = true → (bhCfg s p).hostTxq ≠ 0 →
      (bhCfg s p).hostTxq ≠ 64 + p.val → portTurn s p = some (bhCfg s p).hostTxq → portPacket s (bhCfg s p).hostTxq = some b →
      14 ≤ b.length → b.length ≤ (bhCfg s p).maxFrame - 4 →
      exec (.hostTxFrame p) s =
        .next (sendBh p (b ++ List.replicate (60 - b.length) 0#8) (countBh 14 p (servedHead p (bhCfg s p).hostTxq s))))
  ∧ (∀ (p : Nat) (l : List Byte) (s : State),
      (sendBh p l s).out.bh = s.out.bh ++ [{ port := p, bytes := l ++ wordBytes (crc32 l) }])
  ∧ (∀ (p : Fin 2) (s : State), (bhRun s p).up = true →
      exec (.bhLinkDown p) s = .next (raise (.bhDown p) (setBh s p { bhRun s p with up := false })))
  ∧ (∀ (p : Fin 2) (s : State), (bhCfg s p).enable = true →
      exec (.bhLinkUp p) s = .next (setBh s p { bhRun s p with up := true })))
  ∧ ((∀ (l : Fin 4) (h : Fin 64) (e : Word) (s : State), linkBarred s l = false → (hlink s l).up = false → 64 ≤ (hlink s l).good → h.val = ownHid s →
      tandemLink s l = false →
      exec (.herdLinkUp l h e) s = .next (postEvent 0x0820 l 1#32 (raise (.herdDown l)
        (setHlink s l { hlink s l with neighbour := some h, nEpoch := e }))))
  ∧ (∀ (l : Fin 4) (h : Fin 64) (e : Word) (s : State), linkBarred s l = false → (hlink s l).up = false → 64 ≤ (hlink s l).good → h.val ≠ ownHid s →
      (peerOf s h).epoch = some e →
      exec (.herdLinkUp l h e) s = .next (refreshPresence (postEvent 0x0821 l (w32 h)
        (setHlink s l { hlink s l with up := true, neighbour := some h, nEpoch := e }))))
  ∧ (∀ (l : Fin 4) (s : State), (hlink s l).up = true →
      exec (.herdLinkDown l) s = .next (dropLink l (postEvent 0x0820 l 0#32 (raise (.herdDown l) (countHerd 5 l s)))))
  ∧ (∀ (l : Fin 4) (x : FlitIn) (s : State), (hlink s l).up = true →
      let f := flitOf x
      let crc := crc32 (bytesOfWords x.words 252)
      let w := x.words.getD 63 0#32
      (w ≠ crc → w = ~~~ crc → exec (.herdFlitReceived l x) s = .next (countHerd 3 l s))
      ∧ (w ≠ crc → w ≠ ~~~ crc → exec (.herdFlitReceived l x) s = .next (oweNak l (stompCopy l f (countHerd 2 l s))))
      ∧ (w = crc → f.typ ≠ 0#8 → (hlink (takeLinkWord l f s) l).up = true → f.seq.toNat ≠ (hlink (takeLinkWord l f s) l).rxSeq →
          exec (.herdFlitReceived l x) s = .next (oweNak l (takeLinkWord l f s)))
      ∧ (w = crc → f.typ ≠ 0#8 → (hlink (takeLinkWord l f s) l).up = true → f.seq.toNat = (hlink (takeLinkWord l f s) l).rxSeq →
          exec (.herdFlitReceived l x) s = .next (acceptFlit l f (takeLinkWord l f s))))
  ∧ (∀ (l : Fin 4) (x : FlitIn) (s : State), (hlink s l).up = false → linkBarred s l = false →
      exec (.herdFlitReceived l x) s = .next (setHlink s l { hlink s l with
        good := if x.words.getD 63 0#32 = crc32 (bytesOfWords x.words 252) then min 64 ((hlink s l).good + 1) else 0 }))
  ∧ (∀ (h : Nat) (e known : Word) (s : State), (peerOf s h).epoch = some known → (e - known).toInt < 0 → noteEpoch h e s = (false, s))
  ∧ (∀ (h : Nat) (e : Word) (s : State), trouble (peerReset h e s) .peerReset = true)
  ∧ (∀ (l : Fin 4) (s : State), (hlink s l).up = true → (hlink (discardUnreachable s) l) = hlink s l
      ∧ ∀ t, sendChannel l true (discardUnreachable s) = some t → exec (.herdFlitTransmit l) s = .next t)
  ∧ (∀ (l : Fin 4) (s : State), (hlink s l).up = true → sendChannel l true (discardUnreachable s) = none →
      sendChannel l false (discardUnreachable s) = none →
      exec (.herdFlitTransmit l) s = .next (sendControl l (discardUnreachable s)))
  ∧ (∀ (l : Fin 4) (s : State), (hlink s l).up = false → linkBarred s l = false →
      exec (.herdFlitTransmit l) s = .next (sendControl l s))
  ∧ (∀ (l : Fin 4) (t : State) (s : State), (hlink s l).up = true → sendChannel l true (discardUnreachable s) = none →
      sendChannel l false (discardUnreachable s) = some t → exec (.herdFlitTransmit l) s = .next t)
  ∧ (∀ (l : Nat) (vc : Bool) (f : FlitRec) (s : State), transitHead (hlink s l) vc = some f → 0 < (hlink s l).credits.getD (creditIndex f) 0 →
      (hlink s l).unacked.length < 64 →
      sendChannel l vc s = some (sendFlit l f (setHlink s l { hlink s l with transit := (hlink s l).transit.erase f })))
  ∧ (∀ (l : Fin 4) (s : State), (hlink s l).up = true → (hlink s l).unacked ≠ [] → (∀ f ∈ (hlink s l).unacked, f.resends < 16) →
      ∃ t, exec (.herdReplayTimeout l) s = .next t ∧ trouble t (.herdRetry l) = true
        ∧ (hlink t l).unacked = (hlink s l).unacked.map (fun f => { f with resends := f.resends + 1 }))
  ∧ (∀ (src : Fin 64) (vc : Bool) (r : Reasm) (seq : BitVec 16) (s : State), reasmOf s src vc = some r → r.seq = seq.toNat →
      reached s (r.first + 1000000#64) = true →
      exec (.herdMessageTimeout src vc seq) s = .next (countHerd 9 r.link (dropReasm src vc s))))

/-- R342-R347: the DMA engines at work, and the host reset. -/
def Obligations.HostAttachmentActs : Prop :=
  (∀ (e : Fin 16) (d : DescIn) (s : State), (engine s e).running = true → (engine s e).d2h = false → hasWork (engine s e) = true →
      pollDue s e = true → d.error = false → d.own = true → d.addr.toNat % 8 = 0 → d.len ≠ 0#16 →
      exec (.dmaPoll e d) s = .next (takeDesc e d s))
  ∧ (∀ (e : Fin 16) (d : DescIn) (s : State), (engine s e).running = true → (engine s e).d2h = false → 0 < (engine s e).bells →
      d.error = false → d.own = false → exec (.dmaPoll e d) s = .next (dmaFault e 2 s))
  ∧ (∀ (e : Fin 16) (d : DescIn) (s : State), (engine s e).running = true → (engine s e).d2h = false → 16 ≤ (engine s e).queue →
      (engine s e).bells = 0 → pollDue s e = true → d.error = false → d.own = false →
      exec (.dmaPoll e d) s = .next (ranNow (.poll e) s))
  ∧ (∀ (e : Fin 16) (d : DescIn) (s : State), pollDue s e = false → exec (.dmaPoll e d) s = .next s)
  ∧ (∀ (e : Fin 16) (d : DescIn) (s : State), (engine s e).running = true → (engine s e).d2h = false → hasWork (engine s e) = true →
      pollDue s e = true → d.error = false → d.own = true → d.addr.toNat % 8 ≠ 0 → exec (.dmaPoll e d) s = .next (dmaFault e 0 s))
  ∧ (∀ (e : Fin 16) (d : DescIn) (l : List QWord) (s : State), (engine s e).running = true → (engine s e).d2h = true →
      visible (que s (engine s e).queue) = true → d.error = false → d.own = true → d.addr.toNat % 8 = 0 → d.len.toNat % 8 = 0 →
      64 ≤ d.len.toNat → bufferWords (que s (engine s e).queue) d.len.toNat = some l →
      exec (.dmaD2hTransfer e d) s = .next (fillBuffer e l s))
  ∧ (∀ (e : Nat) (detail : Nat) (s : State), trouble (dmaFault e detail s) .dmaFault = true
      ∧ (engine (dmaFault e detail s) e).running = false ∧ (engine (dmaFault e detail s) e).faulted = true)
  ∧ (∀ (e : Fin 16) (s : State), (engine s e).msiDue = true → exec (.dmaHoldoffExpiry e) s = .next (engineMsi e s))
  ∧ (∀ (e : Nat) (s : State), (engine s e).lastMsi = none → (engineMsi e s).out.msi = s.out.msi ++ [(engine s e).vector])
  ∧ (∀ (k : HostResetKind) (s : State), ∃ t, exec (.hostReset k) s = .next t ∧ t.cfg.aperture = 0x738000000#64
      ∧ t.cmd.held = [] ∧ (∀ e ∈ t.host.engines, e.2.running = false ∧ e.2.bound = false)
      ∧ (∀ n : Nat, n < 32 → (que t n).words = []) ∧ (∀ n : Fin 64, (sem t n).holder ≠ some 1#8)
      ∧ t.rx = s.rx ∧ t.radio = s.radio ∧ t.link = s.link ∧ t.sched = s.sched ∧ t.fwd = s.fwd ∧ t.bh = s.bh ∧ t.herd = s.herd)

/-! ### Time -/

/-- R352-R355, R362, R363, R366-R369, R384: the time commands. -/
def Obligations.TimeCommandsRun : Prop :=
  let signed8 (w : Nat) : Int := if w < 128 then w else (w : Int) - 256
  Runs .tbSelect 0x0900 5
      (fun c _ => 1 ≤ pn c 0 ∧ pn c 0 ≤ 5 ∧ pn c 1 < 1048576 ∧ (∀ i, i < pn c 0 → pf c 1 (4 * i + 3) (4 * i) ≤ 4) ∧ 1 ≤ pn c 2 ∧ pn c 2 ≤ 500
        ∧ pn c 3 ≤ 3600 ∧ pn c 4 ≤ 3600) (fun _ _ => [])
      (fun c u =>
        let l := (List.range (pn c 0)).map (fun i => pf c 1 (4 * i + 3) (4 * i))
        let t : TimeCfg := { u.cfg.time with list := l, slewMax := pn c 2, revertDelay := pn c 3, firstWait := pn c 4 }
        let u1 : State := { u with cfg := { u.cfg with time := t }, time := { u.time with selAt := some (base u 4).val } }
        tryFirstLock (follow (wanted u1) u1))
  ∧ Runs .timeStatusRead 0x0901 0 (fun _ _ => True)
      (fun _ u => timeStatus u :: (List.range 5).map (fun n =>
          let d : Int := ((base u n).val >>> 32).setWidth 64 - now u |>.toInt
          BitVec.ofInt 32 (max (-2147483648) (min 2147483647 d))) ++ [BitVec.ofInt 32 u.time.stRate]) (fun _ u => u)
  ∧ Runs .ptpSet 0x0902 11
      (fun c _ => pn c 0 ≤ 1 ∧ pn c 1 < 2048 ∧ pn c 2 < 256 ∧ -7 ≤ signed8 (pn c 2) ∧ signed8 (pn c 2) ≤ 6 ∧ 1 ≤ pn c 3
        ∧ pn c 3 ≤ 600 ∧ pn c 9 < 65536 ∧ pn c 10 < 8192) (fun _ _ => [])
      (fun c u =>
        let p : PtpCfg := { enable := bit (pw c 1) 8, domain := (pw c 1).setWidth 8, udp := bit (pw c 1) 9, port := pf c 1 10 10,
                            logDelay := (pw c 2).setWidth 8, timeout := pn c 3, ip := BitVec.ofNat 128 (beNat (pbytes c 4 16)),
                            mac := (p64 c 8).setWidth 48, vid := (pw c 10).setWidth 12, tagged := bit (pw c 10) 12 }
        let t := if pn c 0 = 0 then { u.cfg.time with ptpA := p } else { u.cfg.time with ptpB := p }
        { u with cfg := { u.cfg with time := t } })
  ∧ Runs .tbRearm 0x0903 1 (fun c u => pn c 0 ≤ 3 ∧ u.time.sel ≠ pn c 0) (fun _ _ => [])
      (fun c u =>
        let u1 := setBaseState (pn c 0) 0 u
        setBase u1 (pn c 0) { base u1 (pn c 0) with stepped := false, good := 0 })
  ∧ Ends .tbRearm 0x0903 1 (fun c u => pn c 0 ≤ 3 ∧ u.time.sel = pn c 0) .invalidState
  ∧ Runs .tb4Load 0x0904 3 (fun c u => pn c 2 < 2 ∧ u.time.tb4Stepped = false) (fun _ _ => [])
      (fun c u =>
        let v : BitVec 96 := (p64 c 0).setWidth 96 <<< 32
        let u1 := setBase u 4 { base u 4 with val := v }
        { u1 with time := { u1.time with tb4Stepped := true, selAt := u.time.selAt.map (· + (v - (base u 4).val)) }
                  cfg := { u1.cfg with time := { u1.cfg.time with discipline := bit (pw c 2) 0 } } })
  ∧ Ends .tb4Load 0x0904 3 (fun c u => pn c 2 < 2 ∧ u.time.tb4Stepped = true) .invalidState
  ∧ Runs .ppsSet 0x0905 4 (fun c _ => pn c 0 < 8 ∧ 1 ≤ pn c 2 ∧ pn c 2 ≤ 500000) (fun _ _ => [])
      (fun c u => { u with cfg := { u.cfg with time := { u.cfg.time with
        ppsIn := bit (pw c 0) 0, ppsFalling := bit (pw c 0) 1, ppsOut := bit (pw c 0) 2, ppsDelay := pw c 1, ppsWidth := pn c 2
        ppsOffset := pw c 3 } } })
  ∧ Runs .ppsTodSet 0x0906 2 (fun c _ => pn c 1 < 65536) (fun _ _ => [])
      (fun c u =>
        let v := if u.time.tod = none then setBase u 2 { base u 2 with good := 0 } else u
        { v with time := { v.time with tod := some (p64 c 0).toNat } })
  ∧ Runs .tcSet 0x0907 5 (fun c _ => pn c 0 < 64 ∧ pn c 1 < 65536 ∧ pn c 2 < 65536 ∧ pn c 3 < 65536 ∧ pn c 4 < 65536) (fun _ _ => [])
      (fun c u =>
        let u1 : State := { u with cfg := { u.cfg with time := { u.cfg.time with tcPorts := (pw c 0).setWidth 6 } } }
        let u2 := setBhCfg u1 0 { bhCfg u1 0 with tsRx := pn c 1, tsTx := pn c 2 }
        setBhCfg u2 1 { bhCfg u2 1 with tsRx := pn c 3, tsTx := pn c 4 })
  ∧ Runs .herdTimeSet 0x0908 2 (fun c _ => pn c 0 ≤ 63 ∧ 1 ≤ pn c 1 ∧ pn c 1 ≤ 100) (fun _ _ => [])
      (fun c u => { u with cfg := { u.cfg with time := { u.cfg.time with herdSource := pn c 0, htInterval := pn c 1 } } })
  ∧ (∀ n l, 2 ≤ n → n ≤ 64 → RunsOn .surveyRun 0x0909 (1 + n)
      (fun c u => pn c 0 = n ∧ (∀ h ∈ pwords c 1 n, h.toNat ≤ 63) ∧ (pwords c 1 n).map (·.toNat) = ownHid u :: l
        ∧ u.time.survey = none ∧ (linkTo u (l.headD 0)).isSome)
      (fun c u => beginSurvey { path := ownHid u :: l, pos := 0, queue := c.queue.val, tag := c.tag } u))
  ∧ (∀ (v : Survey) (l : Nat) (u : State), v.pos + 1 < v.path.length → linkTo u (v.path.getD (v.pos + 1) 64) = some l →
      nonHolder u = false → u.herd.leaveMsgs = false →
      (beginSurvey v u).time.survey = some v ∧ (hlink (beginSurvey v u) l).surveys = []
        ∧ (beginSurvey v u).out.herd = u.out.herd ++ [.probe l (now u)] ∧ (beginSurvey v u).cmd = u.cmd)
  ∧ Ends .surveyRun 0x0909 3 (fun c u => pn c 0 = 2 ∧ (∀ h ∈ pwords c 1 2, h.toNat ≤ 63)
      ∧ ((pwords c 1 2).map (·.toNat)).head? = some (ownHid u) ∧ u.time.survey ≠ none) .invalidState
  ∧ Runs .surveyRead 0x090A 1 (fun c _ => pn c 0 ≤ 3)
      (fun c u => [w32 ((hlink u (pn c 0)).delay.getD 0),
        w32 (flag (hlink u (pn c 0)).delay.isSome + 2 * flag (hlink u (pn c 0)).stale),
        w32 ((hlink u (pn c 0)).neighbour.getD 0)]) (fun _ u => u)
  ∧ Runs .timeCountersRead 0x0920 1 (fun c _ => pn c 0 < 2) (fun _ u => u.time.counters.map w32)
      (fun c u => if pn c 0 = 1 then { u with time := { u.time with counters := List.replicate 9 0 } } else u)

/-- R351-R358, R363, R366-R372, R379: the events of the time unit: its bases, PPS, PTP, herd time, the survey and the sleep
oscillator. -/
def Obligations.TimeEventsAct : Prop :=
  (∀ (b : Fin 4) (x : BaseIn) (s : State), x.state = 1 → (base s b).state ≠ 1 → (base s b).stepped = false →
      (if b.val < 2 then 8 else 4) ≤ (base s b).good → (b = 2 → s.time.tod ≠ none) → (b = 3 → s.cfg.time.herdSource ≠ ownHid s) →
      exec (.tbStateChange b x) s = .next (tryFirstLock (reselect (some b.val) (setBaseState b 1 (stepBase b s)))))
  ∧ (∀ (n : Nat) (s : State), (base (stepBase n s) n).val = (base s n).val + (BitVec.ofInt 64 (base s n).err).setWidth 96 <<< 32
      ∧ (base (stepBase n s) n).stepped = true ∧ (base (stepBase n s) n).inc = (base s n).inc
      ∧ ∀ k, k ≠ n → base (stepBase n s) k = base s k)
  ∧ (∀ (b : Fin 4) (x : BaseIn) (s : State), x.state = 1 → (base s b).state = 2 → (base s b).stepped = true →
      1 ≤ (base s b).good → (b = 2 → s.time.tod ≠ none) → (b = 3 → s.cfg.time.herdSource ≠ ownHid s) →
      exec (.tbStateChange b x) s = .next (tryFirstLock (reselect none (setBaseState b 1 s))))
  ∧ (∀ (b : Fin 4) (x : BaseIn) (s : State), x.state = 2 → (base s b).state = 1 → holdDue s b = true →
      exec (.tbStateChange b x) s = .next (reselect none (setBaseState b 2 s)))
  ∧ (∀ (b : Fin 4) (x : BaseIn) (s : State), x.state = 3 → ((base s b).state = 1 ∨ (base s b).state = 2) → lossDue s b = true →
      exec (.tbStateChange b x) s = .next (reselect none (setBaseState b 3 (setBase s b { base s b with good := 0 }))))
  ∧ (∀ s : State, holdDue s 2 = decide (1 ≤ s.time.ppsMiss) ∧ lossDue s 2 = decide (3 ≤ s.time.ppsMiss)
      ∧ holdDue s 3 = reached s ((base s 3).last + BitVec.ofNat 64 (3000000 * s.cfg.time.htInterval))
      ∧ lossDue s 3 = (reached s ((base s 3).last + 1000000000#64) || (routeLink s s.cfg.time.herdSource).isNone)
      ∧ lossDue s 0 = reached s ((base s 0).last + BitVec.ofNat 64 (1000000000 * s.cfg.time.ptpA.timeout))
      ∧ lossDue s 1 = reached s ((base s 1).last + BitVec.ofNat 64 (1000000000 * s.cfg.time.ptpB.timeout)))
  ∧ (∀ (b : Fin 4) (s : State), (base s b).state ≠ 3 →
      setBaseState b 3 s = postEvent 0x0901 b 3#32 (raise (.tbLoss b)
        (setBase s b { base s b with state := 3, since := now s })))
  ∧ (∀ (n : Nat) (s : State), n ≠ s.time.sel →
      follow n s = postEvent 0x0902 n (w32 s.time.sel) (raise .tbSwitch { s with time := { s.time with sel := n } }))
  ∧ (∀ (s : State), (wanted s = s.time.sel ∨ (followed s).state ≠ 1 ∨ stayedLocked s (wanted s) = true) →
      exec .revertDelayExpiry s = .next (follow (wanted s) s))
  ∧ (∀ (s : State), s.time.stLocked = true → exec .firstWaitExpiry s = .next s)
  ∧ (∀ (s : State) (t : BitVec 96), s.time.stLocked = false → s.time.sel = 4 → s.time.tb4Stepped = true → 4 ∈ s.cfg.time.list →
      s.time.selAt = some t → BitVec.ofNat 96 (s.cfg.time.firstWait * 1000000000 * 4294967296) ≤ (base s 4).val - t →
      s.cfg.time.firstWait ≤ 3600 →
      ∃ u, exec .firstWaitExpiry s = .next u ∧ u.time.st = (base s 4).val ∧ u.time.stLocked = true
        ∧ u.time.tbs.map (fun e => (e.1, e.2.val, e.2.inc, e.2.state)) = s.time.tbs.map (fun e => (e.1, e.2.val, e.2.inc, e.2.state))
        ∧ u.air.bands.map (fun e => (e.1, e.2.buckets.map (·.2))) = s.air.bands.map (fun e => (e.1, e.2.buckets.map (·.2))))
  ∧ (∀ (f : Bool) (s : State), s.tan.joined = false → s.cfg.time.ppsIn = true → s.cfg.time.ppsFalling = f →
      (base s 2).stepped = false →
      ∃ t, exec (.ppsInEdge f) s = .next t ∧ (base t 2).good = (base s 2).good + 1 ∧ t.time.tod = s.time.tod.map (· + 1)
        ∧ t.time.ppsMiss = 0 ∧ t.time.counters = listMod s.time.counters 3 (fun v => min (v + 1) 0xFFFFFFFF))
  ∧ (∀ (f : Bool) (s : State), s.tan.joined = false → s.cfg.time.ppsIn = true → s.cfg.time.ppsFalling = f →
      (base s 2).stepped = true →
      10000 < (pulseError s).natAbs →
      exec (.ppsInEdge f) s = .next { s with time := { s.time with
        counters := listMod s.time.counters 4 (fun v => min (v + 1) 0xFFFFFFFF) } })
  ∧ (∀ s : State, s.cfg.time.ppsIn = true → (base s 2).stepped = true → s.time.ppsSec + s.time.ppsMiss < lastWindow s →
      ∃ t, exec .ppsMissing s = .next t ∧ trouble t .ppsMissing = true ∧ t.time.ppsMiss = s.time.ppsMiss + 1
        ∧ (base t 2).good = 0 ∧ (base t 2).inc = (base s 2).inc)
  ∧ (∀ s : State, s.cfg.time.ppsOut = true → s.time.stLocked = true → s.tan.outputs = true →
      ((now s).toNat - s.cfg.time.ppsOffset.toInt) % 1000000000 < 10 →
      exec .ppsOutPulse s = .next { s with out := { s.out with ppsOut := s.out.ppsOut ++ [now s] } })
  ∧ (∀ s : State, s.time.stLocked = false → exec .ppsOutPulse s = .next s ∧ ppsOutLevel s = false)
  ∧ (∀ s : State, s.cfg.time.ppsOut = true → s.time.stLocked = true → s.tan.outputs = true →
      ppsOutLevel s = decide (((now s).toNat - s.cfg.time.ppsOffset.toInt) % 1000000000 < 1000 * s.cfg.time.ppsWidth))
  ∧ (∀ (b : Fin 2) (s : State), (ptpCfg s b).enable = true → (ptpRun s b).master ≠ none → bhReady s (ptpCfg s b).port = true →
      nonHolder s = false → periodDue (.delayReq b) (logNs (ptpCfg s b).logDelay.toInt) s = true →
      ∃ t f, exec (.delayReqSend b) s = .next t ∧ t.out.bh = s.out.bh ++ [f] ∧ f.port = (ptpCfg s b).port
        ∧ f.bytes = delayReqFrame (ptpCfg s b) (ptpRun s b).seq ++ wordBytes (crc32 (delayReqFrame (ptpCfg s b) (ptpRun s b).seq))
        ∧ (ptpRun t b).asked = some (wholeNs (base s b).val + BitVec.ofNat 64 (bhCfg s (ptpCfg s b).port).tsTx)
        ∧ (ptpRun t b).seq = ((ptpRun s b).seq + 1) % 65536 ∧ ranAt t (.delayReq b) = some (now s))
  ∧ (∀ (b : Fin 2) (s : State), periodDue (.delayReq b) (logNs (ptpCfg s b).logDelay.toInt) s = false →
      exec (.delayReqSend b) s = .next s)
  ∧ (∀ (b : Fin 2) (s : State), (ptpRun s b).master = none → exec (.delayReqSend b) s = .next s)
  ∧ (∀ (b : Nat) (m : List Byte) (t3 : BitVec 64) (ms : Int) (s : State), (ptpRun s b).asked = some t3 → (ptpRun s b).ms = some ms →
      slice m 44 10 = ownPortId (ptpCfg s b) → (ptpSeq m + 1) % 65536 = (ptpRun s b).seq →
      (ptpRun (takeDelayResp b m s) b).delay = some ((ms + ((ptpTime m - t3).toInt - ptpCorrection m)) / 2))
  ∧ (∀ (b : Nat) (t1 t2 : BitVec 64) (c : Int) (s : State), (ptpRun s b).delay = none →
      (ptpRun (measureSync b t1 t2 c s) b).ms = some ((t2 - t1).toInt - c) ∧ (base (measureSync b t1 t2 c s) b).good = 0)
  ∧ (∀ (b p : Nat) (t : BitVec 64) (l : List Byte) (s : State), ptpFor (ptpCfg s b) p l = false → slaveClock b p t l s = s)
  ∧ (∀ s : State, s.cfg.time.herdSource = ownHid s → periodDue .herdTime (1000000 * s.cfg.time.htInterval) s = true →
      exec .herdTimeSend s = .next ((linksUp s).foldl (fun u l => originate (.time l (now s)) u) (ranNow .herdTime s)))
  ∧ (∀ s : State, s.cfg.time.herdSource ≠ ownHid s → (base s 3).state = 1 →
      periodDue .herdTime (1000000 * s.cfg.time.htInterval) s = true →
      exec .herdTimeSend s = .next ((linksUp s).foldl
        (fun u l => originate (.time l (((base s 3).val >>> 32).setWidth 64)) u) (ranNow .herdTime s)))
  ∧ (∀ s : State, periodDue .herdTime (1000000 * s.cfg.time.htInterval) s = false → exec .herdTimeSend s = .next s)
  ∧ (∀ (p : Period) (n : Nat) (s : State), 0 < n → n < 2 ^ 63 → periodDue p n (ranNow p s) = false)
  ∧ (∀ (p q : Period) (n : Nat) (s : State), p ≠ q → periodDue p n (ranNow q s) = periodDue p n s)
  ∧ (∀ (l : Fin 4) (ts age : BitVec 64) (s : State), s.tan.joined = false → s.cfg.time.herdSource ≠ ownHid s →
      routeLink s s.cfg.time.herdSource = some l.val → (hlink s l).delay = none →
      exec (.herdTimeMessage l ts age) s = .next { s with time := { s.time with
        counters := listMod s.time.counters 6 (fun v => min (v + 1) 0xFFFFFFFF) } })
  ∧ (∀ (l : Fin 4) (d : Nat) (ts age : BitVec 64) (s : State), s.tan.joined = false → s.cfg.time.herdSource ≠ ownHid s →
      routeLink s s.cfg.time.herdSource = some l.val → (hlink s l).delay = some d →
      exec (.herdTimeMessage l ts age) s = .next (takeHerdTime d ts age s)
        ∧ ((base s 3).stepped = false → (base (takeHerdTime d ts age s) 3).good = (base s 3).good + 1))
  ∧ (∀ (l : Fin 4) (t1 t2 t3 t4 : BitVec 64) (s : State) (v : Survey), s.tan.joined = false → s.time.survey = some v →
      surveyedLink s = some l.val → (hlink s l).surveys.length < 15 →
      exec (.surveyProbe (.pair l t1 t2 t3 t4)) s = .next (originate (.probe l (now s)) (setHlink (ranNow .probe s) l { hlink s l with
        surveys := (hlink s l).surveys ++ [((t4 - t1).toInt - (t3 - t2).toInt) / 2] })))
  ∧ (∀ (l : Fin 4) (t1 t2 t3 t4 : BitVec 64) (s : State) (v : Survey), s.tan.joined = false → s.time.survey = some v →
      surveyedLink s = some l.val → (hlink s l).surveys.length = 15 → s.herd.leaveMsgs = false →
      let d := (median ((hlink s l).surveys ++ [((t4 - t1).toInt - (t3 - t2).toInt) / 2])).toNat
      ∃ t, exec (.surveyProbe (.pair l t1 t2 t3 t4)) s = .next t
        ∧ (hlink t l).delay = some d ∧ (hlink t l).stale = false ∧ (hlink t l).surveys = []
        ∧ t.out.herd = s.out.herd ++ [.survey (v.path.getD (v.pos + 1) 64) v.path (v.pos + 1) d])
  ∧ (∀ (l : Fin 4) (t1 t2 : BitVec 64) (s : State), s.tan.joined = false →
      exec (.surveyProbe (.request l t1 t2)) s = .next (originate (.probeAnswer l t1 t2 (now s)) s))
  ∧ (∀ (path : List Nat) (pos d l : Nat) (s : State), s.tan.joined = false → s.time.survey = none →
      linkTo s (path.getD (pos - 1) 64) = some l →
      exec (.surveyProbe (.passed path pos d)) s = .next (beginSurvey { path := path, pos := pos }
        (setHlink s l { hlink s l with delay := some d, stale := false, surveys := [] })))
  ∧ (∀ (v : Survey) (s : State), s.tan.joined = false → s.time.survey = some v → v.measured = false →
      periodDue .probe 1000000 s = true → exec (.surveyProbe .unanswered) s = .next (finishSurvey v.path (some v.pos) s))
  ∧ (∀ (v : Survey) (s : State), s.tan.joined = false → s.time.survey = some v → v.pos = 0 →
      exec (.surveyProbe (.ended v.path none)) s = .next (complete v.queue v.tag .ok [0#32, 0#32, w32 (v.path.length - 1)]
        (postEvent 0x0903 0 0#32 { s with time := { s.time with survey := none } })))
  ∧ (∀ (v : Survey) (i : Nat) (s : State), s.tan.joined = false → s.time.survey = some v → v.pos = 0 → placesIn v.path (ownHid s) = [0] →
      0 < i →
      exec (.surveyProbe (.ended v.path (some i))) s = .next (complete v.queue v.tag .ok [1#32, w32 i, w32 i]
        (postEvent 0x0903 1 (w32 i) (raise .surveyPartial { s with time := { s.time with survey := none } }))))
  ∧ (∀ (p : Word) (s : State), s.dev.mode ≠ .stall → 0x77359400 - 1000000 ≤ p.toNat → p.toNat ≤ 0x77359400 + 1000000 →
      exec (.sleepCalibration p) s = .next { s with time := { s.time with sleepPeriod := p } })
  ∧ (∀ (p : Word) (s : State), s.dev.mode ≠ .stall → 0x77359400 + 1000000 < p.toNat →
      exec (.sleepCalibration p) s = .next (raise .sleepCal { s with time := { s.time with sleepPeriod := p } }))
  ∧ (∀ (v : Word) (s : State), bit v 0 = true → exec (.snap v) s = .next { s with time := { s.time with
      snap := now s :: (List.range 5).map (fun n => ((base s n).val >>> 32).setWidth 64) } })
  ∧ (∀ (v : Word) (s : State), s.cfg.time.discipline = false →
      exec (.tb4IncHi v) s = .next (setBase s 4 { base s 4 with inc := v ++ s.time.incLo }))
  ∧ (∀ (v : Word) (s : State), s.cfg.time.discipline = true → exec (.tb4IncHi v) s = .next s)
  ∧ (∀ (s : State) (n : Nat), n < 4 → (base (tickTime s) n).val = (base s n).val + (base s n).inc.setWidth 96)
  ∧ (∀ s : State, s.time.stLocked = false → (tickTime s).time.st = s.time.st + (followed s).inc.setWidth 96)

/-- R374-R378, R381-R383: the gait timers. -/
def Obligations.GaitTimersAct : Prop :=
  let due (v : Gait) : Prop := bit v.ctrl 0 = true ∧ v.matched = false ∧ v.count = v.compare
  (∀ (t : Fin 16) (s : State), due (gait s t) → gtMode (gait s t) = 0 → (bit (gait s t).ctrl 27 = false ∨ gtVector (gait s t) = 0) →
      exec (.gtMatch t) s = .next (setGait s t { gait s t with
        matched := true, status := (gait s t).status ||| 1#32, ctrl := (gait s t).ctrl &&& 0xFFFFFFFE#32
        level := matchLevel (gait s t), setAt := now s, setNow := (if (gait s t).setAt = now s then (gait s t).setNow else 0) ||| 1#32 }))
  ∧ (∀ (t : Fin 16) (s : State), due (gait s t) → gtMode (gait s t) = 1 → (bit (gait s t).ctrl 27 = false ∨ gtVector (gait s t) = 0) →
      exec (.gtMatch t) s = .next (setGait s t { gait s t with
        matched := true, status := (gait s t).status ||| 1#32, compare := (gait s t).compare + (gait s t).interval
        level := matchLevel (gait s t), setAt := now s, setNow := (if (gait s t).setAt = now s then (gait s t).setNow else 0) ||| 1#32 }))
  ∧ (∀ (t : Fin 16) (s : State), due (gait s t) → gtMode (gait s t) < 2 → bit (gait s t).ctrl 27 = true → gtVector (gait s t) ≠ 0 →
      ∃ u, exec (.gtMatch t) s = .next u ∧ u.out.msi = s.out.msi ++ [gtVector (gait s t)])
  ∧ (∀ (t : Fin 16) (s : State), (gait s t).count ≠ (gait s t).compare → exec (.gtMatch t) s = .next s)
  ∧ (∀ (t : Fin 16) (f : Bool) (s : State), 1 ≤ gtCapSrc (gait s t) → gtCapSrc (gait s t) ≤ 4 → edgeSelected (gait s t) f = true →
      s.dev.mode ≠ .stall → s.tan.joined = false →
      ∃ u, exec (.gtCapEdge t f) s = .next u ∧ (gait u t).capture = (gait s t).count ∧ bit (gait u t).status 1 = true
        ∧ (bit (gait s t).status 1 = true → bit (gait u t).status 2 = true ∧ trouble u .gtOverrun = true)
        ∧ (bit (gait s t).status 1 = false → bit (gait u t).status 2 = bit (gait s t).status 2 ∧ u.trb = s.trb)
        ∧ ∀ k, k ≠ t.val → gait u k = gait s k)
  ∧ (∀ v : Gait, edgeSelected v false = decide (gtCapEdge v = 0 ∨ gtCapEdge v = 2)
      ∧ edgeSelected v true = decide (gtCapEdge v = 1 ∨ gtCapEdge v = 2))
  ∧ (∀ (t : Fin 16) (v : Word) (s : State), bit v 29 = true → exec (.gtClear t v) s = .next (setGait s t { gait s t with
      ctrl := v &&& 0x1FFFFFFF#32, count := 0, pre := 0, level := false, matched := false, status := (gait s t).status &&& 0xFFFFFFEF#32 }))
  ∧ (∀ (t : Fin 16) (v : Word) (s : State),
      exec (.gtCountWrite t v) s = .next (setGait s t { gait s t with count := v, matched := false }))
  ∧ (∀ (t : Fin 16) (v : Word) (s : State), (gait s t).count ≠ (gait s t).compare →
      exec (.gtCompareWrite t v) s = .next (setGait s t { gait s t with compare := v }))
  ∧ (∀ (t : Fin 16) (v : Word) (s : State), due (gait s t) → gtMode (gait s t) = 1 →
      ∃ u, exec (.gtCompareWrite t v) s = .next u ∧ (gait u t).compare = v ∧ bit (gait u t).status 0 = true)
  ∧ (∀ (t : Fin 16) (s : State), exec (.gtCaptureRead t) s = .next
      { setGait s t { gait s t with status := (gait s t).status &&& 0xFFFFFFFD#32 } with
        out := { s.out with reads := s.out.reads ++ [(gait s t).capture.setWidth 64] } })
  ∧ (∀ (t : Fin 16) (s : State), bit (gait s t).ctrl 0 = true → gtMode (gait s t) = 2 → bit (gait s t).status 4 = false →
      (gait s t).top ≤ (gait s t).count →
      exec (.upDownTurningPoint t) s = .next (setGait s t { gait s t with status := (gait s t).status ||| 16#32 }))
  ∧ (∀ (t : Fin 16) (s : State), bit (gait s t).ctrl 0 = true → gtMode (gait s t) = 2 → bit (gait s t).status 4 = true →
      (gait s t).count = 0 →
      exec (.upDownTurningPoint t) s = .next (setGait s t { gait s t with status := (gait s t).status &&& 0xFFFFFFEF#32 }))
  ∧ (∀ v : Gait, bit v.ctrl 0 = true → gtMode v < 2 → v.pre < gtPrescale v → tickGait v = { v with pre := v.pre + 1 })
  ∧ (∀ v : Gait, bit v.ctrl 0 = true → gtMode v < 2 → gtPrescale v ≤ v.pre → (tickGait v).count = v.count + 1 ∧ (tickGait v).pre = 0)
  ∧ (∀ (s : State) (k : Nat), (∀ t, t < 16 → gtOut (gait s t) ≠ k + 1) → gtOutput s k = false)

/-! ### Herd, tandem and Bridle -/

/-- R386, R387, R392, R394, R397, R409, R413, R418: the herd and tandem commands. -/
def Obligations.HerdCommandsRun : Prop :=
  Runs .herdIdSet 0x0B00 1 (fun c u => pn c 0 ≤ 63 ∧ ∀ l, l < 4 → (linkCfg u l).enable = false) (fun _ _ => [])
      (fun c u => { u with dev := { u.dev with hid := (pw c 0).setWidth 6 }
                           cfg := { u.cfg with herd := { u.cfg.herd with hidOverride := some ((pw c 0).setWidth 6) } } })
  ∧ Ends .herdIdSet 0x0B00 1 (fun c u => pn c 0 ≤ 63 ∧ (linkCfg u 0).enable = true) .invalidState
  ∧ Runs .herdMembersSet 0x0B01 3 (fun c _ => 10 ≤ pn c 2 ∧ pn c 2 ≤ 10000) (fun _ _ => [])
      (fun c u => judgeAuthority (refreshPresence (forgetStrangers { u with cfg := { u.cfg with herd :=
        { u.cfg.herd with members := some (p64 c 0), splitDelay := pn c 2 } } })))
  ∧ Runs .herdStatus 0x0B02 0 (fun _ _ => True)
      (fun _ u => loHi (presentMask u) ++ [w32 (flag u.herd.split + 2 * flag u.herd.minority), w32 (maskCount (members u)),
        w32 (maskCount (presentMask u))]) (fun _ u => u)
  ∧ Runs .herdLeave 0x0B03 1 (fun c u => pn c 0 < 2 ∧ u.rx.drains = [] ∧ u.rx.tracks = []) (fun _ _ => [0#32])
      (fun c u =>
        let w : Withdrawal := { queue := c.queue.val, tag := c.tag, plain := none, kind := .herdLeave, tracks := [] }
        finishWithdrawal { w with deadline := after u 4000000000 }
          { u with herd := { u.herd with leaving := true },
                   rx := { u.rx with drains := [{ w with deadline := after u 4000000000 }] } })
  ∧ Runs .foreignSet 0x0B04 2 (fun c _ => pn c 0 ≤ 1 ∧ pn c 1 < 4096) (fun _ _ => [])
      (fun c u => setBhCfg u (pn c 0) { bhCfg u (pn c 0) with foreignVid := pn c 1 })
  ∧ Runs .tandemForm 0x0B10 5
      (fun c u => pn c 0 < 16 ∧ 500 ≤ pn c 1 ∧ pn c 1 ≤ 10000 ∧ 1 ≤ pn c 2 ∧ pn c 2 ≤ 3600 ∧ pn c 3 < 2 ∧ pn c 4 < 1048576
        ∧ (hlink u (pf c 0 3 2)).neighbour = some (ownHid u) ∧ (Config.partner u.free).1 = !bit (pw c 0) 0
        ∧ (Config.partner u.free).2.1 = !bit (pw c 0) 1 ∧ (Config.partner u.free).2.2 = true) (fun _ _ => []) formPair
  ∧ Ends .tandemForm 0x0B10 5
      (fun c u => pn c 0 < 16 ∧ 500 ≤ pn c 1 ∧ pn c 1 ≤ 10000 ∧ 1 ≤ pn c 2 ∧ pn c 2 ≤ 3600 ∧ pn c 3 < 2 ∧ pn c 4 < 1048576
        ∧ (hlink u (pf c 0 3 2)).neighbour ≠ some (ownHid u)) .invalidState
  ∧ (∀ (c : Packet) (u : State),
      let t := formPair c u
      t.tan.joined = true ∧ t.tan.role = bit (pw c 0) 0 ∧ t.tan.pos = bit (pw c 0) 1 ∧ t.tan.link = pf c 0 3 2
        ∧ t.tan.reins = !bit (pw c 0) 0 ∧ t.tan.outputs = !bit (pw c 0) 0 ∧ t.tan.step = 1
        ∧ t.tan.epoch = (if bit (pw c 0) 0 then (hlink u (pf c 0 3 2)).nEpoch else u.dev.bootEpoch)
        ∧ t.cfg.tan = { lease := pn c 1, revertHold := pn c 2, revert := bit (pw c 3) 0, takeover := (pw c 4).setWidth 20 })
  ∧ Runs .tandemDissolve 0x0B11 0 (fun _ u => u.tan.joined = true) (fun _ _ => []) (fun _ u => dissolvePair u)
  ∧ (∀ u : State, (dissolvePair u).tan.joined = false ∧ (dissolvePair u).tan.outputs = u.tan.outputs)
  ∧ Runs .tandemStatus 0x0B12 0 (fun _ _ => True)
      (fun _ u => [w32 (flag u.tan.joined + 2 * flag u.tan.role + 4 * flag u.tan.pos + 8 * flag u.tan.reins), w32 u.tan.step,
        w32 u.tan.stage, u.tan.epoch, u.tan.lastAsn, w32 (holdServed u)]) (fun _ u => u)
  ∧ Runs .reinsHandover 0x0B13 0
      (fun _ u => u.tan.joined = true ∧ u.tan.reins = true ∧ u.tan.step = 1 ∧ u.tan.handover = none)
      (fun _ u => [(boundaryIn2ms u).setWidth 32]) (fun _ u => grantHandover 3 u)
  ∧ Ends .reinsHandover 0x0B13 0 (fun _ u => u.tan.reins = false) .invalidState
  ∧ RunsOn .tandemResync 0x0B14 0 (fun _ u => u.tan.joined = true ∧ u.tan.reins = false ∧ u.tan.resync = none)
      (fun c u => setTan (beginResync u) { (beginResync u).tan with resync := some (c.queue.val, c.tag) })
  ∧ Runs .bridleStatus 0x0B20 0 (fun _ _ => True)
      (fun _ u => [u.bri.votes.setWidth 32, w32 u.bri.withdrawals, w32 u.bri.restarts]) (fun _ u => u)
  ∧ Runs .tandemCountersRead 0x0B21 1 (fun c _ => pn c 0 < 2) (fun _ u => u.tan.counters.map w32)
      (fun c u => if pn c 0 = 1 then { u with tan := { u.tan with counters := List.replicate 9 0 } } else u)

/-- R387-R389, R393: membership messages, splits, authority and healing. -/
def Obligations.HerdAuthority : Prop :=
  (∀ s : State, periodDue .membership 10000000 s = true →
      exec .membershipSend s = .next (tellMembership (refreshPresence (ranNow .membership s))))
  ∧ (∀ s : State, periodDue .membership 10000000 s = false → exec .membershipSend s = .next s)
  ∧ (∀ s : State, tellMembership s = (linksUp s).foldl (fun t l => originate (.membership l (presentMask s)) t) s)
  ∧ (∀ (l : Fin 4) (m : BitVec 64) (s : State), (hlink s l).up = true → s.tan.joined = false →
      exec (.membershipMessage l m) s =
        .next (refreshPresence { s with herd := { s.herd with told := tabSet s.herd.told l m } }))
  ∧ (∀ s : State,
      let u := refreshPresence s
      overdue u &&& ~~~ u.herd.lost ≠ 0 → ∃ t, exec .herdSplit s = .next t ∧ t.herd.split = true ∧ trouble t .herdSplit = true
        ∧ t.herd.lost = overdue u ∧ t.herd.minority = (!fullAuthority t)
        ∧ (fullAuthority t = false → u.herd.minority = false → trouble t .minority = true))
  ∧ (∀ s : State, overdue (refreshPresence s) &&& ~~~ (refreshPresence s).herd.lost = 0 →
      exec .herdSplit s = .next (refreshPresence s))
  ∧ (∀ (s : State) (h : Nat), bit (overdue s) h = true ↔ h < 64 ∧ bit (members s) h = true
      ∧ ∃ t, (peerOf s h).absent = some t ∧ reached s (t + BitVec.ofNat 64 (1000000 * s.cfg.herd.splitDelay)) = true)
  ∧ (∀ s : State, fullAuthority s = true ↔ maskCount (members s) < 2 * maskCount (presentMask s)
      ∨ (2 * maskCount (presentMask s) = maskCount (members s) ∧ ∃ h, bit (members s) h = true ∧ present s h = true
          ∧ ∀ k, k < h → bit (members s) k = false))
  ∧ (∀ s : State, minorityCheck s = if s.herd.minority then some .notPermittedMinority else none)
  ∧ (∀ s : State, (refreshPresence s).herd.split = true → wholeAgain (refreshPresence s) = true →
      (refreshPresence s).herd.egress = [] →
      ∃ t, exec .herdHeal s = .next t ∧ t.herd.split = false ∧ t.herd.minority = false ∧ t.herd.lost = 0)

/-- R399-R414: mirrored inputs, slot digests, reins frames, leases, handovers and takeovers of a tandem. -/
def Obligations.TandemActs : Prop :=
  (∀ (asn : BitVec 40) (n : Nat) (x : Mirrored) (s : State), nonHolder s = true →
      exec (.mirroredInput asn n x) s = .next { s with tan := { s.tan with mirrorq := s.tan.mirrorq ++ [(asn.toNat, n, x)] } })
  ∧ (∀ (asn : BitVec 40) (n : Nat) (x : Mirrored) (s : State), nonHolder s = false → exec (.mirroredInput asn n x) s = .next s)
  ∧ (∀ (a n : Nat) (v : BitVec 4) (s : State), s.tan.mirrorq = [(a, n, .grants v)] →
      resolveMirrored s = { s with tan := { s.tan with mirrorq := [] }, radio := { s.radio with grants := v } })
  ∧ (∀ (a b n m : Nat) (v w : BitVec 4) (s : State), a < b →
      (s.tan.mirrorq = [(a, n, .grants v), (b, m, .grants w)] ∨ s.tan.mirrorq = [(b, m, .grants w), (a, n, .grants v)]) →
      (resolveMirrored s).radio.grants = w)
  ∧ (∀ (a n : Nat) (c : Packet) (s : State), s.tan.mirrorq = [(a, n, .command 0x0001#16 c)] →
      resolveMirrored s = startCommand .mirror getIdentitySpec c { s with tan := { s.tan with mirrorq := [] } })
  ∧ (∀ (p : Fin 2) (f : EthIn) (s : State), nonHolder s = true → ∃ t, exec (.bhFrameReceived p f) s = .next t
      ∧ (now s, p.val, f) ∈ t.tan.bhHeard ∧ t = { s with tan := { s.tan with bhHeard := t.tan.bhHeard } })
  ∧ (∀ (p : Fin 2) (f : EthIn) (t : BitVec 64) (s : State), s.tan.bhHeard = [(t, p.val, f)] →
      takeMirrored p (f.bytes.length + 4) (crc32c f.bytes) s = receiveFrame p f { s with tan := { s.tan with bhHeard := [] } })
  ∧ (∀ (i : Fin 8) (s : State), s.tan.joined = true → s.tan.reins = true →
      ∃ t, exec (.blankAssert i) s = .next t ∧ t.tan.mirrorSeq = s.tan.mirrorSeq + 1)
  ∧ (∀ (e : InFlight) (st : Status) (r : List Word) (s : State), s.tan.joined = true → s.tan.reins = false → e.mirrored = true →
      (sendReply e st r s).que = s.que ∧ (sendReply e st r s).out = s.out)
  ∧ (∀ (asn : BitVec 40) (d : BitVec 64) (s : State), s.tan.joined = true → s.tan.digest = some (asn.toNat, d) → s.tan.step = 1 →
      exec (.slotDigest asn d) s = .next (digestMatches (w32 asn.toNat) s)
      ∧ ∀ x, x ≠ d → exec (.slotDigest asn x) s = .next (digestDiffers (w32 asn.toNat) s))
  ∧ (∀ (a : Word) (s : State), (nonHolder s = false ∨ s.tan.role = true) → s.tan.step = 1 → s.tan.fwStage = 0 →
      digestMatches a s = { s with tan := { s.tan with lastAsn := a, missing := 0 } })
  ∧ (∀ (asn : BitVec 40) (d : BitVec 64) (s : State), s.tan.joined = true → s.tan.digest = some (asn.toNat, d) → s.tan.step = 2 →
      (s.tan.reins = true ∨ s.tan.role = true ∨ s.cfg.tan.revert = false) →
      ∃ t, exec (.slotDigest asn d) s = .next t ∧ t.tan.step = 1)
  ∧ (∀ (asn : BitVec 40) (d x : BitVec 64) (s : State), s.tan.digest = some (asn.toNat, d) → s.tan.step = 2 → x ≠ d →
      exec (.slotDigest asn x) s = .next s)
  ∧ (∀ s : State, s.tan.joined = true → s.tan.step = 1 → 4 ≤ s.tan.missing →
      exec .digestMissing s = .next { s with tan := { s.tan with step := 3, holdStart := none } })
  ∧ (∀ s : State, s.tan.joined = true → s.tan.reins = true → bridleMajority s = true → periodDue .renewal 100000 s = true →
      ∃ t f, exec .reinsRenewalSend s = .next t ∧ t.out.reins = s.out.reins ++ [f] ∧ reinsIs f .renewal = true
        ∧ reinsInstant f = ((after s (1000 * s.cfg.tan.lease)) >>> 10).setWidth 40
        ∧ t.tan.leaseOwn = some (after s (1000 * s.cfg.tan.lease)))
  ∧ (∀ s : State, bridleMajority s = false → exec .reinsRenewalSend s = .next s)
  ∧ (∀ s : State, periodDue .renewal 100000 s = false → exec .reinsRenewalSend s = .next s)
  ∧ (∀ (p : Fin 2) (f : ReinsFrame) (s : State), s.tan.joined = true → s.tan.reins = false → reinsIs f .renewal = true →
      s.tan.leaseSeen = none →
      ∃ t, exec (.reinsRenewal p f) s = .next t ∧ t.tan.leaseSeen = some (frameInstant s f)
        ∧ (if p = 0 then t.out.reins = s.out.reins ++ [sealReins .ack (reinsSeq f) (reinsInstant f)] else t.out.reins = s.out.reins)
        ∧ t.tan.pathSilent = s.tan.pathSilent.set p 0)
  ∧ (∀ (p : Fin 2) (f : ReinsFrame) (s : State), f.bits >>> 48 ≠ BitVec.ofNat 64 (crc16 (leBytes 6 f.bits.toNat)) →
      exec (.reinsRenewal p f) s = .next s ∧ exec (.reinsRelease f) s = .next s ∧ exec (.handoverGrant f) s = .next s)
  ∧ (∀ (typ : ReinsType) (n : Nat) (i : BitVec 40), reinsIs (sealReins typ n i) typ = true ∧ reinsInstant (sealReins typ n i) = i
      ∧ reinsSeq (sealReins typ n i) = n % 16)
  ∧ (∀ (f : ReinsFrame) (s : State), reinsIs f .release = true → nonHolder s = true → s.tan.step = 1 →
      exec (.reinsRelease f) s = .next { s with tan := { s.tan with handover := some (frameInstant s f, true, 0) } })
  ∧ (∀ (f : ReinsFrame) (s : State), reinsIs f .revert = true → s.tan.joined = true → s.tan.reins = true → s.tan.step = 1 →
      s.tan.handover = none → exec (.revertRequest f) s = .next (grantHandover 2 s))
  ∧ (∀ (n : Nat) (s : State), (grantHandover n s).tan.handover = some (boundaryIn2ms s, false, n)
      ∧ (grantHandover n s).out.reins = s.out.reins ++ [reinsFrame s .grant (boundaryIn2ms s)])
  ∧ (∀ (f : ReinsFrame) (s : State), reinsIs f .grant = true → nonHolder s = true → s.tan.step = 1 →
      exec (.handoverGrant f) s = .next { s with tan := { s.tan with
        handover := some (frameInstant s f, true, if s.tan.asked then 2 else 3) } })
  ∧ (∀ (f : ReinsFrame) (st : BitVec 64) (s : State), reinsIs f .marker = true → nonHolder s = true → s.tan.step ≠ 3 →
      ∃ t, exec (.alignmentMarker f st) s = .next t ∧ now t = st)
  ∧ (∀ (th : BitVec 64) (cause : Nat) (s : State), s.tan.handover = some (th, true, cause) → reached s th = true →
      ∃ t, exec .handoverInstant s = .next t ∧ t.tan.reins = true ∧ t.tan.outputs = true ∧ t.tan.reinsSel = true
        ∧ t.tan.handover = none ∧ (cause = 0 → trouble t .takeover = true))
  ∧ (∀ (th : BitVec 64) (cause : Nat) (s : State), s.tan.handover = some (th, false, cause) → reached s th = true →
      ∃ t, exec .handoverInstant s = .next t ∧ t.tan.reins = false ∧ t.tan.outputs = false ∧ t.tan.reinsSel = false
        ∧ t.tan.handover = none)
  ∧ (∀ (e : BitVec 64) (s : State), s.tan.leaseOwn = some e → s.tan.joined = true → s.tan.reins = true →
      reached s (e - 100000) = true → (∀ l, l < 4 → (hlink s l).up = false) →
      ∃ t, exec .leaseEndHolder s = .next t ∧ t.tan.reins = false ∧ t.tan.outputs = false ∧ t.tan.reinsSel = false
        ∧ t.tan.peerDown = true)
  ∧ (∀ (e : BitVec 64) (s : State), s.tan.leaseSeen = some e → nonHolder s = true → s.tan.step = 1 → reached s (e + 100000) = true →
      s.radio.txs = [] → s.radio.recent = [] → s.tan.bhHeard = [] →
      ∃ t, exec .silentTakeover s = .next t ∧ t.tan.reins = true ∧ t.tan.outputs = true ∧ t.tan.reinsSel = true
        ∧ trouble t .reinsLost = true ∧ trouble t .takeover = true
        ∧ t.out.bh = s.out.bh ++ (s.tan.bhSent.filter (fun x => decide (0 ≤ (x.1 - (e - 100000)).toInt))).map (·.2))
  ∧ (∀ (e : BitVec 64) (s : State), s.tan.leaseSeen = some e → reached s (e + 100000) = false → exec .silentTakeover s = .next s)
  ∧ (∀ (p : Fin 2) (s : State), s.tan.joined = true → s.tan.pathSilent.getD p 0 < 3 →
      reached s (s.tan.pathHeard.getD p 0#64 + 300000#64) = true →
      ∃ t, exec (.reinsLost p) s = .next t ∧ trouble t .reinsLost = true ∧ t.tan.reins = s.tan.reins ∧ t.tan.outputs = s.tan.outputs)
  ∧ (∀ (t : BitVec 64) (s : State), s.tan.holdStart = some t → nonHolder s = true → s.tan.role = false → s.cfg.tan.revert = true →
      s.tan.step = 1 → reached s (t + BitVec.ofNat 64 (1000000000 * s.cfg.tan.revertHold)) = true →
      ∃ u, exec .revertHoldExpiry s = .next u ∧ u.out.reins = s.out.reins ++ [reinsFrame s .revert (now s)] ∧ u.tan.asked = true)

/-- R415-R417: the three channels of Bridle. -/
def Obligations.BridleActs : Prop :=
  (∀ (ch : Fin 3) (st : Bool) (s : State), bit s.bri.votes ch.val = true → s.bri.history = [] →
      exec (.bridleVote ch st) s = .next (postEvent 0x0B05 ch.val (w32 (flag st)) (raise .bridleVote (setSound { s with bri := { s.bri with
        votes := setBit s.bri.votes ch false, withdrawals := s.bri.withdrawals + 1, history := [(ch.val, now s)] } }))))
  ∧ (∀ (ch : Fin 3) (st : Bool) (s : State) (a b : BitVec 64), bit s.bri.votes ch.val = true → s.bri.history = [(ch.val, a), (ch.val, b)] →
      reached s (a + 1000000000) = false → reached s (b + 1000000000) = false →
      ∃ t, exec (.bridleVote ch st) s = .next t ∧ bit t.bri.out ch.val = true ∧ bit t.bri.votes ch.val = false)
  ∧ (∀ s : State, rejoining s ≠ 0 → s.bri.restarting = false →
      ∃ t, exec (.bridleCheckpoint true) s = .next t ∧ t.bri.votes = s.bri.votes ||| (~~~ s.bri.votes &&& ~~~ s.bri.out)
        ∧ t.bri.out = s.bri.out ∧ t.cmd = s.cmd ∧ ∀ n : Fin 64, (sem t n).holder ≠ some 0x80)
  ∧ (∀ s : State, rejoining s ≠ 0 → s.bri.restarting = false →
      ∃ t, exec (.bridleCheckpoint false) s = .next t ∧ t.bri = s.bri)
  ∧ (∀ s : State, s.bri.restarting = false →
      ∃ t, exec .bridleMajorityLoss s = .next t ∧ t.dev.cmdReady = false ∧ t.dev.soundPin = false ∧ t.bri.restarting = true
        ∧ t.bri.restarts = s.bri.restarts + 1 ∧ (∀ e ∈ t.cmd.inFlight, e.phase = .held) ∧ trouble t .selftestFail = true)
  ∧ (∀ s : State, s.bri.restarting = true →
      ∃ t, exec .bridleRestartComplete s = .next t ∧ t.dev.cmdReady = true ∧ t.bri.restarting = false
        ∧ t.bri.votes = ~~~ s.bri.out)

/-! ### Key vault -/

/-- R423-R428, R430, R435, R436, R438, R440: the vault and tamper commands. -/
def Obligations.VaultCommandsRun : Prop :=
  let isOpen (u : State) : Prop := u.vault.unlocked = true ∧ u.vault.rootOk = true
  let kek (c : Packet) (u : State) : List Byte :=
    sha256 ([0#8, 0#8, 0#8, 1#8] ++ ecdh (vaultSlot u (pn c 2)).key (pbytes c 3 64)
      ++ [0x59#8, 0x4E#8, 0x4B#8, 0x57#8, BitVec.ofNat 8 (pn c 0), BitVec.ofNat 8 (pn c 1)])
  let importable (c : Packet) (u : State) : Prop :=
    pn c 0 ≤ 63 ∧ (pn c 1 = 1 ∨ pn c 1 = 3) ∧ pn c 2 ≤ 63 ∧ pn c 29 < 16777216 ∧ p256Valid (pbytes c 3 64) = true
      ∧ (vaultSlot u (pn c 0)).state = 0 ∧ u.vault.tampered = false
  Runs .vaultStatus 0x0A00 0 (fun _ _ => True)
      (fun _ u => [w32 (flag u.vault.unlocked + 2 * flag u.vault.rootOk + 4 * flag u.vault.brand + 8 * flag u.vault.tampered
          + 16 * flag u.vault.vbatLost + 32 * flag u.vault.tamper.lock),
        quad8 0 (slotCount u 2) (slotCount u 1) (slotCount u 0), w32 u.vault.count, w32 u.cfg.maskPeriod, w32 u.vault.attempts])
      (fun _ u => u)
  ∧ (∀ (r m : BitVec 256), Runs .slotGenerate 0x0A01 2
      (fun c u => pn c 0 ≤ 63 ∧ pn c 1 = 2 ∧ (vaultSlot u (pn c 0)).state = 0 ∧ u.vault.tampered = false ∧ isOpen u
        ∧ (drawRandom u).1 = r ∧ (drawRandom (drawRandom u).2).1 = m)
      (fun _ _ => wordsOfBytes (p256Public (beBytes 32 r.toNat)))
      (fun c u =>
        let v : Slot := { state := 1, typ := 2, origin := 1, pub := p256Public (beBytes 32 r.toNat), key := beBytes 32 r.toNat, mask := m }
        setSlot (pn c 0) v (drawRandom (drawRandom u).2).2))
  ∧ Ends .slotGenerate 0x0A01 2 (fun c u => pn c 0 ≤ 63 ∧ pn c 1 = 2 ∧ (vaultSlot u (pn c 0)).state ≠ 0) .notPermittedSlotUsed
  ∧ Ends .slotGenerate 0x0A01 2
      (fun c u => pn c 0 ≤ 63 ∧ pn c 1 = 2 ∧ (vaultSlot u (pn c 0)).state = 0 ∧ u.vault.tampered = true) .notPermittedTamperLatched
  ∧ Ends .slotGenerate 0x0A01 2
      (fun c u => pn c 0 ≤ 63 ∧ pn c 1 = 2 ∧ (vaultSlot u (pn c 0)).state = 0 ∧ u.vault.tampered = false ∧ u.vault.rootOk = false)
      .failedRootKey
  ∧ (∀ f : List Byte, Runs .slotImport 0x0A02 30
      (fun c u => importable c u ∧ isOpen u ∧ (vaultSlot u (pn c 2)).state = 1 ∧ (vaultSlot u (pn c 2)).typ = 2
        ∧ keyUnwrap (kek c u) (pbytes c 19 40) = some f ∧ (pn c 1 = 1 → ∀ b ∈ f.drop 16, b = 0#8)
        ∧ checkValue (pn c 1) f = pbytes c 29 3)
      (fun _ _ => [])
      (fun c u =>
        let v : Slot := { state := 1, typ := pn c 1, origin := 2, check := checkValue (pn c 1) f, key := f, mask := (drawRandom u).1 }
        setSlot (pn c 0) v (drawRandom u).2))
  ∧ Ends .slotImport 0x0A02 30
      (fun c u => importable c u ∧ ¬ ((vaultSlot u (pn c 2)).state = 1 ∧ (vaultSlot u (pn c 2)).typ = 2)) .invalidState
  ∧ Ends .slotImport 0x0A02 30
      (fun c u => importable c u ∧ isOpen u ∧ (vaultSlot u (pn c 2)).state = 1 ∧ (vaultSlot u (pn c 2)).typ = 2
        ∧ keyUnwrap (kek c u) (pbytes c 19 40) = none) .invalidCheckValue
  ∧ Runs .slotRetire 0x0A03 1
      (fun c u => pn c 0 ≤ 63 ∧ (vaultSlot u (pn c 0)).state = 1 ∧ netsUsing u (pn c 0) = 0 ∧ ∀ e ∈ u.vault.next, e.2 ≠ pn c 0)
      (fun _ _ => [])
      (fun c u =>
        let u1 := dropKeys (fun e => decide (epochSlot u e.net e.epoch = some (pn c 0))) u
        setSlot (pn c 0) { vaultSlot u (pn c 0) with state := 2, key := [], mask := 0 } u1)
  ∧ Ends .slotRetire 0x0A03 1 (fun c u => pn c 0 ≤ 63 ∧ ((vaultSlot u (pn c 0)).state ≠ 1 ∨ netsUsing u (pn c 0) ≠ 0)) .invalidState
  ∧ Runs .slotInfo 0x0A04 1 (fun c _ => pn c 0 ≤ 63)
      (fun c u =>
        let v := vaultSlot u (pn c 0)
        [w32 v.state, w32 v.typ, w32 v.origin, w32 (leNat (v.check.take 3))] ++ wordsOfBytes (exactly 64 v.pub)
          ++ [(netsUsing u (pn c 0)).setWidth 32]) (fun _ u => u)
  ∧ Runs .attest 0x0A05 9 (fun c u => pn c 0 ≤ 63 ∧ u.vault.brand = true)
      (fun c u =>
        let st := statement u (pn c 0) (pbytes c 1 32)
        wordsOfBytes (st ++ exactly 64 (ecdsaSign Config.brandKey.toNat (drawRandom u).1.toNat (sha256 st)))) (fun _ u => (drawRandom u).2)
  ∧ Ends .attest 0x0A05 9 (fun c u => pn c 0 ≤ 63 ∧ u.vault.brand = false) .failedRootKey
  ∧ (∀ (u : State) (k : Nat) (n : List Byte), n.length = 32 →
      (statement u k n).length = 124 ∧ (statement u k n).take 5 = [0x59#8, 0x4E#8, 0x41#8, 0x54#8, 0x01#8]
        ∧ (statement u k n).drop 92 = n ∧ ((statement u k n).drop 84).take 4 = leBytes 4 u.vault.count
        ∧ (∀ x l, (statement { u with vault := { u.vault with slots := tabSet u.vault.slots k { vaultSlot u k with key := l, mask := x } } } k n)
            = statement u k n))
  ∧ Runs .brandCertRead 0x0A06 0 (fun _ _ => True)
      (fun _ _ => w32 (Config.brandCert.take 1024).length :: wordsOfBytes (Config.brandCert.take 1024)) (fun _ u => u)
  ∧ Runs .zoneNextSet 0x0A07 2
      (fun c u => pn c 0 ≤ 15 ∧ pn c 1 ≤ 63 ∧ u.herd.minority = false ∧ u.vault.tampered = false ∧ zoneLoaded u (pn c 1) = true)
      (fun _ _ => []) (fun c u => { u with vault := { u.vault with next := tabSet u.vault.next (pn c 0) (pn c 1) } })
  ∧ Runs .zoneNextSet 0x0A07 2
      (fun c u => pn c 0 ≤ 15 ∧ pw c 1 = 0xFFFFFFFF ∧ u.herd.minority = false ∧ u.vault.tampered = false)
      (fun _ _ => []) (fun c u => { u with vault := { u.vault with next := tabDel u.vault.next (pn c 0) } })
  ∧ Ends .zoneNextSet 0x0A07 2 (fun c u => pn c 0 ≤ 15 ∧ pn c 1 ≤ 63 ∧ u.herd.minority = true) .notPermittedMinority
  ∧ Runs .maskSet 0x0A08 1 (fun c _ => 1 ≤ pn c 0 ∧ pn c 0 ≤ 3600) (fun _ _ => [])
      (fun c u => { u with cfg := { u.cfg with maskPeriod := pn c 0 } })
  ∧ Runs .tamperSet 0x0A10 4
      (fun c u => pn c 0 < 1024 ∧ pn c 1 < 1024 ∧ pn c 2 < 4 ∧ pn c 3 < 2 ∧ u.vault.tamper.lock = false) (fun _ _ => [])
      (fun c u => { u with vault := { u.vault with tamper :=
        { enable := (pw c 0).setWidth 10, action := (pw c 1).setWidth 10, closed := (pw c 2).setWidth 2, lock := bit (pw c 3) 0 } } })
  ∧ Ends .tamperSet 0x0A10 4
      (fun c u => pn c 0 < 1024 ∧ pn c 1 < 1024 ∧ pn c 2 < 4 ∧ pn c 3 < 2 ∧ u.vault.tamper.lock = true) .invalidState
  ∧ Runs .tamperStatus 0x0A11 0 (fun _ _ => True)
      (fun _ u => [u.vault.tripped.setWidth 32, (u.vault.lastZero.map w32).getD 0xFFFFFFFF, w32 u.vault.reports]) (fun _ u => u)
  ∧ Runs .tamperClear 0x0A12 1 (fun c u => pw c 0 = 0x74616D70 ∧ u.vault.tamper.enable &&& u.vault.tripped = 0) (fun _ _ => [])
      (fun _ u => { u with vault := { u.vault with tampered := false } })
  ∧ Ends .tamperClear 0x0A12 1 (fun c u => pw c 0 = 0x74616D70 ∧ u.vault.tamper.enable &&& u.vault.tripped ≠ 0) .invalidState
  ∧ Ends .tamperClear 0x0A12 1 (fun c _ => pw c 0 ≠ 0x74616D70) .invalidParameter
  ∧ Runs .vaultZeroise 0x0A13 1 (fun c _ => pw c 0 = 0x7A65726F) (fun _ _ => [])
      (fun _ u => retireVault (postZeroised 0xFFFF (clearVault (endVaultCommands u))))

/-- R428, R432-R436: re-masking, and what a tamper input does. -/
def Obligations.TamperActs : Prop :=
  (∀ s : State, clearVault s = { s with
      vault := { s.vault with slots := [], next := [], tamper := { s.vault.tamper with lock := false }
                              count := min (s.vault.count + 1) 0xFFFFFFFF }
      link := { s.link with keys := [] } })
  ∧ (∀ (i : Fin 10) (s : State), i.val ≠ 9 → bit s.vault.tamper.enable i.val = true → bit s.vault.tamper.action i.val = true →
      s.dev.vin = true → ∃ t, exec (.tamperTrip i) s = .next t ∧ t.vault.slots = [] ∧ t.vault.next = [] ∧ t.link.keys = []
        ∧ t.vault.tampered = true ∧ t.vault.count = min (s.vault.count + 1) 0xFFFFFFFF ∧ t.vault.lastZero = some i.val
        ∧ t.vault.tamper.lock = false ∧ trouble t .tamper = true ∧ (soundness t 12).state = 2)
  ∧ (∀ (i : Fin 10) (s : State), i.val ≠ 9 → bit s.vault.tamper.enable i.val = true → bit s.vault.tamper.action i.val = false →
      s.dev.vin = true → ∃ t, exec (.tamperTrip i) s = .next t ∧ t.vault.slots = s.vault.slots ∧ t.link = s.link
        ∧ t.vault.reports = s.vault.reports + 1 ∧ t.vault.tampered = s.vault.tampered ∧ trouble t .tamperSensor = true)
  ∧ (∀ (i : Fin 10) (s : State), i.val ≠ 9 → bit s.vault.tamper.enable i.val = false →
      exec (.tamperTrip i) s = .next { s with vault := { s.vault with tripped := setBit s.vault.tripped i true } })
  ∧ (∀ s : State, s.dev.vin = true → exec (.tamperTrip 9) s = .next s)
  ∧ (∀ (i : Fin 10) (s : State),
      exec (.tamperSensorInRange i) s = .next { s with vault := { s.vault with tripped := setBit s.vault.tripped i false } })
  ∧ (∀ s : State, periodDue .remask (1000000000 * s.cfg.maskPeriod) s = false → exec .vaultRemask s = .next s)
  ∧ (∀ s : State, periodDue .remask (1000000000 * s.cfg.maskPeriod) s = true →
      ∃ t, exec .vaultRemask s = .next t ∧ t.free = s.free + 64
      ∧ (∀ k : Fin 64, ∃ m, vaultSlot t k = { vaultSlot s k with mask := m })
      ∧ t = { ranNow .remask s with vault := { s.vault with slots := t.vault.slots }, free := t.free })

/-! ### Power and modes -/

/-- R447-R459, R464: the power and mode commands. -/
def Obligations.PowerCommandsRun : Prop :=
  let runs (u : State) : Prop := u.dev.mode = .gallop ∨ u.dev.mode = .trot
  let sense (c : Packet) : BitVec 64 × BitVec 4 × BitVec 8 := (pw c 2 ++ pw c 1, (pw c 3).setWidth 4, (pw c 3 >>> 8).setWidth 8)
  Runs .modeSet 0x0100 2 (fun c u => pn c 0 = 0 ∧ pn c 1 < 2 ∧ u.dev.mode = .graze) (fun _ _ => [0#32])
      (fun _ u => wakeGraze 0xFFFF 2 u)
  ∧ RunsOn .modeSet 0x0100 2
      (fun c u => pn c 0 = 3 ∧ pn c 1 < 2 ∧ runs u ∧ u.rx.drains = [] ∧ ∃ p, p < 4 ∧ (plainCfg u p).enabled = true
        ∧ senseLoad (senseSet u p) ≠ 0)
      (fun c u => beginEntry .graze c.queue.val c.tag (bit (pw c 1) 0) u)
  ∧ RunsOn .modeSet 0x0100 2
      (fun c u => pn c 0 = 4 ∧ pn c 1 < 2 ∧ (runs u ∨ u.dev.mode = .graze) ∧ u.tan.joined = false ∧ u.rx.drains = [])
      (fun c u => beginEntry .stall c.queue.val c.tag (bit (pw c 1) 0) u)
  ∧ Ends .modeSet 0x0100 2 (fun c u => pn c 0 = 0 ∧ pn c 1 < 2 ∧ u.dev.mode ≠ .graze) .invalidState
  ∧ Ends .modeSet 0x0100 2 (fun c u => pn c 0 = 4 ∧ pn c 1 < 2 ∧ u.tan.joined = true) .invalidState
  ∧ Runs .modeStatus 0x0101 0 (fun _ _ => True)
      (fun _ u => [w32 (modeCode u.dev.mode), w32 (flag u.pwr.trans.isSome), (wakeWord u).1, w32 u.pwr.senseCycles])
      (fun _ u => (wakeWord u).2)
  ∧ (∀ (u : State) (k : Nat), u.pwr.lastWake = some k → wakeWord u = (w32 k, u))
  ∧ Runs .grazeSet 0x0102 4
      (fun c u => 8 ≤ pn c 0 ∧ pn c 0 ≤ 1024 ∧ 40 ≤ pn c 1 ∧ pn c 1 ≤ 200 ∧ pn c 2 < 2 ∧ 1 ≤ pn c 3 ∧ pn c 3 ≤ 3600
        ∧ ∀ p, p < 4 → senseWindow (senseSet u p) + 500000 < 1000000 * pn c 0) (fun _ _ => [])
      (fun c u => { u with cfg := { u.cfg with pwr := { u.cfg.pwr with
        wakePeriod := pn c 0, senseThresh := pn c 1, grazeAuto := bit (pw c 2) 0, grazeIdle := pn c 3 } } })
  ∧ Ends .grazeSet 0x0102 4
      (fun c u => 8 ≤ pn c 0 ∧ ∃ p, p < 4 ∧ 1000000 * pn c 0 ≤ senseWindow (senseSet u p) + 500000) .invalidParameter
  ∧ Runs .grazeSenseSet 0x0103 4
      (fun c u => pn c 0 ≤ 3 ∧ pw c 3 &&& 0xFFFF00F0 = 0 ∧ senseLoad (sense c) ≤ 1088
        ∧ senseWindow (sense c) + 500000 < 1000000 * u.cfg.pwr.wakePeriod)
      (fun c _ => [w32 (senseLoad (sense c))])
      (fun c u => { u with cfg := { u.cfg with pwr := { u.cfg.pwr with sense := tabSet u.cfg.pwr.sense (pn c 0) (sense c) } } })
  ∧ Ends .grazeSenseSet 0x0103 4 (fun c _ => pn c 0 ≤ 3 ∧ 1088 < senseLoad (sense c)) .invalidParameter
  ∧ Runs .stallSet 0x0104 1 (fun c _ => pn c 0 ≤ 86400) (fun _ _ => [])
      (fun c u => { u with cfg := { u.cfg with pwr := { u.cfg.pwr with stallWake := pn c 0 } } })
  ∧ Runs .powerStatus 0x0105 0 (fun _ _ => True)
      (fun _ u => [Config.freeWord u.free, Config.freeWord (u.free + 1), Config.freeWord (u.free + 2), Config.freeWord (u.free + 3),
        (domainsOn u).setWidth 32, (domainsOn u >>> 32).setWidth 32]) (fun _ u => { u with free := u.free + 4 })
  ∧ Runs .powerCountersRead 0x0106 1 (fun c _ => pn c 0 < 2) (fun _ u => (u.pwr.counters ++ [u.vault.pfStarts]).map w32)
      (fun c u => if pn c 0 = 1 then { u with pwr := { u.pwr with counters := List.replicate 5 0 } } else u)

/-- R450-R459: power domains, GRAZE and STALL. -/
def Obligations.PowerEventsAct : Prop :=
  (∀ (d : Fin 47) (v : Word) (s : State), s.tan.joined = false →
      exec (.pdVoteWrite d v) s = .next (setPdom d { pdom s d with host := v.setWidth 8 } s))
  ∧ (∀ (d : Fin 47) (v : Word) (s : State), nonHolder s = true → exec (.pdVoteWrite d v) s = .next s)
  ∧ (∀ (s : State) (d : Nat), voted s d = true ↔ (pdom s d).host ≠ 0 ∨ (pdom s d).sense = true ∨ ownerVote s d = true)
  ∧ (∀ (d : Nat) (s : State), (pdom s d).state = 2 → voted s d = false →
      (gateDue s d = true ↔ bit (pdom s d).policy 0 = false
        ∨ ∃ t, (pdom s d).idle = some t ∧ reached s (t + BitVec.ofNat 64 (1000000 * bits (pdom s d).policy 16 1)) = true))
  ∧ (∀ (d : Nat) (s : State), (pdom s d).state = 2 → voted s d = false → (pdom s d).idle = none →
      (pdom (noteVote d s) d).idle = some (now s))
  ∧ (∀ (d : Nat) (s : State), voted s d = true → (pdom (noteVote d s) d).idle = none)
  ∧ (∀ (d : Fin 47) (s : State), (pdom s d).state = 2 → gateDue s d = true →
      exec (.domainIdleGate d true) s = .next (setPdom d { pdom s d with state := 0, fault := false } s)
      ∧ ∃ t, exec (.domainIdleGate d false) s = .next t ∧ (pdom t d).state = 2 ∧ (pdom t d).fault = true ∧ trouble t .domainFault = true)
  ∧ (∀ (d : Fin 47) (ok : Bool) (s : State), voted s d = true → exec (.domainIdleGate d ok) s = .next s)
  ∧ (∀ (d : Fin 47) (ok : Bool) (s : State), gateDue s d = false → exec (.domainIdleGate d ok) s = .next s)
  ∧ (∀ (d : Fin 47) (n : Nat) (s : State), (pdom s d).state = 0 → voted s d = true →
      if n < 3 then exec (.domainUngate d n) s = .next (setPdom d { pdom s d with state := 2, fault := false } s)
      else ∃ t, exec (.domainUngate d n) s = .next t ∧ (pdom t d).state = 0 ∧ (pdom t d).fault = true ∧ trouble t .domainFault = true)
  ∧ (∀ (t : Transition) (w : Withdrawal) (s : State), s.pwr.trans = some t → withdrawalOf s t.queue t.tag = some w → w.tracks = [] →
      (∀ x ∈ s.radio.txs, txActive x = false) →
      exec .modeEntryDrainComplete s = .next (finishEntry t w.aborted s))
  ∧ (∀ s : State, ∃ t, enterGraze s = t ∧ t.dev.mode = .graze ∧ ∀ d, d < 32 → (pdom t d).state = 0)
  ∧ (∀ s : State, ∃ t, enterStall s = t ∧ t.dev.mode = .stall ∧ t.time.stopped = true ∧ t.dev.dataReady = false
      ∧ (∀ d, d < 46 → (pdom t d).state = 0) ∧ (pdom t 46).state = (pdom s 46).state)
  ∧ (∀ (p : Fin 4) (s : State), s.dev.mode = .graze → (plainCfg s p).enabled = true → senseLoad (senseSet s p) ≠ 0 →
      bit s.pwr.sensing p = false → tabFind s.pwr.lastSense p = none →
      ∃ t, exec (.grazeSenseCycle p) s = .next t ∧ (pdom t p).sense = true ∧ (pdom t p).state = 2 ∧ (pdom t (p + 32)).sense = true
        ∧ bit t.pwr.sensing p = true ∧ t.pwr.senseCycles = s.pwr.senseCycles + 1)
  ∧ (∀ (p : Fin 4) (k : Nat) (s : State), s.dev.mode = .graze → bit s.pwr.sensing p = true → s.cfg.pwr.senseThresh ≤ k →
      exec (.grazeSenseDecision p k) s = .next (wakeGraze p 0 (countPwr 1 s)))
  ∧ (∀ (p : Fin 4) (k : Nat) (s : State), s.dev.mode = .graze → bit s.pwr.sensing p = true → k < s.cfg.pwr.senseThresh →
      ∃ t, exec (.grazeSenseDecision p k) s = .next t ∧ t.dev.mode = .graze ∧ (pdom t p).sense = false ∧ (pdom t p).state = 0
        ∧ bit t.pwr.sensing p = false ∧ t.que = s.que)
  ∧ (∀ (source cause : Nat) (s : State), ∃ t, wakeGraze source cause s = t ∧ t.dev.mode = runningMode s ∧ t.pwr.lastWake = some cause
      ∧ ∀ p, p < 4 → (plainCfg s p).enabled = true → (pdom t (32 + p)).state = 2)
  ∧ (∀ (p : Fin 4) (s : State), cellComes s p = true → s.dev.mode = .graze → s.pwr.trans = none →
      exec (.grazeScheduledWake p) s = .next (wakeGraze p 1 (countPwr 2 s)))
  ∧ (∀ (p : Fin 4) (s : State), cellComes s p = false → exec (.grazeScheduledWake p) s = .next s)
  ∧ (∀ s : State, (s.dev.mode = .gallop ∨ s.dev.mode = .trot) → s.cfg.pwr.grazeAuto = true → s.pwr.woken = true → s.pwr.trans = none →
      grazeAllowed s = true → s.rx.tracks = [] → s.radio.txs = [] →
      reached s (s.pwr.lastAct + BitVec.ofNat 64 (1000000000 * s.cfg.pwr.grazeIdle)) = true →
      exec .grazeAutoEntry s = .next (enterGraze s))
  ∧ (∀ (x : WakeIn) (s : State), s.dev.mode = .stall → x.cause = .perst → exec (.stallWake x) s = .next (wakeStall x s))
  ∧ (∀ (x : WakeIn) (s : State), s.dev.mode = .stall → x.cause = .timer → periodGood s.time.sleepPeriod = true →
      x.cycles * s.time.sleepPeriod.toNat < s.cfg.pwr.stallWake * 65536000000000 → exec (.stallWake x) s = .next s)
  ∧ (∀ (x : WakeIn) (s : State), s.pwr.heldPush = [] → ∃ t, wakeStall x s = t ∧ t.dev.mode = s.pwr.beforeStall ∧ t.dev.dataReady = true
      ∧ t.dev.cmdReady = true ∧ t.time.stopped = false
      ∧ (periodGood s.time.sleepPeriod = true →
          t.time.st = s.time.st + BitVec.ofNat 96 (x.cycles * s.time.sleepPeriod.toNat * 65536)))

/-- R422, R437, R444-R446, R460-R462, R482, R483, R488, R489, R500: reset, power-fail handling and start-up; and the lands of the
radio ports and of the clocks. -/
def Obligations.StartUpActs : Prop :=
  let good : SaddleIn :=
    { hid := 5, refin := true, vinLost := false, vbatOk := true, root := some 0, flashOk := true, slotA := true, slotB := true, dram := true
      ledgerOk := true, tackOk := true, prevOk := true, recovery := false }
  (∀ (w : Nat) (b : Bool) (s : State), s.dev.vin = true → 1000000 ≤ w →
      ∃ t, exec (.resetNFall w b) s = .next t ∧ t.dev.mode = .saddle ∧ t.dev.resetLow = true ∧ t.dev.cmdReady = false
        ∧ t.cfg = State.reset.cfg ∧ t.que = State.reset.que ∧ t.rx = State.reset.rx ∧ t.link = State.reset.link
        ∧ t.time = { State.reset.time with sleepCount := s.time.sleepCount, sleepPhase := s.time.sleepPhase }
        ∧ t.trb.regs = State.reset.trb.regs ∧ t.trb.log = s.trb.log ∧ t.vault.slots = s.vault.slots ∧ t.vault.count = s.vault.count
        ∧ t.fwd.nodes = t.fwd.dram)
  ∧ (∀ (w : Nat) (b : Bool) (s : State), w ≤ 10000 → exec (.resetNFall w b) s = .next s)
  ∧ (∀ (e : Option Nat) (s : State), s.dev.vin = true → s.dev.powerFail = false →
      ∃ t, exec (.powerFail e) s = .next t ∧ t.vault.pfFlag = true ∧ t.vault.slots = s.vault.slots ∧ t.trb.log = [] ∧ t.fwd = State.reset.fwd
        ∧ t.air = State.reset.air ∧ t.dev.mode = .saddle ∧ t.dev.vin = false ∧ t.mem.dram = [])
  ∧ (∀ (x : SaddleIn) (s : State), mayStartUp s = true → x.vinLost = false → x.refin = false →
      ∃ t, exec (.saddle x) s = .next t ∧ t.dev.saddleWait = true ∧ t.dev.mode = .saddle ∧ t.dev.cmdReady = false
        ∧ trouble t .clkLoss = true ∧ t.dev.hid = x.hid)
  ∧ (∀ (x : SaddleIn) (s : State), mayStartUp s = true → x.refin = true → x.vinLost = false →
      exec (.saddle x) s = .next (saddleRest x (saddleThree x s)))
  ∧ (∀ (x : SaddleIn) (s : State), s.dev.mode = .saddle → s.dev.saddleWait = true → exec (.refinDetected x) s = .next (saddleRest x s))
  ∧ (∀ s : State, ∃ t, vbatLost s = t ∧ t.vault.slots = [] ∧ t.vault.next = [] ∧ t.vault.count = 0 ∧ t.vault.vbatLost = true
      ∧ t.vault.start = [] ∧ t.vault.tampered = false ∧ t.vault.tamper = State.reset.vault.tamper ∧ trouble t .vbatLow = true)
  ∧ (∀ s : State, s.vault.pfFlag = true → ∃ t, checkVbat true s = t ∧ t.vault.pfFlag = false ∧ trouble t .vinLow = true
      ∧ t.vault.slots = s.vault.slots)
  ∧ (∀ s : State, ∃ t, rebuildRoot none s = t ∧ t.vault.rootOk = false ∧ t.vault.unlocked = false ∧ t.vault.brand = false
      ∧ t.vault.slots = s.vault.slots ∧ t.link.keys = [] ∧ trouble t .rootKeyFail = true)
  ∧ (∃ t, exec (.saddle good) State.reset = .next t ∧ t.dev.cmdReady = true ∧ t.dev.dataReady = true ∧ t.dev.mode = .trot
      ∧ t.dev.hid = 5 ∧ t.vault.rootOk = true)
  ∧ (∃ t, exec (.saddle { good with dram := false }) State.reset = .next t ∧ t.dev.cmdReady = true ∧ t.dev.dataReady = false)
  ∧ (∃ t, exec (.saddle { good with slotA := false, slotB := false }) State.reset = .next t ∧ t.dev.mode = .remount
      ∧ t.dev.cmdReady = false)
  ∧ (∀ n : Nat, portLand n .rxP = ("A", 6 + 2 * n) ∧ portLand n .txP = ("C", 6 + 2 * n) ∧ portLand n .sclk = ("E", 6 + 2 * n)
      ∧ portLand n .csN = ("E", 7 + 2 * n) ∧ portLand n .miso = ("F", 7 + 2 * n) ∧ portLand n .paen = ("H", 6 + 2 * n))
  ∧ (∀ (m n : Nat) (a b : PortSignal), portLand m a = portLand n b → m = n ∧ a = b)
  ∧ (∀ p q : Nat, (rckLands p).1 = ("K", 6 + 8 * p) ∧ (sysrefLands p).1 = ("K", 8 + 8 * p) ∧ (rckLands p).2 ≠ (sysrefLands q).1)

/-! ### Firmware, tack sets and flash -/

/-- R468-R480, R484: the firmware, tack and flash commands. -/
def Obligations.FlashCommandsRun : Prop :=
  let size (u : State) : Nat := 1048576 * u.fw.flashMiB - 0x1900000
  let unlocked (u : State) : Prop := u.herd.minority = false ∧ u.fw.locked = false
  Runs .flashRead 0x0C20 2
      (fun c u => pn c 0 % 4 = 0 ∧ 4 ≤ pn c 1 ∧ pn c 1 ≤ 4080 ∧ pn c 1 % 4 = 0 ∧ pn c 0 + pn c 1 ≤ size u ∧ u.fw.reerase = []
        ∧ u.fw.ops = []) (fun c u => wordsOfBytes (memRead 0xFF#8 u.mem.flash (pn c 0) (pn c 1))) (fun _ u => u)
  ∧ RunsOn .flashRead 0x0C20 2
      (fun c u => pn c 0 % 4 = 0 ∧ 4 ≤ pn c 1 ∧ pn c 1 ≤ 4080 ∧ pn c 1 % 4 = 0 ∧ pn c 0 + pn c 1 ≤ size u ∧ u.fw.reerase = []
        ∧ underErase u (pn c 0) (pn c 1) = true)
      (fun c u => { u with fw := { u.fw with reads := u.fw.reads ++ [(c.queue.val, c.tag, pn c 0, pn c 1)] } })
  ∧ Ends .flashRead 0x0C20 2
      (fun c u => pn c 0 % 4 = 0 ∧ 4 ≤ pn c 1 ∧ pn c 1 ≤ 4080 ∧ pn c 1 % 4 = 0 ∧ pn c 0 + pn c 1 ≤ size u
        ∧ hostSector (pn c 0) ∈ u.fw.reerase) .failedFlash
  ∧ Ends .flashRead 0x0C20 2 (fun c u => size u < pn c 0 + pn c 1) .invalidParameter
  ∧ (∀ n, 1 ≤ n → n ≤ 1020 → RunsOn .flashProgram 0x0C21 (2 + n)
      (fun c u => pn c 1 = 4 * n ∧ pn c 0 + pn c 1 ≤ size u ∧ u.fw.ops = [] ∧ u.fw.reerase = [] ∧ u.dev.powerFail = false
        ∧ ∀ i, i < 4 * n → memGet 0xFF#8 u.mem.flash (pn c 0 + i) = 0xFF#8)
      (fun c u =>
        let o : FlashOp := { kind := .program (pn c 0) (pbytes c 2 (pn c 1)), cmd := some (c.queue.val, c.tag), begun := true }
        { u with fw := { u.fw with ops := [o] } }))
  ∧ (∀ n, 1 ≤ n → n ≤ 1020 → Ends .flashProgram 0x0C21 (2 + n)
      (fun c u => pn c 1 = 4 * n ∧ pn c 0 + pn c 1 ≤ size u ∧ u.fw.ops = [] ∧ u.fw.reerase = []
        ∧ memGet 0xFF#8 u.mem.flash (pn c 0) ≠ 0xFF#8) .invalidNotErased)
  ∧ RunsOn .flashErase 0x0C22 2
      (fun c u => pn c 0 % 65536 = 0 ∧ 1 ≤ pn c 1 ∧ pn c 1 ≤ 64 ∧ pn c 0 + 65536 * pn c 1 ≤ size u ∧ u.fw.ops = []
        ∧ u.dev.powerFail = false)
      (fun c u =>
        let k := (0x1900000 + pn c 0) / 65536
        let o : FlashOp := { kind := .erase k (pn c 1), cmd := some (c.queue.val, c.tag), begun := true }
        { u with fw := { u.fw with ops := [o], journal := u.fw.journal ++ [(0, k)] } })
  ∧ Runs .flashStatus 0x0C23 0 (fun _ _ => True)
      (fun _ u => [w32 u.fw.flashMiB, w32 u.fw.reerase.length, w32 u.fw.journal.length, w32 (flag (erasing u))]) (fun _ u => u)
  ∧ RunsOn .fwBegin 0x0C00 2
      (fun c u => 2 ≤ pn c 0 ∧ pn c 0 ≤ 2048 ∧ pn c 1 < 2 ∧ u.fw.locked = false ∧ u.fw.flashOk = true)
      (fun c u => addOp { kind := .fwBegin (loadSlot u) (pn c 0) (bit (pw c 1) 0), cmd := some (c.queue.val, c.tag) } u)
  ∧ Ends .fwBegin 0x0C00 2 (fun c u => 2 ≤ pn c 0 ∧ pn c 0 ≤ 2048 ∧ pn c 1 < 2 ∧ u.fw.locked = true) .notPermittedTackLocked
  ∧ Ends .fwBegin 0x0C00 2
      (fun c u => 2 ≤ pn c 0 ∧ pn c 0 ≤ 2048 ∧ pn c 1 < 2 ∧ u.fw.locked = false ∧ u.fw.flashOk = false) .failedFlash
  ∧ (∀ (u : State) (t : Tack), u.dev.mode ≠ .remount → u.fw.active = some t → loadSlot u = 1 - t.slot)
  ∧ RunsOn .fwBlockWrite 0x0C01 4
      (fun c u => pn c 0 = (heldBlocks u).length + pendingBlocks u ∧ pn c 0 < imageCount u ∧ pn c 0 ≤ 2047 ∧ 1 ≤ pn c 0
        ∧ (p64 c 1).toNat % 4096 = 0 ∧ (p64 c 1).toNat + 4096 ≤ stagingSize ∧ u.dev.dramOk = true ∧ (openLoad u).isSome
        ∧ stagingBad u (p64 c 1).toNat 4096 = false ∧ crc32c (stagingRead u (p64 c 1).toNat 4096) = pw c 3)
      (fun c u => addOp { kind := .fwBlock (u.fw.loading.getD 0) (pn c 0) (stagingRead u (p64 c 1).toNat 4096)
                          cmd := some (c.queue.val, c.tag) } u)
  ∧ Runs .fwBlockWrite 0x0C01 4
      (fun c u => pn c 0 < (heldBlocks u).length ∧ pn c 0 ≤ 2047 ∧ (p64 c 1).toNat % 4096 = 0 ∧ (p64 c 1).toNat + 4096 ≤ stagingSize
        ∧ u.dev.dramOk = true) (fun _ u => [w32 (heldBlocks u).length]) (fun _ u => u)
  ∧ Ends .fwBlockWrite 0x0C01 4
      (fun c u => (heldBlocks u).length + pendingBlocks u < pn c 0 ∧ pn c 0 ≤ 2047 ∧ (p64 c 1).toNat % 4096 = 0
        ∧ (p64 c 1).toNat + 4096 ≤ stagingSize) .invalidState
  ∧ Runs .fwStatus 0x0C02 0 (fun _ _ => True)
      (fun _ u => slotWords u 0 ++ slotWords u 1 ++ [w32 (heldBlocks u).length, w32 u.fw.chainState,
        (u.fw.chainBreak.map w32).getD 0xFFFFFFFF]) (fun _ u => u)
  ∧ (∀ n, n ≤ 63 → Runs .fwChainSet 0x0C03 (1 + n) (fun c _ => pn c 0 = n ∧ ∀ w ∈ c.params.drop 1, w.toNat ≤ 63) (fun _ _ => [])
      (fun c u => { u with fw := { u.fw with chain := (c.params.drop 1).map (·.toNat), chainState := 0, chainBreak := none, chainTries := 0 } }))
  ∧ (∀ h l, RunsOn .fwChainResume 0x0C04 0
      (fun _ u => u.fw.chain = h :: l ∧ heldBlocks u ≠ [] ∧ u.fw.resume = none ∧ reachable u h = true)
      (fun c u => sendBlock 1 { u with fw := { u.fw with
        chainState := 1, chainAt := 0, chainTries := 0, chainBreak := none, resume := some (c.queue.val, c.tag) } }))
  ∧ RunsOn .fwActivate 0x0C05 1
      (fun _ u => unlocked u ∧ u.tan.joined = false ∧ (fwSlot u (1 - u.fw.running)).state = 2 ∧ u.fw.act = none ∧ u.fw.pair = none)
      (fun c u => beginActivation c.queue.val c.tag (pw c 0) u)
  ∧ Ends .fwActivate 0x0C05 1 (fun _ u => u.herd.minority = true) .notPermittedMinority
  ∧ Ends .fwActivate 0x0C05 1 (fun _ u => unlocked u ∧ (fwSlot u (1 - u.fw.running)).state ≠ 2) .invalidState
  ∧ Runs .fwPolicySet 0x0C06 2
      (fun c u => pn c 0 < 2 ∧ pn c 1 ≤ 63 ∧ u.fw.locked = false ∧ (vaultSlot u (pn c 1)).state = 1 ∧ (vaultSlot u (pn c 1)).typ = 3)
      (fun _ _ => []) (fun c u => { u with fw := { u.fw with policy := bit (pw c 0) 0, policySlot := pn c 1 } })
  ∧ RunsOn .tackSave 0x0C10 1 (fun _ u => unlocked u)
      (fun c u => addOp { kind := .tackSave (pw c 0) false, cmd := some (c.queue.val, c.tag)
                          tack := some (snapshot (pw c 0) u.fw.running u) } u)
  ∧ (∀ (l : Word) (k : Nat) (u : State), (snapshot l k u).label = l ∧ (snapshot l k u).slot = k ∧ (snapshot l k u).cfg = u.cfg
      ∧ (snapshot l k u).tamper = u.vault.tamper)
  ∧ (∀ t : Tack, Runs .tackRevert 0x0C11 1
      (fun c u => pw c 0 = 0 ∧ unlocked u ∧ u.fw.prev = some t ∧ u.fw.revertible = true ∧ u.fw.act = none ∧ u.fw.ops = [])
      (fun _ _ => [t.number])
      (fun _ u => { u with fw := { u.fw with active := some t, prev := u.fw.active, tackSlot := 1 - u.fw.tackSlot } }))
  ∧ Ends .tackRevert 0x0C11 1 (fun c u => pn c 0 < 2 ∧ unlocked u ∧ u.fw.revertible = false) .invalidState
  ∧ (∀ a p : Tack, Runs .tackStatus 0x0C12 0 (fun _ u => u.fw.active = some a ∧ u.fw.prev = some p)
      (fun _ u => [a.number, a.label, w32 a.slot, p.number, p.label, w32 p.slot, w32 (flag u.fw.revertible + 2 * flag u.fw.locked)])
      (fun _ u => u))
  ∧ Runs .tackLock 0x0C13 2 (fun c _ => pw c 0 = 1) (fun _ _ => []) (fun _ u => { u with fw := { u.fw with locked := true } })
  ∧ Runs .tackLock 0x0C13 2 (fun c _ => pw c 0 = 0 ∧ pw c 1 = 0x756E6C6B) (fun _ _ => [])
      (fun _ u => { u with fw := { u.fw with locked := false } })
  ∧ Ends .tackLock 0x0C13 2 (fun c _ => pw c 0 = 0 ∧ pw c 1 ≠ 0x756E6C6B) .invalidParameter

/-- R468-R475, R478, R480: what ends a flash operation, the image chain and an activation. -/
def Obligations.FlashEventsAct : Prop :=
  (∀ (a : Nat) (l : List Byte) (q : Nat) (t : BitVec 16) (s : State),
      s.fw.ops = [{ kind := .program a l, cmd := some (q, t), begun := true }] → s.fw.reads = [] →
      exec (.flashOperationComplete true) s = .next (complete q t .ok [] { s with
        fw := { s.fw with ops := [] }, mem := { s.mem with flash := memSetAll 0xFF#8 s.mem.flash a l } }))
  ∧ (∀ (k n q : Nat) (t : BitVec 16) (s : State),
      s.fw.ops = [{ kind := .erase k n, cmd := some (q, t), begun := true }] → s.fw.reads = [] → 0x190 ≤ k → Memory.wf 0xFF#8 s.mem.flash = true →
      ∃ u, exec (.flashOperationComplete true) s = .next u ∧ u.fw.ops = []
        ∧ (∀ x, 65536 * k - 0x1900000 ≤ x → x < 65536 * (k + n) - 0x1900000 → memGet 0xFF#8 u.mem.flash x = 0xFF#8)
        ∧ (∀ x, (x < 65536 * k - 0x1900000 ∨ 65536 * (k + n) - 0x1900000 ≤ x) → memGet 0xFF#8 u.mem.flash x = memGet 0xFF#8 s.mem.flash x))
  ∧ (∀ (v : Tack) (l : Word) (q : Nat) (t : BitVec 16) (s : State),
      s.fw.ops = [{ kind := .tackSave l false, cmd := some (q, t), tack := some v, begun := true }] → s.fw.reads = [] →
      ∃ u, exec (.flashOperationComplete true) s = .next u ∧ u.fw.active = some { v with number := s.fw.nextTack }
        ∧ u.fw.prev = s.fw.active ∧ u.fw.revertible = s.fw.active.isSome ∧ u.fw.nextTack = s.fw.nextTack + 1 ∧ u.cfg = s.cfg)
  ∧ (∀ (k n q : Nat) (t : BitVec 16) (s : State),
      s.fw.ops = [{ kind := .fwBegin k n false, cmd := some (q, t), begun := true }] → s.fw.reads = [] →
      ∃ u, exec (.flashOperationComplete true) s = .next u ∧ fwSlot u k = { state := 1, count := n } ∧ u.fw.loading = some k)
  ∧ (∀ (o : FlashOp) (a : Nat) (l : List Byte) (q : Nat) (t : BitVec 16) (s : State),
      s.fw.ops = [o] → o = { kind := .program a l, cmd := some (q, t), begun := true } → s.fw.reads = [] →
      exec (.flashOperationComplete false) s = .next (complete q t .failedFlash [] (scramble a l.length { s with fw := { s.fw with ops := [] } })))
  ∧ (∀ (k : Nat) (s : State), s.dev.dataReady = true → k ∈ s.fw.reerase → 0x190 ≤ k → Memory.wf 0xFF#8 s.mem.flash = true →
      ∃ u, exec (.flashSectorReerase k) s = .next u ∧ k ∉ u.fw.reerase
        ∧ (∀ x, 65536 * k - 0x1900000 ≤ x → x < 65536 * k - 0x1900000 + 65536 → memGet 0xFF#8 u.mem.flash x = 0xFF#8))
  ∧ (∀ (k : Nat) (s : State), k ∉ s.fw.reerase → exec (.flashSectorReerase k) s = .next s)
  ∧ (∀ (v : FwSlot) (n : Nat) (b : List Byte), (slotWith v n b).blocks = v.blocks ++ [b]
      ∧ (slotWith v n b).state = (if v.blocks.length + 1 < v.count then 1 else if payloadOk (v.blocks ++ [b]) then 2 else 3))
  ∧ (∀ (s : State) (h : List Byte), headerCheck s h = if (Config.kelwaerAnchors.any fun pub => ecdsaOk pub (sha256 (h.take 52)) (slice h 52 64)) = false
      then some .failedSignature else counterCheck s h)
  ∧ (∀ (s : State) (h : List Byte), s.fw.policy = true → s.vault.rootOk = false → counterCheck s h = some .failedRootKey)
  ∧ (∀ (x : BlockIn) (s : State), s.tan.joined = false → x.bytes.length = 4096 → crc32c x.bytes = x.crc → s.fw.flashOk = true →
      exec (.fwChainBlock x) s = .next (takeChainBlock x s))
  ∧ (∀ (x : BlockIn) (s : State), s.tan.joined = false → crc32c x.bytes ≠ x.crc → exec (.fwChainBlock x) s = .next s)
  ∧ (∀ (x : BlockIn) (k : Nat) (s : State), (heldBlocks s).length ≤ x.num → x.num ≠ 0 → openLoad s = some k →
      x.num = (heldBlocks s).length + pendingBlocks s → x.num < imageCount s →
      takeChainBlock x s = addOp { kind := .fwBlock k x.num x.bytes, peer := some x.src.val } s)
  ∧ (∀ (src : Fin 64) (e : Word) (n : Nat) (l : List Nat) (s : State), s.tan.joined = false → s.fw.chainState = 1 → 0 < s.fw.chainTries →
      s.fw.chain = src.val :: l → oldEpoch s src e = false → exec (.fwChainAck src e n) s = .next (takeChainAck n s))
  ∧ (∀ (src : Fin 64) (e : Word) (n : Nat) (s : State), s.tan.joined = false → oldEpoch s src e = true → exec (.fwChainAck src e n) s = .next s)
  ∧ (∀ (n : Nat) (s : State), s.fw.resume = none → imageCount s ≤ n →
      takeChainAck n s = { s with fw := { s.fw with chainAt := n, chainTries := 0, chainState := 3 } })
  ∧ (∀ s : State, periodDue .chainAck 100000000 s = false → exec .fwChainAckTimeout s = .next s)
  ∧ (∀ s : State, s.fw.chainState = 1 → 0 < s.fw.chainTries → periodDue .chainAck 100000000 s = true → exec .fwChainAckTimeout s = .next
      (if s.fw.chainTries < 3 then sendBlock (s.fw.chainTries + 1) s else breakChain s))
  ∧ (∀ (h : Nat) (l : List Nat) (s : State), s.fw.chain = h :: l → s.fw.resume = none →
      breakChain s = postEvent 0x0C01 h (w32 (heldBlocks s).length)
        { s with fw := { s.fw with chainState := 2, chainBreak := some h, chainTries := 0 } })
  ∧ (∀ (q : Nat) (t : BitVec 16) (l : Word) (t0 : BitVec 64) (s : State), s.fw.act = some (q, t, l, t0) → s.fw.actRan = false →
      s.dev.actPause = false → othersRun s q t = false → s.tan.joined = false →
      exec .activationPauseEnd s = .next (abandonAll 0x80#8 { s with dev := { s.dev with actPause := true, cmdReady := false } }))
  ∧ (∀ (q : Nat) (t : BitVec 16) (l : Word) (t0 : BitVec 64) (s : State), s.fw.act = some (q, t, l, t0) → s.fw.actRan = false →
      s.dev.actPause = false → reached s (t0 + 2000000000) = true →
      exec .activationTimeout s = .next (complete q t .invalidState []
        { s with fw := { s.fw with act := none }, tan := { s.tan with fwStage := 0 } }))
  ∧ (∀ (q : Nat) (t : BitVec 16) (l : Word) (t0 : BitVec 64) (s : State), s.fw.act = some (q, t, l, t0) → s.dev.actPause = true →
      exec (.activationFirmwareUp true) s = .next (firmwareRuns l s)
      ∧ exec (.activationFirmwareUp false) s = .next (firmwareFails q t s))
  ∧ (∀ (l : Word) (s : State), (firmwareRuns l s).fw.running = 1 - s.fw.running ∧ (firmwareRuns l s).dev.cmdReady = true
      ∧ (firmwareRuns l s).dev.actPause = false ∧ (firmwareRuns l s).dev.fwVersion = (fwSlot s (1 - s.fw.running)).version)
  ∧ (∀ (q : Nat) (t : BitVec 16) (s : State), ∃ u, firmwareFails q t s = u ∧ u.fw.running = s.fw.running
      ∧ (fwSlot u (1 - s.fw.running)).state = 3 ∧ trouble u .activationFail = true ∧ u.dev.cmdReady = true ∧ u.fw.act = none)

/-! ### The whole machine -/

/-- What the spec gives for reset: the device stands in SADDLE (R58), every queue is empty with the control and status of R52
and R54, every semaphore is free (R60), no trouble bit is set and every one is masked in (R64), no command is in flight,
every plain is disabled and without ports (R516), and BAR2 maps the staging region (R341). -/
def Obligations.ResetState : Prop :=
  (∀ q, (que State.reset q).words = [] ∧ ctrlWord (que State.reset q) = (if q < 16 then 0x8002#32 else if q < 64 then 0x8000#32 else 0#32)
      ∧ (que State.reset q).underrun = false ∧ (que State.reset q).overflow = false ∧ (que State.reset q).ptrErr = false
      ∧ (que State.reset q).cfgRefused = false ∧ (que State.reset q).drops = 0)
  ∧ (∀ n, (sem State.reset n).holder = none ∧ (sem State.reset n).abandoned = false)
  ∧ (∀ n, trbWord State.reset n = 0#32 ∧ trbMask State.reset n = 0xFFFFFFFF#32) ∧ State.reset.trb.log = []
  ∧ (∀ p, (plainCfg State.reset p).enabled = false ∧ (plainCfg State.reset p).ports = 0#16 ∧ (plainCfg State.reset p).beams = 0
      ∧ (plainCfg State.reset p).beamMask = 0#64 ∧ (plainCfg State.reset p).trackCap = 4096 ∧ (plainCfg State.reset p).sync = [])
  ∧ State.reset.dev.mode = .saddle ∧ State.reset.dev.cmdReady = false ∧ State.reset.cmd.inFlight = []
  ∧ State.reset.cfg.aperture = 0x738000000#64 ∧ State.reset.pending = []

/-- The invariant of the machine holds right after reset. -/
def Obligations.InvariantAtReset : Prop := StateOk State.reset

/-- R6, R22, R27, R65, R433 as an invariant of every step: from a state whose two memories are in canonical form, with at most
1,024 commands in flight, at most 1,048,576 entries in the trouble log, no reserved trouble bit set and TAMPER_COUNT within
its 32 bits, no step leads to one without, whatever the command, its operands and the free values. -/
def Obligations.InvariantKept : Prop :=
  ∀ s t : State, StateOk s → step s = .next t → StateOk t

/-- Every well-formed command completes in every state, and an ill-formed one, whose operands belong to another row of the
table, is a fault of that name. R57, R64, R377: a BAR0 write completes. R106, R110-R112, R116, R118-R120, R125, R128, R132, R140-R143,
R147, R148, R515: the commands of the receive array, clear of every check of R38 and with the operands, the plain and the
budget that the rules ask, answer ST_OK with their own effect. R172, R233-R236, R239, R243, R249-R251, R471-R480: so do the events
of the link engine and of the flash under their own conditions. -/
def Obligations.CommandsComplete : Prop :=
  (∀ (i : Instr) (s : State), wellFormed i = true → ∃ t, exec i s = .next t)
  ∧ (∀ (i : Instr) (s : State), wellFormed i = false → exec i s = .fault .illFormed)
  ∧ (let completes (i : Packet → Instr) (op n : Nat) (pre : Packet → State → Prop) (post : Packet → State → State → Prop) : Prop :=
      ∀ c s, clear op n c s → pre c (takeHead op c s) →
        ∃ r t, exec (i c) s = .next (sendReply (entryOf .host op c) .ok r t) ∧ post c (takeHead op c s) t
    let free (c : Packet) (u : State) : Prop := pn c 0 ≤ 3 ∧ draining u (pn c 0) = false
    let cfg (c : Packet) (u : State) : PlainCfg := plainCfg u (pn c 0)
    let still (_ : Packet) (u t : State) : Prop := t = u
    (∀ (t : Fin 16) (v : BitVec 64) (s : State), s.dev.mode ≠ .stall →
        exec (.registerWrite (BitVec.ofNat 20 (0x2100C + 32 * t.val)) false v) s
          = .next (setGait s t { gait s t with interval := v.setWidth 32 }))
    ∧ (∀ (n : Fin 8) (v : BitVec 64) (s : State), s.dev.mode ≠ .stall →
        ∃ t, exec (.registerWrite (BitVec.ofNat 20 (0x1040 + 4 * n.val)) false v) s = .next t ∧ trbMask t n = v.setWidth 32)
    ∧ (∀ n : Nat, n ≤ 4 → completes .syncSet 0x0204 (2 + n) (fun c u => free c u ∧ pn c 1 = n ∧ ∀ i, i < n → pn c (2 + i) < 256)
        (fun c _ t => (cfg c t).sync = (List.range n).map (fun i => (pw c (2 + i)).setWidth 8)))
    ∧ completes .detectSet 0x0206 3 (fun c u => free c u ∧ 3 ≤ pn c 1 ∧ pn c 1 ≤ 6 ∧ 40 ≤ pn c 2 ∧ pn c 2 ≤ 200)
        (fun c _ t => (cfg c t).detCount = pn c 1 ∧ (cfg c t).detThresh = pn c 2)
    ∧ completes .trackCapSet 0x0207 2 (fun c u => free c u ∧ 1 ≤ pn c 1 ∧ pn c 1 ≤ 4096) (fun c _ t => (cfg c t).trackCap = pn c 1)
    ∧ completes .recordSet 0x0208 4 (fun c u => free c u ∧ 34 ≤ pn c 1 ∧ pn c 1 ≤ 63 ∧ 34 ≤ pn c 2 ∧ pn c 2 ≤ 63 ∧ pn c 3 < 4)
        (fun c _ t => (cfg c t).recQ = pn c 1 ∧ (cfg c t).repQ = pn c 2)
    ∧ completes .sysrefSet 0x0213 3 (fun c u => free c u ∧ pn c 1 ≤ 2 ∧ 1 ≤ pn c 2 ∧ pn c 2 ≤ 1024)
        (fun c _ t => (cfg c t).sysref = pn c 1 ∧ (cfg c t).sysrefK = pn c 2)
    ∧ completes .levelSet 0x0222 2 (fun c u => free c u ∧ pn c 1 < 65536) (fun c _ t => (cfg c t).clipLimit = pn c 1)
    ∧ completes .portLatencySet 0x0211 2 (fun c u => pn c 0 ≤ 15 ∧ pn c 1 < 65536 ∧ plainOfPort u (pn c 0) = none)
        (fun c _ t => (portCfg t (pn c 0)).extLatency = pn c 1)
    ∧ completes .lanePolaritySet 0x0214 2 (fun c u => pn c 0 ≤ 15 ∧ pn c 1 < 4 ∧ inEnabledPlain u (pn c 0) = false)
        (fun c _ t => (portCfg t (pn c 0)).rxInv = bit (pw c 1) 0 ∧ (portCfg t (pn c 0)).txInv = bit (pw c 1) 1)
    ∧ (∀ n : Nat, n ≤ 128 → completes .beamWeightsWrite 0x0230 (3 + n)
        (fun c u => free c u ∧ pn c 1 ≤ 63 ∧ pn c 2 = n ∧ swapPending u (pn c 0) false = false)
        (fun c _ t => tabGet (rxPlain t (pn c 0)).shadow (pn c 1) [] = (c.params.drop 3).take n))
    ∧ completes .beamWeightsRead 0x0232 3 (fun c _ => pn c 0 ≤ 3 ∧ pn c 1 ≤ 63 ∧ pn c 2 < 2) still
    ∧ completes .plainStatus 0x0202 1 (fun c _ => pn c 0 ≤ 3) still
    ∧ completes .portStatus 0x0212 1 (fun c _ => pn c 0 ≤ 15) (fun _ u t => t.cfg = u.cfg)
    ∧ completes .fabricStatus 0x0242 0 (fun _ _ => True) still
    ∧ completes .rxCountersRead 0x0250 2 (fun c _ => pn c 0 ≤ 3 ∧ pn c 1 < 2)
        (fun c _ t => pn c 1 = 1 → (rxPlain t (pn c 0)).counters = List.replicate 10 0)
    ∧ completes .plainConfigure 0x0200 3
        (fun c u => free c u ∧ pn c 1 < 65536 ∧ pn c 2 = 0 ∧ (cfg c u).enabled = false
          ∧ ∀ n ∈ maskList (pw c 1), plainOfPort u n = none ∨ plainOfPort u n = some (pn c 0))
        (fun c _ t => (cfg c t).ports = (pw c 1).setWidth 16)
    ∧ completes .plainDisable 0x0201 2
        (fun c u => free c u ∧ pn c 1 = 0 ∧ (∀ w ∈ u.rx.drains, w.tag ≠ c.tag) ∧ ∀ t ∈ u.rx.tracks, t.plain ≠ pn c 0)
        (fun c _ t => (cfg c t).enabled = false)
    ∧ completes .chainEnable 0x0203 5 (fun c u => free c u ∧ (cfg c u).chainMask &&& ~~~ chainWords c &&& allChains u (pn c 0) = 0#128)
        (fun c _ t => (cfg c t).chainMask = chainWords c)
    ∧ completes .searchSet 0x0205 3
        (fun c u => free c u ∧ pw c 1 &&& 0xFFFF00F0#32 = 0#32 ∧ pn c 2 < 2 ∧ (cfg c u).gridMask &&& (pw c 1).setWidth 4 = (cfg c u).gridMask
          ∧ (cfg c u).sfMask &&& (pw c 1 >>> 8).setWidth 8 = (cfg c u).sfMask
          ∧ fitsBudget u (pn c 0) { cfg c u with gridMask := (pw c 1).setWidth 4, sfMask := (pw c 1 >>> 8).setWidth 8 } = true)
        (fun c _ t => (cfg c t).gridMask = (pw c 1).setWidth 4 ∧ (cfg c t).sfMask = (pw c 1 >>> 8).setWidth 8)
    ∧ completes .beamEnable 0x0233 4
        (fun c u => free c u ∧ pn c 3 < 2 ∧ beamsBelow (p64 c 1) (cfg c u).beams = p64 c 1
          ∧ (cfg c u).beamMask &&& p64 c 1 = (cfg c u).beamMask ∧ fitsBudget u (pn c 0) { cfg c u with beamMask := p64 c 1 } = true)
        (fun c _ t => (cfg c t).beamMask = p64 c 1)
    ∧ completes .paddockWithdraw 0x0240 2
        (fun c u => pn c 1 < 2 ∧ searchLoadAll u ≤ 1088 * maskCount (paddocksIn
            { u with cfg := { u.cfg with rx := { u.cfg.rx with padOut := u.cfg.rx.padOut ||| pw c 0 } } })
          ∧ (∀ t ∈ u.rx.tracks, bit (pw c 0) (t.num / 128) = false) ∧ ∀ w ∈ u.rx.drains, w.tag ≠ c.tag)
        (fun c u t => t.cfg.rx.padOut = u.cfg.rx.padOut ||| pw c 0)
    ∧ completes .paddockRestore 0x0241 1 (fun _ _ => True) (fun c u t => t.cfg.rx.padOut = u.cfg.rx.padOut &&& ~~~ pw c 0)
    ∧ completes .linkCalibrate 0x0210 1
        (fun c u => pn c 0 < 65536 ∧ (∀ n ∈ maskList (pw c 0), inEnabledPlain u n = true ∧ (portRun u n).lane ≠ 0)
          ∧ (∀ p ∈ plainsNamed u (pw c 0), draining u p = false) ∧ spreadPlains (sendSysref (pw c 0) u) (pw c 0) = [])
        (fun c u t => t = calibrate (pw c 0) (sendSysref (pw c 0) u))
    ∧ (∀ c s, clear 0x0231 6 c s →
        let u := takeHead 0x0231 c s
        free c u → 1 ≤ pn c 1 → pn c 1 ≤ 64 → pn c 2 ≤ 7 → pn c 5 < 256 → asnAhead u (asnWords c) = true →
        swapPending u (pn c 0) false = false → activationRefused u (pn c 0) (pn c 1) = false →
        bankCrc (rxPlain u (pn c 0)).shadow (pn c 1) (chainsOf u (pn c 0)) = pw c 3 →
        ∃ t w, exec (.beamTableActivate c) s = .next (addInFlight (entryOf .host 0x0231 c) t) ∧ t.rx.swaps = u.rx.swaps ++ [w]
          ∧ w.plain = pn c 0 ∧ w.count = pn c 1 ∧ w.shift = pn c 2))
  ∧ (∀ (i : LinkItem) (rest : List LinkItem) (s : State), s.rx.linkq = i :: rest →
      exec .linkEngineFrame s = .next (linkFrame i { s with rx := { s.rx with linkq := rest } }))
  ∧ (∀ (src : Fin 64) (h : Heard) (s : State), s.tan.joined = false →
      exec (.forwardedFrame src h) s =
        .next (joinLink { member := some (src.val, { h with hid := if h.combined = 0 then src else h.hid }) } s))
  ∧ (∀ (x : AckIn) (s : State), s.tan.joined = false →
      let y : Tx := { plain := x.plain.val, beam := x.beam.val, bw := x.bw.val, sf := 5 + x.sf.val, cr := x.cr.val,
                      len := x.frame.length, kind := 1, net := x.net.val, dst := x.dst, tenant := (netCfg s x.net.val).tenant,
                      t0 := x.t0, frame := x.frame, carrier := carrierOf s x.plain.val x.bw.val x.chan.val 0#32 }
      let z := classify s false (fillTx s (txCfg s x.plain.val).pilot y)
      let u := postPassed z s
      ∀ w : Tx, judge u z = none → txAt (takeOn z u) u.radio.nextId = some w → past s (before w.t0 100000) = false →
      ∃ t, exec (.homeAck x) s = .next (requestAtBooking w t) ∧ t = countLink 14 w.net
        (setTx { w with symbols := chirpsOf (takeOn z u) w w.frame, state := .built } (takeOn z u)))
  ∧ (∀ (src ctr : Word) (s : State), exec (.seenCacheAge src ctr) s = .next { s with link := { s.link with
      seen := s.link.seen.filter (fun e => !(e.src = src && e.ctr = ctr
        && reached s (e.time + BitVec.ofNat 64 (1000000000 * s.cfg.link.seenAge)))) } })
  ∧ (∀ (n : Fin 16) (slot : Nat) (stop : BitVec 64) (s : State), (netRun s n).prev = some (slot, stop) → reached s stop = true →
      ∃ t, exec (.epochOverlapEnd n) s = .next t ∧ (netRun t n).prev = none)
  ∧ (∀ s : State, ∃ t, exec .cryptoEngineFaultRestart s = .next t ∧ trouble t .cryptoRestart = true)
  ∧ (∀ (id : BitVec 16) (i : Image) (s : State), imageAt s id.toNat = some i → i.state = 1 → i.todo = [] → blockFlying s i.id = false →
      ∃ j, exec (.imageRoundComplete id) s = .next (postEvent 0x0510 i.id (w32 i.round) (setImage j s)) ∧ j.state = 2)
  ∧ (∀ (id : BitVec 16) (i : Image) (s : State), imageAt s id.toNat = some i → i.state = 2 → reached s i.deadline = true → i.reports = 0 →
      ∃ j, exec (.reportWaitExpiry id) s = .next (postEvent 0x0511 i.id 0#32 (setImage j s)) ∧ j.state = 3)
  ∧ (∀ (a : Nat) (l : List Byte) (q : Nat) (t : BitVec 16) (s : State),
      s.fw.ops = [{ kind := .program a l, cmd := some (q, t), begun := true }] → s.fw.reads = [] →
      exec (.flashOperationComplete true) s = .next (complete q t .ok [] { s with
        fw := { s.fw with ops := [] }, mem := { s.mem with flash := memSetAll 0xFF#8 s.mem.flash a l } }))
  ∧ (∀ (k : Nat) (s : State), s.dev.dataReady = true → k ∈ s.fw.reerase → 0x190 ≤ k → Memory.wf 0xFF#8 s.mem.flash = true →
      ∃ u, exec (.flashSectorReerase k) s = .next u ∧ k ∉ u.fw.reerase)
  ∧ (∀ (x : BlockIn) (s : State), s.tan.joined = false → x.bytes.length = 4096 → crc32c x.bytes = x.crc → s.fw.flashOk = true →
      exec (.fwChainBlock x) s = .next (takeChainBlock x s))
  ∧ (∀ (src : Fin 64) (e : Word) (n : Nat) (l : List Nat) (s : State), s.tan.joined = false → s.fw.chainState = 1 → 0 < s.fw.chainTries →
      s.fw.chain = src.val :: l → oldEpoch s src e = false → exec (.fwChainAck src e n) s = .next (takeChainAck n s))
  ∧ (∀ s : State, s.fw.chainState = 1 → 0 < s.fw.chainTries → periodDue .chainAck 100000000 s = true →
      exec .fwChainAckTimeout s = .next (if s.fw.chainTries < 3 then sendBlock (s.fw.chainTries + 1) s else breakChain s))
  ∧ (∀ (q : Nat) (t : BitVec 16) (l : Word) (t0 : BitVec 64) (s : State), s.fw.act = some (q, t, l, t0) → s.fw.actRan = false →
      s.dev.actPause = false → othersRun s q t = false → s.tan.joined = false →
      exec .activationPauseEnd s = .next (abandonAll 0x80#8 { s with dev := { s.dev with actPause := true, cmdReady := false } }))
  ∧ (∀ (q : Nat) (t : BitVec 16) (l : Word) (t0 : BitVec 64) (s : State), s.fw.act = some (q, t, l, t0) → s.fw.actRan = false →
      s.dev.actPause = false → reached s (t0 + 2000000000) = true →
      exec .activationTimeout s = .next (complete q t .invalidState []
        { s with fw := { s.fw with act := none }, tan := { s.tan with fwStage := 0 } }))
  ∧ (∀ (q : Nat) (t : BitVec 16) (l : Word) (t0 : BitVec 64) (s : State), s.fw.act = some (q, t, l, t0) → s.dev.actPause = true →
      exec (.activationFirmwareUp true) s = .next (firmwareRuns l s))

/-- No command changes the commands that wait behind it, and none changes the serial number that GET_IDENTITY answers (R40);
nor does a step on an empty queue. -/
def Obligations.CommandsKeepTheQueue : Prop :=
  (∀ (i : Instr) (s t : State), exec i s = .next t → t.pending = s.pending ∧ t.dev.serial = s.dev.serial)
  ∧ (∀ s t : State, s.pending = [] → step s = .next t → t.pending = [] ∧ t.dev.serial = s.dev.serial)

/-- The frame of what the device reports: a reply changes nothing but the reply and event queues, the replies held and the
commands in flight, what has left the device, the trouble block and the tandem's digest items; a trouble bit and an event
change less. Every configuration register, clock, table and byte of memory is as before, and so is every queue but the
paired one and Q32 (R34, R35, R45, R64, R66). -/
def Obligations.ReportsFrame : Prop :=
  (∀ (b : TrbBit) (s : State), raise b s = { s with trb := (raise b s).trb, que := (raise b s).que, out := (raise b s).out }
      ∧ (raise b s).trb.masks = s.trb.masks ∧ (∀ q, q ≠ 32 → que (raise b s) q = que s q) ∧ trouble (raise b s) b = true
      ∧ (∀ c, trouble s c = true → trouble (raise b s) c = true))
  ∧ (∀ (q : Nat) (l : List Byte) (s : State),
      let t := pushBytes q l s
      t = { s with trb := t.trb, que := t.que, out := t.out } ∧ t.trb.masks = s.trb.masks
        ∧ (∀ k, k ≠ q → k ≠ 32 → que t k = que s k) ∧ (∀ c, trouble s c = true → trouble t c = true))
  ∧ (∀ (e : InFlight) (st : Status) (r : List Word) (s : State),
      let t := sendReply e st r s
      t = { s with trb := t.trb, que := t.que, out := t.out, tan := t.tan, cmd := t.cmd }
        ∧ t.trb.masks = s.trb.masks ∧ (∀ k, k ≠ e.queue + 16 → k ≠ 32 → que t k = que s k)
        ∧ t.tan = { s.tan with items := t.tan.items } ∧ t.cmd.forwarded = s.cmd.forwarded ∧ t.cmd.waiting = s.cmd.waiting
        ∧ (∀ c, trouble s c = true → trouble t c = true))
end

