-- ==== Sys2Proof/Decode.lean ====
section
/-! DEFINITION. The command that a word of spec/opcode_table.json spells: no row of the table gives bits, so no word
spells a command. -/

namespace Sys2Proof

/-- The command whose table bits are w: the table gives none of its rows bits. -/
def decodeTableWord (nbits w : Nat) : Option Instr :=
  match nbits, w with
  | _, _ => none

end Sys2Proof
end

