-- ==== Sys2Proof/Laws/Command.lean ====
section
/-! SUPPORT. What taking a command from its queue does, and that a clear command runs. -/

namespace Sys2Proof.Laws

open Sys2Proof.Machine Sys2Proof.Safety

/-- Mirroring an input changes the herd messages sent and the mirror's sequence number alone. -/
theorem mirrorOut_eq (x : Mirrored) (s : State) :
    mirrorOut x s = { s with out := (mirrorOut x s).out, tan := { s.tan with mirrorSeq := (mirrorOut x s).tan.mirrorSeq } } := by
  unfold mirrorOut
  split <;> rfl

/-- A packet off the head of its queue: nothing but the queues changes. -/
theorem offHead_eq (op : Nat) (c : Packet) (s : State) : offHead op c s = { s with que := (offHead op c s).que } := by
  unfold offHead
  simp only
  split
  · split <;> rfl
  · rfl

/-- Bridle takes a packet: nothing but the queues changes, besides what the reins holder mirrors. -/
theorem takeHead_eq (op : Nat) (c : Packet) (s : State) :
    takeHead op c s = { s with que := (takeHead op c s).que, out := (takeHead op c s).out
                               tan := { s.tan with mirrorSeq := (takeHead op c s).tan.mirrorSeq } } := by
  unfold takeHead
  rw [mirrorOut_eq, offHead_eq]

theorem earlierRuns_que (s : State) (q : Tab Queue) (c : Packet) : earlierRuns { s with que := q } c = earlierRuns s c := rfl

/-- The checks of R38 that read nothing but what a clear command settles do not depend on the queues. -/
theorem clear_parts {op n : Nat} {c : Packet} {s : State} (h : clear op n c s = true) :
    served s c = true ∧ broadcast c = false ∧ target c = ownHid s ∧ (ordered c && earlierRuns s c) = false
      ∧ capacityFull s = false ∧ activationPause s = false ∧ (s.pwr.trans.isSome && !runsInTransition op) = false
      ∧ lengthBad c = false ∧ plen c = n ∧ headerReserved c = 0 ∧ tagInFlight s c.tag = false ∧ opcodeRuns s op = true
      ∧ (nonHolder s && !runsWithoutReins op) = false := by
  simp only [clear, Bool.and_eq_true, Bool.not_eq_true', decide_eq_true_eq] at h
  obtain ⟨⟨⟨⟨⟨⟨⟨⟨⟨⟨⟨⟨⟨⟨h1, h2⟩, h3⟩, h4⟩, h5⟩, h6⟩, h7⟩, hx⟩, hn⟩, hm⟩, hs⟩, h8⟩, h9⟩, h10⟩, h11⟩ := h
  refine ⟨h1, h2, h3, h4, h5, h6, h7, ?_, hm, h8, h9, h10, ?_⟩
  · simp [lengthBad, packetBytes, hx, hn, hm]; omega
  · revert h11; cases nonHolder s <;> cases runsWithoutReins op <;> simp

/-- A clear command has the word that its count stands in (R511). -/
theorem countMissing_clear {spec : CmdSpec} {n : Nat} {c : Packet} (hc : ∀ i, spec.countAt = some i → i < n) (h : plen c = n) :
    countMissing spec c = false := by
  unfold countMissing
  split
  · rename_i i e; simpa [h] using hc i e
  · rfl

/-- A command that passes the general checks and its own row's runs. -/
theorem runCommand_clear {spec : CmdSpec} {n : Nat} {c : Packet} {s : State} (h : clear spec.op n c s = true)
    (hk : spec.known = true) (hl : spec.len c = some n) (hc : ∀ i, spec.countAt = some i → i < n) (hv : spec.valid c = true)
    (hh : spec.here c (takeHead spec.op c s) = true) (hp : spec.perm c (takeHead spec.op c s) = none) (hr : spec.ready c (takeHead spec.op c s) = true) :
    runCommand spec c s = .next (execute .host spec c (takeHead spec.op c s)) := by
  obtain ⟨h1, h2, h3, h4, h5, h6, h7, h8, h9, h10, h11, h12, h13⟩ := clear_parts h
  have e := takeHead_eq spec.op c s
  have hs : runCommand spec c s = .next (takeCommand .host spec c (takeHead spec.op c s)) := by
    simp [runCommand, startCommand, h1]
  rw [hs]
  generalize takeHead spec.op c s = u at *
  have h4' : (ordered c && earlierRuns u c) = false := by rw [e]; exact h4
  have h3' : target c = ownHid u := by rw [e]; exact h3
  have h5' : capacityFull u = false := by rw [e]; exact h5
  have h6' : activationPause u = false := by rw [e]; exact h6
  have h7' : (u.pwr.trans.isSome && !runsInTransition spec.op) = false := by rw [e]; exact h7
  have h11' : tagInFlight u c.tag = false := by rw [e]; exact h11
  have h12' : opcodeRuns u spec.op = true := by rw [e]; exact h12
  have h13' : (nonHolder u && !runsWithoutReins spec.op) = false := by rw [e]; exact h13
  have hw : mustWait spec c u = false := by simp only [mustWait, h4', Bool.false_and]
  have hm : countMissing spec c = false := countMissing_clear hc h9
  have he : entryCheck spec c u = none := by
    simp only [entryCheck, h6', h7', h8, hk, hl, h9, h10, hv, hm]; simp
  have hj : judgeLast .host spec c u = execute .host spec c u := by
    simp only [judgeLast, lastCheck, reinsCheck, hh, h11', h12', hr, hp]
    simp [h13']
  simp [takeCommand, hw, dispatchCommand, h2, h3', judgeOwn, h5', he, hj, fromPeer]

/-- A row that needs the command's own checks only: done at once. -/
theorem runs_of {i : Packet → Instr} {n : Nat} {pre : Packet → State → Prop} {words : Packet → State → List Word}
    {eff : Packet → State → State} (spec : CmdSpec) (hi : ∀ c s, exec (i c) s = runCommand spec c s)
    (hk : spec.known = true)
    (hl : ∀ c u, pre c u → spec.len c = some n) (hc : ∀ i, spec.countAt = some i → i < n)
    (hv : ∀ c u, pre c u → spec.valid c = true) (hh : ∀ c u, pre c u → spec.here c u = true)
    (hp : ∀ c u, pre c u → spec.perm c u = none) (hr : ∀ c u, pre c u → spec.ready c u = true)
    (ha : ∀ c u, pre c u → spec.run c u = { state := eff c u, status := .ok, results := words c u, later := false }) :
    Runs i spec.op n pre words eff := by
  intro c s h p
  rw [hi, runCommand_clear h hk (hl _ _ p) hc (hv _ _ p) (hh _ _ p) (hp _ _ p) (hr _ _ p), execute, ha _ _ p]
  rfl

/-- A row whose command runs on. -/
theorem runsOn_of {i : Packet → Instr} {n : Nat} {pre : Packet → State → Prop} 
    {eff : Packet → State → State} (spec : CmdSpec) (hi : ∀ c s, exec (i c) s = runCommand spec c s)
    (hk : spec.known = true)
    (hl : ∀ c u, pre c u → spec.len c = some n) (hc : ∀ i, spec.countAt = some i → i < n)
    (hv : ∀ c u, pre c u → spec.valid c = true) (hh : ∀ c u, pre c u → spec.here c u = true)
    (hp : ∀ c u, pre c u → spec.perm c u = none) (hr : ∀ c u, pre c u → spec.ready c u = true)
    (ha : ∀ c u, pre c u → (spec.run c u).later = true ∧ (spec.run c u).state = eff c u) :
    RunsOn i spec.op n pre eff := by
  intro c s h p
  rw [hi, runCommand_clear h hk (hl _ _ p) hc (hv _ _ p) (hh _ _ p) (hp _ _ p) (hr _ _ p)]
  simp [execute, ha _ _ p]

/-- A row with a length of its own words. -/
theorem runsLen_of {i : Packet → Instr} {n : Packet → Nat} {pre : Packet → State → Prop} {words : Packet → State → List Word}
    {eff : Packet → State → State} (spec : CmdSpec) (hi : ∀ c s, exec (i c) s = runCommand spec c s)
    (hk : spec.known = true)
    (hl : ∀ c u, pre c u → spec.len c = some (n c)) (hc : ∀ c u i, pre c u → spec.countAt = some i → i < n c)
    (hv : ∀ c u, pre c u → spec.valid c = true) (hh : ∀ c u, pre c u → spec.here c u = true)
    (hp : ∀ c u, pre c u → spec.perm c u = none) (hr : ∀ c u, pre c u → spec.ready c u = true)
    (ha : ∀ c u, pre c u → spec.run c u = { state := eff c u, status := .ok, results := words c u, later := false }) :
    RunsLen i spec.op n pre words eff := by
  intro c s h p
  rw [hi, runCommand_clear h hk (hl _ _ p) (fun i e => hc _ _ i p e) (hv _ _ p) (hh _ _ p) (hp _ _ p) (hr _ _ p), execute, ha _ _ p]
  rfl

/-- A row whose command ends with another status and changes nothing. -/
theorem ends_of {i : Packet → Instr} {n : Nat} {pre : Packet → State → Prop} {st : Status} (spec : CmdSpec)
    (hi : ∀ c s, exec (i c) s = runCommand spec c s) (hk : spec.known = true)
    (hl : ∀ c u, pre c u → spec.len c = some n) (hc : ∀ i, spec.countAt = some i → i < n)
    (hv : ∀ c u, pre c u → spec.valid c = true) (hh : ∀ c u, pre c u → spec.here c u = true)
    (hp : ∀ c u, pre c u → spec.perm c u = none) (hr : ∀ c u, pre c u → spec.ready c u = true)
    (ha : ∀ c u, pre c u → spec.run c u = { state := u, status := st, results := [], later := false }) :
    Ends i spec.op n pre st := by
  intro c s h p
  rw [hi, runCommand_clear h hk (hl _ _ p) hc (hv _ _ p) (hh _ _ p) (hp _ _ p) (hr _ _ p), execute, ha _ _ p]
  rfl

/-- What a clear command is judged by: its own row's checks 6 to 8 alone. -/
theorem runCommand_row {spec : CmdSpec} {n : Nat} {c : Packet} {s : State} (h : clear spec.op n c s = true)
    (hk : spec.known = true) (hl : spec.len c = some n) (hc : ∀ i, spec.countAt = some i → i < n) :
    runCommand spec c s = .next (
      if spec.valid c && spec.here c (takeHead spec.op c s) then
        match spec.perm c (takeHead spec.op c s) with
        | some st => sendReply (entryOf .host spec.op c) st [] (takeHead spec.op c s)
        | none =>
          if spec.ready c (takeHead spec.op c s) then execute .host spec c (takeHead spec.op c s)
          else sendReply (entryOf .host spec.op c) .invalidState [] (takeHead spec.op c s)
      else sendReply (entryOf .host spec.op c) .invalidParameter [] (takeHead spec.op c s)) := by
  obtain ⟨h1, h2, h3, h4, h5, h6, h7, h8, h9, h10, h11, h12, h13⟩ := clear_parts h
  have e := takeHead_eq spec.op c s
  have hs : runCommand spec c s = .next (takeCommand .host spec c (takeHead spec.op c s)) := by
    simp [runCommand, startCommand, h1]
  rw [hs]
  generalize takeHead spec.op c s = u at *
  have h4' : (ordered c && earlierRuns u c) = false := by rw [e]; exact h4
  have h3' : target c = ownHid u := by rw [e]; exact h3
  have h5' : capacityFull u = false := by rw [e]; exact h5
  have h6' : activationPause u = false := by rw [e]; exact h6
  have h7' : (u.pwr.trans.isSome && !runsInTransition spec.op) = false := by rw [e]; exact h7
  have h11' : tagInFlight u c.tag = false := by rw [e]; exact h11
  have h12' : opcodeRuns u spec.op = true := by rw [e]; exact h12
  have h13' : (nonHolder u && !runsWithoutReins spec.op) = false := by rw [e]; exact h13
  have hw : mustWait spec c u = false := by simp only [mustWait, h4', Bool.false_and]
  have hm : countMissing spec c = false := countMissing_clear hc h9
  have hr : reinsCheck .host spec u = none := by simp [reinsCheck, h13']
  congr 1
  have hj : takeCommand .host spec c u = judgeOwn .host spec c u := by
    simp [takeCommand, hw, dispatchCommand, h2, h3', fromPeer]
  rw [hj]
  simp only [judgeOwn, h5', entryCheck, h6', h7', h8, hk, hl, h9, h10, hm]
  cases spec.valid c
  · simp [answer]
  · simp only [judgeLast, lastCheck, hr, h11', h12', answer]
    cases spec.here c u
    · simp
    · cases spec.perm c u
      · cases spec.ready c u <;> simp
      · simp

/-- A row whose command its own check of the parameters, the permission or the state refuses. -/
theorem ends_check {i : Packet → Instr} {n : Nat} {pre : Packet → State → Prop} {st : Status} (spec : CmdSpec)
    (hi : ∀ c s, exec (i c) s = runCommand spec c s) (hk : spec.known = true) (hl : ∀ c u, pre c u → spec.len c = some n)
    (hc : ∀ i, spec.countAt = some i → i < n)
    (hb : ∀ c u, pre c u → ((spec.valid c && spec.here c u) = false ∧ st = .invalidParameter)
      ∨ ((spec.valid c && spec.here c u) = true ∧ spec.perm c u = some st)
      ∨ ((spec.valid c && spec.here c u) = true ∧ spec.perm c u = none ∧ spec.ready c u = false ∧ st = .invalidState)) :
    Ends i spec.op n pre st := by
  intro c s h p
  rw [hi, runCommand_row h hk (hl _ _ p) hc]
  rcases hb _ _ p with ⟨a, b⟩ | ⟨a, b⟩ | ⟨a, b, d, e⟩
  · simp [a, b]
  · simp [a, b]
  · simp [a, b, d, e]

end Sys2Proof.Laws
end

