-- ==== Sys2Proof/Laws/Tables.lean ====
section
/-! SUPPORT. Laws of tables, of memory, and of the accessors built on them. -/

namespace Sys2Proof.Laws

open Sys2Proof.Machine

/-- Reading a table entry gives what was last written there, and no write elsewhere changes it. -/
theorem tabGet_tabSet {α : Type} (t : Tab α) (k j : Nat) (v d : α) :
    tabGet (tabSet t k v) j d = if j = k then v else tabGet t j d := by
  induction t with
  | nil => simp [tabSet, tabGet]
  | cons e r ih =>
    simp only [tabSet]
    split
    · rename_i h
      by_cases hj : j = k
      · simp [tabGet, hj]
      · simp [tabGet, hj, h ▸ hj]
    · split
      · simp [tabGet]
      · rename_i h h'
        simp only [tabGet, ih]
        by_cases hj : j = e.1
        · have : ¬ e.1 = k := fun hk => h hk.symm
          simp [hj, this]
        · simp [hj]

@[simp] theorem que_setQue (s : State) (q k : Nat) (v : Queue) :
    que (setQue s q v) k = if k = q then v else que s k := by
  by_cases h : k = q
  · subst h; simp [que, setQue, tabGet_tabSet]
  · simp [que, setQue, tabGet_tabSet, h]

@[simp] theorem sem_setSem (s : State) (n k : Nat) (v : Sem) :
    sem (setSem s n v) k = if k = n then v else sem s k := by
  simp [sem, setSem, tabGet_tabSet]

/-! ### Memory -/

/-- The canonical form: no listed default, addresses strictly rising. -/
theorem wf_iff (d : Byte) (m : List Host.Cell) :
    Memory.wf d m = true ↔ (∀ c ∈ m, c.2 ≠ d) ∧ m.Pairwise (fun c e => c.1 < e.1) := by
  induction m with
  | nil => simp [Memory.wf]
  | cons c r ih =>
    cases r with
    | nil => simp [Memory.wf]
    | cons e r =>
      simp only [Memory.wf, Bool.and_eq_true, bne_iff_ne, ne_eq, decide_eq_true_eq, ih, List.pairwise_cons, List.mem_cons,
        forall_eq_or_imp]
      constructor
      · rintro ⟨⟨h1, h2⟩, h3, h4, h5⟩
        exact ⟨⟨h1, h3⟩, ⟨h2, fun x hx => Nat.lt_trans h2 (h4 x hx)⟩, h4, h5⟩
      · rintro ⟨⟨h1, h3⟩, ⟨h2, _⟩, h4, h5⟩
        exact ⟨⟨h1, h2⟩, h3, h4, h5⟩

/-- What a memory lists after a write was listed before, or is the byte written. -/
theorem mem_memSet {d : Byte} {m : List Host.Cell} {a : Nat} {v : Byte} {x : Host.Cell} (h : x ∈ memSet d m a v) :
    x ∈ m ∨ (x = (a, v) ∧ v ≠ d) := by
  induction m with
  | nil =>
    simp only [memSet] at h
    split at h
    · simp at h
    · rename_i hv; right; simpa [hv] using h
  | cons c r ih =>
    simp only [memSet] at h
    split at h
    · split at h
      · left; exact List.mem_cons_of_mem _ h
      · rename_i hv
        rcases List.mem_cons.mp h with h | h
        · exact .inr ⟨h, hv⟩
        · exact .inl (List.mem_cons_of_mem _ h)
    · split at h
      · split at h
        · exact .inl h
        · rename_i hv
          rcases List.mem_cons.mp h with h | h
          · exact .inr ⟨h, hv⟩
          · exact .inl h
      · rcases List.mem_cons.mp h with h | h
        · exact .inl (h ▸ List.mem_cons_self)
        · rcases ih h with h | h
          · exact .inl (List.mem_cons_of_mem _ h)
          · exact .inr h

/-- Every write keeps the canonical form. -/
theorem memSet_wf (d : Byte) (m : List Host.Cell) (a : Nat) (v : Byte) (h : Memory.wf d m = true) :
    Memory.wf d (memSet d m a v) = true := by
  rw [wf_iff] at h ⊢
  refine ⟨fun c hc => ?_, ?_⟩
  · rcases mem_memSet hc with hc | ⟨rfl, hv⟩
    · exact h.1 c hc
    · exact hv
  · obtain ⟨-, hp⟩ := h
    induction m with
    | nil => simp only [memSet]; split <;> simp
    | cons c r ih =>
      obtain ⟨h1, h2⟩ := List.pairwise_cons.mp hp
      simp only [memSet]
      split
      · rename_i ha
        split
        · exact h2
        · exact List.pairwise_cons.mpr ⟨fun x hx => ha ▸ h1 x hx, h2⟩
      · split
        · rename_i hl
          split
          · exact hp
          · refine List.pairwise_cons.mpr ⟨fun x hx => ?_, hp⟩
            rcases List.mem_cons.mp hx with rfl | hx
            · exact hl
            · exact Nat.lt_trans hl (h1 x hx)
        · rename_i hn hl
          refine List.pairwise_cons.mpr ⟨fun x hx => ?_, ih h2⟩
          rcases mem_memSet hx with hx | ⟨rfl, -⟩
          · exact h1 x hx
          · simp only; omega

/-- An address below every listed one reads as unlisted. -/
theorem memGet_below {d : Byte} {m : List Host.Cell} {b : Nat} (h : ∀ c ∈ m, b < c.1) : memGet d m b = d := by
  induction m with
  | nil => rfl
  | cons c r ih =>
    have hc := h c List.mem_cons_self
    simp only [memGet]
    rw [if_neg (by omega)]
    exact ih (fun x hx => h x (List.mem_cons_of_mem _ hx))

/-- A byte read is the one last written there; no other address changes. -/
theorem memGet_memSet (d : Byte) (m : List Host.Cell) (a b : Nat) (v : Byte) (h : Memory.wf d m = true) :
    memGet d (memSet d m a v) b = if b = a then v else memGet d m b := by
  obtain ⟨-, hp⟩ := (wf_iff d m).mp h
  clear h
  induction m with
  | nil =>
    simp only [memSet]
    split
    · rename_i hv; simp [memGet, hv]
    · simp [memGet]
  | cons c r ih =>
    obtain ⟨h1, h2⟩ := List.pairwise_cons.mp hp
    simp only [memSet]
    split
    · rename_i ha
      subst ha
      split
      · rename_i hv
        by_cases hb : b = c.1
        · subst hb; simp [memGet_below h1, hv]
        · simp [memGet, hb]
      · simp only [memGet]
        by_cases hb : b = c.1 <;> simp [hb]
    · split
      · rename_i hn hl
        split
        · rename_i hv
          by_cases hb : b = a
          · subst hb
            rw [if_pos rfl, hv]
            apply memGet_below
            intro x hx
            rcases List.mem_cons.mp hx with rfl | hx
            · exact hl
            · exact Nat.lt_trans hl (h1 x hx)
          · simp [hb]
        · by_cases hb : b = a <;> simp [memGet, hb]
      · rename_i hn hl
        by_cases hb : b = c.1
        · subst hb
          have : ¬ c.1 = a := fun e => hn e.symm
          simp [memGet, this]
        · simp [memGet, hb, ih h2]

/-- A string written keeps the canonical form. -/
theorem memSetAll_wf (d : Byte) (l : List Byte) (m : List Host.Cell) (a : Nat) (h : Memory.wf d m = true) :
    Memory.wf d (memSetAll d m a l) = true := by
  induction l generalizing m a with
  | nil => exact h
  | cons b r ih => exact ih _ _ (memSet_wf d m a b h)

end Sys2Proof.Laws
end

