-- ==== Sys2Proof/Laws/Reports.lean ====
section
/-! SUPPORT. What a trouble bit, an event, a packet pushed by the device and a reply can change. -/

namespace Sys2Proof.Laws

open Sys2Proof.Machine Sys2Proof.Safety

/-- From s to t only queues in l, the trouble block but its masks, and what has left the device have changed, and no
trouble bit has been cleared. -/
def Reported (l : List Nat) (s t : State) : Prop :=
  t = { s with trb := t.trb, que := t.que, out := t.out } ∧ t.trb.masks = s.trb.masks
    ∧ (∀ k, k ∉ l → que t k = que s k) ∧ (∀ c, trouble s c = true → trouble t c = true)

theorem reported_refl (l : List Nat) (s : State) : Reported l s s := ⟨rfl, rfl, fun _ _ => rfl, fun _ h => h⟩

theorem Reported.trans {l : List Nat} {s t u : State} (h : Reported l s t) (k : Reported l t u) : Reported l s u := by
  obtain ⟨h1, h2, h3, h4⟩ := h
  obtain ⟨k1, k2, k3, k4⟩ := k
  refine ⟨?_, k2.trans h2, fun n hn => (k3 n hn).trans (h3 n hn), fun c hc => k4 c (h4 c hc)⟩
  rw [k1, h1]

theorem Reported.mono {l m : List Nat} {s t : State} (h : Reported l s t) (hm : ∀ k ∈ l, k ∈ m) : Reported m s t :=
  ⟨h.1, h.2.1, fun k hk => h.2.2.1 k (fun hl => hk (hm k hl)), h.2.2.2⟩

theorem setQue_reported (q : Nat) (v : Queue) (s : State) : Reported [q] s (setQue s q v) := by
  refine ⟨rfl, rfl, fun k hk => ?_, fun _ h => h⟩
  rw [que_setQue, if_neg (by simpa using hk)]

theorem msi_reported (l : List Nat) (v : Nat) (s : State) : Reported l s (msi v s) := ⟨rfl, rfl, fun _ _ => rfl, fun _ h => h⟩

theorem settle_reported (q : Nat) (v : Queue) (s : State) : Reported [q] s (settle q v s) := by
  unfold settle
  split
  · exact (setQue_reported q _ s).trans (msi_reported _ _ _)
  · exact setQue_reported q _ s

theorem pushWords_reported (q : Nat) (ws : List QWord) (s : State) : Reported [q] s (pushWords q ws s).1 := by
  unfold pushWords
  dsimp only
  repeat' split
  all_goals first | exact setQue_reported _ _ _ | exact settle_reported _ _ _

theorem trbWord_markTrouble (b : TrbBit) (s : State) (n : Nat) :
    trbWord (markTrouble b s) n = if n = trbReg b then setBit (trbWord s (trbReg b)) (trbPos b) true else trbWord s n := by
  simp only [markTrouble, trbWord, tabGet_tabSet]

theorem bit_setBit {w : Word} {i j : Nat} (hi : i < 32) : bit (setBit w i true) j = (bit w j || decide (j = i)) := by
  simp only [setBit, if_true, bit, BitVec.getLsbD_or]
  congr 1
  rw [BitVec.getLsbD_ofNat, Nat.testBit_two_pow]
  by_cases h : j = i
  · subst h; simp [hi]
  · have : ¬ i = j := fun e => h e.symm
    simp [h, this]

theorem trbPos_lt (b : TrbBit) : trbPos b < 32 := by
  cases b <;> first | decide | (rename_i n; revert n; decide)

theorem markTrouble_reported (b : TrbBit) (s : State) : Reported [] s (markTrouble b s) := by
  refine ⟨rfl, rfl, fun _ _ => rfl, fun c hc => ?_⟩
  unfold trouble at *
  rw [trbWord_markTrouble]
  split
  · rename_i h
    rw [bit_setBit (trbPos_lt b), ← h, hc, Bool.true_or]
  · exact hc

@[simp] theorem trouble_markTrouble (b : TrbBit) (s : State) : trouble (markTrouble b s) b = true := by
  unfold trouble
  rw [trbWord_markTrouble, if_pos rfl, bit_setBit (trbPos_lt b)]
  simp

theorem appendLog_reported (b : TrbBit) (s : State) : Reported [] s (appendLog b s) := ⟨rfl, rfl, fun _ _ => rfl, fun _ h => h⟩

theorem noteTrouble_reported (b : TrbBit) (s : State) : Reported [] s (noteTrouble b s) := ⟨rfl, rfl, fun _ _ => rfl, fun _ h => h⟩

theorem absorb_reported (b : TrbBit) (s : State) : Reported [] s (absorb b s) := ⟨rfl, rfl, fun _ _ => rfl, fun _ h => h⟩

theorem foldl_reported {α : Type} {l : List Nat} (f : State → α → State) (hf : ∀ s x, Reported l s (f s x)) (xs : List α) (s : State) :
    Reported l s (xs.foldl f s) := by
  induction xs generalizing s with
  | nil => exact reported_refl _ _
  | cons x r ih => exact (hf s x).trans (ih _)

/-- Raising a trouble bit touches no queue but Q32, whatever the depth. -/
theorem raiseAt_reported (d : Nat) (b : TrbBit) (s : State) : Reported [32] s (raiseAt d b s) := by
  induction d generalizing b s with
  | zero => exact reported_refl _ _
  | succ d ih =>
    unfold raiseAt
    split
    · exact ((absorb_reported b s).trans (noteTrouble_reported b _)).mono (by simp)
    · have h1 : Reported [32] s (appendLog b (markTrouble b (noteTrouble b s))) :=
        (((noteTrouble_reported b s).trans (markTrouble_reported b _)).trans (appendLog_reported b _)).mono (by simp)
      dsimp only
      split
      · exact ((h1.trans (msi_reported _ 0 _)).trans (pushWords_reported 32 _ _)).trans (foldl_reported _ (fun t c => ih c t) _ _)
      · exact h1

theorem raise_reported (b : TrbBit) (s : State) : Reported [32] s (raise b s) := raiseAt_reported 4 b s

/-- A bit that has been raised is set. -/
@[simp] theorem trouble_raise (b : TrbBit) (s : State) : trouble (raise b s) b = true := by
  unfold raise raiseAt
  split
  · rename_i h; exact ((absorb_reported b s).trans (noteTrouble_reported b _)).2.2.2 b h
  · have h1 : trouble (appendLog b (markTrouble b (noteTrouble b s))) b = true :=
      (appendLog_reported b _).2.2.2 b (trouble_markTrouble b _)
    dsimp only
    split
    · exact (((msi_reported [32] 0 _).trans (pushWords_reported 32 _ _)).trans
        (foldl_reported _ (fun t c => raiseAt_reported 3 c t) _ _)).2.2.2 b h1
    · exact h1

theorem trouble_raise_of {b c : TrbBit} {s : State} (h : trouble s c = true) : trouble (raise b s) c = true :=
  (raise_reported b s).2.2.2 c h

theorem raiseAll_reported (l : List TrbBit) (s : State) : Reported [32] s (raiseAll l s) :=
  foldl_reported _ (fun t b => raise_reported b t) l s

theorem pushBytes_reported (q : Nat) (l : List Byte) (s : State) : Reported [q, 32] s (pushBytes q l s) :=
  ((pushWords_reported q _ s).mono (by simp)).trans ((raiseAll_reported _ _).mono (by simp))

theorem pushPacket_reported (q : Nat) (l : List Word) (s : State) : Reported [q, 32] s (pushPacket q l s) :=
  pushBytes_reported q _ s

theorem postEventTo_reported (q code source : Nat) (d : Word) (s : State) : Reported [q, 32] s (postEventTo q code source d s) :=
  pushBytes_reported q _ s

theorem postEvent_reported (code source : Nat) (d : Word) (s : State) : Reported [32] s (postEvent code source d s) :=
  (postEventTo_reported 32 code source d s).mono (by simp)

theorem trouble_postEvent {c : TrbBit} {s : State} {code source : Nat} {d : Word} (h : trouble s c = true) :
    trouble (postEvent code source d s) c = true :=
  (postEvent_reported code source d s).2.2.2 c h

/-- Only queue q and Q32 change when the device pushes a packet into q. -/
theorem que_pushBytes {q k : Nat} {l : List Byte} {s : State} (h : k ≠ q) (h' : k ≠ 32) : que (pushBytes q l s) k = que s k :=
  (pushBytes_reported q l s).2.2.1 k (by simp [h, h'])

theorem que_raise {b : TrbBit} {k : Nat} {s : State} (h : k ≠ 32) : que (raise b s) k = que s k :=
  (raise_reported b s).2.2.1 k (by simpa using h)

theorem que_postEvent {code source k : Nat} {d : Word} {s : State} (h : k ≠ 32) : que (postEvent code source d s) k = que s k :=
  (postEvent_reported code source d s).2.2.1 k (by simpa using h)

end Sys2Proof.Laws
end

