-- ==== Sys2Proof/Laws/Effects.lean ====
section
/-! SUPPORT. What the shared operations of the queues and of the herd give: a push settled in its queue, a host read, and a
message originated. -/

namespace Sys2Proof.Laws

open Sys2Proof.Machine Sys2Proof.Safety

/-- A push settled in queue q changes that queue alone, and there at most the armed interrupt of the contents given. -/
theorem que_settle (q k : Nat) (v : Queue) (s : State) :
    que (settle q v s) k = if k = q then { v with armed := (que (settle q v s) q).armed } else que s k := by
  have h : ∀ w : Queue, w.armed = v.armed ∨ True → que (setQue s q w) q = w := fun w _ => by simp
  unfold settle
  split
  · change que (setQue s q _) k = if k = q then { v with armed := (que (setQue s q _) q).armed } else que s k
    simp only [que_setQue]
    split <;> simp
  · simp only [que_setQue]
    split <;> simp

/-- Outside the queues a settled push changes nothing but the messages raised. -/
theorem settle_eq (q : Nat) (v : Queue) (s : State) :
    settle q v s = { s with que := (settle q v s).que, out := (settle q v s).out } := by
  unfold settle
  split <;> simp [msi, setQue]

@[simp] theorem que_recordRead (w : BitVec 64) (s : State) (k : Nat) : que (recordRead w s) k = que s k := rfl

@[simp] theorem sem_recordRead (w : BitVec 64) (s : State) (k : Nat) : sem (recordRead w s) k = sem s k := rfl

/-- A message is originated by recording it, or held back. -/
theorem originate_cases (m : HerdMsg) (s : State) : originate m s = s ∨ originate m s = sendHerd m s := by
  simp only [originate]
  split <;> split <;> simp

theorem originate_eq (m : HerdMsg) (s : State) : originate m s = { s with out := (originate m s).out } := by
  rcases originate_cases m s with h | h <;> rw [h]
  rfl

@[simp] theorem sem_originate (m : HerdMsg) (s : State) (k : Nat) : sem (originate m s) k = sem s k := by
  rw [originate_eq]; rfl

@[simp] theorem que_originate (m : HerdMsg) (s : State) (k : Nat) : que (originate m s) k = que s k := by
  rw [originate_eq]; rfl

theorem originate_semAnswers (m : HerdMsg) (s : State) : (originate m s).out.semAnswers = s.out.semAnswers := by
  rcases originate_cases m s with h | h <;> rw [h]
  rfl

end Sys2Proof.Laws
end

