-- ==== Sys2Proof/Laws/Kept.lean ====
section
/-! SUPPORT. What every operation of the device keeps, and the rules by which a composed operation keeps it. The files
Kept*.lean beside this one hold one lemma per operation. -/

namespace Sys2Proof.Laws

open Sys2Proof.Machine Sys2Proof.Safety

/-- From s0 to s the invariant stands, and neither the queue of commands nor the serial number has changed. -/
def Kept (s0 s : State) : Prop :=
  (StateOk s0 → StateOk s) ∧ s.pending = s0.pending ∧ s.dev.serial = s0.dev.serial

theorem kept_refl (s : State) : Kept s s := ⟨id, rfl, rfl⟩

theorem Kept.trans {s0 s t : State} (h : Kept s0 s) (h' : Kept s t) : Kept s0 t :=
  ⟨fun k => h'.1 (h.1 k), h'.2.1.trans h.2.1, h'.2.2.trans h.2.2⟩

/-- A state that differs in none of the fields the invariant reads. -/
theorem kept_mk {s0 s : State} {cfg dev cmd que sem semReq trb out mem rx cut comb radio link sched air fwd bh herd host time gait
      tan bri vault pwr fw free pending} (h : Kept s0 s) (hm : mem = s.mem) (hc : cmd.inFlight = s.cmd.inFlight)
    (ht : trb = s.trb) (hv : vault.count = s.vault.count) (hp : pending = s.pending) (hs : dev.serial = s.dev.serial) :
    Kept s0 { cfg := cfg, dev := dev, cmd := cmd, que := que, sem := sem, semReq := semReq, trb := trb, out := out, mem := mem, rx := rx,
              cut := cut, comb := comb, radio := radio, link := link, sched := sched, air := air, fwd := fwd, bh := bh,
              herd := herd, host := host, time := time, gait := gait, tan := tan, bri := bri, vault := vault, pwr := pwr,
              fw := fw, free := free, pending := pending } := by
  subst hm ht hp
  refine h.trans ⟨fun k => ?_, rfl, hs⟩
  obtain ⟨h1, h2, h3, h4, h5, h6⟩ := k
  exact ⟨h1, h2, by rw [hc]; exact h3, h4, h5, by rw [hv]; exact h6⟩

/-- Other commands in flight, no more than 1,024. -/
theorem kept_inFlight {s0 s : State} {c : CmdUnit} (h : Kept s0 s)
    (hc : s.cmd.inFlight.length ≤ 1024 → c.inFlight.length ≤ 1024) : Kept s0 { s with cmd := c } := by
  refine h.trans ⟨fun k => ?_, rfl, rfl⟩
  obtain ⟨h1, h2, h3, h4, h5, h6⟩ := k
  exact ⟨h1, h2, hc h3, h4, h5, h6⟩

/-- Other memory contents, in canonical form. -/
theorem kept_mem {s0 s : State} {m : Mem} (h : Kept s0 s)
    (hd : Memory.wf dramBlank s.mem.dram = true → Memory.wf dramBlank m.dram = true)
    (hf : Memory.wf flashBlank s.mem.flash = true → Memory.wf flashBlank m.flash = true) : Kept s0 { s with mem := m } := by
  refine h.trans ⟨fun k => ?_, rfl, rfl⟩
  obtain ⟨h1, h2, h3, h4, h5, h6⟩ := k
  exact ⟨hd h1, hf h2, h3, h4, h5, h6⟩

/-- Another trouble block with no more log entries and no undefined bit. -/
theorem kept_trb {s0 s : State} {b : Trouble} (h : Kept s0 s)
    (hl : s.trb.log.length ≤ 1048576 → b.log.length ≤ 1048576)
    (hr : (∀ n, trbWord s n &&& ~~~ trbDefined n = 0#32) → ∀ n, tabGet b.regs n 0#32 &&& ~~~ trbDefined n = 0#32) :
    Kept s0 { s with trb := b } := by
  refine h.trans ⟨fun k => ?_, rfl, rfl⟩
  obtain ⟨h1, h2, h3, h4, h5, h6⟩ := k
  exact ⟨h1, h2, h3, hl h4, hr h5, h6⟩

/-- Another vault whose TAMPER_COUNT fits. -/
theorem kept_vault {s0 s : State} {v : Vault} (h : Kept s0 s) (hv : s.vault.count ≤ 0xFFFFFFFF → v.count ≤ 0xFFFFFFFF) :
    Kept s0 { s with vault := v } := by
  refine h.trans ⟨fun k => ?_, rfl, rfl⟩
  obtain ⟨h1, h2, h3, h4, h5, h6⟩ := k
  exact ⟨h1, h2, h3, h4, h5, hv h6⟩

theorem kept_ite {s0 a b : State} {c : Prop} [Decidable c] (ha : Kept s0 a) (hb : Kept s0 b) :
    Kept s0 (if c then a else b) := by split <;> assumption

theorem kept_ite_fst {α : Type} {s0 : State} {a b : State × α} {c : Prop} [Decidable c] (ha : Kept s0 a.1)
    (hb : Kept s0 b.1) : Kept s0 (if c then a else b).1 := by split <;> assumption

theorem kept_ite_snd {α : Type} {s0 : State} {a b : α × State} {c : Prop} [Decidable c] (ha : Kept s0 a.2)
    (hb : Kept s0 b.2) : Kept s0 (if c then a else b).2 := by split <;> assumption

theorem kept_ite_answer {s0 : State} {a b : Answer} {c : Prop} [Decidable c] (ha : Kept s0 a.state)
    (hb : Kept s0 b.state) : Kept s0 (if c then a else b).state := by split <;> assumption

theorem kept_foldl {α : Type} {s0 s : State} {l : List α} {f : State → α → State} (h : Kept s0 s)
    (hf : ∀ s x, Kept s0 s → Kept s0 (f s x)) : Kept s0 (l.foldl f s) := by
  induction l generalizing s with
  | nil => exact h
  | cons x r ih => exact ih (hf s x h)

/-- A fold over a state and something beside it. -/
theorem kept_foldl_snd {α β : Type} {s0 : State} {l : List α} {f : β × State → α → β × State} {p : β × State}
    (h : Kept s0 p.2) (hf : ∀ p x, Kept s0 p.2 → Kept s0 (f p x).2) : Kept s0 (l.foldl f p).2 := by
  induction l generalizing p with
  | nil => exact h
  | cons x r ih => exact ih (hf p x h)

theorem kept_foldl_fst {α β : Type} {s0 : State} {l : List α} {f : State × β → α → State × β} {p : State × β}
    (h : Kept s0 p.1) (hf : ∀ p x, Kept s0 p.1 → Kept s0 (f p x).1) : Kept s0 (l.foldl f p).1 := by
  induction l generalizing p with
  | nil => exact h
  | cons x r ih => exact ih (hf p x h)

/-- An outcome that is a next state keeps what must be kept. -/
def KeptOut (s0 : State) (o : Host.Outcome State Fault Refusal) : Prop := ∀ t, o = .next t → Kept s0 t

theorem keptOut_next {s0 t : State} (h : Kept s0 t) : KeptOut s0 (.next t) := by
  intro u e; cases e; exact h

theorem keptOut_ite {s0 : State} {a b : Host.Outcome State Fault Refusal} {c : Prop} [Decidable c] (ha : KeptOut s0 a)
    (hb : KeptOut s0 b) : KeptOut s0 (if c then a else b) := by split <;> assumption

theorem keptOut_fault {s0 : State} {f : Fault} : KeptOut s0 (.fault f) := by
  intro u e; cases e

/-- A row of a command table keeps what must be kept. -/
def KeptSpec (spec : CmdSpec) : Prop := ∀ s0 s c, Kept s0 s → Kept s0 (spec.run c s).state

theorem KeptSpec.run {spec : CmdSpec} {s0 s : State} {c} (hk : KeptSpec spec) (h : Kept s0 s) :
    Kept s0 (spec.run c s).state := hk _ _ _ h

theorem keptSpec_mk {op known len countAt valid here perm ready run} (h : ∀ s0 s c, Kept s0 s → Kept s0 (run c s).state) :
    KeptSpec { op := op, known := known, len := len, countAt := countAt, valid := valid, here := here, perm := perm, ready := ready, run := run } := h

/-- An optional state keeps what must be kept where there is one. -/
def KeptOpt {α : Type} (s0 : State) (o : Option (α × State)) : Prop := ∀ r, o = some r → Kept s0 r.2

theorem keptOpt_some {α : Type} {s0 : State} {r : α × State} (h : Kept s0 r.2) : KeptOpt s0 (some r) := by
  intro u e; cases e; exact h

theorem keptOpt_ite {α : Type} {s0 : State} {a b : Option (α × State)} {c : Prop} [Decidable c] (ha : KeptOpt s0 a)
    (hb : KeptOpt s0 b) : KeptOpt s0 (if c then a else b) := by split <;> assumption

theorem keptOpt_none {α : Type} {s0 : State} : KeptOpt (α := α) s0 none := by
  intro u e; cases e

/-- The state out of a pair, of an option of a pair, and of an answer that a match has taken apart. -/
theorem kept_of_snd {α : Type} {s0 s : State} {p : α × State} {a : α} (e : p = (a, s)) (h : Kept s0 p.2) : Kept s0 s := by
  rw [e] at h; exact h

theorem kept_of_fst {α : Type} {s0 s : State} {p : State × α} {a : α} (e : p = (s, a)) (h : Kept s0 p.1) : Kept s0 s := by
  rw [e] at h; exact h

theorem kept_of_opt {α : Type} {s0 s : State} {o : Option (α × State)} {a : α} (e : o = some (a, s)) (h : KeptOpt s0 o) :
    Kept s0 s := h _ e

/-- An optional state alone. -/
def KeptSome (s0 : State) (o : Option State) : Prop := ∀ r, o = some r → Kept s0 r

theorem keptSome_some {s0 r : State} (h : Kept s0 r) : KeptSome s0 (some r) := by
  intro u e; cases e; exact h

theorem keptSome_none {s0 : State} : KeptSome s0 none := by
  intro u e; cases e

theorem keptSome_ite {s0 : State} {a b : Option State} {c : Prop} [Decidable c] (ha : KeptSome s0 a)
    (hb : KeptSome s0 b) : KeptSome s0 (if c then a else b) := by split <;> assumption

theorem kept_of_some {s0 s : State} {o : Option State} (e : o = some s) (h : KeptSome s0 o) : Kept s0 s := h _ e

/-- A step that a caller supplies keeps what must be kept. -/
abbrev KeptStep (s0 : State) (f : State → State) : Prop := ∀ s, Kept s0 s → Kept s0 (f s)

theorem KeptStep.run {s0 s : State} {f : State → State} (hf : KeptStep s0 f) (h : Kept s0 s) : Kept s0 (f s) := hf s h

end Sys2Proof.Laws
end

