-- ==== Sys2Proof/Laws/KeptOps.lean ====
section
/-! SUPPORT. What the operations of Machine/Ops.lean keep. -/

namespace Sys2Proof.Laws

open Sys2Proof.Machine Sys2Proof.Safety

set_option linter.unusedTactic false
set_option linter.unreachableTactic false

theorem ranNow_kept {s0 s : State} {a} (h : Kept s0 s) : Kept s0 (ranNow a s) := by
  unfold ranNow
  repeat'
    first | with_reducible assumption | dsimp only | with_reducible refine kept_mk ?_ rfl rfl rfl rfl rfl rfl

theorem noteActivity_kept {s0 s : State} (h : Kept s0 s) : Kept s0 (noteActivity s) := by
  unfold noteActivity
  repeat'
    first | with_reducible assumption | dsimp only | with_reducible refine kept_mk ?_ rfl rfl rfl rfl rfl rfl

theorem drawWord_kept {s0 s : State} (h : Kept s0 s) : Kept s0 (drawWord s).2 := by
  unfold drawWord
  repeat'
    first | with_reducible assumption | dsimp only | with_reducible refine kept_mk ?_ rfl rfl rfl rfl rfl rfl

theorem drawBool_kept {s0 s : State} (h : Kept s0 s) : Kept s0 (drawBool s).2 := by
  unfold drawBool
  repeat'
    first | with_reducible assumption | dsimp only | with_reducible refine kept_mk ?_ rfl rfl rfl rfl rfl rfl

theorem drawRandom_kept {s0 s : State} (h : Kept s0 s) : Kept s0 (drawRandom s).2 := by
  unfold drawRandom
  repeat'
    first | with_reducible assumption | dsimp only | with_reducible refine kept_mk ?_ rfl rfl rfl rfl rfl rfl

theorem setQue_kept {s0 s : State} {b c} (h : Kept s0 s) : Kept s0 (setQue s b c) := by
  unfold setQue
  repeat'
    first | with_reducible assumption | dsimp only | with_reducible refine kept_mk ?_ rfl rfl rfl rfl rfl rfl

theorem msi_kept {s0 s : State} {a} (h : Kept s0 s) : Kept s0 (msi a s) := by
  unfold msi
  repeat'
    first | with_reducible assumption | dsimp only | with_reducible refine kept_mk ?_ rfl rfl rfl rfl rfl rfl

theorem settle_kept {s0 s : State} {a b} (h : Kept s0 s) : Kept s0 (settle a b s) := by
  unfold settle
  repeat'
    first | with_reducible assumption | with_reducible apply msi_kept | with_reducible apply setQue_kept |
      with_reducible apply kept_ite | dsimp only | split | with_reducible refine kept_mk ?_ rfl rfl rfl rfl rfl rfl

theorem pushWord_kept {s0 s : State} {a b} (h : Kept s0 s) : Kept s0 (pushWord a b s).1 := by
  unfold pushWord
  repeat'
    first | with_reducible assumption | with_reducible apply setQue_kept | with_reducible apply settle_kept |
      with_reducible apply kept_ite | with_reducible apply kept_ite_fst | dsimp only | split |
      with_reducible refine kept_mk ?_ rfl rfl rfl rfl rfl rfl

theorem pushWords_kept {s0 s : State} {a b} (h : Kept s0 s) : Kept s0 (pushWords a b s).1 := by
  unfold pushWords
  repeat'
    first | with_reducible assumption | with_reducible apply setQue_kept | with_reducible apply settle_kept |
      with_reducible apply kept_ite | with_reducible apply kept_ite_fst | dsimp only | split

/-- Beyond 1,048,576 entries the oldest leaves the log (R66). -/
theorem appendLog_kept {s0 s : State} {a} (h : Kept s0 s) : Kept s0 (appendLog a s) := by
  refine h.trans ⟨fun k => ?_, rfl, rfl⟩
  obtain ⟨h1, h2, h3, h4, h5, h6⟩ := k
  refine ⟨h1, h2, h3, ?_, h5, h6⟩
  have hl : (if decide (logSize ≤ s.trb.log.length) = true then s.trb.log.drop 1 else s.trb.log).length < 1048576 := by
    split
    · rename_i hl
      rw [List.length_drop]
      omega
    · rename_i hl
      rw [decide_eq_true_eq] at hl
      exact Nat.lt_of_not_le hl
  exact Nat.le_trans (Nat.le_of_eq List.length_append) hl

theorem noteTrouble_kept {s0 s : State} {a} (h : Kept s0 s) : Kept s0 (noteTrouble a s) :=
  kept_trb h id id

theorem absorb_go_length (b : TrbBit) (l : List LogEntry) : (absorb.go b l).length = l.length := by
  induction l with
  | nil => rfl
  | cons e r ih => simp only [absorb.go]; split <;> simp [ih]

theorem absorb_kept {s0 s : State} {a} (h : Kept s0 s) : Kept s0 (absorb a s) := by
  refine h.trans ⟨fun k => ?_, rfl, rfl⟩
  obtain ⟨h1, h2, h3, h4, h5, h6⟩ := k
  refine ⟨h1, h2, h3, ?_, h5, h6⟩
  simp only [absorb, List.length_reverse, absorb_go_length]
  exact h4

/-- Every trouble bit stands at a defined place of its register (R65). -/
theorem trbDefined_pos (b : TrbBit) : BitVec.ofNat 32 (2 ^ trbPos b) &&& ~~~ trbDefined (trbReg b) = 0#32 := by
  cases b <;> first | rfl | (rename_i n; revert n; decide)

theorem trbDefined_mark (b : TrbBit) (w : Word) (h : w &&& ~~~ trbDefined (trbReg b) = 0#32) :
    setBit w (trbPos b) true &&& ~~~ trbDefined (trbReg b) = 0#32 := by
  have hd : ∀ x y z : Word, (x ||| y) &&& z = (x &&& z) ||| (y &&& z) := by
    intro x y z; ext i; simp [Bool.and_or_distrib_right]
  simp only [setBit, if_true, hd, h, trbDefined_pos, BitVec.or_zero]

theorem markTrouble_kept {s0 s : State} {a} (h : Kept s0 s) : Kept s0 (markTrouble a s) := by
  refine h.trans ⟨fun k => ?_, rfl, rfl⟩
  obtain ⟨h1, h2, h3, h4, h5, h6⟩ := k
  refine ⟨h1, h2, h3, h4, fun n => ?_, h6⟩
  have hn : trbWord (markTrouble a s) n
      = if n = trbReg a then setBit (trbWord s (trbReg a)) (trbPos a) true else trbWord s n := by
    simp only [markTrouble, trbWord, tabGet_tabSet]
  rw [hn]
  split
  · subst n; exact trbDefined_mark a _ (h5 _)
  · exact h5 n

theorem raiseAt_kept {s0 s : State} {d b} (h : Kept s0 s) : Kept s0 (raiseAt d b s) := by
  induction d generalizing b s with
  | zero => exact h
  | succ d ih =>
    unfold raiseAt
    split
    · exact absorb_kept h
    · have h1 := appendLog_kept (a := b) (markTrouble_kept (a := b) h)
      extract_lets s1 p
      split
      · exact kept_foldl (pushWords_kept (msi_kept h1)) (fun _ _ k => ih k)
      · exact h1

theorem raise_kept {s0 s : State} {a} (h : Kept s0 s) : Kept s0 (raise a s) := by
  unfold raise
  repeat'
    first | with_reducible assumption | with_reducible apply raiseAt_kept | dsimp only

theorem raiseAll_kept {s0 s : State} {a} (h : Kept s0 s) : Kept s0 (raiseAll a s) := by
  unfold raiseAll
  repeat'
    first | with_reducible assumption | with_reducible apply raise_kept |
      with_reducible refine kept_foldl ?_ fun _ _ _ => ?_ | dsimp only

theorem pushBytes_kept {s0 s : State} {a b} (h : Kept s0 s) : Kept s0 (pushBytes a b s) := by
  unfold pushBytes
  repeat'
    first | with_reducible assumption | with_reducible apply pushWords_kept | with_reducible apply raiseAll_kept | dsimp only

theorem pushPacket_kept {s0 s : State} {a b} (h : Kept s0 s) : Kept s0 (pushPacket a b s) := by
  unfold pushPacket
  repeat'
    first | with_reducible assumption | with_reducible apply pushBytes_kept | dsimp only

theorem postEventTo_kept {s0 s : State} {a b c d} (h : Kept s0 s) : Kept s0 (postEventTo a b c d s) := by
  unfold postEventTo
  repeat'
    first | with_reducible assumption | with_reducible apply pushBytes_kept | dsimp only

theorem postEvent_kept {s0 s : State} {a b c} (h : Kept s0 s) : Kept s0 (postEvent a b c s) := by
  unfold postEvent
  repeat'
    first | with_reducible assumption | with_reducible apply postEventTo_kept | dsimp only

theorem resetQueue_kept {s0 s : State} {a} (h : Kept s0 s) : Kept s0 (resetQueue a s) := by
  unfold resetQueue
  repeat'
    first | with_reducible assumption | with_reducible apply postEvent_kept | with_reducible apply setQue_kept | dsimp only

theorem armQueue_kept {s0 s : State} {a} (h : Kept s0 s) : Kept s0 (armQueue a s) := by
  unfold armQueue
  repeat'
    first | with_reducible assumption | with_reducible apply msi_kept | with_reducible apply setQue_kept |
      with_reducible apply kept_ite | dsimp only | split | with_reducible refine kept_mk ?_ rfl rfl rfl rfl rfl rfl

theorem ctrlWrite_kept {s0 s : State} {a b} (h : Kept s0 s) : Kept s0 (ctrlWrite a b s) := by
  unfold ctrlWrite
  repeat'
    first | with_reducible assumption | with_reducible apply setQue_kept | with_reducible apply armQueue_kept |
      with_reducible apply postEvent_kept | with_reducible apply kept_ite | dsimp only | split |
      with_reducible refine kept_mk ?_ rfl rfl rfl rfl rfl rfl

theorem cover_kept {s0 s : State} {a b} (h : Kept s0 s) : Kept s0 (cover a b s) := by
  unfold cover
  repeat'
    first | with_reducible assumption | with_reducible apply kept_ite | dsimp only | split |
      with_reducible refine kept_mk ?_ rfl rfl rfl rfl rfl rfl

theorem sendHerd_kept {s0 s : State} {a} (h : Kept s0 s) : Kept s0 (sendHerd a s) := by
  unfold sendHerd
  repeat'
    first | with_reducible assumption | dsimp only | with_reducible refine kept_mk ?_ rfl rfl rfl rfl rfl rfl

theorem setSem_kept {s0 s : State} {b c} (h : Kept s0 s) : Kept s0 (setSem s b c) := by
  unfold setSem
  repeat'
    first | with_reducible assumption | dsimp only | with_reducible refine kept_mk ?_ rfl rfl rfl rfl rfl rfl

theorem abandonSem_kept {s0 s : State} {a} (h : Kept s0 s) : Kept s0 (abandonSem a s) := by
  unfold abandonSem
  repeat'
    first | with_reducible assumption | with_reducible apply postEvent_kept | with_reducible apply raise_kept |
      with_reducible apply setSem_kept | dsimp only | split | with_reducible refine kept_mk ?_ rfl rfl rfl rfl rfl rfl

theorem abandonAll_kept {s0 s : State} {a} (h : Kept s0 s) : Kept s0 (abandonAll a s) := by
  unfold abandonAll
  repeat'
    first | with_reducible assumption | with_reducible apply abandonSem_kept |
      with_reducible refine kept_foldl ?_ fun _ _ _ => ?_ | dsimp only

end Sys2Proof.Laws
end

