-- ==== Sys2Proof/Laws/KeptCommand.lean ====
section
/-! SUPPORT. What the operations of Machine/Command.lean keep. -/

namespace Sys2Proof.Laws

open Sys2Proof.Machine Sys2Proof.Safety

set_option linter.unusedTactic false
set_option linter.unreachableTactic false

theorem setHlink_kept {s0 s : State} {b c} (h : Kept s0 s) : Kept s0 (setHlink s b c) := by
  unfold setHlink
  repeat'
    first | with_reducible assumption | dsimp only | with_reducible refine kept_mk ?_ rfl rfl rfl rfl rfl rfl

theorem originate_kept {s0 s : State} {a} (h : Kept s0 s) : Kept s0 (originate a s) := by
  unfold originate
  repeat'
    first | with_reducible assumption | with_reducible apply sendHerd_kept | with_reducible apply kept_ite | dsimp only |
      split

theorem mirrorOut_kept {s0 s : State} {a} (h : Kept s0 s) : Kept s0 (mirrorOut a s) := by
  unfold mirrorOut
  repeat'
    first | with_reducible assumption | with_reducible apply sendHerd_kept | with_reducible apply kept_ite | dsimp only |
      split | with_reducible refine kept_mk ?_ rfl rfl rfl rfl rfl rfl

theorem mirrorHerd_kept {s0 s : State} {a} (h : Kept s0 s) : Kept s0 (mirrorHerd a s) := by
  unfold mirrorHerd
  repeat'
    first | with_reducible assumption | with_reducible apply mirrorOut_kept | dsimp only

theorem nextSeq_kept {s0 s : State} (h : Kept s0 s) : Kept s0 (nextSeq s) := by
  unfold nextSeq
  repeat'
    first | with_reducible assumption | dsimp only | with_reducible refine kept_mk ?_ rfl rfl rfl rfl rfl rfl

theorem addInFlight_kept {s0 s : State} {a} (h : Kept s0 s) : Kept s0 (addInFlight a s) := by
  unfold addInFlight
  split
  · exact h
  · rename_i hc
    refine nextSeq_kept (kept_inFlight h fun _ => ?_)
    simp only [capacityFull, decide_eq_true_eq] at hc
    simp only [List.length_append, List.length_singleton]
    omega

theorem dropInFlight_kept {s0 s : State} {a b} (h : Kept s0 s) : Kept s0 (dropInFlight a b s) :=
  kept_inFlight h fun k => Nat.le_trans (List.length_filter_le _ _) k

theorem noteDone_kept {s0 s : State} {a} (h : Kept s0 s) : Kept s0 (noteDone a s) := by
  unfold noteDone
  repeat'
    first | with_reducible assumption | with_reducible apply kept_ite | dsimp only | split |
      with_reducible refine kept_mk ?_ rfl rfl rfl rfl rfl rfl

theorem holdReply_kept {s0 s : State} {a b c} (h : Kept s0 s) : Kept s0 (holdReply a b c s) := by
  unfold holdReply
  repeat'
    first | with_reducible assumption | with_reducible apply addInFlight_kept | dsimp only |
      with_reducible refine kept_mk ?_ rfl rfl rfl rfl rfl rfl

theorem sendReply_kept {s0 s : State} {a b c} (h : Kept s0 s) : Kept s0 (sendReply a b c s) := by
  unfold sendReply
  repeat'
    first | with_reducible assumption | with_reducible apply cover_kept | with_reducible apply noteDone_kept |
      with_reducible apply originate_kept | with_reducible apply pushPacket_kept | with_reducible apply holdReply_kept |
      with_reducible apply kept_ite | dsimp only | split

theorem complete_kept {s0 s : State} {a b c d} (h : Kept s0 s) : Kept s0 (complete a b c d s) := by
  unfold complete
  repeat'
    first | with_reducible assumption | with_reducible apply sendReply_kept | with_reducible apply dropInFlight_kept |
      dsimp only | split | with_reducible refine kept_mk ?_ rfl rfl rfl rfl rfl rfl

theorem completeAll_kept {s0 s : State} {a b} (h : Kept s0 s) : Kept s0 (completeAll a b s) := by
  unfold completeAll
  repeat'
    first | with_reducible assumption | with_reducible apply complete_kept |
      with_reducible refine kept_foldl ?_ fun _ _ _ => ?_ | dsimp only

theorem offHead_kept {s0 s : State} {a b} (h : Kept s0 s) : Kept s0 (offHead a b s) := by
  unfold offHead
  repeat'
    first | with_reducible assumption | with_reducible apply setQue_kept | with_reducible apply kept_ite | dsimp only | split

theorem takeHead_kept {s0 s : State} {a b} (h : Kept s0 s) : Kept s0 (takeHead a b s) := by
  unfold takeHead
  repeat'
    first | with_reducible assumption | with_reducible apply mirrorOut_kept | with_reducible apply offHead_kept | dsimp only

theorem holdCommand_kept {s0 s : State} {a b c d} (h : Kept s0 s) : Kept s0 (holdCommand a b c d s) := by
  unfold holdCommand
  repeat'
    first | with_reducible assumption | dsimp only | with_reducible refine kept_mk ?_ rfl rfl rfl rfl rfl rfl

theorem lastReply_kept {s0 s : State} {a b c} (h : Kept s0 s) : Kept s0 (lastReply a b c s) := by
  unfold lastReply
  repeat'
    first | with_reducible assumption | with_reducible apply sendReply_kept | with_reducible apply holdReply_kept |
      with_reducible apply cover_kept | with_reducible apply noteDone_kept | with_reducible apply kept_ite | dsimp only |
      split

theorem execute_kept {s0 s : State} {a b c} (hk : KeptSpec b) (h : Kept s0 s) : Kept s0 (execute a b c s) := by
  unfold execute
  repeat'
    first | with_reducible assumption | with_reducible apply addInFlight_kept | with_reducible apply lastReply_kept |
      with_reducible apply sendReply_kept | with_reducible apply kept_ite | with_reducible apply KeptSpec.run | dsimp only |
      split

theorem answer_kept {s0 s : State} {a b c d e} (h : Kept s0 s) : Kept s0 (answer a b c d e s) := by
  unfold answer
  repeat'
    first | with_reducible assumption | with_reducible apply sendReply_kept | dsimp only

theorem judgeLast_kept {s0 s : State} {a b c} (hk : KeptSpec b) (h : Kept s0 s) : Kept s0 (judgeLast a b c s) := by
  unfold judgeLast
  repeat'
    first | with_reducible assumption | with_reducible apply answer_kept | with_reducible apply execute_kept |
      with_reducible apply KeptSpec.run | dsimp only | split

theorem judgeOwn_kept {s0 s : State} {a b c} (hk : KeptSpec b) (h : Kept s0 s) : Kept s0 (judgeOwn a b c s) := by
  unfold judgeOwn
  repeat'
    first | with_reducible assumption | with_reducible apply answer_kept | with_reducible apply judgeLast_kept |
      with_reducible apply kept_ite | with_reducible apply KeptSpec.run | dsimp only | split

theorem forwardTo_kept {s0 s : State} {a b c} (h : Kept s0 s) : Kept s0 (forwardTo a b c s) := by
  unfold forwardTo
  repeat'
    first | with_reducible assumption | with_reducible apply originate_kept | with_reducible apply nextSeq_kept |
      dsimp only | with_reducible refine kept_mk ?_ rfl rfl rfl rfl rfl rfl

theorem judgeForward_kept {s0 s : State} {a b c} (h : Kept s0 s) : Kept s0 (judgeForward a b c s) := by
  unfold judgeForward
  repeat'
    first | with_reducible assumption | with_reducible apply answer_kept | with_reducible apply forwardTo_kept |
      with_reducible apply kept_ite | dsimp only | split

theorem judgeBroadcast_kept {s0 s : State} {a b c} (hk : KeptSpec b) (h : Kept s0 s) : Kept s0 (judgeBroadcast a b c s) := by
  unfold judgeBroadcast
  repeat'
    first | with_reducible assumption | with_reducible apply answer_kept | with_reducible apply forwardTo_kept |
      with_reducible apply judgeLast_kept | with_reducible apply kept_ite |
      with_reducible refine kept_foldl ?_ fun _ _ _ => ?_ | with_reducible apply KeptSpec.run | dsimp only | split

theorem dispatchCommand_kept {s0 s : State} {a b c} (hk : KeptSpec b) (h : Kept s0 s) : Kept s0 (dispatchCommand a b c s) :=
      by
  unfold dispatchCommand
  repeat'
    first | with_reducible assumption | with_reducible apply judgeBroadcast_kept | with_reducible apply judgeForward_kept |
      with_reducible apply judgeOwn_kept | with_reducible apply kept_ite | with_reducible apply KeptSpec.run | dsimp only |
      split

theorem keepWaiting_kept {s0 s : State} {a b c} (h : Kept s0 s) : Kept s0 (keepWaiting a b c s) := by
  unfold keepWaiting
  repeat'
    first | with_reducible assumption | with_reducible apply holdCommand_kept | with_reducible apply addInFlight_kept |
      with_reducible apply nextSeq_kept | with_reducible apply kept_ite | dsimp only | split |
      with_reducible refine kept_mk ?_ rfl rfl rfl rfl rfl rfl

theorem takeCommand_kept {s0 s : State} {a b c} (hk : KeptSpec b) (h : Kept s0 s) : Kept s0 (takeCommand a b c s) := by
  unfold takeCommand
  repeat'
    first | with_reducible assumption | with_reducible apply keepWaiting_kept | with_reducible apply dispatchCommand_kept |
      with_reducible apply kept_ite | with_reducible apply KeptSpec.run | dsimp only | split

theorem startCommand_kept {s0 s : State} {a b c} (hk : KeptSpec b) (h : Kept s0 s) : Kept s0 (startCommand a b c s) := by
  unfold startCommand
  repeat'
    first | with_reducible assumption | with_reducible apply nextSeq_kept | with_reducible apply holdCommand_kept |
      with_reducible apply takeCommand_kept | with_reducible apply takeHead_kept | with_reducible apply kept_ite |
      with_reducible apply KeptSpec.run | dsimp only | split

theorem runCommand_kept {s0 s : State} {a b} (hk : KeptSpec a) (h : Kept s0 s) : KeptOut s0 (runCommand a b s) := by
  unfold runCommand
  repeat'
    first | with_reducible assumption | with_reducible apply startCommand_kept | with_reducible apply keptOut_next |
      with_reducible apply KeptSpec.run | dsimp only

theorem takeWaiting_kept {s0 s : State} {a} (h : Kept s0 s) : Kept s0 (takeWaiting a s) := by
  unfold takeWaiting
  refine kept_inFlight h fun k => ?_
  dsimp only
  split
  · exact Nat.le_trans (List.length_filter_le _ _) k
  · exact k

theorem endStart_kept {s0 s : State} (h : Kept s0 s) : Kept s0 (endStart s) := by
  unfold endStart
  repeat'
    first | with_reducible assumption | dsimp only | with_reducible refine kept_mk ?_ rfl rfl rfl rfl rfl rfl

end Sys2Proof.Laws
end

