-- ==== Sys2Proof/Laws/KeptHealth.lean ====
section
/-! SUPPORT. What the operations of Machine/Health.lean keep. -/

namespace Sys2Proof.Laws

open Sys2Proof.Machine Sys2Proof.Safety

set_option linter.unusedTactic false
set_option linter.unreachableTactic false

theorem sendReins_kept {s0 s : State} {a b} (h : Kept s0 s) : Kept s0 (sendReins a b s) := by
  unfold sendReins
  repeat'
    first | with_reducible assumption | with_reducible apply sendHerd_kept | dsimp only |
      with_reducible refine kept_mk ?_ rfl rfl rfl rfl rfl rfl

theorem releaseReins_kept {s0 s : State} (h : Kept s0 s) : Kept s0 (releaseReins s) := by
  unfold releaseReins
  repeat'
    first | with_reducible assumption | with_reducible apply sendReins_kept | with_reducible apply kept_ite | dsimp only |
      split | with_reducible refine kept_mk ?_ rfl rfl rfl rfl rfl rfl

theorem failOver_kept {s0 s : State} (h : Kept s0 s) : Kept s0 (failOver s) := by
  unfold failOver
  repeat'
    first | with_reducible assumption | with_reducible apply raise_kept | with_reducible apply releaseReins_kept | dsimp only

theorem setSound_kept {s0 s : State} (h : Kept s0 s) : Kept s0 (setSound s) := by
  unfold setSound
  repeat'
    first | with_reducible assumption | dsimp only | with_reducible refine kept_mk ?_ rfl rfl rfl rfl rfl rfl

theorem setSoundness_kept {s0 s : State} {a b} (h : Kept s0 s) : Kept s0 (setSoundness a b s) := by
  unfold setSoundness
  repeat'
    first | with_reducible assumption | with_reducible apply postEvent_kept | with_reducible apply kept_ite | dsimp only |
      split | with_reducible refine kept_mk ?_ rfl rfl rfl rfl rfl rfl

theorem beginResync_kept {s0 s : State} (h : Kept s0 s) : Kept s0 (beginResync s) := by
  unfold beginResync
  repeat'
    first | with_reducible assumption | dsimp only | with_reducible refine kept_mk ?_ rfl rfl rfl rfl rfl rfl

theorem selfTest_kept {s0 s : State} {a} (h : Kept s0 s) : Kept s0 (selfTest a s).2 := by
  unfold selfTest
  repeat'
    first | with_reducible assumption | with_reducible apply setSoundness_kept | with_reducible apply setSound_kept |
      with_reducible apply failOver_kept | with_reducible apply beginResync_kept | with_reducible apply kept_ite |
      with_reducible refine kept_foldl ?_ fun _ _ _ => ?_ | with_reducible apply kept_ite_snd |
      with_reducible refine kept_foldl_snd ?_ fun _ _ _ => ?_ | dsimp only | split |
      with_reducible refine kept_mk ?_ rfl rfl rfl rfl rfl rfl

theorem fullSelfTest_kept {s0 s : State} (h : Kept s0 s) : Kept s0 (fullSelfTest s).2 := by
  unfold fullSelfTest
  repeat'
    first | with_reducible assumption | with_reducible apply selfTest_kept | dsimp only

end Sys2Proof.Laws
end

