-- ==== Sys2Proof/Laws/KeptDevice.lean ====
section
/-! SUPPORT. What the operations of Machine/Device.lean keep. -/

namespace Sys2Proof.Laws

open Sys2Proof.Machine Sys2Proof.Safety

set_option linter.unusedTactic false
set_option linter.unreachableTactic false

theorem nopSpec_kept : KeptSpec (nopSpec) := by
  intro s0 s c h
  dsimp only [nopSpec, plainSpec, done]
  repeat'
    first | with_reducible assumption | dsimp only

theorem execNop_kept {s0 s : State} {a} (h : Kept s0 s) : KeptOut s0 (execNop a s) := by
  unfold execNop
  repeat'
    first | with_reducible assumption | with_reducible apply runCommand_kept | with_reducible exact nopSpec_kept | dsimp only

theorem getIdentitySpec_kept : KeptSpec (getIdentitySpec) := by
  intro s0 s c h
  dsimp only [getIdentitySpec, plainSpec, doneWith]
  repeat'
    first | with_reducible assumption | dsimp only

theorem execGetIdentity_kept {s0 s : State} {a} (h : Kept s0 s) : KeptOut s0 (execGetIdentity a s) := by
  unfold execGetIdentity
  repeat'
    first | with_reducible assumption | with_reducible apply runCommand_kept | with_reducible exact getIdentitySpec_kept |
      dsimp only

theorem getCommandStateSpec_kept : KeptSpec (getCommandStateSpec) := by
  intro s0 s c h
  dsimp only [getCommandStateSpec, plainSpec, doneWith]
  repeat'
    first | with_reducible assumption | dsimp only

theorem execGetCommandState_kept {s0 s : State} {a} (h : Kept s0 s) : KeptOut s0 (execGetCommandState a s) := by
  unfold execGetCommandState
  repeat'
    first | with_reducible assumption | with_reducible apply runCommand_kept |
      with_reducible exact getCommandStateSpec_kept | dsimp only

theorem endForeign_kept {s0 s : State} {a} (h : Kept s0 s) : Kept s0 (endForeign a s) := by
  unfold endForeign
  repeat'
    first | with_reducible assumption | with_reducible apply sendReply_kept |
      with_reducible refine kept_foldl ?_ fun _ _ _ => ?_ | dsimp only

theorem dropTaken_kept {s0 s : State} (h : Kept s0 s) : Kept s0 (dropTaken s) := by
  unfold dropTaken
  repeat'
    first | with_reducible assumption | dsimp only | with_reducible refine kept_mk ?_ rfl rfl rfl rfl rfl rfl

theorem abortInFlight_kept {s0 s : State} (h : Kept s0 s) : Kept s0 (abortInFlight s) := by
  unfold abortInFlight
  repeat'
    first | with_reducible assumption | with_reducible apply dropTaken_kept | with_reducible apply endForeign_kept |
      with_reducible apply completeAll_kept | dsimp only

theorem startReset_kept {s0 s : State} (h : Kept s0 s) : Kept s0 (startReset s) := by
  unfold startReset
  repeat'
    first | with_reducible assumption | with_reducible apply abortInFlight_kept | dsimp only |
      with_reducible refine kept_mk ?_ rfl rfl rfl rfl rfl rfl

theorem resetDeviceSpec_kept : KeptSpec (resetDeviceSpec) := by
  intro s0 s c h
  dsimp only [resetDeviceSpec, plainSpec]
  repeat'
    first | with_reducible assumption | with_reducible apply startReset_kept | dsimp only |
      with_reducible refine kept_mk ?_ rfl rfl rfl rfl rfl rfl

theorem execResetDevice_kept {s0 s : State} {a} (h : Kept s0 s) : KeptOut s0 (execResetDevice a s) := by
  unfold execResetDevice
  repeat'
    first | with_reducible assumption | with_reducible apply runCommand_kept | with_reducible exact resetDeviceSpec_kept |
      dsimp only

theorem soundnessReportSpec_kept : KeptSpec (soundnessReportSpec) := by
  intro s0 s c h
  dsimp only [soundnessReportSpec, plainSpec, doneWith]
  repeat'
    first | with_reducible assumption | dsimp only | with_reducible refine kept_mk ?_ rfl rfl rfl rfl rfl rfl

theorem execSoundnessReport_kept {s0 s : State} {a} (h : Kept s0 s) : KeptOut s0 (execSoundnessReport a s) := by
  unfold execSoundnessReport
  repeat'
    first | with_reducible assumption | with_reducible apply runCommand_kept |
      with_reducible exact soundnessReportSpec_kept | dsimp only

theorem selfTestRunSpec_kept : KeptSpec (selfTestRunSpec) := by
  intro s0 s c h
  dsimp only [selfTestRunSpec, plainSpec, doneWith]
  repeat'
    first | with_reducible assumption | with_reducible apply selfTest_kept | dsimp only

theorem execSelfTestRun_kept {s0 s : State} {a} (h : Kept s0 s) : KeptOut s0 (execSelfTestRun a s) := by
  unfold execSelfTestRun
  repeat'
    first | with_reducible assumption | with_reducible apply runCommand_kept | with_reducible exact selfTestRunSpec_kept |
      dsimp only

theorem troubleLogReadSpec_kept : KeptSpec (troubleLogReadSpec) := by
  intro s0 s c h
  dsimp only [troubleLogReadSpec, plainSpec, doneWith]
  repeat'
    first | with_reducible assumption | dsimp only

theorem execTroubleLogRead_kept {s0 s : State} {a} (h : Kept s0 s) : KeptOut s0 (execTroubleLogRead a s) := by
  unfold execTroubleLogRead
  repeat'
    first | with_reducible assumption | with_reducible apply runCommand_kept | with_reducible exact troubleLogReadSpec_kept |
      dsimp only

theorem troubleLogClearSpec_kept : KeptSpec troubleLogClearSpec := by
  intro s0 s c h
  refine h.trans ⟨fun k => ?_, rfl, rfl⟩
  obtain ⟨h1, h2, h3, h4, h5, h6⟩ := k
  exact ⟨h1, h2, h3, Nat.zero_le _, h5, h6⟩

theorem execTroubleLogClear_kept {s0 s : State} {a} (h : Kept s0 s) : KeptOut s0 (execTroubleLogClear a s) := by
  unfold execTroubleLogClear
  repeat'
    first | with_reducible assumption | with_reducible apply runCommand_kept |
      with_reducible exact troubleLogClearSpec_kept | dsimp only

theorem undefinedSpec_kept {a} : KeptSpec (undefinedSpec a) := by
  intro s0 s c h
  dsimp only [undefinedSpec, plainSpec, done]
  repeat'
    first | with_reducible assumption | dsimp only | with_reducible refine kept_mk ?_ rfl rfl rfl rfl rfl rfl

theorem execUndefinedOpcode_kept {s0 s : State} {a b} (h : Kept s0 s) : KeptOut s0 (execUndefinedOpcode a b s) := by
  unfold execUndefinedOpcode
  repeat'
    first | with_reducible assumption | with_reducible apply runCommand_kept | with_reducible exact undefinedSpec_kept |
      with_reducible apply kept_ite | with_reducible apply keptOut_ite | with_reducible exact keptOut_fault | dsimp only |
      split

theorem takeShort_kept {s0 s : State} {a b} (h : Kept s0 s) : Kept s0 (takeShort a b s) := by
  unfold takeShort
  repeat'
    first | with_reducible assumption | with_reducible apply setQue_kept | with_reducible apply kept_ite | dsimp only | split

theorem execCmdMalformed_kept {s0 s : State} {a b} (h : Kept s0 s) : KeptOut s0 (execCmdMalformed a b s) := by
  unfold execCmdMalformed
  repeat'
    first | with_reducible assumption | with_reducible apply takeShort_kept | with_reducible apply raise_kept |
      with_reducible apply kept_ite | with_reducible apply keptOut_ite | with_reducible apply keptOut_next |
      with_reducible exact keptOut_fault | dsimp only | split | with_reducible refine kept_mk ?_ rfl rfl rfl rfl rfl rfl

theorem postHeld_kept {s0 s : State} {a} (h : Kept s0 s) : Kept s0 (postHeld a s) := by
  unfold postHeld
  repeat'
    first | with_reducible assumption | with_reducible apply originate_kept | with_reducible apply pushPacket_kept |
      dsimp only | split

theorem releaseReply_kept {s0 s : State} {a} (h : Kept s0 s) : Kept s0 (releaseReply a s) := by
  unfold releaseReply
  split
  · refine kept_ite (postHeld_kept ?_) h
    exact kept_inFlight h fun k => Nat.le_trans (List.length_filter_le _ _) k
  · exact h

theorem execReplyRelease_kept {s0 s : State} {a} (h : Kept s0 s) : KeptOut s0 (execReplyRelease a s) := by
  unfold execReplyRelease
  repeat'
    first | with_reducible assumption | with_reducible apply releaseReply_kept | with_reducible apply keptOut_next |
      dsimp only

theorem setPeer_kept {s0 s : State} {b c} (h : Kept s0 s) : Kept s0 (setPeer s b c) := by
  unfold setPeer
  repeat'
    first | with_reducible assumption | dsimp only | with_reducible refine kept_mk ?_ rfl rfl rfl rfl rfl rfl

theorem takeReply_kept {s0 s : State} {a} (h : Kept s0 s) : Kept s0 (takeReply a s) := by
  unfold takeReply
  repeat'
    first | with_reducible assumption | with_reducible apply pushPacket_kept | with_reducible apply kept_ite | dsimp only |
      split | with_reducible refine kept_mk ?_ rfl rfl rfl rfl rfl rfl

theorem execHerdReply_kept {s0 s : State} {a} (h : Kept s0 s) : KeptOut s0 (execHerdReply a s) := by
  unfold execHerdReply
  repeat'
    first | with_reducible assumption | with_reducible apply mirrorHerd_kept | with_reducible apply takeReply_kept |
      with_reducible apply keptOut_next | dsimp only | split

end Sys2Proof.Laws
end

