-- ==== Sys2Proof/Laws/KeptQueues.lean ====
section
/-! SUPPORT. What the operations of Machine/Queues.lean keep. -/

namespace Sys2Proof.Laws

open Sys2Proof.Machine Sys2Proof.Safety

set_option linter.unusedTactic false
set_option linter.unreachableTactic false

theorem queueConfigureSpec_kept : KeptSpec (queueConfigureSpec) := by
  intro s0 s c h
  dsimp only [queueConfigureSpec, plainSpec, done]
  repeat'
    first | with_reducible assumption | with_reducible apply setQue_kept | dsimp only |
      with_reducible refine kept_mk ?_ rfl rfl rfl rfl rfl rfl

theorem execQueueConfigure_kept {s0 s : State} {a} (h : Kept s0 s) : KeptOut s0 (execQueueConfigure a s) := by
  unfold execQueueConfigure
  repeat'
    first | with_reducible assumption | with_reducible apply runCommand_kept | with_reducible exact queueConfigureSpec_kept |
      dsimp only

theorem queueResetSpec_kept : KeptSpec (queueResetSpec) := by
  intro s0 s c h
  dsimp only [queueResetSpec, plainSpec, doneWith]
  repeat'
    first | with_reducible assumption | with_reducible apply resetQueue_kept | dsimp only

theorem execQueueReset_kept {s0 s : State} {a} (h : Kept s0 s) : KeptOut s0 (execQueueReset a s) := by
  unfold execQueueReset
  repeat'
    first | with_reducible assumption | with_reducible apply runCommand_kept | with_reducible exact queueResetSpec_kept |
      dsimp only

theorem queueStatusSpec_kept : KeptSpec (queueStatusSpec) := by
  intro s0 s c h
  dsimp only [queueStatusSpec, plainSpec, doneWith]
  repeat'
    first | with_reducible assumption | dsimp only

theorem execQueueStatus_kept {s0 s : State} {a} (h : Kept s0 s) : KeptOut s0 (execQueueStatus a s) := by
  unfold execQueueStatus
  repeat'
    first | with_reducible assumption | with_reducible apply runCommand_kept | with_reducible exact queueStatusSpec_kept |
      dsimp only

theorem spillStatusSpec_kept : KeptSpec (spillStatusSpec) := by
  intro s0 s c h
  dsimp only [spillStatusSpec, plainSpec, doneWith]
  repeat'
    first | with_reducible assumption | dsimp only

theorem execSpillStatus_kept {s0 s : State} {a} (h : Kept s0 s) : KeptOut s0 (execSpillStatus a s) := by
  unfold execSpillStatus
  repeat'
    first | with_reducible assumption | with_reducible apply runCommand_kept | with_reducible exact spillStatusSpec_kept |
      dsimp only

theorem hostPushWord_kept {s0 s : State} {a b} (h : Kept s0 s) : Kept s0 (hostPushWord a b s) := by
  unfold hostPushWord
  repeat'
    first | with_reducible assumption | with_reducible apply setQue_kept | with_reducible apply pushWord_kept |
      with_reducible apply raiseAll_kept | with_reducible apply kept_ite | dsimp only | split |
      with_reducible refine kept_mk ?_ rfl rfl rfl rfl rfl rfl

theorem hostPush_kept {s0 s : State} {a b c} (h : Kept s0 s) : Kept s0 (hostPush a b c s) := by
  unfold hostPush
  repeat'
    first | with_reducible assumption | with_reducible apply hostPushWord_kept | with_reducible apply setQue_kept |
      with_reducible apply kept_ite | dsimp only | split | with_reducible refine kept_mk ?_ rfl rfl rfl rfl rfl rfl

theorem hostPushOrHold_kept {s0 s : State} {a b c} (h : Kept s0 s) : Kept s0 (hostPushOrHold a b c s) := by
  unfold hostPushOrHold
  repeat'
    first | with_reducible assumption | with_reducible apply hostPush_kept | with_reducible apply kept_ite | dsimp only |
      split | with_reducible refine kept_mk ?_ rfl rfl rfl rfl rfl rfl

theorem execPush_kept {s0 s : State} {a b} (h : Kept s0 s) : KeptOut s0 (execPush a b s) := by
  unfold execPush
  repeat'
    first | with_reducible assumption | with_reducible apply hostPushOrHold_kept | with_reducible apply keptOut_next |
      dsimp only

theorem execPushLast_kept {s0 s : State} {a b} (h : Kept s0 s) : KeptOut s0 (execPushLast a b s) := by
  unfold execPushLast
  repeat'
    first | with_reducible assumption | with_reducible apply hostPushOrHold_kept | with_reducible apply keptOut_next |
      dsimp only

theorem recordRead_kept {s0 s : State} {a} (h : Kept s0 s) : Kept s0 (recordRead a s) := by
  unfold recordRead
  repeat'
    first | with_reducible assumption | dsimp only | with_reducible refine kept_mk ?_ rfl rfl rfl rfl rfl rfl

theorem hostPop_kept {s0 s : State} {a} (h : Kept s0 s) : Kept s0 (hostPop a s) := by
  unfold hostPop
  repeat'
    first | with_reducible assumption | with_reducible apply recordRead_kept | with_reducible apply setQue_kept |
      with_reducible apply kept_ite | dsimp only | split | with_reducible refine kept_mk ?_ rfl rfl rfl rfl rfl rfl

theorem execPop_kept {s0 s : State} {a} (h : Kept s0 s) : KeptOut s0 (execPop a s) := by
  unfold execPop
  repeat'
    first | with_reducible assumption | with_reducible apply hostPop_kept | with_reducible apply keptOut_next | dsimp only

theorem execArm_kept {s0 s : State} {a b} (h : Kept s0 s) : KeptOut s0 (execArm a b s) := by
  unfold execArm
  repeat'
    first | with_reducible assumption | with_reducible apply ctrlWrite_kept | with_reducible apply kept_ite |
      with_reducible apply keptOut_ite | with_reducible apply keptOut_next | with_reducible exact keptOut_fault |
      dsimp only | split

theorem execDropRest_kept {s0 s : State} {a b} (h : Kept s0 s) : KeptOut s0 (execDropRest a b s) := by
  unfold execDropRest
  repeat'
    first | with_reducible assumption | with_reducible apply ctrlWrite_kept | with_reducible apply kept_ite |
      with_reducible apply keptOut_ite | with_reducible apply keptOut_next | with_reducible exact keptOut_fault |
      dsimp only | split

theorem execCtrlReset_kept {s0 s : State} {a b} (h : Kept s0 s) : KeptOut s0 (execCtrlReset a b s) := by
  unfold execCtrlReset
  repeat'
    first | with_reducible assumption | with_reducible apply ctrlWrite_kept | with_reducible apply kept_ite |
      with_reducible apply keptOut_ite | with_reducible apply keptOut_next | with_reducible exact keptOut_fault |
      dsimp only | split

theorem execConsumerBinding_kept {s0 s : State} {a b} (h : Kept s0 s) : KeptOut s0 (execConsumerBinding a b s) := by
  unfold execConsumerBinding
  repeat'
    first | with_reducible assumption | with_reducible apply ctrlWrite_kept | with_reducible apply keptOut_next | dsimp only

theorem pointerMismatch_kept {s0 s : State} {a} (h : Kept s0 s) : Kept s0 (pointerMismatch a s) := by
  unfold pointerMismatch
  repeat'
    first | with_reducible assumption | with_reducible apply setQue_kept | with_reducible apply postEventTo_kept |
      with_reducible apply raise_kept | dsimp only | split | with_reducible refine kept_mk ?_ rfl rfl rfl rfl rfl rfl

theorem execQueuePointerMismatch_kept {s0 s : State} {a} (h : Kept s0 s) : KeptOut s0 (execQueuePointerMismatch a s) := by
  unfold execQueuePointerMismatch
  repeat'
    first | with_reducible assumption | with_reducible apply pointerMismatch_kept | with_reducible apply keptOut_next |
      dsimp only | split

theorem acquireRead_kept {s0 s : State} {a b} (h : Kept s0 s) : Kept s0 (acquireRead a b s) := by
  unfold acquireRead
  repeat'
    first | with_reducible assumption | with_reducible apply recordRead_kept | with_reducible apply setSem_kept | dsimp only

theorem resolveRequest_kept {s0 s : State} {b} (h : Kept s0 s) : Kept s0 (resolveRequest s b) := by
  unfold resolveRequest
  repeat'
    first | with_reducible assumption | with_reducible apply setSem_kept | with_reducible apply originate_kept |
      with_reducible apply kept_ite | dsimp only | split | with_reducible refine kept_mk ?_ rfl rfl rfl rfl rfl rfl

theorem resolveBelow_kept {s0 s : State} {a} (h : Kept s0 s) : Kept s0 (resolveBelow a s) := by
  unfold resolveBelow
  repeat'
    first | with_reducible assumption | with_reducible apply resolveRequest_kept |
      with_reducible refine kept_foldl ?_ fun _ _ _ => ?_ | dsimp only |
      with_reducible refine kept_mk ?_ rfl rfl rfl rfl rfl rfl

theorem resolveRequests_kept {s0 s : State} (h : Kept s0 s) : Kept s0 (resolveRequests s) := by
  unfold resolveRequests
  repeat'
    first | with_reducible assumption | with_reducible apply resolveBelow_kept | dsimp only

theorem execSemAcq_kept {s0 s : State} {a b} (h : Kept s0 s) : KeptOut s0 (execSemAcq a b s) := by
  unfold execSemAcq
  repeat'
    first | with_reducible assumption | with_reducible apply acquireRead_kept | with_reducible apply resolveBelow_kept |
      with_reducible apply keptOut_next | dsimp only

theorem execSemRel_kept {s0 s : State} {a b c} (h : Kept s0 s) : KeptOut s0 (execSemRel a b c s) := by
  unfold execSemRel
  repeat'
    first | with_reducible assumption | with_reducible apply setSem_kept | with_reducible apply keptOut_next | dsimp only |
      split

theorem execSemaphoreRequest_kept {s0 s : State} {a b c} (h : Kept s0 s) : KeptOut s0 (execSemaphoreRequest a b c s) := by
  unfold execSemaphoreRequest
  repeat'
    first | with_reducible assumption | with_reducible apply mirrorHerd_kept | with_reducible apply keptOut_next |
      dsimp only | with_reducible refine kept_mk ?_ rfl rfl rfl rfl rfl rfl

end Sys2Proof.Laws
end

