-- ==== Sys2Proof/Laws/KeptTime.lean ====
section
/-! SUPPORT. What the operations of Machine/Time.lean keep. -/

namespace Sys2Proof.Laws

open Sys2Proof.Machine Sys2Proof.Safety

set_option linter.unusedTactic false
set_option linter.unreachableTactic false

theorem setBase_kept {s0 s : State} {b c} (h : Kept s0 s) : Kept s0 (setBase s b c) := by
  unfold setBase
  repeat'
    first | with_reducible assumption | dsimp only | with_reducible refine kept_mk ?_ rfl rfl rfl rfl rfl rfl

theorem countTime_kept {s0 s : State} {a} (h : Kept s0 s) : Kept s0 (countTime a s) := by
  unfold countTime
  repeat'
    first | with_reducible assumption | dsimp only | with_reducible refine kept_mk ?_ rfl rfl rfl rfl rfl rfl

theorem follow_kept {s0 s : State} {a} (h : Kept s0 s) : Kept s0 (follow a s) := by
  unfold follow
  repeat'
    first | with_reducible assumption | with_reducible apply postEvent_kept | with_reducible apply raise_kept |
      with_reducible apply kept_ite | dsimp only | split | with_reducible refine kept_mk ?_ rfl rfl rfl rfl rfl rfl

theorem reselect_kept {s0 s : State} {a} (h : Kept s0 s) : Kept s0 (reselect a s) := by
  unfold reselect
  repeat'
    first | with_reducible assumption | with_reducible apply follow_kept | with_reducible apply kept_ite | dsimp only | split

theorem setSt_kept {s0 s : State} {a} (h : Kept s0 s) : Kept s0 (setSt a s) := by
  unfold setSt
  repeat'
    first | with_reducible assumption | dsimp only | with_reducible refine kept_mk ?_ rfl rfl rfl rfl rfl rfl

theorem stepSt_kept {s0 s : State} {a} (h : Kept s0 s) : Kept s0 (stepSt a s) := by
  unfold stepSt
  repeat'
    first | with_reducible assumption | with_reducible apply setSt_kept | dsimp only |
      with_reducible refine kept_mk ?_ rfl rfl rfl rfl rfl rfl

theorem jumpSt_kept {s0 s : State} {a} (h : Kept s0 s) : Kept s0 (jumpSt a s) := by
  unfold jumpSt
  repeat'
    first | with_reducible assumption | with_reducible apply stepSt_kept | dsimp only |
      with_reducible refine kept_mk ?_ rfl rfl rfl rfl rfl rfl

theorem firstLock_kept {s0 s : State} (h : Kept s0 s) : Kept s0 (firstLock s) := by
  unfold firstLock
  repeat'
    first | with_reducible assumption | with_reducible apply jumpSt_kept | with_reducible apply setBase_kept |
      with_reducible apply kept_ite | dsimp only | split | with_reducible refine kept_mk ?_ rfl rfl rfl rfl rfl rfl

theorem tryFirstLock_kept {s0 s : State} (h : Kept s0 s) : Kept s0 (tryFirstLock s) := by
  unfold tryFirstLock
  repeat'
    first | with_reducible assumption | with_reducible apply firstLock_kept | with_reducible apply kept_ite | dsimp only |
      split

theorem tickTime_kept {s0 s : State} (h : Kept s0 s) : Kept s0 (tickTime s) := by
  unfold tickTime
  repeat'
    first | with_reducible assumption | with_reducible apply raise_kept | with_reducible apply kept_ite | dsimp only |
      split | with_reducible refine kept_mk ?_ rfl rfl rfl rfl rfl rfl

theorem tickSleep_kept {s0 s : State} (h : Kept s0 s) : Kept s0 (tickSleep s) := by
  unfold tickSleep
  repeat'
    first | with_reducible assumption | with_reducible apply kept_ite | dsimp only | split |
      with_reducible refine kept_mk ?_ rfl rfl rfl rfl rfl rfl

theorem steer_kept {s0 s : State} {a b} (h : Kept s0 s) : Kept s0 (steer a b s) := by
  unfold steer
  repeat'
    first | with_reducible assumption | with_reducible apply setBase_kept | with_reducible apply raise_kept |
      with_reducible apply kept_ite | dsimp only | split | with_reducible refine kept_mk ?_ rfl rfl rfl rfl rfl rfl

theorem discipline_kept {s0 s : State} {a b} (h : Kept s0 s) : Kept s0 (discipline a b s) := by
  unfold discipline
  repeat'
    first | with_reducible assumption | with_reducible apply setBase_kept | with_reducible apply steer_kept |
      with_reducible apply kept_ite | dsimp only | split | with_reducible refine kept_mk ?_ rfl rfl rfl rfl rfl rfl

theorem noteInput_kept {s0 s : State} {a b} (h : Kept s0 s) : Kept s0 (noteInput a b s) := by
  unfold noteInput
  repeat'
    first | with_reducible assumption | with_reducible apply setBase_kept | with_reducible apply kept_ite | dsimp only |
      split | with_reducible refine kept_mk ?_ rfl rfl rfl rfl rfl rfl

theorem setPtp_kept {s0 s : State} {b c} (h : Kept s0 s) : Kept s0 (setPtp s b c) := by
  unfold setPtp
  repeat'
    first | with_reducible assumption | dsimp only | with_reducible refine kept_mk ?_ rfl rfl rfl rfl rfl rfl

theorem tbSelectSpec_kept : KeptSpec (tbSelectSpec) := by
  intro s0 s c h
  dsimp only [tbSelectSpec, plainSpec, done]
  repeat'
    first | with_reducible assumption | with_reducible apply tryFirstLock_kept | with_reducible apply reselect_kept |
      dsimp only | with_reducible refine kept_mk ?_ rfl rfl rfl rfl rfl rfl

theorem execTbSelect_kept {s0 s : State} {a} (h : Kept s0 s) : KeptOut s0 (execTbSelect a s) := by
  unfold execTbSelect
  repeat'
    first | with_reducible assumption | with_reducible apply runCommand_kept | with_reducible exact tbSelectSpec_kept |
      dsimp only

theorem timeStatusReadSpec_kept : KeptSpec (timeStatusReadSpec) := by
  intro s0 s c h
  dsimp only [timeStatusReadSpec, plainSpec, doneWith]
  repeat'
    first | with_reducible assumption | dsimp only

theorem execTimeStatusRead_kept {s0 s : State} {a} (h : Kept s0 s) : KeptOut s0 (execTimeStatusRead a s) := by
  unfold execTimeStatusRead
  repeat'
    first | with_reducible assumption | with_reducible apply runCommand_kept | with_reducible exact timeStatusReadSpec_kept |
      dsimp only

theorem ptpSetSpec_kept : KeptSpec (ptpSetSpec) := by
  intro s0 s c h
  dsimp only [ptpSetSpec, plainSpec, done]
  repeat'
    first | with_reducible assumption | with_reducible apply kept_ite | with_reducible apply kept_ite_answer | dsimp only |
      split | with_reducible refine kept_mk ?_ rfl rfl rfl rfl rfl rfl

theorem execPtpSet_kept {s0 s : State} {a} (h : Kept s0 s) : KeptOut s0 (execPtpSet a s) := by
  unfold execPtpSet
  repeat'
    first | with_reducible assumption | with_reducible apply runCommand_kept | with_reducible exact ptpSetSpec_kept |
      dsimp only

theorem setBaseState_kept {s0 s : State} {a b} (h : Kept s0 s) : Kept s0 (setBaseState a b s) := by
  unfold setBaseState
  repeat'
    first | with_reducible assumption | with_reducible apply setBase_kept | with_reducible apply raiseAll_kept |
      with_reducible apply postEvent_kept | with_reducible apply kept_ite | dsimp only | split |
      with_reducible refine kept_mk ?_ rfl rfl rfl rfl rfl rfl

theorem tbRearmSpec_kept : KeptSpec (tbRearmSpec) := by
  intro s0 s c h
  dsimp only [tbRearmSpec, plainSpec, done]
  repeat'
    first | with_reducible assumption | with_reducible apply setBaseState_kept | with_reducible apply setBase_kept |
      dsimp only | with_reducible refine kept_mk ?_ rfl rfl rfl rfl rfl rfl

theorem execTbRearm_kept {s0 s : State} {a} (h : Kept s0 s) : KeptOut s0 (execTbRearm a s) := by
  unfold execTbRearm
  repeat'
    first | with_reducible assumption | with_reducible apply runCommand_kept | with_reducible exact tbRearmSpec_kept |
      dsimp only

theorem tb4LoadSpec_kept : KeptSpec (tb4LoadSpec) := by
  intro s0 s c h
  dsimp only [tb4LoadSpec, plainSpec, done]
  repeat'
    first | with_reducible assumption | with_reducible apply setBase_kept | dsimp only |
      with_reducible refine kept_mk ?_ rfl rfl rfl rfl rfl rfl

theorem execTb4Load_kept {s0 s : State} {a} (h : Kept s0 s) : KeptOut s0 (execTb4Load a s) := by
  unfold execTb4Load
  repeat'
    first | with_reducible assumption | with_reducible apply runCommand_kept | with_reducible exact tb4LoadSpec_kept |
      dsimp only

theorem ppsSetSpec_kept : KeptSpec (ppsSetSpec) := by
  intro s0 s c h
  dsimp only [ppsSetSpec, plainSpec, done]
  repeat'
    first | with_reducible assumption | dsimp only | with_reducible refine kept_mk ?_ rfl rfl rfl rfl rfl rfl

theorem execPpsSet_kept {s0 s : State} {a} (h : Kept s0 s) : KeptOut s0 (execPpsSet a s) := by
  unfold execPpsSet
  repeat'
    first | with_reducible assumption | with_reducible apply runCommand_kept | with_reducible exact ppsSetSpec_kept |
      dsimp only

theorem ppsTodSetSpec_kept : KeptSpec (ppsTodSetSpec) := by
  intro s0 s c h
  dsimp only [ppsTodSetSpec, plainSpec, done]
  repeat'
    first | with_reducible assumption | with_reducible apply setBase_kept | with_reducible apply kept_ite |
      with_reducible apply kept_ite_answer | dsimp only | split | with_reducible refine kept_mk ?_ rfl rfl rfl rfl rfl rfl

theorem execPpsTodSet_kept {s0 s : State} {a} (h : Kept s0 s) : KeptOut s0 (execPpsTodSet a s) := by
  unfold execPpsTodSet
  repeat'
    first | with_reducible assumption | with_reducible apply runCommand_kept | with_reducible exact ppsTodSetSpec_kept |
      dsimp only

theorem setBhCfg_kept {s0 s : State} {b c} (h : Kept s0 s) : Kept s0 (setBhCfg s b c) := by
  unfold setBhCfg
  repeat'
    first | with_reducible assumption | dsimp only | with_reducible refine kept_mk ?_ rfl rfl rfl rfl rfl rfl

theorem tcSetSpec_kept : KeptSpec (tcSetSpec) := by
  intro s0 s c h
  dsimp only [tcSetSpec, plainSpec, done]
  repeat'
    first | with_reducible assumption | with_reducible apply setBhCfg_kept | dsimp only |
      with_reducible refine kept_mk ?_ rfl rfl rfl rfl rfl rfl

theorem execTcSet_kept {s0 s : State} {a} (h : Kept s0 s) : KeptOut s0 (execTcSet a s) := by
  unfold execTcSet
  repeat'
    first | with_reducible assumption | with_reducible apply runCommand_kept | with_reducible exact tcSetSpec_kept |
      dsimp only

theorem herdTimeSetSpec_kept : KeptSpec (herdTimeSetSpec) := by
  intro s0 s c h
  dsimp only [herdTimeSetSpec, plainSpec, done]
  repeat'
    first | with_reducible assumption | dsimp only | with_reducible refine kept_mk ?_ rfl rfl rfl rfl rfl rfl

theorem execHerdTimeSet_kept {s0 s : State} {a} (h : Kept s0 s) : KeptOut s0 (execHerdTimeSet a s) := by
  unfold execHerdTimeSet
  repeat'
    first | with_reducible assumption | with_reducible apply runCommand_kept | with_reducible exact herdTimeSetSpec_kept |
      dsimp only

theorem timeCountersReadSpec_kept : KeptSpec (timeCountersReadSpec) := by
  intro s0 s c h
  dsimp only [timeCountersReadSpec, plainSpec, doneWith]
  repeat'
    first | with_reducible assumption | dsimp only | split | with_reducible refine kept_mk ?_ rfl rfl rfl rfl rfl rfl

theorem execTimeCountersRead_kept {s0 s : State} {a} (h : Kept s0 s) : KeptOut s0 (execTimeCountersRead a s) := by
  unfold execTimeCountersRead
  repeat'
    first | with_reducible assumption | with_reducible apply runCommand_kept |
      with_reducible exact timeCountersReadSpec_kept | dsimp only

theorem takeSnap_kept {s0 s : State} {a} (h : Kept s0 s) : Kept s0 (takeSnap a s) := by
  unfold takeSnap
  repeat'
    first | with_reducible assumption | with_reducible apply kept_ite | dsimp only | split |
      with_reducible refine kept_mk ?_ rfl rfl rfl rfl rfl rfl

theorem execSnap_kept {s0 s : State} {a} (h : Kept s0 s) : KeptOut s0 (execSnap a s) := by
  unfold execSnap
  repeat'
    first | with_reducible assumption | with_reducible apply takeSnap_kept | with_reducible apply keptOut_next | dsimp only

theorem writeIncLo_kept {s0 s : State} {a} (h : Kept s0 s) : Kept s0 (writeIncLo a s) := by
  unfold writeIncLo
  repeat'
    first | with_reducible assumption | with_reducible apply kept_ite | dsimp only | split |
      with_reducible refine kept_mk ?_ rfl rfl rfl rfl rfl rfl

theorem writeIncHi_kept {s0 s : State} {a} (h : Kept s0 s) : Kept s0 (writeIncHi a s) := by
  unfold writeIncHi
  repeat'
    first | with_reducible assumption | with_reducible apply setBase_kept | with_reducible apply kept_ite | dsimp only |
      split | with_reducible refine kept_mk ?_ rfl rfl rfl rfl rfl rfl

theorem execTb4IncHi_kept {s0 s : State} {a} (h : Kept s0 s) : KeptOut s0 (execTb4IncHi a s) := by
  unfold execTb4IncHi
  repeat'
    first | with_reducible assumption | with_reducible apply writeIncHi_kept | with_reducible apply keptOut_next | dsimp only

theorem shiftMeasured_kept {s0 s : State} {a b} (h : Kept s0 s) : Kept s0 (shiftMeasured a b s) := by
  unfold shiftMeasured
  repeat'
    first | with_reducible assumption | with_reducible apply setPtp_kept | with_reducible apply kept_ite | dsimp only |
      split | with_reducible refine kept_mk ?_ rfl rfl rfl rfl rfl rfl

theorem stepBase_kept {s0 s : State} {a} (h : Kept s0 s) : Kept s0 (stepBase a s) := by
  unfold stepBase
  repeat'
    first | with_reducible assumption | with_reducible apply shiftMeasured_kept | with_reducible apply setBase_kept |
      dsimp only | with_reducible refine kept_mk ?_ rfl rfl rfl rfl rfl rfl

theorem lockBase_kept {s0 s : State} {a} (h : Kept s0 s) : Kept s0 (lockBase a s) := by
  unfold lockBase
  repeat'
    first | with_reducible assumption | with_reducible apply stepBase_kept | with_reducible apply tryFirstLock_kept |
      with_reducible apply reselect_kept | with_reducible apply setBaseState_kept | with_reducible apply kept_ite |
      dsimp only | split

theorem holdBase_kept {s0 s : State} {a} (h : Kept s0 s) : Kept s0 (holdBase a s) := by
  unfold holdBase
  repeat'
    first | with_reducible assumption | with_reducible apply reselect_kept | with_reducible apply setBaseState_kept |
      with_reducible apply kept_ite | dsimp only | split

theorem loseBase_kept {s0 s : State} {a} (h : Kept s0 s) : Kept s0 (loseBase a s) := by
  unfold loseBase
  repeat'
    first | with_reducible assumption | with_reducible apply setBase_kept | with_reducible apply reselect_kept |
      with_reducible apply setBaseState_kept | with_reducible apply kept_ite | dsimp only | split |
      with_reducible refine kept_mk ?_ rfl rfl rfl rfl rfl rfl

theorem execTbStateChange_kept {s0 s : State} {a b} (h : Kept s0 s) : KeptOut s0 (execTbStateChange a b s) := by
  unfold execTbStateChange
  repeat'
    first | with_reducible assumption | with_reducible apply lockBase_kept | with_reducible apply holdBase_kept |
      with_reducible apply loseBase_kept | with_reducible apply kept_ite | with_reducible apply keptOut_ite |
      with_reducible apply keptOut_next | dsimp only | split

theorem execRevertDelayExpiry_kept {s0 s : State} (h : Kept s0 s) : KeptOut s0 (execRevertDelayExpiry s) := by
  unfold execRevertDelayExpiry
  repeat'
    first | with_reducible assumption | with_reducible apply reselect_kept | with_reducible apply keptOut_next | dsimp only

theorem execFirstWaitExpiry_kept {s0 s : State} (h : Kept s0 s) : KeptOut s0 (execFirstWaitExpiry s) := by
  unfold execFirstWaitExpiry
  repeat'
    first | with_reducible assumption | with_reducible apply tryFirstLock_kept | with_reducible apply keptOut_next |
      dsimp only

theorem takePulse_kept {s0 s : State} (h : Kept s0 s) : Kept s0 (takePulse s) := by
  unfold takePulse
  repeat'
    first | with_reducible assumption | with_reducible apply countTime_kept | with_reducible apply discipline_kept |
      with_reducible apply noteInput_kept | dsimp only | with_reducible refine kept_mk ?_ rfl rfl rfl rfl rfl rfl

theorem execPpsInEdge_kept {s0 s : State} {a} (h : Kept s0 s) : KeptOut s0 (execPpsInEdge a s) := by
  unfold execPpsInEdge
  repeat'
    first | with_reducible assumption | with_reducible apply mirrorOut_kept | with_reducible apply takePulse_kept |
      with_reducible apply countTime_kept | with_reducible apply keptOut_next | dsimp only | split

theorem execPpsMissing_kept {s0 s : State} (h : Kept s0 s) : KeptOut s0 (execPpsMissing s) := by
  unfold execPpsMissing
  repeat'
    first | with_reducible assumption | with_reducible apply setBase_kept | with_reducible apply raise_kept |
      with_reducible apply keptOut_next | dsimp only | split | with_reducible refine kept_mk ?_ rfl rfl rfl rfl rfl rfl

theorem execPpsOutPulse_kept {s0 s : State} (h : Kept s0 s) : KeptOut s0 (execPpsOutPulse s) := by
  unfold execPpsOutPulse
  repeat'
    first | with_reducible assumption | with_reducible apply keptOut_next | dsimp only | split |
      with_reducible refine kept_mk ?_ rfl rfl rfl rfl rfl rfl

theorem execHerdTimeSend_kept {s0 s : State} (h : Kept s0 s) : KeptOut s0 (execHerdTimeSend s) := by
  unfold execHerdTimeSend
  repeat'
    first | with_reducible assumption | with_reducible apply originate_kept | with_reducible apply ranNow_kept |
      with_reducible apply kept_ite | with_reducible refine kept_foldl ?_ fun _ _ _ => ?_ |
      with_reducible apply keptOut_ite | with_reducible apply keptOut_next | dsimp only | split

theorem takeHerdTime_kept {s0 s : State} {a b c} (h : Kept s0 s) : Kept s0 (takeHerdTime a b c s) := by
  unfold takeHerdTime
  repeat'
    first | with_reducible assumption | with_reducible apply countTime_kept | with_reducible apply discipline_kept |
      with_reducible apply noteInput_kept | dsimp only

theorem execHerdTimeMessage_kept {s0 s : State} {a b c} (h : Kept s0 s) : KeptOut s0 (execHerdTimeMessage a b c s) := by
  unfold execHerdTimeMessage
  repeat'
    first | with_reducible assumption | with_reducible apply mirrorHerd_kept | with_reducible apply takeHerdTime_kept |
      with_reducible apply countTime_kept | with_reducible apply keptOut_next | dsimp only | split

theorem markStale_kept {s0 s : State} {a} (h : Kept s0 s) : Kept s0 (markStale a s) := by
  unfold markStale
  repeat'
    first | with_reducible assumption | with_reducible apply setHlink_kept | with_reducible apply kept_ite |
      with_reducible refine kept_foldl ?_ fun _ _ _ => ?_ | dsimp only | split |
      with_reducible refine kept_mk ?_ rfl rfl rfl rfl rfl rfl

theorem staleBeyond_kept {s0 s : State} {a b} (h : Kept s0 s) : Kept s0 (staleBeyond a b s) := by
  unfold staleBeyond
  repeat'
    first | with_reducible assumption | with_reducible apply markStale_kept | with_reducible apply kept_ite |
      with_reducible refine kept_foldl ?_ fun _ _ _ => ?_ | dsimp only | split

theorem endSurvey_kept {s0 s : State} {a b} (h : Kept s0 s) : Kept s0 (endSurvey a b s) := by
  unfold endSurvey
  repeat'
    first | with_reducible assumption | with_reducible apply staleBeyond_kept | with_reducible apply complete_kept |
      with_reducible apply postEvent_kept | with_reducible apply raise_kept | with_reducible apply kept_ite | dsimp only |
      split | with_reducible refine kept_mk ?_ rfl rfl rfl rfl rfl rfl

theorem finishSurvey_kept {s0 s : State} {a b} (h : Kept s0 s) : Kept s0 (finishSurvey a b s) := by
  unfold finishSurvey
  repeat'
    first | with_reducible assumption | with_reducible apply endSurvey_kept | with_reducible apply originate_kept |
      with_reducible refine kept_foldl ?_ fun _ _ _ => ?_ | dsimp only | split

theorem beginSurvey_kept {s0 s : State} {a} (h : Kept s0 s) : Kept s0 (beginSurvey a s) := by
  unfold beginSurvey
  repeat'
    first | with_reducible assumption | with_reducible apply finishSurvey_kept | with_reducible apply originate_kept |
      with_reducible apply setHlink_kept | with_reducible apply ranNow_kept | with_reducible apply kept_ite | dsimp only |
      split | with_reducible refine kept_mk ?_ rfl rfl rfl rfl rfl rfl

theorem surveyRunSpec_kept : KeptSpec (surveyRunSpec) := by
  intro s0 s c h
  dsimp only [surveyRunSpec, runsOn]
  repeat'
    first | with_reducible assumption | with_reducible apply beginSurvey_kept | with_reducible apply kept_ite |
      with_reducible apply kept_ite_answer | dsimp only | split | with_reducible refine kept_mk ?_ rfl rfl rfl rfl rfl rfl

theorem execSurveyRun_kept {s0 s : State} {a} (h : Kept s0 s) : KeptOut s0 (execSurveyRun a s) := by
  unfold execSurveyRun
  repeat'
    first | with_reducible assumption | with_reducible apply runCommand_kept | with_reducible exact surveyRunSpec_kept |
      dsimp only

theorem surveyReadSpec_kept : KeptSpec (surveyReadSpec) := by
  intro s0 s c h
  dsimp only [surveyReadSpec, plainSpec, doneWith]
  repeat'
    first | with_reducible assumption | dsimp only

theorem execSurveyRead_kept {s0 s : State} {a} (h : Kept s0 s) : KeptOut s0 (execSurveyRead a s) := by
  unfold execSurveyRead
  repeat'
    first | with_reducible assumption | with_reducible apply runCommand_kept | with_reducible exact surveyReadSpec_kept |
      dsimp only

theorem storeDelay_kept {s0 s : State} {a b} (h : Kept s0 s) : Kept s0 (storeDelay a b s) := by
  unfold storeDelay
  repeat'
    first | with_reducible assumption | with_reducible apply setHlink_kept | dsimp only |
      with_reducible refine kept_mk ?_ rfl rfl rfl rfl rfl rfl

theorem passSurvey_kept {s0 s : State} {a b c} (h : Kept s0 s) : Kept s0 (passSurvey a b c s) := by
  unfold passSurvey
  repeat'
    first | with_reducible assumption | with_reducible apply originate_kept | with_reducible apply storeDelay_kept |
      with_reducible apply kept_ite | dsimp only | split | with_reducible refine kept_mk ?_ rfl rfl rfl rfl rfl rfl

theorem takeProbe_kept {s0 s : State} {a b} (h : Kept s0 s) : Kept s0 (takeProbe a b s) := by
  unfold takeProbe
  repeat'
    first | with_reducible assumption | with_reducible apply originate_kept | with_reducible apply setHlink_kept |
      with_reducible apply ranNow_kept | with_reducible apply passSurvey_kept | with_reducible apply kept_ite | dsimp only |
      split | with_reducible refine kept_mk ?_ rfl rfl rfl rfl rfl rfl

theorem joinSurvey_kept {s0 s : State} {a b c} (h : Kept s0 s) : Kept s0 (joinSurvey a b c s) := by
  unfold joinSurvey
  repeat'
    first | with_reducible assumption | with_reducible apply storeDelay_kept | with_reducible apply finishSurvey_kept |
      with_reducible apply beginSurvey_kept | with_reducible apply kept_ite | dsimp only | split |
      with_reducible refine kept_mk ?_ rfl rfl rfl rfl rfl rfl

theorem probeLost_kept {s0 s : State} (h : Kept s0 s) : Kept s0 (probeLost s) := by
  unfold probeLost
  repeat'
    first | with_reducible assumption | with_reducible apply finishSurvey_kept | with_reducible apply kept_ite | dsimp only |
      split

theorem execSurveyProbe_kept {s0 s : State} {a} (h : Kept s0 s) : KeptOut s0 (execSurveyProbe a s) := by
  unfold execSurveyProbe
  repeat'
    first | with_reducible assumption | with_reducible apply mirrorHerd_kept | with_reducible apply originate_kept |
      with_reducible apply takeProbe_kept | with_reducible apply probeLost_kept | with_reducible apply joinSurvey_kept |
      with_reducible apply endSurvey_kept | with_reducible apply keptOut_next | dsimp only | split

theorem execSleepCalibration_kept {s0 s : State} {a} (h : Kept s0 s) : KeptOut s0 (execSleepCalibration a s) := by
  unfold execSleepCalibration
  repeat'
    first | with_reducible assumption | with_reducible apply raise_kept | with_reducible apply kept_ite |
      with_reducible apply keptOut_ite | with_reducible apply keptOut_next | dsimp only | split |
      with_reducible refine kept_mk ?_ rfl rfl rfl rfl rfl rfl

theorem makeUpTime_kept {s0 s : State} {a} (h : Kept s0 s) : Kept s0 (makeUpTime a s) := by
  unfold makeUpTime
  repeat'
    first | with_reducible assumption | with_reducible apply setBase_kept | with_reducible apply setBaseState_kept |
      with_reducible apply reselect_kept | with_reducible apply setSt_kept | with_reducible apply kept_ite |
      with_reducible refine kept_foldl ?_ fun _ _ _ => ?_ | dsimp only | split |
      with_reducible refine kept_mk ?_ rfl rfl rfl rfl rfl rfl

end Sys2Proof.Laws
end

