-- ==== Sys2Proof/Laws/KeptGaitTimers.lean ====
section
/-! SUPPORT. What the operations of Machine/GaitTimers.lean keep. -/

namespace Sys2Proof.Laws

open Sys2Proof.Machine Sys2Proof.Safety

set_option linter.unusedTactic false
set_option linter.unreachableTactic false

theorem setGait_kept {s0 s : State} {b c} (h : Kept s0 s) : Kept s0 (setGait s b c) := by
  unfold setGait
  repeat'
    first | with_reducible assumption | dsimp only | with_reducible refine kept_mk ?_ rfl rfl rfl rfl rfl rfl

theorem gtIrq_kept {s0 s : State} {a b} (h : Kept s0 s) : Kept s0 (gtIrq a b s) := by
  unfold gtIrq
  repeat'
    first | with_reducible assumption | with_reducible apply msi_kept | with_reducible apply kept_ite | dsimp only | split

theorem serveMatch_kept {s0 s : State} {a} (h : Kept s0 s) : Kept s0 (serveMatch a s) := by
  unfold serveMatch
  repeat'
    first | with_reducible assumption | with_reducible apply gtIrq_kept | with_reducible apply setGait_kept |
      with_reducible apply kept_ite | dsimp only | split

theorem execGtMatch_kept {s0 s : State} {a} (h : Kept s0 s) : KeptOut s0 (execGtMatch a s) := by
  unfold execGtMatch
  repeat'
    first | with_reducible assumption | with_reducible apply serveMatch_kept | with_reducible apply keptOut_next | dsimp only

theorem execUpDownTurningPoint_kept {s0 s : State} {a} (h : Kept s0 s) : KeptOut s0 (execUpDownTurningPoint a s) := by
  unfold execUpDownTurningPoint
  repeat'
    first | with_reducible assumption | with_reducible apply setGait_kept | with_reducible apply keptOut_next | dsimp only

theorem tickGaits_kept {s0 s : State} (h : Kept s0 s) : Kept s0 (tickGaits s) := by
  unfold tickGaits
  repeat'
    first | with_reducible assumption | with_reducible apply serveMatch_kept |
      with_reducible refine kept_foldl ?_ fun _ _ _ => ?_ | dsimp only | split |
      with_reducible refine kept_mk ?_ rfl rfl rfl rfl rfl rfl

theorem tick_kept {s0 s : State} (h : Kept s0 s) : Kept s0 (tick s) := by
  unfold tick
  repeat'
    first | with_reducible assumption | with_reducible apply tickSleep_kept | with_reducible apply tickGaits_kept |
      with_reducible apply tickTime_kept | with_reducible apply kept_ite | dsimp only | split

theorem capture_kept {s0 s : State} {a} (h : Kept s0 s) : Kept s0 (capture a s) := by
  unfold capture
  repeat'
    first | with_reducible assumption | with_reducible apply gtIrq_kept | with_reducible apply setGait_kept |
      with_reducible apply raise_kept | with_reducible apply kept_ite | dsimp only | split |
      with_reducible refine kept_mk ?_ rfl rfl rfl rfl rfl rfl

theorem execGtCapEdge_kept {s0 s : State} {a b} (h : Kept s0 s) : KeptOut s0 (execGtCapEdge a b s) := by
  unfold execGtCapEdge
  repeat'
    first | with_reducible assumption | with_reducible apply mirrorOut_kept | with_reducible apply capture_kept |
      with_reducible apply keptOut_next | dsimp only | split

theorem writeCount_kept {s0 s : State} {a b} (h : Kept s0 s) : Kept s0 (writeCount a b s) := by
  unfold writeCount
  repeat'
    first | with_reducible assumption | with_reducible apply setGait_kept | dsimp only | split |
      with_reducible refine kept_mk ?_ rfl rfl rfl rfl rfl rfl

theorem writeCompare_kept {s0 s : State} {a b} (h : Kept s0 s) : Kept s0 (writeCompare a b s) := by
  unfold writeCompare
  repeat'
    first | with_reducible assumption | with_reducible apply serveMatch_kept | with_reducible apply setGait_kept |
      dsimp only | split | with_reducible refine kept_mk ?_ rfl rfl rfl rfl rfl rfl

theorem execGtClear_kept {s0 s : State} {a b} (h : Kept s0 s) : KeptOut s0 (execGtClear a b s) := by
  unfold execGtClear
  repeat'
    first | with_reducible assumption | with_reducible apply setGait_kept | with_reducible apply kept_ite |
      with_reducible apply keptOut_ite | with_reducible apply keptOut_next | with_reducible exact keptOut_fault |
      dsimp only | split

theorem execGtCountWrite_kept {s0 s : State} {a b} (h : Kept s0 s) : KeptOut s0 (execGtCountWrite a b s) := by
  unfold execGtCountWrite
  repeat'
    first | with_reducible assumption | with_reducible apply writeCount_kept | with_reducible apply keptOut_next | dsimp only

theorem execGtCompareWrite_kept {s0 s : State} {a b} (h : Kept s0 s) : KeptOut s0 (execGtCompareWrite a b s) := by
  unfold execGtCompareWrite
  repeat'
    first | with_reducible assumption | with_reducible apply writeCompare_kept | with_reducible apply keptOut_next |
      dsimp only

theorem execGtCaptureRead_kept {s0 s : State} {a} (h : Kept s0 s) : KeptOut s0 (execGtCaptureRead a s) := by
  unfold execGtCaptureRead
  repeat'
    first | with_reducible assumption | with_reducible apply recordRead_kept | with_reducible apply setGait_kept |
      with_reducible apply keptOut_next | dsimp only | with_reducible refine kept_mk ?_ rfl rfl rfl rfl rfl rfl

theorem makeUpTimer_kept {s0 s : State} {a b} (h : Kept s0 s) : Kept s0 (makeUpTimer a b s) := by
  unfold makeUpTimer
  repeat'
    first | with_reducible assumption | with_reducible apply gtIrq_kept | with_reducible apply setGait_kept |
      with_reducible apply kept_ite | dsimp only | split | with_reducible refine kept_mk ?_ rfl rfl rfl rfl rfl rfl

theorem makeUpGaits_kept {s0 s : State} {a} (h : Kept s0 s) : Kept s0 (makeUpGaits a s) := by
  unfold makeUpGaits
  repeat'
    first | with_reducible assumption | with_reducible apply makeUpTimer_kept |
      with_reducible refine kept_foldl ?_ fun _ _ _ => ?_ | dsimp only

end Sys2Proof.Laws
end

