-- ==== Sys2Proof/Laws/KeptRxOps.lean ====
section
/-! SUPPORT. What the operations of Machine/RxOps.lean keep. -/

namespace Sys2Proof.Laws

open Sys2Proof.Machine Sys2Proof.Safety

set_option linter.unusedTactic false
set_option linter.unreachableTactic false

theorem setPlainCfg_kept {s0 s : State} {b c} (h : Kept s0 s) : Kept s0 (setPlainCfg s b c) := by
  unfold setPlainCfg
  repeat'
    first | with_reducible assumption | dsimp only | with_reducible refine kept_mk ?_ rfl rfl rfl rfl rfl rfl

theorem setPortCfg_kept {s0 s : State} {b c} (h : Kept s0 s) : Kept s0 (setPortCfg s b c) := by
  unfold setPortCfg
  repeat'
    first | with_reducible assumption | dsimp only | with_reducible refine kept_mk ?_ rfl rfl rfl rfl rfl rfl

theorem setChainCfg_kept {s0 s : State} {b c} (h : Kept s0 s) : Kept s0 (setChainCfg s b c) := by
  unfold setChainCfg
  repeat'
    first | with_reducible assumption | dsimp only | with_reducible refine kept_mk ?_ rfl rfl rfl rfl rfl rfl

theorem setPort_kept {s0 s : State} {b c} (h : Kept s0 s) : Kept s0 (setPort s b c) := by
  unfold setPort
  repeat'
    first | with_reducible assumption | dsimp only | with_reducible refine kept_mk ?_ rfl rfl rfl rfl rfl rfl

theorem setRxPlain_kept {s0 s : State} {b c} (h : Kept s0 s) : Kept s0 (setRxPlain s b c) := by
  unfold setRxPlain
  repeat'
    first | with_reducible assumption | dsimp only | with_reducible refine kept_mk ?_ rfl rfl rfl rfl rfl rfl

theorem countRx_kept {s0 s : State} {a b} (h : Kept s0 s) : Kept s0 (countRx a b s) := by
  unfold countRx
  repeat'
    first | with_reducible assumption | with_reducible apply setRxPlain_kept | dsimp only |
      with_reducible refine kept_mk ?_ rfl rfl rfl rfl rfl rfl

theorem setDomain_kept {s0 s : State} {b c} (h : Kept s0 s) : Kept s0 (setDomain s b c) := by
  unfold setDomain
  repeat'
    first | with_reducible assumption | dsimp only | with_reducible refine kept_mk ?_ rfl rfl rfl rfl rfl rfl

theorem changePlain_kept {s0 s : State} {a b} (h : Kept s0 s) : Kept s0 (changePlain a b s) := by
  unfold changePlain
  repeat'
    first | with_reducible assumption | with_reducible apply setRxPlain_kept | with_reducible apply setPlainCfg_kept |
      dsimp only | with_reducible refine kept_mk ?_ rfl rfl rfl rfl rfl rfl

theorem refreshMode_kept {s0 s : State} (h : Kept s0 s) : Kept s0 (refreshMode s) := by
  unfold refreshMode
  repeat'
    first | with_reducible assumption | with_reducible apply kept_ite | dsimp only | split |
      with_reducible refine kept_mk ?_ rfl rfl rfl rfl rfl rfl

theorem changeMode_kept {s0 s : State} {a} (h : Kept s0 s) : Kept s0 (changeMode a s) := by
  unfold changeMode
  repeat'
    first | with_reducible assumption | with_reducible apply postEvent_kept | with_reducible apply kept_ite | dsimp only |
      split | with_reducible refine kept_mk ?_ rfl rfl rfl rfl rfl rfl

theorem postRecordTo_kept {s0 s : State} {a b c d} (h : Kept s0 s) : Kept s0 (postRecordTo a b c d s) := by
  unfold postRecordTo
  repeat'
    first | with_reducible assumption | with_reducible apply pushWords_kept | with_reducible apply cover_kept |
      with_reducible apply raiseAll_kept | with_reducible apply countRx_kept | with_reducible apply kept_ite | dsimp only |
      split

theorem postRecord_kept {s0 s : State} {a b c d} (h : Kept s0 s) : Kept s0 (postRecord a b c d s) := by
  unfold postRecord
  repeat'
    first | with_reducible assumption | with_reducible apply postRecordTo_kept | dsimp only | split

theorem takeSeq_kept {s0 s : State} (h : Kept s0 s) : Kept s0 (takeSeq s) := by
  unfold takeSeq
  repeat'
    first | with_reducible assumption | dsimp only | with_reducible refine kept_mk ?_ rfl rfl rfl rfl rfl rfl

theorem postFailed_kept {s0 s : State} {a b c} (h : Kept s0 s) : Kept s0 (postFailed a b c s) := by
  unfold postFailed
  repeat'
    first | with_reducible assumption | with_reducible apply postRecord_kept | with_reducible apply takeSeq_kept |
      dsimp only | with_reducible refine kept_mk ?_ rfl rfl rfl rfl rfl rfl

theorem modTrack_kept {s0 s : State} {a b} (h : Kept s0 s) : Kept s0 (modTrack a b s) := by
  unfold modTrack
  repeat'
    first | with_reducible assumption | with_reducible apply kept_ite | dsimp only | split |
      with_reducible refine kept_mk ?_ rfl rfl rfl rfl rfl rfl

theorem claimTrack_kept {s0 s : State} {a} (h : Kept s0 s) : Kept s0 (claimTrack a s) := by
  unfold claimTrack
  repeat'
    first | with_reducible assumption | dsimp only | with_reducible refine kept_mk ?_ rfl rfl rfl rfl rfl rfl

theorem releaseTrack_kept {s0 s : State} {a} (h : Kept s0 s) : Kept s0 (releaseTrack a s) := by
  unfold releaseTrack
  repeat'
    first | with_reducible assumption | dsimp only | with_reducible refine kept_mk ?_ rfl rfl rfl rfl rfl rfl

theorem markTracks_kept {s0 s : State} {a b} (h : Kept s0 s) : Kept s0 (markTracks a b s) := by
  unfold markTracks
  repeat'
    first | with_reducible assumption | with_reducible apply kept_ite | dsimp only | split |
      with_reducible refine kept_mk ?_ rfl rfl rfl rfl rfl rfl

theorem joinLink_kept {s0 s : State} {a} (h : Kept s0 s) : Kept s0 (joinLink a s) := by
  unfold joinLink
  repeat'
    first | with_reducible assumption | dsimp only | split | with_reducible refine kept_mk ?_ rfl rfl rfl rfl rfl rfl

theorem joinOwn_kept {s0 s : State} {a} (h : Kept s0 s) : Kept s0 (joinOwn a s) := by
  unfold joinOwn
  repeat'
    first | with_reducible assumption | with_reducible apply joinLink_kept | with_reducible apply takeSeq_kept | dsimp only |
      with_reducible refine kept_mk ?_ rfl rfl rfl rfl rfl rfl

end Sys2Proof.Laws
end

