-- ==== Sys2Proof/Laws/KeptSamples.lean ====
section
/-! SUPPORT. What the operations of Machine/Samples.lean keep. -/

namespace Sys2Proof.Laws

open Sys2Proof.Machine Sys2Proof.Safety

set_option linter.unusedTactic false
set_option linter.unreachableTactic false

theorem countBeams_kept {s0 s : State} (h : Kept s0 s) : Kept s0 (countBeams s) := by
  unfold countBeams
  repeat'
    first | with_reducible assumption | with_reducible apply setRxPlain_kept | with_reducible apply kept_ite |
      with_reducible refine kept_foldl ?_ fun _ _ _ => ?_ | dsimp only | split |
      with_reducible refine kept_mk ?_ rfl rfl rfl rfl rfl rfl

theorem setCutPlain_kept {s0 s : State} {b c} (h : Kept s0 s) : Kept s0 (setCutPlain s b c) := by
  unfold setCutPlain
  repeat'
    first | with_reducible assumption | dsimp only | with_reducible refine kept_mk ?_ rfl rfl rfl rfl rfl rfl

theorem countCut_kept {s0 s : State} {a b c} (h : Kept s0 s) : Kept s0 (countCut a b c s) := by
  unfold countCut
  repeat'
    first | with_reducible assumption | with_reducible apply setCutPlain_kept | dsimp only |
      with_reducible refine kept_mk ?_ rfl rfl rfl rfl rfl rfl

theorem stopRing_kept {s0 s : State} {a} (h : Kept s0 s) : Kept s0 (stopRing a s) := by
  unfold stopRing
  repeat'
    first | with_reducible assumption | with_reducible apply setCutPlain_kept | with_reducible apply kept_ite | dsimp only |
      split | with_reducible refine kept_mk ?_ rfl rfl rfl rfl rfl rfl

theorem startRing_kept {s0 s : State} {a} (h : Kept s0 s) : Kept s0 (startRing a s) := by
  unfold startRing
  repeat'
    first | with_reducible assumption | with_reducible apply setCutPlain_kept | with_reducible apply kept_ite | dsimp only |
      split | with_reducible refine kept_mk ?_ rfl rfl rfl rfl rfl rfl

theorem addMark_kept {s0 s : State} {a b} (h : Kept s0 s) : Kept s0 (addMark a b s) := by
  unfold addMark
  repeat'
    first | with_reducible assumption | with_reducible apply setCutPlain_kept | with_reducible apply kept_ite | dsimp only |
      split | with_reducible refine kept_mk ?_ rfl rfl rfl rfl rfl rfl

theorem closeMarks_kept {s0 s : State} {a b c} (h : Kept s0 s) : Kept s0 (closeMarks a b c s) := by
  unfold closeMarks
  repeat'
    first | with_reducible assumption | with_reducible apply setCutPlain_kept | with_reducible apply kept_ite | dsimp only |
      split | with_reducible refine kept_mk ?_ rfl rfl rfl rfl rfl rfl

theorem cutUpto_kept {s0 s : State} {a b c} (h : Kept s0 s) : Kept s0 (cutUpto a b c s) := by
  unfold cutUpto
  repeat'
    first | with_reducible assumption | with_reducible apply setCutPlain_kept | with_reducible apply kept_ite | dsimp only |
      split | with_reducible refine kept_mk ?_ rfl rfl rfl rfl rfl rfl

end Sys2Proof.Laws
end

