-- ==== Sys2Proof/Laws/KeptCutting.lean ====
section
/-! SUPPORT. What the operations of Machine/Cutting.lean keep. -/

namespace Sys2Proof.Laws

open Sys2Proof.Machine Sys2Proof.Safety

set_option linter.unusedTactic false
set_option linter.unreachableTactic false

theorem setJob_kept {s0 s : State} {a} (h : Kept s0 s) : Kept s0 (setJob a s) := by
  unfold setJob
  repeat'
    first | with_reducible assumption | with_reducible apply kept_ite | dsimp only | split |
      with_reducible refine kept_mk ?_ rfl rfl rfl rfl rfl rfl

theorem dropJob_kept {s0 s : State} {a} (h : Kept s0 s) : Kept s0 (dropJob a s) := by
  unfold dropJob
  repeat'
    first | with_reducible assumption | dsimp only | with_reducible refine kept_mk ?_ rfl rfl rfl rfl rfl rfl

theorem jobEvent_kept {s0 s : State} {a b c} (h : Kept s0 s) : Kept s0 (jobEvent a b c s) := by
  unfold jobEvent
  repeat'
    first | with_reducible assumption | with_reducible apply postEventTo_kept | with_reducible apply kept_ite | dsimp only |
      split

theorem expireJob_kept {s0 s : State} {a b} (h : Kept s0 s) : Kept s0 (expireJob a b s) := by
  unfold expireJob
  repeat'
    first | with_reducible assumption | with_reducible apply jobEvent_kept | with_reducible apply countCut_kept |
      with_reducible apply dropJob_kept | dsimp only

theorem partialCut_kept {s0 s : State} {a b} (h : Kept s0 s) : Kept s0 (partialCut a b s) := by
  unfold partialCut
  repeat'
    first | with_reducible assumption | with_reducible apply addMark_kept | with_reducible apply kept_ite | dsimp only |
      split | with_reducible refine kept_mk ?_ rfl rfl rfl rfl rfl rfl

theorem repartition_kept {s0 s : State} (h : Kept s0 s) : Kept s0 (repartition s) := by
  unfold repartition
  repeat'
    first | with_reducible assumption | with_reducible apply expireJob_kept | with_reducible apply setCutPlain_kept |
      with_reducible apply addMark_kept | with_reducible apply kept_ite |
      with_reducible refine kept_foldl ?_ fun _ _ _ => ?_ | dsimp only | split |
      with_reducible refine kept_mk ?_ rfl rfl rfl rfl rfl rfl

theorem offerCut_kept {s0 s : State} {a b} (h : Kept s0 s) : Kept s0 (offerCut a b s).2 := by
  unfold offerCut
  repeat'
    first | with_reducible assumption | with_reducible apply countCut_kept | with_reducible apply raise_kept |
      with_reducible apply kept_ite | with_reducible apply kept_ite_snd | dsimp only | split |
      with_reducible refine kept_mk ?_ rfl rfl rfl rfl rfl rfl

theorem expireUnstarted_kept {s0 s : State} {a} (h : Kept s0 s) : Kept s0 (expireUnstarted a s) := by
  unfold expireUnstarted
  repeat'
    first | with_reducible assumption | with_reducible apply partialCut_kept | with_reducible apply expireJob_kept |
      dsimp only

theorem dispatchJob_kept {s0 s : State} {a} (h : Kept s0 s) : Kept s0 (dispatchJob a s) := by
  unfold dispatchJob
  repeat'
    first | with_reducible assumption | with_reducible apply setJob_kept | with_reducible apply expireUnstarted_kept |
      with_reducible apply kept_ite | dsimp only | split | with_reducible refine kept_mk ?_ rfl rfl rfl rfl rfl rfl

theorem dispatchNext_kept {s0 s : State} (h : Kept s0 s) : Kept s0 (dispatchNext s) := by
  unfold dispatchNext
  repeat'
    first | with_reducible assumption | with_reducible apply dispatchJob_kept | with_reducible apply kept_ite | dsimp only |
      split

theorem execCutJobDispatch_kept {s0 s : State} (h : Kept s0 s) : KeptOut s0 (execCutJobDispatch s) := by
  unfold execCutJobDispatch
  repeat'
    first | with_reducible assumption | with_reducible apply dispatchNext_kept | with_reducible apply keptOut_next |
      dsimp only

theorem openCut_kept {s0 s : State} {a} (h : Kept s0 s) : Kept s0 (openCut a s) := by
  unfold openCut
  repeat'
    first | with_reducible assumption | with_reducible apply setCutPlain_kept | with_reducible apply kept_ite | dsimp only |
      split | with_reducible refine kept_mk ?_ rfl rfl rfl rfl rfl rfl

theorem execCutSubtractionStart_kept {s0 s : State} {a} (h : Kept s0 s) : KeptOut s0 (execCutSubtractionStart a s) := by
  unfold execCutSubtractionStart
  repeat'
    first | with_reducible assumption | with_reducible apply openCut_kept | with_reducible apply setJob_kept |
      with_reducible apply kept_ite | with_reducible apply keptOut_ite | with_reducible apply keptOut_next | dsimp only |
      split | with_reducible refine kept_mk ?_ rfl rfl rfl rfl rfl rfl

theorem startPass_kept {s0 s : State} (h : Kept s0 s) : Kept s0 (startPass s) := by
  unfold startPass
  repeat'
    first | with_reducible assumption | with_reducible apply setJob_kept | with_reducible apply kept_ite | dsimp only |
      split | with_reducible refine kept_mk ?_ rfl rfl rfl rfl rfl rfl

theorem advanceCut_kept {s0 s : State} {a b} (h : Kept s0 s) : Kept s0 (advanceCut a b s) := by
  unfold advanceCut
  repeat'
    first | with_reducible assumption | with_reducible apply countCut_kept | with_reducible apply cutUpto_kept | dsimp only |
      split | with_reducible refine kept_mk ?_ rfl rfl rfl rfl rfl rfl

theorem execCutSubtractionEnd_kept {s0 s : State} {a b} (h : Kept s0 s) : KeptOut s0 (execCutSubtractionEnd a b s) := by
  unfold execCutSubtractionEnd
  repeat'
    first | with_reducible assumption | with_reducible apply startPass_kept | with_reducible apply setJob_kept |
      with_reducible apply advanceCut_kept | with_reducible apply kept_ite | with_reducible apply keptOut_ite |
      with_reducible apply keptOut_next | dsimp only | split | with_reducible refine kept_mk ?_ rfl rfl rfl rfl rfl rfl

theorem dropFailed_kept {s0 s : State} {a b} (h : Kept s0 s) : Kept s0 (dropFailed a b s) := by
  unfold dropFailed
  repeat'
    first | with_reducible assumption | with_reducible apply setCutPlain_kept | dsimp only |
      with_reducible refine kept_mk ?_ rfl rfl rfl rfl rfl rfl

theorem addPend_kept {s0 s : State} {a} (h : Kept s0 s) : Kept s0 (addPend a s) := by
  unfold addPend
  repeat'
    first | with_reducible assumption | dsimp only | with_reducible refine kept_mk ?_ rfl rfl rfl rfl rfl rfl

theorem noteTried_kept {s0 s : State} {a b} (h : Kept s0 s) : Kept s0 (noteTried a b s) := by
  unfold noteTried
  repeat'
    first | with_reducible assumption | with_reducible apply setJob_kept | dsimp only |
      with_reducible refine kept_mk ?_ rfl rfl rfl rfl rfl rfl

theorem redetect_kept {s0 s : State} {a b} (h : Kept s0 s) : Kept s0 (redetect a b s) := by
  unfold redetect
  repeat'
    first | with_reducible assumption | with_reducible apply addPend_kept | with_reducible apply countCut_kept |
      with_reducible apply kept_ite | dsimp only | split | with_reducible refine kept_mk ?_ rfl rfl rfl rfl rfl rfl

theorem execResidueDetection_kept {s0 s : State} {a b c} (h : Kept s0 s) : KeptOut s0 (execResidueDetection a b c s) := by
  unfold execResidueDetection
  repeat'
    first | with_reducible assumption | with_reducible apply addPend_kept | with_reducible apply noteTried_kept |
      with_reducible apply redetect_kept | with_reducible apply kept_ite | with_reducible apply keptOut_ite |
      with_reducible apply keptOut_next | dsimp only | split | with_reducible refine kept_mk ?_ rfl rfl rfl rfl rfl rfl

theorem claimResidue_kept {s0 s : State} {a} (h : Kept s0 s) : Kept s0 (claimResidue a s) := by
  unfold claimResidue
  repeat'
    first | with_reducible assumption | with_reducible apply countCut_kept | with_reducible apply dropFailed_kept |
      with_reducible apply claimTrack_kept | dsimp only | split | with_reducible refine kept_mk ?_ rfl rfl rfl rfl rfl rfl

theorem execCutJobComplete_kept {s0 s : State} {a} (h : Kept s0 s) : KeptOut s0 (execCutJobComplete a s) := by
  unfold execCutJobComplete
  repeat'
    first | with_reducible assumption | with_reducible apply startPass_kept | with_reducible apply jobEvent_kept |
      with_reducible apply dropJob_kept | with_reducible apply kept_ite | with_reducible apply keptOut_ite |
      with_reducible apply keptOut_next | dsimp only | split

theorem execCutJobExpired_kept {s0 s : State} {a b} (h : Kept s0 s) : KeptOut s0 (execCutJobExpired a b s) := by
  unfold execCutJobExpired
  repeat'
    first | with_reducible assumption | with_reducible apply partialCut_kept | with_reducible apply advanceCut_kept |
      with_reducible apply expireJob_kept | with_reducible apply expireUnstarted_kept | with_reducible apply kept_ite |
      with_reducible apply keptOut_ite | with_reducible apply keptOut_next | dsimp only | split

theorem endByRestart_kept {s0 s : State} {a} (h : Kept s0 s) : Kept s0 (endByRestart a s) := by
  unfold endByRestart
  repeat'
    first | with_reducible assumption | with_reducible apply advanceCut_kept | with_reducible apply jobEvent_kept |
      with_reducible apply countCut_kept | with_reducible apply setJob_kept | with_reducible apply kept_ite | dsimp only |
      split | with_reducible refine kept_mk ?_ rfl rfl rfl rfl rfl rfl

theorem drainRetries_kept {s0 s : State} {a} (h : Kept s0 s) : Kept s0 (drainRetries a s) := by
  induction a generalizing s with
  | zero => exact h
  | succ a ih =>
    unfold drainRetries
    exact ih (dispatchNext_kept h)

theorem completeWhere_kept {s0 s : State} {a b} (h : Kept s0 s) : Kept s0 (completeWhere a b s) := by
  unfold completeWhere
  repeat'
    first | with_reducible assumption | with_reducible apply completeAll_kept | dsimp only |
      with_reducible refine kept_mk ?_ rfl rfl rfl rfl rfl rfl

theorem restartCutting_kept {s0 s : State} (h : Kept s0 s) : Kept s0 (restartCutting s) := by
  unfold restartCutting
  repeat'
    first | with_reducible assumption | with_reducible apply endByRestart_kept | with_reducible apply releaseTrack_kept |
      with_reducible apply completeWhere_kept | with_reducible apply drainRetries_kept |
      with_reducible apply postEvent_kept | with_reducible apply raise_kept |
      with_reducible refine kept_foldl ?_ fun _ _ _ => ?_ | dsimp only

theorem execCutEngineFaultRestart_kept {s0 s : State} (h : Kept s0 s) : KeptOut s0 (execCutEngineFaultRestart s) := by
  unfold execCutEngineFaultRestart
  repeat'
    first | with_reducible assumption | with_reducible apply restartCutting_kept | with_reducible apply keptOut_next |
      dsimp only

theorem execCutJobRelease_kept {s0 s : State} {a} (h : Kept s0 s) : KeptOut s0 (execCutJobRelease a s) := by
  unfold execCutJobRelease
  repeat'
    first | with_reducible assumption | with_reducible apply partialCut_kept | with_reducible apply jobEvent_kept |
      with_reducible apply countCut_kept | with_reducible apply dropJob_kept | with_reducible apply kept_ite |
      with_reducible apply keptOut_ite | with_reducible apply keptOut_next | dsimp only | split

theorem execRingOverwrite_kept {s0 s : State} {a b} (h : Kept s0 s) : KeptOut s0 (execRingOverwrite a b s) := by
  unfold execRingOverwrite
  repeat'
    first | with_reducible assumption | with_reducible apply setCutPlain_kept | with_reducible apply kept_ite |
      with_reducible apply keptOut_ite | with_reducible apply keptOut_next | dsimp only | split |
      with_reducible refine kept_mk ?_ rfl rfl rfl rfl rfl rfl

theorem listFailed_kept {s0 s : State} {a b} (h : Kept s0 s) : Kept s0 (listFailed a b s) := by
  unfold listFailed
  repeat'
    first | with_reducible assumption | with_reducible apply setCutPlain_kept | with_reducible apply countCut_kept |
      with_reducible apply kept_ite | dsimp only | split | with_reducible refine kept_mk ?_ rfl rfl rfl rfl rfl rfl

theorem rememberDecoded_kept {s0 s : State} {a} (h : Kept s0 s) : Kept s0 (rememberDecoded a s) := by
  unfold rememberDecoded
  repeat'
    first | with_reducible assumption | with_reducible apply setCutPlain_kept | dsimp only |
      with_reducible refine kept_mk ?_ rfl rfl rfl rfl rfl rfl

theorem cutSetSpec_kept : KeptSpec (cutSetSpec) := by
  intro s0 s c h
  dsimp only [cutSetSpec, plainSpec, done]
  repeat'
    first | with_reducible assumption | dsimp only | with_reducible refine kept_mk ?_ rfl rfl rfl rfl rfl rfl

theorem execCutSet_kept {s0 s : State} {a} (h : Kept s0 s) : KeptOut s0 (execCutSet a s) := by
  unfold execCutSet
  repeat'
    first | with_reducible assumption | with_reducible apply runCommand_kept | with_reducible exact cutSetSpec_kept |
      dsimp only

theorem cutStatusSpec_kept : KeptSpec (cutStatusSpec) := by
  intro s0 s c h
  dsimp only [cutStatusSpec, plainSpec, doneWith]
  repeat'
    first | with_reducible assumption | dsimp only

theorem execCutStatus_kept {s0 s : State} {a} (h : Kept s0 s) : KeptOut s0 (execCutStatus a s) := by
  unfold execCutStatus
  repeat'
    first | with_reducible assumption | with_reducible apply runCommand_kept | with_reducible exact cutStatusSpec_kept |
      dsimp only

theorem cutRetrySpec_kept : KeptSpec (cutRetrySpec) := by
  intro s0 s c h
  dsimp only [cutRetrySpec, plainSpec, doneWith]
  repeat'
    first | with_reducible assumption | with_reducible apply setJob_kept |
      with_reducible refine kept_foldl ?_ fun _ _ _ => ?_ | dsimp only |
      with_reducible refine kept_mk ?_ rfl rfl rfl rfl rfl rfl

theorem execCutRetry_kept {s0 s : State} {a} (h : Kept s0 s) : KeptOut s0 (execCutRetry a s) := by
  unfold execCutRetry
  repeat'
    first | with_reducible assumption | with_reducible apply runCommand_kept | with_reducible exact cutRetrySpec_kept |
      dsimp only

theorem storeStatusSpec_kept : KeptSpec (storeStatusSpec) := by
  intro s0 s c h
  dsimp only [storeStatusSpec, plainSpec, doneWith]
  repeat'
    first | with_reducible assumption | dsimp only

theorem execStoreStatus_kept {s0 s : State} {a} (h : Kept s0 s) : KeptOut s0 (execStoreStatus a s) := by
  unfold execStoreStatus
  repeat'
    first | with_reducible assumption | with_reducible apply runCommand_kept | with_reducible exact storeStatusSpec_kept |
      dsimp only

theorem spanMarksReadSpec_kept : KeptSpec (spanMarksReadSpec) := by
  intro s0 s c h
  dsimp only [spanMarksReadSpec, plainSpec, doneWith]
  repeat'
    first | with_reducible assumption | dsimp only

theorem execSpanMarksRead_kept {s0 s : State} {a} (h : Kept s0 s) : KeptOut s0 (execSpanMarksRead a s) := by
  unfold execSpanMarksRead
  repeat'
    first | with_reducible assumption | with_reducible apply runCommand_kept | with_reducible exact spanMarksReadSpec_kept |
      dsimp only

theorem cutEngineRestartSpec_kept : KeptSpec (cutEngineRestartSpec) := by
  intro s0 s c h
  dsimp only [cutEngineRestartSpec, plainSpec, doneWith]
  repeat'
    first | with_reducible assumption | with_reducible apply restartCutting_kept | dsimp only

theorem execCutEngineRestart_kept {s0 s : State} {a} (h : Kept s0 s) : KeptOut s0 (execCutEngineRestart a s) := by
  unfold execCutEngineRestart
  repeat'
    first | with_reducible assumption | with_reducible apply runCommand_kept |
      with_reducible exact cutEngineRestartSpec_kept | dsimp only

theorem cutCountersReadSpec_kept : KeptSpec (cutCountersReadSpec) := by
  intro s0 s c h
  dsimp only [cutCountersReadSpec, plainSpec, doneWith]
  repeat'
    first | with_reducible assumption | with_reducible apply setCutPlain_kept | with_reducible apply kept_ite |
      with_reducible apply kept_ite_answer | dsimp only | split | with_reducible refine kept_mk ?_ rfl rfl rfl rfl rfl rfl

theorem execCutCountersRead_kept {s0 s : State} {a} (h : Kept s0 s) : KeptOut s0 (execCutCountersRead a s) := by
  unfold execCutCountersRead
  repeat'
    first | with_reducible assumption | with_reducible apply runCommand_kept |
      with_reducible exact cutCountersReadSpec_kept | dsimp only

end Sys2Proof.Laws
end

