-- ==== Sys2Proof/Laws/KeptCombining.lean ====
section
/-! SUPPORT. What the operations of Machine/Combining.lean keep. -/

namespace Sys2Proof.Laws

open Sys2Proof.Machine Sys2Proof.Safety

set_option linter.unusedTactic false
set_option linter.unreachableTactic false

theorem countComb_kept {s0 s : State} {a} (h : Kept s0 s) : Kept s0 (countComb a s) := by
  unfold countComb
  repeat'
    first | with_reducible assumption | dsimp only | with_reducible refine kept_mk ?_ rfl rfl rfl rfl rfl rfl

theorem setComb_kept {s0 s : State} {a} (h : Kept s0 s) : Kept s0 (setComb a s) := by
  unfold setComb
  repeat'
    first | with_reducible assumption | with_reducible apply kept_ite | dsimp only | split |
      with_reducible refine kept_mk ?_ rfl rfl rfl rfl rfl rfl

theorem openSet_kept {s0 s : State} {a b} (h : Kept s0 s) : Kept s0 (openSet a b s) := by
  unfold openSet
  repeat'
    first | with_reducible assumption | with_reducible apply countComb_kept | dsimp only |
      with_reducible refine kept_mk ?_ rfl rfl rfl rfl rfl rfl

theorem joinSet_kept {s0 s : State} {a b c} (h : Kept s0 s) : Kept s0 (joinSet a b c s) := by
  unfold joinSet
  repeat'
    first | with_reducible assumption | with_reducible apply raise_kept | with_reducible apply countComb_kept |
      with_reducible apply setComb_kept | with_reducible apply kept_ite | dsimp only | split |
      with_reducible refine kept_mk ?_ rfl rfl rfl rfl rfl rfl

theorem takeReport_kept {s0 s : State} {a b} (h : Kept s0 s) : Kept s0 (takeReport a b s) := by
  unfold takeReport
  repeat'
    first | with_reducible assumption | with_reducible apply countComb_kept | with_reducible apply joinSet_kept |
      with_reducible apply openSet_kept | with_reducible apply kept_ite | dsimp only | split

theorem stampReport_kept {s0 s : State} {a b} (h : Kept s0 s) : Kept s0 (stampReport a b s) := by
  unfold stampReport
  repeat'
    first | with_reducible assumption | dsimp only | with_reducible refine kept_mk ?_ rfl rfl rfl rfl rfl rfl

theorem resolveReports_kept {s0 s : State} (h : Kept s0 s) : Kept s0 (resolveReports s) := by
  unfold resolveReports
  repeat'
    first | with_reducible assumption | with_reducible apply takeReport_kept |
      with_reducible refine kept_foldl ?_ fun _ _ _ => ?_ | dsimp only |
      with_reducible refine kept_mk ?_ rfl rfl rfl rfl rfl rfl

theorem execCombiningReport_kept {s0 s : State} {a b} (h : Kept s0 s) : KeptOut s0 (execCombiningReport a b s) := by
  unfold execCombiningReport
  repeat'
    first | with_reducible assumption | with_reducible apply mirrorHerd_kept | with_reducible apply countComb_kept |
      with_reducible apply stampReport_kept | with_reducible apply keptOut_next | dsimp only | split

theorem sendReport_kept {s0 s : State} {a} (h : Kept s0 s) : Kept s0 (sendReport a s).2 := by
  unfold sendReport
  repeat'
    first | with_reducible assumption | with_reducible apply countComb_kept | with_reducible apply stampReport_kept |
      with_reducible apply originate_kept | with_reducible apply kept_ite | with_reducible apply kept_ite_snd | dsimp only |
      split | with_reducible refine kept_mk ?_ rfl rfl rfl rfl rfl rfl

theorem takeNotice_kept {s0 s : State} {a} (h : Kept s0 s) : Kept s0 (takeNotice a s) := by
  unfold takeNotice
  repeat'
    first | with_reducible assumption | with_reducible apply offerCut_kept | with_reducible apply dropFailed_kept |
      with_reducible refine kept_of_snd (by assumption) ?_ | dsimp only | split |
      with_reducible refine kept_mk ?_ rfl rfl rfl rfl rfl rfl

theorem sendNotice_kept {s0 s : State} {a b c} (h : Kept s0 s) : Kept s0 (sendNotice a b c s) := by
  unfold sendNotice
  repeat'
    first | with_reducible assumption | with_reducible apply takeNotice_kept | with_reducible apply originate_kept |
      with_reducible apply kept_ite | dsimp only | split | with_reducible refine kept_mk ?_ rfl rfl rfl rfl rfl rfl

theorem combined_kept {s0 s : State} {a b c d} (h : Kept s0 s) : Kept s0 (combined a b c d s) := by
  unfold combined
  repeat'
    first | with_reducible assumption | with_reducible apply countComb_kept | with_reducible apply setComb_kept |
      with_reducible apply sendNotice_kept | with_reducible apply joinOwn_kept |
      with_reducible refine kept_foldl ?_ fun _ _ _ => ?_ | dsimp only |
      with_reducible refine kept_mk ?_ rfl rfl rfl rfl rfl rfl

theorem execCombineDecodeResult_kept {s0 s : State} {a b} (h : Kept s0 s) : KeptOut s0 (execCombineDecodeResult a b s) := by
  unfold execCombineDecodeResult
  repeat'
    first | with_reducible assumption | with_reducible apply combined_kept | with_reducible apply setComb_kept |
      with_reducible apply kept_ite | with_reducible apply keptOut_ite | with_reducible apply keptOut_next | dsimp only |
      split | with_reducible refine kept_mk ?_ rfl rfl rfl rfl rfl rfl

theorem execCombineWindowExpiry_kept {s0 s : State} {a} (h : Kept s0 s) : KeptOut s0 (execCombineWindowExpiry a s) := by
  unfold execCombineWindowExpiry
  repeat'
    first | with_reducible assumption | with_reducible apply countComb_kept | with_reducible apply setComb_kept |
      with_reducible apply kept_ite | with_reducible apply keptOut_ite | with_reducible apply keptOut_next | dsimp only |
      split | with_reducible refine kept_mk ?_ rfl rfl rfl rfl rfl rfl

theorem execCutNotice_kept {s0 s : State} {a} (h : Kept s0 s) : KeptOut s0 (execCutNotice a s) := by
  unfold execCutNotice
  repeat'
    first | with_reducible assumption | with_reducible apply mirrorHerd_kept | with_reducible apply takeNotice_kept |
      with_reducible apply keptOut_next | dsimp only | split

theorem discardSets_kept {s0 s : State} (h : Kept s0 s) : Kept s0 (discardSets s) := by
  unfold discardSets
  repeat'
    first | with_reducible assumption | dsimp only | with_reducible refine kept_mk ?_ rfl rfl rfl rfl rfl rfl

theorem combineSetSpec_kept : KeptSpec (combineSetSpec) := by
  intro s0 s c h
  dsimp only [combineSetSpec, plainSpec, done]
  repeat'
    first | with_reducible assumption | with_reducible apply discardSets_kept | dsimp only |
      with_reducible refine kept_mk ?_ rfl rfl rfl rfl rfl rfl

theorem execCombineSet_kept {s0 s : State} {a} (h : Kept s0 s) : KeptOut s0 (execCombineSet a s) := by
  unfold execCombineSet
  repeat'
    first | with_reducible assumption | with_reducible apply runCommand_kept | with_reducible exact combineSetSpec_kept |
      dsimp only

theorem combineStatusSpec_kept : KeptSpec (combineStatusSpec) := by
  intro s0 s c h
  dsimp only [combineStatusSpec, plainSpec, doneWith]
  repeat'
    first | with_reducible assumption | dsimp only

theorem execCombineStatus_kept {s0 s : State} {a} (h : Kept s0 s) : KeptOut s0 (execCombineStatus a s) := by
  unfold execCombineStatus
  repeat'
    first | with_reducible assumption | with_reducible apply runCommand_kept | with_reducible exact combineStatusSpec_kept |
      dsimp only

theorem combineCountersReadSpec_kept : KeptSpec (combineCountersReadSpec) := by
  intro s0 s c h
  dsimp only [combineCountersReadSpec, plainSpec, doneWith]
  repeat'
    first | with_reducible assumption | with_reducible apply kept_ite | with_reducible apply kept_ite_answer | dsimp only |
      split | with_reducible refine kept_mk ?_ rfl rfl rfl rfl rfl rfl

theorem execCombineCountersRead_kept {s0 s : State} {a} (h : Kept s0 s) : KeptOut s0 (execCombineCountersRead a s) := by
  unfold execCombineCountersRead
  repeat'
    first | with_reducible assumption | with_reducible apply runCommand_kept |
      with_reducible exact combineCountersReadSpec_kept | dsimp only

end Sys2Proof.Laws
end

