-- ==== Sys2Proof/Laws/KeptWithdraw.lean ====
section
/-! SUPPORT. What the operations of Machine/Withdraw.lean keep. -/

namespace Sys2Proof.Laws

open Sys2Proof.Machine Sys2Proof.Safety

set_option linter.unusedTactic false
set_option linter.unreachableTactic false

theorem endTrack_kept {s0 s : State} {a b c} (h : Kept s0 s) : Kept s0 (endTrack a b c s) := by
  unfold endTrack
  repeat'
    first | with_reducible assumption | with_reducible apply postFailed_kept | with_reducible apply releaseTrack_kept |
      dsimp only | with_reducible refine kept_mk ?_ rfl rfl rfl rfl rfl rfl

theorem abortTrack_kept {s0 s : State} {a} (h : Kept s0 s) : Kept s0 (abortTrack a s) := by
  unfold abortTrack
  repeat'
    first | with_reducible assumption | with_reducible apply endTrack_kept | with_reducible apply countRx_kept | dsimp only

theorem abortTracks_kept {s0 s : State} {a} (h : Kept s0 s) : Kept s0 (abortTracks a s) := by
  unfold abortTracks
  repeat'
    first | with_reducible assumption | with_reducible apply abortTrack_kept |
      with_reducible refine kept_foldl ?_ fun _ _ _ => ?_ | dsimp only

theorem lanesDown_kept {s0 s : State} {a} (h : Kept s0 s) : Kept s0 (lanesDown a s) := by
  unfold lanesDown
  repeat'
    first | with_reducible assumption | with_reducible apply setPort_kept |
      with_reducible refine kept_foldl ?_ fun _ _ _ => ?_ | dsimp only |
      with_reducible refine kept_mk ?_ rfl rfl rfl rfl rfl rfl

theorem disablePlain_kept {s0 s : State} {a} (h : Kept s0 s) : Kept s0 (disablePlain a s) := by
  unfold disablePlain
  repeat'
    first | with_reducible assumption | with_reducible apply refreshMode_kept | with_reducible apply repartition_kept |
      with_reducible apply lanesDown_kept | with_reducible apply setPlainCfg_kept | with_reducible apply kept_ite |
      dsimp only | split | with_reducible refine kept_mk ?_ rfl rfl rfl rfl rfl rfl

theorem withdrawalDone_kept {s0 s : State} {a} (h : Kept s0 s) : Kept s0 (withdrawalDone a s) := by
  unfold withdrawalDone
  repeat'
    first | with_reducible assumption | with_reducible apply disablePlain_kept | with_reducible apply refreshMode_kept |
      with_reducible apply changePlain_kept | with_reducible apply markTracks_kept | with_reducible apply postEvent_kept |
      with_reducible refine kept_foldl ?_ fun _ _ _ => ?_ | dsimp only | split |
      with_reducible refine kept_mk ?_ rfl rfl rfl rfl rfl rfl

theorem withdrawalEvent_kept {s0 s : State} {a} (h : Kept s0 s) : Kept s0 (withdrawalEvent a s) := by
  unfold withdrawalEvent
  repeat'
    first | with_reducible assumption | with_reducible apply postEvent_kept | dsimp only | split

theorem finishWithdrawal_kept {s0 s : State} {a} (h : Kept s0 s) : Kept s0 (finishWithdrawal a s) := by
  unfold finishWithdrawal
  repeat'
    first | with_reducible assumption | with_reducible apply withdrawalEvent_kept |
      with_reducible apply withdrawalDone_kept | dsimp only | with_reducible refine kept_mk ?_ rfl rfl rfl rfl rfl rfl

theorem beginWithdrawal_kept {s0 s : State} {a b} (h : Kept s0 s) : Kept s0 (beginWithdrawal a b s).state := by
  unfold beginWithdrawal doneWith runsOn done
  repeat'
    first | with_reducible assumption | with_reducible apply abortTracks_kept | with_reducible apply finishWithdrawal_kept |
      with_reducible apply kept_ite | with_reducible apply kept_ite_answer | dsimp only | split |
      with_reducible refine kept_mk ?_ rfl rfl rfl rfl rfl rfl

theorem closeWithdrawal_kept {s0 s : State} {a} (h : Kept s0 s) : Kept s0 (closeWithdrawal a s) := by
  unfold closeWithdrawal
  repeat'
    first | with_reducible assumption | with_reducible apply complete_kept | with_reducible apply finishWithdrawal_kept |
      dsimp only

theorem execWithdrawalDrainComplete_kept {s0 s : State} {a b} (h : Kept s0 s) : KeptOut s0 (execWithdrawalDrainComplete a b
      s) := by
  unfold execWithdrawalDrainComplete
  repeat'
    first | with_reducible assumption | with_reducible apply closeWithdrawal_kept | with_reducible apply kept_ite |
      with_reducible apply keptOut_ite | with_reducible apply keptOut_next | dsimp only | split

theorem timeOut_kept {s0 s : State} {a} (h : Kept s0 s) : Kept s0 (timeOut a s) := by
  unfold timeOut
  repeat'
    first | with_reducible assumption | with_reducible apply abortTracks_kept | with_reducible apply kept_ite | dsimp only |
      split | with_reducible refine kept_mk ?_ rfl rfl rfl rfl rfl rfl

theorem execWithdrawalDrainTimeout_kept {s0 s : State} {a b} (h : Kept s0 s) : KeptOut s0 (execWithdrawalDrainTimeout a b s)
      := by
  unfold execWithdrawalDrainTimeout
  repeat'
    first | with_reducible assumption | with_reducible apply timeOut_kept | with_reducible apply closeWithdrawal_kept |
      with_reducible apply kept_ite | with_reducible apply keptOut_ite | with_reducible apply keptOut_next | dsimp only |
      split

theorem abortWithdrawal_kept {s0 s : State} {a} (h : Kept s0 s) : Kept s0 (abortWithdrawal a s) := by
  unfold abortWithdrawal
  repeat'
    first | with_reducible assumption | with_reducible apply refreshMode_kept | with_reducible apply changePlain_kept |
      with_reducible apply kept_ite | dsimp only | split | with_reducible refine kept_mk ?_ rfl rfl rfl rfl rfl rfl

end Sys2Proof.Laws
end

