-- ==== Sys2Proof/Laws/KeptTracks.lean ====
section
/-! SUPPORT. What the operations of Machine/Tracks.lean keep. -/

namespace Sys2Proof.Laws

open Sys2Proof.Machine Sys2Proof.Safety

set_option linter.unusedTactic false
set_option linter.unreachableTactic false

theorem declare_kept {s0 s : State} {a} (h : Kept s0 s) : Kept s0 (declare a s) := by
  unfold declare
  repeat'
    first | with_reducible assumption | with_reducible apply modTrack_kept | with_reducible apply countRx_kept |
      with_reducible apply noteActivity_kept | with_reducible apply claimTrack_kept | with_reducible apply raise_kept |
      with_reducible apply kept_ite | dsimp only | split | with_reducible refine kept_mk ?_ rfl rfl rfl rfl rfl rfl

theorem execDetection_kept {s0 s : State} {a} (h : Kept s0 s) : KeptOut s0 (execDetection a s) := by
  unfold execDetection
  repeat'
    first | with_reducible assumption | with_reducible apply addPend_kept | with_reducible apply keptOut_next | dsimp only |
      split | with_reducible refine kept_mk ?_ rfl rfl rfl rfl rfl rfl

theorem settlePend_kept {s0 s : State} {a} (h : Kept s0 s) : Kept s0 (settlePend a s) := by
  unfold settlePend
  repeat'
    first | with_reducible assumption | with_reducible apply claimResidue_kept | with_reducible apply declare_kept |
      with_reducible apply kept_ite | dsimp only | split

theorem resolveDetections_kept {s0 s : State} (h : Kept s0 s) : Kept s0 (resolveDetections s) := by
  unfold resolveDetections
  repeat'
    first | with_reducible assumption | with_reducible apply settlePend_kept |
      with_reducible refine kept_foldl ?_ fun _ _ _ => ?_ | dsimp only |
      with_reducible refine kept_mk ?_ rfl rfl rfl rfl rfl rfl

theorem execPreambleTimeout_kept {s0 s : State} {a} (h : Kept s0 s) : KeptOut s0 (execPreambleTimeout a s) := by
  unfold execPreambleTimeout
  repeat'
    first | with_reducible assumption | with_reducible apply releaseTrack_kept | with_reducible apply countRx_kept |
      with_reducible apply kept_ite | with_reducible apply keptOut_ite | with_reducible apply keptOut_next | dsimp only |
      split

theorem execSyncDecision_kept {s0 s : State} {a b c d} (h : Kept s0 s) : KeptOut s0 (execSyncDecision a b c d s) := by
  unfold execSyncDecision
  repeat'
    first | with_reducible assumption | with_reducible apply modTrack_kept | with_reducible apply releaseTrack_kept |
      with_reducible apply countRx_kept | with_reducible apply kept_ite | with_reducible apply keptOut_ite |
      with_reducible apply keptOut_next | dsimp only | split | with_reducible refine kept_mk ?_ rfl rfl rfl rfl rfl rfl

theorem headerInvalid_kept {s0 s : State} {a} (h : Kept s0 s) : Kept s0 (headerInvalid a s) := by
  unfold headerInvalid
  repeat'
    first | with_reducible assumption | with_reducible apply countRx_kept | with_reducible apply releaseTrack_kept |
      with_reducible apply postFailed_kept | with_reducible apply listFailed_kept | dsimp only

theorem discardResidue_kept {s0 s : State} {a b} (h : Kept s0 s) : Kept s0 (discardResidue a b s) := by
  unfold discardResidue
  repeat'
    first | with_reducible assumption | with_reducible apply countCut_kept | dsimp only

theorem execHeaderResult_kept {s0 s : State} {a b} (h : Kept s0 s) : KeptOut s0 (execHeaderResult a b s) := by
  unfold execHeaderResult
  repeat'
    first | with_reducible assumption | with_reducible apply modTrack_kept | with_reducible apply discardResidue_kept |
      with_reducible apply releaseTrack_kept | with_reducible apply headerInvalid_kept | with_reducible apply kept_ite |
      with_reducible apply keptOut_ite | with_reducible apply keptOut_next | dsimp only | split

theorem execPilot_kept {s0 s : State} {a b c} (h : Kept s0 s) : KeptOut s0 (execPilot a b c s) := by
  unfold execPilot
  repeat'
    first | with_reducible assumption | with_reducible apply modTrack_kept | with_reducible apply kept_ite |
      with_reducible apply keptOut_ite | with_reducible apply keptOut_next | dsimp only | split

theorem enterDecoder_kept {s0 s : State} {a} (h : Kept s0 s) : Kept s0 (enterDecoder a s) := by
  unfold enterDecoder
  repeat'
    first | with_reducible assumption | with_reducible apply releaseTrack_kept | dsimp only |
      with_reducible refine kept_mk ?_ rfl rfl rfl rfl rfl rfl

theorem execTrackLastSymbol_kept {s0 s : State} {a b} (h : Kept s0 s) : KeptOut s0 (execTrackLastSymbol a b s) := by
  unfold execTrackLastSymbol
  repeat'
    first | with_reducible assumption | with_reducible apply enterDecoder_kept | with_reducible apply modTrack_kept |
      with_reducible apply kept_ite | with_reducible apply keptOut_ite | with_reducible apply keptOut_next | dsimp only |
      split

theorem enterAttempt_kept {s0 s : State} (h : Kept s0 s) : Kept s0 (enterAttempt s) := by
  unfold enterAttempt
  repeat'
    first | with_reducible assumption | with_reducible apply setComb_kept | dsimp only | split |
      with_reducible refine kept_mk ?_ rfl rfl rfl rfl rfl rfl

theorem execDecoderQueueEntry_kept {s0 s : State} (h : Kept s0 s) : KeptOut s0 (execDecoderQueueEntry s) := by
  unfold execDecoderQueueEntry
  repeat'
    first | with_reducible assumption | with_reducible apply enterDecoder_kept | with_reducible apply enterAttempt_kept |
      with_reducible apply kept_ite | with_reducible apply keptOut_ite | with_reducible apply keptOut_next | dsimp only |
      split | with_reducible refine kept_mk ?_ rfl rfl rfl rfl rfl rfl

theorem decodedLive_kept {s0 s : State} {a} (h : Kept s0 s) : Kept s0 (decodedLive a s) := by
  unfold decodedLive
  repeat'
    first | with_reducible assumption | with_reducible apply offerCut_kept | with_reducible apply takeSeq_kept |
      with_reducible apply rememberDecoded_kept | with_reducible apply countRx_kept | with_reducible apply joinLink_kept |
      dsimp only | with_reducible refine kept_mk ?_ rfl rfl rfl rfl rfl rfl

theorem payloadFailed_kept {s0 s : State} {a} (h : Kept s0 s) : Kept s0 (payloadFailed a s) := by
  unfold payloadFailed
  repeat'
    first | with_reducible assumption | with_reducible apply sendReport_kept | with_reducible apply countRx_kept |
      with_reducible apply listFailed_kept | with_reducible apply postFailed_kept | dsimp only |
      with_reducible refine kept_mk ?_ rfl rfl rfl rfl rfl rfl

theorem decoded_kept {s0 s : State} {a b} (h : Kept s0 s) : Kept s0 (decoded a b s) := by
  unfold decoded
  repeat'
    first | with_reducible assumption | with_reducible apply joinOwn_kept | with_reducible apply decodedLive_kept |
      with_reducible apply discardResidue_kept | with_reducible apply payloadFailed_kept | with_reducible apply kept_ite |
      dsimp only | split | with_reducible refine kept_mk ?_ rfl rfl rfl rfl rfl rfl

theorem execDecoderResult_kept {s0 s : State} {a} (h : Kept s0 s) : KeptOut s0 (execDecoderResult a s) := by
  unfold execDecoderResult
  repeat'
    first | with_reducible assumption | with_reducible apply decoded_kept | with_reducible apply keptOut_next | dsimp only |
      split | with_reducible refine kept_mk ?_ rfl rfl rfl rfl rfl rfl

theorem execDecoderSelfCheck_kept {s0 s : State} {a} (h : Kept s0 s) : KeptOut s0 (execDecoderSelfCheck a s) := by
  unfold execDecoderSelfCheck
  repeat'
    first | with_reducible assumption | with_reducible apply selfTest_kept | with_reducible apply raise_kept |
      with_reducible apply kept_ite | with_reducible apply keptOut_ite | with_reducible apply keptOut_next | dsimp only |
      split | with_reducible refine kept_mk ?_ rfl rfl rfl rfl rfl rfl

theorem clockLossTracks_kept {s0 s : State} (h : Kept s0 s) : Kept s0 (clockLossTracks s) := by
  unfold clockLossTracks
  repeat'
    first | with_reducible assumption | with_reducible apply stopRing_kept | with_reducible apply endTrack_kept |
      with_reducible refine kept_foldl ?_ fun _ _ _ => ?_ | dsimp only

end Sys2Proof.Laws
end

