-- ==== Sys2Proof/Laws/KeptRadioCtl.lean ====
section
/-! SUPPORT. What the operations of Machine/RadioCtl.lean keep. -/

namespace Sys2Proof.Laws

open Sys2Proof.Machine Sys2Proof.Safety

set_option linter.unusedTactic false
set_option linter.unreachableTactic false

theorem setTxCfg_kept {s0 s : State} {b c} (h : Kept s0 s) : Kept s0 (setTxCfg s b c) := by
  unfold setTxCfg
  repeat'
    first | with_reducible assumption | dsimp only | with_reducible refine kept_mk ?_ rfl rfl rfl rfl rfl rfl

theorem setTxRun_kept {s0 s : State} {b c} (h : Kept s0 s) : Kept s0 (setTxRun s b c) := by
  unfold setTxRun
  repeat'
    first | with_reducible assumption | dsimp only | with_reducible refine kept_mk ?_ rfl rfl rfl rfl rfl rfl

theorem countTx_kept {s0 s : State} {a b c} (h : Kept s0 s) : Kept s0 (countTx a b c s) := by
  unfold countTx
  repeat'
    first | with_reducible assumption | with_reducible apply setTxRun_kept | dsimp only |
      with_reducible refine kept_mk ?_ rfl rfl rfl rfl rfl rfl

theorem txChange_kept {s0 s : State} {a b} (h : Kept s0 s) : Kept s0 (txChange a b s) := by
  unfold txChange
  repeat'
    first | with_reducible assumption | with_reducible apply setTxRun_kept | dsimp only |
      with_reducible refine kept_mk ?_ rfl rfl rfl rfl rfl rfl

theorem setRck_kept {s0 s : State} {b c} (h : Kept s0 s) : Kept s0 (setRck s b c) := by
  unfold setRck
  repeat'
    first | with_reducible assumption | dsimp only | with_reducible refine kept_mk ?_ rfl rfl rfl rfl rfl rfl

theorem queueScript_kept {s0 s : State} {a b} (h : Kept s0 s) : Kept s0 (queueScript a b s) := by
  unfold queueScript
  repeat'
    first | with_reducible assumption | with_reducible apply setPort_kept | dsimp only |
      with_reducible refine kept_mk ?_ rfl rfl rfl rfl rfl rfl

theorem execPortScriptStart_kept {s0 s : State} {a} (h : Kept s0 s) : KeptOut s0 (execPortScriptStart a s) := by
  unfold execPortScriptStart
  repeat'
    first | with_reducible assumption | with_reducible apply setPort_kept | with_reducible apply keptOut_next | dsimp only |
      split | with_reducible refine kept_mk ?_ rfl rfl rfl rfl rfl rfl

theorem scriptFault_kept {s0 s : State} {a b c} (h : Kept s0 s) : Kept s0 (scriptFault a b c s) := by
  unfold scriptFault
  repeat'
    first | with_reducible assumption | with_reducible apply setPort_kept | with_reducible apply postEvent_kept |
      with_reducible apply raise_kept | dsimp only | split | with_reducible refine kept_mk ?_ rfl rfl rfl rfl rfl rfl

theorem sendFrames_kept {s0 s : State} {a b} (h : Kept s0 s) : Kept s0 (sendFrames a b s) := by
  unfold sendFrames
  repeat'
    first | with_reducible assumption | with_reducible apply kept_ite | dsimp only | split |
      with_reducible refine kept_mk ?_ rfl rfl rfl rfl rfl rfl

theorem settleSeq_kept {s0 s : State} {a} (h : Kept s0 s) : Kept s0 (settleSeq a s) := by
  unfold settleSeq
  repeat'
    first | with_reducible assumption | with_reducible apply setPort_kept |
      with_reducible refine kept_foldl ?_ fun _ _ _ => ?_ | dsimp only |
      with_reducible refine kept_mk ?_ rfl rfl rfl rfl rfl rfl

theorem rckStart_kept {s0 s : State} {a} (h : Kept s0 s) : Kept s0 (rckStart a s) := by
  unfold rckStart
  repeat'
    first | with_reducible assumption | with_reducible apply setRck_kept | with_reducible apply kept_ite | dsimp only |
      split | with_reducible refine kept_mk ?_ rfl rfl rfl rfl rfl rfl

theorem returnDone_kept {s0 s : State} {a} (h : Kept s0 s) : Kept s0 (returnDone a s) := by
  unfold returnDone
  repeat'
    first | with_reducible assumption | with_reducible apply rckStart_kept | with_reducible apply settleSeq_kept |
      with_reducible apply setTxRun_kept | with_reducible apply kept_ite | dsimp only | split |
      with_reducible refine kept_mk ?_ rfl rfl rfl rfl rfl rfl

theorem radioSpiSetSpec_kept : KeptSpec (radioSpiSetSpec) := by
  intro s0 s c h
  dsimp only [radioSpiSetSpec, plainSpec, done]
  repeat'
    first | with_reducible assumption | with_reducible apply setPortCfg_kept | dsimp only |
      with_reducible refine kept_mk ?_ rfl rfl rfl rfl rfl rfl

theorem execRadioSpiSet_kept {s0 s : State} {a} (h : Kept s0 s) : KeptOut s0 (execRadioSpiSet a s) := by
  unfold execRadioSpiSet
  repeat'
    first | with_reducible assumption | with_reducible apply runCommand_kept | with_reducible exact radioSpiSetSpec_kept |
      dsimp only

theorem radioScriptRunSpec_kept : KeptSpec (radioScriptRunSpec) := by
  intro s0 s c h
  dsimp only [radioScriptRunSpec, plainSpec, runsOn]
  repeat'
    first | with_reducible assumption | with_reducible apply queueScript_kept | dsimp only |
      with_reducible refine kept_mk ?_ rfl rfl rfl rfl rfl rfl

theorem execRadioScriptRun_kept {s0 s : State} {a} (h : Kept s0 s) : KeptOut s0 (execRadioScriptRun a s) := by
  unfold execRadioScriptRun
  repeat'
    first | with_reducible assumption | with_reducible apply runCommand_kept | with_reducible exact radioScriptRunSpec_kept |
      dsimp only

theorem calWriteSpec_kept : KeptSpec (calWriteSpec) := by
  intro s0 s c h
  dsimp only [calWriteSpec, plainSpec, done]
  repeat'
    first | with_reducible assumption | with_reducible apply setPortCfg_kept | dsimp only |
      with_reducible refine kept_mk ?_ rfl rfl rfl rfl rfl rfl

theorem execCalWrite_kept {s0 s : State} {a} (h : Kept s0 s) : KeptOut s0 (execCalWrite a s) := by
  unfold execCalWrite
  repeat'
    first | with_reducible assumption | with_reducible apply runCommand_kept | with_reducible exact calWriteSpec_kept |
      dsimp only

theorem calReadSpec_kept : KeptSpec (calReadSpec) := by
  intro s0 s c h
  dsimp only [calReadSpec, plainSpec, doneWith]
  repeat'
    first | with_reducible assumption | dsimp only

theorem execCalRead_kept {s0 s : State} {a} (h : Kept s0 s) : KeptOut s0 (execCalRead a s) := by
  unfold execCalRead
  repeat'
    first | with_reducible assumption | with_reducible apply runCommand_kept | with_reducible exact calReadSpec_kept |
      dsimp only

theorem plainTuneSpec_kept : KeptSpec (plainTuneSpec) := by
  intro s0 s c h
  dsimp only [plainTuneSpec, plainSpec, done]
  repeat'
    first | with_reducible assumption | with_reducible apply setPlainCfg_kept | with_reducible apply setTxRun_kept |
      with_reducible apply queueScript_kept | with_reducible refine kept_foldl ?_ fun _ _ _ => ?_ | dsimp only |
      with_reducible refine kept_mk ?_ rfl rfl rfl rfl rfl rfl

theorem execPlainTune_kept {s0 s : State} {a} (h : Kept s0 s) : KeptOut s0 (execPlainTune a s) := by
  unfold execPlainTune
  repeat'
    first | with_reducible assumption | with_reducible apply runCommand_kept | with_reducible exact plainTuneSpec_kept |
      dsimp only

theorem gainScriptSetSpec_kept : KeptSpec (gainScriptSetSpec) := by
  intro s0 s c h
  dsimp only [gainScriptSetSpec, plainSpec, done]
  repeat'
    first | with_reducible assumption | with_reducible apply setChainCfg_kept | dsimp only |
      with_reducible refine kept_mk ?_ rfl rfl rfl rfl rfl rfl

theorem execGainScriptSet_kept {s0 s : State} {a} (h : Kept s0 s) : KeptOut s0 (execGainScriptSet a s) := by
  unfold execGainScriptSet
  repeat'
    first | with_reducible assumption | with_reducible apply runCommand_kept | with_reducible exact gainScriptSetSpec_kept |
      dsimp only

theorem gainSetSpec_kept : KeptSpec (gainSetSpec) := by
  intro s0 s c h
  dsimp only [gainSetSpec, plainSpec, runsOn]
  repeat'
    first | with_reducible assumption | with_reducible apply queueScript_kept | dsimp only | split |
      with_reducible refine kept_mk ?_ rfl rfl rfl rfl rfl rfl

theorem execGainSet_kept {s0 s : State} {a} (h : Kept s0 s) : KeptOut s0 (execGainSet a s) := by
  unfold execGainSet
  repeat'
    first | with_reducible assumption | with_reducible apply runCommand_kept | with_reducible exact gainSetSpec_kept |
      dsimp only

theorem gainGetSpec_kept : KeptSpec (gainGetSpec) := by
  intro s0 s c h
  dsimp only [gainGetSpec, plainSpec, doneWith]
  repeat'
    first | with_reducible assumption | dsimp only

theorem execGainGet_kept {s0 s : State} {a} (h : Kept s0 s) : KeptOut s0 (execGainGet a s) := by
  unfold execGainGet
  repeat'
    first | with_reducible assumption | with_reducible apply runCommand_kept | with_reducible exact gainGetSpec_kept |
      dsimp only

theorem returnSetSpec_kept : KeptSpec (returnSetSpec) := by
  intro s0 s c h
  dsimp only [returnSetSpec, plainSpec, done]
  repeat'
    first | with_reducible assumption | with_reducible apply setPortCfg_kept | dsimp only |
      with_reducible refine kept_mk ?_ rfl rfl rfl rfl rfl rfl

theorem execReturnSet_kept {s0 s : State} {a} (h : Kept s0 s) : KeptOut s0 (execReturnSet a s) := by
  unfold execReturnSet
  repeat'
    first | with_reducible assumption | with_reducible apply runCommand_kept | with_reducible exact returnSetSpec_kept |
      dsimp only

theorem txPortSetSpec_kept : KeptSpec (txPortSetSpec) := by
  intro s0 s c h
  dsimp only [txPortSetSpec, plainSpec, done]
  repeat'
    first | with_reducible assumption | with_reducible apply setPortCfg_kept | dsimp only |
      with_reducible refine kept_mk ?_ rfl rfl rfl rfl rfl rfl

theorem execTxPortSet_kept {s0 s : State} {a} (h : Kept s0 s) : KeptOut s0 (execTxPortSet a s) := by
  unfold execTxPortSet
  repeat'
    first | with_reducible assumption | with_reducible apply runCommand_kept | with_reducible exact txPortSetSpec_kept |
      dsimp only

theorem txPlainSetSpec_kept : KeptSpec (txPlainSetSpec) := by
  intro s0 s c h
  dsimp only [txPlainSetSpec, plainSpec, done]
  repeat'
    first | with_reducible assumption | with_reducible apply txChange_kept | dsimp only |
      with_reducible refine kept_mk ?_ rfl rfl rfl rfl rfl rfl

theorem execTxPlainSet_kept {s0 s : State} {a} (h : Kept s0 s) : KeptOut s0 (execTxPlainSet a s) := by
  unfold execTxPlainSet
  repeat'
    first | with_reducible assumption | with_reducible apply runCommand_kept | with_reducible exact txPlainSetSpec_kept |
      dsimp only

theorem txDefaultsSetSpec_kept : KeptSpec (txDefaultsSetSpec) := by
  intro s0 s c h
  dsimp only [txDefaultsSetSpec, plainSpec, done]
  repeat'
    first | with_reducible assumption | with_reducible apply txChange_kept | dsimp only |
      with_reducible refine kept_mk ?_ rfl rfl rfl rfl rfl rfl

theorem execTxDefaultsSet_kept {s0 s : State} {a} (h : Kept s0 s) : KeptOut s0 (execTxDefaultsSet a s) := by
  unfold execTxDefaultsSet
  repeat'
    first | with_reducible assumption | with_reducible apply runCommand_kept | with_reducible exact txDefaultsSetSpec_kept |
      dsimp only

theorem sampleGrants_kept {s0 s : State} (h : Kept s0 s) : Kept s0 (sampleGrants s) := by
  unfold sampleGrants
  repeat'
    first | with_reducible assumption | dsimp only | with_reducible refine kept_mk ?_ rfl rfl rfl rfl rfl rfl

theorem coexStatusSpec_kept : KeptSpec (coexStatusSpec) := by
  intro s0 s c h
  dsimp only [coexStatusSpec, plainSpec, doneWith]
  repeat'
    first | with_reducible assumption | with_reducible apply sampleGrants_kept | dsimp only

theorem execCoexStatus_kept {s0 s : State} {a} (h : Kept s0 s) : KeptOut s0 (execCoexStatus a s) := by
  unfold execCoexStatus
  repeat'
    first | with_reducible assumption | with_reducible apply runCommand_kept | with_reducible exact coexStatusSpec_kept |
      dsimp only

theorem rckStoreSpec_kept : KeptSpec (rckStoreSpec) := by
  intro s0 s c h
  dsimp only [rckStoreSpec, plainSpec, done]
  repeat'
    first | with_reducible assumption | with_reducible apply setRck_kept | dsimp only |
      with_reducible refine kept_mk ?_ rfl rfl rfl rfl rfl rfl

theorem execRckStore_kept {s0 s : State} {a} (h : Kept s0 s) : KeptOut s0 (execRckStore a s) := by
  unfold execRckStore
  repeat'
    first | with_reducible assumption | with_reducible apply runCommand_kept | with_reducible exact rckStoreSpec_kept |
      dsimp only

theorem rckSelectSpec_kept : KeptSpec (rckSelectSpec) := by
  intro s0 s c h
  dsimp only [rckSelectSpec, plainSpec, runsOn]
  repeat'
    first | with_reducible assumption | with_reducible apply rckStart_kept | with_reducible apply setRck_kept | dsimp only |
      with_reducible refine kept_mk ?_ rfl rfl rfl rfl rfl rfl

theorem execRckSelect_kept {s0 s : State} {a} (h : Kept s0 s) : KeptOut s0 (execRckSelect a s) := by
  unfold execRckSelect
  repeat'
    first | with_reducible assumption | with_reducible apply runCommand_kept | with_reducible exact rckSelectSpec_kept |
      dsimp only

theorem rckStatusSpec_kept : KeptSpec (rckStatusSpec) := by
  intro s0 s c h
  dsimp only [rckStatusSpec, plainSpec, doneWith]
  repeat'
    first | with_reducible assumption | dsimp only

theorem execRckStatus_kept {s0 s : State} {a} (h : Kept s0 s) : KeptOut s0 (execRckStatus a s) := by
  unfold execRckStatus
  repeat'
    first | with_reducible assumption | with_reducible apply runCommand_kept | with_reducible exact rckStatusSpec_kept |
      dsimp only

theorem execRckHopLock_kept {s0 s : State} {a b} (h : Kept s0 s) : KeptOut s0 (execRckHopLock a b s) := by
  unfold execRckHopLock
  repeat'
    first | with_reducible assumption | with_reducible apply rckStart_kept | with_reducible apply setRck_kept |
      with_reducible apply complete_kept | with_reducible apply kept_ite | with_reducible apply keptOut_ite |
      with_reducible apply keptOut_next | dsimp only | split | with_reducible refine kept_mk ?_ rfl rfl rfl rfl rfl rfl

theorem execRckUnlock_kept {s0 s : State} {a} (h : Kept s0 s) : KeptOut s0 (execRckUnlock a s) := by
  unfold execRckUnlock
  repeat'
    first | with_reducible assumption | with_reducible apply postEvent_kept | with_reducible apply raise_kept |
      with_reducible apply setRck_kept | with_reducible apply kept_ite | with_reducible apply keptOut_ite |
      with_reducible apply keptOut_next | dsimp only | split | with_reducible refine kept_mk ?_ rfl rfl rfl rfl rfl rfl

theorem execRckRelock_kept {s0 s : State} {a} (h : Kept s0 s) : KeptOut s0 (execRckRelock a s) := by
  unfold execRckRelock
  repeat'
    first | with_reducible assumption | with_reducible apply postEvent_kept | with_reducible apply setRck_kept |
      with_reducible apply kept_ite | with_reducible apply keptOut_ite | with_reducible apply keptOut_next | dsimp only |
      split | with_reducible refine kept_mk ?_ rfl rfl rfl rfl rfl rfl

theorem sequencerStatusSpec_kept : KeptSpec (sequencerStatusSpec) := by
  intro s0 s c h
  dsimp only [sequencerStatusSpec, plainSpec, doneWith]
  repeat'
    first | with_reducible assumption | dsimp only | split

theorem execSequencerStatus_kept {s0 s : State} {a} (h : Kept s0 s) : KeptOut s0 (execSequencerStatus a s) := by
  unfold execSequencerStatus
  repeat'
    first | with_reducible assumption | with_reducible apply runCommand_kept |
      with_reducible exact sequencerStatusSpec_kept | dsimp only

theorem txCountersReadSpec_kept : KeptSpec (txCountersReadSpec) := by
  intro s0 s c h
  dsimp only [txCountersReadSpec, plainSpec, doneWith]
  repeat'
    first | with_reducible assumption | with_reducible apply setTxRun_kept | with_reducible apply kept_ite |
      with_reducible apply kept_ite_answer | dsimp only | split | with_reducible refine kept_mk ?_ rfl rfl rfl rfl rfl rfl

theorem execTxCountersRead_kept {s0 s : State} {a} (h : Kept s0 s) : KeptOut s0 (execTxCountersRead a s) := by
  unfold execTxCountersRead
  repeat'
    first | with_reducible assumption | with_reducible apply runCommand_kept | with_reducible exact txCountersReadSpec_kept |
      dsimp only

theorem openBlank_kept {s0 s : State} {a} (h : Kept s0 s) : Kept s0 (openBlank a s) := by
  unfold openBlank
  repeat'
    first | with_reducible assumption | with_reducible apply markTracks_kept | with_reducible apply addMark_kept |
      with_reducible apply kept_ite | dsimp only | split | with_reducible refine kept_mk ?_ rfl rfl rfl rfl rfl rfl

theorem closeBlank_kept {s0 s : State} {a} (h : Kept s0 s) : Kept s0 (closeBlank a s) := by
  unfold closeBlank
  repeat'
    first | with_reducible assumption | with_reducible apply closeMarks_kept | with_reducible apply kept_ite | dsimp only |
      split

theorem settleBlank_kept {s0 s : State} {a} (h : Kept s0 s) : Kept s0 (settleBlank a s) := by
  unfold settleBlank
  repeat'
    first | with_reducible assumption | with_reducible apply openBlank_kept | with_reducible apply closeBlank_kept |
      with_reducible apply kept_ite | dsimp only | split

theorem openSpan_kept {s0 s : State} {a} (h : Kept s0 s) : Kept s0 (openSpan a s) := by
  unfold openSpan
  repeat'
    first | with_reducible assumption | with_reducible apply openBlank_kept | with_reducible apply setTxRun_kept |
      dsimp only | with_reducible refine kept_mk ?_ rfl rfl rfl rfl rfl rfl

end Sys2Proof.Laws
end

