-- ==== Sys2Proof/Laws/KeptNodes.lean ====
section
/-! SUPPORT. What the operations of Machine/Nodes.lean keep. -/

namespace Sys2Proof.Laws

open Sys2Proof.Machine Sys2Proof.Safety

set_option linter.unusedTactic false
set_option linter.unreachableTactic false

theorem setPrefixes_kept {s0 s : State} {a} (h : Kept s0 s) : Kept s0 (setPrefixes a s) := by
  unfold setPrefixes
  repeat'
    first | with_reducible assumption | dsimp only | with_reducible refine kept_mk ?_ rfl rfl rfl rfl rfl rfl

theorem setNet_kept {s0 s : State} {b c} (h : Kept s0 s) : Kept s0 (setNet s b c) := by
  unfold setNet
  repeat'
    first | with_reducible assumption | dsimp only | with_reducible refine kept_mk ?_ rfl rfl rfl rfl rfl rfl

theorem countLink_kept {s0 s : State} {a b} (h : Kept s0 s) : Kept s0 (countLink a b s) := by
  unfold countLink
  repeat'
    first | with_reducible assumption | with_reducible apply setNet_kept | dsimp only |
      with_reducible refine kept_mk ?_ rfl rfl rfl rfl rfl rfl

theorem countFwd_kept {s0 s : State} {a} (h : Kept s0 s) : Kept s0 (countFwd a s) := by
  unfold countFwd
  repeat'
    first | with_reducible assumption | dsimp only | with_reducible refine kept_mk ?_ rfl rfl rfl rfl rfl rfl

theorem writeBackAll_kept {s0 s : State} (h : Kept s0 s) : Kept s0 (writeBackAll s) := by
  unfold writeBackAll
  repeat'
    first | with_reducible assumption | with_reducible refine kept_foldl ?_ fun _ _ _ => ?_ | dsimp only |
      with_reducible refine kept_mk ?_ rfl rfl rfl rfl rfl rfl

theorem touchNode_kept {s0 s : State} {a} (h : Kept s0 s) : Kept s0 (touchNode a s) := by
  unfold touchNode
  repeat'
    first | with_reducible assumption | with_reducible apply kept_ite | with_reducible refine kept_foldl ?_ fun _ _ _ => ?_ |
      dsimp only | split | with_reducible refine kept_mk ?_ rfl rfl rfl rfl rfl rfl

theorem setNode_kept {s0 s : State} {a b} (h : Kept s0 s) : Kept s0 (setNode a b s) := by
  unfold setNode
  repeat'
    first | with_reducible assumption | with_reducible apply touchNode_kept | dsimp only |
      with_reducible refine kept_mk ?_ rfl rfl rfl rfl rfl rfl

theorem dropNode_kept {s0 s : State} {a} (h : Kept s0 s) : Kept s0 (dropNode a s) := by
  unfold dropNode
  repeat'
    first | with_reducible assumption | dsimp only | with_reducible refine kept_mk ?_ rfl rfl rfl rfl rfl rfl

theorem modNode_kept {s0 s : State} {a b c} (h : Kept s0 s) : Kept s0 (modNode a b c s) := by
  unfold modNode
  repeat'
    first | with_reducible assumption | with_reducible apply setNode_kept | with_reducible apply kept_ite | dsimp only |
      split

theorem insertFailed_kept {s0 s : State} {a b} (h : Kept s0 s) : Kept s0 (insertFailed a b s) := by
  unfold insertFailed
  repeat'
    first | with_reducible assumption | with_reducible apply postEvent_kept | with_reducible apply raise_kept |
      with_reducible apply countFwd_kept | dsimp only

theorem useClock_kept {s0 s : State} (h : Kept s0 s) : Kept s0 (useClock s) := by
  unfold useClock
  repeat'
    first | with_reducible assumption | dsimp only | with_reducible refine kept_mk ?_ rfl rfl rfl rfl rfl rfl

theorem dropUnrec_kept {s0 s : State} {a b} (h : Kept s0 s) : Kept s0 (dropUnrec a b s) := by
  unfold dropUnrec
  repeat'
    first | with_reducible assumption | dsimp only | with_reducible refine kept_mk ?_ rfl rfl rfl rfl rfl rfl

theorem putUnrec_kept {s0 s : State} {a b c} (h : Kept s0 s) : Kept s0 (putUnrec a b c s) := by
  unfold putUnrec
  repeat'
    first | with_reducible assumption | with_reducible apply useClock_kept | with_reducible apply dropUnrec_kept |
      dsimp only | with_reducible refine kept_mk ?_ rfl rfl rfl rfl rfl rfl

theorem addLate_kept {s0 s : State} {a b c} (h : Kept s0 s) : Kept s0 (addLate a b c s) := by
  unfold addLate
  repeat'
    first | with_reducible assumption | with_reducible apply countLink_kept | with_reducible apply setNode_kept |
      with_reducible apply kept_ite | dsimp only | split | with_reducible refine kept_mk ?_ rfl rfl rfl rfl rfl rfl

theorem putWaiting_kept {s0 s : State} {a} (h : Kept s0 s) : Kept s0 (putWaiting a s) := by
  unfold putWaiting
  repeat'
    first | with_reducible assumption | dsimp only | with_reducible refine kept_mk ?_ rfl rfl rfl rfl rfl rfl

theorem modWaiting_kept {s0 s : State} {a b} (h : Kept s0 s) : Kept s0 (modWaiting a b s) := by
  unfold modWaiting
  repeat'
    first | with_reducible assumption | with_reducible apply kept_ite | dsimp only | split |
      with_reducible refine kept_mk ?_ rfl rfl rfl rfl rfl rfl

theorem dropWaiting_kept {s0 s : State} {a} (h : Kept s0 s) : Kept s0 (dropWaiting a s) := by
  unfold dropWaiting
  repeat'
    first | with_reducible assumption | dsimp only | with_reducible refine kept_mk ?_ rfl rfl rfl rfl rfl rfl

end Sys2Proof.Laws
end

