-- ==== Sys2Proof/Laws/KeptAirtime.lean ====
section
/-! SUPPORT. What the operations of Machine/Airtime.lean keep. -/

namespace Sys2Proof.Laws

open Sys2Proof.Machine Sys2Proof.Safety

set_option linter.unusedTactic false
set_option linter.unreachableTactic false

theorem setBandCfg_kept {s0 s : State} {b c} (h : Kept s0 s) : Kept s0 (setBandCfg s b c) := by
  unfold setBandCfg
  repeat'
    first | with_reducible assumption | dsimp only | with_reducible refine kept_mk ?_ rfl rfl rfl rfl rfl rfl

theorem setBand_kept {s0 s : State} {b c} (h : Kept s0 s) : Kept s0 (setBand s b c) := by
  unfold setBand
  repeat'
    first | with_reducible assumption | dsimp only | with_reducible refine kept_mk ?_ rfl rfl rfl rfl rfl rfl

theorem modBucket_kept {s0 s : State} {a b c} (h : Kept s0 s) : Kept s0 (modBucket a b c s) := by
  unfold modBucket
  repeat'
    first | with_reducible assumption | with_reducible apply setBand_kept | dsimp only |
      with_reducible refine kept_mk ?_ rfl rfl rfl rfl rfl rfl

theorem charge_kept {s0 s : State} {a b c d} (h : Kept s0 s) : Kept s0 (charge a b c d s) := by
  unfold charge
  repeat'
    first | with_reducible assumption | with_reducible apply modBucket_kept |
      with_reducible refine kept_foldl ?_ fun _ _ _ => ?_ | dsimp only

theorem returnCharge_kept {s0 s : State} {a b c d} (h : Kept s0 s) : Kept s0 (returnCharge a b c d s) := by
  unfold returnCharge
  repeat'
    first | with_reducible assumption | with_reducible apply modBucket_kept |
      with_reducible refine kept_foldl ?_ fun _ _ _ => ?_ | dsimp only

theorem startCold_kept {s0 s : State} {a b} (h : Kept s0 s) : Kept s0 (startCold a b s) := by
  unfold startCold
  repeat'
    first | with_reducible assumption | with_reducible apply setBand_kept | dsimp only |
      with_reducible refine kept_mk ?_ rfl rfl rfl rfl rfl rfl

theorem countRefusal_kept {s0 s : State} {a} (h : Kept s0 s) : Kept s0 (countRefusal a s) := by
  unfold countRefusal
  repeat'
    first | with_reducible assumption | with_reducible apply setBand_kept | dsimp only |
      with_reducible refine kept_mk ?_ rfl rfl rfl rfl rfl rfl

theorem subbandSetSpec_kept : KeptSpec (subbandSetSpec) := by
  intro s0 s c h
  dsimp only [subbandSetSpec, plainSpec, done]
  repeat'
    first | with_reducible assumption | with_reducible apply setBandCfg_kept | with_reducible apply setBand_kept |
      with_reducible apply startCold_kept | dsimp only | split | with_reducible refine kept_mk ?_ rfl rfl rfl rfl rfl rfl

theorem execSubbandSet_kept {s0 s : State} {a} (h : Kept s0 s) : KeptOut s0 (execSubbandSet a s) := by
  unfold execSubbandSet
  repeat'
    first | with_reducible assumption | with_reducible apply runCommand_kept | with_reducible exact subbandSetSpec_kept |
      dsimp only

theorem ledgerReadSpec_kept : KeptSpec (ledgerReadSpec) := by
  intro s0 s c h
  dsimp only [ledgerReadSpec, plainSpec, doneWith]
  repeat'
    first | with_reducible assumption | dsimp only

theorem execLedgerRead_kept {s0 s : State} {a} (h : Kept s0 s) : KeptOut s0 (execLedgerRead a s) := by
  unfold execLedgerRead
  repeat'
    first | with_reducible assumption | with_reducible apply runCommand_kept | with_reducible exact ledgerReadSpec_kept |
      dsimp only

theorem loadBand_kept {s0 s : State} {a b} (h : Kept s0 s) : Kept s0 (loadBand a b s) := by
  unfold loadBand
  repeat'
    first | with_reducible assumption | with_reducible apply setBand_kept | with_reducible apply kept_ite |
      with_reducible refine kept_foldl ?_ fun _ _ _ => ?_ | dsimp only | split |
      with_reducible refine kept_mk ?_ rfl rfl rfl rfl rfl rfl

theorem ledgerLoadSpec_kept : KeptSpec (ledgerLoadSpec) := by
  intro s0 s c h
  dsimp only [ledgerLoadSpec, plainSpec, done]
  repeat'
    first | with_reducible assumption | with_reducible apply loadBand_kept | dsimp only |
      with_reducible refine kept_mk ?_ rfl rfl rfl rfl rfl rfl

theorem execLedgerLoad_kept {s0 s : State} {a} (h : Kept s0 s) : KeptOut s0 (execLedgerLoad a s) := by
  unfold execLedgerLoad
  repeat'
    first | with_reducible assumption | with_reducible apply runCommand_kept | with_reducible exact ledgerLoadSpec_kept |
      dsimp only

theorem bandSecond_kept {s0 s : State} {a b} (h : Kept s0 s) : Kept s0 (bandSecond a b s) := by
  unfold bandSecond
  repeat'
    first | with_reducible assumption | with_reducible apply setBand_kept | with_reducible apply setBandCfg_kept |
      dsimp only | split | with_reducible refine kept_mk ?_ rfl rfl rfl rfl rfl rfl

theorem execLedgerSecond_kept {s0 s : State} (h : Kept s0 s) : KeptOut s0 (execLedgerSecond s) := by
  unfold execLedgerSecond
  repeat'
    first | with_reducible assumption | with_reducible apply bandSecond_kept | with_reducible apply kept_ite |
      with_reducible refine kept_foldl ?_ fun _ _ _ => ?_ | with_reducible apply keptOut_ite |
      with_reducible apply keptOut_next | dsimp only | split | with_reducible refine kept_mk ?_ rfl rfl rfl rfl rfl rfl

theorem setTokens_kept {s0 s : State} {b c} (h : Kept s0 s) : Kept s0 (setTokens s b c) := by
  unfold setTokens
  repeat'
    first | with_reducible assumption | dsimp only | with_reducible refine kept_mk ?_ rfl rfl rfl rfl rfl rfl

theorem addTokens_kept {s0 s : State} {a b c} (h : Kept s0 s) : Kept s0 (addTokens a b c s) := by
  unfold addTokens
  repeat'
    first | with_reducible assumption | with_reducible apply setTokens_kept |
      with_reducible refine kept_foldl ?_ fun _ _ _ => ?_ | dsimp only | split |
      with_reducible refine kept_mk ?_ rfl rfl rfl rfl rfl rfl

theorem takePort_kept {s0 s : State} {a b} (h : Kept s0 s) : Kept s0 (takePort a b s) := by
  unfold takePort
  repeat'
    first | with_reducible assumption | with_reducible apply addTokens_kept | dsimp only

theorem applyShape_kept {s0 s : State} {a} (h : Kept s0 s) : Kept s0 (applyShape a s) := by
  unfold applyShape
  repeat'
    first | with_reducible assumption | with_reducible apply setTokens_kept | dsimp only |
      with_reducible refine kept_mk ?_ rfl rfl rfl rfl rfl rfl

theorem execShaperRefill_kept {s0 s : State} (h : Kept s0 s) : KeptOut s0 (execShaperRefill s) := by
  unfold execShaperRefill
  repeat'
    first | with_reducible assumption | with_reducible apply applyShape_kept | with_reducible apply kept_ite |
      with_reducible refine kept_foldl ?_ fun _ _ _ => ?_ | with_reducible apply keptOut_ite |
      with_reducible apply keptOut_next | dsimp only | split | with_reducible refine kept_mk ?_ rfl rfl rfl rfl rfl rfl

theorem pendShape_kept {s0 s : State} {a b} (h : Kept s0 s) : Kept s0 (pendShape a b s) := by
  unfold pendShape
  repeat'
    first | with_reducible assumption | dsimp only | with_reducible refine kept_mk ?_ rfl rfl rfl rfl rfl rfl

theorem shaperSubscriberSetSpec_kept : KeptSpec (shaperSubscriberSetSpec) := by
  intro s0 s c h
  dsimp only [shaperSubscriberSetSpec, plainSpec, done]
  repeat'
    first | with_reducible assumption | with_reducible apply pendShape_kept | dsimp only

theorem execShaperSubscriberSet_kept {s0 s : State} {a} (h : Kept s0 s) : KeptOut s0 (execShaperSubscriberSet a s) := by
  unfold execShaperSubscriberSet
  repeat'
    first | with_reducible assumption | with_reducible apply runCommand_kept |
      with_reducible exact shaperSubscriberSetSpec_kept | dsimp only

theorem shaperServiceSetSpec_kept : KeptSpec (shaperServiceSetSpec) := by
  intro s0 s c h
  dsimp only [shaperServiceSetSpec, plainSpec, done]
  repeat'
    first | with_reducible assumption | with_reducible apply pendShape_kept | dsimp only |
      with_reducible refine kept_mk ?_ rfl rfl rfl rfl rfl rfl

theorem execShaperServiceSet_kept {s0 s : State} {a} (h : Kept s0 s) : KeptOut s0 (execShaperServiceSet a s) := by
  unfold execShaperServiceSet
  repeat'
    first | with_reducible assumption | with_reducible apply runCommand_kept |
      with_reducible exact shaperServiceSetSpec_kept | dsimp only

theorem shaperPortSetSpec_kept : KeptSpec (shaperPortSetSpec) := by
  intro s0 s c h
  dsimp only [shaperPortSetSpec, plainSpec, done]
  repeat'
    first | with_reducible assumption | with_reducible apply pendShape_kept | dsimp only

theorem execShaperPortSet_kept {s0 s : State} {a} (h : Kept s0 s) : KeptOut s0 (execShaperPortSet a s) := by
  unfold execShaperPortSet
  repeat'
    first | with_reducible assumption | with_reducible apply runCommand_kept | with_reducible exact shaperPortSetSpec_kept |
      dsimp only

theorem shaperReadSpec_kept : KeptSpec (shaperReadSpec) := by
  intro s0 s c h
  dsimp only [shaperReadSpec, plainSpec, doneWith]
  repeat'
    first | with_reducible assumption | with_reducible apply kept_ite | with_reducible apply kept_ite_answer | dsimp only |
      split

theorem execShaperRead_kept {s0 s : State} {a} (h : Kept s0 s) : KeptOut s0 (execShaperRead a s) := by
  unfold execShaperRead
  repeat'
    first | with_reducible assumption | with_reducible apply runCommand_kept | with_reducible exact shaperReadSpec_kept |
      dsimp only

theorem txRecordSetSpec_kept : KeptSpec (txRecordSetSpec) := by
  intro s0 s c h
  dsimp only [txRecordSetSpec, plainSpec, done]
  repeat'
    first | with_reducible assumption | with_reducible apply setTxCfg_kept | dsimp only |
      with_reducible refine kept_mk ?_ rfl rfl rfl rfl rfl rfl

theorem execTxRecordSet_kept {s0 s : State} {a} (h : Kept s0 s) : KeptOut s0 (execTxRecordSet a s) := by
  unfold execTxRecordSet
  repeat'
    first | with_reducible assumption | with_reducible apply runCommand_kept | with_reducible exact txRecordSetSpec_kept |
      dsimp only

theorem addShortfall_kept {s0 s : State} {a b c} (h : Kept s0 s) : Kept s0 (addShortfall a b c s) := by
  unfold addShortfall
  repeat'
    first | with_reducible assumption | dsimp only | with_reducible refine kept_mk ?_ rfl rfl rfl rfl rfl rfl

theorem shortfallReadSpec_kept : KeptSpec (shortfallReadSpec) := by
  intro s0 s c h
  dsimp only [shortfallReadSpec, plainSpec, doneWith]
  repeat'
    first | with_reducible assumption | with_reducible apply kept_ite | with_reducible apply kept_ite_answer | dsimp only |
      split | with_reducible refine kept_mk ?_ rfl rfl rfl rfl rfl rfl

theorem execShortfallRead_kept {s0 s : State} {a} (h : Kept s0 s) : KeptOut s0 (execShortfallRead a s) := by
  unfold execShortfallRead
  repeat'
    first | with_reducible assumption | with_reducible apply runCommand_kept | with_reducible exact shortfallReadSpec_kept |
      dsimp only

theorem setPlainSched_kept {s0 s : State} {b c} (h : Kept s0 s) : Kept s0 (setPlainSched s b c) := by
  unfold setPlainSched
  repeat'
    first | with_reducible assumption | dsimp only | with_reducible refine kept_mk ?_ rfl rfl rfl rfl rfl rfl

theorem countSched_kept {s0 s : State} {a b} (h : Kept s0 s) : Kept s0 (countSched a b s) := by
  unfold countSched
  repeat'
    first | with_reducible assumption | with_reducible apply setPlainSched_kept | dsimp only |
      with_reducible refine kept_mk ?_ rfl rfl rfl rfl rfl rfl

theorem schedCountersReadSpec_kept : KeptSpec (schedCountersReadSpec) := by
  intro s0 s c h
  dsimp only [schedCountersReadSpec, plainSpec, doneWith]
  repeat'
    first | with_reducible assumption | with_reducible apply setPlainSched_kept | with_reducible apply kept_ite |
      with_reducible apply kept_ite_answer | dsimp only | split | with_reducible refine kept_mk ?_ rfl rfl rfl rfl rfl rfl

theorem execSchedCountersRead_kept {s0 s : State} {a} (h : Kept s0 s) : KeptOut s0 (execSchedCountersRead a s) := by
  unfold execSchedCountersRead
  repeat'
    first | with_reducible assumption | with_reducible apply runCommand_kept |
      with_reducible exact schedCountersReadSpec_kept | dsimp only

end Sys2Proof.Laws
end

