-- ==== Sys2Proof/Laws/KeptLinkFrame.lean ====
section
/-! SUPPORT. What the operations of Machine/LinkFrame.lean keep. -/

namespace Sys2Proof.Laws

open Sys2Proof.Machine Sys2Proof.Safety

set_option linter.unusedTactic false
set_option linter.unreachableTactic false

theorem nodeKey_kept {s0 s : State} {a b c} (h : Kept s0 s) : Kept s0 (nodeKey a b c s).2 := by
  unfold nodeKey
  repeat'
    first | with_reducible assumption | with_reducible apply useClock_kept | with_reducible apply kept_ite |
      with_reducible apply kept_ite_snd | dsimp only | split | with_reducible refine kept_mk ?_ rfl rfl rfl rfl rfl rfl

theorem dropKeys_kept {s0 s : State} {a} (h : Kept s0 s) : Kept s0 (dropKeys a s) := by
  unfold dropKeys
  repeat'
    first | with_reducible assumption | dsimp only | with_reducible refine kept_mk ?_ rfl rfl rfl rfl rfl rfl

theorem takeBroadcastCtr_kept {s0 s : State} {a b} (h : Kept s0 s) : KeptOpt s0 (takeBroadcastCtr a b s) := by
  unfold takeBroadcastCtr
  repeat'
    first | with_reducible assumption | with_reducible apply setNet_kept | with_reducible apply keptOpt_ite |
      with_reducible apply keptOpt_some | with_reducible exact keptOpt_none | dsimp only | split |
      with_reducible refine kept_mk ?_ rfl rfl rfl rfl rfl rfl

theorem takeNodeCtr_kept {s0 s : State} {a b c} (h : Kept s0 s) : KeptOpt s0 (takeNodeCtr a b c s) := by
  unfold takeNodeCtr
  repeat'
    first | with_reducible assumption | with_reducible apply setNode_kept | with_reducible apply keptOpt_ite |
      with_reducible apply keptOpt_some | with_reducible exact keptOpt_none | dsimp only | split |
      with_reducible refine kept_mk ?_ rfl rfl rfl rfl rfl rfl

theorem buildUnicast_kept {s0 s : State} {a b} (h : Kept s0 s) : Kept s0 (buildUnicast a b s).2 := by
  unfold buildUnicast
  repeat'
    first | with_reducible assumption | with_reducible apply nodeKey_kept | with_reducible apply takeNodeCtr_kept |
      with_reducible refine kept_of_snd (by assumption) ?_ | with_reducible refine kept_of_opt (by assumption) ?_ |
      dsimp only | split

theorem buildBroadcast_kept {s0 s : State} {a b c} (h : Kept s0 s) : Kept s0 (buildBroadcast a b c s).2 := by
  unfold buildBroadcast
  repeat'
    first | with_reducible assumption | with_reducible apply nodeKey_kept | with_reducible apply takeBroadcastCtr_kept |
      with_reducible refine kept_of_snd (by assumption) ?_ | with_reducible refine kept_of_opt (by assumption) ?_ |
      dsimp only | split

end Sys2Proof.Laws
end

