-- ==== Sys2Proof/Laws/KeptTxOps.lean ====
section
/-! SUPPORT. What the operations of Machine/TxOps.lean keep. -/

namespace Sys2Proof.Laws

open Sys2Proof.Machine Sys2Proof.Safety

set_option linter.unusedTactic false
set_option linter.unreachableTactic false

theorem setTx_kept {s0 s : State} {a} (h : Kept s0 s) : Kept s0 (setTx a s) := by
  unfold setTx
  repeat'
    first | with_reducible assumption | with_reducible apply kept_ite | dsimp only | split |
      with_reducible refine kept_mk ?_ rfl rfl rfl rfl rfl rfl

theorem dropTx_kept {s0 s : State} {a} (h : Kept s0 s) : Kept s0 (dropTx a s) := by
  unfold dropTx
  repeat'
    first | with_reducible assumption | with_reducible apply noteActivity_kept | dsimp only |
      with_reducible refine kept_mk ?_ rfl rfl rfl rfl rfl rfl

theorem postPassed_kept {s0 s : State} {a} (h : Kept s0 s) : Kept s0 (postPassed a s) := by
  unfold postPassed
  repeat'
    first | with_reducible assumption | with_reducible apply postEvent_kept |
      with_reducible refine kept_foldl ?_ fun _ _ _ => ?_ | dsimp only

theorem postTx_kept {s0 s : State} {a b c} (h : Kept s0 s) : Kept s0 (postTx a b c s) := by
  unfold postTx
  repeat'
    first | with_reducible assumption | with_reducible apply pushPacket_kept | with_reducible apply cover_kept | dsimp only |
      with_reducible refine kept_mk ?_ rfl rfl rfl rfl rfl rfl

theorem finalRecord_kept {s0 s : State} {a b c} (h : Kept s0 s) : Kept s0 (finalRecord a b c s) := by
  unfold finalRecord
  repeat'
    first | with_reducible assumption | with_reducible apply postTx_kept | with_reducible apply kept_ite | dsimp only | split

theorem shortfall_kept {s0 s : State} {a b c} (h : Kept s0 s) : Kept s0 (shortfall a b c s) := by
  unfold shortfall
  repeat'
    first | with_reducible assumption | with_reducible apply raise_kept | with_reducible apply addShortfall_kept |
      with_reducible apply kept_ite | dsimp only | split

theorem tellHome_kept {s0 s : State} {a b c} (h : Kept s0 s) : Kept s0 (tellHome a b c s) := by
  unfold tellHome
  repeat'
    first | with_reducible assumption | with_reducible apply originate_kept | dsimp only | split |
      with_reducible refine kept_mk ?_ rfl rfl rfl rfl rfl rfl

theorem setImage_kept {s0 s : State} {a} (h : Kept s0 s) : Kept s0 (setImage a s) := by
  unfold setImage
  repeat'
    first | with_reducible assumption | with_reducible apply kept_ite | dsimp only | split |
      with_reducible refine kept_mk ?_ rfl rfl rfl rfl rfl rfl

theorem waitAgain_kept {s0 s : State} {a b} (h : Kept s0 s) : Kept s0 (waitAgain a b s) := by
  unfold waitAgain
  repeat'
    first | with_reducible assumption | with_reducible apply setImage_kept | with_reducible apply modWaiting_kept |
      with_reducible apply putWaiting_kept | with_reducible apply kept_ite | dsimp only | split |
      with_reducible refine kept_mk ?_ rfl rfl rfl rfl rfl rfl

theorem takeItem_kept {s0 s : State} {a} (h : Kept s0 s) : Kept s0 (takeItem a s) := by
  unfold takeItem
  repeat'
    first | with_reducible assumption | with_reducible apply setImage_kept | with_reducible apply dropWaiting_kept |
      with_reducible apply kept_ite | dsimp only | split | with_reducible refine kept_mk ?_ rfl rfl rfl rfl rfl rfl

theorem deferralRecord_kept {s0 s : State} {a b} (h : Kept s0 s) : Kept s0 (deferralRecord a b s) := by
  unfold deferralRecord
  repeat'
    first | with_reducible assumption | with_reducible apply postTx_kept | with_reducible apply kept_ite | dsimp only | split

theorem outcome_kept {s0 s : State} {a b c d} (h : Kept s0 s) : Kept s0 (outcome a b c d s) := by
  unfold outcome
  repeat'
    first | with_reducible assumption | with_reducible apply countSched_kept | with_reducible apply deferralRecord_kept |
      with_reducible apply waitAgain_kept | with_reducible apply takeItem_kept | with_reducible apply tellHome_kept |
      with_reducible apply finalRecord_kept | with_reducible apply kept_ite | dsimp only | split

theorem dutyRefused_kept {s0 s : State} {a} (h : Kept s0 s) : Kept s0 (dutyRefused a s) := by
  unfold dutyRefused
  repeat'
    first | with_reducible assumption | with_reducible apply countRefusal_kept | with_reducible apply raise_kept |
      with_reducible refine kept_foldl ?_ fun _ _ _ => ?_ | dsimp only

theorem fail_kept {s0 s : State} {a b c d} (h : Kept s0 s) : Kept s0 (fail a b c d s) := by
  unfold fail
  repeat'
    first | with_reducible assumption | with_reducible apply dutyRefused_kept | with_reducible apply raise_kept |
      with_reducible apply countTx_kept | with_reducible apply outcome_kept | with_reducible apply shortfall_kept |
      with_reducible apply kept_ite | dsimp only | split

theorem chargeTx_kept {s0 s : State} {a} (h : Kept s0 s) : Kept s0 (chargeTx a s).2 := by
  unfold chargeTx
  repeat'
    first | with_reducible assumption | with_reducible apply cover_kept | with_reducible apply charge_kept |
      with_reducible apply takePort_kept | with_reducible apply addTokens_kept | with_reducible apply kept_ite |
      with_reducible apply kept_ite_snd | dsimp only | split | with_reducible refine kept_mk ?_ rfl rfl rfl rfl rfl rfl

theorem refund_kept {s0 s : State} {a} (h : Kept s0 s) : Kept s0 (refund a s) := by
  unfold refund
  repeat'
    first | with_reducible assumption | with_reducible apply returnCharge_kept | with_reducible apply addTokens_kept |
      with_reducible apply kept_ite | dsimp only | split

theorem announce_kept {s0 s : State} {a} (h : Kept s0 s) : Kept s0 (announce a s).2 := by
  unfold announce
  repeat'
    first | with_reducible assumption | with_reducible apply modWaiting_kept | with_reducible apply addTokens_kept |
      with_reducible apply kept_ite | with_reducible apply kept_ite_snd | dsimp only | split |
      with_reducible refine kept_mk ?_ rfl rfl rfl rfl rfl rfl

theorem takeOn_kept {s0 s : State} {a} (h : Kept s0 s) : Kept s0 (takeOn a s) := by
  unfold takeOn
  repeat'
    first | with_reducible assumption | with_reducible apply chargeTx_kept | with_reducible apply takeItem_kept |
      with_reducible apply announce_kept | with_reducible apply countSched_kept | with_reducible apply kept_ite |
      with_reducible refine kept_of_snd (by assumption) ?_ | dsimp only | split |
      with_reducible refine kept_mk ?_ rfl rfl rfl rfl rfl rfl

theorem refuseItem_kept {s0 s : State} {a b} (h : Kept s0 s) : Kept s0 (refuseItem a b s) := by
  unfold refuseItem
  repeat'
    first | with_reducible assumption | with_reducible apply finalRecord_kept | with_reducible apply countSched_kept |
      dsimp only | split

end Sys2Proof.Laws
end

