-- ==== Sys2Proof/Laws/KeptResolve.lean ====
section
/-! SUPPORT. What the operations of Machine/Resolve.lean keep. -/

namespace Sys2Proof.Laws

open Sys2Proof.Machine Sys2Proof.Safety

set_option linter.unusedTactic false
set_option linter.unreachableTactic false

theorem noRoute_kept {s0 s : State} (h : Kept s0 s) : Kept s0 (noRoute s) := by
  unfold noRoute
  repeat'
    first | with_reducible assumption | with_reducible apply raise_kept | with_reducible apply countFwd_kept | dsimp only

theorem coverPacket_kept {s0 s : State} {a} (h : Kept s0 s) : Kept s0 (coverPacket a s) := by
  unfold coverPacket
  repeat'
    first | with_reducible assumption | with_reducible apply cover_kept | dsimp only

theorem waitItem_kept {s0 s : State} {a} (h : Kept s0 s) : Kept s0 (waitItem a s) := by
  unfold waitItem
  repeat'
    first | with_reducible assumption | dsimp only | with_reducible refine kept_mk ?_ rfl rfl rfl rfl rfl rfl

theorem dropOversize_kept {s0 s : State} (h : Kept s0 s) : Kept s0 (dropOversize s) := by
  unfold dropOversize
  repeat'
    first | with_reducible assumption | dsimp only | with_reducible refine kept_mk ?_ rfl rfl rfl rfl rfl rfl

theorem enqueueNode_kept {s0 s : State} {a b c d} (h : Kept s0 s) : Kept s0 (enqueueNode a b c d s) := by
  unfold enqueueNode
  repeat'
    first | with_reducible assumption | with_reducible apply refuseItem_kept | with_reducible apply dropOversize_kept |
      with_reducible apply waitItem_kept | with_reducible apply kept_ite | dsimp only | split

theorem enqueueBroadcast_kept {s0 s : State} {a b} (h : Kept s0 s) : Kept s0 (enqueueBroadcast a b s) := by
  unfold enqueueBroadcast
  repeat'
    first | with_reducible assumption | with_reducible apply dropOversize_kept | with_reducible apply waitItem_kept |
      with_reducible apply kept_ite | dsimp only | split

theorem waitFlood_kept {s0 s : State} {a b c d e} (h : Kept s0 s) : Kept s0 (waitFlood a b c d e s) := by
  unfold waitFlood
  repeat'
    first | with_reducible assumption | with_reducible apply waitItem_kept | dsimp only |
      with_reducible refine kept_mk ?_ rfl rfl rfl rfl rfl rfl

theorem floodTo_kept {s0 s : State} {a b c d e f} (h : Kept s0 s) : Kept s0 (floodTo a b c d e f s) := by
  unfold floodTo
  repeat'
    first | with_reducible assumption | with_reducible apply waitFlood_kept | with_reducible apply originate_kept |
      with_reducible apply kept_ite | dsimp only | split | with_reducible refine kept_mk ?_ rfl rfl rfl rfl rfl rfl

theorem floodDownlink_kept {s0 s : State} {a b c d e f} (h : Kept s0 s) : Kept s0 (floodDownlink a b c d e f s) := by
  unfold floodDownlink
  repeat'
    first | with_reducible assumption | with_reducible apply dropOversize_kept | with_reducible apply buildBroadcast_kept |
      with_reducible apply refuseItem_kept | with_reducible apply floodTo_kept | with_reducible apply raise_kept |
      with_reducible apply countFwd_kept | with_reducible apply kept_ite |
      with_reducible refine kept_foldl ?_ fun _ _ _ => ?_ | with_reducible refine kept_of_snd (by assumption) ?_ |
      dsimp only | split | with_reducible refine kept_mk ?_ rfl rfl rfl rfl rfl rfl

theorem crossHerd_kept {s0 s : State} {a b} (h : Kept s0 s) : Kept s0 (crossHerd a b s) := by
  unfold crossHerd
  repeat'
    first | with_reducible assumption | with_reducible apply noRoute_kept | with_reducible apply countFwd_kept |
      with_reducible apply originate_kept | with_reducible apply coverPacket_kept | with_reducible apply kept_ite |
      dsimp only | split | with_reducible refine kept_mk ?_ rfl rfl rfl rfl rfl rfl

theorem toNode_kept {s0 s : State} {a} (h : Kept s0 s) : Kept s0 (toNode a s) := by
  unfold toNode
  repeat'
    first | with_reducible assumption | with_reducible apply crossHerd_kept | with_reducible apply countFwd_kept |
      with_reducible apply enqueueBroadcast_kept | with_reducible apply enqueueNode_kept |
      with_reducible apply floodDownlink_kept | with_reducible apply kept_ite | dsimp only | split |
      with_reducible refine kept_mk ?_ rfl rfl rfl rfl rfl rfl

theorem toBackhaul_kept {s0 s : State} {a b c d} (h : Kept s0 s) : Kept s0 (toBackhaul a b c d s) := by
  unfold toBackhaul
  repeat'
    first | with_reducible assumption | with_reducible apply pushBytes_kept | with_reducible apply coverPacket_kept |
      dsimp only

theorem carryOut_kept {s0 s : State} {a b} {c : Nat → State → State} (hc : ∀ n, KeptStep s0 (c n)) (h : Kept s0 s) :
    Kept s0 (carryOut a b c s) := by
  unfold carryOut
  dsimp only
  refine kept_ite (countFwd_kept h) (kept_ite ?_ (kept_ite (crossHerd_kept h) (kept_ite ((hc _).run h) (kept_ite
    (noRoute_kept h) (pushBytes_kept (coverPacket_kept h))))))
  split
  · exact toNode_kept h
  · exact countFwd_kept h

theorem searchPacket_kept {s0 s : State} {a} {b : Nat → State → State} (hb : ∀ n, KeptStep s0 (b n)) (h : Kept s0 s) :
    Kept s0 (searchPacket a b s) := by
  unfold searchPacket
  refine kept_ite (countFwd_kept h) ?_
  split
  · exact carryOut_kept hb h
  · exact noRoute_kept h

theorem resolvePacket_kept {s0 s : State} {a} (h : Kept s0 s) : Kept s0 (resolvePacket a s) :=
  searchPacket_kept (fun _ _ k => toBackhaul_kept k) h

theorem waitForPeer_kept {s0 s : State} {a b} (h : Kept s0 s) : Kept s0 (waitForPeer a b s) := by
  unfold waitForPeer
  repeat'
    first | with_reducible assumption | with_reducible apply raise_kept | with_reducible apply kept_ite | dsimp only |
      split | with_reducible refine kept_mk ?_ rfl rfl rfl rfl rfl rfl

theorem countTan_kept {s0 s : State} {a} (h : Kept s0 s) : Kept s0 (countTan a s) := by
  unfold countTan
  repeat'
    first | with_reducible assumption | dsimp only | with_reducible refine kept_mk ?_ rfl rfl rfl rfl rfl rfl

theorem foreignPacket_kept {s0 s : State} {a b c} (h : Kept s0 s) : Kept s0 (foreignPacket a b c s) := by
  unfold foreignPacket
  dsimp only
  refine searchPacket_kept (fun n t k => ?_) (countTan_kept h)
  exact kept_ite (waitForPeer_kept k) (toBackhaul_kept k)

theorem releaseTo_kept {s0 s : State} {a} (h : Kept s0 s) : Kept s0 (releaseTo a s) := by
  unfold releaseTo
  repeat'
    first | with_reducible assumption | with_reducible apply crossHerd_kept | with_reducible apply kept_ite |
      with_reducible refine kept_foldl ?_ fun _ _ _ => ?_ | dsimp only | split |
      with_reducible refine kept_mk ?_ rfl rfl rfl rfl rfl rfl

end Sys2Proof.Laws
end

