-- ==== Sys2Proof/Laws/KeptLinkEngine.lean ====
section
/-! SUPPORT. What the operations of Machine/LinkEngine.lean keep. -/

namespace Sys2Proof.Laws

open Sys2Proof.Machine Sys2Proof.Safety

set_option linter.unusedTactic false
set_option linter.unreachableTactic false

theorem seenLookup_kept {s0 s : State} {a b} (h : Kept s0 s) : Kept s0 (seenLookup a b s) := by
  unfold seenLookup
  repeat'
    first | with_reducible assumption | with_reducible apply useClock_kept | with_reducible apply kept_ite | dsimp only |
      split | with_reducible refine kept_mk ?_ rfl rfl rfl rfl rfl rfl

theorem openFrame_kept {s0 s : State} {a b c} (h : Kept s0 s) : Kept s0 (openFrame a b c s).2 := by
  unfold openFrame
  repeat'
    first | with_reducible assumption | with_reducible apply nodeKey_kept | with_reducible apply kept_ite |
      with_reducible apply kept_ite_snd | with_reducible refine kept_of_snd (by assumption) ?_ | dsimp only | split

theorem insertNode_kept {s0 s : State} {a b c d} (h : Kept s0 s) : Kept s0 (insertNode a b c d s).2 := by
  unfold insertNode
  repeat'
    first | with_reducible assumption | with_reducible apply setNode_kept | with_reducible apply dropUnrec_kept |
      with_reducible apply insertFailed_kept | dsimp only | split | with_reducible refine kept_mk ?_ rfl rfl rfl rfl rfl rfl

theorem ensureNode_kept {s0 s : State} {a b c} (h : Kept s0 s) : Kept s0 (ensureNode a b c s) := by
  unfold ensureNode
  repeat'
    first | with_reducible assumption | with_reducible apply insertNode_kept | with_reducible apply kept_ite | dsimp only |
      split

theorem commitWindow_kept {s0 s : State} {a b c d} (h : Kept s0 s) : Kept s0 (commitWindow a b c d s) := by
  unfold commitWindow
  repeat'
    first | with_reducible assumption | with_reducible apply setNode_kept | with_reducible apply putUnrec_kept |
      with_reducible apply kept_ite | dsimp only | split | with_reducible refine kept_mk ?_ rfl rfl rfl rfl rfl rfl

theorem learnDuplicate_kept {s0 s : State} {a b c} (h : Kept s0 s) : Kept s0 (learnDuplicate a b c s) := by
  unfold learnDuplicate
  repeat'
    first | with_reducible assumption | with_reducible apply countFwd_kept | with_reducible apply setNode_kept |
      with_reducible apply kept_ite | dsimp only | split

theorem learnTiming_kept {s0 s : State} {a b c} (h : Kept s0 s) : Kept s0 (learnTiming a b c s) := by
  unfold learnTiming
  repeat'
    first | with_reducible assumption | with_reducible apply setNode_kept | with_reducible apply kept_ite | dsimp only |
      split | with_reducible refine kept_mk ?_ rfl rfl rfl rfl rfl rfl

theorem requestAtBooking_kept {s0 s : State} {a} (h : Kept s0 s) : Kept s0 (requestAtBooking a s) := by
  unfold requestAtBooking
  repeat'
    first | with_reducible assumption | with_reducible apply setTxRun_kept | with_reducible apply kept_ite | dsimp only |
      split | with_reducible refine kept_mk ?_ rfl rfl rfl rfl rfl rfl

theorem refuseBooked_kept {s0 s : State} {a b} (h : Kept s0 s) : Kept s0 (refuseBooked a b s) := by
  unfold refuseBooked
  repeat'
    first | with_reducible assumption | with_reducible apply outcome_kept | with_reducible apply refund_kept |
      with_reducible apply dropTx_kept | dsimp only

theorem ackRefused_kept {s0 s : State} {a b} (h : Kept s0 s) : Kept s0 (ackRefused a b s).state := h

theorem buildAck_kept {s0 s : State} {a} (h : Kept s0 s) : Kept s0 (buildAck a s).state := by
  unfold buildAck
  repeat'
    first | with_reducible assumption | with_reducible apply ackRefused_kept | with_reducible apply refuseBooked_kept |
      with_reducible apply buildUnicast_kept | with_reducible apply requestAtBooking_kept |
      with_reducible apply countLink_kept | with_reducible apply setTx_kept | with_reducible apply kept_ite |
      with_reducible refine kept_of_snd (by assumption) ?_ | dsimp only | split |
      with_reducible refine kept_mk ?_ rfl rfl rfl rfl rfl rfl

theorem bookAck_kept {s0 s : State} {a} (h : Kept s0 s) : Kept s0 (bookAck a s).state := by
  unfold bookAck
  repeat'
    first | with_reducible assumption | with_reducible apply postPassed_kept | with_reducible apply ackRefused_kept |
      with_reducible apply outcome_kept | with_reducible apply fail_kept | with_reducible apply takeOn_kept |
      with_reducible apply buildAck_kept | with_reducible apply kept_ite | dsimp only | split |
      with_reducible refine kept_mk ?_ rfl rfl rfl rfl rfl rfl

theorem returnAck_kept {s0 s : State} {a b c d} (h : Kept s0 s) : Kept s0 (returnAck a b c d s) := by
  unfold returnAck
  repeat'
    first | with_reducible assumption | with_reducible apply announce_kept | with_reducible apply buildUnicast_kept |
      with_reducible apply originate_kept | with_reducible apply modNode_kept |
      with_reducible refine kept_of_snd (by assumption) ?_ | dsimp only | split |
      with_reducible refine kept_mk ?_ rfl rfl rfl rfl rfl rfl

theorem decideAck_kept {s0 s : State} {a b c d e} (h : Kept s0 s) : Kept s0 (decideAck a b c d e s).state := by
  unfold decideAck
  split
  · split
    · dsimp only
      split
      · exact returnAck_kept h
      · exact h
    · extract_lets r
      have hr : Kept s0 r.state := bookAck_kept h
      split
      · exact addLate_kept hr
      · exact hr
  · exact addLate_kept h

theorem imageError_kept {s0 s : State} (h : Kept s0 s) : Kept s0 (imageError s) := by
  unfold imageError
  repeat'
    first | with_reducible assumption | with_reducible apply raise_kept | dsimp only |
      with_reducible refine kept_mk ?_ rfl rfl rfl rfl rfl rfl

theorem takeMissing_kept {s0 s : State} {a b} (h : Kept s0 s) : Kept s0 (takeMissing a b s) := by
  unfold takeMissing
  repeat'
    first | with_reducible assumption | with_reducible apply imageError_kept | with_reducible apply setImage_kept |
      with_reducible apply kept_ite | dsimp only | split | with_reducible refine kept_mk ?_ rfl rfl rfl rfl rfl rfl

theorem completeDownlinks_kept {s0 s : State} {a b c} (h : Kept s0 s) : Kept s0 (completeDownlinks a b c s) := by
  unfold completeDownlinks
  repeat'
    first | with_reducible assumption | with_reducible apply modNode_kept | dsimp only |
      with_reducible refine kept_mk ?_ rfl rfl rfl rfl rfl rfl

theorem deliver_kept {s0 s : State} {a b c d e} (h : Kept s0 s) : Kept s0 (deliver a b c d e s) := by
  unfold deliver
  repeat'
    first | with_reducible assumption | with_reducible apply foreignPacket_kept | with_reducible apply resolvePacket_kept |
      with_reducible apply pushBytes_kept | with_reducible apply takeMissing_kept |
      with_reducible apply completeDownlinks_kept | with_reducible apply kept_ite | dsimp only | split

theorem linkEnds_kept {s0 s : State} {a b} (h : Kept s0 s) : Kept s0 (linkEnds a b s).state := countLink_kept h

theorem linkReplay_kept {s0 s : State} {a b} (h : Kept s0 s) : Kept s0 (linkReplay a b s).state :=
  linkEnds_kept (raise_kept h)

theorem withAck_kept {s0 : State} {a} {b : AckResult} {c : State → State} (hc : KeptStep s0 c) (h : Kept s0 b.state) :
    Kept s0 (withAck a b c).state := hc.run h

theorem linkDuplicate_kept {s0 s : State} {a b c d e f} (h : Kept s0 s) : Kept s0 (linkDuplicate a b c d e f s).state := by
  unfold linkDuplicate
  extract_lets r s1
  have h1 : Kept s0 s1 := kept_ite h (learnTiming_kept (learnDuplicate_kept h))
  split
  · exact withAck_kept (fun _ k => countLink_kept k) (decideAck_kept h1)
  · exact linkEnds_kept h1

theorem linkAccept_kept {s0 s : State} {a b c d e f g i} (h : Kept s0 s) :
    Kept s0 (linkAccept a b c d e f g i s).state := by
  unfold linkAccept
  extract_lets foreign s1 s2 tenant data body out r
  have h1 : Kept s0 s1 := commitWindow_kept (ensureNode_kept h)
  have h2 : Kept s0 s2 := kept_ite h1 (learnTiming_kept (modNode_kept h1))
  refine withAck_kept (fun t k => countLink_kept ?_) ?_
  · cases body with
    | some l => exact deliver_kept k
    | none => exact k
  · show Kept s0 (if _ then _ else _ : AckResult).state
    split
    · exact decideAck_kept h2
    · exact h2

theorem linkCheck_kept {s0 s : State} {a b c d e f} (h : Kept s0 s) : Kept s0 (linkCheck a b c d e f s).state := by
  unfold linkCheck
  split
  · exact linkEnds_kept h
  · split
    · exact linkReplay_kept h
    · split
      · exact linkReplay_kept h
      · exact linkReplay_kept h
      · exact linkDuplicate_kept h
      · split
        · rename_i e'
          have h1 := kept_of_snd e' (openFrame_kept h)
          exact linkEnds_kept (kept_ite (raise_kept h1) h1)
        · rename_i e'
          exact linkAccept_kept (kept_of_snd e' (openFrame_kept h))

theorem linkHome_kept {s0 s : State} {a b c d e f} (h : Kept s0 s) : Kept s0 (linkHome a b c d e f s).state := by
  unfold linkHome
  extract_lets hit s1
  have h1 : Kept s0 s1 := kept_ite (seenLookup_kept h) h
  split
  · exact linkDuplicate_kept h1
  · split
    · exact linkEnds_kept h1
    · exact linkCheck_kept h1

theorem linkSteps_kept {s0 s : State} {a b} (h : Kept s0 s) : Kept s0 (linkSteps a b s).state := by
  unfold linkSteps
  dsimp only
  split
  · split
    · exact linkEnds_kept h
    · exact h
  · split
    · exact h
    · split
      · exact linkEnds_kept h
      · split
        · exact linkEnds_kept h
        · split
          · exact linkHome_kept h
          · split
            · exact linkEnds_kept (originate_kept h)
            · exact linkHome_kept h

theorem overrunTrouble_kept {s0 : State} {a} {b : LinkResult} (h : Kept s0 b.state) :
    Kept s0 (overrunTrouble a b).state := by
  unfold overrunTrouble
  split
  · exact raise_kept (kept_ite (raise_kept h) h)
  · exact h

theorem recordLive_kept {s0 : State} {a} {b : LinkResult} (h : Kept s0 b.state) : Kept s0 (recordLive a b) :=
  postRecord_kept h

theorem recordResidue_kept {s0 s : State} {a} {b : LinkResult} (hb : Kept s0 b.state) (h : Kept s0 s) :
    Kept s0 (recordResidue a b s) := by
  unfold recordResidue
  refine kept_ite (discardResidue_kept hb) (kept_ite (discardResidue_kept h) ?_)
  extract_lets o s1 s2
  have h1 : Kept s0 s1 := countCut_kept (rememberDecoded_kept (offerCut_kept hb))
  refine postRecord_kept ?_
  show Kept s0 (match a.job with
    | some j => _
    | none => s1)
  split
  · split
    · exact setJob_kept h1
    · exact h1
  · exact h1

theorem recordCombined_kept {s0 : State} {a} {b : LinkResult} (h : Kept s0 b.state) : Kept s0 (recordCombined a b) := by
  unfold recordCombined
  exact kept_ite (countComb_kept h) (postRecordTo_kept h)

theorem linkOwn_kept {s0 s : State} {a} (h : Kept s0 s) : Kept s0 (linkOwn a s) := by
  unfold linkOwn
  extract_lets t r
  have hr : Kept s0 r.state := overrunTrouble_kept (linkSteps_kept h)
  exact kept_ite (recordResidue_kept hr h) (kept_ite (recordLive_kept hr) (recordCombined_kept hr))

theorem linkForwarded_kept {s0 s : State} {a b} (h : Kept s0 s) : Kept s0 (linkForwarded a b s) := by
  unfold linkForwarded
  dsimp only
  split
  · exact h
  · exact kept_ite (originate_kept h) (overrunTrouble_kept (linkHome_kept h))

theorem linkFrame_kept {s0 s : State} {a} (h : Kept s0 s) : Kept s0 (linkFrame a s) := by
  unfold linkFrame
  repeat'
    first | with_reducible assumption | with_reducible apply linkForwarded_kept | with_reducible apply linkOwn_kept |
      dsimp only | split

theorem execLinkEngineFrame_kept {s0 s : State} (h : Kept s0 s) : KeptOut s0 (execLinkEngineFrame s) := by
  unfold execLinkEngineFrame
  repeat'
    first | with_reducible assumption | with_reducible apply linkFrame_kept | with_reducible apply keptOut_next |
      dsimp only | split | with_reducible refine kept_mk ?_ rfl rfl rfl rfl rfl rfl

theorem execForwardedFrame_kept {s0 s : State} {a b} (h : Kept s0 s) : KeptOut s0 (execForwardedFrame a b s) := by
  unfold execForwardedFrame
  repeat'
    first | with_reducible assumption | with_reducible apply mirrorHerd_kept | with_reducible apply joinLink_kept |
      with_reducible apply kept_ite | with_reducible apply keptOut_ite | with_reducible apply keptOut_next | dsimp only |
      split | with_reducible refine kept_mk ?_ rfl rfl rfl rfl rfl rfl

theorem execHomeAck_kept {s0 s : State} {a} (h : Kept s0 s) : KeptOut s0 (execHomeAck a s) := by
  unfold execHomeAck
  repeat'
    first | with_reducible assumption | with_reducible apply mirrorHerd_kept | with_reducible apply postPassed_kept |
      with_reducible apply fail_kept | with_reducible apply takeOn_kept | with_reducible apply refuseBooked_kept |
      with_reducible apply requestAtBooking_kept | with_reducible apply countLink_kept | with_reducible apply setTx_kept |
      with_reducible apply kept_ite | with_reducible apply keptOut_ite | with_reducible apply keptOut_next | dsimp only |
      split | with_reducible refine kept_mk ?_ rfl rfl rfl rfl rfl rfl

theorem execSeenCacheAge_kept {s0 s : State} {a b} (h : Kept s0 s) : KeptOut s0 (execSeenCacheAge a b s) := by
  unfold execSeenCacheAge
  repeat'
    first | with_reducible assumption | with_reducible apply keptOut_next | dsimp only |
      with_reducible refine kept_mk ?_ rfl rfl rfl rfl rfl rfl

theorem endOverlap_kept {s0 s : State} {a} (h : Kept s0 s) : Kept s0 (endOverlap a s) := by
  unfold endOverlap
  repeat'
    first | with_reducible assumption | with_reducible apply dropKeys_kept | with_reducible apply setNet_kept | dsimp only |
      with_reducible refine kept_mk ?_ rfl rfl rfl rfl rfl rfl

theorem execEpochOverlapEnd_kept {s0 s : State} {a} (h : Kept s0 s) : KeptOut s0 (execEpochOverlapEnd a s) := by
  unfold execEpochOverlapEnd
  repeat'
    first | with_reducible assumption | with_reducible apply endOverlap_kept | with_reducible apply kept_ite |
      with_reducible apply keptOut_ite | with_reducible apply keptOut_next | dsimp only | split

theorem restartCrypto_kept {s0 s : State} (h : Kept s0 s) : Kept s0 (restartCrypto s) := by
  unfold restartCrypto
  repeat'
    first | with_reducible assumption | with_reducible apply postEvent_kept | with_reducible apply raise_kept |
      with_reducible apply completeWhere_kept | dsimp only

theorem execCryptoEngineFaultRestart_kept {s0 s : State} (h : Kept s0 s) : KeptOut s0 (execCryptoEngineFaultRestart s) := by
  unfold execCryptoEngineFaultRestart
  repeat'
    first | with_reducible assumption | with_reducible apply restartCrypto_kept | with_reducible apply keptOut_next |
      dsimp only | with_reducible refine kept_mk ?_ rfl rfl rfl rfl rfl rfl

theorem execImageRoundComplete_kept {s0 s : State} {a} (h : Kept s0 s) : KeptOut s0 (execImageRoundComplete a s) := by
  unfold execImageRoundComplete
  repeat'
    first | with_reducible assumption | with_reducible apply postEvent_kept | with_reducible apply setImage_kept |
      with_reducible apply kept_ite | with_reducible apply keptOut_ite | with_reducible apply keptOut_next | dsimp only |
      split | with_reducible refine kept_mk ?_ rfl rfl rfl rfl rfl rfl

theorem endTransfer_kept {s0 s : State} {a b c} (h : Kept s0 s) : Kept s0 (endTransfer a b c s) := by
  unfold endTransfer
  repeat'
    first | with_reducible assumption | with_reducible apply postEvent_kept | with_reducible apply setImage_kept |
      dsimp only | with_reducible refine kept_mk ?_ rfl rfl rfl rfl rfl rfl

theorem execReportWaitExpiry_kept {s0 s : State} {a} (h : Kept s0 s) : KeptOut s0 (execReportWaitExpiry a s) := by
  unfold execReportWaitExpiry
  repeat'
    first | with_reducible assumption | with_reducible apply endTransfer_kept | with_reducible apply setImage_kept |
      with_reducible apply kept_ite | with_reducible apply keptOut_ite | with_reducible apply keptOut_next | dsimp only |
      split | with_reducible refine kept_mk ?_ rfl rfl rfl rfl rfl rfl

end Sys2Proof.Laws
end

