-- ==== Sys2Proof/Laws/KeptLinkCmd.lean ====
section
/-! SUPPORT. What the operations of Machine/LinkCmd.lean keep. -/

namespace Sys2Proof.Laws

open Sys2Proof.Machine Sys2Proof.Safety

set_option linter.unusedTactic false
set_option linter.unreachableTactic false

theorem setNetCfg_kept {s0 s : State} {b c} (h : Kept s0 s) : Kept s0 (setNetCfg s b c) := by
  unfold setNetCfg
  repeat'
    first | with_reducible assumption | dsimp only | with_reducible refine kept_mk ?_ rfl rfl rfl rfl rfl rfl

theorem linkNetworkSetSpec_kept : KeptSpec (linkNetworkSetSpec) := by
  intro s0 s c h
  dsimp only [linkNetworkSetSpec, plainSpec, done]
  repeat'
    first | with_reducible assumption | with_reducible apply dropKeys_kept | with_reducible apply setNetCfg_kept |
      with_reducible apply kept_ite | with_reducible apply kept_ite_answer | dsimp only | split |
      with_reducible refine kept_mk ?_ rfl rfl rfl rfl rfl rfl

theorem execLinkNetworkSet_kept {s0 s : State} {a} (h : Kept s0 s) : KeptOut s0 (execLinkNetworkSet a s) := by
  unfold execLinkNetworkSet
  repeat'
    first | with_reducible assumption | with_reducible apply runCommand_kept | with_reducible exact linkNetworkSetSpec_kept |
      dsimp only

theorem linkNetworkStatusSpec_kept : KeptSpec (linkNetworkStatusSpec) := by
  intro s0 s c h
  dsimp only [linkNetworkStatusSpec, plainSpec, doneWith]
  repeat'
    first | with_reducible assumption | dsimp only

theorem execLinkNetworkStatus_kept {s0 s : State} {a} (h : Kept s0 s) : KeptOut s0 (execLinkNetworkStatus a s) := by
  unfold execLinkNetworkStatus
  repeat'
    first | with_reducible assumption | with_reducible apply runCommand_kept |
      with_reducible exact linkNetworkStatusSpec_kept | dsimp only

theorem advanceEpoch_kept {s0 s : State} {a} (h : Kept s0 s) : Kept s0 (advanceEpoch a s) := by
  unfold advanceEpoch
  repeat'
    first | with_reducible assumption | with_reducible apply endOverlap_kept | with_reducible apply setNet_kept |
      with_reducible apply setNetCfg_kept | dsimp only | with_reducible refine kept_mk ?_ rfl rfl rfl rfl rfl rfl

theorem linkEpochAdvanceSpec_kept : KeptSpec (linkEpochAdvanceSpec) := by
  intro s0 s c h
  dsimp only [linkEpochAdvanceSpec, plainSpec, doneWith]
  repeat'
    first | with_reducible assumption | with_reducible apply advanceEpoch_kept | dsimp only |
      with_reducible refine kept_mk ?_ rfl rfl rfl rfl rfl rfl

theorem execLinkEpochAdvance_kept {s0 s : State} {a} (h : Kept s0 s) : KeptOut s0 (execLinkEpochAdvance a s) := by
  unfold execLinkEpochAdvance
  repeat'
    first | with_reducible assumption | with_reducible apply runCommand_kept |
      with_reducible exact linkEpochAdvanceSpec_kept | dsimp only

theorem linkSeenSetSpec_kept : KeptSpec (linkSeenSetSpec) := by
  intro s0 s c h
  dsimp only [linkSeenSetSpec, plainSpec, done]
  repeat'
    first | with_reducible assumption | dsimp only | with_reducible refine kept_mk ?_ rfl rfl rfl rfl rfl rfl

theorem execLinkSeenSet_kept {s0 s : State} {a} (h : Kept s0 s) : KeptOut s0 (execLinkSeenSet a s) := by
  unfold execLinkSeenSet
  repeat'
    first | with_reducible assumption | with_reducible apply runCommand_kept | with_reducible exact linkSeenSetSpec_kept |
      dsimp only

theorem iphcContextSetSpec_kept : KeptSpec (iphcContextSetSpec) := by
  intro s0 s c h
  dsimp only [iphcContextSetSpec, plainSpec, done]
  repeat'
    first | with_reducible assumption | dsimp only | with_reducible refine kept_mk ?_ rfl rfl rfl rfl rfl rfl

theorem execIphcContextSet_kept {s0 s : State} {a} (h : Kept s0 s) : KeptOut s0 (execIphcContextSet a s) := by
  unfold execIphcContextSet
  repeat'
    first | with_reducible assumption | with_reducible apply runCommand_kept | with_reducible exact iphcContextSetSpec_kept |
      dsimp only

theorem replayStateReadSpec_kept : KeptSpec (replayStateReadSpec) := by
  intro s0 s c h
  dsimp only [replayStateReadSpec, plainSpec, doneWith, ends]
  repeat'
    first | with_reducible assumption | dsimp only | split

theorem execReplayStateRead_kept {s0 s : State} {a} (h : Kept s0 s) : KeptOut s0 (execReplayStateRead a s) := by
  unfold execReplayStateRead
  repeat'
    first | with_reducible assumption | with_reducible apply runCommand_kept |
      with_reducible exact replayStateReadSpec_kept | dsimp only

theorem keyCacheFlushSpec_kept : KeptSpec (keyCacheFlushSpec) := by
  intro s0 s c h
  dsimp only [keyCacheFlushSpec, plainSpec, doneWith]
  repeat'
    first | with_reducible assumption | with_reducible apply dropKeys_kept | dsimp only

theorem execKeyCacheFlush_kept {s0 s : State} {a} (h : Kept s0 s) : KeptOut s0 (execKeyCacheFlush a s) := by
  unfold execKeyCacheFlush
  repeat'
    first | with_reducible assumption | with_reducible apply runCommand_kept | with_reducible exact keyCacheFlushSpec_kept |
      dsimp only

theorem cryptoEngineRestartSpec_kept : KeptSpec (cryptoEngineRestartSpec) := by
  intro s0 s c h
  dsimp only [cryptoEngineRestartSpec, plainSpec, doneWith]
  repeat'
    first | with_reducible assumption | with_reducible apply restartCrypto_kept | dsimp only

theorem execCryptoEngineRestart_kept {s0 s : State} {a} (h : Kept s0 s) : KeptOut s0 (execCryptoEngineRestart a s) := by
  unfold execCryptoEngineRestart
  repeat'
    first | with_reducible assumption | with_reducible apply runCommand_kept |
      with_reducible exact cryptoEngineRestartSpec_kept | dsimp only

theorem imageLoadSpec_kept : KeptSpec (imageLoadSpec) := by
  intro s0 s c h
  dsimp only [imageLoadSpec, plainSpec, ends, doneWith]
  repeat'
    first | with_reducible assumption | with_reducible apply raise_kept | with_reducible apply kept_ite |
      with_reducible apply kept_ite_answer | dsimp only | split | with_reducible refine kept_mk ?_ rfl rfl rfl rfl rfl rfl

theorem execImageLoad_kept {s0 s : State} {a} (h : Kept s0 s) : KeptOut s0 (execImageLoad a s) := by
  unfold execImageLoad
  repeat'
    first | with_reducible assumption | with_reducible apply runCommand_kept | with_reducible exact imageLoadSpec_kept |
      dsimp only

theorem imageStartSpec_kept : KeptSpec (imageStartSpec) := by
  intro s0 s c h
  dsimp only [imageStartSpec, plainSpec, done]
  repeat'
    first | with_reducible assumption | with_reducible apply setImage_kept | dsimp only | split |
      with_reducible refine kept_mk ?_ rfl rfl rfl rfl rfl rfl

theorem execImageStart_kept {s0 s : State} {a} (h : Kept s0 s) : KeptOut s0 (execImageStart a s) := by
  unfold execImageStart
  repeat'
    first | with_reducible assumption | with_reducible apply runCommand_kept | with_reducible exact imageStartSpec_kept |
      dsimp only

theorem imageStopSpec_kept : KeptSpec (imageStopSpec) := by
  intro s0 s c h
  dsimp only [imageStopSpec, plainSpec, done]
  repeat'
    first | with_reducible assumption | with_reducible apply endTransfer_kept | with_reducible apply kept_ite |
      with_reducible apply kept_ite_answer | dsimp only | split | with_reducible refine kept_mk ?_ rfl rfl rfl rfl rfl rfl

theorem execImageStop_kept {s0 s : State} {a} (h : Kept s0 s) : KeptOut s0 (execImageStop a s) := by
  unfold execImageStop
  repeat'
    first | with_reducible assumption | with_reducible apply runCommand_kept | with_reducible exact imageStopSpec_kept |
      dsimp only

theorem imageStatusSpec_kept : KeptSpec (imageStatusSpec) := by
  intro s0 s c h
  dsimp only [imageStatusSpec, plainSpec, doneWith, done]
  repeat'
    first | with_reducible assumption | dsimp only | split | with_reducible refine kept_mk ?_ rfl rfl rfl rfl rfl rfl

theorem execImageStatus_kept {s0 s : State} {a} (h : Kept s0 s) : KeptOut s0 (execImageStatus a s) := by
  unfold execImageStatus
  repeat'
    first | with_reducible assumption | with_reducible apply runCommand_kept | with_reducible exact imageStatusSpec_kept |
      dsimp only

theorem linkCountersReadSpec_kept : KeptSpec (linkCountersReadSpec) := by
  intro s0 s c h
  dsimp only [linkCountersReadSpec, plainSpec, doneWith]
  repeat'
    first | with_reducible assumption | with_reducible apply setNet_kept | dsimp only | split |
      with_reducible refine kept_mk ?_ rfl rfl rfl rfl rfl rfl

theorem execLinkCountersRead_kept {s0 s : State} {a} (h : Kept s0 s) : KeptOut s0 (execLinkCountersRead a s) := by
  unfold execLinkCountersRead
  repeat'
    first | with_reducible assumption | with_reducible apply runCommand_kept |
      with_reducible exact linkCountersReadSpec_kept | dsimp only

end Sys2Proof.Laws
end

