-- ==== Sys2Proof/Laws/KeptReceive.lean ====
section
/-! SUPPORT. What the operations of Machine/Receive.lean keep. -/

namespace Sys2Proof.Laws

open Sys2Proof.Machine Sys2Proof.Safety

set_option linter.unusedTactic false
set_option linter.unreachableTactic false

theorem realign_kept {s0 s : State} {a} (h : Kept s0 s) : Kept s0 (realign a s) := by
  unfold realign
  repeat'
    first | with_reducible assumption | with_reducible apply setPort_kept |
      with_reducible refine kept_foldl ?_ fun _ _ _ => ?_ | dsimp only |
      with_reducible refine kept_mk ?_ rfl rfl rfl rfl rfl rfl

theorem linkPorts_kept {s0 s : State} {a} (h : Kept s0 s) : Kept s0 (linkPorts a s) := by
  unfold linkPorts
  repeat'
    first | with_reducible assumption | with_reducible apply setPort_kept | with_reducible apply setRxPlain_kept |
      with_reducible apply kept_ite | with_reducible refine kept_foldl ?_ fun _ _ _ => ?_ | dsimp only | split |
      with_reducible refine kept_mk ?_ rfl rfl rfl rfl rfl rfl

theorem movePorts_kept {s0 s : State} {a b} (h : Kept s0 s) : Kept s0 (movePorts a b s) := by
  unfold movePorts
  repeat'
    first | with_reducible assumption | with_reducible apply setPort_kept | with_reducible apply setPlainCfg_kept |
      with_reducible refine kept_foldl ?_ fun _ _ _ => ?_ | dsimp only |
      with_reducible refine kept_mk ?_ rfl rfl rfl rfl rfl rfl

theorem enablePlain_kept {s0 s : State} {a} (h : Kept s0 s) : Kept s0 (enablePlain a s) := by
  unfold enablePlain
  repeat'
    first | with_reducible assumption | with_reducible apply refreshMode_kept | with_reducible apply repartition_kept |
      with_reducible apply linkPorts_kept | with_reducible apply changePlain_kept | dsimp only |
      with_reducible refine kept_mk ?_ rfl rfl rfl rfl rfl rfl

theorem plainConfigureSpec_kept : KeptSpec (plainConfigureSpec) := by
  intro s0 s c h
  dsimp only [plainConfigureSpec, plainSpec, done, ends]
  repeat'
    first | with_reducible assumption | with_reducible apply realign_kept | with_reducible apply movePorts_kept |
      with_reducible apply refreshMode_kept | with_reducible apply enablePlain_kept | with_reducible apply kept_ite |
      with_reducible apply kept_ite_answer | dsimp only | split | with_reducible refine kept_mk ?_ rfl rfl rfl rfl rfl rfl

theorem execPlainConfigure_kept {s0 s : State} {a} (h : Kept s0 s) : KeptOut s0 (execPlainConfigure a s) := by
  unfold execPlainConfigure
  repeat'
    first | with_reducible assumption | with_reducible apply runCommand_kept | with_reducible exact plainConfigureSpec_kept |
      dsimp only

theorem plainDisableSpec_kept : KeptSpec (plainDisableSpec) := by
  intro s0 s c h
  dsimp only [plainDisableSpec, plainSpec, doneWith]
  repeat'
    first | with_reducible assumption | with_reducible apply beginWithdrawal_kept | with_reducible apply kept_ite |
      with_reducible apply kept_ite_answer | dsimp only | split | with_reducible refine kept_mk ?_ rfl rfl rfl rfl rfl rfl

theorem execPlainDisable_kept {s0 s : State} {a} (h : Kept s0 s) : KeptOut s0 (execPlainDisable a s) := by
  unfold execPlainDisable
  repeat'
    first | with_reducible assumption | with_reducible apply runCommand_kept | with_reducible exact plainDisableSpec_kept |
      dsimp only

theorem plainStatusSpec_kept : KeptSpec (plainStatusSpec) := by
  intro s0 s c h
  dsimp only [plainStatusSpec, plainSpec, doneWith]
  repeat'
    first | with_reducible assumption | dsimp only

theorem execPlainStatus_kept {s0 s : State} {a} (h : Kept s0 s) : KeptOut s0 (execPlainStatus a s) := by
  unfold execPlainStatus
  repeat'
    first | with_reducible assumption | with_reducible apply runCommand_kept | with_reducible exact plainStatusSpec_kept |
      dsimp only

theorem chainEnableSpec_kept : KeptSpec (chainEnableSpec) := by
  intro s0 s c h
  dsimp only [chainEnableSpec, plainSpec, doneWith]
  repeat'
    first | with_reducible assumption | with_reducible apply refreshMode_kept | with_reducible apply changePlain_kept |
      with_reducible apply beginWithdrawal_kept | with_reducible apply kept_ite | with_reducible apply kept_ite_answer |
      dsimp only | split | with_reducible refine kept_mk ?_ rfl rfl rfl rfl rfl rfl

theorem execChainEnable_kept {s0 s : State} {a} (h : Kept s0 s) : KeptOut s0 (execChainEnable a s) := by
  unfold execChainEnable
  repeat'
    first | with_reducible assumption | with_reducible apply runCommand_kept | with_reducible exact chainEnableSpec_kept |
      dsimp only

theorem searchChange_kept {s0 s : State} {a b c d} (h : Kept s0 s) : Kept s0 (searchChange a b c d s).state := by
  unfold searchChange ends doneWith
  repeat'
    first | with_reducible assumption | with_reducible apply refreshMode_kept | with_reducible apply changePlain_kept |
      with_reducible apply beginWithdrawal_kept | with_reducible apply setPlainCfg_kept | with_reducible apply kept_ite |
      with_reducible apply kept_ite_answer | dsimp only | split | with_reducible refine kept_mk ?_ rfl rfl rfl rfl rfl rfl

theorem searchSetSpec_kept : KeptSpec (searchSetSpec) := by
  intro s0 s c h
  dsimp only [searchSetSpec, plainSpec]
  repeat'
    first | with_reducible assumption | with_reducible apply searchChange_kept | dsimp only |
      with_reducible refine kept_mk ?_ rfl rfl rfl rfl rfl rfl

theorem execSearchSet_kept {s0 s : State} {a} (h : Kept s0 s) : KeptOut s0 (execSearchSet a s) := by
  unfold execSearchSet
  repeat'
    first | with_reducible assumption | with_reducible apply runCommand_kept | with_reducible exact searchSetSpec_kept |
      dsimp only

theorem beamEnableSpec_kept : KeptSpec (beamEnableSpec) := by
  intro s0 s c h
  dsimp only [beamEnableSpec, plainSpec]
  repeat'
    first | with_reducible assumption | with_reducible apply searchChange_kept | dsimp only |
      with_reducible refine kept_mk ?_ rfl rfl rfl rfl rfl rfl

theorem execBeamEnable_kept {s0 s : State} {a} (h : Kept s0 s) : KeptOut s0 (execBeamEnable a s) := by
  unfold execBeamEnable
  repeat'
    first | with_reducible assumption | with_reducible apply runCommand_kept | with_reducible exact beamEnableSpec_kept |
      dsimp only

theorem syncSetSpec_kept : KeptSpec (syncSetSpec) := by
  intro s0 s c h
  dsimp only [syncSetSpec, plainSpec, rxSpec, schedSpec, done, doneWith, ends, runsOn]
  repeat'
    first | with_reducible assumption | with_reducible apply setPlainCfg_kept | dsimp only |
      with_reducible refine kept_mk ?_ rfl rfl rfl rfl rfl rfl

theorem execSyncSet_kept {s0 s : State} {a} (h : Kept s0 s) : KeptOut s0 (execSyncSet a s) := by
  unfold execSyncSet
  repeat'
    first | with_reducible assumption | with_reducible apply runCommand_kept | with_reducible exact syncSetSpec_kept |
      dsimp only

theorem detectSetSpec_kept : KeptSpec (detectSetSpec) := by
  intro s0 s c h
  dsimp only [detectSetSpec, plainSpec, rxSpec, schedSpec, done, doneWith, ends, runsOn]
  repeat'
    first | with_reducible assumption | with_reducible apply setPlainCfg_kept | dsimp only |
      with_reducible refine kept_mk ?_ rfl rfl rfl rfl rfl rfl

theorem execDetectSet_kept {s0 s : State} {a} (h : Kept s0 s) : KeptOut s0 (execDetectSet a s) := by
  unfold execDetectSet
  repeat'
    first | with_reducible assumption | with_reducible apply runCommand_kept | with_reducible exact detectSetSpec_kept |
      dsimp only

theorem trackCapSetSpec_kept : KeptSpec (trackCapSetSpec) := by
  intro s0 s c h
  dsimp only [trackCapSetSpec, plainSpec, rxSpec, schedSpec, done, doneWith, ends, runsOn]
  repeat'
    first | with_reducible assumption | with_reducible apply setPlainCfg_kept | dsimp only |
      with_reducible refine kept_mk ?_ rfl rfl rfl rfl rfl rfl

theorem execTrackCapSet_kept {s0 s : State} {a} (h : Kept s0 s) : KeptOut s0 (execTrackCapSet a s) := by
  unfold execTrackCapSet
  repeat'
    first | with_reducible assumption | with_reducible apply runCommand_kept | with_reducible exact trackCapSetSpec_kept |
      dsimp only

theorem recordSetSpec_kept : KeptSpec (recordSetSpec) := by
  intro s0 s c h
  dsimp only [recordSetSpec, plainSpec, rxSpec, schedSpec, done, doneWith, ends, runsOn]
  repeat'
    first | with_reducible assumption | with_reducible apply setPlainCfg_kept | dsimp only |
      with_reducible refine kept_mk ?_ rfl rfl rfl rfl rfl rfl

theorem execRecordSet_kept {s0 s : State} {a} (h : Kept s0 s) : KeptOut s0 (execRecordSet a s) := by
  unfold execRecordSet
  repeat'
    first | with_reducible assumption | with_reducible apply runCommand_kept | with_reducible exact recordSetSpec_kept |
      dsimp only

theorem sysrefSetSpec_kept : KeptSpec (sysrefSetSpec) := by
  intro s0 s c h
  dsimp only [sysrefSetSpec, plainSpec, rxSpec, schedSpec, done, doneWith, ends, runsOn]
  repeat'
    first | with_reducible assumption | with_reducible apply setPlainCfg_kept | dsimp only |
      with_reducible refine kept_mk ?_ rfl rfl rfl rfl rfl rfl

theorem execSysrefSet_kept {s0 s : State} {a} (h : Kept s0 s) : KeptOut s0 (execSysrefSet a s) := by
  unfold execSysrefSet
  repeat'
    first | with_reducible assumption | with_reducible apply runCommand_kept | with_reducible exact sysrefSetSpec_kept |
      dsimp only

theorem levelSetSpec_kept : KeptSpec (levelSetSpec) := by
  intro s0 s c h
  dsimp only [levelSetSpec, plainSpec, rxSpec, schedSpec, done, doneWith, ends, runsOn]
  repeat'
    first | with_reducible assumption | with_reducible apply setPlainCfg_kept | dsimp only |
      with_reducible refine kept_mk ?_ rfl rfl rfl rfl rfl rfl

theorem execLevelSet_kept {s0 s : State} {a} (h : Kept s0 s) : KeptOut s0 (execLevelSet a s) := by
  unfold execLevelSet
  repeat'
    first | with_reducible assumption | with_reducible apply runCommand_kept | with_reducible exact levelSetSpec_kept |
      dsimp only

theorem laneReturns_kept {s0 s : State} {a b} (h : Kept s0 s) : Kept s0 (laneReturns a b s) := by
  unfold laneReturns
  repeat'
    first | with_reducible assumption | with_reducible apply setPort_kept | with_reducible apply setRxPlain_kept |
      with_reducible apply closeMarks_kept | dsimp only | with_reducible refine kept_mk ?_ rfl rfl rfl rfl rfl rfl

theorem calibratePlain_kept {s0 s : State} {a b} (h : Kept s0 s) : Kept s0 (calibratePlain a b s) := by
  unfold calibratePlain
  repeat'
    first | with_reducible assumption | with_reducible apply setPort_kept | with_reducible apply realign_kept |
      with_reducible apply laneReturns_kept | with_reducible apply kept_ite |
      with_reducible refine kept_foldl ?_ fun _ _ _ => ?_ | dsimp only | split |
      with_reducible refine kept_mk ?_ rfl rfl rfl rfl rfl rfl

theorem calibrate_kept {s0 s : State} {a} (h : Kept s0 s) : Kept s0 (calibrate a s) := by
  unfold calibrate
  repeat'
    first | with_reducible assumption | with_reducible apply calibratePlain_kept | with_reducible apply kept_ite |
      with_reducible refine kept_foldl ?_ fun _ _ _ => ?_ | dsimp only | split |
      with_reducible refine kept_mk ?_ rfl rfl rfl rfl rfl rfl

theorem sendSysref_kept {s0 s : State} {a} (h : Kept s0 s) : Kept s0 (sendSysref a s) := by
  unfold sendSysref
  repeat'
    first | with_reducible assumption | with_reducible apply setRxPlain_kept |
      with_reducible refine kept_foldl ?_ fun _ _ _ => ?_ | dsimp only |
      with_reducible refine kept_mk ?_ rfl rfl rfl rfl rfl rfl

theorem runCalibration_kept {s0 s : State} {a} (h : Kept s0 s) : Kept s0 (runCalibration a s).state := by
  unfold runCalibration doneWith
  repeat'
    first | with_reducible assumption | with_reducible apply calibrate_kept | dsimp only | split |
      with_reducible refine kept_mk ?_ rfl rfl rfl rfl rfl rfl

theorem linkCalibrateSpec_kept : KeptSpec (linkCalibrateSpec) := by
  intro s0 s c h
  dsimp only [linkCalibrateSpec, plainSpec, runsOn]
  repeat'
    first | with_reducible assumption | with_reducible apply sendSysref_kept | with_reducible apply runCalibration_kept |
      with_reducible apply kept_ite | with_reducible apply kept_ite_answer | dsimp only | split |
      with_reducible refine kept_mk ?_ rfl rfl rfl rfl rfl rfl

theorem endCalWait_kept {s0 s : State} {a} (h : Kept s0 s) : Kept s0 (endCalWait a s) := by
  unfold endCalWait
  repeat'
    first | with_reducible assumption | with_reducible apply runCalibration_kept | with_reducible apply complete_kept |
      dsimp only | with_reducible refine kept_mk ?_ rfl rfl rfl rfl rfl rfl

theorem settleCalWaits_kept {s0 s : State} (h : Kept s0 s) : Kept s0 (settleCalWaits s) := by
  unfold settleCalWaits
  repeat'
    first | with_reducible assumption | with_reducible apply endCalWait_kept |
      with_reducible refine kept_foldl ?_ fun _ _ _ => ?_ | dsimp only

theorem execLinkCalibrate_kept {s0 s : State} {a} (h : Kept s0 s) : KeptOut s0 (execLinkCalibrate a s) := by
  unfold execLinkCalibrate
  repeat'
    first | with_reducible assumption | with_reducible apply runCommand_kept | with_reducible exact linkCalibrateSpec_kept |
      dsimp only

theorem withLatency_kept {s0 s : State} {a b} (h : Kept s0 s) : Kept s0 (withLatency a b s) := by
  unfold withLatency
  repeat'
    first | with_reducible assumption | with_reducible apply setPortCfg_kept | dsimp only |
      with_reducible refine kept_mk ?_ rfl rfl rfl rfl rfl rfl

theorem portLatencySetSpec_kept : KeptSpec (portLatencySetSpec) := by
  intro s0 s c h
  dsimp only [portLatencySetSpec, plainSpec, doneWith]
  repeat'
    first | with_reducible assumption | with_reducible apply withLatency_kept | with_reducible apply realign_kept |
      dsimp only | split | with_reducible refine kept_mk ?_ rfl rfl rfl rfl rfl rfl

theorem execPortLatencySet_kept {s0 s : State} {a} (h : Kept s0 s) : KeptOut s0 (execPortLatencySet a s) := by
  unfold execPortLatencySet
  repeat'
    first | with_reducible assumption | with_reducible apply runCommand_kept | with_reducible exact portLatencySetSpec_kept |
      dsimp only

theorem countCrc_kept {s0 s : State} {a} (h : Kept s0 s) : Kept s0 (countCrc a s) := by
  unfold countCrc
  repeat'
    first | with_reducible assumption | with_reducible apply setPort_kept | with_reducible apply kept_ite | dsimp only |
      split | with_reducible refine kept_mk ?_ rfl rfl rfl rfl rfl rfl

theorem portStatusSpec_kept : KeptSpec (portStatusSpec) := by
  intro s0 s c h
  dsimp only [portStatusSpec, plainSpec, doneWith]
  repeat'
    first | with_reducible assumption | with_reducible apply countCrc_kept | dsimp only

theorem execPortStatus_kept {s0 s : State} {a} (h : Kept s0 s) : KeptOut s0 (execPortStatus a s) := by
  unfold execPortStatus
  repeat'
    first | with_reducible assumption | with_reducible apply runCommand_kept | with_reducible exact portStatusSpec_kept |
      dsimp only

theorem lanePolaritySetSpec_kept : KeptSpec (lanePolaritySetSpec) := by
  intro s0 s c h
  dsimp only [lanePolaritySetSpec, plainSpec, done]
  repeat'
    first | with_reducible assumption | with_reducible apply setPortCfg_kept | dsimp only |
      with_reducible refine kept_mk ?_ rfl rfl rfl rfl rfl rfl

theorem execLanePolaritySet_kept {s0 s : State} {a} (h : Kept s0 s) : KeptOut s0 (execLanePolaritySet a s) := by
  unfold execLanePolaritySet
  repeat'
    first | with_reducible assumption | with_reducible apply runCommand_kept |
      with_reducible exact lanePolaritySetSpec_kept | dsimp only

theorem setShadow_kept {s0 s : State} {b c d} (h : Kept s0 s) : Kept s0 (setShadow s b c d) := by
  unfold setShadow
  repeat'
    first | with_reducible assumption | with_reducible apply setRxPlain_kept | with_reducible apply kept_ite | dsimp only |
      split | with_reducible refine kept_mk ?_ rfl rfl rfl rfl rfl rfl

theorem weightsWriteSpec_kept {a b} : KeptSpec (weightsWriteSpec a b) := by
  intro s0 s c h
  dsimp only [weightsWriteSpec, plainSpec, done]
  repeat'
    first | with_reducible assumption | with_reducible apply setShadow_kept | dsimp only |
      with_reducible refine kept_mk ?_ rfl rfl rfl rfl rfl rfl

theorem execBeamWeightsWrite_kept {s0 s : State} {a} (h : Kept s0 s) : KeptOut s0 (execBeamWeightsWrite a s) := by
  unfold execBeamWeightsWrite
  repeat'
    first | with_reducible assumption | with_reducible apply runCommand_kept | with_reducible exact weightsWriteSpec_kept |
      dsimp only

theorem execTxBeamWeightsWrite_kept {s0 s : State} {a} (h : Kept s0 s) : KeptOut s0 (execTxBeamWeightsWrite a s) := by
  unfold execTxBeamWeightsWrite
  repeat'
    first | with_reducible assumption | with_reducible apply runCommand_kept | with_reducible exact weightsWriteSpec_kept |
      dsimp only

theorem badTable_kept {s0 s : State} {a} (h : Kept s0 s) : Kept s0 (badTable a s).state := by
  unfold badTable ends
  repeat'
    first | with_reducible assumption | with_reducible apply postEvent_kept | with_reducible apply raise_kept | dsimp only |
      split

theorem tableActivateSpec_kept {a b} : KeptSpec (tableActivateSpec a b) := by
  intro s0 s c h
  dsimp only [tableActivateSpec, plainSpec, ends, runsOn]
  repeat'
    first | with_reducible assumption | with_reducible apply badTable_kept | with_reducible apply kept_ite |
      with_reducible apply kept_ite_answer | dsimp only | split | with_reducible refine kept_mk ?_ rfl rfl rfl rfl rfl rfl

theorem execBeamTableActivate_kept {s0 s : State} {a} (h : Kept s0 s) : KeptOut s0 (execBeamTableActivate a s) := by
  unfold execBeamTableActivate
  repeat'
    first | with_reducible assumption | with_reducible apply runCommand_kept | with_reducible exact tableActivateSpec_kept |
      dsimp only

theorem execTxBeamTableActivate_kept {s0 s : State} {a} (h : Kept s0 s) : KeptOut s0 (execTxBeamTableActivate a s) := by
  unfold execTxBeamTableActivate
  repeat'
    first | with_reducible assumption | with_reducible apply runCommand_kept | with_reducible exact tableActivateSpec_kept |
      dsimp only

theorem swapRx_kept {s0 s : State} {a} (h : Kept s0 s) : Kept s0 (swapRx a s) := by
  unfold swapRx
  repeat'
    first | with_reducible assumption | with_reducible apply changePlain_kept | with_reducible apply setRxPlain_kept |
      with_reducible apply refreshMode_kept | with_reducible apply markTracks_kept | dsimp only |
      with_reducible refine kept_mk ?_ rfl rfl rfl rfl rfl rfl

theorem swapTx_kept {s0 s : State} {a} (h : Kept s0 s) : Kept s0 (swapTx a s) := by
  unfold swapTx
  repeat'
    first | with_reducible assumption | with_reducible apply setTxCfg_kept | with_reducible apply setRxPlain_kept |
      with_reducible apply kept_ite | dsimp only | split | with_reducible refine kept_mk ?_ rfl rfl rfl rfl rfl rfl

theorem execBeamTableSwap_kept {s0 s : State} {a b} (h : Kept s0 s) : KeptOut s0 (execBeamTableSwap a b s) := by
  unfold execBeamTableSwap
  repeat'
    first | with_reducible assumption | with_reducible apply complete_kept | with_reducible apply swapTx_kept |
      with_reducible apply swapRx_kept | with_reducible apply kept_ite | with_reducible apply keptOut_ite |
      with_reducible apply keptOut_next | dsimp only | split | with_reducible refine kept_mk ?_ rfl rfl rfl rfl rfl rfl

theorem weightsReadSpec_kept {a b} : KeptSpec (weightsReadSpec a b) := by
  intro s0 s c h
  dsimp only [weightsReadSpec, plainSpec, doneWith]
  repeat'
    first | with_reducible assumption | with_reducible apply kept_ite | with_reducible apply kept_ite_answer | dsimp only |
      split

theorem execBeamWeightsRead_kept {s0 s : State} {a} (h : Kept s0 s) : KeptOut s0 (execBeamWeightsRead a s) := by
  unfold execBeamWeightsRead
  repeat'
    first | with_reducible assumption | with_reducible apply runCommand_kept | with_reducible exact weightsReadSpec_kept |
      dsimp only

theorem execTxBeamWeightsRead_kept {s0 s : State} {a} (h : Kept s0 s) : KeptOut s0 (execTxBeamWeightsRead a s) := by
  unfold execTxBeamWeightsRead
  repeat'
    first | with_reducible assumption | with_reducible apply runCommand_kept | with_reducible exact weightsReadSpec_kept |
      dsimp only

theorem execBeamParityError_kept {s0 s : State} {a b c} (h : Kept s0 s) : KeptOut s0 (execBeamParityError a b c s) := by
  unfold execBeamParityError
  repeat'
    first | with_reducible assumption | with_reducible apply setRxPlain_kept | with_reducible apply markTracks_kept |
      with_reducible apply postEvent_kept | with_reducible apply raise_kept | with_reducible apply kept_ite |
      with_reducible apply keptOut_ite | with_reducible apply keptOut_next | dsimp only | split |
      with_reducible refine kept_mk ?_ rfl rfl rfl rfl rfl rfl

theorem paddockWithdrawSpec_kept : KeptSpec (paddockWithdrawSpec) := by
  intro s0 s c h
  dsimp only [paddockWithdrawSpec, plainSpec, ends]
  repeat'
    first | with_reducible assumption | with_reducible apply beginWithdrawal_kept | with_reducible apply refreshMode_kept |
      with_reducible apply kept_ite | with_reducible apply kept_ite_answer | dsimp only | split |
      with_reducible refine kept_mk ?_ rfl rfl rfl rfl rfl rfl

theorem execPaddockWithdraw_kept {s0 s : State} {a} (h : Kept s0 s) : KeptOut s0 (execPaddockWithdraw a s) := by
  unfold execPaddockWithdraw
  repeat'
    first | with_reducible assumption | with_reducible apply runCommand_kept |
      with_reducible exact paddockWithdrawSpec_kept | dsimp only

theorem paddockRestoreSpec_kept : KeptSpec (paddockRestoreSpec) := by
  intro s0 s c h
  dsimp only [paddockRestoreSpec, plainSpec, doneWith]
  repeat'
    first | with_reducible assumption | with_reducible apply refreshMode_kept | dsimp only |
      with_reducible refine kept_mk ?_ rfl rfl rfl rfl rfl rfl

theorem execPaddockRestore_kept {s0 s : State} {a} (h : Kept s0 s) : KeptOut s0 (execPaddockRestore a s) := by
  unfold execPaddockRestore
  repeat'
    first | with_reducible assumption | with_reducible apply runCommand_kept | with_reducible exact paddockRestoreSpec_kept |
      dsimp only

theorem fabricStatusSpec_kept : KeptSpec (fabricStatusSpec) := by
  intro s0 s c h
  dsimp only [fabricStatusSpec, plainSpec, doneWith]
  repeat'
    first | with_reducible assumption | dsimp only

theorem execFabricStatus_kept {s0 s : State} {a} (h : Kept s0 s) : KeptOut s0 (execFabricStatus a s) := by
  unfold execFabricStatus
  repeat'
    first | with_reducible assumption | with_reducible apply runCommand_kept | with_reducible exact fabricStatusSpec_kept |
      dsimp only

theorem rxCountersReadSpec_kept : KeptSpec (rxCountersReadSpec) := by
  intro s0 s c h
  dsimp only [rxCountersReadSpec, plainSpec, doneWith]
  repeat'
    first | with_reducible assumption | with_reducible apply setRxPlain_kept | with_reducible apply kept_ite |
      with_reducible apply kept_ite_answer | dsimp only | split | with_reducible refine kept_mk ?_ rfl rfl rfl rfl rfl rfl

theorem execRxCountersRead_kept {s0 s : State} {a} (h : Kept s0 s) : KeptOut s0 (execRxCountersRead a s) := by
  unfold execRxCountersRead
  repeat'
    first | with_reducible assumption | with_reducible apply runCommand_kept | with_reducible exact rxCountersReadSpec_kept |
      dsimp only

theorem execLaneLoss_kept {s0 s : State} {a} (h : Kept s0 s) : KeptOut s0 (execLaneLoss a s) := by
  unfold execLaneLoss
  repeat'
    first | with_reducible assumption | with_reducible apply setPort_kept | with_reducible apply setRxPlain_kept |
      with_reducible apply addMark_kept | with_reducible apply markTracks_kept | with_reducible apply postEvent_kept |
      with_reducible apply raise_kept | with_reducible apply kept_ite | with_reducible apply keptOut_ite |
      with_reducible apply keptOut_next | dsimp only | split | with_reducible refine kept_mk ?_ rfl rfl rfl rfl rfl rfl

theorem execLaneRelink_kept {s0 s : State} {a b} (h : Kept s0 s) : KeptOut s0 (execLaneRelink a b s) := by
  unfold execLaneRelink
  repeat'
    first | with_reducible assumption | with_reducible apply setPort_kept | with_reducible apply settleCalWaits_kept |
      with_reducible apply laneReturns_kept | with_reducible apply postEvent_kept | with_reducible apply raise_kept |
      with_reducible apply kept_ite | with_reducible apply keptOut_ite | with_reducible apply keptOut_next | dsimp only |
      split | with_reducible refine kept_mk ?_ rfl rfl rfl rfl rfl rfl

theorem execSysrefFault_kept {s0 s : State} {a} (h : Kept s0 s) : KeptOut s0 (execSysrefFault a s) := by
  unfold execSysrefFault
  repeat'
    first | with_reducible assumption | with_reducible apply raise_kept | with_reducible apply keptOut_next | dsimp only

theorem postLevels_kept {s0 s : State} {a b c} (h : Kept s0 s) : Kept s0 (postLevels a b c s) := by
  unfold postLevels
  repeat'
    first | with_reducible assumption | with_reducible apply pushWords_kept | with_reducible apply raiseAll_kept |
      with_reducible apply countRx_kept | with_reducible apply kept_ite | dsimp only | split

theorem markClipped_kept {s0 s : State} {a b} (h : Kept s0 s) : Kept s0 (markClipped a b s) := by
  unfold markClipped
  repeat'
    first | with_reducible assumption | with_reducible apply markTracks_kept | with_reducible apply kept_ite | dsimp only |
      split | with_reducible refine kept_mk ?_ rfl rfl rfl rfl rfl rfl

theorem execLevelReport_kept {s0 s : State} {a b} (h : Kept s0 s) : KeptOut s0 (execLevelReport a b s) := by
  unfold execLevelReport
  repeat'
    first | with_reducible assumption | with_reducible apply setRxPlain_kept | with_reducible apply postLevels_kept |
      with_reducible apply markClipped_kept | with_reducible apply raise_kept | with_reducible apply kept_ite |
      with_reducible apply keptOut_ite | with_reducible apply keptOut_next | dsimp only | split |
      with_reducible refine kept_mk ?_ rfl rfl rfl rfl rfl rfl

end Sys2Proof.Laws
end

