-- ==== Sys2Proof/Laws/KeptSchedule.lean ====
section
/-! SUPPORT. What the operations of Machine/Schedule.lean keep. -/

namespace Sys2Proof.Laws

open Sys2Proof.Machine Sys2Proof.Safety

set_option linter.unusedTactic false
set_option linter.unreachableTactic false

theorem setSched_kept {s0 s : State} {b} (h : Kept s0 s) : Kept s0 (setSched s b) := by
  unfold setSched
  repeat'
    first | with_reducible assumption | dsimp only | with_reducible refine kept_mk ?_ rfl rfl rfl rfl rfl rfl

theorem applyChanges_kept {s0 s : State} {a} (h : Kept s0 s) : Kept s0 (applyChanges a s) := by
  unfold applyChanges
  repeat'
    first | with_reducible assumption | with_reducible apply setSched_kept |
      with_reducible refine kept_foldl ?_ fun _ _ _ => ?_ | dsimp only |
      with_reducible refine kept_mk ?_ rfl rfl rfl rfl rfl rfl

theorem addChange_kept {s0 s : State} {a b} (h : Kept s0 s) : Kept s0 (addChange a b s) := by
  unfold addChange
  repeat'
    first | with_reducible assumption | dsimp only | with_reducible refine kept_mk ?_ rfl rfl rfl rfl rfl rfl

theorem rebaseAsn_kept {s0 s : State} (h : Kept s0 s) : Kept s0 (rebaseAsn s) := by
  unfold rebaseAsn
  repeat'
    first | with_reducible assumption | with_reducible apply setPlainSched_kept |
      with_reducible refine kept_foldl ?_ fun _ _ _ => ?_ | dsimp only |
      with_reducible refine kept_mk ?_ rfl rfl rfl rfl rfl rfl

theorem scheduleSetSpec_kept : KeptSpec (scheduleSetSpec) := by
  intro s0 s c h
  dsimp only [scheduleSetSpec, plainSpec, rxSpec, schedSpec, done, doneWith, ends, runsOn]
  repeat'
    first | with_reducible assumption | with_reducible apply rebaseAsn_kept | with_reducible apply setSched_kept |
      dsimp only | with_reducible refine kept_mk ?_ rfl rfl rfl rfl rfl rfl

theorem execScheduleSet_kept {s0 s : State} {a} (h : Kept s0 s) : KeptOut s0 (execScheduleSet a s) := by
  unfold execScheduleSet
  repeat'
    first | with_reducible assumption | with_reducible apply runCommand_kept | with_reducible exact scheduleSetSpec_kept |
      dsimp only

theorem scheduleStatusSpec_kept : KeptSpec (scheduleStatusSpec) := by
  intro s0 s c h
  dsimp only [scheduleStatusSpec, plainSpec, doneWith]
  repeat'
    first | with_reducible assumption | dsimp only

theorem execScheduleStatus_kept {s0 s : State} {a} (h : Kept s0 s) : KeptOut s0 (execScheduleStatus a s) := by
  unfold execScheduleStatus
  repeat'
    first | with_reducible assumption | with_reducible apply runCommand_kept | with_reducible exact scheduleStatusSpec_kept |
      dsimp only

theorem slotframeSetSpec_kept : KeptSpec (slotframeSetSpec) := by
  intro s0 s c h
  dsimp only [slotframeSetSpec, plainSpec, rxSpec, schedSpec, done, doneWith, ends, runsOn]
  repeat'
    first | with_reducible assumption | with_reducible apply addChange_kept | dsimp only |
      with_reducible refine kept_mk ?_ rfl rfl rfl rfl rfl rfl

theorem execSlotframeSet_kept {s0 s : State} {a} (h : Kept s0 s) : KeptOut s0 (execSlotframeSet a s) := by
  unfold execSlotframeSet
  repeat'
    first | with_reducible assumption | with_reducible apply runCommand_kept | with_reducible exact slotframeSetSpec_kept |
      dsimp only

theorem hopseqSetSpec_kept : KeptSpec (hopseqSetSpec) := by
  intro s0 s c h
  dsimp only [hopseqSetSpec, plainSpec, rxSpec, schedSpec, done, doneWith, ends, runsOn]
  repeat'
    first | with_reducible assumption | with_reducible apply addChange_kept | dsimp only |
      with_reducible refine kept_mk ?_ rfl rfl rfl rfl rfl rfl

theorem execHopseqSet_kept {s0 s : State} {a} (h : Kept s0 s) : KeptOut s0 (execHopseqSet a s) := by
  unfold execHopseqSet
  repeat'
    first | with_reducible assumption | with_reducible apply runCommand_kept | with_reducible exact hopseqSetSpec_kept |
      dsimp only

theorem cellWriteSpec_kept : KeptSpec (cellWriteSpec) := by
  intro s0 s c h
  dsimp only [cellWriteSpec, plainSpec, rxSpec, schedSpec, done, doneWith, ends, runsOn]
  repeat'
    first | with_reducible assumption | with_reducible apply applyChanges_kept | with_reducible apply addChange_kept |
      dsimp only

theorem execCellWrite_kept {s0 s : State} {a} (h : Kept s0 s) : KeptOut s0 (execCellWrite a s) := by
  unfold execCellWrite
  repeat'
    first | with_reducible assumption | with_reducible apply runCommand_kept | with_reducible exact cellWriteSpec_kept |
      dsimp only

theorem cellReadSpec_kept : KeptSpec (cellReadSpec) := by
  intro s0 s c h
  dsimp only [cellReadSpec, plainSpec, doneWith]
  repeat'
    first | with_reducible assumption | dsimp only

theorem execCellRead_kept {s0 s : State} {a} (h : Kept s0 s) : KeptOut s0 (execCellRead a s) := by
  unfold execCellRead
  repeat'
    first | with_reducible assumption | with_reducible apply runCommand_kept | with_reducible exact cellReadSpec_kept |
      dsimp only

theorem guardClassSetSpec_kept : KeptSpec (guardClassSetSpec) := by
  intro s0 s c h
  dsimp only [guardClassSetSpec, plainSpec, done]
  repeat'
    first | with_reducible assumption | with_reducible apply setSched_kept | dsimp only |
      with_reducible refine kept_mk ?_ rfl rfl rfl rfl rfl rfl

theorem execGuardClassSet_kept {s0 s : State} {a} (h : Kept s0 s) : KeptOut s0 (execGuardClassSet a s) := by
  unfold execGuardClassSet
  repeat'
    first | with_reducible assumption | with_reducible apply runCommand_kept | with_reducible exact guardClassSetSpec_kept |
      dsimp only

theorem rendezvousSetSpec_kept : KeptSpec (rendezvousSetSpec) := by
  intro s0 s c h
  dsimp only [rendezvousSetSpec, plainSpec, ends, done]
  repeat'
    first | with_reducible assumption | with_reducible apply setNode_kept | with_reducible apply kept_ite |
      with_reducible apply kept_ite_answer | dsimp only | split | with_reducible refine kept_mk ?_ rfl rfl rfl rfl rfl rfl

theorem execRendezvousSet_kept {s0 s : State} {a} (h : Kept s0 s) : KeptOut s0 (execRendezvousSet a s) := by
  unfold execRendezvousSet
  repeat'
    first | with_reducible assumption | with_reducible apply runCommand_kept | with_reducible exact rendezvousSetSpec_kept |
      dsimp only

theorem rendezvousReadSpec_kept : KeptSpec (rendezvousReadSpec) := by
  intro s0 s c h
  dsimp only [rendezvousReadSpec, plainSpec, ends, doneWith]
  repeat'
    first | with_reducible assumption | dsimp only | split | with_reducible refine kept_mk ?_ rfl rfl rfl rfl rfl rfl

theorem execRendezvousRead_kept {s0 s : State} {a} (h : Kept s0 s) : KeptOut s0 (execRendezvousRead a s) := by
  unfold execRendezvousRead
  repeat'
    first | with_reducible assumption | with_reducible apply runCommand_kept | with_reducible exact rendezvousReadSpec_kept |
      dsimp only

theorem endWaiting_kept {s0 s : State} {a b} (h : Kept s0 s) : Kept s0 (endWaiting a b s) := by
  unfold endWaiting
  repeat'
    first | with_reducible assumption | with_reducible apply finalRecord_kept | with_reducible apply dropWaiting_kept |
      dsimp only

theorem downlinkPurgeSpec_kept : KeptSpec (downlinkPurgeSpec) := by
  intro s0 s c h
  dsimp only [downlinkPurgeSpec, plainSpec, ends, doneWith]
  repeat'
    first | with_reducible assumption | with_reducible apply endWaiting_kept |
      with_reducible refine kept_foldl ?_ fun _ _ _ => ?_ | dsimp only | split

theorem execDownlinkPurge_kept {s0 s : State} {a} (h : Kept s0 s) : KeptOut s0 (execDownlinkPurge a s) := by
  unfold execDownlinkPurge
  repeat'
    first | with_reducible assumption | with_reducible apply runCommand_kept | with_reducible exact downlinkPurgeSpec_kept |
      dsimp only

theorem execDlLifetimeExpiry_kept {s0 s : State} {a} (h : Kept s0 s) : KeptOut s0 (execDlLifetimeExpiry a s) := by
  unfold execDlLifetimeExpiry
  repeat'
    first | with_reducible assumption | with_reducible apply countSched_kept | with_reducible apply endWaiting_kept |
      with_reducible apply kept_ite | with_reducible apply keptOut_ite | with_reducible apply keptOut_next | dsimp only |
      split

theorem countCutOff_kept {s0 s : State} {a} (h : Kept s0 s) : Kept s0 (countCutOff a s) := by
  unfold countCutOff
  repeat'
    first | with_reducible assumption | with_reducible apply countSched_kept |
      with_reducible refine kept_foldl ?_ fun _ _ _ => ?_ | dsimp only

theorem digestDue_kept {s0 s : State} (h : Kept s0 s) : Kept s0 (digestDue s) := by
  unfold digestDue
  repeat'
    first | with_reducible assumption | with_reducible apply countTan_kept | with_reducible apply kept_ite | dsimp only |
      split | with_reducible refine kept_mk ?_ rfl rfl rfl rfl rfl rfl

theorem formDigest_kept {s0 s : State} {a} (h : Kept s0 s) : Kept s0 (formDigest a s) := by
  unfold formDigest
  repeat'
    first | with_reducible assumption | with_reducible apply digestDue_kept | with_reducible apply sendHerd_kept |
      with_reducible apply kept_ite | dsimp only | split | with_reducible refine kept_mk ?_ rfl rfl rfl rfl rfl rfl

theorem statusAll_kept {s0 s : State} {a b} (h : Kept s0 s) : Kept s0 (statusAll a b s) := by
  unfold statusAll
  repeat'
    first | with_reducible assumption | with_reducible apply modWaiting_kept |
      with_reducible refine kept_foldl ?_ fun _ _ _ => ?_ | dsimp only |
      with_reducible refine kept_mk ?_ rfl rfl rfl rfl rfl rfl

theorem deferNode_kept {s0 s : State} {a b c d} (h : Kept s0 s) : Kept s0 (deferNode a b c d s) := by
  unfold deferNode
  repeat'
    first | with_reducible assumption | with_reducible apply statusAll_kept | with_reducible apply outcome_kept |
      dsimp only | split | with_reducible refine kept_mk ?_ rfl rfl rfl rfl rfl rfl

theorem guardRefused_kept {s0 s : State} {a b c} (h : Kept s0 s) : Kept s0 (guardRefused a b c s) := by
  unfold guardRefused
  repeat'
    first | with_reducible assumption | with_reducible apply deferNode_kept | with_reducible apply raise_kept |
      with_reducible apply countSched_kept | dsimp only

theorem settleMeetings_kept {s0 s : State} {a b} (h : Kept s0 s) : Kept s0 (settleMeetings a b s) := by
  unfold settleMeetings
  repeat'
    first | with_reducible assumption | with_reducible apply guardRefused_kept | with_reducible apply deferNode_kept |
      with_reducible apply kept_ite | with_reducible refine kept_foldl ?_ fun _ _ _ => ?_ | dsimp only | split

theorem takeLate_kept {s0 s : State} {a} (h : Kept s0 s) : Kept s0 (takeLate a s) := by
  unfold takeLate
  repeat'
    first | with_reducible assumption | with_reducible apply modNode_kept | with_reducible apply kept_ite | dsimp only |
      split | with_reducible refine kept_mk ?_ rfl rfl rfl rfl rfl rfl

theorem failCand_kept {s0 s : State} {a b} {v : Selection} (h : Kept s0 v.state) : Kept s0 (failCand s a b v) := by
  unfold failCand
  extract_lets u
  have hu : Kept s0 u := takeLate_kept h
  split
  · split
    · exact fail_kept hu
    · exact fail_kept hu
  · exact fail_kept hu

theorem kept_ite_selection {s0 : State} {a b : Selection} {c : Prop} [Decidable c] (ha : Kept s0 a.state)
    (hb : Kept s0 b.state) : Kept s0 (if c then a else b).state := by split <;> assumption

theorem judgeCand_kept {s0 s : State} {v : Selection} {c} (h : Kept s0 v.state) : Kept s0 (judgeCand s v c).state := by
  unfold judgeCand
  refine kept_ite_selection h ?_
  have hu : Kept s0 (postPassed c.tx v.state) := postPassed_kept h
  revert hu
  generalize postPassed c.tx v.state = u
  intro hu
  dsimp only
  split
  · exact failCand_kept (v := { v with state := u }) hu
  · exact takeOn_kept (takeLate_kept hu)

theorem judgeCands_kept {s0 u : State} (l : List Cand) (v : Selection) (h : Kept s0 v.state) :
    Kept s0 (l.foldl (judgeCand u) v).state := by
  induction l generalizing v with
  | nil => exact h
  | cons c r ih => exact ih _ (judgeCand_kept h)

theorem select_kept {s0 s : State} {a b} (h : Kept s0 s) : Kept s0 (select a b s).state := by
  unfold select
  dsimp only
  exact judgeCands_kept _ _ (kept_mk (settleMeetings_kept h) rfl rfl rfl rfl rfl rfl)

theorem dropRequest_kept {s0 s : State} {a b} (h : Kept s0 s) : Kept s0 (dropRequest a b s) := by
  unfold dropRequest
  repeat'
    first | with_reducible assumption | with_reducible apply setTxRun_kept | with_reducible apply kept_ite | dsimp only |
      split | with_reducible refine kept_mk ?_ rfl rfl rfl rfl rfl rfl

theorem execCellSelection_kept {s0 s : State} {a b} (h : Kept s0 s) : KeptOut s0 (execCellSelection a b s) := by
  unfold execCellSelection
  dsimp only
  refine keptOut_ite (keptOut_next h) (keptOut_next (dropRequest_kept (kept_mk (setSched_kept ?_) rfl rfl rfl rfl rfl rfl)))
  exact select_kept (applyChanges_kept (setPlainSched_kept h))

theorem passTo_kept {s0 s : State} {a b c d e} (h : Kept s0 s) : Kept s0 (passTo a b c d e s) := by
  unfold passTo
  repeat'
    first | with_reducible assumption | with_reducible apply modWaiting_kept | with_reducible apply announce_kept |
      with_reducible apply originate_kept | with_reducible refine kept_of_snd (by assumption) ?_ | dsimp only | split |
      with_reducible refine kept_mk ?_ rfl rfl rfl rfl rfl rfl

theorem passRendezvous_kept {s0 s : State} {a b c d e} (h : Kept s0 s) : Kept s0 (passRendezvous a b c d e s) := by
  unfold passRendezvous
  repeat'
    first | with_reducible assumption | with_reducible apply guardRefused_kept | with_reducible apply passTo_kept |
      with_reducible apply deferNode_kept | with_reducible apply kept_ite | dsimp only | split

theorem execRendezvousCandidatePass_kept {s0 s : State} {a b c} (h : Kept s0 s) : KeptOut s0 (execRendezvousCandidatePass a
      b c s) := by
  unfold execRendezvousCandidatePass
  repeat'
    first | with_reducible assumption | with_reducible apply applyChanges_kept | with_reducible apply passRendezvous_kept |
      with_reducible apply setSched_kept | with_reducible apply kept_ite | with_reducible apply keptOut_ite |
      with_reducible apply keptOut_next | dsimp only | split | with_reducible refine kept_mk ?_ rfl rfl rfl rfl rfl rfl

theorem execRendezvousCandidate_kept {s0 s : State} {a} (h : Kept s0 s) : KeptOut s0 (execRendezvousCandidate a s) := by
  unfold execRendezvousCandidate
  repeat'
    first | with_reducible assumption | with_reducible apply mirrorHerd_kept | with_reducible apply tellHome_kept |
      with_reducible apply kept_ite | with_reducible apply keptOut_ite | with_reducible apply keptOut_next | dsimp only |
      split | with_reducible refine kept_mk ?_ rfl rfl rfl rfl rfl rfl

theorem settleItem_kept {s0 s : State} {a} (h : Kept s0 s) : Kept s0 (settleItem a s) := by
  unfold settleItem
  repeat'
    first | with_reducible assumption | with_reducible apply dropWaiting_kept | with_reducible apply waitAgain_kept |
      with_reducible apply kept_ite | dsimp only | split

theorem settleNode_kept {s0 s : State} {a b} (h : Kept s0 s) : Kept s0 (settleNode a b s) := by
  unfold settleNode
  repeat'
    first | with_reducible assumption | with_reducible apply modNode_kept | with_reducible apply kept_ite | dsimp only |
      split | with_reducible refine kept_mk ?_ rfl rfl rfl rfl rfl rfl

theorem execCandidateOutcome_kept {s0 s : State} {a} (h : Kept s0 s) : KeptOut s0 (execCandidateOutcome a s) := by
  unfold execCandidateOutcome
  repeat'
    first | with_reducible assumption | with_reducible apply mirrorHerd_kept | with_reducible apply settleNode_kept |
      with_reducible apply settleItem_kept | with_reducible apply keptOut_next | dsimp only | split |
      with_reducible refine kept_mk ?_ rfl rfl rfl rfl rfl rfl

end Sys2Proof.Laws
end

