-- ==== Sys2Proof/Laws/KeptTransmit.lean ====
section
/-! SUPPORT. What the operations of Machine/Transmit.lean keep. -/

namespace Sys2Proof.Laws

open Sys2Proof.Machine Sys2Proof.Safety

set_option linter.unusedTactic false
set_option linter.unreachableTactic false

theorem onPorts_kept {s0 s : State} {a b} (h : Kept s0 s) : Kept s0 (onPorts a b s) := by
  unfold onPorts
  repeat'
    first | with_reducible assumption | with_reducible apply setPort_kept |
      with_reducible refine kept_foldl ?_ fun _ _ _ => ?_ | dsimp only

theorem lowerRequest_kept {s0 s : State} {a} (h : Kept s0 s) : Kept s0 (lowerRequest a s) := by
  unfold lowerRequest
  repeat'
    first | with_reducible assumption | with_reducible apply setTxRun_kept | with_reducible apply kept_ite | dsimp only |
      split | with_reducible refine kept_mk ?_ rfl rfl rfl rfl rfl rfl

theorem returnScript_kept {s0 s : State} {a b} (h : Kept s0 s) : Kept s0 (returnScript a b s) := by
  unfold returnScript
  repeat'
    first | with_reducible assumption | with_reducible apply queueScript_kept | with_reducible apply kept_ite | dsimp only |
      split | with_reducible refine kept_mk ?_ rfl rfl rfl rfl rfl rfl

theorem returnPort_kept {s0 s : State} {a b c} (h : Kept s0 s) : Kept s0 (returnPort a b c s) := by
  unfold returnPort
  repeat'
    first | with_reducible assumption | with_reducible apply setPort_kept | with_reducible apply returnScript_kept |
      with_reducible apply kept_ite | dsimp only | split | with_reducible refine kept_mk ?_ rfl rfl rfl rfl rfl rfl

theorem beginReturn_kept {s0 s : State} {a b} (h : Kept s0 s) : Kept s0 (beginReturn a b s) := by
  unfold beginReturn
  repeat'
    first | with_reducible assumption | with_reducible apply onPorts_kept | with_reducible apply returnPort_kept |
      with_reducible apply setTxRun_kept | with_reducible apply returnDone_kept | with_reducible apply kept_ite |
      with_reducible refine kept_foldl ?_ fun _ _ _ => ?_ | dsimp only | split |
      with_reducible refine kept_mk ?_ rfl rfl rfl rfl rfl rfl

theorem onAir_kept {s0 s : State} {a b} (h : Kept s0 s) : Kept s0 (onAir a b s) := by
  unfold onAir
  repeat'
    first | with_reducible assumption | with_reducible apply kept_ite | dsimp only | split |
      with_reducible refine kept_mk ?_ rfl rfl rfl rfl rfl rfl

theorem leavePorts_kept {s0 s : State} {a} (h : Kept s0 s) : Kept s0 (leavePorts a s) := by
  unfold leavePorts
  repeat'
    first | with_reducible assumption | with_reducible apply settleSeq_kept | with_reducible apply beginReturn_kept |
      with_reducible apply kept_ite | dsimp only | split

theorem notStarted_kept {s0 s : State} {a b c d e} (h : Kept s0 s) : Kept s0 (notStarted a b c d e s) := by
  unfold notStarted
  repeat'
    first | with_reducible assumption | with_reducible apply refund_kept | with_reducible apply dropTx_kept |
      with_reducible apply postEvent_kept | with_reducible apply countTx_kept | with_reducible apply outcome_kept |
      with_reducible apply shortfall_kept | with_reducible apply lowerRequest_kept | with_reducible apply leavePorts_kept |
      dsimp only | split

theorem noteUnsure_kept {s0 s : State} {a} (h : Kept s0 s) : Kept s0 (noteUnsure a s) := by
  unfold noteUnsure
  repeat'
    first | with_reducible assumption | with_reducible apply modNode_kept | with_reducible apply kept_ite | dsimp only |
      split | with_reducible refine kept_mk ?_ rfl rfl rfl rfl rfl rfl

theorem rampDown_kept {s0 s : State} {a b} (h : Kept s0 s) : Kept s0 (rampDown a b s) := by
  unfold rampDown
  repeat'
    first | with_reducible assumption | with_reducible apply noteUnsure_kept | with_reducible apply onAir_kept |
      with_reducible apply setTx_kept | dsimp only | with_reducible refine kept_mk ?_ rfl rfl rfl rfl rfl rfl

theorem endEarly_kept {s0 s : State} {a b c d e} (h : Kept s0 s) : Kept s0 (endEarly a b c d e s) := by
  unfold endEarly
  repeat'
    first | with_reducible assumption | with_reducible apply rampDown_kept | with_reducible apply postEvent_kept |
      with_reducible apply countTx_kept | with_reducible apply outcome_kept | with_reducible apply shortfall_kept |
      dsimp only

theorem buildPassed_kept {s0 s : State} {a b} (h : Kept s0 s) : Kept s0 (buildPassed a b s).2 := by
  unfold buildPassed
  repeat'
    first | with_reducible assumption | with_reducible apply nodeKey_kept | with_reducible apply kept_ite |
      with_reducible apply kept_ite_snd | with_reducible refine kept_of_snd (by assumption) ?_ | dsimp only | split |
      with_reducible refine kept_mk ?_ rfl rfl rfl rfl rfl rfl

theorem buildFor_kept {s0 s : State} {a} (h : Kept s0 s) : Kept s0 (buildFor a s).2 := by
  unfold buildFor
  repeat'
    first | with_reducible assumption | with_reducible apply buildPassed_kept | with_reducible apply buildBroadcast_kept |
      with_reducible apply buildUnicast_kept | with_reducible apply kept_ite | with_reducible apply kept_ite_snd |
      dsimp only | split

theorem execFrameBuild_kept {s0 s : State} {a} (h : Kept s0 s) : KeptOut s0 (execFrameBuild a s) := by
  unfold execFrameBuild
  repeat'
    first | with_reducible assumption | with_reducible apply buildFor_kept | with_reducible apply notStarted_kept |
      with_reducible apply setTx_kept | with_reducible apply kept_ite | with_reducible apply keptOut_ite |
      with_reducible apply keptOut_next | with_reducible refine kept_of_snd (by assumption) ?_ | dsimp only | split |
      with_reducible refine kept_mk ?_ rfl rfl rfl rfl rfl rfl

theorem execCoxRequestRise_kept {s0 s : State} {a b c} (h : Kept s0 s) : KeptOut s0 (execCoxRequestRise a b c s) := by
  unfold execCoxRequestRise
  repeat'
    first | with_reducible assumption | with_reducible apply setTxRun_kept | with_reducible apply kept_ite |
      with_reducible apply keptOut_ite | with_reducible apply keptOut_next | dsimp only | split |
      with_reducible refine kept_mk ?_ rfl rfl rfl rfl rfl rfl

theorem execCoxGrantJudged_kept {s0 s : State} {a b} (h : Kept s0 s) : KeptOut s0 (execCoxGrantJudged a b s) := by
  unfold execCoxGrantJudged
  repeat'
    first | with_reducible assumption | with_reducible apply mirrorOut_kept | with_reducible apply setTx_kept |
      with_reducible apply raise_kept | with_reducible apply notStarted_kept | with_reducible apply kept_ite |
      with_reducible apply keptOut_ite | with_reducible apply keptOut_next | dsimp only | split |
      with_reducible refine kept_mk ?_ rfl rfl rfl rfl rfl rfl

theorem hop_kept {s0 s : State} {a b} (h : Kept s0 s) : Kept s0 (hop a b s) := by
  unfold hop
  repeat'
    first | with_reducible assumption | with_reducible apply openSpan_kept | with_reducible apply rckStart_kept |
      with_reducible apply setRck_kept | with_reducible apply queueScript_kept | with_reducible apply setTxRun_kept |
      with_reducible apply kept_ite | with_reducible refine kept_foldl ?_ fun _ _ _ => ?_ | dsimp only | split |
      with_reducible refine kept_mk ?_ rfl rfl rfl rfl rfl rfl

theorem prepare_kept {s0 s : State} {a} (h : Kept s0 s) : Kept s0 (prepare a s) := by
  unfold prepare
  repeat'
    first | with_reducible assumption | with_reducible apply onPorts_kept | with_reducible apply setTx_kept |
      with_reducible apply notStarted_kept | with_reducible apply hop_kept | with_reducible apply kept_ite | dsimp only |
      split | with_reducible refine kept_mk ?_ rfl rfl rfl rfl rfl rfl

theorem execPrep_kept {s0 s : State} {a b} (h : Kept s0 s) : KeptOut s0 (execPrep a b s) := by
  unfold execPrep
  repeat'
    first | with_reducible assumption | with_reducible apply prepare_kept | with_reducible apply kept_ite |
      with_reducible apply keptOut_ite | with_reducible apply keptOut_next | dsimp only | split

theorem hopFailed_kept {s0 s : State} {a b} (h : Kept s0 s) : Kept s0 (hopFailed a b s) := by
  unfold hopFailed
  repeat'
    first | with_reducible assumption | with_reducible apply setPort_kept | with_reducible apply notStarted_kept |
      with_reducible apply beginReturn_kept | with_reducible apply kept_ite | dsimp only | split |
      with_reducible refine kept_mk ?_ rfl rfl rfl rfl rfl rfl

theorem scriptEffect_kept {s0 s : State} {a b c} (h : Kept s0 s) : Kept s0 (scriptEffect a b c s) := by
  unfold scriptEffect
  repeat'
    first | with_reducible assumption | with_reducible apply complete_kept | with_reducible apply setChainCfg_kept |
      with_reducible apply markTracks_kept | with_reducible apply returnDone_kept | with_reducible apply hopFailed_kept |
      with_reducible apply kept_ite | dsimp only | split | with_reducible refine kept_mk ?_ rfl rfl rfl rfl rfl rfl

theorem scriptEnds_kept {s0 s : State} {a b c} (h : Kept s0 s) : Kept s0 (scriptEnds a b c s) := by
  unfold scriptEnds
  repeat'
    first | with_reducible assumption | with_reducible apply sendFrames_kept | with_reducible apply setPort_kept |
      with_reducible apply scriptFault_kept | with_reducible apply scriptEffect_kept | dsimp only | split |
      with_reducible refine kept_mk ?_ rfl rfl rfl rfl rfl rfl

theorem execPortScriptComplete_kept {s0 s : State} {a b c} (h : Kept s0 s) : KeptOut s0 (execPortScriptComplete a b c s) :=
      by
  unfold execPortScriptComplete
  repeat'
    first | with_reducible assumption | with_reducible apply scriptEnds_kept | with_reducible apply kept_ite |
      with_reducible apply keptOut_ite | with_reducible apply keptOut_next | dsimp only | split

theorem execTxSwitchOn_kept {s0 s : State} {a} (h : Kept s0 s) : KeptOut s0 (execTxSwitchOn a s) := by
  unfold execTxSwitchOn
  repeat'
    first | with_reducible assumption | with_reducible apply openSpan_kept | with_reducible apply onPorts_kept |
      with_reducible apply setTx_kept | with_reducible apply kept_ite | with_reducible apply keptOut_ite |
      with_reducible apply keptOut_next | dsimp only | split | with_reducible refine kept_mk ?_ rfl rfl rfl rfl rfl rfl

theorem execPaenAssert_kept {s0 s : State} {a} (h : Kept s0 s) : KeptOut s0 (execPaenAssert a s) := by
  unfold execPaenAssert
  repeat'
    first | with_reducible assumption | with_reducible apply onPorts_kept | with_reducible apply setTx_kept |
      with_reducible apply kept_ite | with_reducible apply keptOut_ite | with_reducible apply keptOut_next | dsimp only |
      split | with_reducible refine kept_mk ?_ rfl rfl rfl rfl rfl rfl

theorem noteStart_kept {s0 s : State} {a} (h : Kept s0 s) : Kept s0 (noteStart a s) := by
  unfold noteStart
  repeat'
    first | with_reducible assumption | with_reducible apply modNode_kept | with_reducible apply kept_ite | dsimp only |
      split

theorem noteBlock_kept {s0 s : State} {a} (h : Kept s0 s) : Kept s0 (noteBlock a s) := by
  unfold noteBlock
  repeat'
    first | with_reducible assumption | with_reducible apply setImage_kept | with_reducible apply kept_ite | dsimp only |
      split | with_reducible refine kept_mk ?_ rfl rfl rfl rfl rfl rfl

theorem startOnAir_kept {s0 s : State} {a} (h : Kept s0 s) : Kept s0 (startOnAir a s) := by
  unfold startOnAir
  repeat'
    first | with_reducible assumption | with_reducible apply onPorts_kept | with_reducible apply setTx_kept |
      with_reducible apply onAir_kept | with_reducible apply countTx_kept | with_reducible apply noteBlock_kept |
      with_reducible apply noteStart_kept | dsimp only | with_reducible refine kept_mk ?_ rfl rfl rfl rfl rfl rfl

theorem execFirstSampleRelease_kept {s0 s : State} {a b} (h : Kept s0 s) : KeptOut s0 (execFirstSampleRelease a b s) := by
  unfold execFirstSampleRelease
  repeat'
    first | with_reducible assumption | with_reducible apply raise_kept | with_reducible apply notStarted_kept |
      with_reducible apply startOnAir_kept | with_reducible apply kept_ite | with_reducible apply keptOut_ite |
      with_reducible apply keptOut_next | dsimp only | split

theorem execTxUnderrun_kept {s0 s : State} {a} (h : Kept s0 s) : KeptOut s0 (execTxUnderrun a s) := by
  unfold execTxUnderrun
  repeat'
    first | with_reducible assumption | with_reducible apply raise_kept | with_reducible apply endEarly_kept |
      with_reducible apply kept_ite | with_reducible apply keptOut_ite | with_reducible apply keptOut_next | dsimp only |
      split

theorem execTxLaneFault_kept {s0 s : State} {a} (h : Kept s0 s) : KeptOut s0 (execTxLaneFault a s) := by
  unfold execTxLaneFault
  repeat'
    first | with_reducible assumption | with_reducible apply endEarly_kept | with_reducible apply postEvent_kept |
      with_reducible apply raise_kept | with_reducible refine kept_foldl ?_ fun _ _ _ => ?_ |
      with_reducible apply keptOut_next | dsimp only | split

theorem noteSent_kept {s0 s : State} {a} (h : Kept s0 s) : Kept s0 (noteSent a s) := by
  unfold noteSent
  repeat'
    first | with_reducible assumption | with_reducible apply modNode_kept | with_reducible apply kept_ite | dsimp only |
      split | with_reducible refine kept_mk ?_ rfl rfl rfl rfl rfl rfl

theorem rememberTx_kept {s0 s : State} {a} (h : Kept s0 s) : Kept s0 (rememberTx a s) := by
  unfold rememberTx
  repeat'
    first | with_reducible assumption | with_reducible apply kept_ite | dsimp only | split |
      with_reducible refine kept_mk ?_ rfl rfl rfl rfl rfl rfl

theorem execTransmissionEnd_kept {s0 s : State} {a} (h : Kept s0 s) : KeptOut s0 (execTransmissionEnd a s) := by
  unfold execTransmissionEnd
  repeat'
    first | with_reducible assumption | with_reducible apply onAir_kept | with_reducible apply countTx_kept |
      with_reducible apply setTx_kept | with_reducible apply outcome_kept | with_reducible apply noteSent_kept |
      with_reducible apply rememberTx_kept | with_reducible apply kept_ite | with_reducible apply keptOut_ite |
      with_reducible apply keptOut_next | dsimp only | split | with_reducible refine kept_mk ?_ rfl rfl rfl rfl rfl rfl

theorem execPaenRelease_kept {s0 s : State} {a} (h : Kept s0 s) : KeptOut s0 (execPaenRelease a s) := by
  unfold execPaenRelease
  repeat'
    first | with_reducible assumption | with_reducible apply setTx_kept | with_reducible apply onPorts_kept |
      with_reducible apply kept_ite | with_reducible apply keptOut_ite | with_reducible apply keptOut_next | dsimp only |
      split | with_reducible refine kept_mk ?_ rfl rfl rfl rfl rfl rfl

theorem execReturnRx_kept {s0 s : State} {a} (h : Kept s0 s) : KeptOut s0 (execReturnRx a s) := by
  unfold execReturnRx
  repeat'
    first | with_reducible assumption | with_reducible apply dropTx_kept | with_reducible apply settleSeq_kept |
      with_reducible apply lowerRequest_kept | with_reducible apply beginReturn_kept | with_reducible apply kept_ite |
      with_reducible apply keptOut_ite | with_reducible apply keptOut_next | dsimp only | split

theorem execOwnTransmissionSpanEnd_kept {s0 s : State} {a} (h : Kept s0 s) : KeptOut s0 (execOwnTransmissionSpanEnd a s) :=
      by
  unfold execOwnTransmissionSpanEnd
  repeat'
    first | with_reducible assumption | with_reducible apply closeBlank_kept | with_reducible apply setTxRun_kept |
      with_reducible apply kept_ite | with_reducible apply keptOut_ite | with_reducible apply keptOut_next | dsimp only |
      split | with_reducible refine kept_mk ?_ rfl rfl rfl rfl rfl rfl

theorem setBlank_kept {s0 s : State} {a b} (h : Kept s0 s) : Kept s0 (setBlank a b s) := by
  unfold setBlank
  repeat'
    first | with_reducible assumption | dsimp only | with_reducible refine kept_mk ?_ rfl rfl rfl rfl rfl rfl

theorem blankTx_kept {s0 s : State} {a} (h : Kept s0 s) : Kept s0 (blankTx a s) := by
  unfold blankTx
  repeat'
    first | with_reducible assumption | with_reducible apply notStarted_kept | with_reducible apply raise_kept |
      with_reducible apply endEarly_kept | with_reducible apply kept_ite | dsimp only | split

theorem settleInputs_kept {s0 s : State} {a b} (h : Kept s0 s) : Kept s0 (settleInputs a b s) := by
  unfold settleInputs
  repeat'
    first | with_reducible assumption | with_reducible apply blankTx_kept | with_reducible apply setTxRun_kept |
      with_reducible apply settleBlank_kept | with_reducible apply kept_ite |
      with_reducible refine kept_foldl ?_ fun _ _ _ => ?_ | dsimp only | split |
      with_reducible refine kept_mk ?_ rfl rfl rfl rfl rfl rfl

theorem changeInputs_kept {s0 s : State} {f : State → State} (hf : KeptStep s0 f) (h : Kept s0 s) :
    Kept s0 (changeInputs f s) :=
  kept_foldl (hf.run h) fun _ _ k => settleInputs_kept k

theorem execBlankAssert_kept {s0 s : State} {a} (h : Kept s0 s) : KeptOut s0 (execBlankAssert a s) := by
  unfold execBlankAssert
  repeat'
    first | with_reducible assumption | with_reducible apply mirrorOut_kept |
      with_reducible refine changeInputs_kept (fun _ _ => ?_) ?_ | with_reducible apply setBlank_kept |
      with_reducible apply keptOut_next | dsimp only

theorem execBlankRelease_kept {s0 s : State} {a} (h : Kept s0 s) : KeptOut s0 (execBlankRelease a s) := by
  unfold execBlankRelease
  repeat'
    first | with_reducible assumption | with_reducible apply mirrorOut_kept |
      with_reducible refine changeInputs_kept (fun _ _ => ?_) ?_ | with_reducible apply setBlank_kept |
      with_reducible apply keptOut_next | dsimp only

theorem setBlankPol_kept {s0 s : State} {a} (h : Kept s0 s) : Kept s0 (setBlankPol a s) := by
  unfold setBlankPol
  repeat'
    first | with_reducible assumption | dsimp only | with_reducible refine kept_mk ?_ rfl rfl rfl rfl rfl rfl

theorem coexSetSpec_kept : KeptSpec (coexSetSpec) := by
  intro s0 s c h
  dsimp only [coexSetSpec, plainSpec, done]
  repeat'
    first | with_reducible assumption | with_reducible apply txChange_kept |
      with_reducible refine changeInputs_kept (fun _ _ => ?_) ?_ | with_reducible apply setBlankPol_kept | dsimp only |
      with_reducible refine kept_mk ?_ rfl rfl rfl rfl rfl rfl

theorem execCoexSet_kept {s0 s : State} {a} (h : Kept s0 s) : KeptOut s0 (execCoexSet a s) := by
  unfold execCoexSet
  repeat'
    first | with_reducible assumption | with_reducible apply runCommand_kept | with_reducible exact coexSetSpec_kept |
      dsimp only

theorem settlePlain_kept {s0 s : State} {a} (h : Kept s0 s) : Kept s0 (settlePlain a s) := by
  unfold settlePlain
  repeat'
    first | with_reducible assumption | with_reducible apply settleBlank_kept | with_reducible apply setTxCfg_kept |
      with_reducible apply setTxRun_kept | with_reducible apply kept_ite | dsimp only | split |
      with_reducible refine kept_mk ?_ rfl rfl rfl rfl rfl rfl

theorem execSlotBoundary_kept {s0 s : State} (h : Kept s0 s) : KeptOut s0 (execSlotBoundary s) := by
  unfold execSlotBoundary
  repeat'
    first | with_reducible assumption | with_reducible apply formDigest_kept | with_reducible apply applyChanges_kept |
      with_reducible apply countCutOff_kept | with_reducible apply settlePlain_kept | with_reducible apply kept_ite |
      with_reducible refine kept_foldl ?_ fun _ _ _ => ?_ | with_reducible apply keptOut_ite |
      with_reducible apply keptOut_next | dsimp only | split | with_reducible refine kept_mk ?_ rfl rfl rfl rfl rfl rfl

end Sys2Proof.Laws
end

