-- ==== Sys2Proof/Laws/KeptForward.lean ====
section
/-! SUPPORT. What the operations of Machine/Forward.lean keep. -/

namespace Sys2Proof.Laws

open Sys2Proof.Machine Sys2Proof.Safety

set_option linter.unusedTactic false
set_option linter.unreachableTactic false

theorem loadPrefix_kept {s0 s : State} {a} (h : Kept s0 s) : KeptSome s0 (loadPrefix a s) := by
  unfold loadPrefix
  repeat'
    first | with_reducible assumption | with_reducible apply setPrefixes_kept | with_reducible apply kept_ite |
      with_reducible apply keptSome_ite | with_reducible apply keptSome_some | with_reducible exact keptSome_none |
      dsimp only | split

theorem prefixInsertSpec_kept : KeptSpec prefixInsertSpec := by
  intro s0 s c h
  dsimp only [prefixInsertSpec, plainSpec, done, ends]
  split
  · rename_i e
    exact loadPrefix_kept h _ e
  · exact raise_kept h

theorem execPrefixInsert_kept {s0 s : State} {a} (h : Kept s0 s) : KeptOut s0 (execPrefixInsert a s) := by
  unfold execPrefixInsert
  repeat'
    first | with_reducible assumption | with_reducible apply runCommand_kept | with_reducible exact prefixInsertSpec_kept |
      dsimp only

theorem prefixDeleteSpec_kept : KeptSpec (prefixDeleteSpec) := by
  intro s0 s c h
  dsimp only [prefixDeleteSpec, plainSpec, doneWith]
  repeat'
    first | with_reducible assumption | with_reducible apply setPrefixes_kept | dsimp only

theorem execPrefixDelete_kept {s0 s : State} {a} (h : Kept s0 s) : KeptOut s0 (execPrefixDelete a s) := by
  unfold execPrefixDelete
  repeat'
    first | with_reducible assumption | with_reducible apply runCommand_kept | with_reducible exact prefixDeleteSpec_kept |
      dsimp only

theorem prefixSearchSpec_kept : KeptSpec (prefixSearchSpec) := by
  intro s0 s c h
  dsimp only [prefixSearchSpec, plainSpec, doneWith]
  repeat'
    first | with_reducible assumption | dsimp only | split | with_reducible refine kept_mk ?_ rfl rfl rfl rfl rfl rfl

theorem execPrefixSearch_kept {s0 s : State} {a} (h : Kept s0 s) : KeptOut s0 (execPrefixSearch a s) := by
  unfold execPrefixSearch
  repeat'
    first | with_reducible assumption | with_reducible apply runCommand_kept | with_reducible exact prefixSearchSpec_kept |
      dsimp only

theorem prefixNextSpec_kept : KeptSpec (prefixNextSpec) := by
  intro s0 s c h
  dsimp only [prefixNextSpec, plainSpec, doneWith]
  repeat'
    first | with_reducible assumption | dsimp only

theorem execPrefixNext_kept {s0 s : State} {a} (h : Kept s0 s) : KeptOut s0 (execPrefixNext a s) := by
  unfold execPrefixNext
  repeat'
    first | with_reducible assumption | with_reducible apply runCommand_kept | with_reducible exact prefixNextSpec_kept |
      dsimp only

theorem nodeInsertSpec_kept : KeptSpec (nodeInsertSpec) := by
  intro s0 s c h
  dsimp only [nodeInsertSpec, plainSpec, ends, doneWith]
  repeat'
    first | with_reducible assumption | with_reducible apply insertNode_kept | with_reducible apply kept_ite |
      with_reducible apply kept_ite_answer | with_reducible refine kept_of_snd (by assumption) ?_ | dsimp only | split

theorem execNodeInsert_kept {s0 s : State} {a} (h : Kept s0 s) : KeptOut s0 (execNodeInsert a s) := by
  unfold execNodeInsert
  repeat'
    first | with_reducible assumption | with_reducible apply runCommand_kept | with_reducible exact nodeInsertSpec_kept |
      dsimp only

theorem refuseLate_kept {s0 s : State} {a} (h : Kept s0 s) : Kept s0 (refuseLate a s) := by
  unfold refuseLate
  repeat'
    first | with_reducible assumption | with_reducible apply finalRecord_kept | with_reducible apply kept_ite | dsimp only |
      split | with_reducible refine kept_mk ?_ rfl rfl rfl rfl rfl rfl

theorem deleteNode_kept {s0 s : State} {a b} (h : Kept s0 s) : Kept s0 (deleteNode a b s) := by
  unfold deleteNode
  repeat'
    first | with_reducible assumption | with_reducible apply endWaiting_kept | with_reducible apply dropNode_kept |
      with_reducible apply refuseLate_kept | with_reducible refine kept_foldl ?_ fun _ _ _ => ?_ | dsimp only |
      with_reducible refine kept_mk ?_ rfl rfl rfl rfl rfl rfl

theorem nodeDeleteSpec_kept : KeptSpec (nodeDeleteSpec) := by
  intro s0 s c h
  dsimp only [nodeDeleteSpec, plainSpec, done, ends]
  repeat'
    first | with_reducible assumption | with_reducible apply deleteNode_kept | dsimp only | split

theorem execNodeDelete_kept {s0 s : State} {a} (h : Kept s0 s) : KeptOut s0 (execNodeDelete a s) := by
  unfold execNodeDelete
  repeat'
    first | with_reducible assumption | with_reducible apply runCommand_kept | with_reducible exact nodeDeleteSpec_kept |
      dsimp only

theorem nodeReadSpec_kept : KeptSpec (nodeReadSpec) := by
  intro s0 s c h
  dsimp only [nodeReadSpec, plainSpec, doneWith, ends]
  repeat'
    first | with_reducible assumption | with_reducible apply touchNode_kept | dsimp only | split

theorem execNodeRead_kept {s0 s : State} {a} (h : Kept s0 s) : KeptOut s0 (execNodeRead a s) := by
  unfold execNodeRead
  repeat'
    first | with_reducible assumption | with_reducible apply runCommand_kept | with_reducible exact nodeReadSpec_kept |
      dsimp only

theorem nodeUpdateSpec_kept : KeptSpec (nodeUpdateSpec) := by
  intro s0 s c h
  dsimp only [nodeUpdateSpec, plainSpec, done, ends]
  repeat'
    first | with_reducible assumption | with_reducible apply setNode_kept | dsimp only | split |
      with_reducible refine kept_mk ?_ rfl rfl rfl rfl rfl rfl

theorem execNodeUpdate_kept {s0 s : State} {a} (h : Kept s0 s) : KeptOut s0 (execNodeUpdate a s) := by
  unfold execNodeUpdate
  repeat'
    first | with_reducible assumption | with_reducible apply runCommand_kept | with_reducible exact nodeUpdateSpec_kept |
      dsimp only

theorem nodeNextSpec_kept : KeptSpec (nodeNextSpec) := by
  intro s0 s c h
  dsimp only [nodeNextSpec, plainSpec, doneWith]
  repeat'
    first | with_reducible assumption | dsimp only

theorem execNodeNext_kept {s0 s : State} {a} (h : Kept s0 s) : KeptOut s0 (execNodeNext a s) := by
  unfold execNodeNext
  repeat'
    first | with_reducible assumption | with_reducible apply runCommand_kept | with_reducible exact nodeNextSpec_kept |
      dsimp only

theorem flushNode_kept {s0 s : State} {a b} (h : Kept s0 s) : Kept s0 (flushNode a b s) := by
  unfold flushNode
  repeat'
    first | with_reducible assumption | with_reducible apply deleteNode_kept | with_reducible apply setNode_kept |
      with_reducible apply kept_ite | dsimp only | split | with_reducible refine kept_mk ?_ rfl rfl rfl rfl rfl rfl

theorem flushByPortSpec_kept : KeptSpec (flushByPortSpec) := by
  intro s0 s c h
  dsimp only [flushByPortSpec, plainSpec, doneWith]
  repeat'
    first | with_reducible assumption | with_reducible apply flushNode_kept | with_reducible apply setPrefixes_kept |
      with_reducible refine kept_foldl ?_ fun _ _ _ => ?_ | dsimp only | split

theorem execFlushByPort_kept {s0 s : State} {a} (h : Kept s0 s) : KeptOut s0 (execFlushByPort a s) := by
  unfold execFlushByPort
  repeat'
    first | with_reducible assumption | with_reducible apply runCommand_kept | with_reducible exact flushByPortSpec_kept |
      dsimp only

theorem nodeHomeMoveSpec_kept : KeptSpec (nodeHomeMoveSpec) := by
  intro s0 s c h
  dsimp only [nodeHomeMoveSpec, plainSpec, ends, runsOn]
  repeat'
    first | with_reducible assumption | with_reducible apply originate_kept | with_reducible apply kept_ite |
      with_reducible refine kept_foldl ?_ fun _ _ _ => ?_ | with_reducible apply kept_ite_answer | dsimp only | split |
      with_reducible refine kept_mk ?_ rfl rfl rfl rfl rfl rfl

theorem execNodeHomeMove_kept {s0 s : State} {a} (h : Kept s0 s) : KeptOut s0 (execNodeHomeMove a s) := by
  unfold execNodeHomeMove
  repeat'
    first | with_reducible assumption | with_reducible apply runCommand_kept | with_reducible exact nodeHomeMoveSpec_kept |
      dsimp only

theorem applySwitch_kept {s0 s : State} {a} (h : Kept s0 s) : Kept s0 (applySwitch a s) := by
  unfold applySwitch
  repeat'
    first | with_reducible assumption | with_reducible apply loadPrefix_kept | with_reducible apply raise_kept |
      with_reducible refine kept_of_some (by assumption) ?_ | dsimp only | split

theorem handDownlink_kept {s0 s : State} {a b} (h : Kept s0 s) : Kept s0 (handDownlink a b s) := by
  unfold handDownlink
  repeat'
    first | with_reducible assumption | with_reducible apply crossHerd_kept | with_reducible apply dropWaiting_kept |
      dsimp only | with_reducible refine kept_mk ?_ rfl rfl rfl rfl rfl rfl

theorem handRecord_kept {s0 s : State} {a b} (h : Kept s0 s) : Kept s0 (handRecord a b s) := by
  unfold handRecord
  repeat'
    first | with_reducible assumption | with_reducible apply handDownlink_kept | with_reducible apply dropNode_kept |
      with_reducible refine kept_foldl ?_ fun _ _ _ => ?_ | dsimp only

theorem leaveHome_kept {s0 s : State} {a b} (h : Kept s0 s) : Kept s0 (leaveHome a b s) := by
  unfold leaveHome
  repeat'
    first | with_reducible assumption | with_reducible apply originate_kept | with_reducible apply applySwitch_kept |
      with_reducible apply handRecord_kept | with_reducible apply complete_kept | with_reducible apply kept_ite |
      with_reducible refine kept_foldl ?_ fun _ _ _ => ?_ | dsimp only | split

theorem insertCopy_kept {s0 s : State} {a} (h : Kept s0 s) : Kept s0 (insertCopy a s) := by
  unfold insertCopy
  repeat'
    first | with_reducible assumption | with_reducible apply setNode_kept | with_reducible apply kept_ite | dsimp only |
      split

theorem joinHome_kept {s0 s : State} {a} (h : Kept s0 s) : Kept s0 (joinHome a s) := by
  unfold joinHome
  repeat'
    first | with_reducible assumption | with_reducible apply insertCopy_kept | with_reducible apply applySwitch_kept |
      with_reducible apply kept_ite | with_reducible refine kept_foldl ?_ fun _ _ _ => ?_ | dsimp only | split

theorem dropMove_kept {s0 s : State} {a} (h : Kept s0 s) : Kept s0 (dropMove a s) := by
  unfold dropMove
  repeat'
    first | with_reducible assumption | dsimp only | with_reducible refine kept_mk ?_ rfl rfl rfl rfl rfl rfl

theorem execHomeSwitch_kept {s0 s : State} {a} (h : Kept s0 s) : KeptOut s0 (execHomeSwitch a s) := by
  unfold execHomeSwitch
  repeat'
    first | with_reducible assumption | with_reducible apply mirrorHerd_kept | with_reducible apply leaveHome_kept |
      with_reducible apply dropMove_kept | with_reducible apply complete_kept | with_reducible apply joinHome_kept |
      with_reducible apply kept_ite | with_reducible apply keptOut_ite | with_reducible apply keptOut_next | dsimp only |
      split

theorem fwdTenantSetSpec_kept : KeptSpec (fwdTenantSetSpec) := by
  intro s0 s c h
  dsimp only [fwdTenantSetSpec, plainSpec, done]
  repeat'
    first | with_reducible assumption | dsimp only | with_reducible refine kept_mk ?_ rfl rfl rfl rfl rfl rfl

theorem execFwdTenantSet_kept {s0 s : State} {a} (h : Kept s0 s) : KeptOut s0 (execFwdTenantSet a s) := by
  unfold execFwdTenantSet
  repeat'
    first | with_reducible assumption | with_reducible apply runCommand_kept | with_reducible exact fwdTenantSetSpec_kept |
      dsimp only

theorem fwdFloodSetSpec_kept : KeptSpec (fwdFloodSetSpec) := by
  intro s0 s c h
  dsimp only [fwdFloodSetSpec, plainSpec, done]
  repeat'
    first | with_reducible assumption | dsimp only | with_reducible refine kept_mk ?_ rfl rfl rfl rfl rfl rfl

theorem execFwdFloodSet_kept {s0 s : State} {a} (h : Kept s0 s) : KeptOut s0 (execFwdFloodSet a s) := by
  unfold execFwdFloodSet
  repeat'
    first | with_reducible assumption | with_reducible apply runCommand_kept | with_reducible exact fwdFloodSetSpec_kept |
      dsimp only

theorem fwdStatusSpec_kept : KeptSpec (fwdStatusSpec) := by
  intro s0 s c h
  dsimp only [fwdStatusSpec, plainSpec, doneWith]
  repeat'
    first | with_reducible assumption | dsimp only

theorem execFwdStatus_kept {s0 s : State} {a} (h : Kept s0 s) : KeptOut s0 (execFwdStatus a s) := by
  unfold execFwdStatus
  repeat'
    first | with_reducible assumption | with_reducible apply runCommand_kept | with_reducible exact fwdStatusSpec_kept |
      dsimp only

theorem fwdCountersReadSpec_kept : KeptSpec (fwdCountersReadSpec) := by
  intro s0 s c h
  dsimp only [fwdCountersReadSpec, plainSpec, doneWith]
  repeat'
    first | with_reducible assumption | dsimp only | split | with_reducible refine kept_mk ?_ rfl rfl rfl rfl rfl rfl

theorem execFwdCountersRead_kept {s0 s : State} {a} (h : Kept s0 s) : KeptOut s0 (execFwdCountersRead a s) := by
  unfold execFwdCountersRead
  repeat'
    first | with_reducible assumption | with_reducible apply runCommand_kept |
      with_reducible exact fwdCountersReadSpec_kept | dsimp only

theorem execForwardedPacket_kept {s0 s : State} {a} (h : Kept s0 s) : KeptOut s0 (execForwardedPacket a s) := by
  unfold execForwardedPacket
  repeat'
    first | with_reducible assumption | with_reducible apply mirrorHerd_kept | with_reducible apply toNode_kept |
      with_reducible apply resolvePacket_kept | with_reducible apply keptOut_next | dsimp only | split

theorem execFloodCopy_kept {s0 s : State} {a} (h : Kept s0 s) : KeptOut s0 (execFloodCopy a s) := by
  unfold execFloodCopy
  repeat'
    first | with_reducible assumption | with_reducible apply mirrorHerd_kept | with_reducible apply waitFlood_kept |
      with_reducible apply keptOut_next | dsimp only

theorem execNodeCacheWriteBack_kept {s0 s : State} {a} (h : Kept s0 s) : KeptOut s0 (execNodeCacheWriteBack a s) := by
  unfold execNodeCacheWriteBack
  repeat'
    first | with_reducible assumption | with_reducible apply keptOut_next | dsimp only | split |
      with_reducible refine kept_mk ?_ rfl rfl rfl rfl rfl rfl

theorem execRendezvousIndexRebuild_kept {s0 s : State} {a} (h : Kept s0 s) : KeptOut s0 (execRendezvousIndexRebuild a s) :=
      by
  unfold execRendezvousIndexRebuild
  repeat'
    first | with_reducible assumption | with_reducible apply keptOut_next | dsimp only |
      with_reducible refine kept_mk ?_ rfl rfl rfl rfl rfl rfl

end Sys2Proof.Laws
end

