-- ==== Sys2Proof/Laws/KeptPtp.lean ====
section
/-! SUPPORT. What the operations of Machine/Ptp.lean keep. -/

namespace Sys2Proof.Laws

open Sys2Proof.Machine Sys2Proof.Safety

set_option linter.unusedTactic false
set_option linter.unreachableTactic false

theorem setBh_kept {s0 s : State} {b c} (h : Kept s0 s) : Kept s0 (setBh s b c) := by
  unfold setBh
  repeat'
    first | with_reducible assumption | dsimp only | with_reducible refine kept_mk ?_ rfl rfl rfl rfl rfl rfl

theorem countBh_kept {s0 s : State} {a b} (h : Kept s0 s) : Kept s0 (countBh a b s) := by
  unfold countBh
  repeat'
    first | with_reducible assumption | with_reducible apply setBh_kept | dsimp only |
      with_reducible refine kept_mk ?_ rfl rfl rfl rfl rfl rfl

theorem bhTrouble_kept {s0 s : State} {a b} (h : Kept s0 s) : Kept s0 (bhTrouble a b s) := by
  unfold bhTrouble
  repeat'
    first | with_reducible assumption | with_reducible apply raise_kept | dsimp only

theorem sendBh_kept {s0 s : State} {a b} (h : Kept s0 s) : Kept s0 (sendBh a b s) := by
  unfold sendBh
  repeat'
    first | with_reducible assumption | with_reducible apply kept_ite | dsimp only | split |
      with_reducible refine kept_mk ?_ rfl rfl rfl rfl rfl rfl

theorem forwardCopy_kept {s0 s : State} {n : Nat} {a : List Byte → State → State} {b} (ha : ∀ l, KeptStep s0 (a l)) (h : Kept s0 s) :
    Kept s0 (forwardCopy n a b s) :=
  (ha _).run (kept_mk h rfl rfl rfl rfl rfl rfl)

theorem clockForward_kept {s0 s : State} {a b c d} (h : Kept s0 s) : Kept s0 (clockForward a b c d s) := by
  unfold clockForward
  repeat'
    first | with_reducible assumption | with_reducible refine forwardCopy_kept (fun _ _ _ => ?_) ?_ |
      with_reducible apply sendBh_kept | with_reducible apply originate_kept | with_reducible apply countTime_kept |
      with_reducible apply kept_ite | with_reducible refine kept_foldl ?_ fun _ _ _ => ?_ | dsimp only | split

theorem chooseMaster_kept {s0 s : State} {a b} (h : Kept s0 s) : Kept s0 (chooseMaster a b s) := by
  unfold chooseMaster
  repeat'
    first | with_reducible assumption | with_reducible apply setBase_kept | with_reducible apply setPtp_kept |
      with_reducible apply kept_ite | dsimp only | split | with_reducible refine kept_mk ?_ rfl rfl rfl rfl rfl rfl

theorem measureSync_kept {s0 s : State} {a b c d} (h : Kept s0 s) : Kept s0 (measureSync a b c d s) := by
  unfold measureSync
  repeat'
    first | with_reducible assumption | with_reducible apply noteInput_kept | with_reducible apply setPtp_kept |
      with_reducible apply discipline_kept | dsimp only | split | with_reducible refine kept_mk ?_ rfl rfl rfl rfl rfl rfl

theorem takeSync_kept {s0 s : State} {a b c} (h : Kept s0 s) : Kept s0 (takeSync a b c s) := by
  unfold takeSync
  repeat'
    first | with_reducible assumption | with_reducible apply countTime_kept | with_reducible apply setPtp_kept |
      with_reducible apply measureSync_kept | with_reducible apply kept_ite | dsimp only | split |
      with_reducible refine kept_mk ?_ rfl rfl rfl rfl rfl rfl

theorem takeFollowUp_kept {s0 s : State} {a b} (h : Kept s0 s) : Kept s0 (takeFollowUp a b s) := by
  unfold takeFollowUp
  repeat'
    first | with_reducible assumption | with_reducible apply measureSync_kept | with_reducible apply kept_ite | dsimp only |
      split

theorem takeDelayResp_kept {s0 s : State} {a b} (h : Kept s0 s) : Kept s0 (takeDelayResp a b s) := by
  unfold takeDelayResp
  repeat'
    first | with_reducible assumption | with_reducible apply setPtp_kept | with_reducible apply kept_ite | dsimp only |
      split | with_reducible refine kept_mk ?_ rfl rfl rfl rfl rfl rfl

theorem slaveClock_kept {s0 s : State} {a b c d} (h : Kept s0 s) : Kept s0 (slaveClock a b c d s) := by
  unfold slaveClock
  repeat'
    first | with_reducible assumption | with_reducible apply chooseMaster_kept | with_reducible apply setPtp_kept |
      with_reducible apply takeSync_kept | with_reducible apply takeFollowUp_kept | with_reducible apply takeDelayResp_kept |
      with_reducible apply kept_ite | dsimp only | split | with_reducible refine kept_mk ?_ rfl rfl rfl rfl rfl rfl

theorem askDelay_kept {s0 s : State} {a} (h : Kept s0 s) : Kept s0 (askDelay a s) := by
  unfold askDelay
  repeat'
    first | with_reducible assumption | with_reducible apply countTime_kept | with_reducible apply setPtp_kept |
      with_reducible apply sendBh_kept | with_reducible apply kept_ite | dsimp only | split |
      with_reducible refine kept_mk ?_ rfl rfl rfl rfl rfl rfl

theorem execDelayReqSend_kept {s0 s : State} {a} (h : Kept s0 s) : KeptOut s0 (execDelayReqSend a s) := by
  unfold execDelayReqSend
  repeat'
    first | with_reducible assumption | with_reducible apply askDelay_kept | with_reducible apply ranNow_kept |
      with_reducible apply keptOut_next | dsimp only | split

theorem takePtp_kept {s0 s : State} {a b c} (h : Kept s0 s) : Kept s0 (takePtp a b c s) := by
  unfold takePtp
  repeat'
    first | with_reducible assumption | with_reducible apply countTime_kept | with_reducible apply slaveClock_kept |
      with_reducible apply clockForward_kept | with_reducible apply kept_ite | dsimp only | split

end Sys2Proof.Laws
end

