-- ==== Sys2Proof/Laws/KeptBackhaul.lean ====
section
/-! SUPPORT. What the operations of Machine/Backhaul.lean keep. -/

namespace Sys2Proof.Laws

open Sys2Proof.Machine Sys2Proof.Safety

set_option linter.unusedTactic false
set_option linter.unreachableTactic false

theorem truncated_kept {s0 s : State} {a b c} (h : Kept s0 s) : Kept s0 (truncated a b c s) := by
  unfold truncated
  repeat'
    first | with_reducible assumption | with_reducible apply bhTrouble_kept | with_reducible apply countBh_kept |
      with_reducible apply pushBytes_kept | with_reducible apply kept_ite | dsimp only | split

theorem toControl_kept {s0 s : State} {a b c} (h : Kept s0 s) : Kept s0 (toControl a b c s) := by
  unfold toControl
  repeat'
    first | with_reducible assumption | with_reducible apply countBh_kept | with_reducible apply pushBytes_kept |
      with_reducible apply kept_ite | dsimp only | split

theorem classifyFrame_kept {s0 s : State} {a b c d} (h : Kept s0 s) : Kept s0 (classifyFrame a b c d s) := by
  unfold classifyFrame
  repeat'
    first | with_reducible assumption | with_reducible apply takePtp_kept | with_reducible apply countBh_kept |
      with_reducible apply resolvePacket_kept | with_reducible apply toControl_kept | with_reducible apply kept_ite |
      dsimp only | split

theorem judgeFrame_kept {s0 s : State} {a b c} (h : Kept s0 s) : Kept s0 (judgeFrame a b c s) := by
  unfold judgeFrame
  repeat'
    first | with_reducible assumption | with_reducible apply countBh_kept | with_reducible apply bhTrouble_kept |
      with_reducible apply truncated_kept | with_reducible apply classifyFrame_kept | with_reducible apply kept_ite |
      dsimp only | split

theorem receiveFrame_kept {s0 s : State} {a b} (h : Kept s0 s) : Kept s0 (receiveFrame a b s) := by
  unfold receiveFrame
  repeat'
    first | with_reducible assumption | with_reducible apply judgeFrame_kept | with_reducible apply kept_ite | dsimp only |
      split

theorem hearFrame_kept {s0 s : State} {a b} (h : Kept s0 s) : Kept s0 (hearFrame a b s) := by
  unfold hearFrame
  repeat'
    first | with_reducible assumption | dsimp only | with_reducible refine kept_mk ?_ rfl rfl rfl rfl rfl rfl

theorem mirrorFrame_kept {s0 s : State} {a b} (h : Kept s0 s) : Kept s0 (mirrorFrame a b s) := by
  unfold mirrorFrame
  repeat'
    first | with_reducible assumption | with_reducible apply mirrorOut_kept | with_reducible apply kept_ite | dsimp only |
      split

theorem execBhFrameReceived_kept {s0 s : State} {a b} (h : Kept s0 s) : KeptOut s0 (execBhFrameReceived a b s) := by
  unfold execBhFrameReceived
  repeat'
    first | with_reducible assumption | with_reducible apply hearFrame_kept | with_reducible apply receiveFrame_kept |
      with_reducible apply mirrorFrame_kept | with_reducible apply keptOut_next | dsimp only | split

theorem takeMirrored_kept {s0 s : State} {a b c} (h : Kept s0 s) : Kept s0 (takeMirrored a b c s) := by
  unfold takeMirrored
  repeat'
    first | with_reducible assumption | with_reducible apply receiveFrame_kept | dsimp only | split |
      with_reducible refine kept_mk ?_ rfl rfl rfl rfl rfl rfl

theorem takeUncovered_kept {s0 s : State} (h : Kept s0 s) : Kept s0 (takeUncovered s) := by
  unfold takeUncovered
  repeat'
    first | with_reducible assumption | with_reducible apply receiveFrame_kept |
      with_reducible refine kept_foldl ?_ fun _ _ _ => ?_ | dsimp only |
      with_reducible refine kept_mk ?_ rfl rfl rfl rfl rfl rfl

theorem servedHead_kept {s0 s : State} {a b} (h : Kept s0 s) : Kept s0 (servedHead a b s) := by
  unfold servedHead
  repeat'
    first | with_reducible assumption | with_reducible apply setQue_kept | with_reducible apply setBh_kept | dsimp only |
      with_reducible refine kept_mk ?_ rfl rfl rfl rfl rfl rfl

theorem sendEgress_kept {s0 s : State} {a b} (h : Kept s0 s) : Kept s0 (sendEgress a b s) := by
  unfold sendEgress
  repeat'
    first | with_reducible assumption | with_reducible apply countBh_kept | with_reducible apply sendBh_kept |
      with_reducible apply kept_ite | dsimp only | split

theorem sendHostFrame_kept {s0 s : State} {a b} (h : Kept s0 s) : Kept s0 (sendHostFrame a b s) := by
  unfold sendHostFrame
  repeat'
    first | with_reducible assumption | with_reducible apply countBh_kept | with_reducible apply sendBh_kept |
      with_reducible apply kept_ite | dsimp only | split

theorem servePort_kept {s0 s : State} {a b} {c : List Byte → State → State} (hc : ∀ l, KeptStep s0 (c l)) (h : Kept s0 s) :
    Kept s0 (servePort a b c s) := by
  unfold servePort
  refine kept_ite ?_ h
  split
  · exact (hc _).run (servedHead_kept h)
  · exact h

theorem execBhFrameTransmit_kept {s0 s : State} {a} (h : Kept s0 s) : KeptOut s0 (execBhFrameTransmit a s) := by
  unfold execBhFrameTransmit
  repeat'
    first | with_reducible assumption | with_reducible refine servePort_kept (fun _ _ _ => ?_) ?_ |
      with_reducible apply sendEgress_kept | with_reducible apply keptOut_next | dsimp only

theorem execHostTxFrame_kept {s0 s : State} {a} (h : Kept s0 s) : KeptOut s0 (execHostTxFrame a s) := by
  unfold execHostTxFrame
  repeat'
    first | with_reducible assumption | with_reducible refine servePort_kept (fun _ _ _ => ?_) ?_ |
      with_reducible apply sendHostFrame_kept | with_reducible apply keptOut_next | dsimp only | split

theorem execBhLinkDown_kept {s0 s : State} {a} (h : Kept s0 s) : KeptOut s0 (execBhLinkDown a s) := by
  unfold execBhLinkDown
  repeat'
    first | with_reducible assumption | with_reducible apply raise_kept | with_reducible apply setBh_kept |
      with_reducible apply keptOut_next | dsimp only | split | with_reducible refine kept_mk ?_ rfl rfl rfl rfl rfl rfl

theorem execBhLinkUp_kept {s0 s : State} {a} (h : Kept s0 s) : KeptOut s0 (execBhLinkUp a s) := by
  unfold execBhLinkUp
  repeat'
    first | with_reducible assumption | with_reducible apply setBh_kept | with_reducible apply keptOut_next | dsimp only |
      split | with_reducible refine kept_mk ?_ rfl rfl rfl rfl rfl rfl

theorem bhPortSetSpec_kept : KeptSpec (bhPortSetSpec) := by
  intro s0 s c h
  dsimp only [bhPortSetSpec, plainSpec, done]
  repeat'
    first | with_reducible assumption | with_reducible apply setBhCfg_kept | with_reducible apply setBh_kept | dsimp only |
      split | with_reducible refine kept_mk ?_ rfl rfl rfl rfl rfl rfl

theorem execBhPortSet_kept {s0 s : State} {a} (h : Kept s0 s) : KeptOut s0 (execBhPortSet a s) := by
  unfold execBhPortSet
  repeat'
    first | with_reducible assumption | with_reducible apply runCommand_kept | with_reducible exact bhPortSetSpec_kept |
      dsimp only

theorem bhFilterSetSpec_kept : KeptSpec (bhFilterSetSpec) := by
  intro s0 s c h
  dsimp only [bhFilterSetSpec, plainSpec, done]
  repeat'
    first | with_reducible assumption | with_reducible apply setBhCfg_kept | with_reducible apply kept_ite |
      with_reducible apply kept_ite_answer | dsimp only | split | with_reducible refine kept_mk ?_ rfl rfl rfl rfl rfl rfl

theorem execBhFilterSet_kept {s0 s : State} {a} (h : Kept s0 s) : KeptOut s0 (execBhFilterSet a s) := by
  unfold execBhFilterSet
  repeat'
    first | with_reducible assumption | with_reducible apply runCommand_kept | with_reducible exact bhFilterSetSpec_kept |
      dsimp only

theorem bhVlanSetSpec_kept : KeptSpec (bhVlanSetSpec) := by
  intro s0 s c h
  dsimp only [bhVlanSetSpec, plainSpec, done]
  repeat'
    first | with_reducible assumption | with_reducible apply setBhCfg_kept | with_reducible apply kept_ite |
      with_reducible apply kept_ite_answer | dsimp only | split | with_reducible refine kept_mk ?_ rfl rfl rfl rfl rfl rfl

theorem execBhVlanSet_kept {s0 s : State} {a} (h : Kept s0 s) : KeptOut s0 (execBhVlanSet a s) := by
  unfold execBhVlanSet
  repeat'
    first | with_reducible assumption | with_reducible apply runCommand_kept | with_reducible exact bhVlanSetSpec_kept |
      dsimp only

theorem bhEgressSetSpec_kept : KeptSpec (bhEgressSetSpec) := by
  intro s0 s c h
  dsimp only [bhEgressSetSpec, plainSpec, done]
  repeat'
    first | with_reducible assumption | with_reducible apply setBhCfg_kept | with_reducible apply kept_ite |
      with_reducible apply kept_ite_answer | dsimp only | split | with_reducible refine kept_mk ?_ rfl rfl rfl rfl rfl rfl

theorem execBhEgressSet_kept {s0 s : State} {a} (h : Kept s0 s) : KeptOut s0 (execBhEgressSet a s) := by
  unfold execBhEgressSet
  repeat'
    first | with_reducible assumption | with_reducible apply runCommand_kept | with_reducible exact bhEgressSetSpec_kept |
      dsimp only

theorem bhStatusSpec_kept : KeptSpec (bhStatusSpec) := by
  intro s0 s c h
  dsimp only [bhStatusSpec, plainSpec, doneWith]
  repeat'
    first | with_reducible assumption | dsimp only

theorem execBhStatus_kept {s0 s : State} {a} (h : Kept s0 s) : KeptOut s0 (execBhStatus a s) := by
  unfold execBhStatus
  repeat'
    first | with_reducible assumption | with_reducible apply runCommand_kept | with_reducible exact bhStatusSpec_kept |
      dsimp only

theorem bhCountersReadSpec_kept : KeptSpec (bhCountersReadSpec) := by
  intro s0 s c h
  dsimp only [bhCountersReadSpec, plainSpec, doneWith]
  repeat'
    first | with_reducible assumption | with_reducible apply setBh_kept | dsimp only | split |
      with_reducible refine kept_mk ?_ rfl rfl rfl rfl rfl rfl

theorem execBhCountersRead_kept {s0 s : State} {a} (h : Kept s0 s) : KeptOut s0 (execBhCountersRead a s) := by
  unfold execBhCountersRead
  repeat'
    first | with_reducible assumption | with_reducible apply runCommand_kept | with_reducible exact bhCountersReadSpec_kept |
      dsimp only

end Sys2Proof.Laws
end

