-- ==== Sys2Proof/Laws/KeptChain.lean ====
section
/-! SUPPORT. What the operations of Machine/Chain.lean keep. -/

namespace Sys2Proof.Laws

open Sys2Proof.Machine Sys2Proof.Safety

set_option linter.unusedTactic false
set_option linter.unreachableTactic false

theorem setFw_kept {s0 s : State} {b} (h : Kept s0 s) : Kept s0 (setFw s b) := by
  unfold setFw
  repeat'
    first | with_reducible assumption | dsimp only | with_reducible refine kept_mk ?_ rfl rfl rfl rfl rfl rfl

theorem breakChain_kept {s0 s : State} (h : Kept s0 s) : Kept s0 (breakChain s) := by
  unfold breakChain
  repeat'
    first | with_reducible assumption | with_reducible apply setFw_kept | with_reducible apply postEvent_kept |
      with_reducible apply complete_kept | dsimp only | split | with_reducible refine kept_mk ?_ rfl rfl rfl rfl rfl rfl

theorem sendBlock_kept {s0 s : State} {a} (h : Kept s0 s) : Kept s0 (sendBlock a s) := by
  unfold sendBlock
  repeat'
    first | with_reducible assumption | with_reducible apply originate_kept | with_reducible apply ranNow_kept |
      with_reducible apply setFw_kept | with_reducible apply breakChain_kept | with_reducible apply kept_ite | dsimp only |
      split | with_reducible refine kept_mk ?_ rfl rfl rfl rfl rfl rfl

theorem passBlock_kept {s0 s : State} (h : Kept s0 s) : Kept s0 (passBlock s) := by
  unfold passBlock
  repeat'
    first | with_reducible assumption | with_reducible apply sendBlock_kept | with_reducible apply kept_ite | dsimp only |
      split

theorem checkChain_kept {s0 s : State} (h : Kept s0 s) : Kept s0 (checkChain s) := by
  unfold checkChain
  repeat'
    first | with_reducible assumption | with_reducible apply breakChain_kept | with_reducible apply kept_ite | dsimp only |
      split

end Sys2Proof.Laws
end

