-- ==== Sys2Proof/Laws/KeptHerdLinks.lean ====
section
/-! SUPPORT. What the operations of Machine/HerdLinks.lean keep. -/

namespace Sys2Proof.Laws

open Sys2Proof.Machine Sys2Proof.Safety

set_option linter.unusedTactic false
set_option linter.unreachableTactic false

theorem tellMembership_kept {s0 s : State} (h : Kept s0 s) : Kept s0 (tellMembership s) := by
  unfold tellMembership
  repeat'
    first | with_reducible assumption | with_reducible apply originate_kept |
      with_reducible refine kept_foldl ?_ fun _ _ _ => ?_ | dsimp only

theorem datePresence_kept {s0 s : State} {b} (h : Kept s0 s) : Kept s0 (datePresence s b) := by
  unfold datePresence
  repeat'
    first | with_reducible assumption | with_reducible apply setPeer_kept | with_reducible apply kept_ite | dsimp only |
      split | with_reducible refine kept_mk ?_ rfl rfl rfl rfl rfl rfl

theorem refreshPresence_kept {s0 s : State} (h : Kept s0 s) : Kept s0 (refreshPresence s) := by
  unfold refreshPresence
  repeat'
    first | with_reducible assumption | with_reducible apply datePresence_kept | with_reducible apply releaseTo_kept |
      with_reducible apply tellMembership_kept | with_reducible apply kept_ite |
      with_reducible refine kept_foldl ?_ fun _ _ _ => ?_ | dsimp only | split |
      with_reducible refine kept_mk ?_ rfl rfl rfl rfl rfl rfl

theorem retryForwarded_kept {s0 s : State} {a} (h : Kept s0 s) : Kept s0 (retryForwarded a s) := by
  unfold retryForwarded
  repeat'
    first | with_reducible assumption | with_reducible apply sendReply_kept |
      with_reducible refine kept_foldl ?_ fun _ _ _ => ?_ | dsimp only |
      with_reducible refine kept_mk ?_ rfl rfl rfl rfl rfl rfl

theorem retryMoves_kept {s0 s : State} {a} (h : Kept s0 s) : Kept s0 (retryMoves a s) := by
  unfold retryMoves
  repeat'
    first | with_reducible assumption | with_reducible apply complete_kept | with_reducible apply dropMove_kept |
      with_reducible refine kept_foldl ?_ fun _ _ _ => ?_ | dsimp only

theorem returnCandidates_kept {s0 s : State} {a} (h : Kept s0 s) : Kept s0 (returnCandidates a s) := by
  unfold returnCandidates
  repeat'
    first | with_reducible assumption | with_reducible apply settleItem_kept | with_reducible apply kept_ite |
      with_reducible refine kept_foldl ?_ fun _ _ _ => ?_ | dsimp only | split |
      with_reducible refine kept_mk ?_ rfl rfl rfl rfl rfl rfl

theorem breakSurvey_kept {s0 s : State} {a} (h : Kept s0 s) : Kept s0 (breakSurvey a s) := by
  unfold breakSurvey
  repeat'
    first | with_reducible assumption | with_reducible apply finishSurvey_kept | with_reducible apply kept_ite | dsimp only |
      split

theorem dropNotices_kept {s0 s : State} {a} (h : Kept s0 s) : Kept s0 (dropNotices a s) := by
  unfold dropNotices
  repeat'
    first | with_reducible assumption | dsimp only | with_reducible refine kept_mk ?_ rfl rfl rfl rfl rfl rfl

theorem peerReset_kept {s0 s : State} {a b} (h : Kept s0 s) : Kept s0 (peerReset a b s) := by
  unfold peerReset
  repeat'
    first | with_reducible assumption | with_reducible apply dropNotices_kept | with_reducible apply setPeer_kept |
      with_reducible apply postEvent_kept | with_reducible apply raise_kept | with_reducible apply breakSurvey_kept |
      with_reducible apply returnCandidates_kept | with_reducible apply retryMoves_kept |
      with_reducible apply abandonAll_kept | with_reducible apply retryForwarded_kept | dsimp only |
      with_reducible refine kept_mk ?_ rfl rfl rfl rfl rfl rfl

theorem noteEpoch_kept {s0 s : State} {a b} (h : Kept s0 s) : Kept s0 (noteEpoch a b s).2 := by
  unfold noteEpoch
  repeat'
    first | with_reducible assumption | with_reducible apply setPeer_kept | with_reducible apply peerReset_kept |
      with_reducible apply kept_ite | with_reducible apply kept_ite_snd | dsimp only | split |
      with_reducible refine kept_mk ?_ rfl rfl rfl rfl rfl rfl

theorem countHerd_kept {s0 s : State} {a b} (h : Kept s0 s) : Kept s0 (countHerd a b s) := by
  unfold countHerd
  repeat'
    first | with_reducible assumption | with_reducible apply setHlink_kept | dsimp only |
      with_reducible refine kept_mk ?_ rfl rfl rfl rfl rfl rfl

theorem dropLink_kept {s0 s : State} {a} (h : Kept s0 s) : Kept s0 (dropLink a s) := by
  unfold dropLink
  repeat'
    first | with_reducible assumption | with_reducible apply setHlink_kept | with_reducible apply checkChain_kept |
      with_reducible apply refreshPresence_kept | dsimp only | with_reducible refine kept_mk ?_ rfl rfl rfl rfl rfl rfl

theorem failLink_kept {s0 s : State} {a} (h : Kept s0 s) : Kept s0 (failLink a s) := by
  unfold failLink
  repeat'
    first | with_reducible assumption | with_reducible apply dropLink_kept | with_reducible apply postEvent_kept |
      with_reducible apply raise_kept | with_reducible apply countHerd_kept | dsimp only

theorem execHerdLinkDown_kept {s0 s : State} {a} (h : Kept s0 s) : KeptOut s0 (execHerdLinkDown a s) := by
  unfold execHerdLinkDown
  repeat'
    first | with_reducible assumption | with_reducible apply failLink_kept | with_reducible apply keptOut_next | dsimp only |
      split

theorem raiseLink_kept {s0 s : State} {a b c} (h : Kept s0 s) : Kept s0 (raiseLink a b c s) := by
  unfold raiseLink
  repeat'
    first | with_reducible assumption | with_reducible apply noteEpoch_kept | with_reducible apply setHlink_kept |
      with_reducible apply refreshPresence_kept | with_reducible apply postEvent_kept | with_reducible apply countHerd_kept |
      with_reducible apply kept_ite | dsimp only | split | with_reducible refine kept_mk ?_ rfl rfl rfl rfl rfl rfl

theorem duplicateId_kept {s0 s : State} {a b c} (h : Kept s0 s) : Kept s0 (duplicateId a b c s) := by
  unfold duplicateId
  repeat'
    first | with_reducible assumption | with_reducible apply setHlink_kept | with_reducible apply postEvent_kept |
      with_reducible apply raise_kept | dsimp only | with_reducible refine kept_mk ?_ rfl rfl rfl rfl rfl rfl

theorem execHerdLinkUp_kept {s0 s : State} {a b c} (h : Kept s0 s) : KeptOut s0 (execHerdLinkUp a b c s) := by
  unfold execHerdLinkUp
  repeat'
    first | with_reducible assumption | with_reducible apply duplicateId_kept | with_reducible apply raiseLink_kept |
      with_reducible apply kept_ite | with_reducible apply keptOut_ite | with_reducible apply keptOut_next | dsimp only |
      split

theorem lineFlit_kept {s0 s : State} {a b c} (h : Kept s0 s) : Kept s0 (lineFlit a b c s) := by
  unfold lineFlit
  repeat'
    first | with_reducible assumption | with_reducible apply setHlink_kept | dsimp only |
      with_reducible refine kept_mk ?_ rfl rfl rfl rfl rfl rfl

theorem sendControl_kept {s0 s : State} {a} (h : Kept s0 s) : Kept s0 (sendControl a s) := by
  unfold sendControl
  repeat'
    first | with_reducible assumption | with_reducible apply lineFlit_kept | dsimp only |
      with_reducible refine kept_mk ?_ rfl rfl rfl rfl rfl rfl

theorem sendFlit_kept {s0 s : State} {a b} (h : Kept s0 s) : Kept s0 (sendFlit a b s) := by
  unfold sendFlit
  repeat'
    first | with_reducible assumption | with_reducible apply setHlink_kept | with_reducible apply countHerd_kept |
      with_reducible apply lineFlit_kept | dsimp only | split | with_reducible refine kept_mk ?_ rfl rfl rfl rfl rfl rfl

theorem beginMessage_kept {s0 s : State} {a} (h : Kept s0 s) : Kept s0 (beginMessage a s) := by
  unfold beginMessage
  repeat'
    first | with_reducible assumption | with_reducible apply kept_ite | dsimp only | split |
      with_reducible refine kept_mk ?_ rfl rfl rfl rfl rfl rfl

theorem sendOwn_kept {s0 s : State} {a b} (h : Kept s0 s) : Kept s0 (sendOwn a b s) := by
  unfold sendOwn
  repeat'
    first | with_reducible assumption | with_reducible apply sendFlit_kept | with_reducible apply beginMessage_kept |
      with_reducible apply setHlink_kept | with_reducible apply kept_ite | dsimp only | split |
      with_reducible refine kept_mk ?_ rfl rfl rfl rfl rfl rfl

theorem sendChannel_kept {s0 s : State} {a b} (h : Kept s0 s) : KeptSome s0 (sendChannel a b s) := by
  unfold sendChannel
  repeat'
    first | with_reducible assumption | with_reducible apply sendFlit_kept | with_reducible apply setHlink_kept |
      with_reducible apply sendOwn_kept | with_reducible apply kept_ite | with_reducible apply keptSome_ite |
      with_reducible apply keptSome_some | with_reducible exact keptSome_none | dsimp only | split |
      with_reducible refine kept_mk ?_ rfl rfl rfl rfl rfl rfl

theorem discardUnreachable_kept {s0 s : State} (h : Kept s0 s) : Kept s0 (discardUnreachable s) := by
  unfold discardUnreachable
  repeat'
    first | with_reducible assumption | dsimp only | with_reducible refine kept_mk ?_ rfl rfl rfl rfl rfl rfl

theorem execHerdFlitTransmit_kept {s0 s : State} {a} (h : Kept s0 s) : KeptOut s0 (execHerdFlitTransmit a s) := by
  unfold execHerdFlitTransmit
  refine keptOut_next (kept_ite ?_ (kept_ite h (sendControl_kept h)))
  have ht : Kept s0 (discardUnreachable s) := discardUnreachable_kept h
  revert ht
  generalize discardUnreachable s = t
  intro ht
  dsimp only
  cases e : sendChannel a.val true t with
  | some u => exact sendChannel_kept ht _ e
  | none =>
    cases e' : sendChannel a.val false t with
    | some u => exact sendChannel_kept ht _ e'
    | none => exact ht

theorem resendAll_kept {s0 s : State} {a} (h : Kept s0 s) : Kept s0 (resendAll a s) := by
  unfold resendAll
  repeat'
    first | with_reducible assumption | with_reducible apply failLink_kept | with_reducible apply setHlink_kept |
      with_reducible apply lineFlit_kept | with_reducible apply raise_kept | with_reducible apply countHerd_kept |
      with_reducible apply kept_ite | with_reducible refine kept_foldl ?_ fun _ _ _ => ?_ | dsimp only | split |
      with_reducible refine kept_mk ?_ rfl rfl rfl rfl rfl rfl

theorem execHerdReplayTimeout_kept {s0 s : State} {a} (h : Kept s0 s) : KeptOut s0 (execHerdReplayTimeout a s) := by
  unfold execHerdReplayTimeout
  repeat'
    first | with_reducible assumption | with_reducible apply resendAll_kept | with_reducible apply keptOut_next |
      dsimp only | split

theorem takeLinkWord_kept {s0 s : State} {a b} (h : Kept s0 s) : Kept s0 (takeLinkWord a b s) := by
  unfold takeLinkWord
  repeat'
    first | with_reducible assumption | with_reducible apply setHlink_kept | with_reducible apply resendAll_kept |
      with_reducible apply kept_ite | dsimp only | split | with_reducible refine kept_mk ?_ rfl rfl rfl rfl rfl rfl

theorem oweNak_kept {s0 s : State} {a} (h : Kept s0 s) : Kept s0 (oweNak a s) := by
  unfold oweNak
  repeat'
    first | with_reducible assumption | with_reducible apply setHlink_kept | dsimp only |
      with_reducible refine kept_mk ?_ rfl rfl rfl rfl rfl rfl

theorem freeBuffer_kept {s0 s : State} {a b} (h : Kept s0 s) : Kept s0 (freeBuffer a b s) := by
  unfold freeBuffer
  repeat'
    first | with_reducible assumption | with_reducible apply setHlink_kept | dsimp only |
      with_reducible refine kept_mk ?_ rfl rfl rfl rfl rfl rfl

theorem passOn_kept {s0 s : State} {a b} (h : Kept s0 s) : Kept s0 (passOn a b s) := by
  unfold passOn
  repeat'
    first | with_reducible assumption | with_reducible apply countHerd_kept | with_reducible apply freeBuffer_kept |
      with_reducible apply sendFlit_kept | with_reducible apply setHlink_kept | with_reducible apply kept_ite | dsimp only |
      split | with_reducible refine kept_mk ?_ rfl rfl rfl rfl rfl rfl

theorem stompCopy_kept {s0 s : State} {a b} (h : Kept s0 s) : Kept s0 (stompCopy a b s) := by
  unfold stompCopy
  repeat'
    first | with_reducible assumption | with_reducible apply lineFlit_kept | with_reducible apply kept_ite | dsimp only |
      split | with_reducible refine kept_mk ?_ rfl rfl rfl rfl rfl rfl

theorem dropReasm_kept {s0 s : State} {a b} (h : Kept s0 s) : Kept s0 (dropReasm a b s) := by
  unfold dropReasm
  repeat'
    first | with_reducible assumption | dsimp only | with_reducible refine kept_mk ?_ rfl rfl rfl rfl rfl rfl

theorem acceptMessage_kept {s0 s : State} {a b c d} (h : Kept s0 s) : Kept s0 (acceptMessage a b c d s) := by
  unfold acceptMessage
  repeat'
    first | with_reducible assumption | with_reducible apply setPeer_kept | with_reducible apply countHerd_kept |
      with_reducible apply kept_ite | dsimp only | split | with_reducible refine kept_mk ?_ rfl rfl rfl rfl rfl rfl

theorem takeClockFlit_kept {s0 s : State} {a b} (h : Kept s0 s) : Kept s0 (takeClockFlit a b s) := by
  unfold takeClockFlit
  repeat'
    first | with_reducible assumption | with_reducible apply countTime_kept | with_reducible apply clockForward_kept |
      with_reducible apply kept_ite | dsimp only | split

theorem beginReasm_kept {s0 s : State} {a b} (h : Kept s0 s) : Kept s0 (beginReasm a b s) := by
  unfold beginReasm
  repeat'
    first | with_reducible assumption | with_reducible apply countHerd_kept | with_reducible apply dropReasm_kept |
      with_reducible apply kept_ite | dsimp only | split | with_reducible refine kept_mk ?_ rfl rfl rfl rfl rfl rfl

theorem takeFlit_kept {s0 s : State} {a b} (h : Kept s0 s) : Kept s0 (takeFlit a b s) := by
  unfold takeFlit
  repeat'
    first | with_reducible assumption | with_reducible apply beginReasm_kept | with_reducible apply freeBuffer_kept |
      with_reducible apply takeClockFlit_kept | with_reducible apply acceptMessage_kept |
      with_reducible apply dropReasm_kept | with_reducible apply kept_ite | dsimp only | split

theorem acceptFlit_kept {s0 s : State} {a b} (h : Kept s0 s) : Kept s0 (acceptFlit a b s) := by
  unfold acceptFlit
  repeat'
    first | with_reducible assumption | with_reducible apply countHerd_kept | with_reducible apply setHlink_kept |
      with_reducible apply noteEpoch_kept | with_reducible apply freeBuffer_kept | with_reducible apply passOn_kept |
      with_reducible apply takeFlit_kept | with_reducible apply kept_ite | dsimp only | split |
      with_reducible refine kept_mk ?_ rfl rfl rfl rfl rfl rfl

theorem goodFlit_kept {s0 s : State} {a b} (h : Kept s0 s) : Kept s0 (goodFlit a b s) := by
  unfold goodFlit
  repeat'
    first | with_reducible assumption | with_reducible apply takeLinkWord_kept | with_reducible apply noteEpoch_kept |
      with_reducible apply countHerd_kept | with_reducible apply acceptFlit_kept | with_reducible apply oweNak_kept |
      with_reducible apply kept_ite | dsimp only | split

theorem trainLink_kept {s0 s : State} {a b} (h : Kept s0 s) : Kept s0 (trainLink a b s) := by
  unfold trainLink
  repeat'
    first | with_reducible assumption | with_reducible apply setHlink_kept | with_reducible apply kept_ite | dsimp only |
      split | with_reducible refine kept_mk ?_ rfl rfl rfl rfl rfl rfl

theorem badFlit_kept {s0 s : State} {a b} (h : Kept s0 s) : Kept s0 (badFlit a b s) := by
  unfold badFlit
  repeat'
    first | with_reducible assumption | with_reducible apply oweNak_kept | with_reducible apply stompCopy_kept |
      with_reducible apply countHerd_kept | dsimp only

theorem execHerdFlitReceived_kept {s0 s : State} {a b} (h : Kept s0 s) : KeptOut s0 (execHerdFlitReceived a b s) := by
  unfold execHerdFlitReceived
  repeat'
    first | with_reducible assumption | with_reducible apply trainLink_kept | with_reducible apply countHerd_kept |
      with_reducible apply badFlit_kept | with_reducible apply goodFlit_kept | with_reducible apply keptOut_next |
      dsimp only | split

theorem execHerdMessageTimeout_kept {s0 s : State} {a b c} (h : Kept s0 s) : KeptOut s0 (execHerdMessageTimeout a b c s) :=
      by
  unfold execHerdMessageTimeout
  repeat'
    first | with_reducible assumption | with_reducible apply countHerd_kept | with_reducible apply dropReasm_kept |
      with_reducible apply kept_ite | with_reducible apply keptOut_ite | with_reducible apply keptOut_next | dsimp only |
      split

theorem setHerdCfg_kept {s0 s : State} {b} (h : Kept s0 s) : Kept s0 (setHerdCfg s b) := by
  unfold setHerdCfg
  repeat'
    first | with_reducible assumption | dsimp only | with_reducible refine kept_mk ?_ rfl rfl rfl rfl rfl rfl

theorem herdLinkSetSpec_kept : KeptSpec (herdLinkSetSpec) := by
  intro s0 s c h
  dsimp only [herdLinkSetSpec, plainSpec, done]
  repeat'
    first | with_reducible assumption | with_reducible apply setHerdCfg_kept | with_reducible apply dropLink_kept |
      dsimp only | split | with_reducible refine kept_mk ?_ rfl rfl rfl rfl rfl rfl

theorem execHerdLinkSet_kept {s0 s : State} {a} (h : Kept s0 s) : KeptOut s0 (execHerdLinkSet a s) := by
  unfold execHerdLinkSet
  repeat'
    first | with_reducible assumption | with_reducible apply runCommand_kept | with_reducible exact herdLinkSetSpec_kept |
      dsimp only

theorem herdRouteSetSpec_kept : KeptSpec (herdRouteSetSpec) := by
  intro s0 s c h
  dsimp only [herdRouteSetSpec, plainSpec, done]
  repeat'
    first | with_reducible assumption | with_reducible apply checkChain_kept | with_reducible apply refreshPresence_kept |
      with_reducible apply setHerdCfg_kept | dsimp only | with_reducible refine kept_mk ?_ rfl rfl rfl rfl rfl rfl

theorem execHerdRouteSet_kept {s0 s : State} {a} (h : Kept s0 s) : KeptOut s0 (execHerdRouteSet a s) := by
  unfold execHerdRouteSet
  repeat'
    first | with_reducible assumption | with_reducible apply runCommand_kept | with_reducible exact herdRouteSetSpec_kept |
      dsimp only

theorem herdLinkStatusSpec_kept : KeptSpec (herdLinkStatusSpec) := by
  intro s0 s c h
  dsimp only [herdLinkStatusSpec, plainSpec, doneWith]
  repeat'
    first | with_reducible assumption | dsimp only

theorem execHerdLinkStatus_kept {s0 s : State} {a} (h : Kept s0 s) : KeptOut s0 (execHerdLinkStatus a s) := by
  unfold execHerdLinkStatus
  repeat'
    first | with_reducible assumption | with_reducible apply runCommand_kept | with_reducible exact herdLinkStatusSpec_kept |
      dsimp only

theorem herdCountersReadSpec_kept : KeptSpec (herdCountersReadSpec) := by
  intro s0 s c h
  dsimp only [herdCountersReadSpec, plainSpec, doneWith]
  repeat'
    first | with_reducible assumption | with_reducible apply setHlink_kept | dsimp only | split |
      with_reducible refine kept_mk ?_ rfl rfl rfl rfl rfl rfl

theorem execHerdCountersRead_kept {s0 s : State} {a} (h : Kept s0 s) : KeptOut s0 (execHerdCountersRead a s) := by
  unfold execHerdCountersRead
  repeat'
    first | with_reducible assumption | with_reducible apply runCommand_kept |
      with_reducible exact herdCountersReadSpec_kept | dsimp only

end Sys2Proof.Laws
end

