-- ==== Sys2Proof/Laws/KeptHostPort.lean ====
section
/-! SUPPORT. What the operations of Machine/HostPort.lean keep. -/

namespace Sys2Proof.Laws

open Sys2Proof.Machine Sys2Proof.Safety

set_option linter.unusedTactic false
set_option linter.unreachableTactic false

theorem apertureSetSpec_kept : KeptSpec (apertureSetSpec) := by
  intro s0 s c h
  dsimp only [apertureSetSpec, plainSpec, done]
  repeat'
    first | with_reducible assumption | dsimp only | with_reducible refine kept_mk ?_ rfl rfl rfl rfl rfl rfl

theorem execApertureSet_kept {s0 s : State} {a} (h : Kept s0 s) : KeptOut s0 (execApertureSet a s) := by
  unfold execApertureSet
  repeat'
    first | with_reducible assumption | with_reducible apply runCommand_kept | with_reducible exact apertureSetSpec_kept |
      dsimp only

theorem writeStaging_kept {s0 s : State} {a b} (h : Kept s0 s) : Kept s0 (writeStaging a b s) := by
  unfold writeStaging
  exact kept_mem h (memSetAll_wf _ _ _ _) id

theorem execBar2Write_kept {s0 s : State} {a b} (h : Kept s0 s) : KeptOut s0 (execBar2Write a b s) := by
  unfold execBar2Write
  repeat'
    first | with_reducible assumption | with_reducible apply writeStaging_kept | with_reducible apply raise_kept |
      with_reducible apply keptOut_next | dsimp only | split

theorem execUnsupportedRequest_kept {s0 s : State} {a b c} (h : Kept s0 s) : KeptOut s0 (execUnsupportedRequest a b c s) :=
      by
  unfold execUnsupportedRequest
  repeat'
    first | with_reducible assumption | with_reducible apply raise_kept | with_reducible apply keptOut_next |
      with_reducible exact keptOut_fault | dsimp only | split | with_reducible refine kept_mk ?_ rfl rfl rfl rfl rfl rfl

theorem pcieStatusSpec_kept : KeptSpec (pcieStatusSpec) := by
  intro s0 s c h
  dsimp only [pcieStatusSpec, plainSpec, doneWith]
  repeat'
    first | with_reducible assumption | dsimp only

theorem execPcieStatus_kept {s0 s : State} {a} (h : Kept s0 s) : KeptOut s0 (execPcieStatus a s) := by
  unfold execPcieStatus
  repeat'
    first | with_reducible assumption | with_reducible apply runCommand_kept | with_reducible exact pcieStatusSpec_kept |
      dsimp only

theorem setEngine_kept {s0 s : State} {b c} (h : Kept s0 s) : Kept s0 (setEngine s b c) := by
  unfold setEngine
  repeat'
    first | with_reducible assumption | dsimp only | with_reducible refine kept_mk ?_ rfl rfl rfl rfl rfl rfl

theorem dmaEngineSetSpec_kept : KeptSpec (dmaEngineSetSpec) := by
  intro s0 s c h
  dsimp only [dmaEngineSetSpec, plainSpec, done]
  repeat'
    first | with_reducible assumption | with_reducible apply setEngine_kept | dsimp only |
      with_reducible refine kept_mk ?_ rfl rfl rfl rfl rfl rfl

theorem execDmaEngineSet_kept {s0 s : State} {a} (h : Kept s0 s) : KeptOut s0 (execDmaEngineSet a s) := by
  unfold execDmaEngineSet
  repeat'
    first | with_reducible assumption | with_reducible apply runCommand_kept | with_reducible exact dmaEngineSetSpec_kept |
      dsimp only

theorem dmaEngineStopSpec_kept : KeptSpec (dmaEngineStopSpec) := by
  intro s0 s c h
  dsimp only [dmaEngineStopSpec, plainSpec, doneWith]
  repeat'
    first | with_reducible assumption | with_reducible apply setEngine_kept | dsimp only |
      with_reducible refine kept_mk ?_ rfl rfl rfl rfl rfl rfl

theorem execDmaEngineStop_kept {s0 s : State} {a} (h : Kept s0 s) : KeptOut s0 (execDmaEngineStop a s) := by
  unfold execDmaEngineStop
  repeat'
    first | with_reducible assumption | with_reducible apply runCommand_kept | with_reducible exact dmaEngineStopSpec_kept |
      dsimp only

theorem dmaStatusSpec_kept : KeptSpec (dmaStatusSpec) := by
  intro s0 s c h
  dsimp only [dmaStatusSpec, plainSpec, doneWith]
  repeat'
    first | with_reducible assumption | dsimp only

theorem execDmaStatus_kept {s0 s : State} {a} (h : Kept s0 s) : KeptOut s0 (execDmaStatus a s) := by
  unfold execDmaStatus
  repeat'
    first | with_reducible assumption | with_reducible apply runCommand_kept | with_reducible exact dmaStatusSpec_kept |
      dsimp only

theorem ringBell_kept {s0 s : State} {a b} (h : Kept s0 s) : Kept s0 (ringBell a b s) := by
  unfold ringBell
  repeat'
    first | with_reducible assumption | with_reducible apply setEngine_kept | dsimp only | split |
      with_reducible refine kept_mk ?_ rfl rfl rfl rfl rfl rfl

theorem execDoorbell_kept {s0 s : State} {a b} (h : Kept s0 s) : KeptOut s0 (execDoorbell a b s) := by
  unfold execDoorbell
  repeat'
    first | with_reducible assumption | with_reducible apply ringBell_kept | with_reducible apply keptOut_next | dsimp only |
      split | with_reducible refine kept_mk ?_ rfl rfl rfl rfl rfl rfl

theorem dmaFault_kept {s0 s : State} {a b} (h : Kept s0 s) : Kept s0 (dmaFault a b s) := by
  unfold dmaFault
  repeat'
    first | with_reducible assumption | with_reducible apply setEngine_kept | with_reducible apply postEvent_kept |
      with_reducible apply raise_kept | dsimp only | with_reducible refine kept_mk ?_ rfl rfl rfl rfl rfl rfl

theorem nextDesc_kept {s0 s : State} {a b c} (h : Kept s0 s) : Kept s0 (nextDesc a b c s) := by
  unfold nextDesc
  repeat'
    first | with_reducible assumption | with_reducible apply setEngine_kept | dsimp only |
      with_reducible refine kept_mk ?_ rfl rfl rfl rfl rfl rfl

theorem pushAll_kept {s0 s : State} {a b} (h : Kept s0 s) : Kept s0 (pushAll a b s) := by
  unfold pushAll
  repeat'
    first | with_reducible assumption | with_reducible apply pushWord_kept | with_reducible apply raiseAll_kept |
      with_reducible refine kept_foldl ?_ fun _ _ _ => ?_ | dsimp only

theorem packetMoved_kept {s0 s : State} {a} (h : Kept s0 s) : Kept s0 (packetMoved a s) := by
  unfold packetMoved
  repeat'
    first | with_reducible assumption | with_reducible apply setEngine_kept | dsimp only |
      with_reducible refine kept_mk ?_ rfl rfl rfl rfl rfl rfl

theorem takeDesc_kept {s0 s : State} {a b} (h : Kept s0 s) : Kept s0 (takeDesc a b s) := by
  unfold takeDesc
  repeat'
    first | with_reducible assumption | with_reducible apply packetMoved_kept | with_reducible apply nextDesc_kept |
      with_reducible apply pushAll_kept | with_reducible apply setEngine_kept | with_reducible apply kept_ite | dsimp only |
      split | with_reducible refine kept_mk ?_ rfl rfl rfl rfl rfl rfl

theorem execDmaPoll_kept {s0 s : State} {a b} (h : Kept s0 s) : KeptOut s0 (execDmaPoll a b s) := by
  unfold execDmaPoll
  repeat'
    first | with_reducible assumption | with_reducible apply dmaFault_kept | with_reducible apply ranNow_kept |
      with_reducible apply takeDesc_kept | with_reducible apply kept_ite | with_reducible apply keptOut_ite |
      with_reducible apply keptOut_next | dsimp only | split

theorem engineMsi_kept {s0 s : State} {a} (h : Kept s0 s) : Kept s0 (engineMsi a s) := by
  unfold engineMsi
  repeat'
    first | with_reducible assumption | with_reducible apply msi_kept | with_reducible apply setEngine_kept |
      with_reducible apply kept_ite | dsimp only | split | with_reducible refine kept_mk ?_ rfl rfl rfl rfl rfl rfl

theorem fillBuffer_kept {s0 s : State} {a b} (h : Kept s0 s) : Kept s0 (fillBuffer a b s) := by
  unfold fillBuffer
  repeat'
    first | with_reducible assumption | with_reducible apply setQue_kept | with_reducible apply nextDesc_kept |
      with_reducible apply engineMsi_kept | with_reducible apply packetMoved_kept | with_reducible apply kept_ite |
      with_reducible refine kept_foldl ?_ fun _ _ _ => ?_ | dsimp only | split

theorem execDmaD2hTransfer_kept {s0 s : State} {a b} (h : Kept s0 s) : KeptOut s0 (execDmaD2hTransfer a b s) := by
  unfold execDmaD2hTransfer
  repeat'
    first | with_reducible assumption | with_reducible apply dmaFault_kept | with_reducible apply fillBuffer_kept |
      with_reducible apply kept_ite | with_reducible apply keptOut_ite | with_reducible apply keptOut_next | dsimp only |
      split

theorem execDmaHoldoffExpiry_kept {s0 s : State} {a} (h : Kept s0 s) : KeptOut s0 (execDmaHoldoffExpiry a s) := by
  unfold execDmaHoldoffExpiry
  repeat'
    first | with_reducible assumption | with_reducible apply engineMsi_kept | with_reducible apply keptOut_next |
      dsimp only | split

theorem dropReplies_kept {s0 s : State} (h : Kept s0 s) : Kept s0 (dropReplies s) := by
  unfold dropReplies
  refine kept_inFlight h fun k => ?_
  rw [List.length_map]
  exact Nat.le_trans (List.length_filter_le _ _) k

theorem unbindEngines_kept {s0 s : State} (h : Kept s0 s) : Kept s0 (unbindEngines s) := by
  unfold unbindEngines
  repeat'
    first | with_reducible assumption | dsimp only | with_reducible refine kept_mk ?_ rfl rfl rfl rfl rfl rfl

theorem hostResetEffect_kept {s0 s : State} (h : Kept s0 s) : Kept s0 (hostResetEffect s) := by
  unfold hostResetEffect
  repeat'
    first | with_reducible assumption | with_reducible apply dropReplies_kept | with_reducible apply unbindEngines_kept |
      with_reducible apply setQue_kept | with_reducible apply abandonAll_kept | with_reducible apply postEvent_kept |
      with_reducible refine kept_foldl ?_ fun _ _ _ => ?_ | dsimp only |
      with_reducible refine kept_mk ?_ rfl rfl rfl rfl rfl rfl

theorem execHostReset_kept {s0 s : State} {a} (h : Kept s0 s) : KeptOut s0 (execHostReset a s) := by
  unfold execHostReset
  repeat'
    first | with_reducible assumption | with_reducible apply hostResetEffect_kept | with_reducible apply keptOut_next |
      dsimp only | split

end Sys2Proof.Laws
end

