-- ==== Sys2Proof/Laws/KeptMembership.lean ====
section
/-! SUPPORT. What the operations of Machine/Membership.lean keep. -/

namespace Sys2Proof.Laws

open Sys2Proof.Machine Sys2Proof.Safety

set_option linter.unusedTactic false
set_option linter.unreachableTactic false

theorem herdIdSetSpec_kept : KeptSpec (herdIdSetSpec) := by
  intro s0 s c h
  dsimp only [herdIdSetSpec, plainSpec, done]
  repeat'
    first | with_reducible assumption | with_reducible apply setHerdCfg_kept | dsimp only |
      with_reducible refine kept_mk ?_ rfl rfl rfl rfl rfl rfl

theorem execHerdIdSet_kept {s0 s : State} {a} (h : Kept s0 s) : KeptOut s0 (execHerdIdSet a s) := by
  unfold execHerdIdSet
  repeat'
    first | with_reducible assumption | with_reducible apply runCommand_kept | with_reducible exact herdIdSetSpec_kept |
      dsimp only

theorem judgeAuthority_kept {s0 s : State} (h : Kept s0 s) : Kept s0 (judgeAuthority s) := by
  unfold judgeAuthority
  repeat'
    first | with_reducible assumption | with_reducible apply raise_kept | with_reducible apply kept_ite | dsimp only |
      split | with_reducible refine kept_mk ?_ rfl rfl rfl rfl rfl rfl

theorem forgetStrangers_kept {s0 s : State} (h : Kept s0 s) : Kept s0 (forgetStrangers s) := by
  unfold forgetStrangers
  repeat'
    first | with_reducible assumption | with_reducible apply kept_ite | dsimp only | split |
      with_reducible refine kept_mk ?_ rfl rfl rfl rfl rfl rfl

theorem herdMembersSetSpec_kept : KeptSpec (herdMembersSetSpec) := by
  intro s0 s c h
  dsimp only [herdMembersSetSpec, plainSpec, done]
  repeat'
    first | with_reducible assumption | with_reducible apply setHerdCfg_kept | with_reducible apply judgeAuthority_kept |
      with_reducible apply refreshPresence_kept | with_reducible apply forgetStrangers_kept | dsimp only |
      with_reducible refine kept_mk ?_ rfl rfl rfl rfl rfl rfl

theorem execHerdMembersSet_kept {s0 s : State} {a} (h : Kept s0 s) : KeptOut s0 (execHerdMembersSet a s) := by
  unfold execHerdMembersSet
  repeat'
    first | with_reducible assumption | with_reducible apply runCommand_kept | with_reducible exact herdMembersSetSpec_kept |
      dsimp only

theorem herdStatusSpec_kept : KeptSpec (herdStatusSpec) := by
  intro s0 s c h
  dsimp only [herdStatusSpec, plainSpec, doneWith]
  repeat'
    first | with_reducible assumption | dsimp only

theorem execHerdStatus_kept {s0 s : State} {a} (h : Kept s0 s) : KeptOut s0 (execHerdStatus a s) := by
  unfold execHerdStatus
  repeat'
    first | with_reducible assumption | with_reducible apply runCommand_kept | with_reducible exact herdStatusSpec_kept |
      dsimp only

theorem foreignSetSpec_kept : KeptSpec (foreignSetSpec) := by
  intro s0 s c h
  dsimp only [foreignSetSpec, plainSpec, done]
  repeat'
    first | with_reducible assumption | with_reducible apply setBhCfg_kept | dsimp only |
      with_reducible refine kept_mk ?_ rfl rfl rfl rfl rfl rfl

theorem execForeignSet_kept {s0 s : State} {a} (h : Kept s0 s) : KeptOut s0 (execForeignSet a s) := by
  unfold execForeignSet
  repeat'
    first | with_reducible assumption | with_reducible apply runCommand_kept | with_reducible exact foreignSetSpec_kept |
      dsimp only

theorem herdLeaveSpec_kept : KeptSpec (herdLeaveSpec) := by
  intro s0 s c h
  dsimp only [herdLeaveSpec, plainSpec]
  repeat'
    first | with_reducible assumption | with_reducible apply beginWithdrawal_kept | dsimp only |
      with_reducible refine kept_mk ?_ rfl rfl rfl rfl rfl rfl

theorem execHerdLeave_kept {s0 s : State} {a} (h : Kept s0 s) : KeptOut s0 (execHerdLeave a s) := by
  unfold execHerdLeave
  repeat'
    first | with_reducible assumption | with_reducible apply runCommand_kept | with_reducible exact herdLeaveSpec_kept |
      dsimp only

theorem execMembershipSend_kept {s0 s : State} (h : Kept s0 s) : KeptOut s0 (execMembershipSend s) := by
  unfold execMembershipSend
  repeat'
    first | with_reducible assumption | with_reducible apply tellMembership_kept |
      with_reducible apply refreshPresence_kept | with_reducible apply ranNow_kept | with_reducible apply keptOut_next |
      dsimp only | split

theorem execMembershipMessage_kept {s0 s : State} {a b} (h : Kept s0 s) : KeptOut s0 (execMembershipMessage a b s) := by
  unfold execMembershipMessage
  repeat'
    first | with_reducible assumption | with_reducible apply mirrorHerd_kept | with_reducible apply refreshPresence_kept |
      with_reducible apply keptOut_next | dsimp only | split | with_reducible refine kept_mk ?_ rfl rfl rfl rfl rfl rfl

theorem execHerdSplit_kept {s0 s : State} (h : Kept s0 s) : KeptOut s0 (execHerdSplit s) := by
  unfold execHerdSplit
  repeat'
    first | with_reducible assumption | with_reducible apply refreshPresence_kept | with_reducible apply raise_kept |
      with_reducible apply postEvent_kept | with_reducible apply judgeAuthority_kept | with_reducible apply kept_ite |
      with_reducible apply keptOut_ite | with_reducible apply keptOut_next | dsimp only | split |
      with_reducible refine kept_mk ?_ rfl rfl rfl rfl rfl rfl

theorem execHerdHeal_kept {s0 s : State} (h : Kept s0 s) : KeptOut s0 (execHerdHeal s) := by
  unfold execHerdHeal
  repeat'
    first | with_reducible assumption | with_reducible apply refreshPresence_kept | with_reducible apply releaseTo_kept |
      with_reducible apply postEvent_kept | with_reducible apply kept_ite |
      with_reducible refine kept_foldl ?_ fun _ _ _ => ?_ | with_reducible apply keptOut_ite |
      with_reducible apply keptOut_next | dsimp only | split | with_reducible refine kept_mk ?_ rfl rfl rfl rfl rfl rfl

end Sys2Proof.Laws
end

