-- ==== Sys2Proof/Laws/KeptSnapshot.lean ====
section
/-! SUPPORT. What the operations of Machine/Snapshot.lean keep. -/

namespace Sys2Proof.Laws

open Sys2Proof.Machine Sys2Proof.Safety

set_option linter.unusedTactic false
set_option linter.unreachableTactic false

theorem takeSnapshot_kept {s0 s : State} (h : Kept s0 s) : Kept s0 (takeSnapshot s) := by
  unfold takeSnapshot
  repeat'
    first | with_reducible assumption | dsimp only | split | with_reducible refine kept_mk ?_ rfl rfl rfl rfl rfl rfl

end Sys2Proof.Laws
end

