-- ==== Sys2Proof/Laws/KeptTandem.lean ====
section
/-! SUPPORT. What the operations of Machine/Tandem.lean keep. -/

namespace Sys2Proof.Laws

open Sys2Proof.Machine Sys2Proof.Safety

set_option linter.unusedTactic false
set_option linter.unreachableTactic false

theorem setTan_kept {s0 s : State} {b} (h : Kept s0 s) : Kept s0 (setTan s b) := by
  unfold setTan
  repeat'
    first | with_reducible assumption | dsimp only | with_reducible refine kept_mk ?_ rfl rfl rfl rfl rfl rfl

theorem formPair_kept {s0 s : State} {a} (h : Kept s0 s) : Kept s0 (formPair a s) := by
  unfold formPair
  repeat'
    first | with_reducible assumption | with_reducible apply setTan_kept | with_reducible apply sendReins_kept |
      with_reducible apply kept_ite | dsimp only | split | with_reducible refine kept_mk ?_ rfl rfl rfl rfl rfl rfl

theorem tandemFormSpec_kept : KeptSpec (tandemFormSpec) := by
  intro s0 s c h
  dsimp only [tandemFormSpec, plainSpec, done]
  repeat'
    first | with_reducible assumption | with_reducible apply formPair_kept | dsimp only |
      with_reducible refine kept_mk ?_ rfl rfl rfl rfl rfl rfl

theorem execTandemForm_kept {s0 s : State} {a} (h : Kept s0 s) : KeptOut s0 (execTandemForm a s) := by
  unfold execTandemForm
  repeat'
    first | with_reducible assumption | with_reducible apply runCommand_kept | with_reducible exact tandemFormSpec_kept |
      dsimp only

theorem dissolvePair_kept {s0 s : State} (h : Kept s0 s) : Kept s0 (dissolvePair s) := by
  unfold dissolvePair
  repeat'
    first | with_reducible assumption | with_reducible apply setTan_kept | dsimp only |
      with_reducible refine kept_mk ?_ rfl rfl rfl rfl rfl rfl

theorem tandemDissolveSpec_kept : KeptSpec (tandemDissolveSpec) := by
  intro s0 s c h
  dsimp only [tandemDissolveSpec, plainSpec, done]
  repeat'
    first | with_reducible assumption | with_reducible apply dissolvePair_kept | dsimp only |
      with_reducible refine kept_mk ?_ rfl rfl rfl rfl rfl rfl

theorem execTandemDissolve_kept {s0 s : State} {a} (h : Kept s0 s) : KeptOut s0 (execTandemDissolve a s) := by
  unfold execTandemDissolve
  repeat'
    first | with_reducible assumption | with_reducible apply runCommand_kept | with_reducible exact tandemDissolveSpec_kept |
      dsimp only

theorem tandemStatusSpec_kept : KeptSpec (tandemStatusSpec) := by
  intro s0 s c h
  dsimp only [tandemStatusSpec, plainSpec, doneWith]
  repeat'
    first | with_reducible assumption | dsimp only

theorem execTandemStatus_kept {s0 s : State} {a} (h : Kept s0 s) : KeptOut s0 (execTandemStatus a s) := by
  unfold execTandemStatus
  repeat'
    first | with_reducible assumption | with_reducible apply runCommand_kept | with_reducible exact tandemStatusSpec_kept |
      dsimp only

theorem tandemCountersReadSpec_kept : KeptSpec (tandemCountersReadSpec) := by
  intro s0 s c h
  dsimp only [tandemCountersReadSpec, plainSpec, doneWith]
  repeat'
    first | with_reducible assumption | with_reducible apply setTan_kept | dsimp only | split |
      with_reducible refine kept_mk ?_ rfl rfl rfl rfl rfl rfl

theorem execTandemCountersRead_kept {s0 s : State} {a} (h : Kept s0 s) : KeptOut s0 (execTandemCountersRead a s) := by
  unfold execTandemCountersRead
  repeat'
    first | with_reducible assumption | with_reducible apply runCommand_kept |
      with_reducible exact tandemCountersReadSpec_kept | dsimp only

theorem grantHandover_kept {s0 s : State} {a} (h : Kept s0 s) : Kept s0 (grantHandover a s) := by
  unfold grantHandover
  repeat'
    first | with_reducible assumption | with_reducible apply sendReins_kept | with_reducible apply setTan_kept | dsimp only |
      with_reducible refine kept_mk ?_ rfl rfl rfl rfl rfl rfl

theorem reinsHandoverSpec_kept : KeptSpec (reinsHandoverSpec) := by
  intro s0 s c h
  dsimp only [reinsHandoverSpec, plainSpec, doneWith]
  repeat'
    first | with_reducible assumption | with_reducible apply grantHandover_kept | dsimp only |
      with_reducible refine kept_mk ?_ rfl rfl rfl rfl rfl rfl

theorem execReinsHandover_kept {s0 s : State} {a} (h : Kept s0 s) : KeptOut s0 (execReinsHandover a s) := by
  unfold execReinsHandover
  repeat'
    first | with_reducible assumption | with_reducible apply runCommand_kept | with_reducible exact reinsHandoverSpec_kept |
      dsimp only

theorem tandemResyncSpec_kept : KeptSpec (tandemResyncSpec) := by
  intro s0 s c h
  dsimp only [tandemResyncSpec, plainSpec, runsOn]
  repeat'
    first | with_reducible assumption | with_reducible apply beginResync_kept | with_reducible apply setTan_kept |
      dsimp only | with_reducible refine kept_mk ?_ rfl rfl rfl rfl rfl rfl

theorem execTandemResync_kept {s0 s : State} {a} (h : Kept s0 s) : KeptOut s0 (execTandemResync a s) := by
  unfold execTandemResync
  repeat'
    first | with_reducible assumption | with_reducible apply runCommand_kept | with_reducible exact tandemResyncSpec_kept |
      dsimp only

theorem execAlignmentMarker_kept {s0 s : State} {a b} (h : Kept s0 s) : KeptOut s0 (execAlignmentMarker a b s) := by
  unfold execAlignmentMarker
  repeat'
    first | with_reducible assumption | with_reducible apply jumpSt_kept | with_reducible apply setTan_kept |
      with_reducible apply kept_ite | with_reducible apply keptOut_ite | with_reducible apply keptOut_next | dsimp only |
      split | with_reducible refine kept_mk ?_ rfl rfl rfl rfl rfl rfl

theorem pairInStep_kept {s0 s : State} (h : Kept s0 s) : Kept s0 (pairInStep s) := by
  unfold pairInStep
  repeat'
    first | with_reducible assumption | with_reducible apply setTan_kept | with_reducible apply complete_kept |
      with_reducible apply kept_ite | dsimp only | split | with_reducible refine kept_mk ?_ rfl rfl rfl rfl rfl rfl

theorem pairDigest_kept {s0 s : State} (h : Kept s0 s) : Kept s0 (pairDigest s) := by
  unfold pairDigest
  repeat'
    first | with_reducible assumption | with_reducible apply setTan_kept | with_reducible apply grantHandover_kept |
      with_reducible apply kept_ite | dsimp only | split | with_reducible refine kept_mk ?_ rfl rfl rfl rfl rfl rfl

theorem takeCounts_kept {s0 s : State} {a} (h : Kept s0 s) : Kept s0 (takeCounts a s) := by
  unfold takeCounts
  repeat'
    first | with_reducible assumption | with_reducible apply setNet_kept | with_reducible apply kept_ite | dsimp only |
      split | with_reducible refine kept_mk ?_ rfl rfl rfl rfl rfl rfl

theorem takeNodeCounts_kept {s0 s : State} (h : Kept s0 s) : Kept s0 (takeNodeCounts s) := by
  unfold takeNodeCounts
  repeat'
    first | with_reducible assumption | dsimp only | with_reducible refine kept_mk ?_ rfl rfl rfl rfl rfl rfl

theorem takeLeadCounters_kept {s0 s : State} (h : Kept s0 s) : Kept s0 (takeLeadCounters s) := by
  unfold takeLeadCounters
  repeat'
    first | with_reducible assumption | with_reducible apply takeNodeCounts_kept | with_reducible apply takeCounts_kept |
      with_reducible apply kept_ite | with_reducible refine kept_foldl ?_ fun _ _ _ => ?_ | dsimp only | split

theorem enterStep_kept {s0 s : State} (h : Kept s0 s) : Kept s0 (enterStep s) := by
  unfold enterStep
  repeat'
    first | with_reducible assumption | with_reducible apply takeLeadCounters_kept | with_reducible apply takeSnapshot_kept |
      with_reducible apply setTan_kept | with_reducible apply complete_kept | with_reducible apply pairInStep_kept |
      with_reducible apply kept_ite | dsimp only | split | with_reducible refine kept_mk ?_ rfl rfl rfl rfl rfl rfl

theorem beginHold_kept {s0 s : State} (h : Kept s0 s) : Kept s0 (beginHold s) := by
  unfold beginHold
  repeat'
    first | with_reducible assumption | with_reducible apply fullSelfTest_kept | with_reducible apply setTan_kept |
      with_reducible apply kept_ite | dsimp only | split | with_reducible refine kept_mk ?_ rfl rfl rfl rfl rfl rfl

theorem digestMatches_kept {s0 s : State} {a} (h : Kept s0 s) : Kept s0 (digestMatches a s) := by
  unfold digestMatches
  repeat'
    first | with_reducible assumption | with_reducible apply setTan_kept | with_reducible apply beginHold_kept |
      with_reducible apply pairDigest_kept | with_reducible apply enterStep_kept | dsimp only | split |
      with_reducible refine kept_mk ?_ rfl rfl rfl rfl rfl rfl

theorem digestDiffers_kept {s0 s : State} {a} (h : Kept s0 s) : Kept s0 (digestDiffers a s) := by
  unfold digestDiffers
  repeat'
    first | with_reducible assumption | with_reducible apply setTan_kept | with_reducible apply countTan_kept |
      with_reducible apply fullSelfTest_kept | with_reducible apply postEvent_kept | with_reducible apply raise_kept |
      with_reducible apply beginResync_kept | with_reducible apply kept_ite |
      with_reducible refine kept_of_snd (by assumption) ?_ | dsimp only | split |
      with_reducible refine kept_mk ?_ rfl rfl rfl rfl rfl rfl

theorem execSlotDigest_kept {s0 s : State} {a b} (h : Kept s0 s) : KeptOut s0 (execSlotDigest a b s) := by
  unfold execSlotDigest
  repeat'
    first | with_reducible assumption | with_reducible apply digestMatches_kept | with_reducible apply digestDiffers_kept |
      with_reducible apply kept_ite | with_reducible apply keptOut_ite | with_reducible apply keptOut_next | dsimp only |
      split

theorem execDigestMissing_kept {s0 s : State} (h : Kept s0 s) : KeptOut s0 (execDigestMissing s) := by
  unfold execDigestMissing
  repeat'
    first | with_reducible assumption | with_reducible apply setTan_kept | with_reducible apply keptOut_next | dsimp only |
      split | with_reducible refine kept_mk ?_ rfl rfl rfl rfl rfl rfl

theorem execReinsRenewalSend_kept {s0 s : State} (h : Kept s0 s) : KeptOut s0 (execReinsRenewalSend s) := by
  unfold execReinsRenewalSend
  repeat'
    first | with_reducible assumption | with_reducible apply sendReins_kept | with_reducible apply ranNow_kept |
      with_reducible apply setTan_kept | with_reducible apply keptOut_next | dsimp only | split |
      with_reducible refine kept_mk ?_ rfl rfl rfl rfl rfl rfl

theorem hearPath_kept {s0 s : State} {a} (h : Kept s0 s) : Kept s0 (hearPath a s) := by
  unfold hearPath
  repeat'
    first | with_reducible assumption | with_reducible apply setTan_kept | dsimp only |
      with_reducible refine kept_mk ?_ rfl rfl rfl rfl rfl rfl

theorem dropDrivers_kept {s0 s : State} (h : Kept s0 s) : Kept s0 (dropDrivers s) := by
  unfold dropDrivers
  repeat'
    first | with_reducible assumption | with_reducible apply setTan_kept | dsimp only |
      with_reducible refine kept_mk ?_ rfl rfl rfl rfl rfl rfl

theorem takeDrivers_kept {s0 s : State} (h : Kept s0 s) : Kept s0 (takeDrivers s) := by
  unfold takeDrivers
  repeat'
    first | with_reducible assumption | with_reducible apply setTan_kept | dsimp only |
      with_reducible refine kept_mk ?_ rfl rfl rfl rfl rfl rfl

theorem settleBoth_kept {s0 s : State} (h : Kept s0 s) : Kept s0 (settleBoth s) := by
  unfold settleBoth
  repeat'
    first | with_reducible assumption | with_reducible apply beginResync_kept | with_reducible apply dropDrivers_kept |
      with_reducible apply sendReins_kept | with_reducible apply kept_ite | dsimp only | split

theorem ackRenewal_kept {s0 s : State} {a b} (h : Kept s0 s) : Kept s0 (ackRenewal a b s) := by
  unfold ackRenewal
  repeat'
    first | with_reducible assumption | with_reducible apply sendHerd_kept | with_reducible apply kept_ite | dsimp only |
      split | with_reducible refine kept_mk ?_ rfl rfl rfl rfl rfl rfl

theorem takeRenewal_kept {s0 s : State} {a b} (h : Kept s0 s) : Kept s0 (takeRenewal a b s) := by
  unfold takeRenewal
  repeat'
    first | with_reducible assumption | with_reducible apply settleBoth_kept | with_reducible apply ackRenewal_kept |
      with_reducible apply setTan_kept | dsimp only | with_reducible refine kept_mk ?_ rfl rfl rfl rfl rfl rfl

theorem execReinsRenewal_kept {s0 s : State} {a b} (h : Kept s0 s) : KeptOut s0 (execReinsRenewal a b s) := by
  unfold execReinsRenewal
  repeat'
    first | with_reducible assumption | with_reducible apply takeRenewal_kept | with_reducible apply hearPath_kept |
      with_reducible apply kept_ite | with_reducible apply keptOut_ite | with_reducible apply keptOut_next | dsimp only |
      split

theorem execReinsLost_kept {s0 s : State} {a} (h : Kept s0 s) : KeptOut s0 (execReinsLost a s) := by
  unfold execReinsLost
  repeat'
    first | with_reducible assumption | with_reducible apply raise_kept | with_reducible apply countTan_kept |
      with_reducible apply setTan_kept | with_reducible apply keptOut_next | dsimp only | split |
      with_reducible refine kept_mk ?_ rfl rfl rfl rfl rfl rfl

theorem awaitReins_kept {s0 s : State} {a b} (h : Kept s0 s) : Kept s0 (awaitReins a b s) := by
  unfold awaitReins
  repeat'
    first | with_reducible assumption | with_reducible apply setTan_kept | dsimp only |
      with_reducible refine kept_mk ?_ rfl rfl rfl rfl rfl rfl

theorem execReinsRelease_kept {s0 s : State} {a} (h : Kept s0 s) : KeptOut s0 (execReinsRelease a s) := by
  unfold execReinsRelease
  repeat'
    first | with_reducible assumption | with_reducible apply awaitReins_kept | with_reducible apply keptOut_next |
      dsimp only | split

theorem execRevertRequest_kept {s0 s : State} {a} (h : Kept s0 s) : KeptOut s0 (execRevertRequest a s) := by
  unfold execRevertRequest
  repeat'
    first | with_reducible assumption | with_reducible apply grantHandover_kept | with_reducible apply keptOut_next |
      dsimp only | split

theorem execHandoverGrant_kept {s0 s : State} {a} (h : Kept s0 s) : KeptOut s0 (execHandoverGrant a s) := by
  unfold execHandoverGrant
  repeat'
    first | with_reducible assumption | with_reducible apply awaitReins_kept | with_reducible apply keptOut_next |
      dsimp only | split

theorem execRevertHoldExpiry_kept {s0 s : State} (h : Kept s0 s) : KeptOut s0 (execRevertHoldExpiry s) := by
  unfold execRevertHoldExpiry
  repeat'
    first | with_reducible assumption | with_reducible apply sendReins_kept | with_reducible apply setTan_kept |
      with_reducible apply kept_ite | with_reducible apply keptOut_ite | with_reducible apply keptOut_next | dsimp only |
      split | with_reducible refine kept_mk ?_ rfl rfl rfl rfl rfl rfl

theorem takenEvent_kept {s0 s : State} {a} (h : Kept s0 s) : Kept s0 (takenEvent a s) := by
  unfold takenEvent
  repeat'
    first | with_reducible assumption | with_reducible apply postEvent_kept | dsimp only

theorem takeReins_kept {s0 s : State} {a} (h : Kept s0 s) : Kept s0 (takeReins a s) := by
  unfold takeReins
  repeat'
    first | with_reducible assumption | with_reducible apply takeDrivers_kept | with_reducible apply setTan_kept |
      with_reducible apply takenEvent_kept | with_reducible apply raise_kept | with_reducible apply countTan_kept |
      with_reducible apply kept_ite | dsimp only | split | with_reducible refine kept_mk ?_ rfl rfl rfl rfl rfl rfl

theorem pairYield_kept {s0 s : State} (h : Kept s0 s) : Kept s0 (pairYield s) := by
  unfold pairYield
  repeat'
    first | with_reducible assumption | with_reducible apply setTan_kept | with_reducible apply kept_ite | dsimp only |
      split | with_reducible refine kept_mk ?_ rfl rfl rfl rfl rfl rfl

theorem yieldReins_kept {s0 s : State} {a} (h : Kept s0 s) : Kept s0 (yieldReins a s) := by
  unfold yieldReins
  repeat'
    first | with_reducible assumption | with_reducible apply dropDrivers_kept | with_reducible apply setTan_kept |
      with_reducible apply pairYield_kept | with_reducible apply takenEvent_kept | with_reducible apply countTan_kept |
      with_reducible apply kept_ite | dsimp only | split | with_reducible refine kept_mk ?_ rfl rfl rfl rfl rfl rfl

theorem execHandoverInstant_kept {s0 s : State} (h : Kept s0 s) : KeptOut s0 (execHandoverInstant s) := by
  unfold execHandoverInstant
  repeat'
    first | with_reducible assumption | with_reducible apply setTan_kept | with_reducible apply takeReins_kept |
      with_reducible apply yieldReins_kept | with_reducible apply kept_ite | with_reducible apply keptOut_ite |
      with_reducible apply keptOut_next | dsimp only | split | with_reducible refine kept_mk ?_ rfl rfl rfl rfl rfl rfl

theorem holdPeersDown_kept {s0 s : State} (h : Kept s0 s) : Kept s0 (holdPeersDown s) := by
  unfold holdPeersDown
  repeat'
    first | with_reducible assumption | with_reducible apply dropLink_kept | with_reducible apply setTan_kept |
      with_reducible refine kept_foldl ?_ fun _ _ _ => ?_ | dsimp only |
      with_reducible refine kept_mk ?_ rfl rfl rfl rfl rfl rfl

theorem execLeaseEndHolder_kept {s0 s : State} (h : Kept s0 s) : KeptOut s0 (execLeaseEndHolder s) := by
  unfold execLeaseEndHolder
  repeat'
    first | with_reducible assumption | with_reducible apply holdPeersDown_kept | with_reducible apply dropDrivers_kept |
      with_reducible apply setTan_kept | with_reducible apply kept_ite | with_reducible apply keptOut_ite |
      with_reducible apply keptOut_next | dsimp only | split | with_reducible refine kept_mk ?_ rfl rfl rfl rfl rfl rfl

theorem undeliver_kept {s0 s : State} {a} (h : Kept s0 s) : Kept s0 (undeliver a s) := by
  unfold undeliver
  repeat'
    first | with_reducible assumption | with_reducible apply putWaiting_kept | with_reducible apply dropWaiting_kept |
      with_reducible apply addLate_kept | with_reducible apply kept_ite |
      with_reducible refine kept_foldl ?_ fun _ _ _ => ?_ | dsimp only | split |
      with_reducible refine kept_mk ?_ rfl rfl rfl rfl rfl rfl

theorem handleGap_kept {s0 s : State} {a} (h : Kept s0 s) : Kept s0 (handleGap a s) := by
  unfold handleGap
  repeat'
    first | with_reducible assumption | with_reducible apply undeliver_kept | with_reducible apply takeUncovered_kept |
      with_reducible apply kept_ite | with_reducible refine kept_foldl ?_ fun _ _ _ => ?_ | dsimp only | split |
      with_reducible refine kept_mk ?_ rfl rfl rfl rfl rfl rfl

theorem execSilentTakeover_kept {s0 s : State} (h : Kept s0 s) : KeptOut s0 (execSilentTakeover s) := by
  unfold execSilentTakeover
  repeat'
    first | with_reducible assumption | with_reducible apply takeDrivers_kept | with_reducible apply countTan_kept |
      with_reducible apply setTan_kept | with_reducible apply takenEvent_kept | with_reducible apply handleGap_kept |
      with_reducible apply raise_kept | with_reducible apply kept_ite | with_reducible apply keptOut_ite |
      with_reducible apply keptOut_next | dsimp only | split | with_reducible refine kept_mk ?_ rfl rfl rfl rfl rfl rfl

theorem setBri_kept {s0 s : State} {b} (h : Kept s0 s) : Kept s0 (setBri s b) := by
  unfold setBri
  repeat'
    first | with_reducible assumption | dsimp only | with_reducible refine kept_mk ?_ rfl rfl rfl rfl rfl rfl

theorem bridleStatusSpec_kept : KeptSpec (bridleStatusSpec) := by
  intro s0 s c h
  dsimp only [bridleStatusSpec, plainSpec, doneWith]
  repeat'
    first | with_reducible assumption | dsimp only

theorem execBridleStatus_kept {s0 s : State} {a} (h : Kept s0 s) : KeptOut s0 (execBridleStatus a s) := by
  unfold execBridleStatus
  repeat'
    first | with_reducible assumption | with_reducible apply runCommand_kept | with_reducible exact bridleStatusSpec_kept |
      dsimp only

theorem giveUpVote_kept {s0 s : State} {a b} (h : Kept s0 s) : Kept s0 (giveUpVote a b s) := by
  unfold giveUpVote
  repeat'
    first | with_reducible assumption | with_reducible apply setBri_kept | with_reducible apply postEvent_kept |
      with_reducible apply raise_kept | with_reducible apply setSound_kept | dsimp only |
      with_reducible refine kept_mk ?_ rfl rfl rfl rfl rfl rfl

theorem execBridleVote_kept {s0 s : State} {a b} (h : Kept s0 s) : KeptOut s0 (execBridleVote a b s) := by
  unfold execBridleVote
  repeat'
    first | with_reducible assumption | with_reducible apply giveUpVote_kept | with_reducible apply selfTest_kept |
      with_reducible apply setBri_kept | with_reducible apply kept_ite | with_reducible apply keptOut_ite |
      with_reducible apply keptOut_next | dsimp only | split | with_reducible refine kept_mk ?_ rfl rfl rfl rfl rfl rfl

theorem execBridleCheckpoint_kept {s0 s : State} {a} (h : Kept s0 s) : KeptOut s0 (execBridleCheckpoint a s) := by
  unfold execBridleCheckpoint
  repeat'
    first | with_reducible assumption | with_reducible apply abandonAll_kept | with_reducible apply setSound_kept |
      with_reducible apply setBri_kept | with_reducible apply keptOut_next | dsimp only | split |
      with_reducible refine kept_mk ?_ rfl rfl rfl rfl rfl rfl

theorem execBridleMajorityLoss_kept {s0 s : State} (h : Kept s0 s) : KeptOut s0 (execBridleMajorityLoss s) := by
  unfold execBridleMajorityLoss
  repeat'
    first | with_reducible assumption | with_reducible apply abortInFlight_kept | with_reducible apply failOver_kept |
      with_reducible apply setSound_kept | with_reducible apply setBri_kept | with_reducible apply abandonAll_kept |
      with_reducible apply keptOut_next | dsimp only | split | with_reducible refine kept_mk ?_ rfl rfl rfl rfl rfl rfl

theorem execBridleRestartComplete_kept {s0 s : State} (h : Kept s0 s) : KeptOut s0 (execBridleRestartComplete s) := by
  unfold execBridleRestartComplete
  repeat'
    first | with_reducible assumption | with_reducible apply setBri_kept | with_reducible apply setSound_kept |
      with_reducible apply keptOut_next | dsimp only | split | with_reducible refine kept_mk ?_ rfl rfl rfl rfl rfl rfl

end Sys2Proof.Laws
end

