-- ==== Sys2Proof/Laws/KeptVault.lean ====
section
/-! SUPPORT. What the operations of Machine/Vault.lean keep. -/

namespace Sys2Proof.Laws

open Sys2Proof.Machine Sys2Proof.Safety

set_option linter.unusedTactic false
set_option linter.unreachableTactic false

theorem setSlot_kept {s0 s : State} {a b} (h : Kept s0 s) : Kept s0 (setSlot a b s) := by
  unfold setSlot
  repeat'
    first | with_reducible assumption | dsimp only | with_reducible refine kept_mk ?_ rfl rfl rfl rfl rfl rfl

theorem vaultStatusSpec_kept : KeptSpec (vaultStatusSpec) := by
  intro s0 s c h
  dsimp only [vaultStatusSpec, plainSpec, doneWith]
  repeat'
    first | with_reducible assumption | dsimp only

theorem execVaultStatus_kept {s0 s : State} {a} (h : Kept s0 s) : KeptOut s0 (execVaultStatus a s) := by
  unfold execVaultStatus
  repeat'
    first | with_reducible assumption | with_reducible apply runCommand_kept | with_reducible exact vaultStatusSpec_kept |
      dsimp only

theorem slotGenerateSpec_kept : KeptSpec (slotGenerateSpec) := by
  intro s0 s c h
  dsimp only [slotGenerateSpec, plainSpec, doneWith, ends]
  repeat'
    first | with_reducible assumption | with_reducible apply drawRandom_kept | with_reducible apply setSlot_kept |
      with_reducible apply kept_ite | with_reducible apply kept_ite_answer | dsimp only | split |
      with_reducible refine kept_mk ?_ rfl rfl rfl rfl rfl rfl

theorem execSlotGenerate_kept {s0 s : State} {a} (h : Kept s0 s) : KeptOut s0 (execSlotGenerate a s) := by
  unfold execSlotGenerate
  repeat'
    first | with_reducible assumption | with_reducible apply runCommand_kept | with_reducible exact slotGenerateSpec_kept |
      dsimp only

theorem slotImportSpec_kept : KeptSpec (slotImportSpec) := by
  intro s0 s c h
  dsimp only [slotImportSpec, plainSpec, done, ends]
  repeat'
    first | with_reducible assumption | with_reducible apply drawRandom_kept | with_reducible apply setSlot_kept |
      with_reducible apply kept_ite | with_reducible apply kept_ite_answer |
      with_reducible refine kept_of_snd (by assumption) ?_ | dsimp only | split |
      with_reducible refine kept_mk ?_ rfl rfl rfl rfl rfl rfl

theorem execSlotImport_kept {s0 s : State} {a} (h : Kept s0 s) : KeptOut s0 (execSlotImport a s) := by
  unfold execSlotImport
  repeat'
    first | with_reducible assumption | with_reducible apply runCommand_kept | with_reducible exact slotImportSpec_kept |
      dsimp only

theorem slotRetireSpec_kept : KeptSpec (slotRetireSpec) := by
  intro s0 s c h
  dsimp only [slotRetireSpec, plainSpec, done]
  repeat'
    first | with_reducible assumption | with_reducible apply dropKeys_kept | with_reducible apply setSlot_kept | dsimp only |
      with_reducible refine kept_mk ?_ rfl rfl rfl rfl rfl rfl

theorem execSlotRetire_kept {s0 s : State} {a} (h : Kept s0 s) : KeptOut s0 (execSlotRetire a s) := by
  unfold execSlotRetire
  repeat'
    first | with_reducible assumption | with_reducible apply runCommand_kept | with_reducible exact slotRetireSpec_kept |
      dsimp only

theorem slotInfoSpec_kept : KeptSpec (slotInfoSpec) := by
  intro s0 s c h
  dsimp only [slotInfoSpec, plainSpec, doneWith]
  repeat'
    first | with_reducible assumption | dsimp only

theorem execSlotInfo_kept {s0 s : State} {a} (h : Kept s0 s) : KeptOut s0 (execSlotInfo a s) := by
  unfold execSlotInfo
  repeat'
    first | with_reducible assumption | with_reducible apply runCommand_kept | with_reducible exact slotInfoSpec_kept |
      dsimp only

theorem attestSpec_kept : KeptSpec (attestSpec) := by
  intro s0 s c h
  dsimp only [attestSpec, plainSpec, doneWith, ends]
  repeat'
    first | with_reducible assumption | with_reducible apply drawRandom_kept | with_reducible apply kept_ite |
      with_reducible apply kept_ite_answer | dsimp only | split

theorem execAttest_kept {s0 s : State} {a} (h : Kept s0 s) : KeptOut s0 (execAttest a s) := by
  unfold execAttest
  repeat'
    first | with_reducible assumption | with_reducible apply runCommand_kept | with_reducible exact attestSpec_kept |
      dsimp only

theorem brandCertReadSpec_kept : KeptSpec (brandCertReadSpec) := by
  intro s0 s c h
  dsimp only [brandCertReadSpec, plainSpec, doneWith]
  repeat'
    first | with_reducible assumption | dsimp only

theorem execBrandCertRead_kept {s0 s : State} {a} (h : Kept s0 s) : KeptOut s0 (execBrandCertRead a s) := by
  unfold execBrandCertRead
  repeat'
    first | with_reducible assumption | with_reducible apply runCommand_kept | with_reducible exact brandCertReadSpec_kept |
      dsimp only

theorem zoneNextSetSpec_kept : KeptSpec (zoneNextSetSpec) := by
  intro s0 s c h
  dsimp only [zoneNextSetSpec, plainSpec, done]
  repeat'
    first | with_reducible assumption | with_reducible apply kept_ite | with_reducible apply kept_ite_answer | dsimp only |
      split | with_reducible refine kept_mk ?_ rfl rfl rfl rfl rfl rfl

theorem execZoneNextSet_kept {s0 s : State} {a} (h : Kept s0 s) : KeptOut s0 (execZoneNextSet a s) := by
  unfold execZoneNextSet
  repeat'
    first | with_reducible assumption | with_reducible apply runCommand_kept | with_reducible exact zoneNextSetSpec_kept |
      dsimp only

theorem maskSetSpec_kept : KeptSpec (maskSetSpec) := by
  intro s0 s c h
  dsimp only [maskSetSpec, plainSpec, done]
  repeat'
    first | with_reducible assumption | dsimp only | with_reducible refine kept_mk ?_ rfl rfl rfl rfl rfl rfl

theorem execMaskSet_kept {s0 s : State} {a} (h : Kept s0 s) : KeptOut s0 (execMaskSet a s) := by
  unfold execMaskSet
  repeat'
    first | with_reducible assumption | with_reducible apply runCommand_kept | with_reducible exact maskSetSpec_kept |
      dsimp only

theorem remaskSlot_kept {s0 s : State} {b} (h : Kept s0 s) : Kept s0 (remaskSlot s b) := by
  unfold remaskSlot
  repeat'
    first | with_reducible assumption | with_reducible apply drawRandom_kept | with_reducible apply setSlot_kept |
      dsimp only | with_reducible refine kept_mk ?_ rfl rfl rfl rfl rfl rfl

theorem execVaultRemask_kept {s0 s : State} (h : Kept s0 s) : KeptOut s0 (execVaultRemask s) := by
  unfold execVaultRemask
  repeat'
    first | with_reducible assumption | with_reducible apply remaskSlot_kept | with_reducible apply ranNow_kept |
      with_reducible refine kept_foldl ?_ fun _ _ _ => ?_ | with_reducible apply keptOut_next | dsimp only | split

/-- TAMPER_COUNT saturates (R433). -/
theorem clearVault_kept {s0 s : State} (h : Kept s0 s) : Kept s0 (clearVault s) := by
  unfold clearVault
  exact kept_mk (kept_vault (v := { s.vault with count := saturate 32 (s.vault.count + 1) }) h
    fun _ => Nat.min_le_right _ _) rfl rfl rfl rfl rfl rfl

theorem endVaultCommands_kept {s0 s : State} (h : Kept s0 s) : Kept s0 (endVaultCommands s) := by
  unfold endVaultCommands
  repeat'
    first | with_reducible assumption | with_reducible apply completeAll_kept | dsimp only |
      with_reducible refine kept_mk ?_ rfl rfl rfl rfl rfl rfl

theorem retireVault_kept {s0 s : State} (h : Kept s0 s) : Kept s0 (retireVault s) := by
  unfold retireVault
  repeat'
    first | with_reducible assumption | with_reducible apply setSound_kept | with_reducible apply setSoundness_kept |
      with_reducible apply failOver_kept | with_reducible apply kept_ite | dsimp only | split |
      with_reducible refine kept_mk ?_ rfl rfl rfl rfl rfl rfl

theorem postZeroised_kept {s0 s : State} {a} (h : Kept s0 s) : Kept s0 (postZeroised a s) := by
  unfold postZeroised
  repeat'
    first | with_reducible assumption | with_reducible apply drawWord_kept | with_reducible apply postEvent_kept | dsimp only

theorem zeroiseBy_kept {s0 s : State} {a} (h : Kept s0 s) : Kept s0 (zeroiseBy a s) := by
  unfold zeroiseBy
  repeat'
    first | with_reducible assumption | with_reducible apply clearVault_kept | with_reducible apply endVaultCommands_kept |
      with_reducible apply retireVault_kept | with_reducible apply postZeroised_kept | with_reducible apply raise_kept |
      with_reducible apply kept_ite | dsimp only | split | with_reducible refine kept_mk ?_ rfl rfl rfl rfl rfl rfl

theorem reportTamper_kept {s0 s : State} {a} (h : Kept s0 s) : Kept s0 (reportTamper a s) := by
  unfold reportTamper
  repeat'
    first | with_reducible assumption | with_reducible apply postEvent_kept | with_reducible apply raise_kept |
      with_reducible apply kept_ite | dsimp only | split | with_reducible refine kept_mk ?_ rfl rfl rfl rfl rfl rfl

theorem execTamperTrip_kept {s0 s : State} {a} (h : Kept s0 s) : KeptOut s0 (execTamperTrip a s) := by
  unfold execTamperTrip
  repeat'
    first | with_reducible assumption | with_reducible apply zeroiseBy_kept | with_reducible apply reportTamper_kept |
      with_reducible apply kept_ite | with_reducible apply keptOut_ite | with_reducible apply keptOut_next | dsimp only |
      split | with_reducible refine kept_mk ?_ rfl rfl rfl rfl rfl rfl

theorem execTamperSensorInRange_kept {s0 s : State} {a} (h : Kept s0 s) : KeptOut s0 (execTamperSensorInRange a s) := by
  unfold execTamperSensorInRange
  repeat'
    first | with_reducible assumption | with_reducible apply keptOut_next | dsimp only |
      with_reducible refine kept_mk ?_ rfl rfl rfl rfl rfl rfl

theorem tamperSetSpec_kept : KeptSpec (tamperSetSpec) := by
  intro s0 s c h
  dsimp only [tamperSetSpec, plainSpec, done]
  repeat'
    first | with_reducible assumption | dsimp only | with_reducible refine kept_mk ?_ rfl rfl rfl rfl rfl rfl

theorem execTamperSet_kept {s0 s : State} {a} (h : Kept s0 s) : KeptOut s0 (execTamperSet a s) := by
  unfold execTamperSet
  repeat'
    first | with_reducible assumption | with_reducible apply runCommand_kept | with_reducible exact tamperSetSpec_kept |
      dsimp only

theorem tamperStatusSpec_kept : KeptSpec (tamperStatusSpec) := by
  intro s0 s c h
  dsimp only [tamperStatusSpec, plainSpec, doneWith]
  repeat'
    first | with_reducible assumption | dsimp only

theorem execTamperStatus_kept {s0 s : State} {a} (h : Kept s0 s) : KeptOut s0 (execTamperStatus a s) := by
  unfold execTamperStatus
  repeat'
    first | with_reducible assumption | with_reducible apply runCommand_kept | with_reducible exact tamperStatusSpec_kept |
      dsimp only

theorem tamperClearSpec_kept : KeptSpec (tamperClearSpec) := by
  intro s0 s c h
  dsimp only [tamperClearSpec, plainSpec, done]
  repeat'
    first | with_reducible assumption | dsimp only | with_reducible refine kept_mk ?_ rfl rfl rfl rfl rfl rfl

theorem execTamperClear_kept {s0 s : State} {a} (h : Kept s0 s) : KeptOut s0 (execTamperClear a s) := by
  unfold execTamperClear
  repeat'
    first | with_reducible assumption | with_reducible apply runCommand_kept | with_reducible exact tamperClearSpec_kept |
      dsimp only

theorem vaultZeroiseSpec_kept : KeptSpec (vaultZeroiseSpec) := by
  intro s0 s c h
  dsimp only [vaultZeroiseSpec, plainSpec, done]
  repeat'
    first | with_reducible assumption | with_reducible apply retireVault_kept | with_reducible apply postZeroised_kept |
      with_reducible apply clearVault_kept | with_reducible apply endVaultCommands_kept | dsimp only

theorem execVaultZeroise_kept {s0 s : State} {a} (h : Kept s0 s) : KeptOut s0 (execVaultZeroise a s) := by
  unfold execVaultZeroise
  repeat'
    first | with_reducible assumption | with_reducible apply runCommand_kept | with_reducible exact vaultZeroiseSpec_kept |
      dsimp only

end Sys2Proof.Laws
end

