-- ==== Sys2Proof/Laws/KeptFirmware.lean ====
section
/-! SUPPORT. What the operations of Machine/Firmware.lean keep. -/

namespace Sys2Proof.Laws

open Sys2Proof.Machine Sys2Proof.Safety

set_option linter.unusedTactic false
set_option linter.unreachableTactic false

theorem flashWrite_kept {s0 s : State} {a b} (h : Kept s0 s) : Kept s0 (flashWrite a b s) := by
  unfold flashWrite
  exact kept_mem h id (memSetAll_wf _ _ _ _)

theorem journal_kept {s0 s : State} {a b} (h : Kept s0 s) : Kept s0 (journal a b s) := by
  unfold journal
  repeat'
    first | with_reducible assumption | with_reducible apply setFw_kept | dsimp only |
      with_reducible refine kept_mk ?_ rfl rfl rfl rfl rfl rfl

theorem journalErased_kept {s0 s : State} {a b} (h : Kept s0 s) : Kept s0 (journalErased a b s) := by
  unfold journalErased
  repeat'
    first | with_reducible assumption | with_reducible apply journal_kept | with_reducible apply kept_ite |
      with_reducible refine kept_foldl ?_ fun _ _ _ => ?_ | dsimp only | split

theorem setFwSlot_kept {s0 s : State} {a b} (h : Kept s0 s) : Kept s0 (setFwSlot a b s) := by
  unfold setFwSlot
  repeat'
    first | with_reducible assumption | with_reducible apply setFw_kept | dsimp only |
      with_reducible refine kept_mk ?_ rfl rfl rfl rfl rfl rfl

theorem completeOp_kept {s0 s : State} {a b c} (h : Kept s0 s) : Kept s0 (completeOp a b c s) := by
  unfold completeOp
  repeat'
    first | with_reducible assumption | with_reducible apply complete_kept | dsimp only | split

theorem startOp_kept {s0 s : State} {a} (h : Kept s0 s) : Kept s0 (startOp a s) := by
  unfold startOp
  repeat'
    first | with_reducible assumption | with_reducible apply journal_kept | with_reducible apply setFw_kept |
      with_reducible apply setFwSlot_kept | dsimp only | split | with_reducible refine kept_mk ?_ rfl rfl rfl rfl rfl rfl

theorem startHead_kept {s0 s : State} {a} (h : Kept s0 s) : Kept s0 (startHead a s) := by
  induction a generalizing s with
  | zero => exact h
  | succ n ih =>
    unfold startHead
    split
    · exact h
    · refine kept_ite h ?_
      split
      · exact ih (completeOp_kept (setFw_kept h))
      · exact setFw_kept (startOp_kept h)

theorem addOp_kept {s0 s : State} {a} (h : Kept s0 s) : Kept s0 (addOp a s) := by
  unfold addOp
  repeat'
    first | with_reducible assumption | with_reducible apply setFw_kept | with_reducible apply startHead_kept | dsimp only |
      with_reducible refine kept_mk ?_ rfl rfl rfl rfl rfl rfl

theorem readServed_kept {s0 s : State} (h : Kept s0 s) : Kept s0 (readServed s) := by
  unfold readServed
  repeat'
    first | with_reducible assumption | with_reducible apply journal_kept | with_reducible apply kept_ite | dsimp only |
      split

theorem serveReads_kept {s0 s : State} (h : Kept s0 s) : Kept s0 (serveReads s) := by
  unfold serveReads
  repeat'
    first | with_reducible assumption | with_reducible apply setFw_kept | with_reducible apply complete_kept |
      with_reducible refine kept_foldl ?_ fun _ _ _ => ?_ | dsimp only |
      with_reducible refine kept_mk ?_ rfl rfl rfl rfl rfl rfl

theorem flashReadSpec_kept : KeptSpec (flashReadSpec) := by
  intro s0 s c h
  dsimp only [flashReadSpec, plainSpec, ends, runsOn, doneWith]
  repeat'
    first | with_reducible assumption | with_reducible apply setFw_kept | with_reducible apply readServed_kept |
      with_reducible apply kept_ite | with_reducible apply kept_ite_answer | dsimp only | split |
      with_reducible refine kept_mk ?_ rfl rfl rfl rfl rfl rfl

theorem execFlashRead_kept {s0 s : State} {a} (h : Kept s0 s) : KeptOut s0 (execFlashRead a s) := by
  unfold execFlashRead
  repeat'
    first | with_reducible assumption | with_reducible apply runCommand_kept | with_reducible exact flashReadSpec_kept |
      dsimp only

theorem flashProgramSpec_kept : KeptSpec (flashProgramSpec) := by
  intro s0 s c h
  dsimp only [flashProgramSpec, plainSpec, ends, runsOn]
  repeat'
    first | with_reducible assumption | with_reducible apply addOp_kept | with_reducible apply kept_ite |
      with_reducible apply kept_ite_answer | dsimp only | split | with_reducible refine kept_mk ?_ rfl rfl rfl rfl rfl rfl

theorem execFlashProgram_kept {s0 s : State} {a} (h : Kept s0 s) : KeptOut s0 (execFlashProgram a s) := by
  unfold execFlashProgram
  repeat'
    first | with_reducible assumption | with_reducible apply runCommand_kept | with_reducible exact flashProgramSpec_kept |
      dsimp only

theorem flashEraseSpec_kept : KeptSpec (flashEraseSpec) := by
  intro s0 s c h
  dsimp only [flashEraseSpec, plainSpec, runsOn]
  repeat'
    first | with_reducible assumption | with_reducible apply addOp_kept | dsimp only |
      with_reducible refine kept_mk ?_ rfl rfl rfl rfl rfl rfl

theorem execFlashErase_kept {s0 s : State} {a} (h : Kept s0 s) : KeptOut s0 (execFlashErase a s) := by
  unfold execFlashErase
  repeat'
    first | with_reducible assumption | with_reducible apply runCommand_kept | with_reducible exact flashEraseSpec_kept |
      dsimp only

theorem flashStatusSpec_kept : KeptSpec (flashStatusSpec) := by
  intro s0 s c h
  dsimp only [flashStatusSpec, plainSpec, doneWith]
  repeat'
    first | with_reducible assumption | dsimp only

theorem execFlashStatus_kept {s0 s : State} {a} (h : Kept s0 s) : KeptOut s0 (execFlashStatus a s) := by
  unfold execFlashStatus
  repeat'
    first | with_reducible assumption | with_reducible apply runCommand_kept | with_reducible exact flashStatusSpec_kept |
      dsimp only

theorem fwBeginSpec_kept : KeptSpec (fwBeginSpec) := by
  intro s0 s c h
  dsimp only [fwBeginSpec, plainSpec, runsOn, ends]
  repeat'
    first | with_reducible assumption | with_reducible apply addOp_kept | with_reducible apply kept_ite |
      with_reducible apply kept_ite_answer | dsimp only | split | with_reducible refine kept_mk ?_ rfl rfl rfl rfl rfl rfl

theorem execFwBegin_kept {s0 s : State} {a} (h : Kept s0 s) : KeptOut s0 (execFwBegin a s) := by
  unfold execFwBegin
  repeat'
    first | with_reducible assumption | with_reducible apply runCommand_kept | with_reducible exact fwBeginSpec_kept |
      dsimp only

theorem endLoad_kept {s0 s : State} {a} (h : Kept s0 s) : Kept s0 (endLoad a s) := by
  unfold endLoad
  repeat'
    first | with_reducible assumption | with_reducible apply setFwSlot_kept | dsimp only |
      with_reducible refine kept_mk ?_ rfl rfl rfl rfl rfl rfl

theorem fwBlockWriteSpec_kept : KeptSpec (fwBlockWriteSpec) := by
  intro s0 s c h
  dsimp only [fwBlockWriteSpec, plainSpec, doneWith, ends, runsOn]
  repeat'
    first | with_reducible assumption | with_reducible apply endLoad_kept | with_reducible apply addOp_kept |
      with_reducible apply kept_ite | with_reducible apply kept_ite_answer | dsimp only | split |
      with_reducible refine kept_mk ?_ rfl rfl rfl rfl rfl rfl

theorem execFwBlockWrite_kept {s0 s : State} {a} (h : Kept s0 s) : KeptOut s0 (execFwBlockWrite a s) := by
  unfold execFwBlockWrite
  repeat'
    first | with_reducible assumption | with_reducible apply runCommand_kept | with_reducible exact fwBlockWriteSpec_kept |
      dsimp only

theorem fwStatusSpec_kept : KeptSpec (fwStatusSpec) := by
  intro s0 s c h
  dsimp only [fwStatusSpec, plainSpec, doneWith]
  repeat'
    first | with_reducible assumption | dsimp only

theorem execFwStatus_kept {s0 s : State} {a} (h : Kept s0 s) : KeptOut s0 (execFwStatus a s) := by
  unfold execFwStatus
  repeat'
    first | with_reducible assumption | with_reducible apply runCommand_kept | with_reducible exact fwStatusSpec_kept |
      dsimp only

theorem fwChainSetSpec_kept : KeptSpec (fwChainSetSpec) := by
  intro s0 s c h
  dsimp only [fwChainSetSpec, plainSpec, done]
  repeat'
    first | with_reducible assumption | with_reducible apply setFw_kept | dsimp only |
      with_reducible refine kept_mk ?_ rfl rfl rfl rfl rfl rfl

theorem execFwChainSet_kept {s0 s : State} {a} (h : Kept s0 s) : KeptOut s0 (execFwChainSet a s) := by
  unfold execFwChainSet
  repeat'
    first | with_reducible assumption | with_reducible apply runCommand_kept | with_reducible exact fwChainSetSpec_kept |
      dsimp only

theorem fwChainResumeSpec_kept : KeptSpec (fwChainResumeSpec) := by
  intro s0 s c h
  dsimp only [fwChainResumeSpec, plainSpec, runsOn, ends]
  repeat'
    first | with_reducible assumption | with_reducible apply setFw_kept | with_reducible apply passBlock_kept |
      with_reducible apply kept_ite | with_reducible apply kept_ite_answer | dsimp only | split |
      with_reducible refine kept_mk ?_ rfl rfl rfl rfl rfl rfl

theorem execFwChainResume_kept {s0 s : State} {a} (h : Kept s0 s) : KeptOut s0 (execFwChainResume a s) := by
  unfold execFwChainResume
  repeat'
    first | with_reducible assumption | with_reducible apply runCommand_kept | with_reducible exact fwChainResumeSpec_kept |
      dsimp only

theorem answerResume_kept {s0 s : State} {a} (h : Kept s0 s) : Kept s0 (answerResume a s) := by
  unfold answerResume
  repeat'
    first | with_reducible assumption | with_reducible apply complete_kept | with_reducible apply setFw_kept | dsimp only |
      split | with_reducible refine kept_mk ?_ rfl rfl rfl rfl rfl rfl

theorem takeChainAck_kept {s0 s : State} {a} (h : Kept s0 s) : Kept s0 (takeChainAck a s) := by
  unfold takeChainAck
  repeat'
    first | with_reducible assumption | with_reducible apply answerResume_kept | with_reducible apply setFw_kept |
      with_reducible apply passBlock_kept | with_reducible apply kept_ite | dsimp only | split |
      with_reducible refine kept_mk ?_ rfl rfl rfl rfl rfl rfl

theorem execFwChainAck_kept {s0 s : State} {a b c} (h : Kept s0 s) : KeptOut s0 (execFwChainAck a b c s) := by
  unfold execFwChainAck
  repeat'
    first | with_reducible assumption | with_reducible apply mirrorHerd_kept | with_reducible apply takeChainAck_kept |
      with_reducible apply keptOut_next | dsimp only | split

theorem execFwChainAckTimeout_kept {s0 s : State} (h : Kept s0 s) : KeptOut s0 (execFwChainAckTimeout s) := by
  unfold execFwChainAckTimeout
  repeat'
    first | with_reducible assumption | with_reducible apply sendBlock_kept | with_reducible apply breakChain_kept |
      with_reducible apply keptOut_next | dsimp only | split

theorem ackBlocks_kept {s0 s : State} {a} (h : Kept s0 s) : Kept s0 (ackBlocks a s) := by
  unfold ackBlocks
  repeat'
    first | with_reducible assumption | with_reducible apply originate_kept | dsimp only

theorem beginChainImage_kept {s0 s : State} {a} (h : Kept s0 s) : Kept s0 (beginChainImage a s) := by
  unfold beginChainImage
  repeat'
    first | with_reducible assumption | with_reducible apply setFw_kept | with_reducible apply addOp_kept | dsimp only |
      split | with_reducible refine kept_mk ?_ rfl rfl rfl rfl rfl rfl

theorem takeChainBlock_kept {s0 s : State} {a} (h : Kept s0 s) : Kept s0 (takeChainBlock a s) := by
  unfold takeChainBlock
  repeat'
    first | with_reducible assumption | with_reducible apply ackBlocks_kept | with_reducible apply setFw_kept |
      with_reducible apply beginChainImage_kept | with_reducible apply addOp_kept | with_reducible apply kept_ite |
      dsimp only | split | with_reducible refine kept_mk ?_ rfl rfl rfl rfl rfl rfl

theorem execFwChainBlock_kept {s0 s : State} {a} (h : Kept s0 s) : KeptOut s0 (execFwChainBlock a s) := by
  unfold execFwChainBlock
  repeat'
    first | with_reducible assumption | with_reducible apply mirrorHerd_kept | with_reducible apply takeChainBlock_kept |
      with_reducible apply keptOut_next | dsimp only | split

theorem fwPolicySetSpec_kept : KeptSpec (fwPolicySetSpec) := by
  intro s0 s c h
  dsimp only [fwPolicySetSpec, plainSpec, done]
  repeat'
    first | with_reducible assumption | with_reducible apply setFw_kept | dsimp only |
      with_reducible refine kept_mk ?_ rfl rfl rfl rfl rfl rfl

theorem execFwPolicySet_kept {s0 s : State} {a} (h : Kept s0 s) : KeptOut s0 (execFwPolicySet a s) := by
  unfold execFwPolicySet
  repeat'
    first | with_reducible assumption | with_reducible apply runCommand_kept | with_reducible exact fwPolicySetSpec_kept |
      dsimp only

theorem tackSaveSpec_kept : KeptSpec (tackSaveSpec) := by
  intro s0 s c h
  dsimp only [tackSaveSpec, plainSpec, runsOn]
  repeat'
    first | with_reducible assumption | with_reducible apply addOp_kept | dsimp only |
      with_reducible refine kept_mk ?_ rfl rfl rfl rfl rfl rfl

theorem execTackSave_kept {s0 s : State} {a} (h : Kept s0 s) : KeptOut s0 (execTackSave a s) := by
  unfold execTackSave
  repeat'
    first | with_reducible assumption | with_reducible apply runCommand_kept | with_reducible exact tackSaveSpec_kept |
      dsimp only

theorem swapTacks_kept {s0 s : State} (h : Kept s0 s) : Kept s0 (swapTacks s) := by
  unfold swapTacks
  repeat'
    first | with_reducible assumption | with_reducible apply setFw_kept | dsimp only |
      with_reducible refine kept_mk ?_ rfl rfl rfl rfl rfl rfl

theorem tackRevertSpec_kept : KeptSpec (tackRevertSpec) := by
  intro s0 s c h
  dsimp only [tackRevertSpec, plainSpec, doneWith]
  repeat'
    first | with_reducible assumption | with_reducible apply swapTacks_kept | with_reducible apply abortInFlight_kept |
      with_reducible apply kept_ite | with_reducible apply kept_ite_answer | dsimp only | split |
      with_reducible refine kept_mk ?_ rfl rfl rfl rfl rfl rfl

theorem execTackRevert_kept {s0 s : State} {a} (h : Kept s0 s) : KeptOut s0 (execTackRevert a s) := by
  unfold execTackRevert
  repeat'
    first | with_reducible assumption | with_reducible apply runCommand_kept | with_reducible exact tackRevertSpec_kept |
      dsimp only

theorem tackWords_kept {s0 s : State} {a} (h : Kept s0 s) : Kept s0 (tackWords a s).2 := by
  unfold tackWords
  repeat'
    first | with_reducible assumption | with_reducible apply drawWord_kept |
      with_reducible refine kept_of_snd (by assumption) ?_ | dsimp only | split

theorem tackStatusSpec_kept : KeptSpec (tackStatusSpec) := by
  intro s0 s c h
  dsimp only [tackStatusSpec, plainSpec, doneWith]
  repeat'
    first | with_reducible assumption | with_reducible apply tackWords_kept | dsimp only

theorem execTackStatus_kept {s0 s : State} {a} (h : Kept s0 s) : KeptOut s0 (execTackStatus a s) := by
  unfold execTackStatus
  repeat'
    first | with_reducible assumption | with_reducible apply runCommand_kept | with_reducible exact tackStatusSpec_kept |
      dsimp only

theorem tackLockSpec_kept : KeptSpec (tackLockSpec) := by
  intro s0 s c h
  dsimp only [tackLockSpec, plainSpec, done]
  repeat'
    first | with_reducible assumption | with_reducible apply setFw_kept | dsimp only |
      with_reducible refine kept_mk ?_ rfl rfl rfl rfl rfl rfl

theorem execTackLock_kept {s0 s : State} {a} (h : Kept s0 s) : KeptOut s0 (execTackLock a s) := by
  unfold execTackLock
  repeat'
    first | with_reducible assumption | with_reducible apply runCommand_kept | with_reducible exact tackLockSpec_kept |
      dsimp only

theorem retryWaiting_kept {s0 s : State} (h : Kept s0 s) : Kept s0 (retryWaiting s) := by
  unfold retryWaiting
  repeat'
    first | with_reducible assumption | with_reducible apply dropTaken_kept | with_reducible apply endForeign_kept |
      with_reducible apply completeAll_kept | dsimp only

theorem beginActivation_kept {s0 s : State} {a b c} (h : Kept s0 s) : Kept s0 (beginActivation a b c s) := by
  unfold beginActivation
  repeat'
    first | with_reducible assumption | with_reducible apply retryWaiting_kept | with_reducible apply setFw_kept |
      dsimp only | with_reducible refine kept_mk ?_ rfl rfl rfl rfl rfl rfl

theorem fwActivateSpec_kept : KeptSpec (fwActivateSpec) := by
  intro s0 s c h
  dsimp only [fwActivateSpec, plainSpec, runsOn]
  repeat'
    first | with_reducible assumption | with_reducible apply beginActivation_kept | with_reducible apply setTan_kept |
      with_reducible apply setFw_kept | with_reducible apply kept_ite | with_reducible apply kept_ite_answer | dsimp only |
      split | with_reducible refine kept_mk ?_ rfl rfl rfl rfl rfl rfl

theorem execFwActivate_kept {s0 s : State} {a} (h : Kept s0 s) : KeptOut s0 (execFwActivate a s) := by
  unfold execFwActivate
  repeat'
    first | with_reducible assumption | with_reducible apply runCommand_kept | with_reducible exact fwActivateSpec_kept |
      dsimp only

theorem execActivationPauseEnd_kept {s0 s : State} (h : Kept s0 s) : KeptOut s0 (execActivationPauseEnd s) := by
  unfold execActivationPauseEnd
  repeat'
    first | with_reducible assumption | with_reducible apply abandonAll_kept | with_reducible apply setTan_kept |
      with_reducible apply kept_ite | with_reducible apply keptOut_ite | with_reducible apply keptOut_next | dsimp only |
      split | with_reducible refine kept_mk ?_ rfl rfl rfl rfl rfl rfl

theorem execActivationTimeout_kept {s0 s : State} (h : Kept s0 s) : KeptOut s0 (execActivationTimeout s) := by
  unfold execActivationTimeout
  repeat'
    first | with_reducible assumption | with_reducible apply complete_kept | with_reducible apply setTan_kept |
      with_reducible apply setFw_kept | with_reducible apply kept_ite | with_reducible apply keptOut_ite |
      with_reducible apply keptOut_next | dsimp only | split | with_reducible refine kept_mk ?_ rfl rfl rfl rfl rfl rfl

theorem endPause_kept {s0 s : State} (h : Kept s0 s) : Kept s0 (endPause s) := by
  unfold endPause
  repeat'
    first | with_reducible assumption | with_reducible apply setSound_kept | dsimp only |
      with_reducible refine kept_mk ?_ rfl rfl rfl rfl rfl rfl

theorem firmwareRuns_kept {s0 s : State} {a} (h : Kept s0 s) : Kept s0 (firmwareRuns a s) := by
  unfold firmwareRuns
  repeat'
    first | with_reducible assumption | with_reducible apply setFw_kept | with_reducible apply endPause_kept |
      with_reducible apply addOp_kept | with_reducible apply beginResync_kept | with_reducible apply kept_ite | dsimp only |
      split | with_reducible refine kept_mk ?_ rfl rfl rfl rfl rfl rfl

theorem firmwareFails_kept {s0 s : State} {a b} (h : Kept s0 s) : Kept s0 (firmwareFails a b s) := by
  unfold firmwareFails
  repeat'
    first | with_reducible assumption | with_reducible apply setFwSlot_kept | with_reducible apply endPause_kept |
      with_reducible apply abandonAll_kept | with_reducible apply raise_kept | with_reducible apply setTan_kept |
      with_reducible apply setFw_kept | with_reducible apply complete_kept | with_reducible apply beginResync_kept |
      with_reducible apply kept_ite | dsimp only | split | with_reducible refine kept_mk ?_ rfl rfl rfl rfl rfl rfl

theorem partnerFails_kept {s0 s : State} (h : Kept s0 s) : Kept s0 (partnerFails s) := by
  unfold partnerFails
  repeat'
    first | with_reducible assumption | with_reducible apply setTan_kept | with_reducible apply setFw_kept |
      with_reducible apply complete_kept | with_reducible apply raise_kept | dsimp only | split |
      with_reducible refine kept_mk ?_ rfl rfl rfl rfl rfl rfl

theorem execActivationFirmwareUp_kept {s0 s : State} {a} (h : Kept s0 s) : KeptOut s0 (execActivationFirmwareUp a s) := by
  unfold execActivationFirmwareUp
  repeat'
    first | with_reducible assumption | with_reducible apply firmwareRuns_kept | with_reducible apply firmwareFails_kept |
      with_reducible apply partnerFails_kept | with_reducible apply kept_ite | with_reducible apply keptOut_ite |
      with_reducible apply keptOut_next | dsimp only | split

theorem activationDone_kept {s0 s : State} {a} (h : Kept s0 s) : Kept s0 (activationDone a s) := by
  unfold activationDone
  repeat'
    first | with_reducible assumption | with_reducible apply postEvent_kept | with_reducible apply setFw_kept |
      with_reducible apply setTan_kept | with_reducible apply complete_kept | with_reducible apply kept_ite | dsimp only |
      split | with_reducible refine kept_mk ?_ rfl rfl rfl rfl rfl rfl

theorem tackSaved_kept {s0 s : State} {a b} (h : Kept s0 s) : Kept s0 (tackSaved a b s) := by
  unfold tackSaved
  repeat'
    first | with_reducible assumption | with_reducible apply setFw_kept | with_reducible apply activationDone_kept |
      with_reducible apply completeOp_kept | with_reducible apply kept_ite | dsimp only | split |
      with_reducible refine kept_mk ?_ rfl rfl rfl rfl rfl rfl

theorem blockHeld_kept {s0 s : State} {a b c d} (h : Kept s0 s) : Kept s0 (blockHeld a b c d s) := by
  unfold blockHeld
  repeat'
    first | with_reducible assumption | with_reducible apply setFwSlot_kept | with_reducible apply passBlock_kept |
      with_reducible apply ackBlocks_kept | with_reducible apply completeOp_kept | with_reducible apply changeMode_kept |
      with_reducible apply kept_ite | dsimp only | split

theorem opDone_kept {s0 s : State} {a} (h : Kept s0 s) : Kept s0 (opDone a s) := by
  unfold opDone
  repeat'
    first | with_reducible assumption | with_reducible apply completeOp_kept | with_reducible apply flashWrite_kept |
      with_reducible apply tackSaved_kept | with_reducible apply setFwSlot_kept | with_reducible apply setFw_kept |
      with_reducible apply blockHeld_kept | with_reducible apply kept_ite | dsimp only | split |
      with_reducible refine kept_mk ?_ rfl rfl rfl rfl rfl rfl

theorem scramble_kept {s0 s : State} {a b} (h : Kept s0 s) : Kept s0 (scramble a b s) := by
  unfold scramble
  repeat'
    first | with_reducible assumption | with_reducible apply flashWrite_kept | dsimp only |
      with_reducible refine kept_mk ?_ rfl rfl rfl rfl rfl rfl

theorem opFailed_kept {s0 s : State} {a} (h : Kept s0 s) : Kept s0 (opFailed a s) := by
  unfold opFailed
  repeat'
    first | with_reducible assumption | with_reducible apply completeOp_kept | with_reducible apply scramble_kept |
      with_reducible apply complete_kept | with_reducible apply setTan_kept | with_reducible apply setFw_kept |
      with_reducible apply endLoad_kept | dsimp only | split | with_reducible refine kept_mk ?_ rfl rfl rfl rfl rfl rfl

theorem execFlashOperationComplete_kept {s0 s : State} {a} (h : Kept s0 s) : KeptOut s0 (execFlashOperationComplete a s) :=
      by
  unfold execFlashOperationComplete
  repeat'
    first | with_reducible assumption | with_reducible apply journalErased_kept | with_reducible apply setFw_kept |
      with_reducible apply serveReads_kept | with_reducible apply opDone_kept | with_reducible apply opFailed_kept |
      with_reducible apply startHead_kept | with_reducible apply kept_ite | with_reducible apply keptOut_ite |
      with_reducible apply keptOut_next | dsimp only | split | with_reducible refine kept_mk ?_ rfl rfl rfl rfl rfl rfl

theorem execFlashSectorReerase_kept {s0 s : State} {a} (h : Kept s0 s) : KeptOut s0 (execFlashSectorReerase a s) := by
  unfold execFlashSectorReerase
  repeat'
    first | with_reducible assumption | with_reducible apply journal_kept | with_reducible apply setFw_kept |
      with_reducible apply flashWrite_kept | with_reducible apply kept_ite | with_reducible apply keptOut_ite |
      with_reducible apply keptOut_next | dsimp only | split | with_reducible refine kept_mk ?_ rfl rfl rfl rfl rfl rfl

end Sys2Proof.Laws
end

