-- ==== Sys2Proof/Laws/KeptModes.lean ====
section
/-! SUPPORT. What the operations of Machine/Modes.lean keep. -/

namespace Sys2Proof.Laws

open Sys2Proof.Machine Sys2Proof.Safety

set_option linter.unusedTactic false
set_option linter.unreachableTactic false

theorem setPdom_kept {s0 s : State} {a b} (h : Kept s0 s) : Kept s0 (setPdom a b s) := by
  unfold setPdom
  repeat'
    first | with_reducible assumption | dsimp only | with_reducible refine kept_mk ?_ rfl rfl rfl rfl rfl rfl

theorem setPwr_kept {s0 s : State} {b} (h : Kept s0 s) : Kept s0 (setPwr s b) := by
  unfold setPwr
  repeat'
    first | with_reducible assumption | dsimp only | with_reducible refine kept_mk ?_ rfl rfl rfl rfl rfl rfl

theorem countPwr_kept {s0 s : State} {a} (h : Kept s0 s) : Kept s0 (countPwr a s) := by
  unfold countPwr
  repeat'
    first | with_reducible assumption | with_reducible apply setPwr_kept | dsimp only |
      with_reducible refine kept_mk ?_ rfl rfl rfl rfl rfl rfl

theorem noteVote_kept {s0 s : State} {a} (h : Kept s0 s) : Kept s0 (noteVote a s) := by
  unfold noteVote
  repeat'
    first | with_reducible assumption | with_reducible apply setPdom_kept | with_reducible apply kept_ite | dsimp only |
      split | with_reducible refine kept_mk ?_ rfl rfl rfl rfl rfl rfl

theorem noteVotes_kept {s0 s : State} (h : Kept s0 s) : Kept s0 (noteVotes s) := by
  unfold noteVotes
  repeat'
    first | with_reducible assumption | with_reducible apply noteVote_kept |
      with_reducible refine kept_foldl ?_ fun _ _ _ => ?_ | dsimp only

theorem setVote_kept {s0 s : State} {a b} (h : Kept s0 s) : Kept s0 (setVote a b s) := by
  unfold setVote
  repeat'
    first | with_reducible assumption | with_reducible apply setPdom_kept | dsimp only |
      with_reducible refine kept_mk ?_ rfl rfl rfl rfl rfl rfl

theorem setPolicy_kept {s0 s : State} {a b} (h : Kept s0 s) : Kept s0 (setPolicy a b s) := by
  unfold setPolicy
  repeat'
    first | with_reducible assumption | with_reducible apply setPdom_kept | dsimp only |
      with_reducible refine kept_mk ?_ rfl rfl rfl rfl rfl rfl

theorem writeVote_kept {s0 s : State} {a b} (h : Kept s0 s) : Kept s0 (writeVote a b s) := by
  unfold writeVote
  repeat'
    first | with_reducible assumption | with_reducible apply setVote_kept | with_reducible apply mirrorOut_kept |
      with_reducible apply kept_ite | dsimp only | split

theorem writePolicy_kept {s0 s : State} {a b} (h : Kept s0 s) : Kept s0 (writePolicy a b s) := by
  unfold writePolicy
  repeat'
    first | with_reducible assumption | with_reducible apply setPolicy_kept | with_reducible apply mirrorOut_kept |
      with_reducible apply kept_ite | dsimp only | split

theorem execPdVoteWrite_kept {s0 s : State} {a b} (h : Kept s0 s) : KeptOut s0 (execPdVoteWrite a b s) := by
  unfold execPdVoteWrite
  repeat'
    first | with_reducible assumption | with_reducible apply writeVote_kept | with_reducible apply keptOut_next | dsimp only

theorem domainFailed_kept {s0 s : State} {a b} (h : Kept s0 s) : Kept s0 (domainFailed a b s) := by
  unfold domainFailed
  repeat'
    first | with_reducible assumption | with_reducible apply countPwr_kept | with_reducible apply setPdom_kept |
      with_reducible apply postEvent_kept | with_reducible apply raise_kept | dsimp only |
      with_reducible refine kept_mk ?_ rfl rfl rfl rfl rfl rfl

theorem execDomainIdleGate_kept {s0 s : State} {a b} (h : Kept s0 s) : KeptOut s0 (execDomainIdleGate a b s) := by
  unfold execDomainIdleGate
  repeat'
    first | with_reducible assumption | with_reducible apply setPdom_kept | with_reducible apply domainFailed_kept |
      with_reducible apply kept_ite | with_reducible apply keptOut_ite | with_reducible apply keptOut_next | dsimp only |
      split | with_reducible refine kept_mk ?_ rfl rfl rfl rfl rfl rfl

theorem execDomainUngate_kept {s0 s : State} {a b} (h : Kept s0 s) : KeptOut s0 (execDomainUngate a b s) := by
  unfold execDomainUngate
  repeat'
    first | with_reducible assumption | with_reducible apply setPdom_kept | with_reducible apply domainFailed_kept |
      with_reducible apply kept_ite | with_reducible apply keptOut_ite | with_reducible apply keptOut_next | dsimp only |
      split | with_reducible refine kept_mk ?_ rfl rfl rfl rfl rfl rfl

theorem setDomains_kept {s0 s : State} {a b} (h : Kept s0 s) : Kept s0 (setDomains a b s) := by
  unfold setDomains
  repeat'
    first | with_reducible assumption | with_reducible apply setPdom_kept | with_reducible apply kept_ite |
      with_reducible refine kept_foldl ?_ fun _ _ _ => ?_ | dsimp only | split |
      with_reducible refine kept_mk ?_ rfl rfl rfl rfl rfl rfl

theorem restoreDomains_kept {s0 s : State} (h : Kept s0 s) : Kept s0 (restoreDomains s) := by
  unfold restoreDomains
  repeat'
    first | with_reducible assumption | with_reducible apply setDomains_kept | dsimp only

theorem beginEntry_kept {s0 s : State} {a b c d} (h : Kept s0 s) : Kept s0 (beginEntry a b c d s) := by
  unfold beginEntry
  repeat'
    first | with_reducible assumption | with_reducible apply setPwr_kept | with_reducible apply abortTracks_kept |
      with_reducible apply kept_ite | dsimp only | split | with_reducible refine kept_mk ?_ rfl rfl rfl rfl rfl rfl

theorem abandonEntry_kept {s0 s : State} {a} (h : Kept s0 s) : Kept s0 (abandonEntry a s) := by
  unfold abandonEntry
  repeat'
    first | with_reducible assumption | with_reducible apply abortWithdrawal_kept | with_reducible apply complete_kept |
      with_reducible apply countPwr_kept | with_reducible apply setPwr_kept | with_reducible apply kept_ite | dsimp only |
      split | with_reducible refine kept_mk ?_ rfl rfl rfl rfl rfl rfl

theorem enterGraze_kept {s0 s : State} (h : Kept s0 s) : Kept s0 (enterGraze s) := by
  unfold enterGraze
  repeat'
    first | with_reducible assumption | with_reducible apply setPwr_kept | with_reducible apply changeMode_kept |
      with_reducible apply setDomains_kept | dsimp only | with_reducible refine kept_mk ?_ rfl rfl rfl rfl rfl rfl

theorem gateLinks_kept {s0 s : State} (h : Kept s0 s) : Kept s0 (gateLinks s) := by
  unfold gateLinks
  repeat'
    first | with_reducible assumption | with_reducible apply lanesDown_kept | with_reducible apply dropLink_kept |
      with_reducible refine kept_foldl ?_ fun _ _ _ => ?_ | dsimp only |
      with_reducible refine kept_mk ?_ rfl rfl rfl rfl rfl rfl

theorem enterStall_kept {s0 s : State} (h : Kept s0 s) : Kept s0 (enterStall s) := by
  unfold enterStall
  repeat'
    first | with_reducible assumption | with_reducible apply writeBackAll_kept | with_reducible apply gateLinks_kept |
      with_reducible apply setPwr_kept | with_reducible apply changeMode_kept | with_reducible apply setDomains_kept |
      dsimp only | with_reducible refine kept_mk ?_ rfl rfl rfl rfl rfl rfl

theorem dropDrain_kept {s0 s : State} {a} (h : Kept s0 s) : Kept s0 (dropDrain a s) := by
  unfold dropDrain
  repeat'
    first | with_reducible assumption | dsimp only | with_reducible refine kept_mk ?_ rfl rfl rfl rfl rfl rfl

theorem finishEntry_kept {s0 s : State} {a b} (h : Kept s0 s) : Kept s0 (finishEntry a b s) := by
  unfold finishEntry
  repeat'
    first | with_reducible assumption | with_reducible apply dropDrain_kept | with_reducible apply setPwr_kept |
      with_reducible apply complete_kept | with_reducible apply enterStall_kept | with_reducible apply enterGraze_kept |
      with_reducible apply kept_ite | dsimp only | split | with_reducible refine kept_mk ?_ rfl rfl rfl rfl rfl rfl

theorem execModeEntryDrainComplete_kept {s0 s : State} (h : Kept s0 s) : KeptOut s0 (execModeEntryDrainComplete s) := by
  unfold execModeEntryDrainComplete
  repeat'
    first | with_reducible assumption | with_reducible apply finishEntry_kept | with_reducible apply kept_ite |
      with_reducible apply keptOut_ite | with_reducible apply keptOut_next | dsimp only | split

theorem voteSense_kept {s0 s : State} {a b} (h : Kept s0 s) : Kept s0 (voteSense a b s) := by
  unfold voteSense
  repeat'
    first | with_reducible assumption | with_reducible apply setPdom_kept | with_reducible apply setPwr_kept |
      with_reducible apply kept_ite | dsimp only | split | with_reducible refine kept_mk ?_ rfl rfl rfl rfl rfl rfl

theorem clearSense_kept {s0 s : State} (h : Kept s0 s) : Kept s0 (clearSense s) := by
  unfold clearSense
  repeat'
    first | with_reducible assumption | with_reducible apply voteSense_kept | with_reducible apply kept_ite |
      with_reducible refine kept_foldl ?_ fun _ _ _ => ?_ | dsimp only | split

theorem wakeGraze_kept {s0 s : State} {a b} (h : Kept s0 s) : Kept s0 (wakeGraze a b s) := by
  unfold wakeGraze
  repeat'
    first | with_reducible assumption | with_reducible apply clearSense_kept | with_reducible apply setPwr_kept |
      with_reducible apply changeMode_kept | with_reducible apply restoreDomains_kept | with_reducible apply postEvent_kept |
      dsimp only | with_reducible refine kept_mk ?_ rfl rfl rfl rfl rfl rfl

theorem execGrazeSenseCycle_kept {s0 s : State} {a} (h : Kept s0 s) : KeptOut s0 (execGrazeSenseCycle a s) := by
  unfold execGrazeSenseCycle
  repeat'
    first | with_reducible assumption | with_reducible apply countPwr_kept | with_reducible apply voteSense_kept |
      with_reducible apply setPwr_kept | with_reducible apply keptOut_next | dsimp only | split |
      with_reducible refine kept_mk ?_ rfl rfl rfl rfl rfl rfl

theorem execGrazeSenseDecision_kept {s0 s : State} {a b} (h : Kept s0 s) : KeptOut s0 (execGrazeSenseDecision a b s) := by
  unfold execGrazeSenseDecision
  repeat'
    first | with_reducible assumption | with_reducible apply wakeGraze_kept | with_reducible apply countPwr_kept |
      with_reducible apply voteSense_kept | with_reducible apply keptOut_next | dsimp only | split

theorem execGrazeScheduledWake_kept {s0 s : State} {a} (h : Kept s0 s) : KeptOut s0 (execGrazeScheduledWake a s) := by
  unfold execGrazeScheduledWake
  repeat'
    first | with_reducible assumption | with_reducible apply abandonEntry_kept | with_reducible apply wakeGraze_kept |
      with_reducible apply countPwr_kept | with_reducible apply kept_ite | with_reducible apply keptOut_ite |
      with_reducible apply keptOut_next | dsimp only | split

theorem execGrazeAutoEntry_kept {s0 s : State} (h : Kept s0 s) : KeptOut s0 (execGrazeAutoEntry s) := by
  unfold execGrazeAutoEntry
  repeat'
    first | with_reducible assumption | with_reducible apply enterGraze_kept | with_reducible apply keptOut_next |
      dsimp only | split

theorem modeSetSpec_kept : KeptSpec (modeSetSpec) := by
  intro s0 s c h
  dsimp only [modeSetSpec, plainSpec, doneWith, runsOn]
  repeat'
    first | with_reducible assumption | with_reducible apply wakeGraze_kept | with_reducible apply beginEntry_kept |
      with_reducible apply kept_ite | with_reducible apply kept_ite_answer | dsimp only | split |
      with_reducible refine kept_mk ?_ rfl rfl rfl rfl rfl rfl

theorem execModeSet_kept {s0 s : State} {a} (h : Kept s0 s) : KeptOut s0 (execModeSet a s) := by
  unfold execModeSet
  repeat'
    first | with_reducible assumption | with_reducible apply runCommand_kept | with_reducible exact modeSetSpec_kept |
      dsimp only

theorem wakeWord_kept {s0 s : State} (h : Kept s0 s) : Kept s0 (wakeWord s).2 := by
  unfold wakeWord
  repeat'
    first | with_reducible assumption | with_reducible apply drawWord_kept |
      with_reducible refine kept_of_snd (by assumption) ?_ | dsimp only | split

theorem modeStatusSpec_kept : KeptSpec (modeStatusSpec) := by
  intro s0 s c h
  dsimp only [modeStatusSpec, plainSpec, doneWith]
  repeat'
    first | with_reducible assumption | with_reducible apply wakeWord_kept | dsimp only

theorem execModeStatus_kept {s0 s : State} {a} (h : Kept s0 s) : KeptOut s0 (execModeStatus a s) := by
  unfold execModeStatus
  repeat'
    first | with_reducible assumption | with_reducible apply runCommand_kept | with_reducible exact modeStatusSpec_kept |
      dsimp only

theorem grazeSetSpec_kept : KeptSpec (grazeSetSpec) := by
  intro s0 s c h
  dsimp only [grazeSetSpec, plainSpec, done]
  repeat'
    first | with_reducible assumption | dsimp only | with_reducible refine kept_mk ?_ rfl rfl rfl rfl rfl rfl

theorem execGrazeSet_kept {s0 s : State} {a} (h : Kept s0 s) : KeptOut s0 (execGrazeSet a s) := by
  unfold execGrazeSet
  repeat'
    first | with_reducible assumption | with_reducible apply runCommand_kept | with_reducible exact grazeSetSpec_kept |
      dsimp only

theorem grazeSenseSetSpec_kept : KeptSpec (grazeSenseSetSpec) := by
  intro s0 s c h
  dsimp only [grazeSenseSetSpec, plainSpec, doneWith]
  repeat'
    first | with_reducible assumption | dsimp only | with_reducible refine kept_mk ?_ rfl rfl rfl rfl rfl rfl

theorem execGrazeSenseSet_kept {s0 s : State} {a} (h : Kept s0 s) : KeptOut s0 (execGrazeSenseSet a s) := by
  unfold execGrazeSenseSet
  repeat'
    first | with_reducible assumption | with_reducible apply runCommand_kept | with_reducible exact grazeSenseSetSpec_kept |
      dsimp only

theorem stallSetSpec_kept : KeptSpec (stallSetSpec) := by
  intro s0 s c h
  dsimp only [stallSetSpec, plainSpec, done]
  repeat'
    first | with_reducible assumption | dsimp only | with_reducible refine kept_mk ?_ rfl rfl rfl rfl rfl rfl

theorem execStallSet_kept {s0 s : State} {a} (h : Kept s0 s) : KeptOut s0 (execStallSet a s) := by
  unfold execStallSet
  repeat'
    first | with_reducible assumption | with_reducible apply runCommand_kept | with_reducible exact stallSetSpec_kept |
      dsimp only

theorem powerStatusSpec_kept : KeptSpec (powerStatusSpec) := by
  intro s0 s c h
  dsimp only [powerStatusSpec, plainSpec, doneWith]
  repeat'
    first | with_reducible assumption | with_reducible apply drawWord_kept | dsimp only

theorem execPowerStatus_kept {s0 s : State} {a} (h : Kept s0 s) : KeptOut s0 (execPowerStatus a s) := by
  unfold execPowerStatus
  repeat'
    first | with_reducible assumption | with_reducible apply runCommand_kept | with_reducible exact powerStatusSpec_kept |
      dsimp only

theorem powerCountersReadSpec_kept : KeptSpec (powerCountersReadSpec) := by
  intro s0 s c h
  dsimp only [powerCountersReadSpec, plainSpec, doneWith]
  repeat'
    first | with_reducible assumption | with_reducible apply setPwr_kept | dsimp only | split |
      with_reducible refine kept_mk ?_ rfl rfl rfl rfl rfl rfl

theorem execPowerCountersRead_kept {s0 s : State} {a} (h : Kept s0 s) : KeptOut s0 (execPowerCountersRead a s) := by
  unfold execPowerCountersRead
  repeat'
    first | with_reducible assumption | with_reducible apply runCommand_kept |
      with_reducible exact powerCountersReadSpec_kept | dsimp only

end Sys2Proof.Laws
end

