-- ==== Sys2Proof/Laws/KeptFaults.lean ====
section
/-! SUPPORT. What the operations of Machine/Faults.lean keep. -/

namespace Sys2Proof.Laws

open Sys2Proof.Machine Sys2Proof.Safety

set_option linter.unusedTactic false
set_option linter.unreachableTactic false

theorem fastEnd_kept {s0 s : State} {a b} (h : Kept s0 s) : Kept s0 (fastEnd a b s) := by
  unfold fastEnd
  repeat'
    first | with_reducible assumption | with_reducible apply outcome_kept | with_reducible apply shortfall_kept |
      with_reducible apply rampDown_kept | dsimp only

theorem endAllOnAir_kept {s0 s : State} {a} (h : Kept s0 s) : Kept s0 (endAllOnAir a s) := by
  unfold endAllOnAir
  repeat'
    first | with_reducible assumption | with_reducible apply fastEnd_kept |
      with_reducible refine kept_foldl ?_ fun _ _ _ => ?_ | dsimp only

theorem gateRcks_kept {s0 s : State} (h : Kept s0 s) : Kept s0 (gateRcks s) := by
  unfold gateRcks
  repeat'
    first | with_reducible assumption | with_reducible apply setRck_kept |
      with_reducible refine kept_foldl ?_ fun _ _ _ => ?_ | dsimp only |
      with_reducible refine kept_mk ?_ rfl rfl rfl rfl rfl rfl

theorem execClkLoss_kept {s0 s : State} (h : Kept s0 s) : KeptOut s0 (execClkLoss s) := by
  unfold execClkLoss
  repeat'
    first | with_reducible assumption | with_reducible apply endAllOnAir_kept | with_reducible apply gateRcks_kept |
      with_reducible apply raise_kept | with_reducible apply clockLossTracks_kept | with_reducible apply keptOut_next |
      dsimp only | split | with_reducible refine kept_mk ?_ rfl rfl rfl rfl rfl rfl

theorem execDatapathRestart_kept {s0 s : State} (h : Kept s0 s) : KeptOut s0 (execDatapathRestart s) := by
  unfold execDatapathRestart
  repeat'
    first | with_reducible assumption | with_reducible apply startRing_kept |
      with_reducible refine kept_foldl ?_ fun _ _ _ => ?_ | with_reducible apply keptOut_next | dsimp only |
      with_reducible refine kept_mk ?_ rfl rfl rfl rfl rfl rfl

theorem execSerdesUnlock_kept {s0 s : State} (h : Kept s0 s) : KeptOut s0 (execSerdesUnlock s) := by
  unfold execSerdesUnlock
  repeat'
    first | with_reducible assumption | with_reducible apply raise_kept | with_reducible apply keptOut_next | dsimp only

theorem execDramPllUnlock_kept {s0 s : State} (h : Kept s0 s) : KeptOut s0 (execDramPllUnlock s) := by
  unfold execDramPllUnlock
  repeat'
    first | with_reducible assumption | with_reducible apply raise_kept | with_reducible apply keptOut_next | dsimp only

theorem execVinSurge_kept {s0 s : State} (h : Kept s0 s) : KeptOut s0 (execVinSurge s) := by
  unfold execVinSurge
  repeat'
    first | with_reducible assumption | with_reducible apply raise_kept | with_reducible apply keptOut_next | dsimp only

theorem execRailFault_kept {s0 s : State} {a} (h : Kept s0 s) : KeptOut s0 (execRailFault a s) := by
  unfold execRailFault
  repeat'
    first | with_reducible assumption | with_reducible apply postEvent_kept | with_reducible apply raise_kept |
      with_reducible apply keptOut_next | dsimp only

theorem execThermalWarn_kept {s0 s : State} (h : Kept s0 s) : KeptOut s0 (execThermalWarn s) := by
  unfold execThermalWarn
  repeat'
    first | with_reducible assumption | with_reducible apply raise_kept | with_reducible apply keptOut_next | dsimp only

theorem execVbatLow_kept {s0 s : State} (h : Kept s0 s) : KeptOut s0 (execVbatLow s) := by
  unfold execVbatLow
  repeat'
    first | with_reducible assumption | with_reducible apply raise_kept | with_reducible apply keptOut_next | dsimp only

theorem execSramParity_kept {s0 s : State} (h : Kept s0 s) : KeptOut s0 (execSramParity s) := by
  unfold execSramParity
  repeat'
    first | with_reducible assumption | with_reducible apply raise_kept | with_reducible apply keptOut_next | dsimp only

theorem execDramScrub_kept {s0 s : State} {a b} (h : Kept s0 s) : KeptOut s0 (execDramScrub a b s) := by
  unfold execDramScrub
  repeat'
    first | with_reducible assumption | with_reducible apply raise_kept | with_reducible apply kept_ite |
      with_reducible apply keptOut_ite | with_reducible apply keptOut_next | dsimp only | split |
      with_reducible refine kept_mk ?_ rfl rfl rfl rfl rfl rfl

theorem markUe_kept {s0 s : State} {a} (h : Kept s0 s) : Kept s0 (markUe a s) := by
  unfold markUe
  repeat'
    first | with_reducible assumption | with_reducible apply addMark_kept | dsimp only | split |
      with_reducible refine kept_mk ?_ rfl rfl rfl rfl rfl rfl

theorem loseNode_kept {s0 s : State} {a} (h : Kept s0 s) : Kept s0 (loseNode a s) := by
  unfold loseNode
  repeat'
    first | with_reducible assumption | with_reducible apply deleteNode_kept | dsimp only | split

theorem loseSaved_kept {s0 s : State} {a} (h : Kept s0 s) : Kept s0 (loseSaved a s) := by
  unfold loseSaved
  repeat'
    first | with_reducible assumption | with_reducible apply loseNode_kept | with_reducible apply kept_ite | dsimp only |
      split | with_reducible refine kept_mk ?_ rfl rfl rfl rfl rfl rfl

theorem loseReport_kept {s0 s : State} (h : Kept s0 s) : Kept s0 (loseReport s) := by
  unfold loseReport
  repeat'
    first | with_reducible assumption | with_reducible refine kept_foldl ?_ fun _ _ _ => ?_ | dsimp only | split |
      with_reducible refine kept_mk ?_ rfl rfl rfl rfl rfl rfl

theorem listMod_length {α : Type} (l : List α) (i : Nat) (f : α → α) : (listMod l i f).length = l.length := by
  induction l generalizing i with
  | nil => rfl
  | cons x r ih => cases i <;> simp [listMod, ih]

theorem loseLogEntry_kept {s0 s : State} {a} (h : Kept s0 s) : Kept s0 (loseLogEntry a s) := by
  unfold loseLogEntry
  refine kept_ite (kept_trb h (fun k => ?_) id) h
  exact Nat.le_trans (Nat.le_of_eq (listMod_length _ _ _)) k

theorem loseLogState_kept {s0 s : State} (h : Kept s0 s) : Kept s0 (loseLogState s) := by
  unfold loseLogState
  exact kept_trb h id id

theorem loseBucket_kept {s0 s : State} {a b} (h : Kept s0 s) : Kept s0 (loseBucket a b s) := by
  unfold loseBucket
  repeat'
    first | with_reducible assumption | with_reducible apply modBucket_kept | dsimp only

theorem ueLogs_kept {s0 s : State} {a} (h : Kept s0 s) : Kept s0 (ueLogs a s) := by
  unfold ueLogs
  repeat'
    first | with_reducible assumption | with_reducible apply loseLogEntry_kept | with_reducible apply loseBucket_kept |
      with_reducible apply loseSaved_kept | with_reducible apply loseLogState_kept | with_reducible apply kept_ite |
      dsimp only | split

theorem ueRegion_kept {s0 s : State} {a} (h : Kept s0 s) : Kept s0 (ueRegion a s) := by
  unfold ueRegion
  refine kept_ite (markUe_kept h) (kept_ite (setQue_kept h) (kept_ite (loseNode_kept h) (kept_ite
    (kept_mk h rfl rfl rfl rfl rfl rfl) (kept_ite (loseReport_kept h) (kept_ite (kept_mem h id id) (ueLogs_kept h))))))

theorem execDramUe_kept {s0 s : State} {a} (h : Kept s0 s) : KeptOut s0 (execDramUe a s) := by
  unfold execDramUe
  repeat'
    first | with_reducible assumption | with_reducible apply ueRegion_kept | with_reducible apply raise_kept |
      with_reducible apply keptOut_next | dsimp only

theorem execJtagInstruction_kept {s0 s : State} {a} (h : Kept s0 s) : KeptOut s0 (execJtagInstruction a s) := by
  unfold execJtagInstruction
  repeat'
    first | with_reducible assumption | with_reducible apply kept_ite | with_reducible apply keptOut_ite |
      with_reducible apply keptOut_next | dsimp only | split | with_reducible refine kept_mk ?_ rfl rfl rfl rfl rfl rfl

end Sys2Proof.Laws
end

