-- ==== Sys2Proof/Laws/KeptStartup.lean ====
section
/-! SUPPORT. What the operations of Machine/Startup.lean keep. -/

namespace Sys2Proof.Laws

open Sys2Proof.Machine Sys2Proof.Safety

set_option linter.unusedTactic false
set_option linter.unreachableTactic false

/-- A reset keeps what R446 keeps, in its form, and resets the rest. -/
theorem resetState_kept {s0 s : State} {a} (h : Kept s0 s) : Kept s0 (resetState a s) := by
  refine h.trans ⟨fun k => ?_, rfl, rfl⟩
  obtain ⟨h1, h2, h3, h4, h5, h6⟩ := k
  cases a
  · exact ⟨h1, h2, Nat.zero_le _, h4, fun n => BitVec.zero_and, h6⟩
  · exact ⟨rfl, h2, Nat.zero_le _, Nat.zero_le _, fun n => BitVec.zero_and, h6⟩

theorem journalUpTo_kept {s0 s : State} {a b c} (h : Kept s0 s) : Kept s0 (journalUpTo a b c s) := by
  unfold journalUpTo
  repeat'
    first | with_reducible assumption | with_reducible apply journalErased_kept | with_reducible apply journal_kept |
      with_reducible apply kept_ite | with_reducible refine kept_foldl ?_ fun _ _ _ => ?_ | dsimp only | split

theorem cutProgram_kept {s0 s : State} {a b c d} (h : Kept s0 s) : Kept s0 (cutProgram a b c d s) := by
  unfold cutProgram
  repeat'
    first | with_reducible assumption | with_reducible apply flashWrite_kept | with_reducible apply scramble_kept |
      with_reducible apply kept_ite | dsimp only | split

theorem cutOp_kept {s0 s : State} {a b} (h : Kept s0 s) : Kept s0 (cutOp a b s) := by
  unfold cutOp
  repeat'
    first | with_reducible assumption | with_reducible apply drawWord_kept | with_reducible apply cutProgram_kept |
      with_reducible apply journalUpTo_kept | with_reducible apply flashWrite_kept | with_reducible apply kept_ite |
      with_reducible refine kept_of_snd (by assumption) ?_ | dsimp only | split

theorem sectorsEnded_kept {s0 s : State} (h : Kept s0 s) : Kept s0 (sectorsEnded s).2 := by
  unfold sectorsEnded
  repeat'
    first | with_reducible assumption | with_reducible apply drawWord_kept |
      with_reducible refine kept_of_snd (by assumption) ?_ | dsimp only | split

theorem deviceReset_kept {s0 s : State} {a} (h : Kept s0 s) : Kept s0 (deviceReset a s) := by
  unfold deviceReset
  repeat'
    first | with_reducible assumption | with_reducible apply sectorsEnded_kept | with_reducible apply cutOp_kept |
      with_reducible apply resetState_kept | with_reducible apply writeBackAll_kept | dsimp only | split

theorem execDeviceResetInstant_kept {s0 s : State} (h : Kept s0 s) : KeptOut s0 (execDeviceResetInstant s) := by
  unfold execDeviceResetInstant
  repeat'
    first | with_reducible assumption | with_reducible apply deviceReset_kept | with_reducible apply kept_ite |
      with_reducible apply keptOut_ite | with_reducible apply keptOut_next | dsimp only | split

theorem execResetNFall_kept {s0 s : State} {a b} (h : Kept s0 s) : KeptOut s0 (execResetNFall a b s) := by
  unfold execResetNFall
  repeat'
    first | with_reducible assumption | with_reducible apply deviceReset_kept | with_reducible apply keptOut_next |
      dsimp only | split | with_reducible refine kept_mk ?_ rfl rfl rfl rfl rfl rfl

theorem failSteps_kept {s0 s : State} {a} (h : Kept s0 s) : Kept s0 (failSteps a s) := by
  unfold failSteps
  repeat'
    first | with_reducible assumption | with_reducible apply endAllOnAir_kept | with_reducible apply releaseReins_kept |
      with_reducible apply journal_kept | with_reducible apply cutOp_kept | dsimp only

theorem execPowerFail_kept {s0 s : State} {a} (h : Kept s0 s) : KeptOut s0 (execPowerFail a s) := by
  unfold execPowerFail
  repeat'
    first | with_reducible assumption | with_reducible apply failSteps_kept | with_reducible apply resetState_kept |
      with_reducible apply keptOut_next | dsimp only | split | with_reducible refine kept_mk ?_ rfl rfl rfl rfl rfl rfl

theorem sampleStrap_kept {s0 s : State} {a} (h : Kept s0 s) : Kept s0 (sampleStrap a s) := by
  unfold sampleStrap
  repeat'
    first | with_reducible assumption | dsimp only | with_reducible refine kept_mk ?_ rfl rfl rfl rfl rfl rfl

theorem vbatLost_kept {s0 s : State} (h : Kept s0 s) : Kept s0 (vbatLost s) := by
  unfold vbatLost
  exact postEvent_kept (raise_kept (kept_vault h fun _ => Nat.zero_le _))

theorem checkVbat_kept {s0 s : State} {a} (h : Kept s0 s) : Kept s0 (checkVbat a s) := by
  unfold checkVbat
  repeat'
    first | with_reducible assumption | with_reducible apply raise_kept | with_reducible apply vbatLost_kept |
      with_reducible apply kept_ite | dsimp only | split | with_reducible refine kept_mk ?_ rfl rfl rfl rfl rfl rfl

theorem saddleThree_kept {s0 s : State} {a} (h : Kept s0 s) : Kept s0 (saddleThree a s) := by
  unfold saddleThree
  repeat'
    first | with_reducible assumption | with_reducible apply sampleStrap_kept | with_reducible apply checkVbat_kept |
      dsimp only | with_reducible refine kept_mk ?_ rfl rfl rfl rfl rfl rfl

theorem rebuildRoot_kept {s0 s : State} {a} (h : Kept s0 s) : Kept s0 (rebuildRoot a s) := by
  unfold rebuildRoot
  repeat'
    first | with_reducible assumption | with_reducible apply raise_kept | dsimp only | split |
      with_reducible refine kept_mk ?_ rfl rfl rfl rfl rfl rfl

theorem invalidate_kept {s0 s : State} {a} (h : Kept s0 s) : Kept s0 (invalidate a s) := by
  unfold invalidate
  repeat'
    first | with_reducible assumption | with_reducible apply setFwSlot_kept | with_reducible apply setFw_kept |
      with_reducible apply kept_ite | dsimp only | split | with_reducible refine kept_mk ?_ rfl rfl rfl rfl rfl rfl

theorem markSector_kept {s0 s : State} {b} (h : Kept s0 s) : Kept s0 (markSector s b) := by
  unfold markSector
  repeat'
    first | with_reducible assumption | with_reducible apply setFw_kept | with_reducible apply postEvent_kept |
      with_reducible apply raise_kept | with_reducible apply invalidate_kept | with_reducible apply kept_ite | dsimp only |
      split | with_reducible refine kept_mk ?_ rfl rfl rfl rfl rfl rfl

theorem replayJournal_kept {s0 s : State} (h : Kept s0 s) : Kept s0 (replayJournal s) := by
  unfold replayJournal
  repeat'
    first | with_reducible assumption | with_reducible apply markSector_kept |
      with_reducible refine kept_foldl ?_ fun _ _ _ => ?_ | dsimp only

theorem failSlot_kept {s0 s : State} {a} (h : Kept s0 s) : Kept s0 (failSlot a s) := by
  unfold failSlot
  repeat'
    first | with_reducible assumption | with_reducible apply setFwSlot_kept | with_reducible apply kept_ite | dsimp only |
      split | with_reducible refine kept_mk ?_ rfl rfl rfl rfl rfl rfl

theorem chooseSlot_kept {s0 s : State} {a} (h : Kept s0 s) : Kept s0 (chooseSlot a s).2 := by
  unfold chooseSlot
  repeat'
    first | with_reducible assumption | with_reducible apply postEvent_kept | with_reducible apply failSlot_kept |
      with_reducible apply kept_ite | with_reducible apply kept_ite_snd | dsimp only | split

theorem nextBootEpoch_kept {s0 s : State} (h : Kept s0 s) : Kept s0 (nextBootEpoch s) := by
  unfold nextBootEpoch
  repeat'
    first | with_reducible assumption | with_reducible apply setFw_kept | dsimp only |
      with_reducible refine kept_mk ?_ rfl rfl rfl rfl rfl rfl

theorem recover_kept {s0 s : State} (h : Kept s0 s) : Kept s0 (recover s) := by
  unfold recover
  repeat'
    first | with_reducible assumption | with_reducible apply drawWord_kept | with_reducible apply setFwSlot_kept |
      with_reducible apply changeMode_kept | dsimp only | with_reducible refine kept_mk ?_ rfl rfl rfl rfl rfl rfl

theorem enterRemount_kept {s0 s : State} {a} (h : Kept s0 s) : Kept s0 (enterRemount a s) := by
  unfold enterRemount
  repeat'
    first | with_reducible assumption | with_reducible apply changeMode_kept | with_reducible apply setFw_kept |
      with_reducible apply recover_kept | with_reducible apply kept_ite | dsimp only | split |
      with_reducible refine kept_mk ?_ rfl rfl rfl rfl rfl rfl

theorem applyTamper_kept {s0 s : State} {a} (h : Kept s0 s) : Kept s0 (applyTamper a s) := by
  unfold applyTamper
  repeat'
    first | with_reducible assumption | with_reducible apply postEvent_kept | with_reducible apply kept_ite | dsimp only |
      split | with_reducible refine kept_mk ?_ rfl rfl rfl rfl rfl rfl

theorem applyRcks_kept {s0 s : State} {a} (h : Kept s0 s) : Kept s0 (applyRcks a s) := by
  unfold applyRcks
  repeat'
    first | with_reducible assumption | with_reducible apply setRck_kept |
      with_reducible refine kept_foldl ?_ fun _ _ _ => ?_ | dsimp only |
      with_reducible refine kept_mk ?_ rfl rfl rfl rfl rfl rfl

theorem applyCaps_kept {s0 s : State} {a} (h : Kept s0 s) : Kept s0 (applyCaps a s) := by
  unfold applyCaps
  repeat'
    first | with_reducible assumption | with_reducible apply setQue_kept |
      with_reducible refine kept_foldl ?_ fun _ _ _ => ?_ | dsimp only |
      with_reducible refine kept_mk ?_ rfl rfl rfl rfl rfl rfl

theorem applyEngines_kept {s0 s : State} {a} (h : Kept s0 s) : Kept s0 (applyEngines a s) := by
  unfold applyEngines
  repeat'
    first | with_reducible assumption | with_reducible apply setEngine_kept | with_reducible apply kept_ite |
      with_reducible refine kept_foldl ?_ fun _ _ _ => ?_ | dsimp only | split |
      with_reducible refine kept_mk ?_ rfl rfl rfl rfl rfl rfl

theorem applyTack_kept {s0 s : State} {a} (h : Kept s0 s) : Kept s0 (applyTack a s) := by
  unfold applyTack
  repeat'
    first | with_reducible assumption | with_reducible apply applyTamper_kept | with_reducible apply applyEngines_kept |
      with_reducible apply applyCaps_kept | with_reducible apply applyRcks_kept | dsimp only |
      with_reducible refine kept_mk ?_ rfl rfl rfl rfl rfl rfl

theorem startPlains_kept {s0 s : State} (h : Kept s0 s) : Kept s0 (startPlains s) := by
  unfold startPlains
  repeat'
    first | with_reducible assumption | with_reducible apply linkPorts_kept | with_reducible apply realign_kept |
      with_reducible apply calibrate_kept | with_reducible apply sendSysref_kept | with_reducible apply raise_kept |
      with_reducible apply setTxRun_kept | with_reducible apply repartition_kept |
      with_reducible refine kept_foldl ?_ fun _ _ _ => ?_ | dsimp only |
      with_reducible refine kept_mk ?_ rfl rfl rfl rfl rfl rfl

theorem startLedger_kept {s0 s : State} {a} (h : Kept s0 s) : Kept s0 (startLedger a s) := by
  unfold startLedger
  repeat'
    first | with_reducible assumption | with_reducible apply startCold_kept | with_reducible apply kept_ite |
      with_reducible refine kept_foldl ?_ fun _ _ _ => ?_ | dsimp only | split

theorem saddleTen_kept {s0 s : State} {a b} (h : Kept s0 s) : Kept s0 (saddleTen a b s) := by
  unfold saddleTen
  repeat'
    first | with_reducible assumption | with_reducible apply setFw_kept | with_reducible apply applyTack_kept |
      with_reducible apply startLedger_kept | with_reducible apply startPlains_kept | with_reducible apply postEvent_kept |
      dsimp only | split | with_reducible refine kept_mk ?_ rfl rfl rfl rfl rfl rfl

theorem trimEvents_kept {s0 s : State} (h : Kept s0 s) : Kept s0 (trimEvents s) := by
  unfold trimEvents
  repeat'
    first | with_reducible assumption | with_reducible apply raise_kept | with_reducible apply setQue_kept |
      with_reducible apply kept_ite | dsimp only | split | with_reducible refine kept_mk ?_ rfl rfl rfl rfl rfl rfl

theorem resetEvent_kept {s0 s : State} (h : Kept s0 s) : Kept s0 (resetEvent s) := by
  unfold resetEvent
  repeat'
    first | with_reducible assumption | with_reducible apply trimEvents_kept | with_reducible apply settle_kept |
      with_reducible apply kept_ite | dsimp only | split | with_reducible refine kept_mk ?_ rfl rfl rfl rfl rfl rfl

theorem saddleTwelve_kept {s0 s : State} (h : Kept s0 s) : Kept s0 (saddleTwelve s) := by
  unfold saddleTwelve
  repeat'
    first | with_reducible assumption | with_reducible apply resetEvent_kept | with_reducible apply restoreDomains_kept |
      with_reducible apply setSound_kept | with_reducible apply fullSelfTest_kept | with_reducible apply changeMode_kept |
      with_reducible apply kept_ite | dsimp only | split | with_reducible refine kept_mk ?_ rfl rfl rfl rfl rfl rfl

theorem saddleRest_kept {s0 s : State} {a} (h : Kept s0 s) : Kept s0 (saddleRest a s) := by
  unfold saddleRest
  repeat'
    first | with_reducible assumption | with_reducible apply rebuildRoot_kept | with_reducible apply enterRemount_kept |
      with_reducible apply replayJournal_kept | with_reducible apply nextBootEpoch_kept | with_reducible apply setFw_kept |
      with_reducible apply chooseSlot_kept | with_reducible apply saddleTwelve_kept | with_reducible apply saddleTen_kept |
      with_reducible apply kept_ite | with_reducible refine kept_of_snd (by assumption) ?_ | dsimp only | split |
      with_reducible refine kept_mk ?_ rfl rfl rfl rfl rfl rfl

theorem saddleFour_kept {s0 s : State} {a} (h : Kept s0 s) : Kept s0 (saddleFour a s) := by
  unfold saddleFour
  repeat'
    first | with_reducible assumption | with_reducible apply saddleRest_kept | with_reducible apply raise_kept |
      with_reducible apply kept_ite | dsimp only | split | with_reducible refine kept_mk ?_ rfl rfl rfl rfl rfl rfl

theorem execSaddle_kept {s0 s : State} {a} (h : Kept s0 s) : KeptOut s0 (execSaddle a s) := by
  unfold execSaddle
  repeat'
    first | with_reducible assumption | with_reducible apply saddleFour_kept | with_reducible apply saddleThree_kept |
      with_reducible apply resetState_kept | with_reducible apply keptOut_next | dsimp only | split

theorem execRefinDetected_kept {s0 s : State} {a} (h : Kept s0 s) : KeptOut s0 (execRefinDetected a s) := by
  unfold execRefinDetected
  repeat'
    first | with_reducible assumption | with_reducible apply saddleRest_kept | with_reducible apply keptOut_next |
      dsimp only | split

end Sys2Proof.Laws
end

