-- ==== Sys2Proof/Laws/KeptRegisters.lean ====
section
/-! SUPPORT. What the operations of Machine/Registers.lean keep. -/

namespace Sys2Proof.Laws

open Sys2Proof.Machine Sys2Proof.Safety

set_option linter.unusedTactic false
set_option linter.unreachableTactic false

theorem writeTrouble_kept {s0 s : State} {a b} (h : Kept s0 s) : Kept s0 (writeTrouble a b s) := by
  unfold writeTrouble
  refine kept_ite (kept_trb h id fun k n => ?_) (kept_ite (kept_trb h id id) h)
  rw [tabGet_tabSet]
  split
  · subst n
    have hz := k (a / 4)
    have e : ∀ x v w d : Word, cleared x v w &&& ~~~ d = (x &&& ~~~ d) &&& ~~~ (v &&& ~~~ w) := by
      intro x v w d
      simp only [cleared]
      ext i
      simp only [BitVec.getElem_and, BitVec.getElem_or, BitVec.getElem_not]
      cases x[i] <;> cases v[i] <;> cases d[i] <;> cases w[i] <;> rfl
    rw [e, hz, BitVec.zero_and]
  · exact k n

theorem clearStatus_kept {s0 s : State} {a b} (h : Kept s0 s) : Kept s0 (clearStatus a b s) := by
  unfold clearStatus
  repeat'
    first | with_reducible assumption | with_reducible apply setQue_kept | with_reducible apply kept_ite | dsimp only |
      split | with_reducible refine kept_mk ?_ rfl rfl rfl rfl rfl rfl

theorem writeControl_kept {s0 s : State} {a b c} (h : Kept s0 s) : Kept s0 (writeControl a b c s) := by
  unfold writeControl
  repeat'
    first | with_reducible assumption | with_reducible apply ctrlWrite_kept | with_reducible apply clearStatus_kept |
      with_reducible apply kept_ite | dsimp only | split

theorem writeLastBytes_kept {s0 s : State} {a b} (h : Kept s0 s) : Kept s0 (writeLastBytes a b s) := by
  unfold writeLastBytes
  repeat'
    first | with_reducible assumption | with_reducible apply setQue_kept | dsimp only |
      with_reducible refine kept_mk ?_ rfl rfl rfl rfl rfl rfl

theorem writeWindow_kept {s0 s : State} {a b c} (h : Kept s0 s) : Kept s0 (writeWindow a b c s) := by
  unfold writeWindow
  repeat'
    first | with_reducible assumption | with_reducible apply writeLastBytes_kept | with_reducible apply kept_ite |
      dsimp only | split

theorem writeWindowWide_kept {s0 s : State} {a b c} (h : Kept s0 s) : Kept s0 (writeWindowWide a b c s) := by
  unfold writeWindowWide
  repeat'
    first | with_reducible assumption | with_reducible apply hostPush_kept | with_reducible apply writeLastBytes_kept |
      with_reducible apply kept_ite | dsimp only | split

theorem writeTimeReg_kept {s0 s : State} {a b} (h : Kept s0 s) : Kept s0 (writeTimeReg a b s) := by
  unfold writeTimeReg
  repeat'
    first | with_reducible assumption | with_reducible apply takeSnap_kept | with_reducible apply writeIncLo_kept |
      with_reducible apply writeIncHi_kept | with_reducible apply kept_ite | dsimp only | split

theorem writeGait_kept {s0 s : State} {a b c} (h : Kept s0 s) : Kept s0 (writeGait a b c s) := by
  unfold writeGait
  repeat'
    first | with_reducible assumption | with_reducible apply setGait_kept | with_reducible apply writeCount_kept |
      with_reducible apply writeCompare_kept | with_reducible apply kept_ite | dsimp only | split |
      with_reducible refine kept_mk ?_ rfl rfl rfl rfl rfl rfl

theorem writeDomain_kept {s0 s : State} {a b c} (h : Kept s0 s) : Kept s0 (writeDomain a b c s) := by
  unfold writeDomain
  repeat'
    first | with_reducible assumption | with_reducible apply writeVote_kept | with_reducible apply writePolicy_kept |
      with_reducible apply kept_ite | dsimp only | split

theorem writeSem_kept {s0 s : State} {a b c} (h : Kept s0 s) : Kept s0 (writeSem a b c s) := by
  unfold writeSem
  repeat'
    first | with_reducible assumption | with_reducible apply setSem_kept | with_reducible apply kept_ite | dsimp only | split

theorem writeReg_kept {s0 s : State} {a b} (h : Kept s0 s) : Kept s0 (writeReg a b s) := by
  unfold writeReg
  repeat'
    first | with_reducible assumption | with_reducible apply writeTrouble_kept | with_reducible apply writeSem_kept |
      with_reducible apply writeControl_kept | with_reducible apply writeWindow_kept |
      with_reducible apply writeTimeReg_kept | with_reducible apply writeGait_kept | with_reducible apply writeDomain_kept |
      with_reducible apply ringBell_kept | with_reducible apply kept_ite | dsimp only | split

theorem writeBar0_kept {s0 s : State} {a b c} (h : Kept s0 s) : Kept s0 (writeBar0 a b c s) := by
  unfold writeBar0
  repeat'
    first | with_reducible assumption | with_reducible apply writeReg_kept | with_reducible apply writeWindowWide_kept |
      with_reducible apply kept_ite | dsimp only | split

theorem execRegisterWrite_kept {s0 s : State} {a b c} (h : Kept s0 s) : KeptOut s0 (execRegisterWrite a b c s) := by
  unfold execRegisterWrite
  repeat'
    first | with_reducible assumption | with_reducible apply setPwr_kept | with_reducible apply writeBar0_kept |
      with_reducible apply kept_ite | with_reducible apply keptOut_ite | with_reducible apply keptOut_next |
      with_reducible exact keptOut_fault | dsimp only | split | with_reducible refine kept_mk ?_ rfl rfl rfl rfl rfl rfl

theorem applyHeld_kept {s0 s : State} {b} (h : Kept s0 s) : Kept s0 (applyHeld s b) := by
  unfold applyHeld
  repeat'
    first | with_reducible assumption | with_reducible apply hostPush_kept | with_reducible apply ringBell_kept |
      with_reducible apply writeBar0_kept | dsimp only | split

theorem restoreAfterStall_kept {s0 s : State} (h : Kept s0 s) : Kept s0 (restoreAfterStall s) := by
  unfold restoreAfterStall
  repeat'
    first | with_reducible assumption | with_reducible apply restoreDomains_kept | with_reducible apply setDomains_kept |
      with_reducible apply kept_ite | dsimp only | split

theorem wakeStall_kept {s0 s : State} {a} (h : Kept s0 s) : Kept s0 (wakeStall a s) := by
  unfold wakeStall
  repeat'
    first | with_reducible assumption | with_reducible apply makeUpGaits_kept | with_reducible apply makeUpTime_kept |
      with_reducible apply setPwr_kept | with_reducible apply applyHeld_kept | with_reducible apply changeMode_kept |
      with_reducible apply restoreAfterStall_kept | with_reducible refine kept_foldl ?_ fun _ _ _ => ?_ | dsimp only |
      with_reducible refine kept_mk ?_ rfl rfl rfl rfl rfl rfl

theorem execStallWake_kept {s0 s : State} {a} (h : Kept s0 s) : KeptOut s0 (execStallWake a s) := by
  unfold execStallWake
  repeat'
    first | with_reducible assumption | with_reducible apply wakeStall_kept | with_reducible apply abandonEntry_kept |
      with_reducible apply kept_ite | with_reducible apply keptOut_ite | with_reducible apply keptOut_next | dsimp only |
      split

end Sys2Proof.Laws
end

