-- ==== Sys2Proof/Laws/KeptRemote.lean ====
section
/-! SUPPORT. What the operations of Machine/Remote.lean keep. -/

namespace Sys2Proof.Laws

open Sys2Proof.Machine Sys2Proof.Safety

set_option linter.unusedTactic false
set_option linter.unreachableTactic false

/-- Every row of a command table keeps what must be kept. -/
def KeptAll (l : List CmdSpec) : Prop := ∀ v ∈ l, KeptSpec v

theorem keptAll_nil : KeptAll [] := fun _ h => absurd h List.not_mem_nil

theorem keptAll_cons {v : CmdSpec} {l : List CmdSpec} (h : KeptSpec v) (hl : KeptAll l) : KeptAll (v :: l) := by
  intro w hw
  rcases List.mem_cons.mp hw with rfl | hw
  · exact h
  · exact hl w hw

theorem keptAll_append {l m : List CmdSpec} (hl : KeptAll l) (hm : KeptAll m) : KeptAll (l ++ m) := by
  intro w hw
  rcases List.mem_append.mp hw with hw | hw
  · exact hl w hw
  · exact hm w hw

theorem forget_kept {s0 s : State} {a} (h : Kept s0 s) : Kept s0 (forget a s) := by
  unfold forget
  repeat'
    first | with_reducible assumption | with_reducible apply setFw_kept | with_reducible apply setTan_kept |
      with_reducible apply kept_ite | dsimp only | split | with_reducible refine kept_mk ?_ rfl rfl rfl rfl rfl rfl

theorem stopErase_kept {s0 s : State} {a} (h : Kept s0 s) : Kept s0 (stopErase a s) := by
  unfold stopErase
  repeat'
    first | with_reducible assumption | with_reducible apply sectorsEnded_kept | with_reducible apply cutOp_kept |
      with_reducible apply scramble_kept | with_reducible apply kept_ite |
      with_reducible refine kept_of_snd (by assumption) ?_ | dsimp only | split

theorem dropOp_kept {s0 s : State} {a} (h : Kept s0 s) : Kept s0 (dropOp a s) := by
  unfold dropOp
  repeat'
    first | with_reducible assumption | with_reducible apply stopErase_kept | with_reducible apply setFw_kept |
      with_reducible apply serveReads_kept | with_reducible apply startHead_kept | with_reducible apply kept_ite |
      dsimp only | split | with_reducible refine kept_mk ?_ rfl rfl rfl rfl rfl rfl

theorem dropWaitingCmd_kept {s0 s : State} {a} (h : Kept s0 s) : Kept s0 (dropWaitingCmd a s) := by
  unfold dropWaitingCmd
  repeat'
    first | with_reducible assumption | dsimp only | with_reducible refine kept_mk ?_ rfl rfl rfl rfl rfl rfl

theorem abortCmd_kept {s0 s : State} {a} (h : Kept s0 s) : Kept s0 (abortCmd a s) := by
  unfold abortCmd
  repeat'
    first | with_reducible assumption | with_reducible apply abandonEntry_kept | with_reducible apply complete_kept |
      with_reducible apply abortWithdrawal_kept | with_reducible apply dropOp_kept | with_reducible apply forget_kept |
      with_reducible apply dropWaitingCmd_kept | with_reducible apply kept_ite | dsimp only | split

theorem abortTag_kept {s0 s : State} {a b} (h : Kept s0 s) : Kept s0 (abortTag a b s).state := by
  unfold abortTag doneWith
  repeat'
    first | with_reducible assumption | with_reducible apply abortCmd_kept | with_reducible apply kept_ite |
      with_reducible apply kept_ite_answer | dsimp only | split

theorem abortCommandSpec_kept : KeptSpec (abortCommandSpec) := by
  intro s0 s c h
  dsimp only [abortCommandSpec, plainSpec]
  repeat'
    first | with_reducible assumption | with_reducible apply abortTag_kept | dsimp only

theorem execAbortCommand_kept {s0 s : State} {a} (h : Kept s0 s) : KeptOut s0 (execAbortCommand a s) := by
  unfold execAbortCommand
  repeat'
    first | with_reducible assumption | with_reducible apply runCommand_kept | with_reducible exact abortCommandSpec_kept |
      dsimp only

theorem commandSpecs1_kept : KeptAll commandSpecs1 :=
  keptAll_cons nopSpec_kept <| keptAll_cons getIdentitySpec_kept <| keptAll_cons abortCommandSpec_kept <|
  keptAll_cons getCommandStateSpec_kept <| keptAll_cons resetDeviceSpec_kept <| keptAll_cons queueConfigureSpec_kept <|
  keptAll_cons queueResetSpec_kept <| keptAll_cons queueStatusSpec_kept <| keptAll_cons spillStatusSpec_kept <|
  keptAll_cons soundnessReportSpec_kept <| keptAll_cons selfTestRunSpec_kept <| keptAll_cons troubleLogReadSpec_kept <|
  keptAll_cons troubleLogClearSpec_kept <| keptAll_cons modeSetSpec_kept <| keptAll_cons modeStatusSpec_kept <|
  keptAll_cons grazeSetSpec_kept <| keptAll_cons grazeSenseSetSpec_kept <| keptAll_cons stallSetSpec_kept <|
  keptAll_cons powerStatusSpec_kept <| keptAll_cons powerCountersReadSpec_kept <|
  keptAll_cons plainConfigureSpec_kept <| keptAll_cons plainDisableSpec_kept <| keptAll_cons plainStatusSpec_kept <|
  keptAll_cons chainEnableSpec_kept <| keptAll_nil

theorem commandSpecs2_kept : KeptAll commandSpecs2 :=
  keptAll_cons syncSetSpec_kept <| keptAll_cons searchSetSpec_kept <| keptAll_cons detectSetSpec_kept <|
  keptAll_cons trackCapSetSpec_kept <| keptAll_cons recordSetSpec_kept <| keptAll_cons linkCalibrateSpec_kept <|
  keptAll_cons portLatencySetSpec_kept <| keptAll_cons portStatusSpec_kept <| keptAll_cons sysrefSetSpec_kept <|
  keptAll_cons lanePolaritySetSpec_kept <| keptAll_cons gainSetSpec_kept <| keptAll_cons gainGetSpec_kept <|
  keptAll_cons levelSetSpec_kept <| keptAll_cons weightsWriteSpec_kept <| keptAll_cons tableActivateSpec_kept <|
  keptAll_cons weightsReadSpec_kept <| keptAll_cons beamEnableSpec_kept <| keptAll_cons paddockWithdrawSpec_kept <|
  keptAll_cons paddockRestoreSpec_kept <| keptAll_cons fabricStatusSpec_kept <| keptAll_cons rxCountersReadSpec_kept <|
  keptAll_cons cutSetSpec_kept <| keptAll_cons cutStatusSpec_kept <| keptAll_cons cutRetrySpec_kept <| keptAll_nil

theorem commandSpecs3_kept : KeptAll commandSpecs3 :=
  keptAll_cons storeStatusSpec_kept <| keptAll_cons spanMarksReadSpec_kept <| keptAll_cons cutEngineRestartSpec_kept <|
  keptAll_cons combineSetSpec_kept <| keptAll_cons combineStatusSpec_kept <| keptAll_cons cutCountersReadSpec_kept <|
  keptAll_cons combineCountersReadSpec_kept <| keptAll_cons radioSpiSetSpec_kept <|
  keptAll_cons radioScriptRunSpec_kept <| keptAll_cons calWriteSpec_kept <| keptAll_cons calReadSpec_kept <|
  keptAll_cons plainTuneSpec_kept <| keptAll_cons gainScriptSetSpec_kept <| keptAll_cons returnSetSpec_kept <|
  keptAll_cons txPortSetSpec_kept <| keptAll_cons txPlainSetSpec_kept <| keptAll_cons txDefaultsSetSpec_kept <|
  keptAll_cons weightsWriteSpec_kept <| keptAll_cons tableActivateSpec_kept <| keptAll_cons weightsReadSpec_kept <|
  keptAll_cons coexSetSpec_kept <| keptAll_cons coexStatusSpec_kept <| keptAll_cons rckStoreSpec_kept <|
  keptAll_cons rckSelectSpec_kept <| keptAll_nil

theorem commandSpecs4_kept : KeptAll commandSpecs4 :=
  keptAll_cons rckStatusSpec_kept <| keptAll_cons sequencerStatusSpec_kept <| keptAll_cons txCountersReadSpec_kept <|
  keptAll_cons linkNetworkSetSpec_kept <| keptAll_cons linkNetworkStatusSpec_kept <|
  keptAll_cons linkEpochAdvanceSpec_kept <| keptAll_cons linkSeenSetSpec_kept <| keptAll_cons iphcContextSetSpec_kept <|
  keptAll_cons replayStateReadSpec_kept <| keptAll_cons keyCacheFlushSpec_kept <|
  keptAll_cons cryptoEngineRestartSpec_kept <| keptAll_cons imageLoadSpec_kept <| keptAll_cons imageStartSpec_kept <|
  keptAll_cons imageStopSpec_kept <| keptAll_cons imageStatusSpec_kept <| keptAll_cons linkCountersReadSpec_kept <|
  keptAll_cons scheduleSetSpec_kept <| keptAll_cons scheduleStatusSpec_kept <| keptAll_cons slotframeSetSpec_kept <|
  keptAll_cons hopseqSetSpec_kept <| keptAll_cons cellWriteSpec_kept <| keptAll_cons cellReadSpec_kept <|
  keptAll_cons guardClassSetSpec_kept <| keptAll_cons rendezvousSetSpec_kept <| keptAll_nil

theorem commandSpecs5_kept : KeptAll commandSpecs5 :=
  keptAll_cons rendezvousReadSpec_kept <| keptAll_cons downlinkPurgeSpec_kept <| keptAll_cons subbandSetSpec_kept <|
  keptAll_cons ledgerReadSpec_kept <| keptAll_cons ledgerLoadSpec_kept <| keptAll_cons shaperSubscriberSetSpec_kept <|
  keptAll_cons shaperServiceSetSpec_kept <| keptAll_cons shaperPortSetSpec_kept <| keptAll_cons shaperReadSpec_kept <|
  keptAll_cons txRecordSetSpec_kept <| keptAll_cons shortfallReadSpec_kept <| keptAll_cons schedCountersReadSpec_kept <|
  keptAll_cons prefixInsertSpec_kept <| keptAll_cons prefixDeleteSpec_kept <| keptAll_cons prefixSearchSpec_kept <|
  keptAll_cons prefixNextSpec_kept <| keptAll_cons nodeInsertSpec_kept <| keptAll_cons nodeDeleteSpec_kept <|
  keptAll_cons nodeReadSpec_kept <| keptAll_cons nodeUpdateSpec_kept <| keptAll_cons nodeNextSpec_kept <|
  keptAll_cons flushByPortSpec_kept <| keptAll_cons nodeHomeMoveSpec_kept <| keptAll_cons fwdTenantSetSpec_kept <|
  keptAll_nil

theorem commandSpecs6_kept : KeptAll commandSpecs6 :=
  keptAll_cons fwdFloodSetSpec_kept <| keptAll_cons fwdStatusSpec_kept <| keptAll_cons fwdCountersReadSpec_kept <|
  keptAll_cons bhPortSetSpec_kept <| keptAll_cons bhFilterSetSpec_kept <| keptAll_cons bhVlanSetSpec_kept <|
  keptAll_cons bhEgressSetSpec_kept <| keptAll_cons bhStatusSpec_kept <| keptAll_cons bhCountersReadSpec_kept <|
  keptAll_cons herdLinkSetSpec_kept <| keptAll_cons herdRouteSetSpec_kept <| keptAll_cons herdLinkStatusSpec_kept <|
  keptAll_cons herdCountersReadSpec_kept <| keptAll_cons apertureSetSpec_kept <| keptAll_cons dmaEngineSetSpec_kept <|
  keptAll_cons dmaEngineStopSpec_kept <| keptAll_cons dmaStatusSpec_kept <| keptAll_cons pcieStatusSpec_kept <|
  keptAll_cons tbSelectSpec_kept <| keptAll_cons timeStatusReadSpec_kept <| keptAll_cons ptpSetSpec_kept <|
  keptAll_cons tbRearmSpec_kept <| keptAll_cons tb4LoadSpec_kept <| keptAll_cons ppsSetSpec_kept <| keptAll_nil

theorem commandSpecs7_kept : KeptAll commandSpecs7 :=
  keptAll_cons ppsTodSetSpec_kept <| keptAll_cons tcSetSpec_kept <| keptAll_cons herdTimeSetSpec_kept <|
  keptAll_cons surveyRunSpec_kept <| keptAll_cons surveyReadSpec_kept <| keptAll_cons timeCountersReadSpec_kept <|
  keptAll_cons herdIdSetSpec_kept <| keptAll_cons herdMembersSetSpec_kept <| keptAll_cons herdStatusSpec_kept <|
  keptAll_cons herdLeaveSpec_kept <| keptAll_cons foreignSetSpec_kept <| keptAll_cons tandemFormSpec_kept <|
  keptAll_cons tandemDissolveSpec_kept <| keptAll_cons tandemStatusSpec_kept <| keptAll_cons reinsHandoverSpec_kept <|
  keptAll_cons tandemResyncSpec_kept <| keptAll_cons bridleStatusSpec_kept <|
  keptAll_cons tandemCountersReadSpec_kept <| keptAll_cons vaultStatusSpec_kept <| keptAll_cons slotGenerateSpec_kept <|
  keptAll_cons slotImportSpec_kept <| keptAll_cons slotRetireSpec_kept <| keptAll_cons slotInfoSpec_kept <|
  keptAll_cons attestSpec_kept <| keptAll_nil

theorem commandSpecs8_kept : KeptAll commandSpecs8 :=
  keptAll_cons brandCertReadSpec_kept <| keptAll_cons zoneNextSetSpec_kept <| keptAll_cons maskSetSpec_kept <|
  keptAll_cons tamperSetSpec_kept <| keptAll_cons tamperStatusSpec_kept <| keptAll_cons tamperClearSpec_kept <|
  keptAll_cons vaultZeroiseSpec_kept <| keptAll_cons fwBeginSpec_kept <| keptAll_cons fwBlockWriteSpec_kept <|
  keptAll_cons fwStatusSpec_kept <| keptAll_cons fwChainSetSpec_kept <| keptAll_cons fwChainResumeSpec_kept <|
  keptAll_cons fwActivateSpec_kept <| keptAll_cons fwPolicySetSpec_kept <| keptAll_cons tackSaveSpec_kept <|
  keptAll_cons tackRevertSpec_kept <| keptAll_cons tackStatusSpec_kept <| keptAll_cons tackLockSpec_kept <|
  keptAll_cons flashReadSpec_kept <| keptAll_cons flashProgramSpec_kept <| keptAll_cons flashEraseSpec_kept <|
  keptAll_cons flashStatusSpec_kept <| keptAll_nil

theorem commandSpecs_kept : KeptAll commandSpecs :=
  keptAll_append (keptAll_append (keptAll_append (keptAll_append (keptAll_append (keptAll_append (keptAll_append
    commandSpecs1_kept commandSpecs2_kept) commandSpecs3_kept) commandSpecs4_kept) commandSpecs5_kept) commandSpecs6_kept)
    commandSpecs7_kept) commandSpecs8_kept

theorem specOf_kept {a} : KeptSpec (specOf a) := by
  unfold specOf
  cases e : commandSpecs.find? (fun v => v.op = a) with
  | none => exact undefinedSpec_kept
  | some v => exact commandSpecs_kept v (List.mem_of_find?_eq_some e)

theorem execHerdCommand_kept {s0 s : State} {a b c} (h : Kept s0 s) : KeptOut s0 (execHerdCommand a b c s) := by
  unfold execHerdCommand
  repeat'
    first | with_reducible assumption | with_reducible apply mirrorHerd_kept | with_reducible apply startCommand_kept |
      with_reducible exact specOf_kept | with_reducible apply keptOut_next | dsimp only

theorem startWaiting_kept {s0 s : State} {a} (h : Kept s0 s) : Kept s0 (startWaiting a s) := by
  unfold startWaiting
  repeat'
    first | with_reducible assumption | with_reducible apply endStart_kept | with_reducible apply dispatchCommand_kept |
      with_reducible exact specOf_kept | with_reducible apply takeWaiting_kept | with_reducible apply startCommand_kept |
      dsimp only | split

theorem takeHerdIn_kept {s0 s : State} {a} (h : Kept s0 s) : KeptOut s0 (takeHerdIn a s) := by
  unfold takeHerdIn
  repeat'
    first | with_reducible assumption | with_reducible apply execHerdCommand_kept | with_reducible apply execHerdReply_kept |
      with_reducible apply execSemaphoreRequest_kept | with_reducible apply execForwardedFrame_kept |
      with_reducible apply execHomeAck_kept | with_reducible apply execCombiningReport_kept |
      with_reducible apply execCutNotice_kept | with_reducible apply execRendezvousCandidate_kept |
      with_reducible apply execCandidateOutcome_kept | with_reducible apply execForwardedPacket_kept |
      with_reducible apply execFloodCopy_kept | with_reducible apply execHomeSwitch_kept |
      with_reducible apply execMembershipMessage_kept | with_reducible apply execHerdTimeMessage_kept |
      with_reducible apply execSurveyProbe_kept | with_reducible apply execFwChainBlock_kept |
      with_reducible apply execFwChainAck_kept | dsimp only | split

theorem applyMirrored_kept {s0 s : State} {a} (h : Kept s0 s) : KeptOut s0 (applyMirrored a s) := by
  unfold applyMirrored
  repeat'
    first | with_reducible assumption | with_reducible apply startCommand_kept | with_reducible exact specOf_kept |
      with_reducible apply takeMirrored_kept | with_reducible apply execBlankAssert_kept |
      with_reducible apply execBlankRelease_kept | with_reducible apply execPpsInEdge_kept |
      with_reducible apply execGtCapEdge_kept | with_reducible apply setPolicy_kept | with_reducible apply setVote_kept |
      with_reducible apply takeHerdIn_kept | with_reducible apply kept_ite | with_reducible apply keptOut_ite |
      with_reducible apply keptOut_next | dsimp only | split | with_reducible refine kept_mk ?_ rfl rfl rfl rfl rfl rfl

theorem settleMirrored_kept {s0 s : State} {a} (h : Kept s0 s) : Kept s0 (settleMirrored a s) := by
  unfold settleMirrored
  cases e : applyMirrored a s with
  | next t => exact applyMirrored_kept h t e
  | fault _ => exact h
  | refused _ => exact h

theorem resolveMirrored_kept {s0 s : State} (h : Kept s0 s) : Kept s0 (resolveMirrored s) := by
  unfold resolveMirrored
  repeat'
    first | with_reducible assumption | with_reducible apply settleMirrored_kept |
      with_reducible refine kept_foldl ?_ fun _ _ _ => ?_ | dsimp only |
      with_reducible refine kept_mk ?_ rfl rfl rfl rfl rfl rfl

theorem execMirroredInput_kept {s0 s : State} {a b c} (h : Kept s0 s) : KeptOut s0 (execMirroredInput a b c s) := by
  unfold execMirroredInput
  repeat'
    first | with_reducible assumption | with_reducible apply keptOut_next | dsimp only | split |
      with_reducible refine kept_mk ?_ rfl rfl rfl rfl rfl rfl

end Sys2Proof.Laws
end

