-- ==== Sys2Proof/Laws/KeptDispatch.lean ====
section
/-! SUPPORT. What the operations of Machine/Dispatch.lean keep. -/

namespace Sys2Proof.Laws

open Sys2Proof.Machine Sys2Proof.Safety

set_option linter.unusedTactic false
set_option linter.unreachableTactic false

/-- Every command keeps the invariant, the queue and the serial number. -/
theorem exec_kept {s0 s : State} (h : Kept s0 s) : ∀ i, KeptOut s0 (exec i s)
  | .nop _ => execNop_kept h
  | .getIdentity _ => execGetIdentity_kept h
  | .abortCommand _ => execAbortCommand_kept h
  | .getCommandState _ => execGetCommandState_kept h
  | .resetDevice _ => execResetDevice_kept h
  | .deviceResetInstant => execDeviceResetInstant_kept h
  | .queueConfigure _ => execQueueConfigure_kept h
  | .queueReset _ => execQueueReset_kept h
  | .queueStatus _ => execQueueStatus_kept h
  | .spillStatus _ => execSpillStatus_kept h
  | .soundnessReport _ => execSoundnessReport_kept h
  | .selfTestRun _ => execSelfTestRun_kept h
  | .troubleLogRead _ => execTroubleLogRead_kept h
  | .troubleLogClear _ => execTroubleLogClear_kept h
  | .undefinedOpcode _ _ => execUndefinedOpcode_kept h
  | .cmdMalformed _ _ => execCmdMalformed_kept h
  | .replyRelease _ => execReplyRelease_kept h
  | .herdCommand _ _ _ => execHerdCommand_kept h
  | .herdReply _ => execHerdReply_kept h
  | .push _ _ => execPush_kept h
  | .pushLast _ _ => execPushLast_kept h
  | .pop _ => execPop_kept h
  | .arm _ _ => execArm_kept h
  | .dropRest _ _ => execDropRest_kept h
  | .ctrlReset _ _ => execCtrlReset_kept h
  | .consumerBinding _ _ => execConsumerBinding_kept h
  | .queuePointerMismatch _ => execQueuePointerMismatch_kept h
  | .semAcq _ _ => execSemAcq_kept h
  | .semRel _ _ _ => execSemRel_kept h
  | .semaphoreRequest _ _ _ => execSemaphoreRequest_kept h
  | .doorbell _ _ => execDoorbell_kept h
  | .registerWrite _ _ _ => execRegisterWrite_kept h
  | .unsupportedRequest _ _ _ => execUnsupportedRequest_kept h
  | .bar2Write _ _ => execBar2Write_kept h
  | .modeSet _ => execModeSet_kept h
  | .modeStatus _ => execModeStatus_kept h
  | .grazeSet _ => execGrazeSet_kept h
  | .grazeSenseSet _ => execGrazeSenseSet_kept h
  | .stallSet _ => execStallSet_kept h
  | .powerStatus _ => execPowerStatus_kept h
  | .powerCountersRead _ => execPowerCountersRead_kept h
  | .plainConfigure _ => execPlainConfigure_kept h
  | .plainDisable _ => execPlainDisable_kept h
  | .plainStatus _ => execPlainStatus_kept h
  | .chainEnable _ => execChainEnable_kept h
  | .syncSet _ => execSyncSet_kept h
  | .searchSet _ => execSearchSet_kept h
  | .detectSet _ => execDetectSet_kept h
  | .trackCapSet _ => execTrackCapSet_kept h
  | .recordSet _ => execRecordSet_kept h
  | .linkCalibrate _ => execLinkCalibrate_kept h
  | .portLatencySet _ => execPortLatencySet_kept h
  | .portStatus _ => execPortStatus_kept h
  | .sysrefSet _ => execSysrefSet_kept h
  | .lanePolaritySet _ => execLanePolaritySet_kept h
  | .gainSet _ => execGainSet_kept h
  | .gainGet _ => execGainGet_kept h
  | .levelSet _ => execLevelSet_kept h
  | .beamWeightsWrite _ => execBeamWeightsWrite_kept h
  | .beamTableActivate _ => execBeamTableActivate_kept h
  | .beamWeightsRead _ => execBeamWeightsRead_kept h
  | .beamEnable _ => execBeamEnable_kept h
  | .paddockWithdraw _ => execPaddockWithdraw_kept h
  | .paddockRestore _ => execPaddockRestore_kept h
  | .fabricStatus _ => execFabricStatus_kept h
  | .rxCountersRead _ => execRxCountersRead_kept h
  | .cutSet _ => execCutSet_kept h
  | .cutStatus _ => execCutStatus_kept h
  | .cutRetry _ => execCutRetry_kept h
  | .storeStatus _ => execStoreStatus_kept h
  | .spanMarksRead _ => execSpanMarksRead_kept h
  | .cutEngineRestart _ => execCutEngineRestart_kept h
  | .combineSet _ => execCombineSet_kept h
  | .combineStatus _ => execCombineStatus_kept h
  | .cutCountersRead _ => execCutCountersRead_kept h
  | .combineCountersRead _ => execCombineCountersRead_kept h
  | .radioSpiSet _ => execRadioSpiSet_kept h
  | .radioScriptRun _ => execRadioScriptRun_kept h
  | .calWrite _ => execCalWrite_kept h
  | .calRead _ => execCalRead_kept h
  | .plainTune _ => execPlainTune_kept h
  | .gainScriptSet _ => execGainScriptSet_kept h
  | .returnSet _ => execReturnSet_kept h
  | .txPortSet _ => execTxPortSet_kept h
  | .txPlainSet _ => execTxPlainSet_kept h
  | .txDefaultsSet _ => execTxDefaultsSet_kept h
  | .txBeamWeightsWrite _ => execTxBeamWeightsWrite_kept h
  | .txBeamTableActivate _ => execTxBeamTableActivate_kept h
  | .txBeamWeightsRead _ => execTxBeamWeightsRead_kept h
  | .coexSet _ => execCoexSet_kept h
  | .coexStatus _ => execCoexStatus_kept h
  | .rckStore _ => execRckStore_kept h
  | .rckSelect _ => execRckSelect_kept h
  | .rckStatus _ => execRckStatus_kept h
  | .sequencerStatus _ => execSequencerStatus_kept h
  | .txCountersRead _ => execTxCountersRead_kept h
  | .linkNetworkSet _ => execLinkNetworkSet_kept h
  | .linkNetworkStatus _ => execLinkNetworkStatus_kept h
  | .linkEpochAdvance _ => execLinkEpochAdvance_kept h
  | .linkSeenSet _ => execLinkSeenSet_kept h
  | .iphcContextSet _ => execIphcContextSet_kept h
  | .replayStateRead _ => execReplayStateRead_kept h
  | .keyCacheFlush _ => execKeyCacheFlush_kept h
  | .cryptoEngineRestart _ => execCryptoEngineRestart_kept h
  | .imageLoad _ => execImageLoad_kept h
  | .imageStart _ => execImageStart_kept h
  | .imageStop _ => execImageStop_kept h
  | .imageStatus _ => execImageStatus_kept h
  | .linkCountersRead _ => execLinkCountersRead_kept h
  | .scheduleSet _ => execScheduleSet_kept h
  | .scheduleStatus _ => execScheduleStatus_kept h
  | .slotframeSet _ => execSlotframeSet_kept h
  | .hopseqSet _ => execHopseqSet_kept h
  | .cellWrite _ => execCellWrite_kept h
  | .cellRead _ => execCellRead_kept h
  | .guardClassSet _ => execGuardClassSet_kept h
  | .rendezvousSet _ => execRendezvousSet_kept h
  | .rendezvousRead _ => execRendezvousRead_kept h
  | .downlinkPurge _ => execDownlinkPurge_kept h
  | .subbandSet _ => execSubbandSet_kept h
  | .ledgerRead _ => execLedgerRead_kept h
  | .ledgerLoad _ => execLedgerLoad_kept h
  | .shaperSubscriberSet _ => execShaperSubscriberSet_kept h
  | .shaperServiceSet _ => execShaperServiceSet_kept h
  | .shaperPortSet _ => execShaperPortSet_kept h
  | .shaperRead _ => execShaperRead_kept h
  | .txRecordSet _ => execTxRecordSet_kept h
  | .shortfallRead _ => execShortfallRead_kept h
  | .schedCountersRead _ => execSchedCountersRead_kept h
  | .prefixInsert _ => execPrefixInsert_kept h
  | .prefixDelete _ => execPrefixDelete_kept h
  | .prefixSearch _ => execPrefixSearch_kept h
  | .prefixNext _ => execPrefixNext_kept h
  | .nodeInsert _ => execNodeInsert_kept h
  | .nodeDelete _ => execNodeDelete_kept h
  | .nodeRead _ => execNodeRead_kept h
  | .nodeUpdate _ => execNodeUpdate_kept h
  | .nodeNext _ => execNodeNext_kept h
  | .flushByPort _ => execFlushByPort_kept h
  | .nodeHomeMove _ => execNodeHomeMove_kept h
  | .homeSwitch _ => execHomeSwitch_kept h
  | .fwdTenantSet _ => execFwdTenantSet_kept h
  | .fwdFloodSet _ => execFwdFloodSet_kept h
  | .fwdStatus _ => execFwdStatus_kept h
  | .fwdCountersRead _ => execFwdCountersRead_kept h
  | .bhPortSet _ => execBhPortSet_kept h
  | .bhFilterSet _ => execBhFilterSet_kept h
  | .bhVlanSet _ => execBhVlanSet_kept h
  | .bhEgressSet _ => execBhEgressSet_kept h
  | .bhStatus _ => execBhStatus_kept h
  | .bhCountersRead _ => execBhCountersRead_kept h
  | .herdLinkSet _ => execHerdLinkSet_kept h
  | .herdRouteSet _ => execHerdRouteSet_kept h
  | .herdLinkStatus _ => execHerdLinkStatus_kept h
  | .herdCountersRead _ => execHerdCountersRead_kept h
  | .apertureSet _ => execApertureSet_kept h
  | .dmaEngineSet _ => execDmaEngineSet_kept h
  | .dmaEngineStop _ => execDmaEngineStop_kept h
  | .dmaStatus _ => execDmaStatus_kept h
  | .pcieStatus _ => execPcieStatus_kept h
  | .tbSelect _ => execTbSelect_kept h
  | .timeStatusRead _ => execTimeStatusRead_kept h
  | .ptpSet _ => execPtpSet_kept h
  | .tbRearm _ => execTbRearm_kept h
  | .tb4Load _ => execTb4Load_kept h
  | .ppsSet _ => execPpsSet_kept h
  | .ppsTodSet _ => execPpsTodSet_kept h
  | .tcSet _ => execTcSet_kept h
  | .herdTimeSet _ => execHerdTimeSet_kept h
  | .surveyRun _ => execSurveyRun_kept h
  | .surveyRead _ => execSurveyRead_kept h
  | .timeCountersRead _ => execTimeCountersRead_kept h
  | .herdIdSet _ => execHerdIdSet_kept h
  | .herdMembersSet _ => execHerdMembersSet_kept h
  | .herdStatus _ => execHerdStatus_kept h
  | .herdLeave _ => execHerdLeave_kept h
  | .foreignSet _ => execForeignSet_kept h
  | .tandemForm _ => execTandemForm_kept h
  | .tandemDissolve _ => execTandemDissolve_kept h
  | .tandemStatus _ => execTandemStatus_kept h
  | .reinsHandover _ => execReinsHandover_kept h
  | .tandemResync _ => execTandemResync_kept h
  | .bridleStatus _ => execBridleStatus_kept h
  | .tandemCountersRead _ => execTandemCountersRead_kept h
  | .vaultStatus _ => execVaultStatus_kept h
  | .slotGenerate _ => execSlotGenerate_kept h
  | .slotImport _ => execSlotImport_kept h
  | .slotRetire _ => execSlotRetire_kept h
  | .slotInfo _ => execSlotInfo_kept h
  | .attest _ => execAttest_kept h
  | .brandCertRead _ => execBrandCertRead_kept h
  | .zoneNextSet _ => execZoneNextSet_kept h
  | .maskSet _ => execMaskSet_kept h
  | .tamperSet _ => execTamperSet_kept h
  | .tamperStatus _ => execTamperStatus_kept h
  | .tamperClear _ => execTamperClear_kept h
  | .vaultZeroise _ => execVaultZeroise_kept h
  | .fwBegin _ => execFwBegin_kept h
  | .fwBlockWrite _ => execFwBlockWrite_kept h
  | .fwStatus _ => execFwStatus_kept h
  | .fwChainSet _ => execFwChainSet_kept h
  | .fwChainResume _ => execFwChainResume_kept h
  | .fwActivate _ => execFwActivate_kept h
  | .fwPolicySet _ => execFwPolicySet_kept h
  | .tackSave _ => execTackSave_kept h
  | .tackRevert _ => execTackRevert_kept h
  | .tackStatus _ => execTackStatus_kept h
  | .tackLock _ => execTackLock_kept h
  | .flashRead _ => execFlashRead_kept h
  | .flashProgram _ => execFlashProgram_kept h
  | .flashErase _ => execFlashErase_kept h
  | .flashStatus _ => execFlashStatus_kept h
  | .flashOperationComplete _ => execFlashOperationComplete_kept h
  | .flashSectorReerase _ => execFlashSectorReerase_kept h
  | .saddle _ => execSaddle_kept h
  | .refinDetected _ => execRefinDetected_kept h
  | .resetNFall _ _ => execResetNFall_kept h
  | .powerFail _ => execPowerFail_kept h
  | .vinSurge => execVinSurge_kept h
  | .railFault _ => execRailFault_kept h
  | .thermalWarn => execThermalWarn_kept h
  | .vbatLow => execVbatLow_kept h
  | .clkLoss => execClkLoss_kept h
  | .datapathRestart => execDatapathRestart_kept h
  | .serdesUnlock => execSerdesUnlock_kept h
  | .dramPllUnlock => execDramPllUnlock_kept h
  | .dramUe _ => execDramUe_kept h
  | .dramScrub _ _ => execDramScrub_kept h
  | .rendezvousIndexRebuild _ => execRendezvousIndexRebuild_kept h
  | .sramParity => execSramParity_kept h
  | .laneLoss _ => execLaneLoss_kept h
  | .laneRelink _ _ => execLaneRelink_kept h
  | .txLaneFault _ => execTxLaneFault_kept h
  | .sysrefFault _ => execSysrefFault_kept h
  | .rckUnlock _ => execRckUnlock_kept h
  | .rckRelock _ => execRckRelock_kept h
  | .detection _ => execDetection_kept h
  | .preambleTimeout _ => execPreambleTimeout_kept h
  | .syncDecision _ _ _ _ => execSyncDecision_kept h
  | .headerResult _ _ => execHeaderResult_kept h
  | .pilot _ _ _ => execPilot_kept h
  | .trackLastSymbol _ _ => execTrackLastSymbol_kept h
  | .decoderQueueEntry => execDecoderQueueEntry_kept h
  | .decoderResult _ => execDecoderResult_kept h
  | .decoderSelfCheck _ => execDecoderSelfCheck_kept h
  | .levelReport _ _ => execLevelReport_kept h
  | .withdrawalDrainComplete _ _ => execWithdrawalDrainComplete_kept h
  | .withdrawalDrainTimeout _ _ => execWithdrawalDrainTimeout_kept h
  | .beamTableSwap _ _ => execBeamTableSwap_kept h
  | .beamParityError _ _ _ => execBeamParityError_kept h
  | .portScriptStart _ => execPortScriptStart_kept h
  | .portScriptComplete _ _ _ => execPortScriptComplete_kept h
  | .cutJobDispatch => execCutJobDispatch_kept h
  | .cutSubtractionStart _ => execCutSubtractionStart_kept h
  | .cutSubtractionEnd _ _ => execCutSubtractionEnd_kept h
  | .residueDetection _ _ _ => execResidueDetection_kept h
  | .cutJobComplete _ => execCutJobComplete_kept h
  | .cutJobExpired _ _ => execCutJobExpired_kept h
  | .cutEngineFaultRestart => execCutEngineFaultRestart_kept h
  | .cutJobRelease _ => execCutJobRelease_kept h
  | .combiningReport _ _ => execCombiningReport_kept h
  | .combineDecodeResult _ _ => execCombineDecodeResult_kept h
  | .combineWindowExpiry _ => execCombineWindowExpiry_kept h
  | .cutNotice _ => execCutNotice_kept h
  | .linkEngineFrame => execLinkEngineFrame_kept h
  | .forwardedFrame _ _ => execForwardedFrame_kept h
  | .homeAck _ => execHomeAck_kept h
  | .seenCacheAge _ _ => execSeenCacheAge_kept h
  | .epochOverlapEnd _ => execEpochOverlapEnd_kept h
  | .cryptoEngineFaultRestart => execCryptoEngineFaultRestart_kept h
  | .imageRoundComplete _ => execImageRoundComplete_kept h
  | .reportWaitExpiry _ => execReportWaitExpiry_kept h
  | .slotBoundary => execSlotBoundary_kept h
  | .cellSelection _ _ => execCellSelection_kept h
  | .rendezvousCandidatePass _ _ _ => execRendezvousCandidatePass_kept h
  | .rendezvousCandidate _ => execRendezvousCandidate_kept h
  | .candidateOutcome _ => execCandidateOutcome_kept h
  | .frameBuild _ => execFrameBuild_kept h
  | .coxRequestRise _ _ _ => execCoxRequestRise_kept h
  | .coxGrantJudged _ _ => execCoxGrantJudged_kept h
  | .prep _ _ => execPrep_kept h
  | .txSwitchOn _ => execTxSwitchOn_kept h
  | .paenAssert _ => execPaenAssert_kept h
  | .firstSampleRelease _ _ => execFirstSampleRelease_kept h
  | .txUnderrun _ => execTxUnderrun_kept h
  | .transmissionEnd _ => execTransmissionEnd_kept h
  | .paenRelease _ => execPaenRelease_kept h
  | .returnRx _ => execReturnRx_kept h
  | .ownTransmissionSpanEnd _ => execOwnTransmissionSpanEnd_kept h
  | .blankAssert _ => execBlankAssert_kept h
  | .blankRelease _ => execBlankRelease_kept h
  | .dlLifetimeExpiry _ => execDlLifetimeExpiry_kept h
  | .ledgerSecond => execLedgerSecond_kept h
  | .shaperRefill => execShaperRefill_kept h
  | .bhFrameReceived _ _ => execBhFrameReceived_kept h
  | .forwardedPacket _ => execForwardedPacket_kept h
  | .floodCopy _ => execFloodCopy_kept h
  | .bhFrameTransmit _ => execBhFrameTransmit_kept h
  | .hostTxFrame _ => execHostTxFrame_kept h
  | .bhLinkDown _ => execBhLinkDown_kept h
  | .bhLinkUp _ => execBhLinkUp_kept h
  | .herdFlitReceived _ _ => execHerdFlitReceived_kept h
  | .herdFlitTransmit _ => execHerdFlitTransmit_kept h
  | .herdLinkUp _ _ _ => execHerdLinkUp_kept h
  | .herdReplayTimeout _ => execHerdReplayTimeout_kept h
  | .herdLinkDown _ => execHerdLinkDown_kept h
  | .herdMessageTimeout _ _ _ => execHerdMessageTimeout_kept h
  | .membershipSend => execMembershipSend_kept h
  | .membershipMessage _ _ => execMembershipMessage_kept h
  | .herdSplit => execHerdSplit_kept h
  | .herdHeal => execHerdHeal_kept h
  | .hostReset _ => execHostReset_kept h
  | .dmaPoll _ _ => execDmaPoll_kept h
  | .dmaD2hTransfer _ _ => execDmaD2hTransfer_kept h
  | .dmaHoldoffExpiry _ => execDmaHoldoffExpiry_kept h
  | .delayReqSend _ => execDelayReqSend_kept h
  | .tbStateChange _ _ => execTbStateChange_kept h
  | .revertDelayExpiry => execRevertDelayExpiry_kept h
  | .firstWaitExpiry => execFirstWaitExpiry_kept h
  | .ppsInEdge _ => execPpsInEdge_kept h
  | .ppsMissing => execPpsMissing_kept h
  | .ppsOutPulse => execPpsOutPulse_kept h
  | .herdTimeSend => execHerdTimeSend_kept h
  | .herdTimeMessage _ _ _ => execHerdTimeMessage_kept h
  | .surveyProbe _ => execSurveyProbe_kept h
  | .sleepCalibration _ => execSleepCalibration_kept h
  | .snap _ => execSnap_kept h
  | .tb4IncHi _ => execTb4IncHi_kept h
  | .gtMatch _ => execGtMatch_kept h
  | .gtCapEdge _ _ => execGtCapEdge_kept h
  | .gtClear _ _ => execGtClear_kept h
  | .gtCountWrite _ _ => execGtCountWrite_kept h
  | .gtCompareWrite _ _ => execGtCompareWrite_kept h
  | .gtCaptureRead _ => execGtCaptureRead_kept h
  | .pdVoteWrite _ _ => execPdVoteWrite_kept h
  | .domainIdleGate _ _ => execDomainIdleGate_kept h
  | .domainUngate _ _ => execDomainUngate_kept h
  | .modeEntryDrainComplete => execModeEntryDrainComplete_kept h
  | .grazeSenseCycle _ => execGrazeSenseCycle_kept h
  | .grazeSenseDecision _ _ => execGrazeSenseDecision_kept h
  | .grazeScheduledWake _ => execGrazeScheduledWake_kept h
  | .grazeAutoEntry => execGrazeAutoEntry_kept h
  | .stallWake _ => execStallWake_kept h
  | .mirroredInput a b _ => execMirroredInput_kept (a := a) (b := b) h
  | .slotDigest _ _ => execSlotDigest_kept h
  | .digestMissing => execDigestMissing_kept h
  | .reinsRenewalSend => execReinsRenewalSend_kept h
  | .reinsRenewal _ _ => execReinsRenewal_kept h
  | .reinsRelease _ => execReinsRelease_kept h
  | .revertRequest _ => execRevertRequest_kept h
  | .handoverGrant _ => execHandoverGrant_kept h
  | .alignmentMarker _ _ => execAlignmentMarker_kept h
  | .handoverInstant => execHandoverInstant_kept h
  | .leaseEndHolder => execLeaseEndHolder_kept h
  | .silentTakeover => execSilentTakeover_kept h
  | .reinsLost _ => execReinsLost_kept h
  | .revertHoldExpiry => execRevertHoldExpiry_kept h
  | .bridleVote _ _ => execBridleVote_kept h
  | .bridleCheckpoint _ => execBridleCheckpoint_kept h
  | .bridleMajorityLoss => execBridleMajorityLoss_kept h
  | .bridleRestartComplete => execBridleRestartComplete_kept h
  | .tamperTrip _ => execTamperTrip_kept h
  | .vaultRemask => execVaultRemask_kept h
  | .fwChainBlock _ => execFwChainBlock_kept h
  | .fwChainAck _ _ _ => execFwChainAck_kept h
  | .fwChainAckTimeout => execFwChainAckTimeout_kept h
  | .activationPauseEnd => execActivationPauseEnd_kept h
  | .activationTimeout => execActivationTimeout_kept h
  | .activationFirmwareUp _ => execActivationFirmwareUp_kept h
  | .tamperSensorInRange _ => execTamperSensorInRange_kept h
  | .rckHopLock _ _ => execRckHopLock_kept h
  | .ringOverwrite _ _ => execRingOverwrite_kept h
  | .nodeCacheWriteBack _ => execNodeCacheWriteBack_kept h
  | .jtagInstruction _ => execJtagInstruction_kept h
  | .upDownTurningPoint _ => execUpDownTurningPoint_kept h

end Sys2Proof.Laws
end

