-- ==== Sys2Proof/Laws/KeptTxWave.lean ====
section
/-! SUPPORT. What the operations of Machine/TxWave.lean keep. -/

namespace Sys2Proof.Laws

open Sys2Proof.Machine Sys2Proof.Safety

set_option linter.unusedTactic false
set_option linter.unreachableTactic false

theorem countTxSamples_kept {s0 s : State} (h : Kept s0 s) : Kept s0 (countTxSamples s) := by
  unfold countTxSamples
  repeat'
    first | with_reducible assumption | with_reducible apply countTx_kept | with_reducible apply kept_ite |
      with_reducible refine kept_foldl ?_ fun _ _ _ => ?_ | dsimp only | split

end Sys2Proof.Laws
end

