-- ==== Sys2Proof/Laws/KeptInstant.lean ====
section
/-! SUPPORT. What the operations of Machine/Instant.lean keep. -/

namespace Sys2Proof.Laws

open Sys2Proof.Machine Sys2Proof.Safety

set_option linter.unusedTactic false
set_option linter.unreachableTactic false

theorem endInstant_kept {s0 s : State} (h : Kept s0 s) : Kept s0 (endInstant s) := by
  unfold endInstant
  repeat'
    first | with_reducible assumption | with_reducible apply noteVotes_kept | with_reducible apply countTxSamples_kept |
      with_reducible apply countBeams_kept | with_reducible apply resolveReports_kept |
      with_reducible apply resolveDetections_kept | with_reducible apply resolveRequests_kept |
      with_reducible apply resolveMirrored_kept | dsimp only

end Sys2Proof.Laws
end

