-- ==== Sys2Proof/Laws/KeptStep.lean ====
section
/-! SUPPORT. What the operations of Machine/Step.lean keep. -/

namespace Sys2Proof.Laws

open Sys2Proof.Machine Sys2Proof.Safety

set_option linter.unusedTactic false
set_option linter.unreachableTactic false

theorem idle_kept {s0 s : State} (h : Kept s0 s) : Kept s0 (idle s) := by
  unfold idle
  split
  · exact startWaiting_kept h
  · exact tick_kept (endInstant_kept h)

end Sys2Proof.Laws
end

