-- ==== Sys2Proof/Laws/KeptHostRead.lean ====
section
/-! SUPPORT. What the operations of Machine/HostRead.lean keep. -/

namespace Sys2Proof.Laws

open Sys2Proof.Machine Sys2Proof.Safety

set_option linter.unusedTactic false
set_option linter.unreachableTactic false

theorem afterRead_kept {s0 s : State} {a} (h : Kept s0 s) : Kept s0 (afterRead a s) := by
  unfold afterRead
  repeat'
    first | with_reducible assumption | with_reducible apply setSem_kept | with_reducible apply setGait_kept |
      with_reducible apply kept_ite | dsimp only | split | with_reducible refine kept_mk ?_ rfl rfl rfl rfl rfl rfl

theorem readBar0_kept {s0 s : State} {a b} (h : Kept s0 s) : Kept s0 (readBar0 a b s).2 := by
  unfold readBar0
  repeat'
    first | with_reducible assumption | with_reducible apply afterRead_kept | with_reducible apply hostPop_kept |
      with_reducible apply kept_ite | with_reducible apply kept_ite_snd | dsimp only | split |
      with_reducible refine kept_mk ?_ rfl rfl rfl rfl rfl rfl

end Sys2Proof.Laws
end

