-- ==== Sys2Proof/Laws/State.lean ====
section
/-! SUPPORT. The updates of State: for each the register it replaces, read back, and every part of the state that it leaves as it
was. -/

namespace Sys2Proof.Laws

open Sys2Proof.Machine

/-! ### setBand -/

@[simp] theorem band_setBand (s : State) (k : Nat) (v : Band) (j : Nat) : band (setBand s k v) j = if j = k then v else band s j := by
  simp [band, setBand, tabGet_tabSet]

@[simp] theorem tokens_setBand (s : State) (k : Nat) (v : Band) (j : Nat) : tokens (setBand s k v) j = tokens s j := rfl

@[simp] theorem setBand_cfg (s : State) (k : Nat) (v : Band) : (setBand s k v).cfg = s.cfg := rfl

@[simp] theorem setBand_dev (s : State) (k : Nat) (v : Band) : (setBand s k v).dev = s.dev := rfl

@[simp] theorem setBand_cmd (s : State) (k : Nat) (v : Band) : (setBand s k v).cmd = s.cmd := rfl

@[simp] theorem setBand_que (s : State) (k : Nat) (v : Band) : (setBand s k v).que = s.que := rfl

@[simp] theorem setBand_sem (s : State) (k : Nat) (v : Band) : (setBand s k v).sem = s.sem := rfl

@[simp] theorem setBand_semReq (s : State) (k : Nat) (v : Band) : (setBand s k v).semReq = s.semReq := rfl

@[simp] theorem setBand_trb (s : State) (k : Nat) (v : Band) : (setBand s k v).trb = s.trb := rfl

@[simp] theorem setBand_out (s : State) (k : Nat) (v : Band) : (setBand s k v).out = s.out := rfl

@[simp] theorem setBand_mem (s : State) (k : Nat) (v : Band) : (setBand s k v).mem = s.mem := rfl

@[simp] theorem setBand_rx (s : State) (k : Nat) (v : Band) : (setBand s k v).rx = s.rx := rfl

@[simp] theorem setBand_cut (s : State) (k : Nat) (v : Band) : (setBand s k v).cut = s.cut := rfl

@[simp] theorem setBand_comb (s : State) (k : Nat) (v : Band) : (setBand s k v).comb = s.comb := rfl

@[simp] theorem setBand_radio (s : State) (k : Nat) (v : Band) : (setBand s k v).radio = s.radio := rfl

@[simp] theorem setBand_link (s : State) (k : Nat) (v : Band) : (setBand s k v).link = s.link := rfl

@[simp] theorem setBand_sched (s : State) (k : Nat) (v : Band) : (setBand s k v).sched = s.sched := rfl

@[simp] theorem setBand_fwd (s : State) (k : Nat) (v : Band) : (setBand s k v).fwd = s.fwd := rfl

@[simp] theorem setBand_bh (s : State) (k : Nat) (v : Band) : (setBand s k v).bh = s.bh := rfl

@[simp] theorem setBand_herd (s : State) (k : Nat) (v : Band) : (setBand s k v).herd = s.herd := rfl

@[simp] theorem setBand_host (s : State) (k : Nat) (v : Band) : (setBand s k v).host = s.host := rfl

@[simp] theorem setBand_time (s : State) (k : Nat) (v : Band) : (setBand s k v).time = s.time := rfl

@[simp] theorem setBand_gait (s : State) (k : Nat) (v : Band) : (setBand s k v).gait = s.gait := rfl

@[simp] theorem setBand_tan (s : State) (k : Nat) (v : Band) : (setBand s k v).tan = s.tan := rfl

@[simp] theorem setBand_bri (s : State) (k : Nat) (v : Band) : (setBand s k v).bri = s.bri := rfl

@[simp] theorem setBand_vault (s : State) (k : Nat) (v : Band) : (setBand s k v).vault = s.vault := rfl

@[simp] theorem setBand_pwr (s : State) (k : Nat) (v : Band) : (setBand s k v).pwr = s.pwr := rfl

@[simp] theorem setBand_fw (s : State) (k : Nat) (v : Band) : (setBand s k v).fw = s.fw := rfl

@[simp] theorem setBand_free (s : State) (k : Nat) (v : Band) : (setBand s k v).free = s.free := rfl

@[simp] theorem setBand_pending (s : State) (k : Nat) (v : Band) : (setBand s k v).pending = s.pending := rfl

/-! ### setBandCfg -/

@[simp] theorem bandCfg_setBandCfg (s : State) (k : Nat) (v : SubBand) (j : Nat) : bandCfg (setBandCfg s k v) j = if j = k then v else bandCfg s j := by
  simp [bandCfg, setBandCfg, tabGet_tabSet]

@[simp] theorem bhCfg_setBandCfg (s : State) (k : Nat) (v : SubBand) (j : Nat) : bhCfg (setBandCfg s k v) j = bhCfg s j := rfl

@[simp] theorem cellAt_setBandCfg (s : State) (k : Nat) (v : SubBand) (j : Nat) : cellAt (setBandCfg s k v) j = cellAt s j := rfl

@[simp] theorem chainCfg_setBandCfg (s : State) (k : Nat) (v : SubBand) (j : Nat) : chainCfg (setBandCfg s k v) j = chainCfg s j := rfl

@[simp] theorem cutCfg_setBandCfg (s : State) (k : Nat) (v : SubBand) (j : Nat) : cutCfg (setBandCfg s k v) j = cutCfg s j := rfl

@[simp] theorem floodSet_setBandCfg (s : State) (k : Nat) (v : SubBand) (j : Nat) : floodSet (setBandCfg s k v) j = floodSet s j := rfl

@[simp] theorem frameLen_setBandCfg (s : State) (k : Nat) (v : SubBand) (j : Nat) : frameLen (setBandCfg s k v) j = frameLen s j := rfl

@[simp] theorem guardOf_setBandCfg (s : State) (k : Nat) (v : SubBand) (j : Nat) : guardOf (setBandCfg s k v) j = guardOf s j := rfl

@[simp] theorem hopSeq_setBandCfg (s : State) (k : Nat) (v : SubBand) (j : Nat) : hopSeq (setBandCfg s k v) j = hopSeq s j := rfl

@[simp] theorem hostQueue_setBandCfg (s : State) (k : Nat) (v : SubBand) (j : Nat) : hostQueue (setBandCfg s k v) j = hostQueue s j := rfl

@[simp] theorem linkCfg_setBandCfg (s : State) (k : Nat) (v : SubBand) (j : Nat) : linkCfg (setBandCfg s k v) j = linkCfg s j := rfl

@[simp] theorem netCfg_setBandCfg (s : State) (k : Nat) (v : SubBand) (j : Nat) : netCfg (setBandCfg s k v) j = netCfg s j := rfl

@[simp] theorem plainCfg_setBandCfg (s : State) (k : Nat) (v : SubBand) (j : Nat) : plainCfg (setBandCfg s k v) j = plainCfg s j := rfl

@[simp] theorem portCfg_setBandCfg (s : State) (k : Nat) (v : SubBand) (j : Nat) : portCfg (setBandCfg s k v) j = portCfg s j := rfl

@[simp] theorem route_setBandCfg (s : State) (k : Nat) (v : SubBand) (j : Nat) : route (setBandCfg s k v) j = route s j := rfl

@[simp] theorem senseSet_setBandCfg (s : State) (k : Nat) (v : SubBand) (j : Nat) : senseSet (setBandCfg s k v) j = senseSet s j := rfl

@[simp] theorem shapeOf_setBandCfg (s : State) (k : Nat) (v : SubBand) (j : Nat) : shapeOf (setBandCfg s k v) j = shapeOf s j := rfl

@[simp] theorem txCfg_setBandCfg (s : State) (k : Nat) (v : SubBand) (j : Nat) : txCfg (setBandCfg s k v) j = txCfg s j := rfl

@[simp] theorem setBandCfg_dev (s : State) (k : Nat) (v : SubBand) : (setBandCfg s k v).dev = s.dev := rfl

@[simp] theorem setBandCfg_cmd (s : State) (k : Nat) (v : SubBand) : (setBandCfg s k v).cmd = s.cmd := rfl

@[simp] theorem setBandCfg_que (s : State) (k : Nat) (v : SubBand) : (setBandCfg s k v).que = s.que := rfl

@[simp] theorem setBandCfg_sem (s : State) (k : Nat) (v : SubBand) : (setBandCfg s k v).sem = s.sem := rfl

@[simp] theorem setBandCfg_semReq (s : State) (k : Nat) (v : SubBand) : (setBandCfg s k v).semReq = s.semReq := rfl

@[simp] theorem setBandCfg_trb (s : State) (k : Nat) (v : SubBand) : (setBandCfg s k v).trb = s.trb := rfl

@[simp] theorem setBandCfg_out (s : State) (k : Nat) (v : SubBand) : (setBandCfg s k v).out = s.out := rfl

@[simp] theorem setBandCfg_mem (s : State) (k : Nat) (v : SubBand) : (setBandCfg s k v).mem = s.mem := rfl

@[simp] theorem setBandCfg_rx (s : State) (k : Nat) (v : SubBand) : (setBandCfg s k v).rx = s.rx := rfl

@[simp] theorem setBandCfg_cut (s : State) (k : Nat) (v : SubBand) : (setBandCfg s k v).cut = s.cut := rfl

@[simp] theorem setBandCfg_comb (s : State) (k : Nat) (v : SubBand) : (setBandCfg s k v).comb = s.comb := rfl

@[simp] theorem setBandCfg_radio (s : State) (k : Nat) (v : SubBand) : (setBandCfg s k v).radio = s.radio := rfl

@[simp] theorem setBandCfg_link (s : State) (k : Nat) (v : SubBand) : (setBandCfg s k v).link = s.link := rfl

@[simp] theorem setBandCfg_sched (s : State) (k : Nat) (v : SubBand) : (setBandCfg s k v).sched = s.sched := rfl

@[simp] theorem setBandCfg_air (s : State) (k : Nat) (v : SubBand) : (setBandCfg s k v).air = s.air := rfl

@[simp] theorem setBandCfg_fwd (s : State) (k : Nat) (v : SubBand) : (setBandCfg s k v).fwd = s.fwd := rfl

@[simp] theorem setBandCfg_bh (s : State) (k : Nat) (v : SubBand) : (setBandCfg s k v).bh = s.bh := rfl

@[simp] theorem setBandCfg_herd (s : State) (k : Nat) (v : SubBand) : (setBandCfg s k v).herd = s.herd := rfl

@[simp] theorem setBandCfg_host (s : State) (k : Nat) (v : SubBand) : (setBandCfg s k v).host = s.host := rfl

@[simp] theorem setBandCfg_time (s : State) (k : Nat) (v : SubBand) : (setBandCfg s k v).time = s.time := rfl

@[simp] theorem setBandCfg_gait (s : State) (k : Nat) (v : SubBand) : (setBandCfg s k v).gait = s.gait := rfl

@[simp] theorem setBandCfg_tan (s : State) (k : Nat) (v : SubBand) : (setBandCfg s k v).tan = s.tan := rfl

@[simp] theorem setBandCfg_bri (s : State) (k : Nat) (v : SubBand) : (setBandCfg s k v).bri = s.bri := rfl

@[simp] theorem setBandCfg_vault (s : State) (k : Nat) (v : SubBand) : (setBandCfg s k v).vault = s.vault := rfl

@[simp] theorem setBandCfg_pwr (s : State) (k : Nat) (v : SubBand) : (setBandCfg s k v).pwr = s.pwr := rfl

@[simp] theorem setBandCfg_fw (s : State) (k : Nat) (v : SubBand) : (setBandCfg s k v).fw = s.fw := rfl

@[simp] theorem setBandCfg_free (s : State) (k : Nat) (v : SubBand) : (setBandCfg s k v).free = s.free := rfl

@[simp] theorem setBandCfg_pending (s : State) (k : Nat) (v : SubBand) : (setBandCfg s k v).pending = s.pending := rfl

/-! ### setBase -/

@[simp] theorem base_setBase (s : State) (n : Nat) (v : Base) (j : Nat) : base (setBase s n v) j = if j = n then v else base s j := by
  simp [base, setBase, tabGet_tabSet]

@[simp] theorem ptpRun_setBase (s : State) (n : Nat) (v : Base) (j : Nat) : ptpRun (setBase s n v) j = ptpRun s j := rfl

@[simp] theorem setBase_cfg (s : State) (n : Nat) (v : Base) : (setBase s n v).cfg = s.cfg := rfl

@[simp] theorem setBase_dev (s : State) (n : Nat) (v : Base) : (setBase s n v).dev = s.dev := rfl

@[simp] theorem setBase_cmd (s : State) (n : Nat) (v : Base) : (setBase s n v).cmd = s.cmd := rfl

@[simp] theorem setBase_que (s : State) (n : Nat) (v : Base) : (setBase s n v).que = s.que := rfl

@[simp] theorem setBase_sem (s : State) (n : Nat) (v : Base) : (setBase s n v).sem = s.sem := rfl

@[simp] theorem setBase_semReq (s : State) (n : Nat) (v : Base) : (setBase s n v).semReq = s.semReq := rfl

@[simp] theorem setBase_trb (s : State) (n : Nat) (v : Base) : (setBase s n v).trb = s.trb := rfl

@[simp] theorem setBase_out (s : State) (n : Nat) (v : Base) : (setBase s n v).out = s.out := rfl

@[simp] theorem setBase_mem (s : State) (n : Nat) (v : Base) : (setBase s n v).mem = s.mem := rfl

@[simp] theorem setBase_rx (s : State) (n : Nat) (v : Base) : (setBase s n v).rx = s.rx := rfl

@[simp] theorem setBase_cut (s : State) (n : Nat) (v : Base) : (setBase s n v).cut = s.cut := rfl

@[simp] theorem setBase_comb (s : State) (n : Nat) (v : Base) : (setBase s n v).comb = s.comb := rfl

@[simp] theorem setBase_radio (s : State) (n : Nat) (v : Base) : (setBase s n v).radio = s.radio := rfl

@[simp] theorem setBase_link (s : State) (n : Nat) (v : Base) : (setBase s n v).link = s.link := rfl

@[simp] theorem setBase_sched (s : State) (n : Nat) (v : Base) : (setBase s n v).sched = s.sched := rfl

@[simp] theorem setBase_air (s : State) (n : Nat) (v : Base) : (setBase s n v).air = s.air := rfl

@[simp] theorem setBase_fwd (s : State) (n : Nat) (v : Base) : (setBase s n v).fwd = s.fwd := rfl

@[simp] theorem setBase_bh (s : State) (n : Nat) (v : Base) : (setBase s n v).bh = s.bh := rfl

@[simp] theorem setBase_herd (s : State) (n : Nat) (v : Base) : (setBase s n v).herd = s.herd := rfl

@[simp] theorem setBase_host (s : State) (n : Nat) (v : Base) : (setBase s n v).host = s.host := rfl

@[simp] theorem setBase_gait (s : State) (n : Nat) (v : Base) : (setBase s n v).gait = s.gait := rfl

@[simp] theorem setBase_tan (s : State) (n : Nat) (v : Base) : (setBase s n v).tan = s.tan := rfl

@[simp] theorem setBase_bri (s : State) (n : Nat) (v : Base) : (setBase s n v).bri = s.bri := rfl

@[simp] theorem setBase_vault (s : State) (n : Nat) (v : Base) : (setBase s n v).vault = s.vault := rfl

@[simp] theorem setBase_pwr (s : State) (n : Nat) (v : Base) : (setBase s n v).pwr = s.pwr := rfl

@[simp] theorem setBase_fw (s : State) (n : Nat) (v : Base) : (setBase s n v).fw = s.fw := rfl

@[simp] theorem setBase_free (s : State) (n : Nat) (v : Base) : (setBase s n v).free = s.free := rfl

@[simp] theorem setBase_pending (s : State) (n : Nat) (v : Base) : (setBase s n v).pending = s.pending := rfl

/-! ### setBh -/

@[simp] theorem bhRun_setBh (s : State) (p : Nat) (v : BhPort) (j : Nat) : bhRun (setBh s p v) j = if j = p then v else bhRun s j := by
  simp [bhRun, setBh, tabGet_tabSet]

@[simp] theorem setBh_cfg (s : State) (p : Nat) (v : BhPort) : (setBh s p v).cfg = s.cfg := rfl

@[simp] theorem setBh_dev (s : State) (p : Nat) (v : BhPort) : (setBh s p v).dev = s.dev := rfl

@[simp] theorem setBh_cmd (s : State) (p : Nat) (v : BhPort) : (setBh s p v).cmd = s.cmd := rfl

@[simp] theorem setBh_que (s : State) (p : Nat) (v : BhPort) : (setBh s p v).que = s.que := rfl

@[simp] theorem setBh_sem (s : State) (p : Nat) (v : BhPort) : (setBh s p v).sem = s.sem := rfl

@[simp] theorem setBh_semReq (s : State) (p : Nat) (v : BhPort) : (setBh s p v).semReq = s.semReq := rfl

@[simp] theorem setBh_trb (s : State) (p : Nat) (v : BhPort) : (setBh s p v).trb = s.trb := rfl

@[simp] theorem setBh_out (s : State) (p : Nat) (v : BhPort) : (setBh s p v).out = s.out := rfl

@[simp] theorem setBh_mem (s : State) (p : Nat) (v : BhPort) : (setBh s p v).mem = s.mem := rfl

@[simp] theorem setBh_rx (s : State) (p : Nat) (v : BhPort) : (setBh s p v).rx = s.rx := rfl

@[simp] theorem setBh_cut (s : State) (p : Nat) (v : BhPort) : (setBh s p v).cut = s.cut := rfl

@[simp] theorem setBh_comb (s : State) (p : Nat) (v : BhPort) : (setBh s p v).comb = s.comb := rfl

@[simp] theorem setBh_radio (s : State) (p : Nat) (v : BhPort) : (setBh s p v).radio = s.radio := rfl

@[simp] theorem setBh_link (s : State) (p : Nat) (v : BhPort) : (setBh s p v).link = s.link := rfl

@[simp] theorem setBh_sched (s : State) (p : Nat) (v : BhPort) : (setBh s p v).sched = s.sched := rfl

@[simp] theorem setBh_air (s : State) (p : Nat) (v : BhPort) : (setBh s p v).air = s.air := rfl

@[simp] theorem setBh_fwd (s : State) (p : Nat) (v : BhPort) : (setBh s p v).fwd = s.fwd := rfl

@[simp] theorem setBh_herd (s : State) (p : Nat) (v : BhPort) : (setBh s p v).herd = s.herd := rfl

@[simp] theorem setBh_host (s : State) (p : Nat) (v : BhPort) : (setBh s p v).host = s.host := rfl

@[simp] theorem setBh_time (s : State) (p : Nat) (v : BhPort) : (setBh s p v).time = s.time := rfl

@[simp] theorem setBh_gait (s : State) (p : Nat) (v : BhPort) : (setBh s p v).gait = s.gait := rfl

@[simp] theorem setBh_tan (s : State) (p : Nat) (v : BhPort) : (setBh s p v).tan = s.tan := rfl

@[simp] theorem setBh_bri (s : State) (p : Nat) (v : BhPort) : (setBh s p v).bri = s.bri := rfl

@[simp] theorem setBh_vault (s : State) (p : Nat) (v : BhPort) : (setBh s p v).vault = s.vault := rfl

@[simp] theorem setBh_pwr (s : State) (p : Nat) (v : BhPort) : (setBh s p v).pwr = s.pwr := rfl

@[simp] theorem setBh_fw (s : State) (p : Nat) (v : BhPort) : (setBh s p v).fw = s.fw := rfl

@[simp] theorem setBh_free (s : State) (p : Nat) (v : BhPort) : (setBh s p v).free = s.free := rfl

@[simp] theorem setBh_pending (s : State) (p : Nat) (v : BhPort) : (setBh s p v).pending = s.pending := rfl

/-! ### setBhCfg -/

@[simp] theorem bhCfg_setBhCfg (s : State) (p : Nat) (v : BhCfg) (j : Nat) : bhCfg (setBhCfg s p v) j = if j = p then v else bhCfg s j := by
  simp [bhCfg, setBhCfg, tabGet_tabSet]

@[simp] theorem bandCfg_setBhCfg (s : State) (p : Nat) (v : BhCfg) (j : Nat) : bandCfg (setBhCfg s p v) j = bandCfg s j := rfl

@[simp] theorem cellAt_setBhCfg (s : State) (p : Nat) (v : BhCfg) (j : Nat) : cellAt (setBhCfg s p v) j = cellAt s j := rfl

@[simp] theorem chainCfg_setBhCfg (s : State) (p : Nat) (v : BhCfg) (j : Nat) : chainCfg (setBhCfg s p v) j = chainCfg s j := rfl

@[simp] theorem cutCfg_setBhCfg (s : State) (p : Nat) (v : BhCfg) (j : Nat) : cutCfg (setBhCfg s p v) j = cutCfg s j := rfl

@[simp] theorem floodSet_setBhCfg (s : State) (p : Nat) (v : BhCfg) (j : Nat) : floodSet (setBhCfg s p v) j = floodSet s j := rfl

@[simp] theorem frameLen_setBhCfg (s : State) (p : Nat) (v : BhCfg) (j : Nat) : frameLen (setBhCfg s p v) j = frameLen s j := rfl

@[simp] theorem guardOf_setBhCfg (s : State) (p : Nat) (v : BhCfg) (j : Nat) : guardOf (setBhCfg s p v) j = guardOf s j := rfl

@[simp] theorem hopSeq_setBhCfg (s : State) (p : Nat) (v : BhCfg) (j : Nat) : hopSeq (setBhCfg s p v) j = hopSeq s j := rfl

@[simp] theorem hostQueue_setBhCfg (s : State) (p : Nat) (v : BhCfg) (j : Nat) : hostQueue (setBhCfg s p v) j = hostQueue s j := rfl

@[simp] theorem linkCfg_setBhCfg (s : State) (p : Nat) (v : BhCfg) (j : Nat) : linkCfg (setBhCfg s p v) j = linkCfg s j := rfl

@[simp] theorem netCfg_setBhCfg (s : State) (p : Nat) (v : BhCfg) (j : Nat) : netCfg (setBhCfg s p v) j = netCfg s j := rfl

@[simp] theorem plainCfg_setBhCfg (s : State) (p : Nat) (v : BhCfg) (j : Nat) : plainCfg (setBhCfg s p v) j = plainCfg s j := rfl

@[simp] theorem portCfg_setBhCfg (s : State) (p : Nat) (v : BhCfg) (j : Nat) : portCfg (setBhCfg s p v) j = portCfg s j := rfl

@[simp] theorem route_setBhCfg (s : State) (p : Nat) (v : BhCfg) (j : Nat) : route (setBhCfg s p v) j = route s j := rfl

@[simp] theorem senseSet_setBhCfg (s : State) (p : Nat) (v : BhCfg) (j : Nat) : senseSet (setBhCfg s p v) j = senseSet s j := rfl

@[simp] theorem shapeOf_setBhCfg (s : State) (p : Nat) (v : BhCfg) (j : Nat) : shapeOf (setBhCfg s p v) j = shapeOf s j := rfl

@[simp] theorem txCfg_setBhCfg (s : State) (p : Nat) (v : BhCfg) (j : Nat) : txCfg (setBhCfg s p v) j = txCfg s j := rfl

@[simp] theorem setBhCfg_dev (s : State) (p : Nat) (v : BhCfg) : (setBhCfg s p v).dev = s.dev := rfl

@[simp] theorem setBhCfg_cmd (s : State) (p : Nat) (v : BhCfg) : (setBhCfg s p v).cmd = s.cmd := rfl

@[simp] theorem setBhCfg_que (s : State) (p : Nat) (v : BhCfg) : (setBhCfg s p v).que = s.que := rfl

@[simp] theorem setBhCfg_sem (s : State) (p : Nat) (v : BhCfg) : (setBhCfg s p v).sem = s.sem := rfl

@[simp] theorem setBhCfg_semReq (s : State) (p : Nat) (v : BhCfg) : (setBhCfg s p v).semReq = s.semReq := rfl

@[simp] theorem setBhCfg_trb (s : State) (p : Nat) (v : BhCfg) : (setBhCfg s p v).trb = s.trb := rfl

@[simp] theorem setBhCfg_out (s : State) (p : Nat) (v : BhCfg) : (setBhCfg s p v).out = s.out := rfl

@[simp] theorem setBhCfg_mem (s : State) (p : Nat) (v : BhCfg) : (setBhCfg s p v).mem = s.mem := rfl

@[simp] theorem setBhCfg_rx (s : State) (p : Nat) (v : BhCfg) : (setBhCfg s p v).rx = s.rx := rfl

@[simp] theorem setBhCfg_cut (s : State) (p : Nat) (v : BhCfg) : (setBhCfg s p v).cut = s.cut := rfl

@[simp] theorem setBhCfg_comb (s : State) (p : Nat) (v : BhCfg) : (setBhCfg s p v).comb = s.comb := rfl

@[simp] theorem setBhCfg_radio (s : State) (p : Nat) (v : BhCfg) : (setBhCfg s p v).radio = s.radio := rfl

@[simp] theorem setBhCfg_link (s : State) (p : Nat) (v : BhCfg) : (setBhCfg s p v).link = s.link := rfl

@[simp] theorem setBhCfg_sched (s : State) (p : Nat) (v : BhCfg) : (setBhCfg s p v).sched = s.sched := rfl

@[simp] theorem setBhCfg_air (s : State) (p : Nat) (v : BhCfg) : (setBhCfg s p v).air = s.air := rfl

@[simp] theorem setBhCfg_fwd (s : State) (p : Nat) (v : BhCfg) : (setBhCfg s p v).fwd = s.fwd := rfl

@[simp] theorem setBhCfg_bh (s : State) (p : Nat) (v : BhCfg) : (setBhCfg s p v).bh = s.bh := rfl

@[simp] theorem setBhCfg_herd (s : State) (p : Nat) (v : BhCfg) : (setBhCfg s p v).herd = s.herd := rfl

@[simp] theorem setBhCfg_host (s : State) (p : Nat) (v : BhCfg) : (setBhCfg s p v).host = s.host := rfl

@[simp] theorem setBhCfg_time (s : State) (p : Nat) (v : BhCfg) : (setBhCfg s p v).time = s.time := rfl

@[simp] theorem setBhCfg_gait (s : State) (p : Nat) (v : BhCfg) : (setBhCfg s p v).gait = s.gait := rfl

@[simp] theorem setBhCfg_tan (s : State) (p : Nat) (v : BhCfg) : (setBhCfg s p v).tan = s.tan := rfl

@[simp] theorem setBhCfg_bri (s : State) (p : Nat) (v : BhCfg) : (setBhCfg s p v).bri = s.bri := rfl

@[simp] theorem setBhCfg_vault (s : State) (p : Nat) (v : BhCfg) : (setBhCfg s p v).vault = s.vault := rfl

@[simp] theorem setBhCfg_pwr (s : State) (p : Nat) (v : BhCfg) : (setBhCfg s p v).pwr = s.pwr := rfl

@[simp] theorem setBhCfg_fw (s : State) (p : Nat) (v : BhCfg) : (setBhCfg s p v).fw = s.fw := rfl

@[simp] theorem setBhCfg_free (s : State) (p : Nat) (v : BhCfg) : (setBhCfg s p v).free = s.free := rfl

@[simp] theorem setBhCfg_pending (s : State) (p : Nat) (v : BhCfg) : (setBhCfg s p v).pending = s.pending := rfl

/-! ### setBri -/

@[simp] theorem setBri_self (s : State) (v : Bridle) : (setBri s v).bri = v := rfl

@[simp] theorem setBri_cfg (s : State) (v : Bridle) : (setBri s v).cfg = s.cfg := rfl

@[simp] theorem setBri_dev (s : State) (v : Bridle) : (setBri s v).dev = s.dev := rfl

@[simp] theorem setBri_cmd (s : State) (v : Bridle) : (setBri s v).cmd = s.cmd := rfl

@[simp] theorem setBri_que (s : State) (v : Bridle) : (setBri s v).que = s.que := rfl

@[simp] theorem setBri_sem (s : State) (v : Bridle) : (setBri s v).sem = s.sem := rfl

@[simp] theorem setBri_semReq (s : State) (v : Bridle) : (setBri s v).semReq = s.semReq := rfl

@[simp] theorem setBri_trb (s : State) (v : Bridle) : (setBri s v).trb = s.trb := rfl

@[simp] theorem setBri_out (s : State) (v : Bridle) : (setBri s v).out = s.out := rfl

@[simp] theorem setBri_mem (s : State) (v : Bridle) : (setBri s v).mem = s.mem := rfl

@[simp] theorem setBri_rx (s : State) (v : Bridle) : (setBri s v).rx = s.rx := rfl

@[simp] theorem setBri_cut (s : State) (v : Bridle) : (setBri s v).cut = s.cut := rfl

@[simp] theorem setBri_comb (s : State) (v : Bridle) : (setBri s v).comb = s.comb := rfl

@[simp] theorem setBri_radio (s : State) (v : Bridle) : (setBri s v).radio = s.radio := rfl

@[simp] theorem setBri_link (s : State) (v : Bridle) : (setBri s v).link = s.link := rfl

@[simp] theorem setBri_sched (s : State) (v : Bridle) : (setBri s v).sched = s.sched := rfl

@[simp] theorem setBri_air (s : State) (v : Bridle) : (setBri s v).air = s.air := rfl

@[simp] theorem setBri_fwd (s : State) (v : Bridle) : (setBri s v).fwd = s.fwd := rfl

@[simp] theorem setBri_bh (s : State) (v : Bridle) : (setBri s v).bh = s.bh := rfl

@[simp] theorem setBri_herd (s : State) (v : Bridle) : (setBri s v).herd = s.herd := rfl

@[simp] theorem setBri_host (s : State) (v : Bridle) : (setBri s v).host = s.host := rfl

@[simp] theorem setBri_time (s : State) (v : Bridle) : (setBri s v).time = s.time := rfl

@[simp] theorem setBri_gait (s : State) (v : Bridle) : (setBri s v).gait = s.gait := rfl

@[simp] theorem setBri_tan (s : State) (v : Bridle) : (setBri s v).tan = s.tan := rfl

@[simp] theorem setBri_vault (s : State) (v : Bridle) : (setBri s v).vault = s.vault := rfl

@[simp] theorem setBri_pwr (s : State) (v : Bridle) : (setBri s v).pwr = s.pwr := rfl

@[simp] theorem setBri_fw (s : State) (v : Bridle) : (setBri s v).fw = s.fw := rfl

@[simp] theorem setBri_free (s : State) (v : Bridle) : (setBri s v).free = s.free := rfl

@[simp] theorem setBri_pending (s : State) (v : Bridle) : (setBri s v).pending = s.pending := rfl

/-! ### setChainCfg -/

@[simp] theorem chainCfg_setChainCfg (s : State) (d : Nat) (v : ChainCfg) (j : Nat) : chainCfg (setChainCfg s d v) j = if j = d then v else chainCfg s j := by
  simp [chainCfg, setChainCfg, tabGet_tabSet]

@[simp] theorem bandCfg_setChainCfg (s : State) (d : Nat) (v : ChainCfg) (j : Nat) : bandCfg (setChainCfg s d v) j = bandCfg s j := rfl

@[simp] theorem bhCfg_setChainCfg (s : State) (d : Nat) (v : ChainCfg) (j : Nat) : bhCfg (setChainCfg s d v) j = bhCfg s j := rfl

@[simp] theorem cellAt_setChainCfg (s : State) (d : Nat) (v : ChainCfg) (j : Nat) : cellAt (setChainCfg s d v) j = cellAt s j := rfl

@[simp] theorem cutCfg_setChainCfg (s : State) (d : Nat) (v : ChainCfg) (j : Nat) : cutCfg (setChainCfg s d v) j = cutCfg s j := rfl

@[simp] theorem floodSet_setChainCfg (s : State) (d : Nat) (v : ChainCfg) (j : Nat) : floodSet (setChainCfg s d v) j = floodSet s j := rfl

@[simp] theorem frameLen_setChainCfg (s : State) (d : Nat) (v : ChainCfg) (j : Nat) : frameLen (setChainCfg s d v) j = frameLen s j := rfl

@[simp] theorem guardOf_setChainCfg (s : State) (d : Nat) (v : ChainCfg) (j : Nat) : guardOf (setChainCfg s d v) j = guardOf s j := rfl

@[simp] theorem hopSeq_setChainCfg (s : State) (d : Nat) (v : ChainCfg) (j : Nat) : hopSeq (setChainCfg s d v) j = hopSeq s j := rfl

@[simp] theorem hostQueue_setChainCfg (s : State) (d : Nat) (v : ChainCfg) (j : Nat) : hostQueue (setChainCfg s d v) j = hostQueue s j := rfl

@[simp] theorem linkCfg_setChainCfg (s : State) (d : Nat) (v : ChainCfg) (j : Nat) : linkCfg (setChainCfg s d v) j = linkCfg s j := rfl

@[simp] theorem netCfg_setChainCfg (s : State) (d : Nat) (v : ChainCfg) (j : Nat) : netCfg (setChainCfg s d v) j = netCfg s j := rfl

@[simp] theorem plainCfg_setChainCfg (s : State) (d : Nat) (v : ChainCfg) (j : Nat) : plainCfg (setChainCfg s d v) j = plainCfg s j := rfl

@[simp] theorem portCfg_setChainCfg (s : State) (d : Nat) (v : ChainCfg) (j : Nat) : portCfg (setChainCfg s d v) j = portCfg s j := rfl

@[simp] theorem route_setChainCfg (s : State) (d : Nat) (v : ChainCfg) (j : Nat) : route (setChainCfg s d v) j = route s j := rfl

@[simp] theorem senseSet_setChainCfg (s : State) (d : Nat) (v : ChainCfg) (j : Nat) : senseSet (setChainCfg s d v) j = senseSet s j := rfl

@[simp] theorem shapeOf_setChainCfg (s : State) (d : Nat) (v : ChainCfg) (j : Nat) : shapeOf (setChainCfg s d v) j = shapeOf s j := rfl

@[simp] theorem txCfg_setChainCfg (s : State) (d : Nat) (v : ChainCfg) (j : Nat) : txCfg (setChainCfg s d v) j = txCfg s j := rfl

@[simp] theorem setChainCfg_dev (s : State) (d : Nat) (v : ChainCfg) : (setChainCfg s d v).dev = s.dev := rfl

@[simp] theorem setChainCfg_cmd (s : State) (d : Nat) (v : ChainCfg) : (setChainCfg s d v).cmd = s.cmd := rfl

@[simp] theorem setChainCfg_que (s : State) (d : Nat) (v : ChainCfg) : (setChainCfg s d v).que = s.que := rfl

@[simp] theorem setChainCfg_sem (s : State) (d : Nat) (v : ChainCfg) : (setChainCfg s d v).sem = s.sem := rfl

@[simp] theorem setChainCfg_semReq (s : State) (d : Nat) (v : ChainCfg) : (setChainCfg s d v).semReq = s.semReq := rfl

@[simp] theorem setChainCfg_trb (s : State) (d : Nat) (v : ChainCfg) : (setChainCfg s d v).trb = s.trb := rfl

@[simp] theorem setChainCfg_out (s : State) (d : Nat) (v : ChainCfg) : (setChainCfg s d v).out = s.out := rfl

@[simp] theorem setChainCfg_mem (s : State) (d : Nat) (v : ChainCfg) : (setChainCfg s d v).mem = s.mem := rfl

@[simp] theorem setChainCfg_rx (s : State) (d : Nat) (v : ChainCfg) : (setChainCfg s d v).rx = s.rx := rfl

@[simp] theorem setChainCfg_cut (s : State) (d : Nat) (v : ChainCfg) : (setChainCfg s d v).cut = s.cut := rfl

@[simp] theorem setChainCfg_comb (s : State) (d : Nat) (v : ChainCfg) : (setChainCfg s d v).comb = s.comb := rfl

@[simp] theorem setChainCfg_radio (s : State) (d : Nat) (v : ChainCfg) : (setChainCfg s d v).radio = s.radio := rfl

@[simp] theorem setChainCfg_link (s : State) (d : Nat) (v : ChainCfg) : (setChainCfg s d v).link = s.link := rfl

@[simp] theorem setChainCfg_sched (s : State) (d : Nat) (v : ChainCfg) : (setChainCfg s d v).sched = s.sched := rfl

@[simp] theorem setChainCfg_air (s : State) (d : Nat) (v : ChainCfg) : (setChainCfg s d v).air = s.air := rfl

@[simp] theorem setChainCfg_fwd (s : State) (d : Nat) (v : ChainCfg) : (setChainCfg s d v).fwd = s.fwd := rfl

@[simp] theorem setChainCfg_bh (s : State) (d : Nat) (v : ChainCfg) : (setChainCfg s d v).bh = s.bh := rfl

@[simp] theorem setChainCfg_herd (s : State) (d : Nat) (v : ChainCfg) : (setChainCfg s d v).herd = s.herd := rfl

@[simp] theorem setChainCfg_host (s : State) (d : Nat) (v : ChainCfg) : (setChainCfg s d v).host = s.host := rfl

@[simp] theorem setChainCfg_time (s : State) (d : Nat) (v : ChainCfg) : (setChainCfg s d v).time = s.time := rfl

@[simp] theorem setChainCfg_gait (s : State) (d : Nat) (v : ChainCfg) : (setChainCfg s d v).gait = s.gait := rfl

@[simp] theorem setChainCfg_tan (s : State) (d : Nat) (v : ChainCfg) : (setChainCfg s d v).tan = s.tan := rfl

@[simp] theorem setChainCfg_bri (s : State) (d : Nat) (v : ChainCfg) : (setChainCfg s d v).bri = s.bri := rfl

@[simp] theorem setChainCfg_vault (s : State) (d : Nat) (v : ChainCfg) : (setChainCfg s d v).vault = s.vault := rfl

@[simp] theorem setChainCfg_pwr (s : State) (d : Nat) (v : ChainCfg) : (setChainCfg s d v).pwr = s.pwr := rfl

@[simp] theorem setChainCfg_fw (s : State) (d : Nat) (v : ChainCfg) : (setChainCfg s d v).fw = s.fw := rfl

@[simp] theorem setChainCfg_free (s : State) (d : Nat) (v : ChainCfg) : (setChainCfg s d v).free = s.free := rfl

@[simp] theorem setChainCfg_pending (s : State) (d : Nat) (v : ChainCfg) : (setChainCfg s d v).pending = s.pending := rfl

/-! ### setCutPlain -/

@[simp] theorem cutPlain_setCutPlain (s : State) (p : Nat) (v : CutPlain) (j : Nat) : cutPlain (setCutPlain s p v) j = if j = p then v else cutPlain s j := by
  simp [cutPlain, setCutPlain, tabGet_tabSet]

@[simp] theorem setCutPlain_cfg (s : State) (p : Nat) (v : CutPlain) : (setCutPlain s p v).cfg = s.cfg := rfl

@[simp] theorem setCutPlain_dev (s : State) (p : Nat) (v : CutPlain) : (setCutPlain s p v).dev = s.dev := rfl

@[simp] theorem setCutPlain_cmd (s : State) (p : Nat) (v : CutPlain) : (setCutPlain s p v).cmd = s.cmd := rfl

@[simp] theorem setCutPlain_que (s : State) (p : Nat) (v : CutPlain) : (setCutPlain s p v).que = s.que := rfl

@[simp] theorem setCutPlain_sem (s : State) (p : Nat) (v : CutPlain) : (setCutPlain s p v).sem = s.sem := rfl

@[simp] theorem setCutPlain_semReq (s : State) (p : Nat) (v : CutPlain) : (setCutPlain s p v).semReq = s.semReq := rfl

@[simp] theorem setCutPlain_trb (s : State) (p : Nat) (v : CutPlain) : (setCutPlain s p v).trb = s.trb := rfl

@[simp] theorem setCutPlain_out (s : State) (p : Nat) (v : CutPlain) : (setCutPlain s p v).out = s.out := rfl

@[simp] theorem setCutPlain_mem (s : State) (p : Nat) (v : CutPlain) : (setCutPlain s p v).mem = s.mem := rfl

@[simp] theorem setCutPlain_rx (s : State) (p : Nat) (v : CutPlain) : (setCutPlain s p v).rx = s.rx := rfl

@[simp] theorem setCutPlain_comb (s : State) (p : Nat) (v : CutPlain) : (setCutPlain s p v).comb = s.comb := rfl

@[simp] theorem setCutPlain_radio (s : State) (p : Nat) (v : CutPlain) : (setCutPlain s p v).radio = s.radio := rfl

@[simp] theorem setCutPlain_link (s : State) (p : Nat) (v : CutPlain) : (setCutPlain s p v).link = s.link := rfl

@[simp] theorem setCutPlain_sched (s : State) (p : Nat) (v : CutPlain) : (setCutPlain s p v).sched = s.sched := rfl

@[simp] theorem setCutPlain_air (s : State) (p : Nat) (v : CutPlain) : (setCutPlain s p v).air = s.air := rfl

@[simp] theorem setCutPlain_fwd (s : State) (p : Nat) (v : CutPlain) : (setCutPlain s p v).fwd = s.fwd := rfl

@[simp] theorem setCutPlain_bh (s : State) (p : Nat) (v : CutPlain) : (setCutPlain s p v).bh = s.bh := rfl

@[simp] theorem setCutPlain_herd (s : State) (p : Nat) (v : CutPlain) : (setCutPlain s p v).herd = s.herd := rfl

@[simp] theorem setCutPlain_host (s : State) (p : Nat) (v : CutPlain) : (setCutPlain s p v).host = s.host := rfl

@[simp] theorem setCutPlain_time (s : State) (p : Nat) (v : CutPlain) : (setCutPlain s p v).time = s.time := rfl

@[simp] theorem setCutPlain_gait (s : State) (p : Nat) (v : CutPlain) : (setCutPlain s p v).gait = s.gait := rfl

@[simp] theorem setCutPlain_tan (s : State) (p : Nat) (v : CutPlain) : (setCutPlain s p v).tan = s.tan := rfl

@[simp] theorem setCutPlain_bri (s : State) (p : Nat) (v : CutPlain) : (setCutPlain s p v).bri = s.bri := rfl

@[simp] theorem setCutPlain_vault (s : State) (p : Nat) (v : CutPlain) : (setCutPlain s p v).vault = s.vault := rfl

@[simp] theorem setCutPlain_pwr (s : State) (p : Nat) (v : CutPlain) : (setCutPlain s p v).pwr = s.pwr := rfl

@[simp] theorem setCutPlain_fw (s : State) (p : Nat) (v : CutPlain) : (setCutPlain s p v).fw = s.fw := rfl

@[simp] theorem setCutPlain_free (s : State) (p : Nat) (v : CutPlain) : (setCutPlain s p v).free = s.free := rfl

@[simp] theorem setCutPlain_pending (s : State) (p : Nat) (v : CutPlain) : (setCutPlain s p v).pending = s.pending := rfl

/-! ### setDomain -/

@[simp] theorem domain_setDomain (s : State) (d : Nat) (v : Domain) (j : Nat) : domain (setDomain s d v) j = if j = d then v else domain s j := by
  simp [domain, setDomain, tabGet_tabSet]

@[simp] theorem pdom_setDomain (s : State) (d : Nat) (v : Domain) (j : Nat) : pdom (setDomain s d v) j = if j = d then v else pdom s j := by
  simp [pdom, setDomain, tabGet_tabSet]

@[simp] theorem setDomain_cfg (s : State) (d : Nat) (v : Domain) : (setDomain s d v).cfg = s.cfg := rfl

@[simp] theorem setDomain_dev (s : State) (d : Nat) (v : Domain) : (setDomain s d v).dev = s.dev := rfl

@[simp] theorem setDomain_cmd (s : State) (d : Nat) (v : Domain) : (setDomain s d v).cmd = s.cmd := rfl

@[simp] theorem setDomain_que (s : State) (d : Nat) (v : Domain) : (setDomain s d v).que = s.que := rfl

@[simp] theorem setDomain_sem (s : State) (d : Nat) (v : Domain) : (setDomain s d v).sem = s.sem := rfl

@[simp] theorem setDomain_semReq (s : State) (d : Nat) (v : Domain) : (setDomain s d v).semReq = s.semReq := rfl

@[simp] theorem setDomain_trb (s : State) (d : Nat) (v : Domain) : (setDomain s d v).trb = s.trb := rfl

@[simp] theorem setDomain_out (s : State) (d : Nat) (v : Domain) : (setDomain s d v).out = s.out := rfl

@[simp] theorem setDomain_mem (s : State) (d : Nat) (v : Domain) : (setDomain s d v).mem = s.mem := rfl

@[simp] theorem setDomain_rx (s : State) (d : Nat) (v : Domain) : (setDomain s d v).rx = s.rx := rfl

@[simp] theorem setDomain_cut (s : State) (d : Nat) (v : Domain) : (setDomain s d v).cut = s.cut := rfl

@[simp] theorem setDomain_comb (s : State) (d : Nat) (v : Domain) : (setDomain s d v).comb = s.comb := rfl

@[simp] theorem setDomain_radio (s : State) (d : Nat) (v : Domain) : (setDomain s d v).radio = s.radio := rfl

@[simp] theorem setDomain_link (s : State) (d : Nat) (v : Domain) : (setDomain s d v).link = s.link := rfl

@[simp] theorem setDomain_sched (s : State) (d : Nat) (v : Domain) : (setDomain s d v).sched = s.sched := rfl

@[simp] theorem setDomain_air (s : State) (d : Nat) (v : Domain) : (setDomain s d v).air = s.air := rfl

@[simp] theorem setDomain_fwd (s : State) (d : Nat) (v : Domain) : (setDomain s d v).fwd = s.fwd := rfl

@[simp] theorem setDomain_bh (s : State) (d : Nat) (v : Domain) : (setDomain s d v).bh = s.bh := rfl

@[simp] theorem setDomain_herd (s : State) (d : Nat) (v : Domain) : (setDomain s d v).herd = s.herd := rfl

@[simp] theorem setDomain_host (s : State) (d : Nat) (v : Domain) : (setDomain s d v).host = s.host := rfl

@[simp] theorem setDomain_time (s : State) (d : Nat) (v : Domain) : (setDomain s d v).time = s.time := rfl

@[simp] theorem setDomain_gait (s : State) (d : Nat) (v : Domain) : (setDomain s d v).gait = s.gait := rfl

@[simp] theorem setDomain_tan (s : State) (d : Nat) (v : Domain) : (setDomain s d v).tan = s.tan := rfl

@[simp] theorem setDomain_bri (s : State) (d : Nat) (v : Domain) : (setDomain s d v).bri = s.bri := rfl

@[simp] theorem setDomain_vault (s : State) (d : Nat) (v : Domain) : (setDomain s d v).vault = s.vault := rfl

@[simp] theorem setDomain_fw (s : State) (d : Nat) (v : Domain) : (setDomain s d v).fw = s.fw := rfl

@[simp] theorem setDomain_free (s : State) (d : Nat) (v : Domain) : (setDomain s d v).free = s.free := rfl

@[simp] theorem setDomain_pending (s : State) (d : Nat) (v : Domain) : (setDomain s d v).pending = s.pending := rfl

/-! ### setEngine -/

@[simp] theorem engine_setEngine (s : State) (e : Nat) (v : Engine) (j : Nat) : engine (setEngine s e v) j = if j = e then v else engine s j := by
  simp [engine, setEngine, tabGet_tabSet]

@[simp] theorem setEngine_cfg (s : State) (e : Nat) (v : Engine) : (setEngine s e v).cfg = s.cfg := rfl

@[simp] theorem setEngine_dev (s : State) (e : Nat) (v : Engine) : (setEngine s e v).dev = s.dev := rfl

@[simp] theorem setEngine_cmd (s : State) (e : Nat) (v : Engine) : (setEngine s e v).cmd = s.cmd := rfl

@[simp] theorem setEngine_que (s : State) (e : Nat) (v : Engine) : (setEngine s e v).que = s.que := rfl

@[simp] theorem setEngine_sem (s : State) (e : Nat) (v : Engine) : (setEngine s e v).sem = s.sem := rfl

@[simp] theorem setEngine_semReq (s : State) (e : Nat) (v : Engine) : (setEngine s e v).semReq = s.semReq := rfl

@[simp] theorem setEngine_trb (s : State) (e : Nat) (v : Engine) : (setEngine s e v).trb = s.trb := rfl

@[simp] theorem setEngine_out (s : State) (e : Nat) (v : Engine) : (setEngine s e v).out = s.out := rfl

@[simp] theorem setEngine_mem (s : State) (e : Nat) (v : Engine) : (setEngine s e v).mem = s.mem := rfl

@[simp] theorem setEngine_rx (s : State) (e : Nat) (v : Engine) : (setEngine s e v).rx = s.rx := rfl

@[simp] theorem setEngine_cut (s : State) (e : Nat) (v : Engine) : (setEngine s e v).cut = s.cut := rfl

@[simp] theorem setEngine_comb (s : State) (e : Nat) (v : Engine) : (setEngine s e v).comb = s.comb := rfl

@[simp] theorem setEngine_radio (s : State) (e : Nat) (v : Engine) : (setEngine s e v).radio = s.radio := rfl

@[simp] theorem setEngine_link (s : State) (e : Nat) (v : Engine) : (setEngine s e v).link = s.link := rfl

@[simp] theorem setEngine_sched (s : State) (e : Nat) (v : Engine) : (setEngine s e v).sched = s.sched := rfl

@[simp] theorem setEngine_air (s : State) (e : Nat) (v : Engine) : (setEngine s e v).air = s.air := rfl

@[simp] theorem setEngine_fwd (s : State) (e : Nat) (v : Engine) : (setEngine s e v).fwd = s.fwd := rfl

@[simp] theorem setEngine_bh (s : State) (e : Nat) (v : Engine) : (setEngine s e v).bh = s.bh := rfl

@[simp] theorem setEngine_herd (s : State) (e : Nat) (v : Engine) : (setEngine s e v).herd = s.herd := rfl

@[simp] theorem setEngine_time (s : State) (e : Nat) (v : Engine) : (setEngine s e v).time = s.time := rfl

@[simp] theorem setEngine_gait (s : State) (e : Nat) (v : Engine) : (setEngine s e v).gait = s.gait := rfl

@[simp] theorem setEngine_tan (s : State) (e : Nat) (v : Engine) : (setEngine s e v).tan = s.tan := rfl

@[simp] theorem setEngine_bri (s : State) (e : Nat) (v : Engine) : (setEngine s e v).bri = s.bri := rfl

@[simp] theorem setEngine_vault (s : State) (e : Nat) (v : Engine) : (setEngine s e v).vault = s.vault := rfl

@[simp] theorem setEngine_pwr (s : State) (e : Nat) (v : Engine) : (setEngine s e v).pwr = s.pwr := rfl

@[simp] theorem setEngine_fw (s : State) (e : Nat) (v : Engine) : (setEngine s e v).fw = s.fw := rfl

@[simp] theorem setEngine_free (s : State) (e : Nat) (v : Engine) : (setEngine s e v).free = s.free := rfl

@[simp] theorem setEngine_pending (s : State) (e : Nat) (v : Engine) : (setEngine s e v).pending = s.pending := rfl

/-! ### setFw -/

@[simp] theorem setFw_self (s : State) (v : Fw) : (setFw s v).fw = v := rfl

@[simp] theorem setFw_cfg (s : State) (v : Fw) : (setFw s v).cfg = s.cfg := rfl

@[simp] theorem setFw_dev (s : State) (v : Fw) : (setFw s v).dev = s.dev := rfl

@[simp] theorem setFw_cmd (s : State) (v : Fw) : (setFw s v).cmd = s.cmd := rfl

@[simp] theorem setFw_que (s : State) (v : Fw) : (setFw s v).que = s.que := rfl

@[simp] theorem setFw_sem (s : State) (v : Fw) : (setFw s v).sem = s.sem := rfl

@[simp] theorem setFw_semReq (s : State) (v : Fw) : (setFw s v).semReq = s.semReq := rfl

@[simp] theorem setFw_trb (s : State) (v : Fw) : (setFw s v).trb = s.trb := rfl

@[simp] theorem setFw_out (s : State) (v : Fw) : (setFw s v).out = s.out := rfl

@[simp] theorem setFw_mem (s : State) (v : Fw) : (setFw s v).mem = s.mem := rfl

@[simp] theorem setFw_rx (s : State) (v : Fw) : (setFw s v).rx = s.rx := rfl

@[simp] theorem setFw_cut (s : State) (v : Fw) : (setFw s v).cut = s.cut := rfl

@[simp] theorem setFw_comb (s : State) (v : Fw) : (setFw s v).comb = s.comb := rfl

@[simp] theorem setFw_radio (s : State) (v : Fw) : (setFw s v).radio = s.radio := rfl

@[simp] theorem setFw_link (s : State) (v : Fw) : (setFw s v).link = s.link := rfl

@[simp] theorem setFw_sched (s : State) (v : Fw) : (setFw s v).sched = s.sched := rfl

@[simp] theorem setFw_air (s : State) (v : Fw) : (setFw s v).air = s.air := rfl

@[simp] theorem setFw_fwd (s : State) (v : Fw) : (setFw s v).fwd = s.fwd := rfl

@[simp] theorem setFw_bh (s : State) (v : Fw) : (setFw s v).bh = s.bh := rfl

@[simp] theorem setFw_herd (s : State) (v : Fw) : (setFw s v).herd = s.herd := rfl

@[simp] theorem setFw_host (s : State) (v : Fw) : (setFw s v).host = s.host := rfl

@[simp] theorem setFw_time (s : State) (v : Fw) : (setFw s v).time = s.time := rfl

@[simp] theorem setFw_gait (s : State) (v : Fw) : (setFw s v).gait = s.gait := rfl

@[simp] theorem setFw_tan (s : State) (v : Fw) : (setFw s v).tan = s.tan := rfl

@[simp] theorem setFw_bri (s : State) (v : Fw) : (setFw s v).bri = s.bri := rfl

@[simp] theorem setFw_vault (s : State) (v : Fw) : (setFw s v).vault = s.vault := rfl

@[simp] theorem setFw_pwr (s : State) (v : Fw) : (setFw s v).pwr = s.pwr := rfl

@[simp] theorem setFw_free (s : State) (v : Fw) : (setFw s v).free = s.free := rfl

@[simp] theorem setFw_pending (s : State) (v : Fw) : (setFw s v).pending = s.pending := rfl

/-! ### setGait -/

@[simp] theorem gait_setGait (s : State) (t : Nat) (v : Gait) (j : Nat) : gait (setGait s t v) j = if j = t then v else gait s j := by
  simp [gait, setGait, tabGet_tabSet]

@[simp] theorem setGait_cfg (s : State) (t : Nat) (v : Gait) : (setGait s t v).cfg = s.cfg := rfl

@[simp] theorem setGait_dev (s : State) (t : Nat) (v : Gait) : (setGait s t v).dev = s.dev := rfl

@[simp] theorem setGait_cmd (s : State) (t : Nat) (v : Gait) : (setGait s t v).cmd = s.cmd := rfl

@[simp] theorem setGait_que (s : State) (t : Nat) (v : Gait) : (setGait s t v).que = s.que := rfl

@[simp] theorem setGait_sem (s : State) (t : Nat) (v : Gait) : (setGait s t v).sem = s.sem := rfl

@[simp] theorem setGait_semReq (s : State) (t : Nat) (v : Gait) : (setGait s t v).semReq = s.semReq := rfl

@[simp] theorem setGait_trb (s : State) (t : Nat) (v : Gait) : (setGait s t v).trb = s.trb := rfl

@[simp] theorem setGait_out (s : State) (t : Nat) (v : Gait) : (setGait s t v).out = s.out := rfl

@[simp] theorem setGait_mem (s : State) (t : Nat) (v : Gait) : (setGait s t v).mem = s.mem := rfl

@[simp] theorem setGait_rx (s : State) (t : Nat) (v : Gait) : (setGait s t v).rx = s.rx := rfl

@[simp] theorem setGait_cut (s : State) (t : Nat) (v : Gait) : (setGait s t v).cut = s.cut := rfl

@[simp] theorem setGait_comb (s : State) (t : Nat) (v : Gait) : (setGait s t v).comb = s.comb := rfl

@[simp] theorem setGait_radio (s : State) (t : Nat) (v : Gait) : (setGait s t v).radio = s.radio := rfl

@[simp] theorem setGait_link (s : State) (t : Nat) (v : Gait) : (setGait s t v).link = s.link := rfl

@[simp] theorem setGait_sched (s : State) (t : Nat) (v : Gait) : (setGait s t v).sched = s.sched := rfl

@[simp] theorem setGait_air (s : State) (t : Nat) (v : Gait) : (setGait s t v).air = s.air := rfl

@[simp] theorem setGait_fwd (s : State) (t : Nat) (v : Gait) : (setGait s t v).fwd = s.fwd := rfl

@[simp] theorem setGait_bh (s : State) (t : Nat) (v : Gait) : (setGait s t v).bh = s.bh := rfl

@[simp] theorem setGait_herd (s : State) (t : Nat) (v : Gait) : (setGait s t v).herd = s.herd := rfl

@[simp] theorem setGait_host (s : State) (t : Nat) (v : Gait) : (setGait s t v).host = s.host := rfl

@[simp] theorem setGait_time (s : State) (t : Nat) (v : Gait) : (setGait s t v).time = s.time := rfl

@[simp] theorem setGait_tan (s : State) (t : Nat) (v : Gait) : (setGait s t v).tan = s.tan := rfl

@[simp] theorem setGait_bri (s : State) (t : Nat) (v : Gait) : (setGait s t v).bri = s.bri := rfl

@[simp] theorem setGait_vault (s : State) (t : Nat) (v : Gait) : (setGait s t v).vault = s.vault := rfl

@[simp] theorem setGait_pwr (s : State) (t : Nat) (v : Gait) : (setGait s t v).pwr = s.pwr := rfl

@[simp] theorem setGait_fw (s : State) (t : Nat) (v : Gait) : (setGait s t v).fw = s.fw := rfl

@[simp] theorem setGait_free (s : State) (t : Nat) (v : Gait) : (setGait s t v).free = s.free := rfl

@[simp] theorem setGait_pending (s : State) (t : Nat) (v : Gait) : (setGait s t v).pending = s.pending := rfl

/-! ### setHerdCfg -/

@[simp] theorem setHerdCfg_self (s : State) (v : HerdCfg) : (setHerdCfg s v).cfg.herd = v := rfl

@[simp] theorem bandCfg_setHerdCfg (s : State) (v : HerdCfg) (j : Nat) : bandCfg (setHerdCfg s v) j = bandCfg s j := rfl

@[simp] theorem bhCfg_setHerdCfg (s : State) (v : HerdCfg) (j : Nat) : bhCfg (setHerdCfg s v) j = bhCfg s j := rfl

@[simp] theorem cellAt_setHerdCfg (s : State) (v : HerdCfg) (j : Nat) : cellAt (setHerdCfg s v) j = cellAt s j := rfl

@[simp] theorem chainCfg_setHerdCfg (s : State) (v : HerdCfg) (j : Nat) : chainCfg (setHerdCfg s v) j = chainCfg s j := rfl

@[simp] theorem cutCfg_setHerdCfg (s : State) (v : HerdCfg) (j : Nat) : cutCfg (setHerdCfg s v) j = cutCfg s j := rfl

@[simp] theorem floodSet_setHerdCfg (s : State) (v : HerdCfg) (j : Nat) : floodSet (setHerdCfg s v) j = floodSet s j := rfl

@[simp] theorem frameLen_setHerdCfg (s : State) (v : HerdCfg) (j : Nat) : frameLen (setHerdCfg s v) j = frameLen s j := rfl

@[simp] theorem guardOf_setHerdCfg (s : State) (v : HerdCfg) (j : Nat) : guardOf (setHerdCfg s v) j = guardOf s j := rfl

@[simp] theorem hopSeq_setHerdCfg (s : State) (v : HerdCfg) (j : Nat) : hopSeq (setHerdCfg s v) j = hopSeq s j := rfl

@[simp] theorem hostQueue_setHerdCfg (s : State) (v : HerdCfg) (j : Nat) : hostQueue (setHerdCfg s v) j = hostQueue s j := rfl

@[simp] theorem netCfg_setHerdCfg (s : State) (v : HerdCfg) (j : Nat) : netCfg (setHerdCfg s v) j = netCfg s j := rfl

@[simp] theorem plainCfg_setHerdCfg (s : State) (v : HerdCfg) (j : Nat) : plainCfg (setHerdCfg s v) j = plainCfg s j := rfl

@[simp] theorem portCfg_setHerdCfg (s : State) (v : HerdCfg) (j : Nat) : portCfg (setHerdCfg s v) j = portCfg s j := rfl

@[simp] theorem senseSet_setHerdCfg (s : State) (v : HerdCfg) (j : Nat) : senseSet (setHerdCfg s v) j = senseSet s j := rfl

@[simp] theorem shapeOf_setHerdCfg (s : State) (v : HerdCfg) (j : Nat) : shapeOf (setHerdCfg s v) j = shapeOf s j := rfl

@[simp] theorem txCfg_setHerdCfg (s : State) (v : HerdCfg) (j : Nat) : txCfg (setHerdCfg s v) j = txCfg s j := rfl

@[simp] theorem setHerdCfg_dev (s : State) (v : HerdCfg) : (setHerdCfg s v).dev = s.dev := rfl

@[simp] theorem setHerdCfg_cmd (s : State) (v : HerdCfg) : (setHerdCfg s v).cmd = s.cmd := rfl

@[simp] theorem setHerdCfg_que (s : State) (v : HerdCfg) : (setHerdCfg s v).que = s.que := rfl

@[simp] theorem setHerdCfg_sem (s : State) (v : HerdCfg) : (setHerdCfg s v).sem = s.sem := rfl

@[simp] theorem setHerdCfg_semReq (s : State) (v : HerdCfg) : (setHerdCfg s v).semReq = s.semReq := rfl

@[simp] theorem setHerdCfg_trb (s : State) (v : HerdCfg) : (setHerdCfg s v).trb = s.trb := rfl

@[simp] theorem setHerdCfg_out (s : State) (v : HerdCfg) : (setHerdCfg s v).out = s.out := rfl

@[simp] theorem setHerdCfg_mem (s : State) (v : HerdCfg) : (setHerdCfg s v).mem = s.mem := rfl

@[simp] theorem setHerdCfg_rx (s : State) (v : HerdCfg) : (setHerdCfg s v).rx = s.rx := rfl

@[simp] theorem setHerdCfg_cut (s : State) (v : HerdCfg) : (setHerdCfg s v).cut = s.cut := rfl

@[simp] theorem setHerdCfg_comb (s : State) (v : HerdCfg) : (setHerdCfg s v).comb = s.comb := rfl

@[simp] theorem setHerdCfg_radio (s : State) (v : HerdCfg) : (setHerdCfg s v).radio = s.radio := rfl

@[simp] theorem setHerdCfg_link (s : State) (v : HerdCfg) : (setHerdCfg s v).link = s.link := rfl

@[simp] theorem setHerdCfg_sched (s : State) (v : HerdCfg) : (setHerdCfg s v).sched = s.sched := rfl

@[simp] theorem setHerdCfg_air (s : State) (v : HerdCfg) : (setHerdCfg s v).air = s.air := rfl

@[simp] theorem setHerdCfg_fwd (s : State) (v : HerdCfg) : (setHerdCfg s v).fwd = s.fwd := rfl

@[simp] theorem setHerdCfg_bh (s : State) (v : HerdCfg) : (setHerdCfg s v).bh = s.bh := rfl

@[simp] theorem setHerdCfg_herd (s : State) (v : HerdCfg) : (setHerdCfg s v).herd = s.herd := rfl

@[simp] theorem setHerdCfg_host (s : State) (v : HerdCfg) : (setHerdCfg s v).host = s.host := rfl

@[simp] theorem setHerdCfg_time (s : State) (v : HerdCfg) : (setHerdCfg s v).time = s.time := rfl

@[simp] theorem setHerdCfg_gait (s : State) (v : HerdCfg) : (setHerdCfg s v).gait = s.gait := rfl

@[simp] theorem setHerdCfg_tan (s : State) (v : HerdCfg) : (setHerdCfg s v).tan = s.tan := rfl

@[simp] theorem setHerdCfg_bri (s : State) (v : HerdCfg) : (setHerdCfg s v).bri = s.bri := rfl

@[simp] theorem setHerdCfg_vault (s : State) (v : HerdCfg) : (setHerdCfg s v).vault = s.vault := rfl

@[simp] theorem setHerdCfg_pwr (s : State) (v : HerdCfg) : (setHerdCfg s v).pwr = s.pwr := rfl

@[simp] theorem setHerdCfg_fw (s : State) (v : HerdCfg) : (setHerdCfg s v).fw = s.fw := rfl

@[simp] theorem setHerdCfg_free (s : State) (v : HerdCfg) : (setHerdCfg s v).free = s.free := rfl

@[simp] theorem setHerdCfg_pending (s : State) (v : HerdCfg) : (setHerdCfg s v).pending = s.pending := rfl

/-! ### setHlink -/

@[simp] theorem hlink_setHlink (s : State) (l : Nat) (v : HLink) (j : Nat) : hlink (setHlink s l v) j = if j = l then v else hlink s j := by
  simp [hlink, setHlink, tabGet_tabSet]

@[simp] theorem peerOf_setHlink (s : State) (l : Nat) (v : HLink) (j : Nat) : peerOf (setHlink s l v) j = peerOf s j := rfl

@[simp] theorem waitingTo_setHlink (s : State) (l : Nat) (v : HLink) (j : Nat) : waitingTo (setHlink s l v) j = waitingTo s j := rfl

@[simp] theorem setHlink_cfg (s : State) (l : Nat) (v : HLink) : (setHlink s l v).cfg = s.cfg := rfl

@[simp] theorem setHlink_dev (s : State) (l : Nat) (v : HLink) : (setHlink s l v).dev = s.dev := rfl

@[simp] theorem setHlink_cmd (s : State) (l : Nat) (v : HLink) : (setHlink s l v).cmd = s.cmd := rfl

@[simp] theorem setHlink_que (s : State) (l : Nat) (v : HLink) : (setHlink s l v).que = s.que := rfl

@[simp] theorem setHlink_sem (s : State) (l : Nat) (v : HLink) : (setHlink s l v).sem = s.sem := rfl

@[simp] theorem setHlink_semReq (s : State) (l : Nat) (v : HLink) : (setHlink s l v).semReq = s.semReq := rfl

@[simp] theorem setHlink_trb (s : State) (l : Nat) (v : HLink) : (setHlink s l v).trb = s.trb := rfl

@[simp] theorem setHlink_out (s : State) (l : Nat) (v : HLink) : (setHlink s l v).out = s.out := rfl

@[simp] theorem setHlink_mem (s : State) (l : Nat) (v : HLink) : (setHlink s l v).mem = s.mem := rfl

@[simp] theorem setHlink_rx (s : State) (l : Nat) (v : HLink) : (setHlink s l v).rx = s.rx := rfl

@[simp] theorem setHlink_cut (s : State) (l : Nat) (v : HLink) : (setHlink s l v).cut = s.cut := rfl

@[simp] theorem setHlink_comb (s : State) (l : Nat) (v : HLink) : (setHlink s l v).comb = s.comb := rfl

@[simp] theorem setHlink_radio (s : State) (l : Nat) (v : HLink) : (setHlink s l v).radio = s.radio := rfl

@[simp] theorem setHlink_link (s : State) (l : Nat) (v : HLink) : (setHlink s l v).link = s.link := rfl

@[simp] theorem setHlink_sched (s : State) (l : Nat) (v : HLink) : (setHlink s l v).sched = s.sched := rfl

@[simp] theorem setHlink_air (s : State) (l : Nat) (v : HLink) : (setHlink s l v).air = s.air := rfl

@[simp] theorem setHlink_fwd (s : State) (l : Nat) (v : HLink) : (setHlink s l v).fwd = s.fwd := rfl

@[simp] theorem setHlink_bh (s : State) (l : Nat) (v : HLink) : (setHlink s l v).bh = s.bh := rfl

@[simp] theorem setHlink_host (s : State) (l : Nat) (v : HLink) : (setHlink s l v).host = s.host := rfl

@[simp] theorem setHlink_time (s : State) (l : Nat) (v : HLink) : (setHlink s l v).time = s.time := rfl

@[simp] theorem setHlink_gait (s : State) (l : Nat) (v : HLink) : (setHlink s l v).gait = s.gait := rfl

@[simp] theorem setHlink_tan (s : State) (l : Nat) (v : HLink) : (setHlink s l v).tan = s.tan := rfl

@[simp] theorem setHlink_bri (s : State) (l : Nat) (v : HLink) : (setHlink s l v).bri = s.bri := rfl

@[simp] theorem setHlink_vault (s : State) (l : Nat) (v : HLink) : (setHlink s l v).vault = s.vault := rfl

@[simp] theorem setHlink_pwr (s : State) (l : Nat) (v : HLink) : (setHlink s l v).pwr = s.pwr := rfl

@[simp] theorem setHlink_fw (s : State) (l : Nat) (v : HLink) : (setHlink s l v).fw = s.fw := rfl

@[simp] theorem setHlink_free (s : State) (l : Nat) (v : HLink) : (setHlink s l v).free = s.free := rfl

@[simp] theorem setHlink_pending (s : State) (l : Nat) (v : HLink) : (setHlink s l v).pending = s.pending := rfl

/-! ### setNet -/

@[simp] theorem netRun_setNet (s : State) (n : Nat) (v : Net) (j : Nat) : netRun (setNet s n v) j = if j = n then v else netRun s j := by
  simp [netRun, setNet, tabGet_tabSet]

@[simp] theorem setNet_cfg (s : State) (n : Nat) (v : Net) : (setNet s n v).cfg = s.cfg := rfl

@[simp] theorem setNet_dev (s : State) (n : Nat) (v : Net) : (setNet s n v).dev = s.dev := rfl

@[simp] theorem setNet_cmd (s : State) (n : Nat) (v : Net) : (setNet s n v).cmd = s.cmd := rfl

@[simp] theorem setNet_que (s : State) (n : Nat) (v : Net) : (setNet s n v).que = s.que := rfl

@[simp] theorem setNet_sem (s : State) (n : Nat) (v : Net) : (setNet s n v).sem = s.sem := rfl

@[simp] theorem setNet_semReq (s : State) (n : Nat) (v : Net) : (setNet s n v).semReq = s.semReq := rfl

@[simp] theorem setNet_trb (s : State) (n : Nat) (v : Net) : (setNet s n v).trb = s.trb := rfl

@[simp] theorem setNet_out (s : State) (n : Nat) (v : Net) : (setNet s n v).out = s.out := rfl

@[simp] theorem setNet_mem (s : State) (n : Nat) (v : Net) : (setNet s n v).mem = s.mem := rfl

@[simp] theorem setNet_rx (s : State) (n : Nat) (v : Net) : (setNet s n v).rx = s.rx := rfl

@[simp] theorem setNet_cut (s : State) (n : Nat) (v : Net) : (setNet s n v).cut = s.cut := rfl

@[simp] theorem setNet_comb (s : State) (n : Nat) (v : Net) : (setNet s n v).comb = s.comb := rfl

@[simp] theorem setNet_radio (s : State) (n : Nat) (v : Net) : (setNet s n v).radio = s.radio := rfl

@[simp] theorem setNet_sched (s : State) (n : Nat) (v : Net) : (setNet s n v).sched = s.sched := rfl

@[simp] theorem setNet_air (s : State) (n : Nat) (v : Net) : (setNet s n v).air = s.air := rfl

@[simp] theorem setNet_fwd (s : State) (n : Nat) (v : Net) : (setNet s n v).fwd = s.fwd := rfl

@[simp] theorem setNet_bh (s : State) (n : Nat) (v : Net) : (setNet s n v).bh = s.bh := rfl

@[simp] theorem setNet_herd (s : State) (n : Nat) (v : Net) : (setNet s n v).herd = s.herd := rfl

@[simp] theorem setNet_host (s : State) (n : Nat) (v : Net) : (setNet s n v).host = s.host := rfl

@[simp] theorem setNet_time (s : State) (n : Nat) (v : Net) : (setNet s n v).time = s.time := rfl

@[simp] theorem setNet_gait (s : State) (n : Nat) (v : Net) : (setNet s n v).gait = s.gait := rfl

@[simp] theorem setNet_tan (s : State) (n : Nat) (v : Net) : (setNet s n v).tan = s.tan := rfl

@[simp] theorem setNet_bri (s : State) (n : Nat) (v : Net) : (setNet s n v).bri = s.bri := rfl

@[simp] theorem setNet_vault (s : State) (n : Nat) (v : Net) : (setNet s n v).vault = s.vault := rfl

@[simp] theorem setNet_pwr (s : State) (n : Nat) (v : Net) : (setNet s n v).pwr = s.pwr := rfl

@[simp] theorem setNet_fw (s : State) (n : Nat) (v : Net) : (setNet s n v).fw = s.fw := rfl

@[simp] theorem setNet_free (s : State) (n : Nat) (v : Net) : (setNet s n v).free = s.free := rfl

@[simp] theorem setNet_pending (s : State) (n : Nat) (v : Net) : (setNet s n v).pending = s.pending := rfl

/-! ### setNetCfg -/

@[simp] theorem netCfg_setNetCfg (s : State) (n : Nat) (v : NetCfg) (j : Nat) : netCfg (setNetCfg s n v) j = if j = n then v else netCfg s j := by
  simp [netCfg, setNetCfg, tabGet_tabSet]

@[simp] theorem bandCfg_setNetCfg (s : State) (n : Nat) (v : NetCfg) (j : Nat) : bandCfg (setNetCfg s n v) j = bandCfg s j := rfl

@[simp] theorem bhCfg_setNetCfg (s : State) (n : Nat) (v : NetCfg) (j : Nat) : bhCfg (setNetCfg s n v) j = bhCfg s j := rfl

@[simp] theorem cellAt_setNetCfg (s : State) (n : Nat) (v : NetCfg) (j : Nat) : cellAt (setNetCfg s n v) j = cellAt s j := rfl

@[simp] theorem chainCfg_setNetCfg (s : State) (n : Nat) (v : NetCfg) (j : Nat) : chainCfg (setNetCfg s n v) j = chainCfg s j := rfl

@[simp] theorem cutCfg_setNetCfg (s : State) (n : Nat) (v : NetCfg) (j : Nat) : cutCfg (setNetCfg s n v) j = cutCfg s j := rfl

@[simp] theorem floodSet_setNetCfg (s : State) (n : Nat) (v : NetCfg) (j : Nat) : floodSet (setNetCfg s n v) j = floodSet s j := rfl

@[simp] theorem frameLen_setNetCfg (s : State) (n : Nat) (v : NetCfg) (j : Nat) : frameLen (setNetCfg s n v) j = frameLen s j := rfl

@[simp] theorem guardOf_setNetCfg (s : State) (n : Nat) (v : NetCfg) (j : Nat) : guardOf (setNetCfg s n v) j = guardOf s j := rfl

@[simp] theorem hopSeq_setNetCfg (s : State) (n : Nat) (v : NetCfg) (j : Nat) : hopSeq (setNetCfg s n v) j = hopSeq s j := rfl

@[simp] theorem hostQueue_setNetCfg (s : State) (n : Nat) (v : NetCfg) (j : Nat) : hostQueue (setNetCfg s n v) j = hostQueue s j := rfl

@[simp] theorem linkCfg_setNetCfg (s : State) (n : Nat) (v : NetCfg) (j : Nat) : linkCfg (setNetCfg s n v) j = linkCfg s j := rfl

@[simp] theorem plainCfg_setNetCfg (s : State) (n : Nat) (v : NetCfg) (j : Nat) : plainCfg (setNetCfg s n v) j = plainCfg s j := rfl

@[simp] theorem portCfg_setNetCfg (s : State) (n : Nat) (v : NetCfg) (j : Nat) : portCfg (setNetCfg s n v) j = portCfg s j := rfl

@[simp] theorem route_setNetCfg (s : State) (n : Nat) (v : NetCfg) (j : Nat) : route (setNetCfg s n v) j = route s j := rfl

@[simp] theorem senseSet_setNetCfg (s : State) (n : Nat) (v : NetCfg) (j : Nat) : senseSet (setNetCfg s n v) j = senseSet s j := rfl

@[simp] theorem shapeOf_setNetCfg (s : State) (n : Nat) (v : NetCfg) (j : Nat) : shapeOf (setNetCfg s n v) j = shapeOf s j := rfl

@[simp] theorem txCfg_setNetCfg (s : State) (n : Nat) (v : NetCfg) (j : Nat) : txCfg (setNetCfg s n v) j = txCfg s j := rfl

@[simp] theorem setNetCfg_dev (s : State) (n : Nat) (v : NetCfg) : (setNetCfg s n v).dev = s.dev := rfl

@[simp] theorem setNetCfg_cmd (s : State) (n : Nat) (v : NetCfg) : (setNetCfg s n v).cmd = s.cmd := rfl

@[simp] theorem setNetCfg_que (s : State) (n : Nat) (v : NetCfg) : (setNetCfg s n v).que = s.que := rfl

@[simp] theorem setNetCfg_sem (s : State) (n : Nat) (v : NetCfg) : (setNetCfg s n v).sem = s.sem := rfl

@[simp] theorem setNetCfg_semReq (s : State) (n : Nat) (v : NetCfg) : (setNetCfg s n v).semReq = s.semReq := rfl

@[simp] theorem setNetCfg_trb (s : State) (n : Nat) (v : NetCfg) : (setNetCfg s n v).trb = s.trb := rfl

@[simp] theorem setNetCfg_out (s : State) (n : Nat) (v : NetCfg) : (setNetCfg s n v).out = s.out := rfl

@[simp] theorem setNetCfg_mem (s : State) (n : Nat) (v : NetCfg) : (setNetCfg s n v).mem = s.mem := rfl

@[simp] theorem setNetCfg_rx (s : State) (n : Nat) (v : NetCfg) : (setNetCfg s n v).rx = s.rx := rfl

@[simp] theorem setNetCfg_cut (s : State) (n : Nat) (v : NetCfg) : (setNetCfg s n v).cut = s.cut := rfl

@[simp] theorem setNetCfg_comb (s : State) (n : Nat) (v : NetCfg) : (setNetCfg s n v).comb = s.comb := rfl

@[simp] theorem setNetCfg_radio (s : State) (n : Nat) (v : NetCfg) : (setNetCfg s n v).radio = s.radio := rfl

@[simp] theorem setNetCfg_link (s : State) (n : Nat) (v : NetCfg) : (setNetCfg s n v).link = s.link := rfl

@[simp] theorem setNetCfg_sched (s : State) (n : Nat) (v : NetCfg) : (setNetCfg s n v).sched = s.sched := rfl

@[simp] theorem setNetCfg_air (s : State) (n : Nat) (v : NetCfg) : (setNetCfg s n v).air = s.air := rfl

@[simp] theorem setNetCfg_fwd (s : State) (n : Nat) (v : NetCfg) : (setNetCfg s n v).fwd = s.fwd := rfl

@[simp] theorem setNetCfg_bh (s : State) (n : Nat) (v : NetCfg) : (setNetCfg s n v).bh = s.bh := rfl

@[simp] theorem setNetCfg_herd (s : State) (n : Nat) (v : NetCfg) : (setNetCfg s n v).herd = s.herd := rfl

@[simp] theorem setNetCfg_host (s : State) (n : Nat) (v : NetCfg) : (setNetCfg s n v).host = s.host := rfl

@[simp] theorem setNetCfg_time (s : State) (n : Nat) (v : NetCfg) : (setNetCfg s n v).time = s.time := rfl

@[simp] theorem setNetCfg_gait (s : State) (n : Nat) (v : NetCfg) : (setNetCfg s n v).gait = s.gait := rfl

@[simp] theorem setNetCfg_tan (s : State) (n : Nat) (v : NetCfg) : (setNetCfg s n v).tan = s.tan := rfl

@[simp] theorem setNetCfg_bri (s : State) (n : Nat) (v : NetCfg) : (setNetCfg s n v).bri = s.bri := rfl

@[simp] theorem setNetCfg_vault (s : State) (n : Nat) (v : NetCfg) : (setNetCfg s n v).vault = s.vault := rfl

@[simp] theorem setNetCfg_pwr (s : State) (n : Nat) (v : NetCfg) : (setNetCfg s n v).pwr = s.pwr := rfl

@[simp] theorem setNetCfg_fw (s : State) (n : Nat) (v : NetCfg) : (setNetCfg s n v).fw = s.fw := rfl

@[simp] theorem setNetCfg_free (s : State) (n : Nat) (v : NetCfg) : (setNetCfg s n v).free = s.free := rfl

@[simp] theorem setNetCfg_pending (s : State) (n : Nat) (v : NetCfg) : (setNetCfg s n v).pending = s.pending := rfl

/-! ### setPdom -/

@[simp] theorem domain_setPdom (d : Nat) (v : Domain) (s : State) (j : Nat) : domain (setPdom d v s) j = if j = d then v else domain s j := by
  simp [domain, setPdom, tabGet_tabSet]

@[simp] theorem pdom_setPdom (d : Nat) (v : Domain) (s : State) (j : Nat) : pdom (setPdom d v s) j = if j = d then v else pdom s j := by
  simp [pdom, setPdom, tabGet_tabSet]

@[simp] theorem setPdom_cfg (d : Nat) (v : Domain) (s : State) : (setPdom d v s).cfg = s.cfg := rfl

@[simp] theorem setPdom_dev (d : Nat) (v : Domain) (s : State) : (setPdom d v s).dev = s.dev := rfl

@[simp] theorem setPdom_cmd (d : Nat) (v : Domain) (s : State) : (setPdom d v s).cmd = s.cmd := rfl

@[simp] theorem setPdom_que (d : Nat) (v : Domain) (s : State) : (setPdom d v s).que = s.que := rfl

@[simp] theorem setPdom_sem (d : Nat) (v : Domain) (s : State) : (setPdom d v s).sem = s.sem := rfl

@[simp] theorem setPdom_semReq (d : Nat) (v : Domain) (s : State) : (setPdom d v s).semReq = s.semReq := rfl

@[simp] theorem setPdom_trb (d : Nat) (v : Domain) (s : State) : (setPdom d v s).trb = s.trb := rfl

@[simp] theorem setPdom_out (d : Nat) (v : Domain) (s : State) : (setPdom d v s).out = s.out := rfl

@[simp] theorem setPdom_mem (d : Nat) (v : Domain) (s : State) : (setPdom d v s).mem = s.mem := rfl

@[simp] theorem setPdom_rx (d : Nat) (v : Domain) (s : State) : (setPdom d v s).rx = s.rx := rfl

@[simp] theorem setPdom_cut (d : Nat) (v : Domain) (s : State) : (setPdom d v s).cut = s.cut := rfl

@[simp] theorem setPdom_comb (d : Nat) (v : Domain) (s : State) : (setPdom d v s).comb = s.comb := rfl

@[simp] theorem setPdom_radio (d : Nat) (v : Domain) (s : State) : (setPdom d v s).radio = s.radio := rfl

@[simp] theorem setPdom_link (d : Nat) (v : Domain) (s : State) : (setPdom d v s).link = s.link := rfl

@[simp] theorem setPdom_sched (d : Nat) (v : Domain) (s : State) : (setPdom d v s).sched = s.sched := rfl

@[simp] theorem setPdom_air (d : Nat) (v : Domain) (s : State) : (setPdom d v s).air = s.air := rfl

@[simp] theorem setPdom_fwd (d : Nat) (v : Domain) (s : State) : (setPdom d v s).fwd = s.fwd := rfl

@[simp] theorem setPdom_bh (d : Nat) (v : Domain) (s : State) : (setPdom d v s).bh = s.bh := rfl

@[simp] theorem setPdom_herd (d : Nat) (v : Domain) (s : State) : (setPdom d v s).herd = s.herd := rfl

@[simp] theorem setPdom_host (d : Nat) (v : Domain) (s : State) : (setPdom d v s).host = s.host := rfl

@[simp] theorem setPdom_time (d : Nat) (v : Domain) (s : State) : (setPdom d v s).time = s.time := rfl

@[simp] theorem setPdom_gait (d : Nat) (v : Domain) (s : State) : (setPdom d v s).gait = s.gait := rfl

@[simp] theorem setPdom_tan (d : Nat) (v : Domain) (s : State) : (setPdom d v s).tan = s.tan := rfl

@[simp] theorem setPdom_bri (d : Nat) (v : Domain) (s : State) : (setPdom d v s).bri = s.bri := rfl

@[simp] theorem setPdom_vault (d : Nat) (v : Domain) (s : State) : (setPdom d v s).vault = s.vault := rfl

@[simp] theorem setPdom_fw (d : Nat) (v : Domain) (s : State) : (setPdom d v s).fw = s.fw := rfl

@[simp] theorem setPdom_free (d : Nat) (v : Domain) (s : State) : (setPdom d v s).free = s.free := rfl

@[simp] theorem setPdom_pending (d : Nat) (v : Domain) (s : State) : (setPdom d v s).pending = s.pending := rfl

/-! ### setPeer -/

@[simp] theorem peerOf_setPeer (s : State) (h : Nat) (v : Peer) (j : Nat) : peerOf (setPeer s h v) j = if j = h then v else peerOf s j := by
  simp [peerOf, setPeer, tabGet_tabSet]

@[simp] theorem hlink_setPeer (s : State) (h : Nat) (v : Peer) (j : Nat) : hlink (setPeer s h v) j = hlink s j := rfl

@[simp] theorem waitingTo_setPeer (s : State) (h : Nat) (v : Peer) (j : Nat) : waitingTo (setPeer s h v) j = waitingTo s j := rfl

@[simp] theorem setPeer_cfg (s : State) (h : Nat) (v : Peer) : (setPeer s h v).cfg = s.cfg := rfl

@[simp] theorem setPeer_dev (s : State) (h : Nat) (v : Peer) : (setPeer s h v).dev = s.dev := rfl

@[simp] theorem setPeer_cmd (s : State) (h : Nat) (v : Peer) : (setPeer s h v).cmd = s.cmd := rfl

@[simp] theorem setPeer_que (s : State) (h : Nat) (v : Peer) : (setPeer s h v).que = s.que := rfl

@[simp] theorem setPeer_sem (s : State) (h : Nat) (v : Peer) : (setPeer s h v).sem = s.sem := rfl

@[simp] theorem setPeer_semReq (s : State) (h : Nat) (v : Peer) : (setPeer s h v).semReq = s.semReq := rfl

@[simp] theorem setPeer_trb (s : State) (h : Nat) (v : Peer) : (setPeer s h v).trb = s.trb := rfl

@[simp] theorem setPeer_out (s : State) (h : Nat) (v : Peer) : (setPeer s h v).out = s.out := rfl

@[simp] theorem setPeer_mem (s : State) (h : Nat) (v : Peer) : (setPeer s h v).mem = s.mem := rfl

@[simp] theorem setPeer_rx (s : State) (h : Nat) (v : Peer) : (setPeer s h v).rx = s.rx := rfl

@[simp] theorem setPeer_cut (s : State) (h : Nat) (v : Peer) : (setPeer s h v).cut = s.cut := rfl

@[simp] theorem setPeer_comb (s : State) (h : Nat) (v : Peer) : (setPeer s h v).comb = s.comb := rfl

@[simp] theorem setPeer_radio (s : State) (h : Nat) (v : Peer) : (setPeer s h v).radio = s.radio := rfl

@[simp] theorem setPeer_link (s : State) (h : Nat) (v : Peer) : (setPeer s h v).link = s.link := rfl

@[simp] theorem setPeer_sched (s : State) (h : Nat) (v : Peer) : (setPeer s h v).sched = s.sched := rfl

@[simp] theorem setPeer_air (s : State) (h : Nat) (v : Peer) : (setPeer s h v).air = s.air := rfl

@[simp] theorem setPeer_fwd (s : State) (h : Nat) (v : Peer) : (setPeer s h v).fwd = s.fwd := rfl

@[simp] theorem setPeer_bh (s : State) (h : Nat) (v : Peer) : (setPeer s h v).bh = s.bh := rfl

@[simp] theorem setPeer_host (s : State) (h : Nat) (v : Peer) : (setPeer s h v).host = s.host := rfl

@[simp] theorem setPeer_time (s : State) (h : Nat) (v : Peer) : (setPeer s h v).time = s.time := rfl

@[simp] theorem setPeer_gait (s : State) (h : Nat) (v : Peer) : (setPeer s h v).gait = s.gait := rfl

@[simp] theorem setPeer_tan (s : State) (h : Nat) (v : Peer) : (setPeer s h v).tan = s.tan := rfl

@[simp] theorem setPeer_bri (s : State) (h : Nat) (v : Peer) : (setPeer s h v).bri = s.bri := rfl

@[simp] theorem setPeer_vault (s : State) (h : Nat) (v : Peer) : (setPeer s h v).vault = s.vault := rfl

@[simp] theorem setPeer_pwr (s : State) (h : Nat) (v : Peer) : (setPeer s h v).pwr = s.pwr := rfl

@[simp] theorem setPeer_fw (s : State) (h : Nat) (v : Peer) : (setPeer s h v).fw = s.fw := rfl

@[simp] theorem setPeer_free (s : State) (h : Nat) (v : Peer) : (setPeer s h v).free = s.free := rfl

@[simp] theorem setPeer_pending (s : State) (h : Nat) (v : Peer) : (setPeer s h v).pending = s.pending := rfl

/-! ### setPlainCfg -/

@[simp] theorem plainCfg_setPlainCfg (s : State) (p : Nat) (v : PlainCfg) (j : Nat) : plainCfg (setPlainCfg s p v) j = if j = p then v else plainCfg s j := by
  simp [plainCfg, setPlainCfg, tabGet_tabSet]

@[simp] theorem bandCfg_setPlainCfg (s : State) (p : Nat) (v : PlainCfg) (j : Nat) : bandCfg (setPlainCfg s p v) j = bandCfg s j := rfl

@[simp] theorem bhCfg_setPlainCfg (s : State) (p : Nat) (v : PlainCfg) (j : Nat) : bhCfg (setPlainCfg s p v) j = bhCfg s j := rfl

@[simp] theorem cellAt_setPlainCfg (s : State) (p : Nat) (v : PlainCfg) (j : Nat) : cellAt (setPlainCfg s p v) j = cellAt s j := rfl

@[simp] theorem chainCfg_setPlainCfg (s : State) (p : Nat) (v : PlainCfg) (j : Nat) : chainCfg (setPlainCfg s p v) j = chainCfg s j := rfl

@[simp] theorem cutCfg_setPlainCfg (s : State) (p : Nat) (v : PlainCfg) (j : Nat) : cutCfg (setPlainCfg s p v) j = cutCfg s j := rfl

@[simp] theorem floodSet_setPlainCfg (s : State) (p : Nat) (v : PlainCfg) (j : Nat) : floodSet (setPlainCfg s p v) j = floodSet s j := rfl

@[simp] theorem frameLen_setPlainCfg (s : State) (p : Nat) (v : PlainCfg) (j : Nat) : frameLen (setPlainCfg s p v) j = frameLen s j := rfl

@[simp] theorem guardOf_setPlainCfg (s : State) (p : Nat) (v : PlainCfg) (j : Nat) : guardOf (setPlainCfg s p v) j = guardOf s j := rfl

@[simp] theorem hopSeq_setPlainCfg (s : State) (p : Nat) (v : PlainCfg) (j : Nat) : hopSeq (setPlainCfg s p v) j = hopSeq s j := rfl

@[simp] theorem hostQueue_setPlainCfg (s : State) (p : Nat) (v : PlainCfg) (j : Nat) : hostQueue (setPlainCfg s p v) j = hostQueue s j := rfl

@[simp] theorem linkCfg_setPlainCfg (s : State) (p : Nat) (v : PlainCfg) (j : Nat) : linkCfg (setPlainCfg s p v) j = linkCfg s j := rfl

@[simp] theorem netCfg_setPlainCfg (s : State) (p : Nat) (v : PlainCfg) (j : Nat) : netCfg (setPlainCfg s p v) j = netCfg s j := rfl

@[simp] theorem portCfg_setPlainCfg (s : State) (p : Nat) (v : PlainCfg) (j : Nat) : portCfg (setPlainCfg s p v) j = portCfg s j := rfl

@[simp] theorem route_setPlainCfg (s : State) (p : Nat) (v : PlainCfg) (j : Nat) : route (setPlainCfg s p v) j = route s j := rfl

@[simp] theorem senseSet_setPlainCfg (s : State) (p : Nat) (v : PlainCfg) (j : Nat) : senseSet (setPlainCfg s p v) j = senseSet s j := rfl

@[simp] theorem shapeOf_setPlainCfg (s : State) (p : Nat) (v : PlainCfg) (j : Nat) : shapeOf (setPlainCfg s p v) j = shapeOf s j := rfl

@[simp] theorem txCfg_setPlainCfg (s : State) (p : Nat) (v : PlainCfg) (j : Nat) : txCfg (setPlainCfg s p v) j = txCfg s j := rfl

@[simp] theorem setPlainCfg_dev (s : State) (p : Nat) (v : PlainCfg) : (setPlainCfg s p v).dev = s.dev := rfl

@[simp] theorem setPlainCfg_cmd (s : State) (p : Nat) (v : PlainCfg) : (setPlainCfg s p v).cmd = s.cmd := rfl

@[simp] theorem setPlainCfg_que (s : State) (p : Nat) (v : PlainCfg) : (setPlainCfg s p v).que = s.que := rfl

@[simp] theorem setPlainCfg_sem (s : State) (p : Nat) (v : PlainCfg) : (setPlainCfg s p v).sem = s.sem := rfl

@[simp] theorem setPlainCfg_semReq (s : State) (p : Nat) (v : PlainCfg) : (setPlainCfg s p v).semReq = s.semReq := rfl

@[simp] theorem setPlainCfg_trb (s : State) (p : Nat) (v : PlainCfg) : (setPlainCfg s p v).trb = s.trb := rfl

@[simp] theorem setPlainCfg_out (s : State) (p : Nat) (v : PlainCfg) : (setPlainCfg s p v).out = s.out := rfl

@[simp] theorem setPlainCfg_mem (s : State) (p : Nat) (v : PlainCfg) : (setPlainCfg s p v).mem = s.mem := rfl

@[simp] theorem setPlainCfg_rx (s : State) (p : Nat) (v : PlainCfg) : (setPlainCfg s p v).rx = s.rx := rfl

@[simp] theorem setPlainCfg_cut (s : State) (p : Nat) (v : PlainCfg) : (setPlainCfg s p v).cut = s.cut := rfl

@[simp] theorem setPlainCfg_comb (s : State) (p : Nat) (v : PlainCfg) : (setPlainCfg s p v).comb = s.comb := rfl

@[simp] theorem setPlainCfg_radio (s : State) (p : Nat) (v : PlainCfg) : (setPlainCfg s p v).radio = s.radio := rfl

@[simp] theorem setPlainCfg_link (s : State) (p : Nat) (v : PlainCfg) : (setPlainCfg s p v).link = s.link := rfl

@[simp] theorem setPlainCfg_sched (s : State) (p : Nat) (v : PlainCfg) : (setPlainCfg s p v).sched = s.sched := rfl

@[simp] theorem setPlainCfg_air (s : State) (p : Nat) (v : PlainCfg) : (setPlainCfg s p v).air = s.air := rfl

@[simp] theorem setPlainCfg_fwd (s : State) (p : Nat) (v : PlainCfg) : (setPlainCfg s p v).fwd = s.fwd := rfl

@[simp] theorem setPlainCfg_bh (s : State) (p : Nat) (v : PlainCfg) : (setPlainCfg s p v).bh = s.bh := rfl

@[simp] theorem setPlainCfg_herd (s : State) (p : Nat) (v : PlainCfg) : (setPlainCfg s p v).herd = s.herd := rfl

@[simp] theorem setPlainCfg_host (s : State) (p : Nat) (v : PlainCfg) : (setPlainCfg s p v).host = s.host := rfl

@[simp] theorem setPlainCfg_time (s : State) (p : Nat) (v : PlainCfg) : (setPlainCfg s p v).time = s.time := rfl

@[simp] theorem setPlainCfg_gait (s : State) (p : Nat) (v : PlainCfg) : (setPlainCfg s p v).gait = s.gait := rfl

@[simp] theorem setPlainCfg_tan (s : State) (p : Nat) (v : PlainCfg) : (setPlainCfg s p v).tan = s.tan := rfl

@[simp] theorem setPlainCfg_bri (s : State) (p : Nat) (v : PlainCfg) : (setPlainCfg s p v).bri = s.bri := rfl

@[simp] theorem setPlainCfg_vault (s : State) (p : Nat) (v : PlainCfg) : (setPlainCfg s p v).vault = s.vault := rfl

@[simp] theorem setPlainCfg_pwr (s : State) (p : Nat) (v : PlainCfg) : (setPlainCfg s p v).pwr = s.pwr := rfl

@[simp] theorem setPlainCfg_fw (s : State) (p : Nat) (v : PlainCfg) : (setPlainCfg s p v).fw = s.fw := rfl

@[simp] theorem setPlainCfg_free (s : State) (p : Nat) (v : PlainCfg) : (setPlainCfg s p v).free = s.free := rfl

@[simp] theorem setPlainCfg_pending (s : State) (p : Nat) (v : PlainCfg) : (setPlainCfg s p v).pending = s.pending := rfl

/-! ### setPlainSched -/

@[simp] theorem plainSched_setPlainSched (s : State) (p : Nat) (v : PlainSched) (j : Nat) : plainSched (setPlainSched s p v) j = if j = p then v else plainSched s j := by
  simp [plainSched, setPlainSched, tabGet_tabSet]

@[simp] theorem shortfalls_setPlainSched (s : State) (p : Nat) (v : PlainSched) (j : Nat) : shortfalls (setPlainSched s p v) j = shortfalls s j := rfl

@[simp] theorem setPlainSched_cfg (s : State) (p : Nat) (v : PlainSched) : (setPlainSched s p v).cfg = s.cfg := rfl

@[simp] theorem setPlainSched_dev (s : State) (p : Nat) (v : PlainSched) : (setPlainSched s p v).dev = s.dev := rfl

@[simp] theorem setPlainSched_cmd (s : State) (p : Nat) (v : PlainSched) : (setPlainSched s p v).cmd = s.cmd := rfl

@[simp] theorem setPlainSched_que (s : State) (p : Nat) (v : PlainSched) : (setPlainSched s p v).que = s.que := rfl

@[simp] theorem setPlainSched_sem (s : State) (p : Nat) (v : PlainSched) : (setPlainSched s p v).sem = s.sem := rfl

@[simp] theorem setPlainSched_semReq (s : State) (p : Nat) (v : PlainSched) : (setPlainSched s p v).semReq = s.semReq := rfl

@[simp] theorem setPlainSched_trb (s : State) (p : Nat) (v : PlainSched) : (setPlainSched s p v).trb = s.trb := rfl

@[simp] theorem setPlainSched_out (s : State) (p : Nat) (v : PlainSched) : (setPlainSched s p v).out = s.out := rfl

@[simp] theorem setPlainSched_mem (s : State) (p : Nat) (v : PlainSched) : (setPlainSched s p v).mem = s.mem := rfl

@[simp] theorem setPlainSched_rx (s : State) (p : Nat) (v : PlainSched) : (setPlainSched s p v).rx = s.rx := rfl

@[simp] theorem setPlainSched_cut (s : State) (p : Nat) (v : PlainSched) : (setPlainSched s p v).cut = s.cut := rfl

@[simp] theorem setPlainSched_comb (s : State) (p : Nat) (v : PlainSched) : (setPlainSched s p v).comb = s.comb := rfl

@[simp] theorem setPlainSched_radio (s : State) (p : Nat) (v : PlainSched) : (setPlainSched s p v).radio = s.radio := rfl

@[simp] theorem setPlainSched_link (s : State) (p : Nat) (v : PlainSched) : (setPlainSched s p v).link = s.link := rfl

@[simp] theorem setPlainSched_air (s : State) (p : Nat) (v : PlainSched) : (setPlainSched s p v).air = s.air := rfl

@[simp] theorem setPlainSched_fwd (s : State) (p : Nat) (v : PlainSched) : (setPlainSched s p v).fwd = s.fwd := rfl

@[simp] theorem setPlainSched_bh (s : State) (p : Nat) (v : PlainSched) : (setPlainSched s p v).bh = s.bh := rfl

@[simp] theorem setPlainSched_herd (s : State) (p : Nat) (v : PlainSched) : (setPlainSched s p v).herd = s.herd := rfl

@[simp] theorem setPlainSched_host (s : State) (p : Nat) (v : PlainSched) : (setPlainSched s p v).host = s.host := rfl

@[simp] theorem setPlainSched_time (s : State) (p : Nat) (v : PlainSched) : (setPlainSched s p v).time = s.time := rfl

@[simp] theorem setPlainSched_gait (s : State) (p : Nat) (v : PlainSched) : (setPlainSched s p v).gait = s.gait := rfl

@[simp] theorem setPlainSched_tan (s : State) (p : Nat) (v : PlainSched) : (setPlainSched s p v).tan = s.tan := rfl

@[simp] theorem setPlainSched_bri (s : State) (p : Nat) (v : PlainSched) : (setPlainSched s p v).bri = s.bri := rfl

@[simp] theorem setPlainSched_vault (s : State) (p : Nat) (v : PlainSched) : (setPlainSched s p v).vault = s.vault := rfl

@[simp] theorem setPlainSched_pwr (s : State) (p : Nat) (v : PlainSched) : (setPlainSched s p v).pwr = s.pwr := rfl

@[simp] theorem setPlainSched_fw (s : State) (p : Nat) (v : PlainSched) : (setPlainSched s p v).fw = s.fw := rfl

@[simp] theorem setPlainSched_free (s : State) (p : Nat) (v : PlainSched) : (setPlainSched s p v).free = s.free := rfl

@[simp] theorem setPlainSched_pending (s : State) (p : Nat) (v : PlainSched) : (setPlainSched s p v).pending = s.pending := rfl

/-! ### setPort -/

@[simp] theorem portRun_setPort (s : State) (n : Nat) (v : Port) (j : Nat) : portRun (setPort s n v) j = if j = n then v else portRun s j := by
  simp [portRun, setPort, tabGet_tabSet]

@[simp] theorem rxPlain_setPort (s : State) (n : Nat) (v : Port) (j : Nat) : rxPlain (setPort s n v) j = rxPlain s j := rfl

@[simp] theorem setPort_cfg (s : State) (n : Nat) (v : Port) : (setPort s n v).cfg = s.cfg := rfl

@[simp] theorem setPort_dev (s : State) (n : Nat) (v : Port) : (setPort s n v).dev = s.dev := rfl

@[simp] theorem setPort_cmd (s : State) (n : Nat) (v : Port) : (setPort s n v).cmd = s.cmd := rfl

@[simp] theorem setPort_que (s : State) (n : Nat) (v : Port) : (setPort s n v).que = s.que := rfl

@[simp] theorem setPort_sem (s : State) (n : Nat) (v : Port) : (setPort s n v).sem = s.sem := rfl

@[simp] theorem setPort_semReq (s : State) (n : Nat) (v : Port) : (setPort s n v).semReq = s.semReq := rfl

@[simp] theorem setPort_trb (s : State) (n : Nat) (v : Port) : (setPort s n v).trb = s.trb := rfl

@[simp] theorem setPort_out (s : State) (n : Nat) (v : Port) : (setPort s n v).out = s.out := rfl

@[simp] theorem setPort_mem (s : State) (n : Nat) (v : Port) : (setPort s n v).mem = s.mem := rfl

@[simp] theorem setPort_cut (s : State) (n : Nat) (v : Port) : (setPort s n v).cut = s.cut := rfl

@[simp] theorem setPort_comb (s : State) (n : Nat) (v : Port) : (setPort s n v).comb = s.comb := rfl

@[simp] theorem setPort_radio (s : State) (n : Nat) (v : Port) : (setPort s n v).radio = s.radio := rfl

@[simp] theorem setPort_link (s : State) (n : Nat) (v : Port) : (setPort s n v).link = s.link := rfl

@[simp] theorem setPort_sched (s : State) (n : Nat) (v : Port) : (setPort s n v).sched = s.sched := rfl

@[simp] theorem setPort_air (s : State) (n : Nat) (v : Port) : (setPort s n v).air = s.air := rfl

@[simp] theorem setPort_fwd (s : State) (n : Nat) (v : Port) : (setPort s n v).fwd = s.fwd := rfl

@[simp] theorem setPort_bh (s : State) (n : Nat) (v : Port) : (setPort s n v).bh = s.bh := rfl

@[simp] theorem setPort_herd (s : State) (n : Nat) (v : Port) : (setPort s n v).herd = s.herd := rfl

@[simp] theorem setPort_host (s : State) (n : Nat) (v : Port) : (setPort s n v).host = s.host := rfl

@[simp] theorem setPort_time (s : State) (n : Nat) (v : Port) : (setPort s n v).time = s.time := rfl

@[simp] theorem setPort_gait (s : State) (n : Nat) (v : Port) : (setPort s n v).gait = s.gait := rfl

@[simp] theorem setPort_tan (s : State) (n : Nat) (v : Port) : (setPort s n v).tan = s.tan := rfl

@[simp] theorem setPort_bri (s : State) (n : Nat) (v : Port) : (setPort s n v).bri = s.bri := rfl

@[simp] theorem setPort_vault (s : State) (n : Nat) (v : Port) : (setPort s n v).vault = s.vault := rfl

@[simp] theorem setPort_pwr (s : State) (n : Nat) (v : Port) : (setPort s n v).pwr = s.pwr := rfl

@[simp] theorem setPort_fw (s : State) (n : Nat) (v : Port) : (setPort s n v).fw = s.fw := rfl

@[simp] theorem setPort_free (s : State) (n : Nat) (v : Port) : (setPort s n v).free = s.free := rfl

@[simp] theorem setPort_pending (s : State) (n : Nat) (v : Port) : (setPort s n v).pending = s.pending := rfl

/-! ### setPortCfg -/

@[simp] theorem portCfg_setPortCfg (s : State) (n : Nat) (v : PortCfg) (j : Nat) : portCfg (setPortCfg s n v) j = if j = n then v else portCfg s j := by
  simp [portCfg, setPortCfg, tabGet_tabSet]

@[simp] theorem bandCfg_setPortCfg (s : State) (n : Nat) (v : PortCfg) (j : Nat) : bandCfg (setPortCfg s n v) j = bandCfg s j := rfl

@[simp] theorem bhCfg_setPortCfg (s : State) (n : Nat) (v : PortCfg) (j : Nat) : bhCfg (setPortCfg s n v) j = bhCfg s j := rfl

@[simp] theorem cellAt_setPortCfg (s : State) (n : Nat) (v : PortCfg) (j : Nat) : cellAt (setPortCfg s n v) j = cellAt s j := rfl

@[simp] theorem chainCfg_setPortCfg (s : State) (n : Nat) (v : PortCfg) (j : Nat) : chainCfg (setPortCfg s n v) j = chainCfg s j := rfl

@[simp] theorem cutCfg_setPortCfg (s : State) (n : Nat) (v : PortCfg) (j : Nat) : cutCfg (setPortCfg s n v) j = cutCfg s j := rfl

@[simp] theorem floodSet_setPortCfg (s : State) (n : Nat) (v : PortCfg) (j : Nat) : floodSet (setPortCfg s n v) j = floodSet s j := rfl

@[simp] theorem frameLen_setPortCfg (s : State) (n : Nat) (v : PortCfg) (j : Nat) : frameLen (setPortCfg s n v) j = frameLen s j := rfl

@[simp] theorem guardOf_setPortCfg (s : State) (n : Nat) (v : PortCfg) (j : Nat) : guardOf (setPortCfg s n v) j = guardOf s j := rfl

@[simp] theorem hopSeq_setPortCfg (s : State) (n : Nat) (v : PortCfg) (j : Nat) : hopSeq (setPortCfg s n v) j = hopSeq s j := rfl

@[simp] theorem hostQueue_setPortCfg (s : State) (n : Nat) (v : PortCfg) (j : Nat) : hostQueue (setPortCfg s n v) j = hostQueue s j := rfl

@[simp] theorem linkCfg_setPortCfg (s : State) (n : Nat) (v : PortCfg) (j : Nat) : linkCfg (setPortCfg s n v) j = linkCfg s j := rfl

@[simp] theorem netCfg_setPortCfg (s : State) (n : Nat) (v : PortCfg) (j : Nat) : netCfg (setPortCfg s n v) j = netCfg s j := rfl

@[simp] theorem plainCfg_setPortCfg (s : State) (n : Nat) (v : PortCfg) (j : Nat) : plainCfg (setPortCfg s n v) j = plainCfg s j := rfl

@[simp] theorem route_setPortCfg (s : State) (n : Nat) (v : PortCfg) (j : Nat) : route (setPortCfg s n v) j = route s j := rfl

@[simp] theorem senseSet_setPortCfg (s : State) (n : Nat) (v : PortCfg) (j : Nat) : senseSet (setPortCfg s n v) j = senseSet s j := rfl

@[simp] theorem shapeOf_setPortCfg (s : State) (n : Nat) (v : PortCfg) (j : Nat) : shapeOf (setPortCfg s n v) j = shapeOf s j := rfl

@[simp] theorem txCfg_setPortCfg (s : State) (n : Nat) (v : PortCfg) (j : Nat) : txCfg (setPortCfg s n v) j = txCfg s j := rfl

@[simp] theorem setPortCfg_dev (s : State) (n : Nat) (v : PortCfg) : (setPortCfg s n v).dev = s.dev := rfl

@[simp] theorem setPortCfg_cmd (s : State) (n : Nat) (v : PortCfg) : (setPortCfg s n v).cmd = s.cmd := rfl

@[simp] theorem setPortCfg_que (s : State) (n : Nat) (v : PortCfg) : (setPortCfg s n v).que = s.que := rfl

@[simp] theorem setPortCfg_sem (s : State) (n : Nat) (v : PortCfg) : (setPortCfg s n v).sem = s.sem := rfl

@[simp] theorem setPortCfg_semReq (s : State) (n : Nat) (v : PortCfg) : (setPortCfg s n v).semReq = s.semReq := rfl

@[simp] theorem setPortCfg_trb (s : State) (n : Nat) (v : PortCfg) : (setPortCfg s n v).trb = s.trb := rfl

@[simp] theorem setPortCfg_out (s : State) (n : Nat) (v : PortCfg) : (setPortCfg s n v).out = s.out := rfl

@[simp] theorem setPortCfg_mem (s : State) (n : Nat) (v : PortCfg) : (setPortCfg s n v).mem = s.mem := rfl

@[simp] theorem setPortCfg_rx (s : State) (n : Nat) (v : PortCfg) : (setPortCfg s n v).rx = s.rx := rfl

@[simp] theorem setPortCfg_cut (s : State) (n : Nat) (v : PortCfg) : (setPortCfg s n v).cut = s.cut := rfl

@[simp] theorem setPortCfg_comb (s : State) (n : Nat) (v : PortCfg) : (setPortCfg s n v).comb = s.comb := rfl

@[simp] theorem setPortCfg_radio (s : State) (n : Nat) (v : PortCfg) : (setPortCfg s n v).radio = s.radio := rfl

@[simp] theorem setPortCfg_link (s : State) (n : Nat) (v : PortCfg) : (setPortCfg s n v).link = s.link := rfl

@[simp] theorem setPortCfg_sched (s : State) (n : Nat) (v : PortCfg) : (setPortCfg s n v).sched = s.sched := rfl

@[simp] theorem setPortCfg_air (s : State) (n : Nat) (v : PortCfg) : (setPortCfg s n v).air = s.air := rfl

@[simp] theorem setPortCfg_fwd (s : State) (n : Nat) (v : PortCfg) : (setPortCfg s n v).fwd = s.fwd := rfl

@[simp] theorem setPortCfg_bh (s : State) (n : Nat) (v : PortCfg) : (setPortCfg s n v).bh = s.bh := rfl

@[simp] theorem setPortCfg_herd (s : State) (n : Nat) (v : PortCfg) : (setPortCfg s n v).herd = s.herd := rfl

@[simp] theorem setPortCfg_host (s : State) (n : Nat) (v : PortCfg) : (setPortCfg s n v).host = s.host := rfl

@[simp] theorem setPortCfg_time (s : State) (n : Nat) (v : PortCfg) : (setPortCfg s n v).time = s.time := rfl

@[simp] theorem setPortCfg_gait (s : State) (n : Nat) (v : PortCfg) : (setPortCfg s n v).gait = s.gait := rfl

@[simp] theorem setPortCfg_tan (s : State) (n : Nat) (v : PortCfg) : (setPortCfg s n v).tan = s.tan := rfl

@[simp] theorem setPortCfg_bri (s : State) (n : Nat) (v : PortCfg) : (setPortCfg s n v).bri = s.bri := rfl

@[simp] theorem setPortCfg_vault (s : State) (n : Nat) (v : PortCfg) : (setPortCfg s n v).vault = s.vault := rfl

@[simp] theorem setPortCfg_pwr (s : State) (n : Nat) (v : PortCfg) : (setPortCfg s n v).pwr = s.pwr := rfl

@[simp] theorem setPortCfg_fw (s : State) (n : Nat) (v : PortCfg) : (setPortCfg s n v).fw = s.fw := rfl

@[simp] theorem setPortCfg_free (s : State) (n : Nat) (v : PortCfg) : (setPortCfg s n v).free = s.free := rfl

@[simp] theorem setPortCfg_pending (s : State) (n : Nat) (v : PortCfg) : (setPortCfg s n v).pending = s.pending := rfl

/-! ### setPtp -/

@[simp] theorem ptpRun_setPtp (s : State) (b : Nat) (v : PtpRun) (j : Nat) : ptpRun (setPtp s b v) j = if j = b then v else ptpRun s j := by
  simp [ptpRun, setPtp, tabGet_tabSet]

@[simp] theorem base_setPtp (s : State) (b : Nat) (v : PtpRun) (j : Nat) : base (setPtp s b v) j = base s j := rfl

@[simp] theorem setPtp_cfg (s : State) (b : Nat) (v : PtpRun) : (setPtp s b v).cfg = s.cfg := rfl

@[simp] theorem setPtp_dev (s : State) (b : Nat) (v : PtpRun) : (setPtp s b v).dev = s.dev := rfl

@[simp] theorem setPtp_cmd (s : State) (b : Nat) (v : PtpRun) : (setPtp s b v).cmd = s.cmd := rfl

@[simp] theorem setPtp_que (s : State) (b : Nat) (v : PtpRun) : (setPtp s b v).que = s.que := rfl

@[simp] theorem setPtp_sem (s : State) (b : Nat) (v : PtpRun) : (setPtp s b v).sem = s.sem := rfl

@[simp] theorem setPtp_semReq (s : State) (b : Nat) (v : PtpRun) : (setPtp s b v).semReq = s.semReq := rfl

@[simp] theorem setPtp_trb (s : State) (b : Nat) (v : PtpRun) : (setPtp s b v).trb = s.trb := rfl

@[simp] theorem setPtp_out (s : State) (b : Nat) (v : PtpRun) : (setPtp s b v).out = s.out := rfl

@[simp] theorem setPtp_mem (s : State) (b : Nat) (v : PtpRun) : (setPtp s b v).mem = s.mem := rfl

@[simp] theorem setPtp_rx (s : State) (b : Nat) (v : PtpRun) : (setPtp s b v).rx = s.rx := rfl

@[simp] theorem setPtp_cut (s : State) (b : Nat) (v : PtpRun) : (setPtp s b v).cut = s.cut := rfl

@[simp] theorem setPtp_comb (s : State) (b : Nat) (v : PtpRun) : (setPtp s b v).comb = s.comb := rfl

@[simp] theorem setPtp_radio (s : State) (b : Nat) (v : PtpRun) : (setPtp s b v).radio = s.radio := rfl

@[simp] theorem setPtp_link (s : State) (b : Nat) (v : PtpRun) : (setPtp s b v).link = s.link := rfl

@[simp] theorem setPtp_sched (s : State) (b : Nat) (v : PtpRun) : (setPtp s b v).sched = s.sched := rfl

@[simp] theorem setPtp_air (s : State) (b : Nat) (v : PtpRun) : (setPtp s b v).air = s.air := rfl

@[simp] theorem setPtp_fwd (s : State) (b : Nat) (v : PtpRun) : (setPtp s b v).fwd = s.fwd := rfl

@[simp] theorem setPtp_bh (s : State) (b : Nat) (v : PtpRun) : (setPtp s b v).bh = s.bh := rfl

@[simp] theorem setPtp_herd (s : State) (b : Nat) (v : PtpRun) : (setPtp s b v).herd = s.herd := rfl

@[simp] theorem setPtp_host (s : State) (b : Nat) (v : PtpRun) : (setPtp s b v).host = s.host := rfl

@[simp] theorem setPtp_gait (s : State) (b : Nat) (v : PtpRun) : (setPtp s b v).gait = s.gait := rfl

@[simp] theorem setPtp_tan (s : State) (b : Nat) (v : PtpRun) : (setPtp s b v).tan = s.tan := rfl

@[simp] theorem setPtp_bri (s : State) (b : Nat) (v : PtpRun) : (setPtp s b v).bri = s.bri := rfl

@[simp] theorem setPtp_vault (s : State) (b : Nat) (v : PtpRun) : (setPtp s b v).vault = s.vault := rfl

@[simp] theorem setPtp_pwr (s : State) (b : Nat) (v : PtpRun) : (setPtp s b v).pwr = s.pwr := rfl

@[simp] theorem setPtp_fw (s : State) (b : Nat) (v : PtpRun) : (setPtp s b v).fw = s.fw := rfl

@[simp] theorem setPtp_free (s : State) (b : Nat) (v : PtpRun) : (setPtp s b v).free = s.free := rfl

@[simp] theorem setPtp_pending (s : State) (b : Nat) (v : PtpRun) : (setPtp s b v).pending = s.pending := rfl

/-! ### setPwr -/

@[simp] theorem setPwr_self (s : State) (v : Pwr) : (setPwr s v).pwr = v := rfl

@[simp] theorem setPwr_cfg (s : State) (v : Pwr) : (setPwr s v).cfg = s.cfg := rfl

@[simp] theorem setPwr_dev (s : State) (v : Pwr) : (setPwr s v).dev = s.dev := rfl

@[simp] theorem setPwr_cmd (s : State) (v : Pwr) : (setPwr s v).cmd = s.cmd := rfl

@[simp] theorem setPwr_que (s : State) (v : Pwr) : (setPwr s v).que = s.que := rfl

@[simp] theorem setPwr_sem (s : State) (v : Pwr) : (setPwr s v).sem = s.sem := rfl

@[simp] theorem setPwr_semReq (s : State) (v : Pwr) : (setPwr s v).semReq = s.semReq := rfl

@[simp] theorem setPwr_trb (s : State) (v : Pwr) : (setPwr s v).trb = s.trb := rfl

@[simp] theorem setPwr_out (s : State) (v : Pwr) : (setPwr s v).out = s.out := rfl

@[simp] theorem setPwr_mem (s : State) (v : Pwr) : (setPwr s v).mem = s.mem := rfl

@[simp] theorem setPwr_rx (s : State) (v : Pwr) : (setPwr s v).rx = s.rx := rfl

@[simp] theorem setPwr_cut (s : State) (v : Pwr) : (setPwr s v).cut = s.cut := rfl

@[simp] theorem setPwr_comb (s : State) (v : Pwr) : (setPwr s v).comb = s.comb := rfl

@[simp] theorem setPwr_radio (s : State) (v : Pwr) : (setPwr s v).radio = s.radio := rfl

@[simp] theorem setPwr_link (s : State) (v : Pwr) : (setPwr s v).link = s.link := rfl

@[simp] theorem setPwr_sched (s : State) (v : Pwr) : (setPwr s v).sched = s.sched := rfl

@[simp] theorem setPwr_air (s : State) (v : Pwr) : (setPwr s v).air = s.air := rfl

@[simp] theorem setPwr_fwd (s : State) (v : Pwr) : (setPwr s v).fwd = s.fwd := rfl

@[simp] theorem setPwr_bh (s : State) (v : Pwr) : (setPwr s v).bh = s.bh := rfl

@[simp] theorem setPwr_herd (s : State) (v : Pwr) : (setPwr s v).herd = s.herd := rfl

@[simp] theorem setPwr_host (s : State) (v : Pwr) : (setPwr s v).host = s.host := rfl

@[simp] theorem setPwr_time (s : State) (v : Pwr) : (setPwr s v).time = s.time := rfl

@[simp] theorem setPwr_gait (s : State) (v : Pwr) : (setPwr s v).gait = s.gait := rfl

@[simp] theorem setPwr_tan (s : State) (v : Pwr) : (setPwr s v).tan = s.tan := rfl

@[simp] theorem setPwr_bri (s : State) (v : Pwr) : (setPwr s v).bri = s.bri := rfl

@[simp] theorem setPwr_vault (s : State) (v : Pwr) : (setPwr s v).vault = s.vault := rfl

@[simp] theorem setPwr_fw (s : State) (v : Pwr) : (setPwr s v).fw = s.fw := rfl

@[simp] theorem setPwr_free (s : State) (v : Pwr) : (setPwr s v).free = s.free := rfl

@[simp] theorem setPwr_pending (s : State) (v : Pwr) : (setPwr s v).pending = s.pending := rfl

/-! ### setQue -/

@[simp] theorem setQue_cfg (s : State) (q : Nat) (v : Queue) : (setQue s q v).cfg = s.cfg := rfl

@[simp] theorem setQue_dev (s : State) (q : Nat) (v : Queue) : (setQue s q v).dev = s.dev := rfl

@[simp] theorem setQue_cmd (s : State) (q : Nat) (v : Queue) : (setQue s q v).cmd = s.cmd := rfl

@[simp] theorem setQue_sem (s : State) (q : Nat) (v : Queue) : (setQue s q v).sem = s.sem := rfl

@[simp] theorem setQue_semReq (s : State) (q : Nat) (v : Queue) : (setQue s q v).semReq = s.semReq := rfl

@[simp] theorem setQue_trb (s : State) (q : Nat) (v : Queue) : (setQue s q v).trb = s.trb := rfl

@[simp] theorem setQue_out (s : State) (q : Nat) (v : Queue) : (setQue s q v).out = s.out := rfl

@[simp] theorem setQue_mem (s : State) (q : Nat) (v : Queue) : (setQue s q v).mem = s.mem := rfl

@[simp] theorem setQue_rx (s : State) (q : Nat) (v : Queue) : (setQue s q v).rx = s.rx := rfl

@[simp] theorem setQue_cut (s : State) (q : Nat) (v : Queue) : (setQue s q v).cut = s.cut := rfl

@[simp] theorem setQue_comb (s : State) (q : Nat) (v : Queue) : (setQue s q v).comb = s.comb := rfl

@[simp] theorem setQue_radio (s : State) (q : Nat) (v : Queue) : (setQue s q v).radio = s.radio := rfl

@[simp] theorem setQue_link (s : State) (q : Nat) (v : Queue) : (setQue s q v).link = s.link := rfl

@[simp] theorem setQue_sched (s : State) (q : Nat) (v : Queue) : (setQue s q v).sched = s.sched := rfl

@[simp] theorem setQue_air (s : State) (q : Nat) (v : Queue) : (setQue s q v).air = s.air := rfl

@[simp] theorem setQue_fwd (s : State) (q : Nat) (v : Queue) : (setQue s q v).fwd = s.fwd := rfl

@[simp] theorem setQue_bh (s : State) (q : Nat) (v : Queue) : (setQue s q v).bh = s.bh := rfl

@[simp] theorem setQue_herd (s : State) (q : Nat) (v : Queue) : (setQue s q v).herd = s.herd := rfl

@[simp] theorem setQue_host (s : State) (q : Nat) (v : Queue) : (setQue s q v).host = s.host := rfl

@[simp] theorem setQue_time (s : State) (q : Nat) (v : Queue) : (setQue s q v).time = s.time := rfl

@[simp] theorem setQue_gait (s : State) (q : Nat) (v : Queue) : (setQue s q v).gait = s.gait := rfl

@[simp] theorem setQue_tan (s : State) (q : Nat) (v : Queue) : (setQue s q v).tan = s.tan := rfl

@[simp] theorem setQue_bri (s : State) (q : Nat) (v : Queue) : (setQue s q v).bri = s.bri := rfl

@[simp] theorem setQue_vault (s : State) (q : Nat) (v : Queue) : (setQue s q v).vault = s.vault := rfl

@[simp] theorem setQue_pwr (s : State) (q : Nat) (v : Queue) : (setQue s q v).pwr = s.pwr := rfl

@[simp] theorem setQue_fw (s : State) (q : Nat) (v : Queue) : (setQue s q v).fw = s.fw := rfl

@[simp] theorem setQue_free (s : State) (q : Nat) (v : Queue) : (setQue s q v).free = s.free := rfl

@[simp] theorem setQue_pending (s : State) (q : Nat) (v : Queue) : (setQue s q v).pending = s.pending := rfl

/-! ### setRck -/

@[simp] theorem rck_setRck (s : State) (r : Nat) (v : Rck) (j : Nat) : rck (setRck s r v) j = if j = r then v else rck s j := by
  simp [rck, setRck, tabGet_tabSet]

@[simp] theorem txRun_setRck (s : State) (r : Nat) (v : Rck) (j : Nat) : txRun (setRck s r v) j = txRun s j := rfl

@[simp] theorem setRck_cfg (s : State) (r : Nat) (v : Rck) : (setRck s r v).cfg = s.cfg := rfl

@[simp] theorem setRck_dev (s : State) (r : Nat) (v : Rck) : (setRck s r v).dev = s.dev := rfl

@[simp] theorem setRck_cmd (s : State) (r : Nat) (v : Rck) : (setRck s r v).cmd = s.cmd := rfl

@[simp] theorem setRck_que (s : State) (r : Nat) (v : Rck) : (setRck s r v).que = s.que := rfl

@[simp] theorem setRck_sem (s : State) (r : Nat) (v : Rck) : (setRck s r v).sem = s.sem := rfl

@[simp] theorem setRck_semReq (s : State) (r : Nat) (v : Rck) : (setRck s r v).semReq = s.semReq := rfl

@[simp] theorem setRck_trb (s : State) (r : Nat) (v : Rck) : (setRck s r v).trb = s.trb := rfl

@[simp] theorem setRck_out (s : State) (r : Nat) (v : Rck) : (setRck s r v).out = s.out := rfl

@[simp] theorem setRck_mem (s : State) (r : Nat) (v : Rck) : (setRck s r v).mem = s.mem := rfl

@[simp] theorem setRck_rx (s : State) (r : Nat) (v : Rck) : (setRck s r v).rx = s.rx := rfl

@[simp] theorem setRck_cut (s : State) (r : Nat) (v : Rck) : (setRck s r v).cut = s.cut := rfl

@[simp] theorem setRck_comb (s : State) (r : Nat) (v : Rck) : (setRck s r v).comb = s.comb := rfl

@[simp] theorem setRck_link (s : State) (r : Nat) (v : Rck) : (setRck s r v).link = s.link := rfl

@[simp] theorem setRck_sched (s : State) (r : Nat) (v : Rck) : (setRck s r v).sched = s.sched := rfl

@[simp] theorem setRck_air (s : State) (r : Nat) (v : Rck) : (setRck s r v).air = s.air := rfl

@[simp] theorem setRck_fwd (s : State) (r : Nat) (v : Rck) : (setRck s r v).fwd = s.fwd := rfl

@[simp] theorem setRck_bh (s : State) (r : Nat) (v : Rck) : (setRck s r v).bh = s.bh := rfl

@[simp] theorem setRck_herd (s : State) (r : Nat) (v : Rck) : (setRck s r v).herd = s.herd := rfl

@[simp] theorem setRck_host (s : State) (r : Nat) (v : Rck) : (setRck s r v).host = s.host := rfl

@[simp] theorem setRck_time (s : State) (r : Nat) (v : Rck) : (setRck s r v).time = s.time := rfl

@[simp] theorem setRck_gait (s : State) (r : Nat) (v : Rck) : (setRck s r v).gait = s.gait := rfl

@[simp] theorem setRck_tan (s : State) (r : Nat) (v : Rck) : (setRck s r v).tan = s.tan := rfl

@[simp] theorem setRck_bri (s : State) (r : Nat) (v : Rck) : (setRck s r v).bri = s.bri := rfl

@[simp] theorem setRck_vault (s : State) (r : Nat) (v : Rck) : (setRck s r v).vault = s.vault := rfl

@[simp] theorem setRck_pwr (s : State) (r : Nat) (v : Rck) : (setRck s r v).pwr = s.pwr := rfl

@[simp] theorem setRck_fw (s : State) (r : Nat) (v : Rck) : (setRck s r v).fw = s.fw := rfl

@[simp] theorem setRck_free (s : State) (r : Nat) (v : Rck) : (setRck s r v).free = s.free := rfl

@[simp] theorem setRck_pending (s : State) (r : Nat) (v : Rck) : (setRck s r v).pending = s.pending := rfl

/-! ### setRxPlain -/

@[simp] theorem rxPlain_setRxPlain (s : State) (p : Nat) (v : RxPlain) (j : Nat) : rxPlain (setRxPlain s p v) j = if j = p then v else rxPlain s j := by
  simp [rxPlain, setRxPlain, tabGet_tabSet]

@[simp] theorem portRun_setRxPlain (s : State) (p : Nat) (v : RxPlain) (j : Nat) : portRun (setRxPlain s p v) j = portRun s j := rfl

@[simp] theorem setRxPlain_cfg (s : State) (p : Nat) (v : RxPlain) : (setRxPlain s p v).cfg = s.cfg := rfl

@[simp] theorem setRxPlain_dev (s : State) (p : Nat) (v : RxPlain) : (setRxPlain s p v).dev = s.dev := rfl

@[simp] theorem setRxPlain_cmd (s : State) (p : Nat) (v : RxPlain) : (setRxPlain s p v).cmd = s.cmd := rfl

@[simp] theorem setRxPlain_que (s : State) (p : Nat) (v : RxPlain) : (setRxPlain s p v).que = s.que := rfl

@[simp] theorem setRxPlain_sem (s : State) (p : Nat) (v : RxPlain) : (setRxPlain s p v).sem = s.sem := rfl

@[simp] theorem setRxPlain_semReq (s : State) (p : Nat) (v : RxPlain) : (setRxPlain s p v).semReq = s.semReq := rfl

@[simp] theorem setRxPlain_trb (s : State) (p : Nat) (v : RxPlain) : (setRxPlain s p v).trb = s.trb := rfl

@[simp] theorem setRxPlain_out (s : State) (p : Nat) (v : RxPlain) : (setRxPlain s p v).out = s.out := rfl

@[simp] theorem setRxPlain_mem (s : State) (p : Nat) (v : RxPlain) : (setRxPlain s p v).mem = s.mem := rfl

@[simp] theorem setRxPlain_cut (s : State) (p : Nat) (v : RxPlain) : (setRxPlain s p v).cut = s.cut := rfl

@[simp] theorem setRxPlain_comb (s : State) (p : Nat) (v : RxPlain) : (setRxPlain s p v).comb = s.comb := rfl

@[simp] theorem setRxPlain_radio (s : State) (p : Nat) (v : RxPlain) : (setRxPlain s p v).radio = s.radio := rfl

@[simp] theorem setRxPlain_link (s : State) (p : Nat) (v : RxPlain) : (setRxPlain s p v).link = s.link := rfl

@[simp] theorem setRxPlain_sched (s : State) (p : Nat) (v : RxPlain) : (setRxPlain s p v).sched = s.sched := rfl

@[simp] theorem setRxPlain_air (s : State) (p : Nat) (v : RxPlain) : (setRxPlain s p v).air = s.air := rfl

@[simp] theorem setRxPlain_fwd (s : State) (p : Nat) (v : RxPlain) : (setRxPlain s p v).fwd = s.fwd := rfl

@[simp] theorem setRxPlain_bh (s : State) (p : Nat) (v : RxPlain) : (setRxPlain s p v).bh = s.bh := rfl

@[simp] theorem setRxPlain_herd (s : State) (p : Nat) (v : RxPlain) : (setRxPlain s p v).herd = s.herd := rfl

@[simp] theorem setRxPlain_host (s : State) (p : Nat) (v : RxPlain) : (setRxPlain s p v).host = s.host := rfl

@[simp] theorem setRxPlain_time (s : State) (p : Nat) (v : RxPlain) : (setRxPlain s p v).time = s.time := rfl

@[simp] theorem setRxPlain_gait (s : State) (p : Nat) (v : RxPlain) : (setRxPlain s p v).gait = s.gait := rfl

@[simp] theorem setRxPlain_tan (s : State) (p : Nat) (v : RxPlain) : (setRxPlain s p v).tan = s.tan := rfl

@[simp] theorem setRxPlain_bri (s : State) (p : Nat) (v : RxPlain) : (setRxPlain s p v).bri = s.bri := rfl

@[simp] theorem setRxPlain_vault (s : State) (p : Nat) (v : RxPlain) : (setRxPlain s p v).vault = s.vault := rfl

@[simp] theorem setRxPlain_pwr (s : State) (p : Nat) (v : RxPlain) : (setRxPlain s p v).pwr = s.pwr := rfl

@[simp] theorem setRxPlain_fw (s : State) (p : Nat) (v : RxPlain) : (setRxPlain s p v).fw = s.fw := rfl

@[simp] theorem setRxPlain_free (s : State) (p : Nat) (v : RxPlain) : (setRxPlain s p v).free = s.free := rfl

@[simp] theorem setRxPlain_pending (s : State) (p : Nat) (v : RxPlain) : (setRxPlain s p v).pending = s.pending := rfl

/-! ### setSched -/

@[simp] theorem setSched_self (s : State) (v : SchedCfg) : (setSched s v).cfg.sched = v := rfl

@[simp] theorem bandCfg_setSched (s : State) (v : SchedCfg) (j : Nat) : bandCfg (setSched s v) j = bandCfg s j := rfl

@[simp] theorem bhCfg_setSched (s : State) (v : SchedCfg) (j : Nat) : bhCfg (setSched s v) j = bhCfg s j := rfl

@[simp] theorem chainCfg_setSched (s : State) (v : SchedCfg) (j : Nat) : chainCfg (setSched s v) j = chainCfg s j := rfl

@[simp] theorem cutCfg_setSched (s : State) (v : SchedCfg) (j : Nat) : cutCfg (setSched s v) j = cutCfg s j := rfl

@[simp] theorem floodSet_setSched (s : State) (v : SchedCfg) (j : Nat) : floodSet (setSched s v) j = floodSet s j := rfl

@[simp] theorem hostQueue_setSched (s : State) (v : SchedCfg) (j : Nat) : hostQueue (setSched s v) j = hostQueue s j := rfl

@[simp] theorem linkCfg_setSched (s : State) (v : SchedCfg) (j : Nat) : linkCfg (setSched s v) j = linkCfg s j := rfl

@[simp] theorem netCfg_setSched (s : State) (v : SchedCfg) (j : Nat) : netCfg (setSched s v) j = netCfg s j := rfl

@[simp] theorem plainCfg_setSched (s : State) (v : SchedCfg) (j : Nat) : plainCfg (setSched s v) j = plainCfg s j := rfl

@[simp] theorem portCfg_setSched (s : State) (v : SchedCfg) (j : Nat) : portCfg (setSched s v) j = portCfg s j := rfl

@[simp] theorem route_setSched (s : State) (v : SchedCfg) (j : Nat) : route (setSched s v) j = route s j := rfl

@[simp] theorem senseSet_setSched (s : State) (v : SchedCfg) (j : Nat) : senseSet (setSched s v) j = senseSet s j := rfl

@[simp] theorem shapeOf_setSched (s : State) (v : SchedCfg) (j : Nat) : shapeOf (setSched s v) j = shapeOf s j := rfl

@[simp] theorem txCfg_setSched (s : State) (v : SchedCfg) (j : Nat) : txCfg (setSched s v) j = txCfg s j := rfl

@[simp] theorem setSched_dev (s : State) (v : SchedCfg) : (setSched s v).dev = s.dev := rfl

@[simp] theorem setSched_cmd (s : State) (v : SchedCfg) : (setSched s v).cmd = s.cmd := rfl

@[simp] theorem setSched_que (s : State) (v : SchedCfg) : (setSched s v).que = s.que := rfl

@[simp] theorem setSched_sem (s : State) (v : SchedCfg) : (setSched s v).sem = s.sem := rfl

@[simp] theorem setSched_semReq (s : State) (v : SchedCfg) : (setSched s v).semReq = s.semReq := rfl

@[simp] theorem setSched_trb (s : State) (v : SchedCfg) : (setSched s v).trb = s.trb := rfl

@[simp] theorem setSched_out (s : State) (v : SchedCfg) : (setSched s v).out = s.out := rfl

@[simp] theorem setSched_mem (s : State) (v : SchedCfg) : (setSched s v).mem = s.mem := rfl

@[simp] theorem setSched_rx (s : State) (v : SchedCfg) : (setSched s v).rx = s.rx := rfl

@[simp] theorem setSched_cut (s : State) (v : SchedCfg) : (setSched s v).cut = s.cut := rfl

@[simp] theorem setSched_comb (s : State) (v : SchedCfg) : (setSched s v).comb = s.comb := rfl

@[simp] theorem setSched_radio (s : State) (v : SchedCfg) : (setSched s v).radio = s.radio := rfl

@[simp] theorem setSched_link (s : State) (v : SchedCfg) : (setSched s v).link = s.link := rfl

@[simp] theorem setSched_sched (s : State) (v : SchedCfg) : (setSched s v).sched = s.sched := rfl

@[simp] theorem setSched_air (s : State) (v : SchedCfg) : (setSched s v).air = s.air := rfl

@[simp] theorem setSched_fwd (s : State) (v : SchedCfg) : (setSched s v).fwd = s.fwd := rfl

@[simp] theorem setSched_bh (s : State) (v : SchedCfg) : (setSched s v).bh = s.bh := rfl

@[simp] theorem setSched_herd (s : State) (v : SchedCfg) : (setSched s v).herd = s.herd := rfl

@[simp] theorem setSched_host (s : State) (v : SchedCfg) : (setSched s v).host = s.host := rfl

@[simp] theorem setSched_time (s : State) (v : SchedCfg) : (setSched s v).time = s.time := rfl

@[simp] theorem setSched_gait (s : State) (v : SchedCfg) : (setSched s v).gait = s.gait := rfl

@[simp] theorem setSched_tan (s : State) (v : SchedCfg) : (setSched s v).tan = s.tan := rfl

@[simp] theorem setSched_bri (s : State) (v : SchedCfg) : (setSched s v).bri = s.bri := rfl

@[simp] theorem setSched_vault (s : State) (v : SchedCfg) : (setSched s v).vault = s.vault := rfl

@[simp] theorem setSched_pwr (s : State) (v : SchedCfg) : (setSched s v).pwr = s.pwr := rfl

@[simp] theorem setSched_fw (s : State) (v : SchedCfg) : (setSched s v).fw = s.fw := rfl

@[simp] theorem setSched_free (s : State) (v : SchedCfg) : (setSched s v).free = s.free := rfl

@[simp] theorem setSched_pending (s : State) (v : SchedCfg) : (setSched s v).pending = s.pending := rfl

/-! ### setSem -/

@[simp] theorem setSem_cfg (s : State) (n : Nat) (v : Sem) : (setSem s n v).cfg = s.cfg := rfl

@[simp] theorem setSem_dev (s : State) (n : Nat) (v : Sem) : (setSem s n v).dev = s.dev := rfl

@[simp] theorem setSem_cmd (s : State) (n : Nat) (v : Sem) : (setSem s n v).cmd = s.cmd := rfl

@[simp] theorem setSem_que (s : State) (n : Nat) (v : Sem) : (setSem s n v).que = s.que := rfl

@[simp] theorem setSem_semReq (s : State) (n : Nat) (v : Sem) : (setSem s n v).semReq = s.semReq := rfl

@[simp] theorem setSem_trb (s : State) (n : Nat) (v : Sem) : (setSem s n v).trb = s.trb := rfl

@[simp] theorem setSem_out (s : State) (n : Nat) (v : Sem) : (setSem s n v).out = s.out := rfl

@[simp] theorem setSem_mem (s : State) (n : Nat) (v : Sem) : (setSem s n v).mem = s.mem := rfl

@[simp] theorem setSem_rx (s : State) (n : Nat) (v : Sem) : (setSem s n v).rx = s.rx := rfl

@[simp] theorem setSem_cut (s : State) (n : Nat) (v : Sem) : (setSem s n v).cut = s.cut := rfl

@[simp] theorem setSem_comb (s : State) (n : Nat) (v : Sem) : (setSem s n v).comb = s.comb := rfl

@[simp] theorem setSem_radio (s : State) (n : Nat) (v : Sem) : (setSem s n v).radio = s.radio := rfl

@[simp] theorem setSem_link (s : State) (n : Nat) (v : Sem) : (setSem s n v).link = s.link := rfl

@[simp] theorem setSem_sched (s : State) (n : Nat) (v : Sem) : (setSem s n v).sched = s.sched := rfl

@[simp] theorem setSem_air (s : State) (n : Nat) (v : Sem) : (setSem s n v).air = s.air := rfl

@[simp] theorem setSem_fwd (s : State) (n : Nat) (v : Sem) : (setSem s n v).fwd = s.fwd := rfl

@[simp] theorem setSem_bh (s : State) (n : Nat) (v : Sem) : (setSem s n v).bh = s.bh := rfl

@[simp] theorem setSem_herd (s : State) (n : Nat) (v : Sem) : (setSem s n v).herd = s.herd := rfl

@[simp] theorem setSem_host (s : State) (n : Nat) (v : Sem) : (setSem s n v).host = s.host := rfl

@[simp] theorem setSem_time (s : State) (n : Nat) (v : Sem) : (setSem s n v).time = s.time := rfl

@[simp] theorem setSem_gait (s : State) (n : Nat) (v : Sem) : (setSem s n v).gait = s.gait := rfl

@[simp] theorem setSem_tan (s : State) (n : Nat) (v : Sem) : (setSem s n v).tan = s.tan := rfl

@[simp] theorem setSem_bri (s : State) (n : Nat) (v : Sem) : (setSem s n v).bri = s.bri := rfl

@[simp] theorem setSem_vault (s : State) (n : Nat) (v : Sem) : (setSem s n v).vault = s.vault := rfl

@[simp] theorem setSem_pwr (s : State) (n : Nat) (v : Sem) : (setSem s n v).pwr = s.pwr := rfl

@[simp] theorem setSem_fw (s : State) (n : Nat) (v : Sem) : (setSem s n v).fw = s.fw := rfl

@[simp] theorem setSem_free (s : State) (n : Nat) (v : Sem) : (setSem s n v).free = s.free := rfl

@[simp] theorem setSem_pending (s : State) (n : Nat) (v : Sem) : (setSem s n v).pending = s.pending := rfl

/-! ### setSlot -/

@[simp] theorem vaultSlot_setSlot (k : Nat) (v : Slot) (s : State) (j : Nat) : vaultSlot (setSlot k v s) j = if j = k then v else vaultSlot s j := by
  simp [vaultSlot, setSlot, tabGet_tabSet]

@[simp] theorem startCount_setSlot (k : Nat) (v : Slot) (s : State) (j : Nat) : startCount (setSlot k v s) j = startCount s j := rfl

@[simp] theorem setSlot_cfg (k : Nat) (v : Slot) (s : State) : (setSlot k v s).cfg = s.cfg := rfl

@[simp] theorem setSlot_dev (k : Nat) (v : Slot) (s : State) : (setSlot k v s).dev = s.dev := rfl

@[simp] theorem setSlot_cmd (k : Nat) (v : Slot) (s : State) : (setSlot k v s).cmd = s.cmd := rfl

@[simp] theorem setSlot_que (k : Nat) (v : Slot) (s : State) : (setSlot k v s).que = s.que := rfl

@[simp] theorem setSlot_sem (k : Nat) (v : Slot) (s : State) : (setSlot k v s).sem = s.sem := rfl

@[simp] theorem setSlot_semReq (k : Nat) (v : Slot) (s : State) : (setSlot k v s).semReq = s.semReq := rfl

@[simp] theorem setSlot_trb (k : Nat) (v : Slot) (s : State) : (setSlot k v s).trb = s.trb := rfl

@[simp] theorem setSlot_out (k : Nat) (v : Slot) (s : State) : (setSlot k v s).out = s.out := rfl

@[simp] theorem setSlot_mem (k : Nat) (v : Slot) (s : State) : (setSlot k v s).mem = s.mem := rfl

@[simp] theorem setSlot_rx (k : Nat) (v : Slot) (s : State) : (setSlot k v s).rx = s.rx := rfl

@[simp] theorem setSlot_cut (k : Nat) (v : Slot) (s : State) : (setSlot k v s).cut = s.cut := rfl

@[simp] theorem setSlot_comb (k : Nat) (v : Slot) (s : State) : (setSlot k v s).comb = s.comb := rfl

@[simp] theorem setSlot_radio (k : Nat) (v : Slot) (s : State) : (setSlot k v s).radio = s.radio := rfl

@[simp] theorem setSlot_link (k : Nat) (v : Slot) (s : State) : (setSlot k v s).link = s.link := rfl

@[simp] theorem setSlot_sched (k : Nat) (v : Slot) (s : State) : (setSlot k v s).sched = s.sched := rfl

@[simp] theorem setSlot_air (k : Nat) (v : Slot) (s : State) : (setSlot k v s).air = s.air := rfl

@[simp] theorem setSlot_fwd (k : Nat) (v : Slot) (s : State) : (setSlot k v s).fwd = s.fwd := rfl

@[simp] theorem setSlot_bh (k : Nat) (v : Slot) (s : State) : (setSlot k v s).bh = s.bh := rfl

@[simp] theorem setSlot_herd (k : Nat) (v : Slot) (s : State) : (setSlot k v s).herd = s.herd := rfl

@[simp] theorem setSlot_host (k : Nat) (v : Slot) (s : State) : (setSlot k v s).host = s.host := rfl

@[simp] theorem setSlot_time (k : Nat) (v : Slot) (s : State) : (setSlot k v s).time = s.time := rfl

@[simp] theorem setSlot_gait (k : Nat) (v : Slot) (s : State) : (setSlot k v s).gait = s.gait := rfl

@[simp] theorem setSlot_tan (k : Nat) (v : Slot) (s : State) : (setSlot k v s).tan = s.tan := rfl

@[simp] theorem setSlot_bri (k : Nat) (v : Slot) (s : State) : (setSlot k v s).bri = s.bri := rfl

@[simp] theorem setSlot_pwr (k : Nat) (v : Slot) (s : State) : (setSlot k v s).pwr = s.pwr := rfl

@[simp] theorem setSlot_fw (k : Nat) (v : Slot) (s : State) : (setSlot k v s).fw = s.fw := rfl

@[simp] theorem setSlot_free (k : Nat) (v : Slot) (s : State) : (setSlot k v s).free = s.free := rfl

@[simp] theorem setSlot_pending (k : Nat) (v : Slot) (s : State) : (setSlot k v s).pending = s.pending := rfl

/-! ### setTan -/

@[simp] theorem setTan_self (s : State) (v : Tandem) : (setTan s v).tan = v := rfl

@[simp] theorem setTan_cfg (s : State) (v : Tandem) : (setTan s v).cfg = s.cfg := rfl

@[simp] theorem setTan_dev (s : State) (v : Tandem) : (setTan s v).dev = s.dev := rfl

@[simp] theorem setTan_cmd (s : State) (v : Tandem) : (setTan s v).cmd = s.cmd := rfl

@[simp] theorem setTan_que (s : State) (v : Tandem) : (setTan s v).que = s.que := rfl

@[simp] theorem setTan_sem (s : State) (v : Tandem) : (setTan s v).sem = s.sem := rfl

@[simp] theorem setTan_semReq (s : State) (v : Tandem) : (setTan s v).semReq = s.semReq := rfl

@[simp] theorem setTan_trb (s : State) (v : Tandem) : (setTan s v).trb = s.trb := rfl

@[simp] theorem setTan_out (s : State) (v : Tandem) : (setTan s v).out = s.out := rfl

@[simp] theorem setTan_mem (s : State) (v : Tandem) : (setTan s v).mem = s.mem := rfl

@[simp] theorem setTan_rx (s : State) (v : Tandem) : (setTan s v).rx = s.rx := rfl

@[simp] theorem setTan_cut (s : State) (v : Tandem) : (setTan s v).cut = s.cut := rfl

@[simp] theorem setTan_comb (s : State) (v : Tandem) : (setTan s v).comb = s.comb := rfl

@[simp] theorem setTan_radio (s : State) (v : Tandem) : (setTan s v).radio = s.radio := rfl

@[simp] theorem setTan_link (s : State) (v : Tandem) : (setTan s v).link = s.link := rfl

@[simp] theorem setTan_sched (s : State) (v : Tandem) : (setTan s v).sched = s.sched := rfl

@[simp] theorem setTan_air (s : State) (v : Tandem) : (setTan s v).air = s.air := rfl

@[simp] theorem setTan_fwd (s : State) (v : Tandem) : (setTan s v).fwd = s.fwd := rfl

@[simp] theorem setTan_bh (s : State) (v : Tandem) : (setTan s v).bh = s.bh := rfl

@[simp] theorem setTan_herd (s : State) (v : Tandem) : (setTan s v).herd = s.herd := rfl

@[simp] theorem setTan_host (s : State) (v : Tandem) : (setTan s v).host = s.host := rfl

@[simp] theorem setTan_time (s : State) (v : Tandem) : (setTan s v).time = s.time := rfl

@[simp] theorem setTan_gait (s : State) (v : Tandem) : (setTan s v).gait = s.gait := rfl

@[simp] theorem setTan_bri (s : State) (v : Tandem) : (setTan s v).bri = s.bri := rfl

@[simp] theorem setTan_vault (s : State) (v : Tandem) : (setTan s v).vault = s.vault := rfl

@[simp] theorem setTan_pwr (s : State) (v : Tandem) : (setTan s v).pwr = s.pwr := rfl

@[simp] theorem setTan_fw (s : State) (v : Tandem) : (setTan s v).fw = s.fw := rfl

@[simp] theorem setTan_free (s : State) (v : Tandem) : (setTan s v).free = s.free := rfl

@[simp] theorem setTan_pending (s : State) (v : Tandem) : (setTan s v).pending = s.pending := rfl

/-! ### setTokens -/

@[simp] theorem tokens_setTokens (s : State) (k : Nat) (v : Tokens) (j : Nat) : tokens (setTokens s k v) j = if j = k then v else tokens s j := by
  simp [tokens, setTokens, tabGet_tabSet]

@[simp] theorem band_setTokens (s : State) (k : Nat) (v : Tokens) (j : Nat) : band (setTokens s k v) j = band s j := rfl

@[simp] theorem setTokens_cfg (s : State) (k : Nat) (v : Tokens) : (setTokens s k v).cfg = s.cfg := rfl

@[simp] theorem setTokens_dev (s : State) (k : Nat) (v : Tokens) : (setTokens s k v).dev = s.dev := rfl

@[simp] theorem setTokens_cmd (s : State) (k : Nat) (v : Tokens) : (setTokens s k v).cmd = s.cmd := rfl

@[simp] theorem setTokens_que (s : State) (k : Nat) (v : Tokens) : (setTokens s k v).que = s.que := rfl

@[simp] theorem setTokens_sem (s : State) (k : Nat) (v : Tokens) : (setTokens s k v).sem = s.sem := rfl

@[simp] theorem setTokens_semReq (s : State) (k : Nat) (v : Tokens) : (setTokens s k v).semReq = s.semReq := rfl

@[simp] theorem setTokens_trb (s : State) (k : Nat) (v : Tokens) : (setTokens s k v).trb = s.trb := rfl

@[simp] theorem setTokens_out (s : State) (k : Nat) (v : Tokens) : (setTokens s k v).out = s.out := rfl

@[simp] theorem setTokens_mem (s : State) (k : Nat) (v : Tokens) : (setTokens s k v).mem = s.mem := rfl

@[simp] theorem setTokens_rx (s : State) (k : Nat) (v : Tokens) : (setTokens s k v).rx = s.rx := rfl

@[simp] theorem setTokens_cut (s : State) (k : Nat) (v : Tokens) : (setTokens s k v).cut = s.cut := rfl

@[simp] theorem setTokens_comb (s : State) (k : Nat) (v : Tokens) : (setTokens s k v).comb = s.comb := rfl

@[simp] theorem setTokens_radio (s : State) (k : Nat) (v : Tokens) : (setTokens s k v).radio = s.radio := rfl

@[simp] theorem setTokens_link (s : State) (k : Nat) (v : Tokens) : (setTokens s k v).link = s.link := rfl

@[simp] theorem setTokens_sched (s : State) (k : Nat) (v : Tokens) : (setTokens s k v).sched = s.sched := rfl

@[simp] theorem setTokens_fwd (s : State) (k : Nat) (v : Tokens) : (setTokens s k v).fwd = s.fwd := rfl

@[simp] theorem setTokens_bh (s : State) (k : Nat) (v : Tokens) : (setTokens s k v).bh = s.bh := rfl

@[simp] theorem setTokens_herd (s : State) (k : Nat) (v : Tokens) : (setTokens s k v).herd = s.herd := rfl

@[simp] theorem setTokens_host (s : State) (k : Nat) (v : Tokens) : (setTokens s k v).host = s.host := rfl

@[simp] theorem setTokens_time (s : State) (k : Nat) (v : Tokens) : (setTokens s k v).time = s.time := rfl

@[simp] theorem setTokens_gait (s : State) (k : Nat) (v : Tokens) : (setTokens s k v).gait = s.gait := rfl

@[simp] theorem setTokens_tan (s : State) (k : Nat) (v : Tokens) : (setTokens s k v).tan = s.tan := rfl

@[simp] theorem setTokens_bri (s : State) (k : Nat) (v : Tokens) : (setTokens s k v).bri = s.bri := rfl

@[simp] theorem setTokens_vault (s : State) (k : Nat) (v : Tokens) : (setTokens s k v).vault = s.vault := rfl

@[simp] theorem setTokens_pwr (s : State) (k : Nat) (v : Tokens) : (setTokens s k v).pwr = s.pwr := rfl

@[simp] theorem setTokens_fw (s : State) (k : Nat) (v : Tokens) : (setTokens s k v).fw = s.fw := rfl

@[simp] theorem setTokens_free (s : State) (k : Nat) (v : Tokens) : (setTokens s k v).free = s.free := rfl

@[simp] theorem setTokens_pending (s : State) (k : Nat) (v : Tokens) : (setTokens s k v).pending = s.pending := rfl

/-! ### setTxCfg -/

@[simp] theorem txCfg_setTxCfg (s : State) (p : Nat) (v : TxPlainCfg) (j : Nat) : txCfg (setTxCfg s p v) j = if j = p then v else txCfg s j := by
  simp [txCfg, setTxCfg, tabGet_tabSet]

@[simp] theorem bandCfg_setTxCfg (s : State) (p : Nat) (v : TxPlainCfg) (j : Nat) : bandCfg (setTxCfg s p v) j = bandCfg s j := rfl

@[simp] theorem bhCfg_setTxCfg (s : State) (p : Nat) (v : TxPlainCfg) (j : Nat) : bhCfg (setTxCfg s p v) j = bhCfg s j := rfl

@[simp] theorem cellAt_setTxCfg (s : State) (p : Nat) (v : TxPlainCfg) (j : Nat) : cellAt (setTxCfg s p v) j = cellAt s j := rfl

@[simp] theorem chainCfg_setTxCfg (s : State) (p : Nat) (v : TxPlainCfg) (j : Nat) : chainCfg (setTxCfg s p v) j = chainCfg s j := rfl

@[simp] theorem cutCfg_setTxCfg (s : State) (p : Nat) (v : TxPlainCfg) (j : Nat) : cutCfg (setTxCfg s p v) j = cutCfg s j := rfl

@[simp] theorem floodSet_setTxCfg (s : State) (p : Nat) (v : TxPlainCfg) (j : Nat) : floodSet (setTxCfg s p v) j = floodSet s j := rfl

@[simp] theorem frameLen_setTxCfg (s : State) (p : Nat) (v : TxPlainCfg) (j : Nat) : frameLen (setTxCfg s p v) j = frameLen s j := rfl

@[simp] theorem guardOf_setTxCfg (s : State) (p : Nat) (v : TxPlainCfg) (j : Nat) : guardOf (setTxCfg s p v) j = guardOf s j := rfl

@[simp] theorem hopSeq_setTxCfg (s : State) (p : Nat) (v : TxPlainCfg) (j : Nat) : hopSeq (setTxCfg s p v) j = hopSeq s j := rfl

@[simp] theorem hostQueue_setTxCfg (s : State) (p : Nat) (v : TxPlainCfg) (j : Nat) : hostQueue (setTxCfg s p v) j = hostQueue s j := rfl

@[simp] theorem linkCfg_setTxCfg (s : State) (p : Nat) (v : TxPlainCfg) (j : Nat) : linkCfg (setTxCfg s p v) j = linkCfg s j := rfl

@[simp] theorem netCfg_setTxCfg (s : State) (p : Nat) (v : TxPlainCfg) (j : Nat) : netCfg (setTxCfg s p v) j = netCfg s j := rfl

@[simp] theorem plainCfg_setTxCfg (s : State) (p : Nat) (v : TxPlainCfg) (j : Nat) : plainCfg (setTxCfg s p v) j = plainCfg s j := rfl

@[simp] theorem portCfg_setTxCfg (s : State) (p : Nat) (v : TxPlainCfg) (j : Nat) : portCfg (setTxCfg s p v) j = portCfg s j := rfl

@[simp] theorem route_setTxCfg (s : State) (p : Nat) (v : TxPlainCfg) (j : Nat) : route (setTxCfg s p v) j = route s j := rfl

@[simp] theorem senseSet_setTxCfg (s : State) (p : Nat) (v : TxPlainCfg) (j : Nat) : senseSet (setTxCfg s p v) j = senseSet s j := rfl

@[simp] theorem shapeOf_setTxCfg (s : State) (p : Nat) (v : TxPlainCfg) (j : Nat) : shapeOf (setTxCfg s p v) j = shapeOf s j := rfl

@[simp] theorem setTxCfg_dev (s : State) (p : Nat) (v : TxPlainCfg) : (setTxCfg s p v).dev = s.dev := rfl

@[simp] theorem setTxCfg_cmd (s : State) (p : Nat) (v : TxPlainCfg) : (setTxCfg s p v).cmd = s.cmd := rfl

@[simp] theorem setTxCfg_que (s : State) (p : Nat) (v : TxPlainCfg) : (setTxCfg s p v).que = s.que := rfl

@[simp] theorem setTxCfg_sem (s : State) (p : Nat) (v : TxPlainCfg) : (setTxCfg s p v).sem = s.sem := rfl

@[simp] theorem setTxCfg_semReq (s : State) (p : Nat) (v : TxPlainCfg) : (setTxCfg s p v).semReq = s.semReq := rfl

@[simp] theorem setTxCfg_trb (s : State) (p : Nat) (v : TxPlainCfg) : (setTxCfg s p v).trb = s.trb := rfl

@[simp] theorem setTxCfg_out (s : State) (p : Nat) (v : TxPlainCfg) : (setTxCfg s p v).out = s.out := rfl

@[simp] theorem setTxCfg_mem (s : State) (p : Nat) (v : TxPlainCfg) : (setTxCfg s p v).mem = s.mem := rfl

@[simp] theorem setTxCfg_rx (s : State) (p : Nat) (v : TxPlainCfg) : (setTxCfg s p v).rx = s.rx := rfl

@[simp] theorem setTxCfg_cut (s : State) (p : Nat) (v : TxPlainCfg) : (setTxCfg s p v).cut = s.cut := rfl

@[simp] theorem setTxCfg_comb (s : State) (p : Nat) (v : TxPlainCfg) : (setTxCfg s p v).comb = s.comb := rfl

@[simp] theorem setTxCfg_radio (s : State) (p : Nat) (v : TxPlainCfg) : (setTxCfg s p v).radio = s.radio := rfl

@[simp] theorem setTxCfg_link (s : State) (p : Nat) (v : TxPlainCfg) : (setTxCfg s p v).link = s.link := rfl

@[simp] theorem setTxCfg_sched (s : State) (p : Nat) (v : TxPlainCfg) : (setTxCfg s p v).sched = s.sched := rfl

@[simp] theorem setTxCfg_air (s : State) (p : Nat) (v : TxPlainCfg) : (setTxCfg s p v).air = s.air := rfl

@[simp] theorem setTxCfg_fwd (s : State) (p : Nat) (v : TxPlainCfg) : (setTxCfg s p v).fwd = s.fwd := rfl

@[simp] theorem setTxCfg_bh (s : State) (p : Nat) (v : TxPlainCfg) : (setTxCfg s p v).bh = s.bh := rfl

@[simp] theorem setTxCfg_herd (s : State) (p : Nat) (v : TxPlainCfg) : (setTxCfg s p v).herd = s.herd := rfl

@[simp] theorem setTxCfg_host (s : State) (p : Nat) (v : TxPlainCfg) : (setTxCfg s p v).host = s.host := rfl

@[simp] theorem setTxCfg_time (s : State) (p : Nat) (v : TxPlainCfg) : (setTxCfg s p v).time = s.time := rfl

@[simp] theorem setTxCfg_gait (s : State) (p : Nat) (v : TxPlainCfg) : (setTxCfg s p v).gait = s.gait := rfl

@[simp] theorem setTxCfg_tan (s : State) (p : Nat) (v : TxPlainCfg) : (setTxCfg s p v).tan = s.tan := rfl

@[simp] theorem setTxCfg_bri (s : State) (p : Nat) (v : TxPlainCfg) : (setTxCfg s p v).bri = s.bri := rfl

@[simp] theorem setTxCfg_vault (s : State) (p : Nat) (v : TxPlainCfg) : (setTxCfg s p v).vault = s.vault := rfl

@[simp] theorem setTxCfg_pwr (s : State) (p : Nat) (v : TxPlainCfg) : (setTxCfg s p v).pwr = s.pwr := rfl

@[simp] theorem setTxCfg_fw (s : State) (p : Nat) (v : TxPlainCfg) : (setTxCfg s p v).fw = s.fw := rfl

@[simp] theorem setTxCfg_free (s : State) (p : Nat) (v : TxPlainCfg) : (setTxCfg s p v).free = s.free := rfl

@[simp] theorem setTxCfg_pending (s : State) (p : Nat) (v : TxPlainCfg) : (setTxCfg s p v).pending = s.pending := rfl

/-! ### setTxRun -/

@[simp] theorem txRun_setTxRun (s : State) (p : Nat) (v : TxPlain) (j : Nat) : txRun (setTxRun s p v) j = if j = p then v else txRun s j := by
  simp [txRun, setTxRun, tabGet_tabSet]

@[simp] theorem rck_setTxRun (s : State) (p : Nat) (v : TxPlain) (j : Nat) : rck (setTxRun s p v) j = rck s j := rfl

@[simp] theorem setTxRun_cfg (s : State) (p : Nat) (v : TxPlain) : (setTxRun s p v).cfg = s.cfg := rfl

@[simp] theorem setTxRun_dev (s : State) (p : Nat) (v : TxPlain) : (setTxRun s p v).dev = s.dev := rfl

@[simp] theorem setTxRun_cmd (s : State) (p : Nat) (v : TxPlain) : (setTxRun s p v).cmd = s.cmd := rfl

@[simp] theorem setTxRun_que (s : State) (p : Nat) (v : TxPlain) : (setTxRun s p v).que = s.que := rfl

@[simp] theorem setTxRun_sem (s : State) (p : Nat) (v : TxPlain) : (setTxRun s p v).sem = s.sem := rfl

@[simp] theorem setTxRun_semReq (s : State) (p : Nat) (v : TxPlain) : (setTxRun s p v).semReq = s.semReq := rfl

@[simp] theorem setTxRun_trb (s : State) (p : Nat) (v : TxPlain) : (setTxRun s p v).trb = s.trb := rfl

@[simp] theorem setTxRun_out (s : State) (p : Nat) (v : TxPlain) : (setTxRun s p v).out = s.out := rfl

@[simp] theorem setTxRun_mem (s : State) (p : Nat) (v : TxPlain) : (setTxRun s p v).mem = s.mem := rfl

@[simp] theorem setTxRun_rx (s : State) (p : Nat) (v : TxPlain) : (setTxRun s p v).rx = s.rx := rfl

@[simp] theorem setTxRun_cut (s : State) (p : Nat) (v : TxPlain) : (setTxRun s p v).cut = s.cut := rfl

@[simp] theorem setTxRun_comb (s : State) (p : Nat) (v : TxPlain) : (setTxRun s p v).comb = s.comb := rfl

@[simp] theorem setTxRun_link (s : State) (p : Nat) (v : TxPlain) : (setTxRun s p v).link = s.link := rfl

@[simp] theorem setTxRun_sched (s : State) (p : Nat) (v : TxPlain) : (setTxRun s p v).sched = s.sched := rfl

@[simp] theorem setTxRun_air (s : State) (p : Nat) (v : TxPlain) : (setTxRun s p v).air = s.air := rfl

@[simp] theorem setTxRun_fwd (s : State) (p : Nat) (v : TxPlain) : (setTxRun s p v).fwd = s.fwd := rfl

@[simp] theorem setTxRun_bh (s : State) (p : Nat) (v : TxPlain) : (setTxRun s p v).bh = s.bh := rfl

@[simp] theorem setTxRun_herd (s : State) (p : Nat) (v : TxPlain) : (setTxRun s p v).herd = s.herd := rfl

@[simp] theorem setTxRun_host (s : State) (p : Nat) (v : TxPlain) : (setTxRun s p v).host = s.host := rfl

@[simp] theorem setTxRun_time (s : State) (p : Nat) (v : TxPlain) : (setTxRun s p v).time = s.time := rfl

@[simp] theorem setTxRun_gait (s : State) (p : Nat) (v : TxPlain) : (setTxRun s p v).gait = s.gait := rfl

@[simp] theorem setTxRun_tan (s : State) (p : Nat) (v : TxPlain) : (setTxRun s p v).tan = s.tan := rfl

@[simp] theorem setTxRun_bri (s : State) (p : Nat) (v : TxPlain) : (setTxRun s p v).bri = s.bri := rfl

@[simp] theorem setTxRun_vault (s : State) (p : Nat) (v : TxPlain) : (setTxRun s p v).vault = s.vault := rfl

@[simp] theorem setTxRun_pwr (s : State) (p : Nat) (v : TxPlain) : (setTxRun s p v).pwr = s.pwr := rfl

@[simp] theorem setTxRun_fw (s : State) (p : Nat) (v : TxPlain) : (setTxRun s p v).fw = s.fw := rfl

@[simp] theorem setTxRun_free (s : State) (p : Nat) (v : TxPlain) : (setTxRun s p v).free = s.free := rfl

@[simp] theorem setTxRun_pending (s : State) (p : Nat) (v : TxPlain) : (setTxRun s p v).pending = s.pending := rfl

end Sys2Proof.Laws
end

