-- ==== Sys2Proof/Tests/Slice0.lean ====
section
/-! SUPPORT. Tests: ill-formed commands that the checks refuse, a few values of the spec, and for each statement the states and
operands that meet its hypotheses. -/

set_option maxRecDepth 20000

namespace Sys2Proof.Tests

open Sys2Proof Sys2Proof.Machine Sys2Proof.Safety

/-- A device at work: commands served, the datapath up, in GALLOP. -/
def ready : State := { State.reset with dev := { State.reset.dev with cmdReady := true, dataReady := true, mode := .gallop, dramOk := true } }

/-- A command packet of queue 0 with the given parameter words and tag 7. -/
def pkt (l : List Word) : Packet := { queue := 0, tag := 7, word1 := BitVec.ofNat 32 l.length, params := l, extra := 0 }

/-- A word that ends its packet. -/
def lastWord : QWord := { data := 5, last := true, bytes := 8 }

/-- The device at work with one queue set. -/
def withQue (q : Nat) (v : Queue) : State := setQue ready q v

/-- The device at work with a command of queue 0 in flight. -/
def withCommand (e : InFlight) : State := { ready with cmd := { ready.cmd with inFlight := [e] } }

/-- The device at work with plain 0 enabled, one port and one beam. -/
def plainOn : State :=
  setPlainCfg { ready with rx := { ready.rx with ports := [(0, { release := some 3, lane := 2 })] } } 0
    { enabled := true, ports := 1, beams := 1, beamMask := 1, levels := true }

/-- A track of plain 0, in acquisition. -/
def track : Track := { num := 5, sf := 9, inst := 1000, tStart := 1000, tEnd := 3000 }

/-- The device at work with plain 0 enabled and tracks. -/
def withTracks (l : List Track) : State := { plainOn with rx := { plainOn.rx with tracks := l } }

/-- The device at work with plain 0 enabled and cut jobs. -/
def withJobs (l : List CutJob) : State := { plainOn with cut := { plainOn.cut with jobs := l } }

/-- A detection on plain 0. -/
def found : DetectIn := { plain := 0, beam := 0, bw := 0, sf := 4, chan := 0, stop := 100000000, windows := List.replicate 6 { bin := 0, peak := 1000, mean := 1 } }

/-- A header that a track has heard, by its symbol shifts. -/
def headerHeard (l : List Nat) : HeaderIn := { shifts := l, stop := 0, snr := 0, power := 0, offset := 0 }

/-- What a track measured at its last symbol. -/
def lastHeard : LastIn := { lane := 0, snr := 0, power := 0, offset := 0, drift := 0, llrs := [] }

/-- A cut notice of herd ID 63. -/
def notice : NoticeIn := { src := 63, epoch := 0, bytes := [], hdr := 0, tEnd := 0, carrier := 0, seq := 0 }

/-- A report of herd ID 63. -/
def report : Report :=
  { hid := 63, plain := 0, beam := 0, bw := 0, sf := 4, sync := 0x34, hdr := 1, snr := 0, tEnd := 3000, carrier := 0, seq := 1,
    cutWanted := true, metrics := [] }

/-- The device at work with combining sets. -/
def withSets (l : List CombSet) : State := { ready with comb := { ready.comb with sets := l } }

/-- Ports whose release points are measured alike do not spread. -/
theorem spread_of_equal (s : State) (l : List Nat) (h : latest s l = earliest s l) : spread s l = false := by simp [spread, h]

/-- A step of 8 bits. -/
def step8 : SpiStep := { frame := 5, len := 8 }

/-- The device at work with one port of plain 0 set. -/
def withPort (n : Nat) (v : Port) : State := { ready with rx := { ready.rx with ports := [(n, v)] } }

/-- The device at work with the transmit settings of plain 3 and transmissions. -/
def withTx (v : TxPlainCfg) (l : List Tx) : State :=
  { ready with cfg := { ready.cfg with tx := { ready.cfg.tx with plains := [(3, v)] } }, radio := { ready.radio with txs := l } }

/-- A transmission of plain 3. -/
def tx : Tx := { id := 1, plain := 3, kind := 6 }

/-- The device at work with network 15 configured. -/
def netOn : State := setNetCfg (setSlot 63 { state := 1, typ := 1 } ready) 15 { configured := true, sync := 0x34, slot := 63 }

/-- Network 15 with a node of home here. -/
def nodeOn : State := { netOn with fwd := { netOn.fwd with nodes := [(0, { addr := 5, net := 15, win := some {} })] } }

/-- A node that herd ID 63 transmits for, with a downlink cell of every slot at index 3. -/
def schedNode : NodeRec := { addr := 5, net := 15, radio := BitVec.ofNat 32 (63 * 2 ^ 25), cells := [0, 0, 0, 0x80000000] }

/-- Network 15 with a multicast image. -/
def withImage (i : Image) : State := { netOn with link := { netOn.link with images := [i] } }

/-- A backhaul port at work, with one packet in its egress queue. -/
def portOn : State :=
  setQue (setBhCfg (setBh ready 1 { up := true }) 1 { enable := true, hostTxq := 70, egress := [(5, {})] }) 65
    { consumer := 2, words := [lastWord] }

/-- The device at work with herd link 3 enabled and in a given state. -/
def linkOn (v : HLink) : State :=
  setHlink { ready with cfg := { ready.cfg with herd := { ready.cfg.herd with links := [(3, { enable := true })] } } } 3 v

/-- The words of a flit with its CRC. -/
def flitWords (h : List Word) : List Word :=
  let l := h ++ List.replicate (63 - h.length) 0#32
  l ++ [flitCrc l]

/-- A flit of herd ID 63 with a command message. -/
def flit : FlitIn := { words := flitWords [0x0001CFC0, 0, 0, 0], ptp := none }

/-- The device at work with DMA engine 15 running on a queue. -/
def dmaOn (d2h : Bool) (q : Nat) (v : Queue) : State :=
  setEngine (setQue ready q v) 15 { bound := true, running := true, d2h := d2h, queue := q, bells := 1 }

/-- A host-to-device engine of a pannier queue, running without a doorbell. -/
def dmaIdle : State := setEngine ready 15 { bound := true, running := true, queue := 32 }

/-- A good descriptor of 64 bytes. -/
def desc : DescIn := { addr := 64, len := 64, own := true, last := true, data := [], error := false }

/-- A member that stands in the minority of a split herd. -/
def minor : State := { ready with herd := { ready.herd with split := true, minority := true } }

/-- A home move of half of network 15 to herd ID 63. -/
def move : Move := { net := 15, pfx := 0x80000000, len := 1, target := 63, queue := 15, tag := 9 }

/-- The same move as the event gives it. -/
def moveIn (o : MoveOutcome) : SwitchIn := { net := 15, pfx := 0x80000000, len := 1, target := 63, outcome := o, copies := [] }

/-- The device at work with a home move under way. -/
def moving : State := { ready with fwd := { ready.fwd with moves := [move] } }

/-- The same machine at a later instant of ST. -/
def later (n : Nat) (s : State) : State := { s with time := { s.time with st := BitVec.ofNat 96 (n * 4294967296) } }

/-- The device at work with its time state. -/
def withTime (v : Time) : State := { ready with time := v }

/-- The device at work with its time settings and its time state. -/
def withTimeCfg (c : TimeCfg) (v : Time) : State := { ready with cfg := { ready.cfg with time := c }, time := v }

/-- A herd time route over link 3 to herd ID 63, the source. -/
def timeRoute (d : Option Nat) : State :=
  setHlink { ready with cfg := { ready.cfg with
      time := { ready.cfg.time with herdSource := 63 }
      herd := { ready.cfg.herd with routes := [(63, { primary := 3, primaryV := true })] } } } 3 { up := true, delay := d }

/-- A survey under way, with one link's pairs. -/
def surveying (l : List Int) : State :=
  setHlink (withTime { ready.time with survey := some { path := [0, 63] } }) 3 { up := true, neighbour := some 63, surveys := l }

/-- The device at work with gait timer 15 set. -/
def withGait (v : Gait) : State := setGait ready 15 v

/-- The device at work in a state of its tandem. -/
def inTandem (v : Tandem) : State := { ready with tan := v }

/-- A reins frame. -/
def reinsOf (t : ReinsType) : ReinsFrame :=
  let v := BitVec.ofNat 48 (reinsCode t)
  { bits := v.setWidth 64 ||| (BitVec.ofNat 64 (reinsCrc (v.setWidth 64)) <<< 48) }

/-- The device at work in a state of its Bridle. -/
def withBridle (v : Bridle) : State := { ready with bri := v }

/-- A member of a herd of two, whose other member has long been absent. -/
def alone : State :=
  later 1000000000 { ready with
    cfg := { ready.cfg with herd := { ready.cfg.herd with members := some 3 } }
    herd := { ready.herd with peers := [(1, { absent := some 0 })] } }

/-- The device at work in another mode. -/
def inMode (m : Mode) (s : State) : State := { s with dev := { s.dev with mode := m } }

/-- The vault unlocked over a root key, with one slot set. -/
def vaultWith (k : Nat) (v : Slot) : State := setSlot k v { ready with vault := { unlocked := true, rootOk := true } }

/-- The device at work with the sense set of plain 3 and that plain enabled. -/
def sensing (sf : BitVec 8) : State :=
  setPlainCfg { ready with cfg := { ready.cfg with pwr := { ready.cfg.pwr with sense := [(3, (1, 1, sf))] } } } 3 { enabled := true }

/-- What the start-up finds on a sound device. -/
def soundStart : SaddleIn :=
  { hid := 5, refin := true, vinLost := false, vbatOk := true, root := some 0, flashOk := true, slotA := true, slotB := true, dram := true
    ledgerOk := true, tackOk := true, prevOk := true, recovery := false }

/-- The device at work in a state of its firmware. -/
def withFw (v : Fw) : State := { ready with fw := v }

/-- Flash operations under way. -/
def withOp (k : FlashKind) : State := withFw { ready.fw with ops := [{ kind := k, cmd := some (0, 9), begun := true }] }

/-- A firmware load of two blocks, the first of them held. -/
def loading : State := withFw { ready.fw with loading := some 1, slots := [(0, { state := 2 }), (1, { state := 1, blocks := [[]], count := 2 })] }

/-- A route to herd ID 63 over link 3. -/
def routed (v : Fw) : State :=
  setHlink { ready with fw := v, cfg := { ready.cfg with herd := { ready.cfg.herd with routes := [(63, { primary := 3, primaryV := true })] } } } 3
    { up := true }

/-- A block of a firmware image whose CRC is that of its bytes. -/
theorem block_of (l : List Byte) (h : l.length = 4096) :
    ∃ (x : BlockIn) (s : State), s.tan.joined = false ∧ x.bytes.length = 4096 ∧ crc32c x.bytes = x.crc ∧ s.fw.flashOk = true :=
  ⟨{ src := 63, num := 0, count := 2, crc := crc32c l, bytes := l, rest := [] }, ready, rfl, h, rfl, rfl⟩

/-- The words of FW_BLOCK for block 1 at the start of the staging area. -/
def blockWords (w : Word) : Packet := pkt [1, 0, 0, w]

/-- FW_BLOCK for block 1 of a load of two whose bytes agree with the CRC that it gives. -/
theorem block_accepted (w : Word) (h : crc32c (memRead dramBlank loading.mem.dram stagingBase 4096) = w) :
    crc32c (stagingRead (takeHead 0x0C01 (blockWords w) loading) (p64 (blockWords w) 1).toNat 4096) = pw (blockWords w) 3 := h

/-- A member whose plain 3 is tuned to send on the lowest channel, within one sub-band. -/
def mayAck : State :=
  setTxRun (setPlainCfg { ready with cfg := { ready.cfg with air := { ready.cfg.air with
      bands := [(48, { high := 1000000000, limit := 1000, enable := true })] } } } 3 { fP := 5000000 }) 3 { fT := some 0 }

/-- An acknowledgement that a node's home asks for. -/
def homeAckIn : AckIn := { plain := 3, beam := 0, bw := 0, sf := 0, cr := 0, net := 15, dst := 5, t0 := 100000000, chan := 0, frame := [] }

/-- The transmission of that acknowledgement, judged as LinkEventsAct says. -/
def judged (x : AckIn) (s : State) : Tx :=
  let y : Tx := { plain := x.plain.val, beam := x.beam.val, bw := x.bw.val, sf := 5 + x.sf.val, cr := x.cr.val,
                  len := x.frame.length, kind := 1, net := x.net.val, dst := x.dst, tenant := (netCfg s x.net.val).tenant,
                  t0 := x.t0, frame := x.frame, carrier := carrierOf s x.plain.val x.bw.val x.chan.val 0#32 }
  classify s false (fillTx s (txCfg s x.plain.val).pilot y)

/-- A frame of network 15 from node 5 with frame control word `fc`, to node `dst` where it carries an address. -/
def heardFrame (fc : Nat) (src dst : Word) : Heard :=
  { hid := 63, plain := 0, beam := 0, bw := 0, sf := 0, chan := 0, sync := 0x34, cr := 0, snr := 0, tStart := 0, tEnd := 0, layer := 0,
    combined := 0, late := false, bytes := leBytes 2 fc ++ [0] ++ leBytes 4 1 ++ leBytes 4 src.toNat ++ leBytes 4 dst.toNat ++ List.replicate 8 0 }

/-- Network 15 with a node of home here and its replay window. -/
def nodeWith (w : Window) : State := { netOn with fwd := { netOn.fwd with nodes := [(0, { addr := 5, net := 15, win := some w })] } }

/-- A packet of 40 bytes of version 6 to node 5 of an IPv6 prefix. -/
def ipPacket (crossings : Nat) : PacketIn :=
  { src := 63, net := 15, addr := 5, tenant := 0, service := 0, crossings := crossings, home := false,
    bytes := [0x60] ++ List.replicate 31 0 ++ [2, 0, 0, 0, 0, 0, 0, 5] }

/-- The device at work with one prefix of length 0. -/
def resolves (result arg : Nat) (q : Nat) : State :=
  { ready with cfg := { ready.cfg with fwd := { ready.cfg.fwd with prefixes := [{ result := result, arg := arg }], hostQ := [(0, q)] } } }

/-- States and operands that meet the hypotheses of LinkEventsAct on an acknowledgement that a home asks for: refused, and
admitted. -/
theorem witness_homeAck :
    ready.tan.joined = false ∧ mayAck.tan.joined = false
    ∧ judge (postPassed (judged homeAckIn ready) ready) (judged homeAckIn ready) = some .invalidParameter
    ∧ judge (postPassed (judged homeAckIn mayAck) mayAck) (judged homeAckIn mayAck) = none
    ∧ ∃ w, txAt (takeOn (judged homeAckIn mayAck) (postPassed (judged homeAckIn mayAck) mayAck))
          (postPassed (judged homeAckIn mayAck) mayAck).radio.nextId = some w
        ∧ past mayAck (before w.t0 100000) = false := by
  refine ⟨rfl, rfl, by decide, by decide, _, rfl, by decide⟩

/-- Frames for the branches of LinkOutcomes before the payload is opened. -/
theorem witness_LinkOutcomes :
    (linkSteps (heardFrame 0 0xFFFFFF3F 0) false netOn).outcome = 2
    ∧ (linkSteps (heardFrame 0 5 0) false ready).outcome = 3
    ∧ (linkSteps (heardFrame 0x40 5 0) false netOn).outcome = 4
    ∧ (linkSteps (heardFrame 0x80 5 9) false netOn).outcome = 5
    ∧ (linkSteps (heardFrame 0 5 0) false netOn).outcome = 6
    ∧ (linkSteps (heardFrame 0 5 0) false nodeOn).outcome = 7
    ∧ (linkSteps (heardFrame 0x108 5 0) false nodeOn).outcome = 8
    ∧ (linkSteps (heardFrame 0x008 5 0) false (nodeWith { last := 65, map := 1 })).outcome = 9
    ∧ (linkSteps (heardFrame 0x008 5 0) false (nodeWith { last := 1, map := 1 })).outcome = 10
    ∧ homeOf nodeOn 15 5 = ownHid nodeOn ∧ frameFlood (parseFrame (heardFrame 0 5 0).bytes) = false := by
  refine ⟨by decide, by decide, by decide, by decide, by decide, by decide, by decide, by decide, by decide, by decide, by decide⟩

/-- A packet for each result of the prefix search in PrefixSearchAndResolution. -/
theorem witness_resolvePacket :
    (ipPacket 0).bytes.length = 40 ∧ byteAt (ipPacket 0).bytes 0 / 16 = 6 ∧ identified (ipPacket 0).bytes = some 5
    ∧ identified (List.replicate 40 0) = none
    ∧ prefixSearch ready false 0 (ipv6Dst (ipPacket 0).bytes) = none
    ∧ (∀ r : Fin 5, ∃ e, prefixSearch (resolves r 63 0) false 0 (ipv6Dst (ipPacket 0).bytes) = some e ∧ e.result = r.val)
    ∧ (ipPacket 2).crossings = 2 ∧ reachable (resolves 2 63 0) 63 = false
    ∧ tabGet (resolves 4 0 0).cfg.fwd.hostQ 0 0 = 0 ∧ tabGet (resolves 4 0 128).cfg.fwd.hostQ 0 0 ≠ 0 := by
  refine ⟨rfl, rfl, by decide, by decide, by decide, fun r => ⟨{ result := r, arg := 63 }, by revert r; decide, rfl⟩, rfl, by decide, by decide, by decide⟩

/-! ### A wrapped key for the imports of VaultCommandsRun, unwrapped by tables -/

/-- A map of bytes as one number, byte after byte. -/
def byteTable (n : Nat) (b : Byte) : Byte := BitVec.ofNat 8 (n >>> (8 * b.toNat))

/-- The table of InvSubBytes. -/
def invSubTable : Nat :=
  15785769749828884342349381641981096363179738000380205650940338083111619982568718420166261191398703005748170232611805704157196303061330872280026969925224128193193768962594508714770967646139604422718174787315048227180018877623049221087186576642191304514338137614235628241783007805847129270530950856841486400764657112140097236091222567730363620332611309375046737430203438830593833719428588466121688739068564421474273450162064709239629809347626728710072303178617319436726577534667237755444692000788692193415136619289353224918429728194544458916874716857284226411602766869706570927007876872095880586785662942963508062062930

/-- The tables of the products with 14, 11, 13 and 9. -/
def invMixTables : List Nat :=
  [17864480014884770448341771077560609799285446646958910005847266087176511584336450046277440330989852911982032248350016470062144232722313878833555006445368793394394110529483499328924098050678867718825055588086459160420708307799758563350760248515731481671490350979629499887553466166785595932366127294347362177681962304276728524400718028523154997411546527350275384898504348386776929690162748186352725508860704250747799418330300045848129211501812703387466121761170394370004206798559078089019730874660581757631840806018117816157917699717536029034409891165085778749802507617890945859671717747346411418272250830228758462205440,
   20660037681057546434569796275159181838479904952512643273806643507766143283772057439060419035649261649766718144834351654274951171845491047146754362976279371340404592299720552026658750495605700011811481807106698209471695919590040201347318860671359017121701880798234681581037134898319689396355614186019758485717054749992248840995940992615458479053327988302541455430365511788916032458251381176675035888998960581052066836736929713860795351891151396512863268422787562719967588893482144796700121704512809072848513166322741200632883769161354058857808590875411713191597258555324046859665658420153755880783648214387959407184640,
   19138196848495869605120511558559239350965271065994991961240301511853740095611541283376038542306365123738129448692639514603083014128499463859328439565186102911611069345000827123701362194545999439720750984632977195243846286362462415909436277106797479059866551396947858323319980774417875675921867639957502891587465414444830963643657688594257097630455894848761410270925351913738136053681726757806999801729198632017884776933148886006414664898098777819019295640819165685098721075686948126956433128788785326234477653004815354437539193788019007304928778657778656315023763906850773490198904399435119974847211450672131266448640,
   8875800206676231233701243093037991435892820171169916784212686138618272775022945573285003956930101804132570244180486893696338426119125697617487505053305019391078452041171720238582278824352345150014134608923380002411540182399855297251710853225217122628921227208582311712405524813144982781242696704635609266321940544417729379922905250356217345749200516009654420718585965795693028792943576298910991546489194988553624796944920535299482344994524418256347438720733242826317236165094751904288306059757648895161575829661503528205507542121434477288647604052975262540305993897881349643805951627695476696173059092458303168579840]

theorem invSubByte_table : invSubByte = byteTable invSubTable := funext (by decide +kernel)

theorem fieldMul_table : ∀ j b, fieldMul ([14#8, 11#8, 13#8, 9#8].getD j 0#8) b = byteTable (invMixTables.getD j 0) b
  | 0, b => by revert b; decide +kernel
  | 1, b => by revert b; decide +kernel
  | 2, b => by revert b; decide +kernel
  | 3, b => by revert b; decide +kernel
  | _ + 4, b => by show fieldMul 0#8 b = byteTable 0 b; revert b; decide +kernel

/-- A key that wraps: that of an import to slot 63, type 3, from a slot without a scalar and the base point. -/
def wrapKey : List Byte := beBytes 32 7868842902172766540741990141207179607700790481978992732909839077666247509576

/-- Its round keys. -/
def wrapKeys : List (List Byte) :=
  pieces 16 (beBytes 240
    6453921218533780396555433924271075302954646874464669393891853306155051818000844445799049833328737760240867401147594776959541867089403774403204665218385512823072787002576943914954269179381699613369616888072781046061228412367944193918190807416818284441834761113989871755981669714103422882760740944375113989078409861218851564275690923575270858287402865086056700606659568637067024709425620146534293568109500528372231238636313670182760280429148263113181750873614660354035614952694475227313016299388713415114857088845541524429084795788374685532107890078330446331921657009315635135695)

theorem wrapKey_rounds : roundKeys 8 wrapKey = wrapKeys := by decide +kernel

/-- The public key of the base point. -/
def basePub : List Byte := beBytes 32 pBase.1 ++ beBytes 32 pBase.2

theorem wrapKey_derived :
    sha256 ([0#8, 0#8, 0#8, 1#8] ++ ecdh [] basePub ++ [0x59#8, 0x4E#8, 0x4B#8, 0x57#8, 63#8, 3#8]) = wrapKey := by decide +kernel

theorem basePub_valid : p256Valid basePub = true := by decide +kernel

/-- unwrapStep under wrapKey by the tables. -/
def unwrapByTable (x : List Byte × List (List Byte)) (t : Nat) : List Byte × List (List Byte) :=
  let i := (t + 4 - 1) % 4
  let b := (List.range 14).foldl (fun t r =>
      let u := xorBytes ((shiftRows 3 t).map (byteTable invSubTable)) (wrapKeys.getD (14 - 1 - r) [])
      if r + 1 = 14 then u else (List.range 16).map (fun i => (List.range 4).foldl (fun v k =>
        v ^^^ byteTable (invMixTables.getD ((k + 4 - i % 4) % 4) 0) (u.getD (4 * (i / 4) + k) 0#8)) 0#8))
    (xorBytes (xorBytes x.1 (beBytes 8 t) ++ x.2.getD i []) (wrapKeys.getD 14 []))
  (b.take 8, x.2.set i (b.drop 8))

theorem unwrapStep_table : unwrapStep wrapKey 4 = unwrapByTable := by
  funext x t
  simp only [unwrapStep, aesDecrypt, wrapKey_rounds, invSubByte_table, mixColumns, fieldMul_table, unwrapByTable]

/-- Key unwrapping under wrapKey by the tables. -/
theorem keyUnwrap_table (a b c d e : List Byte) (l : List Byte) (h : pieces 8 l = [a, b, c, d, e]) :
    keyUnwrap wrapKey l =
      (let x := ((List.range 24).reverse.map (· + 1)).foldl unwrapByTable (a, [b, c, d, e])
       if x.1 = List.replicate 8 0xA6#8 then some x.2.flatten else none) := by
  simp only [keyUnwrap, h]
  rw [← unwrapStep_table]
  rfl

/-- 32 zero bytes wrapped under wrapKey. -/
def wrapped : List Byte := beBytes 40 1223812888343379604012541051744128626424404275307061895865098834983751235098496917892514868889298

theorem wrapped_opens : keyUnwrap wrapKey wrapped = some (List.replicate 32 0) := by
  rw [keyUnwrap_table _ _ _ _ _ _ rfl]
  decide +kernel

theorem zeros_refused : keyUnwrap wrapKey (List.replicate 40 0) = none := by
  rw [keyUnwrap_table _ _ _ _ _ _ rfl]
  decide +kernel

/-- KEY_IMPORT to slot 63, type 3, from slot 0, of 40 wrapped bytes. -/
def importOf (l : List Byte) : Packet := pkt ([63, 3, 0] ++ wordsOfBytes (basePub ++ l) ++ [0])

theorem importOf_valid (l : List Byte) (h : pbytes (importOf l) 3 64 = basePub) : p256Valid (pbytes (importOf l) 3 64) = true := by
  rw [h]; exact basePub_valid

/-! ### Ill-formed commands -/

theorem test_defined_opcode_is_refused : wellFormed (.undefinedOpcode 0x0001 (pkt [])) = false := by decide

theorem test_undefined_opcode : wellFormed (.undefinedOpcode 0xFFFF (pkt [])) = true := by decide

theorem test_whole_packet_is_no_malformed_one : wellFormed (.cmdMalformed 15 8) = false := by decide

theorem test_malformed_packet : wellFormed (.cmdMalformed 15 7) = true := by decide

theorem test_arm_needs_its_bit : wellFormed (.arm 1023 0xFFFFEFFF) = false := by decide

theorem test_drop_rest_needs_its_bit : wellFormed (.dropRest 1023 0xFFFFDFFF) = false := by decide

theorem test_reset_needs_its_bit : wellFormed (.ctrlReset 1023 0xFFFFBFFF) = false := by decide

theorem test_clear_needs_its_bit : wellFormed (.gtClear 15 0xDFFFFFFF) = false := by decide

theorem test_unsupported_write_is_refused : wellFormed (.registerWrite 0x40002 false 0) = false := by decide

theorem test_supported_access_is_no_unsupported_one : wellFormed (.unsupportedRequest 0x40000 4 false) = false := by decide

theorem test_ill_formed_is_a_fault : exec (.arm 0 0) ready = .fault .illFormed := rfl

/-! ### Values of the specification's worked example and tables (03_chirp_air_interface.md) -/

/-- The airtimes of the table of R96: 125 kHz, 32 bytes, rate 4/5, N_pre 10, pilots on, in microseconds. -/
theorem test_airtime_table :
    [5, 6, 7, 8, 9, 10, 11, 12].map (fun sf => airtime sf 1 2 32 10 true)
      = [33536, 56320, 99328, 174080, 319488, 679936, 1261568, 2260992] := by decide

/-- The longest frame: 536 symbols, 35.127 s. -/
theorem test_longest_frame : frameSymbols 12 0 0 255 64 true = 536 ∧ airtime 12 0 0 255 64 true = 35127296 := by decide

/-- The header of the example: LEN 32, CR 0b10, PILOT 1. -/
theorem test_header_example : headerOf 32 2 true = 0xBC0620 := by decide

/-- The Golay codewords of the example. -/
theorem test_golay_example : golayEncode 0x620 = 0x3107CF ∧ golayEncode 0xBC0 = 0x5E0575 := by decide

/-- A codeword with three bits wrong still names its message (R85). -/
theorem test_golay_corrects : golayDecode 0x3107C8 = some 0x620 := by decide

/-- The header symbols of the example. -/
theorem test_header_symbols_example : headerSymbolList 0xBC0620 12 = [540, 348, 2664, 4068, 1436] := by decide

/-- The sync symbols of the example. -/
theorem test_sync_symbols_example : syncSymbols 0x5A 12 = [1408, 1408] := by decide

/-- The published check value of CRC-32C. -/
theorem test_crc32c : crc32c [0x31, 0x32, 0x33, 0x34, 0x35, 0x36, 0x37, 0x38, 0x39] = 0xE3069283 := by decide

/-! ### One step on small states -/

/-- The outcome is a next state of which f is true. -/
def ends (o : Host.Outcome State Fault Refusal) (f : State → Bool) : Bool :=
  match o with
  | .next t => f t
  | _ => false

/-- A step takes the command at the front. -/
theorem test_step_takes_the_front :
    ends (step { ready with pending := [.gtCountWrite 15 9, .gtCountWrite 15 8] }) (fun t => (gait t 15).count = 9 && t.pending.length = 1) = true := by decide

/-- The time advances on an empty queue. -/
theorem test_idle_step_ticks :
    ends (step ready) (fun t => now t = 10 && t.pending = []) = true := by decide

/-- Before start-up a command gets no reply. -/
theorem test_command_needs_ready :
    ends (exec (.getIdentity (pkt [])) State.reset) (fun t => (que t 16).words = []) = true := by decide

/-- A free semaphore goes to the agent that reads it. -/
theorem test_semaphore_is_taken :
    ends (exec (.semAcq 63 .host) ready) (fun t => (sem t 63).holder = some (agentCode .host)) = true := by decide

/-- A timer's count is what was written, and no other timer's changes. -/
theorem test_count_write_keeps_others :
    ends (exec (.gtCountWrite 15 9) (withGait { count := 1 })) (fun t => (gait t 15).count = 9 && (gait t 14).count = 0) = true := by decide

/-! ### Worked examples of the specification's other files -/

/-- GET_IDENTITY to device 5 with tag 0x0123 at priority 2: its second word, and the DEV_ID and REVISION of the reply
(02_commands_queues.md). -/
theorem test_identity_example :
    (let c : Packet := { queue := 0, tag := 0x0123, word1 := 0x16000000, params := [], extra := 0 }
     (target c, priority c, plen c) = (5, 2, 0)) ∧ devId = 0x64004B4D
      ∧ (identityWords { ready with dev := { ready.dev with fwVersion := 0x01040002 } }).take 3 = [0x64004B4D, revision, 0x01040002] := by
  decide

/-- Plain 1 on ports 4, 5 and 9: its chains 0, 8 and 16 (04_receive_array.md). -/
theorem test_chain_example :
    [0, 7, 8, 15, 16, 23].map (deviceChain (setPlainCfg ready 1 { ports := 0x230 }) 1) = [32, 39, 40, 47, 72, 79] := by decide

/-- The search loads of the TROT example, in units (04_receive_array.md). -/
theorem test_load_example : loadUnits 0xFFFFFFFF 0xF 0xFC = 7296 ∧ loadUnits 0xFFFF 0x2 0x3C = 544 := by decide

/-- Load and window of the sense example (14_power_modes.md). -/
theorem test_sense_example : senseLoad (0xFFFFFFFF, 0x2, 0x3C) = 1088 ∧ senseWindow (0xFFFFFFFF, 0x2, 0x3C) = 16384000 := by decide

/-- The ring of a plain of four ports, 6 GiB, in instants and in ns (05_cutting_combining.md). -/
theorem test_ring_example :
    (let s := setCutPlain (setPlainCfg ready 2 { ports := 0xF00 }) 2 { ringSize := 6442450944 }
     ringInstants s 2 = 50331648 ∧ ringNs s 2 = 4026531840) := by decide

/-- Six writes of 24 bits at D = 3, the last with DELAY 500, take 8.60 us (06_radio_control_transmit.md). -/
theorem test_script_example :
    scriptNs 3 (List.replicate 5 { frame := 0, len := 24 } ++ [{ frame := 0, len := 24, delay := 500 }]) = 8600 := by decide

/-- A carrier of 873.25 MHz and 125 kHz fits a tuning of 871 MHz, and none of 868 MHz (06_radio_control_transmit.md). -/
theorem test_tuning_example : tuningFits 868000000 873250000 1 = false ∧ tuningFits 871000000 873250000 1 = true := by decide

/-- The frame of node 0x00123456 of network number 0x0A41 (07_link_mesh_security.md). -/
theorem test_link_example :
    frameType { parseFrame [0x18, 0x03] with fc := 0x0318 } = 0 ∧ frameSec (parseFrame [0x18, 0x03]) = true
      ∧ frameAckReq (parseFrame [0x18, 0x03]) = true ∧ bits (parseFrame [0x18, 0x03]).fc 9 8 = 3
      ∧ kdfInput 0x00123456 3 = [0x01, 0x59, 0x4E, 0x4B, 0x44, 0x00, 0x56, 0x34, 0x12, 0x00, 0x03, 0x00, 0x00, 0x80]
      ∧ nonceOf (setNetCfg ready 2 { number := 0x0A41, sync := 0x5A }) 2 0x00123456 500 3
          = [0x56, 0x34, 0x12, 0x00, 0xF4, 0x01, 0x00, 0x00, 0x41, 0x0A, 0x5A, 0x03, 0x00] := by decide

/-- The acknowledgement of that frame: 30 bytes, 51 symbols, 1,671.168 ms (07_link_mesh_security.md). -/
theorem test_ack_example :
    ackPayload [500] = [0x01, 0xF4, 0x01, 0x00, 0x00] ∧ deviceLen 5 = 30 ∧ payloadSymbols 12 1 2 30 = 32 ∧ pilotFor 12 1 2 30 false = false
      ∧ frameSymbols 12 1 2 30 10 false = 51 ∧ airtime 12 1 2 30 10 false = 1671168 := by decide

/-- The slot of ASN 1,000,003: its hop, its start and its nominal instant (08_schedule_airtime.md). -/
theorem test_slot_example :
    (let s := { ready with cfg := { ready.cfg with sched := { ready.cfg.sched with hops := [(1, (List.range 11).map (BitVec.ofNat 32))] } } }
     hopOf s 1 1000003 5 = 9 ∧ slotStart s 1000003 = 8192024576000 ∧ nominal s 1000003 = 8192025576000) := by decide

/-- The guard of a node of class 2 after 200 s and after 250 s (08_schedule_airtime.md). -/
theorem test_guard_example :
    guardNeed ready { radio := 2 <<< 21 } 200000000000 = 9000 * 100000000000
      ∧ guardNeed ready { radio := 2 <<< 21 } 250000000000 = 11000 * 100000000000 := by decide

/-- A sub-band of 10 per mille over 3,600 s (08_schedule_airtime.md). -/
theorem test_budget_example : budgetOf { limit := 10, window := 3600 } = 36000000 := by decide

/-- A node named by an address, its home, and the longer of two routes (09_forwarding_learning.md). -/
theorem test_resolution_example :
    (let l : List PrefixEntry :=
       [{ tenant := 7, key := 0x20010DB8000700010000000000000000, len := 64, result := 1, arg := 2 },
        { tenant := 7, key := 0x20010DB8000700000000000000000000, len := 48, result := 3, arg := 1 },
        { home := true, tenant := 2, key := homeKey 0x00100000, len := 12, arg := 3 }]
     let s := { ready with cfg := { ready.cfg with fwd := { ready.cfg.fwd with prefixes := l } } }
     (prefixSearch s false 7 0x20010DB8000700010200000000123456).map (·.result) = some 1
       ∧ (prefixSearch s false 7 0x20010DB8000700020200000000123456).map (·.result) = some 3
       ∧ homeOf s 2 0x00123456 = 3)
    ∧ identified (List.replicate 32 0 ++ [0x02, 0, 0, 0, 0, 0x12, 0x34, 0x56]) = some 0x00123456 := by decide

/-- The fan of timer 3: the output on GT_OUT[2] on both sides of the compare value (11_time.md). -/
theorem test_fan_example :
    [1399, 1400, 2000].map (fun n => gtOutput (setGait ready 3 { ctrl := 0x1805, top := 2000, compare := 1400, count := n }) 2)
      = [false, true, true] := by decide

/-- A herd of members 4, 9, 17, 22, 30 and 41 seen from one of them, with the members that it reaches. -/
def herdOfSix (own : BitVec 6) (seen : List Nat) : State :=
  setHlink { ready with
    dev := { ready.dev with hid := own }
    cfg := { ready.cfg with herd := { ready.cfg.herd with
      members := some (maskOf 64 [4, 9, 17, 22, 30, 41])
      routes := seen.map (fun h => (h, { primary := 3, primaryV := true })) } }
    herd := { ready.herd with told := [(3, maskOf 64 seen)] } } 3 { up := true }

/-- Six members that split in halves: the half with the lowest herd ID keeps full authority, and loses it without that
member (12_herd_tandem.md). -/
theorem test_authority_example :
    [herdOfSix 9 [4, 17], herdOfSix 22 [30, 41], herdOfSix 22 [30], herdOfSix 9 [17], herdOfSix 9 [4, 17, 22, 30, 41]].map fullAuthority
      = [true, false, false, false, true] := by decide

/-- Network 0 moves from epoch 3 to epoch 4: what KEY_EPOCH 0 and 3 resolve to, before and after the overlap ends
(13_key_vault.md). -/
theorem test_epoch_example :
    (let s := setNet (setNetCfg ready 0 { configured := true, epoch := 4, slot := 9 }) 0 { prev := some (4, 604800000000000) }
     resolveEpoch s 0 0 = some 4 ∧ resolveEpoch s 0 3 = some 3 ∧ netUses s 4 0 = true
       ∧ resolveEpoch (later 604800000000000 s) 0 3 = none ∧ netUses (later 604800000000000 s) 4 0 = false) := by decide

/-! ### The hypotheses of the statements are met -/

/-- States and operands that meet the hypotheses of Obligations.EmptyQueueIdles, clause by clause. -/
theorem witness_EmptyQueueIdles :
    ((∃ s : State, s.pending = [] ∧ nextWaiting s = none) ∧ ∃ (s : State) (w : WaitingCmd), s.pending = [] ∧ nextWaiting s = some w) :=
  ⟨⟨ready, by decide⟩, { ready with cmd := { ready.cmd with waiting := [{ packet := pkt [] }] } }, _, rfl, rfl⟩

/-- States and operands that meet the hypotheses of Obligations.DeviceAndQueueCommandsRun, clause by clause. -/
theorem witness_DeviceAndQueueCommandsRun :
    (Meets 0x0000 0
      (fun _ _ => True))
    ∧ (Meets 0x0001 0
      (fun _ _ => True))
    ∧ (Meets 0x0002 1
      (fun c u => pn c 0 < 65536 ∧ pn c 0 ≠ c.tag.toNat ∧ ∀ e ∈ u.cmd.inFlight, e.tag.toNat ≠ pn c 0))
    ∧ (Meets 0x0002 1
      (fun c _ => pn c 0 = c.tag.toNat))
    ∧ (∃ (e : InFlight), Meets 0x0002 1
      (fun c u => pn c 0 = e.tag.toNat ∧ e.tag ≠ c.tag ∧ u.cmd.inFlight.find? (fun x => x.tag = e.tag) = some e))
    ∧ (∃ (e : InFlight), Meets 0x0002 1
      (fun c u => pn c 0 = e.tag.toNat ∧ e.tag ≠ c.tag ∧ u.cmd.inFlight.find? (fun x => x.tag = e.tag) = some e
        ∧ e.phase ≠ .held ∧ e.opcode ≠ 0x0002 ∧ e.opcode ≠ 0x0004 ∧ ¬ (0x0A00 ≤ e.opcode ∧ e.opcode < 0x0B00)
        ∧ ∀ o ∈ u.fw.ops, o.cmd ≠ some (e.queue, e.tag)))
    ∧ (Meets 0x0003 1
      (fun c _ => pn c 0 < 65536 ∧ pn c 0 ≠ c.tag.toNat))
    ∧ (∃ (c : Packet) (s : State), clear 0x0004 1 c s ∧ pw c 0 = 0x6B656C77#32)
    ∧ (Meets 0x0D00 0
      (fun _ _ => True))
    ∧ (Meets 0x0D01 1
      (fun c _ => pn c 0 < 1048576))
    ∧ (Meets 0x0D02 2
      (fun c _ => 1 ≤ pn c 1 ∧ pn c 1 ≤ 255))
    ∧ (Meets 0x0D03 0
      (fun _ _ => True))
    ∧ (Meets 0x08C0 3
      (fun c u => pn c 0 ≤ 1023 ∧ pn c 1 ≤ 16384 ∧ pn c 2 ≤ 65528 ∧ pn c 2 % 8 = 0 ∧ (que u (pn c 0)).words = []))
    ∧ (Meets 0x08C1 1
      (fun c _ => pn c 0 ≤ 1023))
    ∧ (∃ (t : BitVec 64) (v : Queue), v.pushAt ≠ t)
    ∧ (Meets 0x08C2 1
      (fun c _ => pn c 0 ≤ 1023))
    ∧ (Meets 0x08C3 0
      (fun _ _ => True)) :=
  ⟨⟨pkt [], ready, by decide⟩,
   ⟨pkt [], ready, by decide⟩,
   ⟨pkt [65535], ready, by decide⟩,
   ⟨pkt [7], ready, by decide⟩,
   ⟨{ queue := 0, tag := 9, opcode := 0x0309 }, pkt [9], withCommand { queue := 0, tag := 9, opcode := 0x0309 }, by decide⟩,
   ⟨{ queue := 0, tag := 9, opcode := 0x0309 }, pkt [9], withCommand { queue := 0, tag := 9, opcode := 0x0309 }, by decide⟩,
   ⟨pkt [65535], ready, by decide⟩,
   ⟨pkt [0x6B656C77], ready, by decide⟩,
   ⟨pkt [], ready, by decide⟩,
   ⟨pkt [1048575], ready, by decide⟩,
   ⟨pkt [0xFFFFFFFF, 255], ready, by decide⟩,
   ⟨pkt [], ready, by decide⟩,
   ⟨pkt [1023, 16384, 65528], ready, by decide⟩,
   ⟨pkt [1023], ready, by decide⟩,
   ⟨1, {}, by decide⟩,
   ⟨pkt [1023], ready, by decide⟩,
   ⟨pkt [], ready, by decide⟩⟩

/-- States and operands that meet the hypotheses of Obligations.QueueWindowsMoveWords, clause by clause. -/
theorem witness_QueueWindowsMoveWords :
    (∃ (q : Fin 1024) (s : State), s.dev.mode ≠ .stall ∧ (q.val < 16 ∨ 66 ≤ q.val) ∧ (que s q).consumer = 0b10#2 ∧ (que s q).enable = true ∧ (que s q).discard = false ∧ overCap s q 1 = false ∧ overPool s q 1 = false)
    ∧ (∃ (q : Fin 1024) (s : State), s.dev.mode ≠ .stall ∧ (q.val < 16 ∨ 66 ≤ q.val) ∧ (que s q).consumer = 0b10#2 ∧ (que s q).enable = true ∧ (que s q).discard = false ∧ overCap s q 1 = false ∧ overPool s q 1 = false)
    ∧ (∃ (q : Fin 1024) (s : State) (w : QWord) (r : List QWord), (que s q).consumer = 0b00#2 ∧ visible (que s q) = true ∧ (que s q).words = w :: r) :=
  ⟨⟨66, withQue 66 { consumer := 2, enable := true }, by decide⟩,
   ⟨15, ready, by decide⟩,
   ⟨32, withQue 32 { words := [lastWord] }, lastWord, [], by decide⟩⟩

/-- States and operands that meet the hypotheses of Obligations.PopUnderrun, clause by clause. -/
theorem witness_PopUnderrun :
    (∃ (q : Fin 1024) (s : State), (que s q).consumer = 0b00#2 ∧ visible (que s q) = false) :=
  ⟨1023, ready, by decide⟩

/-- States and operands that meet the hypotheses of Obligations.PopNotServed, clause by clause. -/
theorem witness_PopNotServed :
    (∃ (q : Fin 1024) (s : State), (que s q).consumer ≠ 0b00#2) :=
  ⟨15, ready, by decide⟩

/-- States and operands that meet the hypotheses of Obligations.CtrlWriteInOrder, clause by clause. -/
theorem witness_CtrlWriteInOrder :
    (∃ (q : Fin 1024) (v : Word) (i : Instr), (i = .consumerBinding q v ∨ (i = .arm q v ∧ bit v 12 = true) ∨ (i = .dropRest q v ∧ bit v 13 = true)
      ∨ (i = .ctrlReset q v ∧ bit v 14 = true))) :=
  ⟨1023, 0x4000, .ctrlReset 1023 0x4000, by decide⟩

/-- States and operands that meet the hypotheses of Obligations.SemaphoresActForAgents, clause by clause. -/
theorem witness_SemaphoresActForAgents :
    (∃ (a : Agent) (s : State), (∀ r ∈ s.semReq, (agentCode a).toNat ≤ 64 + r.2.1))
    ∧ (∃ (n : Fin 64) (a : Agent) (v : Word) (s : State), bit v 0 = true ∧ (sem s n).holder = some (agentCode a))
    ∧ (∃ (n : Fin 64) (a : Agent) (s : State), (sem s n).holder ≠ some (agentCode a))
    ∧ (∃ (s : State), s.tan.joined = false)
    ∧ (∃ (n : Fin 64) (s : State), (sem s n).holder = none ∧ (sem s n).abandoned = false)
    ∧ (∃ (n : Fin 64) (peer : Fin 64) (s : State), (sem s n).holder = some (BitVec.ofNat 8 (0x40 + peer.val)))
    ∧ (∃ (n : Fin 64) (a : Fin 64) (b : Fin 64) (l : List (Nat × Nat × Bool)) (s : State), (sem s n).holder = none ∧ a < b ∧ (l = [(n.val, a.val, false), (n.val, b.val, false)] ∨ l = [(n.val, b.val, false), (n.val, a.val, false)])) :=
  ⟨⟨.peer 63, { ready with semReq := [(0, 63, false)] }, by decide⟩,
   ⟨63, .peer 63, 1, setSem ready 63 { holder := some 0x7F }, by decide⟩,
   ⟨0, .host, ready, by decide⟩,
   ⟨ready, by decide⟩,
   ⟨63, ready, by decide⟩,
   ⟨0, 63, setSem ready 0 { holder := some 0x7F }, by decide⟩,
   ⟨63, 0, 63, [(63, 0, false), (63, 63, false)], ready, by decide⟩⟩

/-- States and operands that meet the hypotheses of Obligations.HostAccessesAct, clause by clause. -/
theorem witness_HostAccessesAct :
    (∃ (q : Fin 16) (s : State) (e : Nat), s.dev.mode ≠ .stall ∧ (List.range 16).find? (fun k => (engine s k).running && !(engine s k).d2h && (engine s k).queue = q.val) = some e)
    ∧ (∃ (off : BitVec 26) (s : State) (x : Nat), Memory.wf 0x00#8 s.mem.dram = true ∧ s.cfg.aperture.toNat + off.toNat = x ∧ 0x738000000 ≤ x ∧ x < 0x7F8000000)
    ∧ (∃ (off : BitVec 26) (s : State), (¬ (0x738000000 ≤ s.cfg.aperture.toNat + off.toNat
        ∧ s.cfg.aperture.toNat + off.toNat < 0x7F8000000)))
    ∧ (∃ (off : Nat) (s : State), 0x738000000 ≤ s.cfg.aperture.toNat + off ∧ s.cfg.aperture.toNat + off < 0x7F8000000 ∧ (s.cfg.aperture.toNat + off) / 8 ∉ s.mem.bad)
    ∧ (∃ (off : Nat) (s : State), 0x7FB004400 ≤ s.cfg.aperture.toNat + off)
    ∧ (∃ (off : BitVec 20) (size : Nat), (¬ (size = 4 ∧ off.toNat % 4 = 0)) ∧ (¬ (size = 8 ∧ off.toNat % 8 = 0))) :=
  ⟨⟨15, setEngine ready 15 { bound := true, running := true, queue := 15 }, 15, by decide⟩,
   ⟨0x3FFFFFF, { ready with cfg := { ready.cfg with aperture := 0x7F4000000 } }, 0x7F7FFFFFF, by decide⟩,
   ⟨0x3FFFFFF, { ready with cfg := { ready.cfg with aperture := 0x7F4000001 } }, by decide⟩,
   ⟨0, ready, by decide⟩,
   ⟨0xC3004400, ready, by decide⟩,
   ⟨0xFFFFD, 4, by decide⟩⟩

/-- States and operands that meet the hypotheses of Obligations.CommandTrafficMoves, clause by clause. -/
theorem witness_CommandTrafficMoves :
    (∃ (op : BitVec 16) (c : Packet) (s : State), opcodeDefined op.toNat = false ∧ clear op.toNat c.params.length c s)
    ∧ (∃ (n : Nat), n < 8)
    ∧ (∃ (q : Fin 16) (h : HeldReply) (rest : List HeldReply) (s : State), s.cmd.held = h :: rest ∧ h.queue = q.val + 16 ∧ h.origin = none ∧ (h.final = false ∨ rest = []) ∧ overCap s (q.val + 16) ((h.words.length + 1) / 2) = false)
    ∧ (∃ (c : Packet) (s : State), clear 0x0001 0 c s ∧ noReply c = false ∧ s.tan.joined = false)
    ∧ (∃ (r : ReplyIn) (f : Forwarded) (rest : List Forwarded) (s : State), s.cmd.forwarded = f :: rest ∧ f.peer = r.src.val ∧ f.tag = r.tag ∧ oldEpoch s r.src.val r.epoch = false ∧ f.noReply = false ∧ s.tan.joined = false ∧ overCap s (f.queue + 16) ((r.results.length + 3) / 2) = false)
    ∧ (∃ (s : State) (x : BitVec 64), s.dev.resetPending = some x ∧ reached s x = true) :=
  ⟨⟨0xFFFF, pkt [1], ready, by decide⟩,
   ⟨7, by decide⟩,
   ⟨15, { queue := 31, tag := 7, words := [0, 0] }, [], { ready with cmd := { ready.cmd with held := [{ queue := 31, tag := 7, words := [0, 0] }] } }, by decide⟩,
   ⟨pkt [], ready, by decide⟩,
   ⟨{ src := 63, epoch := 0, tag := 7, status := 0, results := [] }, { peer := 63, queue := 15, tag := 7 }, [], { ready with cmd := { ready.cmd with forwarded := [{ peer := 63, queue := 15, tag := 7 }] } }, by decide⟩,
   ⟨{ ready with dev := { ready.dev with resetPending := some 0 } }, 0, by decide⟩⟩

/-- States and operands that meet the hypotheses of Obligations.RegisterWritesAct, clause by clause. -/
theorem witness_RegisterWritesAct :
    (∃ (s : State), s.dev.mode ≠ .stall)
    ∧ (∃ (s : State), s.dev.mode = .stall) :=
  ⟨⟨ready, by decide⟩,
   ⟨inMode .stall ready, by decide⟩⟩

/-- States and operands that meet the hypotheses of Obligations.StatusOrder, clause by clause. -/
theorem witness_StatusOrder :
    (∃ (c : Packet) (s : State), served s c = true ∧ broadcast c = false ∧ target c = ownHid s ∧ ordered c = false)
    ∧ (Meets 0x0204 0
      (fun _ _ => True))
    ∧ (Meets 0x0204 1
      (fun _ _ => True))
    ∧ (∃ (n : Nat), 2 ≤ n ∧ Meets 0x0204 n
      (fun c _ => 4 < pn c 1))
    ∧ (∃ (n : Nat) (k : Nat), 2 ≤ n ∧ k ≤ 4 ∧ n ≠ 2 + k ∧ Meets 0x0204 n
      (fun c _ => pn c 1 = k)) :=
  ⟨⟨pkt [], ready, by decide⟩,
   ⟨pkt [], ready, by decide⟩,
   ⟨pkt [0], ready, by decide⟩,
   ⟨2, by decide, pkt [0, 5], ready, by decide⟩,
   ⟨3, 4, by decide, by decide, by decide, pkt [0, 4, 1], ready, by decide⟩⟩

/-- States and operands that meet the hypotheses of Obligations.TroubleIsLogged, clause by clause. -/
theorem witness_TroubleIsLogged :
    (∃ (b : TrbBit) (s : State), trouble s b = false ∧ (que s 32).enable = true ∧ overCap s 32 2 = false ∧ overPool s 32 2 = false ∧ s.trb.log.length < 1048576)
    ∧ (∃ (b : TrbBit) (s : State), trouble s b = true) :=
  ⟨⟨.vinLow, ready, by decide⟩,
   ⟨.vinLow, { ready with trb := { ready.trb with regs := [(0, 1)] } }, by decide⟩⟩

/-- States and operands that meet the hypotheses of Obligations.FaultRowsAct, clause by clause. -/
theorem witness_FaultRowsAct :
    (∃ (s : State), s.dev.clkLost = false)
    ∧ (∃ (s : State), s.dev.clkLost = true)
    ∧ (∃ (r : Nat), r < 4)
    ∧ (∃ (x : UeIn), 0x738000000 ≤ x.addr.toNat ∧ x.addr.toNat < 0x7F8000000)
    ∧ (∃ (x : UeIn), 0x600000000 ≤ x.addr.toNat ∧ x.addr.toNat < 0x700000000)
    ∧ (∃ (s : State), s.dev.resetLow = false) :=
  ⟨⟨ready, by decide⟩,
   ⟨{ ready with dev := { ready.dev with clkLost := true } }, by decide⟩,
   ⟨3, by decide⟩,
   ⟨{ addr := 0x738000000, start := 0, stop := 0, queue := 0 }, by decide⟩,
   ⟨{ addr := 0x6FFFFFFFF, start := 0, stop := 0, queue := 0 }, by decide⟩,
   ⟨ready, by decide⟩⟩

/-- States and operands that meet the hypotheses of Obligations.ReceiveCommandsRun, clause by clause. -/
theorem witness_ReceiveCommandsRun :
    (let free (c : Packet) (u : State) : Prop := pn c 0 ≤ 3 ∧ draining u (pn c 0) = false;
    ∃ (n : Nat), n ≤ 4 ∧ Meets 0x0204 (2 + n)
      (fun c u => free c u ∧ pn c 1 = n ∧ ∀ i, i < n → pn c (2 + i) < 256))
    ∧ (let free (c : Packet) (u : State) : Prop := pn c 0 ≤ 3 ∧ draining u (pn c 0) = false;
    Meets 0x0206 3
      (fun c u => free c u ∧ 3 ≤ pn c 1 ∧ pn c 1 ≤ 6 ∧ 40 ≤ pn c 2 ∧ pn c 2 ≤ 200))
    ∧ (let free (c : Packet) (u : State) : Prop := pn c 0 ≤ 3 ∧ draining u (pn c 0) = false;
    Meets 0x0207 2
      (fun c u => free c u ∧ 1 ≤ pn c 1 ∧ pn c 1 ≤ 4096))
    ∧ (let free (c : Packet) (u : State) : Prop := pn c 0 ≤ 3 ∧ draining u (pn c 0) = false;
    Meets 0x0208 4
      (fun c u => free c u ∧ 34 ≤ pn c 1 ∧ pn c 1 ≤ 63 ∧ 34 ≤ pn c 2 ∧ pn c 2 ≤ 63 ∧ pn c 3 < 4))
    ∧ (let free (c : Packet) (u : State) : Prop := pn c 0 ≤ 3 ∧ draining u (pn c 0) = false;
    Meets 0x0213 3
      (fun c u => free c u ∧ pn c 1 ≤ 2 ∧ 1 ≤ pn c 2 ∧ pn c 2 ≤ 1024))
    ∧ (∃ (p : Nat) (s : State), (plainCfg s p).sysref = 0)
    ∧ (let free (c : Packet) (u : State) : Prop := pn c 0 ≤ 3 ∧ draining u (pn c 0) = false;
    Meets 0x0222 2
      (fun c u => free c u ∧ pn c 1 < 65536))
    ∧ (Meets 0x0211 2
      (fun c u => pn c 0 ≤ 15 ∧ pn c 1 < 65536 ∧ plainOfPort u (pn c 0) = none))
    ∧ (∃ (p : Nat), p < 4 ∧ Meets 0x0211 2
      (fun c u =>
        let v := setPortCfg u (pn c 0) { portCfg u (pn c 0) with extLatency := pn c 1 }
        pn c 0 ≤ 15 ∧ pn c 1 < 65536 ∧ plainOfPort u (pn c 0) = some p ∧ draining u p = false
        ∧ ∀ m ∈ portsOf v p, plainLatency v p - receiveLatency v m ≤ 5040))
    ∧ (∃ (p : Nat), p < 4 ∧ Meets 0x0211 2
      (fun c u =>
        let v := setPortCfg u (pn c 0) { portCfg u (pn c 0) with extLatency := pn c 1 }
        pn c 0 ≤ 15 ∧ pn c 1 < 65536 ∧ plainOfPort u (pn c 0) = some p
        ∧ ∃ m ∈ portsOf v p, 5040 < plainLatency v p - receiveLatency v m))
    ∧ (Meets 0x0214 2
      (fun c u => pn c 0 ≤ 15 ∧ pn c 1 < 4 ∧ inEnabledPlain u (pn c 0) = false))
    ∧ (let free (c : Packet) (u : State) : Prop := pn c 0 ≤ 3 ∧ draining u (pn c 0) = false;
    ∃ (n : Nat), n ≤ 128 ∧ Meets 0x0230 (3 + n)
      (fun c u => free c u ∧ pn c 1 ≤ 63 ∧ pn c 2 = n ∧ swapPending u (pn c 0) false = false))
    ∧ (Meets 0x0202 1
      (fun c _ => pn c 0 ≤ 3))
    ∧ (Meets 0x0212 1
      (fun c _ => pn c 0 ≤ 15))
    ∧ (Meets 0x0242 0
      (fun _ _ => True))
    ∧ (Meets 0x0250 2
      (fun c _ => pn c 0 ≤ 3 ∧ pn c 1 < 2))
    ∧ (Meets 0x0232 3
      (fun c _ => pn c 0 ≤ 3 ∧ pn c 1 ≤ 63 ∧ pn c 2 < 2)) :=
  ⟨⟨4, by decide, pkt [3, 4, 255, 0, 0, 0], ready, by decide⟩,
   ⟨pkt [3, 6, 200], ready, by decide⟩,
   ⟨pkt [3, 4096], ready, by decide⟩,
   ⟨pkt [3, 34, 63, 3], ready, by decide⟩,
   ⟨pkt [3, 2, 1024], ready, by decide⟩,
   ⟨3, ready, by decide⟩,
   ⟨pkt [3, 65535], ready, by decide⟩,
   ⟨pkt [15, 65535], ready, by decide⟩,
   ⟨0, by decide, pkt [0, 100], plainOn, by decide⟩,
   ⟨0, by decide, pkt [0, 65535], setPlainCfg plainOn 0 { plainCfg plainOn 0 with ports := 3 }, by decide⟩,
   ⟨pkt [15, 3], ready, by decide⟩,
   ⟨1, by decide, pkt [3, 63, 1, 9], ready, by decide⟩,
   ⟨pkt [3], ready, by decide⟩,
   ⟨pkt [15], ready, by decide⟩,
   ⟨pkt [], ready, by decide⟩,
   ⟨pkt [3, 1], ready, by decide⟩,
   ⟨pkt [3, 63, 1], ready, by decide⟩⟩

/-- States and operands that meet the hypotheses of Obligations.ReceiveCapacityRuns, clause by clause. -/
theorem witness_ReceiveCapacityRuns :
    (let named (c : Packet) (u : State) : Prop := ∀ n ∈ maskList (pw c 1), plainOfPort u n = none ∨ plainOfPort u n = some (pn c 0);
    Meets 0x0200 3
      (fun c u => pn c 0 ≤ 3 ∧ pn c 1 < 65536 ∧ pn c 2 = 0 ∧ (plainCfg u (pn c 0)).enabled = false ∧ draining u (pn c 0) = false
        ∧ named c u))
    ∧ (let moved (c : Packet) (u : State) : State := realign (pn c 0) (movePorts (pn c 0) ((pw c 1).setWidth 16) u);
    let named (c : Packet) (u : State) : Prop := ∀ n ∈ maskList (pw c 1), plainOfPort u n = none ∨ plainOfPort u n = some (pn c 0);
    Meets 0x0200 3
      (fun c u => pn c 0 ≤ 3 ∧ pn c 1 < 65536 ∧ pn c 1 ≠ 0 ∧ pn c 2 = 1 ∧ (plainCfg u (pn c 0)).enabled = false
        ∧ draining u (pn c 0) = false ∧ named c u
        ∧ searchLoadWith (moved c u) (pn c 0) { plainCfg (moved c u) (pn c 0) with enabled := true }
            ≤ 1088 * maskCount (paddocksIn (moved c u))))
    ∧ (let moved (c : Packet) (u : State) : State := realign (pn c 0) (movePorts (pn c 0) ((pw c 1).setWidth 16) u);
    let named (c : Packet) (u : State) : Prop := ∀ n ∈ maskList (pw c 1), plainOfPort u n = none ∨ plainOfPort u n = some (pn c 0);
    Meets 0x0200 3
      (fun c u => pn c 0 ≤ 3 ∧ pn c 1 < 65536 ∧ pn c 1 ≠ 0 ∧ pn c 2 = 1 ∧ (plainCfg u (pn c 0)).enabled = false
        ∧ draining u (pn c 0) = false ∧ named c u
        ∧ 1088 * maskCount (paddocksIn (moved c u))
            < searchLoadWith (moved c u) (pn c 0) { plainCfg (moved c u) (pn c 0) with enabled := true }))
    ∧ (let named (c : Packet) (u : State) : Prop := ∀ n ∈ maskList (pw c 1), plainOfPort u n = none ∨ plainOfPort u n = some (pn c 0);
    Meets 0x0200 3
      (fun c u => pn c 0 ≤ 3 ∧ pn c 1 < 65536 ∧ pn c 2 = 0 ∧ (plainCfg u (pn c 0)).enabled = true ∧ named c u))
    ∧ (Meets 0x0201 2
      (fun c u => pn c 0 ≤ 3 ∧ pn c 1 < 2 ∧ draining u (pn c 0) = false ∧ (plainCfg u (pn c 0)).enabled = false))
    ∧ (let fresh (c : Packet) (u : State) : Prop := ∀ w ∈ u.rx.drains, w.tag ≠ c.tag;
    Meets 0x0201 2
      (fun c u => pn c 0 ≤ 3 ∧ pn c 1 = 0 ∧ draining u (pn c 0) = false ∧ (plainCfg u (pn c 0)).enabled = true ∧ fresh c u
        ∧ ∃ t ∈ u.rx.tracks, t.plain = pn c 0))
    ∧ (let fresh (c : Packet) (u : State) : Prop := ∀ w ∈ u.rx.drains, w.tag ≠ c.tag;
    ∃ (c : Packet) (s : State), clear 0x0201 2 c s ∧ pn c 0 ≤ 3 ∧ pn c 1 = 0 ∧ draining (takeHead 0x0201 c s) (pn c 0) = false ∧ (plainCfg (takeHead 0x0201 c s) (pn c 0)).enabled = true ∧ fresh c (takeHead 0x0201 c s) ∧ (∀ t ∈ (takeHead 0x0201 c s).rx.tracks, t.plain ≠ pn c 0))
    ∧ (Meets 0x0203 5
      (fun c u => pn c 0 ≤ 3 ∧ draining u (pn c 0) = false
        ∧ (plainCfg u (pn c 0)).chainMask &&& ~~~ chainWords c &&& allChains u (pn c 0) = 0#128))
    ∧ (let fresh (c : Packet) (u : State) : Prop := ∀ w ∈ u.rx.drains, w.tag ≠ c.tag;
    Meets 0x0203 5
      (fun c u =>
        let left := (plainCfg u (pn c 0)).chainMask &&& ~~~ chainWords c &&& allChains u (pn c 0)
        pn c 0 ≤ 3 ∧ draining u (pn c 0) = false ∧ left ≠ 0#128 ∧ fresh c u
        ∧ ∃ t ∈ u.rx.tracks, t.plain = pn c 0 ∧ t.job = none ∧ usesChains (plainCfg u (pn c 0)) t.beam left = true))
    ∧ (Meets 0x0205 3
      (fun c u => pn c 0 ≤ 3 ∧ pw c 1 &&& 0xFFFF00F0#32 = 0#32 ∧ pn c 2 < 2 ∧ draining u (pn c 0) = false
        ∧ (plainCfg u (pn c 0)).gridMask &&& (pw c 1).setWidth 4 = (plainCfg u (pn c 0)).gridMask
        ∧ (plainCfg u (pn c 0)).sfMask &&& (pw c 1 >>> 8).setWidth 8 = (plainCfg u (pn c 0)).sfMask
        ∧ fitsBudget u (pn c 0) { plainCfg u (pn c 0) with gridMask := (pw c 1).setWidth 4, sfMask := (pw c 1 >>> 8).setWidth 8 } = true))
    ∧ (Meets 0x0205 3
      (fun c u => pn c 0 ≤ 3 ∧ pw c 1 &&& 0xFFFF00F0#32 = 0#32 ∧ pn c 2 < 2 ∧ draining u (pn c 0) = false
        ∧ (plainCfg u (pn c 0)).gridMask &&& (pw c 1).setWidth 4 ≠ (pw c 1).setWidth 4
        ∧ fitsBudget u (pn c 0) { plainCfg u (pn c 0) with gridMask := (pw c 1).setWidth 4, sfMask := (pw c 1 >>> 8).setWidth 8 } = false))
    ∧ (let fresh (c : Packet) (u : State) : Prop := ∀ w ∈ u.rx.drains, w.tag ≠ c.tag;
    Meets 0x0205 3
      (fun c u =>
        let v := plainCfg u (pn c 0)
        let sf : BitVec 8 := (pw c 1 >>> 8).setWidth 8
        pn c 0 ≤ 3 ∧ pw c 1 &&& 0xFFFF00F0#32 = 0#32 ∧ pn c 2 = 0 ∧ draining u (pn c 0) = false ∧ fresh c u
        ∧ (pw c 1).setWidth 4 = v.gridMask ∧ v.sfMask &&& sf = sf ∧ v.sfMask ≠ sf ∧ u.dev.mode = .trot
        ∧ ∃ t ∈ u.rx.tracks, t.plain = pn c 0 ∧ t.job = none ∧ bit sf (t.sf - 5) = false))
    ∧ (Meets 0x0233 4
      (fun c u => pn c 0 ≤ 3 ∧ pn c 3 < 2 ∧ draining u (pn c 0) = false ∧ beamsBelow (p64 c 1) (plainCfg u (pn c 0)).beams = p64 c 1
        ∧ (plainCfg u (pn c 0)).beamMask &&& p64 c 1 = (plainCfg u (pn c 0)).beamMask
        ∧ fitsBudget u (pn c 0) { plainCfg u (pn c 0) with beamMask := p64 c 1 } = true))
    ∧ (Meets 0x0233 4
      (fun c u => pn c 0 ≤ 3 ∧ pn c 3 < 2 ∧ beamsBelow (p64 c 1) (plainCfg u (pn c 0)).beams ≠ p64 c 1))
    ∧ (Meets 0x0241 1
      (fun _ _ => True))
    ∧ (Meets 0x0240 2
      (fun c u => pn c 1 < 2 ∧ 1088 * maskCount (paddocksIn
        { u with cfg := { u.cfg with rx := { u.cfg.rx with padOut := u.cfg.rx.padOut ||| pw c 0 } } }) < searchLoadAll u))
    ∧ (let fresh (c : Packet) (u : State) : Prop := ∀ w ∈ u.rx.drains, w.tag ≠ c.tag;
    ∃ (c : Packet) (s : State), clear 0x0240 2 c s ∧ pn c 1 < 2 ∧ searchLoadAll (takeHead 0x0240 c s) ≤ 1088 * maskCount (paddocksIn ({ (takeHead 0x0240 c s) with cfg := { (takeHead 0x0240 c s).cfg with rx := { (takeHead 0x0240 c s).cfg.rx with padOut := (takeHead 0x0240 c s).cfg.rx.padOut ||| pw c 0 } } } : State)) ∧ (∀ t ∈ (takeHead 0x0240 c s).rx.tracks, bit (pw c 0) (t.num / 128) = false) ∧ fresh c (takeHead 0x0240 c s))
    ∧ (let fresh (c : Packet) (u : State) : Prop := ∀ w ∈ u.rx.drains, w.tag ≠ c.tag;
    Meets 0x0240 2
      (fun c u =>
        let u1 : State := { u with cfg := { u.cfg with rx := { u.cfg.rx with padOut := u.cfg.rx.padOut ||| pw c 0 } } }
        pn c 1 = 0 ∧ searchLoadAll u ≤ 1088 * maskCount (paddocksIn u1) ∧ fresh c u
        ∧ ∃ t ∈ u.rx.tracks, bit (pw c 0) (t.num / 128) = true))
    ∧ (Meets 0x0210 1
      (fun c u => pn c 0 < 65536 ∧ (∀ n ∈ maskList (pw c 0), inEnabledPlain u n = true ∧ (portRun u n).lane ≠ 0)
        ∧ (∀ p ∈ plainsNamed u (pw c 0), draining u p = false) ∧ spreadPlains (sendSysref (pw c 0) u) (pw c 0) = []))
    ∧ (Meets 0x0210 1
      (fun c u => pn c 0 < 65536 ∧ (∀ n ∈ maskList (pw c 0), inEnabledPlain u n = true) ∧ (∃ n ∈ maskList (pw c 0), (portRun u n).lane = 0)
        ∧ ∀ p ∈ plainsNamed u (pw c 0), draining u p = false))
    ∧ (Meets 0x0231 6
      (fun c u => pn c 0 ≤ 3 ∧ 1 ≤ pn c 1 ∧ pn c 1 ≤ 64 ∧ pn c 2 ≤ 7 ∧ pn c 5 < 256 ∧ asnAhead u (asnWords c) = true
        ∧ draining u (pn c 0) = false ∧ swapPending u (pn c 0) false = false ∧ activationRefused u (pn c 0) (pn c 1) = false
        ∧ bankCrc (rxPlain u (pn c 0)).shadow (pn c 1) (chainsOf u (pn c 0)) = pw c 3))
    ∧ (Meets 0x0231 6
      (fun c u => pn c 0 ≤ 3 ∧ 1 ≤ pn c 1 ∧ pn c 1 ≤ 64 ∧ pn c 2 ≤ 7 ∧ pn c 5 < 256 ∧ asnAhead u (asnWords c) = true
        ∧ draining u (pn c 0) = false ∧ swapPending u (pn c 0) false = false ∧ activationRefused u (pn c 0) (pn c 1) = true)) :=
  ⟨⟨pkt [3, 65535, 0], ready, by decide⟩,
   ⟨pkt [3, 8, 1], ready, by decide⟩,
   ⟨pkt [3, 8, 1], setPlainCfg ({ plainOn with cfg := { plainOn.cfg with rx := { plainOn.cfg.rx with padOut := 0xFFFFFFFF } } }) 3 { beams := 1, beamMask := 1 }, by decide⟩,
   ⟨pkt [0, 1, 0], plainOn, by decide⟩,
   ⟨pkt [3, 1], ready, by decide⟩,
   ⟨pkt [0, 0], withTracks [track], by decide⟩,
   ⟨pkt [0, 0], plainOn, by decide⟩,
   ⟨pkt [3, 0, 0, 0, 0xFFFFFFFF], ready, by decide⟩,
   ⟨pkt [0, 0, 0, 0, 0], setPlainCfg (withTracks [track]) 0 { plainCfg plainOn 0 with bank := [(0, [1])] }, by decide⟩,
   ⟨pkt [3, 0xFF0F, 1], ready, by decide⟩,
   ⟨pkt [0, 0xFF0F, 0], setPlainCfg ({ plainOn with cfg := { plainOn.cfg with rx := { plainOn.cfg.rx with padOut := 0xFFFFFFFF } } }) 0 { plainCfg plainOn 0 with gridMask := 1 }, by decide⟩,
   ⟨pkt [0, 0xEF0F, 0], inMode .trot (withTracks [track]), by decide⟩,
   ⟨pkt [3, 0, 0, 1], ready, by decide⟩,
   ⟨pkt [3, 1, 0, 0], ready, by decide⟩,
   ⟨pkt [0xFFFFFFFF], ready, by decide⟩,
   ⟨pkt [0xFFFFFFFF, 1], plainOn, by decide⟩,
   ⟨pkt [0, 1], ready, by decide⟩,
   ⟨pkt [1, 0], withTracks [track], by decide⟩,
   ⟨pkt [1], plainOn, by
      refine ⟨by decide, by decide, by decide, by decide, List.filter_eq_nil_iff.mpr fun p hp => ?_⟩
      have h : p < 4 := List.mem_range.mp hp
      interval_cases p <;> rw [Bool.not_eq_true] <;> exact spread_of_equal _ _ rfl⟩,
   ⟨pkt [1], { plainOn with rx := { plainOn.rx with ports := [(0, { release := some 3 })] } }, by decide⟩,
   ⟨pkt [3, 64, 7, 0, 0, 0], ready, by decide⟩,
   ⟨pkt [3, 64, 7, 0, 0, 0], setPlainCfg (setPlainCfg ready 0 { beams := 64 }) 1 { beams := 64 }, by decide⟩⟩

/-- States and operands that meet the hypotheses of Obligations.ReceiveEventsAct, clause by clause. -/
theorem witness_ReceiveEventsAct :
    (∃ (p : Fin 4) (w : BeamSwap) (s : State), s.rx.swaps.find? (fun x => x.plain = p.val && x.tx == false) = some w ∧ asnReached (asnAt s (now s)) w.asn = true)
    ∧ (∃ (n : Fin 16) (p : Nat) (s : State), plainOfPort s n = some p ∧ (plainCfg s p).enabled = true ∧ (portRun s n).lane ≠ 0)
    ∧ (∃ (n : Fin 16) (p : Nat) (s : State), plainOfPort s n = some p ∧ (plainCfg s p).enabled = true ∧ (portRun s n).lane = 0 ∧ (portRun s n).release ≠ none ∧ s.rx.calWait = [])
    ∧ (∃ (p : Fin 4) (x : List (List Word)) (s : State), (plainCfg s p).enabled = true ∧ s.dev.clkLost = false ∧ (rxPlain s p).lastWindow < (now s).toNat / 100000000 ∧ (plainCfg s p).levels = true ∧ x.length = chainsOf s p ∧ (∀ l ∈ x, (chainLevel l).2 ≤ (plainCfg s p).clipLimit))
    ∧ (∃ (p : Fin 4) (x : List (List Word)) (l : List Word) (s : State), (plainCfg s p).enabled = true ∧ s.dev.clkLost = false ∧ (rxPlain s p).lastWindow < (now s).toNat / 100000000 ∧ x.length = chainsOf s p ∧ l ∈ x ∧ (plainCfg s p).clipLimit < (chainLevel l).2)
    ∧ (∃ (s : State) (p : Nat) (b : Nat), beamFormed s p b = false)
    ∧ (∃ (d : Nat), 0 < d) :=
  ⟨⟨3, { plain := 3 }, { ready with rx := { ready.rx with swaps := [{ plain := 3 }] } }, by decide⟩,
   ⟨0, 0, plainOn, by decide⟩,
   ⟨0, 0, { plainOn with rx := { plainOn.rx with ports := [(0, { release := some 3 })] } }, by decide⟩,
   ⟨0, List.replicate 8 [], { plainOn with time := { plainOn.time with st := BitVec.ofNat 96 (2 ^ 62) } }, by decide⟩,
   ⟨0, List.replicate 8 [0x7FFF], [0x7FFF], setPlainCfg ({ plainOn with time := { plainOn.time with st := BitVec.ofNat 96 (2 ^ 62) } }) 0 { plainCfg plainOn 0 with clipLimit := 0 }, by decide⟩,
   ⟨ready, 0, 0, by decide⟩,
   ⟨1, by decide⟩⟩

/-- States and operands that meet the hypotheses of Obligations.TrackEventsAct, clause by clause. -/
theorem witness_TrackEventsAct :
    (∃ (d : DetectIn) (s : State), detectable s d = true)
    ∧ (∃ (d : DetectIn) (s : State), detectable s d = false)
    ∧ (∃ (d : DetectIn) (s : State), d.windows.length < (plainCfg s d.plain).detCount)
    ∧ (∃ (x : Track) (n : Nat) (s : State), x.job = none ∧ (∀ u ∈ s.rx.tracks, u.job = none → sameFrame u x = false) ∧ s.rx.detq = [{ track := x }] ∧ freeContext s x.plain = some n)
    ∧ (∃ (x : Track) (s : State), x.job = none ∧ x.plain < 4 ∧ (∀ u ∈ s.rx.tracks, u.job = none → sameFrame u x = false) ∧ s.rx.detq = [{ track := x }] ∧ freeContext s x.plain = none)
    ∧ (∃ (x : Pend) (y : Pend), keyBefore (pendKey x) (pendKey y) = true ∧ keyBefore (pendKey y) (pendKey x) = false)
    ∧ (∃ (n : Fin 4096) (u : Track) (s : State), trackAt s n = some u ∧ u.stage = 0 ∧ u.job = none ∧ notBefore (antennaNow s u.plain) (u.inst + BitVec.ofNat 64 (64 * (1000 * symbolUs u.sf u.bw))) = true)
    ∧ (∃ (n : Fin 4096) (u : Track) (s : State), trackAt s n = some u ∧ u.stage = 0)
    ∧ (∃ (n : Fin 4096) (u : Track) (x : HeaderIn) (s : State), trackAt s n = some u ∧ u.stage = 1 ∧ x.shifts.length = headerSymbols u.sf ∧ (headerDecode u.sf u.bw x.shifts).1 = 0)
    ∧ (∃ (s : State) (u : Track), u.offset = 0#32 ∧ 5000000 < (plainCfg s u.plain).fP.toNat)
    ∧ (∃ (n : Fin 4096) (u : Track) (x : HeaderIn) (s : State), trackAt s n = some u ∧ u.stage = 1 ∧ u.job = none ∧ x.shifts.length = headerSymbols u.sf ∧ (headerDecode u.sf u.bw x.shifts).1 ≠ 0)
    ∧ (∃ (n : Fin 4096) (u : Track) (s : State), trackAt s n = some u ∧ u.stage = 2 ∧ u.pilots = 0 ∧ 0 < pilotsOf u)
    ∧ (∃ (n : Fin 4096) (u : Track) (e : BitVec 64) (s : State), trackAt s n = some u ∧ u.stage = 2 ∧ 0 < u.pilots ∧ u.pilots < pilotsOf u ∧ u.pilotAt < e)
    ∧ (∃ (n : Fin 4096) (u : Track) (s : State), trackAt s n = some u ∧ u.stage = 2 ∧ decoderDepth s < 512 ∧ (∀ w ∈ s.rx.tracks, w.stage ≠ 3))
    ∧ (∃ (n : Fin 4096) (u : Track) (s : State), trackAt s n = some u ∧ u.stage = 2 ∧ 512 ≤ decoderDepth s)
    ∧ (∃ (u : Track) (s : State), firstBy decoderBefore (s.rx.tracks.filter (fun t => t.stage = 3)) = some u ∧ decoderDepth s < 512 ∧ s.dev.clkLost = false)
    ∧ (∃ (u : Track) (x : DecodeIn) (s : State), firstBy decoderBefore s.rx.decq = some u ∧ u.job = none ∧ decodeOk (hdrLen (u.hdr.getD 0#24)) x = true)
    ∧ (∃ (u : Track) (x : DecodeIn) (s : State), firstBy decoderBefore s.rx.decq = some u ∧ u.job = none ∧ decodeOk (hdrLen (u.hdr.getD 0#24)) x = false)
    ∧ (∃ (s : State), decoderDepth s = 0)
    ∧ (∃ (s : State), decoderDepth s = 0)
    ∧ (∃ (s : State), decoderDepth s ≠ 0)
    ∧ (∃ (q : Fin 16) (tag : BitVec 16) (w : Withdrawal) (s : State), withdrawalOf s q tag = some w ∧ w.tracks = [] ∧ isModeDrain w = false)
    ∧ (∃ (q : Fin 16) (tag : BitVec 16) (w : Withdrawal) (x : Withdrawal) (s : State), withdrawalOf s q tag = some w ∧ reached s w.deadline = true ∧ withdrawalOf (timeOut w s) q tag = some x ∧ x.tracks = [] ∧ isModeDrain x = false) :=
  ⟨⟨found, plainOn, by decide⟩,
   ⟨found, ready, by decide⟩,
   ⟨{ found with windows := [] }, plainOn, by decide⟩,
   ⟨track, 0, { plainOn with rx := { plainOn.rx with detq := [{ track := track }] } }, by decide⟩,
   ⟨track, setPlainCfg ({ plainOn with rx := { plainOn.rx with detq := [{ track := track }] } }) 0 { plainCfg plainOn 0 with trackCap := 0 }, by decide⟩,
   ⟨{ track := track }, { track := { track with beam := 1 } }, by decide⟩,
   ⟨5, track, { withTracks [track] with time := { plainOn.time with st := BitVec.ofNat 96 (2 ^ 70) } }, by decide⟩,
   ⟨5, track, withTracks [track], by decide⟩,
   ⟨5, { track with stage := 1 }, headerHeard ((headerSymbolList (headerOf 1 0 false) 9).map (256 * ·)), withTracks [{ track with stage := 1 }], by decide⟩,
   ⟨setPlainCfg ready 0 { fP := 868000000 }, track, by decide⟩,
   ⟨5, { track with stage := 1 }, headerHeard [0, 0, 0, 0, 0, 0, 0], withTracks [{ track with stage := 1 }], by decide⟩,
   ⟨5, { track with stage := 2, hdr := some 0xBC0620 }, withTracks [{ track with stage := 2, hdr := some 0xBC0620 }], by decide⟩,
   ⟨5, { track with stage := 2, hdr := some (headerOf 255 0 true), pilots := 1 }, 1, withTracks [{ track with stage := 2, hdr := some (headerOf 255 0 true), pilots := 1 }], by decide⟩,
   ⟨5, { track with stage := 2 }, withTracks [{ track with stage := 2 }], by decide⟩,
   ⟨5, { track with stage := 2 }, { withTracks [{ track with stage := 2 }] with rx := { (withTracks [{ track with stage := 2 }]).rx with decq := List.replicate 512 {} } }, by decide⟩,
   ⟨{ track with stage := 3 }, withTracks [{ track with stage := 3 }], by decide⟩,
   ⟨{ track with stage := 4, hdr := some 1 }, { blocksOk := true, iter := 32, info := whiten 0x1FF (infoBits [0]) }, { plainOn with rx := { plainOn.rx with decq := [{ track with stage := 4, hdr := some 1 }] } }, by decide⟩,
   ⟨{ track with stage := 4, hdr := some 1 }, { blocksOk := false, iter := 32, info := [] }, { plainOn with rx := { plainOn.rx with decq := [{ track with stage := 4, hdr := some 1 }] } }, by decide⟩,
   ⟨ready, by decide⟩,
   ⟨ready, by decide⟩,
   ⟨{ plainOn with rx := { plainOn.rx with decq := [{ track with stage := 4 }] } }, by decide⟩,
   ⟨15, 9, { queue := 15, tag := 9, plain := some 0 }, { ready with rx := { ready.rx with drains := [{ queue := 15, tag := 9, plain := some 0 }] } }, by decide⟩,
   ⟨15, 9, { queue := 15, tag := 9, plain := some 0 }, { queue := 15, tag := 9, plain := some 0 }, { ready with rx := { ready.rx with drains := [{ queue := 15, tag := 9, plain := some 0 }] } }, by decide⟩⟩

/-- States and operands that meet the hypotheses of Obligations.CuttingCommandsRun, clause by clause. -/
theorem witness_CuttingCommandsRun :
    (Meets 0x0300 3
      (fun c u => pn c 0 ≤ 3 ∧ pn c 1 < 8 ∧ 1 ≤ pn c 2 ∧ pn c 2 ≤ 4 ∧ draining u (pn c 0) = false))
    ∧ (Meets 0x0301 0
      (fun _ _ => True))
    ∧ (Meets 0x0300 3
      (fun c u => pn c 0 ≤ 3 ∧ pn c 1 < 8 ∧ 1 ≤ pn c 2 ∧ pn c 2 ≤ 4 ∧ draining u (pn c 0) = true))
    ∧ (let due (c : Packet) (u : State) : List CutJob :=
            (u.cut.jobs.filter (fun j => j.state = .awaiting && !reached u (j.endedAt + 1000000000#64)
              && (pw c 0 = 0xFFFFFFFF#32 || j.seq = pw c 0))).take (256 - jobsQueued u);
    Meets 0x0302 1
      (fun c u => pw c 0 = 0xFFFFFFFF#32 ∨ due c u ≠ []))
    ∧ (let due (c : Packet) (u : State) : List CutJob :=
            (u.cut.jobs.filter (fun j => j.state = .awaiting && !reached u (j.endedAt + 1000000000#64)
              && (pw c 0 = 0xFFFFFFFF#32 || j.seq = pw c 0))).take (256 - jobsQueued u);
    Meets 0x0302 1
      (fun c u => pw c 0 ≠ 0xFFFFFFFF#32 ∧ due c u = []))
    ∧ (Meets 0x0303 1
      (fun c _ => pn c 0 ≤ 3))
    ∧ (Meets 0x0304 3
      (fun c _ => pn c 0 ≤ 3 ∧ 1 ≤ pn c 2 ∧ pn c 2 ≤ 128))
    ∧ (Meets 0x0305 0
      (fun _ _ => True))
    ∧ (Meets 0x0310 5
      (fun c _ => 5 ≤ pn c 2 ∧ pn c 2 ≤ 200 ∧ pn c 3 < 65536 ∧ 34 ≤ pn c 4 ∧ pn c 4 ≤ 63))
    ∧ (Meets 0x0311 0
      (fun _ _ => True))
    ∧ (Meets 0x0320 2
      (fun c _ => pn c 0 ≤ 3 ∧ pn c 1 < 2))
    ∧ (Meets 0x0321 1
      (fun c _ => pn c 0 < 2)) :=
  ⟨⟨pkt [3, 7, 4], ready, by decide⟩,
   ⟨pkt [], ready, by decide⟩,
   ⟨pkt [3, 7, 4], { ready with rx := { ready.rx with drains := [{ plain := some 3 }] } }, by decide⟩,
   ⟨pkt [9], withJobs [{ seq := 9, state := .awaiting }], by decide⟩,
   ⟨pkt [9], ready, by decide⟩,
   ⟨pkt [3], ready, by decide⟩,
   ⟨pkt [3, 0, 128], ready, by decide⟩,
   ⟨pkt [], ready, by decide⟩,
   ⟨pkt [0, 0, 200, 65535, 63], ready, by decide⟩,
   ⟨pkt [], ready, by decide⟩,
   ⟨pkt [3, 1], ready, by decide⟩,
   ⟨pkt [1], ready, by decide⟩⟩

/-- States and operands that meet the hypotheses of Obligations.CuttingAndCombiningEventsAct, clause by clause. -/
theorem witness_CuttingAndCombiningEventsAct :
    (∃ (j : CutJob) (s : State), firstBy jobBefore (s.cut.jobs.filter (fun j => j.state = .queued)) = some j ∧ jobsRunning s < 64)
    ∧ (∃ (j : CutJob) (s : State), jobAt s j.id = some j ∧ j.state = .dispatched ∧ waitsForJob s j = false ∧ readInside s j = false)
    ∧ (∃ (j : CutJob) (s : State), cutRecOf s j.plain j.id = none)
    ∧ (∃ (j : CutJob) (p : Fin 4) (s : State), jobAt s j.id = some j ∧ j.state = .subtracting ∧ j.plain = p)
    ∧ (∃ (s : State) (p : Nat), (cutPlain s p).cuts = [] ∧ (cutPlain s p).zeros = [])
    ∧ (∃ (s : State) (p : Nat) (c : Nat) (m : Nat) (x : SpanMark), x ∈ (cutPlain s p).zeros ∧ zeroBy s p c m x = true)
    ∧ (∃ (s : State) (p : Nat) (c : Nat) (m : Nat), skipped s p c m = true)
    ∧ (∃ (s : State) (p : Nat) (c : Nat) (m : Nat) (x : CutRec), cutReaches s p c x m = true)
    ∧ (∃ (j : CutJob) (d : DetectIn) (s : State), jobAt s j.id = some j ∧ j.state = .residue ∧ d.plain.val = j.plain ∧ windowsDeclare (plainCfg s j.plain) d = true ∧ channelExists d = true ∧ searched s j.plain (trackOf (plainCfg s j.plain) d 0) = true ∧ inResidueWindow j (trackOf (plainCfg s j.plain) d 0) = true ∧ known s j.plain (trackOf (plainCfg s j.plain) d 0) = false ∧ touchesBlanked s j.plain (trackOf (plainCfg s j.plain) d 0) = false)
    ∧ (∃ (j : CutJob) (d : DetectIn) (f : Failed) (x : RedemodIn) (s : State), jobAt s j.id = some j ∧ j.state = .residue ∧ d.plain.val = j.plain ∧ failedFor s j x.seq = some f)
    ∧ (∃ (j : CutJob) (y : Track) (e : Option Word) (n : Nat) (s : State), jobAt s j.id = some j ∧ j.state = .residue ∧ y.job = some j.id ∧ s.rx.detq = [{ track := y, redemod := e }] ∧ freeContext s y.plain = some n)
    ∧ (∃ (j : CutJob) (s : State), jobAt s j.id = some j ∧ j.state = .residue ∧ untried s j = false ∧ (∀ t ∈ s.rx.tracks, t.job ≠ some j.id) ∧ (∀ x ∈ s.rx.detq, x.track.job ≠ some j.id))
    ∧ (∃ (j : CutJob) (s : State), jobAt s j.id = some j ∧ untried s j = true)
    ∧ (∃ (j : CutJob) (n : Nat) (s : State), jobAt s j.id = some j ∧ j.state = .subtracting ∧ inRing s j.plain j.tStart = false ∧ n ≤ 100)
    ∧ (∃ (j : CutJob) (s : State), jobAt s j.id = some j ∧ j.state = .awaiting ∧ reached s (j.endedAt + 1000000000#64) = true)
    ∧ (∃ (p : Fin 4) (old : BitVec 64) (s : State), notBefore (oldestAt s p (now s)) old = true)
    ∧ (∃ (r : Report) (e : Word) (s : State), oldEpoch s r.hid e = false ∧ s.tan.joined = false)
    ∧ (∃ (r : Report) (e : Word) (s : State), oldEpoch s r.hid e = true ∧ s.tan.joined = false)
    ∧ (∃ (r : Report) (e : Word) (s : State), (∀ x ∈ s.comb.sets, matchesSet r x = false) ∧ (s.comb.sets.filter (setOpen s)).length < 8192 ∧ s.comb.inq = [(r, e)])
    ∧ (∃ (r : Report) (e : Word) (x : CombSet) (s : State), s.comb.sets.find? (fun y => setOpen s y && matchesSet r y) = some x ∧ x.reports.length < 8 ∧ s.comb.inq = [(r, e)])
    ∧ (∃ (r : Report) (e : Word) (x : CombSet) (s : State), s.comb.sets.find? (fun y => setOpen s y && matchesSet r y) = some x ∧ 8 ≤ x.reports.length ∧ s.comb.inq = [(r, e)])
    ∧ (∃ (y : CombSet) (a : CombAttempt) (b : Report) (x : DecodeIn) (s : State), s.comb.sets.find? (fun z => z.id = y.id) = some y ∧ setOpen s y = true ∧ y.attempts.find? (fun k => k.queued) = some a ∧ bestReport ((y.reports.take a.reports).map (fun r => r.1)) = some b ∧ decodeOk (hdrLen (headerFrom b.hdr)) x = true)
    ∧ (∃ (y : CombSet) (s : State), s.comb.sets.find? (fun z => z.id = y.id) = some y ∧ y.closed = false ∧ setOpen s y = false)
    ∧ (∃ (x : NoticeIn) (s : State), oldEpoch s x.src x.epoch = false ∧ s.herd.leaving = false ∧ s.tan.joined = false)
    ∧ (∃ (x : NoticeIn) (s : State), oldEpoch s x.src x.epoch = true ∧ s.tan.joined = false) :=
  ⟨⟨{ id := 1 }, withJobs [{ id := 1 }], by decide⟩,
   ⟨{ id := 1, state := .dispatched }, withJobs [{ id := 1, state := .dispatched }], by decide⟩,
   ⟨{}, ready, by decide⟩,
   ⟨{ id := 1, state := .subtracting }, 0, withJobs [{ id := 1, state := .subtracting }], by decide⟩,
   ⟨ready, 0, by decide⟩,
   ⟨setCutPlain plainOn 0 { zeros := [{ ports := 1 }] }, 0, 0, 0, { ports := 1 }, by decide⟩,
   ⟨setCutPlain plainOn 0 { zeros := [{ ports := 1 }] }, 0, 0, 0, by decide⟩,
   ⟨plainOn, 0, 0, 0, { upto := 1 }, by decide⟩,
   ⟨{ id := 1, state := .residue, tEnd := 200000000 }, found, withJobs [{ id := 1, state := .residue, tEnd := 200000000 }], by decide⟩,
   ⟨{ id := 1, state := .residue, tEnd := 200000000 }, found, { track := track, seq := 4 }, { seq := 4, tStart := 0, offset := 0 }, setCutPlain (withJobs [{ id := 1, state := .residue, tEnd := 200000000 }]) 0 { failed := [{ track := track, seq := 4 }] }, by decide⟩,
   ⟨{ id := 1, state := .residue, tEnd := 200000000 }, { track with job := some 1 }, none, 0, { withJobs [{ id := 1, state := .residue, tEnd := 200000000 }] with rx := { plainOn.rx with detq := [{ track := { track with job := some 1 } }] } }, by decide⟩,
   ⟨{ id := 1, state := .residue, tEnd := 200000000 }, withJobs [{ id := 1, state := .residue, tEnd := 200000000 }], by decide⟩,
   ⟨{ id := 1, state := .residue, tEnd := 200000000 }, setCutPlain (withJobs [{ id := 1, state := .residue, tEnd := 200000000 }]) 0 { failed := [{ track := track, seq := 4 }] }, by decide⟩,
   ⟨{ id := 1, state := .subtracting }, 100, withJobs [{ id := 1, state := .subtracting }], by decide⟩,
   ⟨{ id := 1, state := .awaiting }, { withJobs [{ id := 1, state := .awaiting }] with time := { ready.time with st := BitVec.ofNat 96 (1000000000 * 2 ^ 32) } }, by decide⟩,
   ⟨3, 0, ready, by decide⟩,
   ⟨report, 0, ready, by decide⟩,
   ⟨report, 4, setPeer ready 63 { epoch := some 5 }, by decide⟩,
   ⟨report, 0, { withSets [{ id := 1, reports := [({ report with sync := 0x12 }, 0)] }] with comb := { (withSets [{ id := 1, reports := [({ report with sync := 0x12 }, 0)] }]).comb with inq := [(report, 0)] } }, by decide⟩,
   ⟨report, 0, { id := 1, reports := [(report, 0)] }, { withSets [{ id := 1, reports := [(report, 0)] }] with comb := { (withSets [{ id := 1, reports := [(report, 0)] }]).comb with inq := [(report, 0)] } }, by decide⟩,
   ⟨report, 0, { id := 1, reports := List.replicate 8 (report, 0) }, { withSets [{ id := 1, reports := List.replicate 8 (report, 0) }] with comb := { (withSets [{ id := 1, reports := List.replicate 8 (report, 0) }]).comb with inq := [(report, 0)] } }, by decide⟩,
   ⟨{ id := 1, reports := [(report, 0)], attempts := [{ reports := 1, queued := true }] }, { reports := 1, queued := true }, report, { blocksOk := true, iter := 32, info := whiten 0x1FF (infoBits [0]) }, withSets [{ id := 1, reports := [(report, 0)], attempts := [{ reports := 1, queued := true }] }], by decide⟩,
   ⟨{ id := 1 }, { withSets [{ id := 1 }] with time := { ready.time with st := BitVec.ofNat 96 (1000000000 * 2 ^ 32) } }, by decide⟩,
   ⟨notice, ready, by decide⟩,
   ⟨{ notice with epoch := 4 }, setPeer ready 63 { epoch := some 5 }, by decide⟩⟩

/-- States and operands that meet the hypotheses of Obligations.RadioCommandsRun, clause by clause. -/
theorem witness_RadioCommandsRun :
    (let cfg (c : Packet) (u : State) : PortCfg := portCfg u (pn c 0);
    Meets 0x0400 3
      (fun c u => pn c 0 ≤ 15 ∧ pn c 1 < 1024 ∧ 3 ≤ pf c 1 7 0 ∧ pn c 2 < 256 ∧ pf c 2 5 0 ≤ 39 ∧ inEnabledPlain u (pn c 0) = false
        ∧ ∀ e ∈ (cfg c u).cal, scriptNs (pf c 1 7 0) e.2.steps ≤ 12000))
    ∧ (let legal (l : List SpiStep) : Prop := ∀ v ∈ l, 8 ≤ v.len ∧ v.len ≤ 40 ∧ ¬ (v.verify = true ∧ v.read = true);
    ∃ (n : Nat), 1 ≤ n ∧ n ≤ 8 ∧ Meets 0x0401 (2 + 2 * n)
      (fun c _ => pn c 0 ≤ 15 ∧ pn c 1 = n ∧ legal (stepsAt c 2 n)))
    ∧ (let legal (l : List SpiStep) : Prop := ∀ v ∈ l, 8 ≤ v.len ∧ v.len ≤ 40 ∧ ¬ (v.verify = true ∧ v.read = true);
    let cfg (c : Packet) (u : State) : PortCfg := portCfg u (pn c 0);
    ∃ (n : Nat), 1 ≤ n ∧ n ≤ 8 ∧ Meets 0x0402 (4 + 2 * n)
      (fun c u => pn c 0 ≤ 15 ∧ pn c 1 ≤ 511 ∧ pf c 3 11 8 = n ∧ pw c 3 &&& ~~~0xFF3#32 = 0#32 ∧ (pf c 3 7 4 ≤ 7 ∨ pf c 3 7 4 = 15)
        ∧ legal (stepsAt c 4 n) ∧ scriptNs (cfg c u).spiD (stepsAt c 4 n) ≤ 12000 ∧ entryInUse u (pn c 0) (pn c 1) = false))
    ∧ (Meets 0x0403 2
      (fun c _ => pn c 0 ≤ 15 ∧ pn c 1 ≤ 511))
    ∧ (Meets 0x0404 2
      (fun c u => pn c 0 ≤ 3 ∧ pn c 1 ≤ 511 ∧ (plainCfg u (pn c 0)).enabled = false ∧ draining u (pn c 0) = false
        ∧ portsOf u (pn c 0) ≠ []
        ∧ ∀ n ∈ portsOf u (pn c 0), (calEntry u n (pn c 1)).steps ≠ [] ∧ (calEntry u n (pn c 1)).rxOk = true
          ∧ (calEntry u n (pn c 1)).freq = entryFreq u (pn c 0) (pn c 1)))
    ∧ (let legal (l : List SpiStep) : Prop := ∀ v ∈ l, 8 ≤ v.len ∧ v.len ≤ 40 ∧ ¬ (v.verify = true ∧ v.read = true);
    ∃ (n : Nat), n ≤ 2 ∧ Meets 0x0405 (2 + 3 * n)
      (fun c _ => pn c 0 ≤ 127 ∧ pn c 1 = n ∧ ∀ k < n, pw c (4 + 3 * k) &&& ~~~0x1F3F#32 = 0#32
        ∧ legal [(gainStepAt c (2 + 3 * k)).step] ∧ pf c (4 + 3 * k) 5 0 ≤ 39 ∧ 1 ≤ pf c (4 + 3 * k) 12 8
        ∧ pf c (4 + 3 * k) 12 8 ≤ 16 ∧ pf c (4 + 3 * k) 5 0 + pf c (4 + 3 * k) 12 8 ≤ (gainStepAt c (2 + 3 * k)).step.len))
    ∧ (Meets 0x0220 3
      (fun c u => pn c 0 ≤ 127 ∧ pn c 1 < 65536 ∧ pn c 2 < 2 ∧ (chainCfg u (pn c 0)).script ≠ []
        ∧ ∀ p, plainOfPort u (pn c 0 / 8) = some p → draining u p = false))
    ∧ (Meets 0x0220 3
      (fun c u => pn c 0 ≤ 127 ∧ pn c 1 < 65536 ∧ pn c 2 < 2 ∧ (chainCfg u (pn c 0)).script = []))
    ∧ (Meets 0x0221 1
      (fun c _ => pn c 0 ≤ 127))
    ∧ (let legal (l : List SpiStep) : Prop := ∀ v ∈ l, 8 ≤ v.len ∧ v.len ≤ 40 ∧ ¬ (v.verify = true ∧ v.read = true);
    ∃ (n : Nat), n ≤ 8 ∧ Meets 0x0406 (3 + 2 * n)
      (fun c _ => pn c 0 ≤ 15 ∧ pn c 1 ≤ 2 ∧ pn c 2 = n ∧ legal (stepsAt c 3 n)))
    ∧ (Meets 0x0407 3
      (fun c u => pn c 0 ≤ 15 ∧ 1 ≤ pn c 1 ∧ pn c 1 ≤ 4 ∧ pn c 2 < 65536 ∧ inEnabledPlain u (pn c 0) = false))
    ∧ (Meets 0x0450 1
      (fun c _ => pn c 0 ≤ 15)) :=
  ⟨⟨pkt [15, 0x303, 0x67], ready, by decide⟩,
   ⟨8, by decide, by decide, pkt [15, 8, 0, 0x2800, 0, 0x800, 0, 0x800, 0, 0x800, 0, 0x800, 0, 0x800, 0, 0x800, 0, 0x800], ready, by decide⟩,
   ⟨1, by decide, by decide, pkt [15, 511, 9, 0x1F3, 0, 0x2800], ready, by decide⟩,
   ⟨pkt [15, 511], ready, by decide⟩,
   ⟨pkt [3, 511], { ready with cfg := { ready.cfg with rx := { ready.cfg.rx with
      plains := [(3, { ports := 0x8000 })], ports := [(15, { cal := [(511, { rxOk := true, freq := 7, steps := [step8] })] })] } } }, by decide⟩,
   ⟨1, by decide, pkt [127, 1, 0, 0x2800, 0x1018], ready, by decide⟩,
   ⟨pkt [127, 65535, 1], { ready with cfg := { ready.cfg with rx := { ready.cfg.rx with chains := [(127, { script := [{ step := step8 }] })] } } }, by decide⟩,
   ⟨pkt [127, 65535, 0], ready, by decide⟩,
   ⟨pkt [127], ready, by decide⟩,
   ⟨1, by decide, pkt [15, 2, 1, 0, 0x2800], ready, by decide⟩,
   ⟨pkt [15, 4, 65535], ready, by decide⟩,
   ⟨pkt [15], ready, by decide⟩⟩

/-- States and operands that meet the hypotheses of Obligations.TransmitCommandsRun, clause by clause. -/
theorem witness_TransmitCommandsRun :
    (let free (c : Packet) (u : State) : Prop := pn c 0 ≤ 3 ∧ draining u (pn c 0) = false;
    Meets 0x0408 5
      (fun c u => free c u ∧ 1 ≤ pn c 1 ∧ pn c 1 ≤ 70 ∧ 1 ≤ pn c 2 ∧ pn c 2 ≤ 70 ∧ 1 ≤ pn c 3 ∧ pn c 3 ≤ 16 ∧ pn c 4 < 2))
    ∧ (let free (c : Packet) (u : State) : Prop := pn c 0 ≤ 3 ∧ draining u (pn c 0) = false;
    Meets 0x0409 4
      (fun c u => free c u ∧ 8 ≤ pn c 1 ∧ pn c 1 ≤ 64 ∧ 4 ≤ pn c 2 ∧ pn c 2 ≤ 256 ∧ pn c 3 < 2))
    ∧ (let free (c : Packet) (u : State) : Prop := pn c 0 ≤ 3 ∧ draining u (pn c 0) = false;
    Meets 0x0420 5
      (fun c u => free c u ∧ pn c 1 ≤ 2 ∧ 200 ≤ pn c 2 ∧ pn c 2 ≤ 20000 ∧ pw c 3 &&& ~~~0xFF03#32 = 0#32 ∧ pn c 4 < 256))
    ∧ (∃ (u : State), (∀ p < 4, (txCfg u p).coexMode ≠ 2) ∧ u.radio.txs = [])
    ∧ (Meets 0x0421 0
      (fun _ _ => True))
    ∧ (let free (c : Packet) (u : State) : Prop := pn c 0 ≤ 3 ∧ draining u (pn c 0) = false;
    ∃ (n : Nat), n ≤ 128 ∧ Meets 0x0410 (3 + n)
      (fun c u => free c u ∧ pn c 1 ≤ 63 ∧ pn c 2 = n ∧ swapPending u (pn c 0) true = false
        ∧ ∀ x ∈ u.radio.txs, x.plain = pn c 0 → x.oldBank = true → x.state ≠ .onAir))
    ∧ (let free (c : Packet) (u : State) : Prop := pn c 0 ≤ 3 ∧ draining u (pn c 0) = false;
    Meets 0x0411 6
      (fun c u => free c u ∧ 1 ≤ pn c 1 ∧ pn c 1 ≤ 64 ∧ pn c 2 ≤ 7 ∧ pn c 5 < 256 ∧ asnAhead u (asnWords c) = true
        ∧ swapPending u (pn c 0) true = false
        ∧ bankCrc (rxPlain u (pn c 0)).txShadow (pn c 1) (tableChains u (pn c 0) true) = pw c 3))
    ∧ (Meets 0x0412 3
      (fun c _ => pn c 0 ≤ 3 ∧ pn c 1 ≤ 63 ∧ pn c 2 < 2))
    ∧ (Meets 0x0430 4
      (fun c u => pn c 0 ≤ 3 ∧ pn c 1 ≤ 7 ∧ 10000000 ≤ pn c 2 ∧ pn c 2 ≤ 250000000 ∧ pn c 3 ≤ 2 ∧ (rck u (pn c 0)).sel ≠ some (pn c 1)))
    ∧ (Meets 0x0431 2
      (fun c u => pn c 0 ≤ 3 ∧ pn c 1 ≤ 7 ∧ (rckSetting u (pn c 0) (pn c 1)).isSome = true))
    ∧ (∃ (r : Nat) (k : Nat) (q : Nat) (tag : BitVec 16) (l : List (Nat × Option (Nat × BitVec 16))) (u : State), (rck u r).hop = none ∧ (rck u r).next = (k, some (q, tag)) :: l)
    ∧ (∃ (r : Nat) (u : State), (rck u r).hop ≠ none)
    ∧ (Meets 0x0431 2
      (fun c u => pn c 0 ≤ 3 ∧ pn c 1 ≤ 7 ∧ rckSetting u (pn c 0) (pn c 1) = none))
    ∧ (Meets 0x0432 1
      (fun c _ => pn c 0 ≤ 3))
    ∧ (Meets 0x0451 2
      (fun c _ => pn c 0 ≤ 3 ∧ pn c 1 < 2)) :=
  ⟨⟨pkt [3, 70, 70, 16, 1], ready, by decide⟩,
   ⟨pkt [3, 64, 256, 1], ready, by decide⟩,
   ⟨pkt [3, 2, 20000, 0xFF03, 255], ready, by decide⟩,
   ⟨ready, by decide⟩,
   ⟨pkt [], ready, by decide⟩,
   ⟨1, by decide, pkt [3, 63, 1, 9], ready, by decide⟩,
   ⟨pkt [3, 64, 7, 0, 0, 0], ready, by decide⟩,
   ⟨pkt [3, 63, 1], ready, by decide⟩,
   ⟨pkt [3, 7, 250000000, 2], ready, by decide⟩,
   ⟨pkt [3, 7], { ready with cfg := { ready.cfg with tx := { ready.cfg.tx with rck := [(31, { freq := 10000000 })] } } }, by decide⟩,
   ⟨3, 7, 15, 9, [], setRck ready 3 { next := [(7, some (15, 9))] }, by decide⟩,
   ⟨3, setRck ready 3 { hop := some (7, none) }, by decide⟩,
   ⟨pkt [3, 7], ready, by decide⟩,
   ⟨pkt [3], ready, by decide⟩,
   ⟨pkt [3, 1], ready, by decide⟩⟩

/-- States and operands that meet the hypotheses of Obligations.ScriptAndClockEventsAct, clause by clause. -/
theorem witness_ScriptAndClockEventsAct :
    (∃ (p : Fin 16) (x : Script) (s : State), (portRun s p).running = none ∧ firstBy scriptBefore ((portRun s p).queued.filter (scriptMayStart s p)) = some x)
    ∧ (∃ (p : Fin 16) (x : Script) (s : State), (portRun s p).running = some x)
    ∧ (∃ (p : Fin 16) (x : Script) (cls : Nat) (s : State), (portRun s p).running = some x ∧ x.cls ≠ cls)
    ∧ (∃ (p : Fin 16) (x : Script) (q : Nat) (tag : BitVec 16) (l : List Word) (s : State), (portRun s p).running = some x ∧ x.cls = 4 ∧ x.tag = some (q, tag) ∧ (runScript s p x l).mismatch = none)
    ∧ (∃ (p : Fin 16) (x : Script) (k : Nat) (q : Nat) (tag : BitVec 16) (l : List Word) (s : State), (portRun s p).running = some x ∧ x.cls = 4 ∧ x.tag = some (q, tag) ∧ (runScript s p x l).mismatch = some k)
    ∧ (∃ (p : Fin 16) (x : Script) (q : Nat) (tag : BitVec 16) (l : List Word) (s : State), (portRun s p).running = some x ∧ x.cls = 3 ∧ x.tag = some (q, tag) ∧ (runScript s p x l).mismatch = none)
    ∧ (∃ (d : Word → Word) (v : SpiStep) (ws : List Word), v.verify = true ∧ d (ws.headD 0#32) ≠ d (v.frame.setWidth 32))
    ∧ (∃ (v : SpiStep), v.read = true ∧ v.verify = false)
    ∧ (∃ (v : SpiStep), v.read = false ∧ v.verify = false)
    ∧ (∃ (r : Fin 4) (k : Nat) (q : Nat) (ns : Nat) (tag : BitVec 16) (s : State), (rck s r).hop = some (k, some (q, tag)) ∧ s.dev.clkLost = false ∧ ns ≤ (if bit (rck s r).bands k then 5000 else 2000000) ∧ (rck s r).next = [])
    ∧ (∃ (r : Fin 4) (s : State), (rck s r).locked = true ∧ (rck s r).hop = none)
    ∧ (∃ (r : Fin 4) (k : Nat) (s : State), (rck s r).sel = some k ∧ (rck s r).locked = false ∧ (rck s r).hop = none ∧ s.dev.clkLost = false)
    ∧ (∃ (s t : State) (x : Script), exec (.portScriptStart 15) s = .next t ∧ (portRun s 15).running = none ∧ (portRun t 15).running = some x) :=
  ⟨⟨15, { cls := 4, steps := [step8] }, withPort 15 { queued := [{ cls := 4, steps := [step8] }] }, by decide⟩,
   ⟨15, { cls := 4 }, withPort 15 { running := some { cls := 4 } }, by decide⟩,
   ⟨15, { cls := 4 }, 3, withPort 15 { running := some { cls := 4 } }, by decide⟩,
   ⟨15, { cls := 4, tag := some (15, 9) }, 15, 9, [], withPort 15 { running := some { cls := 4, tag := some (15, 9) } }, by decide⟩,
   ⟨15, { cls := 4, steps := [{ step8 with verify := true }], tag := some (15, 9) }, 0, 15, 9, [], withPort 15 { running := some { cls := 4, steps := [{ step8 with verify := true }], tag := some (15, 9) } }, by decide⟩,
   ⟨15, { cls := 3, tag := some (15, 9) }, 15, 9, [], withPort 15 { running := some { cls := 3, tag := some (15, 9) } }, by decide⟩,
   ⟨id, { step8 with verify := true }, [], by decide⟩,
   ⟨{ step8 with read := true }, by decide⟩,
   ⟨step8, by decide⟩,
   ⟨3, 7, 15, 2000000, 9, setRck ready 3 { hop := some (7, some (15, 9)) }, by decide⟩,
   ⟨3, setRck ready 3 { locked := true }, by decide⟩,
   ⟨3, 7, setRck ready 3 { sel := some 7 }, by decide⟩,
   ⟨withPort 15 { queued := [{ cls := 4, steps := [step8] }] }, _, _, rfl, by decide, rfl⟩⟩

/-- States and operands that meet the hypotheses of Obligations.TransmissionStartsAct, clause by clause. -/
theorem witness_TransmissionStartsAct :
    (∃ (x : Tx) (f : List Byte) (s : State) (u : State), txAt s x.id = some x ∧ x.state = .selected ∧ reached s (before x.t0 1500000) = true ∧ buildFor x s = (.inr f, u))
    ∧ (∃ (x : Tx) (st : Status) (s : State) (u : State), txAt s x.id = some x ∧ x.state = .selected ∧ reached s (before x.t0 1500000) = true ∧ buildFor x s = (.inl st, u))
    ∧ (∃ (p : Fin 4) (x : Tx) (s : State), txAt s x.id = some x ∧ x.plain = p.val ∧ x.coexMode = 1 ∧ reached s (before x.t0 (1000 * x.coxLead)) = true ∧ txActive x = false)
    ∧ (∃ (p : Fin 4) (asn : BitVec 40) (s : State), (txCfg s p).coexMode = 1 ∧ 2000 < (txCfg s p).coxLead ∧ reached s (before (nominal s asn.toNat) (1000 * (txCfg s p).coxLead)) = true ∧ reached s (nominal s asn.toNat) = false)
    ∧ (∃ (x : Tx) (s : State), txAt s x.id = some x ∧ x.coexMode = 1 ∧ x.state = .built ∧ s.tan.joined = false ∧ reached s (before x.t0 110000) = true)
    ∧ (∃ (x : Tx) (p : Fin 4) (s : State), txAt s x.id = some x ∧ x.plain = p.val ∧ (x.state = .judged ∨ (x.state = .built ∧ x.coexMode ≠ 1)) ∧ s.dev.clkLost = false ∧ reached s (before x.t0 100000) = true)
    ∧ (∃ (x : Tx) (s : State), txAt s x.id = some x ∧ s.dev.clkLost = true)
    ∧ (∃ (x : Tx) (s : State), txAt s x.id = some x ∧ x.state = .prep ∧ s.dev.clkLost = false ∧ reached s (before x.t0 80000) = true)
    ∧ (∃ (x : Tx) (s : State), txAt s x.id = some x ∧ (x.state = .switched ∨ x.state = .onAir) ∧ x.paUp = false ∧ s.dev.clkLost = false ∧ reached s (before x.t0 (1000 * x.paLead)) = true)
    ∧ (∃ (x : Tx) (s : State), txAt s x.id = some x ∧ x.state = .switched ∧ s.dev.clkLost = false ∧ hopPending s x = false ∧ reached s (before x.t0 (releaseLead s x.plain)) = true)
    ∧ (∃ (x : Tx) (b : Bool) (s : State), txAt s x.id = some x ∧ (x.state = .selected ∨ x.state = .built ∨ x.state = .judged ∨ x.state = .prep ∨ x.state = .switched) ∧ (b = false ∨ s.dev.clkLost = true ∨ hopPending s x = true) ∧ reached s (before x.t0 (releaseLead s x.plain)) = true)
    ∧ (∃ (s : State) (n : Nat) (e : Nat), (∀ p, plainOfPort s n = some p → (portCfg s n).txChains ≤ e))
    ∧ (∃ (tr : Nat) (air : Nat) (t : Nat), 0 < t ∧ t < air ∧ 2 * tr ≤ air)
    ∧ (∃ (n : Nat) (k : Nat) (m : Nat), k < n ∧ m < n)
    ∧ (∃ (n : Nat) (a : Nat) (d : Nat), a < n * d) :=
  ⟨⟨tx, [], withTx {} [tx], withTx {} [tx], by decide⟩,
   ⟨{ tx with kind := 0 }, _, withTx {} [{ tx with kind := 0 }], _, rfl, rfl, by decide, rfl⟩,
   ⟨3, { tx with state := .built, coexMode := 1 }, withTx {} [{ tx with state := .built, coexMode := 1 }], by decide⟩,
   ⟨3, 0, withTx { coexMode := 1, coxLead := 20000 } [], by decide⟩,
   ⟨{ tx with state := .built, coexMode := 1 }, withTx {} [{ tx with state := .built, coexMode := 1 }], by decide⟩,
   ⟨{ tx with state := .built }, 3, withTx {} [{ tx with state := .built }], by decide⟩,
   ⟨tx, { withTx {} [tx] with dev := { ready.dev with clkLost := true } }, by decide⟩,
   ⟨{ tx with state := .prep }, withTx {} [{ tx with state := .prep }], by decide⟩,
   ⟨{ tx with state := .onAir }, withTx {} [{ tx with state := .onAir }], by decide⟩,
   ⟨{ tx with state := .switched }, withTx {} [{ tx with state := .switched }], by decide⟩,
   ⟨{ tx with state := .switched }, false, withTx {} [{ tx with state := .switched }], by decide⟩,
   ⟨plainOn, 0, 4, by intro p _; decide⟩,
   ⟨1, 4, 1, by decide⟩,
   ⟨2, 0, 1, by decide⟩,
   ⟨1, 0, 1, by decide⟩⟩

/-- States and operands that meet the hypotheses of Obligations.TransmissionEndsAct, clause by clause. -/
theorem witness_TransmissionEndsAct :
    (∃ (x : Tx) (s : State), txAt s x.id = some x ∧ x.state = .onAir)
    ∧ (∃ (p : Fin 16) (q : Nat) (s : State), plainOfPort s p = some q)
    ∧ (∃ (x : Tx) (s : State), txAt s x.id = some x ∧ x.state = .onAir ∧ reached s (x.t0 + BitVec.ofNat 64 (1000 * x.tAir)) = true)
    ∧ (∃ (x : Tx) (s : State), txAt s x.id = some x ∧ x.state = .ended ∧ reached s (txEnd x + BitVec.ofNat 64 (1000 * x.paLag)) = true)
    ∧ (∃ (x : Tx) (s : State), txAt s x.id = some x ∧ x.state = .paenOff ∧ reached s (txEnd x + BitVec.ofNat 64 (1000 * x.paLag + 2000)) = true)
    ∧ (∃ (p : Fin 4) (x : BitVec 64) (s : State), (txRun s p).spanEnd = some x ∧ reached s x = true)
    ∧ (∃ (s : State), s.tan.joined = false)
    ∧ (∃ (p : Fin 4) (x : Tx), x.plain = p.val)
    ∧ (∃ (p : Fin 4) (s : State), (∀ x ∈ s.radio.txs, x.plain = p.val → blankedFor s x = false))
    ∧ (∃ (s : State), s.tan.outputs = true) :=
  ⟨⟨{ tx with state := .onAir }, withTx {} [{ tx with state := .onAir }], by decide⟩,
   ⟨0, 0, plainOn, by decide⟩,
   ⟨{ tx with state := .onAir }, withTx {} [{ tx with state := .onAir }], by decide⟩,
   ⟨{ tx with state := .ended, endAt := BitVec.ofNat 64 (2 ^ 63 + 9) }, withTx {} [{ tx with state := .ended, endAt := BitVec.ofNat 64 (2 ^ 63 + 9) }], by decide⟩,
   ⟨{ tx with state := .paenOff, endAt := BitVec.ofNat 64 (2 ^ 63 + 9) }, withTx {} [{ tx with state := .paenOff, endAt := BitVec.ofNat 64 (2 ^ 63 + 9) }], by decide⟩,
   ⟨3, 0, setTxRun ready 3 { spanEnd := some 0 }, by decide⟩,
   ⟨ready, by decide⟩,
   ⟨3, tx, by decide⟩,
   ⟨3, ready, by decide⟩,
   ⟨{ ready with tan := { ready.tan with outputs := true } }, by decide⟩⟩

/-- States and operands that meet the hypotheses of Obligations.LinkCommandsRun, clause by clause. -/
theorem witness_LinkCommandsRun :
    (let net (c : Packet) (u : State) : NetCfg := netCfg u (pn c 0);
    Meets 0x0500 9
      (fun c u => pn c 0 ≤ 15 ∧ pw c 1 &&& ~~~0xFFFF00FF#32 = 0#32 ∧ pn c 2 ≤ 63 ∧ pn c 3 < 65536 ∧ pn c 5 < 1024 ∧ 2 ≤ pn c 6 ∧ pn c 6 ≤ 16
        ∧ pn c 7 < 16 ∧ 34 ≤ pn c 8 ∧ pn c 8 ≤ 1023 ∧ zoneLoaded u (pn c 2) = true
        ∧ (∀ m < 16, m ≠ pn c 0 → (netCfg u m).configured = true → (netCfg u m).sync ≠ (pw c 1).setWidth 8)
        ∧ ((net c u).configured = false ∨ (net c u).epoch = (pw c 3).setWidth 16)))
    ∧ (Meets 0x0501 1
      (fun c _ => pn c 0 ≤ 15))
    ∧ (let net (c : Packet) (u : State) : NetCfg := netCfg u (pn c 0);
    Meets 0x0502 1
      (fun c u => pn c 0 ≤ 15 ∧ (net c u).configured = true ∧ minorityCheck u = none))
    ∧ (Meets 0x0503 1
      (fun c _ => 1 ≤ pn c 0 ∧ pn c 0 ≤ 3600))
    ∧ (Meets 0x0504 7
      (fun c _ => pn c 0 ≤ 255 ∧ pn c 1 ≤ 15 ∧ pn c 2 < 512 ∧ pf c 2 7 0 ≤ 128))
    ∧ (∃ (w : Window) (unrec : Bool), Meets 0x0505 2
      (fun c u => pn c 0 ≤ 15 ∧ windowAt u (pn c 0) (pw c 1) = some (w, unrec)))
    ∧ (Meets 0x0505 2
      (fun c u => pn c 0 ≤ 15 ∧ windowAt u (pn c 0) (pw c 1) = none))
    ∧ (Meets 0x0506 1
      (fun c _ => pn c 0 ≤ 15 ∨ pw c 0 = 0xFFFFFFFF#32))
    ∧ (Meets 0x0507 0
      (fun _ _ => True))
    ∧ (Meets 0x0510 6
      (fun c u => 1 ≤ pn c 0 ∧ pn c 0 ≤ 65535 ∧ 1 ≤ pn c 3 ∧ pn c 3 ≤ 1048576 ∧ (p64 c 1).toNat + pn c 3 ≤ 0xC0000000 ∧ pn c 5 ≤ 15
        ∧ imageAt u (pn c 0) = none ∧ (netCfg u (pn c 5)).configured = true ∧ stagingBad u (p64 c 1).toNat (pn c 3) = false
        ∧ crc32c (stagingRead u (p64 c 1).toNat (pn c 3)) = pw c 4 ∧ u.link.images.length < 4))
    ∧ (∃ (i : Image), Meets 0x0511 3
      (fun c u => 1 ≤ pn c 0 ∧ pn c 0 ≤ 65535 ∧ 1 ≤ pn c 1 ∧ pn c 1 ≤ 255 ∧ 1 ≤ pn c 2 ∧ pn c 2 ≤ 86400 ∧ imageAt u (pn c 0) = some i
        ∧ (i.state = 0 ∨ i.state = 3 ∨ i.state = 4)))
    ∧ (∃ (i : Image), Meets 0x0512 2
      (fun c u => 1 ≤ pn c 0 ∧ pn c 0 ≤ 65535 ∧ pn c 1 < 2 ∧ imageAt u (pn c 0) = some i))
    ∧ (∃ (i : Image), Meets 0x0513 1
      (fun c u => 1 ≤ pn c 0 ∧ pn c 0 ≤ 65535 ∧ imageAt u (pn c 0) = some i))
    ∧ (Meets 0x0520 2
      (fun c _ => pn c 0 ≤ 15 ∧ pn c 1 < 2)) :=
  ⟨⟨pkt [15, 0xFFFF0034, 63, 65535, 0, 1023, 16, 15, 1023], setSlot 63 { state := 1, typ := 1 } ready, by decide⟩,
   ⟨pkt [15], ready, by decide⟩,
   ⟨pkt [15], netOn, by decide⟩,
   ⟨pkt [3600], ready, by decide⟩,
   ⟨pkt [255, 15, 0x180, 0, 0, 0, 0], ready, by decide⟩,
   ⟨{}, false, pkt [15, 5], nodeOn, by decide⟩,
   ⟨pkt [15, 6], nodeOn, by decide⟩,
   ⟨pkt [0xFFFFFFFF], ready, by decide⟩,
   ⟨pkt [], ready, by decide⟩,
   ⟨pkt [65535, 0, 0, 1, crc32c [0], 15], netOn, by decide⟩,
   ⟨{ id := 9 }, pkt [9, 255, 86400], withImage { id := 9 }, by decide⟩,
   ⟨{ id := 9 }, pkt [9, 1], withImage { id := 9 }, by decide⟩,
   ⟨{ id := 9 }, pkt [9], withImage { id := 9 }, by decide⟩,
   ⟨pkt [15, 1], ready, by decide⟩⟩

/-- States and operands that meet the hypotheses of Obligations.CountersNeverRepeat, clause by clause. -/
theorem witness_CountersNeverRepeat :
    (∃ (n : Nat), n < 16)
    ∧ (∃ (w : Option Window) (ctr : Word) (ep : BitVec 16), replayCheck w ctr ep = .fresh)
    ∧ (∃ (w : Window) (ctr : Word) (c : Word), replayCheck (some w) ctr w.epoch = .fresh ∧ replayCheck (some w) c w.epoch ≠ .fresh)
    ∧ (∃ (w : Window) (ep : BitVec 16), (ep - w.epoch).toInt < 0)
    ∧ (∃ (n : Nat) (s : State) (t : State) (u : State) (c : Word) (d : Word), n < 16 ∧ (startCount s n).cur ≤ 255 ∧ takeBroadcastCtr n (netCfg s n).epoch s = some (c, t) ∧ takeBroadcastCtr n (netCfg s n).epoch t = some (d, u))
    ∧ (∃ (n : Nat) (s : State), (startCount s n).curHeld = true) :=
  ⟨⟨15, by decide⟩,
   ⟨none, 0, 0, by decide⟩,
   ⟨{ last := 9, map := 1 }, 10, 9, by decide⟩,
   ⟨{ epoch := 5 }, 4, by decide⟩,
   ⟨15, { ready with vault := { ready.vault with start := [(15, { cur := 255, curHeld := false })] } }, _, _, _, _, by decide, by decide, rfl, rfl⟩,
   ⟨15, ready, by decide⟩⟩

/-- States and operands that meet the hypotheses of Obligations.LinkEventsAct, clause by clause. -/
theorem witness_LinkEventsAct :
    (∃ (i : LinkItem) (rest : List LinkItem) (s : State), s.rx.linkq = i :: rest)
    ∧ (∃ (s : State), s.rx.linkq = [])
    ∧ (∃ (i : LinkItem), i.member = none ∧ i.track.job = none ∧ i.track.combined = 0 ∧ i.overrun = false)
    ∧ (∃ (i : LinkItem), i.member = none ∧ i.track.job = none ∧ i.track.combined = 0 ∧ i.overrun = true)
    ∧ (∃ (s : State), s.tan.joined = false)
    ∧ (∃ (src : Nat) (g : Heard) (n : Nat) (i : LinkItem) (s : State), i.member = some (src, g) ∧ netOfSync s g.sync = some n ∧ homeOf s n (parseFrame g.bytes).src = ownHid s ∧ i.overrun = false)
    ∧ (∃ (s : State), (∀ t ∈ s.link.joined, reached s (t + 10000000#64) = true) ∧ s.rx.linkq = [])
    ∧ (∃ (a : Nat) (b : Nat) (g : Heard) (h : Heard) (i : LinkItem) (j : LinkItem) (s : State), s.rx.linkq = [i] ∧ i.member = some (a, g) ∧ j.member = some (b, h) ∧ i.joined = now s ∧ b < a)
    ∧ (∃ (n : Fin 16) (slot : Nat) (stop : BitVec 64) (s : State), (netRun s n).prev = some (slot, stop) ∧ reached s stop = true)
    ∧ (∃ (id : BitVec 16) (i : Image) (s : State), imageAt s id.toNat = some i ∧ i.state = 1 ∧ i.todo = [] ∧ blockFlying s i.id = false)
    ∧ (∃ (id : BitVec 16) (i : Image) (s : State), imageAt s id.toNat = some i ∧ i.state = 2 ∧ reached s i.deadline = true ∧ (i.reports = 0 ∨ i.maxRounds ≤ i.round + 1))
    ∧ (∃ (id : BitVec 16) (i : Image) (s : State), imageAt s id.toNat = some i ∧ i.state = 2 ∧ reached s i.deadline = true ∧ i.reports ≠ 0 ∧ i.round + 1 < i.maxRounds) :=
  ⟨⟨{}, [], { ready with rx := { ready.rx with linkq := [{}] } }, by decide⟩,
   ⟨ready, by decide⟩,
   ⟨{}, by decide⟩,
   ⟨{ overrun := true }, by decide⟩,
   ⟨ready, by decide⟩,
   ⟨63, heardFrame 0 0 0, 15, { member := some (63, heardFrame 0 0 0) }, netOn, ⟨rfl, by decide, by decide, rfl⟩⟩,
   ⟨ready, ⟨by simp [ready, State.reset], rfl⟩⟩,
   ⟨5, 4, heardFrame 0 0 0, heardFrame 0 0 0, { member := some (5, heardFrame 0 0 0) }, { member := some (4, heardFrame 0 0 0) }, { ready with rx := { ready.rx with linkq := [{ member := some (5, heardFrame 0 0 0) }] } }, ⟨rfl, rfl, rfl, by decide, by decide⟩⟩,
   ⟨15, 63, 0, setNet netOn 15 { prev := some (63, 0) }, by decide⟩,
   ⟨9, { id := 9, state := 1 }, withImage { id := 9, state := 1 }, by decide⟩,
   ⟨9, { id := 9, state := 2 }, withImage { id := 9, state := 2 }, by decide⟩,
   ⟨9, { id := 9, state := 2, reports := 1, maxRounds := 2 }, withImage { id := 9, state := 2, reports := 1, maxRounds := 2 }, by decide⟩⟩

/-- States and operands that meet the hypotheses of Obligations.ScheduleAndAirtimeCommandsRun, clause by clause. -/
theorem witness_ScheduleAndAirtimeCommandsRun :
    (let held (u : State) : Prop := minorityCheck u = none;
    Meets 0x0600 4
      (fun c u => pn c 2 ≤ 6 ∧ pn c 3 < 65536 ∧ pn c 3 < 1024 * 2 ^ pn c 2 ∧ held u ∧ ∀ e ∈ u.cfg.sched.frames, e.2 = 0))
    ∧ (Meets 0x0601 0
      (fun _ _ => True))
    ∧ (let held (u : State) : Prop := minorityCheck u = none;
    Meets 0x0602 4
      (fun c u => pn c 0 ≤ 15 ∧ pn c 1 < 65536 ∧ asnAhead u (pn c 2 + 2 ^ 32 * pn c 3) = true ∧ held u))
    ∧ (let held (u : State) : Prop := minorityCheck u = none;
    ∃ (n : Nat), 1 ≤ n ∧ n ≤ 256 ∧ Meets 0x0603 (4 + n)
      (fun c u => pn c 0 ≤ 3 ∧ pn c 1 = n ∧ asnAhead u (pn c 2 + 2 ^ 32 * pn c 3) = true ∧ held u))
    ∧ (let held (u : State) : Prop := minorityCheck u = none;
    Meets 0x0604 3
      (fun c u => pn c 0 ≤ 4095 ∧ cellOk (pw c 1) (pw c 2) = true ∧ held u))
    ∧ (Meets 0x0604 3
      (fun c u => pn c 0 ≤ 4095 ∧ cellOk (pw c 1) (pw c 2) = true ∧ u.herd.minority = true))
    ∧ (Meets 0x0605 1
      (fun c _ => pn c 0 ≤ 4095))
    ∧ (Meets 0x0606 4
      (fun c _ => pn c 0 ≤ 7 ∧ 1 ≤ pn c 1 ∧ pn c 1 ≤ 10000 ∧ pn c 2 < pn c 3))
    ∧ (∃ (i : Nat) (r : NodeRec), Meets 0x0610 7
      (fun c u => pn c 0 ≤ 15 ∧ blockOk c = true ∧ homeOf u (pn c 0) (pw c 1) = ownHid u
        ∧ nodeEntry u (pn c 0) (pw c 1) = some (i, r) ∧ indexFull u i (pwords c 2 4) = false))
    ∧ (Meets 0x0610 7
      (fun c u => pn c 0 ≤ 15 ∧ blockOk c = true ∧ homeOf u (pn c 0) (pw c 1) ≠ ownHid u))
    ∧ (∃ (i : Nat) (r : NodeRec), Meets 0x0611 2
      (fun c u => pn c 0 ≤ 15 ∧ homeOf u (pn c 0) (pw c 1) = ownHid u ∧ nodeEntry u (pn c 0) (pw c 1) = some (i, r)))
    ∧ (∃ (i : Nat) (r : NodeRec), Meets 0x0612 2
      (fun c u => pn c 0 ≤ 15 ∧ homeOf u (pn c 0) (pw c 1) = ownHid u ∧ nodeEntry u (pn c 0) (pw c 1) = some (i, r)))
    ∧ (Meets 0x0620 7
      (fun c _ => pn c 0 ≤ 3 ∧ pn c 1 ≤ 15 ∧ pn c 4 ≤ 1000 ∧ 1 ≤ pn c 5 ∧ pn c 5 ≤ 86400 ∧ pn c 6 < 2))
    ∧ (Meets 0x0621 2
      (fun c _ => pn c 0 ≤ 3 ∧ pn c 1 ≤ 15))
    ∧ (∃ (n : Nat), 1 ≤ n ∧ n ≤ 1000 ∧ Meets 0x0622 (3 + n)
      (fun c _ => pn c 0 ≤ 3 ∧ pn c 1 ≤ 15 ∧ pn c 2 = n))
    ∧ (let rates (c : Packet) (i : Nat) : Prop := pn c i ≤ 1000000 ∧ pn c (i + 2) ≤ 1000000;
    Meets 0x0630 5
      (fun c _ => pn c 0 ≤ 255 ∧ rates c 1))
    ∧ (let rates (c : Packet) (i : Nat) : Prop := pn c i ≤ 1000000 ∧ pn c (i + 2) ≤ 1000000;
    Meets 0x0631 7
      (fun c _ => pn c 0 ≤ 255 ∧ pn c 1 ≤ 7 ∧ rates c 2 ∧ 1 ≤ pn c 6 ∧ pn c 6 ≤ 86400))
    ∧ (let rates (c : Packet) (i : Nat) : Prop := pn c i ≤ 1000000 ∧ pn c (i + 2) ≤ 1000000;
    Meets 0x0632 5
      (fun c _ => pn c 0 ≤ 63 ∧ rates c 1))
    ∧ (Meets 0x0633 2
      (fun c _ => pn c 0 ≤ 2 ∧ pn c 1 < (if pn c 0 = 0 then 256 else if pn c 0 = 1 then 2048 else 64)))
    ∧ (Meets 0x0640 3
      (fun c u => pn c 0 ≤ 3 ∧ 34 ≤ pn c 1 ∧ pn c 1 ≤ 63 ∧ pn c 2 < 4 ∧ draining u (pn c 0) = false))
    ∧ (Meets 0x0641 2
      (fun c _ => pn c 0 ≤ 255 ∧ pn c 1 < 2))
    ∧ (Meets 0x0650 2
      (fun c _ => pn c 0 ≤ 3 ∧ pn c 1 < 2)) :=
  ⟨⟨pkt [0, 0, 6, 65535], ready, by decide⟩,
   ⟨pkt [], ready, by decide⟩,
   ⟨pkt [15, 65535, 0, 0], ready, by decide⟩,
   ⟨1, by decide, by decide, pkt [3, 1, 1, 0, 5], ready, by decide⟩,
   ⟨pkt [4095, 0x000FFFE0, 0], ready, by decide⟩,
   ⟨pkt [4095, 0, 0], minor, by decide⟩,
   ⟨pkt [4095], ready, by decide⟩,
   ⟨pkt [7, 10000, 9, 10], ready, by decide⟩,
   ⟨0, { addr := 5, net := 15, win := some {} }, pkt [15, 5, 0, 0, 0, 0, 0], nodeOn, by decide⟩,
   ⟨pkt [15, 5, 0, 0, 0, 0, 0], { ready with cfg := { ready.cfg with fwd := { ready.cfg.fwd with prefixes := [{ home := true, tenant := 15, arg := 63 }] } } }, by decide⟩,
   ⟨0, { addr := 5, net := 15, win := some {} }, pkt [15, 5], nodeOn, by decide⟩,
   ⟨0, { addr := 5, net := 15, win := some {} }, pkt [15, 5], nodeOn, by decide⟩,
   ⟨pkt [3, 15, 0, 0, 1000, 86400, 1], ready, by decide⟩,
   ⟨pkt [3, 15], ready, by decide⟩,
   ⟨1, by decide, by decide, pkt [3, 15, 1, 9], ready, by decide⟩,
   ⟨pkt [255, 1000000, 0, 1000000, 0], ready, by decide⟩,
   ⟨pkt [255, 7, 1000000, 0, 0, 0, 86400], ready, by decide⟩,
   ⟨pkt [63, 1000000, 0, 0, 0], ready, by decide⟩,
   ⟨pkt [1, 2047], ready, by decide⟩,
   ⟨pkt [3, 63, 3], ready, by decide⟩,
   ⟨pkt [255, 1], ready, by decide⟩,
   ⟨pkt [3, 1], ready, by decide⟩⟩

/-- States and operands that meet the hypotheses of Obligations.AirtimeAndSelection, clause by clause. -/
theorem witness_AirtimeAndSelection :
    (∃ (s : State) (x : Tx), judge s x = none)
    ∧ (∃ (js : List Nat), js.Nodup)
    ∧ (∃ (s : State) (k : Nat), (band s k).cold = false) :=
  ⟨⟨{ setTxRun (withTx {} []) 3 { fT := some 0 } with
      cfg := { ready.cfg with air := { ready.cfg.air with bands := [(63, { limit := 1000, window := 1, enable := true })] } } }, { tx with kind := 0, rank := 3, bands := [15] }, by decide⟩,
   ⟨[15, 0], by decide⟩,
   ⟨ready, 63, by decide⟩⟩

/-- States and operands that meet the hypotheses of Obligations.ScheduleEventsAct, clause by clause. -/
theorem witness_ScheduleEventsAct :
    (∃ (s : State), asnAt s (now s) = s.sched.asn)
    ∧ (∃ (s : State), asnAt s (now s) ≠ s.sched.asn)
    ∧ (∃ (p : Fin 4) (asn : BitVec 40) (s : State), reached s (before (nominal s asn.toNat) 2000000) = true ∧ reached s (nominal s asn.toNat) = false ∧ (plainSched s p).selected ≤ asn.toNat ∧ (plainCfg s p).enabled = true ∧ datapathRuns s = true)
    ∧ (∃ (i : Nat) (s : State), tabFind s.fwd.nodes i = none)
    ∧ (∃ (i : Nat) (h : Nat) (cell : Fin 4) (asn : BitVec 40) (r : NodeRec) (s : State), tabFind s.fwd.nodes i = some r ∧ txMember r = some h ∧ h ≠ ownHid s ∧ reached s (before (nominal s asn.toNat) 3000000) = true ∧ reached s (before (nominal s asn.toNat) 2000000) = false ∧ bit (r.cells.getD cell 0#32) 31 = true ∧ cellLive (applyChanges asn.toNat s) (r.cells.getD cell 0#32) asn.toNat = true ∧ needsFrame s r = true ∧ i ∉ s.dev.idxRebuild ∧ (∀ e ∈ s.sched.sentTo, ¬ (e.1 = i ∧ e.2.1 = nominal s asn.toNat)))
    ∧ (∃ (x : CandIn) (s : State), s.tan.joined = false ∧ past s (before x.t0 2000000) = true)
    ∧ (∃ (x : CandIn) (s : State), s.tan.joined = false ∧ past s (before x.t0 2000000) = false)
    ∧ (∃ (x : OutcomeIn) (i : Nat) (r : NodeRec) (e : Nat × BitVec 64 × Nat) (s : State), s.tan.joined = false ∧ nodeEntry s x.net x.dst = some (i, r) ∧ s.sched.sentTo.find? (fun y => y.1 = i && y.2.1 = x.t0) = some e ∧ e.2.2 = 0)
    ∧ (∃ (d : Downlink) (s : State), s.sched.wait.find? (fun y => y.seq = d.seq) = some d ∧ d.flying = false ∧ reached s (d.enq + BitVec.ofNat 64 (1000000000 * lifetimeOf s d.tenant d.service)) = true)
    ∧ (∃ (s : State), s.air.second < secondOf (now s))
    ∧ (∃ (s : State), s.air.pendShape = [] ∧ s.air.pendLife = [] ∧ s.air.ms < (now s).toNat / 1000000) :=
  ⟨⟨ready, by decide⟩,
   ⟨{ ready with sched := { ready.sched with asn := 1 } }, by decide⟩,
   ⟨0, 0, { plainOn with cfg := { plainOn.cfg with sched := { plainOn.cfg.sched with txOffset := 1500 } } }, by decide⟩,
   ⟨9, ready, by decide⟩,
   ⟨9, 63, 3, 0, schedNode, { ready with
      cfg := { ready.cfg with sched := { ready.cfg.sched with txOffset := 2500, frames := [(0, 1)], hops := [(0, [0])] } }
      fwd := { ready.fwd with nodes := [(9, schedNode)] }
      sched := { ready.sched with wait := [{ net := 15, addr := 5 }] } }, by decide⟩,
   ⟨{ home := 63, net := 15, dst := 5, plain := 0, t0 := 1999999, carrier := 0, radio := 0, late := false, announced := false, pending := false, tenant := 0, service := 0, tcorr := 0, payload := [] }, ready, by decide⟩,
   ⟨{ home := 63, net := 15, dst := 5, plain := 0, t0 := 2000000, carrier := 0, radio := 0, late := false, announced := false, pending := false, tenant := 0, service := 0, tcorr := 0, payload := [] }, ready, by decide⟩,
   ⟨{ net := 15, dst := 5, t0 := 9, admitted := true, status := 0 }, 0, { addr := 5, net := 15, win := some {} }, (0, 9, 0), { nodeOn with sched := { nodeOn.sched with sentTo := [(0, 9, 0)] } }, by decide⟩,
   ⟨{ seq := 4 }, { ready with sched := { ready.sched with wait := [{ seq := 4 }] }, time := { ready.time with st := BitVec.ofNat 96 (3600000000000 * 2 ^ 32) } }, by decide⟩,
   ⟨{ ready with time := { ready.time with st := BitVec.ofNat 96 (1000000000 * 2 ^ 32) } }, by decide⟩,
   ⟨{ ready with time := { ready.time with st := BitVec.ofNat 96 (2000000 * 2 ^ 32) } }, by decide⟩⟩

/-- States and operands that meet the hypotheses of Obligations.ForwardingAndNodeCommandsRun, clause by clause. -/
theorem witness_ForwardingAndNodeCommandsRun :
    (let entry (c : Packet) (i : Nat) : PrefixEntry :=
            { home := bit (pw c (i + 4)) 25, tenant := pf c (i + 4) 7 0, len := pf c (i + 4) 15 8, key := keyOfWords (pwords c i 4),
              result := pf c (i + 4) 18 16, arg := pf c (i + 4) 24 19, service := pf c (i + 4) 29 27 };
    let sound (e : PrefixEntry) : Prop :=
            (e.home = true → e.tenant ≤ 15 ∧ e.len ≤ 32)
            ∧ (e.home = false → e.len ≤ 128 ∧ e.result ≤ 4 ∧ (e.result = 1 → e.arg ≤ 15) ∧ (e.result = 3 → e.arg ≤ 1))
            ∧ e.key <<< e.len = 0#128;
    Meets 0x0700 5
      (fun c u => pf c 4 31 30 = 0 ∧ bit (pw c 4) 26 = true ∧ sound (entry c 0)
        ∧ (u.cfg.fwd.prefixes.length < 16384 ∨ ∃ x ∈ u.cfg.fwd.prefixes, sameEntry (entry c 0) x = true)))
    ∧ (let entry (c : Packet) (i : Nat) : PrefixEntry :=
            { home := bit (pw c (i + 4)) 25, tenant := pf c (i + 4) 7 0, len := pf c (i + 4) 15 8, key := keyOfWords (pwords c i 4),
              result := pf c (i + 4) 18 16, arg := pf c (i + 4) 24 19, service := pf c (i + 4) 29 27 };
    Meets 0x0701 5
      (fun c _ => pf c 4 31 30 = 0 ∧ (if (entry c 0).home then (entry c 0).tenant ≤ 15 ∧ (entry c 0).len ≤ 32 else (entry c 0).len ≤ 128)))
    ∧ (∃ (e : PrefixEntry), Meets 0x0702 6
      (fun c u => pn c 0 ≤ 1 ∧ pn c 1 ≤ (if pn c 0 = 1 then 15 else 255)
        ∧ prefixSearch u (pn c 0 = 1) (pn c 1) (keyOfWords (pwords c 2 4)) = some e))
    ∧ (Meets 0x0702 6
      (fun c u => pn c 0 ≤ 1 ∧ pn c 1 ≤ (if pn c 0 = 1 then 15 else 255)
        ∧ prefixSearch u (pn c 0 = 1) (pn c 1) (keyOfWords (pwords c 2 4)) = none))
    ∧ (Meets 0x0703 7
      (fun c _ => pn c 0 < 2 ∧ pf c 5 31 30 = 0 ∧ 1 ≤ pn c 6 ∧ pn c 6 ≤ 64))
    ∧ (Meets 0x0730 3
      (fun c _ => pn c 0 ≤ 255 ∧ (pn c 1 = 0 ∨ (64 ≤ pn c 1 ∧ pn c 1 ≤ 1023)) ∧ pn c 2 < 2))
    ∧ (Meets 0x0731 3
      (fun c _ => pn c 0 ≤ 15))
    ∧ (Meets 0x0740 0
      (fun _ _ => True))
    ∧ (Meets 0x0750 1
      (fun c _ => pn c 0 < 2))
    ∧ (∃ (i : Nat), Meets 0x0710 3
      (fun c u => pn c 0 ≤ 15 ∧ pw c 1 ≠ 0#32 ∧ pw c 1 ≤ 0xFFFFFEFF#32 ∧ pn c 2 ≤ 255 ∧ homeOf u (pn c 0) (pw c 1) = ownHid u
        ∧ nodeEntry u (pn c 0) (pw c 1) = none ∧ freePosition u (pn c 0) (pw c 1) = some i))
    ∧ (Meets 0x0710 3
      (fun c u => pn c 0 ≤ 15 ∧ pw c 1 ≠ 0#32 ∧ pw c 1 ≤ 0xFFFFFEFF#32 ∧ pn c 2 ≤ 255 ∧ homeOf u (pn c 0) (pw c 1) ≠ ownHid u))
    ∧ (let rec' (c : Packet) (u : State) (i : Nat) (r : NodeRec) : Prop :=
            pn c 0 ≤ 15 ∧ homeOf u (pn c 0) (pw c 1) = ownHid u ∧ nodeEntry u (pn c 0) (pw c 1) = some (i, r);
    ∃ (i : Nat) (r : NodeRec), Meets 0x0711 2
      (fun c u => rec' c u i r))
    ∧ (let rec' (c : Packet) (u : State) (i : Nat) (r : NodeRec) : Prop :=
            pn c 0 ≤ 15 ∧ homeOf u (pn c 0) (pw c 1) = ownHid u ∧ nodeEntry u (pn c 0) (pw c 1) = some (i, r);
    ∃ (i : Nat) (r : NodeRec), Meets 0x0712 2
      (fun c u => rec' c u i r))
    ∧ (Meets 0x0712 2
      (fun c u => pn c 0 ≤ 15 ∧ nodeEntry u (pn c 0) (pw c 1) = none))
    ∧ (let rec' (c : Packet) (u : State) (i : Nat) (r : NodeRec) : Prop :=
            pn c 0 ≤ 15 ∧ homeOf u (pn c 0) (pw c 1) = ownHid u ∧ nodeEntry u (pn c 0) (pw c 1) = some (i, r);
    ∃ (i : Nat) (r : NodeRec), Meets 0x0713 19
      (fun c u => rec' c u i r ∧ pn c 2 < 256))
    ∧ (Meets 0x0714 3
      (fun c _ => pn c 0 ≤ 1048639 ∧ 1 ≤ pn c 1 ∧ pn c 1 ≤ 64 ∧ (pn c 2 ≤ 15 ∨ pw c 2 = 0xFFFFFFFF#32)))
    ∧ (Meets 0x0715 5
      (fun c _ => pn c 0 ≤ 3 ∧ pn c 1 ≤ (if pn c 0 = 3 then 1 else 3) ∧ pn c 4 < 2))
    ∧ (Meets 0x0720 4
      (fun c u => pn c 0 ≤ 15 ∧ pn c 2 ≤ 32 ∧ pn c 3 ≤ 63 ∧ homeKey (pw c 1) <<< pn c 2 = 0#128 ∧ minorityCheck u = none
        ∧ homeOf u (pn c 0) (pw c 1) = ownHid u ∧ (pn c 3 = ownHid u ∨ reachable u (pn c 3) = true)))
    ∧ (Meets 0x0720 4
      (fun c u => pn c 0 ≤ 15 ∧ pn c 2 ≤ 32 ∧ pn c 3 ≤ 63 ∧ homeKey (pw c 1) <<< pn c 2 = 0#128 ∧ u.herd.minority = true)) :=
  ⟨⟨pkt [0, 0, 0, 0, 0x04000000], ready, by decide⟩,
   ⟨pkt [0, 0, 0, 0, 0x0200200F], ready, by decide⟩,
   ⟨{}, pkt [0, 0, 0, 0, 0, 0], { ready with cfg := { ready.cfg with fwd := { ready.cfg.fwd with prefixes := [{}] } } }, by decide⟩,
   ⟨pkt [1, 15, 0, 0, 0, 0], ready, by decide⟩,
   ⟨pkt [1, 0, 0, 0, 0, 0, 64], ready, by decide⟩,
   ⟨pkt [255, 1023, 1], ready, by decide⟩,
   ⟨pkt [15, 0, 0], ready, by decide⟩,
   ⟨pkt [], ready, by decide⟩,
   ⟨pkt [1], ready, by decide⟩,
   ⟨(positions 15 5).headD 0, pkt [15, 5, 255], ready, by decide⟩,
   ⟨pkt [15, 5, 255], { ready with cfg := { ready.cfg with fwd := { ready.cfg.fwd with prefixes := [{ home := true, tenant := 15, arg := 63 }] } } }, by decide⟩,
   ⟨0, { addr := 5, net := 15, win := some {} }, pkt [15, 5], nodeOn, by decide⟩,
   ⟨0, { addr := 5, net := 15, win := some {} }, pkt [15, 5], nodeOn, by decide⟩,
   ⟨pkt [15, 6], nodeOn, by decide⟩,
   ⟨0, { addr := 5, net := 15, win := some {} }, pkt [15, 5, 255, 0, 0, 0, 0, 0, 0, 0, 0, 0, 0, 0, 0, 0, 0, 0, 0], nodeOn, by decide⟩,
   ⟨pkt [1048639, 64, 0xFFFFFFFF], ready, by decide⟩,
   ⟨pkt [3, 1, 0, 0, 1], ready, by decide⟩,
   ⟨pkt [15, 0x80000000, 1, 0], ready, by decide⟩,
   ⟨pkt [15, 0, 32, 63], minor, by decide⟩⟩

/-- States and operands that meet the hypotheses of Obligations.PrefixSearchAndResolution, clause by clause. -/
theorem witness_PrefixSearchAndResolution :
    (∃ (l : List PrefixEntry), l.Pairwise (fun a b => b.len ≤ a.len))
    ∧ (∃ (s : State) (key : BitVec 128) (e : PrefixEntry), s.cfg.fwd.prefixes.Pairwise (fun a b => b.len ≤ a.len) ∧ prefixSearch s false 0 key = some e)
    ∧ (∃ (s : State) (home : Bool) (tenant : Nat) (key : BitVec 128), prefixSearch s home tenant key = none) :=
  ⟨⟨[{ len := 64 }, {}], by decide⟩,
   ⟨{ ready with cfg := { ready.cfg with fwd := { ready.cfg.fwd with prefixes := [{ len := 64 }, {}] } } }, 1, { len := 64 }, by decide⟩,
   ⟨ready, true, 15, 0, by decide⟩⟩

/-- States and operands that meet the hypotheses of Obligations.ForwardingEventsAct, clause by clause. -/
theorem witness_ForwardingEventsAct :
    (∃ (x : PacketIn) (s : State), x.home = false ∧ s.tan.joined = false)
    ∧ (∃ (x : PacketIn) (r : NodeRec) (s : State), x.home = true ∧ s.tan.joined = false ∧ homeOf s x.net x.addr = ownHid s ∧ x.addr ≠ everyNode ∧ nodeOf s x.net x.addr = some r ∧ r.tenant = x.tenant.toNat)
    ∧ (∃ (r : NodeRec) (tenant : Nat) (l : List Byte) (s : State), (nodeCells r ≠ []) ∧ (waitingFor s r.net r.addr).length < 16 ∧ (compress s tenant r.addr l).length ≤ 230)
    ∧ (∃ (r : NodeRec), nodeCells r = [])
    ∧ (∃ (r : NodeRec) (s : State), nodeCells r ≠ [] ∧ 16 ≤ (waitingFor s r.net r.addr).length)
    ∧ (∃ (r : NodeRec) (tenant : Nat) (l : List Byte) (s : State), nodeCells r ≠ [] ∧ (waitingFor s r.net r.addr).length < 16 ∧ 230 < (compress s tenant r.addr l).length)
    ∧ (∃ (s : State), s.tan.joined = false)
    ∧ (∃ (x : SwitchIn) (m : Move) (s : State), s.fwd.moves.find? (sameMove x) = some m ∧ x.outcome = .done ∧ s.tan.joined = false ∧ asnReached (asnAt s (now s)) m.asn = true)
    ∧ (∃ (x : SwitchIn) (m : Move) (s : State), s.fwd.moves.find? (sameMove x) = some m ∧ x.outcome = .full ∧ s.tan.joined = false)
    ∧ (∃ (x : SwitchIn) (m : Move) (s : State), s.fwd.moves.find? (sameMove x) = some m ∧ x.outcome = .peerReset ∧ s.tan.joined = false)
    ∧ (∃ (x : SwitchIn) (s : State), s.fwd.moves.find? (sameMove x) = none ∧ x.outcome = .done ∧ s.tan.joined = false)
    ∧ (∃ (i : Nat) (s : State), i ∈ s.fwd.dirty ∧ i < nodeLimit) :=
  ⟨⟨{ src := 63, net := 15, addr := 5, tenant := 0, service := 0, crossings := 0, home := false, bytes := [] }, ready, by decide⟩,
   ⟨{ src := 63, net := 15, addr := 5, tenant := 0, service := 0, crossings := 0, home := true, bytes := [] }, { addr := 5, net := 15, win := some {} }, nodeOn, by decide⟩,
   ⟨{ addr := 5, net := 15, cells := [0x80000000] }, 0, [], nodeOn, by decide⟩,
   ⟨{ addr := 5, net := 15 }, by decide⟩,
   ⟨{ addr := 5, net := 15, cells := [0x80000000] }, { nodeOn with sched := { nodeOn.sched with wait := List.replicate 16 { net := 15, addr := 5 } } }, by decide⟩,
   ⟨{ addr := 5, net := 15, cells := [0x80000000] }, 0, ([0x60] ++ List.replicate 300 0), nodeOn, by decide⟩,
   ⟨ready, by decide⟩,
   ⟨moveIn .done, move, moving, by decide⟩,
   ⟨moveIn .full, move, moving, by decide⟩,
   ⟨moveIn .peerReset, move, moving, by decide⟩,
   ⟨moveIn .done, ready, by decide⟩,
   ⟨9, { ready with fwd := { ready.fwd with dirty := [9] } }, by decide⟩⟩

/-- States and operands that meet the hypotheses of Obligations.PortCommandsRun, clause by clause. -/
theorem witness_PortCommandsRun :
    (let cfg (c : Packet) (u : State) : BhCfg := bhCfg u (pn c 0);
    let queue (n : Nat) : Prop := n = 0 ∨ (64 ≤ n ∧ n ≤ 1023);
    let tenant (n : Nat) : Prop := n ≤ 255 ∨ n = 65535;
    Meets 0x0800 6
      (fun c u => pn c 0 ≤ 1 ∧ pn c 1 < 256 ∧ 1518 ≤ pn c 2 ∧ pn c 2 ≤ 9216 ∧ tenant (pn c 3) ∧ queue (pn c 4) ∧ queue (pn c 5)
        ∧ ((cfg c u).enable = true → (cfg c u).fec = bit (pw c 1) 3 ∧ (cfg c u).polarity = (pw c 1 >>> 4).setWidth 4)))
    ∧ (let cfg (c : Packet) (u : State) : BhCfg := bhCfg u (pn c 0);
    let queue (n : Nat) : Prop := n = 0 ∨ (64 ≤ n ∧ n ≤ 1023);
    let tenant (n : Nat) : Prop := n ≤ 255 ∨ n = 65535;
    Meets 0x0800 6
      (fun c u => pn c 0 ≤ 1 ∧ pn c 1 < 256 ∧ 1518 ≤ pn c 2 ∧ pn c 2 ≤ 9216 ∧ tenant (pn c 3) ∧ queue (pn c 4) ∧ queue (pn c 5)
        ∧ (cfg c u).enable = true ∧ (cfg c u).fec ≠ bit (pw c 1) 3))
    ∧ (Meets 0x0801 5
      (fun c _ => pn c 0 ≤ 1 ∧ pn c 1 ≤ 15 ∧ pn c 3 < 65536 ∧ pn c 4 < 2 ∧ (p64 c 2).setWidth 48 ≠ 0xFFFFFFFFFFFF#48))
    ∧ (let tenant (n : Nat) : Prop := n ≤ 255 ∨ n = 65535;
    Meets 0x0802 3
      (fun c _ => pn c 0 ≤ 1 ∧ 1 ≤ pn c 1 ∧ pn c 1 ≤ 4094 ∧ tenant (pn c 2)))
    ∧ (Meets 0x0803 7
      (fun c _ => pn c 0 ≤ 1 ∧ pn c 1 ≤ 255 ∧ pn c 3 < 65536 ∧ pn c 5 < 65536 ∧ pn c 6 < 131072))
    ∧ (Meets 0x0804 1
      (fun c _ => pn c 0 ≤ 1))
    ∧ (Meets 0x0805 2
      (fun c _ => pn c 0 ≤ 1 ∧ pn c 1 < 2))
    ∧ (Meets 0x0820 2
      (fun c u => pn c 0 ≤ 3 ∧ pn c 1 < 64 ∧ ((linkCfg u (pn c 0)).enable = true →
        (linkCfg u (pn c 0)).polarity = (pw c 1 >>> 1).setWidth 4 ∧ (linkCfg u (pn c 0)).reversal = bit (pw c 1) 5)))
    ∧ (Meets 0x0821 2
      (fun c _ => pn c 0 ≤ 63 ∧ pn c 1 < 256 ∧ pf c 1 7 6 ≠ 3))
    ∧ (Meets 0x0822 1
      (fun c _ => pn c 0 ≤ 3))
    ∧ (Meets 0x0823 2
      (fun c _ => pn c 0 ≤ 3 ∧ pn c 1 < 2))
    ∧ (Meets 0x0840 2
      (fun c _ => (p64 c 0).toNat % 67108864 = 0 ∧ (p64 c 0).toNat < 34359738368))
    ∧ (Meets 0x0841 9
      (fun c u => pn c 0 ≤ 15 ∧ pn c 1 < 2 ∧ pn c 2 ≤ 1023 ∧ (p64 c 3).toNat % 16 = 0 ∧ (∃ k, 4 ≤ k ∧ k ≤ 16 ∧ pn c 5 = 2 ^ k)
        ∧ pn c 6 < 64 ∧ 1 ≤ pn c 7 ∧ pn c 7 ≤ 1000 ∧ pn c 8 ≤ 1000 ∧ (engine u (pn c 0)).running = false
        ∧ bindable u (pn c 0) (bit (pw c 1) 0) (pn c 2) = true))
    ∧ (Meets 0x0842 1
      (fun c _ => pn c 0 ≤ 15))
    ∧ (Meets 0x0843 1
      (fun c _ => pn c 0 ≤ 15))
    ∧ (Meets 0x0844 0
      (fun _ _ => True)) :=
  ⟨⟨pkt [1, 255, 9216, 65535, 1023, 64], ready, by decide⟩,
   ⟨pkt [1, 8, 1518, 255, 0, 0], portOn, by decide⟩,
   ⟨pkt [1, 15, 0xFFFFFFFE, 65535, 1], ready, by decide⟩,
   ⟨pkt [1, 4094, 65535], ready, by decide⟩,
   ⟨pkt [1, 255, 0, 65535, 0, 65535, 131071], ready, by decide⟩,
   ⟨pkt [1], ready, by decide⟩,
   ⟨pkt [1, 1], ready, by decide⟩,
   ⟨pkt [3, 63], ready, by decide⟩,
   ⟨pkt [63, 0xBF], ready, by decide⟩,
   ⟨pkt [3], ready, by decide⟩,
   ⟨pkt [3, 1], ready, by decide⟩,
   ⟨pkt [0xFC000000, 7], ready, by decide⟩,
   ⟨pkt [15, 0, 15, 0, 0, 65536, 63, 1000, 1000], ready, ⟨by decide, by decide, by decide, by decide, by decide, ⟨16, by decide⟩, by decide⟩⟩,
   ⟨pkt [15], ready, by decide⟩,
   ⟨pkt [15], ready, by decide⟩,
   ⟨pkt [], ready, by decide⟩⟩

/-- States and operands that meet the hypotheses of Obligations.FramesAreJudgedInOrder, clause by clause. -/
theorem witness_FramesAreJudgedInOrder :
    (∃ (s : State), s.tan.joined = false) :=
  ⟨ready, by decide⟩

/-- States and operands that meet the hypotheses of Obligations.BackhaulAndLinkEventsAct, clause by clause. -/
theorem witness_BackhaulAndLinkEventsAct :
    (∃ (p : Fin 2) (b : List Byte) (e : Egress) (s : State), (bhCfg s p).enable = true ∧ (bhRun s p).up = true ∧ portTurn s p = some (64 + p.val) ∧ portPacket s (64 + p.val) = some b ∧ tabFind (bhCfg s p).egress (byteAt b 0) = some e ∧ (egressFrame (bhCfg s p) e (byteAt b 1 != 0) (b.drop 8)).length + 4 ≤ (bhCfg s p).maxFrame)
    ∧ (∃ (e : Egress) (l : List Byte), e.tagged = false ∧ 46 ≤ l.length)
    ∧ (∃ (p : Fin 2) (b : List Byte) (s : State), (bhCfg s p).enable = true ∧ (bhRun s p).up = true ∧ (bhCfg s p).hostTxq ≠ 0 ∧ (bhCfg s p).hostTxq ≠ 64 + p.val ∧ portTurn s p = some (bhCfg s p).hostTxq ∧ portPacket s (bhCfg s p).hostTxq = some b ∧ 14 ≤ b.length ∧ b.length ≤ (bhCfg s p).maxFrame - 4)
    ∧ (∃ (p : Fin 2) (s : State), (bhRun s p).up = true)
    ∧ (∃ (p : Fin 2) (s : State), (bhCfg s p).enable = true)
    ∧ (∃ (l : Fin 4) (h : Fin 64) (s : State), linkBarred s l = false ∧ (hlink s l).up = false ∧ 64 ≤ (hlink s l).good ∧ h.val = ownHid s ∧ tandemLink s l = false)
    ∧ (∃ (l : Fin 4) (h : Fin 64) (e : Word) (s : State), linkBarred s l = false ∧ (hlink s l).up = false ∧ 64 ≤ (hlink s l).good ∧ h.val ≠ ownHid s ∧ (peerOf s h).epoch = some e)
    ∧ (∃ (l : Fin 4) (s : State), (hlink s l).up = true)
    ∧ (∃ (l : Fin 4) (s : State), (hlink s l).up = true)
    ∧ (∃ (l : Fin 4) (s : State), (hlink s l).up = false ∧ linkBarred s l = false)
    ∧ (∃ (h : Nat) (e : Word) (known : Word) (s : State), (peerOf s h).epoch = some known ∧ (e - known).toInt < 0)
    ∧ (∃ s t : State, (hlink s 3).up = true ∧ sendChannel 3 true (discardUnreachable s) = some t)
    ∧ (∃ (l : Fin 4) (s : State), (hlink s l).up = true ∧ sendChannel l true (discardUnreachable s) = none ∧ sendChannel l false (discardUnreachable s) = none)
    ∧ (∃ (l : Fin 4) (s : State), (hlink s l).up = false ∧ linkBarred s l = false)
    ∧ (∃ s t : State, (hlink s 3).up = true ∧ sendChannel 3 true (discardUnreachable s) = none ∧ sendChannel 3 false (discardUnreachable s) = some t)
    ∧ (∃ (l : Nat) (vc : Bool) (f : FlitRec) (s : State), transitHead (hlink s l) vc = some f ∧ 0 < (hlink s l).credits.getD (creditIndex f) 0 ∧ (hlink s l).unacked.length < 64)
    ∧ (∃ (l : Fin 4) (s : State), (hlink s l).up = true ∧ (hlink s l).unacked ≠ [] ∧ (∀ f ∈ (hlink s l).unacked, f.resends < 16))
    ∧ (∃ (src : Fin 64) (vc : Bool) (r : Reasm) (seq : BitVec 16) (s : State), reasmOf s src vc = some r ∧ r.seq = seq.toNat ∧ reached s (r.first + 1000000#64) = true) :=
  ⟨⟨1, [5, 0, 0, 0, 0, 0, 0, 0], {}, portOn, by decide⟩,
   ⟨{}, List.replicate 46 0, by decide⟩,
   ⟨1, List.replicate 16 0, setQue (setQue portOn 65 {}) 70 { consumer := 2, words := [{}, { last := true }] }, by decide⟩,
   ⟨1, portOn, by decide⟩,
   ⟨1, portOn, by decide⟩,
   ⟨3, 0, linkOn { good := 64 }, by decide⟩,
   ⟨3, 63, 5, setPeer (linkOn { good := 64 }) 63 { epoch := some 5 }, by decide⟩,
   ⟨3, linkOn { up := true }, by decide⟩,
   ⟨3, linkOn { up := true }, by decide⟩,
   ⟨3, linkOn {}, by decide⟩,
   ⟨63, 4, 5, setPeer ready 63 { epoch := some 5 }, by decide⟩,
   ⟨linkOn { up := true, transit := [{ vc := true }] }, _, by decide, rfl⟩,
   ⟨3, linkOn { up := true }, by decide⟩,
   ⟨3, linkOn {}, by decide⟩,
   ⟨linkOn { up := true, transit := [{}] }, _, by decide, by decide, rfl⟩,
   ⟨3, false, {}, linkOn { up := true, transit := [{}] }, by decide⟩,
   ⟨3, linkOn { up := true, unacked := [{ resends := 15 }] }, by decide⟩,
   ⟨63, true, { src := 63, vc := true }, 0, { linkOn { up := true } with herd := { ready.herd with reasm := [{ src := 63, vc := true }] }, time := { ready.time with st := BitVec.ofNat 96 (1000000 * 2 ^ 32) } }, by decide⟩⟩

/-- States and operands that meet the hypotheses of Obligations.HostAttachmentActs, clause by clause. -/
theorem witness_HostAttachmentActs :
    (∃ (e : Fin 16) (d : DescIn) (s : State), (engine s e).running = true ∧ (engine s e).d2h = false ∧ hasWork (engine s e) = true ∧ pollDue s e = true ∧ d.error = false ∧ d.own = true ∧ d.addr.toNat % 8 = 0 ∧ d.len ≠ 0#16)
    ∧ (∃ (e : Fin 16) (d : DescIn) (s : State), (engine s e).running = true ∧ (engine s e).d2h = false ∧ 0 < (engine s e).bells ∧ d.error = false ∧ d.own = false)
    ∧ (∃ (e : Fin 16) (d : DescIn) (s : State), (engine s e).running = true ∧ (engine s e).d2h = false ∧ 16 ≤ (engine s e).queue ∧ (engine s e).bells = 0 ∧ pollDue s e = true ∧ d.error = false ∧ d.own = false)
    ∧ (∃ (e : Fin 16) (s : State), pollDue s e = false)
    ∧ (∃ (e : Fin 16) (d : DescIn) (s : State), (engine s e).running = true ∧ (engine s e).d2h = false ∧ hasWork (engine s e) = true ∧ pollDue s e = true ∧ d.error = false ∧ d.own = true ∧ d.addr.toNat % 8 ≠ 0)
    ∧ (∃ (e : Fin 16) (d : DescIn) (l : List QWord) (s : State), (engine s e).running = true ∧ (engine s e).d2h = true ∧ visible (que s (engine s e).queue) = true ∧ d.error = false ∧ d.own = true ∧ d.addr.toNat % 8 = 0 ∧ d.len.toNat % 8 = 0 ∧ 64 ≤ d.len.toNat ∧ bufferWords (que s (engine s e).queue) d.len.toNat = some l)
    ∧ (∃ (e : Fin 16) (s : State), (engine s e).msiDue = true)
    ∧ (∃ (e : Nat) (s : State), (engine s e).lastMsi = none) :=
  ⟨⟨15, desc, dmaOn false 15 { consumer := 2, enable := true }, by decide⟩,
   ⟨15, { desc with own := false }, dmaOn false 15 { consumer := 2, enable := true }, by decide⟩,
   ⟨15, { desc with own := false }, dmaIdle, by decide⟩,
   ⟨15, ranNow (.poll 15) dmaIdle, by decide⟩,
   ⟨15, { desc with addr := 63 }, dmaOn false 15 { consumer := 2, enable := true }, by decide⟩,
   ⟨15, desc, [lastWord], dmaOn true 32 { consumer := 1, words := [lastWord] }, by decide⟩,
   ⟨15, setEngine ready 15 { msiDue := true }, by decide⟩,
   ⟨15, ready, by decide⟩⟩

/-- States and operands that meet the hypotheses of Obligations.TimeCommandsRun, clause by clause. -/
theorem witness_TimeCommandsRun :
    (Meets 0x0900 5
      (fun c _ => 1 ≤ pn c 0 ∧ pn c 0 ≤ 5 ∧ pn c 1 < 1048576 ∧ (∀ i, i < pn c 0 → pf c 1 (4 * i + 3) (4 * i) ≤ 4) ∧ 1 ≤ pn c 2 ∧ pn c 2 ≤ 500
        ∧ pn c 3 ≤ 3600 ∧ pn c 4 ≤ 3600))
    ∧ (Meets 0x0901 0
      (fun _ _ => True))
    ∧ (let signed8 (w : Nat) : Int := if w < 128 then w else (w : Int) - 256;
    Meets 0x0902 11
      (fun c _ => pn c 0 ≤ 1 ∧ pn c 1 < 2048 ∧ pn c 2 < 256 ∧ -7 ≤ signed8 (pn c 2) ∧ signed8 (pn c 2) ≤ 6 ∧ 1 ≤ pn c 3
        ∧ pn c 3 ≤ 600 ∧ pn c 9 < 65536 ∧ pn c 10 < 8192))
    ∧ (Meets 0x0903 1
      (fun c u => pn c 0 ≤ 3 ∧ u.time.sel ≠ pn c 0))
    ∧ (Meets 0x0903 1
      (fun c u => pn c 0 ≤ 3 ∧ u.time.sel = pn c 0))
    ∧ (Meets 0x0904 3
      (fun c u => pn c 2 < 2 ∧ u.time.tb4Stepped = false))
    ∧ (Meets 0x0904 3
      (fun c u => pn c 2 < 2 ∧ u.time.tb4Stepped = true))
    ∧ (Meets 0x0905 4
      (fun c _ => pn c 0 < 8 ∧ 1 ≤ pn c 2 ∧ pn c 2 ≤ 500000))
    ∧ (Meets 0x0906 2
      (fun c _ => pn c 1 < 65536))
    ∧ (Meets 0x0907 5
      (fun c _ => pn c 0 < 64 ∧ pn c 1 < 65536 ∧ pn c 2 < 65536 ∧ pn c 3 < 65536 ∧ pn c 4 < 65536))
    ∧ (Meets 0x0908 2
      (fun c _ => pn c 0 ≤ 63 ∧ 1 ≤ pn c 1 ∧ pn c 1 ≤ 100))
    ∧ (∃ (n : Nat) (l : List Nat), 2 ≤ n ∧ n ≤ 64 ∧ Meets 0x0909 (1 + n)
      (fun c u => pn c 0 = n ∧ (∀ h ∈ pwords c 1 n, h.toNat ≤ 63) ∧ (pwords c 1 n).map (·.toNat) = ownHid u :: l
        ∧ u.time.survey = none ∧ (linkTo u (l.headD 0)).isSome))
    ∧ (∃ (v : Survey) (l : Nat) (u : State), v.pos + 1 < v.path.length ∧ linkTo u (v.path.getD (v.pos + 1) 64) = some l ∧ nonHolder u = false ∧ u.herd.leaveMsgs = false)
    ∧ (Meets 0x0909 3
      (fun c u => pn c 0 = 2 ∧ (∀ h ∈ pwords c 1 2, h.toNat ≤ 63)
      ∧ ((pwords c 1 2).map (·.toNat)).head? = some (ownHid u) ∧ u.time.survey ≠ none))
    ∧ (Meets 0x090A 1
      (fun c _ => pn c 0 ≤ 3))
    ∧ (Meets 0x0920 1
      (fun c _ => pn c 0 < 2)) :=
  ⟨⟨pkt [5, 0x43210, 500, 3600, 3600], ready, by decide⟩,
   ⟨pkt [], ready, by decide⟩,
   ⟨pkt [1, 2047, 249, 600, 0, 0, 0, 0, 0, 65535, 8191], ready, by decide⟩,
   ⟨pkt [3], ready, by decide⟩,
   ⟨pkt [3], withTime { ready.time with sel := 3 }, by decide⟩,
   ⟨pkt [0, 0, 1], ready, by decide⟩,
   ⟨pkt [0, 0, 1], withTime { ready.time with tb4Stepped := true }, by decide⟩,
   ⟨pkt [7, 0, 500000, 0], ready, by decide⟩,
   ⟨pkt [0, 65535], ready, by decide⟩,
   ⟨pkt [63, 65535, 65535, 65535, 65535], ready, by decide⟩,
   ⟨pkt [63, 100], ready, by decide⟩,
   ⟨2, List.cons 63 .nil, by decide, by decide, pkt [2, 0, 63], setHlink ready 3 { up := true, neighbour := some 63 }, ⟨by decide, by decide, by simp [pwords, pkt], by decide, rfl, by decide⟩⟩,
   ⟨{ path := [0, 63] }, 3, setHlink ready 3 { up := true, neighbour := some 63 }, by decide⟩,
   ⟨pkt [2, 0, 63], surveying [], ⟨by decide, by decide, by simp [pwords, pkt], by decide, by decide⟩⟩,
   ⟨pkt [3], ready, by decide⟩,
   ⟨pkt [1], ready, by decide⟩⟩

/-- States and operands that meet the hypotheses of Obligations.TimeEventsAct, clause by clause. -/
theorem witness_TimeEventsAct :
    (∃ (b : Fin 4) (x : BaseIn) (s : State), x.state = 1 ∧ (base s b).state ≠ 1 ∧ (base s b).stepped = false ∧ (if b.val < 2 then 8 else 4) ≤ (base s b).good ∧ (b = 2 → s.time.tod ≠ none) ∧ (b = 3 → s.cfg.time.herdSource ≠ ownHid s))
    ∧ (∃ (b : Fin 4) (x : BaseIn) (s : State), x.state = 1 ∧ (base s b).state = 2 ∧ (base s b).stepped = true ∧ 1 ≤ (base s b).good ∧ (b = 2 → s.time.tod ≠ none) ∧ (b = 3 → s.cfg.time.herdSource ≠ ownHid s))
    ∧ (∃ (b : Fin 4) (x : BaseIn) (s : State), x.state = 2 ∧ (base s b).state = 1 ∧ holdDue s b = true)
    ∧ (∃ (b : Fin 4) (x : BaseIn) (s : State), x.state = 3 ∧ ((base s b).state = 1 ∨ (base s b).state = 2) ∧ lossDue s b = true)
    ∧ (∃ (b : Fin 4) (s : State), (base s b).state ≠ 3)
    ∧ (∃ (n : Nat) (s : State), n ≠ s.time.sel)
    ∧ (∃ (s : State), (wanted s = s.time.sel ∨ (followed s).state ≠ 1 ∨ stayedLocked s (wanted s) = true))
    ∧ (∃ (s : State), s.time.stLocked = true)
    ∧ (∃ (s : State) (t : BitVec 96), s.time.stLocked = false ∧ s.time.sel = 4 ∧ s.time.tb4Stepped = true ∧ 4 ∈ s.cfg.time.list ∧ s.time.selAt = some t ∧ BitVec.ofNat 96 (s.cfg.time.firstWait * 1000000000 * 4294967296) ≤ (base s 4).val - t ∧ s.cfg.time.firstWait ≤ 3600)
    ∧ (∃ (f : Bool) (s : State), s.tan.joined = false ∧ s.cfg.time.ppsIn = true ∧ s.cfg.time.ppsFalling = f ∧ (base s 2).stepped = false)
    ∧ (∃ (f : Bool) (s : State), s.tan.joined = false ∧ s.cfg.time.ppsIn = true ∧ s.cfg.time.ppsFalling = f ∧ (base s 2).stepped = true ∧ 10000 < (pulseError s).natAbs)
    ∧ (∃ (s : State), s.cfg.time.ppsIn = true ∧ (base s 2).stepped = true ∧ s.time.ppsSec + s.time.ppsMiss < lastWindow s)
    ∧ (∃ (s : State), s.cfg.time.ppsOut = true ∧ s.time.stLocked = true ∧ s.tan.outputs = true ∧ ((now s).toNat - s.cfg.time.ppsOffset.toInt) % 1000000000 < 10)
    ∧ (∃ (s : State), s.time.stLocked = false)
    ∧ (∃ (s : State), s.cfg.time.ppsOut = true ∧ s.time.stLocked = true ∧ s.tan.outputs = true)
    ∧ (∃ (b : Fin 2) (s : State), (ptpCfg s b).enable = true ∧ (ptpRun s b).master ≠ none ∧ bhReady s (ptpCfg s b).port = true ∧ nonHolder s = false ∧ periodDue (.delayReq b) (logNs (ptpCfg s b).logDelay.toInt) s = true)
    ∧ (∃ (b : Fin 2) (s : State), periodDue (.delayReq b) (logNs (ptpCfg s b).logDelay.toInt) s = false)
    ∧ (∃ (b : Fin 2) (s : State), (ptpRun s b).master = none)
    ∧ (∃ (b : Nat) (m : List Byte) (t3 : BitVec 64) (ms : Int) (s : State), (ptpRun s b).asked = some t3 ∧ (ptpRun s b).ms = some ms ∧ slice m 44 10 = ownPortId (ptpCfg s b) ∧ (ptpSeq m + 1) % 65536 = (ptpRun s b).seq)
    ∧ (∃ (b : Nat) (s : State), (ptpRun s b).delay = none)
    ∧ (∃ (b : Nat) (p : Nat) (l : List Byte) (s : State), ptpFor (ptpCfg s b) p l = false)
    ∧ (∃ (s : State), s.cfg.time.herdSource = ownHid s ∧ periodDue .herdTime (1000000 * s.cfg.time.htInterval) s = true)
    ∧ (∃ (s : State), s.cfg.time.herdSource ≠ ownHid s ∧ (base s 3).state = 1 ∧ periodDue .herdTime (1000000 * s.cfg.time.htInterval) s = true)
    ∧ (∃ (s : State), periodDue .herdTime (1000000 * s.cfg.time.htInterval) s = false)
    ∧ (∃ (n : Nat), 0 < n ∧ n < 2 ^ 63)
    ∧ (∃ (p : Period) (q : Period), p ≠ q)
    ∧ (∃ (l : Fin 4) (s : State), s.tan.joined = false ∧ s.cfg.time.herdSource ≠ ownHid s ∧ routeLink s s.cfg.time.herdSource = some l.val ∧ (hlink s l).delay = none)
    ∧ (∃ (l : Fin 4) (d : Nat) (s : State), s.tan.joined = false ∧ s.cfg.time.herdSource ≠ ownHid s ∧ routeLink s s.cfg.time.herdSource = some l.val ∧ (hlink s l).delay = some d)
    ∧ (∃ (l : Fin 4) (s : State) (v : Survey), s.tan.joined = false ∧ s.time.survey = some v ∧ surveyedLink s = some l.val ∧ (hlink s l).surveys.length < 15)
    ∧ (∃ (l : Fin 4) (s : State) (v : Survey), s.tan.joined = false ∧ s.time.survey = some v ∧ surveyedLink s = some l.val ∧ (hlink s l).surveys.length = 15 ∧ s.herd.leaveMsgs = false)
    ∧ (∃ (s : State), s.tan.joined = false)
    ∧ (∃ (path : List Nat) (pos : Nat) (l : Nat) (s : State), s.tan.joined = false ∧ s.time.survey = none ∧ linkTo s (path.getD (pos - 1) 64) = some l)
    ∧ (∃ (v : Survey) (s : State), s.tan.joined = false ∧ s.time.survey = some v ∧ v.measured = false ∧ periodDue .probe 1000000 s = true)
    ∧ (∃ (v : Survey) (s : State), s.tan.joined = false ∧ s.time.survey = some v ∧ v.pos = 0)
    ∧ (∃ (v : Survey) (i : Nat) (s : State), s.tan.joined = false ∧ s.time.survey = some v ∧ v.pos = 0 ∧ placesIn v.path (ownHid s) = [0] ∧ 0 < i)
    ∧ (∃ (p : Word) (s : State), s.dev.mode ≠ .stall ∧ 0x77359400 - 1000000 ≤ p.toNat ∧ p.toNat ≤ 0x77359400 + 1000000)
    ∧ (∃ (p : Word) (s : State), s.dev.mode ≠ .stall ∧ 0x77359400 + 1000000 < p.toNat)
    ∧ (∃ (v : Word), bit v 0 = true)
    ∧ (∃ (s : State), s.cfg.time.discipline = false)
    ∧ (∃ (s : State), s.cfg.time.discipline = true)
    ∧ (∃ (n : Nat), n < 4)
    ∧ (∃ (s : State), s.time.stLocked = false) :=
  ⟨⟨2, { state := 1 }, withTime { ready.time with tod := some 0, tbs := [(2, { good := 4 })] }, by decide⟩,
   ⟨2, { state := 1 }, withTime { ready.time with tod := some 0, tbs := [(2, { state := 2, stepped := true, good := 1 })] }, by decide⟩,
   ⟨2, { state := 2 }, withTime { ready.time with ppsMiss := 1, tbs := [(2, { state := 1 })] }, by decide⟩,
   ⟨2, { state := 3 }, withTime { ready.time with ppsMiss := 3, tbs := [(2, { state := 1 })] }, by decide⟩,
   ⟨3, ready, by decide⟩,
   ⟨0, ready, by decide⟩,
   ⟨ready, by decide⟩,
   ⟨withTime { ready.time with stLocked := true }, by decide⟩,
   ⟨withTimeCfg { ready.cfg.time with list := [4], firstWait := 3600 }
      { ready.time with tb4Stepped := true, selAt := some 0, tbs := [(4, { val := BitVec.ofNat 96 (3600000000000 * 4294967296) })] }, 0, by decide⟩,
   ⟨true, withTimeCfg { ready.cfg.time with ppsIn := true, ppsFalling := true } ready.time, by decide⟩,
   ⟨false, withTimeCfg { ready.cfg.time with ppsIn := true } { ready.time with tbs := [(2, { stepped := true, val := BitVec.ofNat 96 (10001 * 4294967296) })] }, by decide⟩,
   ⟨withTimeCfg { ready.cfg.time with ppsIn := true } { ready.time with tbs := [(2, { stepped := true, val := BitVec.ofNat 96 (2000000000 * 4294967296) })] }, by decide⟩,
   ⟨withTimeCfg { ready.cfg.time with ppsOut := true } { ready.time with stLocked := true }, by decide⟩,
   ⟨ready, by decide⟩,
   ⟨withTimeCfg { ready.cfg.time with ppsOut := true } { ready.time with stLocked := true }, by decide⟩,
   ⟨1, { portOn with cfg := { portOn.cfg with time := { ready.cfg.time with ptpB := { enable := true, port := 1 } } }, time := { ready.time with ptp := [(1, { master := some 1 })] } }, by decide⟩,
   ⟨1, ranNow (.delayReq 1) ready, by decide⟩,
   ⟨1, ready, by decide⟩,
   ⟨1, List.replicate 44 0 ++ ownPortId {}, 5, 7, withTime { ready.time with ptp := [(1, { asked := some 5, ms := some 7, seq := 1 })] }, by decide⟩,
   ⟨0, ready, by decide⟩,
   ⟨0, 0, [], ready, by decide⟩,
   ⟨ready, by decide⟩,
   ⟨withTimeCfg { ready.cfg.time with herdSource := 63 } { ready.time with tbs := [(3, { state := 1 })] }, by decide⟩,
   ⟨ranNow .herdTime ready, by decide⟩,
   ⟨1, by decide⟩,
   ⟨.remask, .renewal, by decide⟩,
   ⟨3, timeRoute none, by decide⟩,
   ⟨3, 0, timeRoute (some 0), by decide⟩,
   ⟨3, surveying (List.replicate 14 0), { path := [0, 63] }, by decide⟩,
   ⟨3, surveying (List.replicate 15 0), { path := [0, 63] }, by decide⟩,
   ⟨ready, by decide⟩,
   ⟨[63, 0], 1, 3, setHlink ready 3 { up := true, neighbour := some 63 }, by decide⟩,
   ⟨{ path := [0, 63] }, surveying [], by decide⟩,
   ⟨{ path := [0, 63] }, surveying [], by decide⟩,
   ⟨{ path := [0, 63] }, 1, surveying [], by decide⟩,
   ⟨0x77359400, ready, by decide⟩,
   ⟨0x78000000, ready, by decide⟩,
   ⟨1, by decide⟩,
   ⟨ready, by decide⟩,
   ⟨withTimeCfg { ready.cfg.time with discipline := true } ready.time, by decide⟩,
   ⟨3, by decide⟩,
   ⟨ready, by decide⟩⟩

/-- States and operands that meet the hypotheses of Obligations.GaitTimersAct, clause by clause. -/
theorem witness_GaitTimersAct :
    (let due (v : Gait) : Prop := bit v.ctrl 0 = true ∧ v.matched = false ∧ v.count = v.compare;
    ∃ (t : Fin 16) (s : State), due (gait s t) ∧ gtMode (gait s t) = 0 ∧ (bit (gait s t).ctrl 27 = false ∨ gtVector (gait s t) = 0))
    ∧ (let due (v : Gait) : Prop := bit v.ctrl 0 = true ∧ v.matched = false ∧ v.count = v.compare;
    ∃ (t : Fin 16) (s : State), due (gait s t) ∧ gtMode (gait s t) = 1 ∧ (bit (gait s t).ctrl 27 = false ∨ gtVector (gait s t) = 0))
    ∧ (let due (v : Gait) : Prop := bit v.ctrl 0 = true ∧ v.matched = false ∧ v.count = v.compare;
    ∃ (t : Fin 16) (s : State), due (gait s t) ∧ gtMode (gait s t) < 2 ∧ bit (gait s t).ctrl 27 = true ∧ gtVector (gait s t) ≠ 0)
    ∧ (∃ (t : Fin 16) (s : State), (gait s t).count ≠ (gait s t).compare)
    ∧ (∃ (t : Fin 16) (f : Bool) (s : State), 1 ≤ gtCapSrc (gait s t) ∧ gtCapSrc (gait s t) ≤ 4 ∧ edgeSelected (gait s t) f = true ∧ s.dev.mode ≠ .stall ∧ s.tan.joined = false)
    ∧ (∃ (v : Word), bit v 29 = true)
    ∧ (∃ (t : Fin 16) (s : State), (gait s t).count ≠ (gait s t).compare)
    ∧ (let due (v : Gait) : Prop := bit v.ctrl 0 = true ∧ v.matched = false ∧ v.count = v.compare;
    ∃ (t : Fin 16) (s : State), due (gait s t) ∧ gtMode (gait s t) = 1)
    ∧ (∃ (t : Fin 16) (s : State), bit (gait s t).ctrl 0 = true ∧ gtMode (gait s t) = 2 ∧ bit (gait s t).status 4 = false ∧ (gait s t).top ≤ (gait s t).count)
    ∧ (∃ (t : Fin 16) (s : State), bit (gait s t).ctrl 0 = true ∧ gtMode (gait s t) = 2 ∧ bit (gait s t).status 4 = true ∧ (gait s t).count = 0)
    ∧ (∃ (v : Gait), bit v.ctrl 0 = true ∧ gtMode v < 2 ∧ v.pre < gtPrescale v)
    ∧ (∃ (v : Gait), bit v.ctrl 0 = true ∧ gtMode v < 2 ∧ gtPrescale v ≤ v.pre)
    ∧ (∃ (s : State) (k : Nat), (∀ t, t < 16 → gtOut (gait s t) ≠ k + 1)) :=
  ⟨⟨15, withGait { ctrl := 1, count := 5, compare := 5 }, by decide⟩,
   ⟨15, withGait { ctrl := 3, count := 5, compare := 5 }, by decide⟩,
   ⟨15, withGait { ctrl := 0x0FE00003, count := 5, compare := 5 }, by decide⟩,
   ⟨15, ready, by decide⟩,
   ⟨15, true, withGait { ctrl := 0x00040000 ||| (2 <<< 19) }, by decide⟩,
   ⟨0x20000000, by decide⟩,
   ⟨15, ready, by decide⟩,
   ⟨15, withGait { ctrl := 3, count := 5, compare := 5 }, by decide⟩,
   ⟨15, withGait { ctrl := 5, count := 9, top := 9 }, by decide⟩,
   ⟨15, withGait { ctrl := 5, status := 16 }, by decide⟩,
   ⟨{ ctrl := 1 ||| (3 <<< 3) }, by decide⟩,
   ⟨{ ctrl := 1 }, by decide⟩,
   ⟨ready, 0, by decide⟩⟩

/-- States and operands that meet the hypotheses of Obligations.HerdCommandsRun, clause by clause. -/
theorem witness_HerdCommandsRun :
    (Meets 0x0B00 1
      (fun c u => pn c 0 ≤ 63 ∧ ∀ l, l < 4 → (linkCfg u l).enable = false))
    ∧ (Meets 0x0B00 1
      (fun c u => pn c 0 ≤ 63 ∧ (linkCfg u 0).enable = true))
    ∧ (Meets 0x0B01 3
      (fun c _ => 10 ≤ pn c 2 ∧ pn c 2 ≤ 10000))
    ∧ (Meets 0x0B02 0
      (fun _ _ => True))
    ∧ (Meets 0x0B03 1
      (fun c u => pn c 0 < 2 ∧ u.rx.drains = [] ∧ u.rx.tracks = []))
    ∧ (Meets 0x0B04 2
      (fun c _ => pn c 0 ≤ 1 ∧ pn c 1 < 4096))
    ∧ (((Config.partner 0).1 = true ∧ (Config.partner 0).2.1 = true ∧ (Config.partner 0).2.2 = true) →
    Meets 0x0B10 5
      (fun c u => pn c 0 < 16 ∧ 500 ≤ pn c 1 ∧ pn c 1 ≤ 10000 ∧ 1 ≤ pn c 2 ∧ pn c 2 ≤ 3600 ∧ pn c 3 < 2 ∧ pn c 4 < 1048576
        ∧ (hlink u (pf c 0 3 2)).neighbour = some (ownHid u) ∧ (Config.partner u.free).1 = !bit (pw c 0) 0
        ∧ (Config.partner u.free).2.1 = !bit (pw c 0) 1 ∧ (Config.partner u.free).2.2 = true))
    ∧ (Meets 0x0B10 5
      (fun c u => pn c 0 < 16 ∧ 500 ≤ pn c 1 ∧ pn c 1 ≤ 10000 ∧ 1 ≤ pn c 2 ∧ pn c 2 ≤ 3600 ∧ pn c 3 < 2 ∧ pn c 4 < 1048576
        ∧ (hlink u (pf c 0 3 2)).neighbour ≠ some (ownHid u)))
    ∧ (Meets 0x0B11 0
      (fun _ u => u.tan.joined = true))
    ∧ (Meets 0x0B12 0
      (fun _ _ => True))
    ∧ (Meets 0x0B13 0
      (fun _ u => u.tan.joined = true ∧ u.tan.reins = true ∧ u.tan.step = 1 ∧ u.tan.handover = none))
    ∧ (Meets 0x0B13 0
      (fun _ u => u.tan.reins = false))
    ∧ (Meets 0x0B14 0
      (fun _ u => u.tan.joined = true ∧ u.tan.reins = false ∧ u.tan.resync = none))
    ∧ (Meets 0x0B20 0
      (fun _ _ => True))
    ∧ (Meets 0x0B21 1
      (fun c _ => pn c 0 < 2)) :=
  ⟨⟨pkt [63], ready, by decide⟩,
   ⟨pkt [63], { ready with cfg := { ready.cfg with herd := { ready.cfg.herd with links := [(0, { enable := true })] } } }, by decide⟩,
   ⟨pkt [0xFFFFFFFF, 0xFFFFFFFF, 10000], ready, by decide⟩,
   ⟨pkt [], ready, by decide⟩,
   ⟨pkt [1], ready, by decide⟩,
   ⟨pkt [1, 4095], ready, by decide⟩,
   by intro h; exact ⟨pkt [0, 10000, 3600, 1, 1048575], setHlink ready 0 { neighbour := some 0 }, ⟨by decide, by decide, by decide, by decide, by decide, by decide, by decide, by decide, by decide, h⟩⟩,
   ⟨pkt [12, 500, 1, 0, 0], ready, by decide⟩,
   ⟨pkt [], inTandem { joined := true, reins := true }, by decide⟩,
   ⟨pkt [], ready, by decide⟩,
   ⟨pkt [], inTandem { joined := true, reins := true, step := 1 }, by decide⟩,
   ⟨pkt [], ready, by decide⟩,
   ⟨pkt [], inTandem { joined := true }, by decide⟩,
   ⟨pkt [], ready, by decide⟩,
   ⟨pkt [1], ready, by decide⟩⟩

/-- States and operands that meet the hypotheses of Obligations.HerdAuthority, clause by clause. -/
theorem witness_HerdAuthority :
    (∃ (s : State), periodDue .membership 10000000 s = true)
    ∧ (∃ (s : State), periodDue .membership 10000000 s = false)
    ∧ (∃ (l : Fin 4) (s : State), (hlink s l).up = true ∧ s.tan.joined = false)
    ∧ (∃ s : State, overdue (refreshPresence s) &&& ~~~ (refreshPresence s).herd.lost ≠ 0)
    ∧ (∃ (s : State), overdue (refreshPresence s) &&& ~~~ (refreshPresence s).herd.lost = 0)
    ∧ (∃ (s : State), (refreshPresence s).herd.split = true ∧ wholeAgain (refreshPresence s) = true ∧ (refreshPresence s).herd.egress = []) :=
  ⟨⟨ready, by decide⟩,
   ⟨ranNow .membership ready, by decide⟩,
   ⟨3, setHlink ready 3 { up := true }, by decide⟩,
   ⟨alone, by decide⟩,
   ⟨ready, by decide⟩,
   ⟨{ ready with herd := { ready.herd with split := true }, cfg := { ready.cfg with herd := { ready.cfg.herd with members := some 1 } } }, by decide⟩⟩

/-- States and operands that meet the hypotheses of Obligations.TandemActs, clause by clause. -/
theorem witness_TandemActs :
    (∃ (s : State), nonHolder s = true)
    ∧ (∃ (s : State), nonHolder s = false)
    ∧ (∃ (a : Nat) (n : Nat) (v : BitVec 4) (s : State), s.tan.mirrorq = [(a, n, .grants v)])
    ∧ (∃ (a : Nat) (b : Nat) (n : Nat) (m : Nat) (v : BitVec 4) (w : BitVec 4) (s : State), a < b ∧ (s.tan.mirrorq = [(a, n, .grants v), (b, m, .grants w)] ∨ s.tan.mirrorq = [(b, m, .grants w), (a, n, .grants v)]))
    ∧ (∃ (a : Nat) (n : Nat) (c : Packet) (s : State), s.tan.mirrorq = [(a, n, .command 0x0001#16 c)])
    ∧ (∃ (s : State), nonHolder s = true)
    ∧ (∃ (p : Fin 2) (f : EthIn) (t : BitVec 64) (s : State), s.tan.bhHeard = [(t, p.val, f)])
    ∧ (∃ (s : State), s.tan.joined = true ∧ s.tan.reins = true)
    ∧ (∃ (e : InFlight) (s : State), s.tan.joined = true ∧ s.tan.reins = false ∧ e.mirrored = true)
    ∧ (∃ (asn : BitVec 40) (d : BitVec 64) (s : State), s.tan.joined = true ∧ s.tan.digest = some (asn.toNat, d) ∧ s.tan.step = 1)
    ∧ (∃ (s : State), (nonHolder s = false ∨ s.tan.role = true) ∧ s.tan.step = 1 ∧ s.tan.fwStage = 0)
    ∧ (∃ (asn : BitVec 40) (d : BitVec 64) (s : State), s.tan.joined = true ∧ s.tan.digest = some (asn.toNat, d) ∧ s.tan.step = 2 ∧ (s.tan.reins = true ∨ s.tan.role = true ∨ s.cfg.tan.revert = false))
    ∧ (∃ (asn : BitVec 40) (d : BitVec 64) (x : BitVec 64) (s : State), s.tan.digest = some (asn.toNat, d) ∧ s.tan.step = 2 ∧ x ≠ d)
    ∧ (∃ (s : State), s.tan.joined = true ∧ s.tan.step = 1 ∧ 4 ≤ s.tan.missing)
    ∧ (∃ (s : State), s.tan.joined = true ∧ s.tan.reins = true ∧ bridleMajority s = true ∧ periodDue .renewal 100000 s = true)
    ∧ (∃ (s : State), bridleMajority s = false)
    ∧ (∃ (s : State), periodDue .renewal 100000 s = false)
    ∧ (∃ (f : ReinsFrame) (s : State), s.tan.joined = true ∧ s.tan.reins = false ∧ reinsIs f .renewal = true ∧ s.tan.leaseSeen = none)
    ∧ (∃ (f : ReinsFrame), f.bits >>> 48 ≠ BitVec.ofNat 64 (crc16 (leBytes 6 f.bits.toNat)))
    ∧ (∃ (f : ReinsFrame) (s : State), reinsIs f .release = true ∧ nonHolder s = true ∧ s.tan.step = 1)
    ∧ (∃ (f : ReinsFrame) (s : State), reinsIs f .revert = true ∧ s.tan.joined = true ∧ s.tan.reins = true ∧ s.tan.step = 1 ∧ s.tan.handover = none)
    ∧ (∃ (f : ReinsFrame) (s : State), reinsIs f .grant = true ∧ nonHolder s = true ∧ s.tan.step = 1)
    ∧ (∃ (f : ReinsFrame) (s : State), reinsIs f .marker = true ∧ nonHolder s = true ∧ s.tan.step ≠ 3)
    ∧ (∃ (th : BitVec 64) (cause : Nat) (s : State), s.tan.handover = some (th, true, cause) ∧ reached s th = true)
    ∧ (∃ (th : BitVec 64) (cause : Nat) (s : State), s.tan.handover = some (th, false, cause) ∧ reached s th = true)
    ∧ (∃ (e : BitVec 64) (s : State), s.tan.leaseOwn = some e ∧ s.tan.joined = true ∧ s.tan.reins = true ∧ reached s (e - 100000) = true ∧ (∀ l, l < 4 → (hlink s l).up = false))
    ∧ (∃ (e : BitVec 64) (s : State), s.tan.leaseSeen = some e ∧ nonHolder s = true ∧ s.tan.step = 1 ∧ reached s (e + 100000) = true ∧ s.radio.txs = [] ∧ s.radio.recent = [] ∧ s.tan.bhHeard = [])
    ∧ (∃ (e : BitVec 64) (s : State), s.tan.leaseSeen = some e ∧ reached s (e + 100000) = false)
    ∧ (∃ (p : Fin 2) (s : State), s.tan.joined = true ∧ s.tan.pathSilent.getD p 0 < 3 ∧ reached s (s.tan.pathHeard.getD p 0#64 + 300000#64) = true)
    ∧ (∃ (t : BitVec 64) (s : State), s.tan.holdStart = some t ∧ nonHolder s = true ∧ s.tan.role = false ∧ s.cfg.tan.revert = true ∧ s.tan.step = 1 ∧ reached s (t + BitVec.ofNat 64 (1000000000 * s.cfg.tan.revertHold)) = true) :=
  ⟨⟨inTandem { joined := true }, by decide⟩,
   ⟨ready, by decide⟩,
   ⟨1, 1, 5, inTandem { mirrorq := [(1, 1, .grants 5)] }, by decide⟩,
   ⟨0, 1, 0, 0, 5, 6, inTandem { mirrorq := [(1, 0, .grants 6), (0, 0, .grants 5)] }, by decide⟩,
   ⟨1, 1, pkt [], inTandem { mirrorq := [(1, 1, .command 0x0001 (pkt []))] }, by decide⟩,
   ⟨inTandem { joined := true }, by decide⟩,
   ⟨0, { bytes := [], fcs := 0, tRx := 0 }, 0, inTandem { bhHeard := [(0, 0, { bytes := [], fcs := 0, tRx := 0 })] }, by decide⟩,
   ⟨inTandem { joined := true, reins := true }, by decide⟩,
   ⟨{ mirrored := true }, inTandem { joined := true }, by decide⟩,
   ⟨5, 9, inTandem { joined := true, digest := some (5, 9), step := 1 }, by decide⟩,
   ⟨inTandem { step := 1 }, by decide⟩,
   ⟨5, 9, inTandem { joined := true, reins := true, digest := some (5, 9), step := 2 }, by decide⟩,
   ⟨5, 9, 8, inTandem { joined := true, digest := some (5, 9), step := 2 }, by decide⟩,
   ⟨inTandem { joined := true, step := 1, missing := 4 }, by decide⟩,
   ⟨inTandem { joined := true, reins := true }, by decide⟩,
   ⟨withBridle { restarting := true }, by decide⟩,
   ⟨ranNow .renewal ready, by decide⟩,
   ⟨reinsOf .renewal, inTandem { joined := true }, by decide⟩,
   ⟨{ bits := (reinsOf .renewal).bits ^^^ (1 <<< 48) }, by decide⟩,
   ⟨reinsOf .release, inTandem { joined := true, step := 1 }, by decide⟩,
   ⟨reinsOf .revert, inTandem { joined := true, reins := true, step := 1 }, by decide⟩,
   ⟨reinsOf .grant, inTandem { joined := true, step := 1 }, by decide⟩,
   ⟨reinsOf .marker, inTandem { joined := true }, by decide⟩,
   ⟨0, 0, inTandem { handover := some (0, true, 0) }, by decide⟩,
   ⟨0, 0, inTandem { handover := some (0, false, 0) }, by decide⟩,
   ⟨100000, inTandem { joined := true, reins := true, leaseOwn := some 100000 }, by decide⟩,
   ⟨0, later 100000 (inTandem { joined := true, step := 1, leaseSeen := some 0 }), by decide⟩,
   ⟨0, inTandem { leaseSeen := some 0 }, by decide⟩,
   ⟨1, later 300000 (inTandem { joined := true }), by decide⟩,
   ⟨0, later 10000000000 (inTandem { joined := true, step := 1, holdStart := some 0 }), by decide⟩⟩

/-- States and operands that meet the hypotheses of Obligations.BridleActs, clause by clause. -/
theorem witness_BridleActs :
    (∃ (ch : Fin 3) (s : State), bit s.bri.votes ch.val = true ∧ s.bri.history = [])
    ∧ (∃ (ch : Fin 3) (s : State) (a : BitVec 64) (b : BitVec 64), bit s.bri.votes ch.val = true ∧ s.bri.history = [(ch.val, a), (ch.val, b)] ∧ reached s (a + 1000000000) = false ∧ reached s (b + 1000000000) = false)
    ∧ (∃ (s : State), rejoining s ≠ 0 ∧ s.bri.restarting = false)
    ∧ (∃ (s : State), rejoining s ≠ 0 ∧ s.bri.restarting = false)
    ∧ (∃ (s : State), s.bri.restarting = false)
    ∧ (∃ (s : State), s.bri.restarting = true) :=
  ⟨⟨2, ready, by decide⟩,
   ⟨2, withBridle { history := [(2, 0), (2, 0)] }, 0, 0, by decide⟩,
   ⟨withBridle { votes := 3 }, by decide⟩,
   ⟨withBridle { votes := 3 }, by decide⟩,
   ⟨ready, by decide⟩,
   ⟨withBridle { restarting := true }, by decide⟩⟩

/-- States and operands that meet the hypotheses of Obligations.VaultCommandsRun, clause by clause. -/
theorem witness_VaultCommandsRun :
    (Meets 0x0A00 0
      (fun _ _ => True))
    ∧ (let isOpen (u : State) : Prop := u.vault.unlocked = true ∧ u.vault.rootOk = true;
    ∃ (r : BitVec 256) (m : BitVec 256), Meets 0x0A01 2
      (fun c u => pn c 0 ≤ 63 ∧ pn c 1 = 2 ∧ (vaultSlot u (pn c 0)).state = 0 ∧ u.vault.tampered = false ∧ isOpen u
        ∧ (drawRandom u).1 = r ∧ (drawRandom (drawRandom u).2).1 = m))
    ∧ (Meets 0x0A01 2
      (fun c u => pn c 0 ≤ 63 ∧ pn c 1 = 2 ∧ (vaultSlot u (pn c 0)).state ≠ 0))
    ∧ (Meets 0x0A01 2
      (fun c u => pn c 0 ≤ 63 ∧ pn c 1 = 2 ∧ (vaultSlot u (pn c 0)).state = 0 ∧ u.vault.tampered = true))
    ∧ (Meets 0x0A01 2
      (fun c u => pn c 0 ≤ 63 ∧ pn c 1 = 2 ∧ (vaultSlot u (pn c 0)).state = 0 ∧ u.vault.tampered = false ∧ u.vault.rootOk = false))
    ∧ (let isOpen (u : State) : Prop := u.vault.unlocked = true ∧ u.vault.rootOk = true;
    let kek (c : Packet) (u : State) : List Byte :=
            sha256 ([0#8, 0#8, 0#8, 1#8] ++ ecdh (vaultSlot u (pn c 2)).key (pbytes c 3 64)
              ++ [0x59#8, 0x4E#8, 0x4B#8, 0x57#8, BitVec.ofNat 8 (pn c 0), BitVec.ofNat 8 (pn c 1)]);
    let importable (c : Packet) (u : State) : Prop :=
            pn c 0 ≤ 63 ∧ (pn c 1 = 1 ∨ pn c 1 = 3) ∧ pn c 2 ≤ 63 ∧ pn c 29 < 16777216 ∧ p256Valid (pbytes c 3 64) = true
              ∧ (vaultSlot u (pn c 0)).state = 0 ∧ u.vault.tampered = false;
    ∃ (f : List Byte), Meets 0x0A02 30
      (fun c u => importable c u ∧ isOpen u ∧ (vaultSlot u (pn c 2)).state = 1 ∧ (vaultSlot u (pn c 2)).typ = 2
        ∧ keyUnwrap (kek c u) (pbytes c 19 40) = some f ∧ (pn c 1 = 1 → ∀ b ∈ f.drop 16, b = 0#8)
        ∧ checkValue (pn c 1) f = pbytes c 29 3))
    ∧ (let importable (c : Packet) (u : State) : Prop :=
            pn c 0 ≤ 63 ∧ (pn c 1 = 1 ∨ pn c 1 = 3) ∧ pn c 2 ≤ 63 ∧ pn c 29 < 16777216 ∧ p256Valid (pbytes c 3 64) = true
              ∧ (vaultSlot u (pn c 0)).state = 0 ∧ u.vault.tampered = false;
    Meets 0x0A02 30
      (fun c u => importable c u ∧ ¬ ((vaultSlot u (pn c 2)).state = 1 ∧ (vaultSlot u (pn c 2)).typ = 2)))
    ∧ (let isOpen (u : State) : Prop := u.vault.unlocked = true ∧ u.vault.rootOk = true;
    let kek (c : Packet) (u : State) : List Byte :=
            sha256 ([0#8, 0#8, 0#8, 1#8] ++ ecdh (vaultSlot u (pn c 2)).key (pbytes c 3 64)
              ++ [0x59#8, 0x4E#8, 0x4B#8, 0x57#8, BitVec.ofNat 8 (pn c 0), BitVec.ofNat 8 (pn c 1)]);
    let importable (c : Packet) (u : State) : Prop :=
            pn c 0 ≤ 63 ∧ (pn c 1 = 1 ∨ pn c 1 = 3) ∧ pn c 2 ≤ 63 ∧ pn c 29 < 16777216 ∧ p256Valid (pbytes c 3 64) = true
              ∧ (vaultSlot u (pn c 0)).state = 0 ∧ u.vault.tampered = false;
    Meets 0x0A02 30
      (fun c u => importable c u ∧ isOpen u ∧ (vaultSlot u (pn c 2)).state = 1 ∧ (vaultSlot u (pn c 2)).typ = 2
        ∧ keyUnwrap (kek c u) (pbytes c 19 40) = none))
    ∧ (Meets 0x0A03 1
      (fun c u => pn c 0 ≤ 63 ∧ (vaultSlot u (pn c 0)).state = 1 ∧ netsUsing u (pn c 0) = 0 ∧ ∀ e ∈ u.vault.next, e.2 ≠ pn c 0))
    ∧ (Meets 0x0A03 1
      (fun c u => pn c 0 ≤ 63 ∧ ((vaultSlot u (pn c 0)).state ≠ 1 ∨ netsUsing u (pn c 0) ≠ 0)))
    ∧ (Meets 0x0A04 1
      (fun c _ => pn c 0 ≤ 63))
    ∧ (Meets 0x0A05 9
      (fun c u => pn c 0 ≤ 63 ∧ u.vault.brand = true))
    ∧ (Meets 0x0A05 9
      (fun c u => pn c 0 ≤ 63 ∧ u.vault.brand = false))
    ∧ (∃ (n : List Byte), n.length = 32)
    ∧ (Meets 0x0A06 0
      (fun _ _ => True))
    ∧ (Meets 0x0A07 2
      (fun c u => pn c 0 ≤ 15 ∧ pn c 1 ≤ 63 ∧ u.herd.minority = false ∧ u.vault.tampered = false ∧ zoneLoaded u (pn c 1) = true))
    ∧ (Meets 0x0A07 2
      (fun c u => pn c 0 ≤ 15 ∧ pw c 1 = 0xFFFFFFFF ∧ u.herd.minority = false ∧ u.vault.tampered = false))
    ∧ (Meets 0x0A07 2
      (fun c u => pn c 0 ≤ 15 ∧ pn c 1 ≤ 63 ∧ u.herd.minority = true))
    ∧ (Meets 0x0A08 1
      (fun c _ => 1 ≤ pn c 0 ∧ pn c 0 ≤ 3600))
    ∧ (Meets 0x0A10 4
      (fun c u => pn c 0 < 1024 ∧ pn c 1 < 1024 ∧ pn c 2 < 4 ∧ pn c 3 < 2 ∧ u.vault.tamper.lock = false))
    ∧ (Meets 0x0A10 4
      (fun c u => pn c 0 < 1024 ∧ pn c 1 < 1024 ∧ pn c 2 < 4 ∧ pn c 3 < 2 ∧ u.vault.tamper.lock = true))
    ∧ (Meets 0x0A11 0
      (fun _ _ => True))
    ∧ (Meets 0x0A12 1
      (fun c u => pw c 0 = 0x74616D70 ∧ u.vault.tamper.enable &&& u.vault.tripped = 0))
    ∧ (Meets 0x0A12 1
      (fun c u => pw c 0 = 0x74616D70 ∧ u.vault.tamper.enable &&& u.vault.tripped ≠ 0))
    ∧ (Meets 0x0A12 1
      (fun c _ => pw c 0 ≠ 0x74616D70))
    ∧ (Meets 0x0A13 1
      (fun c _ => pw c 0 = 0x7A65726F)) :=
  ⟨⟨pkt [], ready, by decide⟩,
   ⟨Config.random 0, Config.random 1, pkt [63, 2], vaultWith 0 {}, ⟨by decide, by decide, by decide, by decide, by decide, ⟨by decide, by decide⟩, rfl, rfl⟩⟩,
   ⟨pkt [63, 2], setSlot 63 { state := 1 } ready, by decide⟩,
   ⟨pkt [63, 2], { ready with vault := { ready.vault with tampered := true } }, by decide⟩,
   ⟨pkt [63, 2], ready, by decide⟩,
   ⟨List.replicate 32 0, importOf wrapped, vaultWith 0 { state := 1, typ := 2 }, ⟨by decide, ⟨by decide, by decide, by decide, by decide, importOf_valid _ (by decide), by decide, by decide⟩, ⟨by decide, by decide⟩, by decide, by decide, wrapped_opens, fun k => absurd k (by decide), by decide⟩⟩,
   ⟨importOf wrapped, ready, ⟨by decide, ⟨by decide, by decide, by decide, by decide, importOf_valid _ (by decide), by decide, by decide⟩, by decide⟩⟩,
   ⟨importOf (List.replicate 40 0), vaultWith 0 { state := 1, typ := 2 }, ⟨by decide, ⟨by decide, by decide, by decide, by decide, importOf_valid _ (by decide), by decide, by decide⟩, ⟨by decide, by decide⟩, by decide, by decide, zeros_refused⟩⟩,
   ⟨pkt [63], setSlot 63 { state := 1 } ready, by decide⟩,
   ⟨pkt [63], ready, by decide⟩,
   ⟨pkt [63], ready, by decide⟩,
   ⟨pkt (63 :: List.replicate 8 0), { ready with vault := { ready.vault with brand := true } }, by decide⟩,
   ⟨pkt (63 :: List.replicate 8 0), ready, by decide⟩,
   ⟨List.replicate 32 0, by decide⟩,
   ⟨pkt [], ready, by decide⟩,
   ⟨pkt [15, 63], setSlot 63 { state := 1, typ := 1 } ready, by decide⟩,
   ⟨pkt [15, 0xFFFFFFFF], ready, by decide⟩,
   ⟨pkt [15, 63], minor, by decide⟩,
   ⟨pkt [3600], ready, by decide⟩,
   ⟨pkt [1023, 1023, 3, 1], ready, by decide⟩,
   ⟨pkt [1023, 1023, 3, 1], { ready with vault := { ready.vault with tamper := { lock := true } } }, by decide⟩,
   ⟨pkt [], ready, by decide⟩,
   ⟨pkt [0x74616D70], ready, by decide⟩,
   ⟨pkt [0x74616D70], { ready with vault := { ready.vault with tripped := 0x200 } }, by decide⟩,
   ⟨pkt [0], ready, by decide⟩,
   ⟨pkt [0x7A65726F], ready, by decide⟩⟩

/-- States and operands that meet the hypotheses of Obligations.TamperActs, clause by clause. -/
theorem witness_TamperActs :
    (∃ (i : Fin 10) (s : State), i.val ≠ 9 ∧ bit s.vault.tamper.enable i.val = true ∧ bit s.vault.tamper.action i.val = true ∧ s.dev.vin = true)
    ∧ (∃ (i : Fin 10) (s : State), i.val ≠ 9 ∧ bit s.vault.tamper.enable i.val = true ∧ bit s.vault.tamper.action i.val = false ∧ s.dev.vin = true)
    ∧ (∃ (i : Fin 10) (s : State), i.val ≠ 9 ∧ bit s.vault.tamper.enable i.val = false)
    ∧ (∃ (s : State), s.dev.vin = true)
    ∧ (∃ (s : State), periodDue .remask (1000000000 * s.cfg.maskPeriod) s = false)
    ∧ (∃ (s : State), periodDue .remask (1000000000 * s.cfg.maskPeriod) s = true) :=
  ⟨⟨8, ready, by decide⟩,
   ⟨8, { ready with vault := { ready.vault with tamper := { action := 0 } } }, by decide⟩,
   ⟨0, ready, by decide⟩,
   ⟨ready, by decide⟩,
   ⟨later 59999999999 (ranNow .remask ready), by decide⟩,
   ⟨later 60000000000 (ranNow .remask ready), by decide⟩⟩

/-- States and operands that meet the hypotheses of Obligations.PowerCommandsRun, clause by clause. -/
theorem witness_PowerCommandsRun :
    (Meets 0x0100 2
      (fun c u => pn c 0 = 0 ∧ pn c 1 < 2 ∧ u.dev.mode = .graze))
    ∧ (let runs (u : State) : Prop := u.dev.mode = .gallop ∨ u.dev.mode = .trot;
    Meets 0x0100 2
      (fun c u => pn c 0 = 3 ∧ pn c 1 < 2 ∧ runs u ∧ u.rx.drains = [] ∧ ∃ p, p < 4 ∧ (plainCfg u p).enabled = true
        ∧ senseLoad (senseSet u p) ≠ 0))
    ∧ (let runs (u : State) : Prop := u.dev.mode = .gallop ∨ u.dev.mode = .trot;
    Meets 0x0100 2
      (fun c u => pn c 0 = 4 ∧ pn c 1 < 2 ∧ (runs u ∨ u.dev.mode = .graze) ∧ u.tan.joined = false ∧ u.rx.drains = []))
    ∧ (Meets 0x0100 2
      (fun c u => pn c 0 = 0 ∧ pn c 1 < 2 ∧ u.dev.mode ≠ .graze))
    ∧ (Meets 0x0100 2
      (fun c u => pn c 0 = 4 ∧ pn c 1 < 2 ∧ u.tan.joined = true))
    ∧ (Meets 0x0101 0
      (fun _ _ => True))
    ∧ (∃ (u : State) (k : Nat), u.pwr.lastWake = some k)
    ∧ (Meets 0x0102 4
      (fun c u => 8 ≤ pn c 0 ∧ pn c 0 ≤ 1024 ∧ 40 ≤ pn c 1 ∧ pn c 1 ≤ 200 ∧ pn c 2 < 2 ∧ 1 ≤ pn c 3 ∧ pn c 3 ≤ 3600
        ∧ ∀ p, p < 4 → senseWindow (senseSet u p) + 500000 < 1000000 * pn c 0))
    ∧ (Meets 0x0102 4
      (fun c u => 8 ≤ pn c 0 ∧ ∃ p, p < 4 ∧ 1000000 * pn c 0 ≤ senseWindow (senseSet u p) + 500000))
    ∧ (let sense (c : Packet) : BitVec 64 × BitVec 4 × BitVec 8 := (pw c 2 ++ pw c 1, (pw c 3).setWidth 4, (pw c 3 >>> 8).setWidth 8);
    Meets 0x0103 4
      (fun c u => pn c 0 ≤ 3 ∧ pw c 3 &&& 0xFFFF00F0 = 0 ∧ senseLoad (sense c) ≤ 1088
        ∧ senseWindow (sense c) + 500000 < 1000000 * u.cfg.pwr.wakePeriod))
    ∧ (let sense (c : Packet) : BitVec 64 × BitVec 4 × BitVec 8 := (pw c 2 ++ pw c 1, (pw c 3).setWidth 4, (pw c 3 >>> 8).setWidth 8);
    Meets 0x0103 4
      (fun c _ => pn c 0 ≤ 3 ∧ 1088 < senseLoad (sense c)))
    ∧ (Meets 0x0104 1
      (fun c _ => pn c 0 ≤ 86400))
    ∧ (Meets 0x0105 0
      (fun _ _ => True))
    ∧ (Meets 0x0106 1
      (fun c _ => pn c 0 < 2)) :=
  ⟨⟨pkt [0, 1], inMode .graze ready, by decide⟩,
   ⟨pkt [3, 1], sensing 1, ⟨by decide, by decide, by decide, .inl (by decide), by decide, 3, by decide⟩⟩,
   ⟨pkt [4, 1], ready, ⟨by decide, by decide, by decide, .inl (.inl (by decide)), by decide, by decide⟩⟩,
   ⟨pkt [0, 1], ready, by decide⟩,
   ⟨pkt [4, 1], inTandem { joined := true, reins := true }, by decide⟩,
   ⟨pkt [], ready, by decide⟩,
   ⟨{ ready with pwr := { ready.pwr with lastWake := some 1 } }, 1, by decide⟩,
   ⟨pkt [8, 200, 1, 3600], ready, by decide⟩,
   ⟨pkt [8, 40, 0, 1], sensing 0x80, ⟨by decide, by decide, 3, by decide⟩⟩,
   ⟨pkt [3, 1, 0, 0x101], ready, by decide⟩,
   ⟨pkt [3, 0xFFFFFFFF, 0xFFFFFFFF, 0xFF0F], ready, by decide⟩,
   ⟨pkt [86400], ready, by decide⟩,
   ⟨pkt [], ready, by decide⟩,
   ⟨pkt [1], ready, by decide⟩⟩

/-- States and operands that meet the hypotheses of Obligations.PowerEventsAct, clause by clause. -/
theorem witness_PowerEventsAct :
    (∃ (s : State), s.tan.joined = false)
    ∧ (∃ (s : State), nonHolder s = true)
    ∧ (∃ (d : Nat) (s : State), (pdom s d).state = 2 ∧ voted s d = false)
    ∧ (∃ (d : Nat) (s : State), (pdom s d).state = 2 ∧ voted s d = false ∧ (pdom s d).idle = none)
    ∧ (∃ (d : Nat) (s : State), voted s d = true)
    ∧ (∃ (d : Fin 47) (s : State), (pdom s d).state = 2 ∧ gateDue s d = true)
    ∧ (∃ (d : Fin 47) (s : State), voted s d = true)
    ∧ (∃ (d : Fin 47) (s : State), gateDue s d = false)
    ∧ (∃ (d : Fin 47) (s : State), (pdom s d).state = 0 ∧ voted s d = true)
    ∧ (∃ (t : Transition) (w : Withdrawal) (s : State), s.pwr.trans = some t ∧ withdrawalOf s t.queue t.tag = some w ∧ w.tracks = [] ∧ (∀ x ∈ s.radio.txs, txActive x = false))
    ∧ (∃ (p : Fin 4) (s : State), s.dev.mode = .graze ∧ (plainCfg s p).enabled = true ∧ senseLoad (senseSet s p) ≠ 0 ∧ bit s.pwr.sensing p = false ∧ tabFind s.pwr.lastSense p = none)
    ∧ (∃ (p : Fin 4) (k : Nat) (s : State), s.dev.mode = .graze ∧ bit s.pwr.sensing p = true ∧ s.cfg.pwr.senseThresh ≤ k)
    ∧ (∃ (p : Fin 4) (k : Nat) (s : State), s.dev.mode = .graze ∧ bit s.pwr.sensing p = true ∧ k < s.cfg.pwr.senseThresh)
    ∧ (∃ (p : Fin 4) (s : State), cellComes s p = true ∧ s.dev.mode = .graze ∧ s.pwr.trans = none)
    ∧ (∃ (p : Fin 4) (s : State), cellComes s p = false)
    ∧ (∃ (s : State), (s.dev.mode = .gallop ∨ s.dev.mode = .trot) ∧ s.cfg.pwr.grazeAuto = true ∧ s.pwr.woken = true ∧ s.pwr.trans = none ∧ grazeAllowed s = true ∧ s.rx.tracks = [] ∧ s.radio.txs = [] ∧ reached s (s.pwr.lastAct + BitVec.ofNat 64 (1000000000 * s.cfg.pwr.grazeIdle)) = true)
    ∧ (∃ (x : WakeIn) (s : State), s.dev.mode = .stall ∧ x.cause = .perst)
    ∧ (∃ (x : WakeIn) (s : State), s.dev.mode = .stall ∧ x.cause = .timer ∧ periodGood s.time.sleepPeriod = true ∧ x.cycles * s.time.sleepPeriod.toNat < s.cfg.pwr.stallWake * 65536000000000)
    ∧ (∃ (s : State), s.pwr.heldPush = []) :=
  ⟨⟨ready, by decide⟩,
   ⟨inTandem { joined := true }, by decide⟩,
   ⟨45, setPdom 45 { state := 2 } ready, by decide⟩,
   ⟨45, setPdom 45 { state := 2 } ready, by decide⟩,
   ⟨45, setPdom 45 { host := 1 } ready, by decide⟩,
   ⟨45, later 99999999 (setPdom 45 { state := 2, idle := some (0 - 1) } ready), by decide⟩,
   ⟨45, setPdom 45 { host := 1 } ready, by decide⟩,
   ⟨45, later 99999998 (setPdom 45 { state := 2, idle := some (0 - 1) } ready), by decide⟩,
   ⟨45, setPdom 45 { host := 0x80 } ready, by decide⟩,
   ⟨{}, {}, { ready with pwr := { ready.pwr with trans := some {} }, rx := { ready.rx with drains := [{}] } }, by decide⟩,
   ⟨3, inMode .graze (sensing 1), by decide⟩,
   ⟨3, 80, inMode .graze { ready with pwr := { ready.pwr with sensing := 8 } }, by decide⟩,
   ⟨3, 79, inMode .graze { ready with pwr := { ready.pwr with sensing := 8 } }, by decide⟩,
   ⟨3, inMode .graze { ready with sched := { ready.sched with passed := [{ plain := 3, t0 := 1000000 }] } }, by decide⟩,
   ⟨3, ready, by decide⟩,
   ⟨later 10000000000 { sensing 1 with
      cfg := { (sensing 1).cfg with pwr := { (sensing 1).cfg.pwr with grazeAuto := true } }, pwr := { ready.pwr with woken := true } }, by decide⟩,
   ⟨{ cause := .perst, cycles := 0 }, inMode .stall ready, by decide⟩,
   ⟨{ cause := .timer, cycles := 0 }, inMode .stall { ready with cfg := { ready.cfg with pwr := { ready.cfg.pwr with stallWake := 1 } } }, by decide⟩,
   ⟨ready, by decide⟩⟩

/-- States and operands that meet the hypotheses of Obligations.StartUpActs, clause by clause. -/
theorem witness_StartUpActs :
    (∃ (w : Nat) (s : State), s.dev.vin = true ∧ 1000000 ≤ w)
    ∧ (∃ (w : Nat), w ≤ 10000)
    ∧ (∃ (s : State), s.dev.vin = true ∧ s.dev.powerFail = false)
    ∧ (∃ (x : SaddleIn) (s : State), mayStartUp s = true ∧ x.vinLost = false ∧ x.refin = false)
    ∧ (∃ (x : SaddleIn) (s : State), mayStartUp s = true ∧ x.refin = true ∧ x.vinLost = false)
    ∧ (∃ (s : State), s.dev.mode = .saddle ∧ s.dev.saddleWait = true)
    ∧ (∃ (s : State), s.vault.pfFlag = true)
    ∧ (∃ (m : Nat) (n : Nat) (a : PortSignal) (b : PortSignal), portLand m a = portLand n b) :=
  ⟨⟨1000000, ready, by decide⟩,
   ⟨10000, by decide⟩,
   ⟨ready, by decide⟩,
   ⟨{ soundStart with refin := false }, State.reset, by decide⟩,
   ⟨soundStart, State.reset, by decide⟩,
   ⟨{ State.reset with dev := { State.reset.dev with saddleWait := true } }, by decide⟩,
   ⟨{ ready with vault := { ready.vault with pfFlag := true } }, by decide⟩,
   ⟨0, 0, .rxP, .rxP, by decide⟩⟩

/-- States and operands that meet the hypotheses of Obligations.FlashCommandsRun, clause by clause. -/
theorem witness_FlashCommandsRun :
    (let size (u : State) : Nat := 1048576 * u.fw.flashMiB - 0x1900000;
    Meets 0x0C20 2
      (fun c u => pn c 0 % 4 = 0 ∧ 4 ≤ pn c 1 ∧ pn c 1 ≤ 4080 ∧ pn c 1 % 4 = 0 ∧ pn c 0 + pn c 1 ≤ size u ∧ u.fw.reerase = []
        ∧ u.fw.ops = []))
    ∧ (let size (u : State) : Nat := 1048576 * u.fw.flashMiB - 0x1900000;
    Meets 0x0C20 2
      (fun c u => pn c 0 % 4 = 0 ∧ 4 ≤ pn c 1 ∧ pn c 1 ≤ 4080 ∧ pn c 1 % 4 = 0 ∧ pn c 0 + pn c 1 ≤ size u ∧ u.fw.reerase = []
        ∧ underErase u (pn c 0) (pn c 1) = true))
    ∧ (let size (u : State) : Nat := 1048576 * u.fw.flashMiB - 0x1900000;
    Meets 0x0C20 2
      (fun c u => pn c 0 % 4 = 0 ∧ 4 ≤ pn c 1 ∧ pn c 1 ≤ 4080 ∧ pn c 1 % 4 = 0 ∧ pn c 0 + pn c 1 ≤ size u
        ∧ hostSector (pn c 0) ∈ u.fw.reerase))
    ∧ (let size (u : State) : Nat := 1048576 * u.fw.flashMiB - 0x1900000;
    Meets 0x0C20 2
      (fun c u => size u < pn c 0 + pn c 1))
    ∧ (let size (u : State) : Nat := 1048576 * u.fw.flashMiB - 0x1900000;
    ∃ (n : Nat), 1 ≤ n ∧ n ≤ 1020 ∧ Meets 0x0C21 (2 + n)
      (fun c u => pn c 1 = 4 * n ∧ pn c 0 + pn c 1 ≤ size u ∧ u.fw.ops = [] ∧ u.fw.reerase = [] ∧ u.dev.powerFail = false
        ∧ ∀ i, i < 4 * n → memGet 0xFF#8 u.mem.flash (pn c 0 + i) = 0xFF#8))
    ∧ (let size (u : State) : Nat := 1048576 * u.fw.flashMiB - 0x1900000;
    ∃ (n : Nat), 1 ≤ n ∧ n ≤ 1020 ∧ Meets 0x0C21 (2 + n)
      (fun c u => pn c 1 = 4 * n ∧ pn c 0 + pn c 1 ≤ size u ∧ u.fw.ops = [] ∧ u.fw.reerase = []
        ∧ memGet 0xFF#8 u.mem.flash (pn c 0) ≠ 0xFF#8))
    ∧ (let size (u : State) : Nat := 1048576 * u.fw.flashMiB - 0x1900000;
    Meets 0x0C22 2
      (fun c u => pn c 0 % 65536 = 0 ∧ 1 ≤ pn c 1 ∧ pn c 1 ≤ 64 ∧ pn c 0 + 65536 * pn c 1 ≤ size u ∧ u.fw.ops = []
        ∧ u.dev.powerFail = false))
    ∧ (Meets 0x0C23 0
      (fun _ _ => True))
    ∧ (Meets 0x0C00 2
      (fun c u => 2 ≤ pn c 0 ∧ pn c 0 ≤ 2048 ∧ pn c 1 < 2 ∧ u.fw.locked = false ∧ u.fw.flashOk = true))
    ∧ (Meets 0x0C00 2
      (fun c u => 2 ≤ pn c 0 ∧ pn c 0 ≤ 2048 ∧ pn c 1 < 2 ∧ u.fw.locked = true))
    ∧ (Meets 0x0C00 2
      (fun c u => 2 ≤ pn c 0 ∧ pn c 0 ≤ 2048 ∧ pn c 1 < 2 ∧ u.fw.locked = false ∧ u.fw.flashOk = false))
    ∧ (∃ (u : State) (t : Tack), u.dev.mode ≠ .remount ∧ u.fw.active = some t)
    ∧ (Meets 0x0C01 4
      (fun c u => pn c 0 = (heldBlocks u).length + pendingBlocks u ∧ pn c 0 < imageCount u ∧ pn c 0 ≤ 2047 ∧ 1 ≤ pn c 0
        ∧ (p64 c 1).toNat % 4096 = 0 ∧ (p64 c 1).toNat + 4096 ≤ stagingSize ∧ u.dev.dramOk = true ∧ (openLoad u).isSome
        ∧ stagingBad u (p64 c 1).toNat 4096 = false ∧ crc32c (stagingRead u (p64 c 1).toNat 4096) = pw c 3))
    ∧ (Meets 0x0C01 4
      (fun c u => pn c 0 < (heldBlocks u).length ∧ pn c 0 ≤ 2047 ∧ (p64 c 1).toNat % 4096 = 0 ∧ (p64 c 1).toNat + 4096 ≤ stagingSize
        ∧ u.dev.dramOk = true))
    ∧ (Meets 0x0C01 4
      (fun c u => (heldBlocks u).length + pendingBlocks u < pn c 0 ∧ pn c 0 ≤ 2047 ∧ (p64 c 1).toNat % 4096 = 0
        ∧ (p64 c 1).toNat + 4096 ≤ stagingSize))
    ∧ (Meets 0x0C02 0
      (fun _ _ => True))
    ∧ (∃ (n : Nat), n ≤ 63 ∧ Meets 0x0C03 (1 + n)
      (fun c _ => pn c 0 = n ∧ ∀ w ∈ c.params.drop 1, w.toNat ≤ 63))
    ∧ (∃ (h : Nat) (l : List Nat), Meets 0x0C04 0
      (fun _ u => u.fw.chain = h :: l ∧ heldBlocks u ≠ [] ∧ u.fw.resume = none ∧ reachable u h = true))
    ∧ (let unlocked (u : State) : Prop := u.herd.minority = false ∧ u.fw.locked = false;
    Meets 0x0C05 1
      (fun _ u => unlocked u ∧ u.tan.joined = false ∧ (fwSlot u (1 - u.fw.running)).state = 2 ∧ u.fw.act = none ∧ u.fw.pair = none))
    ∧ (Meets 0x0C05 1
      (fun _ u => u.herd.minority = true))
    ∧ (let unlocked (u : State) : Prop := u.herd.minority = false ∧ u.fw.locked = false;
    Meets 0x0C05 1
      (fun _ u => unlocked u ∧ (fwSlot u (1 - u.fw.running)).state ≠ 2))
    ∧ (Meets 0x0C06 2
      (fun c u => pn c 0 < 2 ∧ pn c 1 ≤ 63 ∧ u.fw.locked = false ∧ (vaultSlot u (pn c 1)).state = 1 ∧ (vaultSlot u (pn c 1)).typ = 3))
    ∧ (let unlocked (u : State) : Prop := u.herd.minority = false ∧ u.fw.locked = false;
    Meets 0x0C10 1
      (fun _ u => unlocked u))
    ∧ (let unlocked (u : State) : Prop := u.herd.minority = false ∧ u.fw.locked = false;
    ∃ (t : Tack), Meets 0x0C11 1
      (fun c u => pw c 0 = 0 ∧ unlocked u ∧ u.fw.prev = some t ∧ u.fw.revertible = true ∧ u.fw.act = none ∧ u.fw.ops = []))
    ∧ (let unlocked (u : State) : Prop := u.herd.minority = false ∧ u.fw.locked = false;
    Meets 0x0C11 1
      (fun c u => pn c 0 < 2 ∧ unlocked u ∧ u.fw.revertible = false))
    ∧ (∃ (a : Tack) (p : Tack), Meets 0x0C12 0
      (fun _ u => u.fw.active = some a ∧ u.fw.prev = some p))
    ∧ (Meets 0x0C13 2
      (fun c _ => pw c 0 = 1))
    ∧ (Meets 0x0C13 2
      (fun c _ => pw c 0 = 0 ∧ pw c 1 = 0x756E6C6B))
    ∧ (Meets 0x0C13 2
      (fun c _ => pw c 0 = 0 ∧ pw c 1 ≠ 0x756E6C6B)) :=
  ⟨⟨pkt [40890384, 4080], ready, by decide⟩,
   ⟨pkt [0, 4], withOp (.erase 400 1), by decide⟩,
   ⟨pkt [0, 4], withFw { ready.fw with reerase := [400] }, by decide⟩,
   ⟨pkt [40894464, 4], ready, by decide⟩,
   ⟨1, by decide, by decide, pkt [40894460, 4, 0], ready, by decide⟩,
   ⟨1, by decide, by decide, pkt [0, 4, 0], { ready with mem := { ready.mem with flash := [(0, 0)] } }, by decide⟩,
   ⟨pkt [36700160, 64], ready, by decide⟩,
   ⟨pkt [], ready, by decide⟩,
   ⟨pkt [2048, 1], ready, by decide⟩,
   ⟨pkt [2048, 1], withFw { ready.fw with locked := true }, by decide⟩,
   ⟨pkt [2048, 1], withFw { ready.fw with flashOk := false }, by decide⟩,
   ⟨withFw { ready.fw with active := some {} }, {}, by decide⟩,
   ⟨pkt [1, 0, 0, crc32c (memRead dramBlank loading.mem.dram stagingBase 4096)], loading, ⟨by decide, by decide, by decide, by decide, by decide, by decide, by decide, by decide, by decide, by decide, block_accepted _ rfl⟩⟩,
   ⟨pkt [0, 0, 0, 0], loading, by decide⟩,
   ⟨pkt [1, 0, 0, 0], ready, by decide⟩,
   ⟨pkt [], ready, by decide⟩,
   ⟨63, by decide, pkt (List.replicate 64 63), ready, ⟨by decide, by decide, by simp [pkt]⟩⟩,
   ⟨63, List.nil, pkt [], routed { loading.fw with chain := [63] }, by decide⟩,
   ⟨pkt [0], withFw { ready.fw with slots := [(0, { state := 2 }), (1, { state := 2 })] }, by decide⟩,
   ⟨pkt [0], minor, by decide⟩,
   ⟨pkt [0], ready, by decide⟩,
   ⟨pkt [1, 63], setSlot 63 { state := 1, typ := 3 } ready, by decide⟩,
   ⟨pkt [0], ready, by decide⟩,
   ⟨{}, pkt [0], withFw { ready.fw with prev := some {}, revertible := true }, by decide⟩,
   ⟨pkt [0], ready, by decide⟩,
   ⟨{}, {}, pkt [], withFw { ready.fw with active := some {}, prev := some {} }, by decide⟩,
   ⟨pkt [1, 0], ready, by decide⟩,
   ⟨pkt [0, 0x756E6C6B], ready, by decide⟩,
   ⟨pkt [0, 0], ready, by decide⟩⟩

/-- States and operands that meet the hypotheses of Obligations.FlashEventsAct, clause by clause. -/
theorem witness_FlashEventsAct :
    (∃ (a : Nat) (l : List Byte) (q : Nat) (t : BitVec 16) (s : State), s.fw.ops = [{ kind := .program a l, cmd := some (q, t), begun := true }] ∧ s.fw.reads = [])
    ∧ (∃ (k : Nat) (n : Nat) (q : Nat) (t : BitVec 16) (s : State), s.fw.ops = [{ kind := .erase k n, cmd := some (q, t), begun := true }] ∧ s.fw.reads = [] ∧ 0x190 ≤ k ∧ Memory.wf 0xFF#8 s.mem.flash = true)
    ∧ (∃ (v : Tack) (l : Word) (q : Nat) (t : BitVec 16) (s : State), s.fw.ops = [{ kind := .tackSave l false, cmd := some (q, t), tack := some v, begun := true }] ∧ s.fw.reads = [])
    ∧ (∃ (k : Nat) (n : Nat) (q : Nat) (t : BitVec 16) (s : State), s.fw.ops = [{ kind := .fwBegin k n false, cmd := some (q, t), begun := true }] ∧ s.fw.reads = [])
    ∧ (∃ (o : FlashOp) (a : Nat) (l : List Byte) (q : Nat) (t : BitVec 16) (s : State), s.fw.ops = [o] ∧ o = { kind := .program a l, cmd := some (q, t), begun := true } ∧ s.fw.reads = [])
    ∧ (∃ (k : Nat) (s : State), s.dev.dataReady = true ∧ k ∈ s.fw.reerase ∧ 0x190 ≤ k ∧ Memory.wf 0xFF#8 s.mem.flash = true)
    ∧ (∃ (k : Nat) (s : State), k ∉ s.fw.reerase)
    ∧ (∃ (s : State), s.fw.policy = true ∧ s.vault.rootOk = false)
    ∧ (∃ (x : BlockIn) (s : State), s.tan.joined = false ∧ x.bytes.length = 4096 ∧ crc32c x.bytes = x.crc ∧ s.fw.flashOk = true)
    ∧ (∃ (x : BlockIn) (s : State), s.tan.joined = false ∧ crc32c x.bytes ≠ x.crc)
    ∧ (∃ (x : BlockIn) (k : Nat) (s : State), (heldBlocks s).length ≤ x.num ∧ x.num ≠ 0 ∧ openLoad s = some k ∧ x.num = (heldBlocks s).length + pendingBlocks s ∧ x.num < imageCount s)
    ∧ (∃ (src : Fin 64) (e : Word) (l : List Nat) (s : State), s.tan.joined = false ∧ s.fw.chainState = 1 ∧ 0 < s.fw.chainTries ∧ s.fw.chain = src.val :: l ∧ oldEpoch s src e = false)
    ∧ (∃ (src : Fin 64) (e : Word) (s : State), s.tan.joined = false ∧ oldEpoch s src e = true)
    ∧ (∃ (n : Nat) (s : State), s.fw.resume = none ∧ imageCount s ≤ n)
    ∧ (∃ (s : State), periodDue .chainAck 100000000 s = false)
    ∧ (∃ (s : State), s.fw.chainState = 1 ∧ 0 < s.fw.chainTries ∧ periodDue .chainAck 100000000 s = true)
    ∧ (∃ (h : Nat) (l : List Nat) (s : State), s.fw.chain = h :: l ∧ s.fw.resume = none)
    ∧ (∃ (q : Nat) (t : BitVec 16) (l : Word) (t0 : BitVec 64) (s : State), s.fw.act = some (q, t, l, t0) ∧ s.fw.actRan = false ∧ s.dev.actPause = false ∧ othersRun s q t = false ∧ s.tan.joined = false)
    ∧ (∃ (q : Nat) (t : BitVec 16) (l : Word) (t0 : BitVec 64) (s : State), s.fw.act = some (q, t, l, t0) ∧ s.fw.actRan = false ∧ s.dev.actPause = false ∧ reached s (t0 + 2000000000) = true)
    ∧ (∃ (q : Nat) (t : BitVec 16) (l : Word) (t0 : BitVec 64) (s : State), s.fw.act = some (q, t, l, t0) ∧ s.dev.actPause = true) :=
  ⟨⟨0, [], 0, 9, withOp (.program 0 []), by decide⟩,
   ⟨400, 1, 0, 9, withOp (.erase 400 1), by decide⟩,
   ⟨{}, 7, 0, 9, withFw { ready.fw with ops := [{ kind := .tackSave 7 false, cmd := some (0, 9), tack := some {}, begun := true }] }, by decide⟩,
   ⟨1, 2, 0, 9, withOp (.fwBegin 1 2 false), by decide⟩,
   ⟨{ kind := .program 0 [], cmd := some (0, 9), begun := true }, 0, [], 0, 9, withOp (.program 0 []), by decide⟩,
   ⟨400, withFw { ready.fw with reerase := [400] }, by decide⟩,
   ⟨400, ready, by decide⟩,
   ⟨withFw { ready.fw with policy := true }, by decide⟩,
   block_of (List.replicate 4096 0) List.length_replicate,
   ⟨{ src := 63, num := 0, count := 2, crc := 1, bytes := [], rest := [] }, ready, by decide⟩,
   ⟨{ src := 63, num := 1, count := 2, crc := 0, bytes := [], rest := [] }, 1, loading, by decide⟩,
   ⟨63, 0, [], withFw { ready.fw with chainState := 1, chainTries := 1, chain := [63] }, by decide⟩,
   ⟨63, 0, setPeer ready 63 { epoch := some 1 }, by decide⟩,
   ⟨0, ready, by decide⟩,
   ⟨ranNow .chainAck ready, by decide⟩,
   ⟨withFw { ready.fw with chainState := 1, chainTries := 1 }, by decide⟩,
   ⟨63, [], withFw { ready.fw with chain := [63] }, by decide⟩,
   ⟨0, 9, 0, 0, withFw { ready.fw with act := some (0, 9, 0, 0) }, by decide⟩,
   ⟨0, 9, 0, 0, later 2000000000 (withFw { ready.fw with act := some (0, 9, 0, 0) }), by decide⟩,
   ⟨0, 9, 0, 0, { withFw { ready.fw with act := some (0, 9, 0, 0) } with dev := { ready.dev with actPause := true } }, by decide⟩⟩

/-- States and operands that meet the hypotheses of Obligations.InvariantKept, clause by clause. -/
theorem witness_InvariantKept :
    (∃ (s : State) (t : State), StateOk s ∧ step s = .next t) :=
  ⟨ready, _, ⟨by decide, by decide, by decide, by decide, fun n => by show 0#32 &&& ~~~ trbDefined n = 0#32; simp, by decide⟩, rfl⟩

/-- States and operands that meet the hypotheses of Obligations.CommandsComplete, clause by clause. -/
theorem witness_CommandsComplete :
    (∃ (i : Instr), wellFormed i = true)
    ∧ (∃ (i : Instr), wellFormed i = false)
    ∧ (∃ (s : State), s.dev.mode ≠ .stall)
    ∧ (∃ (s : State), s.dev.mode ≠ .stall)
    ∧ (let free (c : Packet) (u : State) : Prop := pn c 0 ≤ 3 ∧ draining u (pn c 0) = false;
    ∃ (n : Nat), n ≤ 4 ∧ Meets 0x0204 (2 + n)
      (fun c u => free c u ∧ pn c 1 = n ∧ ∀ i, i < n → pn c (2 + i) < 256))
    ∧ (let free (c : Packet) (u : State) : Prop := pn c 0 ≤ 3 ∧ draining u (pn c 0) = false;
    Meets 0x0206 3
      (fun c u => free c u ∧ 3 ≤ pn c 1 ∧ pn c 1 ≤ 6 ∧ 40 ≤ pn c 2 ∧ pn c 2 ≤ 200))
    ∧ (let free (c : Packet) (u : State) : Prop := pn c 0 ≤ 3 ∧ draining u (pn c 0) = false;
    Meets 0x0207 2
      (fun c u => free c u ∧ 1 ≤ pn c 1 ∧ pn c 1 ≤ 4096))
    ∧ (let free (c : Packet) (u : State) : Prop := pn c 0 ≤ 3 ∧ draining u (pn c 0) = false;
    Meets 0x0208 4
      (fun c u => free c u ∧ 34 ≤ pn c 1 ∧ pn c 1 ≤ 63 ∧ 34 ≤ pn c 2 ∧ pn c 2 ≤ 63 ∧ pn c 3 < 4))
    ∧ (let free (c : Packet) (u : State) : Prop := pn c 0 ≤ 3 ∧ draining u (pn c 0) = false;
    Meets 0x0213 3
      (fun c u => free c u ∧ pn c 1 ≤ 2 ∧ 1 ≤ pn c 2 ∧ pn c 2 ≤ 1024))
    ∧ (let free (c : Packet) (u : State) : Prop := pn c 0 ≤ 3 ∧ draining u (pn c 0) = false;
    Meets 0x0222 2
      (fun c u => free c u ∧ pn c 1 < 65536))
    ∧ (Meets 0x0211 2
      (fun c u => pn c 0 ≤ 15 ∧ pn c 1 < 65536 ∧ plainOfPort u (pn c 0) = none))
    ∧ (Meets 0x0214 2
      (fun c u => pn c 0 ≤ 15 ∧ pn c 1 < 4 ∧ inEnabledPlain u (pn c 0) = false))
    ∧ (let free (c : Packet) (u : State) : Prop := pn c 0 ≤ 3 ∧ draining u (pn c 0) = false;
    ∃ (n : Nat), n ≤ 128 ∧ Meets 0x0230 (3 + n)
      (fun c u => free c u ∧ pn c 1 ≤ 63 ∧ pn c 2 = n ∧ swapPending u (pn c 0) false = false))
    ∧ (Meets 0x0232 3
      (fun c _ => pn c 0 ≤ 3 ∧ pn c 1 ≤ 63 ∧ pn c 2 < 2))
    ∧ (Meets 0x0202 1
      (fun c _ => pn c 0 ≤ 3))
    ∧ (Meets 0x0212 1
      (fun c _ => pn c 0 ≤ 15))
    ∧ (Meets 0x0242 0
      (fun _ _ => True))
    ∧ (Meets 0x0250 2
      (fun c _ => pn c 0 ≤ 3 ∧ pn c 1 < 2))
    ∧ (let free (c : Packet) (u : State) : Prop := pn c 0 ≤ 3 ∧ draining u (pn c 0) = false;
    let cfg (c : Packet) (u : State) : PlainCfg := plainCfg u (pn c 0);
    Meets 0x0200 3
      (fun c u => free c u ∧ pn c 1 < 65536 ∧ pn c 2 = 0 ∧ (cfg c u).enabled = false
          ∧ ∀ n ∈ maskList (pw c 1), plainOfPort u n = none ∨ plainOfPort u n = some (pn c 0)))
    ∧ (let free (c : Packet) (u : State) : Prop := pn c 0 ≤ 3 ∧ draining u (pn c 0) = false;
    Meets 0x0201 2
      (fun c u => free c u ∧ pn c 1 = 0 ∧ (∀ w ∈ u.rx.drains, w.tag ≠ c.tag) ∧ ∀ t ∈ u.rx.tracks, t.plain ≠ pn c 0))
    ∧ (let free (c : Packet) (u : State) : Prop := pn c 0 ≤ 3 ∧ draining u (pn c 0) = false;
    let cfg (c : Packet) (u : State) : PlainCfg := plainCfg u (pn c 0);
    Meets 0x0203 5
      (fun c u => free c u ∧ (cfg c u).chainMask &&& ~~~ chainWords c &&& allChains u (pn c 0) = 0#128))
    ∧ (let free (c : Packet) (u : State) : Prop := pn c 0 ≤ 3 ∧ draining u (pn c 0) = false;
    let cfg (c : Packet) (u : State) : PlainCfg := plainCfg u (pn c 0);
    Meets 0x0205 3
      (fun c u => free c u ∧ pw c 1 &&& 0xFFFF00F0#32 = 0#32 ∧ pn c 2 < 2 ∧ (cfg c u).gridMask &&& (pw c 1).setWidth 4 = (cfg c u).gridMask
          ∧ (cfg c u).sfMask &&& (pw c 1 >>> 8).setWidth 8 = (cfg c u).sfMask
          ∧ fitsBudget u (pn c 0) { cfg c u with gridMask := (pw c 1).setWidth 4, sfMask := (pw c 1 >>> 8).setWidth 8 } = true))
    ∧ (let free (c : Packet) (u : State) : Prop := pn c 0 ≤ 3 ∧ draining u (pn c 0) = false;
    let cfg (c : Packet) (u : State) : PlainCfg := plainCfg u (pn c 0);
    Meets 0x0233 4
      (fun c u => free c u ∧ pn c 3 < 2 ∧ beamsBelow (p64 c 1) (cfg c u).beams = p64 c 1
          ∧ (cfg c u).beamMask &&& p64 c 1 = (cfg c u).beamMask ∧ fitsBudget u (pn c 0) { cfg c u with beamMask := p64 c 1 } = true))
    ∧ (let cfg (c : Packet) (u : State) : PlainCfg := plainCfg u (pn c 0);
    Meets 0x0240 2
      (fun c u => pn c 1 < 2 ∧ searchLoadAll u ≤ 1088 * maskCount (paddocksIn
            { u with cfg := { u.cfg with rx := { u.cfg.rx with padOut := u.cfg.rx.padOut ||| pw c 0 } } })
          ∧ (∀ t ∈ u.rx.tracks, bit (pw c 0) (t.num / 128) = false) ∧ ∀ w ∈ u.rx.drains, w.tag ≠ c.tag))
    ∧ (Meets 0x0241 1
      (fun _ _ => True))
    ∧ (Meets 0x0210 1
      (fun c u => pn c 0 < 65536 ∧ (∀ n ∈ maskList (pw c 0), inEnabledPlain u n = true ∧ (portRun u n).lane ≠ 0)
          ∧ (∀ p ∈ plainsNamed u (pw c 0), draining u p = false) ∧ spreadPlains (sendSysref (pw c 0) u) (pw c 0) = []))
    ∧ (let free (c : Packet) (u : State) : Prop := pn c 0 ≤ 3 ∧ draining u (pn c 0) = false;
    ∃ (c : Packet) (s : State), clear 0x0231 6 c s ∧ free c (takeHead 0x0231 c s) ∧ 1 ≤ pn c 1 ∧ pn c 1 ≤ 64 ∧ pn c 2 ≤ 7 ∧ pn c 5 < 256 ∧ asnAhead (takeHead 0x0231 c s) (asnWords c) = true ∧ swapPending (takeHead 0x0231 c s) (pn c 0) false = false ∧ activationRefused (takeHead 0x0231 c s) (pn c 0) (pn c 1) = false ∧ bankCrc (rxPlain (takeHead 0x0231 c s) (pn c 0)).shadow (pn c 1) (chainsOf (takeHead 0x0231 c s) (pn c 0)) = pw c 3)
    ∧ (∃ (i : LinkItem) (rest : List LinkItem) (s : State), s.rx.linkq = i :: rest)
    ∧ (∃ (s : State), s.tan.joined = false)
    ∧ (∃ (n : Fin 16) (slot : Nat) (stop : BitVec 64) (s : State), (netRun s n).prev = some (slot, stop) ∧ reached s stop = true)
    ∧ (∃ (id : BitVec 16) (i : Image) (s : State), imageAt s id.toNat = some i ∧ i.state = 1 ∧ i.todo = [] ∧ blockFlying s i.id = false)
    ∧ (∃ (id : BitVec 16) (i : Image) (s : State), imageAt s id.toNat = some i ∧ i.state = 2 ∧ reached s i.deadline = true ∧ i.reports = 0)
    ∧ (∃ (a : Nat) (l : List Byte) (q : Nat) (t : BitVec 16) (s : State), s.fw.ops = [{ kind := .program a l, cmd := some (q, t), begun := true }] ∧ s.fw.reads = [])
    ∧ (∃ (k : Nat) (s : State), s.dev.dataReady = true ∧ k ∈ s.fw.reerase ∧ 0x190 ≤ k ∧ Memory.wf 0xFF#8 s.mem.flash = true)
    ∧ (∃ (x : BlockIn) (s : State), s.tan.joined = false ∧ x.bytes.length = 4096 ∧ crc32c x.bytes = x.crc ∧ s.fw.flashOk = true)
    ∧ (∃ (src : Fin 64) (e : Word) (l : List Nat) (s : State), s.tan.joined = false ∧ s.fw.chainState = 1 ∧ 0 < s.fw.chainTries ∧ s.fw.chain = src.val :: l ∧ oldEpoch s src e = false)
    ∧ (∃ (s : State), s.fw.chainState = 1 ∧ 0 < s.fw.chainTries ∧ periodDue .chainAck 100000000 s = true)
    ∧ (∃ (q : Nat) (t : BitVec 16) (l : Word) (t0 : BitVec 64) (s : State), s.fw.act = some (q, t, l, t0) ∧ s.fw.actRan = false ∧ s.dev.actPause = false ∧ othersRun s q t = false ∧ s.tan.joined = false)
    ∧ (∃ (q : Nat) (t : BitVec 16) (l : Word) (t0 : BitVec 64) (s : State), s.fw.act = some (q, t, l, t0) ∧ s.fw.actRan = false ∧ s.dev.actPause = false ∧ reached s (t0 + 2000000000) = true)
    ∧ (∃ (q : Nat) (t : BitVec 16) (l : Word) (t0 : BitVec 64) (s : State), s.fw.act = some (q, t, l, t0) ∧ s.dev.actPause = true) :=
  ⟨⟨.gtCaptureRead 0, by decide⟩,
   ⟨.gtClear 0 0, by decide⟩,
   ⟨ready, by decide⟩,
   ⟨ready, by decide⟩,
   ⟨4, by decide, pkt [3, 4, 255, 0, 0, 0], ready, by decide⟩,
   ⟨pkt [3, 6, 200], ready, by decide⟩,
   ⟨pkt [3, 4096], ready, by decide⟩,
   ⟨pkt [3, 34, 63, 3], ready, by decide⟩,
   ⟨pkt [3, 2, 1024], ready, by decide⟩,
   ⟨pkt [3, 65535], ready, by decide⟩,
   ⟨pkt [15, 65535], ready, by decide⟩,
   ⟨pkt [15, 3], ready, by decide⟩,
   ⟨1, by decide, pkt [3, 63, 1, 9], ready, by decide⟩,
   ⟨pkt [3, 63, 1], ready, by decide⟩,
   ⟨pkt [3], ready, by decide⟩,
   ⟨pkt [15], ready, by decide⟩,
   ⟨pkt [], ready, by decide⟩,
   ⟨pkt [3, 1], ready, by decide⟩,
   ⟨pkt [3, 65535, 0], ready, by decide⟩,
   ⟨pkt [0, 0], plainOn, by decide⟩,
   ⟨pkt [3, 0, 0, 0, 0xFFFFFFFF], ready, by decide⟩,
   ⟨pkt [3, 0xFF0F, 1], ready, by decide⟩,
   ⟨pkt [3, 0, 0, 1], ready, by decide⟩,
   ⟨pkt [0, 1], plainOn, by decide⟩,
   ⟨pkt [0xFFFFFFFF], ready, by decide⟩,
   ⟨pkt [1], plainOn, by
      refine ⟨by decide, by decide, by decide, by decide, List.filter_eq_nil_iff.mpr fun p hp => ?_⟩
      have h : p < 4 := List.mem_range.mp hp
      interval_cases p <;> rw [Bool.not_eq_true] <;> exact spread_of_equal _ _ rfl⟩,
   ⟨pkt [3, 64, 7, 0, 0, 0], ready, by decide⟩,
   ⟨{}, [], { ready with rx := { ready.rx with linkq := [{}] } }, by decide⟩,
   ⟨ready, by decide⟩,
   ⟨15, 63, 0, setNet netOn 15 { prev := some (63, 0) }, by decide⟩,
   ⟨9, { id := 9, state := 1 }, withImage { id := 9, state := 1 }, by decide⟩,
   ⟨9, { id := 9, state := 2 }, withImage { id := 9, state := 2 }, by decide⟩,
   ⟨0, [], 0, 9, withOp (.program 0 []), by decide⟩,
   ⟨400, withFw { ready.fw with reerase := [400] }, by decide⟩,
   block_of (List.replicate 4096 0) List.length_replicate,
   ⟨63, 0, [], withFw { ready.fw with chainState := 1, chainTries := 1, chain := [63] }, by decide⟩,
   ⟨withFw { ready.fw with chainState := 1, chainTries := 1 }, by decide⟩,
   ⟨0, 9, 0, 0, withFw { ready.fw with act := some (0, 9, 0, 0) }, by decide⟩,
   ⟨0, 9, 0, 0, later 2000000000 (withFw { ready.fw with act := some (0, 9, 0, 0) }), by decide⟩,
   ⟨0, 9, 0, 0, { withFw { ready.fw with act := some (0, 9, 0, 0) } with dev := { ready.dev with actPause := true } }, by decide⟩⟩

/-- States and operands that meet the hypotheses of Obligations.CommandsKeepTheQueue, clause by clause. -/
theorem witness_CommandsKeepTheQueue :
    (∃ (i : Instr) (s t : State), exec i s = .next t)
    ∧ (∃ (s : State) (t : State), s.pending = [] ∧ step s = .next t) :=
  ⟨⟨.gtCaptureRead 0, ready, _, rfl⟩,
   ⟨ready, _, rfl, rfl⟩⟩

end Sys2Proof.Tests
end

section
/-! Settles Obligations.CtrlWriteInOrder and Obligations.PointerMismatchResets: what the rows that write CTRL do, and what a
pointer mismatch does. -/

namespace Sys2Proof.Proofs

open Sys2Proof.Machine

/-- The row of a binding and the rows of ARM, DROP_REST and RESET with their own bit set are one operation, the write of CTRL
(R48, R50, R53, R55). -/
theorem exec_of_ctrlRow {q : Fin 1024} {v : Word} {i : Instr} (s : State)
    (h : i = .consumerBinding q v ∨ (i = .arm q v ∧ bit v 12 = true) ∨ (i = .dropRest q v ∧ bit v 13 = true)
      ∨ (i = .ctrlReset q v ∧ bit v 14 = true)) :
    exec i s = .next (ctrlWrite q v s) := by
  rcases h with rfl | ⟨rfl, hbit⟩ | ⟨rfl, hbit⟩ | ⟨rfl, hbit⟩
  case inl => rfl
  case inr.inl => exact if_pos hbit
  case inr.inr.inl => exact if_pos hbit
  case inr.inr.inr => exact if_pos hbit

/-- Settles O7: every one of the four rows is the write of CTRL, whose parts stand in the order of R510. -/
theorem ctrlWriteInOrder : Obligations.CtrlWriteInOrder := by
  intro q v s i hrow
  rw [exec_of_ctrlRow s hrow, ctrlWrite]

theorem exec_queuePointerMismatch (q : Fin 1024) (s : State) :
    exec (.queuePointerMismatch q) s = .next (pointerMismatch q s) := rfl

/-- Settles O8: the row is the pointer mismatch of R49, which empties the queue, raises PTR_ERR and then posts the event. -/
theorem pointerMismatchResets : Obligations.PointerMismatchResets := by
  intro q s
  rw [exec_queuePointerMismatch, pointerMismatch]

end Sys2Proof.Proofs
end

section
/-! Rules of the semaphores (R60-R62): what an attempt and a release give, what resolving one request and all requests of an
instant changes, and the order in which the requests of an instant are resolved. -/

namespace Sys2Proof.Proofs

open Sys2Proof.Machine Sys2Proof.Laws

/-! ### One semaphore -/

theorem acquireSem_of_held {v : Sem} {a h : BitVec 8} (hv : v.holder = some h) :
    acquireSem v a = (if h = a then 0 else 1, v) := by
  simp only [acquireSem, hv]
  split <;> rfl

theorem acquireSem_of_free {v : Sem} {a : BitVec 8} (hv : v.holder = none) :
    acquireSem v a = (if v.abandoned then 2 else 0, { holder := some a, abandoned := false }) := by
  rw [acquireSem, hv]

theorem releaseSem_of_holder {v : Sem} {a : BitVec 8} (hv : v.holder = some a) :
    releaseSem v a = { v with holder := none } := if_pos hv

theorem releaseSem_of_not_holder {v : Sem} {a : BitVec 8} (hv : v.holder ≠ some a) : releaseSem v a = v := if_neg hv

/-- A result code and a holder fit the low half of the 64-bit word that a read of SEM_ACQ returns. -/
theorem setWidth_w32_result {r : Nat} (hr : r ≤ 2) (h : BitVec 8) :
    (w32 (r + 256 * h.toNat)).setWidth 64 = BitVec.ofNat 64 (r + 256 * h.toNat) := by
  have hh : h.toNat < 256 := h.isLt
  apply BitVec.eq_of_toNat_eq
  simp only [w32, BitVec.toNat_setWidth, BitVec.toNat_ofNat]
  omega

/-- The word of an attempt at a held semaphore: 0 for the holder itself and 1 for any other agent, and the holder (R60). -/
theorem acquireWord_of_held {v : Sem} {a h : BitVec 8} (hv : v.holder = some h) :
    (acquireWord v a).setWidth 64 = BitVec.ofNat 64 ((if h = a then 0 else 1) + 256 * h.toNat) := by
  simp only [acquireWord, acquireSem_of_held hv, hv]
  exact setWidth_w32_result (by split <;> omega) h

/-- The word of an attempt at a free semaphore: 2 where it was abandoned and 0 otherwise, and the new holder (R60, R63). -/
theorem acquireWord_of_free {v : Sem} {a : BitVec 8} (hv : v.holder = none) :
    (acquireWord v a).setWidth 64 = BitVec.ofNat 64 ((if v.abandoned then 2 else 0) + 256 * a.toNat) := by
  simp only [acquireWord, acquireSem_of_free hv]
  exact setWidth_w32_result (by split <;> omega) a

/-! ### The requests of an instant -/

/-- What a request makes of its semaphore: the result code that goes back, and the semaphore after it. -/
def requestResult (s : State) (r : Nat × Nat × Bool) : Nat × Sem :=
  if r.2.2 then (0, releaseSem (sem s r.1) (BitVec.ofNat 8 (64 + r.2.1)))
  else acquireSem (sem s r.1) (BitVec.ofNat 8 (64 + r.2.1))

@[simp] theorem sem_resolveRequest (s : State) (r : Nat × Nat × Bool) (k : Nat) :
    sem (resolveRequest s r) k = if k = r.1 then (requestResult s r).2 else sem s k := by
  unfold resolveRequest
  rw [sem_originate]
  exact sem_setSem s r.1 k (requestResult s r).2

theorem resolveRequest_semAnswers (s : State) (r : Nat × Nat × Bool) :
    (resolveRequest s r).out.semAnswers = s.out.semAnswers ++ [(r.2.1, r.1, (requestResult s r).1)] := by
  unfold resolveRequest
  rw [originate_semAnswers]
  rfl

/-- Resolving a request changes its semaphore and what has left the device alone. -/
theorem resolveRequest_eq (s : State) (r : Nat × Nat × Bool) :
    resolveRequest s r = { s with sem := (resolveRequest s r).sem, out := (resolveRequest s r).out } := by
  unfold resolveRequest
  rw [originate_eq]
  rfl

@[simp] theorem resolveRequest_semReq (s : State) (r : Nat × Nat × Bool) : (resolveRequest s r).semReq = s.semReq := by
  rw [resolveRequest_eq]

theorem foldl_resolveRequest_semReq (l : List (Nat × Nat × Bool)) (s : State) :
    (l.foldl resolveRequest s).semReq = s.semReq := by
  induction l generalizing s with
  | nil => rfl
  | cons r l ih => rw [List.foldl_cons, ih, resolveRequest_semReq]

/-- The requests that stay are those of agents whose code is not below a. -/
theorem resolveBelow_semReq (a : Nat) (s : State) :
    (resolveBelow a s).semReq = s.semReq.filter (fun r => !(64 + r.2.1 < a)) :=
  foldl_resolveRequest_semReq _ _

theorem requestOrder_nil : requestOrder [] = [] := by
  simp [requestOrder]

/-- Where no request comes from an agent below code a there is nothing to resolve. -/
theorem resolveBelow_of_none_below {a : Nat} {s : State} (h : ∀ r ∈ s.semReq, a ≤ 64 + r.2.1) : resolveBelow a s = s := by
  have hbelow : s.semReq.filter (fun r => 64 + r.2.1 < a) = [] :=
    List.filter_eq_nil_iff.mpr fun r hr => by simpa using h r hr
  have hrest : s.semReq.filter (fun r => !(64 + r.2.1 < a)) = s.semReq :=
    List.filter_eq_self.mpr fun r hr => by simpa using h r hr
  rw [resolveBelow, hbelow, hrest, requestOrder_nil, List.foldl_nil]

theorem resolveBelow_idem (a : Nat) (s : State) : resolveBelow a (resolveBelow a s) = resolveBelow a s := by
  apply resolveBelow_of_none_below
  intro r hr
  rw [resolveBelow_semReq, List.mem_filter] at hr
  simpa using hr.2

/-- Every herd ID is below 64, so that the end of an instant resolves all its requests. -/
theorem resolveRequests_eq {l : List (Nat × Nat × Bool)} (s : State) (h : ∀ r ∈ l, r.2.1 < 64) :
    resolveRequests { s with semReq := l } = (requestOrder l).foldl resolveRequest { s with semReq := [] } := by
  have hbelow : l.filter (fun r => 64 + r.2.1 < 256) = l :=
    List.filter_eq_self.mpr fun r hr => by have := h r hr; simp; omega
  have hrest : l.filter (fun r => !(64 + r.2.1 < 256)) = [] :=
    List.filter_eq_nil_iff.mpr fun r hr => by have := h r hr; simp; omega
  rw [resolveRequests, resolveBelow, hbelow, hrest]

/-! ### The order of R62 -/

/-- The requests of the herd IDs below k, the lower ID first; requestOrder is the case k = 64. -/
def orderBelow (k : Nat) (l : List (Nat × Nat × Bool)) : List (Nat × Nat × Bool) :=
  (List.range k).flatMap (fun h => l.filter (fun r => r.2.1 = h))

theorem requestOrder_eq (l : List (Nat × Nat × Bool)) : requestOrder l = orderBelow 64 l := rfl

theorem orderBelow_succ (k : Nat) (l : List (Nat × Nat × Bool)) :
    orderBelow (k + 1) l = orderBelow k l ++ l.filter (fun r => r.2.1 = k) := by
  simp [orderBelow, List.range_succ]

theorem orderBelow_of_all_ge {k : Nat} {l : List (Nat × Nat × Bool)} (h : ∀ r ∈ l, k ≤ r.2.1) : orderBelow k l = [] := by
  refine List.flatMap_eq_nil_iff.mpr fun n hn => List.filter_eq_nil_iff.mpr fun r hr => ?_
  have hlt : n < k := List.mem_range.mp hn
  have hge : k ≤ r.2.1 := h r hr
  simp; omega

/-- A request of the lowest herd ID comes first. -/
theorem orderBelow_cons {k : Nat} {r : Nat × Nat × Bool} {l : List (Nat × Nat × Bool)} (hk : r.2.1 < k)
    (hl : ∀ x ∈ l, r.2.1 ≤ x.2.1) : orderBelow k (r :: l) = r :: orderBelow k l := by
  induction k with
  | zero => omega
  | succ k ih =>
    rw [orderBelow_succ, orderBelow_succ]
    rcases Nat.lt_succ_iff_lt_or_eq.mp hk with hlt | rfl
    · have hne : r.2.1 ≠ k := Nat.ne_of_lt hlt
      rw [ih hlt, List.filter_cons_of_neg (by simpa using hne), List.cons_append]
    · have hcons : orderBelow r.2.1 (r :: l) = [] := orderBelow_of_all_ge (by simpa using hl)
      rw [hcons, orderBelow_of_all_ge hl, List.filter_cons_of_pos (by simp), List.nil_append, List.nil_append]

theorem requestOrder_singleton {r : Nat × Nat × Bool} (h : r.2.1 < 64) : requestOrder [r] = [r] := by
  rw [requestOrder_eq, orderBelow_cons h (by simp), ← requestOrder_eq, requestOrder_nil]

/-- Two requests of one instant are resolved the lower herd ID first. -/
theorem requestOrder_pair {r x : Nat × Nat × Bool} (h : r.2.1 < x.2.1) (hx : x.2.1 < 64) : requestOrder [r, x] = [r, x] := by
  rw [requestOrder_eq, orderBelow_cons (h.trans hx) (by simpa using h.le), ← requestOrder_eq, requestOrder_singleton hx]

/-- The order in which two requests of different agents arrived does not matter. -/
theorem requestOrder_swap {r x : Nat × Nat × Bool} (h : r.2.1 ≠ x.2.1) : requestOrder [x, r] = requestOrder [r, x] := by
  unfold requestOrder
  congr 1
  funext n
  by_cases hr : r.2.1 = n
  · have hx : x.2.1 ≠ n := fun e => h (hr.trans e.symm)
    simp [hr, hx]
  · simp [List.filter_cons, hr]

/-- The one request of an instant, resolved as the instant ends. -/
theorem resolveRequests_singleton {r : Nat × Nat × Bool} (s : State) (h : r.2.1 < 64) :
    resolveRequests { s with semReq := [r] } = resolveRequest { s with semReq := [] } r := by
  rw [resolveRequests_eq s (by simpa using h), requestOrder_singleton h]
  rfl

/-- Two requests of one instant, in whichever order they arrived, are resolved the lower herd ID first. -/
theorem resolveRequests_pair {r x : Nat × Nat × Bool} {l : List (Nat × Nat × Bool)} (s : State) (h : r.2.1 < x.2.1)
    (hx : x.2.1 < 64) (hl : l = [r, x] ∨ l = [x, r]) :
    resolveRequests { s with semReq := l } = resolveRequest (resolveRequest { s with semReq := [] } r) x := by
  have hr : r.2.1 < 64 := h.trans hx
  have horder : requestOrder l = [r, x] := by
    rcases hl with rfl | rfl
    · exact requestOrder_pair h hx
    · rw [requestOrder_swap h.ne, requestOrder_pair h hx]
  have hall : ∀ y ∈ l, y.2.1 < 64 := by
    rcases hl with rfl | rfl
    · simp [hr, hx]
    · simp [hr, hx]
  rw [resolveRequests_eq s hall, horder]
  rfl

end Sys2Proof.Proofs
end

section
/-! Settles Obligations.SemaphoresActForAgents, one theorem for each clause of it. -/

namespace Sys2Proof.Proofs

open Sys2Proof.Machine Sys2Proof.Laws

theorem exec_semAcq (n : Fin 64) (a : Agent) (s : State) :
    exec (.semAcq n a) s = .next (acquireRead n (agentCode a) (resolveBelow (agentCode a).toNat s)) := rfl

theorem exec_semRel (n : Fin 64) (a : Agent) (v : Word) (s : State) :
    exec (.semRel n a v) s = .next (if bit v 0 then setSem s n (releaseSem (sem s n) (agentCode a)) else s) := rfl

theorem exec_semaphoreRequest (n peer : Fin 64) (r : Bool) (s : State) :
    exec (.semaphoreRequest n peer r) s = .next { mirrorHerd (.semaphore n peer r) s with
      semReq := (mirrorHerd (.semaphore n peer r) s).semReq ++ [(n.val, peer.val, r)] } := rfl

/-- Outside a tandem no input is mirrored. -/
theorem mirrorHerd_of_not_joined {m : HerdIn} {s : State} (h : s.tan.joined = false) : mirrorHerd m s = s := by
  simp [mirrorHerd, mirrorOut, h]

theorem sem_acquireRead (n k : Nat) (a : BitVec 8) (s : State) :
    sem (acquireRead n a s) k = if k = n then (acquireSem (sem s n) a).2 else sem s k := by
  rw [acquireRead, sem_recordRead, sem_setSem]

/-- The read of a semaphore by an agent before which no other request of the instant comes. -/
theorem semAcq_answers (n : Fin 64) (a : Agent) (s : State) (h : ∀ r ∈ s.semReq, (agentCode a).toNat ≤ 64 + r.2.1) :
    ∃ t w, exec (.semAcq n a) s = .next t ∧
      t.out = { s.out with reads := s.out.reads ++ [w] } ∧ (∀ k, k ≠ n.val → sem t k = sem s k)
      ∧ t = { s with sem := t.sem, out := t.out }
      ∧ match (sem s n).holder with
        | some h => sem t n = sem s n ∧ w = BitVec.ofNat 64 ((if h = agentCode a then 0 else 1) + 256 * h.toNat)
        | none => (sem t n).holder = some (agentCode a) ∧ (sem t n).abandoned = false
            ∧ w = BitVec.ofNat 64 ((if (sem s n).abandoned then 2 else 0) + 256 * (agentCode a).toNat) := by
  refine ⟨acquireRead n (agentCode a) s, (acquireWord (sem s n) (agentCode a)).setWidth 64, ?_, rfl, ?_, rfl, ?_⟩
  · rw [exec_semAcq, resolveBelow_of_none_below h]
  · intro k hk
    rw [sem_acquireRead, if_neg hk]
  · have hn : sem (acquireRead n (agentCode a) s) n = (acquireSem (sem s n) (agentCode a)).2 := by
      rw [sem_acquireRead, if_pos rfl]
    rw [hn]
    cases hv : (sem s n).holder with
    | none => exact ⟨by rw [acquireSem_of_free hv], by rw [acquireSem_of_free hv], acquireWord_of_free hv⟩
    | some h => exact ⟨by rw [acquireSem_of_held hv], acquireWord_of_held hv⟩

theorem semRel_by_holder (n : Fin 64) (a : Agent) (v : Word) (s : State) (hbit : bit v 0 = true)
    (hv : (sem s n).holder = some (agentCode a)) :
    exec (.semRel n a v) s = .next (setSem s n { sem s n with holder := none }) := by
  rw [exec_semRel, if_pos hbit, releaseSem_of_holder hv]

/-- A read of SEM_ACQ stands behind the requests of the instant from agents with lower codes (R62). -/
theorem semAcq_after_requests_below (n : Fin 64) (a : Agent) (s : State) :
    exec (.semAcq n a) s = exec (.semAcq n a) (resolveBelow (agentCode a).toNat s) := by
  rw [exec_semAcq, exec_semAcq, resolveBelow_idem]

/-- A release by another agent than the holder changes no semaphore (R61). -/
theorem semRel_by_other (n : Fin 64) (a : Agent) (v : Word) (s : State) (hv : (sem s n).holder ≠ some (agentCode a)) :
    ∃ t, exec (.semRel n a v) s = .next t ∧ (∀ k, sem t k = sem s k) ∧ t = { s with sem := t.sem } := by
  refine ⟨_, exec_semRel n a v s, ?_, ?_⟩
  · intro k
    rw [releaseSem_of_not_holder hv]
    split
    · rw [sem_setSem, ite_eq_right_iff]
      exact fun hk => by rw [hk]
    · rfl
  · split <;> rfl

theorem semaphoreRequest_waits (n peer : Fin 64) (r : Bool) (s : State) (h : s.tan.joined = false) :
    exec (.semaphoreRequest n peer r) s = .next { s with semReq := s.semReq ++ [(n.val, peer.val, r)] } := by
  rw [exec_semaphoreRequest, mirrorHerd_of_not_joined h]

theorem requestResult_acquire (s : State) (n h : Nat) :
    requestResult s (n, h, false) = acquireSem (sem s n) (BitVec.ofNat 8 (64 + h)) := rfl

theorem requestResult_release (s : State) (n h : Nat) :
    requestResult s (n, h, true) = (0, releaseSem (sem s n) (BitVec.ofNat 8 (64 + h))) := rfl

/-- A request that waits has not touched the semaphores yet. -/
theorem sem_semReq (s : State) (l : List (Nat × Nat × Bool)) (k : Nat) : sem { s with semReq := l } k = sem s k := rfl

/-- The only request of an instant changes its own semaphore alone, and clears the list of requests. -/
theorem resolveRequests_singleton_frame {r : Nat × Nat × Bool} (s : State) (h : r.2.1 < 64) :
    (∀ k, k ≠ r.1 → sem (resolveRequests { s with semReq := [r] }) k = sem s k)
      ∧ resolveRequests { s with semReq := [r] }
          = { s with
              sem := (resolveRequests { s with semReq := [r] }).sem
              semReq := []
              out := (resolveRequests { s with semReq := [r] }).out } := by
  rw [resolveRequests_singleton s h]
  refine ⟨fun k hk => ?_, resolveRequest_eq _ r⟩
  rw [sem_resolveRequest, if_neg hk, sem_semReq]

theorem peerAcquire_of_free (n peer : Fin 64) (s : State) (hv : (sem s n).holder = none) (ha : (sem s n).abandoned = false) :
    let t := resolveRequests { s with semReq := [(n.val, peer.val, false)] }
    (sem t n).holder = some (BitVec.ofNat 8 (0x40 + peer.val)) ∧ t.semReq = []
      ∧ (∀ k, k ≠ n.val → sem t k = sem s k) ∧ t.out.semAnswers = s.out.semAnswers ++ [(peer.val, n.val, 0)]
      ∧ t = { s with sem := t.sem, semReq := [], out := t.out } := by
  obtain ⟨hothers, hrest⟩ := resolveRequests_singleton_frame (r := (n.val, peer.val, false)) s peer.isLt
  refine ⟨?_, by rw [hrest], hothers, ?_, hrest⟩
  · rw [resolveRequests_singleton s peer.isLt, sem_resolveRequest, if_pos rfl, requestResult_acquire, sem_semReq,
      acquireSem_of_free hv]
  · rw [resolveRequests_singleton s peer.isLt, resolveRequest_semAnswers, requestResult_acquire, sem_semReq,
      acquireSem_of_free hv, ha]
    rfl

theorem peerRelease_by_holder (n peer : Fin 64) (s : State) (hv : (sem s n).holder = some (BitVec.ofNat 8 (0x40 + peer.val))) :
    let t := resolveRequests { s with semReq := [(n.val, peer.val, true)] }
    (sem t n).holder = none ∧ (∀ k, k ≠ n.val → sem t k = sem s k)
      ∧ t = { s with sem := t.sem, semReq := [], out := t.out } := by
  refine ⟨?_, resolveRequests_singleton_frame (r := (n.val, peer.val, true)) s peer.isLt⟩
  rw [resolveRequests_singleton s peer.isLt, sem_resolveRequest, if_pos rfl, requestResult_release, sem_semReq,
    releaseSem_of_holder hv]

/-- Of two peers that ask for a free semaphore at one instant the lower herd ID gets it (R62): it is resolved first, and the
other then finds the semaphore held. -/
theorem lowerPeer_acquires (n a b : Fin 64) (l : List (Nat × Nat × Bool)) (s : State) (hv : (sem s n).holder = none)
    (hab : a < b) (hl : l = [(n.val, a.val, false), (n.val, b.val, false)] ∨ l = [(n.val, b.val, false), (n.val, a.val, false)]) :
    (sem (resolveRequests { s with semReq := l }) n).holder = some (BitVec.ofNat 8 (0x40 + a.val)) := by
  have hfirst : sem (resolveRequest { s with semReq := [] } (n.val, a.val, false)) n
      = { holder := some (BitVec.ofNat 8 (64 + a.val)), abandoned := false } := by
    rw [sem_resolveRequest, if_pos rfl, requestResult_acquire, sem_semReq, acquireSem_of_free hv]
  rw [resolveRequests_pair s hab b.isLt hl, sem_resolveRequest, if_pos rfl, requestResult_acquire, hfirst,
    acquireSem_of_held rfl]

/-- Settles O9, clause by clause. -/
theorem semaphoresActForAgents : Obligations.SemaphoresActForAgents :=
  ⟨semAcq_answers, semRel_by_holder, semAcq_after_requests_below, semRel_by_other, semaphoreRequest_waits,
    peerAcquire_of_free, peerRelease_by_holder, lowerPeer_acquires⟩

end Sys2Proof.Proofs
end

section
/-! Settles the obligations about the machine as a whole that follow from the laws of the frozen part: one step, the invariant,
the state after reset, and the frame of what the device reports. -/

namespace Sys2Proof.Proofs

open Sys2Proof.Machine Sys2Proof.Laws Sys2Proof.Safety

-- Proofs one after another: the threads of many at once would pass the memory that the check allows.
set_option Elab.async false

/-! ### One step -/

/-- Settles O1: with a command in front, step is exec on the rest of the queue. -/
theorem stepRunsFrontCommand : Obligations.StepRunsFrontCommand := fun _ _ _ => rfl

theorem step_of_empty {s : State} (h : s.pending = []) : step s = .next (idle s) := by
  rw [step, h]

theorem idle_of_waiting {s : State} {w : WaitingCmd} (h : nextWaiting s = some w) : idle s = startWaiting w s := by
  rw [idle, h]

theorem idle_of_none_waiting {s : State} (h : nextWaiting s = none) : idle s = tick (endInstant s) := by
  rw [idle, h]

/-- Settles O2: on an empty queue the device idles, and what it does then is decided by the waiting command of R16. -/
theorem emptyQueueIdles : Obligations.EmptyQueueIdles := fun s hempty =>
  ⟨fun hnone => by rw [step_of_empty hempty, idle_of_none_waiting hnone],
    fun w hw => by rw [step_of_empty hempty, idle_of_waiting hw]⟩

/-! ### What every step keeps -/

/-- Taking the front command off the queue keeps the invariant: it reads no pending command. -/
theorem stateOk_pending {s : State} (l : List Instr) (h : StateOk s) : StateOk { s with pending := l } := h

/-- Settles O57: exec keeps the invariant whatever the command, and so does a step on an empty queue. -/
theorem invariantKept : Obligations.InvariantKept := by
  intro s t hok hstep
  cases hp : s.pending with
  | nil =>
    rw [step_of_empty hp, Host.Outcome.next.injEq] at hstep
    exact hstep ▸ (idle_kept (kept_refl s)).1 hok
  | cons c rest =>
    have hexec : exec c { s with pending := rest } = .next t := by rw [← hstep, step, hp]
    obtain ⟨hkeeps, -, -⟩ := exec_kept (kept_refl { s with pending := rest }) c t hexec
    exact hkeeps (stateOk_pending rest hok)

/-- Settles O59: neither exec nor a step on an empty queue changes the queue of commands or the serial number. -/
theorem commandsKeepTheQueue : Obligations.CommandsKeepTheQueue := by
  refine ⟨fun i s t hexec => (exec_kept (kept_refl s) i t hexec).2, fun s t hempty hstep => ?_⟩
  rw [step_of_empty hempty, Host.Outcome.next.injEq] at hstep
  obtain ⟨-, hpending, hserial⟩ := idle_kept (kept_refl s)
  exact hstep ▸ ⟨hpending.trans hempty, hserial⟩

/-! ### The state after reset -/

theorem que_reset (q : Nat) : que State.reset q = queueDefault q := rfl

/-- CTRL of a queue that nothing has written: MMIO pops it or Bridle reads it, and it is enabled if it is one of the 64 (R52). -/
theorem ctrlWord_queueDefault (q : Nat) :
    ctrlWord (queueDefault q) = if q < 16 then 0x8002#32 else if q < 64 then 0x8000#32 else 0#32 := by
  by_cases h16 : q < 16
  · have h64 : q < 64 := by omega
    simp [ctrlWord, queueDefault, h16, h64, flag, w32]
  · by_cases h64 : q < 64 <;> simp [ctrlWord, queueDefault, h16, h64, flag, w32]

/-- Settles O55: each part of the reset state is read off its definition. -/
theorem resetState : Obligations.ResetState :=
  ⟨fun q => ⟨rfl, by rw [que_reset, ctrlWord_queueDefault], rfl, rfl, rfl, rfl, rfl⟩, fun _ => ⟨rfl, rfl⟩,
    fun _ => ⟨rfl, rfl⟩, rfl, fun _ => ⟨rfl, rfl, rfl, rfl, rfl, rfl⟩, rfl, rfl, rfl, rfl, rfl⟩

/-- Settles O56: at reset memories, log and commands in flight are empty, no bit is set and TAMPER_COUNT is zero. -/
theorem invariantAtReset : Obligations.InvariantAtReset :=
  ⟨rfl, rfl, Nat.zero_le _, Nat.zero_le _, fun n => (BitVec.zero_and : 0#32 &&& ~~~ trbDefined n = 0#32), Nat.zero_le _⟩

/-! ### What a reply leaves unchanged -/

/-- From s to t a reply to a command of queue q: only queue q, Q32, the trouble block but its masks, what has left the device, the
replies held, the commands in flight and the digest items have changed, and no trouble bit has been cleared. -/
def Replied (q : Nat) (s t : State) : Prop :=
  t = { s with trb := t.trb, que := t.que, out := t.out, tan := t.tan, cmd := t.cmd }
    ∧ t.trb.masks = s.trb.masks ∧ (∀ k, k ≠ q → k ≠ 32 → que t k = que s k)
    ∧ t.tan = { s.tan with items := t.tan.items } ∧ t.cmd.forwarded = s.cmd.forwarded ∧ t.cmd.waiting = s.cmd.waiting
    ∧ (∀ c, trouble s c = true → trouble t c = true)

theorem Replied.trans {q : Nat} {s t u : State} (h : Replied q s t) (k : Replied q t u) : Replied q s u := by
  obtain ⟨h1, h2, h3, h4, h5, h6, h7⟩ := h
  obtain ⟨k1, k2, k3, k4, k5, k6, k7⟩ := k
  refine ⟨?_, k2.trans h2, fun n hq h32 => (k3 n hq h32).trans (h3 n hq h32), ?_, k5.trans h5, k6.trans h6,
    fun c hc => k7 c (h7 c hc)⟩
  · rw [k1, h1]
  · rw [k4, h4]

theorem replied_of_reported {q : Nat} {s t : State} (h : Reported [q, 32] s t) : Replied q s t := by
  obtain ⟨h1, h2, h3, h4⟩ := h
  refine ⟨?_, h2, fun k hq h32 => h3 k (by simp [hq, h32]), ?_, ?_, ?_, h4⟩ <;> rw [h1]

theorem noteDone_replied (q : Nat) (tag : BitVec 16) (s : State) : Replied q s (noteDone tag s) :=
  ⟨rfl, rfl, fun _ _ _ => rfl, rfl, rfl, rfl, fun _ h => h⟩

theorem cover_replied (q k : Nat) (ws : List Word) (s : State) : Replied q s (cover k ws s) := by
  unfold cover
  split
  · exact ⟨rfl, rfl, fun _ _ _ => rfl, rfl, rfl, rfl, fun _ h => h⟩
  · exact ⟨rfl, rfl, fun _ _ _ => rfl, rfl, rfl, rfl, fun _ h => h⟩

theorem originate_replied (q : Nat) (m : HerdMsg) (s : State) : Replied q s (originate m s) := by
  rcases originate_cases m s with h | h
  · rw [h]; exact ⟨rfl, rfl, fun _ _ _ => rfl, rfl, rfl, rfl, fun _ h => h⟩
  · rw [h]; exact ⟨rfl, rfl, fun _ _ _ => rfl, rfl, rfl, rfl, fun _ h => h⟩

theorem holdReply_replied (q : Nat) (e : InFlight) (final : Bool) (ws : List Word) (s : State) :
    Replied q s (holdReply e final ws s) := by
  unfold holdReply addInFlight
  dsimp only
  split
  · exact ⟨rfl, rfl, fun _ _ _ => rfl, rfl, rfl, rfl, fun _ h => h⟩
  · exact ⟨rfl, rfl, fun _ _ _ => rfl, rfl, rfl, rfl, fun _ h => h⟩

theorem sendReply_replied (e : InFlight) (st : Status) (r : List Word) (s : State) :
    Replied (e.queue + 16) s (sendReply e st r s) := by
  have hnoted : Replied (e.queue + 16) s (cover 2 [pair16 (statusCode st).toNat e.tag.toNat] (noteDone e.tag s)) :=
    (noteDone_replied _ _ _).trans (cover_replied _ _ _ _)
  unfold sendReply
  dsimp only
  split
  · exact hnoted
  · split
    · exact hnoted.trans (originate_replied _ _ _)
    · split
      · exact hnoted.trans (replied_of_reported (pushPacket_reported _ _ _))
      · exact hnoted.trans (holdReply_replied _ _ _ _ _)

/-- Settles O60: the frames of a trouble bit, of a packet pushed by the device, and of a reply. -/
theorem reportsFrame : Obligations.ReportsFrame := by
  refine ⟨fun b s => ?_, fun q l s => ?_, fun e st r s => sendReply_replied e st r s⟩
  · obtain ⟨hframe, hmasks, hque, hset⟩ := raise_reported b s
    exact ⟨hframe, hmasks, fun q hq => hque q (by simpa using hq), trouble_raise b s, hset⟩
  · obtain ⟨hframe, hmasks, hque, hset⟩ := pushBytes_reported q l s
    exact ⟨hframe, hmasks, fun k hq h32 => hque k (by simp [hq, h32]), hset⟩

end Sys2Proof.Proofs
end

section
/-! Rules for rows of the command table: what a clear command gives, from the parts of its row, the parts that most rows share
filled in; and what the checks of parameter words say. -/

namespace Sys2Proof.Proofs

open Sys2Proof.Machine Sys2Proof.Laws Sys2Proof.Safety

-- Proofs one after another: the threads of many at once would pass the memory that the check allows.
set_option Elab.async false

@[simp] theorem fits_iff {c : Packet} {i n : Nat} : fits c i n = true ↔ pn c i < 2 ^ n := decide_eq_true_iff

@[simp] theorem within_iff {c : Packet} {i lo hi : Nat} : within c i lo hi = true ↔ lo ≤ pn c i ∧ pn c i ≤ hi := by
  simp [within]

/-- A parameter word below 2^n is the n-bit number it holds. -/
theorem toNat_setWidth_pw {c : Packet} {i n : Nat} (h : pn c i < 2 ^ n) : ((pw c i).setWidth n).toNat = pn c i := by
  rw [BitVec.toNat_setWidth]
  exact Nat.mod_eq_of_lt h

section Rows

variable {i : Packet → Instr} {n : Nat} {pre : Packet → State → Prop} {words : Packet → State → List Word}
  {eff : Packet → State → State} {st : Status} (spec : CmdSpec)

/-- runs_of for a row of a fixed length whose host command forbids nothing but what pre rules out. -/
theorem runs_row (hv : ∀ c u, pre c u → spec.valid c = true)
    (ha : ∀ c u, pre c u → spec.run c u = { state := eff c u, status := .ok, results := words c u, later := false })
    (hr : ∀ c u, pre c u → spec.ready c u = true := by intros; rfl)
    (hp : ∀ c u, pre c u → spec.perm c u = none := by intros; rfl)
    (hh : ∀ c u, pre c u → spec.here c u = true := by intros; rfl)
    (hl : ∀ c u, pre c u → spec.len c = some n := by intros; rfl)
    (hi : ∀ c s, exec (i c) s = runCommand spec c s := by intros; rfl) (hk : spec.known = true := by rfl)
    (hc : ∀ i, spec.countAt = some i → i < n := by rintro _ ⟨⟩) : Runs i spec.op n pre words eff :=
  runs_of spec hi hk hl hc hv hh hp hr ha

/-- runsOn_of for such a row. -/
theorem runsOn_row (hv : ∀ c u, pre c u → spec.valid c = true) (ha : ∀ c u, pre c u → spec.run c u = runsOn (eff c u))
    (hr : ∀ c u, pre c u → spec.ready c u = true := by intros; rfl)
    (hp : ∀ c u, pre c u → spec.perm c u = none := by intros; rfl)
    (hh : ∀ c u, pre c u → spec.here c u = true := by intros; rfl)
    (hl : ∀ c u, pre c u → spec.len c = some n := by intros; rfl)
    (hi : ∀ c s, exec (i c) s = runCommand spec c s := by intros; rfl) (hk : spec.known = true := by rfl)
    (hc : ∀ i, spec.countAt = some i → i < n := by rintro _ ⟨⟩) : RunsOn i spec.op n pre eff :=
  runsOn_of spec hi hk hl hc hv hh hp hr fun c u h => by rw [ha c u h]; exact ⟨rfl, rfl⟩

/-- ends_of for such a row. -/
theorem ends_row (hv : ∀ c u, pre c u → spec.valid c = true) (ha : ∀ c u, pre c u → spec.run c u = ends st u)
    (hr : ∀ c u, pre c u → spec.ready c u = true := by intros; rfl)
    (hp : ∀ c u, pre c u → spec.perm c u = none := by intros; rfl)
    (hh : ∀ c u, pre c u → spec.here c u = true := by intros; rfl)
    (hl : ∀ c u, pre c u → spec.len c = some n := by intros; rfl)
    (hi : ∀ c s, exec (i c) s = runCommand spec c s := by intros; rfl) (hk : spec.known = true := by rfl)
    (hc : ∀ i, spec.countAt = some i → i < n := by rintro _ ⟨⟩) : Ends i spec.op n pre st :=
  ends_of spec hi hk hl hc hv hh hp hr ha

/-- A row that its own state check refuses. -/
theorem ends_notReady (hv : ∀ c u, pre c u → spec.valid c = true) (hr : ∀ c u, pre c u → spec.ready c u = false)
    (hp : ∀ c u, pre c u → spec.perm c u = none := by intros; rfl)
    (hh : ∀ c u, pre c u → spec.here c u = true := by intros; rfl)
    (hl : ∀ c u, pre c u → spec.len c = some n := by intros; rfl)
    (hi : ∀ c s, exec (i c) s = runCommand spec c s := by intros; rfl) (hk : spec.known = true := by rfl)
    (hc : ∀ i, spec.countAt = some i → i < n := by rintro _ ⟨⟩) : Ends i spec.op n pre .invalidState :=
  ends_check spec hi hk hl hc fun c u h =>
    .inr (.inr ⟨by rw [hv c u h, hh c u h]; rfl, hp c u h, hr c u h, rfl⟩)

/-- A row that its own permission check refuses. -/
theorem ends_notPermitted (hv : ∀ c u, pre c u → spec.valid c = true) (hp : ∀ c u, pre c u → spec.perm c u = some st)
    (hh : ∀ c u, pre c u → spec.here c u = true := by intros; rfl)
    (hl : ∀ c u, pre c u → spec.len c = some n := by intros; rfl)
    (hi : ∀ c s, exec (i c) s = runCommand spec c s := by intros; rfl) (hk : spec.known = true := by rfl)
    (hc : ∀ i, spec.countAt = some i → i < n := by rintro _ ⟨⟩) : Ends i spec.op n pre st :=
  ends_check spec hi hk hl hc fun c u h => .inr (.inl ⟨by rw [hv c u h, hh c u h]; rfl, hp c u h⟩)

end Rows

end Sys2Proof.Proofs
end

section
/-! Refutes Obligations.DeviceAndQueueCommandsRun: its clause on a queue reset gives a wrong count of drops for a packet that the
consumer has begun and whose further words are being discarded. -/

namespace Sys2Proof.Proofs

open Sys2Proof.Machine

-- Proofs one after another: the threads of many at once would pass the memory that the check allows.
set_option Elab.async false

/-- A queue whose consumer has begun its only packet, which was cut while its producer still pushed: no word is present, and the
words to come are discarded (R508). -/
def begunCutQueue : Queue := { begun := true, discard := true, pushAt := 1#64 }

/-- Refutes O3: a reset of begunCutQueue at another instant than its last push counts a drop, since the queue before the pushes of
that instant stands with no discard, where the clause says that no packet is open and nothing is counted. -/
theorem not_deviceAndQueueCommandsRun : ¬ Obligations.DeviceAndQueueCommandsRun := by
  intro h
  obtain ⟨-, -, -, hempty, -⟩ := h
  have hpush : begunCutQueue.pushAt ≠ 0#64 := by decide
  obtain ⟨-, -, -, -, -, hdrops⟩ := hempty 0#64 begunCutQueue hpush
  exact absurd hdrops (by decide)

end Sys2Proof.Proofs
end

section
/-! Frames: what a state keeps when only some of its parts are replaced, read off one equation between the states. -/

namespace Sys2Proof.Proofs

open Sys2Proof.Machine Sys2Proof.Laws

-- Proofs one after another: the threads of many at once would pass the memory that the check allows.
set_option Elab.async false

/-- What reads neither the queues, the trouble block nor what has left the device is as before a report. -/
theorem keeps_of_reported {α : Type} {l : List Nat} {s t : State} (h : Reported l s t) (P : State → α)
    (hP : ∀ s a b c, P { s with trb := a, que := b, out := c } = P s := by intros; rfl) : P t = P s := by
  rw [h.1, hP]

theorem keeps_raise {α : Type} (b : TrbBit) (s : State) (P : State → α)
    (hP : ∀ s a b c, P { s with trb := a, que := b, out := c } = P s := by intros; rfl) : P (raise b s) = P s :=
  keeps_of_reported (raise_reported b s) P hP

theorem keeps_raiseAll {α : Type} (l : List TrbBit) (s : State) (P : State → α)
    (hP : ∀ s a b c, P { s with trb := a, que := b, out := c } = P s := by intros; rfl) : P (raiseAll l s) = P s :=
  keeps_of_reported (raiseAll_reported l s) P hP

theorem keeps_pushWords {α : Type} (q : Nat) (ws : List QWord) (s : State) (P : State → α)
    (hP : ∀ s a b c, P { s with trb := a, que := b, out := c } = P s := by intros; rfl) : P (pushWords q ws s).1 = P s :=
  keeps_of_reported (pushWords_reported q ws s) P hP

theorem keeps_postEvent {α : Type} (code source : Nat) (d : Word) (s : State) (P : State → α)
    (hP : ∀ s a b c, P { s with trb := a, que := b, out := c } = P s := by intros; rfl) :
    P (postEvent code source d s) = P s :=
  keeps_of_reported (postEvent_reported code source d s) P hP

/-- What every step of a fold leaves as it is, the fold leaves as it is. -/
theorem keeps_foldl {α β γ : Type} (P : β → γ) {f : β → α → β} (hf : ∀ t x, P (f t x) = P t) (l : List α) (s : β) :
    P (l.foldl f s) = P s := by
  induction l generalizing s with
  | nil => rfl
  | cons x r ih => rw [List.foldl_cons, ih, hf]

end Sys2Proof.Proofs
end

section
/-! Settles Obligations.QueueWindowsMoveWords, Obligations.PopUnderrun and Obligations.PopNotServed: the host's windows. -/

namespace Sys2Proof.Proofs

open Sys2Proof.Machine Sys2Proof.Laws

-- Proofs one after another: the threads of many at once would pass the memory that the check allows.
set_option Elab.async false

theorem exec_push (q : Fin 1024) (d : BitVec 64) (s : State) : exec (.push q d) s = .next (hostPushOrHold q d false s) := rfl

theorem exec_pushLast (q : Fin 1024) (d : BitVec 64) (s : State) :
    exec (.pushLast q d) s = .next (hostPushOrHold q d true s) := rfl

theorem exec_pop (q : Fin 1024) (s : State) : exec (.pop q) s = .next (hostPop q s) := rfl

/-- A queue that the host may push into, enabled, with room for one word, and no packet of it being discarded (R45, R56). -/
structure PushFits (s : State) (q : Nat) : Prop where
  hosted : q < 16 ∨ 66 ≤ q
  consumer : (que s q).consumer = 0b10#2
  enabled : (que s q).enable = true
  keeps : (que s q).discard = false
  cap : overCap s q 1 = false
  pool : overPool s q 1 = false

/-- A push that fits appends the word. -/
theorem hostPushWord_of_fits {s : State} {q : Nat} (h : PushFits s q) (w : QWord) :
    hostPushWord q w s = settle q (appendWords (now s) [w] (que s q)) s := by
  have hopen : hostBarred q (que s q) = false := by
    have hrange : ¬ (16 ≤ q ∧ q < 66) := by have := h.hosted; omega
    simpa [hostBarred, h.consumer] using hrange
  have hword : pushWord q w s = (settle q (appendWords (now s) [w] (que s q)) s, []) := by
    simp [pushWord, h.keeps, h.enabled, h.cap, h.pool]
  simp [hostPushWord, hopen, hword, raiseAll]

theorem hostPush_last_of_fits {s : State} {q : Nat} (h : PushFits s q) (d : BitVec 64) :
    let w : QWord := { data := d, last := true, bytes := if (que s q).lastBytes = 0 then 8 else (que s q).lastBytes }
    let t := settle q (appendWords (now s) [w] (que s q)) s
    hostPush q d true s = setQue t q { que t q with lastBytes := 0 } := by
  dsimp only [hostPush]
  rw [if_pos rfl, hostPushWord_of_fits h]

theorem push_appends (q : Fin 1024) (d : BitVec 64) (s : State) (hmode : s.dev.mode ≠ .stall) (h : PushFits s q) :
    ∃ t, exec (.push q d) s = .next t ∧ (que t q).words = (que s q).words ++ [{ data := d, last := false, bytes := 8 }]
      ∧ (que t q).cap = (que s q).cap ∧ (que t q).drops = (que s q).drops
      ∧ (∀ k, k ≠ q.val → que t k = que s k) ∧ t = { s with que := t.que, out := t.out } := by
  refine ⟨_, by rw [exec_push, hostPushOrHold, if_neg hmode, hostPush, if_neg Bool.false_ne_true, hostPushWord_of_fits h], ?_⟩
  refine ⟨?_, ?_, ?_, fun k hk => by rw [que_settle, if_neg hk], settle_eq _ _ _⟩
  all_goals rw [que_settle, if_pos rfl]; rfl

theorem pushLast_appends (q : Fin 1024) (d : BitVec 64) (s : State) (hmode : s.dev.mode ≠ .stall) (h : PushFits s q) :
    ∃ t, exec (.pushLast q d) s = .next t
      ∧ (que t q).words = (que s q).words
          ++ [{ data := d, last := true, bytes := if (que s q).lastBytes = 0 then 8 else (que s q).lastBytes }]
      ∧ (que t q).lastBytes = 0 ∧ (que t q).cap = (que s q).cap ∧ (que t q).drops = (que s q).drops
      ∧ (∀ k, k ≠ q.val → que t k = que s k) ∧ t = { s with que := t.que, out := t.out } := by
  have hpush := hostPush_last_of_fits h d
  refine ⟨_, by rw [exec_pushLast, hostPushOrHold, if_neg hmode, hpush], ?_⟩
  refine ⟨?_, ?_, ?_, ?_, fun k hk => by rw [que_setQue, if_neg hk, que_settle, if_neg hk], ?_⟩
  case refine_5 =>
    conv_lhs => rw [settle_eq]
    rfl
  case refine_2 => rw [que_setQue, if_pos rfl]
  all_goals rw [que_setQue, if_pos rfl, que_settle, if_pos rfl]; rfl

theorem hostPop_of_visible {q : Nat} {s : State} {w : QWord} {r : List QWord} (hmmio : (que s q).consumer = 0b00#2)
    (hvis : visible (que s q) = true) (hwords : (que s q).words = w :: r) :
    hostPop q s = recordRead w.data (setQue s q
      { que s q with
        words := r, begun := !w.last, popped := if w.last then 0 else (que s q).popped + 1, lastPop := w.data
        popLast := w.last, popBytes := w.bytes % 8, popUnderrun := false }) := by
  simp [hostPop, popWord, hmmio, hvis, hwords]

theorem hostPop_of_not_visible {q : Nat} {s : State} (hmmio : (que s q).consumer = 0b00#2) (hvis : visible (que s q) = false) :
    hostPop q s = recordRead (que s q).lastPop (setQue s q (noteStatus (now s) 1#5
      { que s q with
        underrun := true, underruns := saturate 32 ((que s q).underruns + 1), popLast := false, popBytes := 0
        popUnderrun := true })) := by
  simp [hostPop, hmmio, hvis]

/-- A pop of a queue that MMIO serves takes its first visible word. -/
theorem pop_takes (q : Fin 1024) (s : State) (w : QWord) (r : List QWord) (hmmio : (que s q).consumer = 0b00#2)
    (hvis : visible (que s q) = true) (hwords : (que s q).words = w :: r) :
    ∃ t, exec (.pop q) s = .next t ∧ (que t q).words = r ∧ (que t q).lastPop = w.data ∧ (que t q).popLast = w.last
      ∧ (que t q).popBytes = w.bytes % 8 ∧ (que t q).popUnderrun = false ∧ (que t q).underrun = (que s q).underrun
      ∧ t.out = { s.out with reads := s.out.reads ++ [w.data] } ∧ (∀ k, k ≠ q.val → que t k = que s k)
      ∧ t = { s with que := t.que, out := t.out } := by
  refine ⟨_, by rw [exec_pop, hostPop_of_visible hmmio hvis hwords], ?_⟩
  simp only [que_recordRead, que_setQue, if_true, true_and]
  exact ⟨rfl, fun k hk => by rw [if_neg hk], rfl⟩

/-- Settles O4, a theorem for each of the three windows. -/
theorem queueWindowsMoveWords : Obligations.QueueWindowsMoveWords :=
  ⟨fun q d s hmode h1 h2 h3 h4 h5 h6 => push_appends q d s hmode ⟨h1, h2, h3, h4, h5, h6⟩,
    fun q d s hmode h1 h2 h3 h4 h5 h6 => pushLast_appends q d s hmode ⟨h1, h2, h3, h4, h5, h6⟩, pop_takes⟩

/-- Settles O5: with no visible word the last value is read again, and only the marks of the underrun change. -/
theorem popUnderrun : Obligations.PopUnderrun := by
  intro q s hmmio hvis
  refine ⟨_, by rw [exec_pop, hostPop_of_not_visible hmmio hvis], rfl, ?_⟩
  simp only [que_recordRead, que_setQue, if_true, noteStatus, true_and]
  exact ⟨fun k hk => by rw [if_neg hk], rfl⟩

/-- Settles O6: the consumer is asked for before anything is taken. -/
theorem popNotServed : Obligations.PopNotServed := by
  intro q s hother
  rw [exec_pop, hostPop, if_pos (by simpa using hother)]
  rfl

end Sys2Proof.Proofs
end

section
/-! Settles Obligations.HostAccessesAct: doorbells, BAR2 and unsupported requests. -/

namespace Sys2Proof.Proofs

open Sys2Proof.Machine Sys2Proof.Laws

-- Proofs one after another: the threads of many at once would pass the memory that the check allows.
set_option Elab.async false

theorem exec_bar2Write (off : BitVec 26) (b : Byte) (s : State) :
    exec (.bar2Write off [b]) s = .next (if inStaging (s.cfg.aperture.toNat + off.toNat)
      then writeStaging (s.cfg.aperture.toNat + off.toNat) [b] s
      else raise .aperture (writeStaging (s.cfg.aperture.toNat + off.toNat) [b] s)) := by
  have hbyte : [b].take (67108864 - off.toNat) = [b] := List.take_of_length_le (by have := off.isLt; simp; omega)
  change execBar2Write off [b] s = _
  unfold execBar2Write
  simp [hbyte]

theorem inStaging_iff {a : Nat} : inStaging a = true ↔ 0x738000000 ≤ a ∧ a < 0x7F8000000 := by
  simp only [inStaging, Bool.and_eq_true, decide_eq_true_eq]
  rfl

/-- A byte written inside the staging region. -/
theorem writeStaging_dram_inside {a : Nat} (h : inStaging a = true) (b : Byte) (s : State) :
    (writeStaging a [b] s).mem.dram = memSet dramBlank s.mem.dram a b := by
  obtain ⟨hlo, hhi⟩ := inStaging_iff.mp h
  have hskip : stagingBase - a = 0 := by simp [stagingBase]; omega
  have hkept : [b].take (stagingBase + stagingSize - a) = [b] := List.take_of_length_le (by simp [stagingBase, stagingSize]; omega)
  simp [writeStaging, hskip, hkept, memSetAll]

/-- A byte written outside it lands nowhere. -/
theorem writeStaging_dram_outside {a : Nat} (h : ¬ inStaging a = true) (b : Byte) (s : State) :
    (writeStaging a [b] s).mem.dram = s.mem.dram := by
  have hkept : ([b].drop (stagingBase - a)).take (stagingBase + stagingSize - (a + (stagingBase - a))) = [] := by
    rw [inStaging_iff] at h
    by_cases hlo : a < 0x738000000
    · rw [List.drop_of_length_le (by simp [stagingBase]; omega), List.take_nil]
    · have hspan : stagingBase + stagingSize - (a + (stagingBase - a)) = 0 := by simp [stagingBase, stagingSize]; omega
      rw [hspan, List.take_zero]
  simp [writeStaging, hkept, memSetAll]

/-- A read of a byte of the staging region whose word is intact. -/
theorem dramByte_staging {a : Nat} {s : State} (hlo : 0x738000000 ≤ a) (hhi : a < 0x7F8000000) (hok : a / 8 ∉ s.mem.bad) :
    dramByte s a = memGet 0x00#8 s.mem.dram a := by
  have hbyte : stagingByte s a = memGet 0x00#8 s.mem.dram a := by simp [stagingByte, hok, dramBlank]
  rw [← hbyte, dramByte, if_neg (by omega), if_neg (by omega), if_neg (by omega), if_neg (by omega), if_pos hhi]

/-- Behind the trouble log's state the logs region is reserved (R22). -/
theorem dramByte_reserved {a : Nat} {s : State} (h : 0x7FB004400 ≤ a) : dramByte s a = 0#8 := by
  rw [dramByte, if_neg (by omega), if_neg (by omega), if_neg (by omega), if_neg (by omega), if_neg (by omega), logsByte,
    if_neg (by omega), if_neg (by omega), if_neg (by omega), if_neg (by omega)]

theorem readBar2_one (off : Nat) (s : State) : readBar2 off 1 s = [dramByte s (s.cfg.aperture.toNat + off)] := rfl

theorem exec_unsupportedRequest {off : BitVec 20} {size : Nat} (h : supported off size = false) (wr : Bool) (s : State) :
    exec (.unsupportedRequest off size wr) s
      = .next (raise .pcieErr { s with host := { s.host with aerU := s.host.aerU ||| 0x00100000#32 } }) := by
  change execUnsupportedRequest off size wr s = _
  unfold execUnsupportedRequest
  split
  · next h' => exact absurd (h.symm.trans h') Bool.false_ne_true
  · rfl

/-- Settles O10, clause by clause. -/
theorem hostAccessesAct : Obligations.HostAccessesAct := by
  refine ⟨fun q n s e hmode hbound => ?_, fun off b s x hwf hx hlo hhi => ?_, fun off b s hout => ?_,
    fun off s hlo hhi hok => ?_, fun off s h => ?_, fun off size wr s h4 h8 => ?_⟩
  case refine_1 =>
    change execDoorbell q n s = _
    rw [execDoorbell, if_neg hmode, ringBell, hbound]
  case refine_2 =>
    have hin : inStaging (s.cfg.aperture.toNat + off.toNat) = true := inStaging_iff.mpr (by omega)
    refine ⟨_, by rw [exec_bar2Write, if_pos hin], ?_⟩
    rw [writeStaging_dram_inside hin, hx]
    refine ⟨?_, fun y hy => ?_, rfl⟩
    · rw [dramBlank, memGet_memSet _ _ _ _ _ hwf, if_pos rfl]
    · rw [dramBlank, memGet_memSet _ _ _ _ _ hwf, if_neg hy]
  case refine_3 =>
    have hnot : ¬ inStaging (s.cfg.aperture.toNat + off.toNat) = true := fun h => hout (inStaging_iff.mp h)
    refine ⟨_, by rw [exec_bar2Write, if_neg hnot], ?_, trouble_raise _ _⟩
    rw [keeps_raise _ _ (fun t => t.mem.dram), writeStaging_dram_outside hnot]
  case refine_4 => rw [readBar2_one, dramByte_staging hlo hhi hok]
  case refine_5 => rw [readBar2_one, dramByte_reserved h]
  case refine_6 =>
    have hnot : supported off size = false := by simpa [supported] using ⟨fun h h' => h4 ⟨h, h'⟩, fun h h' => h8 ⟨h, h'⟩⟩
    refine ⟨_, exec_unsupportedRequest hnot wr s, trouble_raise _ _, ?_⟩
    rw [(raise_reported _ _).1]

end Sys2Proof.Proofs
end

section
/-! How Bridle judges a clear command, whoever sent it. -/

namespace Sys2Proof.Proofs

open Sys2Proof.Machine Sys2Proof.Laws Sys2Proof.Safety

-- Proofs one after another: the threads of many at once would pass the memory that the check allows.
set_option Elab.async false

/-- What a clear command is judged by does not depend on the queues or on what the taking of its packet mirrors. -/
theorem clear_takeHead (op n : Nat) (c : Packet) (s : State) : clear op n c (takeHead op c s) = clear op n c s := by
  rw [takeHead_eq]
  rfl

/-- A clear command is met: it is served, and no earlier command holds it back. -/
theorem startCommand_of_clear {src : CmdSource} {spec : CmdSpec} {n : Nat} {c : Packet} {s : State}
    (h : clear spec.op n c s = true) :
    startCommand src spec c s = judgeOwn src spec c (if src = .host then takeHead spec.op c s else s) := by
  have hu : clear spec.op n c (if src = .host then takeHead spec.op c s else s) = true := by
    split
    · rw [clear_takeHead]; exact h
    · exact h
  obtain ⟨hserved, -⟩ := clear_parts h
  rw [startCommand, hserved, Bool.not_true, if_neg Bool.false_ne_true]
  generalize (if src = .host then takeHead spec.op c s else s) = u at hu
  obtain ⟨-, hbroadcast, htarget, hordered, -⟩ := clear_parts hu
  have hwait : mustWait spec c u = false := by rw [mustWait, hordered, Bool.false_and, Bool.false_and]
  simp [takeCommand, hwait, dispatchCommand, hbroadcast, htarget]

/-- A clear command of an opcode that no table defines ends at its place in R38. -/
theorem judgeOwn_of_unknown {src : CmdSource} {spec : CmdSpec} {n : Nat} {c : Packet} {s : State}
    (h : clear spec.op n c s = true) (hk : spec.known = false) :
    judgeOwn src spec c s = sendReply (entryOf src spec.op c) .invalidOpcode [] s := by
  obtain ⟨-, -, -, -, hcap, hpause, htrans, hlength, -⟩ := clear_parts h
  have hentry : entryCheck spec c s = some .invalidOpcode := by
    simp only [entryCheck, hpause, htrans, hlength, hk]
    simp
  rw [judgeOwn, hcap, if_neg Bool.false_ne_true, hentry]
  rfl

/-- A clear command of a defined opcode that its own row allows is executed; the reins check is for the host's own commands. -/
theorem judgeOwn_of_clear {src : CmdSource} {spec : CmdSpec} {n : Nat} {c : Packet} {s : State} (h : clear spec.op n c s = true)
    (hk : spec.known = true) (hl : spec.len c = some n) (hc : ∀ i, spec.countAt = some i → i < n) (hv : spec.valid c = true)
    (hh : spec.here c s = true) (hp : spec.perm c s = none) (hr : spec.ready c s = true) :
    judgeOwn src spec c s = execute src spec c s := by
  obtain ⟨-, -, -, -, hcap, hpause, htrans, hlength, hplen, hreserved, htag, hruns, hreins⟩ := clear_parts h
  have hentry : entryCheck spec c s = none := by
    simp only [entryCheck, hpause, htrans, hlength, hk, hl, hplen, hreserved, hv, countMissing_clear hc hplen]
    simp
  have hreinsCheck : reinsCheck src spec s = none := by
    rw [reinsCheck, Bool.and_assoc, hreins, Bool.and_false, if_neg Bool.false_ne_true]
  have hlast : lastCheck src spec c s = none := by
    simp [lastCheck, hreinsCheck, hh, hp, htag, hruns, hr]
  rw [judgeOwn, hcap, if_neg Bool.false_ne_true, hentry]
  simp only [judgeLast, hlast]

end Sys2Proof.Proofs
end

section
/-! Settles Obligations.CommandTrafficMoves. -/

namespace Sys2Proof.Proofs

open Sys2Proof.Machine Sys2Proof.Laws Sys2Proof.Safety

-- Proofs one after another: the threads of many at once would pass the memory that the check allows.
set_option Elab.async false

/-! ### Undefined opcodes and malformed packets -/

theorem undefinedOpcode_ends (op : BitVec 16) (c : Packet) (s : State) (hop : opcodeDefined op.toNat = false)
    (h : clear op.toNat c.params.length c s = true) :
    exec (.undefinedOpcode op c) s
      = .next (sendReply (entryOf .host op.toNat c) .invalidOpcode [] (takeHead op.toNat c s)) := by
  change execUndefinedOpcode op c s = _
  rw [execUndefinedOpcode, hop, if_neg Bool.false_ne_true, runCommand]
  have hstart := startCommand_of_clear (src := .host) (spec := undefinedSpec op.toNat) h
  have hjudge := judgeOwn_of_unknown (src := .host) (spec := undefinedSpec op.toNat) ((clear_takeHead _ _ c s).trans h) rfl
  rw [hstart, if_pos rfl, hjudge]
  rfl

/-- A packet too short for its header leaves its own queue at most (R26). -/
theorem takeShort_eq (q n : Nat) (s : State) : takeShort q n s = { s with que := (takeShort q n s).que } := by
  unfold takeShort
  split
  · split <;> rfl
  · rfl

theorem que_takeShort {q k : Nat} (h : k ≠ q) (n : Nat) (s : State) : que (takeShort q n s) k = que s k := by
  unfold takeShort
  split
  · split
    · rw [que_setQue, if_neg h]
    · rfl
  · rfl

theorem cmdMalformed_counted (q : Fin 16) (n : Nat) (s : State) (hn : n < 8) : ∃ t, exec (.cmdMalformed q n) s = .next t
    ∧ trouble t .cmdMalformed = true ∧ t.cmd = { s.cmd with malformed := min (s.cmd.malformed + 1) 0xFFFFFFFF }
    ∧ ∀ k, 16 ≤ k → k < 32 → que t k = que s k := by
  refine ⟨_, if_neg (by omega), trouble_raise _ _, ?_, fun k hlo hhi => ?_⟩
  · rw [keeps_raise _ _ State.cmd, takeShort_eq]
    rfl
  · rw [que_raise (by omega)]
    exact que_takeShort (by omega) n s

/-! ### Replies held and replies of other members -/

theorem takeFirst_head {α : Type} {p : α → Bool} {x : α} (h : p x = true) (l : List α) : takeFirst p (x :: l) = some (x, l) := by
  rw [takeFirst, if_pos h]

theorem replyRelease_posts (q : Fin 16) (h : HeldReply) (rest : List HeldReply) (s : State) (hheld : s.cmd.held = h :: rest)
    (hq : h.queue = q.val + 16) (horigin : h.origin = none) (hfinal : h.final = false ∨ rest = [])
    (hroom : overCap s (q.val + 16) ((h.words.length + 1) / 2) = false) :
    exec (.replyRelease q) s = .next (pushPacket (q.val + 16) h.words { s with cmd := { s.cmd with
      held := rest
      inFlight := s.cmd.inFlight.filter (fun e => !(e.queue + 16 = q.val + 16 && e.tag = h.tag && e.phase = .held)) } }) := by
  have hgo : replyMayGo h rest s = true := by
    rw [replyMayGo, hq, hroom]
    rcases hfinal with hf | hr
    · simp [hf]
    · simp [hr]
  change Host.Outcome.next (releaseReply (q.val + 16) s) = _
  have hfirst : takeFirst (fun h => h.queue = q.val + 16) (h :: rest) = some (h, rest) :=
    takeFirst_head (p := fun h => h.queue = q.val + 16) (decide_eq_true hq) rest
  rw [releaseReply, hheld, hfirst]
  simp only [hgo, if_true, postHeld, horigin, hq]

theorem mirrorOut_of_alone {x : Mirrored} {s : State} (h : s.tan.joined = false) : mirrorOut x s = s := by
  rw [mirrorOut, h, Bool.false_and, if_neg Bool.false_ne_true]

theorem mirrorHerd_of_alone {m : HerdIn} {s : State} (h : s.tan.joined = false) : mirrorHerd m s = s := mirrorOut_of_alone h

theorem nonHolder_of_alone {s : State} (h : s.tan.joined = false) : nonHolder s = false := by
  rw [nonHolder, h, Bool.false_and]

theorem cover_of_alone {k : Nat} {ws : List Word} {s : State} (h : s.tan.joined = false) : cover k ws s = s := by
  rw [cover, h, if_neg Bool.false_ne_true]

theorem pair16_of_lt {a b : Nat} (ha : a < 65536) (hb : b < 65536) : pair16 a b = BitVec.ofNat 32 (65536 * a + b) := by
  unfold pair16
  congr 1
  omega

theorem herdReply_posts (r : ReplyIn) (f : Forwarded) (rest : List Forwarded) (s : State) (hf : s.cmd.forwarded = f :: rest)
    (hpeer : f.peer = r.src.val) (htag : f.tag = r.tag) (hepoch : oldEpoch s r.src.val r.epoch = false)
    (hreply : f.noReply = false) (halone : s.tan.joined = false)
    (hroom : overCap s (f.queue + 16) ((r.results.length + 3) / 2) = false) :
    exec (.herdReply r) s = .next (pushPacket (f.queue + 16)
      ([BitVec.ofNat 32 (65536 * r.status.toNat + r.tag.toNat), w32 (67108864 * r.src.val + r.results.length)] ++ r.results)
      { s with cmd := { s.cmd with forwarded := rest } }) := by
  have hfirst : takeFirst (fun f => f.peer = r.src.val && f.tag = r.tag) (f :: rest) = some (f, rest) :=
    takeFirst_head (by simp [hpeer, htag]) rest
  change Host.Outcome.next (if oldEpoch (mirrorHerd (.reply r) s) r.src.val r.epoch then mirrorHerd (.reply r) s
    else takeReply r (mirrorHerd (.reply r) s)) = _
  rw [mirrorHerd_of_alone halone, hepoch, if_neg Bool.false_ne_true, takeReply, hf, hfirst]
  simp only [hreply, Bool.false_and, Bool.false_or]
  have hcount : (([pair16 r.status.toNat r.tag.toNat, w32 (67108864 * r.src.val + r.results.length)] ++ r.results).length + 1) / 2
      = (r.results.length + 3) / 2 := by simp
  have hroom' : overCap { s with cmd := { s.cmd with forwarded := rest } } (f.queue + 16) ((r.results.length + 3) / 2) = false := hroom
  rw [nonHolder_of_alone halone, if_neg Bool.false_ne_true, hcount, hroom', Bool.not_false, if_pos rfl, pair16_of_lt r.status.isLt r.tag.isLt]

/-! ### A command that comes over the herd -/

theorem originate_reply_of_alone {s : State} (h : s.tan.joined = false) (d : Nat) (ws : List Word) :
    originate (.reply d ws) s = sendHerd (.reply d ws) s := by
  simp [originate, nonHolder_of_alone h]

/-- The reply to a command of an entry device goes back to it (R31). -/
theorem sendReply_to_origin {e : InFlight} {d : Nat} {st : Status} {r : List Word} {s : State} (he : e.origin = some d)
    (hposts : postsNone e st (noteDone e.tag s) = false) (halone : s.tan.joined = false) :
    sendReply e st r s = sendHerd (.reply d (replyWords s e.tag st r)) (noteDone e.tag s) := by
  have hnoted : (noteDone e.tag s).tan.joined = false := halone
  rw [sendReply]
  simp only [cover_of_alone hnoted, hposts, he, originate_reply_of_alone hnoted, Bool.false_eq_true, if_false]
  rfl

theorem specOf_getIdentity : specOf 0x0001 = getIdentitySpec := rfl

theorem herdCommand_identifies (src : Fin 64) (c : Packet) (s : State) (h : clear 0x0001 0 c s = true) (hreply : noReply c = false)
    (halone : s.tan.joined = false) :
    ∃ t, exec (.herdCommand src 0x0001#16 c) s = .next t
      ∧ t.out.herd = s.out.herd ++ [.reply src.val ([BitVec.ofNat 32 c.tag.toNat, w32 (67108864 * ownHid s + 6)]
          ++ identityWords s)]
      ∧ (∀ k, que t k = que s k) ∧ t.cmd = { s.cmd with doneAt := now s, doneNow := t.cmd.doneNow } ∧ c.tag ∈ t.cmd.doneNow := by
  have hrun : execute (.peer src.val) getIdentitySpec c s
      = sendHerd (.reply src.val (replyWords s c.tag .ok (identityWords s))) (noteDone c.tag s) :=
    sendReply_to_origin (e := entryOf (.peer src.val) 0x0001 c) rfl (by simp [postsNone, entryOf, hreply]) halone
  refine ⟨execute (.peer src.val) getIdentitySpec c s, ?_, ?_⟩
  · change Host.Outcome.next (startCommand (.peer src.val) (specOf 0x0001) c (mirrorHerd (.command src 0x0001#16 c) s)) = _
    rw [mirrorHerd_of_alone halone, specOf_getIdentity, startCommand_of_clear (spec := getIdentitySpec) h,
      if_neg (by intro e; cases e), judgeOwn_of_clear (spec := getIdentitySpec) h rfl rfl (by rintro _ ⟨⟩) rfl rfl rfl rfl]
  · rw [hrun]
    refine ⟨?_, fun _ => rfl, rfl, List.mem_append_right _ (List.mem_singleton_self _)⟩
    have hstatus : pair16 (statusCode .ok).toNat c.tag.toNat = BitVec.ofNat 32 c.tag.toNat := by
      rw [pair16_of_lt (statusCode .ok).isLt c.tag.isLt, show (statusCode .ok).toNat = 0 from rfl, Nat.mul_zero, Nat.zero_add]
    change s.out.herd ++ [.reply src.val (replyWords s c.tag .ok (identityWords s))] = _
    rw [replyWords, hstatus]
    rfl

/-! ### The reset that RESET_DEVICE has asked for -/

section FlashFrames

variable {α : Type} (P : State → α) (hP : ∀ s a b c, P { s with mem := a, fw := b, free := c } = P s)

include hP

theorem keeps_journalUpTo (k n m : Nat) (s : State) : P (journalUpTo k n m s) = P s := by
  have hjournal : ∀ kind sector t, P (journal kind sector t) = P t := fun _ _ t => hP t t.mem _ t.free
  unfold journalUpTo
  split
  · refine keeps_foldl P (fun t i => ?_) _ _
    split
    · rw [hjournal]
    · rw [hjournal, hjournal]
  · exact keeps_foldl P (fun t i => by rw [hjournal, hjournal]) _ _

theorem keeps_flashWrite (addr : Nat) (l : List Byte) (s : State) : P (flashWrite addr l s) = P s := hP s _ s.fw s.free

theorem keeps_scramble (addr n : Nat) (s : State) : P (scramble addr n s) = P s := hP s _ s.fw _

theorem keeps_drawWord (s : State) : P (drawWord s).2 = P s := hP s s.mem s.fw _

/-- A flash operation cut short changes flash, its journal and the count of free values alone (R444, R470). -/
theorem keeps_cutOp (m : Nat) (completes : Bool) (s : State) : P (cutOp m completes s) = P s := by
  unfold cutOp
  split
  · split
    · rfl
    · split
      · unfold cutProgram
        dsimp only
        split
        · rw [keeps_flashWrite P hP, keeps_drawWord P hP]
        · rw [keeps_scramble P hP, keeps_flashWrite P hP, keeps_drawWord P hP]
      · rw [keeps_journalUpTo P hP, keeps_flashWrite P hP]
      · split
        · rw [keeps_journalUpTo P hP]
        · rfl
  · rfl

end FlashFrames

/-- The trouble log and its numbering outlast a device reset (R67). -/
theorem deviceReset_trb (saved : Bool) (s : State) : (deviceReset saved s).trb = keptTrouble s := by
  have hcut : (cutOp (sectorsEnded s).1 false (sectorsEnded s).2).trb = s.trb :=
    (keeps_cutOp State.trb (fun _ _ _ _ => rfl) _ _ _).trans rfl
  unfold deviceReset
  cases saved
  · change keptTrouble (cutOp _ false _) = _
    rw [keptTrouble, hcut, keptTrouble]
  · change keptTrouble (writeBackAll (cutOp _ false _)) = _
    rw [keptTrouble, writeBackAll, hcut, keptTrouble]

theorem deviceResetInstant_resets {s : State} {x : BitVec 64} (h : s.dev.resetPending = some x) (hx : reached s x = true) :
    exec .deviceResetInstant s = .next (deviceReset true s) := by
  change execDeviceResetInstant s = _
  rw [execDeviceResetInstant, h]
  simp [hx]

/-- Settles O11, clause by clause. -/
theorem commandTrafficMoves : Obligations.CommandTrafficMoves := by
  refine ⟨undefinedOpcode_ends, cmdMalformed_counted, replyRelease_posts, herdCommand_identifies, herdReply_posts,
    fun s x hpending hx => ⟨_, deviceResetInstant_resets hpending hx, rfl, rfl, rfl, rfl, rfl, ?_⟩⟩
  rw [deviceReset_trb]
  exact ⟨rfl, rfl, rfl⟩

end Sys2Proof.Proofs
end

section
/-! Settles Obligations.TroubleIsLogged. -/

namespace Sys2Proof.Proofs

open Sys2Proof.Machine Sys2Proof.Laws Sys2Proof.Safety

-- Proofs one after another: the threads of many at once would pass the memory that the check allows.
set_option Elab.async false

/-! ### Packets that the device pushes -/

theorem queueWords_length (l : List Byte) : (queueWords l).length = max 1 ((l.length + 7) / 8) := by
  simp [queueWords]

theorem eventBytes_length (s : State) (code source : Nat) (d : Word) : (eventBytes s code source d).length = 16 := by
  simp [eventBytes, wordBytes, leBytes]

/-- A packet that an enabled queue has room for sets no trouble bit (R45). -/
theorem pushWords_of_room {q : Nat} {ws : List QWord} {s : State} (henable : (que s q).enable = true)
    (hcap : overCap s q ws.length = false) (hpool : overPool s q ws.length = false) :
    pushWords q ws s = (settle q (appendWords (now s) ws (que s q)) s, []) := by
  simp [pushWords, henable, hcap, hpool]

theorem pushBytes_of_room {q : Nat} {l : List Byte} {s : State} (henable : (que s q).enable = true)
    (hcap : overCap s q (queueWords l).length = false) (hpool : overPool s q (queueWords l).length = false) :
    pushBytes q l s = settle q (appendWords (now s) (queueWords l) (que s q)) s := by
  rw [pushBytes, pushWords_of_room henable hcap hpool]
  rfl

/-! ### A bit that is not set yet -/

/-- The trouble block after a bit is set, noted and logged (R64, R66). -/
def loggedTrouble (b : TrbBit) (s : State) : State := appendLog b (markTrouble b (noteTrouble b s))

theorem raise_of_clear {b : TrbBit} {s : State} (h : trouble s b = false) :
    raise b s = if bit (trbMask s (trbReg b)) (trbPos b) then
        let p := pushWords 32 (queueWords (eventBytes (loggedTrouble b s) 0x0001 (trbReg b) (w32 (trbPos b))))
          (msi 0 (loggedTrouble b s))
        p.2.foldl (fun t c => raiseAt 3 c t) p.1
      else loggedTrouble b s := by
  rw [raise, raiseAt, h, if_neg Bool.false_ne_true]
  rfl

theorem loggedTrouble_of_room {b : TrbBit} {s : State} (h : s.trb.log.length < 1048576) :
    loggedTrouble b s = { s with trb := { s.trb with
      regs := tabSet s.trb.regs (trbReg b) (setBit (trbWord s (trbReg b)) (trbPos b) true)
      log := s.trb.log ++ [{ seq := s.trb.logNext, bit := b, absorbed := 0, time := now s }]
      logNext := s.trb.logNext + 1
      logPos := (s.trb.logPos + 1) % 1048576
      setAt := now s
      setNow := b :: (if s.trb.setAt = now s then s.trb.setNow else []) } } := by
  have hroom : ¬ logSize ≤ (markTrouble b (noteTrouble b s)).trb.log.length := Nat.not_le.mpr h
  rw [loggedTrouble, appendLog]
  simp only [hroom, decide_false, Bool.false_eq_true, if_false]
  rfl

/-! ### A bit that is set already -/

/-- Counting a further set changes nothing of the entries but the count (R66). -/
theorem absorb_go_keeps (b : TrbBit) (l : List LogEntry) :
    (absorb.go b l).map (fun e => (e.seq, e.bit, e.time)) = l.map (fun e => (e.seq, e.bit, e.time)) := by
  induction l with
  | nil => rfl
  | cons e r ih =>
    rw [absorb.go]
    split
    · rfl
    · rw [List.map_cons, List.map_cons, ih]

theorem raise_of_set {b : TrbBit} {s : State} (h : trouble s b = true) :
    raise b s = { s with trb := { s.trb with
      log := (absorb.go b s.trb.log.reverse).reverse, setAt := now s
      setNow := b :: (if s.trb.setAt = now s then s.trb.setNow else []) } } := by
  rw [raise, raiseAt, if_pos h]
  rfl

/-- Settles O14: the bit is logged where it was clear, and counted in its latest entry where it was set. -/
theorem troubleIsLogged : Obligations.TroubleIsLogged := by
  refine ⟨fun b s hclear henable hcap hpool hlog => ?_, fun b s hset => ⟨_, _, raise_of_set hset, ?_⟩⟩
  · rw [raise_of_clear hclear, ← loggedTrouble_of_room hlog]
    have hwords : (queueWords (eventBytes (loggedTrouble b s) 0x0001 (trbReg b) (w32 (trbPos b)))).length = 2 := by
      rw [queueWords_length, eventBytes_length]
      rfl
    split
    · rw [pushWords_of_room (s := msi 0 (loggedTrouble b s)) henable (hwords ▸ hcap) (hwords ▸ hpool)]
      exact (pushBytes_of_room (s := msi 0 (loggedTrouble b s)) henable (hwords ▸ hcap) (hwords ▸ hpool)).symm
    · rfl
  · have hmap : ((absorb.go b s.trb.log.reverse).reverse).map (fun e => (e.seq, e.bit, e.time))
        = s.trb.log.map (fun e => (e.seq, e.bit, e.time)) := by
      rw [List.map_reverse, absorb_go_keeps, List.map_reverse, List.reverse_reverse]
    exact ⟨by simpa using congrArg List.length hmap, hmap⟩

end Sys2Proof.Proofs
end

section
/-! Settles Obligations.FaultRowsAct. -/

namespace Sys2Proof.Proofs

open Sys2Proof.Machine Sys2Proof.Laws Sys2Proof.Safety

-- Proofs one after another: the threads of many at once would pass the memory that the check allows.
set_option Elab.async false

/-! ### Tracks and rings at a loss of clock -/

section TrackFrames

variable {α : Type} (P : State → α) (hP : ∀ s a b c d e, P { s with rx := a, trb := b, que := c, out := d, tan := e } = P s)

include hP

theorem keeps_postRecordTo (q p : Nat) (words : List Word) (payload : List Byte) (s : State) :
    P (postRecordTo q p words payload s) = P s := by
  have hcover : P (cover 1 words s) = P s := by
    unfold cover
    split
    · exact hP s s.rx s.trb s.que s.out _
    · rfl
  have hreport : ∀ s a b c, P { s with trb := a, que := b, out := c } = P s := fun s a b c => hP s s.rx a b c s.tan
  unfold postRecordTo
  dsimp only
  split
  · rw [keeps_raiseAll _ _ P hreport, keeps_pushWords _ _ _ P hreport, hcover]
  · have hcount : ∀ t, P (countRx 8 p t) = P t := fun t => hP t _ t.trb t.que t.out t.tan
    rw [hcount, keeps_raiseAll _ _ P hreport, keeps_pushWords _ _ _ P hreport, hcover]

/-- A track ended with its record touches the receive array and what is reported alone. -/
theorem keeps_endTrack (outcome status : Nat) (t : Track) (s : State) : P (endTrack outcome status t s) = P s := by
  rw [endTrack, postFailed, postRecord, keeps_postRecordTo P hP]
  exact hP s _ s.trb s.que s.out s.tan

end TrackFrames

theorem clockLossTracks_dev (s : State) : (clockLossTracks s).dev = s.dev := by
  unfold clockLossTracks
  refine Eq.trans (keeps_foldl State.dev (fun t p => ?_) _ _) (keeps_foldl State.dev (fun t x => ?_) _ _)
  · rfl
  · exact keeps_endTrack State.dev (fun _ _ _ _ _ _ => rfl) 3 0 x t

theorem exec_clkLoss_of_running {s : State} (h : s.dev.clkLost = false) :
    let s1 := endAllOnAir .failedHardware (gateRcks s)
    exec .clkLoss s = .next (raise .clkLoss (clockLossTracks { s1 with dev := { s1.dev with clkLost := true } })) := by
  change execClkLoss s = _
  rw [execClkLoss, h]
  rfl

theorem exec_clkLoss_of_lost {s : State} (h : s.dev.clkLost = true) : exec .clkLoss s = .next s := by
  change execClkLoss s = _
  rw [execClkLoss, if_pos h]

theorem clkLoss_loses (s : State) : ∃ t, exec .clkLoss s = .next t ∧ t.dev.clkLost = true := by
  cases h : s.dev.clkLost with
  | true => exact ⟨s, exec_clkLoss_of_lost h, h⟩
  | false =>
    refine ⟨_, exec_clkLoss_of_running h, ?_⟩
    rw [keeps_raise _ _ (fun t => t.dev.clkLost), clockLossTracks_dev]

theorem gateRcks_low (s : State) (r : Nat) (h : r < 4) : (rck (gateRcks s) r).low = true := by
  have hr : r = 0 ∨ r = 1 ∨ r = 2 ∨ r = 3 := by omega
  simp only [gateRcks, show List.range 4 = [0, 1, 2, 3] from rfl, List.foldl_cons, List.foldl_nil, rck_setRck]
  rcases hr with rfl | rfl | rfl | rfl <;> simp

/-! ### Rings that start again -/

/-- The contents of plain p's ring once it takes samples again. -/
def restarted (s : State) (p : Nat) : CutPlain :=
  if (cutPlain s p).ringSize = 0 || (cutPlain s p).runs.any (fun r => r.stop.isNone) then cutPlain s p
  else { cutPlain s p with runs := (cutPlain s p).runs ++ [{ start := now s, before := written s p }] }

theorem cutPlain_startRing (p k : Nat) (s : State) :
    cutPlain (startRing p s) k = if k = p then restarted s p else cutPlain s k := by
  unfold startRing restarted
  dsimp only
  split
  · split
    · next h => rw [h]
    · rfl
  · rw [cutPlain_setCutPlain]

theorem startRing_eq (p : Nat) (s : State) : startRing p s = { s with cut := (startRing p s).cut } := by
  unfold startRing
  dsimp only
  split <;> rfl

/-- Restarting a ring reads its own plain and the time alone. -/
theorem restarted_startRing {p k : Nat} (h : k ≠ p) (s : State) : restarted (startRing p s) k = restarted s k := by
  have hplain : cutPlain (startRing p s) k = cutPlain s k := by rw [cutPlain_startRing, if_neg h]
  have hnow : now (startRing p s) = now s := by rw [startRing_eq]; rfl
  simp only [restarted, written, writtenAt, hplain, hnow]

/-- The rings of plains 0 to n - 1 started again, in order. -/
def startRings (n : Nat) (s : State) : State := (List.range n).foldl (fun t p => startRing p t) s

theorem startRings_succ (n : Nat) (s : State) : startRings (n + 1) s = startRing n (startRings n s) := by
  simp [startRings, List.range_succ]

theorem startRings_spec (n : Nat) (s : State) :
    startRings n s = { s with cut := (startRings n s).cut }
      ∧ (∀ p, p < n → cutPlain (startRings n s) p = restarted s p)
      ∧ ∀ p, n ≤ p → cutPlain (startRings n s) p = cutPlain s p ∧ restarted (startRings n s) p = restarted s p := by
  induction n with
  | zero => exact ⟨rfl, fun p hp => absurd hp (Nat.not_lt_zero p), fun p _ => ⟨rfl, rfl⟩⟩
  | succ n ih =>
    obtain ⟨hframe, hdone, hrest⟩ := ih
    rw [startRings_succ]
    refine ⟨?_, fun p hp => ?_, fun p hp => ?_⟩
    · rw [startRing_eq, hframe]
    · rw [cutPlain_startRing]
      split
      · next h => rw [h, (hrest n le_rfl).2]
      · exact hdone p (by omega)
    · have hne : p ≠ n := by omega
      obtain ⟨hplain, hre⟩ := hrest p (by omega)
      exact ⟨by rw [cutPlain_startRing, if_neg hne, hplain], by rw [restarted_startRing hne, hre]⟩

theorem datapathRestart_starts (s : State) :
    ∃ t, exec .datapathRestart s = .next t ∧ t.dev = { s.dev with clkLost := false } ∧ t = { s with dev := t.dev, cut := t.cut }
      ∧ ∀ p, p < 4 → (cutPlain t p).runs
        = (if (cutPlain s p).ringSize = 0 ∨ ∃ r ∈ (cutPlain s p).runs, r.stop = none then (cutPlain s p).runs
          else (cutPlain s p).runs ++ [{ start := now s, before := written s p }]) := by
  obtain ⟨hframe, hdone, -⟩ := startRings_spec 4 { s with dev := { s.dev with clkLost := false } }
  refine ⟨startRings 4 { s with dev := { s.dev with clkLost := false } }, rfl, by rw [hframe], by rw [hframe], fun p hp => ?_⟩
  have hsame : restarted { s with dev := { s.dev with clkLost := false } } p = restarted s p := rfl
  rw [hdone p hp, hsame, restarted]
  simp only [Bool.or_eq_true, decide_eq_true_eq, List.any_eq_true, Option.isNone_iff_eq_none]
  split <;> rfl

/-! ### DRAM errors -/

theorem dramScrub_counts (n : Nat) (ends' : Bool) (s : State) : ∃ t, exec (.dramScrub n ends') s = .next t
    ∧ t.dev.dramCe = (if ends' then 0 else s.dev.dramCe + n)
    ∧ (1000 < s.dev.dramCe + n → 0 < n → trouble t .dramCe = true) := by
  refine ⟨_, rfl, ?_, fun hlimit hn => ?_⟩
  · split
    · exact keeps_raise _ _ (fun t => t.dev.dramCe)
    · rfl
  · rw [if_pos (by simp [hlimit]; omega)]
    exact trouble_raise _ _

theorem ueRegion_staging {x : UeIn} {s : State} (hlo : 0x738000000 ≤ x.addr.toNat) (hhi : x.addr.toNat < 0x7F8000000) :
    ueRegion x s = { s with mem := { s.mem with
      bad := if s.mem.bad.contains (x.addr.toNat / 8) then s.mem.bad else x.addr.toNat / 8 :: s.mem.bad } } := by
  rw [ueRegion]
  dsimp only
  rw [if_neg (by omega), if_neg (by omega), if_neg (by omega), if_neg (by omega), if_neg (by omega), if_pos hhi]

theorem ueRegion_queues {x : UeIn} {s : State} (hlo : 0x600000000 ≤ x.addr.toNat) (hhi : x.addr.toNat < 0x700000000) :
    ueRegion x s = setQue s x.queue.val (dropSpilled (que s x.queue.val)) := by
  rw [ueRegion]
  dsimp only
  rw [if_neg (by omega), if_pos hhi]

theorem dramUe_staging (x : UeIn) (s : State) (hlo : 0x738000000 ≤ x.addr.toNat) (hhi : x.addr.toNat < 0x7F8000000) :
    ∃ t, exec (.dramUe x) s = .next t ∧ trouble t .dramUe = true ∧ x.addr.toNat / 8 ∈ t.mem.bad ∧ t.mem.dram = s.mem.dram := by
  refine ⟨_, rfl, ?_⟩
  rw [ueRegion_staging hlo hhi]
  refine ⟨trouble_raise .dramUe s, ?_, keeps_raise _ _ (fun t => t.mem.dram)⟩
  dsimp only
  split
  · next h => exact List.contains_iff_mem.mp h
  · exact List.mem_cons_self

theorem dramUe_queues (x : UeIn) (s : State) (hlo : 0x600000000 ≤ x.addr.toNat) (hhi : x.addr.toNat < 0x700000000) :
    ∃ t, exec (.dramUe x) s = .next t ∧ trouble t .dramUe = true
      ∧ (∀ k, k ≠ x.queue.val → k ≠ 32 → que t k = que s k) ∧ t.mem = s.mem := by
  refine ⟨_, rfl, ?_⟩
  rw [ueRegion_queues hlo hhi]
  refine ⟨trouble_raise .dramUe s, fun k hq h32 => ?_, keeps_raise _ _ State.mem⟩
  rw [que_setQue, if_neg hq, que_raise h32]

theorem jtagInstruction_extest {s : State} (h : s.dev.resetLow = false) :
    exec (.jtagInstruction .extest) s = .next { s with dev := { s.dev with jtagIr := .bypass } } := by
  change execJtagInstruction .extest s = _
  rw [execJtagInstruction, h]
  rfl

/-- Settles O15, clause by clause. -/
theorem faultRowsAct : Obligations.FaultRowsAct :=
  ⟨fun _ h => exec_clkLoss_of_running h, fun _ h => exec_clkLoss_of_lost h, clkLoss_loses, gateRcks_low, datapathRestart_starts,
    fun _ => ⟨rfl, rfl, rfl, rfl, rfl, rfl⟩, fun _ _ => rfl, dramScrub_counts, dramUe_staging, dramUe_queues,
    fun _ h => jtagInstruction_extest h, fun _ => rfl⟩

end Sys2Proof.Proofs
end

section
/-! Settles Obligations.ReceiveCommandsRun. -/

namespace Sys2Proof.Proofs

open Sys2Proof.Machine Sys2Proof.Laws Sys2Proof.Safety

-- Proofs one after another: the threads of many at once would pass the memory that the check allows.
set_option Elab.async false

/-! ### Settings of a plain -/

/-- Word 0 names a plain on which no withdrawal drains (R141). -/
def PlainFree (c : Packet) (u : State) : Prop := pn c 0 ≤ 3 ∧ draining u (pn c 0) = false

theorem plainReady_of_free {c : Packet} {u : State} (h : PlainFree c u) : plainReady c u = true := by
  rw [plainReady, h.2, Bool.not_false]

theorem within_plain {c : Packet} (h : pn c 0 ≤ 3) : within c 0 0 3 = true := within_iff.mpr ⟨Nat.zero_le _, h⟩

theorem within_port {c : Packet} (h : pn c 0 ≤ 15) : within c 0 0 15 = true := within_iff.mpr ⟨Nat.zero_le _, h⟩

theorem within_and {c : Packet} {i j lo hi lo' hi' : Nat} (h : lo ≤ pn c i ∧ pn c i ≤ hi ∧ lo' ≤ pn c j ∧ pn c j ≤ hi') :
    (within c i lo hi && within c j lo' hi') = true :=
  Bool.and_eq_true_iff.mpr ⟨within_iff.mpr ⟨h.1, h.2.1⟩, within_iff.mpr h.2.2⟩

/-- A command that gives a plain new settings does so while no withdrawal drains on it. -/
theorem plainSetting_runs {i : Packet → Instr} {n : Nat} {pre : Packet → Prop} {eff : Packet → State → State} (spec : CmdSpec)
    (hv : ∀ c, pn c 0 ≤ 3 → pre c → spec.valid c = true) (ha : ∀ c u, spec.run c u = done (eff c u) := by intros; rfl)
    (hi : ∀ c s, exec (i c) s = runCommand spec c s := by intros; rfl) (hr : spec.ready = plainReady := by rfl)
    (hh : ∀ c u, spec.here c u = true := by intros; rfl) (hp : ∀ c u, spec.perm c u = none := by intros; rfl)
    (hl : ∀ c, spec.len c = some n := by intros; rfl) (hk : spec.known = true := by rfl)
    (hc : ∀ i, spec.countAt = some i → i < n := by rintro _ ⟨⟩) :
    Runs i spec.op n (fun c u => PlainFree c u ∧ pre c) (fun _ _ => []) eff :=
  runs_row spec (fun c _ h => hv c h.1.1 h.2) (fun c u _ => ha c u) (fun _ _ h => hr ▸ plainReady_of_free h.1)
    (fun c u _ => hp c u) (fun c u _ => hh c u) (fun c _ _ => hl c) hi hk hc

theorem syncSet_runs (n : Nat) (hn : n ≤ 4) : Runs .syncSet 0x0204 (2 + n)
    (fun c u => PlainFree c u ∧ pn c 1 = n ∧ ∀ i, i < n → pn c (2 + i) < 256) (fun _ _ => [])
    (fun c u => setPlainCfg u (pn c 0)
      { plainCfg u (pn c 0) with sync := (List.range n).map (fun i => (pw c (2 + i)).setWidth 8) }) := by
  refine runs_row syncSetSpec (fun c u ⟨hfree, hcount, hfit⟩ => ?_) (fun c u ⟨_, hcount, _⟩ => ?_)
    (hr := fun _ _ h => plainReady_of_free h.1) (hl := fun c u ⟨_, hcount, _⟩ => ?_) (hc := fun i hi => ?_)
  · refine Bool.and_eq_true_iff.mpr ⟨within_plain hfree.1, List.all_eq_true.mpr fun i hi => ?_⟩
    rw [hcount, List.mem_range] at hi
    exact fits_iff.mpr (hfit i hi)
  · simp only [← hcount]
    rfl
  · change countLen 1 0 4 2 1 c = _
    rw [countLen, if_pos (within_iff.mpr ⟨Nat.zero_le _, by omega⟩), hcount, Nat.one_mul]
  · cases hi
    omega

theorem sysrefPulse_periodic (p : Nat) (t : BitVec 64) (s : State) (h : (plainCfg s p).sysref = 0) :
    sysrefPulse s p t = decide (t.toNat % (640 * (plainCfg s p).sysrefK) = 0) := by
  simp only [sysrefPulse, h, if_true]

/-! ### Settings of a port -/

theorem plainOfPort_setPortCfg (s : State) (n k : Nat) (v : PortCfg) : plainOfPort (setPortCfg s n v) k = plainOfPort s k := rfl

theorem portLatencySet_runs_alone : Runs .portLatencySet 0x0211 2
    (fun c u => pn c 0 ≤ 15 ∧ pn c 1 < 65536 ∧ plainOfPort u (pn c 0) = none) (fun _ _ => [0#32])
    (fun c u => setPortCfg u (pn c 0) { portCfg u (pn c 0) with extLatency := pn c 1 }) := by
  have hplain : ∀ (c : Packet) (u : State), plainOfPort (withLatency (pn c 0) (pn c 1) u) (pn c 0) = plainOfPort u (pn c 0) :=
    fun _ _ => rfl
  refine runs_row portLatencySetSpec (fun c u ⟨hport, hfit, _⟩ => ?_) (fun c u ⟨_, _, hnone⟩ => ?_)
    (hr := fun c u ⟨_, _, hnone⟩ => ?_) (hh := fun c u ⟨_, _, hnone⟩ => ?_)
  · exact Bool.and_eq_true_iff.mpr ⟨within_port hport, fits_iff.mpr hfit⟩
  · simp only [portLatencySetSpec, plainSpec, alignOf, hplain, hnone]
    rfl
  · simp only [portLatencySetSpec, plainSpec, hnone]
  · simp only [portLatencySetSpec, plainSpec, tooLate, hplain, hnone, Bool.not_false]

theorem portLatencySet_runs_in_plain (p : Nat) : Runs .portLatencySet 0x0211 2
    (fun c u =>
      let v := setPortCfg u (pn c 0) { portCfg u (pn c 0) with extLatency := pn c 1 }
      pn c 0 ≤ 15 ∧ pn c 1 < 65536 ∧ plainOfPort u (pn c 0) = some p ∧ draining u p = false
      ∧ ∀ m ∈ portsOf v p, plainLatency v p - receiveLatency v m ≤ 5040)
    (fun c u =>
      let v := setPortCfg u (pn c 0) { portCfg u (pn c 0) with extLatency := pn c 1 }
      [w32 ((plainLatency v p - receiveLatency v (pn c 0) + 40) / 80)])
    (fun c u => realign p (setPortCfg u (pn c 0) { portCfg u (pn c 0) with extLatency := pn c 1 })) := by
  have hplain : ∀ (c : Packet) (u : State), plainOfPort (withLatency (pn c 0) (pn c 1) u) (pn c 0) = plainOfPort u (pn c 0) :=
    fun _ _ => rfl
  refine runs_row portLatencySetSpec (fun c u ⟨hport, hfit, _⟩ => ?_) (fun c u ⟨_, _, hsome, _⟩ => ?_)
    (hr := fun c u ⟨_, _, hsome, hidle, _⟩ => ?_) (hh := fun c u ⟨_, _, hsome, _, hnear⟩ => ?_)
  · exact Bool.and_eq_true_iff.mpr ⟨within_port hport, fits_iff.mpr hfit⟩
  · simp only [portLatencySetSpec, plainSpec, alignOf, hplain, hsome]
    rfl
  · simp only [portLatencySetSpec, plainSpec, hsome, hidle, Bool.not_false]
  · have hall : (portsOf (withLatency (pn c 0) (pn c 1) u) p).any (fun m =>
        5040 < plainLatency (withLatency (pn c 0) (pn c 1) u) p - receiveLatency (withLatency (pn c 0) (pn c 1) u) m) = false :=
      List.any_eq_false.mpr fun m hm => by
        rw [decide_eq_true_eq]
        exact Nat.not_lt.mpr (hnear m hm)
    simp only [portLatencySetSpec, plainSpec, tooLate, hplain, hsome, hall, Bool.not_false]

theorem portLatencySet_refuses (p : Nat) : Ends .portLatencySet 0x0211 2
    (fun c u =>
      let v := setPortCfg u (pn c 0) { portCfg u (pn c 0) with extLatency := pn c 1 }
      pn c 0 ≤ 15 ∧ pn c 1 < 65536 ∧ plainOfPort u (pn c 0) = some p
      ∧ ∃ m ∈ portsOf v p, 5040 < plainLatency v p - receiveLatency v m) .invalidParameter := by
  refine ends_check portLatencySetSpec (fun _ _ => rfl) rfl (fun _ _ _ => rfl) (by rintro _ ⟨⟩) fun c u ⟨_, _, hsome, m, hm, hfar⟩ => ?_
  have hplain : plainOfPort (withLatency (pn c 0) (pn c 1) u) (pn c 0) = some p := hsome
  have hany : (portsOf (withLatency (pn c 0) (pn c 1) u) p).any (fun m =>
      5040 < plainLatency (withLatency (pn c 0) (pn c 1) u) p - receiveLatency (withLatency (pn c 0) (pn c 1) u) m) = true :=
    List.any_eq_true.mpr ⟨m, hm, decide_eq_true hfar⟩
  have hlate : portLatencySetSpec.here c u = false := by simp only [portLatencySetSpec, plainSpec, tooLate, hplain, hany, Bool.not_true]
  exact .inl ⟨by rw [hlate, Bool.and_false], rfl⟩

theorem lanePolaritySet_runs : Runs .lanePolaritySet 0x0214 2
    (fun c u => pn c 0 ≤ 15 ∧ pn c 1 < 4 ∧ inEnabledPlain u (pn c 0) = false) (fun _ _ => [])
    (fun c u => setPortCfg u (pn c 0) { portCfg u (pn c 0) with rxInv := bit (pw c 1) 0, txInv := bit (pw c 1) 1 }) :=
  runs_row lanePolaritySetSpec (fun _ _ h => Bool.and_eq_true_iff.mpr ⟨within_port h.1, fits_iff.mpr h.2.1⟩) (fun _ _ _ => rfl)
    (hr := fun c u ⟨_, _, hoff⟩ => by simp only [lanePolaritySetSpec, hoff, Bool.not_false])

/-! ### Beam weights -/

theorem beamWeightsWrite_runs (n : Nat) (hn : n ≤ 128) : Runs .beamWeightsWrite 0x0230 (3 + n)
    (fun c u => PlainFree c u ∧ pn c 1 ≤ 63 ∧ pn c 2 = n ∧ swapPending u (pn c 0) false = false) (fun _ _ => [])
    (fun c u => setRxPlain u (pn c 0)
      { rxPlain u (pn c 0) with shadow := tabSet (rxPlain u (pn c 0)).shadow (pn c 1) ((c.params.drop 3).take n) }) := by
  refine runs_row (weightsWriteSpec 0x0230 false) (fun c u ⟨hfree, hbeam, _⟩ => ?_) (fun c u ⟨_, _, hcount, _⟩ => ?_)
    (hr := fun c u ⟨hfree, _, _, hswap⟩ => ?_) (hl := fun c u ⟨_, _, hcount, _⟩ => ?_) (hc := fun i hi => ?_)
  · exact Bool.and_eq_true_iff.mpr ⟨within_plain hfree.1, within_iff.mpr ⟨Nat.zero_le _, hbeam⟩⟩
  · simp only [← hcount]
    rfl
  · simp only [weightsWriteSpec, plainReady_of_free hfree, hswap, shadowServes, Bool.false_and, Bool.not_false, Bool.and_self]
  · change countLen 2 0 128 3 1 c = _
    rw [countLen, if_pos (within_iff.mpr ⟨Nat.zero_le _, by omega⟩), hcount, Nat.one_mul]
  · cases hi
    omega

theorem beamWeightsRead_runs : Runs .beamWeightsRead 0x0232 3 (fun c _ => pn c 0 ≤ 3 ∧ pn c 1 ≤ 63 ∧ pn c 2 < 2)
    (fun c u => (List.range (8 * (maskList (plainCfg u (pn c 0)).ports).length)).map (fun i =>
        (tabGet (if pn c 2 = 1 then (rxPlain u (pn c 0)).shadow else (plainCfg u (pn c 0)).bank) (pn c 1) []).getD i 0#32)
      ++ [w32 (tabGet (rxPlain u (pn c 0)).sat (pn c 1) 0)])
    (fun _ u => u) :=
  runs_row (weightsReadSpec 0x0232 false)
    (fun _ _ ⟨hplain, hbeam, hbank⟩ =>
      Bool.and_eq_true_iff.mpr ⟨Bool.and_eq_true_iff.mpr ⟨within_plain hplain, within_iff.mpr ⟨Nat.zero_le _, hbeam⟩⟩, fits_iff.mpr hbank⟩)
    (fun _ _ _ => rfl)

/-! ### Status -/

theorem w32_flag (b : Bool) : w32 (flag b) = if b then 1#32 else 0#32 := by cases b <;> rfl

theorem plainStatus_runs : Runs .plainStatus 0x0202 1 (fun c _ => pn c 0 ≤ 3)
    (fun c u => let v := plainCfg u (pn c 0)
      [v.ports.setWidth 32, if v.enabled then 1#32 else 0#32, w32 v.beams, v.gridMask.setWidth 32, v.sfMask.setWidth 32,
       w32 (u.rx.tracks.filter (fun t => t.plain = pn c 0)).length]) (fun _ u => u) := by
  refine runs_row plainStatusSpec (fun _ _ h => within_plain h) fun c u _ => ?_
  simp only [← w32_flag]
  rfl

theorem portStatus_runs : Runs .portStatus 0x0212 1 (fun c _ => pn c 0 ≤ 15)
    (fun c u => [match plainOfPort u (pn c 0) with
        | some p => w32 p
        | none => 0xFFFFFFFF#32,
      w32 (portRun u (pn c 0)).lane, w32 ((portCfg u (pn c 0)).extLatency + 5 * (portRun u (pn c 0)).linkLat),
      w32 (portRun (countCrc (pn c 0) u) (pn c 0)).crcErr, w32 (portRun u (pn c 0)).relinks])
    (fun c u => countCrc (pn c 0) u) := by
  refine runs_row portStatusSpec (fun _ _ h => within_port h) fun c u _ => ?_
  have hport : portRun (countCrc (pn c 0) u) (pn c 0) = { portRun u (pn c 0) with
      crcErr := (portRun (countCrc (pn c 0) u) (pn c 0)).crcErr } := by
    unfold countCrc
    rw [portRun_setPort, if_pos rfl]
  change doneWith (portStatusWords (countCrc (pn c 0) u) (pn c 0)) (countCrc (pn c 0) u) = _
  rw [portStatusWords, receiveLatency, hport]
  rfl

theorem rxCountersRead_runs : Runs .rxCountersRead 0x0250 2 (fun c _ => pn c 0 ≤ 3 ∧ pn c 1 < 2)
    (fun c u => (rxPlain u (pn c 0)).counters.map w32)
    (fun c u => if pn c 1 = 1 then setRxPlain u (pn c 0) { rxPlain u (pn c 0) with counters := List.replicate 10 0 } else u) :=
  runs_row rxCountersReadSpec (fun _ _ h => Bool.and_eq_true_iff.mpr ⟨within_plain h.1, fits_iff.mpr h.2⟩) (fun _ _ _ => rfl)

theorem detectSet_runs : Runs .detectSet 0x0206 3
    (fun c u => PlainFree c u ∧ 3 ≤ pn c 1 ∧ pn c 1 ≤ 6 ∧ 40 ≤ pn c 2 ∧ pn c 2 ≤ 200) (fun _ _ => [])
    (fun c u => setPlainCfg u (pn c 0) { plainCfg u (pn c 0) with detCount := pn c 1, detThresh := pn c 2 }) :=
  plainSetting_runs detectSetSpec fun _ hplain h => Bool.and_eq_true_iff.mpr ⟨within_plain hplain, within_and h⟩

theorem trackCapSet_runs : Runs .trackCapSet 0x0207 2 (fun c u => PlainFree c u ∧ 1 ≤ pn c 1 ∧ pn c 1 ≤ 4096) (fun _ _ => [])
    (fun c u => setPlainCfg u (pn c 0) { plainCfg u (pn c 0) with trackCap := pn c 1 }) :=
  plainSetting_runs trackCapSetSpec fun _ hplain h => Bool.and_eq_true_iff.mpr ⟨within_plain hplain, within_iff.mpr h⟩

theorem recordSet_runs : Runs .recordSet 0x0208 4
    (fun c u => PlainFree c u ∧ 34 ≤ pn c 1 ∧ pn c 1 ≤ 63 ∧ 34 ≤ pn c 2 ∧ pn c 2 ≤ 63 ∧ pn c 3 < 4) (fun _ _ => [])
    (fun c u => setPlainCfg u (pn c 0) { plainCfg u (pn c 0) with
      recQ := pn c 1, repQ := pn c 2, rawPayload := bit (pw c 3) 0, levels := bit (pw c 3) 1 }) :=
  plainSetting_runs recordSetSpec fun _ hplain ⟨h1, h2, h3, h4, h5⟩ =>
    Bool.and_eq_true_iff.mpr ⟨within_plain hplain, Bool.and_eq_true_iff.mpr ⟨within_and ⟨h1, h2, h3, h4⟩, fits_iff.mpr h5⟩⟩

theorem sysrefSet_runs : Runs .sysrefSet 0x0213 3 (fun c u => PlainFree c u ∧ pn c 1 ≤ 2 ∧ 1 ≤ pn c 2 ∧ pn c 2 ≤ 1024)
    (fun _ _ => []) (fun c u => setPlainCfg u (pn c 0) { plainCfg u (pn c 0) with sysref := pn c 1, sysrefK := pn c 2 }) :=
  plainSetting_runs sysrefSetSpec fun _ hplain h => Bool.and_eq_true_iff.mpr ⟨within_plain hplain, within_and ⟨Nat.zero_le _, h⟩⟩

theorem levelSet_runs : Runs .levelSet 0x0222 2 (fun c u => PlainFree c u ∧ pn c 1 < 65536) (fun _ _ => [])
    (fun c u => setPlainCfg u (pn c 0) { plainCfg u (pn c 0) with clipLimit := pn c 1 }) :=
  plainSetting_runs levelSetSpec fun _ hplain h => Bool.and_eq_true_iff.mpr ⟨within_plain hplain, fits_iff.mpr h⟩

theorem fabricStatus_runs : Runs .fabricStatus 0x0242 0 (fun _ _ => True)
    (fun _ u => [paddocksIn u, w32 (searchLoad u), w32 (tracksOf u 0), w32 (tracksOf u 1), w32 (tracksOf u 2), w32 (tracksOf u 3),
      w32 (freeTracks u), w32 (decoderDepth u)]) (fun _ u => u) :=
  runs_row fabricStatusSpec (fun _ _ _ => rfl) (fun _ _ _ => rfl)

/-- Settles O16, a theorem for each command. -/
theorem receiveCommandsRun : Obligations.ReceiveCommandsRun :=
  ⟨⟨syncSet_runs, detectSet_runs, trackCapSet_runs, recordSet_runs, sysrefSet_runs, sysrefPulse_periodic, levelSet_runs,
      portLatencySet_runs_alone, fun p _ => portLatencySet_runs_in_plain p, fun p _ => portLatencySet_refuses p, lanePolaritySet_runs,
      beamWeightsWrite_runs⟩,
    plainStatus_runs, portStatus_runs, fabricStatus_runs, rxCountersRead_runs, beamWeightsRead_runs⟩

end Sys2Proof.Proofs
end

section
/-! Withdrawals of receive capacity: how one begins, with and without tracks to drain, and what a change of a plain leaves as it
was. -/

namespace Sys2Proof.Proofs

open Sys2Proof.Machine Sys2Proof.Laws Sys2Proof.Safety

-- Proofs one after another: the threads of many at once would pass the memory that the check allows.
set_option Elab.async false

/-! ### The mode that follows the configuration -/

theorem refreshMode_eq (s : State) : refreshMode s = { s with dev := (refreshMode s).dev } := by
  unfold refreshMode
  split <;> rfl

theorem keeps_refreshMode {α : Type} (P : State → α) (s : State)
    (hP : ∀ s a, P { s with dev := a } = P s := by intros; rfl) : P (refreshMode s) = P s := by
  rw [refreshMode_eq, hP]

/-! ### The store laid out anew -/

section StoreFrames

variable {α : Type} (P : State → α) (hP : ∀ s a b c d, P { s with cut := a, trb := b, que := c, out := d } = P s)

include hP

theorem keeps_jobEvent (j : CutJob) (code source : Nat) (s : State) : P (jobEvent j code source s) = P s := by
  unfold jobEvent
  split
  · exact keeps_of_reported (postEventTo_reported _ _ _ _ _) P fun s a b c => hP s s.cut a b c
  · rfl

theorem keeps_expireJob (j : CutJob) (source : Nat) (s : State) : P (expireJob j source s) = P s := by
  rw [expireJob, keeps_jobEvent P hP]
  exact hP s _ s.trb s.que s.out

/-- A repartition touches the sample store and what is reported alone. -/
theorem keeps_repartition (s : State) : P (repartition s) = P s := by
  have hcut : ∀ (t : State) (p : Nat) (v : CutPlain), P (setCutPlain t p v) = P t := fun t p v => hP t _ t.trb t.que t.out
  unfold repartition
  refine Eq.trans (keeps_foldl P (fun t p => ?_) _ _) (Eq.trans (keeps_foldl P (fun t p => ?_) _ _) (keeps_foldl P (fun t j => ?_) _ _))
  · split
    · exact keeps_foldl P (fun u n => hcut u p _) _ _
    · rfl
  · exact hcut t p _
  · exact keeps_expireJob P hP j 0 t

end StoreFrames

theorem plainCfg_disablePlain (p : Nat) (s : State) : (plainCfg (disablePlain p s) p).enabled = false := by
  unfold disablePlain
  split
  · rw [keeps_refreshMode (fun t => (plainCfg t p).enabled), keeps_repartition (fun t => (plainCfg t p).enabled) (by intros; rfl),
      lanesDown, keeps_foldl (fun t => (plainCfg t p).enabled) (fun t n => ?_)]
    · rw [plainCfg_setPlainCfg, if_pos rfl]
    · rfl
  · next h => exact Bool.eq_false_iff.mpr h

/-! ### The beginning of a withdrawal -/

/-- A withdrawal w drains for the command c: its tracks in progress are marked DRAINED, and it ends in 4 s at the latest
(R139, R140). -/
def drainBegun (c : Packet) (s : State) (w : Withdrawal) : State :=
  { s with rx := { s.rx with
      tracks := s.rx.tracks.map (fun t => if w.tracks.contains t.num && inProgress t then { t with marks := setBit t.marks 8 true } else t)
      drains := s.rx.drains ++ [{ w with queue := c.queue.val, tag := c.tag, deadline := after s 4000000000 }] } }

/-- No withdrawal that drains has the tag of the command. -/
def FreshTag (c : Packet) (s : State) : Prop := ∀ w ∈ s.rx.drains, w.tag ≠ c.tag

theorem find?_drain_append {c : Packet} {s : State} (h : FreshTag c s) {x : Withdrawal} (hq : x.queue = c.queue.val)
    (ht : x.tag = c.tag) :
    (s.rx.drains ++ [x]).find? (fun y => y.queue = c.queue.val && y.tag = c.tag) = some x := by
  have hnone : s.rx.drains.find? (fun y => y.queue = c.queue.val && y.tag = c.tag) = none :=
    List.find?_eq_none.mpr fun w hw => by simp [h w hw]
  rw [List.find?_append, hnone, Option.none_or, List.find?_cons_of_pos (by simp [hq, ht])]

/-- A withdrawal without FORCE that has tracks to drain runs on. -/
theorem beginWithdrawal_of_tracks {c : Packet} {s : State} {w : Withdrawal} (hfresh : FreshTag c s) (hq : w.queue = c.queue.val)
    (ht : w.tag = c.tag) (hn : w.aborted = 0) (hk : w.byPlain = [0, 0, 0, 0]) (hw : w.tracks ≠ []) :
    beginWithdrawal w false s = runsOn (drainBegun c s w) := by
  obtain ⟨queue, tag, plain, paddocks, kind, tracks, deadline, aborted, byPlain, before, after'⟩ := w
  obtain rfl : queue = c.queue.val := hq
  obtain rfl : tag = c.tag := ht
  obtain rfl : aborted = 0 := hn
  obtain rfl : byPlain = [0, 0, 0, 0] := hk
  have htracks : tracks.isEmpty = false := by simpa using hw
  simp only [beginWithdrawal, Bool.false_eq_true, if_false, find?_drain_append hfresh, htracks]
  rfl

/-- A withdrawal with no track to drain, with or without FORCE, ends at once with none aborted. -/
theorem beginWithdrawal_of_none {c : Packet} {s : State} {w : Withdrawal} {force : Bool} (hfresh : FreshTag c s)
    (hq : w.queue = c.queue.val) (ht : w.tag = c.tag) (hw : w.tracks = []) :
    beginWithdrawal w force s =
      let x : Withdrawal := { w with deadline := after s 4000000000, aborted := 0, byPlain := [0, 0, 0, 0] }
      doneWith [0#32] (finishWithdrawal x { s with rx := { s.rx with drains := s.rx.drains ++ [x] } }) := by
  obtain ⟨queue, tag, plain, paddocks, kind, tracks, deadline, aborted, byPlain, before, after'⟩ := w
  obtain rfl : queue = c.queue.val := hq
  obtain rfl : tag = c.tag := ht
  obtain rfl : tracks = [] := hw
  have hrunning : ∀ t, runningOf t [] = [] := fun t => by simp [runningOf]
  have hby : ∀ t, runningBy t [] = [0, 0, 0, 0] := fun t => by simp [runningBy, hrunning]
  have habort : ∀ t, abortTracks [] t = t := fun t => by simp [abortTracks, hrunning]
  have hmap : s.rx.tracks.map (fun t => if ([] : List Nat).contains t.num && inProgress t then markTrack 8 t else t) = s.rx.tracks := by
    simp
  simp only [beginWithdrawal, hmap, hrunning, hby, habort, List.length_nil, ite_self, find?_drain_append hfresh, List.isEmpty_nil, if_true]
  rfl

end Sys2Proof.Proofs
end

section
/-! Settles Obligations.ReceiveCapacityRuns. -/

namespace Sys2Proof.Proofs

open Sys2Proof.Machine Sys2Proof.Laws Sys2Proof.Safety

-- Proofs one after another: the threads of many at once would pass the memory that the check allows.
set_option Elab.async false

/-! ### PLAIN_CONFIGURE and PLAIN_DISABLE -/

/-- The ports that a command names are in no other plain (R103). -/
def PortsFree (c : Packet) (u : State) : Prop :=
  ∀ n ∈ maskList (pw c 1), plainOfPort u n = none ∨ plainOfPort u n = some (pn c 0)

/-- The state once the plain has the ports that a command names. -/
def portsMoved (c : Packet) (u : State) : State := realign (pn c 0) (movePorts (pn c 0) ((pw c 1).setWidth 16) u)

theorem plainConfigure_valid {c : Packet} (hplain : pn c 0 ≤ 3) (hports : pn c 1 < 65536) (hflag : pn c 2 < 2)
    (hsome : pn c 2 = 1 → pn c 1 ≠ 0) : plainConfigureSpec.valid c = true := by
  have hempty : (pn c 2 = 1 && pn c 1 = 0) = false := by simpa using hsome
  simp only [plainConfigureSpec, within_plain hplain, fits_iff.mpr (show pn c 1 < 2 ^ 16 from hports),
    fits_iff.mpr (show pn c 2 < 2 ^ 1 from hflag), hempty, Bool.not_false, Bool.and_self]

theorem plainConfigure_here {c : Packet} {u : State} (h : PortsFree c u) : plainConfigureSpec.here c u = true := by
  refine List.all_eq_true.mpr fun n hn => ?_
  rcases h n hn with hnone | hsome
  · rw [hnone]
  · rw [hsome]
    exact decide_eq_true rfl

theorem plainConfigure_ready {c : Packet} {u : State} (hoff : (plainCfg u (pn c 0)).enabled = false)
    (hidle : draining u (pn c 0) = false) : plainConfigureSpec.ready c u = true := by
  simp only [plainConfigureSpec, hoff, plainReady, hidle, Bool.not_false, Bool.and_self]

theorem plainConfigure_run (c : Packet) (u : State) : plainConfigureSpec.run c u =
    if pn c 2 = 0 then done (refreshMode (portsMoved c u))
    else if fitsBudget (portsMoved c u) (pn c 0) { plainCfg (portsMoved c u) (pn c 0) with enabled := true } then
      done (enablePlain (pn c 0) (portsMoved c u))
    else ends .refusedCapacity u := rfl

theorem fitsBudget_iff {s : State} {p : Nat} {v : PlainCfg} :
    fitsBudget s p v = true ↔ searchLoadWith s p v ≤ 1088 * maskCount (paddocksIn s) := decide_eq_true_iff

theorem trackNums_eq_nil {s : State} {f : Track → Bool} (h : ∀ t ∈ s.rx.tracks, f t = false) : trackNums s f = [] := by
  simpa [trackNums] using h

theorem trackNums_ne_nil {s : State} {f : Track → Bool} (h : ∃ t ∈ s.rx.tracks, f t = true) : trackNums s f ≠ [] := by
  simpa [trackNums] using h

theorem plainDisable_valid {c : Packet} (hplain : pn c 0 ≤ 3) (hforce : pn c 1 < 2) : plainDisableSpec.valid c = true :=
  Bool.and_eq_true_iff.mpr ⟨within_plain hplain, fits_iff.mpr hforce⟩

theorem bit_zero_of_pn_zero {c : Packet} {i : Nat} (h : pn c i = 0) : bit (pw c i) 0 = false := by
  have hzero : pw c i = 0#32 := BitVec.eq_of_toNat_eq h
  rw [hzero]
  rfl

theorem plainDisable_run {c : Packet} {u : State} (hon : (plainCfg u (pn c 0)).enabled = true) : plainDisableSpec.run c u =
    beginWithdrawal { queue := c.queue.val, tag := c.tag, plain := some (pn c 0), kind := .plain,
                      tracks := trackNums u (fun t => t.plain = pn c 0) } (bit (pw c 1) 0) u := if_pos hon

theorem plainDisable_ends_at_once {c : Packet} {s : State} (h : clear 0x0201 2 c s = true)
    (hplain : pn c 0 ≤ 3) (hforce : pn c 1 < 2) (hidle : draining (takeHead 0x0201 c s) (pn c 0) = false)
    (hon : (plainCfg (takeHead 0x0201 c s) (pn c 0)).enabled = true) (hfresh : FreshTag c (takeHead 0x0201 c s))
    (hnone : ∀ t ∈ (takeHead 0x0201 c s).rx.tracks, t.plain ≠ pn c 0) :
    ∃ v, exec (.plainDisable c) s = .next (sendReply (entryOf .host 0x0201 c) .ok [0#32] v)
      ∧ (plainCfg v (pn c 0)).enabled = false := by
  have htracks : trackNums (takeHead 0x0201 c s) (fun t => t.plain = pn c 0) = [] :=
    trackNums_eq_nil fun t ht => decide_eq_false (hnone t ht)
  have hrun := (plainDisable_run hon).trans (beginWithdrawal_of_none hfresh rfl rfl htracks)
  have hexec : exec (.plainDisable c) s = .next (execute .host plainDisableSpec c (takeHead 0x0201 c s)) :=
    runCommand_clear (spec := plainDisableSpec) h rfl rfl (by rintro _ ⟨⟩) (plainDisable_valid hplain hforce) rfl rfl
      (plainReady_of_free ⟨hplain, hidle⟩)
  refine ⟨(plainDisableSpec.run c (takeHead 0x0201 c s)).state, ?_, ?_⟩
  · rw [hexec, execute, hrun]
    rfl
  · rw [hrun]
    exact (keeps_postEvent _ _ _ _ fun t => (plainCfg t (pn c 0)).enabled).trans (plainCfg_disablePlain _ _)

/-! ### Changes of a plain's masks -/

theorem chainEnable_run (c : Packet) (u : State) : chainEnableSpec.run c u =
    let v := plainCfg u (pn c 0)
    let left := v.chainMask &&& ~~~ chainWords c &&& allChains u (pn c 0)
    if left = 0#128 then doneWith [0#32] (refreshMode (changePlain (pn c 0) { v with chainMask := chainWords c } u))
    else beginWithdrawal { queue := c.queue.val, tag := c.tag, plain := some (pn c 0), kind := .chains left, before := v,
                           after := { v with chainMask := chainWords c },
                           tracks := trackNums u (fun t => t.plain = pn c 0 && t.job.isNone && usesChains v t.beam left) } false u := rfl

/-- A change that takes nothing from the search and fits the budget is made at once (R148). -/
theorem searchChange_of_addition {c : Packet} {kind : DrainKind} {after : PlainCfg} {force : Bool} {u : State}
    (hgrid : (plainCfg u (pn c 0)).gridMask &&& after.gridMask = (plainCfg u (pn c 0)).gridMask)
    (hsf : (plainCfg u (pn c 0)).sfMask &&& after.sfMask = (plainCfg u (pn c 0)).sfMask)
    (hbeam : (plainCfg u (pn c 0)).beamMask &&& after.beamMask = (plainCfg u (pn c 0)).beamMask)
    (hfits : fitsBudget u (pn c 0) after = true) :
    searchChange c kind after force u = doneWith [0#32] (refreshMode (changePlain (pn c 0) after u)) := by
  simp only [searchChange, hgrid, hsf, hbeam, hfits, bne_self_eq_false, Bool.or_self, Bool.not_true, Bool.and_false, Bool.not_false,
    Bool.false_eq_true, if_false, if_true]

/-- A change that adds a grid and does not fit the budget is refused (R148). -/
theorem searchChange_of_excess {c : Packet} {kind : DrainKind} {after : PlainCfg} {force : Bool} {u : State}
    (hgrid : (plainCfg u (pn c 0)).gridMask &&& after.gridMask ≠ after.gridMask)
    (hfits : fitsBudget u (pn c 0) after = false) : searchChange c kind after force u = ends .refusedCapacity u := by
  simp only [searchChange, bne_iff_ne.mpr hgrid, hfits, Bool.true_or, Bool.not_false, Bool.and_self, if_true]

/-- A change that only takes from the search withdraws what it takes (R148). -/
theorem searchChange_of_removal {c : Packet} {kind : DrainKind} {after : PlainCfg} {force : Bool} {u : State}
    (hsf : (plainCfg u (pn c 0)).sfMask &&& after.sfMask = after.sfMask) (hsf' : (plainCfg u (pn c 0)).sfMask ≠ after.sfMask)
    (hafter : after = { plainCfg u (pn c 0) with sfMask := after.sfMask }) :
    searchChange c kind after force u =
      beginWithdrawal { queue := c.queue.val, tag := c.tag, plain := some (pn c 0), kind := kind, before := plainCfg u (pn c 0),
                        after := after,
                        tracks := trackNums u (fun t => t.plain = pn c 0 && t.job.isNone && !(bit (plainCfg u (pn c 0)).gridMask t.bw
                          && bit after.sfMask (t.sf - 5)
                          && (bit (plainCfg u (pn c 0)).beamMask t.beam || !bit (plainCfg u (pn c 0)).beamMask t.beam))) }
        force (refreshMode (setPlainCfg u (pn c 0) after)) := by
  generalize after.sfMask = m at hsf hsf' hafter ⊢
  subst hafter
  simp only [searchChange, hsf, BitVec.and_self, bne_self_eq_false, bne_iff_ne.mpr hsf'.symm, Bool.false_or, Bool.or_false,
    Bool.false_and, Bool.not_true, Bool.false_eq_true, if_false]

theorem only_iff {c : Packet} {i m : Nat} : only c i m = true ↔ pw c i &&& ~~~ w32 m = 0#32 := decide_eq_true_iff

theorem searchSet_valid {c : Packet} (hplain : pn c 0 ≤ 3) (hmasks : pw c 1 &&& 0xFFFF00F0#32 = 0#32) (hforce : pn c 2 < 2) :
    searchSetSpec.valid c = true := by
  have honly : only c 1 0xFF0F = true := only_iff.mpr hmasks
  exact Bool.and_eq_true_iff.mpr ⟨Bool.and_eq_true_iff.mpr ⟨within_plain hplain, honly⟩, fits_iff.mpr hforce⟩

theorem beamEnable_valid {c : Packet} (hplain : pn c 0 ≤ 3) (hforce : pn c 3 < 2) : beamEnableSpec.valid c = true :=
  Bool.and_eq_true_iff.mpr ⟨within_plain hplain, fits_iff.mpr hforce⟩

/-! ### Paddocks -/

/-- The state with further paddocks withdrawn by configuration. -/
def paddocksOut (c : Packet) (u : State) : State :=
  { u with cfg := { u.cfg with rx := { u.cfg.rx with padOut := u.cfg.rx.padOut ||| pw c 0 } } }

theorem paddockWithdraw_run (c : Packet) (u : State) : paddockWithdrawSpec.run c u =
    if 1088 * maskCount (paddocksIn (paddocksOut c u)) < searchLoadAll u then ends .refusedCapacity u
    else beginWithdrawal { queue := c.queue.val, tag := c.tag, plain := none, kind := .paddocks,
                           paddocks := pw c 0 &&& ~~~ u.cfg.rx.padOut,
                           tracks := trackNums u (fun t => bit (pw c 0) (t.num / 128)) } (bit (pw c 1) 0)
      (refreshMode (paddocksOut c u)) := rfl

theorem paddockWithdraw_ends_at_once {c : Packet} {s : State} (h : clear 0x0240 2 c s = true) (hforce : pn c 1 < 2)
    (hroom : searchLoadAll (takeHead 0x0240 c s) ≤ 1088 * maskCount (paddocksIn (paddocksOut c (takeHead 0x0240 c s))))
    (hnone : ∀ t ∈ (takeHead 0x0240 c s).rx.tracks, bit (pw c 0) (t.num / 128) = false)
    (hfresh : FreshTag c (takeHead 0x0240 c s)) :
    ∃ v, exec (.paddockWithdraw c) s = .next (sendReply (entryOf .host 0x0240 c) .ok [0#32] (postEvent 0x0203 0xFFFF 0#32 v))
      ∧ v.cfg = (paddocksOut c (takeHead 0x0240 c s)).cfg ∧ v.que = (takeHead 0x0240 c s).que := by
  have hfresh' : FreshTag c (refreshMode (paddocksOut c (takeHead 0x0240 c s))) := by
    rw [FreshTag, keeps_refreshMode (fun t => t.rx)]
    exact hfresh
  have hrun := (paddockWithdraw_run c (takeHead 0x0240 c s)).trans ((if_neg (Nat.not_lt.mpr hroom)).trans
    (beginWithdrawal_of_none hfresh' rfl rfl (trackNums_eq_nil hnone)))
  have hexec : exec (.paddockWithdraw c) s = .next (execute .host paddockWithdrawSpec c (takeHead 0x0240 c s)) :=
    runCommand_clear (spec := paddockWithdrawSpec) h rfl rfl (by rintro _ ⟨⟩) (fits_iff.mpr hforce) rfl rfl rfl
  refine ⟨_, by rw [hexec, execute, hrun]; rfl, ?_, ?_⟩
  · exact (keeps_refreshMode State.cfg _).trans (keeps_refreshMode State.cfg _)
  · exact (keeps_refreshMode State.que _).trans (keeps_refreshMode State.que _)

/-! ### Calibrations and activations -/

theorem portRun_sendSysref (m : Word) (u : State) (n : Nat) : portRun (sendSysref m u) n = portRun u n := by
  unfold sendSysref
  refine keeps_foldl (fun t => portRun t n) (fun t p => ?_) _ _
  rfl

theorem linkCalibrate_ready {c : Packet} {u : State} (hon : ∀ n ∈ maskList (pw c 0), inEnabledPlain u n = true)
    (hidle : ∀ p ∈ plainsNamed u (pw c 0), draining u p = false) : linkCalibrateSpec.ready c u = true := by
  have hnone : (plainsNamed u (pw c 0)).any (draining u) = false := List.any_eq_false.mpr fun p hp => by simp [hidle p hp]
  simp only [linkCalibrateSpec, List.all_eq_true.mpr hon, hnone, Bool.not_false, Bool.and_self]

theorem linkCalibrate_run (c : Packet) (u : State) : linkCalibrateSpec.run c u =
    if dataPhase (sendSysref (pw c 0) u) (pw c 0) then runCalibration (pw c 0) (sendSysref (pw c 0) u)
    else runsOn { sendSysref (pw c 0) u with rx := { (sendSysref (pw c 0) u).rx with
      calWait := (sendSysref (pw c 0) u).rx.calWait ++ [{ queue := c.queue.val, tag := c.tag, mask := pw c 0 }] } } := rfl

theorem dataPhase_sendSysref {m : Word} {u : State} :
    dataPhase (sendSysref m u) m = true ↔ ∀ n ∈ maskList m, (portRun u n).lane ≠ 0 := by
  simp [dataPhase, portRun_sendSysref]

theorem runCalibration_of_close {m : Word} {s : State} (h : spreadPlains s m = []) :
    runCalibration m s = doneWith ((maskList m).map (calibrationWord (calibrate m s))) (calibrate m s) := by
  rw [runCalibration, h]

theorem activate_valid {c : Packet} (hplain : pn c 0 ≤ 3) (hlo : 1 ≤ pn c 1) (hhi : pn c 1 ≤ 64) (hshift : pn c 2 ≤ 7)
    (hasn : pn c 5 < 256) (op : Nat) (tx : Bool) : (tableActivateSpec op tx).valid c = true := by
  simp only [tableActivateSpec, within_plain hplain, within_iff.mpr ⟨hlo, hhi⟩, within_iff.mpr ⟨Nat.zero_le _, hshift⟩,
    fits_iff.mpr (show pn c 5 < 2 ^ 8 from hasn), Bool.and_self]

theorem activate_ready {c : Packet} {u : State} {tx : Bool} (hplain : pn c 0 ≤ 3) (hidle : draining u (pn c 0) = false)
    (hswap : swapPending u (pn c 0) tx = false) (op : Nat) : (tableActivateSpec op tx).ready c u = true := by
  simp only [tableActivateSpec, plainReady_of_free ⟨hplain, hidle⟩, hswap, Bool.not_false, Bool.and_self]

theorem activate_run (op : Nat) (tx : Bool) (c : Packet) (u : State) : (tableActivateSpec op tx).run c u =
    if !tx && activationRefused u (pn c 0) (pn c 1) then ends .refusedCapacity u
    else if bankCrc (shadowBank u (pn c 0) tx) (pn c 1) (tableChains u (pn c 0) tx) != pw c 3 then badTable (pn c 0) u
    else runsOn { u with rx := { u.rx with swaps := u.rx.swaps ++ [{
      plain := pn c 0, tx := tx, count := pn c 1, shift := pn c 2
      asn := if asnWords c = 0 then asnAt u (now u) + 1 else asnWords c, queue := c.queue.val, tag := c.tag }] } } := rfl

/-- Settles O17: each clause is one branch of its command's row. -/
theorem receiveCapacityRuns : Obligations.ReceiveCapacityRuns := by
  refine ⟨?_, ?_, ?_, ?_, ?_, ?_, ?_, ?_, ?_, ?_, ?_, ?_, ?_, ?_, ?_, ?_, ?_, ?_, ?_, ?_, ?_, ?_⟩
  -- PLAIN_CONFIGURE
  · exact runs_row plainConfigureSpec
      (fun c u ⟨hplain, hports, hflag, _⟩ => plainConfigure_valid hplain hports (by omega) (by omega))
      (fun c u ⟨_, _, hflag, _⟩ => (plainConfigure_run c u).trans (if_pos hflag))
      (hr := fun c u ⟨_, _, _, hoff, hidle, _⟩ => plainConfigure_ready hoff hidle)
      (hh := fun c u ⟨_, _, _, _, _, hfree⟩ => plainConfigure_here hfree)
  · exact runs_row plainConfigureSpec
      (fun c u ⟨hplain, hports, hsome, hflag, _⟩ => plainConfigure_valid hplain hports (by omega) fun _ => hsome)
      (fun c u ⟨_, _, _, hflag, _, _, _, hfits⟩ =>
        (plainConfigure_run c u).trans ((if_neg (by omega)).trans (if_pos (fitsBudget_iff.mpr hfits))))
      (hr := fun c u ⟨_, _, _, _, hoff, hidle, _⟩ => plainConfigure_ready hoff hidle)
      (hh := fun c u ⟨_, _, _, _, _, _, hfree, _⟩ => plainConfigure_here hfree)
  · exact ends_row plainConfigureSpec
      (fun c u ⟨hplain, hports, hsome, hflag, _⟩ => plainConfigure_valid hplain hports (by omega) fun _ => hsome)
      (fun c u ⟨_, _, _, hflag, _, _, _, hexcess⟩ => (plainConfigure_run c u).trans ((if_neg (by omega)).trans
        (if_neg fun hfits => absurd (fitsBudget_iff.mp hfits) (Nat.not_le.mpr hexcess))))
      (hr := fun c u ⟨_, _, _, _, hoff, hidle, _⟩ => plainConfigure_ready hoff hidle)
      (hh := fun c u ⟨_, _, _, _, _, _, hfree, _⟩ => plainConfigure_here hfree)
  · exact ends_notReady plainConfigureSpec
      (fun c u ⟨hplain, hports, hflag, _⟩ => plainConfigure_valid hplain hports (by omega) (by omega))
      (fun c u ⟨_, _, _, hon, _⟩ => by simp only [plainConfigureSpec, hon, Bool.not_true, Bool.false_and])
      (hh := fun c u ⟨_, _, _, _, hfree⟩ => plainConfigure_here hfree)
  -- PLAIN_DISABLE
  · exact runs_row plainDisableSpec (fun c u ⟨hplain, hforce, _⟩ => plainDisable_valid hplain hforce)
      (fun c u ⟨_, _, _, hoff⟩ => if_neg (Bool.eq_false_iff.mp hoff))
      (hr := fun c u ⟨hplain, _, hidle, _⟩ => plainReady_of_free ⟨hplain, hidle⟩)
  · refine runsOn_row plainDisableSpec (fun c u ⟨hplain, hforce, _⟩ => plainDisable_valid hplain (by omega))
      (fun c u ⟨_, hforce, _, hon, hfresh, t, ht, hp⟩ => ?_)
      (hr := fun c u ⟨hplain, _, hidle, _⟩ => plainReady_of_free ⟨hplain, hidle⟩)
    rw [plainDisable_run hon, bit_zero_of_pn_zero hforce]
    exact beginWithdrawal_of_tracks hfresh rfl rfl rfl rfl (trackNums_ne_nil ⟨t, ht, decide_eq_true hp⟩)
  · exact fun c s h hplain hforce hidle hon hfresh hnone =>
      plainDisable_ends_at_once h hplain (by omega) hidle hon hfresh hnone
  -- CHAIN_ENABLE
  · exact runs_row chainEnableSpec (fun c u h => within_plain h.1)
      (fun c u ⟨_, _, hnone⟩ => (chainEnable_run c u).trans (if_pos hnone))
      (hr := fun c u ⟨hplain, hidle, _⟩ => plainReady_of_free ⟨hplain, hidle⟩)
  · refine runsOn_row chainEnableSpec (fun c u h => within_plain h.1) (fun c u ⟨_, _, hsome, hfresh, t, ht, hp, hjob, hused⟩ => ?_)
      (hr := fun c u ⟨hplain, hidle, _⟩ => plainReady_of_free ⟨hplain, hidle⟩)
    refine (chainEnable_run c u).trans ((if_neg hsome).trans ?_)
    exact beginWithdrawal_of_tracks hfresh rfl rfl rfl rfl (trackNums_ne_nil ⟨t, ht, by simp only [hp, hjob, hused]; rfl⟩)
  -- SEARCH_SET
  · exact runs_row searchSetSpec (fun c u ⟨hplain, hmasks, hforce, _⟩ => searchSet_valid hplain hmasks hforce)
      (fun c u ⟨_, _, _, _, hgrid, hsf, hfits⟩ => searchChange_of_addition hgrid hsf (BitVec.and_self) hfits)
      (hr := fun c u ⟨hplain, _, _, hidle, _⟩ => plainReady_of_free ⟨hplain, hidle⟩)
  · exact ends_row searchSetSpec (fun c u ⟨hplain, hmasks, hforce, _⟩ => searchSet_valid hplain hmasks hforce)
      (fun c u ⟨_, _, _, _, hgrid, hfits⟩ => searchChange_of_excess hgrid hfits)
      (hr := fun c u ⟨hplain, _, _, hidle, _⟩ => plainReady_of_free ⟨hplain, hidle⟩)
  · refine runsOn_row searchSetSpec (fun c u ⟨hplain, hmasks, hforce, _⟩ => searchSet_valid hplain hmasks (by omega))
      (fun c u ⟨_, _, hforce, _, hfresh, hgrid, hsf, hsf', _, t, ht, hp, hjob, hgone⟩ => ?_)
      (hr := fun c u ⟨hplain, _, _, hidle, _⟩ => plainReady_of_free ⟨hplain, hidle⟩)
    have hafter : { plainCfg u (pn c 0) with gridMask := (pw c 1).setWidth 4, sfMask := (pw c 1 >>> 8).setWidth 8 }
        = { plainCfg u (pn c 0) with sfMask := (pw c 1 >>> 8).setWidth 8 } := by rw [hgrid]
    have hfresh' : FreshTag c (refreshMode (setPlainCfg u (pn c 0)
        { plainCfg u (pn c 0) with sfMask := (pw c 1 >>> 8).setWidth 8 })) := by
      rw [FreshTag, keeps_refreshMode (fun t => t.rx)]
      exact hfresh
    change searchChange c .search { plainCfg u (pn c 0) with gridMask := (pw c 1).setWidth 4, sfMask := (pw c 1 >>> 8).setWidth 8 }
      (bit (pw c 2) 0) u = _
    rw [hafter, bit_zero_of_pn_zero hforce, searchChange_of_removal hsf hsf' rfl]
    exact beginWithdrawal_of_tracks hfresh' rfl rfl rfl rfl
      (trackNums_ne_nil ⟨t, ht, by simp only [hp, hjob, hgone, Bool.and_false, Bool.false_and]; rfl⟩)
  -- BEAM_ENABLE
  · exact runs_row beamEnableSpec (fun c u ⟨hplain, hforce, _⟩ => beamEnable_valid hplain hforce)
      (fun c u ⟨_, _, _, _, hmask, hfits⟩ => searchChange_of_addition (BitVec.and_self) (BitVec.and_self) hmask hfits)
      (hr := fun c u ⟨hplain, _, hidle, _⟩ => plainReady_of_free ⟨hplain, hidle⟩)
      (hh := fun c u ⟨_, _, _, hbelow, _⟩ => decide_eq_true hbelow)
  · exact ends_check beamEnableSpec (fun _ _ => rfl) rfl (fun _ _ _ => rfl) (by rintro _ ⟨⟩) fun c u ⟨_, _, hbeyond⟩ =>
      .inl ⟨Bool.and_eq_false_iff.mpr (.inr (decide_eq_false hbeyond)), rfl⟩
  -- Paddocks
  · exact runs_row paddockRestoreSpec (fun _ _ _ => rfl) (fun _ _ _ => rfl)
  · exact ends_row paddockWithdrawSpec (fun c u h => fits_iff.mpr h.1)
      (fun c u ⟨_, hexcess⟩ => (paddockWithdraw_run c u).trans (if_pos hexcess))
  · exact fun c s h hforce hroom hnone hfresh => paddockWithdraw_ends_at_once h hforce hroom hnone hfresh
  · refine runsOn_row paddockWithdrawSpec (fun c u ⟨hforce, _⟩ => fits_iff.mpr (by omega))
      (fun c u ⟨hforce, hroom, hfresh, t, ht, hp⟩ => ?_)
    have hfresh' : FreshTag c (refreshMode (paddocksOut c u)) := by
      rw [FreshTag, keeps_refreshMode (fun t => t.rx)]
      exact hfresh
    refine (paddockWithdraw_run c u).trans ((if_neg (Nat.not_lt.mpr hroom)).trans ?_)
    rw [bit_zero_of_pn_zero hforce]
    exact beginWithdrawal_of_tracks hfresh' rfl rfl rfl rfl (trackNums_ne_nil ⟨t, ht, hp⟩)
  -- LINK_CALIBRATE
  · exact runs_row linkCalibrateSpec (fun c u h => fits_iff.mpr h.1)
      (fun c u ⟨_, hports, _, hclose⟩ => (linkCalibrate_run c u).trans
        ((if_pos (dataPhase_sendSysref.mpr fun n hn => (hports n hn).2)).trans (runCalibration_of_close hclose)))
      (hr := fun c u ⟨_, hports, hidle, _⟩ => linkCalibrate_ready (fun n hn => (hports n hn).1) hidle)
  · exact runsOn_row linkCalibrateSpec (fun c u h => fits_iff.mpr h.1)
      (fun c u ⟨_, _, ⟨n, hn, hdown⟩, _⟩ => (linkCalibrate_run c u).trans
        (if_neg fun h => dataPhase_sendSysref.mp h n hn hdown))
      (hr := fun c u ⟨_, hports, _, hidle⟩ => linkCalibrate_ready hports hidle)
  -- BEAM_TABLE_ACTIVATE
  · exact runsOn_row (tableActivateSpec 0x0231 false)
      (fun c u ⟨hplain, hlo, hhi, hshift, hasn, _⟩ => activate_valid hplain hlo hhi hshift hasn _ _)
      (fun c u ⟨_, _, _, _, _, _, _, _, hroom, hcrc⟩ => (activate_run 0x0231 false c u).trans
        ((if_neg (by rw [hroom]; exact Bool.false_ne_true)).trans (if_neg fun h => bne_iff_ne.mp h hcrc)))
      (hr := fun c u ⟨hplain, _, _, _, _, _, hidle, hswap, _⟩ => activate_ready hplain hidle hswap _)
      (hh := fun c u ⟨_, _, _, _, _, hahead, _⟩ => hahead)
  · exact ends_row (tableActivateSpec 0x0231 false)
      (fun c u ⟨hplain, hlo, hhi, hshift, hasn, _⟩ => activate_valid hplain hlo hhi hshift hasn _ _)
      (fun c u ⟨_, _, _, _, _, _, _, _, hexcess⟩ => (activate_run 0x0231 false c u).trans (if_pos (by rw [hexcess]; rfl)))
      (hr := fun c u ⟨hplain, _, _, _, _, _, hidle, hswap, _⟩ => activate_ready hplain hidle hswap _)
      (hh := fun c u ⟨_, _, _, _, _, hahead, _⟩ => hahead)

end Sys2Proof.Proofs
end

section
/-! Settles Obligations.ReceiveEventsAct. -/

namespace Sys2Proof.Proofs

open Sys2Proof.Machine Sys2Proof.Laws Sys2Proof.Safety

-- Proofs one after another: the threads of many at once would pass the memory that the check allows.
set_option Elab.async false

/-! ### Marks of tracks -/

@[simp] theorem bit_setBit_self {n i : Nat} (m : BitVec n) (h : i < n) : bit (setBit m i true) i = true := by
  simp only [bit, setBit, if_true, BitVec.getLsbD_or, BitVec.getLsbD_ofNat, Nat.testBit_two_pow_self, h, decide_true, Bool.and_self,
    Bool.or_true]

/-- A live track in progress that a mark names has it. -/
theorem bit_marks_of_markTracks {i : Nat} {f : Track → Bool} {s : State} {t : Track} (hi : i < 32) (ht : t ∈ (markTracks i f s).rx.tracks) (hprogress : inProgress t = true)
    (hlive : t.job = none) (hnamed : f t = true) : bit t.marks i = true := by
  obtain ⟨u, -, rfl⟩ := List.mem_map.mp ht
  split
  · exact bit_setBit_self u.marks hi
  · next hnot =>
    rw [if_neg hnot] at hprogress hlive hnamed
    exact absurd (by rw [hprogress, hlive, hnamed]; rfl) hnot

/-! ### Beam tables -/

theorem exec_beamTableSwap_rx {p : Fin 4} {w : BeamSwap} {s : State}
    (hfind : s.rx.swaps.find? (fun x => x.plain = p.val && x.tx == false) = some w) (hasn : asnReached (asnAt s (now s)) w.asn = true) :
    exec (.beamTableSwap p false) s = .next (complete w.queue w.tag .ok [w32 w.count]
      (swapRx w { s with rx := { s.rx with swaps := s.rx.swaps.erase w } })) := by
  have hfind' : s.rx.swaps.find? (fun x => x.plain = p.val && x.tx = false) = some w := hfind
  change execBeamTableSwap p false s = _
  unfold execBeamTableSwap
  rw [hfind']
  simp only [hasn, Bool.not_true, Bool.and_false, Bool.false_eq_true, if_false]

theorem swapRx_swaps (w : BeamSwap) (s : State) : (plainCfg (swapRx w s) w.plain).bank = (rxPlain s w.plain).shadow
    ∧ (plainCfg (swapRx w s) w.plain).beams = w.count ∧ (plainCfg (swapRx w s) w.plain).beamShift = w.shift
    ∧ (rxPlain (swapRx w s) w.plain).shadow = (plainCfg s w.plain).bank
    ∧ ∀ t ∈ (swapRx w s).rx.tracks, t.plain = w.plain → inProgress t = true → t.job = none → bit t.marks 1 = true := by
  have hcfg : plainCfg (swapRx w s) w.plain = { plainCfg s w.plain with
      bank := (rxPlain s w.plain).shadow, beams := w.count, beamShift := w.shift
      beamMask := maskAfterSwap (plainCfg s w.plain) w.count } :=
    (keeps_refreshMode (fun t => plainCfg t w.plain) _).trans ((plainCfg_setPlainCfg s _ _ _).trans (if_pos rfl))
  have hshadow : (rxPlain (swapRx w s) w.plain).shadow = (plainCfg s w.plain).bank :=
    (keeps_refreshMode (fun t => (rxPlain t w.plain).shadow) _).trans
      (congrArg RxPlain.shadow ((rxPlain_setRxPlain _ _ _ _).trans (if_pos rfl)))
  refine ⟨by rw [hcfg], by rw [hcfg], by rw [hcfg], hshadow, fun t ht hplain hprogress hlive => ?_⟩
  rw [swapRx, keeps_refreshMode (fun t => t.rx.tracks)] at ht
  exact bit_marks_of_markTracks (by decide) ht hprogress hlive (decide_eq_true hplain)

theorem beamParityError_marks (p : Fin 4) (b : Fin 64) (s : State) : ∃ t, exec (.beamParityError p b false) s = .next t
    ∧ bit (rxPlain t p).beamZero b = true ∧ trouble t .beamTableErr = true
    ∧ ∀ x ∈ t.rx.tracks, x.plain = p.val → x.beam = b.val → inProgress x = true → x.job = none → bit x.marks 1 = true := by
  refine ⟨_, rfl, ?_, trouble_postEvent (trouble_raise _ _), fun x hx hplain hbeam hprogress hlive => ?_⟩
  · rw [keeps_postEvent _ _ _ _ (fun t => rxPlain t p), keeps_raise _ _ (fun t => rxPlain t p)]
    change bit (rxPlain (setRxPlain s p.val _) p.val).beamZero b = true
    rw [rxPlain_setRxPlain, if_pos rfl]
    exact bit_setBit_self _ b.isLt
  · rw [keeps_postEvent _ _ _ _ (fun t => t.rx.tracks), keeps_raise _ _ (fun t => t.rx.tracks)] at hx
    exact bit_marks_of_markTracks (by decide) hx hprogress hlive (by simp [hplain, hbeam])

/-! ### Lanes -/

theorem laneLoss_acts (n : Fin 16) (p : Nat) (s : State) (hport : plainOfPort s n = some p) (hon : (plainCfg s p).enabled = true)
    (hlane : (portRun s n).lane ≠ 0) :
    ∃ t, exec (.laneLoss n) s = .next t ∧ (portRun t n).lane = 0 ∧ trouble t (.laneFault n) = true
      ∧ ∀ x ∈ t.rx.tracks, x.plain = p → inProgress x = true → x.job = none → bit x.marks 3 = true := by
  have hgo : (!(plainCfg s p).enabled || decide ((portRun s n).lane = 0)) = false := by simp [hon, hlane]
  let s1 := setPort s n { portRun s n with lane := 0 }
  let s2 := setRxPlain s1 p { rxPlain s1 p with lossPorts := setBit (rxPlain s1 p).lossPorts n true }
  let s3 := if !bit (rxPlain s p).lossPorts n then addMark p { kind := 1, ports := maskOf 16 [n.val], start := antennaNow s2 p } s2
    else s2
  have hexec : exec (.laneLoss n) s
      = .next (markTracks 3 (fun t => t.plain = p) (postEvent 0x0201 n 0#32 (raise (.laneFault n) s3))) := by
    change execLaneLoss n s = _
    unfold execLaneLoss
    rw [hport]
    dsimp only
    rw [hgo, if_neg Bool.false_ne_true]
  have hdown : (portRun s3 n).lane = 0 := by
    have hs1 : (portRun s1 n).lane = 0 := congrArg Port.lane ((portRun_setPort _ _ _ _).trans (if_pos rfl))
    dsimp only [s3]
    split <;> exact hs1
  refine ⟨_, hexec, ?_, trouble_postEvent (trouble_raise _ _), fun x hx hplain hprogress hlive =>
    bit_marks_of_markTracks (by decide) hx hprogress hlive (decide_eq_true hplain)⟩
  exact (keeps_postEvent _ _ _ _ fun t => (portRun t n).lane).trans ((keeps_raise _ _ fun t => (portRun t n).lane).trans hdown)

theorem settleCalWaits_of_none {s : State} (h : s.rx.calWait = []) : settleCalWaits s = s := by
  rw [settleCalWaits, h]
  rfl

theorem laneReturns_port (p n : Nat) (s : State) :
    portRun (laneReturns p n s) n = { portRun s n with lane := 1 } ∧ (laneReturns p n s).rx.calWait = s.rx.calWait := by
  refine ⟨?_, rfl⟩
  change portRun (setPort s n _) n = _
  rw [portRun_setPort, if_pos rfl]

theorem laneRelink_acts (n : Fin 16) (a : Fin 128) (p : Nat) (s : State) (hport : plainOfPort s n = some p)
    (hon : (plainCfg s p).enabled = true) (hlane : (portRun s n).lane = 0) (hrelease : (portRun s n).release ≠ none)
    (hwait : s.rx.calWait = []) :
    ∃ t, exec (.laneRelink n a) s = .next t ∧ (portRun t n).relinks = min ((portRun s n).relinks + 1) 0xFFFFFFFF
      ∧ (portRun t n).lane = (if (portRun s n).arrival = a.val then 1 else 2)
      ∧ ((portRun s n).arrival ≠ a.val → trouble t (.sysrefFault (Fin.ofNat 4 p)) = true) := by
  have hgo : (!(plainCfg s p).enabled || (portRun s n).lane != 0) = false := by simp [hon, hlane]
  have hnone : (portRun s n).release.isNone = false := by
    rwa [Option.isNone_eq_false_iff, Option.isSome_iff_ne_none]
  let s1 : State := setPort s n { portRun s n with relinks := saturate 32 ((portRun s n).relinks + 1), lane := 2 }
  have hs1 : portRun s1 n = { portRun s n with relinks := saturate 32 ((portRun s n).relinks + 1), lane := 2 } := by
    rw [portRun_setPort, if_pos rfl]
  have hexec : exec (.laneRelink n a) s = if (portRun s n).arrival = a.val then .next (settleCalWaits (laneReturns p n s1))
      else .next (settleCalWaits (postEvent 0x0201 n 1#32 (raise (.sysrefFault (Fin.ofNat 4 p)) s1))) := by
    change execLaneRelink n a s = _
    unfold execLaneRelink
    dsimp only
    rw [hport]
    dsimp only
    rw [hgo, hnone, if_neg Bool.false_ne_true, if_neg Bool.false_ne_true]
  by_cases harrival : (portRun s n).arrival = a.val
  · obtain ⟨hback, hwaits⟩ := laneReturns_port p n s1
    refine ⟨_, by rw [hexec, if_pos harrival, settleCalWaits_of_none (hwaits.trans hwait)], ?_, ?_, fun h => absurd harrival h⟩
    · rw [hback, hs1]; rfl
    · rw [hback, if_pos harrival]
  · have hwaits : (postEvent 0x0201 n 1#32 (raise (.sysrefFault (Fin.ofNat 4 p)) s1)).rx.calWait = [] :=
      (keeps_postEvent _ _ _ _ fun t => t.rx.calWait).trans ((keeps_raise _ _ fun t => t.rx.calWait).trans hwait)
    have hsame : portRun (postEvent 0x0201 n 1#32 (raise (.sysrefFault (Fin.ofNat 4 p)) s1)) n = portRun s1 n :=
      (keeps_postEvent _ _ _ _ fun t => portRun t n).trans (keeps_raise _ _ fun t => portRun t n)
    refine ⟨_, by rw [hexec, if_neg harrival, settleCalWaits_of_none hwaits], ?_, ?_, fun _ => trouble_postEvent (trouble_raise _ _)⟩
    · rw [hsame, hs1]; rfl
    · rw [hsame, hs1, if_neg harrival]

/-! ### Levels -/

/-- The end of a level window that is judged (R115). -/
theorem exec_levelReport {p : Fin 4} {x : List (List Word)} {s : State} (hon : (plainCfg s p).enabled = true)
    (hclock : s.dev.clkLost = false) (hwindow : (rxPlain s p).lastWindow < (now s).toNat / 100000000) (hx : x.length = chainsOf s p) :
    let w := (now s).toNat / 100000000
    let s1 := setRxPlain s p { rxPlain s p with lastWindow := w }
    let s2 := if (plainCfg s p).levels then postLevels p (BitVec.ofNat 64 (100000000 * w)) (x.map chainLevel) s1 else s1
    exec (.levelReport p x) s = if (x.map chainLevel).any (fun l => (plainCfg s p).clipLimit < l.2) then
        .next (markClipped p (BitVec.ofNat 64 (100000000 * (w - 1))) (raise (.clip p) s2))
      else .next s2 := by
  have hgo : (!(plainCfg s p).enabled || s.dev.clkLost || decide ((now s).toNat / 100000000 ≤ (rxPlain s p).lastWindow)) = false := by
    simp [hon, hclock, hwindow]
  have hmap : (List.range (chainsOf s p)).map (fun i => chainLevel (x.getD i [])) = x.map chainLevel := by
    rw [← hx]
    refine List.ext_getElem (by simp) fun i hi _ => ?_
    simp at hi
    simp [hi]
  change execLevelReport p x s = _
  unfold execLevelReport
  dsimp only
  rw [hgo, if_neg Bool.false_ne_true, hmap]

theorem bit_marks_of_markClipped {p : Nat} {t : BitVec 64} {s : State} {u : Track} (hu : u ∈ (markClipped p t s).rx.tracks)
    (hplain : u.plain = p) (hprogress : inProgress u = true) (hlive : u.job = none) : bit u.marks 7 = true := by
  obtain ⟨v, hv, rfl⟩ := List.mem_map.mp hu
  by_cases hstage : v.stage = 3
  · rw [if_pos hstage] at hprogress
    dsimp only at hprogress
    split at hprogress
    · exact absurd (of_decide_eq_true hprogress) (by simp [markTrack, hstage])
    · exact absurd (of_decide_eq_true hprogress) (by simp [hstage])
  · rw [if_neg hstage] at *
    exact bit_marks_of_markTracks (by decide) hv hprogress hlive (decide_eq_true hplain)

theorem levelReport_clips (p : Fin 4) (x : List (List Word)) (l : List Word) (s : State) (hon : (plainCfg s p).enabled = true)
    (hclock : s.dev.clkLost = false) (hwindow : (rxPlain s p).lastWindow < (now s).toNat / 100000000) (hx : x.length = chainsOf s p)
    (hl : l ∈ x) (hclip : (plainCfg s p).clipLimit < (chainLevel l).2) :
    ∃ t, exec (.levelReport p x) s = .next t ∧ trouble t (.clip p) = true
      ∧ ∀ u ∈ t.rx.tracks, u.plain = p.val → inProgress u = true → u.job = none → bit u.marks 7 = true := by
  have hany : (x.map chainLevel).any (fun l => (plainCfg s p).clipLimit < l.2) = true :=
    List.any_eq_true.mpr ⟨chainLevel l, List.mem_map_of_mem hl, decide_eq_true hclip⟩
  refine ⟨_, (exec_levelReport hon hclock hwindow hx).trans (if_pos hany), trouble_raise _ _,
    fun u hu hplain hprogress hlive => bit_marks_of_markClipped hu hplain hprogress hlive⟩

theorem levelReport_posts (p : Fin 4) (x : List (List Word)) (s : State) (hon : (plainCfg s p).enabled = true)
    (hclock : s.dev.clkLost = false) (hwindow : (rxPlain s p).lastWindow < (now s).toNat / 100000000)
    (hlevels : (plainCfg s p).levels = true) (hx : x.length = chainsOf s p)
    (hquiet : ∀ l ∈ x, (chainLevel l).2 ≤ (plainCfg s p).clipLimit) :
    exec (.levelReport p x) s = .next (postLevels p (BitVec.ofNat 64 (100000000 * ((now s).toNat / 100000000))) (x.map chainLevel)
      (setRxPlain s p { rxPlain s p with lastWindow := (now s).toNat / 100000000 })) := by
  have hnone : ¬ (x.map chainLevel).any (fun l => (plainCfg s p).clipLimit < l.2) = true := by
    simpa using hquiet
  rw [exec_levelReport hon hclock hwindow hx, if_neg hnone, if_pos hlevels]

theorem chainLevel_clips (l : List Word) : (chainLevel l).2 = (l.filter (fun (w : Word) => w.setWidth 16 = 0x8000#16
    ∨ w.setWidth 16 = 0x7FFF#16 ∨ (w >>> 16).setWidth 16 = 0x8000#16 ∨ (w >>> 16).setWidth 16 = 0x7FFF#16)).length := by
  have hclips : clips = fun (w : Word) => decide (w.setWidth 16 = 0x8000#16 ∨ w.setWidth 16 = 0x7FFF#16
      ∨ (w >>> 16).setWidth 16 = 0x8000#16 ∨ (w >>> 16).setWidth 16 = 0x7FFF#16) := by
    funext w
    simp only [clips, Bool.decide_or, Bool.or_assoc]
  rw [chainLevel, hclips]

theorem meanPower_bounds (l : List Word) : -1000 ≤ meanPower l ∧ meanPower l ≤ 30 := by
  have hcount : ∀ p : Nat → Bool, ((List.range 1030).filter p).length ≤ 1030 := fun p => by
    simpa using List.length_filter_le p (List.range 1030)
  unfold meanPower
  dsimp only
  have := hcount (fun j => l.length != 0 && decide (10 ^ (2 * j) * (l.length * 2 ^ 30) ^ 200 ≤ powerSum l ^ 200 * 10 ^ 1999))
  omega

/-! ### Beam samples -/

theorem saturate16_bounds (v : Int) : -32768 ≤ saturate16 v ∧ saturate16 v ≤ 32767 := by
  unfold saturate16
  split
  · omega
  · split <;> omega

theorem beamSample_bounds (s : State) (p b m : Nat) : -32768 ≤ (beamSample s p b m).1 ∧ (beamSample s p b m).1 ≤ 32767
    ∧ -32768 ≤ (beamSample s p b m).2 ∧ (beamSample s p b m).2 ≤ 32767 := by
  unfold beamSample
  split
  · obtain ⟨h1, h2⟩ := saturate16_bounds (scaled (plainCfg s p).beamShift (beamSum s p b m)).1
    obtain ⟨h3, h4⟩ := saturate16_bounds (scaled (plainCfg s p).beamShift (beamSum s p b m)).2
    exact ⟨h1, h2, h3, h4⟩
  · decide

/-- A fraction v / d rounded differs from it by at most one half. -/
theorem roundAway_near (v : Int) (d : Nat) (hd : 0 < d) : 2 * (roundAway v d * d - v).natAbs ≤ d := by
  have hfloor : ∀ a : Int, 0 ≤ a → 2 * ((2 * a + d) / (2 * d) * d - a).natAbs ≤ d := by
    intro a _
    have hd' : (0 : Int) < 2 * d := by omega
    have hdiv := Int.mul_ediv_add_emod (2 * a + d) (2 * d)
    have hlo := Int.emod_nonneg (2 * a + d) (by omega : (2 * d : Int) ≠ 0)
    have hhi := Int.emod_lt_of_pos (2 * a + d) hd'
    generalize (2 * a + d) / (2 * (d : Int)) = k at hdiv ⊢
    generalize (2 * a + d) % (2 * (d : Int)) = r at hdiv hlo hhi
    have hk : 2 * (k * (d : Int)) = 2 * d * k := by ring
    omega
  unfold roundAway
  split
  · next hneg =>
    have h := hfloor (-v) (by omega)
    have hsign : -((2 * -v + (d : Int)) / (2 * d)) * d - v = -((2 * -v + (d : Int)) / (2 * d) * d - -v) := by ring
    rw [hsign, Int.natAbs_neg]
    exact h
  · next hpos => exact hfloor v (by omega)

/-- Settles O18, clause by clause. -/
theorem receiveEventsAct : Obligations.ReceiveEventsAct :=
  ⟨fun _ _ _ hfind hasn => exec_beamTableSwap_rx hfind hasn, swapRx_swaps, beamParityError_marks, laneLoss_acts, laneRelink_acts,
    fun _ _ => rfl, levelReport_posts, levelReport_clips, chainLevel_clips, meanPower_bounds,
    fun s p b m hnot => by rw [beamSample, hnot, if_neg Bool.false_ne_true], beamSample_bounds, roundAway_near⟩

end Sys2Proof.Proofs
end

section
/-! Refutes Obligations.TrackEventsAct: a pilot is taken by every track of its number, each from what it has itself measured, where
the clause puts one track in the place of them all. -/

namespace Sys2Proof.Proofs

open Sys2Proof.Machine

-- Proofs one after another: the threads of many at once would pass the memory that the check allows.
set_option Elab.async false

/-- A track in its payload, with a header that sets PILOT. -/
def pilotTrack : Track := { num := 5, sf := 9, stage := 2, hdr := some 0xBC0620#24 }

/-- A state in which two tracks that differ in their beam have the same number. -/
def twoOfOneNumber : State :=
  { State.reset with rx := { State.reset.rx with tracks := [pilotTrack, { pilotTrack with beam := 1 }] } }

/-- A pilot is taken by each track of the number (R134). -/
theorem exec_pilot_of_payload {n : Fin 4096} {u : Track} {f : Word} {e : BitVec 64} {s : State} (htrack : trackAt s n = some u)
    (hgo : (u.stage = 2 && u.pilots < pilotsOf u && (u.pilots = 0 || u.pilotAt < e)) = true) :
    exec (.pilot n f e) s = .next (modTrack u.num (takePilot s f e) s) := by
  change execPilot n f e s = _
  unfold execPilot
  rw [htrack]
  dsimp only
  rw [if_pos hgo]

/-- Refutes O19: on twoOfOneNumber the pilot leaves the second track on its own beam 1, and the clause puts it on beam 0. -/
theorem not_trackEventsAct : ¬ Obligations.TrackEventsAct := by
  intro h
  obtain ⟨-, -, -, -, -, -, -, -, -, -, -, -, hpilot, -⟩ := h
  have hnext := (exec_pilot_of_payload (n := 5) (s := twoOfOneNumber) rfl (by decide)).symm.trans
    (hpilot 5 pilotTrack 0#32 0#64 twoOfOneNumber rfl rfl rfl (by decide))
  have hbeams := congrArg (fun t => t.rx.tracks.map Track.beam) (Host.Outcome.next.inj hnext)
  exact absurd hbeams (by decide)

end Sys2Proof.Proofs
end

section
/-! Settles Obligations.CuttingCommandsRun. -/

namespace Sys2Proof.Proofs

open Sys2Proof.Machine Sys2Proof.Laws Sys2Proof.Safety

-- Proofs one after another: the threads of many at once would pass the memory that the check allows.
set_option Elab.async false

/-! ### Settings and status of the cutting engine -/

theorem cutSet_valid {c : Packet} (h : pn c 0 ≤ 3 ∧ pn c 1 < 8 ∧ 1 ≤ pn c 2 ∧ pn c 2 ≤ 4) : cutSetSpec.valid c = true :=
  Bool.and_eq_true_iff.mpr
    ⟨Bool.and_eq_true_iff.mpr ⟨within_plain h.1, fits_iff.mpr h.2.1⟩, within_iff.mpr h.2.2⟩

theorem cutSet_runs : Runs .cutSet 0x0300 3
    (fun c u => pn c 0 ≤ 3 ∧ pn c 1 < 8 ∧ 1 ≤ pn c 2 ∧ pn c 2 ≤ 4 ∧ draining u (pn c 0) = false) (fun _ _ => [])
    (fun c u =>
      let v : CutCfg := { enable := bit (pw c 1) 0, autoRetry := bit (pw c 1) 1, events := bit (pw c 1) 2, maxLayer := pn c 2 }
      { u with cfg := { u.cfg with cut := tabSet u.cfg.cut (pn c 0) v } }) :=
  runs_row cutSetSpec (fun _ _ ⟨hp, hf, hl, hm, _⟩ => cutSet_valid ⟨hp, hf, hl, hm⟩) (fun _ _ _ => rfl)
    (hr := fun c u ⟨_, _, _, _, hfree⟩ => by change (!draining u (pn c 0)) = true; rw [hfree]; rfl)

theorem cutSet_barred : Ends .cutSet 0x0300 3
    (fun c u => pn c 0 ≤ 3 ∧ pn c 1 < 8 ∧ 1 ≤ pn c 2 ∧ pn c 2 ≤ 4 ∧ draining u (pn c 0) = true) .invalidState :=
  ends_notReady cutSetSpec (fun _ _ ⟨hp, hf, hl, hm, _⟩ => cutSet_valid ⟨hp, hf, hl, hm⟩)
    (fun c u ⟨_, _, _, _, hdrain⟩ => by change (!draining u (pn c 0)) = false; rw [hdrain]; rfl)

theorem cutStatusWords_eq (s : State) : cutStatusWords s =
    let count (f : JobState → Bool) : Word := w32 (s.cut.jobs.filter (fun j => f j.state)).length
    [count (fun x => x != .queued && x != .awaiting), count (· = .queued), count (· = .residue), count (· = .awaiting),
     w32 (min 8000 (4000 * (s.cut.jobs.filter (fun j => j.state = .subtracting)).length)),
     w32 ((cutPlain s 0).failed.length + (cutPlain s 1).failed.length + (cutPlain s 2).failed.length
       + (cutPlain s 3).failed.length)] := by
  have hsum : ((List.range 4).map (fun p => (cutPlain s p).failed.length)).sum
      = (cutPlain s 0).failed.length + (cutPlain s 1).failed.length + (cutPlain s 2).failed.length
        + (cutPlain s 3).failed.length := by
    simp [show List.range 4 = [0, 1, 2, 3] from rfl, Nat.add_assoc]
  rw [cutStatusWords, hsum]
  rfl

theorem storeStatusWords_eq (s : State) (p : Nat) : storeStatusWords s p =
    [w32 (cutPlain s p).ringBase, (BitVec.ofNat 64 (cutPlain s p).ringBase >>> 32).setWidth 32,
     w32 ((cutPlain s p).ringSize / 128), w32 (writeOffset s p / 128), (writeTime s p).setWidth 32,
     (writeTime s p >>> 32).setWidth 32, w32 (ringNs s p / 1000)] := by
  have hlow : (BitVec.ofNat 64 (cutPlain s p).ringBase).setWidth 32 = w32 (cutPlain s p).ringBase :=
    BitVec.setWidth_ofNat_of_le (by decide) _
  rw [← hlow]
  rfl

/-! ### Retries -/

theorem cutRetry_ready_iff {c : Packet} {u : State} :
    cutRetrySpec.ready c u = true ↔ pw c 0 = 0xFFFFFFFF#32 ∨ retryJobs (pw c 0) u ≠ [] := by
  change (decide (pw c 0 = 0xFFFFFFFF#32) || !(retryJobs (pw c 0) u).isEmpty) = true ↔ _
  simp

theorem cutRetry_runs : Runs .cutRetry 0x0302 1
    (fun c u => pw c 0 = 0xFFFFFFFF#32 ∨ retryJobs (pw c 0) u ≠ []) (fun c u => [w32 (retryJobs (pw c 0) u).length])
    (fun c u => (retryJobs (pw c 0) u).foldl (fun t j => setJob { j with state := .queued } t) u) :=
  runs_row cutRetrySpec (fun _ _ _ => rfl) (fun _ _ _ => rfl) (hr := fun _ _ h => cutRetry_ready_iff.mpr h)

theorem cutRetry_notReady : Ends .cutRetry 0x0302 1
    (fun c u => pw c 0 ≠ 0xFFFFFFFF#32 ∧ retryJobs (pw c 0) u = []) .invalidState :=
  ends_notReady cutRetrySpec (fun _ _ _ => rfl) (fun _ _ ⟨hone, hnone⟩ =>
    Bool.eq_false_iff.mpr fun h => (cutRetry_ready_iff.mp h).elim hone (fun h => h hnone))

/-! ### Combining -/

theorem combineSet_valid {c : Packet} (h : 5 ≤ pn c 2 ∧ pn c 2 ≤ 200 ∧ pn c 3 < 65536 ∧ 34 ≤ pn c 4 ∧ pn c 4 ≤ 63) :
    combineSetSpec.valid c = true :=
  Bool.and_eq_true_iff.mpr
    ⟨Bool.and_eq_true_iff.mpr ⟨within_iff.mpr ⟨h.1, h.2.1⟩, fits_iff.mpr h.2.2.1⟩, within_iff.mpr h.2.2.2⟩

/-- A count that is read is kept unless its clear flag is set. -/
theorem cutCountersRead_runs : Runs .cutCountersRead 0x0320 2 (fun c _ => pn c 0 ≤ 3 ∧ pn c 1 < 2)
    (fun c u => (cutPlain u (pn c 0)).counters.map w32)
    (fun c u => if pn c 1 = 1 then
      setCutPlain u (pn c 0) { cutPlain u (pn c 0) with counters := List.replicate 19 0 } else u) :=
  runs_row cutCountersReadSpec (fun _ _ h => Bool.and_eq_true_iff.mpr ⟨within_plain h.1, fits_iff.mpr h.2⟩) (fun _ _ _ => rfl)

/-- Settles O20: each row of the cutting and combining commands carries out its own effect. -/
theorem cuttingCommandsRun : Obligations.CuttingCommandsRun :=
  ⟨cutSet_runs,
   runs_row cutStatusSpec (fun _ _ _ => rfl) (fun _ u _ => by rw [← cutStatusWords_eq]; rfl),
   cutSet_barred, cutRetry_runs, cutRetry_notReady,
   runs_row storeStatusSpec (fun _ _ h => within_plain h) (fun c u _ => by rw [← storeStatusWords_eq]; rfl),
   runs_row spanMarksReadSpec (fun _ _ ⟨hp, hn⟩ => within_and ⟨Nat.zero_le _, hp, hn⟩) (fun _ _ _ => rfl),
   runs_row cutEngineRestartSpec (fun _ _ _ => rfl) (fun _ _ _ => rfl),
   runs_row combineSetSpec (fun _ _ h => combineSet_valid h) (fun _ _ _ => rfl),
   runs_row combineStatusSpec (fun _ _ _ => rfl) (fun _ _ _ => rfl),
   cutCountersRead_runs,
   runs_row combineCountersReadSpec (fun _ _ h => fits_iff.mpr h) (fun _ _ _ => rfl)⟩

end Sys2Proof.Proofs
end

section
/-! Settles Obligations.CuttingAndCombiningEventsAct. -/

namespace Sys2Proof.Proofs

open Sys2Proof.Machine Sys2Proof.Laws Sys2Proof.Safety

-- Proofs one after another: the threads of many at once would pass the memory that the check allows.
set_option Elab.async false

/-! ### The life of a job -/

theorem cutJobDispatch_dispatches {j : CutJob} {s : State}
    (hfirst : firstBy jobBefore (s.cut.jobs.filter (fun j => j.state = .queued)) = some j) (hroom : jobsRunning s < 64) :
    exec .cutJobDispatch s = .next (if spanStays s j = true ∧ spanMarked s j.plain 3 j.tStart j.tEnd = false then
        setJob { j with state := .dispatched } s
      else partialCut j j.progress (expireJob j 0 s)) := by
  change Host.Outcome.next (dispatchNext s) = _
  rw [dispatchNext, hfirst]
  dsimp only
  rw [if_neg (Nat.not_le.mpr hroom), dispatchJob]
  simp only [Bool.and_eq_true, Bool.not_eq_true']
  rfl

theorem cutSubtractionStart_opens {j : CutJob} {s : State} (hjob : jobAt s j.id = some j) (hstate : j.state = .dispatched)
    (hwait : waitsForJob s j = false) (hread : readInside s j = false) :
    exec (.cutSubtractionStart j.id) s = .next (openCut j (setJob { j with state := .subtracting } s)) := by
  change execCutSubtractionStart j.id s = _
  rw [execCutSubtractionStart, hjob]
  dsimp only
  rw [hstate, hwait, hread]
  rfl

theorem cuts_openCut {j : CutJob} {s : State} (h : cutRecOf s j.plain j.id = none) :
    (cutPlain (openCut j s) j.plain).cuts = (cutPlain s j.plain).cuts ++ [{ job := j.id, frame := j.frame, upto := j.tStart }] := by
  rw [openCut, h, if_neg (by simp), cutPlain_setCutPlain, if_pos rfl]

theorem cutSubtractionEnd_subtracts {j : CutJob} {p : Fin 4} {s : State} (hjob : jobAt s j.id = some j)
    (hstate : j.state = .subtracting) (hplain : j.plain = p) :
    exec (.cutSubtractionEnd j.id p) s =
      .next (startPass (setJob { j with state := .subtracted, progress := 100 } (advanceCut j (j.tEnd + 10#64) s))) := by
  change execCutSubtractionEnd j.id p s = _
  rw [execCutSubtractionEnd, hjob]
  dsimp only
  rw [if_pos (by simp [hstate, hplain])]

theorem cutJobExpired_subtracting {j : CutJob} {n : Nat} {s : State} (hjob : jobAt s j.id = some j)
    (hstate : j.state = .subtracting) (hring : inRing s j.plain j.tStart = false) (hn : n ≤ 100) :
    exec (.cutJobExpired j.id n) s = .next (partialCut j n (advanceCut j (progressAt j n) (expireJob j 1 s))) := by
  change execCutJobExpired j.id n s = _
  rw [execCutJobExpired, hjob]
  dsimp only
  rw [hring, if_neg Bool.false_ne_true, if_pos hstate, Nat.min_eq_left hn]

theorem cutJobRelease_releases {j : CutJob} {s : State} (hjob : jobAt s j.id = some j) (hstate : j.state = .awaiting)
    (hdue : reached s (j.endedAt + 1000000000#64) = true) :
    exec (.cutJobRelease j.id) s =
      .next (partialCut j j.progress (jobEvent j 0x0304 j.progress (countCut 7 j.plain 1 (dropJob j.id s)))) := by
  change execCutJobRelease j.id s = _
  rw [execCutJobRelease, hjob]
  dsimp only
  rw [hstate, hdue]
  rfl

theorem cutJobComplete_completes {j : CutJob} {s : State} (hjob : jobAt s j.id = some j) (hstate : j.state = .residue)
    (htried : untried s j = false) (htracks : ∀ t ∈ s.rx.tracks, t.job ≠ some j.id)
    (hpends : ∀ x ∈ s.rx.detq, x.track.job ≠ some j.id) :
    exec (.cutJobComplete j.id) s = .next (startPass (jobEvent j 0x0301 j.accepted (dropJob j.id s))) := by
  change execCutJobComplete j.id s = _
  rw [execCutJobComplete, hjob]
  dsimp only
  rw [if_pos (by simpa [hstate, htried] using ⟨htracks, hpends⟩)]

theorem cutJobComplete_of_untried {j : CutJob} {s : State} (hjob : jobAt s j.id = some j) (htried : untried s j = true) :
    exec (.cutJobComplete j.id) s = .next s := by
  change execCutJobComplete j.id s = _
  rw [execCutJobComplete, hjob]
  dsimp only
  rw [htried, if_neg (by simp)]

/-! ### What the ring holds -/

theorem storedSample_of_untouched {s : State} {p c m : Nat} (hcuts : (cutPlain s p).cuts = [])
    (hzeros : (cutPlain s p).zeros = []) : storedSample s p c m = chainSample s p c m := by
  rw [storedSample, hzeros, hcuts]
  change rawSample s p c m = _
  rw [rawSample, hzeros]
  rfl

theorem storedSample_of_zero {s : State} {p c m : Nat} {x : SpanMark} (hx : x ∈ (cutPlain s p).zeros)
    (hzero : zeroBy s p c m x = true) : storedSample s p c m = (0, 0) := by
  rw [storedSample, if_pos (List.any_eq_true.mpr ⟨x, hx, hzero⟩)]

theorem residueOf_cons_of_skipped {s : State} {p c m : Nat} (x : CutRec) (l : List CutRec) (h : skipped s p c m = true) :
    residueOf s p c (x :: l) m = residueOf s p c l m := by
  have hreach : cutReaches s p c x m = false := by simp [cutReaches, h]
  rw [residueOf, hreach]
  rfl

theorem residueOf_cons_of_reached {s : State} {p c m : Nat} (x : CutRec) (l : List CutRec) (h : cutReaches s p c x m = true) :
    residueOf s p c (x :: l) m = saturatePair (subtracted s p c x.frame (residueOf s p c l) m) := by
  rw [residueOf, if_pos h]

theorem ringOverwrite_forgets {p : Fin 4} {old : BitVec 64} {s : State} (h : notBefore (oldestAt s p (now s)) old = true) :
    ∃ t, exec (.ringOverwrite p old) s = .next t
      ∧ (cutPlain t p).failed = (cutPlain s p).failed.filter (fun f => notBefore f.track.tStart old)
      ∧ (cutPlain t p).decoded = (cutPlain s p).decoded.filter (fun x => notBefore x.tStart old)
      ∧ (∀ m ∈ (cutPlain t p).marks, m ∈ (cutPlain s p).marks)
      ∧ ∀ k, k ≠ p.val → cutPlain t k = cutPlain s k := by
  refine ⟨_, if_pos h, ?_⟩
  simp only [cutPlain_setCutPlain, if_true]
  exact ⟨trivial, trivial, fun m hm => (List.mem_filter.mp hm).1, fun k hk => if_neg hk⟩

/-! ### Detections on the residue -/

theorem residueDetection_of_preamble {j : CutJob} {d : DetectIn} {s : State} (hjob : jobAt s j.id = some j)
    (hstate : j.state = .residue) (hplain : d.plain.val = j.plain) :
    exec (.residueDetection j.id d none) s = .next (redetect j d s) := by
  change execResidueDetection j.id d none s = _
  rw [execResidueDetection, hjob]
  dsimp only
  rw [if_neg (by simp [hstate, hplain])]

theorem residueDetection_of_failed {j : CutJob} {d : DetectIn} {x : RedemodIn} {f : Failed} {s : State}
    (hjob : jobAt s j.id = some j) (hstate : j.state = .residue) (hplain : d.plain.val = j.plain)
    (hf : failedFor s j x.seq = some f) : exec (.residueDetection j.id d (some x)) s =
      .next (addPend { track := redemodTrack j f x, redemod := some x.seq } (noteTried j x.seq s)) := by
  change execResidueDetection j.id d (some x) s = _
  rw [execResidueDetection, hjob]
  dsimp only
  rw [if_neg (by simp [hstate, hplain]), hf]

theorem redetect_of_new {j : CutJob} {d : DetectIn} {s : State} (hwin : windowsDeclare (plainCfg s j.plain) d = true)
    (hchan : channelExists d = true) (hsearch : searched s j.plain (trackOf (plainCfg s j.plain) d 0) = true)
    (hin : inResidueWindow j (trackOf (plainCfg s j.plain) d 0) = true)
    (hnew : known s j.plain (trackOf (plainCfg s j.plain) d 0) = false)
    (hclear : touchesBlanked s j.plain (trackOf (plainCfg s j.plain) d 0) = false) :
    redetect j d s = addPend
      { track := { trackOf (plainCfg s j.plain) d 0 with layer := j.layer + 1, job := some j.id } } (countCut 9 j.plain 1 s) := by
  simp only [redetect, hwin, hchan, hsearch, hin, hnew, hclear]
  rfl

theorem failed_dropFailed (p : Nat) (seq : Word) (s : State) :
    (cutPlain (dropFailed p seq s) p).failed = (cutPlain s p).failed.filter (fun f => f.seq != seq) := by
  rw [dropFailed, cutPlain_setCutPlain, if_pos rfl]

theorem resolveDetections_single {x : Pend} {s : State} (h : s.rx.detq = [x]) :
    resolveDetections s = settlePend x { s with rx := { s.rx with detq := [] } } := by
  rw [resolveDetections, h]
  rfl

theorem resolveDetections_of_residue {j : CutJob} {y : Track} {e : Option Word} {n : Nat} {s : State}
    (hjob : jobAt s j.id = some j) (hstate : j.state = .residue) (hy : y.job = some j.id)
    (hone : s.rx.detq = [{ track := y, redemod := e }]) (hfree : freeContext s y.plain = some n) :
    (resolveDetections s).rx.tracks = s.rx.tracks ++ [{ y with num := n }]
      ∧ ∀ g ∈ (cutPlain (resolveDetections s) y.plain).failed, e ≠ some g.seq := by
  set u : State := { s with rx := { s.rx with detq := [] } } with hu
  have hruns : (jobAt u j.id).any (fun k => k.state = .residue) = true := by
    change (jobAt s j.id).any _ = true
    rw [hjob, Option.any_some, hstate]
    rfl
  have hcontext : freeContext u y.plain = some n := hfree
  have hsettle : resolveDetections s = claimResidue { track := y, redemod := e } u := by
    rw [resolveDetections_single hone, settlePend]
    dsimp only
    rw [hy]
    dsimp only
    rw [if_pos hruns]
  rw [hsettle, claimResidue]
  dsimp only
  rw [hcontext]
  cases e with
  | none => exact ⟨rfl, fun _ _ => by simp⟩
  | some seq =>
    refine ⟨rfl, fun g hg hseq => ?_⟩
    change g ∈ (cutPlain (dropFailed y.plain seq u) y.plain).failed at hg
    rw [failed_dropFailed, List.mem_filter] at hg
    exact absurd (Option.some.inj hseq).symm (by simpa using hg.2)

/-! ### The engine's restart -/

theorem trouble_partialCut (j : CutJob) (n : Nat) (s : State) (b : TrbBit) : trouble (partialCut j n s) b = trouble s b := by
  unfold partialCut
  split <;> rfl

theorem trouble_jobEvent {b : TrbBit} (j : CutJob) (code source : Nat) {s : State} (h : trouble s b = true) :
    trouble (jobEvent j code source s) b = true := by
  unfold jobEvent
  split
  · exact (postEventTo_reported _ code source j.seq s).2.2.2 b h
  · exact h

theorem trouble_dispatchNext {b : TrbBit} {s : State} (h : trouble s b = true) : trouble (dispatchNext s) b = true := by
  unfold dispatchNext
  split
  · exact h
  · split
    · exact h
    · unfold dispatchJob
      split
      · exact h
      · rw [expireUnstarted, trouble_partialCut]
        exact trouble_jobEvent _ _ _ h

theorem trouble_drainRetries {b : TrbBit} (n : Nat) {s : State} (h : trouble s b = true) : trouble (drainRetries n s) b = true := by
  induction n generalizing s with
  | zero => exact h
  | succ n ih => exact ih (trouble_dispatchNext h)

theorem trouble_restartCutting (s : State) : trouble (restartCutting s) .cutRestart = true :=
  trouble_drainRetries _ (trouble_postEvent (trouble_raise _ _))

/-! ### Reports at the combiner -/

theorem combiningReport_of_alone (r : Report) (e : Word) (s : State) (h : s.tan.joined = false) :
    exec (.combiningReport r e) s = .next (if oldEpoch s r.hid e then countComb 9 s else stampReport r e s) := by
  change execCombiningReport r e s = _
  rw [execCombiningReport, mirrorHerd_of_alone h]

/-- A list sorted by its keys into 64 places holds a single element once. -/
theorem flatMap_filter_single (x : Report × Word) (n : Nat) :
    (List.range n).flatMap (fun h => [x].filter (fun y => y.1.hid.val = h)) = if x.1.hid.val < n then [x] else [] := by
  induction n with
  | zero => rfl
  | succ n ih =>
    rw [List.range_succ, List.flatMap_append, ih]
    rcases Nat.lt_trichotomy x.1.hid.val n with h | h | h
    · simp [h, h.ne, Nat.lt_succ_of_lt h]
    · simp [h]
    · simp [h.ne', show ¬ x.1.hid.val < n by omega, show ¬ x.1.hid.val < n + 1 by omega]

theorem reportsInOrder_single (x : Report × Word) : reportsInOrder [x] = [x] :=
  (flatMap_filter_single x 64).trans (if_pos x.1.hid.isLt)

theorem resolveReports_single {r : Report} {e : Word} {s : State} (h : s.comb.inq = [(r, e)]) :
    resolveReports s = takeReport r e { s with comb := { s.comb with inq := [] } } := by
  rw [resolveReports, h, reportsInOrder_single]
  rfl

theorem resolveReports_opens {r : Report} {e : Word} {s : State} (hnone : ∀ x ∈ s.comb.sets, matchesSet r x = false)
    (hroom : (s.comb.sets.filter (setOpen s)).length < 8192) (hone : s.comb.inq = [(r, e)]) :
    (resolveReports s).comb.sets = s.comb.sets ++ [{ id := s.comb.nextId, opened := now s, reports := [(r, e)] }]
      ∧ (resolveReports s).comb.inq = [] := by
  set u : State := countComb 2 { s with comb := { s.comb with inq := [] } } with hu
  have hfind : u.comb.sets.find? (fun x => setOpen u x && matchesSet r x) = none :=
    List.find?_eq_none.mpr fun x hx => by rw [hnone x hx, Bool.and_false]; exact Bool.false_ne_true
  have hany : u.comb.sets.any (matchesSet r) = false :=
    List.any_eq_false.mpr fun x hx => by rw [hnone x hx]; exact Bool.false_ne_true
  have hfull : ¬ 8192 ≤ openSets u := Nat.not_le.mpr hroom
  rw [resolveReports_single hone, takeReport]
  simp only [← hu, hfind, hany, if_neg hfull]
  exact ⟨rfl, rfl⟩

/-- A report that matches an open set joins it. -/
theorem resolveReports_of_match {r : Report} {e : Word} {x : CombSet} {s : State}
    (hfind : s.comb.sets.find? (fun y => setOpen s y && matchesSet r y) = some x) (hone : s.comb.inq = [(r, e)]) :
    resolveReports s = joinSet r e x (countComb 2 { s with comb := { s.comb with inq := [] } }) := by
  set u : State := countComb 2 { s with comb := { s.comb with inq := [] } } with hu
  have hsame : u.comb.sets.find? (fun y => setOpen u y && matchesSet r y) = some x := hfind
  rw [resolveReports_single hone, takeReport]
  simp only [← hu, hsame]

theorem resolveReports_joins {r : Report} {e : Word} {x : CombSet} {s : State}
    (hfind : s.comb.sets.find? (fun y => setOpen s y && matchesSet r y) = some x) (hroom : x.reports.length < 8)
    (hone : s.comb.inq = [(r, e)]) :
    let a : CombAttempt := {
      reports := x.reports.length + 1, sums := sumMetrics (x.reports ++ [(r, e)]), queued := decide (decoderDepth s < 512) }
    (resolveReports s).comb.sets = s.comb.sets.map (fun y => if y.id = x.id then
      { x with reports := x.reports ++ [(r, e)], attempts := x.attempts ++ [a] } else y) := by
  rw [resolveReports_of_match hfind hone, joinSet, if_neg (Nat.not_le.mpr hroom)]
  simp only [List.length_append, List.length_singleton]
  rfl

theorem resolveReports_full {r : Report} {e : Word} {x : CombSet} {s : State}
    (hfind : s.comb.sets.find? (fun y => setOpen s y && matchesSet r y) = some x) (hfull : 8 ≤ x.reports.length)
    (hone : s.comb.inq = [(r, e)]) :
    (resolveReports s).comb.sets = s.comb.sets ∧ trouble (resolveReports s) .combineDiscard = true := by
  rw [resolveReports_of_match hfind hone, joinSet, if_pos hfull]
  exact ⟨keeps_raise _ _ (fun t => t.comb.sets), trouble_raise _ _⟩

/-! ### Decode results and cut notices -/

section NoticeFrames

variable {α : Type} (P : State → α) (hP : ∀ s a b c d, P { s with cut := a, trb := b, que := c, out := d } = P s)

include hP

/-- A notice taken touches the cutting engine and what is reported alone. -/
theorem keeps_takeNotice (x : NoticeIn) (s : State) : P (takeNotice x s) = P s := by
  have hcut : ∀ t a, P { t with cut := a } = P t := fun t a => hP t a t.trb t.que t.out
  have hcount : ∀ i p n t, P (countCut i p n t) = P t := fun _ _ _ t => hcut t _
  have hdrop : ∀ p q t, P (dropFailed p q t) = P t := fun _ _ t => hcut t _
  unfold takeNotice
  split
  · unfold offerCut
    dsimp only
    split
    · exact (hcount _ _ _ _).trans (hdrop _ _ _)
    · split
      · exact (keeps_raise _ _ P fun s a b c => hP s s.cut a b c).trans ((hcount _ _ _ _).trans (hdrop _ _ _))
      · exact (hcount _ _ _ _).trans ((hcut _ _).trans (hdrop _ _ _))
  · rfl

theorem keeps_sendNotice (r : Report) (e : Word) (l : List Byte) (s : State) : P (sendNotice r e l s) = P s := by
  unfold sendNotice
  dsimp only
  split
  · rfl
  · split
    · exact keeps_takeNotice P hP _ s
    · split
      · rfl
      · unfold originate
        dsimp only
        split
        · exact hP s s.cut s.trb s.que _
        · rfl

end NoticeFrames

theorem mem_linkq_joinOwn (t : Track) (s : State) : ∃ i ∈ (joinOwn t s).rx.linkq, i.track = { t with seq := s.rx.seq } :=
  ⟨_, List.mem_append_left _ (List.mem_append_right _ (List.mem_singleton_self _)), rfl⟩

theorem combined_delivers (y : CombSet) (n : Nat) (b : Report) (x : DecodeIn) (s : State) :
    ∃ i, i ∈ (combined y n b x s).rx.linkq ∧ i.track.combined = n
      ∧ i.track.bytes = (infoBytes (hdrLen (headerFrom b.hdr)) x.info).take (hdrLen (headerFrom b.hdr)) := by
  obtain ⟨i, hi, htrack⟩ := mem_linkq_joinOwn { combinedTrack s b n x with doneAt := now s }
    (countComb 4 (setComb { y with closed := true, attempts := [] } { s with free := s.free + 1 }))
  refine ⟨i, ?_, by rw [htrack]; rfl, by rw [htrack]; rfl⟩
  have hkeep : (combined y n b x s).rx.linkq = _ := keeps_foldl (fun t => t.rx.linkq)
    (fun t r => keeps_sendNotice (fun t => t.rx.linkq) (fun _ _ _ _ _ => rfl) r.1 r.2 _ t) y.reports _
  rw [hkeep]
  exact hi

theorem combined_closes (y : CombSet) (n : Nat) (b : Report) (x : DecodeIn) (s : State) :
    ∀ z ∈ (combined y n b x s).comb.sets, z.id = y.id → z.closed = true := by
  have hkeep : (combined y n b x s).comb.sets = _ := keeps_foldl (fun t => t.comb.sets)
    (fun t r => keeps_sendNotice (fun t => t.comb.sets) (fun _ _ _ _ _ => rfl) r.1 r.2 _ t) y.reports _
  intro z hz hid
  rw [hkeep] at hz
  obtain ⟨w, -, rfl⟩ := List.mem_map.mp hz
  dsimp only at hid ⊢
  split
  · rfl
  · next hne => rw [if_neg hne] at hid; exact absurd hid hne

theorem exec_combineDecodeResult_of_decoded {y : CombSet} {a : CombAttempt} {b : Report} {x : DecodeIn} {s : State}
    (hset : s.comb.sets.find? (fun z => z.id = y.id) = some y) (hopen : setOpen s y = true)
    (hatt : y.attempts.find? (fun k => k.queued) = some a)
    (hbest : bestReport ((y.reports.take a.reports).map (fun r => r.1)) = some b)
    (hok : decodeOk (hdrLen (headerFrom b.hdr)) x = true) :
    exec (.combineDecodeResult y.id x) s = .next (combined y a.reports b x s) := by
  change execCombineDecodeResult y.id x s = _
  rw [execCombineDecodeResult, hset]
  dsimp only
  rw [hopen, if_pos rfl, hatt]
  dsimp only
  rw [hbest]
  dsimp only
  rw [if_pos hok]

theorem combineWindowExpiry_expires {y : CombSet} {s : State} (hset : s.comb.sets.find? (fun z => z.id = y.id) = some y)
    (hclosed : y.closed = false) (hopen : setOpen s y = false) :
    exec (.combineWindowExpiry y.id) s = .next (countComb 5 (setComb { y with closed := true, attempts := [] } s)) := by
  change execCombineWindowExpiry y.id s = _
  rw [execCombineWindowExpiry, hset]
  dsimp only
  rw [hclosed, hopen]
  rfl

theorem exec_cutNotice_of_alone (x : NoticeIn) (s : State) (h : s.tan.joined = false) :
    exec (.cutNotice x) s = .next (if oldEpoch s x.src x.epoch || s.herd.leaving then s else takeNotice x s) := by
  change execCutNotice x s = _
  rw [execCutNotice, mirrorHerd_of_alone h]

/-- Settles O21: the life of a job, the ring's contents, and the combiner's reports and results, clause by clause. -/
theorem cuttingAndCombiningEventsAct : Obligations.CuttingAndCombiningEventsAct := by
  refine ⟨⟨fun _ _ => cutJobDispatch_dispatches, fun _ _ => cutSubtractionStart_opens, fun _ _ => cuts_openCut,
    fun _ _ _ => cutSubtractionEnd_subtracts, fun _ _ _ _ => storedSample_of_untouched,
    fun _ _ _ _ _ => storedSample_of_zero, fun _ _ _ _ => residueOf_cons_of_skipped, fun _ _ _ _ => residueOf_cons_of_reached,
    ?redetects, ?redemodulates, fun _ _ _ _ _ => resolveDetections_of_residue, fun _ _ => cutJobComplete_completes,
    fun _ _ => cutJobComplete_of_untried, fun _ _ _ => cutJobExpired_subtracting, fun _ => rfl,
    fun s => ⟨_, rfl, trouble_restartCutting s⟩, fun _ _ => cutJobRelease_releases, fun _ _ _ => ringOverwrite_forgets⟩,
    ?stamped, ?oldReport, fun _ _ _ => resolveReports_opens, fun _ _ _ _ => resolveReports_joins,
    fun _ _ _ _ => resolveReports_full, ?decoded, fun _ _ => combineWindowExpiry_expires, ?notice, ?oldNotice⟩
  case redetects =>
    intro j d s hjob hstate hplain x hwin hchan hsearch hin hnew hclear
    exact ⟨_, (residueDetection_of_preamble hjob hstate hplain).trans
      (congrArg _ (redetect_of_new hwin hchan hsearch hin hnew hclear)), rfl, rfl⟩
  case redemodulates =>
    intro j d f x s hjob hstate hplain hf
    exact ⟨_, redemodTrack j f x, residueDetection_of_failed hjob hstate hplain hf, rfl, rfl, rfl, rfl, rfl, rfl, rfl⟩
  case stamped =>
    intro r e s hepoch halone
    rw [combiningReport_of_alone _ _ _ halone, hepoch]
    rfl
  case oldReport =>
    intro r e s hepoch halone
    rw [combiningReport_of_alone _ _ _ halone, hepoch]
    rfl
  case decoded =>
    intro y a b x s hset hopen hatt hbest hok
    obtain ⟨i, hi, hn, hbytes⟩ := combined_delivers y a.reports b x s
    exact ⟨_, i, exec_combineDecodeResult_of_decoded hset hopen hatt hbest hok, hi, hn, hbytes, combined_closes _ _ _ _ _⟩
  case notice =>
    intro x s hepoch hleave halone
    rw [exec_cutNotice_of_alone _ _ halone, hepoch, hleave]
    rfl
  case oldNotice =>
    intro x s hepoch halone
    rw [exec_cutNotice_of_alone _ _ halone, hepoch]
    rfl

end Sys2Proof.Proofs
end

section
/-! Settles Obligations.RadioCommandsRun: rows of ports, scripts, calibration entries, tuning and gains. -/

namespace Sys2Proof.Proofs

open Sys2Proof.Machine Sys2Proof.Laws Sys2Proof.Safety

-- Proofs one after another: the threads of many at once would pass the memory that the check allows.
set_option Elab.async false

/-! ### Steps of scripts -/

theorem stepOk_iff {v : SpiStep} : stepOk v = true ↔ 8 ≤ v.len ∧ v.len ≤ 40 ∧ ¬ (v.verify = true ∧ v.read = true) := by
  simp [stepOk, and_assoc, imp_iff_not_or]

theorem all_stepOk_iff {l : List SpiStep} : l.all stepOk = true ↔
    ∀ v ∈ l, 8 ≤ v.len ∧ v.len ≤ 40 ∧ ¬ (v.verify = true ∧ v.read = true) := by
  simp only [List.all_eq_true, stepOk_iff]

/-- A count word in its range fixes the number of parameter words. -/
theorem countLen_eq {c : Packet} {i lo hi base per n : Nat} (hn : pn c i = n) (hlo : lo ≤ n) (hhi : n ≤ hi) :
    countLen i lo hi base per c = some (base + per * n) := by
  subst hn
  rw [countLen, if_pos (within_iff.mpr ⟨hlo, hhi⟩)]

/-! ### Ports -/

theorem radioSpiSet_runs : Runs .radioSpiSet 0x0400 3
    (fun c u => pn c 0 ≤ 15 ∧ pn c 1 < 1024 ∧ 3 ≤ pf c 1 7 0 ∧ pn c 2 < 256 ∧ pf c 2 5 0 ≤ 39 ∧ inEnabledPlain u (pn c 0) = false
      ∧ ∀ e ∈ (portCfg u (pn c 0)).cal, scriptNs (pf c 1 7 0) e.2.steps ≤ 12000) (fun _ _ => [])
    (fun c u => setPortCfg u (pn c 0) { portCfg u (pn c 0) with
      spiD := pf c 1 7 0, spiMode := pf c 1 9 8, rdPos := pf c 2 5 0, dataWidth := pf c 2 7 6 }) := by
  refine runs_row radioSpiSetSpec (fun c u ⟨hport, hclock, hdiv, hread, hpos, _, _⟩ => ?_) (fun _ _ _ => rfl)
    (hr := fun c u ⟨_, _, _, _, _, hoff, hcal⟩ => ?_)
  · change (within c 0 0 15 && fits c 1 10 && decide (3 ≤ pf c 1 7 0) && fits c 2 8 && decide (pf c 2 5 0 ≤ 39)) = true
    have hword : fits c 1 10 = true := fits_iff.mpr hclock
    have hlast : fits c 2 8 = true := fits_iff.mpr hread
    rw [within_port hport, hword, hlast, decide_eq_true hdiv, decide_eq_true hpos]
    rfl
  · change (!inEnabledPlain u (pn c 0) && (portCfg u (pn c 0)).cal.all (fun e => scriptNs (pf c 1 7 0) e.2.steps ≤ 12000)) = true
    rw [hoff, Bool.not_false, Bool.true_and, List.all_eq_true]
    exact fun e he => decide_eq_true (hcal e he)

theorem radioScriptRun_runs (n : Nat) (hlo : 1 ≤ n) (hhi : n ≤ 8) : RunsOn .radioScriptRun 0x0401 (2 + 2 * n)
    (fun c _ => pn c 0 ≤ 15 ∧ pn c 1 = n ∧ ∀ v ∈ stepsAt c 2 n, 8 ≤ v.len ∧ v.len ≤ 40 ∧ ¬ (v.verify = true ∧ v.read = true))
    (fun c u => queueScript (pn c 0) { cls := 4, steps := stepsAt c 2 n, tag := some (c.queue.val, c.tag) } u) :=
  runsOn_row radioScriptRunSpec
    (fun _ _ ⟨hport, hn, hlegal⟩ => Bool.and_eq_true_iff.mpr ⟨within_port hport, all_stepOk_iff.mpr (hn ▸ hlegal)⟩)
    (fun _ _ ⟨_, hn, _⟩ => by rw [← hn]; rfl) (hl := fun _ _ ⟨_, hn, _⟩ => countLen_eq hn hlo hhi)
    (hc := fun i hi => by cases hi; omega)

theorem txPortSet_runs : Runs .txPortSet 0x0407 3
    (fun c u => pn c 0 ≤ 15 ∧ 1 ≤ pn c 1 ∧ pn c 1 ≤ 4 ∧ pn c 2 < 65536 ∧ inEnabledPlain u (pn c 0) = false) (fun _ _ => [])
    (fun c u => setPortCfg u (pn c 0) { portCfg u (pn c 0) with txChains := pn c 1, txExtLatency := pn c 2 }) :=
  runs_row txPortSetSpec
    (fun _ _ ⟨hport, hlo, hhi, hlat, _⟩ =>
      Bool.and_eq_true_iff.mpr ⟨within_and ⟨Nat.zero_le _, hport, hlo, hhi⟩, fits_iff.mpr hlat⟩)
    (fun _ _ _ => rfl)
    (hr := fun c u ⟨_, _, _, _, hoff⟩ => by change (!inEnabledPlain u (pn c 0)) = true; rw [hoff]; rfl)

theorem returnSet_runs (n : Nat) (hn : n ≤ 8) : Runs .returnSet 0x0406 (3 + 2 * n)
    (fun c _ => pn c 0 ≤ 15 ∧ pn c 1 ≤ 2 ∧ pn c 2 = n
      ∧ ∀ v ∈ stepsAt c 3 n, 8 ≤ v.len ∧ v.len ≤ 40 ∧ ¬ (v.verify = true ∧ v.read = true)) (fun _ _ => [])
    (fun c u => setPortCfg u (pn c 0) { portCfg u (pn c 0) with returnState := pn c 1, quiet := stepsAt c 3 n }) :=
  runs_row returnSetSpec
    (fun _ _ ⟨hport, hstate, hcount, hlegal⟩ => Bool.and_eq_true_iff.mpr
      ⟨within_and ⟨Nat.zero_le _, hport, Nat.zero_le _, hstate⟩, all_stepOk_iff.mpr (hcount ▸ hlegal)⟩)
    (fun _ _ ⟨_, _, hcount, _⟩ => by rw [← hcount]; rfl)
    (hl := fun _ _ ⟨_, _, hcount, _⟩ => countLen_eq hcount (Nat.zero_le _) hn) (hc := fun i hi => by cases hi; omega)

theorem sequencerStatus_runs : Runs .sequencerStatus 0x0450 1 (fun c _ => pn c 0 ≤ 15)
    (fun c u => [w32 (seqCode (seqNow u (pn c 0))),
      match plainOfPort u (pn c 0) with
        | some p => entryWord (txRun u p).fT
        | none => 0xFFFFFFFF#32,
      w32 (portCfg u (pn c 0)).returnState, w32 (portRun u (pn c 0)).faults]) (fun _ u => u) := by
  refine runs_row sequencerStatusSpec (fun _ _ h => within_port h) (fun c u _ => ?_)
  simp only [sequencerStatusSpec, plainSpec]
  cases plainOfPort u (pn c 0) <;> rfl

/-! ### Calibration entries and tuning -/

theorem calWrite_runs (n : Nat) (hlo : 1 ≤ n) (hhi : n ≤ 8) : Runs .calWrite 0x0402 (4 + 2 * n)
    (fun c u => pn c 0 ≤ 15 ∧ pn c 1 ≤ 511 ∧ pf c 3 11 8 = n ∧ pw c 3 &&& ~~~0xFF3#32 = 0#32 ∧ (pf c 3 7 4 ≤ 7 ∨ pf c 3 7 4 = 15)
      ∧ (∀ v ∈ stepsAt c 4 n, 8 ≤ v.len ∧ v.len ≤ 40 ∧ ¬ (v.verify = true ∧ v.read = true))
      ∧ scriptNs (portCfg u (pn c 0)).spiD (stepsAt c 4 n) ≤ 12000 ∧ entryInUse u (pn c 0) (pn c 1) = false)
    (fun _ _ => [])
    (fun c u =>
      let e : CalEntry :=
        { freq := pw c 2, rxOk := bit (pw c 3) 0, txOk := bit (pw c 3) 1, rck := pf c 3 7 4, steps := stepsAt c 4 n }
      setPortCfg u (pn c 0) { portCfg u (pn c 0) with cal := tabSet (portCfg u (pn c 0)).cal (pn c 1) e }) := by
  refine runs_row calWriteSpec (fun c u ⟨hport, hentry, hn, honly, hrck, hlegal, _, _⟩ => ?_)
    (fun c u ⟨_, _, hn, _⟩ => by subst hn; rfl)
    (hr := fun c u ⟨_, _, _, _, _, _, _, hfree⟩ => ?_) (hh := fun c u ⟨_, _, hn, _, _, _, htime, _⟩ => ?_)
    (hl := fun c u ⟨_, _, hn, _⟩ => ?_) (hc := fun i hi => by cases hi; omega)
  · have hmask : only c 3 0xFF3 = true := only_iff.mpr honly
    have hset : (decide (pf c 3 7 4 ≤ 7) || decide (pf c 3 7 4 = 15)) = true := by simpa using hrck
    have hsteps : (calOf c).steps.all stepOk = true := by
      rw [calOf, hn]
      exact all_stepOk_iff.mpr hlegal
    change (within c 0 0 15 && within c 1 0 511 && only c 3 0xFF3 && _ && (calOf c).steps.all stepOk) = true
    rw [within_and ⟨Nat.zero_le _, hport, Nat.zero_le _, hentry⟩, hmask, hset, hsteps]
    rfl
  · change (!entryInUse u (pn c 0) (pn c 1)) = true
    rw [hfree]
    rfl
  · refine decide_eq_true ?_
    rw [calOf, hn]
    exact htime
  · change calLen c = _
    rw [calLen, hn, if_pos (by simp [hlo, hhi])]

theorem calWords_eq (v : CalEntry) : calWords v = if v.steps = [] then [0#32]
    else [v.freq, w32 (flag v.rxOk + 2 * flag v.txOk + 16 * v.rck + 256 * v.steps.length)] ++ v.steps.flatMap stepWords := by
  unfold calWords calWritten
  cases v.steps <;> rfl

theorem calWritten_of_ne_nil {v : CalEntry} (h : v.steps ≠ []) : calWritten v = true := by
  simpa [calWritten] using h

theorem entryOnAll_of_forall {s : State} {p e : Nat} {f : CalEntry → Bool} (hports : portsOf s p ≠ [])
    (h : ∀ n ∈ portsOf s p, (calEntry s n e).steps ≠ [] ∧ f (calEntry s n e) = true
      ∧ (calEntry s n e).freq = entryFreq s p e) : entryOnAll s p e f = true := by
  unfold entryOnAll
  unfold entryFreq at h
  cases hl : portsOf s p with
  | nil => exact absurd hl hports
  | cons m r =>
    rw [hl] at h
    refine List.all_eq_true.mpr fun n hn => ?_
    obtain ⟨hwritten, hf, hfreq⟩ := h n hn
    rw [calWritten_of_ne_nil hwritten, hf]
    exact decide_eq_true hfreq

theorem plainTune_runs : Runs .plainTune 0x0404 2
    (fun c u => pn c 0 ≤ 3 ∧ pn c 1 ≤ 511 ∧ (plainCfg u (pn c 0)).enabled = false ∧ draining u (pn c 0) = false
      ∧ portsOf u (pn c 0) ≠ []
      ∧ ∀ n ∈ portsOf u (pn c 0), (calEntry u n (pn c 1)).steps ≠ [] ∧ (calEntry u n (pn c 1)).rxOk = true
        ∧ (calEntry u n (pn c 1)).freq = entryFreq u (pn c 0) (pn c 1))
    (fun _ _ => [])
    (fun c u =>
      let u1 := setPlainCfg u (pn c 0)
        { plainCfg u (pn c 0) with fP := entryFreq u (pn c 0) (pn c 1), rxEntry := some (pn c 1) }
      let u2 := setTxRun u1 (pn c 0) { txRun u1 (pn c 0) with fT := some (pn c 1) }
      (portsOf u (pn c 0)).foldl (fun t n => queueScript n { cls := 4, steps := (calEntry u n (pn c 1)).steps } t) u2) :=
  runs_row plainTuneSpec (fun _ _ ⟨hplain, hentry, _⟩ => within_and ⟨Nat.zero_le _, hplain, Nat.zero_le _, hentry⟩)
    (fun _ _ _ => rfl)
    (hr := fun c u ⟨_, _, hoff, hfree, _⟩ => by
      change (!(plainCfg u (pn c 0)).enabled && !draining u (pn c 0)) = true
      rw [hoff, hfree]
      rfl)
    (hh := fun _ _ ⟨_, _, _, _, hports, hall⟩ => entryOnAll_of_forall hports hall)

/-! ### Gains -/

theorem gainStepOk_iff {v : GainStep} : gainStepOk v = true ↔
    stepOk v.step = true ∧ v.pos ≤ 39 ∧ 1 ≤ v.width ∧ v.width ≤ 16 ∧ v.pos + v.width ≤ v.step.len := by
  simp [gainStepOk, and_assoc]

theorem gainScriptSet_runs (n : Nat) (hn : n ≤ 2) : Runs .gainScriptSet 0x0405 (2 + 3 * n)
    (fun c _ => pn c 0 ≤ 127 ∧ pn c 1 = n ∧ ∀ k < n, pw c (4 + 3 * k) &&& ~~~0x1F3F#32 = 0#32
      ∧ (∀ v ∈ [(gainStepAt c (2 + 3 * k)).step], 8 ≤ v.len ∧ v.len ≤ 40 ∧ ¬ (v.verify = true ∧ v.read = true))
      ∧ pf c (4 + 3 * k) 5 0 ≤ 39 ∧ 1 ≤ pf c (4 + 3 * k) 12 8
      ∧ pf c (4 + 3 * k) 12 8 ≤ 16 ∧ pf c (4 + 3 * k) 5 0 + pf c (4 + 3 * k) 12 8 ≤ (gainStepAt c (2 + 3 * k)).step.len)
    (fun _ _ => [])
    (fun c u => setChainCfg u (pn c 0)
      { chainCfg u (pn c 0) with script := (List.range n).map (fun k => gainStepAt c (2 + 3 * k)) }) := by
  refine runs_row gainScriptSetSpec (fun c u ⟨hchain, hcount, hsteps⟩ => ?_) (fun c u ⟨_, hcount, _⟩ => by rw [← hcount]; rfl)
    (hl := fun _ _ ⟨_, hcount, _⟩ => countLen_eq hcount (Nat.zero_le _) hn) (hc := fun i hi => by cases hi; omega)
  have hok : (gainSteps c).all gainStepOk = true := by
    refine List.all_eq_true.mpr fun v hv => ?_
    obtain ⟨k, hk, rfl⟩ := List.mem_map.mp hv
    rw [hcount, List.mem_range] at hk
    obtain ⟨_, hlegal, hpos, hone, hwidth, hfield⟩ := hsteps k hk
    have hword : 4 + 3 * k = 2 + 3 * k + 2 := by omega
    rw [hword] at hpos hone hwidth hfield
    exact gainStepOk_iff.mpr ⟨stepOk_iff.mpr (hlegal _ (List.mem_singleton_self _)), hpos, hone, hwidth, hfield⟩
  have honly : (List.range (pn c 1)).all (fun k => only c (4 + 3 * k) 0x1F3F) = true := by
    refine List.all_eq_true.mpr fun k hk => ?_
    rw [hcount, List.mem_range] at hk
    exact only_iff.mpr (hsteps k hk).1
  exact Bool.and_eq_true_iff.mpr
    ⟨Bool.and_eq_true_iff.mpr ⟨within_iff.mpr ⟨Nat.zero_le _, hchain⟩, hok⟩, honly⟩

theorem gainSet_valid {c : Packet} (h : pn c 0 ≤ 127 ∧ pn c 1 < 65536 ∧ pn c 2 < 2) : gainSetSpec.valid c = true :=
  Bool.and_eq_true_iff.mpr
    ⟨Bool.and_eq_true_iff.mpr ⟨within_iff.mpr ⟨Nat.zero_le _, h.1⟩, fits_iff.mpr h.2.1⟩, fits_iff.mpr h.2.2⟩

theorem gainSet_runs : RunsOn .gainSet 0x0220 3
    (fun c u => pn c 0 ≤ 127 ∧ pn c 1 < 65536 ∧ pn c 2 < 2 ∧ (chainCfg u (pn c 0)).script ≠ []
      ∧ ∀ p, plainOfPort u (pn c 0 / 8) = some p → draining u p = false)
    (fun c u => queueScript (pn c 0 / 8)
      { cls := 3, steps := (chainCfg u (pn c 0)).script.map (gainFrame ((pw c 1).setWidth 16)),
        tag := some (c.queue.val, c.tag), chain := pn c 0, gain := (pw c 1).setWidth 16, atSlot := bit (pw c 2) 0,
        boundary := boundaryFrom u (after u (gainNs u (pn c 0))) } u) := by
  refine runsOn_row gainSetSpec (fun c u ⟨hchain, hgain, hslot, _⟩ => gainSet_valid ⟨hchain, hgain, hslot⟩) (fun _ _ _ => rfl)
    (hr := fun c u ⟨_, _, _, hscript, hfree⟩ => ?_)
  have hwritten : (chainCfg u (pn c 0)).script.isEmpty = false := by simpa using hscript
  simp only [gainSetSpec, plainSpec, hwritten]
  cases hp : plainOfPort u (pn c 0 / 8) with
  | none => rfl
  | some p => simp only [hfree p hp]; rfl

theorem gainSet_unwritten : Ends .gainSet 0x0220 3
    (fun c u => pn c 0 ≤ 127 ∧ pn c 1 < 65536 ∧ pn c 2 < 2 ∧ (chainCfg u (pn c 0)).script = []) .invalidState :=
  ends_notReady gainSetSpec (fun c u ⟨hchain, hgain, hslot, _⟩ => gainSet_valid ⟨hchain, hgain, hslot⟩)
    (fun c u ⟨_, _, _, hscript⟩ => by simp only [gainSetSpec, plainSpec, hscript]; rfl)

/-- Settles O22: each row of the radio commands carries out its own effect. -/
theorem radioCommandsRun : Obligations.RadioCommandsRun :=
  ⟨radioSpiSet_runs, radioScriptRun_runs, calWrite_runs,
   runs_row calReadSpec (fun _ _ ⟨hport, hentry⟩ => within_and ⟨Nat.zero_le _, hport, Nat.zero_le _, hentry⟩)
     (fun _ _ _ => by rw [← calWords_eq]; rfl),
   plainTune_runs, gainScriptSet_runs, gainSet_runs, gainSet_unwritten,
   runs_row gainGetSpec (fun _ _ h => within_iff.mpr ⟨Nat.zero_le _, h⟩) (fun _ _ _ => rfl),
   returnSet_runs, txPortSet_runs, sequencerStatus_runs⟩

end Sys2Proof.Proofs
end

section
/-! Settles Obligations.TransmitCommandsRun: rows of the transmit chain, of coexistence and of the reference synthesisers. -/

namespace Sys2Proof.Proofs

open Sys2Proof.Machine Sys2Proof.Laws Sys2Proof.Safety

-- Proofs one after another: the threads of many at once would pass the memory that the check allows.
set_option Elab.async false

/-! ### Settings of a plain -/

theorem txPlainSet_runs : Runs .txPlainSet 0x0408 5
    (fun c u => PlainFree c u ∧ 1 ≤ pn c 1 ∧ pn c 1 ≤ 70 ∧ 1 ≤ pn c 2 ∧ pn c 2 ≤ 70 ∧ 1 ≤ pn c 3 ∧ pn c 3 ≤ 16 ∧ pn c 4 < 2)
    (fun _ _ => [])
    (fun c u => txChange (pn c 0)
      (fun v => { v with paLead := pn c 1, paLag := pn c 2, maxSim := pn c 3, tuneShared := bit (pw c 4) 0 }) u) := by
  refine plainSetting_runs txPlainSetSpec (fun c hplain ⟨hlead, hlead', hlag, hlag', hsim, hsim', hshared⟩ => ?_)
  change (within c 0 0 3 && within c 1 1 70 && within c 2 1 70 && within c 3 1 16 && fits c 4 1) = true
  simp only [within_plain hplain, within_iff.mpr ⟨hlead, hlead'⟩, within_iff.mpr ⟨hlag, hlag'⟩, within_iff.mpr ⟨hsim, hsim'⟩,
    fits_iff.mpr (show pn c 4 < 2 ^ 1 from hshared), Bool.and_self]

theorem txDefaultsSet_runs : Runs .txDefaultsSet 0x0409 4
    (fun c u => PlainFree c u ∧ 8 ≤ pn c 1 ∧ pn c 1 ≤ 64 ∧ 4 ≤ pn c 2 ∧ pn c 2 ≤ 256 ∧ pn c 3 < 2) (fun _ _ => [])
    (fun c u => txChange (pn c 0) (fun v => { v with nPre := pn c 1, rampLen := pn c 2, pilot := bit (pw c 3) 0 }) u) := by
  refine plainSetting_runs txDefaultsSetSpec (fun c hplain ⟨hpre, hpre', hramp, hramp', hpilot⟩ => ?_)
  change (within c 0 0 3 && within c 1 8 64 && within c 2 4 256 && fits c 3 1) = true
  simp only [within_plain hplain, within_iff.mpr ⟨hpre, hpre'⟩, within_iff.mpr ⟨hramp, hramp'⟩,
    fits_iff.mpr (show pn c 3 < 2 ^ 1 from hpilot), Bool.and_self]

theorem txNext_txChange (p : Nat) (f : TxPlainCfg → TxPlainCfg) (s : State) : txNext (txChange p f s) p = f (txNext s p) := by
  simp only [txChange, txNext, txRun_setTxRun, if_true, Option.getD_some]

/-! ### Coexistence -/

theorem coexSet_runs : Runs .coexSet 0x0420 5
    (fun c u => PlainFree c u ∧ pn c 1 ≤ 2 ∧ 200 ≤ pn c 2 ∧ pn c 2 ≤ 20000 ∧ pw c 3 &&& ~~~0xFF03#32 = 0#32 ∧ pn c 4 < 256)
    (fun _ _ => [])
    (fun c u => changeInputs (setBlankPol ((pw c 4).setWidth 8)) (txChange (pn c 0) (fun v => { v with
      coexMode := pn c 1, coxLead := pn c 2, coxPolicy := bit (pw c 3) 0, blankMark := bit (pw c 3) 1,
      blankMap := (pw c 3 >>> 8).setWidth 8 }) u)) := by
  refine plainSetting_runs coexSetSpec (fun c hplain ⟨hmode, hlead, hlead', hflags, hpol⟩ => ?_)
  have honly : only c 3 0xFF03 = true := only_iff.mpr hflags
  change (within c 0 0 3 && within c 1 0 2 && within c 2 200 20000 && only c 3 0xFF03 && fits c 4 8) = true
  simp only [within_plain hplain, within_iff.mpr ⟨Nat.zero_le _, hmode⟩, within_iff.mpr ⟨hlead, hlead'⟩, honly,
    fits_iff.mpr (show pn c 4 < 2 ^ 8 from hpol), Bool.and_self]

theorem blankedNow_of_mode {s : State} {p : Nat} (h : (txCfg s p).coexMode ≠ 2) : blankedNow s p = false := by
  simp [blankedNow, h]

/-- Transmissions of which none is blanked are left as they are. -/
theorem foldl_blankTx_of_clear {l : List Tx} {s : State} (h : ∀ x ∈ l, blankedFor s x = false) :
    l.foldl (fun t x => if blankedFor t x then blankTx x t else t) s = s := by
  induction l with
  | nil => rfl
  | cons x r ih =>
    rw [List.foldl_cons, h x List.mem_cons_self, if_neg Bool.false_ne_true]
    exact ih fun y hy => h y (List.mem_cons_of_mem x hy)

theorem settleInputs_of_clear {p : Nat} (b : Bool) {s : State}
    (h : ∀ x ∈ s.radio.txs, x.plain = p → blankedFor s x = false) :
    settleInputs p b s = if b = blankedNow s p then s
      else settleBlank p (if b && (txCfg s p).blankMark then setTxRun s p { txRun s p with tail := after s 20000 } else s) := by
  have hclear : ∀ x ∈ booked s p, blankedFor s x = false := fun x hx => by
    obtain ⟨hmem, hplain⟩ := List.mem_filter.mp hx
    exact h x hmem (of_decide_eq_true hplain)
  have hnow : ∀ v, blankedNow (setTxRun s p v) p = blankedNow s p := fun _ => rfl
  rw [settleInputs, foldl_blankTx_of_clear hclear]
  cases b <;> cases hb : blankedNow s p <;> cases hmark : (txCfg s p).blankMark <;> simp [hb, hnow]

theorem changeInputs_eq (f : State → State) (s : State) : changeInputs f s =
    settleInputs 3 (blankedNow s 3) (settleInputs 2 (blankedNow s 2)
      (settleInputs 1 (blankedNow s 1) (settleInputs 0 (blankedNow s 0) (f s)))) := rfl

theorem changeInputs_setBlankPol_of_idle {v : BitVec 8} {s : State} (hmode : ∀ p < 4, (txCfg s p).coexMode ≠ 2)
    (htxs : s.radio.txs = []) :
    changeInputs (setBlankPol v) s = { s with cfg := { s.cfg with tx := { s.cfg.tx with blankPol := v } } } := by
  have hbefore : ∀ p < 4, blankedNow s p = false := fun p hp => blankedNow_of_mode (hmode p hp)
  have hsettle : ∀ p < 4, settleInputs p false (setBlankPol v s) = setBlankPol v s := fun p hp =>
    (settleInputs_of_clear (s := setBlankPol v s) false fun x hx => by
      rw [show (setBlankPol v s).radio.txs = [] from htxs] at hx; cases hx).trans
      (if_pos (blankedNow_of_mode (s := setBlankPol v s) (hmode p hp)).symm)
  rw [changeInputs_eq, hbefore 0 (by decide), hbefore 1 (by decide), hbefore 2 (by decide), hbefore 3 (by decide),
    hsettle 0 (by decide), hsettle 1 (by decide), hsettle 2 (by decide), hsettle 3 (by decide)]
  rfl

/-! ### Transmit beams -/

theorem shadowServes_tx {s : State} {p : Nat} (h : ∀ x ∈ s.radio.txs, x.plain = p → x.oldBank = true → x.state ≠ .onAir) :
    shadowServes s p true = false := by
  rw [shadowServes, Bool.true_and, List.any_eq_false]
  intro x hx hall
  simp only [Bool.and_eq_true, decide_eq_true_eq] at hall
  obtain ⟨⟨hplain, hbank⟩, hair⟩ := hall
  exact h x hx hplain hbank hair

theorem txBeamWeightsWrite_runs (n : Nat) (hn : n ≤ 128) : Runs .txBeamWeightsWrite 0x0410 (3 + n)
    (fun c u => PlainFree c u ∧ pn c 1 ≤ 63 ∧ pn c 2 = n ∧ swapPending u (pn c 0) true = false
      ∧ ∀ x ∈ u.radio.txs, x.plain = pn c 0 → x.oldBank = true → x.state ≠ .onAir) (fun _ _ => [])
    (fun c u => setRxPlain u (pn c 0)
      { rxPlain u (pn c 0) with txShadow := tabSet (rxPlain u (pn c 0)).txShadow (pn c 1) ((c.params.drop 3).take n) }) :=
  runs_row (weightsWriteSpec 0x0410 true)
    (fun _ _ ⟨hfree, hbeam, _⟩ => within_and ⟨Nat.zero_le _, hfree.1, Nat.zero_le _, hbeam⟩)
    (fun _ _ ⟨_, _, hcount, _⟩ => by rw [← hcount]; rfl)
    (hr := fun c u ⟨hfree, _, _, hswap, hair⟩ => by
      simp only [weightsWriteSpec, plainReady_of_free hfree, hswap, shadowServes_tx hair, Bool.not_false, Bool.and_self])
    (hl := fun c u ⟨_, _, hcount, _⟩ => (countLen_eq hcount (Nat.zero_le _) hn).trans (by rw [Nat.one_mul]))
    (hc := fun i hi => by cases hi; omega)

theorem txBeamTableActivate_runs : RunsOn .txBeamTableActivate 0x0411 6
    (fun c u => PlainFree c u ∧ 1 ≤ pn c 1 ∧ pn c 1 ≤ 64 ∧ pn c 2 ≤ 7 ∧ pn c 5 < 256 ∧ asnAhead u (asnWords c) = true
      ∧ swapPending u (pn c 0) true = false
      ∧ bankCrc (rxPlain u (pn c 0)).txShadow (pn c 1) (tableChains u (pn c 0) true) = pw c 3)
    (fun c u =>
      let a := if asnWords c = 0 then asnAt u (now u) + 1 else asnWords c
      let w : BeamSwap := { plain := pn c 0, tx := true, count := pn c 1, shift := pn c 2, asn := a, queue := c.queue.val, tag := c.tag }
      { u with rx := { u.rx with swaps := u.rx.swaps ++ [w] } }) :=
  runsOn_row (tableActivateSpec 0x0411 true)
    (fun c u ⟨hfree, hlo, hhi, hshift, hasn, _⟩ => activate_valid hfree.1 hlo hhi hshift hasn _ _)
    (fun c u ⟨_, _, _, _, _, _, _, hcrc⟩ => (activate_run 0x0411 true c u).trans (if_neg fun h => bne_iff_ne.mp h hcrc))
    (hr := fun c u ⟨hfree, _, _, _, _, _, hswap, _⟩ => activate_ready hfree.1 hfree.2 hswap _)
    (hh := fun c u ⟨_, _, _, _, _, hahead, _⟩ => hahead)

/-! ### Reference synthesisers -/

theorem rckStore_runs : Runs .rckStore 0x0430 4
    (fun c u => pn c 0 ≤ 3 ∧ pn c 1 ≤ 7 ∧ 10000000 ≤ pn c 2 ∧ pn c 2 ≤ 250000000 ∧ pn c 3 ≤ 2 ∧ (rck u (pn c 0)).sel ≠ some (pn c 1))
    (fun _ _ => [])
    (fun c u =>
      let u1 : State := { u with cfg := { u.cfg with tx := { u.cfg.tx with
        rck := tabSet u.cfg.tx.rck (8 * pn c 0 + pn c 1) { freq := pw c 2, pd := pn c 3 } } } }
      setRck u1 (pn c 0) { rck u1 (pn c 0) with bands := setBit (rck u1 (pn c 0)).bands (pn c 1) false }) :=
  runs_row rckStoreSpec
    (fun c u ⟨hr, hk, hlo, hhi, hpd, _⟩ => Bool.and_eq_true_iff.mpr ⟨Bool.and_eq_true_iff.mpr
      ⟨within_and ⟨Nat.zero_le _, hr, Nat.zero_le _, hk⟩, within_iff.mpr ⟨hlo, hhi⟩⟩, within_iff.mpr ⟨Nat.zero_le _, hpd⟩⟩)
    (fun _ _ _ => rfl) (hr := fun c u ⟨_, _, _, _, _, hsel⟩ => bne_iff_ne.mpr hsel)

theorem rckStart_of_command {r k q : Nat} {tag : BitVec 16} {l : List (Nat × Option (Nat × BitVec 16))} {s : State}
    (hhop : (rck s r).hop = none) (hnext : (rck s r).next = (k, some (q, tag)) :: l) :
    rckStart r s = setRck s r { rck s r with hop := some (k, some (q, tag)), next := l, low := true, locked := false } := by
  simp only [rckStart, hhop, hnext]
  rfl

theorem rckStart_of_hopping {r : Nat} {s : State} (h : (rck s r).hop ≠ none) : rckStart r s = s := by
  obtain ⟨x, hx⟩ := Option.ne_none_iff_exists'.mp h
  simp only [rckStart, hx]

theorem rckSelect_unstored : Ends .rckSelect 0x0431 2
    (fun c u => pn c 0 ≤ 3 ∧ pn c 1 ≤ 7 ∧ rckSetting u (pn c 0) (pn c 1) = none) .invalidState :=
  ends_notReady rckSelectSpec (fun _ _ ⟨hr, hk, _⟩ => within_and ⟨Nat.zero_le _, hr, Nat.zero_le _, hk⟩)
    (fun c u ⟨_, _, hnone⟩ => by simp only [rckSelectSpec, hnone]; rfl)

/-- Settles O23: each row of the transmit commands carries out its own effect. -/
theorem transmitCommandsRun : Obligations.TransmitCommandsRun :=
  ⟨txPlainSet_runs, txDefaultsSet_runs, coexSet_runs, fun _ _ => changeInputs_setBlankPol_of_idle,
   fun p f s => ⟨txNext_txChange p f s, rfl⟩,
   runs_row coexStatusSpec (fun _ _ _ => rfl) (fun _ _ _ => rfl),
   txBeamWeightsWrite_runs, txBeamTableActivate_runs,
   runs_row (weightsReadSpec 0x0412 true)
     (fun _ _ ⟨hplain, hbeam, hbank⟩ =>
       Bool.and_eq_true_iff.mpr ⟨within_and ⟨Nat.zero_le _, hplain, Nat.zero_le _, hbeam⟩, fits_iff.mpr hbank⟩)
     (fun _ _ _ => rfl),
   rckStore_runs,
   runsOn_row rckSelectSpec (fun _ _ ⟨hr, hk, _⟩ => within_and ⟨Nat.zero_le _, hr, Nat.zero_le _, hk⟩) (fun _ _ _ => rfl)
     (hr := fun _ _ ⟨_, _, hset⟩ => hset),
   fun _ _ _ _ _ _ => rckStart_of_command, fun _ _ => rckStart_of_hopping, rckSelect_unstored,
   runs_row rckStatusSpec (fun _ _ h => within_plain h) (fun _ _ _ => rfl),
   runs_row txCountersReadSpec (fun _ _ h => Bool.and_eq_true_iff.mpr ⟨within_plain h.1, fits_iff.mpr h.2⟩) (fun _ _ _ => rfl)⟩

end Sys2Proof.Proofs
end

section
/-! Settles Obligations.ScriptAndClockEventsAct: the scripts of a port, their steps, and the reference synthesisers. -/

namespace Sys2Proof.Proofs

open Sys2Proof.Machine Sys2Proof.Laws Sys2Proof.Safety

-- Proofs one after another: the threads of many at once would pass the memory that the check allows.
set_option Elab.async false

/-! ### The first of a list by a key -/

/-- The element that firstBy takes has the least key, and none that stands before it has as small a one. -/
theorem firstBy_spec {α : Type} [DecidableEq α] {k : α → Nat} {before : α → α → Bool}
    (hk : ∀ a b, before a b = true ↔ k a < k b) {l : List α} {x : α} (h : firstBy before l = some x) :
    x ∈ l ∧ (∀ y ∈ l, k x ≤ k y) ∧ ∀ y ∈ l.takeWhile (fun z => z ≠ x), k x < k y := by
  induction l generalizing x with
  | nil => cases h
  | cons z r ih =>
    rw [firstBy] at h
    cases hr : firstBy before r with
    | none =>
      rw [hr] at h
      cases h
      have hnil : r = [] := by
        cases r with
        | nil => rfl
        | cons a q =>
          rw [firstBy] at hr
          split at hr
          · cases hr
          · split at hr <;> cases hr
      subst hnil
      simp
    | some y =>
      rw [hr] at h
      obtain ⟨hmem, hleast, hfirst⟩ := ih hr
      dsimp only at h
      split at h
      · next hlt =>
        cases h
        have hkey : k x < k z := (hk x z).mp hlt
        have hne : z ≠ x := fun he => absurd (he ▸ hkey) (lt_irrefl _)
        refine ⟨List.mem_cons_of_mem z hmem, fun w hw => ?_, fun w hw => ?_⟩
        · rcases List.mem_cons.mp hw with rfl | hw
          · exact hkey.le
          · exact hleast w hw
        · rw [List.takeWhile_cons_of_pos (by simpa using hne)] at hw
          rcases List.mem_cons.mp hw with rfl | hw
          · exact hkey
          · exact hfirst w hw
      · next hnot =>
        cases h
        have hkey : k z ≤ k y := not_lt.mp fun hlt => hnot ((hk y z).mpr hlt)
        refine ⟨List.mem_cons_self, fun w hw => ?_, fun w hw => ?_⟩
        · rcases List.mem_cons.mp hw with rfl | hw
          · exact le_rfl
          · exact hkey.trans (hleast w hw)
        · rw [List.takeWhile_cons_of_neg (by simp)] at hw
          cases hw

theorem mem_takeWhile_filter {α : Type} {p q : α → Bool} {y : α} (hq : q y = true) {l : List α} (h : y ∈ l.takeWhile p) :
    y ∈ (l.filter q).takeWhile p := by
  induction l with
  | nil => exact h
  | cons z r ih =>
    rw [List.takeWhile_cons] at h
    split at h
    · next hz =>
      rcases List.mem_cons.mp h with rfl | h
      · rw [List.filter_cons_of_pos hq, List.takeWhile_cons_of_pos hz]
        exact List.mem_cons_self
      · rw [List.filter_cons]
        split
        · rw [List.takeWhile_cons_of_pos hz]
          exact List.mem_cons_of_mem z (ih h)
        · exact ih h
    · cases h

/-! ### Scripts start -/

theorem scriptBefore_iff (a b : Script) : scriptBefore a b = true ↔ max a.cls 2 < max b.cls 2 := decide_eq_true_iff

theorem portScriptStart_starts {p : Fin 16} {x : Script} {s : State} (hidle : (portRun s p).running = none)
    (hfirst : firstBy scriptBefore ((portRun s p).queued.filter (scriptMayStart s p)) = some x) :
    exec (.portScriptStart p) s = .next (setPort s p
      { portRun s p with running := some x, queued := (portRun s p).queued.erase x }) := by
  change execPortScriptStart p s = _
  rw [execPortScriptStart]
  simp only [hidle, hfirst]

theorem portScriptStart_of_running {p : Fin 16} {x : Script} {s : State} (h : (portRun s p).running = some x) :
    exec (.portScriptStart p) s = .next s := by
  change execPortScriptStart p s = _
  rw [execPortScriptStart]
  simp only [h]

theorem portScriptStart_of_none {p : Fin 16} {s : State}
    (h : firstBy scriptBefore ((portRun s p).queued.filter (scriptMayStart s p)) = none) :
    exec (.portScriptStart p) s = .next s := by
  change execPortScriptStart p s = _
  rw [execPortScriptStart]
  rw [h]
  cases (portRun s p).running <;> rfl

/-- The script that starts is the first of the earliest class among those that may start. -/
theorem portScriptStart_selects {p : Fin 16} {x : Script} {s t : State} (hexec : exec (.portScriptStart p) s = .next t)
    (hidle : (portRun s p).running = none) (hx : (portRun t p).running = some x) :
    x ∈ (portRun s p).queued ∧ scriptMayStart s p x = true
      ∧ (∀ y ∈ (portRun s p).queued, scriptMayStart s p y = true → max x.cls 2 ≤ max y.cls 2)
      ∧ (∀ y ∈ (portRun s p).queued.takeWhile (fun z => z ≠ x), scriptMayStart s p y = true → max x.cls 2 < max y.cls 2)
      ∧ ∀ k, k ≠ p.val → portRun t k = portRun s k := by
  cases hfirst : firstBy scriptBefore ((portRun s p).queued.filter (scriptMayStart s p)) with
  | none =>
    rw [portScriptStart_of_none hfirst] at hexec
    cases hexec
    rw [hidle] at hx
    cases hx
  | some y =>
    rw [portScriptStart_starts hidle hfirst] at hexec
    cases hexec
    rw [portRun_setPort, if_pos rfl] at hx
    cases hx
    obtain ⟨hmem, hleast, hbefore⟩ := firstBy_spec (k := fun v : Script => max v.cls 2) scriptBefore_iff hfirst
    obtain ⟨hqueued, hmay⟩ := List.mem_filter.mp hmem
    exact ⟨hqueued, hmay, fun z hz hstart => hleast z (List.mem_filter.mpr ⟨hz, hstart⟩),
      fun z hz hstart => hbefore z (mem_takeWhile_filter hstart hz), fun k hk => by rw [portRun_setPort, if_neg hk]⟩

/-! ### Scripts end -/

theorem portScriptComplete_ends {p : Fin 16} {x : Script} {cls : Nat} {s : State} (l : List Word)
    (hrun : (portRun s p).running = some x) (hcls : x.cls = cls) :
    exec (.portScriptComplete p cls l) s = .next (scriptEnds p x (runScript s p x l) s) := by
  change execPortScriptComplete p cls l s = _
  rw [execPortScriptComplete, hrun]
  dsimp only
  rw [if_pos hcls]

theorem portScriptComplete_of_class {p : Fin 16} {x : Script} {cls : Nat} {s : State} (l : List Word)
    (hrun : (portRun s p).running = some x) (hcls : x.cls ≠ cls) : exec (.portScriptComplete p cls l) s = .next s := by
  change execPortScriptComplete p cls l s = _
  rw [execPortScriptComplete, hrun]
  dsimp only
  rw [if_neg hcls]

theorem scriptEnds_host {n : Nat} {x : Script} {r : ScriptRun} {q : Nat} {tag : BitVec 16} {s : State} (hcls : x.cls = 4)
    (htag : x.tag = some (q, tag)) (hok : r.mismatch = none) :
    scriptEnds n x r s =
      complete q tag .ok r.reads (sendFrames n r.frames (setPort s n { portRun s n with running := none })) := by
  simp only [scriptEnds, scriptEffect, hcls, htag, hok]
  rfl

theorem scriptEnds_host_failed {n k : Nat} {x : Script} {r : ScriptRun} {q : Nat} {tag : BitVec 16} {s : State}
    (hcls : x.cls = 4) (htag : x.tag = some (q, tag)) (hbad : r.mismatch = some k) :
    scriptEnds n x r s = complete q tag .failedHardware r.reads
      (scriptFault n 4 k (sendFrames n r.frames (setPort s n { portRun s n with running := none }))) := by
  simp only [scriptEnds, scriptEffect, hcls, htag, hbad]
  rfl

theorem scriptEnds_gain {n : Nat} {x : Script} {r : ScriptRun} {q : Nat} {tag : BitVec 16} {s : State} (hcls : x.cls = 3)
    (htag : x.tag = some (q, tag)) (hok : r.mismatch = none) :
    let s1 := sendFrames n r.frames (setPort s n { portRun s n with running := none })
    scriptEnds n x r s = complete q tag .ok [] (markTracks 2 (fun t => plainOfPort s1 n = some t.plain)
      (setChainCfg s1 x.chain { chainCfg s1 x.chain with gain := x.gain })) := by
  simp only [scriptEnds, scriptEffect, hcls, htag, hok]
  rfl

/-! ### Steps -/

theorem runSteps_mismatch {d : Word → Word} {pos k : Nat} {v : SpiStep} (l : List SpiStep) {ws : List Word}
    (hverify : v.verify = true) (hdata : d (ws.headD 0#32) ≠ d (v.frame.setWidth 32)) :
    (runSteps d pos (v :: l) ws k).mismatch = some k := by
  rw [runSteps, if_pos (by rw [hverify, bne_iff_ne.mpr hdata]; rfl)]

theorem runSteps_read {d : Word → Word} {pos k : Nat} {v : SpiStep} (l : List SpiStep) (w : Word) (ws : List Word)
    (hread : v.read = true) (hverify : v.verify = false) :
    (runSteps d pos (v :: l) (w :: ws) k).reads = d w :: (runSteps d pos l ws (k + 1)).reads
      ∧ (runSteps d pos (v :: l) (w :: ws) k).frames = (v.len, readFrame pos v.frame) :: (v.len, readFrame pos v.frame)
          :: (runSteps d pos l ws (k + 1)).frames := by
  rw [runSteps, hverify, Bool.false_and, if_neg Bool.false_ne_true, hread, stepFrames, hread]
  exact ⟨rfl, rfl⟩

theorem runSteps_write {d : Word → Word} {pos k : Nat} {v : SpiStep} (l : List SpiStep) (ws : List Word)
    (hread : v.read = false) (hverify : v.verify = false) :
    (runSteps d pos (v :: l) ws k).frames = (v.len, v.frame) :: (runSteps d pos l ws (k + 1)).frames := by
  rw [runSteps, hverify, Bool.false_and, if_neg Bool.false_ne_true, hread, stepFrames, hread, hverify]
  rfl

/-! ### Reference synthesisers -/

theorem rckStart_of_none {r : Nat} {s : State} (h : (rck s r).next = []) : rckStart r s = s := by
  cases hhop : (rck s r).hop <;> simp [rckStart, h, hhop]

theorem rckHopLock_locks {r : Fin 4} {k q ns : Nat} {tag : BitVec 16} {s : State} (hhop : (rck s r).hop = some (k, some (q, tag)))
    (hclk : s.dev.clkLost = false) (hns : ns ≤ if bit (rck s r).bands k then 5000 else 2000000) (hnext : (rck s r).next = []) :
    exec (.rckHopLock r ns) s = .next (complete q tag .ok [w32 ns] (setRck s r
      { rck s r with sel := some k, locked := true, low := false, bands := setBit (rck s r).bands k true, hop := none })) := by
  change execRckHopLock r ns s = _
  rw [execRckHopLock, hhop]
  dsimp only
  rw [if_neg (by simpa [hclk] using hns), rckStart_of_none (by rw [rck_setRck, if_pos rfl]; exact hnext)]

theorem rckUnlock_unlocks {r : Fin 4} {s : State} (hlock : (rck s r).locked = true) (hhop : (rck s r).hop = none) :
    exec (.rckUnlock r) s = .next (postEvent 0x0402 r 0#32 (raise (.rckUnlock r)
      (setRck s r { rck s r with locked := false, low := true, unlocks := min ((rck s r).unlocks + 1) 0xFFFFFFFF }))) := by
  change execRckUnlock r s = _
  rw [execRckUnlock, if_pos (by rw [hlock, hhop]; rfl)]
  rfl

theorem rckRelock_relocks {r : Fin 4} {k : Nat} {s : State} (hsel : (rck s r).sel = some k) (hlock : (rck s r).locked = false)
    (hhop : (rck s r).hop = none) (hclk : s.dev.clkLost = false) :
    exec (.rckRelock r) s = .next (postEvent 0x0402 r 1#32 (setRck s r { rck s r with locked := true, low := false })) := by
  change execRckRelock r s = _
  rw [execRckRelock, if_pos (by rw [hsel, hlock, hhop, hclk]; rfl)]

/-- Settles O24: scripts start in their order and end by their class; a synthesiser hops, unlocks and relocks. -/
theorem scriptAndClockEventsAct : Obligations.ScriptAndClockEventsAct := by
  refine ⟨⟨fun _ _ _ => portScriptStart_starts, fun _ _ _ => portScriptStart_of_running,
    fun _ _ _ l _ hrun hcls => portScriptComplete_of_class l hrun hcls, ?_, ?_, ?_,
    fun _ _ _ _ l _ => runSteps_mismatch l, fun _ _ _ _ l w ws => runSteps_read l w ws,
    fun _ _ _ _ l ws => runSteps_write l ws, fun _ _ _ _ => trouble_postEvent (trouble_raise _ _),
    fun _ _ _ _ _ _ => rckHopLock_locks, fun _ _ => rckUnlock_unlocks, fun _ _ _ => rckRelock_relocks⟩,
    fun _ _ _ _ => portScriptStart_selects⟩
  · intro p x q tag l s hrun hcls htag hok
    rw [portScriptComplete_ends l hrun hcls, scriptEnds_host hcls htag hok]
  · intro p x k q tag l s hrun hcls htag hbad
    rw [portScriptComplete_ends l hrun hcls, scriptEnds_host_failed hcls htag hbad]
  · intro p x q tag l s hrun hcls htag hok
    exact (portScriptComplete_ends l hrun hcls).trans (congrArg _ (scriptEnds_gain hcls htag hok))

end Sys2Proof.Proofs
end

section
/-! Settles Obligations.TransmissionStartsAct: a transmission from its frame to its first sample, and the samples themselves. -/

namespace Sys2Proof.Proofs

open Sys2Proof.Machine Sys2Proof.Laws Sys2Proof.Safety

-- Proofs one after another: the threads of many at once would pass the memory that the check allows.
set_option Elab.async false

/-! ### Building and coexistence -/

theorem frameBuild_builds {x : Tx} {f : List Byte} {s u : State} (hx : txAt s x.id = some x) (hstate : x.state = .selected)
    (hdue : reached s (before x.t0 1500000) = true) (hbuild : buildFor x s = (.inr f, u)) :
    exec (.frameBuild x.id) s = .next (setTx { x with frame := f, symbols := chirpsOf s x f, state := .built } u) := by
  change execFrameBuild x.id s = _
  rw [execFrameBuild, hx]
  dsimp only
  rw [if_neg (by simp [hstate, hdue]), hbuild]

theorem frameBuild_refused {x : Tx} {st : Status} {s u : State} (hx : txAt s x.id = some x) (hstate : x.state = .selected)
    (hdue : reached s (before x.t0 1500000) = true) (hbuild : buildFor x s = (.inl st, u)) :
    exec (.frameBuild x.id) s = .next (notStarted x st 0 0 none u) := by
  change execFrameBuild x.id s = _
  rw [execFrameBuild, hx]
  dsimp only
  rw [if_neg (by simp [hstate, hdue]), hbuild]

theorem coxRequestRise_booked {p : Fin 4} {x : Tx} {s : State} (asn : BitVec 40) (hx : txAt s x.id = some x)
    (hplain : x.plain = p.val) (hmode : x.coexMode = 1) (hdue : reached s (before x.t0 (1000 * x.coxLead)) = true)
    (hidle : txActive x = false) :
    exec (.coxRequestRise p (some x.id) asn) s = .next (setTxRun s p { txRun s p with coxReq := true }) := by
  change execCoxRequestRise p (some x.id) asn s = _
  rw [execCoxRequestRise]
  dsimp only
  rw [hx]
  dsimp only
  rw [if_pos (by simp [hplain, hmode, hdue, hidle])]

theorem coxRequestRise_cell {p : Fin 4} {asn : BitVec 40} {s : State} (hmode : (txCfg s p).coexMode = 1)
    (hlead : 2000 < (txCfg s p).coxLead)
    (hdue : reached s (before (nominal s asn.toNat) (1000 * (txCfg s p).coxLead)) = true)
    (hslot : reached s (nominal s asn.toNat) = false) :
    exec (.coxRequestRise p none asn) s = .next (if allCands (applyChanges asn.toNat s) p asn.toNat = [] then s
      else setTxRun s p { txRun s p with coxReq := true }) := by
  change execCoxRequestRise p none asn s = _
  rw [execCoxRequestRise]
  by_cases hnone : allCands (applyChanges asn.toNat s) p asn.toNat = [] <;>
    simp [hmode, hlead, hdue, hslot, cellHasCandidate, hnone]

theorem coxStatus_eq (x : Tx) : coxStatus x =
    if (x.kind = 1 ∨ x.kind = 2 ∨ x.kind = 3) ∨ x.coxPolicy = true then .refusedCoex else .deferredCoexPending := by
  simp only [coxStatus, refusable, Bool.or_eq_true, decide_eq_true_eq, or_assoc]

theorem coxGrantJudged_of_built {x : Tx} {s : State} (b : Bool) (hx : txAt s x.id = some x) (hmode : x.coexMode = 1)
    (hstate : x.state = .built) (halone : s.tan.joined = false) (hdue : reached s (before x.t0 110000) = true) :
    let g : State := { s with radio := { s.radio with grants := setBit s.radio.grants x.plain b } }
    exec (.coxGrantJudged x.id b) s = if b then .next (setTx { x with state := .judged } g)
      else .next (raise (.coxMissed (Fin.ofNat 4 x.plain)) (notStarted x (coxStatus x) 4 1 (some 0) g)) := by
  change execCoxGrantJudged x.id b s = _
  rw [execCoxGrantJudged, hx]
  dsimp only
  rw [if_neg (by simp [hmode, hstate, hdue]), mirrorOut_of_alone halone]

/-! ### PREP, switching and release -/

theorem prep_prepares {x : Tx} {p : Fin 4} {s : State} (hx : txAt s x.id = some x) (hplain : x.plain = p.val)
    (hstate : x.state = .judged ∨ (x.state = .built ∧ x.coexMode ≠ 1)) (hclk : s.dev.clkLost = false)
    (hdue : reached s (before x.t0 100000) = true) : exec (.prep x.id p) s = .next (prepare x s) := by
  change execPrep x.id p s = _
  rw [execPrep, hx]
  dsimp only
  rw [if_pos (by simpa [hplain, hclk, hdue] using hstate)]

theorem steps_of_clockLost {x : Tx} (p : Fin 4) {s : State} (hx : txAt s x.id = some x) (hclk : s.dev.clkLost = true) :
    exec (.prep x.id p) s = .next s ∧ exec (.txSwitchOn x.id) s = .next s ∧ exec (.paenAssert x.id) s = .next s := by
  refine ⟨?_, ?_, ?_⟩
  · change execPrep x.id p s = _
    rw [execPrep, hx]
    dsimp only
    rw [if_neg (by simp [hclk])]
  · change execTxSwitchOn x.id s = _
    rw [execTxSwitchOn, hx]
    dsimp only
    rw [if_pos (by simp [hclk])]
  · change execPaenAssert x.id s = _
    rw [execPaenAssert, hx]
    dsimp only
    rw [if_pos (by simp [hclk])]

theorem txSwitchOn_switches {x : Tx} {s : State} (hx : txAt s x.id = some x) (hstate : x.state = .prep)
    (hclk : s.dev.clkLost = false) (hdue : reached s (before x.t0 80000) = true) :
    exec (.txSwitchOn x.id) s = .next (openSpan x.plain (onPorts x.plain (fun v => { v with tr := true, txen := true })
      (setTx { x with state := .switched } s))) := by
  change execTxSwitchOn x.id s = _
  rw [execTxSwitchOn, hx]
  dsimp only
  rw [if_neg (by simp [hstate, hclk, hdue])]

theorem paenAssert_asserts {x : Tx} {s : State} (hx : txAt s x.id = some x) (hstate : x.state = .switched ∨ x.state = .onAir)
    (hup : x.paUp = false) (hclk : s.dev.clkLost = false) (hdue : reached s (before x.t0 (1000 * x.paLead)) = true) :
    exec (.paenAssert x.id) s = .next (onPorts x.plain (fun v => { v with paen := true }) (setTx { x with paUp := true } s)) := by
  change execPaenAssert x.id s = _
  rw [execPaenAssert, hx]
  dsimp only
  rw [if_neg (by rcases hstate with h | h <;> simp [h, hup, hclk, hdue])]

theorem firstSampleRelease_releases {x : Tx} {s : State} (hx : txAt s x.id = some x) (hstate : x.state = .switched)
    (hclk : s.dev.clkLost = false) (hhop : hopPending s x = false)
    (hdue : reached s (before x.t0 (releaseLead s x.plain)) = true) :
    exec (.firstSampleRelease x.id true) s = .next (if blankedFor s x then notStarted x .refusedBlanked 5 1 (some 1) s
      else startOnAir x s) := by
  change execFirstSampleRelease x.id true s = _
  rw [execFirstSampleRelease, hx]
  dsimp only
  rw [if_neg (by simp [hdue, hstate]), if_neg (by simp [hclk, hhop]), if_neg (by simp [hstate]), apply_ite Host.Outcome.next]

theorem firstSampleRelease_late {x : Tx} {b : Bool} {s : State} (hx : txAt s x.id = some x)
    (hstate : x.state = .selected ∨ x.state = .built ∨ x.state = .judged ∨ x.state = .prep ∨ x.state = .switched)
    (hlate : b = false ∨ s.dev.clkLost = true ∨ hopPending s x = true)
    (hdue : reached s (before x.t0 (releaseLead s x.plain)) = true) :
    exec (.firstSampleRelease x.id b) s = .next (raise .txTiming (notStarted x .failedHardware 6 0 (some 2) s)) := by
  change execFirstSampleRelease x.id b s = _
  rw [execFirstSampleRelease, hx]
  dsimp only
  rw [if_neg (by rcases hstate with h | h | h | h | h <;> simp [hdue, h]), if_pos (by simpa [or_assoc] using hlate)]

/-! ### Transmit samples -/

theorem txSample_of_not_enabled {s : State} {n e : Nat} (m : Nat) (h : ∀ p, plainOfPort s n = some p → (portCfg s n).txChains ≤ e) :
    txSample s n e m = (0, 0) := by
  unfold txSample
  split
  · next p hp => rw [if_neg (by simpa using fun _ => h p hp)]
  · rfl

theorem saturatePair_bounds (x : Int × Int) : -32768 ≤ (saturatePair x).1 ∧ (saturatePair x).1 ≤ 32767
    ∧ -32768 ≤ (saturatePair x).2 ∧ (saturatePair x).2 ≤ 32767 :=
  ⟨(saturate16_bounds x.1).1, (saturate16_bounds x.1).2, saturate16_bounds x.2⟩

theorem txSample_bounds (s : State) (n e m : Nat) : -32768 ≤ (txSample s n e m).1 ∧ (txSample s n e m).1 ≤ 32767
    ∧ -32768 ≤ (txSample s n e m).2 ∧ (txSample s n e m).2 ≤ 32767 := by
  unfold txSample
  split
  · split
    · exact saturatePair_bounds _
    · decide
  · decide

theorem txConverter_pair (s : State) (n e m : Nat) : txConverter s n (2 * e) m = BitVec.ofInt 16 (txSample s n e m).1
    ∧ txConverter s n (2 * e + 1) m = BitVec.ofInt 16 (txSample s n e m).2 := by
  have heven : 2 * e / 2 = e := by omega
  have hodd : (2 * e + 1) / 2 = e := by omega
  have hrem : (2 * e + 1) % 2 ≠ 0 := by omega
  refine ⟨?_, ?_⟩
  · rw [txConverter, heven, Nat.mul_mod_right, if_pos rfl]
  · rw [txConverter, hodd, if_neg hrem]

/-- With ramps that do not meet, the rise and the fall mirror each other. -/
theorem envelope_mirror {tr air t : Nat} (hpos : 0 < t) (hlt : t < air) (hramps : 2 * tr ≤ air) :
    envelope tr air t = envelope tr air (air - t) := by
  have hback : (air : Int) - (air - t : Nat) = t := by omega
  have hto : ((air - t : Nat) : Int) = (air : Int) - t := by omega
  have hin : ¬ air ≤ t := by omega
  have hin' : ¬ air ≤ air - t := by omega
  rw [envelope, envelope, if_neg hin, if_neg hin', hback, hto]
  by_cases hrise : t < tr
  · rw [if_pos hrise, if_neg (by omega), if_pos (by omega)]
  · by_cases hfall : air < t + tr
    · rw [if_neg hrise, if_pos hfall, if_pos (by omega)]
    · rw [if_neg hrise, if_neg hfall, if_neg (by omega), if_neg (by omega)]

/-! ### Phases -/

/-- One sample per chip, the phase of an up-chirp is that of its sequence from its start, up to whole turns. -/
theorem chirpPhase_up_mod (n k m : Nat) :
    (chirpPhase n (.up k) m 1 - (chirpSeq n k m - chirpSeq n k 0)) % (2 * n : Nat) = 0 := by
  refine Int.emod_eq_zero_of_dvd ?_
  simp only [chirpPhase, chirpSeq]
  split
  · next hfold =>
    refine ⟨-((k + m - n : Nat) : Int), ?_⟩
    have hle : n ≤ k + m := by omega
    push_cast [Nat.mul_one, Nat.cast_sub hle]
    ring
  · refine ⟨0, ?_⟩
    push_cast
    ring

theorem chirpPhase_end (n : Nat) (c : Chirp) (d : Nat) : chirpPhase n c (n * d) d = 0 := by
  cases c with
  | up k =>
    have hfold : n * d ≤ k * d + n * d := Nat.le_add_left _ _
    rw [chirpPhase, if_pos hfold, Nat.add_sub_cancel]
    push_cast
    ring
  | down => simp [chirpPhase]

theorem chirpPhase_down {n a d : Nat} (h : a < n * d) : chirpPhase n .down a d = -chirpPhase n (.up 0) a d := by
  rw [chirpPhase, chirpPhase, if_neg (by omega)]
  push_cast
  ring

/-- Settles O25: each step of a transmission that is due, and the waveform's symmetries. -/
theorem transmissionStartsAct : Obligations.TransmissionStartsAct := by
  refine ⟨fun _ _ _ _ => frameBuild_builds, fun _ _ _ _ => frameBuild_refused,
    fun _ _ asn _ => coxRequestRise_booked asn, fun _ _ _ => coxRequestRise_cell, ?judged, ?prepared,
    fun _ p _ => steps_of_clockLost p, fun _ _ => txSwitchOn_switches, fun _ _ => paenAssert_asserts,
    fun _ _ => firstSampleRelease_releases, fun _ _ _ => firstSampleRelease_late, fun _ _ => rfl,
    fun _ _ _ m => txSample_of_not_enabled m, txSample_bounds, txConverter_pair, fun _ _ _ => envelope_mirror,
    fun n k m _ _ => chirpPhase_up_mod n k m, chirpPhase_end, fun _ _ _ => chirpPhase_down⟩
  case judged =>
    intro x s hx hmode hstate halone hdue
    refine ⟨coxGrantJudged_of_built true hx hmode hstate halone hdue, ?_⟩
    rw [← coxStatus_eq]
    exact coxGrantJudged_of_built false hx hmode hstate halone hdue
  case prepared =>
    intro x p s hx hplain hstate hclk hdue
    rw [prep_prepares hx hplain hstate hclk hdue]
    rfl

end Sys2Proof.Proofs
end

section
/-! What a report leaves of what has left the device: all but interrupt messages. And what a list holds once one of its entries is
put in the place of those of its number. -/

namespace Sys2Proof.Proofs

open Sys2Proof.Machine Sys2Proof.Laws

-- Proofs one after another: the threads of many at once would pass the memory that the check allows.
set_option Elab.async false

section Quiet

/-- What reads of the queues, the trouble block and what has left the device nothing but what a report leaves. -/
def Quiet {α : Type} (P : State → α) : Prop := ∀ s a b m, P { s with trb := a, que := b, out := { s.out with msi := m } } = P s

variable {α : Type} {P : State → α} (hP : Quiet P)

include hP

theorem quiet_pushWords (q : Nat) (ws : List QWord) (s : State) : P (pushWords q ws s).1 = P s := by
  have hque : ∀ t k v, P (setQue t k v) = P t := fun t _ _ => hP t t.trb _ t.out.msi
  have hsettle : ∀ v t, P (settle q v t) = P t := fun v t => by
    unfold settle
    split
    · exact hP t t.trb _ _
    · exact hque _ _ _
  unfold pushWords
  dsimp only
  split
  · exact hque _ _ _
  split
  · exact hque _ _ _
  split
  · exact hque _ _ _
  · exact hsettle _ _

theorem quiet_raiseAt (d : Nat) (b : TrbBit) (s : State) : P (raiseAt d b s) = P s := by
  have htrb : ∀ t a, P { t with trb := a } = P t := fun t a => hP t a t.que t.out.msi
  have hmark : ∀ t, P (appendLog b (markTrouble b (noteTrouble b t))) = P t := fun t =>
    (htrb _ _).trans ((htrb _ _).trans (htrb _ _))
  induction d generalizing b s with
  | zero => rfl
  | succ d ih =>
    unfold raiseAt
    split
    · exact (htrb _ _).trans (htrb _ _)
    · dsimp only
      split
      · refine (keeps_foldl P (fun t c => ih c t fun u => (htrb _ _).trans ((htrb _ _).trans (htrb _ _))) _ _).trans ?_
        exact (quiet_pushWords hP _ _ _).trans ((hP _ (State.trb _) (State.que _) _).trans (hmark s))
      · exact hmark s

theorem quiet_raise (b : TrbBit) (s : State) : P (raise b s) = P s := quiet_raiseAt hP 4 b s

theorem quiet_raiseAll (l : List TrbBit) (s : State) : P (raiseAll l s) = P s :=
  keeps_foldl P (fun t b => quiet_raise hP b t) l s

theorem quiet_pushBytes (q : Nat) (l : List Byte) (s : State) : P (pushBytes q l s) = P s :=
  (quiet_raiseAll hP _ _).trans (quiet_pushWords hP _ _ _)

theorem quiet_postEvent (code source : Nat) (d : Word) (s : State) : P (postEvent code source d s) = P s :=
  quiet_pushBytes hP _ _ _

end Quiet

/-- An entry put in the place of those of its number is found by it, where one was. -/
theorem find?_replace {α : Type} {key : α → Nat} {l : List α} {x y : α} (h : l.find? (fun z => key z = key x) = some y) :
    (l.map (fun z => if key z = key x then x else z)).find? (fun z => key z = key x) = some x := by
  have hsame : (fun z => decide (key z = key x)) ∘ (fun z => if key z = key x then x else z) = fun z => decide (key z = key x) := by
    funext z
    by_cases hz : key z = key x <;> simp [hz]
  have hy : key y = key x := by simpa using List.find?_some h
  rw [List.find?_map, hsame, h, Option.map_some, if_pos hy]

end Sys2Proof.Proofs
end

section
/-! Settles Obligations.TransmissionEndsAct: how a transmission ends, whole or early, and what blanks it. -/

namespace Sys2Proof.Proofs

open Sys2Proof.Machine Sys2Proof.Laws Sys2Proof.Safety

-- Proofs one after another: the threads of many at once would pass the memory that the check allows.
set_option Elab.async false

/-! ### Ends that are due -/

theorem txUnderrun_ends {x : Tx} {s : State} (hx : txAt s x.id = some x) (hstate : x.state = .onAir) :
    exec (.txUnderrun x.id) s = .next (raise .txUnderrun (endEarly x .failedHardware 3 0 1 s)) := by
  change execTxUnderrun x.id s = _
  rw [execTxUnderrun, hx]
  dsimp only
  rw [if_pos hstate]

theorem airing_eq (s : State) (p : Nat) : airing s p = s.radio.txs.filter (fun x => x.plain = p && x.state = .onAir) := by
  rw [airing, booked, List.filter_filter]
  exact List.filter_congr fun x _ => Bool.and_comm _ _

theorem txLaneFault_ends {p : Fin 16} {q : Nat} {s : State} (hp : plainOfPort s p = some q) :
    exec (.txLaneFault p) s = .next (postEvent 0x0201 p 2#32 (raise (.laneFault p)
      ((s.radio.txs.filter (fun x => x.plain = q && x.state = .onAir)).foldl
        (fun t x => endEarly x .failedHardware 3 0 2 t) s))) := by
  change execTxLaneFault p s = _
  rw [execTxLaneFault, hp]
  dsimp only
  rw [airing_eq]

theorem transmissionEnd_ends {x : Tx} {s : State} (hx : txAt s x.id = some x) (hstate : x.state = .onAir)
    (hdue : reached s (x.t0 + BitVec.ofNat 64 (1000 * x.tAir)) = true) :
    exec (.transmissionEnd x.id) s = .next (outcome x .ok 1 0 (noteSent x (rememberTx x
      (onAir x .stop (countTx 1 x.plain 1 (setTx { x with state := .ended } s)))))) := by
  change execTransmissionEnd x.id s = _
  rw [execTransmissionEnd, hx]
  dsimp only
  rw [if_neg (by simp [hstate, airEnd, hdue])]

theorem paenRelease_releases {x : Tx} {s : State} (hx : txAt s x.id = some x) (hstate : x.state = .ended)
    (hdue : reached s (txEnd x + BitVec.ofNat 64 (1000 * x.paLag)) = true) :
    exec (.paenRelease x.id) s = .next
      (let s1 := setTx { x with state := .paenOff } s
      if ∃ y ∈ s1.radio.txs, y.plain = x.plain ∧ keyed y = true ∧ y.state ≠ .paenOff then s1
      else onPorts x.plain (fun v => { v with paen := false }) s1) := by
  change execPaenRelease x.id s = _
  rw [execPaenRelease, hx]
  dsimp only
  rw [if_neg (by simp [hstate, hdue])]
  simp only [Bool.not_eq_true', List.any_eq_false, Bool.and_eq_true, decide_eq_true_eq, bne_iff_ne, ne_eq, and_assoc]
  congr 1
  by_cases hother : ∃ y ∈ (setTx { x with state := .paenOff } s).radio.txs, y.plain = x.plain ∧ keyed y = true ∧ ¬ y.state = .paenOff
  · rw [if_pos hother, if_neg fun h => hother.elim fun y hy => h y hy.1 hy.2]
  · rw [if_neg hother, if_pos fun y hy h => hother ⟨y, hy, h⟩]

theorem returnRx_returns {x : Tx} {s : State} (hx : txAt s x.id = some x) (hstate : x.state = .paenOff)
    (hdue : reached s (txEnd x + BitVec.ofNat 64 (1000 * x.paLag + 2000)) = true) :
    exec (.returnRx x.id) s = .next (if othersKeyed (dropTx x.id s) x.plain x.id then settleSeq x.plain (dropTx x.id s)
      else lowerRequest x.plain (beginReturn x.plain x.tuneShared (dropTx x.id s))) := by
  change execReturnRx x.id s = _
  rw [execReturnRx, hx]
  dsimp only
  rw [if_neg (by simp [hstate, stepEleven, hdue])]

theorem ownTransmissionSpanEnd_ends {p : Fin 4} {t : BitVec 64} {s : State} (hend : (txRun s p).spanEnd = some t)
    (hdue : reached s t = true) : exec (.ownTransmissionSpanEnd p) s =
      .next (closeBlank p (setTxRun s p { txRun s p with ownSpan := false, spanEnd := none })) := by
  change execOwnTransmissionSpanEnd p s = _
  rw [execOwnTransmissionSpanEnd, hend]
  dsimp only
  rw [if_pos hdue]

/-! ### Blanking -/

theorem blank_of_alone (i : Fin 8) {s : State} (h : s.tan.joined = false) :
    exec (.blankAssert i) s = .next (changeInputs (setBlank i true) s)
      ∧ exec (.blankRelease i) s = .next (changeInputs (setBlank i false) s) := by
  constructor
  · change execBlankAssert i s = _
    rw [execBlankAssert, mirrorOut_of_alone h]
  · change execBlankRelease i s = _
    rw [execBlankRelease, mirrorOut_of_alone h]

theorem blankTx_of_ready {x : Tx} (s : State) (h : x.state = .prep ∨ x.state = .switched) :
    blankTx x s = notStarted x .refusedBlanked 5 1 (some 1) s := by
  rw [blankTx, if_pos (by rcases h with h | h <;> simp [h])]

theorem blankTx_of_onAir {x : Tx} {p : Fin 4} (s : State) (hplain : x.plain = p.val) (h : x.state = .onAir) :
    blankTx x s = raise (.blankAbort p) (endEarly x .refusedBlanked 2 1 0 s) := by
  have hp : Fin.ofNat 4 x.plain = p := Fin.ext (by rw [Fin.val_ofNat, hplain, Nat.mod_eq_of_lt p.isLt])
  rw [blankTx, if_neg (by simp [h]), if_pos h, hp]

theorem blank_setBlank (i : Fin 8) (b : Bool) (s : State) : (setBlank i b s).radio.blank =
    setBit s.radio.blank i (if b then !bit s.cfg.tx.blankPol i else bit s.cfg.tx.blankPol i) := by
  cases b <;> cases h : bit s.cfg.tx.blankPol i <;> simp [setBlank, h]

/-! ### Early ends -/

/-- The counter of a downlink that ends early is kept in its node's record alone. -/
theorem noteUnsure_eq (x : Tx) (s : State) : noteUnsure x s = { s with fwd := (noteUnsure x s).fwd } := by
  have htouch : ∀ i t, touchNode i t = { t with fwd := (touchNode i t).fwd } := fun i t => by
    unfold touchNode
    split <;> rfl
  unfold noteUnsure modNode
  split
  · split
    · unfold setNode
      dsimp only
      rw [htouch]
    · rfl
  · rfl

/-- The transmission after its fast ramp-down has begun (R218). -/
def rampedTx (x : Tx) (st : Status) (s : State) : Tx :=
  { x with state := .ended, endAt := after s ((Config.freeWord s.free).toNat % 601 + 400), status := st }

theorem onAir_of_outputs (x : Tx) (e : AirEvent) {s : State} (h : s.tan.outputs = true) : onAir x e s =
    { s with out := { s.out with air := s.out.air ++ [{ plain := x.plain, txId := x.id, event := e }] } } := by
  rw [onAir, h]
  rfl

theorem rampDown_eq (x : Tx) (st : Status) {s : State} (h : s.tan.outputs = true) : ∃ f, rampDown x st s =
    { s with
      free := s.free + 1, fwd := f
      out := { s.out with air := s.out.air ++ [{ plain := x.plain, txId := x.id, event := .fast }] }
      radio := { s.radio with txs := s.radio.txs.map (fun y => if y.id = x.id then rampedTx x st s else y) } } := by
  have hair := onAir_of_outputs x .fast (s := setTx (rampedTx x st s) { s with free := s.free + 1 }) h
  refine ⟨(rampDown x st s).fwd, (noteUnsure_eq x _).trans ?_⟩
  change { onAir x .fast (setTx (rampedTx x st s) { s with free := s.free + 1 }) with fwd := (rampDown x st s).fwd } = _
  rw [hair]
  rfl

theorem endEarly_ramps (x : Tx) (st : Status) (counter rank detail : Nat) {s : State} (h : s.tan.outputs = true) :
    ∃ u, endEarly x st counter rank detail s = outcome x st 2 rank (shortfall x rank none u)
      ∧ u.out.air = s.out.air ++ [{ plain := x.plain, txId := x.id, event := .fast }] ∧ u.air = s.air
      ∧ ∀ y, txAt s x.id = some y → ∃ z n, txAt u x.id = some z ∧ z.state = .ended ∧ z.status = st
          ∧ z.endAt = after s (n + 400) ∧ n ≤ 600 := by
  obtain ⟨f, hf⟩ := rampDown_eq x st h
  refine ⟨_, rfl, ?_, ?_, fun y hy => ⟨rampedTx x st s, _, ?_, rfl, rfl, rfl, ?_⟩⟩
  · rw [quiet_postEvent (P := fun t => t.out.air) fun _ _ _ _ => rfl]
    change (rampDown x st s).out.air = _
    rw [hf]
  · rw [keeps_postEvent _ _ _ _ State.air]
    change (rampDown x st s).air = _
    rw [hf]
  · rw [keeps_postEvent _ _ _ _ (fun t => txAt t x.id)]
    change (rampDown x st s).radio.txs.find? _ = _
    rw [hf]
    exact find?_replace (key := Tx.id) (x := rampedTx x st s) hy
  · omega

theorem txAt_dropTx (id : Nat) (s : State) : txAt (dropTx id s) id = none := by
  refine List.find?_eq_none.mpr fun y hy => ?_
  have hne : (y.id != id) = true := (List.mem_filter.mp hy).2
  simpa using hne

/-- Settles O26: each way in which a transmission ends, and what its early end leaves. -/
theorem transmissionEndsAct : Obligations.TransmissionEndsAct :=
  ⟨⟨fun _ _ => txUnderrun_ends, fun _ _ _ => txLaneFault_ends, fun _ _ => transmissionEnd_ends,
    fun _ _ => paenRelease_releases, fun _ _ => returnRx_returns, fun _ _ _ => ownTransmissionSpanEnd_ends,
    fun i _ => blank_of_alone i, changeInputs_eq,
    fun _ _ s hplain => ⟨blankTx_of_ready s, blankTx_of_onAir s hplain⟩, fun _ b _ => settleInputs_of_clear b, blank_setBlank⟩,
   fun x st counter rank detail _ => endEarly_ramps x st counter rank detail, fun x s => txAt_dropTx x.id s⟩

end Sys2Proof.Proofs
end

section
/-! Settles Obligations.LinkCommandsRun: rows of networks, epochs, contexts, windows, keys, images and counters. -/

namespace Sys2Proof.Proofs

open Sys2Proof.Machine Sys2Proof.Laws Sys2Proof.Safety

-- Proofs one after another: the threads of many at once would pass the memory that the check allows.
set_option Elab.async false

/-! ### Networks -/

theorem within_net {c : Packet} (h : pn c 0 ≤ 15) : within c 0 0 15 = true := within_iff.mpr ⟨Nat.zero_le _, h⟩

theorem syncTaken_eq_false {s : State} {n : Nat} {v : Byte}
    (h : ∀ m < 16, m ≠ n → (netCfg s m).configured = true → (netCfg s m).sync ≠ v) : syncTaken s n v = false := by
  refine List.any_eq_false.mpr fun m hm => ?_
  intro hall
  simp only [Bool.and_eq_true, bne_iff_ne, decide_eq_true_eq] at hall
  obtain ⟨⟨hne, hconf⟩, hsync⟩ := hall
  exact h m (List.mem_range.mp hm) hne hconf hsync

theorem linkNetworkSet_runs : Runs .linkNetworkSet 0x0500 9
    (fun c u => pn c 0 ≤ 15 ∧ pw c 1 &&& ~~~0xFFFF00FF#32 = 0#32 ∧ pn c 2 ≤ 63 ∧ pn c 3 < 65536 ∧ pn c 5 < 1024 ∧ 2 ≤ pn c 6
      ∧ pn c 6 ≤ 16 ∧ pn c 7 < 16 ∧ 34 ≤ pn c 8 ∧ pn c 8 ≤ 1023 ∧ zoneLoaded u (pn c 2) = true
      ∧ (∀ m < 16, m ≠ pn c 0 → (netCfg u m).configured = true → (netCfg u m).sync ≠ (pw c 1).setWidth 8)
      ∧ ((netCfg u (pn c 0)).configured = false ∨ (netCfg u (pn c 0)).epoch = (pw c 3).setWidth 16))
    (fun _ _ => [])
    (fun c u => setNetCfg (if (netCfg u (pn c 0)).slot = pn c 2 then u
      else dropKeys (fun e => e.net = pn c 0 && e.epoch = (netCfg u (pn c 0)).epoch) u) (pn c 0) (netOf c)) := by
  refine runs_row linkNetworkSetSpec
    (fun c u ⟨hnet, hword, hslot, hepoch, hflags, hgap, hgap', httl, hq, hq', _, _, _⟩ => ?_) (fun _ _ _ => rfl)
    (hr := fun c u ⟨_, _, _, _, _, _, _, _, _, _, hzone, _, hepoch⟩ => ?_)
    (hh := fun c u ⟨_, _, _, _, _, _, _, _, _, _, _, hsync, _⟩ => ?_)
  · have honly : only c 1 0xFFFF00FF = true := only_iff.mpr hword
    simp only [linkNetworkSetSpec, within_net hnet, honly, within_iff.mpr ⟨Nat.zero_le _, hslot⟩, within_iff.mpr ⟨hgap, hgap'⟩,
      within_iff.mpr ⟨hq, hq'⟩, fits_iff.mpr (show pn c 3 < 2 ^ 16 from hepoch), fits_iff.mpr (show pn c 5 < 2 ^ 10 from hflags),
      fits_iff.mpr (show pn c 7 < 2 ^ 4 from httl), Bool.and_self]
  · change (zoneLoaded u (pn c 2) && (!(netCfg u (pn c 0)).configured || decide _)) = true
    rw [hzone]
    rcases hepoch with h | h
    · rw [h]; rfl
    · rw [decide_eq_true h, Bool.or_true]; rfl
  · change (!syncTaken u (pn c 0) ((pw c 1).setWidth 8)) = true
    rw [syncTaken_eq_false hsync]
    rfl

theorem linkEpochAdvance_runs : Runs .linkEpochAdvance 0x0502 1
    (fun c u => pn c 0 ≤ 15 ∧ (netCfg u (pn c 0)).configured = true ∧ minorityCheck u = none)
    (fun c u => [((netCfg u (pn c 0)).epoch + 1).setWidth 32]) (fun c u => advanceEpoch (pn c 0) u) :=
  runs_row linkEpochAdvanceSpec (fun _ _ h => within_net h.1) (fun _ _ _ => rfl) (hr := fun _ _ h => h.2.1)
    (hp := fun _ _ h => h.2.2)

/-! ### Contexts, windows and keys -/

theorem iphcContextSet_runs : Runs .iphcContextSet 0x0504 7
    (fun c _ => pn c 0 ≤ 255 ∧ pn c 1 ≤ 15 ∧ pn c 2 < 512 ∧ pf c 2 7 0 ≤ 128) (fun _ _ => [])
    (fun c u =>
      let v : IphcCtx := { valid := bit (pw c 2) 8, len := pf c 2 7 0, pfx := keyOfWords (pwords c 3 4) }
      { u with cfg := { u.cfg with link := { u.cfg.link with ctx := tabSet u.cfg.link.ctx (16 * pn c 0 + pn c 1) v } } }) :=
  runs_row iphcContextSetSpec
    (fun _ _ ⟨htenant, hctx, hword, hlen⟩ => Bool.and_eq_true_iff.mpr ⟨Bool.and_eq_true_iff.mpr
      ⟨within_and ⟨Nat.zero_le _, htenant, Nat.zero_le _, hctx⟩, fits_iff.mpr hword⟩, decide_eq_true hlen⟩)
    (fun _ _ _ => rfl)

theorem replayStateRead_runs (w : Window) (unrec : Bool) : Runs .replayStateRead 0x0505 2
    (fun c u => pn c 0 ≤ 15 ∧ windowAt u (pn c 0) (pw c 1) = some (w, unrec))
    (fun _ _ => [w.epoch.setWidth 32, w.last, w.map.setWidth 32, (w.map >>> 32).setWidth 32, if unrec then 1#32 else 0#32])
    (fun _ u => u) :=
  runs_row replayStateReadSpec (fun _ _ h => within_net h.1) (fun c u h => by
    simp only [replayStateReadSpec, plainSpec, h.2, w32_flag]
    rfl)

theorem replayStateRead_unknown : Ends .replayStateRead 0x0505 2
    (fun c u => pn c 0 ≤ 15 ∧ windowAt u (pn c 0) (pw c 1) = none) .refusedNodeUnknown :=
  ends_row replayStateReadSpec (fun _ _ h => within_net h.1) (fun c u h => by
    simp only [replayStateReadSpec, plainSpec, h.2])

/-! ### Images -/

theorem imageLoad_runs : Runs .imageLoad 0x0510 6
    (fun c u => 1 ≤ pn c 0 ∧ pn c 0 ≤ 65535 ∧ 1 ≤ pn c 3 ∧ pn c 3 ≤ 1048576 ∧ (p64 c 1).toNat + pn c 3 ≤ 0xC0000000 ∧ pn c 5 ≤ 15
      ∧ imageAt u (pn c 0) = none ∧ (netCfg u (pn c 5)).configured = true ∧ stagingBad u (p64 c 1).toNat (pn c 3) = false
      ∧ crc32c (stagingRead u (p64 c 1).toNat (pn c 3)) = pw c 4 ∧ u.link.images.length < 4)
    (fun c _ => [w32 ((pn c 3 + 191) / 192)])
    (fun c u =>
      let i : Image := { id := pn c 0, net := pn c 5, offset := (p64 c 1).toNat, len := pn c 3 }
      { u with link := { u.link with images := u.link.images ++ [i] } }) := by
  refine runs_row imageLoadSpec (fun c u ⟨hid, hid', hlen, hlen', hrange, hnet, _⟩ => ?_)
    (fun c u ⟨_, _, _, _, _, _, _, _, hgood, hcrc, hroom⟩ => ?_) (hr := fun c u ⟨_, _, _, _, _, _, hnone, hconf, _⟩ => ?_)
  · have hin : imageRange c = true := decide_eq_true hrange
    simp only [imageLoadSpec, plainSpec, within_iff.mpr ⟨hid, hid'⟩, within_iff.mpr ⟨hlen, hlen'⟩, hin,
      within_iff.mpr ⟨Nat.zero_le _, hnet⟩, Bool.and_self]
  · exact (if_neg (by rw [hgood]; exact Bool.false_ne_true)).trans
      ((if_neg fun h => bne_iff_ne.mp h hcrc).trans (if_neg (Nat.not_le.mpr hroom)))
  · change ((imageAt u (pn c 0)).isNone && (netCfg u (pn c 5)).configured) = true
    rw [hnone, hconf]
    rfl

theorem imageStart_runs (i : Image) : Runs .imageStart 0x0511 3
    (fun c u => 1 ≤ pn c 0 ∧ pn c 0 ≤ 65535 ∧ 1 ≤ pn c 1 ∧ pn c 1 ≤ 255 ∧ 1 ≤ pn c 2 ∧ pn c 2 ≤ 86400 ∧ imageAt u (pn c 0) = some i
      ∧ (i.state = 0 ∨ i.state = 3 ∨ i.state = 4))
    (fun _ _ => [])
    (fun c u =>
      let j : Image :=
        { i with state := 1, round := 0, sent := 0, reports := 0, missing := [], todo := List.range ((i.len + 191) / 192),
                 maxRounds := pn c 1, reportWait := pn c 2, seq := u.sched.nextSeq }
      let u1 := setImage j u
      { u1 with sched := { u1.sched with nextSeq := u1.sched.nextSeq + 1 } }) :=
  runs_row imageStartSpec
    (fun _ _ ⟨hid, hid', hr, hr', hw, hw', _⟩ =>
      Bool.and_eq_true_iff.mpr ⟨within_and ⟨hid, hid', hr, hr'⟩, within_iff.mpr ⟨hw, hw'⟩⟩)
    (fun c u ⟨_, _, _, _, _, _, hi, _⟩ => by
      simp only [imageStartSpec, plainSpec, hi]
      rfl)
    (hr := fun c u ⟨_, _, _, _, _, _, hi, hstate⟩ => by
      simp only [imageStartSpec, imageIn, hi]
      rcases hstate with h | h | h <;> rw [h] <;> rfl)

theorem imageStop_runs (i : Image) : Runs .imageStop 0x0512 2
    (fun c u => 1 ≤ pn c 0 ∧ pn c 0 ≤ 65535 ∧ pn c 1 < 2 ∧ imageAt u (pn c 0) = some i) (fun _ _ => [])
    (fun c u =>
      let u1 := if i.state = 1 ∨ i.state = 2 then postEvent 0x0511 i.id 2#32 (setImage { i with state := 4, todo := [] } u) else u
      if pn c 1 = 1 then { u1 with link := { u1.link with images := u1.link.images.filter (fun x => x.id != i.id) } } else u1) :=
  runs_row imageStopSpec
    (fun _ _ ⟨hid, hid', hflag, _⟩ => Bool.and_eq_true_iff.mpr ⟨within_iff.mpr ⟨hid, hid'⟩, fits_iff.mpr hflag⟩)
    (fun c u ⟨_, _, _, hi⟩ => by
      simp only [imageStopSpec, plainSpec, hi, Bool.or_eq_true, decide_eq_true_eq]
      rfl)
    (hr := fun c u ⟨_, _, _, hi⟩ => by
      simp only [imageStopSpec, hi]
      rfl)

theorem imageStatus_runs (i : Image) : Runs .imageStatus 0x0513 1
    (fun c u => 1 ≤ pn c 0 ∧ pn c 0 ≤ 65535 ∧ imageAt u (pn c 0) = some i)
    (fun _ _ => [w32 i.state, w32 i.round, w32 i.sent, w32 i.reports]) (fun _ u => u) :=
  runs_row imageStatusSpec (fun _ _ ⟨hid, hid', _⟩ => within_iff.mpr ⟨hid, hid'⟩)
    (fun c u ⟨_, _, hi⟩ => by
      simp only [imageStatusSpec, plainSpec, hi]
      rfl)
    (hr := fun c u ⟨_, _, hi⟩ => by
      simp only [imageStatusSpec, hi]
      rfl)

/-- Settles O27: each row of the link commands carries out its own effect. -/
theorem linkCommandsRun : Obligations.LinkCommandsRun :=
  ⟨linkNetworkSet_runs, runs_row linkNetworkStatusSpec (fun _ _ h => within_net h) (fun _ _ _ => rfl), linkEpochAdvance_runs,
   runs_row linkSeenSetSpec (fun _ _ h => within_iff.mpr h) (fun _ _ _ => rfl), iphcContextSet_runs, replayStateRead_runs,
   replayStateRead_unknown,
   runs_row keyCacheFlushSpec
     (fun c _ h => by
       change (within c 0 0 15 || decide (pw c 0 = 0xFFFFFFFF#32)) = true
       rcases h with h | h
       · rw [within_net h, Bool.true_or]
       · rw [decide_eq_true h, Bool.or_true])
     (fun _ _ _ => rfl),
   runs_row cryptoEngineRestartSpec (fun _ _ _ => rfl) (fun _ _ _ => rfl),
   imageLoad_runs, imageStart_runs, imageStop_runs, imageStatus_runs,
   runs_row linkCountersReadSpec (fun _ _ h => Bool.and_eq_true_iff.mpr ⟨within_net h.1, fits_iff.mpr h.2⟩) (fun _ _ _ => rfl)⟩

end Sys2Proof.Proofs
end

section
/-! Settles Obligations.CountersNeverRepeat: epoch advances, the replay window, and the counters of broadcasts. -/

namespace Sys2Proof.Proofs

open Sys2Proof.Machine Sys2Proof.Laws Sys2Proof.Safety

-- Proofs one after another: the threads of many at once would pass the memory that the check allows.
set_option Elab.async false

/-! ### Epoch advance (R241, R243) -/

theorem netRun_endOverlap (n : Nat) (s : State) (m : Nat) :
    netRun (endOverlap n s) m = if m = n then { netRun s n with prev := none, bctrPrev := none } else netRun s m := by
  rw [endOverlap, netRun_setNet]
  rfl

theorem keys_endOverlap (n : Nat) (s : State) :
    (endOverlap n s).link.keys = s.link.keys.filter (fun e => !(e.net = n && e.epoch = (netCfg s n).epoch - 1)) := rfl

theorem netCfg_advanceEpoch (n : Nat) (s : State) (m : Nat) : netCfg (advanceEpoch n s) m = if m = n then
    { netCfg s n with epoch := (netCfg s n).epoch + 1, slot := tabGet s.vault.next n (netCfg s n).slot } else netCfg s m := by
  change netCfg (setNetCfg _ n _) m = _
  rw [netCfg_setNetCfg]
  rfl

theorem netRun_advanceEpoch (n : Nat) (s : State) (m : Nat) : netRun (advanceEpoch n s) m = if m = n then
    { netRun s n with
      prev := some ((netCfg s n).slot, after s (1000000000 * (netCfg s n).overlap))
      bctrPrev := (netRun s n).bctr, bctr := advanceBctr (endOverlap n s) n } else netRun s m := by
  change netRun (setNet (endOverlap n s) n _) m = _
  simp only [netRun_setNet, netRun_endOverlap, if_true]
  split <;> rfl

theorem startCount_advanceEpoch (n : Nat) (s : State) (m : Nat) :
    startCount (advanceEpoch n s) m = if m = n then advanceCounts (startCount s n) else startCount s m := by
  change tabGet (tabSet s.vault.start n _) m {} = _
  rw [tabGet_tabSet]
  rfl

theorem keys_advanceEpoch {n : Nat} {s : State} {e : KeyEntry} (he : e ∈ (advanceEpoch n s).link.keys) :
    ¬ (e.net = n ∧ e.epoch = (netCfg s n).epoch - 1) := by
  change e ∈ (endOverlap n s).link.keys at he
  rw [keys_endOverlap, List.mem_filter] at he
  rintro ⟨hnet, hepoch⟩
  simp [hnet, hepoch] at he

/-! ### The replay window (R235) -/

theorem epochBefore_self (e : BitVec 16) : epochBefore e e = false := by simp [epochBefore]

/-- Epochs of which neither comes before the other are the same. -/
theorem eq_of_not_epochBefore {a b : BitVec 16} (hab : epochBefore a b = false) (hba : epochBefore b a = false) : a = b := by
  simp only [epochBefore, decide_eq_false_iff_not, BitVec.toInt_sub, Int.bmod_def] at hab hba
  have ha := a.toInt_lt
  have ha' := a.le_toInt
  have hb := b.toInt_lt
  have hb' := b.le_toInt
  refine BitVec.eq_of_toInt_eq ?_
  norm_num at hab hba ha ha' hb hb'
  omega

/-- A window that opens under an epoch holds its first counter. -/
theorem replayCheck_opened (ctr : Word) (ep : BitVec 16) :
    replayCheck (some { epoch := ep, last := ctr, map := 1 }) ctr ep = .duplicate := by
  have hlt : ¬ ctr < ctr := BitVec.lt_irrefl ctr
  simp only [replayCheck, epochBefore_self, if_neg hlt, BitVec.sub_self]
  rfl

theorem replayCheck_of_same_epoch (w : Window) (ctr : Word) : replayCheck (some w) ctr w.epoch = if w.last < ctr then .fresh
    else if 64 ≤ (w.last - ctr).toNat then .replay else if bit w.map (w.last - ctr).toNat then .duplicate else .fresh := by
  simp only [replayCheck, epochBefore_self, Bool.false_eq_true, if_false]

theorem replayCommit_of_newer {w : Window} {ctr : Word} (h : w.last < ctr) : replayCommit (some w) ctr w.epoch =
    { w with last := ctr, map := if 64 ≤ (ctr - w.last).toNat then 1 else (w.map <<< (ctr - w.last).toNat) ||| 1 } := by
  simp only [replayCommit, epochBefore_self, Bool.false_eq_true, if_false, if_pos h]

theorem replayCommit_of_older {w : Window} {ctr : Word} (h : ¬ w.last < ctr) : replayCommit (some w) ctr w.epoch =
    { w with map := w.map ||| BitVec.ofNat 64 (2 ^ (w.last - ctr).toNat) } := by
  simp only [replayCommit, epochBefore_self, Bool.false_eq_true, if_false, if_neg h]

theorem bit_or_pow (m : BitVec 64) {i j : Nat} (hi : i < 64) :
    bit (m ||| BitVec.ofNat 64 (2 ^ i)) j = (bit m j || decide (j = i)) := by
  simp only [bit, BitVec.getLsbD_or, BitVec.getLsbD_ofNat, Nat.testBit_two_pow]
  by_cases h : j = i
  · simp [h, hi]
  · simp [h, Ne.symm h]

theorem bit_or_one (m : BitVec 64) : bit (m ||| 1) 0 = true := by simp [bit]

/-- Under one epoch, a counter once committed is a duplicate. -/
theorem replayCheck_commit_same {w : Window} {ctr : Word} (h : replayCheck (some w) ctr w.epoch = .fresh) :
    replayCheck (some (replayCommit (some w) ctr w.epoch)) ctr w.epoch = .duplicate := by
  by_cases hlt : w.last < ctr
  · have hself : ¬ ctr < ctr := BitVec.lt_irrefl ctr
    rw [replayCommit_of_newer hlt]
    refine (replayCheck_of_same_epoch _ ctr).trans ?_
    dsimp only
    rw [if_neg hself, BitVec.sub_self, if_neg (by decide)]
    split
    · rfl
    · exact if_pos (bit_or_one _)
  · rw [replayCheck_of_same_epoch, if_neg hlt] at h
    have hin : ¬ 64 ≤ (w.last - ctr).toNat := fun hout => by rw [if_pos hout] at h; cases h
    rw [replayCommit_of_older hlt]
    refine (replayCheck_of_same_epoch _ ctr).trans ?_
    dsimp only
    rw [if_neg hlt, if_neg hin, bit_or_pow _ (by omega), decide_eq_true rfl, Bool.or_true, if_pos rfl]

theorem replayCheck_commit {w : Option Window} {ctr : Word} {ep : BitVec 16} (h : replayCheck w ctr ep = .fresh) :
    replayCheck (some (replayCommit w ctr ep)) ctr ep = .duplicate := by
  cases w with
  | none => exact replayCheck_opened ctr ep
  | some w =>
    by_cases hold : epochBefore w.epoch ep = true
    · have hnew : replayCommit (some w) ctr ep = { epoch := ep, last := ctr, map := 1 } := if_pos hold
      rw [hnew]
      exact replayCheck_opened ctr ep
    · have hstale : epochBefore ep w.epoch = false := by
        by_contra hs
        rw [replayCheck, if_pos (Bool.eq_true_of_not_eq_false hs)] at h
        cases h
      obtain rfl := eq_of_not_epochBefore hstale (Bool.eq_false_of_not_eq_true hold)
      exact replayCheck_commit_same h

/-- A counter that a window refuses lies in it or below it. -/
theorem refused_iff {w : Window} {c : Word} : replayCheck (some w) c w.epoch ≠ .fresh ↔
    c ≤ w.last ∧ (64 ≤ (w.last - c).toNat ∨ bit w.map (w.last - c).toNat = true) := by
  rw [replayCheck_of_same_epoch, ← BitVec.not_lt]
  generalize (w.last - c).toNat = d
  by_cases hlt : w.last < c
  · simp [hlt]
  · by_cases hout : 64 ≤ d
    · simp [hlt, hout]
    · by_cases hbit : bit w.map d = true <;> simp [hlt, hout, hbit]

/-- A commit under the same epoch forgets no counter refused so far. -/
theorem refused_of_commit {w : Window} {ctr c : Word} (hfresh : replayCheck (some w) ctr w.epoch = .fresh)
    (h : replayCheck (some w) c w.epoch ≠ .fresh) : replayCheck (some (replayCommit (some w) ctr w.epoch)) c w.epoch ≠ .fresh := by
  obtain ⟨hle, hin⟩ := refused_iff.mp h
  by_cases hlt : w.last < ctr
  · rw [replayCommit_of_newer hlt]
    refine refused_iff (w := { w with last := ctr, map := _ }).mpr ?_
    have hdist : (ctr - c).toNat = (ctr - w.last).toNat + (w.last - c).toNat := by bv_omega
    refine ⟨by bv_omega, ?_⟩
    dsimp only
    rw [hdist]
    by_cases hfar : 64 ≤ (ctr - w.last).toNat + (w.last - c).toNat
    · exact .inl hfar
    · have hbit : bit w.map (w.last - c).toNat = true := hin.resolve_left (by omega)
      rw [if_neg (by omega)]
      refine .inr ?_
      simp only [bit] at hbit ⊢
      rw [BitVec.getLsbD_or, BitVec.getLsbD_shiftLeft, Nat.add_sub_cancel_left, hbit, decide_eq_true (by omega),
        decide_eq_false (by omega)]
      rfl
  · have hd : ¬ 64 ≤ (w.last - ctr).toNat := fun hout => by
      rw [replayCheck_of_same_epoch, if_neg hlt, if_pos hout] at hfresh
      cases hfresh
    rw [replayCommit_of_older hlt]
    refine refused_iff (w := { w with map := _ }).mpr ⟨hle, hin.imp_right fun hbit => ?_⟩
    dsimp only
    rw [bit_or_pow _ (by omega), hbit, Bool.true_or]

/-! ### Counters of broadcasts (R243) -/

theorem nextCtr_bounds {base v c : Nat} (h : nextCtr base v true = some c) : base ≤ c ∧ c < base + 8388608 := by
  unfold nextCtr at h
  split at h
  · cases h
  · split at h
    · next hin =>
      cases h
      simpa using hin
    · cases h
      omega

/-- The value that the next counter of a block is drawn from follows the one drawn last. -/
theorem nextCtr_succ {base c d : Nat} (hlo : base ≤ c) (hhi : c < base + 8388608) (h : nextCtr base (c + 1) true = some d) :
    d = c + 1 := by
  unfold nextCtr at h
  split at h
  · cases h
  · next hused =>
    have hne : c + 1 ≠ base + 8388608 := by simpa using hused
    rw [if_pos (by simp; omega)] at h
    exact (Option.some.inj h).symm

/-- First value of the block from which a network's broadcasts under its current epoch draw. -/
def bcastBase (s : State) (n : Nat) : Nat := 16777216 * (startCount s n).cur + 8388608

theorem bcastBase_setNet (s : State) (k : Nat) (v : Net) (n : Nat) : bcastBase (setNet s k v) n = bcastBase s n := by
  have hcount : startCount (setNet s k v) n = startCount s n := rfl
  rw [bcastBase, bcastBase, hcount]

theorem ctrBlock_current (s : State) (n : Nat) :
    ctrBlock s n (netCfg s n).epoch true = if (startCount s n).curHeld then none else some (bcastBase s n) := by
  rw [ctrBlock, if_pos rfl]
  rfl

theorem takeBroadcastCtr_of_held {s : State} {n : Nat} (h : (startCount s n).curHeld = true) :
    takeBroadcastCtr n (netCfg s n).epoch s = none := by
  rw [takeBroadcastCtr, ctrBlock_current, if_pos h]

/-- A draw under the current epoch: a value of the block, from the stored one where there is one, and stored plus one. -/
theorem takeBroadcastCtr_spec {s t : State} {n : Nat} {c : Word} (h : takeBroadcastCtr n (netCfg s n).epoch s = some (c, t)) :
    ∃ v, c = w32 v ∧ bcastBase s n ≤ v ∧ v < bcastBase s n + 8388608
      ∧ (∀ x, (netRun s n).bctr = some x → nextCtr (bcastBase s n) x true = some v)
      ∧ t = setNet s n { netRun s n with bctr := some (v + 1) } := by
  rw [takeBroadcastCtr, ctrBlock_current] at h
  by_cases hheld : (startCount s n).curHeld = true
  · rw [if_pos hheld] at h
    cases h
  rw [if_neg hheld, bctrOf, if_pos rfl] at h
  dsimp only at h
  cases hb : (netRun s n).bctr with
  | none =>
    rw [hb] at h
    simp only [if_true, Option.some.injEq, Prod.mk.injEq] at h
    exact ⟨_, h.1.symm, le_rfl, by omega, (fun _ hx => by cases hx), h.2.symm⟩
  | some x =>
    rw [hb] at h
    dsimp only at h
    cases hn : nextCtr (bcastBase s n) x true with
    | none =>
      rw [hn] at h
      cases h
    | some v =>
      rw [hn] at h
      simp only [if_true, Option.some.injEq, Prod.mk.injEq] at h
      exact ⟨v, h.1.symm, (nextCtr_bounds hn).1, (nextCtr_bounds hn).2, (fun y hy => by cases hy; exact hn), h.2.symm⟩

theorem toNat_w32 {v : Nat} (h : v < 2 ^ 32) : (w32 v).toNat = v := by
  rw [w32, BitVec.toNat_ofNat, Nat.mod_eq_of_lt h]

/-- The counter drawn after another of the same block is the next one. -/
theorem takeBroadcastCtr_next {s u : State} {n v : Nat} {d : Word} (hlo : bcastBase s n ≤ v) (hhi : v < bcastBase s n + 8388608)
    (hd : takeBroadcastCtr n (netCfg s n).epoch (setNet s n { netRun s n with bctr := some (v + 1) }) = some (d, u)) :
    d = w32 (v + 1) ∧ v + 1 < bcastBase s n + 8388608 := by
  obtain ⟨w, hw, -, hhi', hnext, -⟩ := takeBroadcastCtr_spec (s := setNet s n { netRun s n with bctr := some (v + 1) }) hd
  rw [bcastBase_setNet] at hhi' hnext
  have hsucc := nextCtr_succ hlo hhi (hnext (v + 1) (by rw [netRun_setNet, if_pos rfl]))
  exact ⟨hsucc ▸ hw, hsucc ▸ hhi'⟩

/-- The blocks of counts up to 255 lie within a word. -/
theorem bcastBase_bounds {s : State} {n v : Nat} (hcur : (startCount s n).cur ≤ 255) (hhi : v < bcastBase s n + 8388608) :
    v < 2 ^ 32 ∧ v < 16777216 * ((startCount s n).cur + 1) := by
  unfold bcastBase at hhi
  omega

theorem takeBroadcastCtr_follows {s t u : State} {n : Nat} {c d : Word} (hcur : (startCount s n).cur ≤ 255)
    (hc : takeBroadcastCtr n (netCfg s n).epoch s = some (c, t)) (hd : takeBroadcastCtr n (netCfg s n).epoch t = some (d, u)) :
    16777216 * (startCount s n).cur + 8388608 ≤ c.toNat ∧ c.toNat < 16777216 * ((startCount s n).cur + 1)
      ∧ d.toNat = c.toNat + 1 := by
  obtain ⟨v, hv, hlo, hhi, -, ht⟩ := takeBroadcastCtr_spec hc
  subst ht
  obtain ⟨hw, hhi'⟩ := takeBroadcastCtr_next hlo hhi hd
  have hc' : c.toNat = v := hv ▸ toNat_w32 (bcastBase_bounds hcur hhi).1
  have hd' : d.toNat = v + 1 := hw ▸ toNat_w32 (bcastBase_bounds hcur hhi').1
  rw [hc', hd']
  exact ⟨hlo, (bcastBase_bounds hcur hhi).2, rfl⟩

/-- Settles O28: an epoch advance field by field, the replay window's two laws, and two draws one after the other. -/
theorem countersNeverRepeat : Obligations.CountersNeverRepeat := by
  refine ⟨fun n s _ => ?_, ⟨fun _ _ _ => replayCheck_commit, fun _ _ _ => refused_of_commit, fun w ctr ep h => ?_⟩,
    fun _ _ _ _ _ _ _ => takeBroadcastCtr_follows, fun _ _ => takeBroadcastCtr_of_held⟩
  · rw [netCfg_advanceEpoch n s n, netRun_advanceEpoch n s n, startCount_advanceEpoch n s n, if_pos rfl, if_pos rfl, if_pos rfl]
    refine ⟨rfl, rfl, rfl, rfl, rfl, rfl, rfl, fun e he => keys_advanceEpoch he, fun m hm => ?_⟩
    rw [netCfg_advanceEpoch, netRun_advanceEpoch, startCount_advanceEpoch]
    simp only [if_neg hm, and_self]
  · rw [replayCheck, epochBefore, decide_eq_true h, if_pos rfl]

end Sys2Proof.Proofs
end

section
/-! Settles Obligations.LinkOutcomes: the first step that ends a frame of the device's own receiver. -/

namespace Sys2Proof.Proofs

open Sys2Proof.Machine Sys2Proof.Laws Sys2Proof.Safety

-- Proofs one after another: the threads of many at once would pass the memory that the check allows.
set_option Elab.async false

/-! ### The steps of R233 one by one -/

theorem linkSteps_of_device {h : Heard} (late : Bool) (s : State) (hdev : deviceAddress (parseFrame h.bytes).src = true) :
    (linkSteps h late s).outcome = 2 := by
  simp only [linkSteps, hdev, if_true]
  split <;> rfl

/-- A frame of a node under a known sync value: the steps that a device's own address and an unknown sync value leave. -/
theorem linkSteps_of_net {h : Heard} {late : Bool} {s : State} {n : Nat} (hdev : deviceAddress (parseFrame h.bytes).src = false)
    (hnet : netOfSync s h.sync = some n) : linkSteps h late s =
      if malformed (parseFrame h.bytes) then linkEnds n 4 s
      else if !addressedHere (parseFrame h.bytes) then linkEnds n 5 s
      else if homeOf s n (parseFrame h.bytes).src = ownHid s then linkHome h n (parseFrame h.bytes) false late none s
      else if reachable s (homeOf s n (parseFrame h.bytes).src) then
        linkEnds n 1 (originate (.frame (homeOf s n (parseFrame h.bytes).src) { h with late := late }) s)
      else linkHome h n (parseFrame h.bytes) false late (some (homeOf s n (parseFrame h.bytes).src)) s := by
  simp only [linkSteps, hdev, hnet]
  rfl

theorem linkSteps_of_unknown {h : Heard} {late : Bool} {s : State} (hdev : deviceAddress (parseFrame h.bytes).src = false)
    (hnet : netOfSync s h.sync = none) : linkSteps h late s = { outcome := 3, state := s } := by
  simp only [linkSteps, hdev, hnet]
  rfl

theorem addressedHere_eq_false {f : LinkFields} : addressedHere f = false ↔ f.dst ≠ none ∧ f.dst ≠ some 0#32 := by
  unfold addressedHere
  cases f.dst <;> simp

theorem linkHome_of_single {h : Heard} {n : Nat} {f : LinkFields} {late : Bool} {s : State} (hflood : frameFlood f = false) :
    linkHome h n f false late none s =
      if nodeOf s n f.src = none ∧ (netCfg s n).learnNew = false then linkEnds n 6 s else linkCheck h n f false late none s := by
  simp only [linkHome, hflood, Bool.false_and, Option.isNone_none, Bool.true_and, Bool.and_eq_true, Option.isNone_iff_eq_none,
    Bool.not_eq_true', Bool.false_eq_true, if_false]

theorem linkDuplicate_outcome (h : Heard) (n : Nat) (f : LinkFields) (remote foreign late : Bool) (s : State) :
    (linkDuplicate h n f remote foreign late s).outcome = 10 := by
  simp only [linkDuplicate, apply_ite LinkResult.outcome, withAck, linkEnds, ite_self]

theorem linkAccept_outcome (h : Heard) (n : Nat) (f : LinkFields) (remote late : Bool) (home : Option Nat) (ep : BitVec 16)
    (payload : List Byte) (s : State) :
    (linkAccept h n f remote late home ep payload s).outcome = 0 ∨ (linkAccept h n f remote late home ep payload s).outcome = 13 := by
  have hout : ∀ body : Option (List Byte), (if body.isSome then 0 else 13) = 0 ∨ (if body.isSome then 0 else 13) = 13 := by
    intro body
    cases body <;> simp
  exact hout _

theorem liveFrame_iff {h : Heard} : liveFrame h = true ↔ h.layer = 0 ∧ h.combined = 0 := by
  simp [liveFrame]

/-! ### Steps 6 to 9 -/

section Checks

variable {h : Heard} {n : Nat} {f : LinkFields} {late : Bool} {s : State}

/-- A frame in clear where the network does not allow it. -/
theorem linkCheck_of_clear (hclear : frameSec f = false ∧ (netCfg s n).allowClear = false) :
    linkCheck h n f false late none s = { outcome := 7, state := countLink 7 n s } := by
  simp only [linkCheck, hclear.1, hclear.2]
  rfl

/-- A frame that step 6 passes is judged by its epoch and the replay window. -/
theorem linkCheck_of_allowed (hallow : ¬ (frameSec f = false ∧ (netCfg s n).allowClear = false)) :
    (resolveEpoch s n (bits f.fc 9 8) = none →
      linkCheck h n f false late none s = { outcome := 8, state := countLink 8 n (raise .replay s) })
    ∧ ∀ ep, resolveEpoch s n (bits f.fc 9 8) = some ep →
      (replayCheck (windowFor s false n f.src) f.ctr ep = .staleEpoch →
        linkCheck h n f false late none s = { outcome := 8, state := countLink 8 n (raise .replay s) })
      ∧ (replayCheck (windowFor s false n f.src) f.ctr ep = .replay →
        linkCheck h n f false late none s = { outcome := 9, state := countLink 9 n (raise .replay s) })
      ∧ (replayCheck (windowFor s false n f.src) f.ctr ep = .duplicate → (linkCheck h n f false late none s).outcome = 10)
      ∧ (replayCheck (windowFor s false n f.src) f.ctr ep = .fresh →
        (∀ o u, openFrame n f ep s = (.inl o, u) → linkCheck h n f false late none s =
          { outcome := o, state := countLink o n (if o = 12 ∧ h.layer = 0 ∧ h.combined = 0 then raise .micFail u else u) })
        ∧ ∀ l u, openFrame n f ep s = (.inr l, u) → linkCheck h n f false late none s = linkAccept h n f false late none ep l u) := by
  have hgate : ¬ (!frameSec f && !(netCfg s n).allowClear) = true := by simpa using hallow
  unfold linkCheck
  rw [if_neg hgate]
  refine ⟨fun hnone => by rw [hnone]; rfl, fun ep hep => ?_⟩
  rw [hep]
  dsimp only [Option.isSome_none]
  refine ⟨fun hr => by rw [hr]; rfl, fun hr => by rw [hr]; rfl, fun hr => ?_, fun hr => ?_⟩
  · rw [hr]
    exact linkDuplicate_outcome _ _ _ _ _ _ _
  · rw [hr]
    dsimp only
    refine ⟨fun o u ho => ?_, fun l u hl => by rw [hl]⟩
    rw [ho]
    simp only [linkEnds, Bool.and_eq_true, decide_eq_true_eq, liveFrame_iff]

end Checks

/-- Settles O29: the steps in the order of R233, each with its outcome. -/
theorem linkOutcomes : Obligations.LinkOutcomes := by
  intro h late s f r kept
  by_cases hdev : deviceAddress f.src = true
  · rw [if_pos hdev]
    exact linkSteps_of_device late s hdev
  rw [if_neg hdev]
  replace hdev := Bool.eq_false_of_not_eq_true hdev
  cases hnet : netOfSync s h.sync with
  | none =>
    have hr : r = { outcome := 3, state := s } := linkSteps_of_unknown hdev hnet
    exact ⟨congrArg LinkResult.outcome hr, congrArg LinkResult.state hr⟩
  | some n =>
  have hr : r = _ := linkSteps_of_net hdev hnet
  dsimp only
  by_cases hmal : malformed f = true
  · rw [if_pos hmal] at hr ⊢
    exact hr
  rw [if_neg hmal] at hr ⊢
  by_cases hdst : f.dst ≠ none ∧ f.dst ≠ some 0#32
  · rw [if_pos hdst]
    rwa [if_pos (by rw [addressedHere_eq_false.mpr hdst]; rfl)] at hr
  rw [if_neg hdst]
  rw [if_neg (by simpa using fun hb => hdst (addressedHere_eq_false.mp hb))] at hr
  by_cases hhome : homeOf s n f.src = ownHid s
  case neg =>
    rw [if_neg hhome] at hr
    by_cases hreach : reachable s (homeOf s n f.src) = true
    · rw [if_pos ⟨hhome, hreach⟩]
      rwa [if_pos hreach] at hr
    · rw [if_neg fun hb => hreach hb.2]
      exact fun hb => absurd hb hhome
  rw [if_neg fun hb => hb.1 hhome]
  intro _ hflood
  rw [if_pos hhome, linkHome_of_single hflood] at hr
  by_cases hnew : nodeOf s n f.src = none ∧ (netCfg s n).learnNew = false
  · rw [if_pos hnew] at hr ⊢
    exact hr
  rw [if_neg hnew] at hr ⊢
  by_cases hclear : frameSec f = false ∧ (netCfg s n).allowClear = false
  · rw [if_pos hclear]
    exact hr.trans (linkCheck_of_clear hclear)
  rw [if_neg hclear]
  obtain ⟨hnone, hsome⟩ := linkCheck_of_allowed (h := h) (late := late) hclear
  cases hep : resolveEpoch s n (bits f.fc 9 8) with
  | none => exact hr.trans (hnone hep)
  | some ep =>
    obtain ⟨hstale, hreplay, hdup, hfresh⟩ := hsome ep hep
    dsimp only
    cases hcheck : replayCheck (windowFor s false n f.src) f.ctr ep with
    | staleEpoch => exact hr.trans (hstale hcheck)
    | replay => exact hr.trans (hreplay hcheck)
    | duplicate => exact (congrArg LinkResult.outcome hr).trans (hdup hcheck)
    | fresh =>
      obtain ⟨hfail, hopen⟩ := hfresh hcheck
      dsimp only
      rcases ho : openFrame n f ep s with ⟨o | l, u⟩
      · exact hr.trans (hfail o u ho)
      · have hr' := hr.trans (hopen l u ho)
        exact ⟨hr', hr' ▸ linkAccept_outcome _ _ _ _ _ _ _ _ _⟩

end Sys2Proof.Proofs
end

section
/-! What the completion of a command leaves in flight, and what an admission leaves. -/

namespace Sys2Proof.Proofs

open Sys2Proof.Machine Sys2Proof.Laws Sys2Proof.Safety

-- Proofs one after another: the threads of many at once would pass the memory that the check allows.
set_option Elab.async false

/-! ### Commands in flight -/

theorem inFlight_cover (k : Nat) (ws : List Word) (s : State) : (cover k ws s).cmd.inFlight = s.cmd.inFlight := by
  unfold cover
  split <;> rfl

theorem originate_eq_or (m : HerdMsg) (s : State) : originate m s = sendHerd m s ∨ originate m s = s := ite_eq_or_eq _ _ _

theorem inFlight_originate (m : HerdMsg) (s : State) : (originate m s).cmd.inFlight = s.cmd.inFlight := by
  rcases originate_eq_or m s with h | h <;> rw [h]
  rfl

theorem mem_inFlight_addInFlight {e x : InFlight} {s : State} (h : x ∈ (addInFlight e s).cmd.inFlight) :
    x ∈ s.cmd.inFlight ∨ x = { e with seq := takenSeq s } := by
  unfold addInFlight at h
  split at h
  · exact .inl h
  · exact (List.mem_append.mp h).imp_right List.mem_singleton.mp

/-- A reply leaves what is in flight, or is itself held for its queue. -/
theorem mem_inFlight_sendReply {e x : InFlight} {st : Status} {r : List Word} {s : State}
    (h : x ∈ (sendReply e st r s).cmd.inFlight) : x.phase = .held ∨ x ∈ s.cmd.inFlight := by
  set u := cover 2 [pair16 (statusCode st).toNat e.tag.toNat] (noteDone e.tag s) with hu
  have hsame : u.cmd.inFlight = s.cmd.inFlight := inFlight_cover _ _ _
  rw [sendReply, ← hu] at h
  dsimp only at h
  split at h
  · exact .inr (hsame ▸ h)
  · split at h
    · rw [inFlight_originate] at h
      exact .inr (hsame ▸ h)
    · split at h
      · rw [show (pushPacket _ _ u).cmd = u.cmd from keeps_of_reported (pushPacket_reported _ _ _) State.cmd] at h
        exact .inr (hsame ▸ h)
      · rcases mem_inFlight_addInFlight h with h | h
        · exact .inr (hsame ▸ h)
        · exact .inl (by rw [h])

/-- After the completion of a tag of a queue, none but held replies of it stand in flight. -/
theorem mem_inFlight_complete {x : InFlight} {q : Nat} {tag : BitVec 16} {st : Status} {r : List Word} {s : State}
    (h : x ∈ (complete q tag st r s).cmd.inFlight) :
    x.phase = .held ∨ (x ∈ s.cmd.inFlight ∧ ¬ (x.queue = q ∧ x.tag = tag)) := by
  by_cases hheld : x.phase = .held
  · exact .inl hheld
  unfold complete at h
  split at h
  · have hin := (mem_inFlight_sendReply h).resolve_left hheld
    obtain ⟨hmem, hother⟩ := List.mem_filter.mp hin
    refine .inr ⟨hmem, fun ⟨hq, htag⟩ => ?_⟩
    simp [hq, htag, hheld] at hother
  · next hnone =>
    refine .inr ⟨h, fun ⟨hq, htag⟩ => ?_⟩
    have hfree := List.find?_eq_none.mp hnone x h
    simp [hq, htag, hheld] at hfree

theorem mem_inFlight_completeAll {x : InFlight} {l : List (Nat × BitVec 16)} {st : Status} {s : State}
    (h : x ∈ (completeAll l st s).cmd.inFlight) : x.phase = .held ∨ (x ∈ s.cmd.inFlight ∧ (x.queue, x.tag) ∉ l) := by
  induction l generalizing s with
  | nil => exact .inr ⟨h, List.not_mem_nil⟩
  | cons a r ih =>
    rcases ih (s := complete a.1 a.2 st [] s) h with hheld | ⟨hin, hrest⟩
    · exact .inl hheld
    · refine (mem_inFlight_complete hin).imp_right fun ⟨hmem, hother⟩ => ⟨hmem, fun hl => ?_⟩
      rcases List.mem_cons.mp hl with he | hl
      · exact hother ⟨congrArg Prod.fst he, congrArg Prod.snd he⟩
      · exact hrest hl

/-- Of the commands that meet the condition none is in flight any more but as a held reply. -/
theorem not_running_of_completeWhere {f : InFlight → Bool} {st : Status} {s : State} {x : InFlight}
    (h : x ∈ (completeWhere f st s).cmd.inFlight) (hf : f x = true) : x.phase = .held := by
  by_contra hrun
  obtain ⟨hmem, hout⟩ := (mem_inFlight_completeAll h).resolve_left hrun
  refine hout (List.mem_map.mpr ⟨x, List.mem_filter.mpr ⟨hmem, ?_⟩, rfl⟩)
  simp [hf, hrun]

/-! ### Admission -/

section Admission

variable {α : Type} (P : State → α)
  (hP : ∀ s a b c d e, P { s with link := a, sched := b, tan := c, air := d, radio := e } = P s)

include hP

theorem keeps_takeItem (x : Tx) (s : State) : P (takeItem x s) = P s := by
  unfold takeItem
  split
  · split
    · split
      · exact hP s _ s.sched s.tan s.air s.radio
      · rfl
    · exact hP s s.link _ s.tan s.air s.radio
  · rfl

theorem keeps_addTokens (ks : List Nat) (cls : Nat) (n : Int) (s : State) : P (addTokens ks cls n s) = P s :=
  keeps_foldl P (fun t _ => hP t t.link t.sched t.tan _ t.radio) ks s

theorem keeps_cover (k : Nat) (ws : List Word) (s : State) : P (cover k ws s) = P s := by
  unfold cover
  split
  · exact hP s s.link s.sched _ s.air s.radio
  · rfl

theorem keeps_chargeTx (x : Tx) (s : State) : P (chargeTx x s).2 = P s := by
  have hcharge : ∀ p l t0 a t, P (charge p l t0 a t) = P t := fun p l t0 a t =>
    keeps_foldl P (fun u j => hP u u.link u.sched u.tan _ u.radio) l t
  unfold chargeTx takePort
  dsimp only
  split
  · rw [keeps_addTokens P hP, keeps_cover P hP, hcharge]
  · rw [keeps_addTokens P hP, keeps_cover P hP, hcharge]

theorem keeps_announce (x : Tx) (s : State) : P (announce x s).2 = P s := by
  unfold announce
  split
  · split
    · rfl
    · dsimp only
      split
      · exact (hP _ (State.link _) _ (State.tan _) (State.air _) (State.radio _)).trans (keeps_addTokens P hP _ _ _ s)
      · rfl
  · rfl

/-- An admission touches the link engine's images, the schedule, the ledger, the radio and the tandem's digest alone. -/
theorem keeps_takeOn (x : Tx) (s : State) : P (takeOn x s) = P s := by
  have hrest : ∀ t : State, P t = P s → ∀ y, P { countSched 0 x.plain t with radio := y } = P s := fun t ht y =>
    (hP t t.link _ t.tan t.air y).trans ht
  refine hrest _ ?_ _
  have hcharged : ∀ y, P (chargeTx y (takeItem x s)).2 = P s := fun y =>
    (keeps_chargeTx P hP y _).trans (keeps_takeItem P hP x s)
  split
  · exact hcharged _
  · exact (keeps_announce P hP _ _).trans (hcharged _)

end Admission

theorem cfg_postPassed (x : Tx) (s : State) : (postPassed x s).cfg = s.cfg :=
  keeps_foldl State.cfg (fun t e => keeps_postEvent _ _ _ t State.cfg) _ s

end Sys2Proof.Proofs
end

section
/-! Settles Obligations.LinkEventsAct: frames that wait or come over the herd, and what the link engine does by itself. -/

namespace Sys2Proof.Proofs

open Sys2Proof.Machine Sys2Proof.Laws Sys2Proof.Safety

-- Proofs one after another: the threads of many at once would pass the memory that the check allows.
set_option Elab.async false

/-! ### Frames in the engine's input order -/

theorem linkEngineFrame_takes {i : LinkItem} {rest : List LinkItem} {s : State} (h : s.rx.linkq = i :: rest) :
    exec .linkEngineFrame s = .next (linkFrame i { s with rx := { s.rx with linkq := rest } }) := by
  change execLinkEngineFrame s = _
  rw [execLinkEngineFrame, h]

theorem linkEngineFrame_of_empty {s : State} (h : s.rx.linkq = []) : exec .linkEngineFrame s = .next s := by
  change execLinkEngineFrame s = _
  rw [execLinkEngineFrame, h]

theorem linkFrame_live {i : LinkItem} {s : State} (hown : i.member = none) (hjob : i.track.job = none)
    (hcomb : i.track.combined = 0) : linkFrame i s = recordLive i.track (overrunTrouble i.overrun
      (linkSteps (heardOf s i.track) (i.overrun || lateByWait s i.track) s)) := by
  simp only [linkFrame, hown, linkOwn, hjob, hcomb, Option.isSome_none, Bool.false_eq_true, if_false, if_true]

/-- A record posted clears no trouble bit. -/
theorem trouble_postRecordTo {b : TrbBit} {s : State} (q p : Nat) (words : List Word) (payload : List Byte)
    (h : trouble s b = true) : trouble (postRecordTo q p words payload s) b = true := by
  have hcover : trouble (cover 1 words s) b = true := by
    unfold cover
    split <;> exact h
  have hpush : ∀ ws, trouble (raiseAll (pushWords q ws (cover 1 words s)).2 (pushWords q ws (cover 1 words s)).1) b = true :=
    fun ws => (raiseAll_reported _ _).2.2.2 b ((pushWords_reported q ws _).2.2.2 b hcover)
  rcases ite_eq_or_eq ((pushWords q _ (cover 1 words s)).2.isEmpty = true) _ _ with hr | hr
  · rw [postRecordTo, hr]
    exact hpush _
  · rw [postRecordTo, hr]
    exact hpush _

theorem trouble_linkFrame_of_overrun {i : LinkItem} {s : State} (hown : i.member = none) (hjob : i.track.job = none)
    (hcomb : i.track.combined = 0) (hover : i.overrun = true) : trouble (linkFrame i s) .linkOverload = true := by
  rw [linkFrame_live hown hjob hcomb, hover]
  exact trouble_postRecordTo _ _ _ _ (trouble_raise _ _)

theorem forwardedFrame_joins (src : Fin 64) (h : Heard) {s : State} (halone : s.tan.joined = false) :
    exec (.forwardedFrame src h) s =
      .next (joinLink { member := some (src.val, { h with hid := if h.combined = 0 then src else h.hid }) } s) := by
  change execForwardedFrame src h s = _
  rw [execForwardedFrame, mirrorHerd_of_alone halone]

theorem linkFrame_forwarded {src : Nat} {g : Heard} {n : Nat} {i : LinkItem} {s : State} (hmember : i.member = some (src, g))
    (hnet : netOfSync s g.sync = some n) (hhome : homeOf s n (parseFrame g.bytes).src = ownHid s) (hover : i.overrun = false) :
    linkFrame i s = (linkHome g n (parseFrame g.bytes) true g.late none s).state := by
  simp only [linkFrame, hmember, linkForwarded, hnet, hhome, hover, overrunTrouble, bne_self_eq_false, Bool.false_and,
    Bool.false_or, Bool.false_eq_true, if_false]

theorem linkq_joinLink_of_empty (i : LinkItem) {s : State} (hold : ∀ t ∈ s.link.joined, reached s (t + 10000000#64) = true)
    (hq : s.rx.linkq = []) : (joinLink i s).rx.linkq = [{ i with joined := now s, overrun := false }] := by
  have hnone : s.link.joined.filter (fun t => !reached s (t + 10000000#64)) = [] :=
    List.filter_eq_nil_iff.mpr fun t ht => by rw [hold t ht]; decide
  simp only [joinLink, hnone, hq]
  rfl

/-- Of forwarded copies with one stamp the one of the lower herd ID goes first. -/
theorem linkq_joinLink_of_lower {a b : Nat} {g h : Heard} {i j : LinkItem} {s : State} (hq : s.rx.linkq = [i])
    (hi : i.member = some (a, g)) (hj : j.member = some (b, h)) (hstamp : i.joined = now s) (hlt : b < a) :
    ∃ k, (joinLink j s).rx.linkq = [k, i] ∧ k.member = j.member := by
  refine ⟨{ j with
    joined := now s
    overrun := decide (2500 < (s.link.joined.filter (fun t => !reached s (t + 10000000#64)) ++ [now s]).length) }, ?_, rfl⟩
  simp [joinLink, hq, hi, hj, hstamp, hlt]

/-! ### Acknowledgements built by a home -/

/-- The transmission that a home's acknowledgement asks for (R247). -/
def homeAckTx (x : AckIn) (s : State) : Tx :=
  classify s false (fillTx s (txCfg s x.plain.val).pilot
    { plain := x.plain.val, beam := x.beam.val, bw := x.bw.val, sf := 5 + x.sf.val, cr := x.cr.val, len := x.frame.length, kind := 1
      net := x.net.val, dst := x.dst, tenant := (netCfg s x.net.val).tenant, t0 := x.t0, frame := x.frame
      carrier := carrierOf s x.plain.val x.bw.val x.chan.val 0#32 })

theorem homeAck_refused {x : AckIn} {s : State} {st : Status} (halone : s.tan.joined = false)
    (hjudge : judge (postPassed (homeAckTx x s) s) (homeAckTx x s) = some st) :
    exec (.homeAck x) s = .next (fail (homeAckTx x s) st 1 none (postPassed (homeAckTx x s) s)) := by
  change execHomeAck x s = _
  rw [execHomeAck, mirrorHerd_of_alone halone]
  unfold homeAckTx at hjudge ⊢
  dsimp only
  rw [hjudge]

theorem chirpsOf_eq_of_cfg {s t : State} (h : t.cfg = s.cfg) (x : Tx) (l : List Byte) : chirpsOf t x l = chirpsOf s x l := by
  simp only [chirpsOf, netCfg, h]

theorem homeAck_booked {x : AckIn} {s : State} {w : Tx} (halone : s.tan.joined = false)
    (hjudge : judge (postPassed (homeAckTx x s) s) (homeAckTx x s) = none)
    (hw : txAt (takeOn (homeAckTx x s) (postPassed (homeAckTx x s) s)) (postPassed (homeAckTx x s) s).radio.nextId = some w)
    (htime : past s (before w.t0 100000) = false) :
    let u := takeOn (homeAckTx x s) (postPassed (homeAckTx x s) s)
    exec (.homeAck x) s = .next (requestAtBooking w (countLink 14 w.net
      (setTx { w with symbols := chirpsOf u w w.frame, state := .built } u))) := by
  intro u
  have hcfg : u.cfg = s.cfg := (keeps_takeOn State.cfg (fun _ _ _ _ _ _ => rfl) _ _).trans (cfg_postPassed _ _)
  rw [chirpsOf_eq_of_cfg hcfg]
  change execHomeAck x s = _
  rw [execHomeAck, mirrorHerd_of_alone halone]
  unfold homeAckTx at hjudge hw
  dsimp only
  rw [hjudge]
  dsimp only
  rw [hw]
  dsimp only
  rw [htime]
  rfl

/-! ### What the engine does by itself -/

theorem epochOverlapEnd_ends {n : Fin 16} {slot : Nat} {stop : BitVec 64} {s : State} (hprev : (netRun s n).prev = some (slot, stop))
    (hdue : reached s stop = true) : ∃ t, exec (.epochOverlapEnd n) s = .next t ∧ (netRun t n).prev = none
      ∧ (netRun t n).bctrPrev = none
      ∧ t.link.keys = s.link.keys.filter (fun e => !(e.net = n.val && e.epoch = (netCfg s n).epoch - 1)) := by
  have hexec : exec (.epochOverlapEnd n) s = .next (endOverlap n s) := by
    change execEpochOverlapEnd n s = _
    rw [execEpochOverlapEnd, hprev]
    dsimp only
    rw [if_pos hdue]
  refine ⟨_, hexec, ?_, ?_, keys_endOverlap n s⟩
  all_goals rw [netRun_endOverlap, if_pos rfl]

theorem restartCrypto_ends (s : State) : trouble (restartCrypto s) .cryptoRestart = true
    ∧ ∀ e ∈ (restartCrypto s).cmd.inFlight, ¬ (0x0500 ≤ e.opcode ∧ e.opcode ≤ 0x0520 ∧ e.phase ≠ .held) := by
  refine ⟨trouble_postEvent (trouble_raise _ _), fun e he ⟨hlo, hhi, hrun⟩ => ?_⟩
  have hkeep : (restartCrypto s).cmd = (completeWhere (fun e => isCryptoCommand e.opcode) .retryEngineRestarted s).cmd :=
    (keeps_postEvent _ _ _ _ State.cmd).trans (keeps_raise _ _ State.cmd)
  rw [hkeep] at he
  exact hrun (not_running_of_completeWhere he (by simp [isCryptoCommand, hlo, hhi]))

theorem imageRoundComplete_completes {id : BitVec 16} {i : Image} {s : State} (hi : imageAt s id.toNat = some i)
    (hstate : i.state = 1) (htodo : i.todo = []) (hfly : blockFlying s i.id = false) :
    exec (.imageRoundComplete id) s = .next (postEvent 0x0510 i.id (w32 i.round) (setImage
      { i with state := 2, reports := 0, missing := [], deadline := after s (1000000000 * i.reportWait) } s)) := by
  change execImageRoundComplete id s = _
  rw [execImageRoundComplete, hi]
  dsimp only
  rw [if_pos (by simp [hstate, htodo, hfly])]

theorem reportWaitExpiry_ends {id : BitVec 16} {i : Image} {s : State} (hi : imageAt s id.toNat = some i) (hstate : i.state = 2)
    (hdue : reached s i.deadline = true) (hend : i.reports = 0 ∨ i.maxRounds ≤ i.round + 1) :
    exec (.reportWaitExpiry id) s = .next (postEvent 0x0511 i.id (if i.reports = 0 then 0#32 else 1#32)
      (setImage { i with state := 3, todo := [] } s)) := by
  change execReportWaitExpiry id s = _
  rw [execReportWaitExpiry, hi]
  dsimp only
  rw [if_neg (by simp [hstate, hdue])]
  by_cases hnone : i.reports = 0
  · rw [if_pos hnone, if_pos hnone]
    rfl
  · rw [if_neg hnone, if_neg hnone, if_pos (hend.resolve_left hnone)]
    rfl

theorem reportWaitExpiry_repeats {id : BitVec 16} {i : Image} {s : State} (hi : imageAt s id.toNat = some i) (hstate : i.state = 2)
    (hdue : reached s i.deadline = true) (hsome : i.reports ≠ 0) (hmore : i.round + 1 < i.maxRounds) :
    let j : Image := { i with state := 1, round := i.round + 1, sent := 0, todo := i.missing, missing := [], seq := s.sched.nextSeq }
    let s1 := setImage j s
    exec (.reportWaitExpiry id) s = .next { s1 with sched := { s.sched with nextSeq := s.sched.nextSeq + 1 } } := by
  change execReportWaitExpiry id s = _
  rw [execReportWaitExpiry, hi]
  dsimp only
  rw [if_neg (by simp [hstate, hdue]), if_neg hsome, if_neg (Nat.not_le.mpr hmore)]
  rfl

/-- Settles O30: each event of the link engine under its own condition. -/
theorem linkEventsAct : Obligations.LinkEventsAct :=
  ⟨fun _ _ _ => linkEngineFrame_takes, fun _ => linkEngineFrame_of_empty,
   fun i s hown hjob hcomb hover => by rw [linkFrame_live hown hjob hcomb, hover]; rfl,
   fun _ _ => trouble_linkFrame_of_overrun, fun src h _ => forwardedFrame_joins src h,
   fun _ _ _ _ _ => linkFrame_forwarded, fun i _ => linkq_joinLink_of_empty i, fun _ _ _ _ _ _ _ => linkq_joinLink_of_lower,
   fun _ _ _ halone => homeAck_refused halone, fun _ _ _ halone => homeAck_booked halone, fun _ _ _ => rfl,
   fun _ _ _ _ => epochOverlapEnd_ends, fun _ => rfl, restartCrypto_ends, fun _ _ _ => imageRoundComplete_completes,
   fun _ _ _ => reportWaitExpiry_ends, fun _ _ _ => reportWaitExpiry_repeats⟩

end Sys2Proof.Proofs
end

section
/-! Settles Obligations.ScheduleAndAirtimeCommandsRun: rows of the schedule, of rendezvous, of the ledger and of shaping. -/

namespace Sys2Proof.Proofs

open Sys2Proof.Machine Sys2Proof.Laws Sys2Proof.Safety

-- Proofs one after another: the threads of many at once would pass the memory that the check allows.
set_option Elab.async false

/-! ### The schedule -/

theorem scheduleSet_runs : Runs .scheduleSet 0x0600 4
    (fun c u => pn c 2 ≤ 6 ∧ pn c 3 < 65536 ∧ pn c 3 < 1024 * 2 ^ pn c 2 ∧ minorityCheck u = none ∧ ∀ e ∈ u.cfg.sched.frames, e.2 = 0)
    (fun _ _ => [])
    (fun c u => rebaseAsn (setSched u { u.cfg.sched with netEpoch := p64 c 0, k := pn c 2, txOffset := pn c 3 })) :=
  runs_row scheduleSetSpec
    (fun _ _ ⟨hk, hoffset, hslot, _, _⟩ => Bool.and_eq_true_iff.mpr
      ⟨within_and ⟨Nat.zero_le _, hk, Nat.zero_le _, Nat.le_of_lt_succ hoffset⟩, decide_eq_true hslot⟩)
    (fun _ _ _ => rfl)
    (hr := fun _ _ ⟨_, _, _, _, hframes⟩ => List.all_eq_true.mpr fun e he => decide_eq_true (hframes e he))
    (hp := fun _ _ ⟨_, _, _, hheld, _⟩ => hheld)

theorem slotframeSet_runs : Runs .slotframeSet 0x0602 4
    (fun c u => pn c 0 ≤ 15 ∧ pn c 1 < 65536 ∧ asnAhead u (pn c 2 + 2 ^ 32 * pn c 3) = true ∧ minorityCheck u = none)
    (fun _ _ => []) (fun c u => addChange (changeAsn c u) (.frame (pn c 0) (pn c 1)) u) :=
  runs_row slotframeSetSpec
    (fun _ _ ⟨hframe, hlen, _, _⟩ => within_and ⟨Nat.zero_le _, hframe, Nat.zero_le _, Nat.le_of_lt_succ hlen⟩)
    (fun _ _ _ => rfl) (hh := fun _ _ ⟨_, _, hahead, _⟩ => hahead) (hp := fun _ _ ⟨_, _, _, hheld⟩ => hheld)

theorem hopseqSet_runs (n : Nat) (hlo : 1 ≤ n) (hhi : n ≤ 256) : Runs .hopseqSet 0x0603 (4 + n)
    (fun c u => pn c 0 ≤ 3 ∧ pn c 1 = n ∧ asnAhead u (pn c 2 + 2 ^ 32 * pn c 3) = true ∧ minorityCheck u = none) (fun _ _ => [])
    (fun c u => addChange (changeAsn c u) (.hop (pn c 0) (pwords c 4 n)) u) :=
  runs_row hopseqSetSpec (fun _ _ ⟨hplain, _, _, _⟩ => within_plain hplain)
    (fun _ _ ⟨_, hn, _, _⟩ => by rw [← hn]; rfl)
    (hl := fun _ _ ⟨_, hn, _, _⟩ => (countLen_eq hn hlo hhi).trans (by rw [Nat.one_mul]))
    (hh := fun _ _ ⟨_, _, hahead, _⟩ => hahead) (hp := fun _ _ ⟨_, _, _, hheld⟩ => hheld)
    (hc := fun i hi => by cases hi; omega)

theorem cellWrite_runs : Runs .cellWrite 0x0604 3
    (fun c u => pn c 0 ≤ 4095 ∧ cellOk (pw c 1) (pw c 2) = true ∧ minorityCheck u = none) (fun _ _ => [])
    (fun c u => applyChanges (asnAt u (now u)) (addChange (cellAsn u) (.cell (pn c 0) (pw c 1) (pw c 2)) u)) :=
  runs_row cellWriteSpec
    (fun _ _ ⟨hcell, hok, _⟩ => Bool.and_eq_true_iff.mpr ⟨within_iff.mpr ⟨Nat.zero_le _, hcell⟩, hok⟩)
    (fun _ _ _ => rfl) (hp := fun _ _ ⟨_, _, hheld⟩ => hheld)

theorem minorityCheck_of_minority {s : State} (h : s.herd.minority = true) : minorityCheck s = some .notPermittedMinority :=
  if_pos h

theorem cellWrite_minority : Ends .cellWrite 0x0604 3
    (fun c u => pn c 0 ≤ 4095 ∧ cellOk (pw c 1) (pw c 2) = true ∧ u.herd.minority = true) .notPermittedMinority :=
  ends_notPermitted cellWriteSpec
    (fun _ _ ⟨hcell, hok, _⟩ => Bool.and_eq_true_iff.mpr ⟨within_iff.mpr ⟨Nat.zero_le _, hcell⟩, hok⟩)
    (fun _ _ ⟨_, _, hminority⟩ => minorityCheck_of_minority hminority)

theorem cellRead_runs : Runs .cellRead 0x0605 1 (fun c _ => pn c 0 ≤ 4095)
    (fun c u => [(cellAt u (pn c 0)).1, (cellAt u (pn c 0)).2]) (fun _ u => u) :=
  runs_row cellReadSpec (fun _ _ h => within_iff.mpr ⟨Nat.zero_le _, h⟩) (fun _ _ _ => rfl)

theorem guardClassSet_runs : Runs .guardClassSet 0x0606 4
    (fun c _ => pn c 0 ≤ 7 ∧ 1 ≤ pn c 1 ∧ pn c 1 ≤ 10000 ∧ pn c 2 < pn c 3) (fun _ _ => [])
    (fun c u => setSched u { u.cfg.sched with
      guards := tabSet u.cfg.sched.guards (pn c 0) { b := pn c 1, f := pn c 2, g := pn c 3 } }) :=
  runs_row guardClassSetSpec
    (fun _ _ ⟨hclass, hlo, hhi, horder⟩ => Bool.and_eq_true_iff.mpr
      ⟨within_and ⟨Nat.zero_le _, hclass, hlo, hhi⟩, decide_eq_true horder⟩)
    (fun _ _ _ => rfl)

/-! ### Records of nodes that this device is home of -/

theorem homeRec_of_home {s : State} {n : Nat} {a : Word} (h : homeOf s n a = ownHid s) : homeRec s n a = nodeEntry s n a :=
  if_pos (decide_eq_true h)

theorem homeRec_of_elsewhere {s : State} {n : Nat} {a : Word} (h : homeOf s n a ≠ ownHid s) : homeRec s n a = none :=
  if_neg (by rw [isHome, decide_eq_false h]; exact Bool.false_ne_true)

theorem homeRec_of_unknown {s : State} {n : Nat} {a : Word} (h : nodeEntry s n a = none) : homeRec s n a = none := by
  rw [homeRec, h, ite_self]

theorem rendezvousSet_runs (i : Nat) (r : NodeRec) : Runs .rendezvousSet 0x0610 7
    (fun c u => pn c 0 ≤ 15 ∧ blockOk c = true ∧ homeOf u (pn c 0) (pw c 1) = ownHid u
      ∧ nodeEntry u (pn c 0) (pw c 1) = some (i, r) ∧ indexFull u i (pwords c 2 4) = false)
    (fun _ _ => []) (fun c u => setNode i { r with cells := pwords c 2 4, radio := pw c 6 } u) :=
  runs_row rendezvousSetSpec (fun _ _ ⟨hnet, hblock, _⟩ => Bool.and_eq_true_iff.mpr ⟨within_net hnet, hblock⟩)
    (fun c u ⟨_, _, hhome, hentry, hroom⟩ => by
      simp only [rendezvousSetSpec, plainSpec, homeRec_of_home hhome, hentry, hroom]
      rfl)

theorem rendezvousSet_elsewhere : Ends .rendezvousSet 0x0610 7
    (fun c u => pn c 0 ≤ 15 ∧ blockOk c = true ∧ homeOf u (pn c 0) (pw c 1) ≠ ownHid u) .refusedNodeUnknown :=
  ends_row rendezvousSetSpec (fun _ _ ⟨hnet, hblock, _⟩ => Bool.and_eq_true_iff.mpr ⟨within_net hnet, hblock⟩)
    (fun c u ⟨_, _, hhome⟩ => by simp only [rendezvousSetSpec, plainSpec, homeRec_of_elsewhere hhome])

theorem rendezvousRead_runs (i : Nat) (r : NodeRec) : Runs .rendezvousRead 0x0611 2
    (fun c u => pn c 0 ≤ 15 ∧ homeOf u (pn c 0) (pw c 1) = ownHid u ∧ nodeEntry u (pn c 0) (pw c 1) = some (i, r))
    (fun _ u => rendezvousWords u r ++ [ofInt (clockError r (now u)), nextGuard u r]) (fun _ u => { u with free := u.free + 1 }) :=
  runs_row rendezvousReadSpec (fun _ _ ⟨hnet, _, _⟩ => within_net hnet)
    (fun c u ⟨_, hhome, hentry⟩ => by
      simp only [rendezvousReadSpec, plainSpec, homeRec_of_home hhome, hentry]
      rfl)

theorem purgeable_eq (s : State) (n : Nat) (a : Word) :
    purgeable s n a = s.sched.wait.filter (fun d => d.kind = 0 && d.net = n && d.addr = a && !d.flying) := by
  rw [purgeable, waitingFor, List.filter_filter]
  exact List.filter_congr fun d _ => Bool.and_comm _ _

theorem downlinkPurge_runs (i : Nat) (r : NodeRec) : Runs .downlinkPurge 0x0612 2
    (fun c u => pn c 0 ≤ 15 ∧ homeOf u (pn c 0) (pw c 1) = ownHid u ∧ nodeEntry u (pn c 0) (pw c 1) = some (i, r))
    (fun c u => [w32 (u.sched.wait.filter (fun d => d.kind = 0 && d.net = pn c 0 && d.addr = pw c 1 && !d.flying)).length])
    (fun c u => (u.sched.wait.filter (fun d => d.kind = 0 && d.net = pn c 0 && d.addr = pw c 1 && !d.flying)).foldl
      (fun t d => endWaiting .abortedByHost d t) u) :=
  runs_row downlinkPurgeSpec (fun _ _ ⟨hnet, _, _⟩ => within_net hnet)
    (fun c u ⟨_, hhome, hentry⟩ => by
      simp only [downlinkPurgeSpec, plainSpec, homeRec_of_home hhome, hentry, purgeable_eq]
      rfl)

/-! ### Ledger and shaping -/

theorem within_band {c : Packet} (hp : pn c 0 ≤ 3) (hj : pn c 1 ≤ 15) : (within c 0 0 3 && within c 1 0 15) = true :=
  within_and ⟨Nat.zero_le _, hp, Nat.zero_le _, hj⟩

theorem loHi_ofNat (n : Nat) : loHi (BitVec.ofNat 64 n) = [w32 n, (BitVec.ofNat 64 n >>> 32).setWidth 32] := by
  rw [loHi, BitVec.setWidth_ofNat_of_le (by omega)]
  rfl

theorem subbandSet_runs : Runs .subbandSet 0x0620 7
    (fun c _ => pn c 0 ≤ 3 ∧ pn c 1 ≤ 15 ∧ pn c 4 ≤ 1000 ∧ 1 ≤ pn c 5 ∧ pn c 5 ≤ 86400 ∧ pn c 6 < 2) (fun _ _ => [])
    (fun c u =>
      let k := 16 * pn c 0 + pn c 1
      let v : SubBand := { low := pw c 2, high := pw c 3, limit := pn c 4, window := pn c 5, enable := bit (pw c 6) 0 }
      let u1 := setBandCfg u k { bandCfg u k with enable := v.enable }
      let u2 := setBand u1 k { band u1 k with pending := some v }
      if v.enable && u.air.lost && !(band u k).seen then startCold k v u2 else u2) :=
  runs_row subbandSetSpec
    (fun c _ ⟨hp, hj, hlimit, hwindow, hwindow', henable⟩ => by
      change (within c 0 0 3 && within c 1 0 15 && within c 4 0 1000 && within c 5 1 86400 && fits c 6 1) = true
      rw [within_band hp hj, within_iff.mpr ⟨Nat.zero_le _, hlimit⟩, within_iff.mpr ⟨hwindow, hwindow'⟩,
        fits_iff.mpr (show pn c 6 < 2 ^ 1 from henable)]
      rfl)
    (fun _ _ _ => rfl)

theorem ledgerRead_runs : Runs .ledgerRead 0x0621 2 (fun c _ => pn c 0 ≤ 3 ∧ pn c 1 ≤ 15)
    (fun c u =>
      let k := 16 * pn c 0 + pn c 1
      let b : Nat := (bandCfg u k).limit * (bandCfg u k).window * 1000
      [w32 (usage u k), (BitVec.ofNat 64 (usage u k) >>> 32).setWidth 32, w32 b,
       (BitVec.ofNat 64 b >>> 32).setWidth 32, w32 (flag (band u k).cold), w32 (band u k).refusals])
    (fun _ u => u) :=
  runs_row ledgerReadSpec (fun _ _ ⟨hp, hj⟩ => within_band hp hj) (fun c u _ => by
    simp only [ledgerReadSpec, plainSpec, loHi_ofNat]
    rfl)

theorem ledgerLoad_runs (n : Nat) (hlo : 1 ≤ n) (hhi : n ≤ 1000) : Runs .ledgerLoad 0x0622 (3 + n)
    (fun c _ => pn c 0 ≤ 3 ∧ pn c 1 ≤ 15 ∧ pn c 2 = n) (fun _ _ => [])
    (fun c u => loadBand (16 * pn c 0 + pn c 1) (pwords c 3 n) u) :=
  runs_row ledgerLoadSpec (fun _ _ ⟨hp, hj, _⟩ => within_band hp hj) (fun _ _ ⟨_, _, hn⟩ => by rw [← hn]; rfl)
    (hl := fun _ _ ⟨_, _, hn⟩ => (countLen_eq hn hlo hhi).trans (by rw [Nat.one_mul])) (hc := fun i hi => by cases hi; omega)

theorem ratesOk_iff {c : Packet} {i : Nat} : ratesOk c i = true ↔ pn c i ≤ 1000000 ∧ pn c (i + 2) ≤ 1000000 := by
  simp [ratesOk, within]

theorem shapeKey_subscriber (k : Nat) : shapeKey 0 k = k := Nat.zero_add k

theorem shaperSubscriberSet_runs : Runs .shaperSubscriberSet 0x0630 5
    (fun c _ => pn c 0 ≤ 255 ∧ pn c 1 ≤ 1000000 ∧ pn c (1 + 2) ≤ 1000000) (fun _ _ => [])
    (fun c u => pendShape (pn c 0) (shapeAt c 1) u) :=
  runs_row shaperSubscriberSetSpec
    (fun _ _ ⟨htenant, hrates⟩ => Bool.and_eq_true_iff.mpr ⟨within_iff.mpr ⟨Nat.zero_le _, htenant⟩, ratesOk_iff.mpr hrates⟩)
    (fun c u _ => by
      change done (pendShape (shapeKey 0 (pn c 0)) (shapeAt c 1) u) = _
      rw [shapeKey_subscriber]
      rfl)

theorem shaperServiceSet_runs : Runs .shaperServiceSet 0x0631 7
    (fun c _ => pn c 0 ≤ 255 ∧ pn c 1 ≤ 7 ∧ (pn c 2 ≤ 1000000 ∧ pn c (2 + 2) ≤ 1000000) ∧ 1 ≤ pn c 6 ∧ pn c 6 ≤ 86400)
    (fun _ _ => [])
    (fun c u =>
      let u1 := pendShape (4096 + (8 * pn c 0 + pn c 1)) (shapeAt c 2) u
      { u1 with air := { u1.air with pendLife := tabSet u1.air.pendLife (8 * pn c 0 + pn c 1) (pn c 6) } }) :=
  runs_row shaperServiceSetSpec
    (fun _ _ ⟨htenant, hservice, hrates, hlo, hhi⟩ => Bool.and_eq_true_iff.mpr ⟨Bool.and_eq_true_iff.mpr
      ⟨within_and ⟨Nat.zero_le _, htenant, Nat.zero_le _, hservice⟩, ratesOk_iff.mpr hrates⟩, within_iff.mpr ⟨hlo, hhi⟩⟩)
    (fun _ _ _ => rfl)

theorem shaperPortSet_runs : Runs .shaperPortSet 0x0632 5
    (fun c _ => pn c 0 ≤ 63 ∧ pn c 1 ≤ 1000000 ∧ pn c (1 + 2) ≤ 1000000) (fun _ _ => [])
    (fun c u => pendShape (8192 + pn c 0) (shapeAt c 1) u) :=
  runs_row shaperPortSetSpec
    (fun _ _ ⟨hport, hrates⟩ => Bool.and_eq_true_iff.mpr ⟨within_iff.mpr ⟨Nat.zero_le _, hport⟩, ratesOk_iff.mpr hrates⟩)
    (fun _ _ _ => rfl)

theorem shaperRead_runs : Runs .shaperRead 0x0633 2
    (fun c _ => pn c 0 ≤ 2 ∧ pn c 1 < (if pn c 0 = 0 then 256 else if pn c 0 = 1 then 2048 else 64))
    (fun c u => [tokenWord (tokens u (4096 * pn c 0 + pn c 1)).c, tokenWord (tokens u (4096 * pn c 0 + pn c 1)).e])
    (fun _ u => u) :=
  runs_row shaperReadSpec
    (fun _ _ ⟨hlevel, hindex⟩ => Bool.and_eq_true_iff.mpr ⟨within_iff.mpr ⟨Nat.zero_le _, hlevel⟩, decide_eq_true hindex⟩)
    (fun _ _ _ => rfl)

/-! ### Records and counters -/

theorem txRecordSet_runs : Runs .txRecordSet 0x0640 3
    (fun c u => pn c 0 ≤ 3 ∧ 34 ≤ pn c 1 ∧ pn c 1 ≤ 63 ∧ pn c 2 < 4 ∧ draining u (pn c 0) = false) (fun _ _ => [])
    (fun c u => setTxCfg u (pn c 0) { txCfg u (pn c 0) with recQ := pn c 1, records := bit (pw c 2) 0, deferrals := bit (pw c 2) 1 }) :=
  runs_row txRecordSetSpec
    (fun _ _ ⟨hplain, hlo, hhi, hword, _⟩ => Bool.and_eq_true_iff.mpr
      ⟨within_and ⟨Nat.zero_le _, hplain, hlo, hhi⟩, fits_iff.mpr hword⟩)
    (fun _ _ _ => rfl)
    (hr := fun c u ⟨_, _, _, _, hdrain⟩ => by change (!draining u (pn c 0)) = true; rw [hdrain]; rfl)

theorem shortfallRead_runs : Runs .shortfallRead 0x0641 2 (fun c _ => pn c 0 ≤ 255 ∧ pn c 1 < 2)
    (fun c u => (shortfalls u (pn c 0)).flatMap (fun v => loHi (BitVec.ofNat 64 v)))
    (fun c u => if pn c 1 = 1 then
        { u with sched := { u.sched with shortfall := tabSet u.sched.shortfall (pn c 0) [0, 0, 0, 0] } }
      else u) :=
  runs_row shortfallReadSpec
    (fun _ _ ⟨htenant, hclear⟩ => Bool.and_eq_true_iff.mpr ⟨within_iff.mpr ⟨Nat.zero_le _, htenant⟩, fits_iff.mpr hclear⟩)
    (fun _ _ _ => rfl)

theorem schedCountersRead_runs : Runs .schedCountersRead 0x0650 2 (fun c _ => pn c 0 ≤ 3 ∧ pn c 1 < 2)
    (fun c u => (plainSched u (pn c 0)).counters.map w32)
    (fun c u => if pn c 1 = 1 then
        setPlainSched u (pn c 0) { plainSched u (pn c 0) with counters := List.replicate 12 0 } else u) :=
  runs_row schedCountersReadSpec
    (fun _ _ ⟨hplain, hclear⟩ => Bool.and_eq_true_iff.mpr ⟨within_plain hplain, fits_iff.mpr hclear⟩)
    (fun _ _ _ => rfl)

/-- Settles O31: each command is a row of the table whose checks its clause excludes. -/
theorem scheduleAndAirtimeCommandsRun : Obligations.ScheduleAndAirtimeCommandsRun :=
  ⟨⟨scheduleSet_runs, runs_row scheduleStatusSpec (fun _ _ _ => rfl) (fun _ _ _ => rfl), slotframeSet_runs, hopseqSet_runs,
    cellWrite_runs, cellWrite_minority, cellRead_runs, guardClassSet_runs, rendezvousSet_runs, rendezvousSet_elsewhere,
    rendezvousRead_runs, downlinkPurge_runs⟩,
   ⟨subbandSet_runs,
    ledgerRead_runs,
    ledgerLoad_runs, shaperSubscriberSet_runs, shaperServiceSet_runs, shaperPortSet_runs, shaperRead_runs, txRecordSet_runs,
    shortfallRead_runs, schedCountersRead_runs⟩⟩

end Sys2Proof.Proofs
end

section
/-! Settles Obligations.AirtimeAndSelection: what an admission has checked, charges and loads of the ledger, and the order
in which a selection judges. -/

namespace Sys2Proof.Proofs

open Sys2Proof.Machine Sys2Proof.Laws Sys2Proof.Safety

-- Proofs one after another: the threads of many at once would pass the memory that the check allows.
set_option Elab.async false

/-! ### Admission -/

theorem fullBands_of_judge {s : State} {x : Tx} (h : judge s x = none) :
    x.bands.isEmpty = false ∧ (fullBands s x).isEmpty = true := by
  unfold judge at h
  split at h
  · cases h
  · split at h
    · cases h
    · split at h
      · cases h
      · split at h
        · cases h
        · split at h
          · cases h
          · rename_i hbands
            split at h
            · cases h
            · rename_i hfull
              exact ⟨Bool.eq_false_of_not_eq_true hbands, by simpa using hfull⟩

theorem judge_none_fits {s : State} {x : Tx} (h : judge s x = none) :
    x.bands ≠ [] ∧ ∀ j ∈ x.bands, usage s (16 * x.plain + j) + x.tAir
      ≤ (bandCfg s (16 * x.plain + j)).limit * (bandCfg s (16 * x.plain + j)).window * 1000 := by
  obtain ⟨hbands, hfull⟩ := fullBands_of_judge h
  refine ⟨fun hnil => (by rw [hnil] at hbands; cases hbands), fun j hj => ?_⟩
  have hnone := List.filter_eq_nil_iff.mp (List.isEmpty_iff.mp hfull) j hj
  rw [Bool.not_eq_true, Bool.not_eq_false'] at hnone
  exact of_decide_eq_true hnone

/-! ### Ledger -/

theorem buckets_modBucket (k m sec : Nat) (f : Nat → Nat) (s : State) :
    tabGet (band (modBucket k sec f s) m).buckets sec 0
      = if m = k then f (tabGet (band s k).buckets sec 0) else tabGet (band s m).buckets sec 0 := by
  rw [modBucket, band_setBand]
  split
  · exact (tabGet_tabSet _ _ _ _ _).trans (if_pos rfl)
  · rfl

theorem buckets_charge (p a : Nat) (t0 : BitVec 64) (j : Nat) {js : List Nat} (hjs : js.Nodup) (s : State) :
    tabGet (band (charge p js t0 a s) (16 * p + j)).buckets (secondOf t0) 0
      = tabGet (band s (16 * p + j)).buckets (secondOf t0) 0 + (if j ∈ js then a else 0) := by
  induction js generalizing s with
  | nil => rfl
  | cons i js ih =>
    obtain ⟨hi, hjs⟩ := List.nodup_cons.mp hjs
    change tabGet (band (charge p js t0 a (modBucket (16 * p + i) (secondOf t0) (· + a) s)) (16 * p + j)).buckets _ 0 = _
    rw [ih hjs, buckets_modBucket]
    by_cases hj : j = i
    · subst hj
      rw [if_pos rfl, if_neg hi, if_pos List.mem_cons_self, Nat.add_zero]
    · rw [if_neg (by omega)]
      simp only [List.mem_cons, hj, false_or]

/-- A bucket raised to at least a value. -/
def raiseBucket (t : Tab Nat) (e : Nat × Nat) : Tab Nat := tabSet t e.1 (max e.2 (tabGet t e.1 0))

theorem le_raiseBucket (t : Tab Nat) (e : Nat × Nat) (sec : Nat) : tabGet t sec 0 ≤ tabGet (raiseBucket t e) sec 0 := by
  rw [raiseBucket, tabGet_tabSet]
  split
  · next h => exact h ▸ Nat.le_max_right _ _
  · exact Nat.le_refl _

theorem le_foldl_raiseBucket (l : List (Nat × Nat)) (t : Tab Nat) (sec : Nat) :
    tabGet t sec 0 ≤ tabGet (l.foldl raiseBucket t) sec 0 := by
  induction l generalizing t with
  | nil => exact Nat.le_refl _
  | cons e l ih => exact (le_raiseBucket t e sec).trans (ih _)

theorem buckets_le_loadBand {s : State} {k : Nat} (h : (band s k).cold = false) (l : List Word) (sec : Nat) :
    tabGet (band s k).buckets sec 0 ≤ tabGet (band (loadBand k l s) k).buckets sec 0 := by
  simp only [loadBand, band_setBand, if_true, h]
  exact le_foldl_raiseBucket (loadedBuckets s l) (band s k).buckets sec

/-! ### Selection -/

/-- A candidate is judged no later than another by rank and enqueue sequence. -/
def CandLe (a b : Cand) : Prop := a.tx.rank < b.tx.rank ∨ (a.tx.rank = b.tx.rank ∧ a.seq ≤ b.seq)

theorem CandLe.trans {a b c : Cand} (hab : CandLe a b) (hbc : CandLe b c) : CandLe a c := by
  unfold CandLe at *
  omega

theorem candLe_of_candBefore {a b : Cand} (h : candBefore a b = true) : CandLe a b := by
  simp only [candBefore, keyBefore] at h
  unfold CandLe
  grind

theorem candLe_of_not_candBefore {a b : Cand} (h : ¬ candBefore b a = true) : CandLe a b := by
  simp only [candBefore, keyBefore] at h
  unfold CandLe
  grind

theorem insertCand_perm (c : Cand) (l : List Cand) : (insertCand c l).Perm (c :: l) := by
  induction l with
  | nil => exact .refl _
  | cons d l ih =>
    rw [insertCand]
    split
    · exact .refl _
    · exact (ih.cons d).trans (.swap c d l)

theorem insertCand_pairwise (c : Cand) {l : List Cand} (h : l.Pairwise CandLe) : (insertCand c l).Pairwise CandLe := by
  induction l with
  | nil => exact List.pairwise_singleton _ _
  | cons d l ih =>
    obtain ⟨hd, hl⟩ := List.pairwise_cons.mp h
    rw [insertCand]
    split
    · next hbefore =>
      have hcd := candLe_of_candBefore hbefore
      refine List.pairwise_cons.mpr ⟨fun e he => ?_, h⟩
      rcases List.mem_cons.mp he with rfl | he
      · exact hcd
      · exact hcd.trans (hd e he)
    · next hbefore =>
      refine List.pairwise_cons.mpr ⟨fun e he => ?_, ih hl⟩
      rcases List.mem_cons.mp ((insertCand_perm c l).mem_iff.mp he) with rfl | he
      · exact candLe_of_not_candBefore hbefore
      · exact hd e he

theorem foldl_insertCand (l o : List Cand) (ho : o.Pairwise CandLe) :
    (l.foldl (fun o c => insertCand c o) o).Perm (l ++ o) ∧ (l.foldl (fun o c => insertCand c o) o).Pairwise CandLe := by
  induction l generalizing o with
  | nil => exact ⟨.refl _, ho⟩
  | cons c l ih =>
    obtain ⟨hperm, hsorted⟩ := ih (insertCand c o) (insertCand_pairwise c ho)
    exact ⟨hperm.trans (((insertCand_perm c o).append_left l).trans List.perm_middle), hsorted⟩

theorem inOrder_spec (l : List Cand) : (inOrder l).Perm l ∧ (inOrder l).Pairwise CandLe := by
  obtain ⟨hperm, hsorted⟩ := foldl_insertCand l [] .nil
  exact ⟨(List.append_nil l ▸ hperm :), hsorted⟩

/-- Settles O32: an admission has passed the ledger's check, a charge adds to its own bucket, a load raises buckets, a refill
stops at the bursts, and a selection inserts each candidate in its place. -/
theorem airtimeAndSelection : Obligations.AirtimeAndSelection :=
  ⟨⟨fun _ _ h => judge_none_fits h, fun s p a _ t0 j hjs => buckets_charge p a t0 j hjs s,
    fun _ _ l sec h => buckets_le_loadBand h l sec, fun _ _ _ => ⟨min_le_right _ _, min_le_right _ _⟩⟩, inOrder_spec⟩

end Sys2Proof.Proofs
end

section
/-! Settles Obligations.ScheduleEventsAct: the slot boundary, selections, rendezvous, lifetimes, and the ledger's and the
shapers' instants. -/

namespace Sys2Proof.Proofs

open Sys2Proof.Machine Sys2Proof.Laws Sys2Proof.Safety

-- Proofs one after another: the threads of many at once would pass the memory that the check allows.
set_option Elab.async false

theorem cellSelection_selects (p : Fin 4) (asn : BitVec 40) {s : State}
    (hopen : reached s (before (nominal s asn.toNat) 2000000) = true) (hahead : reached s (nominal s asn.toNat) = false)
    (hnew : (plainSched s p).selected ≤ asn.toNat) (hon : (plainCfg s p).enabled = true) (hruns : datapathRuns s = true) :
    let view := applyChanges asn.toNat (setPlainSched s p { plainSched s p with selected := asn.toNat + 1 })
    let v := select p asn.toNat view
    let s1 := setSched v.state s.cfg.sched
    exec (.cellSelection p asn) s =
      .next (dropRequest p v.admitted.isEmpty { s1 with sched := { s1.sched with pend := s.sched.pend } }) :=
  if_neg (by rw [hopen, hahead, hon, hruns, decide_eq_false (Nat.not_lt.mpr hnew)]; exact Bool.false_ne_true)

theorem rendezvousCandidatePass_of_none (i : Nat) (cell : Fin 4) (asn : BitVec 40) {s : State} (h : tabFind s.fwd.nodes i = none) :
    exec (.rendezvousCandidatePass i cell asn) s = .next s := by
  change execRendezvousCandidatePass i cell asn s = _
  rw [execRendezvousCandidatePass, h]

theorem rendezvousCandidatePass_passes {i h : Nat} {cell : Fin 4} {asn : BitVec 40} {r : NodeRec} {s : State}
    (hrec : tabFind s.fwd.nodes i = some r) (hmember : txMember r = some h) (hother : h ≠ ownHid s)
    (hopen : reached s (before (nominal s asn.toNat) 3000000) = true)
    (hahead : reached s (before (nominal s asn.toNat) 2000000) = false)
    (hused : bit (r.cells.getD cell 0#32) 31 = true)
    (hlive : cellLive (applyChanges asn.toNat s) (r.cells.getD cell 0#32) asn.toNat = true)
    (hneeds : needsFrame s r = true) (hindex : i ∉ s.dev.idxRebuild)
    (hsent : ∀ e ∈ s.sched.sentTo, ¬ (e.1 = i ∧ e.2.1 = nominal s asn.toNat)) :
    let t := passRendezvous i h asn.toNat r (r.cells.getD cell 0#32) (applyChanges asn.toNat s)
    let t1 := setSched t s.cfg.sched
    exec (.rendezvousCandidatePass i cell asn) s = .next { t1 with sched := { t.sched with pend := s.sched.pend } } := by
  have hfresh : s.sched.sentTo.any (fun e => e.1 = i && e.2.1 = nominal s asn.toNat) = false :=
    List.any_eq_false.mpr fun e he => by simpa using hsent e he
  have hlisted : s.dev.idxRebuild.contains i = false := by simpa using hindex
  change execRendezvousCandidatePass i cell asn s = _
  rw [execRendezvousCandidatePass, hrec]
  dsimp only
  rw [hmember]
  exact if_pos (by
    rw [hopen, hahead, hused, hlive, hneeds, hfresh, hlisted]
    exact Bool.and_eq_true_iff.mpr ⟨rfl, by simpa using hother⟩)

theorem rendezvousCandidate_late (x : CandIn) {s : State} (h : s.tan.joined = false) (hlate : past s (before x.t0 2000000) = true) :
    exec (.rendezvousCandidate x) s = .next (tellHome (passedTx s x) false .deferredCapacity s) := by
  change execRendezvousCandidate x s = _
  rw [execRendezvousCandidate, mirrorHerd_of_alone h]
  exact if_pos hlate

theorem rendezvousCandidate_kept (x : CandIn) {s : State} (h : s.tan.joined = false) (hlate : past s (before x.t0 2000000) = false) :
    exec (.rendezvousCandidate x) s = .next { s with sched := { s.sched with
      passed := s.sched.passed ++ [{ plain := x.plain.val, t0 := x.t0, tx := passedTx s x, announced := x.announced, late := x.late }]
      nextSeq := s.sched.nextSeq + 1 } } := by
  change execRendezvousCandidate x s = _
  rw [execRendezvousCandidate, mirrorHerd_of_alone h]
  exact if_neg (by rw [hlate]; exact Bool.false_ne_true)

theorem candidateOutcome_settles {x : OutcomeIn} {i : Nat} {r : NodeRec} {e : Nat × BitVec 64 × Nat} {s : State}
    (h : s.tan.joined = false) (hentry : nodeEntry s x.net x.dst = some (i, r))
    (hsent : s.sched.sentTo.find? (fun y => y.1 = i && y.2.1 = x.t0) = some e) (hplain : e.2.2 = 0) :
    exec (.candidateOutcome x) s = .next (settleNode x 0 (settleItem x
      { s with sched := { s.sched with sentTo := s.sched.sentTo.filter (· != e) } })) := by
  change execCandidateOutcome x s = _
  rw [execCandidateOutcome, mirrorHerd_of_alone h]
  dsimp only
  rw [hentry]
  dsimp only
  rw [hsent]
  dsimp only
  rw [hplain, if_pos rfl]

theorem dlLifetimeExpiry_ends {d : Downlink} {s : State} (hfind : s.sched.wait.find? (fun y => y.seq = d.seq) = some d)
    (hstill : d.flying = false)
    (hdue : reached s (d.enq + BitVec.ofNat 64 (1000000000 * lifetimeOf s d.tenant d.service)) = true) :
    exec (.dlLifetimeExpiry d.seq) s =
      .next (countSched 10 (cellPlain (placeOf s d)) (endWaiting (lifetimeRefusal d.status) d s)) := by
  change execDlLifetimeExpiry d.seq s = _
  rw [execDlLifetimeExpiry, hfind]
  exact if_neg (by rw [hstill, hdue]; exact Bool.false_ne_true)

theorem shaperRefill_refills {s : State} (hshape : s.air.pendShape = []) (hdue : s.air.ms < (now s).toNat / 1000000) :
    ∃ t, exec .shaperRefill s = .next t ∧ t.air.ms = (now s).toNat / 1000000
      ∧ t.air.tokens = s.air.tokens.map (fun e => (e.1, refilled (shapeOf s e.1) ((now s).toNat / 1000000 - s.air.ms) e.2))
      ∧ t.cfg.air.shapes = s.cfg.air.shapes := by
  refine ⟨_, if_pos hdue, rfl, ?_, ?_⟩
  · rw [hshape]; rfl
  · rw [hshape]; rfl

theorem rendezvousIndexRebuild_restores (i : Nat) (s : State) : ∃ t, exec (.rendezvousIndexRebuild i) s = .next t
    ∧ i ∉ t.dev.idxRebuild ∧ (∀ k, k ≠ i → (k ∈ t.dev.idxRebuild ↔ k ∈ s.dev.idxRebuild)) ∧ t.fwd = s.fwd ∧ t.sched = s.sched :=
  ⟨_, rfl, by simp, fun k hk => by simp [hk], rfl, rfl⟩

/-- Settles O33: one lemma for each instant of the schedule. -/
theorem scheduleEventsAct : Obligations.ScheduleEventsAct :=
  ⟨fun _ h => if_pos h, fun _ h => if_neg h,
   fun p asn _ hopen hahead hnew hon hruns => cellSelection_selects p asn hopen hahead hnew hon hruns,
   fun i cell asn _ h => rendezvousCandidatePass_of_none i cell asn h,
   fun _ _ _ _ _ _ hrec hmember hother hopen hahead hused hlive hneeds hindex hsent =>
    rendezvousCandidatePass_passes hrec hmember hother hopen hahead hused hlive hneeds hindex hsent,
   fun x _ h hlate => rendezvousCandidate_late x h hlate, fun x _ h hlate => rendezvousCandidate_kept x h hlate,
   fun _ _ _ _ _ h hentry hsent hplain => candidateOutcome_settles h hentry hsent hplain,
   fun _ _ hfind hstill hdue => dlLifetimeExpiry_ends hfind hstill hdue, ⟨rfl, rfl, rfl, rfl, rfl, rfl⟩,
   fun _ h => if_pos h, fun _ hshape _ hdue => shaperRefill_refills hshape hdue, rendezvousIndexRebuild_restores⟩

end Sys2Proof.Proofs
end

section
/-! Settles Obligations.ForwardingAndNodeCommandsRun: rows of the memory of prefixes, of forwarding and of node records. -/

namespace Sys2Proof.Proofs

open Sys2Proof.Machine Sys2Proof.Laws Sys2Proof.Safety

-- Proofs one after another: the threads of many at once would pass the memory that the check allows.
set_option Elab.async false

/-! ### Flags of one bit -/

theorem pw_of_lt_two {c : Packet} {i : Nat} (h : pn c i < 2) : pw c i = 0#32 ∨ pw c i = 1#32 := by
  have hcases : pn c i = 0 ∨ pn c i = 1 := by omega
  exact hcases.imp (BitVec.eq_of_toNat_eq ·) (BitVec.eq_of_toNat_eq ·)

theorem only_one {c : Packet} {i : Nat} (h : pn c i < 2) : only c i 1 = true := by
  refine only_iff.mpr ?_
  rcases pw_of_lt_two h with h | h <;> rw [h] <;> rfl

theorem bit_zero_eq {c : Packet} {i : Nat} (h : pn c i < 2) : bit (pw c i) 0 = decide (pn c i = 1) := by
  rw [pn]
  rcases pw_of_lt_two h with h | h <;> rw [h] <;> rfl

/-! ### The memory of prefixes -/

theorem keyOk_eq (e : PrefixEntry) : keyOk e = true ↔ if e.home then e.tenant ≤ 15 ∧ e.len ≤ 32 else e.len ≤ 128 := by
  cases h : e.home <;> simp [keyOk, lengthLimit, h, and_comm]

theorem resultOk_iff (e : PrefixEntry) : resultOk e = true ↔
    (e.home = false → e.result ≤ 4 ∧ (e.result = 1 → e.arg ≤ 15) ∧ (e.result = 3 → e.arg ≤ 1)) := by
  cases h : e.home <;> simp [resultOk, h, imp_iff_not_or, and_assoc]

theorem keyBeyond_eq_false {e : PrefixEntry} (h : e.key <<< e.len = 0#128) : keyBeyond e = false := by
  rw [keyBeyond, h]
  rfl

/-- What R295 and R296 ask of an entry that is inserted. -/
def SoundEntry (e : PrefixEntry) : Prop :=
  (e.home = true → e.tenant ≤ 15 ∧ e.len ≤ 32)
  ∧ (e.home = false → e.len ≤ 128 ∧ e.result ≤ 4 ∧ (e.result = 1 → e.arg ≤ 15) ∧ (e.result = 3 → e.arg ≤ 1))
  ∧ e.key <<< e.len = 0#128

theorem entryOk_of_sound {e : PrefixEntry} (h : SoundEntry e) : (keyOk e && resultOk e && !keyBeyond e) = true := by
  obtain ⟨hhome, hroute, hkey⟩ := h
  have hlen : keyOk e = true := (keyOk_eq e).mpr (by
    split
    · next h => exact hhome h
    · next h => exact (hroute (Bool.eq_false_of_not_eq_true h)).1)
  have hresult : resultOk e = true := (resultOk_iff e).mpr fun h => (hroute h).2
  rw [hlen, hresult, keyBeyond_eq_false hkey]
  rfl

theorem loadPrefix_of_room {e : PrefixEntry} {s : State}
    (h : s.cfg.fwd.prefixes.length < 16384 ∨ ∃ x ∈ s.cfg.fwd.prefixes, sameEntry e x = true) :
    loadPrefix e s = some (setPrefixes (insertPrefix e s.cfg.fwd.prefixes) s) := by
  refine if_neg ?_
  intro hfull
  obtain ⟨hlen, hnew⟩ := Bool.and_eq_true_iff.mp hfull
  rcases h with h | ⟨x, hx, hsame⟩
  · exact absurd (of_decide_eq_true hlen) (Nat.not_le.mpr h)
  · rw [List.any_eq_true.mpr ⟨x, hx, hsame⟩] at hnew
    cases hnew

theorem prefixInsert_runs : Runs .prefixInsert 0x0700 5
    (fun c u => pf c 4 31 30 = 0 ∧ bit (pw c 4) 26 = true ∧ SoundEntry (entryOfWords c 0)
      ∧ (u.cfg.fwd.prefixes.length < 16384 ∨ ∃ x ∈ u.cfg.fwd.prefixes, sameEntry (entryOfWords c 0) x = true))
    (fun _ _ => []) (fun c u => setPrefixes (insertPrefix (entryOfWords c 0) u.cfg.fwd.prefixes) u) :=
  runs_row prefixInsertSpec
    (fun c _ ⟨hfree, hused, hsound, _⟩ => by
      change (decide (pf c 4 31 30 = 0) && bit (pw c 4) 26 && keyOk (entryOfWords c 0) && resultOk (entryOfWords c 0)
        && !keyBeyond (entryOfWords c 0)) = true
      rw [decide_eq_true hfree, hused, Bool.true_and, Bool.true_and]
      exact entryOk_of_sound hsound)
    (fun c u ⟨_, _, _, hroom⟩ => by
      simp only [prefixInsertSpec, plainSpec, loadPrefix_of_room hroom]
      rfl)

theorem prefixDelete_runs : Runs .prefixDelete 0x0701 5
    (fun c _ => pf c 4 31 30 = 0 ∧ (if (entryOfWords c 0).home then (entryOfWords c 0).tenant ≤ 15 ∧ (entryOfWords c 0).len ≤ 32
      else (entryOfWords c 0).len ≤ 128))
    (fun c u => [if ∃ x ∈ u.cfg.fwd.prefixes, sameEntry (entryOfWords c 0) x = true then 1#32 else 0#32])
    (fun c u => setPrefixes (u.cfg.fwd.prefixes.filter (fun x => !sameEntry (entryOfWords c 0) x)) u) :=
  runs_row prefixDeleteSpec
    (fun c _ ⟨hfree, hkey⟩ => Bool.and_eq_true_iff.mpr ⟨decide_eq_true hfree, (keyOk_eq _).mpr hkey⟩)
    (fun c u _ => by
      simp only [prefixDeleteSpec, plainSpec, w32_flag, List.any_eq_true]
      rfl)

theorem searchWords_valid {c : Packet} (h : pn c 0 ≤ 1 ∧ pn c 1 ≤ (if pn c 0 = 1 then 15 else 255)) :
    prefixSearchSpec.valid c = true :=
  Bool.and_eq_true_iff.mpr ⟨within_iff.mpr ⟨Nat.zero_le _, h.1⟩, within_iff.mpr ⟨Nat.zero_le _, h.2⟩⟩

theorem prefixSearch_runs (e : PrefixEntry) : Runs .prefixSearch 0x0702 6
    (fun c u => pn c 0 ≤ 1 ∧ pn c 1 ≤ (if pn c 0 = 1 then 15 else 255)
      ∧ prefixSearch u (pn c 0 = 1) (pn c 1) (keyOfWords (pwords c 2 4)) = some e)
    (fun _ _ => entryWords e) (fun _ u => u) :=
  runs_row prefixSearchSpec (fun _ _ ⟨htype, htenant, _⟩ => searchWords_valid ⟨htype, htenant⟩)
    (fun c u ⟨_, _, hfound⟩ => by
      simp only [prefixSearchSpec, plainSpec, hfound]
      rfl)

theorem prefixSearch_runs_without_entry : Runs .prefixSearch 0x0702 6
    (fun c u => pn c 0 ≤ 1 ∧ pn c 1 ≤ (if pn c 0 = 1 then 15 else 255)
      ∧ prefixSearch u (pn c 0 = 1) (pn c 1) (keyOfWords (pwords c 2 4)) = none)
    (fun _ u => [Config.freeWord u.free, Config.freeWord (u.free + 1), Config.freeWord (u.free + 2),
      Config.freeWord (u.free + 3), 0#32]) (fun _ u => { u with free := u.free + 4 }) :=
  runs_row prefixSearchSpec (fun _ _ ⟨htype, htenant, _⟩ => searchWords_valid ⟨htype, htenant⟩)
    (fun c u ⟨_, _, hfound⟩ => by
      simp only [prefixSearchSpec, plainSpec, hfound]
      rfl)

theorem prefixNext_runs : Runs .prefixNext 0x0703 7 (fun c _ => pn c 0 < 2 ∧ pf c 5 31 30 = 0 ∧ 1 ≤ pn c 6 ∧ pn c 6 ≤ 64)
    (fun c u =>
      let l := ((walkOrder u.cfg.fwd.prefixes).filter
        (fun e => bit (pw c 0) 0 || keyBefore (walkKey (entryOfWords c 1)) (walkKey e))).take (pn c 6)
      w32 l.length :: l.flatMap entryWords) (fun _ u => u) :=
  runs_row prefixNextSpec
    (fun _ _ ⟨hstart, hfree, hlo, hhi⟩ => Bool.and_eq_true_iff.mpr
      ⟨Bool.and_eq_true_iff.mpr ⟨only_one hstart, decide_eq_true hfree⟩, within_iff.mpr ⟨hlo, hhi⟩⟩)
    (fun _ _ _ => rfl)

/-! ### Tenants, floods and counters -/

theorem fwdTenantSet_runs : Runs .fwdTenantSet 0x0730 3
    (fun c _ => pn c 0 ≤ 255 ∧ (pn c 1 = 0 ∨ (64 ≤ pn c 1 ∧ pn c 1 ≤ 1023)) ∧ pn c 2 < 2) (fun _ _ => [])
    (fun c u => { u with cfg := { u.cfg with fwd := { u.cfg.fwd with
      hostQ := tabSet u.cfg.fwd.hostQ (pn c 0) (pn c 1), dscp := tabSet u.cfg.fwd.dscp (pn c 0) (bit (pw c 2) 0) } } }) :=
  runs_row fwdTenantSetSpec
    (fun c _ ⟨htenant, hq, hdscp⟩ => by
      have hqueue : (decide (pn c 1 = 0) || within c 1 64 1023) = true :=
        Bool.or_eq_true_iff.mpr (hq.imp decide_eq_true within_iff.mpr)
      change (within c 0 0 255 && (decide (pn c 1 = 0) || within c 1 64 1023) && only c 2 1) = true
      rw [within_iff.mpr ⟨Nat.zero_le _, htenant⟩, hqueue, only_one hdscp]
      rfl)
    (fun _ _ _ => rfl)

theorem fwdFloodSet_runs : Runs .fwdFloodSet 0x0731 3 (fun c _ => pn c 0 ≤ 15) (fun _ _ => [])
    (fun c u => { u with cfg := { u.cfg with fwd := { u.cfg.fwd with flood := tabSet u.cfg.fwd.flood (pn c 0) (p64 c 1) } } }) :=
  runs_row fwdFloodSetSpec (fun _ _ h => within_net h) (fun _ _ _ => rfl)

theorem fwdCountersRead_runs : Runs .fwdCountersRead 0x0750 1 (fun c _ => pn c 0 < 2) (fun _ u => u.fwd.counters.map w32)
    (fun c u => if pn c 0 = 1 then { u with fwd := { u.fwd with counters := List.replicate 9 0 } } else u) :=
  runs_row fwdCountersReadSpec (fun _ _ h => only_one h)
    (fun c u h => by
      simp only [fwdCountersReadSpec, plainSpec, bit_zero_eq h, decide_eq_true_eq]
      rfl)

/-! ### Records of nodes -/

theorem nodeAddress_valid {c : Packet} (hnet : pn c 0 ≤ 15) (hzero : pw c 1 ≠ 0#32) (hlast : pw c 1 ≤ 0xFFFFFEFF#32)
    (htenant : pn c 2 ≤ 255) : nodeInsertSpec.valid c = true := by
  change (within c 0 0 15 && (pw c 1 != 0#32 && decide (pw c 1 ≤ 0xFFFFFEFF#32)) && within c 2 0 255) = true
  rw [within_net hnet, bne_iff_ne.mpr hzero, decide_eq_true hlast, within_iff.mpr ⟨Nat.zero_le _, htenant⟩]
  rfl

theorem insertNode_of_position {s : State} {n : Nat} {a : Word} {i : Nat} (h : freePosition s n a = some i) (tenant : Nat)
    (host : Bool) : insertNode n a tenant host s = (some i, setNode i
      { addr := a, net := n, tenant := tenant, hostIns := host, win := unrecOf s n a } (dropUnrec n a s)) := by
  rw [insertNode, h]

theorem isHome_eq {s : State} {n : Nat} {a : Word} : isHome s n a = decide (homeOf s n a = ownHid s) := rfl

theorem nodeInsert_runs (i : Nat) : Runs .nodeInsert 0x0710 3
    (fun c u => pn c 0 ≤ 15 ∧ pw c 1 ≠ 0#32 ∧ pw c 1 ≤ 0xFFFFFEFF#32 ∧ pn c 2 ≤ 255 ∧ homeOf u (pn c 0) (pw c 1) = ownHid u
      ∧ nodeEntry u (pn c 0) (pw c 1) = none ∧ freePosition u (pn c 0) (pw c 1) = some i)
    (fun _ _ => [w32 i])
    (fun c u =>
      let r : NodeRec := { addr := pw c 1, net := pn c 0, tenant := pn c 2, hostIns := true, win := unrecOf u (pn c 0) (pw c 1) }
      setNode i r (dropUnrec (pn c 0) (pw c 1) u)) :=
  runs_row nodeInsertSpec (fun _ _ ⟨hnet, hzero, hlast, htenant, _⟩ => nodeAddress_valid hnet hzero hlast htenant)
    (fun c u ⟨_, _, _, _, hhome, hnew, hposition⟩ => by
      simp only [nodeInsertSpec, plainSpec, isHome_eq, decide_eq_true hhome, hnew, insertNode_of_position hposition]
      rfl)

theorem nodeInsert_elsewhere : Ends .nodeInsert 0x0710 3
    (fun c u => pn c 0 ≤ 15 ∧ pw c 1 ≠ 0#32 ∧ pw c 1 ≤ 0xFFFFFEFF#32 ∧ pn c 2 ≤ 255 ∧ homeOf u (pn c 0) (pw c 1) ≠ ownHid u)
    .refusedNodeUnknown :=
  ends_row nodeInsertSpec (fun _ _ ⟨hnet, hzero, hlast, htenant, _⟩ => nodeAddress_valid hnet hzero hlast htenant)
    (fun c u ⟨_, _, _, _, hhome⟩ => by
      simp only [nodeInsertSpec, plainSpec, isHome_eq, decide_eq_false hhome]
      rfl)

/-- The command names a node whose home this device is, and record i is the node's. -/
def NamesRecord (i : Nat) (r : NodeRec) (c : Packet) (u : State) : Prop :=
  pn c 0 ≤ 15 ∧ homeOf u (pn c 0) (pw c 1) = ownHid u ∧ nodeEntry u (pn c 0) (pw c 1) = some (i, r)

theorem NamesRecord.homeRec {i : Nat} {r : NodeRec} {c : Packet} {u : State} (h : NamesRecord i r c u) :
    homeRec u (pn c 0) (pw c 1) = some (i, r) := by
  obtain ⟨_, hhome, hentry⟩ := h
  rw [homeRec_of_home hhome, hentry]

theorem nodeDelete_runs (i : Nat) (r : NodeRec) :
    Runs .nodeDelete 0x0711 2 (NamesRecord i r) (fun _ _ => []) (fun _ u => deleteNode i r u) :=
  runs_row nodeDeleteSpec (fun _ _ h => within_net h.1) (fun c u h => by
    simp only [nodeDeleteSpec, plainSpec, h.homeRec]
    rfl)

theorem nodeRead_runs (i : Nat) (r : NodeRec) :
    Runs .nodeRead 0x0712 2 (NamesRecord i r) (fun _ u => nodeWords u r) (fun _ u => touchNode i u) :=
  runs_row nodeReadSpec (fun _ _ h => within_net h.1) (fun c u h => by
    simp only [nodeReadSpec, plainSpec, h.homeRec]
    rfl)

theorem nodeRead_unknown : Ends .nodeRead 0x0712 2 (fun c u => pn c 0 ≤ 15 ∧ nodeEntry u (pn c 0) (pw c 1) = none)
    .refusedNodeUnknown :=
  ends_row nodeReadSpec (fun _ _ h => within_net h.1) (fun c u h => by
    simp only [nodeReadSpec, plainSpec, homeRec_of_unknown h.2])

theorem nodeUpdate_runs (i : Nat) (r : NodeRec) :
    Runs .nodeUpdate 0x0713 19 (fun c u => NamesRecord i r c u ∧ pn c 2 < 256) (fun _ _ => [])
      (fun c u => setNode i { r with tenant := pf c 2 7 0, host := pwords c 3 16 } u) :=
  runs_row nodeUpdateSpec
    (fun _ _ ⟨h, htenant⟩ => Bool.and_eq_true_iff.mpr ⟨within_net h.1, fits_iff.mpr htenant⟩)
    (fun c u ⟨h, _⟩ => by
      simp only [nodeUpdateSpec, plainSpec, h.homeRec]
      rfl)

theorem nodeNext_runs : Runs .nodeNext 0x0714 3
    (fun c _ => pn c 0 ≤ 1048639 ∧ 1 ≤ pn c 1 ∧ pn c 1 ≤ 64 ∧ (pn c 2 ≤ 15 ∨ pw c 2 = 0xFFFFFFFF#32))
    (fun c u =>
      let l := u.fwd.nodes.filter (fun e => pn c 0 ≤ e.1 && (pw c 2 = 0xFFFFFFFF#32 || w32 e.2.net = pw c 2))
      nextCursor (l.take (pn c 1)) (l.drop (pn c 1)) :: w32 (l.take (pn c 1)).length
        :: (l.take (pn c 1)).flatMap (fun e => [e.2.addr, w32 (e.2.net % 16), w32 e.1])) (fun _ u => u) :=
  runs_row nodeNextSpec
    (fun _ _ ⟨hcursor, hlo, hhi, hnet⟩ => Bool.and_eq_true_iff.mpr ⟨within_and ⟨Nat.zero_le _, hcursor, hlo, hhi⟩,
      Bool.or_eq_true_iff.mpr (hnet.imp (fun h => within_iff.mpr ⟨Nat.zero_le _, h⟩) decide_eq_true)⟩)
    (fun _ _ _ => rfl)

theorem flushByPort_runs : Runs .flushByPort 0x0715 5
    (fun c _ => pn c 0 ≤ 3 ∧ pn c 1 ≤ (if pn c 0 = 3 then 1 else 3) ∧ pn c 4 < 2)
    (fun c u => [w32 (u.fwd.nodes.filter (fun e => learnedThrough c u e.2)).length,
      w32 (u.cfg.fwd.prefixes.filter (routedThrough c u)).length])
    (fun c u => setPrefixes (u.cfg.fwd.prefixes.filter (fun e => !routedThrough c u e))
      ((u.fwd.nodes.filter (fun e => learnedThrough c u e.2)).foldl
        (fun t e => if bit (pw c 4) 0 then deleteNode e.1 e.2 t else setNode e.1 { e.2 with pathValid := false } t) u)) :=
  runs_row flushByPortSpec
    (fun _ _ ⟨htype, hport, hdelete⟩ => Bool.and_eq_true_iff.mpr
      ⟨within_and ⟨Nat.zero_le _, htype, Nat.zero_le _, hport⟩, only_one hdelete⟩)
    (fun _ _ _ => rfl)

/-! ### Home moves -/

theorem homeMove_valid {c : Packet} (hnet : pn c 0 ≤ 15) (hlen : pn c 2 ≤ 32) (htarget : pn c 3 ≤ 63)
    (hkey : homeKey (pw c 1) <<< pn c 2 = 0#128) : nodeHomeMoveSpec.valid c = true :=
  Bool.and_eq_true_iff.mpr ⟨Bool.and_eq_true_iff.mpr
    ⟨within_and ⟨Nat.zero_le _, hnet, Nat.zero_le _, hlen⟩, within_iff.mpr ⟨Nat.zero_le _, htarget⟩⟩, decide_eq_true hkey⟩

theorem nodeHomeMove_runsOn : RunsOn .nodeHomeMove 0x0720 4
    (fun c u => pn c 0 ≤ 15 ∧ pn c 2 ≤ 32 ∧ pn c 3 ≤ 63 ∧ homeKey (pw c 1) <<< pn c 2 = 0#128 ∧ minorityCheck u = none
      ∧ homeOf u (pn c 0) (pw c 1) = ownHid u ∧ (pn c 3 = ownHid u ∨ reachable u (pn c 3) = true))
    (fun c u =>
      let u1 := (movedRecs u (pn c 0) (pw c 1) (pn c 2)).foldl (fun t e => originate (.moveCopy (pn c 3) (nodeWords u e.2)) t) u
      let m : Move :=
        { net := pn c 0, pfx := pw c 1, len := pn c 2, target := pn c 3, asn := moveAsn u, queue := c.queue.val, tag := c.tag }
      { u1 with fwd := { u1.fwd with moves := u1.fwd.moves ++ [m] } }) :=
  runsOn_row nodeHomeMoveSpec (fun _ _ ⟨hnet, hlen, htarget, hkey, _⟩ => homeMove_valid hnet hlen htarget hkey)
    (fun c u ⟨_, _, _, _, _, hhome, hreach⟩ => by
      have hroute : (pn c 3 != ownHid u && !reachable u (pn c 3)) = false := by
        rcases hreach with h | h
        · rw [h, bne_self_eq_false, Bool.false_and]
        · rw [h, Bool.not_true, Bool.and_false]
      have hown : (homeOf u (pn c 0) (pw c 1) != ownHid u) = false := by rw [hhome, bne_self_eq_false]
      simp only [nodeHomeMoveSpec, plainSpec, hown, hroute]
      rfl)
    (hp := fun _ _ ⟨_, _, _, _, hheld, _⟩ => hheld)

theorem nodeHomeMove_minority : Ends .nodeHomeMove 0x0720 4
    (fun c u => pn c 0 ≤ 15 ∧ pn c 2 ≤ 32 ∧ pn c 3 ≤ 63 ∧ homeKey (pw c 1) <<< pn c 2 = 0#128 ∧ u.herd.minority = true)
    .notPermittedMinority :=
  ends_notPermitted nodeHomeMoveSpec (fun _ _ ⟨hnet, hlen, htarget, hkey, _⟩ => homeMove_valid hnet hlen htarget hkey)
    (fun _ _ ⟨_, _, _, _, hminority⟩ => minorityCheck_of_minority hminority)

/-- Settles O34: each command is a row of the table whose checks its clause excludes. -/
theorem forwardingAndNodeCommandsRun : Obligations.ForwardingAndNodeCommandsRun :=
  ⟨⟨prefixInsert_runs, prefixDelete_runs, prefixSearch_runs, prefixSearch_runs_without_entry, prefixNext_runs, fwdTenantSet_runs,
    fwdFloodSet_runs, runs_row fwdStatusSpec (fun _ _ _ => rfl) (fun _ _ _ => rfl), fwdCountersRead_runs⟩,
   ⟨nodeInsert_runs, nodeInsert_elsewhere, nodeDelete_runs, nodeRead_runs, nodeRead_unknown, nodeUpdate_runs, nodeNext_runs,
    flushByPort_runs, nodeHomeMove_runsOn, nodeHomeMove_minority⟩⟩

end Sys2Proof.Proofs
end

section
/-! Settles Obligations.PrefixSearchAndResolution: the order of the memory of prefixes, what a search finds, and what becomes of a
packet by what it finds. -/

namespace Sys2Proof.Proofs

open Sys2Proof.Machine Sys2Proof.Laws Sys2Proof.Safety

-- Proofs one after another: the threads of many at once would pass the memory that the check allows.
set_option Elab.async false

/-! ### The order of the memory of prefixes -/

theorem len_of_sameEntry {a b : PrefixEntry} (h : sameEntry a b = true) : a.len = b.len := by
  simp only [sameEntry, Bool.and_eq_true, decide_eq_true_eq] at h
  exact h.1.2

/-- An entry put in the place of those with its key fields. -/
def replaceEntry (e x : PrefixEntry) : PrefixEntry := if sameEntry e x then e else x

theorem len_replaceEntry (e x : PrefixEntry) : (replaceEntry e x).len = x.len := by
  rw [replaceEntry]
  split
  · next h => exact len_of_sameEntry h
  · rfl

theorem insertPrefix_of_same {e : PrefixEntry} {l : List PrefixEntry} (h : l.any (sameEntry e) = true) :
    insertPrefix e l = l.map (replaceEntry e) := if_pos h

theorem insertPrefix_of_new {e : PrefixEntry} {l : List PrefixEntry} (h : ¬ l.any (sameEntry e) = true) :
    insertPrefix e l = l.takeWhile (fun x => e.len ≤ x.len) ++ [e] ++ l.dropWhile (fun x => e.len ≤ x.len) := if_neg h

theorem len_le_of_mem_dropWhile {n : Nat} {l : List PrefixEntry} (h : l.Pairwise (fun a b => b.len ≤ a.len)) :
    ∀ x ∈ l.dropWhile (fun x => n ≤ x.len), x.len ≤ n := by
  induction l with
  | nil => exact fun x hx => (List.not_mem_nil hx).elim
  | cons y l ih =>
    obtain ⟨hy, hl⟩ := List.pairwise_cons.mp h
    intro x hx
    rw [List.dropWhile_cons] at hx
    split at hx
    · exact ih hl x hx
    · next hshort =>
      have hyn : y.len ≤ n := by simp only [decide_eq_true_eq] at hshort; omega
      rcases List.mem_cons.mp hx with rfl | hx
      · exact hyn
      · exact (hy x hx).trans hyn

theorem len_ge_of_mem_takeWhile {n : Nat} {l : List PrefixEntry} {x : PrefixEntry}
    (h : x ∈ l.takeWhile (fun x => n ≤ x.len)) : n ≤ x.len :=
  of_decide_eq_true (List.mem_takeWhile_imp (p := fun x : PrefixEntry => decide (n ≤ x.len)) h)

theorem pairwise_insertPrefix (e : PrefixEntry) {l : List PrefixEntry} (h : l.Pairwise (fun a b => b.len ≤ a.len)) :
    (insertPrefix e l).Pairwise (fun a b => b.len ≤ a.len) := by
  by_cases hsame : l.any (sameEntry e) = true
  · rw [insertPrefix_of_same hsame, List.pairwise_map]
    simpa only [len_replaceEntry] using h
  · rw [insertPrefix_of_new hsame, List.append_assoc, List.singleton_append]
    have hfront := h.sublist (List.takeWhile_sublist (fun x : PrefixEntry => decide (e.len ≤ x.len)))
    have hback := h.sublist (List.dropWhile_sublist (fun x : PrefixEntry => decide (e.len ≤ x.len)))
    refine List.pairwise_append.mpr ⟨hfront, List.pairwise_cons.mpr ⟨len_le_of_mem_dropWhile h, hback⟩, fun a ha b hb => ?_⟩
    have hea := len_ge_of_mem_takeWhile ha
    rcases List.mem_cons.mp hb with rfl | hb
    · exact hea
    · exact (len_le_of_mem_dropWhile h b hb).trans hea

theorem mem_insertPrefix_new {e x : PrefixEntry} {l : List PrefixEntry} (h : ¬ l.any (sameEntry e) = true) :
    x ∈ insertPrefix e l ↔ x = e ∨ x ∈ l := by
  have hsplit : x ∈ l ↔ x ∈ l.takeWhile (fun x => e.len ≤ x.len) ∨ x ∈ l.dropWhile (fun x => e.len ≤ x.len) := by
    rw [← List.mem_append, List.takeWhile_append_dropWhile]
  rw [insertPrefix_of_new h, List.append_assoc, List.singleton_append, List.mem_append, List.mem_cons, hsplit, or_left_comm]

theorem self_mem_insertPrefix (e : PrefixEntry) (l : List PrefixEntry) : e ∈ insertPrefix e l := by
  by_cases h : l.any (sameEntry e) = true
  · obtain ⟨x, hx, hsame⟩ := List.any_eq_true.mp h
    rw [insertPrefix_of_same h]
    exact List.mem_map.mpr ⟨x, hx, if_pos hsame⟩
  · exact (mem_insertPrefix_new h).mpr (.inl rfl)

theorem other_mem_insertPrefix {e x : PrefixEntry} {l : List PrefixEntry} (hx : x ∈ l) (hother : sameEntry e x = false) :
    x ∈ insertPrefix e l := by
  by_cases h : l.any (sameEntry e) = true
  · rw [insertPrefix_of_same h]
    exact List.mem_map.mpr ⟨x, hx, if_neg (by rw [hother]; exact Bool.false_ne_true)⟩
  · exact (mem_insertPrefix_new h).mpr (.inr hx)

theorem eq_of_mem_insertPrefix {e x : PrefixEntry} {l : List PrefixEntry} (hx : x ∈ insertPrefix e l) (hsame : sameEntry e x = true) :
    x = e := by
  by_cases h : l.any (sameEntry e) = true
  · rw [insertPrefix_of_same h] at hx
    obtain ⟨y, _, rfl⟩ := List.mem_map.mp hx
    rw [replaceEntry] at hsame ⊢
    split
    · rfl
    · next hy => rw [if_neg hy] at hsame; exact absurd hsame hy
  · rcases (mem_insertPrefix_new h).mp hx with rfl | hx
    · rfl
    · exact absurd (List.any_eq_true.mpr ⟨x, hx, hsame⟩) h

/-! ### Searches -/

theorem matches_iff {home : Bool} {tenant : Nat} {key : BitVec 128} {e : PrefixEntry} :
    (e.home = home && e.tenant = tenant && samePrefix e.len e.key key) = true ↔
      e.home = home ∧ e.tenant = tenant ∧ samePrefix e.len e.key key = true := by
  simp only [Bool.and_eq_true, decide_eq_true_eq, and_assoc]

theorem prefixSearch_longest {s : State} {home : Bool} {tenant : Nat} {key : BitVec 128} {e : PrefixEntry}
    (hsorted : s.cfg.fwd.prefixes.Pairwise (fun a b => b.len ≤ a.len)) (h : prefixSearch s home tenant key = some e) :
    e ∈ s.cfg.fwd.prefixes ∧ e.home = home ∧ e.tenant = tenant ∧ samePrefix e.len e.key key = true
      ∧ ∀ x ∈ s.cfg.fwd.prefixes, x.home = home → x.tenant = tenant → samePrefix x.len x.key key = true → x.len ≤ e.len := by
  obtain ⟨hmatch, front, back, hsplit, hfront⟩ := List.find?_eq_some_iff_append.mp h
  obtain ⟨hhome, htenant, hkey⟩ := matches_iff.mp hmatch
  refine ⟨List.mem_of_find?_eq_some h, hhome, htenant, hkey, fun x hx hxhome hxtenant hxkey => ?_⟩
  rw [hsplit] at hx hsorted
  rcases List.mem_append.mp hx with hx | hx
  · have hno := hfront x hx
    rw [matches_iff.mpr ⟨hxhome, hxtenant, hxkey⟩] at hno
    cases hno
  · rcases List.mem_cons.mp hx with rfl | hx
    · exact Nat.le_refl _
    · exact (List.pairwise_cons.mp (List.pairwise_append.mp hsorted).2.1).1 x hx

theorem prefixSearch_none {s : State} {home : Bool} {tenant : Nat} {key : BitVec 128} (h : prefixSearch s home tenant key = none) :
    ∀ x ∈ s.cfg.fwd.prefixes, ¬ (x.home = home ∧ x.tenant = tenant ∧ samePrefix x.len x.key key = true) :=
  fun x hx hmatch => List.find?_eq_none.mp h x hx (matches_iff.mpr hmatch)

/-! ### What becomes of a packet -/

theorem ipv6_eq_false {l : List Byte} (h : l.length < 40 ∨ byteAt l 0 / 16 ≠ 6) : ipv6 l = false := by
  rw [ipv6, Bool.and_eq_false_iff]
  exact h.imp (fun h => decide_eq_false (Nat.not_le.mpr h)) decide_eq_false

theorem ipv6_eq_true {l : List Byte} (h : ¬ (l.length < 40 ∨ byteAt l 0 / 16 ≠ 6)) : ipv6 l = true := by
  obtain ⟨hlen, hversion⟩ := not_or.mp h
  exact Bool.and_eq_true_iff.mpr ⟨decide_eq_true (Nat.not_lt.mp hlen), decide_eq_true (not_not.mp hversion)⟩

theorem resolvePacket_not_ipv6 {p : PacketIn} (h : ipv6 p.bytes = false) (s : State) : resolvePacket p s = countFwd 8 s :=
  if_pos (by rw [h]; rfl)

theorem resolvePacket_of_none {p : PacketIn} {s : State} (h : ipv6 p.bytes = true)
    (hsearch : prefixSearch s false p.tenant.toNat (ipv6Dst p.bytes) = none) :
    resolvePacket p s = raise .noRoute (countFwd 1 s) := by
  rw [resolvePacket, searchPacket, if_neg (by rw [h]; exact Bool.false_ne_true), hsearch]
  rfl

theorem resolvePacket_of_some {p : PacketIn} {s : State} {e : PrefixEntry} (h : ipv6 p.bytes = true)
    (hsearch : prefixSearch s false p.tenant.toNat (ipv6Dst p.bytes) = some e) :
    resolvePacket p s = carryOut e p (fun n t => toBackhaul n p.tenant.toNat false p.bytes t) s := by
  rw [resolvePacket, searchPacket, if_neg (by rw [h]; exact Bool.false_ne_true), hsearch]

section
variable {e : PrefixEntry} (p : PacketIn) (port : Nat → State → State) (s : State)

theorem carryOut_drop (h : e.result = 0) : carryOut e p port s = countFwd 0 s := if_pos h

theorem carryOut_node (h : e.result = 1) {a : Word} (ha : identified p.bytes = some a) :
    carryOut e p port s = toNode { p with
      net := Fin.ofNat 16 e.arg, addr := a, service := Fin.ofNat 8 (serviceOf s p.tenant.toNat e p.bytes) } s := by
  simp only [carryOut, h, ha]
  rfl

theorem carryOut_unidentified (h : e.result = 1) (ha : identified p.bytes = none) : carryOut e p port s = countFwd 2 s := by
  simp only [carryOut, h, ha]
  rfl

theorem carryOut_member (h : e.result = 2) : carryOut e p port s = crossHerd e.arg { p with home := false } s := by
  simp only [carryOut, h]
  rfl

theorem carryOut_port (h : e.result = 3) : carryOut e p port s = port e.arg s := by
  simp only [carryOut, h]
  rfl

theorem carryOut_host (h : e.result = 4) : carryOut e p port s =
    if hostQueue s p.tenant.toNat = 0 then noRoute s else pushBytes (hostQueue s p.tenant.toNat) p.bytes (coverPacket p.bytes s) := by
  simp only [carryOut, h]
  rfl

end

theorem crossHerd_third {p : PacketIn} (h : 2 ≤ p.crossings) (dst : Nat) (s : State) :
    crossHerd dst p s = raise .noRoute (countFwd 1 (countFwd 5 s)) := if_pos h

theorem crossHerd_unreachable {p : PacketIn} {dst : Nat} {s : State} (h : p.crossings < 2)
    (hdst : dst = ownHid s ∨ reachable s dst = false) : crossHerd dst p s = raise .noRoute (countFwd 1 s) := by
  rw [crossHerd, if_neg (Nat.not_le.mpr h)]
  refine if_pos (Bool.or_eq_true_iff.mpr (hdst.imp decide_eq_true fun h => ?_))
  rw [h]
  rfl

theorem resolvePacket_spec (p : PacketIn) (s : State) :
    let l := p.bytes
    let r := resolvePacket p s
    if l.length < 40 ∨ byteAt l 0 / 16 ≠ 6 then r = countFwd 8 s
    else match prefixSearch s false p.tenant.toNat (ipv6Dst l) with
      | none => r = raise .noRoute (countFwd 1 s)
      | some e =>
        (e.result = 0 → r = countFwd 0 s)
        ∧ (e.result = 1 → ∀ a, identified l = some a →
            r = toNode { p with net := Fin.ofNat 16 e.arg, addr := a, service := Fin.ofNat 8 (serviceOf s p.tenant.toNat e l) } s)
        ∧ (e.result = 1 → identified l = none → r = countFwd 2 s)
        ∧ (e.result = 2 → 2 ≤ p.crossings → r = raise .noRoute (countFwd 1 (countFwd 5 s)))
        ∧ (e.result = 2 → p.crossings < 2 → (e.arg = ownHid s ∨ reachable s e.arg = false) → r = raise .noRoute (countFwd 1 s))
        ∧ (e.result = 3 → r = toBackhaul e.arg p.tenant.toNat false l s)
        ∧ (e.result = 4 → tabGet s.cfg.fwd.hostQ p.tenant.toNat 0 = 0 → r = raise .noRoute (countFwd 1 s))
        ∧ (e.result = 4 → tabGet s.cfg.fwd.hostQ p.tenant.toNat 0 ≠ 0 →
            r = pushBytes (tabGet s.cfg.fwd.hostQ p.tenant.toNat 0) l (coverPacket l s)) := by
  intro l r
  split
  · next h => exact resolvePacket_not_ipv6 (ipv6_eq_false h) s
  · next h =>
    have hip := ipv6_eq_true h
    split
    · next hsearch => exact resolvePacket_of_none hip hsearch
    · next e hsearch =>
      rw [show r = _ from resolvePacket_of_some hip hsearch]
      exact ⟨fun h => carryOut_drop p _ s h, fun h a ha => carryOut_node p _ s h ha, fun h ha => carryOut_unidentified p _ s h ha,
        fun h hcross => (carryOut_member p _ s h).trans (crossHerd_third (p := { p with home := false }) hcross _ s),
        fun h hcross hdst => (carryOut_member p _ s h).trans (crossHerd_unreachable (p := { p with home := false }) hcross hdst),
        fun h => carryOut_port p _ s h, fun h hq => (carryOut_host p _ s h).trans (if_pos hq),
        fun h hq => (carryOut_host p _ s h).trans (if_neg hq)⟩

/-- Settles O35: an insert stands behind the entries that are as long, the first match is a longest one, and a packet goes where
the entry's RESULT says. -/
theorem prefixSearchAndResolution : Obligations.PrefixSearchAndResolution :=
  ⟨⟨fun e l h => ⟨pairwise_insertPrefix e h, self_mem_insertPrefix e l, fun _ hx hother => other_mem_insertPrefix hx hother,
      fun _ hx hsame => eq_of_mem_insertPrefix hx hsame⟩,
    fun _ _ _ _ _ hsorted h => prefixSearch_longest hsorted h, fun _ _ _ _ h => prefixSearch_none h⟩, resolvePacket_spec⟩

end Sys2Proof.Proofs
end

section
/-! Settles Obligations.ForwardingEventsAct: packets and copies from other members, the switch of a home, and a record's
write-back. -/

namespace Sys2Proof.Proofs

open Sys2Proof.Machine Sys2Proof.Laws Sys2Proof.Safety

-- Proofs one after another: the threads of many at once would pass the memory that the check allows.
set_option Elab.async false

theorem tabFind_tabSet {α : Type} (t : Tab α) (k j : Nat) (v : α) :
    tabFind (tabSet t k v) j = if j = k then some v else tabFind t j := by
  induction t with
  | nil => rfl
  | cons e r ih => grind [tabSet, tabFind]

theorem tabFind_tabDel {α : Type} (t : Tab α) (k j : Nat) : tabFind (tabDel t k) j = if j = k then none else tabFind t j := by
  induction t with
  | nil => exact (ite_self _).symm
  | cons e r ih => rw [tabDel] at ih ⊢; grind [tabFind]

theorem forwardedPacket_searched {x : PacketIn} {s : State} (hx : x.home = false) (h : s.tan.joined = false) :
    exec (.forwardedPacket x) s = .next (resolvePacket x s) := by
  change execForwardedPacket x s = _
  rw [execForwardedPacket, mirrorHerd_of_alone h]
  rw [if_neg (by rw [hx]; exact Bool.false_ne_true)]

theorem toNode_enqueues {x : PacketIn} {r : NodeRec} {s : State} (hhome : homeOf s x.net x.addr = ownHid s)
    (haddr : x.addr ≠ everyNode) (hrec : nodeOf s x.net x.addr = some r) (htenant : r.tenant = x.tenant.toNat) :
    toNode x s = enqueueNode r r.tenant x.service x.bytes s := by
  simp only [toNode, hhome, bne_self_eq_false, Bool.false_eq_true, if_false, if_neg haddr, hrec, htenant, if_true]

theorem forwardedPacket_resolved {x : PacketIn} {r : NodeRec} {s : State} (hx : x.home = true) (h : s.tan.joined = false)
    (hhome : homeOf s x.net x.addr = ownHid s) (haddr : x.addr ≠ everyNode) (hrec : nodeOf s x.net x.addr = some r)
    (htenant : r.tenant = x.tenant.toNat) :
    exec (.forwardedPacket x) s = .next (enqueueNode r r.tenant x.service x.bytes s) := by
  change execForwardedPacket x s = _
  rw [execForwardedPacket, mirrorHerd_of_alone h]
  rw [if_pos hx, toNode_enqueues hhome haddr hrec htenant]

section
variable {r : NodeRec} (tenant service : Nat) {l : List Byte} {s : State}

theorem enqueueNode_without_cell (h : nodeCells r = []) :
    enqueueNode r tenant service l s = refuseItem .refusedNoRoute (downlinkOf s r.net r.addr tenant service 0 l) s :=
  if_pos (List.isEmpty_iff.mpr h)

theorem enqueueNode_full (h : nodeCells r ≠ []) (hfull : 16 ≤ (waitingFor s r.net r.addr).length) :
    enqueueNode r tenant service l s = refuseItem .refusedCapacity (downlinkOf s r.net r.addr tenant service 0 l) s :=
  (if_neg (mt List.isEmpty_iff.mp h)).trans (if_pos hfull)

theorem enqueueNode_oversize (h : nodeCells r ≠ []) (hroom : (waitingFor s r.net r.addr).length < 16)
    (hlong : 230 < (compress s tenant r.addr l).length) :
    enqueueNode r tenant service l s = { s with fwd := { s.fwd with oversize := s.fwd.oversize + 1 } } :=
  (if_neg (mt List.isEmpty_iff.mp h)).trans ((if_neg (Nat.not_le.mpr hroom)).trans (if_pos hlong))

theorem enqueueNode_waits (h : nodeCells r ≠ []) (hroom : (waitingFor s r.net r.addr).length < 16)
    (hfits : (compress s tenant r.addr l).length ≤ 230) :
    enqueueNode r tenant service l s = waitItem (downlinkOf s r.net r.addr tenant service 0 l) s :=
  (if_neg (mt List.isEmpty_iff.mp h)).trans ((if_neg (Nat.not_le.mpr hroom)).trans (if_neg (Nat.not_lt.mpr hfits)))

end

theorem homeSwitch_leaves {x : SwitchIn} {m : Move} {s : State} (hmove : s.fwd.moves.find? (sameMove x) = some m)
    (hdone : x.outcome = .done) (h : s.tan.joined = false) (hreached : asnReached (asnAt s (now s)) m.asn = true) :
    exec (.homeSwitch x) s = .next (leaveHome m x (dropMove m s)) := by
  change execHomeSwitch x s = _
  rw [execHomeSwitch, mirrorHerd_of_alone h]
  rw [hmove, hdone]
  exact if_pos hreached

theorem homeSwitch_full {x : SwitchIn} {m : Move} {s : State} (hmove : s.fwd.moves.find? (sameMove x) = some m)
    (hfull : x.outcome = .full) (h : s.tan.joined = false) :
    exec (.homeSwitch x) s = .next (complete m.queue m.tag .refusedTableFull [] (dropMove m s)) := by
  change execHomeSwitch x s = _
  rw [execHomeSwitch, mirrorHerd_of_alone h]
  rw [hmove, hfull]

theorem homeSwitch_peerReset {x : SwitchIn} {m : Move} {s : State} (hmove : s.fwd.moves.find? (sameMove x) = some m)
    (hreset : x.outcome = .peerReset) (h : s.tan.joined = false) :
    exec (.homeSwitch x) s = .next (complete m.queue m.tag .retryPeerReset [] (dropMove m s)) := by
  change execHomeSwitch x s = _
  rw [execHomeSwitch, mirrorHerd_of_alone h]
  rw [hmove, hreset]

theorem homeSwitch_joins {x : SwitchIn} {s : State} (hmove : s.fwd.moves.find? (sameMove x) = none) (hdone : x.outcome = .done)
    (h : s.tan.joined = false) : exec (.homeSwitch x) s = .next (joinHome x s) := by
  change execHomeSwitch x s = _
  rw [execHomeSwitch, mirrorHerd_of_alone h]
  rw [hmove, hdone]

theorem dram_writeBack (i k : Nat) (f : Fwd) :
    tabFind (writeBack i f).dram k = if k = i then tabFind f.nodes i else tabFind f.dram k := by
  cases h : tabFind f.nodes i with
  | none =>
    simp only [writeBack, h]
    exact tabFind_tabDel f.dram i k
  | some r =>
    simp only [writeBack, h]
    exact tabFind_tabSet f.dram i k r

theorem nodeCacheWriteBack_writes {i : Nat} {s : State} (hdirty : i ∈ s.fwd.dirty) (hway : i < nodeLimit) :
    ∃ t, exec (.nodeCacheWriteBack i) s = .next t ∧ i ∉ t.fwd.dirty ∧ tabFind t.fwd.dram i = tabFind s.fwd.nodes i
      ∧ t.fwd.nodes = s.fwd.nodes ∧ ∀ k, k ≠ i → tabFind t.fwd.dram k = tabFind s.fwd.dram k := by
  have hdue : (i < nodeLimit && s.fwd.dirty.contains i) = true :=
    Bool.and_eq_true_iff.mpr ⟨decide_eq_true hway, List.contains_iff_mem.mpr hdirty⟩
  refine ⟨{ s with fwd := writeBack i s.fwd }, congrArg Host.Outcome.next (if_pos hdue), by simp [writeBack], ?_, rfl,
    fun k hk => ?_⟩
  · exact (dram_writeBack i i s.fwd).trans (if_pos rfl)
  · exact (dram_writeBack i k s.fwd).trans (if_neg hk)

/-- Settles O36: one lemma for each event of forwarding. -/
theorem forwardingEventsAct : Obligations.ForwardingEventsAct :=
  ⟨fun _ _ hx h => forwardedPacket_searched hx h,
   fun _ _ _ hx h hhome haddr hrec htenant => forwardedPacket_resolved hx h hhome haddr hrec htenant,
   fun _ tenant service _ _ h hroom hfits => congrArg (·.sched.wait) (enqueueNode_waits tenant service h hroom hfits),
   fun _ tenant service _ _ h => enqueueNode_without_cell tenant service h,
   fun _ tenant service _ _ h hfull => enqueueNode_full tenant service h hfull,
   fun _ tenant service _ _ h hroom hlong => enqueueNode_oversize tenant service h hroom hlong,
   fun x s h => ⟨waitFlood x.net x.addr x.tenant.toNat x.service x.frame (mirrorHerd (.flood x) s), rfl, by
    rw [mirrorHerd_of_alone h]; rfl⟩,
   fun _ _ _ hmove hdone h hreached => homeSwitch_leaves hmove hdone h hreached,
   fun _ _ _ hmove hfull h => homeSwitch_full hmove hfull h, fun _ _ _ hmove hreset h => homeSwitch_peerReset hmove hreset h,
   fun _ _ hmove hdone h => homeSwitch_joins hmove hdone h, fun _ _ hdirty hway => nodeCacheWriteBack_writes hdirty hway⟩

end Sys2Proof.Proofs
end

section
/-! Refutes Obligations.HostAttachmentActs: a host reset keeps the words that are pushed at its own instant. -/

namespace Sys2Proof.Proofs

open Sys2Proof.Machine Sys2Proof.Laws Sys2Proof.Safety

-- Proofs one after another: the threads of many at once would pass the memory that the check allows.
set_option Elab.async false

/-! ### The queues at a host reset -/

/-- The queue emptied as a reset of the host empties it. -/
def emptyOne (t : State) (q : Nat) : State := setQue t q (emptyQueue (now t) (que t q))

theorem que_emptyOne_of_ne {t : State} {q k : Nat} (h : k ≠ q) : que (emptyOne t q) k = que t k := by
  rw [emptyOne, que_setQue, if_neg h]

theorem que_foldl_emptyOne_of_not_mem {l : List Nat} {k : Nat} (h : k ∉ l) (s : State) :
    que (l.foldl emptyOne s) k = que s k := by
  induction l generalizing s with
  | nil => rfl
  | cons q l ih =>
    obtain ⟨hq, hl⟩ := not_or.mp (mt List.mem_cons.mpr h)
    exact (ih hl _).trans (que_emptyOne_of_ne hq)

theorem que_abandonAll_of_ne {k : Nat} (hk : k ≠ 32) (a : BitVec 8) (s : State) : que (abandonAll a s) k = que s k := by
  refine keeps_foldl (que · k) (fun t n => ?_) _ s
  cases h : (sem t n).holder with
  | none => simp only [abandonSem, h]
  | some b =>
    simp only [abandonSem, h, que_postEvent hk, que_raise hk]
    rfl

theorem hostQueues_eq_cons (s : State) : ∃ l, hostQueues s = 0 :: l ∧ 0 ∉ l := by
  refine ⟨(hostQueues s).tail, rfl, fun h => ?_⟩
  rcases List.mem_append.mp (show 0 ∈ (List.range 64).tail ++ _ from h) with h | h
  · exact absurd h (by decide)
  · obtain ⟨i, -, hi⟩ := List.mem_filterMap.mp h
    obtain ⟨-, heq⟩ := Option.ite_none_right_eq_some.mp hi
    exact absurd (Option.some.inj heq) (by omega)

theorem que_zero_hostResetEffect (s : State) : que (hostResetEffect s) 0 = emptyQueue (now s) (que s 0) := by
  obtain ⟨l, hl, hzero⟩ := hostQueues_eq_cons s
  rw [hostResetEffect, que_abandonAll_of_ne (by decide),
    keeps_foldl (que · 0) (fun t q => que_postEvent (by decide)) (hostQueues s), hl]
  exact (que_foldl_emptyOne_of_not_mem hzero _).trans ((que_setQue _ 0 0 _).trans (if_pos rfl))

/-! ### The counterexample -/

/-- A state in which the host has pushed a whole packet of one word into Q0 at this instant. -/
def pushedNow : State := setQue State.reset 0 { que State.reset 0 with words := [{ last := true }], pushed := 1 }

/-- Refutes O40: R51 orders the pushes of an instant behind a reset of that instant, so that the word of pushedNow stays in Q0. -/
theorem not_hostAttachmentActs : ¬ Obligations.HostAttachmentActs := by
  rintro ⟨-, -, -, -, -, -, -, -, -, hreset⟩
  obtain ⟨t, hnext, -, -, -, hempty, -⟩ := hreset .perst pushedNow
  obtain rfl := Host.Outcome.next.inj hnext
  have hwords := hempty 0 (by decide)
  rw [que_zero_hostResetEffect] at hwords
  exact absurd hwords (by decide)

end Sys2Proof.Proofs
end

section
/-! Settles Obligations.PortCommandsRun: rows of the backhaul ports, of the herd links, of the aperture and of the DMA engines. -/

namespace Sys2Proof.Proofs

open Sys2Proof.Machine Sys2Proof.Laws Sys2Proof.Safety

-- Proofs one after another: the threads of many at once would pass the memory that the check allows.
set_option Elab.async false

/-! ### Backhaul ports -/

theorem queueOrNone_iff {n : Nat} : queueOrNone n = true ↔ n = 0 ∨ (64 ≤ n ∧ n ≤ 1023) := by simp [queueOrNone]

theorem tenantOrNone_iff {n : Nat} : tenantOrNone n = true ↔ n ≤ 255 ∨ n = 65535 := by simp [tenantOrNone]

theorem within_backhaul {c : Packet} (h : pn c 0 ≤ 1) : within c 0 0 1 = true := within_iff.mpr ⟨Nat.zero_le _, h⟩

/-- The operands of BH_PORT_SET lie in the ranges that R348 gives them. -/
def PortOperands (c : Packet) : Prop :=
  pn c 0 ≤ 1 ∧ pn c 1 < 256 ∧ 1518 ≤ pn c 2 ∧ pn c 2 ≤ 9216 ∧ (pn c 3 ≤ 255 ∨ pn c 3 = 65535)
    ∧ (pn c 4 = 0 ∨ (64 ≤ pn c 4 ∧ pn c 4 ≤ 1023)) ∧ (pn c 5 = 0 ∨ (64 ≤ pn c 5 ∧ pn c 5 ≤ 1023))

theorem PortOperands.valid {c : Packet} (h : PortOperands c) : bhPortSetSpec.valid c = true := by
  obtain ⟨hport, hflags, hlo, hhi, htenant, hctrl, htx⟩ := h
  have hbits : fits c 1 8 = true := fits_iff.mpr hflags
  change (within c 0 0 1 && fits c 1 8 && within c 2 1518 9216 && tenantOrNone (pn c 3) && queueOrNone (pn c 4)
    && queueOrNone (pn c 5)) = true
  rw [within_backhaul hport, hbits, within_iff.mpr ⟨hlo, hhi⟩, tenantOrNone_iff.mpr htenant, queueOrNone_iff.mpr hctrl,
    queueOrNone_iff.mpr htx]
  rfl

/-- The settings that BH_PORT_SET gives. -/
def portSet (c : Packet) (old : BhCfg) : BhCfg :=
  { old with
    enable := bit (pw c 1) 0, bcast := bit (pw c 1) 1, diag := bit (pw c 1) 2, fec := bit (pw c 1) 3,
    polarity := (pw c 1 >>> 4).setWidth 4, maxFrame := pn c 2, untagged := (pw c 3).setWidth 16, ctrlQ := pn c 4,
    hostTxq := pn c 5 }

/-- A guarded setting may be written again while its port is enabled, and changed while it is not. -/
theorem guarded_iff {en a b : Bool} : (!en || (a && b)) = true ↔ (en = true → a = true ∧ b = true) := by
  cases en <;> simp

theorem bhPortSet_runs : Runs .bhPortSet 0x0800 6
    (fun c u => pn c 0 ≤ 1 ∧ pn c 1 < 256 ∧ 1518 ≤ pn c 2 ∧ pn c 2 ≤ 9216 ∧ (pn c 3 ≤ 255 ∨ pn c 3 = 65535)
      ∧ (pn c 4 = 0 ∨ (64 ≤ pn c 4 ∧ pn c 4 ≤ 1023)) ∧ (pn c 5 = 0 ∨ (64 ≤ pn c 5 ∧ pn c 5 ≤ 1023))
      ∧ ((bhCfg u (pn c 0)).enable = true →
        (bhCfg u (pn c 0)).fec = bit (pw c 1) 3 ∧ (bhCfg u (pn c 0)).polarity = (pw c 1 >>> 4).setWidth 4))
    (fun _ _ => [])
    (fun c u =>
      let u1 := setBhCfg u (pn c 0) (portSet c (bhCfg u (pn c 0)))
      if bit (pw c 1) 0 then u1 else setBh u1 (pn c 0) { bhRun u1 (pn c 0) with up := false }) :=
  runs_row bhPortSetSpec
    (fun _ _ ⟨hport, hflags, hlo, hhi, htenant, hctrl, htx, _⟩ =>
      PortOperands.valid ⟨hport, hflags, hlo, hhi, htenant, hctrl, htx⟩)
    (fun _ _ _ => rfl)
    (hr := fun _ _ ⟨_, _, _, _, _, _, _, hkeep⟩ => guarded_iff.mpr fun henable =>
      (hkeep henable).imp decide_eq_true decide_eq_true)

theorem bhPortSet_while_enabled : Ends .bhPortSet 0x0800 6
    (fun c u => pn c 0 ≤ 1 ∧ pn c 1 < 256 ∧ 1518 ≤ pn c 2 ∧ pn c 2 ≤ 9216 ∧ (pn c 3 ≤ 255 ∨ pn c 3 = 65535)
      ∧ (pn c 4 = 0 ∨ (64 ≤ pn c 4 ∧ pn c 4 ≤ 1023)) ∧ (pn c 5 = 0 ∨ (64 ≤ pn c 5 ∧ pn c 5 ≤ 1023))
      ∧ (bhCfg u (pn c 0)).enable = true ∧ (bhCfg u (pn c 0)).fec ≠ bit (pw c 1) 3) .invalidState :=
  ends_notReady bhPortSetSpec
    (fun _ _ ⟨hport, hflags, hlo, hhi, htenant, hctrl, htx, _, _⟩ =>
      PortOperands.valid ⟨hport, hflags, hlo, hhi, htenant, hctrl, htx⟩)
    (fun _ _ ⟨_, _, _, _, _, _, _, henable, hfec⟩ => Bool.eq_false_of_not_eq_true fun h =>
      hfec (of_decide_eq_true (guarded_iff.mp h henable).1))

theorem bhFilterSet_runs : Runs .bhFilterSet 0x0801 5
    (fun c _ => pn c 0 ≤ 1 ∧ pn c 1 ≤ 15 ∧ pn c 3 < 65536 ∧ pn c 4 < 2 ∧ (p64 c 2).setWidth 48 ≠ 0xFFFFFFFFFFFF#48) (fun _ _ => [])
    (fun c u =>
      let l := if pn c 4 = 1 then tabSet (bhCfg u (pn c 0)).filters (pn c 1) ((p64 c 2).setWidth 48)
        else tabDel (bhCfg u (pn c 0)).filters (pn c 1)
      setBhCfg u (pn c 0) { bhCfg u (pn c 0) with filters := l }) :=
  runs_row bhFilterSetSpec
    (fun c _ ⟨hport, hfilter, haddr, hset, hbroadcast⟩ => by
      have hword : fits c 3 16 = true := fits_iff.mpr haddr
      have hmac : (macOf c 2 != BitVec.allOnes 48) = true := bne_iff_ne.mpr hbroadcast
      change (within c 0 0 1 && within c 1 0 15 && fits c 3 16 && only c 4 1 && (macOf c 2 != BitVec.allOnes 48)) = true
      rw [within_backhaul hport, within_iff.mpr ⟨Nat.zero_le _, hfilter⟩, hword, only_one hset, hmac]
      rfl)
    (fun c u ⟨_, _, _, hset, _⟩ => by
      simp only [bhFilterSetSpec, plainSpec, bit_zero_eq hset, decide_eq_true_eq]
      rfl)

theorem bhVlanSet_runs : Runs .bhVlanSet 0x0802 3
    (fun c _ => pn c 0 ≤ 1 ∧ 1 ≤ pn c 1 ∧ pn c 1 ≤ 4094 ∧ (pn c 2 ≤ 255 ∨ pn c 2 = 65535)) (fun _ _ => [])
    (fun c u =>
      let l := if pn c 2 = 65535 then tabDel (bhCfg u (pn c 0)).vlan (pn c 1) else tabSet (bhCfg u (pn c 0)).vlan (pn c 1) (pn c 2)
      setBhCfg u (pn c 0) { bhCfg u (pn c 0) with vlan := l }) :=
  runs_row bhVlanSetSpec
    (fun _ _ ⟨hport, hlo, hhi, htenant⟩ => Bool.and_eq_true_iff.mpr
      ⟨within_and ⟨Nat.zero_le _, hport, hlo, hhi⟩, tenantOrNone_iff.mpr htenant⟩)
    (fun _ _ _ => rfl)

theorem bhEgressSet_runs : Runs .bhEgressSet 0x0803 7
    (fun c _ => pn c 0 ≤ 1 ∧ pn c 1 ≤ 255 ∧ pn c 3 < 65536 ∧ pn c 5 < 65536 ∧ pn c 6 < 131072) (fun _ _ => [])
    (fun c u =>
      let e : Egress := { dst := (p64 c 2).setWidth 48, src := (p64 c 4).setWidth 48, vid := (pw c 6).setWidth 12,
                          pcp := (pw c 6 >>> 12).setWidth 3, tagged := bit (pw c 6) 15 }
      let l := if bit (pw c 6) 16 then tabSet (bhCfg u (pn c 0)).egress (pn c 1) e else tabDel (bhCfg u (pn c 0)).egress (pn c 1)
      setBhCfg u (pn c 0) { bhCfg u (pn c 0) with egress := l }) :=
  runs_row bhEgressSetSpec
    (fun c _ ⟨hport, hentry, hdst, hsrc, htag⟩ => by
      have hwords : fits c 3 16 = true ∧ fits c 5 16 = true ∧ fits c 6 17 = true :=
        ⟨fits_iff.mpr hdst, fits_iff.mpr hsrc, fits_iff.mpr htag⟩
      change (within c 0 0 1 && within c 1 0 255 && fits c 3 16 && fits c 5 16 && fits c 6 17) = true
      rw [within_backhaul hport, within_iff.mpr ⟨Nat.zero_le _, hentry⟩, hwords.1, hwords.2.1, hwords.2.2]
      rfl)
    (fun _ _ _ => rfl)

theorem bhStatus_runs : Runs .bhStatus 0x0804 1 (fun c _ => pn c 0 ≤ 1)
    (fun c u => [w32 (flag (bhRun u (pn c 0)).up + 2 * flag (bhCfg u (pn c 0)).fec), w32 (bhCfg u (pn c 0)).maxFrame,
      w32 (que u (64 + pn c 0)).words.length,
      w32 (if (bhCfg u (pn c 0)).hostTxq = 0 then 0 else (que u (bhCfg u (pn c 0)).hostTxq).words.length)]) (fun _ u => u) :=
  runs_row bhStatusSpec (fun _ _ h => within_backhaul h) (fun c u _ => by
    have hegress : depthOf u (64 + pn c 0) = (que u (64 + pn c 0)).words.length := if_neg (by omega)
    simp only [bhStatusSpec, plainSpec, hegress]
    rfl)

theorem bhCountersRead_runs : Runs .bhCountersRead 0x0805 2 (fun c _ => pn c 0 ≤ 1 ∧ pn c 1 < 2)
    (fun c u => (bhRun u (pn c 0)).counters.map w32)
    (fun c u => if pn c 1 = 1 then setBh u (pn c 0) { bhRun u (pn c 0) with counters := List.replicate 16 0 } else u) :=
  runs_row bhCountersReadSpec (fun _ _ ⟨hport, hclear⟩ => Bool.and_eq_true_iff.mpr ⟨within_backhaul hport, only_one hclear⟩)
    (fun c u ⟨_, hclear⟩ => by
      simp only [bhCountersReadSpec, plainSpec, bit_zero_eq hclear, decide_eq_true_eq]
      rfl)

/-! ### Herd links -/

theorem herdLinkSet_runs : Runs .herdLinkSet 0x0820 2
    (fun c u => pn c 0 ≤ 3 ∧ pn c 1 < 64 ∧ ((linkCfg u (pn c 0)).enable = true →
      (linkCfg u (pn c 0)).polarity = (pw c 1 >>> 1).setWidth 4 ∧ (linkCfg u (pn c 0)).reversal = bit (pw c 1) 5))
    (fun _ _ => [])
    (fun c u =>
      let v : HerdLinkCfg := { enable := bit (pw c 1) 0, polarity := (pw c 1 >>> 1).setWidth 4, reversal := bit (pw c 1) 5 }
      let u1 := setHerdCfg u { u.cfg.herd with links := tabSet u.cfg.herd.links (pn c 0) v }
      if bit (pw c 1) 0 ∨ (hlink u (pn c 0)).up = false then u1 else dropLink (pn c 0) u1) :=
  runs_row herdLinkSetSpec
    (fun _ _ ⟨hlink, hflags, _⟩ => Bool.and_eq_true_iff.mpr ⟨within_plain hlink, fits_iff.mpr hflags⟩)
    (fun c u _ => by
      have hcond : ((linkSet c).enable || !(hlink u (pn c 0)).up) = true ↔ bit (pw c 1) 0 = true ∨ (hlink u (pn c 0)).up = false := by
        rw [Bool.or_eq_true, Bool.not_eq_true']
        rfl
      exact congrArg done (if_congr hcond rfl rfl))
    (hr := fun _ _ ⟨_, _, hkeep⟩ => guarded_iff.mpr fun henable => (hkeep henable).imp decide_eq_true decide_eq_true)

theorem herdRouteSet_runs : Runs .herdRouteSet 0x0821 2 (fun c _ => pn c 0 ≤ 63 ∧ pn c 1 < 256 ∧ pf c 1 7 6 ≠ 3) (fun _ _ => [])
    (fun c u => checkChain (refreshPresence (setHerdCfg u { u.cfg.herd with
      routes := tabSet u.cfg.herd.routes (pn c 0) (routeSet c) }))) :=
  runs_row herdRouteSetSpec
    (fun c _ ⟨hhid, hflags, hrule⟩ => Bool.and_eq_true_iff.mpr ⟨Bool.and_eq_true_iff.mpr
      ⟨within_iff.mpr ⟨Nat.zero_le _, hhid⟩, fits_iff.mpr hflags⟩, bne_iff_ne.mpr hrule⟩)
    (fun _ _ _ => rfl)

theorem herdCountersRead_runs : Runs .herdCountersRead 0x0823 2 (fun c _ => pn c 0 ≤ 3 ∧ pn c 1 < 2)
    (fun c u => (hlink u (pn c 0)).counters.map w32)
    (fun c u => if pn c 1 = 1 then setHlink u (pn c 0) { hlink u (pn c 0) with counters := List.replicate 10 0 } else u) :=
  runs_row herdCountersReadSpec (fun _ _ ⟨hlink, hclear⟩ => Bool.and_eq_true_iff.mpr ⟨within_plain hlink, only_one hclear⟩)
    (fun c u ⟨_, hclear⟩ => by
      simp only [herdCountersReadSpec, plainSpec, bit_zero_eq hclear, decide_eq_true_eq]
      rfl)

/-! ### Aperture and DMA engines -/

theorem ringSize_ok {n : Nat} (h : ∃ k, 4 ≤ k ∧ k ≤ 16 ∧ n = 2 ^ k) : (List.range 13).any (fun k => n = 2 ^ (k + 4)) = true := by
  obtain ⟨k, hlo, hhi, rfl⟩ := h
  refine List.any_eq_true.mpr ⟨k - 4, List.mem_range.mpr (by omega), decide_eq_true ?_⟩
  rw [Nat.sub_add_cancel hlo]

theorem dmaEngineSet_runs : Runs .dmaEngineSet 0x0841 9
    (fun c u => pn c 0 ≤ 15 ∧ pn c 1 < 2 ∧ pn c 2 ≤ 1023 ∧ (p64 c 3).toNat % 16 = 0 ∧ (∃ k, 4 ≤ k ∧ k ≤ 16 ∧ pn c 5 = 2 ^ k)
      ∧ pn c 6 < 64 ∧ 1 ≤ pn c 7 ∧ pn c 7 ≤ 1000 ∧ pn c 8 ≤ 1000 ∧ (engine u (pn c 0)).running = false
      ∧ bindable u (pn c 0) (bit (pw c 1) 0) (pn c 2) = true) (fun _ _ => [])
    (fun c u => setEngine u (pn c 0) (engineOf c (engine u (pn c 0)))) :=
  runs_row dmaEngineSetSpec
    (fun c _ ⟨hengine, hdir, hqueue, hring, hsize, hvector, hpoll, hpoll', hholdoff, _, _⟩ => by
      have hbits : fits c 1 1 = true ∧ fits c 6 6 = true := ⟨fits_iff.mpr hdir, fits_iff.mpr hvector⟩
      change (within c 0 0 15 && fits c 1 1 && within c 2 0 1023 && decide ((p64 c 3).toNat % 16 = 0)
        && (List.range 13).any (fun k => pn c 5 = 2 ^ (k + 4)) && fits c 6 6 && within c 7 1 1000 && within c 8 0 1000) = true
      rw [within_net hengine, hbits.1, within_iff.mpr ⟨Nat.zero_le _, hqueue⟩, decide_eq_true hring, ringSize_ok hsize, hbits.2,
        within_iff.mpr ⟨hpoll, hpoll'⟩, within_iff.mpr ⟨Nat.zero_le _, hholdoff⟩]
      rfl)
    (fun _ _ _ => rfl)
    (hr := fun c u ⟨_, _, _, _, _, _, _, _, _, hidle, hbind⟩ => by
      change (!(engine u (pn c 0)).running && bindable u (pn c 0) (bit (pw c 1) 0) (pn c 2)) = true
      rw [hidle, hbind]
      rfl)

theorem bindable_d2h (u : State) (e q : Nat) :
    bindable u e true q = true ↔ (que u q).consumer = 0b01#2 ∧ (que u q).dmaEngine.toNat = e := by
  simp [bindable]

theorem dmaEngineStop_runs : Runs .dmaEngineStop 0x0842 1 (fun c _ => pn c 0 ≤ 15) (fun c u => [w32 (engine u (pn c 0)).index])
    (fun c u => setEngine u (pn c 0) { engine u (pn c 0) with running := false, bells := 0 }) :=
  runs_row dmaEngineStopSpec (fun _ _ h => within_net h) (fun _ _ _ => rfl)

/-- Settles O37: each command is a row of the table whose checks its clause excludes. -/
theorem portCommandsRun : Obligations.PortCommandsRun :=
  ⟨⟨bhPortSet_runs, bhPortSet_while_enabled, bhFilterSet_runs, bhVlanSet_runs, bhEgressSet_runs, bhStatus_runs,
    bhCountersRead_runs⟩,
   ⟨herdLinkSet_runs, herdRouteSet_runs, runs_row herdLinkStatusSpec (fun _ _ h => within_plain h) (fun _ _ _ => rfl),
    herdCountersRead_runs,
    runs_row apertureSetSpec
      (fun _ _ ⟨haligned, hsize⟩ => Bool.and_eq_true_iff.mpr ⟨decide_eq_true haligned, decide_eq_true hsize⟩) (fun _ _ _ => rfl),
    dmaEngineSet_runs, bindable_d2h, dmaEngineStop_runs,
    runs_row dmaStatusSpec (fun _ _ h => within_net h) (fun _ _ _ => rfl),
    runs_row pcieStatusSpec (fun _ _ _ => rfl) (fun _ _ _ => rfl)⟩⟩

end Sys2Proof.Proofs
end

section
/-! Settles Obligations.FramesAreJudgedInOrder: the steps by which a backhaul port judges a received frame. -/

namespace Sys2Proof.Proofs

open Sys2Proof.Machine Sys2Proof.Laws Sys2Proof.Safety

-- Proofs one after another: the threads of many at once would pass the memory that the check allows.
set_option Elab.async false

theorem bhFrameReceived_of_alone {s : State} (h : s.tan.joined = false) (p : Fin 2) (f : EthIn) :
    exec (.bhFrameReceived p f) s = .next (receiveFrame p f s) := by
  have hmirror : mirrorFrame p f s = s := by
    rw [mirrorFrame, mirrorOut_of_alone h, ite_self]
  change execBhFrameReceived p f s = _
  rw [execBhFrameReceived, nonHolder_of_alone h, hmirror]
  rfl

theorem filterMatches_iff {v : BhCfg} {a : BitVec 48} :
    filterMatches v a = true ↔ (∃ e ∈ v.filters, e.2 = a) ∨ (v.bcast = true ∧ a = 0xFFFFFFFFFFFF#48) := by
  rw [filterMatches, Bool.or_eq_true, List.any_eq_true, Bool.and_eq_true, decide_eq_true_eq]
  simp only [decide_eq_true_eq]
  rfl

/-- What R323 makes of a frame with a tenant. -/
theorem classifyFrame_eq (p : Fin 2) (t : Nat) (v : BhCfg) (f : EthIn) (u : State) :
    classifyFrame p t v f u =
      if etherType f.bytes = 0x88F7 ∨ ptpUdp f.bytes = true then
        takePtp p (f.tRx - BitVec.ofNat 64 v.tsRx) f.bytes (countBh 8 p u)
      else if etherType f.bytes = 0x86DD ∧ controlDst (etherPayload f.bytes) = false then
        resolvePacket (packetOf t (ipv6Trim (etherPayload f.bytes))) (countBh 7 p u)
      else if v.ctrlQ = 0 then countBh 10 p u
      else pushBytes v.ctrlQ (frameRecord 0x0801 p v false f) (countBh 9 p u) := by
  simp only [classifyFrame, toControl, Bool.or_eq_true, Bool.and_eq_true, decide_eq_true_eq, Bool.not_eq_true']

theorem bhTrouble_of_port (f : Fin 2 → TrbBit) (p : Fin 2) (s : State) : bhTrouble f p s = raise (f p) s := by
  rw [bhTrouble, Fin.ofNat_val_eq_self]

theorem fcsOk_eq_false_iff {f : EthIn} : (!fcsOk f) = true ↔ crc32 f.bytes ≠ f.fcs := by
  rw [fcsOk, Bool.not_eq_true', decide_eq_false_iff_not]

/-- The steps of R319. -/
theorem judgeFrame_eq (p : Fin 2) (v : BhCfg) (f : EthIn) (s : State) :
    judgeFrame p v f s =
      if f.bytes.length + 4 < 64 then countBh 1 p (countBh 0 p s)
      else if ¬ ((∃ e ∈ v.filters, e.2 = dstMac f.bytes) ∨ (v.bcast = true ∧ dstMac f.bytes = 0xFFFFFFFFFFFF#48)) then
        countBh 2 p (countBh 0 p s)
      else if crc32 f.bytes ≠ f.fcs then raise (.bhFcs p) (countBh 3 p (countBh 0 p s))
      else if v.maxFrame < f.bytes.length + 4 then
        (if v.diag then pushBytes 33 (frameRecord 0x0802 p v true f) (raise (.bhTrunc p) (countBh 4 p (countBh 0 p s)))
        else raise (.bhTrunc p) (countBh 4 p (countBh 0 p s)))
      else if etherType f.bytes = 0x8808 then countBh 5 p (countBh 0 p s)
      else (tenantOf v f.bytes).elim (countBh 6 p (countBh 0 p s)) (fun t => classifyFrame p t v f (countBh 0 p s)) := by
  have hfilter : (!filterMatches v (dstMac f.bytes)) = true ↔
      ¬ ((∃ e ∈ v.filters, e.2 = dstMac f.bytes) ∨ (v.bcast = true ∧ dstMac f.bytes = 0xFFFFFFFFFFFF#48)) := by
    rw [Bool.not_eq_true', ← Bool.not_eq_true, filterMatches_iff]
  simp only [judgeFrame, hfilter, fcsOk_eq_false_iff, truncated, bhTrouble_of_port]
  cases tenantOf v f.bytes <;> rfl

/-- Settles O38: the branches of the judgement, one behind the other. -/
theorem framesAreJudgedInOrder : Obligations.FramesAreJudgedInOrder := by
  intro p f s h v u
  rw [bhFrameReceived_of_alone h, receiveFrame]
  by_cases hoff : v.enable = false
  · rw [if_pos hoff, if_neg (show ¬ (bhCfg s p).enable = true from Bool.not_eq_true _ ▸ hoff)]
  rw [if_neg hoff, if_pos (show (bhCfg s p).enable = true from Bool.of_not_eq_false hoff), judgeFrame_eq]
  by_cases hrunt : f.bytes.length + 4 < 64
  · rw [if_pos hrunt, if_pos hrunt]
  rw [if_neg hrunt, if_neg hrunt]
  by_cases hfilter : (∃ e ∈ v.filters, e.2 = dstMac f.bytes) ∨ (v.bcast = true ∧ dstMac f.bytes = 0xFFFFFFFFFFFF#48)
  · rw [if_neg (not_not.mpr hfilter), if_neg (not_not.mpr hfilter)]
    by_cases hfcs : crc32 f.bytes = f.fcs
    · rw [if_neg (not_not.mpr hfcs), if_neg (not_not.mpr hfcs)]
      by_cases hlong : v.maxFrame < f.bytes.length + 4
      · rw [if_pos hlong, if_pos hlong]
      rw [if_neg hlong, if_neg hlong]
      by_cases hpause : etherType f.bytes = 0x8808
      · rw [if_pos hpause, if_pos hpause]
      rw [if_neg hpause, if_neg hpause]
      cases htenant : tenantOf v f.bytes with
      | none => rfl
      | some t =>
        dsimp only [Option.elim_some]
        rw [classifyFrame_eq]
        by_cases hptp : etherType f.bytes = 0x88F7 ∨ ptpUdp f.bytes = true
        · rw [if_pos hptp, if_pos hptp]
        rw [if_neg hptp, if_neg hptp]
        by_cases hip : etherType f.bytes = 0x86DD ∧ controlDst (etherPayload f.bytes) = false
        · rw [if_pos hip, if_pos hip]
        rw [if_neg hip, if_neg hip]
        by_cases hnone : v.ctrlQ = 0
        · rw [if_pos hnone, if_pos hnone]
        · rw [if_neg hnone, if_neg hnone]
    · rw [if_pos hfcs, if_pos hfcs]
  · rw [if_pos hfilter, if_pos hfilter]

end Sys2Proof.Proofs
end

section
/-! Settles Obligations.BackhaulAndLinkEventsAct: frames and links of the backhaul ports, and what happens on a herd link. -/

namespace Sys2Proof.Proofs

open Sys2Proof.Machine Sys2Proof.Laws Sys2Proof.Safety

-- Proofs one after another: the threads of many at once would pass the memory that the check allows.
set_option Elab.async false

/-! ### Frames that a backhaul port sends -/

theorem servePort_of_turn {p q : Nat} {b : List Byte} {s : State} (send : List Byte → State → State)
    (henable : (bhCfg s p).enable = true) (hup : (bhRun s p).up = true) (hturn : portTurn s p = some q)
    (hpacket : portPacket s q = some b) : servePort p q send s = send b (servedHead p q s) := by
  rw [servePort, if_pos (by rw [bhReady, henable, hup, decide_eq_true hturn]; rfl), hpacket]

theorem sendEgress_sends {p : Nat} {b : List Byte} {e : Egress} {s : State} (hentry : tabFind (bhCfg s p).egress (byteAt b 0) = some e)
    (hfits : (egressFrame (bhCfg s p) e (byteAt b 1 != 0) (b.drop 8)).length + 4 ≤ (bhCfg s p).maxFrame) :
    sendEgress p b s = sendBh p (egressFrame (bhCfg s p) e (byteAt b 1 != 0) (b.drop 8)) (countBh 11 p s) := by
  rw [sendEgress, hentry]
  exact if_neg (Nat.not_lt.mpr hfits)

theorem bhFrameTransmit_sends {p : Fin 2} {b : List Byte} {e : Egress} {s : State} (henable : (bhCfg s p).enable = true)
    (hup : (bhRun s p).up = true) (hturn : portTurn s p = some (64 + p.val)) (hpacket : portPacket s (64 + p.val) = some b)
    (hentry : tabFind (bhCfg s p).egress (byteAt b 0) = some e)
    (hfits : (egressFrame (bhCfg s p) e (byteAt b 1 != 0) (b.drop 8)).length + 4 ≤ (bhCfg s p).maxFrame) :
    exec (.bhFrameTransmit p) s = .next (sendBh p (egressFrame (bhCfg s p) e (byteAt b 1 != 0) (b.drop 8))
      (countBh 11 p (servedHead p (64 + p.val) s))) :=
  congrArg Host.Outcome.next ((servePort_of_turn _ henable hup hturn hpacket).trans
    (sendEgress_sends (s := servedHead p (64 + p.val) s) hentry hfits))

theorem padFrame_of_long {l : List Byte} (h : 60 ≤ l.length) : padFrame l = l := by
  rw [padFrame, Nat.sub_eq_zero_of_le h, List.replicate_zero, List.append_nil]

theorem beBytes_length (n v : Nat) : (beBytes n v).length = n := by simp [beBytes, leBytes]

theorem egressFrame_untagged (v : BhCfg) {e : Egress} {l : List Byte} (htag : e.tagged = false) (hlen : 46 ≤ l.length) :
    egressFrame v e false l = beBytes 6 e.dst.toNat ++ beBytes 6 e.src.toNat ++ [0x86#8, 0xDD#8] ++ l := by
  have htags : egressTag v e false = [] := by rw [egressTag, htag]; rfl
  rw [egressFrame, htags, List.append_nil]
  refine padFrame_of_long ?_
  simp only [List.length_append, beBytes_length, List.length_cons, List.length_nil]
  omega

theorem hostTxFrame_sends {p : Fin 2} {b : List Byte} {s : State} (henable : (bhCfg s p).enable = true)
    (hup : (bhRun s p).up = true) (hqueue : (bhCfg s p).hostTxq ≠ 0) (hother : (bhCfg s p).hostTxq ≠ 64 + p.val)
    (hturn : portTurn s p = some (bhCfg s p).hostTxq) (hpacket : portPacket s (bhCfg s p).hostTxq = some b)
    (hshort : 14 ≤ b.length) (hlong : b.length ≤ (bhCfg s p).maxFrame - 4) :
    exec (.hostTxFrame p) s =
      .next (sendBh p (b ++ List.replicate (60 - b.length) 0#8) (countBh 14 p (servedHead p (bhCfg s p).hostTxq s))) := by
  have hown : ((bhCfg s p).hostTxq = 0 || (bhCfg s p).hostTxq = 64 + p.val) = false := by
    rw [decide_eq_false hqueue, decide_eq_false hother]
    rfl
  have hsize : ¬ (b.length < 14 || (bhCfg s p).maxFrame - 4 < b.length) = true := by
    rw [decide_eq_false (Nat.not_lt.mpr hshort), decide_eq_false (Nat.not_lt.mpr hlong)]
    exact Bool.false_ne_true
  refine congrArg Host.Outcome.next ((if_neg (by rw [hown]; exact Bool.false_ne_true)).trans ?_)
  exact (servePort_of_turn _ henable hup hturn hpacket).trans (if_neg hsize)

/-! ### Changes of a herd link -/

theorem execHerdLinkUp_duplicate {l : Fin 4} {h : Fin 64} (e : Word) {s : State} (hbarred : linkBarred s l = false)
    (hdown : (hlink s l).up = false) (hgood : 64 ≤ (hlink s l).good) (hown : h.val = ownHid s) (htandem : tandemLink s l = false) :
    exec (.herdLinkUp l h e) s = .next (postEvent 0x0820 l 1#32 (raise (.herdDown l)
      (setHlink s l { hlink s l with neighbour := some h, nEpoch := e }))) := by
  refine congrArg Host.Outcome.next ((if_neg ?_).trans ((if_pos ?_).trans ?_))
  · rw [hbarred, hdown, decide_eq_false (Nat.not_lt.mpr hgood)]
    exact Bool.false_ne_true
  · rw [decide_eq_true hown, htandem]
    rfl
  · rw [duplicateId, Fin.ofNat_val_eq_self]

theorem noteEpoch_known {h : Nat} {e : Word} {s : State} (hknown : (peerOf s h).epoch = some e) : noteEpoch h e s = (true, s) := by
  rw [noteEpoch, hknown]
  dsimp only
  rw [BitVec.sub_self, if_neg (by decide), if_pos rfl]

theorem noteEpoch_older {h : Nat} {e known : Word} {s : State} (hknown : (peerOf s h).epoch = some known)
    (holder : (e - known).toInt < 0) : noteEpoch h e s = (false, s) := by
  rw [noteEpoch, hknown]
  exact if_pos holder

theorem execHerdLinkUp_raises {l : Fin 4} {h : Fin 64} {e : Word} {s : State} (hbarred : linkBarred s l = false)
    (hdown : (hlink s l).up = false) (hgood : 64 ≤ (hlink s l).good) (hother : h.val ≠ ownHid s)
    (hknown : (peerOf s h).epoch = some e) :
    exec (.herdLinkUp l h e) s = .next (refreshPresence (postEvent 0x0821 l (w32 h)
      (setHlink s l { hlink s l with up := true, neighbour := some h, nEpoch := e }))) := by
  refine congrArg Host.Outcome.next ((if_neg ?_).trans ((if_neg ?_).trans ?_))
  · rw [hbarred, hdown, decide_eq_false (Nat.not_lt.mpr hgood)]
    exact Bool.false_ne_true
  · rw [decide_eq_false hother]
    exact Bool.false_ne_true
  · rw [raiseLink, if_neg hother, noteEpoch_known hknown]
    exact if_pos rfl

theorem herdLinkDown_fails {l : Fin 4} {s : State} (hup : (hlink s l).up = true) :
    exec (.herdLinkDown l) s = .next (dropLink l (postEvent 0x0820 l 0#32 (raise (.herdDown l) (countHerd 5 l s)))) := by
  refine congrArg Host.Outcome.next ((if_pos hup).trans ?_)
  rw [failLink, Fin.ofNat_val_eq_self]

/-! ### Flits received -/

section
variable {l : Fin 4} {x : FlitIn} {s : State}

theorem crc_good (h : x.words.getD 63 0#32 = crc32 (bytesOfWords x.words 252)) : (flitOf x).crc = .good := if_pos h

theorem crc_stomped (h : x.words.getD 63 0#32 ≠ crc32 (bytesOfWords x.words 252))
    (hinverse : x.words.getD 63 0#32 = ~~~ crc32 (bytesOfWords x.words 252)) : (flitOf x).crc = .stomped :=
  (if_neg h).trans (if_pos hinverse)

theorem crc_bad (h : x.words.getD 63 0#32 ≠ crc32 (bytesOfWords x.words 252))
    (hinverse : x.words.getD 63 0#32 ≠ ~~~ crc32 (bytesOfWords x.words 252)) : (flitOf x).crc = .bad :=
  (if_neg h).trans (if_neg hinverse)

theorem herdFlitReceived_stomped (hup : (hlink s l).up = true) (h : (flitOf x).crc = .stomped) :
    exec (.herdFlitReceived l x) s = .next (countHerd 3 l s) := by
  change execHerdFlitReceived l x s = _
  simp only [execHerdFlitReceived, hup, h, Bool.not_true, Bool.false_eq_true, if_false]

theorem herdFlitReceived_bad (hup : (hlink s l).up = true) (h : (flitOf x).crc = .bad) :
    exec (.herdFlitReceived l x) s = .next (oweNak l (stompCopy l (flitOf x) (countHerd 2 l s))) := by
  change execHerdFlitReceived l x s = _
  simp only [execHerdFlitReceived, hup, h, Bool.not_true, Bool.false_eq_true, if_false]
  rfl

theorem herdFlitReceived_good (hup : (hlink s l).up = true) (h : (flitOf x).crc = .good) :
    exec (.herdFlitReceived l x) s = .next (goodFlit l (flitOf x) s) := by
  change execHerdFlitReceived l x s = _
  simp only [execHerdFlitReceived, hup, h, Bool.not_true, Bool.false_eq_true, if_false]

theorem goodFlit_out_of_order {f : Flit} (htype : f.typ ≠ 0#8) (hup : (hlink (takeLinkWord l f s) l).up = true)
    (hseq : f.seq.toNat ≠ (hlink (takeLinkWord l f s) l).rxSeq) : goodFlit l f s = oweNak l (takeLinkWord l f s) := by
  simp only [goodFlit, hup, Bool.not_true, Bool.false_eq_true, if_false, if_neg htype, if_neg hseq]

theorem goodFlit_in_order {f : Flit} (htype : f.typ ≠ 0#8) (hup : (hlink (takeLinkWord l f s) l).up = true)
    (hseq : f.seq.toNat = (hlink (takeLinkWord l f s) l).rxSeq) : goodFlit l f s = acceptFlit l f (takeLinkWord l f s) := by
  simp only [goodFlit, hup, Bool.not_true, Bool.false_eq_true, if_false, if_neg htype, if_pos hseq]

theorem crc_eq_good_iff : (flitOf x).crc = .good ↔ x.words.getD 63 0#32 = crc32 (bytesOfWords x.words 252) := by
  refine ⟨fun h => ?_, crc_good⟩
  by_contra hne
  by_cases hinverse : x.words.getD 63 0#32 = ~~~ crc32 (bytesOfWords x.words 252)
  · cases h.symm.trans (crc_stomped hne hinverse)
  · cases h.symm.trans (crc_bad hne hinverse)

theorem herdFlitReceived_trains (hdown : (hlink s l).up = false) (hbarred : linkBarred s l = false) :
    exec (.herdFlitReceived l x) s = .next (setHlink s l { hlink s l with
      good := if x.words.getD 63 0#32 = crc32 (bytesOfWords x.words 252) then min 64 ((hlink s l).good + 1) else 0 }) := by
  change execHerdFlitReceived l x s = _
  simp only [execHerdFlitReceived, hdown, trainLink, hbarred, crc_eq_good_iff, Bool.not_false, Bool.false_eq_true, if_true, if_false]

end

/-! ### A peer's reset sets its bit -/

/-- No trouble bit of s is cleared in t. -/
def NoneCleared (s t : State) : Prop := ∀ c, trouble s c = true → trouble t c = true

theorem NoneCleared.trans {s t u : State} (h : NoneCleared s t) (k : NoneCleared t u) : NoneCleared s u :=
  fun c hc => k c (h c hc)

theorem noneCleared_of_trb {s t : State} (h : t.trb = s.trb) : NoneCleared s t := fun c hc => by
  rw [trouble, trbWord] at hc ⊢
  rwa [h]

theorem NoneCleared.after_trb {s t u : State} (h : NoneCleared t u) (htrb : t.trb = s.trb) : NoneCleared s u :=
  (noneCleared_of_trb htrb).trans h

theorem noneCleared_of_reported {l : List Nat} {s t : State} (h : Reported l s t) : NoneCleared s t := h.2.2.2

theorem noneCleared_foldl {α : Type} {f : State → α → State} (hf : ∀ t x, NoneCleared t (f t x)) (l : List α) (s : State) :
    NoneCleared s (l.foldl f s) := by
  induction l generalizing s with
  | nil => exact fun _ h => h
  | cons x l ih => exact (hf s x).trans (ih _)

theorem noneCleared_sendReply (e : InFlight) (st : Status) (r : List Word) (s : State) : NoneCleared s (sendReply e st r s) := by
  obtain ⟨-, -, -, -, -, -, h⟩ := sendReply_replied e st r s
  exact h

theorem noneCleared_complete (q : Nat) (tag : BitVec 16) (st : Status) (r : List Word) (s : State) :
    NoneCleared s (complete q tag st r s) := by
  unfold complete
  split
  · next e _ => exact (noneCleared_sendReply _ st r (dropInFlight q tag s)).after_trb rfl
  · exact fun _ h => h

theorem noneCleared_retryForwarded (h : Nat) (s : State) : NoneCleared s (retryForwarded h s) := by
  unfold retryForwarded
  exact (noneCleared_foldl (fun t f => noneCleared_sendReply _ _ _ t) _ _).after_trb rfl

theorem noneCleared_abandonSem (n : Nat) (s : State) : NoneCleared s (abandonSem n s) := by
  unfold abandonSem
  split
  · exact ((noneCleared_of_reported (raise_reported _ _)).trans
      (noneCleared_of_reported (postEvent_reported _ _ _ _))).after_trb rfl
  · exact fun _ h => h

theorem noneCleared_abandonAll (a : BitVec 8) (s : State) : NoneCleared s (abandonAll a s) :=
  noneCleared_foldl (fun t n => noneCleared_abandonSem n t) _ s

theorem noneCleared_retryMoves (h : Nat) (s : State) : NoneCleared s (retryMoves h s) := by
  unfold retryMoves
  refine noneCleared_foldl (fun t m => ?_) _ s
  exact (noneCleared_complete m.queue m.tag _ _ (dropMove m t)).after_trb rfl

theorem trb_waitAgain (d : Downlink) (st : Status) (s : State) : (waitAgain d st s).trb = s.trb := by
  unfold waitAgain
  dsimp only
  repeat' split
  all_goals rfl

theorem trb_settleItem (x : OutcomeIn) (s : State) : (settleItem x s).trb = s.trb := by
  unfold settleItem
  split
  · rfl
  · split
    · rfl
    · exact trb_waitAgain _ _ s

theorem noneCleared_returnCandidates (h : Nat) (s : State) : NoneCleared s (returnCandidates h s) := by
  unfold returnCandidates
  refine (noneCleared_foldl (fun t e => noneCleared_of_trb ?_) _ _).after_trb rfl
  split
  · dsimp only
    split
    · exact trb_settleItem _ t
    · rfl
  · rfl

theorem trb_markStale (h : Nat) (s : State) : (markStale h s).trb = s.trb := by
  refine keeps_foldl State.trb (fun t l => ?_) _ s
  split <;> rfl

theorem trb_staleBeyond (path : List Nat) (i : Nat) (s : State) : (staleBeyond path i s).trb = s.trb := by
  refine keeps_foldl State.trb (fun t j => ?_) _ s
  have hahead : (if j + 1 < path.length then markStale (path.getD (j + 1) 64) t else t).trb = t.trb := by
    split
    · exact trb_markStale _ t
    · rfl
  dsimp only
  split
  · exact (trb_markStale _ _).trans hahead
  · exact hahead

theorem noneCleared_endSurvey (path : List Nat) (brk : Option Nat) (s : State) : NoneCleared s (endSurvey path brk s) := by
  have hstale : (match brk with
      | some i => staleBeyond path i s
      | none => s).trb = s.trb := by
    cases brk with
    | none => rfl
    | some i => exact trb_staleBeyond path i s
  unfold endSurvey
  dsimp only
  split
  · exact noneCleared_of_trb hstale
  · split
    · exact noneCleared_of_trb hstale
    · split
      · exact noneCleared_of_trb hstale
      · split
        · exact ((noneCleared_of_reported (postEvent_reported _ _ _ _)).trans (noneCleared_complete _ _ _ _ _)).after_trb hstale
        · exact ((noneCleared_of_reported (raise_reported _ _)).trans ((noneCleared_of_reported (postEvent_reported _ _ _ _)).trans
            (noneCleared_complete _ _ _ _ _))).after_trb hstale

theorem trb_originate (m : HerdMsg) (s : State) : (originate m s).trb = s.trb := by
  rcases originate_eq_or m s with h | h <;> rw [h]
  rfl

theorem noneCleared_finishSurvey (path : List Nat) (brk : Option Nat) (s : State) : NoneCleared s (finishSurvey path brk s) :=
  (noneCleared_foldl (fun t _ => noneCleared_of_trb (trb_originate _ t)) _ s).trans (noneCleared_endSurvey path brk _)

theorem noneCleared_breakSurvey (h : Nat) (s : State) : NoneCleared s (breakSurvey h s) := by
  unfold breakSurvey
  split
  · split
    · exact noneCleared_finishSurvey _ _ s
    · exact fun _ h => h
  · exact fun _ h => h

theorem peerReset_sets (h : Nat) (e : Word) (s : State) : trouble (peerReset h e s) .peerReset = true := by
  refine noneCleared_breakSurvey _ _ _ (noneCleared_returnCandidates _ _ _ (noneCleared_retryMoves _ _ _
    (noneCleared_abandonAll _ _ _ (noneCleared_retryForwarded _ _ _ ?_))))
  exact trouble_postEvent (trouble_raise _ _)

/-! ### Flits sent -/

section
variable {l : Fin 4} {s : State}

theorem herdFlitTransmit_of_up (hup : (hlink s l).up = true) : exec (.herdFlitTransmit l) s =
    .next (((sendChannel l true (discardUnreachable s)).or (sendChannel l false (discardUnreachable s))).getD
      (sendControl l (discardUnreachable s))) :=
  congrArg Host.Outcome.next (if_pos hup)

theorem herdFlitTransmit_response (hup : (hlink s l).up = true) {t : State}
    (hresponse : sendChannel l true (discardUnreachable s) = some t) : exec (.herdFlitTransmit l) s = .next t := by
  rw [herdFlitTransmit_of_up hup, hresponse]
  rfl

theorem herdFlitTransmit_request (hup : (hlink s l).up = true) {t : State}
    (hresponse : sendChannel l true (discardUnreachable s) = none)
    (hrequest : sendChannel l false (discardUnreachable s) = some t) : exec (.herdFlitTransmit l) s = .next t := by
  rw [herdFlitTransmit_of_up hup, hresponse, hrequest]
  rfl

theorem herdFlitTransmit_control (hup : (hlink s l).up = true)
    (hresponse : sendChannel l true (discardUnreachable s) = none)
    (hrequest : sendChannel l false (discardUnreachable s) = none) :
    exec (.herdFlitTransmit l) s = .next (sendControl l (discardUnreachable s)) := by
  rw [herdFlitTransmit_of_up hup, hresponse, hrequest]
  rfl

theorem herdFlitTransmit_of_down (hdown : (hlink s l).up = false) (hbarred : linkBarred s l = false) :
    exec (.herdFlitTransmit l) s = .next (sendControl l s) :=
  congrArg Host.Outcome.next ((if_neg (by rw [hdown]; exact Bool.false_ne_true)).trans
    (if_neg (by rw [hbarred]; exact Bool.false_ne_true)))

end

theorem sendChannel_transit {l : Nat} {vc : Bool} {f : FlitRec} {s : State} (hhead : transitHead (hlink s l) vc = some f)
    (hcredit : 0 < (hlink s l).credits.getD (creditIndex f) 0) (hroom : (hlink s l).unacked.length < 64) :
    sendChannel l vc s = some (sendFlit l f (setHlink s l { hlink s l with transit := (hlink s l).transit.erase f })) := by
  have hmay : maySend (hlink s l) f = true := Bool.and_eq_true_iff.mpr ⟨decide_eq_true hcredit, decide_eq_true hroom⟩
  simp only [sendChannel, hhead, hmay, if_true]

theorem unacked_lineFlit (k l : Nat) (stomped : Bool) (f : FlitRec) (s : State) :
    (hlink (lineFlit l stomped f s) k).unacked = (hlink s k).unacked := by
  refine (congrArg HLink.unacked (hlink_setHlink s l _ k)).trans ?_
  split
  · next h => rw [h]
  · rfl

theorem unacked_countHerd (i k l : Nat) (s : State) : (hlink (countHerd i l s) k).unacked = (hlink s k).unacked := by
  refine (congrArg HLink.unacked (hlink_setHlink s l _ k)).trans ?_
  split
  · next h => rw [h]
  · rfl

theorem herdReplayTimeout_resends {l : Fin 4} {s : State} (hup : (hlink s l).up = true) (hsome : (hlink s l).unacked ≠ [])
    (hfew : ∀ f ∈ (hlink s l).unacked, f.resends < 16) :
    ∃ t, exec (.herdReplayTimeout l) s = .next t ∧ trouble t (.herdRetry l) = true
      ∧ (hlink t l).unacked = (hlink s l).unacked.map (fun f => { f with resends := f.resends + 1 }) := by
  have hnone : (hlink s l).unacked.any (fun f => 16 ≤ f.resends) = false :=
    List.any_eq_false.mpr fun f hf => by simpa using hfew f hf
  refine ⟨_, congrArg Host.Outcome.next ((if_pos hup).trans ((if_neg (mt List.isEmpty_iff.mp hsome)).trans
    (if_neg (by rw [hnone]; exact Bool.false_ne_true)))), ?_, ?_⟩
  · rw [Fin.ofNat_val_eq_self]
    exact trouble_raise _ _
  · rw [keeps_raise _ _ (fun t => (hlink t l).unacked), unacked_countHerd,
      keeps_foldl (fun t => (hlink t l).unacked) (fun t f => unacked_lineFlit l l false f t), hlink_setHlink, if_pos rfl]

theorem herdMessageTimeout_discards {src : Fin 64} {vc : Bool} {r : Reasm} {seq : BitVec 16} {s : State}
    (hreasm : reasmOf s src vc = some r) (hseq : r.seq = seq.toNat) (hdue : reached s (r.first + 1000000#64) = true) :
    exec (.herdMessageTimeout src vc seq) s = .next (countHerd 9 r.link (dropReasm src vc s)) := by
  change execHerdMessageTimeout src vc seq s = _
  rw [execHerdMessageTimeout, hreasm]
  dsimp only
  rw [if_pos (Bool.and_eq_true_iff.mpr ⟨decide_eq_true hseq, hdue⟩)]

/-- Settles O39: one lemma for each event of a backhaul port and of a herd link. -/
theorem backhaulAndLinkEventsAct : Obligations.BackhaulAndLinkEventsAct :=
  ⟨⟨fun _ _ _ _ henable hup hturn hpacket hentry hfits => bhFrameTransmit_sends henable hup hturn hpacket hentry hfits,
    fun v _ _ htag hlen => egressFrame_untagged v htag hlen,
    fun _ _ _ henable hup hqueue hother hturn hpacket hshort hlong =>
      hostTxFrame_sends henable hup hqueue hother hturn hpacket hshort hlong,
    fun _ _ _ => rfl, fun _ _ hup => congrArg Host.Outcome.next (if_pos hup),
    fun _ _ henable => congrArg Host.Outcome.next (if_pos henable)⟩,
   ⟨fun _ _ e _ hbarred hdown hgood hown htandem => execHerdLinkUp_duplicate e hbarred hdown hgood hown htandem,
    fun _ _ _ _ hbarred hdown hgood hother hknown => execHerdLinkUp_raises hbarred hdown hgood hother hknown,
    fun _ _ hup => herdLinkDown_fails hup,
    fun _ _ _ hup => ⟨fun h hinverse => herdFlitReceived_stomped hup (crc_stomped h hinverse),
      fun h hinverse => herdFlitReceived_bad hup (crc_bad h hinverse),
      fun h htype hstill hseq => (herdFlitReceived_good hup (crc_good h)).trans
        (congrArg Host.Outcome.next (goodFlit_out_of_order htype hstill hseq)),
      fun h htype hstill hseq => (herdFlitReceived_good hup (crc_good h)).trans
        (congrArg Host.Outcome.next (goodFlit_in_order htype hstill hseq))⟩,
    fun _ _ _ hdown hbarred => herdFlitReceived_trains hdown hbarred,
    fun _ _ _ _ hknown holder => noteEpoch_older hknown holder, peerReset_sets,
    fun _ _ hup => ⟨rfl, fun _ hresponse => herdFlitTransmit_response hup hresponse⟩,
    fun _ _ hup hresponse hrequest => herdFlitTransmit_control hup hresponse hrequest,
    fun _ _ hdown hbarred => herdFlitTransmit_of_down hdown hbarred,
    fun _ _ _ hup hresponse hrequest => herdFlitTransmit_request hup hresponse hrequest,
    fun _ _ _ _ hhead hcredit hroom => sendChannel_transit hhead hcredit hroom,
    fun _ _ hup hsome hfew => herdReplayTimeout_resends hup hsome hfew,
    fun _ _ _ _ _ hreasm hseq hdue => herdMessageTimeout_discards hreasm hseq hdue⟩⟩

end Sys2Proof.Proofs
end

section
/-! Settles Obligations.TimeCommandsRun: rows of the time unit, and the first probe of a survey. -/

namespace Sys2Proof.Proofs

open Sys2Proof.Machine Sys2Proof.Laws Sys2Proof.Safety

-- Proofs one after another: the threads of many at once would pass the memory that the check allows.
set_option Elab.async false

/-! ### Bases and ST -/

/-- A base that has just been asked for is exempt from REVERT_DELAY (R358). -/
theorem reselect_wanted (s : State) : reselect (some (wanted s)) s = follow (wanted s) s :=
  if_neg (by rw [bne_self_eq_false, Bool.and_false, Bool.false_and]; exact Bool.false_ne_true)

theorem listedBases_ok {c : Packet} (h : ∀ i, i < pn c 0 → pf c 1 (4 * i + 3) (4 * i) ≤ 4) : (listedBases c).all (· ≤ 4) = true := by
  refine List.all_eq_true.mpr fun n hn => ?_
  obtain ⟨i, hi, rfl⟩ := List.mem_map.mp hn
  exact decide_eq_true (h i (List.mem_range.mp hi))

theorem tbSelect_runs : Runs .tbSelect 0x0900 5
    (fun c _ => 1 ≤ pn c 0 ∧ pn c 0 ≤ 5 ∧ pn c 1 < 1048576 ∧ (∀ i, i < pn c 0 → pf c 1 (4 * i + 3) (4 * i) ≤ 4) ∧ 1 ≤ pn c 2
      ∧ pn c 2 ≤ 500 ∧ pn c 3 ≤ 3600 ∧ pn c 4 ≤ 3600) (fun _ _ => [])
    (fun c u =>
      let t : TimeCfg := { u.cfg.time with list := listedBases c, slewMax := pn c 2, revertDelay := pn c 3, firstWait := pn c 4 }
      let u1 : State := { u with cfg := { u.cfg with time := t }, time := { u.time with selAt := some (base u 4).val } }
      tryFirstLock (follow (wanted u1) u1)) :=
  runs_row tbSelectSpec
    (fun c _ ⟨hlo, hhi, hword, hbases, hslew, hslew', hrevert, hfirst⟩ => by
      have hfits : fits c 1 20 = true := fits_iff.mpr hword
      change (within c 0 1 5 && fits c 1 20 && (listedBases c).all (· ≤ 4) && within c 2 1 500 && within c 3 0 3600
        && within c 4 0 3600) = true
      rw [within_iff.mpr ⟨hlo, hhi⟩, hfits, listedBases_ok hbases, within_iff.mpr ⟨hslew, hslew'⟩,
        within_iff.mpr ⟨Nat.zero_le _, hrevert⟩, within_iff.mpr ⟨Nat.zero_le _, hfirst⟩]
      rfl)
    (fun c u _ => congrArg (fun t => done (tryFirstLock t)) (reselect_wanted _))

theorem offsetWord_eq (v : Int) : offsetWord v = BitVec.ofInt 32 (max (-2147483648) (min 2147483647 v)) := by
  refine congrArg (BitVec.ofInt 32) ?_
  split
  · omega
  · split <;> omega

theorem timeStatusRead_runs : Runs .timeStatusRead 0x0901 0 (fun _ _ => True)
    (fun _ u => timeStatus u :: (List.range 5).map (fun n =>
        let d : Int := ((base u n).val >>> 32).setWidth 64 - now u |>.toInt
        BitVec.ofInt 32 (max (-2147483648) (min 2147483647 d))) ++ [BitVec.ofInt 32 u.time.stRate]) (fun _ u => u) :=
  runs_row timeStatusReadSpec (fun _ _ _ => rfl) (fun c u _ => by
    simp only [timeStatusReadSpec, plainSpec, timeStatusWords, offsetWord_eq]
    rfl)

theorem signed_eight {w : Nat} (h : w < 256) : signed 8 w = if w < 128 then (w : Int) else (w : Int) - 256 := by
  rw [signed, Nat.mod_eq_of_lt (by omega)]
  rfl

theorem ptpSet_runs : Runs .ptpSet 0x0902 11
    (fun c _ => pn c 0 ≤ 1 ∧ pn c 1 < 2048 ∧ pn c 2 < 256 ∧ -7 ≤ (if pn c 2 < 128 then (pn c 2 : Int) else (pn c 2 : Int) - 256)
      ∧ (if pn c 2 < 128 then (pn c 2 : Int) else (pn c 2 : Int) - 256) ≤ 6 ∧ 1 ≤ pn c 3
      ∧ pn c 3 ≤ 600 ∧ pn c 9 < 65536 ∧ pn c 10 < 8192) (fun _ _ => [])
    (fun c u =>
      let t := if pn c 0 = 0 then { u.cfg.time with ptpA := ptpOf c } else { u.cfg.time with ptpB := ptpOf c }
      { u with cfg := { u.cfg with time := t } }) :=
  runs_row ptpSetSpec
    (fun c _ ⟨hdomain, hword, hdelay, hlo, hhi, htimeout, htimeout', hmac, htag⟩ => by
      have hfits : fits c 1 11 = true ∧ fits c 2 8 = true ∧ fits c 9 16 = true ∧ fits c 10 13 = true :=
        ⟨fits_iff.mpr hword, fits_iff.mpr hdelay, fits_iff.mpr hmac, fits_iff.mpr htag⟩
      rw [← signed_eight hdelay] at hlo hhi
      change (within c 0 0 1 && fits c 1 11 && fits c 2 8 && decide (-7 ≤ signed 8 (pn c 2)) && decide (signed 8 (pn c 2) ≤ 6)
        && within c 3 1 600 && fits c 9 16 && fits c 10 13) = true
      rw [within_backhaul hdomain, hfits.1, hfits.2.1, decide_eq_true hlo, decide_eq_true hhi, within_iff.mpr ⟨htimeout, htimeout'⟩,
        hfits.2.2.1, hfits.2.2.2]
      rfl)
    (fun _ _ _ => rfl)

theorem tbRearm_runs : Runs .tbRearm 0x0903 1 (fun c u => pn c 0 ≤ 3 ∧ u.time.sel ≠ pn c 0) (fun _ _ => [])
    (fun c u =>
      let u1 := setBaseState (pn c 0) 0 u
      setBase u1 (pn c 0) { base u1 (pn c 0) with stepped := false, good := 0 }) :=
  runs_row tbRearmSpec (fun _ _ ⟨hbase, _⟩ => within_plain hbase) (fun _ _ _ => rfl)
    (hr := fun _ _ ⟨_, hother⟩ => bne_iff_ne.mpr hother)

theorem tbRearm_of_followed : Ends .tbRearm 0x0903 1 (fun c u => pn c 0 ≤ 3 ∧ u.time.sel = pn c 0) .invalidState :=
  ends_notReady tbRearmSpec (fun _ _ ⟨hbase, _⟩ => within_plain hbase)
    (fun c u ⟨_, hsel⟩ => by change (u.time.sel != pn c 0) = false; rw [hsel, bne_self_eq_false])

theorem tb4Load_runs : Runs .tb4Load 0x0904 3 (fun c u => pn c 2 < 2 ∧ u.time.tb4Stepped = false) (fun _ _ => [])
    (fun c u =>
      let v : BitVec 96 := (p64 c 0).setWidth 96 <<< 32
      let u1 := setBase u 4 { base u 4 with val := v }
      { u1 with time := { u1.time with tb4Stepped := true, selAt := u.time.selAt.map (· + (v - (base u 4).val)) }
                cfg := { u1.cfg with time := { u1.cfg.time with discipline := bit (pw c 2) 0 } } }) :=
  runs_row tb4LoadSpec (fun _ _ ⟨hflag, _⟩ => fits_iff.mpr hflag) (fun _ _ _ => rfl)
    (hr := fun c u ⟨_, hnew⟩ => by change (!u.time.tb4Stepped) = true; rw [hnew]; rfl)

theorem tb4Load_of_loaded : Ends .tb4Load 0x0904 3 (fun c u => pn c 2 < 2 ∧ u.time.tb4Stepped = true) .invalidState :=
  ends_notReady tb4LoadSpec (fun _ _ ⟨hflag, _⟩ => fits_iff.mpr hflag)
    (fun c u ⟨_, hold⟩ => by change (!u.time.tb4Stepped) = false; rw [hold]; rfl)

/-! ### PPS, the transparent clock and herd time -/

theorem ppsSet_runs : Runs .ppsSet 0x0905 4 (fun c _ => pn c 0 < 8 ∧ 1 ≤ pn c 2 ∧ pn c 2 ≤ 500000) (fun _ _ => [])
    (fun c u => { u with cfg := { u.cfg with time := { u.cfg.time with
      ppsIn := bit (pw c 0) 0, ppsFalling := bit (pw c 0) 1, ppsOut := bit (pw c 0) 2, ppsDelay := pw c 1, ppsWidth := pn c 2
      ppsOffset := pw c 3 } } }) :=
  runs_row ppsSetSpec
    (fun _ _ ⟨hflags, hlo, hhi⟩ => Bool.and_eq_true_iff.mpr ⟨fits_iff.mpr hflags, within_iff.mpr ⟨hlo, hhi⟩⟩)
    (fun _ _ _ => rfl)

theorem ppsTodSet_runs : Runs .ppsTodSet 0x0906 2 (fun c _ => pn c 1 < 65536) (fun _ _ => [])
    (fun c u =>
      let v := if u.time.tod = none then setBase u 2 { base u 2 with good := 0 } else u
      { v with time := { v.time with tod := some (p64 c 0).toNat } }) :=
  runs_row ppsTodSetSpec (fun _ _ h => fits_iff.mpr h) (fun c u _ => by
    simp only [ppsTodSetSpec, plainSpec, Option.isNone_iff_eq_none]
    rfl)

theorem tcSet_runs : Runs .tcSet 0x0907 5
    (fun c _ => pn c 0 < 64 ∧ pn c 1 < 65536 ∧ pn c 2 < 65536 ∧ pn c 3 < 65536 ∧ pn c 4 < 65536) (fun _ _ => [])
    (fun c u =>
      let u1 : State := { u with cfg := { u.cfg with time := { u.cfg.time with tcPorts := (pw c 0).setWidth 6 } } }
      let u2 := setBhCfg u1 0 { bhCfg u1 0 with tsRx := pn c 1, tsTx := pn c 2 }
      setBhCfg u2 1 { bhCfg u2 1 with tsRx := pn c 3, tsTx := pn c 4 }) :=
  runs_row tcSetSpec
    (fun _ _ ⟨hports, hrx, htx, hrx', htx'⟩ => Bool.and_eq_true_iff.mpr ⟨Bool.and_eq_true_iff.mpr ⟨Bool.and_eq_true_iff.mpr
      ⟨Bool.and_eq_true_iff.mpr ⟨fits_iff.mpr hports, fits_iff.mpr hrx⟩, fits_iff.mpr htx⟩, fits_iff.mpr hrx'⟩, fits_iff.mpr htx'⟩)
    (fun _ _ _ => rfl)

theorem herdTimeSet_runs : Runs .herdTimeSet 0x0908 2 (fun c _ => pn c 0 ≤ 63 ∧ 1 ≤ pn c 1 ∧ pn c 1 ≤ 100) (fun _ _ => [])
    (fun c u => { u with cfg := { u.cfg with time := { u.cfg.time with herdSource := pn c 0, htInterval := pn c 1 } } }) :=
  runs_row herdTimeSetSpec (fun _ _ ⟨hsource, hlo, hhi⟩ => within_and ⟨Nat.zero_le _, hsource, hlo, hhi⟩) (fun _ _ _ => rfl)

/-! ### Surveys -/

theorem surveyLen_eq {c : Packet} {n : Nat} (hn : pn c 0 = n) (hlo : 2 ≤ n) (hhi : n ≤ 64) :
    surveyRunSpec.len c = some (1 + n) := by
  subst hn
  exact if_pos (Bool.and_eq_true_iff.mpr ⟨decide_eq_true hlo, decide_eq_true hhi⟩)

theorem surveyPath_eq {c : Packet} {n : Nat} (hn : pn c 0 = n) : surveyPath c = (pwords c 1 n).map (·.toNat) := by rw [surveyPath, hn]

theorem surveyPath_ok {c : Packet} {n : Nat} (hn : pn c 0 = n) (h : ∀ w ∈ pwords c 1 n, w.toNat ≤ 63) :
    surveyRunSpec.valid c = true := by
  change (surveyPath c).all (· ≤ 63) = true
  rw [surveyPath_eq hn, List.all_map]
  exact List.all_eq_true.mpr fun w hw => decide_eq_true (h w hw)

theorem surveyRun_runsOn (n : Nat) (l : List Nat) (hlo : 2 ≤ n) (hhi : n ≤ 64) : RunsOn .surveyRun 0x0909 (1 + n)
    (fun c u => pn c 0 = n ∧ (∀ h ∈ pwords c 1 n, h.toNat ≤ 63) ∧ (pwords c 1 n).map (·.toNat) = ownHid u :: l
      ∧ u.time.survey = none ∧ (linkTo u (l.headD 0)).isSome)
    (fun c u => beginSurvey { path := ownHid u :: l, pos := 0, queue := c.queue.val, tag := c.tag } u) :=
  runsOn_row surveyRunSpec (fun _ _ ⟨hn, hids, _⟩ => surveyPath_ok hn hids)
    (fun c u ⟨hn, _, hpath, _⟩ => by
      change runsOn (beginSurvey { path := surveyPath c, pos := 0, queue := c.queue.val, tag := c.tag } u) = _
      rw [surveyPath_eq hn, hpath])
    (hl := fun _ _ ⟨hn, _⟩ => surveyLen_eq hn hlo hhi)
    (hh := fun c u ⟨hn, _, hpath, _⟩ => by
      change decide ((surveyPath c).head? = some (ownHid u)) = true
      rw [surveyPath_eq hn, hpath]
      exact decide_eq_true rfl)
    (hr := fun c u ⟨_, _, _, hfree, _⟩ => by change u.time.survey.isNone = true; rw [hfree]; rfl)
    (hc := fun i hi => by cases hi; omega)

theorem surveyRun_while_surveying : Ends .surveyRun 0x0909 3
    (fun c u => pn c 0 = 2 ∧ (∀ h ∈ pwords c 1 2, h.toNat ≤ 63)
      ∧ ((pwords c 1 2).map (·.toNat)).head? = some (ownHid u) ∧ u.time.survey ≠ none) .invalidState :=
  ends_notReady surveyRunSpec (fun _ _ ⟨hn, hids, _⟩ => surveyPath_ok hn hids)
    (fun c u ⟨_, _, _, hbusy⟩ => Bool.eq_false_of_not_eq_true fun h => hbusy (Option.isNone_iff_eq_none.mp h))
    (hl := fun _ _ ⟨hn, _⟩ => surveyLen_eq hn (Nat.le_refl _) (by decide))
    (hh := fun c u ⟨hn, _, hpath, _⟩ => by
      change decide ((surveyPath c).head? = some (ownHid u)) = true
      rw [surveyPath_eq hn]
      exact decide_eq_true hpath)
    (hc := fun i hi => by cases hi; omega)

/-- The state in which a device probes link l for a survey. -/
def probing (v : Survey) (l : Nat) (s : State) : State :=
  setHlink (ranNow .probe { s with time := { s.time with survey := some v } }) l { hlink s l with surveys := [] }

theorem beginSurvey_probes {v : Survey} {l : Nat} {s : State} (hmore : v.pos + 1 < v.path.length)
    (hnext : linkTo s (v.path.getD (v.pos + 1) 64) = some l) :
    beginSurvey v s = originate (.probe l (now s)) (probing v l s) := by
  have hfound : linkTo { s with time := { s.time with survey := some v } } (v.path.getD (v.pos + 1) 64) = some l := hnext
  rw [beginSurvey, if_neg (Nat.not_le.mpr hmore), hfound]
  rfl

theorem originate_of_free {m : HerdMsg} {s : State} (hrole : nonHolder s = false) (hleave : s.herd.leaveMsgs = false) :
    originate m s = sendHerd m s := by
  unfold originate
  dsimp only
  rw [hleave, hrole]
  cases m <;> rfl

theorem beginSurvey_spec {v : Survey} {l : Nat} {s : State} (hmore : v.pos + 1 < v.path.length)
    (hnext : linkTo s (v.path.getD (v.pos + 1) 64) = some l) (hrole : nonHolder s = false) (hleave : s.herd.leaveMsgs = false) :
    (beginSurvey v s).time.survey = some v ∧ (hlink (beginSurvey v s) l).surveys = []
      ∧ (beginSurvey v s).out.herd = s.out.herd ++ [.probe l (now s)] ∧ (beginSurvey v s).cmd = s.cmd := by
  rw [beginSurvey_probes hmore hnext, originate_of_free (s := probing v l s) hrole hleave]
  exact ⟨rfl, congrArg HLink.surveys ((hlink_setHlink _ l _ l).trans (if_pos rfl)), rfl, rfl⟩

theorem timeCountersRead_runs : Runs .timeCountersRead 0x0920 1 (fun c _ => pn c 0 < 2) (fun _ u => u.time.counters.map w32)
    (fun c u => if pn c 0 = 1 then { u with time := { u.time with counters := List.replicate 9 0 } } else u) :=
  runs_row timeCountersReadSpec (fun _ _ h => fits_iff.mpr h)
    (fun c u h => by
      simp only [timeCountersReadSpec, plainSpec, bit_zero_eq h, decide_eq_true_eq]
      rfl)

/-- Settles O41: each command is a row of the table whose checks its clause excludes. -/
theorem timeCommandsRun : Obligations.TimeCommandsRun :=
  ⟨tbSelect_runs, timeStatusRead_runs, ptpSet_runs, tbRearm_runs, tbRearm_of_followed, tb4Load_runs, tb4Load_of_loaded, ppsSet_runs,
    ppsTodSet_runs, tcSet_runs, herdTimeSet_runs, surveyRun_runsOn,
    fun _ _ _ hmore hnext hrole hleave => beginSurvey_spec hmore hnext hrole hleave, surveyRun_while_surveying,
    runs_row surveyReadSpec (fun _ _ h => within_plain h) (fun _ _ _ => rfl), timeCountersRead_runs⟩

end Sys2Proof.Proofs
end

section
/-! Settles Obligations.TimeEventsAct: bases, ST's first lock, PPS, PTP, herd time, surveys and the sleep oscillator. -/

namespace Sys2Proof.Proofs

open Sys2Proof.Machine Sys2Proof.Laws Sys2Proof.Safety

-- Proofs one after another: the threads of many at once would pass the memory that the check allows.
set_option Elab.async false

/-! ### Bases -/

theorem mayLock_of {b : Fin 4} {s : State} (hstate : (base s b).state ≠ 1) (hgood : inputsToLock s b ≤ (base s b).good)
    (htod : b = 2 → s.time.tod ≠ none) (hsource : b = 3 → s.cfg.time.herdSource ≠ ownHid s) : mayLock s b = true := by
  have htb2 : (b.val != 2 || s.time.tod.isSome) = true := by
    rw [Bool.or_eq_true, bne_iff_ne, ← imp_iff_not_or]
    exact fun h => Option.isSome_iff_ne_none.mpr (htod (Fin.ext h))
  have htb3 : (b.val != 3 || s.cfg.time.herdSource != ownHid s) = true := by
    rw [Bool.or_eq_true, bne_iff_ne, ← imp_iff_not_or]
    exact fun h => bne_iff_ne.mpr (hsource (Fin.ext h))
  rw [mayLock, bne_iff_ne.mpr hstate, decide_eq_true hgood, htb2, htb3]
  rfl

section
variable {b : Fin 4} {x : BaseIn} {s : State}

theorem tbStateChange_lock (hx : x.state = 1) (hmay : mayLock s b = true) : exec (.tbStateChange b x) s = .next (lockBase b s) := by
  change execTbStateChange b x s = _
  rw [execTbStateChange, hx]
  exact congrArg Host.Outcome.next (if_pos hmay)

theorem tbStateChange_first_lock (hx : x.state = 1) (hstate : (base s b).state ≠ 1) (hstep : (base s b).stepped = false)
    (hgood : (if b.val < 2 then 8 else 4) ≤ (base s b).good) (htod : b = 2 → s.time.tod ≠ none)
    (hsource : b = 3 → s.cfg.time.herdSource ≠ ownHid s) :
    exec (.tbStateChange b x) s = .next (tryFirstLock (reselect (some b.val) (setBaseState b 1 (stepBase b s)))) := by
  have hinputs : inputsToLock s b ≤ (base s b).good := by
    rw [inputsToLock]
    split
    · split at hgood <;> omega
    · exact hgood
  rw [tbStateChange_lock hx (mayLock_of hstate hinputs htod hsource), lockBase, hstep]
  rfl

theorem tbStateChange_lock_again (hx : x.state = 1) (hstate : (base s b).state = 2) (hstep : (base s b).stepped = true)
    (hgood : 1 ≤ (base s b).good) (htod : b = 2 → s.time.tod ≠ none) (hsource : b = 3 → s.cfg.time.herdSource ≠ ownHid s) :
    exec (.tbStateChange b x) s = .next (tryFirstLock (reselect none (setBaseState b 1 s))) := by
  have hinputs : inputsToLock s b ≤ (base s b).good := by rwa [inputsToLock, if_pos hstate]
  rw [tbStateChange_lock hx (mayLock_of (by rw [hstate]; decide) hinputs htod hsource), lockBase, hstep]
  rfl

theorem tbStateChange_holdover (hx : x.state = 2) (hstate : (base s b).state = 1) (hdue : holdDue s b = true) :
    exec (.tbStateChange b x) s = .next (reselect none (setBaseState b 2 s)) := by
  change execTbStateChange b x s = _
  rw [execTbStateChange, hx]
  exact congrArg Host.Outcome.next ((if_pos hdue).trans (if_pos hstate))

theorem tbStateChange_lost (hx : x.state = 3) (hstate : (base s b).state = 1 ∨ (base s b).state = 2) (hdue : lossDue s b = true) :
    exec (.tbStateChange b x) s = .next (reselect none (setBaseState b 3 (setBase s b { base s b with good := 0 }))) := by
  change execTbStateChange b x s = _
  rw [execTbStateChange, hx]
  exact congrArg Host.Outcome.next ((if_pos hdue).trans
    (if_pos (Bool.or_eq_true_iff.mpr (hstate.imp decide_eq_true decide_eq_true))))

end

theorem base_shiftMeasured (n k : Nat) (d : Int) (s : State) : base (shiftMeasured n d s) k = base s k := by
  unfold shiftMeasured
  split
  · rfl
  · split <;> rfl

theorem base_stepBase (n k : Nat) (s : State) : base (stepBase n s) k =
    if k = n then { base s n with val := (base s n).val + fromNs (BitVec.ofInt 64 (base s n).err), stepped := true, err := 0 }
    else base s k := by
  rw [stepBase, base_shiftMeasured, base_setBase]

theorem stepBase_spec (n : Nat) (s : State) :
    (base (stepBase n s) n).val = (base s n).val + (BitVec.ofInt 64 (base s n).err).setWidth 96 <<< 32
    ∧ (base (stepBase n s) n).stepped = true ∧ (base (stepBase n s) n).inc = (base s n).inc
    ∧ ∀ k, k ≠ n → base (stepBase n s) k = base s k := by
  refine ⟨?_, ?_, ?_, fun k hk => by rw [base_stepBase, if_neg hk]⟩ <;> rw [base_stepBase, if_pos rfl]
  rfl

theorem setBaseState_lost {b : Fin 4} {s : State} (h : (base s b).state ≠ 3) :
    setBaseState b 3 s = postEvent 0x0901 b 3#32 (raise (.tbLoss b) (setBase s b { base s b with state := 3, since := now s })) := by
  rw [setBaseState, if_neg h]
  simp only [if_true, dif_pos b.isLt]
  rfl

/-! ### What ST follows -/

theorem reselect_none_follows {s : State}
    (h : wanted s = s.time.sel ∨ (followed s).state ≠ 1 ∨ stayedLocked s (wanted s) = true) :
    reselect none s = follow (wanted s) s := by
  refine if_neg fun hstay => ?_
  simp only [Bool.and_eq_true, decide_eq_true_eq, Bool.not_eq_true'] at hstay
  obtain ⟨⟨⟨⟨hrank, _⟩, hlocked⟩, _⟩, hshort⟩ := hstay
  rcases h with h | h | h
  · exact Nat.lt_irrefl _ (h ▸ hrank)
  · exact h hlocked
  · rw [h] at hshort
    cases hshort

theorem tryFirstLock_of_locked {s : State} (h : s.time.stLocked = true) : tryFirstLock s = s :=
  if_neg (by rw [h]; exact Bool.false_ne_true)

theorem fromNs_ofNat {n : Nat} (h : n < 2 ^ 64) : fromNs (BitVec.ofNat 64 n) = BitVec.ofNat 96 (n * 4294967296) := by
  refine BitVec.eq_of_toNat_eq ?_
  rw [fromNs, BitVec.toNat_shiftLeft, BitVec.toNat_setWidth, BitVec.toNat_ofNat, BitVec.toNat_ofNat, Nat.mod_eq_of_lt h,
    Nat.mod_eq_of_lt (h.trans (by decide)), Nat.shiftLeft_eq]

theorem tb4Counts_of_waited {s : State} {t : BitVec 96} (hlisted : 4 ∈ s.cfg.time.list) (hasked : s.time.selAt = some t)
    (hwaited : BitVec.ofNat 96 (s.cfg.time.firstWait * 1000000000 * 4294967296) ≤ (base s 4).val - t)
    (hrange : s.cfg.time.firstWait ≤ 3600) : tb4Counts s = true := by
  have hns : s.cfg.time.firstWait * 1000000000 < 2 ^ 64 := by
    have : s.cfg.time.firstWait * 1000000000 ≤ 3600 * 1000000000 := Nat.mul_le_mul_right _ hrange
    omega
  rw [← fromNs_ofNat hns] at hwaited
  rw [tb4Counts, hasked, List.contains_iff_mem.mpr hlisted]
  dsimp only
  rw [decide_eq_true hwaited, Bool.or_true]
  rfl

theorem firstLock_of_stepped {s : State} (hnew : s.time.stLocked = false) (hsel : s.time.sel = 4) (hstep : s.time.tb4Stepped = true) :
    firstLock s =
      { jumpSt (base s 4).val s with time := { (jumpSt (base s 4).val s).time with stLocked := true, selAt := none } } := by
  have hvalue : (if s.time.sel = 4 && !s.time.tb4Stepped then s.time.st else (followed s).val) = (base s 4).val := by
    rw [followed, hsel, hstep]
    rfl
  have hstill : (jumpSt (base s 4).val s).time.tb4Stepped = true := hstep
  rw [firstLock, hnew, if_neg Bool.false_ne_true, hvalue]
  exact if_pos hstill

theorem firstWaitExpiry_locks {s : State} {t : BitVec 96} (hnew : s.time.stLocked = false) (hsel : s.time.sel = 4)
    (hstep : s.time.tb4Stepped = true) (hlisted : 4 ∈ s.cfg.time.list) (hasked : s.time.selAt = some t)
    (hwaited : BitVec.ofNat 96 (s.cfg.time.firstWait * 1000000000 * 4294967296) ≤ (base s 4).val - t)
    (hrange : s.cfg.time.firstWait ≤ 3600) :
    ∃ u, exec .firstWaitExpiry s = .next u ∧ u.time.st = (base s 4).val ∧ u.time.stLocked = true
      ∧ u.time.tbs.map (fun e => (e.1, e.2.val, e.2.inc, e.2.state)) = s.time.tbs.map (fun e => (e.1, e.2.val, e.2.inc, e.2.state))
      ∧ u.air.bands.map (fun e => (e.1, e.2.buckets.map (·.2))) = s.air.bands.map (fun e => (e.1, e.2.buckets.map (·.2))) := by
  have hlock : tryFirstLock s = firstLock s :=
    if_pos (by rw [hnew, tb4Counts_of_waited hlisted hasked hwaited hrange, Bool.or_true]; rfl)
  refine ⟨_, congrArg Host.Outcome.next (hlock.trans (firstLock_of_stepped hnew hsel hstep)), rfl, rfl, ?_, ?_⟩
  · exact List.map_map.trans rfl
  · refine List.map_map.trans (List.map_congr_left fun e _ => ?_)
    exact congrArg (Prod.mk e.1) List.map_map

/-! ### PPS -/

theorem ppsInEdge_of_alone {f : Bool} {s : State} (h : s.tan.joined = false) (hin : s.cfg.time.ppsIn = true)
    (hedge : s.cfg.time.ppsFalling = f) :
    exec (.ppsInEdge f) s = .next (if pulseAccepted s then takePulse s else countTime 4 s) := by
  change execPpsInEdge f s = _
  rw [execPpsInEdge, mirrorOut_of_alone h, if_pos (by rw [hin, hedge, decide_eq_true rfl]; rfl)]

theorem countTime_eq (i : Nat) (s : State) :
    (countTime i s).time.counters = listMod s.time.counters i (fun v => min (v + 1) 0xFFFFFFFF) := rfl

theorem discipline_of_new {n : Nat} {err : Int} {s : State} (h : (base s n).stepped = false) :
    discipline n err s = setBase s n { base s n with err := err } :=
  if_neg (by rw [h]; exact Bool.false_ne_true)

theorem noteInput_base (n : Nat) (valid : Bool) (s : State) :
    base (noteInput n valid s) n = { base s n with last := now s, good := if valid then (base s n).good + 1 else 0 } := by
  rw [noteInput, base_setBase, if_pos rfl]

theorem base_discipline_of_new {n : Nat} {err : Int} {valid : Bool} {s : State} (h : (base s n).stepped = false) :
    base (discipline n err (noteInput n valid s)) n =
      { base s n with last := now s, good := if valid then (base s n).good + 1 else 0, err := err } := by
  have hnew : (base (noteInput n valid s) n).stepped = false := by rw [noteInput_base]; exact h
  rw [discipline_of_new hnew, base_setBase, if_pos rfl, noteInput_base]

theorem ppsInEdge_counts {f : Bool} {s : State} (h : s.tan.joined = false) (hin : s.cfg.time.ppsIn = true)
    (hedge : s.cfg.time.ppsFalling = f) (hnew : (base s 2).stepped = false) :
    ∃ t, exec (.ppsInEdge f) s = .next t ∧ (base t 2).good = (base s 2).good + 1 ∧ t.time.tod = s.time.tod.map (· + 1)
      ∧ t.time.ppsMiss = 0 ∧ t.time.counters = listMod s.time.counters 3 (fun v => min (v + 1) 0xFFFFFFFF) := by
  have haccept : pulseAccepted s = true := by rw [pulseAccepted, hnew]; rfl
  have hsteered : discipline 2 (pulseOffset s) (noteInput 2 true s) = setBase (noteInput 2 true s) 2 _ :=
    discipline_of_new (by rw [noteInput_base]; exact hnew)
  refine ⟨takePulse s, by rw [ppsInEdge_of_alone h hin hedge, if_pos haccept],
    congrArg Base.good (base_discipline_of_new (err := pulseOffset s) (valid := true) hnew), ?_, rfl, ?_⟩
  · rw [takePulse, hsteered]; rfl
  · rw [takePulse, hsteered]; rfl

theorem ppsInEdge_outside {f : Bool} {s : State} (h : s.tan.joined = false) (hin : s.cfg.time.ppsIn = true)
    (hedge : s.cfg.time.ppsFalling = f) (hstep : (base s 2).stepped = true) (hfar : 10000 < (pulseError s).natAbs) :
    exec (.ppsInEdge f) s = .next { s with time := { s.time with
      counters := listMod s.time.counters 4 (fun v => min (v + 1) 0xFFFFFFFF) } } := by
  have hrefuse : pulseAccepted s = false := by
    rw [pulseAccepted, hstep, decide_eq_false (Nat.not_le.mpr hfar)]
    rfl
  rw [ppsInEdge_of_alone h hin hedge, hrefuse, if_neg Bool.false_ne_true]
  rfl

theorem ppsMissing_counts {s : State} (hin : s.cfg.time.ppsIn = true) (hstep : (base s 2).stepped = true)
    (hwindow : s.time.ppsSec + s.time.ppsMiss < lastWindow s) :
    ∃ t, exec .ppsMissing s = .next t ∧ trouble t .ppsMissing = true ∧ t.time.ppsMiss = s.time.ppsMiss + 1
      ∧ (base t 2).good = 0 ∧ (base t 2).inc = (base s 2).inc := by
  have hmissed : pulseMissed s = true := by rw [pulseMissed, hin, hstep, decide_eq_true hwindow]; rfl
  refine ⟨_, congrArg Host.Outcome.next (if_pos hmissed), trouble_raise _ _, ?_, ?_, ?_⟩
  · rw [keeps_raise _ _ (·.time.ppsMiss)]; rfl
  · rw [keeps_raise _ _ (fun t => (base t 2).good)]
    exact congrArg Base.good ((base_setBase s 2 _ 2).trans (if_pos rfl))
  · rw [keeps_raise _ _ (fun t => (base t 2).inc)]
    change (base (setBase s 2 { base s 2 with good := 0 }) 2).inc = _
    rw [base_setBase, if_pos rfl]

theorem ppsOutPulse_pulses {s : State} (hout : s.cfg.time.ppsOut = true) (hlocked : s.time.stLocked = true)
    (hdrive : s.tan.outputs = true) (hdue : ((now s).toNat - s.cfg.time.ppsOffset.toInt) % 1000000000 < 10) :
    exec .ppsOutPulse s = .next { s with out := { s.out with ppsOut := s.out.ppsOut ++ [now s] } } :=
  congrArg Host.Outcome.next (if_pos (by rw [ppsOutDue, hout, hlocked, hdrive, decide_eq_true hdue]; rfl))

theorem ppsOut_before_first_lock {s : State} (h : s.time.stLocked = false) : exec .ppsOutPulse s = .next s ∧ ppsOutLevel s = false := by
  refine ⟨congrArg Host.Outcome.next (if_neg ?_), ?_⟩
  · rw [ppsOutDue, h, Bool.and_false]
    exact Bool.false_ne_true
  · rw [ppsOutLevel, h, Bool.and_false]
    rfl

theorem ppsOutLevel_eq {s : State} (hout : s.cfg.time.ppsOut = true) (hlocked : s.time.stLocked = true) (hdrive : s.tan.outputs = true) :
    ppsOutLevel s = decide (((now s).toNat - s.cfg.time.ppsOffset.toInt) % 1000000000 < 1000 * s.cfg.time.ppsWidth) := by
  rw [ppsOutLevel, hout, hlocked, hdrive]
  rfl

/-! ### Intervals -/

theorem ranAt_ranNow_same (p : Period) (s : State) : ranAt (ranNow p s) p = some (now s) := by
  simp [ranAt, ranNow]

theorem ranAt_ranNow_other {p q : Period} (h : p ≠ q) (s : State) : ranAt (ranNow q s) p = ranAt s p := by
  have hskip : ∀ e : Period × BitVec 64, decide ((e.1 != q) = true ∧ decide (e.1 = p) = true) = decide (e.1 = p) := fun e =>
    decide_eq_decide.mpr ⟨fun he => of_decide_eq_true he.2, fun he => ⟨bne_iff_ne.mpr (he ▸ h), decide_eq_true he⟩⟩
  refine congrArg (Option.map Prod.snd) ((List.find?_cons_of_neg ?_).trans ?_)
  · simpa using Ne.symm h
  · rw [List.find?_filter]
    exact congrArg (List.find? · s.time.ran) (funext hskip)

theorem not_reached_ahead {s : State} {n : Nat} (hpos : 0 < n) (hlt : n < 2 ^ 63) :
    reached s (now s + BitVec.ofNat 64 n) = false := by
  have hback : now s - (now s + BitVec.ofNat 64 n) = -BitVec.ofNat 64 n := sub_add_cancel_left _ _
  have hsize : (BitVec.ofNat 64 n).toNat = n := by rw [BitVec.toNat_ofNat]; exact Nat.mod_eq_of_lt (by omega)
  rw [reached, notBefore, hback, Bool.not_eq_false', BitVec.msb_eq_decide, decide_eq_true_eq, BitVec.toNat_neg, hsize]
  omega

theorem periodDue_just_ran {n : Nat} (p : Period) (s : State) (hpos : 0 < n) (hlt : n < 2 ^ 63) :
    periodDue p n (ranNow p s) = false := by
  rw [periodDue, ranAt_ranNow_same]
  exact not_reached_ahead (s := s) hpos hlt

theorem periodDue_ranNow_other {p q : Period} (h : p ≠ q) (n : Nat) (s : State) : periodDue p n (ranNow q s) = periodDue p n s := by
  rw [periodDue, ranAt_ranNow_other h, periodDue]
  rfl

/-! ### PTP -/

theorem delayReqSend_of_not_due {b : Fin 2} {s : State}
    (h : periodDue (.delayReq b) (logNs (ptpCfg s b).logDelay.toInt) s = false) : exec (.delayReqSend b) s = .next s :=
  congrArg Host.Outcome.next (if_neg (by rw [h, Bool.and_false]; exact Bool.false_ne_true))

theorem delayReqSend_without_master {b : Fin 2} {s : State} (h : (ptpRun s b).master = none) : exec (.delayReqSend b) s = .next s :=
  congrArg Host.Outcome.next (if_neg (by
    rw [h, Option.isSome_none, Bool.and_false, Bool.false_and, Bool.false_and, Bool.false_and]; exact Bool.false_ne_true))

/-- The Delay_Req that askDelay sends, as it leaves the port. -/
def askedFrame (b : Nat) (s : State) : BhOut :=
  { port := (ptpCfg s b).port,
    bytes := delayReqFrame (ptpCfg s b) (ptpRun s b).seq ++ wordBytes (crc32 (delayReqFrame (ptpCfg s b) (ptpRun s b).seq)) }

theorem out_askDelay (b : Nat) (s : State) : (askDelay b s).out.bh = s.out.bh ++ [askedFrame b s] := by
  unfold askDelay
  dsimp only
  split <;> rfl

theorem ran_askDelay (b : Nat) (s : State) : (askDelay b s).time.ran = s.time.ran := by
  unfold askDelay
  dsimp only
  split <;> rfl

theorem ptpRun_askDelay (b : Nat) (s : State) : ptpRun (askDelay b s) b =
    { ptpRun s b with
      asked := some (wholeNs (base s b).val + BitVec.ofNat 64 (bhCfg s (ptpCfg s b).port).tsTx), seq := ((ptpRun s b).seq + 1) % 65536 } :=
  (ptpRun_setPtp _ b _ b).trans (if_pos rfl)

theorem delayReqSend_sends {b : Fin 2} {s : State} (henable : (ptpCfg s b).enable = true) (hmaster : (ptpRun s b).master ≠ none)
    (hready : bhReady s (ptpCfg s b).port = true) (hrole : nonHolder s = false)
    (hdue : periodDue (.delayReq b) (logNs (ptpCfg s b).logDelay.toInt) s = true) :
    ∃ t f, exec (.delayReqSend b) s = .next t ∧ t.out.bh = s.out.bh ++ [f] ∧ f.port = (ptpCfg s b).port
      ∧ f.bytes = delayReqFrame (ptpCfg s b) (ptpRun s b).seq ++ wordBytes (crc32 (delayReqFrame (ptpCfg s b) (ptpRun s b).seq))
      ∧ (ptpRun t b).asked = some (wholeNs (base s b).val + BitVec.ofNat 64 (bhCfg s (ptpCfg s b).port).tsTx)
      ∧ (ptpRun t b).seq = ((ptpRun s b).seq + 1) % 65536 ∧ ranAt t (.delayReq b) = some (now s) := by
  refine ⟨askDelay b (ranNow (.delayReq b) s), askedFrame b s, congrArg Host.Outcome.next (if_pos ?_),
    out_askDelay b (ranNow (.delayReq b) s), rfl, rfl, ?_, ?_, ?_⟩
  · rw [henable, Option.isSome_iff_ne_none.mpr hmaster, hready, hrole, hdue]
    rfl
  · rw [ptpRun_askDelay]; rfl
  · rw [ptpRun_askDelay]; rfl
  · rw [ranAt, ran_askDelay]
    exact ranAt_ranNow_same _ s

theorem takeDelayResp_measures {b : Nat} {m : List Byte} {t3 : BitVec 64} {ms : Int} {s : State} (hasked : (ptpRun s b).asked = some t3)
    (hms : (ptpRun s b).ms = some ms) (hport : slice m 44 10 = ownPortId (ptpCfg s b))
    (hseq : (ptpSeq m + 1) % 65536 = (ptpRun s b).seq) :
    (ptpRun (takeDelayResp b m s) b).delay = some ((ms + ((ptpTime m - t3).toInt - ptpCorrection m)) / 2) := by
  have hanswer : (slice m 44 10 = ownPortId (ptpCfg s b) && (ptpSeq m + 1) % 65536 = (ptpRun s b).seq) = true :=
    Bool.and_eq_true_iff.mpr ⟨decide_eq_true hport, decide_eq_true hseq⟩
  simp only [takeDelayResp, hasked, hms, hanswer, if_true, ptpRun_setPtp]

theorem measureSync_without_delay {b : Nat} (t1 t2 : BitVec 64) (c : Int) {s : State} (h : (ptpRun s b).delay = none) :
    (ptpRun (measureSync b t1 t2 c s) b).ms = some ((t2 - t1).toInt - c) ∧ (base (measureSync b t1 t2 c s) b).good = 0 := by
  have hmeasure : measureSync b t1 t2 c s = noteInput b false
      (setPtp s b { ptpRun s b with ms := some ((t2 - t1).toInt - c), awaiting := none }) := by
    simp only [measureSync, h, Option.isSome_none]
  rw [hmeasure]
  refine ⟨?_, by rw [noteInput_base]; rfl⟩
  exact congrArg PtpRun.ms ((ptpRun_setPtp s b _ b).trans (if_pos rfl))

theorem slaveClock_of_other {b p : Nat} {l : List Byte} {s : State} (t : BitVec 64) (h : ptpFor (ptpCfg s b) p l = false) :
    slaveClock b p t l s = s :=
  if_pos (by rw [h]; rfl)

/-! ### Herd time -/

theorem herdTimeSend_due {s : State} {t : BitVec 64} (htime : herdTimeOf s = some t)
    (hdue : periodDue .herdTime (1000000 * s.cfg.time.htInterval) s = true) :
    exec .herdTimeSend s = .next ((linksUp s).foldl (fun u l => originate (.time l t) u) (ranNow .herdTime s)) := by
  change execHerdTimeSend s = _
  rw [execHerdTimeSend, htime]
  exact congrArg Host.Outcome.next (if_pos hdue)

theorem herdTimeSend_not_due {s : State} (hdue : periodDue .herdTime (1000000 * s.cfg.time.htInterval) s = false) :
    exec .herdTimeSend s = .next s := by
  change execHerdTimeSend s = _
  rw [execHerdTimeSend]
  cases herdTimeOf s with
  | none => rfl
  | some t => exact congrArg Host.Outcome.next (if_neg (by rw [hdue]; exact Bool.false_ne_true))

theorem herdTimeOf_source {s : State} (h : s.cfg.time.herdSource = ownHid s) : herdTimeOf s = some (now s) := if_pos h

theorem herdTimeOf_member {s : State} (h : s.cfg.time.herdSource ≠ ownHid s) (hlocked : (base s 3).state = 1) :
    herdTimeOf s = some (((base s 3).val >>> 32).setWidth 64) :=
  (if_neg h).trans (if_pos hlocked)

section
variable {l : Fin 4} {ts age : BitVec 64} {s : State}

theorem herdTimeMessage_of_source_link (h : s.tan.joined = false) (hsource : s.cfg.time.herdSource ≠ ownHid s)
    (hroute : routeLink s s.cfg.time.herdSource = some l.val) :
    (s.cfg.time.herdSource = ownHid s || routeLink s s.cfg.time.herdSource != some l.val) = false ∧
      mirrorHerd (.time l ts age) s = s := by
  rw [decide_eq_false hsource, hroute, bne_self_eq_false]
  exact ⟨rfl, mirrorHerd_of_alone h⟩

theorem herdTimeMessage_without_delay (h : s.tan.joined = false) (hsource : s.cfg.time.herdSource ≠ ownHid s)
    (hroute : routeLink s s.cfg.time.herdSource = some l.val) (hdelay : (hlink s l).delay = none) :
    exec (.herdTimeMessage l ts age) s = .next { s with time := { s.time with
      counters := listMod s.time.counters 6 (fun v => min (v + 1) 0xFFFFFFFF) } } := by
  obtain ⟨hlink, hmirror⟩ := herdTimeMessage_of_source_link (ts := ts) (age := age) h hsource hroute
  change execHerdTimeMessage l ts age s = _
  rw [execHerdTimeMessage, hmirror]
  rw [hlink, if_neg Bool.false_ne_true, hdelay]
  rfl

theorem herdTimeMessage_taken {d : Nat} (h : s.tan.joined = false) (hsource : s.cfg.time.herdSource ≠ ownHid s)
    (hroute : routeLink s s.cfg.time.herdSource = some l.val) (hdelay : (hlink s l).delay = some d) :
    exec (.herdTimeMessage l ts age) s = .next (takeHerdTime d ts age s) := by
  obtain ⟨hlink, hmirror⟩ := herdTimeMessage_of_source_link (ts := ts) (age := age) h hsource hroute
  change execHerdTimeMessage l ts age s = _
  rw [execHerdTimeMessage, hmirror]
  rw [hlink, if_neg Bool.false_ne_true, hdelay]

theorem good_takeHerdTime (d : Nat) (hnew : (base s 3).stepped = false) :
    (base (takeHerdTime d ts age s) 3).good = (base s 3).good + 1 :=
  congrArg Base.good (base_discipline_of_new (valid := true) hnew)

end

/-! ### Surveys -/

theorem exec_surveyProbe (x : ProbeIn) (s : State) : exec (.surveyProbe x) s = execSurveyProbe x s := rfl

section
variable {s : State} (h : s.tan.joined = false)
include h

theorem surveyProbe_request (l : Fin 4) (t1 t2 : BitVec 64) :
    exec (.surveyProbe (.request l t1 t2)) s = .next (originate (.probeAnswer l t1 t2 (now s)) s) := by
  rw [exec_surveyProbe, execSurveyProbe, mirrorHerd_of_alone h]

theorem surveyProbe_pair (l : Fin 4) (t1 t2 t3 t4 : BitVec 64) :
    exec (.surveyProbe (.pair l t1 t2 t3 t4)) s = .next (takeProbe l (((t4 - t1).toInt - (t3 - t2).toInt) / 2) s) := by
  rw [exec_surveyProbe, execSurveyProbe, mirrorHerd_of_alone h]
  rfl

theorem surveyProbe_passed {path : List Nat} {pos d l : Nat} (hfree : s.time.survey = none)
    (hback : linkTo s (path.getD (pos - 1) 64) = some l) :
    exec (.surveyProbe (.passed path pos d)) s = .next (beginSurvey { path := path, pos := pos }
      (setHlink s l { hlink s l with delay := some d, stale := false, surveys := [] })) := by
  have hstill : (storeDelay l d s).time.survey = none := hfree
  rw [exec_surveyProbe, execSurveyProbe, mirrorHerd_of_alone h]
  dsimp only
  rw [joinSurvey, hback]
  dsimp only
  rw [hstill]
  rfl

theorem surveyProbe_unanswered {v : Survey} (hsurvey : s.time.survey = some v) (hopen : v.measured = false)
    (hdue : periodDue .probe 1000000 s = true) :
    exec (.surveyProbe .unanswered) s = .next (finishSurvey v.path (some v.pos) s) := by
  rw [exec_surveyProbe, execSurveyProbe, mirrorHerd_of_alone h]
  rw [probeLost, hsurvey]
  exact congrArg Host.Outcome.next (if_neg (by rw [hopen, hdue]; exact Bool.false_ne_true))

theorem surveyProbe_ended {v : Survey} (hsurvey : s.time.survey = some v) (hfirst : v.pos = 0) :
    exec (.surveyProbe (.ended v.path none)) s = .next (complete v.queue v.tag .ok [0#32, 0#32, w32 (v.path.length - 1)]
      (postEvent 0x0903 0 0#32 { s with time := { s.time with survey := none } })) := by
  rw [exec_surveyProbe, execSurveyProbe, mirrorHerd_of_alone h]
  dsimp only
  rw [endSurvey, hsurvey]
  dsimp only
  rw [bne_self_eq_false, if_neg Bool.false_ne_true, hfirst, bne_self_eq_false, if_neg Bool.false_ne_true]

theorem surveyProbe_broken {v : Survey} {i : Nat} (hsurvey : s.time.survey = some v) (hfirst : v.pos = 0)
    (hplaces : placesIn v.path (ownHid s) = [0]) (hlater : 0 < i) :
    exec (.surveyProbe (.ended v.path (some i))) s = .next (complete v.queue v.tag .ok [1#32, w32 i, w32 i]
      (postEvent 0x0903 1 (w32 i) (raise .surveyPartial { s with time := { s.time with survey := none } }))) := by
  have hnone : staleBeyond v.path i s = s := by
    rw [staleBeyond, hplaces, List.filter_cons_of_neg (by simpa using Nat.pos_iff_ne_zero.mp hlater)]
    rfl
  rw [exec_surveyProbe, execSurveyProbe, mirrorHerd_of_alone h]
  dsimp only
  rw [endSurvey]
  dsimp only
  rw [hnone, hsurvey]
  dsimp only
  rw [bne_self_eq_false, if_neg Bool.false_ne_true, hfirst, bne_self_eq_false, if_neg Bool.false_ne_true]

end

theorem takeProbe_next {l : Nat} {d : Int} {v : Survey} {s : State} (hsurvey : s.time.survey = some v) (hnext : surveyedLink s = some l)
    (hfew : (hlink s l).surveys.length < 15) :
    takeProbe l d s = originate (.probe l (now s)) (setHlink (ranNow .probe s) l { hlink s l with
      surveys := (hlink s l).surveys ++ [d] }) := by
  have hmore : ((hlink s l).surveys ++ [d]).length < 16 := by
    rw [List.length_append, List.length_singleton]
    omega
  rw [takeProbe, hsurvey]
  dsimp only
  rw [hnext, bne_self_eq_false, if_neg Bool.false_ne_true, if_pos hmore]

theorem takeProbe_last {l : Nat} {d : Int} {v : Survey} {s : State} (hsurvey : s.time.survey = some v) (hnext : surveyedLink s = some l)
    (hlast : (hlink s l).surveys.length = 15) :
    takeProbe l d s = passSurvey v l (median ((hlink s l).surveys ++ [d])).toNat s := by
  have hdone : ¬ ((hlink s l).surveys ++ [d]).length < 16 := by
    rw [List.length_append, List.length_singleton]
    omega
  rw [takeProbe, hsurvey]
  dsimp only
  rw [hnext, bne_self_eq_false, if_neg Bool.false_ne_true, if_neg hdone]

theorem passSurvey_spec {v : Survey} {l d : Nat} {s : State} (hrole : nonHolder s = false) (hleave : s.herd.leaveMsgs = false) :
    (hlink (passSurvey v l d s) l).delay = some d ∧ (hlink (passSurvey v l d s) l).stale = false
      ∧ (hlink (passSurvey v l d s) l).surveys = []
      ∧ (passSurvey v l d s).out.herd = s.out.herd ++ [.survey (v.path.getD (v.pos + 1) 64) v.path (v.pos + 1) d] := by
  have hstored : hlink (passSurvey v l d s) l = { hlink s l with delay := some d, stale := false, surveys := [] } := by
    rw [passSurvey, originate_of_free (s := storeDelay l d s) hrole hleave]
    exact (hlink_setHlink s l _ l).trans (if_pos rfl)
  refine ⟨congrArg HLink.delay hstored, congrArg HLink.stale hstored, congrArg HLink.surveys hstored, ?_⟩
  rw [passSurvey, originate_of_free (s := storeDelay l d s) hrole hleave]
  rfl

/-! ### The sleep oscillator, the registers and the advance of a TICK -/

theorem periodGood_iff (p : Word) : periodGood p = true ↔ 0x77359400 - 1000000 ≤ p.toNat ∧ p.toNat ≤ 0x77359400 + 1000000 := by
  have hnominal : nominalPeriod.toNat = 0x77359400 := rfl
  rw [periodGood, Bool.and_eq_true, decide_eq_true_eq, decide_eq_true_eq, hnominal]
  omega

theorem sleepCalibration_measured {p : Word} {s : State} (hmode : s.dev.mode ≠ .stall) :
    exec (.sleepCalibration p) s = .next (if periodGood p then { s with time := { s.time with sleepPeriod := p } }
      else raise .sleepCal { s with time := { s.time with sleepPeriod := p } }) :=
  congrArg Host.Outcome.next (if_neg hmode)

theorem wide_eq_append (lo hi : Word) : wide lo hi = hi ++ lo := by
  refine BitVec.eq_of_getLsbD_eq fun i hi64 => ?_
  simp only [wide, BitVec.getLsbD_or, BitVec.getLsbD_shiftLeft, BitVec.getLsbD_setWidth, BitVec.getLsbD_append]
  by_cases hlow : i < 32
  · simp [hlow, hi64]
  · have hover : lo.getLsbD i = false := BitVec.getLsbD_of_ge lo i (by omega)
    simp [hlow, hover, hi64]
    omega

theorem tb4IncHi_writes {s : State} (v : Word) (h : s.cfg.time.discipline = false) :
    exec (.tb4IncHi v) s = .next (setBase s 4 { base s 4 with inc := v ++ s.time.incLo }) := by
  rw [← wide_eq_append]
  exact congrArg Host.Outcome.next (if_neg (by rw [h]; exact Bool.false_ne_true))

/-- The bases and ST as tickTime leaves them, before the bit that it may raise. -/
def ticked (s : State) : State :=
  let b4 := base s 4
  let tbs := [(0, advanceBase (base s 0)), (1, advanceBase (base s 1)), (2, advanceBase (base s 2)), (3, advanceBase (base s 3)),
    (4, advanceBase (if disciplined s then { b4 with inc := BitVec.ofInt 64 (stAdvance s).1 } else b4))]
  { s with time := { s.time with tbs := tbs, st := s.time.st + BitVec.ofInt 96 (stAdvance s).1, stRate := rateOf (stAdvance s).1
                                 rateLimited := (stAdvance s).2 } }

theorem time_tickTime (s : State) : (tickTime s).time = (ticked s).time := by
  rcases ite_eq_or_eq ((((stAdvance s).2 && !s.time.rateLimited)
    || (((stAdvance s).2 || (List.range 4).any (atBound s)) && !trouble s .rateLimit)) = true)
    (raise .rateLimit (ticked s)) (ticked s) with h | h
  · exact (congrArg State.time h).trans (keeps_raise .rateLimit (ticked s) State.time)
  · exact congrArg State.time h

theorem val_tickTime {n : Nat} (s : State) (hn : n < 4) : (base (tickTime s) n).val = (base s n).val + (base s n).inc.setWidth 96 := by
  rw [base, time_tickTime]
  match n, hn with
  | 0, _ => rfl
  | 1, _ => rfl
  | 2, _ => rfl
  | 3, _ => rfl

theorem st_tickTime {s : State} (h : s.time.stLocked = false) : (tickTime s).time.st = s.time.st + (followed s).inc.setWidth 96 := by
  have hadvance : (stAdvance s).1 = ((followed s).inc.toNat : Int) := by rw [stAdvance, h]; rfl
  rw [time_tickTime]
  change s.time.st + BitVec.ofInt 96 (stAdvance s).1 = _
  rw [hadvance, BitVec.ofInt_natCast, BitVec.ofNat_toNat]

/-- Settles O42: one lemma for each event of the time unit. -/
theorem timeEventsAct : Obligations.TimeEventsAct :=
  ⟨fun _ _ _ hx hstate hstep hgood htod hsource => tbStateChange_first_lock hx hstate hstep hgood htod hsource, stepBase_spec,
   fun _ _ _ hx hstate hstep hgood htod hsource => tbStateChange_lock_again hx hstate hstep hgood htod hsource,
   fun _ _ _ hx hstate hdue => tbStateChange_holdover hx hstate hdue, fun _ _ _ hx hstate hdue => tbStateChange_lost hx hstate hdue,
   fun _ => ⟨rfl, rfl, rfl, rfl, rfl, rfl⟩, fun _ _ h => setBaseState_lost h, fun _ _ h => if_neg h,
   fun _ h => congrArg Host.Outcome.next (reselect_none_follows h), fun _ h => congrArg Host.Outcome.next (tryFirstLock_of_locked h),
   fun _ _ hnew hsel hstep hlisted hasked hwaited hrange => firstWaitExpiry_locks hnew hsel hstep hlisted hasked hwaited hrange,
   fun _ _ h hin hedge hnew => ppsInEdge_counts h hin hedge hnew, fun _ _ h hin hedge hstep hfar => ppsInEdge_outside h hin hedge hstep hfar,
   fun _ hin hstep hwindow => ppsMissing_counts hin hstep hwindow, fun _ hout hlocked hdrive hdue => ppsOutPulse_pulses hout hlocked hdrive hdue,
   fun _ h => ppsOut_before_first_lock h, fun _ hout hlocked hdrive => ppsOutLevel_eq hout hlocked hdrive,
   fun _ _ henable hmaster hready hrole hdue => delayReqSend_sends henable hmaster hready hrole hdue,
   fun _ _ h => delayReqSend_of_not_due h, fun _ _ h => delayReqSend_without_master h,
   fun _ _ _ _ _ hasked hms hport hseq => takeDelayResp_measures hasked hms hport hseq,
   fun _ t1 t2 c _ h => measureSync_without_delay t1 t2 c h, fun _ _ t _ _ h => slaveClock_of_other t h,
   fun _ hsource hdue => herdTimeSend_due (herdTimeOf_source hsource) hdue,
   fun _ hsource hlocked hdue => herdTimeSend_due (herdTimeOf_member hsource hlocked) hdue, fun _ hdue => herdTimeSend_not_due hdue,
   fun p _ s hpos hlt => periodDue_just_ran p s hpos hlt, fun _ _ n s h => periodDue_ranNow_other h n s,
   fun _ _ _ _ h hsource hroute hdelay => herdTimeMessage_without_delay h hsource hroute hdelay,
   fun _ d _ _ _ h hsource hroute hdelay => ⟨herdTimeMessage_taken h hsource hroute hdelay, fun hnew => good_takeHerdTime d hnew⟩,
   fun l t1 t2 t3 t4 _ _ h hsurvey hnext hfew =>
    (surveyProbe_pair h l t1 t2 t3 t4).trans (congrArg Host.Outcome.next (takeProbe_next hsurvey hnext hfew)),
   fun l t1 t2 t3 t4 _ _ h hsurvey hnext hlast hleave =>
    ⟨_, (surveyProbe_pair h l t1 t2 t3 t4).trans (congrArg Host.Outcome.next (takeProbe_last hsurvey hnext hlast)),
      passSurvey_spec (nonHolder_of_alone h) hleave⟩,
   fun l t1 t2 _ h => surveyProbe_request h l t1 t2, fun _ _ _ _ _ h hfree hback => surveyProbe_passed h hfree hback,
   fun _ _ h hsurvey hopen hdue => surveyProbe_unanswered h hsurvey hopen hdue,
   fun _ _ h hsurvey hfirst => surveyProbe_ended h hsurvey hfirst,
   fun _ _ _ h hsurvey hfirst hplaces hlater => surveyProbe_broken h hsurvey hfirst hplaces hlater,
   fun p _ hmode hlo hhi => (sleepCalibration_measured hmode).trans
    (congrArg Host.Outcome.next (if_pos ((periodGood_iff p).mpr ⟨hlo, hhi⟩))),
   fun p _ hmode hover => (sleepCalibration_measured hmode).trans
    (congrArg Host.Outcome.next (if_neg fun h => Nat.not_le.mpr hover ((periodGood_iff p).mp h).2)),
   fun _ _ h => congrArg Host.Outcome.next (if_pos h), fun v _ h => tb4IncHi_writes v h,
   fun _ _ h => congrArg Host.Outcome.next (if_pos h), fun s _ hn => val_tickTime s hn, fun _ h => st_tickTime h⟩

end Sys2Proof.Proofs
end

section
/-! Settles Obligations.GaitTimersAct: matches, captures, writes, turning points and the count of the gait timers. -/

namespace Sys2Proof.Proofs

open Sys2Proof.Machine Sys2Proof.Laws Sys2Proof.Safety

-- Proofs one after another: the threads of many at once would pass the memory that the check allows.
set_option Elab.async false

/-! ### Matches -/

/-- The count of a timer that runs has reached GT_COMPARE, and its match has not been served. -/
def AtCompare (v : Gait) : Prop := bit v.ctrl 0 = true ∧ v.matched = false ∧ v.count = v.compare

theorem matchDue_of {v : Gait} (h : AtCompare v) (hmode : gtMode v < 2) : matchDue v = true := by
  obtain ⟨hon, hnew, hcount⟩ := h
  have henable : gtEnable v = true := hon
  rw [matchDue, henable, hnew, decide_eq_true hcount, decide_eq_true hmode]
  rfl

theorem matchDue_eq_false {v : Gait} (h : v.count ≠ v.compare) : matchDue v = false := by
  rw [matchDue, decide_eq_false h, Bool.and_false, Bool.false_and]

/-- The timer after its match, with the bit that hardware has set at this instant. -/
def served (s : State) (t : Nat) : Gait := noteGt (now s) 1#32 (matched (gait s t))

theorem serveMatch_of_due {s : State} {t : Nat} (h : matchDue (gait s t) = true) :
    serveMatch t s = gtIrq (gait s t) (bit (gait s t).ctrl 27) (setGait s t (served s t)) := if_pos h

theorem serveMatch_of_not_due {s : State} {t : Nat} (h : matchDue (gait s t) = false) : serveMatch t s = s :=
  if_neg (by rw [h]; exact Bool.false_ne_true)

theorem gtIrq_quiet {v : Gait} {on : Bool} (h : on = false ∨ gtVector v = 0) (s : State) : gtIrq v on s = s := by
  refine if_neg ?_
  rcases h with h | h
  · rw [h, Bool.false_and]; exact Bool.false_ne_true
  · rw [h, bne_self_eq_false, Bool.and_false]; exact Bool.false_ne_true

theorem gtIrq_raises {v : Gait} (h : gtVector v ≠ 0) (s : State) : gtIrq v true s = msi (gtVector v) s :=
  if_pos (by rw [bne_iff_ne.mpr h]; rfl)

theorem gait_gtIrq (v : Gait) (on : Bool) (s : State) (k : Nat) : gait (gtIrq v on s) k = gait s k := by
  unfold gtIrq
  split <;> rfl

theorem trb_gtIrq (v : Gait) (on : Bool) (s : State) : (gtIrq v on s).trb = s.trb := by
  unfold gtIrq
  split <;> rfl

theorem served_one_shot {s : State} {t : Nat} (hmode : gtMode (gait s t) = 0) : served s t = { gait s t with
    matched := true, status := (gait s t).status ||| 1#32, ctrl := (gait s t).ctrl &&& 0xFFFFFFFE#32
    level := matchLevel (gait s t), setAt := now s, setNow := (if (gait s t).setAt = now s then (gait s t).setNow else 0) ||| 1#32 } := by
  rw [served, matched, hmode]
  rfl

theorem served_periodic {s : State} {t : Nat} (hmode : gtMode (gait s t) = 1) : served s t = { gait s t with
    matched := true, status := (gait s t).status ||| 1#32, compare := (gait s t).compare + (gait s t).interval
    level := matchLevel (gait s t), setAt := now s, setNow := (if (gait s t).setAt = now s then (gait s t).setNow else 0) ||| 1#32 } := by
  rw [served, matched, hmode]
  rfl

section
variable {t : Fin 16} {s : State}

theorem gtMatch_quiet (hdue : AtCompare (gait s t)) (hmode : gtMode (gait s t) < 2)
    (hirq : bit (gait s t).ctrl 27 = false ∨ gtVector (gait s t) = 0) :
    exec (.gtMatch t) s = .next (setGait s t (served s t)) :=
  congrArg Host.Outcome.next ((serveMatch_of_due (matchDue_of hdue hmode)).trans (gtIrq_quiet hirq _))

theorem gtMatch_one_shot (hdue : AtCompare (gait s t)) (hmode : gtMode (gait s t) = 0)
    (hirq : bit (gait s t).ctrl 27 = false ∨ gtVector (gait s t) = 0) :
    exec (.gtMatch t) s = .next (setGait s t { gait s t with
      matched := true, status := (gait s t).status ||| 1#32, ctrl := (gait s t).ctrl &&& 0xFFFFFFFE#32
      level := matchLevel (gait s t), setAt := now s, setNow := (if (gait s t).setAt = now s then (gait s t).setNow else 0) ||| 1#32 }) := by
  rw [gtMatch_quiet hdue (by omega) hirq, served_one_shot hmode]

theorem gtMatch_periodic (hdue : AtCompare (gait s t)) (hmode : gtMode (gait s t) = 1)
    (hirq : bit (gait s t).ctrl 27 = false ∨ gtVector (gait s t) = 0) :
    exec (.gtMatch t) s = .next (setGait s t { gait s t with
      matched := true, status := (gait s t).status ||| 1#32, compare := (gait s t).compare + (gait s t).interval
      level := matchLevel (gait s t), setAt := now s, setNow := (if (gait s t).setAt = now s then (gait s t).setNow else 0) ||| 1#32 }) := by
  rw [gtMatch_quiet hdue (by omega) hirq, served_periodic hmode]

theorem gtMatch_interrupts (hdue : AtCompare (gait s t)) (hmode : gtMode (gait s t) < 2) (hon : bit (gait s t).ctrl 27 = true)
    (hvector : gtVector (gait s t) ≠ 0) :
    ∃ u, exec (.gtMatch t) s = .next u ∧ u.out.msi = s.out.msi ++ [gtVector (gait s t)] :=
  ⟨msi (gtVector (gait s t)) (setGait s t (served s t)), congrArg Host.Outcome.next
    ((serveMatch_of_due (matchDue_of hdue hmode)).trans (by rw [hon, gtIrq_raises hvector])), rfl⟩

theorem gtMatch_of_ne (h : (gait s t).count ≠ (gait s t).compare) : exec (.gtMatch t) s = .next s :=
  congrArg Host.Outcome.next (serveMatch_of_not_due (matchDue_eq_false h))

/-! ### Captures -/

theorem gtCapEdge_captures {f : Bool} (h : s.tan.joined = false) (hlo : 1 ≤ gtCapSrc (gait s t)) (hhi : gtCapSrc (gait s t) ≤ 4)
    (hedge : edgeSelected (gait s t) f = true) (hmode : s.dev.mode ≠ .stall) :
    exec (.gtCapEdge t f) s = .next (capture t s) := by
  change execGtCapEdge t f s = _
  rw [execGtCapEdge, mirrorOut_of_alone h]
  refine congrArg Host.Outcome.next (if_pos ?_)
  rw [decide_eq_true hlo, decide_eq_true hhi, hedge, bne_iff_ne.mpr hmode]
  rfl

/-- The timer's registers after a capture. -/
def captured (v : Gait) : Gait :=
  { v with capture := v.count, status := setBit (if bit v.status 1 then setBit v.status 2 true else v.status) 1 true }

theorem capture_first {t : Nat} {s : State} (h : bit (gait s t).status 1 = false) :
    capture t s = gtIrq (gait s t) (bit (gait s t).ctrl 28) (setGait s t (captured (gait s t))) := by
  simp only [capture, captured, h, Bool.false_eq_true, if_false]

theorem capture_twice {t : Nat} {s : State} (h : bit (gait s t).status 1 = true) :
    capture t s = raise .gtOverrun (gtIrq (gait s t) (bit (gait s t).ctrl 28)
      (setGait s t (noteGt (now s) 4#32 (captured (gait s t))))) := by
  simp only [capture, captured, h, if_true]

theorem gait_capture (t k : Nat) (s : State) : (k = t → (gait (capture t s) k).capture = (gait s t).count
      ∧ (gait (capture t s) k).status = (captured (gait s t)).status) ∧ (k ≠ t → gait (capture t s) k = gait s k) := by
  cases h : bit (gait s t).status 1 with
  | false =>
    rw [capture_first h, gait_gtIrq, gait_setGait]
    exact ⟨fun hk => by rw [if_pos hk]; exact ⟨rfl, rfl⟩, fun hk => if_neg hk⟩
  | true =>
    rw [capture_twice h, keeps_raise _ _ (gait · k), gait_gtIrq, gait_setGait]
    exact ⟨fun hk => by rw [if_pos hk]; exact ⟨rfl, rfl⟩, fun hk => if_neg hk⟩

theorem gtCapEdge_spec {f : Bool} (hlo : 1 ≤ gtCapSrc (gait s t)) (hhi : gtCapSrc (gait s t) ≤ 4)
    (hedge : edgeSelected (gait s t) f = true) (hmode : s.dev.mode ≠ .stall) (h : s.tan.joined = false) :
    ∃ u, exec (.gtCapEdge t f) s = .next u ∧ (gait u t).capture = (gait s t).count ∧ bit (gait u t).status 1 = true
      ∧ (bit (gait s t).status 1 = true → bit (gait u t).status 2 = true ∧ trouble u .gtOverrun = true)
      ∧ (bit (gait s t).status 1 = false → bit (gait u t).status 2 = bit (gait s t).status 2 ∧ u.trb = s.trb)
      ∧ ∀ k, k ≠ t.val → gait u k = gait s k := by
  obtain ⟨hcapture, hstatus⟩ := (gait_capture t t s).1 rfl
  refine ⟨capture t s, gtCapEdge_captures h hlo hhi hedge hmode, hcapture, ?_, fun htwice => ⟨?_, ?_⟩, fun hfirst => ⟨?_, ?_⟩,
    fun k => (gait_capture t k s).2⟩
  · rw [hstatus, captured, bit_setBit (by decide)]
    simp
  · rw [hstatus, captured, htwice, if_pos rfl, bit_setBit (by decide), bit_setBit (by decide)]
    simp
  · rw [capture_twice htwice]
    exact trouble_raise _ _
  · rw [hstatus, captured, hfirst, if_neg Bool.false_ne_true, bit_setBit (by decide)]
    simp
  · rw [capture_first hfirst, trb_gtIrq]
    rfl

end

theorem gtCapEdge_lt (v : Gait) : gtCapEdge v < 4 := by
  have := Nat.mod_lt (v.ctrl.toNat >>> 19) (show 0 < 4 by decide)
  simpa [gtCapEdge, bits] using this

theorem edgeSelected_spec (v : Gait) : edgeSelected v false = decide (gtCapEdge v = 0 ∨ gtCapEdge v = 2)
    ∧ edgeSelected v true = decide (gtCapEdge v = 1 ∨ gtCapEdge v = 2) := by
  have hlt := gtCapEdge_lt v
  unfold edgeSelected
  generalize gtCapEdge v = n at hlt ⊢
  match n, hlt with
  | 0, _ => exact ⟨rfl, rfl⟩
  | 1, _ => exact ⟨rfl, rfl⟩
  | 2, _ => exact ⟨rfl, rfl⟩
  | 3, _ => exact ⟨rfl, rfl⟩

/-! ### Writes -/

theorem gtCompareWrite_of_due {t : Fin 16} {s : State} (v : Word) (hdue : AtCompare (gait s t)) (hmode : gtMode (gait s t) = 1) :
    ∃ u, exec (.gtCompareWrite t v) s = .next u ∧ (gait u t).compare = v ∧ bit (gait u t).status 0 = true := by
  refine ⟨writeCompare t v s, rfl, ?_, ?_⟩
  · rw [writeCompare, gait_setGait, if_pos rfl]
  · rw [writeCompare, gait_setGait, if_pos rfl, serveMatch_of_due (matchDue_of hdue (by omega)), gait_gtIrq, gait_setGait, if_pos rfl,
      served_periodic hmode]
    exact (bit_setBit (w := (gait s t).status) (i := 0) (j := 0) (by decide)).trans (Bool.or_true _)

theorem gtCompareWrite_of_ne {t : Fin 16} {s : State} (v : Word) (h : (gait s t).count ≠ (gait s t).compare) :
    exec (.gtCompareWrite t v) s = .next (setGait s t { gait s t with compare := v }) := by
  refine congrArg Host.Outcome.next ?_
  rw [writeCompare, serveMatch_of_not_due (matchDue_eq_false h)]

theorem gtClear_clears {t : Fin 16} {s : State} {v : Word} (h : bit v 29 = true) :
    exec (.gtClear t v) s = .next (setGait s t { gait s t with
      ctrl := v &&& 0x1FFFFFFF#32, count := 0, pre := 0, level := false, matched := false, status := (gait s t).status &&& 0xFFFFFFEF#32 }) := by
  refine (if_pos h).trans (congrArg (fun g => Host.Outcome.next (setGait s t g)) ?_)
  exact if_pos h

/-! ### Turning points and the count -/

theorem turned_at_top {v : Gait} (hon : bit v.ctrl 0 = true) (hmode : gtMode v = 2) (hup : bit v.status 4 = false)
    (htop : v.top ≤ v.count) : turned v = { v with status := v.status ||| 16#32 } := by
  have henable : gtEnable v = true := hon
  have hdown : gtDown v = false := hup
  rw [turned, henable, hdown, decide_eq_true hmode, decide_eq_true htop]
  rfl

theorem turned_at_zero {v : Gait} (hon : bit v.ctrl 0 = true) (hmode : gtMode v = 2) (hdown : bit v.status 4 = true)
    (hzero : v.count = 0#32) : turned v = { v with status := v.status &&& 0xFFFFFFEF#32 } := by
  have henable : gtEnable v = true := hon
  have hdir : gtDown v = true := hdown
  rw [turned, henable, hdir, decide_eq_true hmode, decide_eq_true hzero]
  rfl

theorem counts_of {v : Gait} (hon : bit v.ctrl 0 = true) (hmode : gtMode v < 2) : (gtEnable v && gtMode v < 3) = true := by
  have henable : gtEnable v = true := hon
  rw [henable, decide_eq_true (Nat.lt_succ_of_lt hmode)]
  rfl

theorem tickGait_prescales {v : Gait} (hon : bit v.ctrl 0 = true) (hmode : gtMode v < 2) (hpre : v.pre < gtPrescale v) :
    tickGait v = { v with pre := v.pre + 1 } := by
  rw [tickGait, if_pos (counts_of hon hmode)]
  exact if_neg (by simpa using hpre)

theorem countStep_up {v : Gait} (hmode : gtMode v < 2) : (countStep v).count = v.count + 1 ∧ (countStep v).pre = v.pre := by
  have hplain : gtMode v ≠ 2 := Nat.ne_of_lt hmode
  have hturned : turned v = v := if_neg (by rw [decide_eq_false hplain, Bool.and_false]; exact Bool.false_ne_true)
  simp only [countStep, hturned, if_neg hplain, and_self]

theorem tickGait_counts {v : Gait} (hon : bit v.ctrl 0 = true) (hmode : gtMode v < 2) (hpre : gtPrescale v ≤ v.pre) :
    (tickGait v).count = v.count + 1 ∧ (tickGait v).pre = 0 := by
  have htick : tickGait v = countStep { v with pre := 0 } := by
    rw [tickGait, if_pos (counts_of hon hmode)]
    exact if_pos hpre
  rw [htick]
  exact countStep_up (v := { v with pre := 0 }) hmode

theorem gtOutput_unselected {s : State} {k : Nat} (h : ∀ t, t < 16 → gtOut (gait s t) ≠ k + 1) : gtOutput s k = false := by
  have hnone : (List.range 16).find? (fun t => gtOut (gait s t) = k + 1) = none :=
    List.find?_eq_none.mpr fun t ht => by simpa using h t (List.mem_range.mp ht)
  rw [gtOutput, hnone]

/-- Settles O43: one lemma for each row and each count of the gait timers. -/
theorem gaitTimersAct : Obligations.GaitTimersAct :=
  ⟨fun _ _ hdue hmode hirq => gtMatch_one_shot hdue hmode hirq, fun _ _ hdue hmode hirq => gtMatch_periodic hdue hmode hirq,
   fun _ _ hdue hmode hon hvector => gtMatch_interrupts hdue hmode hon hvector, fun _ _ h => gtMatch_of_ne h,
   fun _ _ _ hlo hhi hedge hmode h => gtCapEdge_spec hlo hhi hedge hmode h, edgeSelected_spec, fun _ _ _ h => gtClear_clears h,
   fun _ _ _ => rfl, fun _ v _ h => gtCompareWrite_of_ne v h, fun _ v _ hdue hmode => gtCompareWrite_of_due v hdue hmode,
   fun _ _ => rfl,
   fun t s hon hmode hup htop => congrArg (fun g => Host.Outcome.next (setGait s t g)) (turned_at_top hon hmode hup htop),
   fun t s hon hmode hdown hzero => congrArg (fun g => Host.Outcome.next (setGait s t g)) (turned_at_zero hon hmode hdown hzero),
   fun _ hon hmode hpre => tickGait_prescales hon hmode hpre, fun _ hon hmode hpre => tickGait_counts hon hmode hpre,
   fun _ _ h => gtOutput_unselected h⟩

end Sys2Proof.Proofs
end

section
/-! Settles Obligations.HerdCommandsRun: the commands of the herd, of the tandem and of Bridle. -/

namespace Sys2Proof.Proofs

open Sys2Proof.Machine Sys2Proof.Laws Sys2Proof.Safety

-- Proofs one after another: the threads of many at once would pass the memory that the check allows.
set_option Elab.async false

/-! ### Identity, members and leaving -/

theorem linksDisabled_iff {u : State} : linksDisabled u = true ↔ ∀ l, l < 4 → (linkCfg u l).enable = false := by
  simp [linksDisabled]

theorem herdIdSet_runs : Runs .herdIdSet 0x0B00 1
    (fun c u => pn c 0 ≤ 63 ∧ ∀ l, l < 4 → (linkCfg u l).enable = false) (fun _ _ => [])
    (fun c u => { u with dev := { u.dev with hid := (pw c 0).setWidth 6 }
                         cfg := { u.cfg with herd := { u.cfg.herd with hidOverride := some ((pw c 0).setWidth 6) } } }) :=
  runs_row herdIdSetSpec (fun _ _ ⟨hid, _⟩ => within_iff.mpr ⟨Nat.zero_le _, hid⟩) (fun _ _ _ => rfl)
    (hr := fun _ _ ⟨_, hoff⟩ => linksDisabled_iff.mpr hoff)

theorem herdIdSet_with_link : Ends .herdIdSet 0x0B00 1 (fun c u => pn c 0 ≤ 63 ∧ (linkCfg u 0).enable = true) .invalidState :=
  ends_notReady herdIdSetSpec (fun _ _ ⟨hid, _⟩ => within_iff.mpr ⟨Nat.zero_le _, hid⟩)
    (fun _ _ ⟨_, hon⟩ => Bool.eq_false_of_not_eq_true fun h =>
      Bool.false_ne_true ((linksDisabled_iff.mp h 0 (by decide)).symm.trans hon))

/-- What HERD_LEAVE withdraws while no track is in progress. -/
def leaveWithdrawal (c : Packet) : Withdrawal :=
  { queue := c.queue.val, tag := c.tag, plain := none, kind := .herdLeave, tracks := [] }

theorem herdLeaveSpec_run {c : Packet} {u : State} (hdrains : u.rx.drains = []) (htracks : u.rx.tracks = []) :
    herdLeaveSpec.run c u = doneWith [0#32] (finishWithdrawal { leaveWithdrawal c with deadline := after u 4000000000 }
      { u with herd := { u.herd with leaving := true },
               rx := { u.rx with drains := [{ leaveWithdrawal c with deadline := after u 4000000000 }] } }) := by
  have hnone : trackNums u (fun _ => true) = [] := by rw [trackNums, htracks]; rfl
  have hfresh : FreshTag c { u with herd := { u.herd with leaving := true } } := by simp [FreshTag, hdrains]
  have hrun : herdLeaveSpec.run c u
      = beginWithdrawal { leaveWithdrawal c with tracks := trackNums u (fun _ => true) } (bit (pw c 0) 0)
          { u with herd := { u.herd with leaving := true } } := rfl
  rw [hrun, hnone, beginWithdrawal_of_none hfresh rfl rfl rfl]
  simp only [hdrains]
  rfl

/-- HERD_LEAVE with no track to drain ends at once. -/
theorem herdLeave_runs : Runs .herdLeave 0x0B03 1 (fun c u => pn c 0 < 2 ∧ u.rx.drains = [] ∧ u.rx.tracks = [])
    (fun _ _ => [0#32])
    (fun c u =>
      let w : Withdrawal := { queue := c.queue.val, tag := c.tag, plain := none, kind := .herdLeave, tracks := [] }
      finishWithdrawal { w with deadline := after u 4000000000 }
        { u with herd := { u.herd with leaving := true },
                 rx := { u.rx with drains := [{ w with deadline := after u 4000000000 }] } }) :=
  runs_row herdLeaveSpec (fun _ _ ⟨hforce, _⟩ => fits_iff.mpr hforce)
    (fun _ _ ⟨_, hdrains, htracks⟩ => herdLeaveSpec_run hdrains htracks)
    (hr := fun _ u ⟨_, hdrains, _⟩ => by
      have hidle : ∀ p, draining u p = false := fun p => by rw [draining, hdrains]; rfl
      simp [herdLeaveSpec, hidle])

theorem foreignSet_runs : Runs .foreignSet 0x0B04 2 (fun c _ => pn c 0 ≤ 1 ∧ pn c 1 < 4096) (fun _ _ => [])
    (fun c u => setBhCfg u (pn c 0) { bhCfg u (pn c 0) with foreignVid := pn c 1 }) :=
  runs_row foreignSetSpec
    (fun _ _ ⟨hport, hvid⟩ => Bool.and_eq_true_iff.mpr ⟨within_backhaul hport, fits_iff.mpr hvid⟩) (fun _ _ _ => rfl)

/-! ### Forming a pair, and dissolving it -/

/-- The operands of TANDEM_FORM lie in the ranges that R418 gives them. -/
theorem tandemForm_valid {c : Packet} (hrole : pn c 0 < 16) (hlease : 500 ≤ pn c 1 ∧ pn c 1 ≤ 10000)
    (hhold : 1 ≤ pn c 2 ∧ pn c 2 ≤ 3600) (hrevert : pn c 3 < 2) (hmask : pn c 4 < 1048576) : tandemFormSpec.valid c = true := by
  have hbits : fits c 0 4 = true ∧ fits c 3 1 = true ∧ fits c 4 20 = true :=
    ⟨fits_iff.mpr hrole, fits_iff.mpr hrevert, fits_iff.mpr hmask⟩
  change (fits c 0 4 && within c 1 500 10000 && within c 2 1 3600 && fits c 3 1 && fits c 4 20) = true
  rw [hbits.1, hbits.2.1, hbits.2.2, within_iff.mpr hlease, within_iff.mpr hhold]
  rfl

theorem mayForm_iff {c : Packet} {u : State} : mayForm c u = true ↔
    (hlink u (pf c 0 3 2)).neighbour = some (ownHid u) ∧ (Config.partner u.free).1 = !bit (pw c 0) 0
      ∧ (Config.partner u.free).2.1 = !bit (pw c 0) 1 ∧ (Config.partner u.free).2.2 = true := by
  simp [mayForm, partnerThere, and_assoc, Bool.eq_not]

theorem tandemForm_runs : Runs .tandemForm 0x0B10 5
    (fun c u => pn c 0 < 16 ∧ 500 ≤ pn c 1 ∧ pn c 1 ≤ 10000 ∧ 1 ≤ pn c 2 ∧ pn c 2 ≤ 3600 ∧ pn c 3 < 2 ∧ pn c 4 < 1048576
      ∧ (hlink u (pf c 0 3 2)).neighbour = some (ownHid u) ∧ (Config.partner u.free).1 = !bit (pw c 0) 0
      ∧ (Config.partner u.free).2.1 = !bit (pw c 0) 1 ∧ (Config.partner u.free).2.2 = true) (fun _ _ => []) formPair :=
  runs_row tandemFormSpec
    (fun _ _ ⟨hrole, hl, hl', hh, hh', hrevert, hmask, _⟩ => tandemForm_valid hrole ⟨hl, hl'⟩ ⟨hh, hh'⟩ hrevert hmask)
    (fun _ _ _ => rfl) (hr := fun _ _ ⟨_, _, _, _, _, _, _, hform⟩ => mayForm_iff.mpr hform)

theorem tandemForm_without_partner : Ends .tandemForm 0x0B10 5
    (fun c u => pn c 0 < 16 ∧ 500 ≤ pn c 1 ∧ pn c 1 ≤ 10000 ∧ 1 ≤ pn c 2 ∧ pn c 2 ≤ 3600 ∧ pn c 3 < 2 ∧ pn c 4 < 1048576
      ∧ (hlink u (pf c 0 3 2)).neighbour ≠ some (ownHid u)) .invalidState :=
  ends_notReady tandemFormSpec
    (fun _ _ ⟨hrole, hl, hl', hh, hh', hrevert, hmask, _⟩ => tandemForm_valid hrole ⟨hl, hl'⟩ ⟨hh, hh'⟩ hrevert hmask)
    (fun _ _ ⟨_, _, _, _, _, _, _, habsent⟩ => Bool.eq_false_of_not_eq_true fun h => habsent (mayForm_iff.mp h).1)

theorem formPair_forms (c : Packet) (u : State) :
    let t := formPair c u
    t.tan.joined = true ∧ t.tan.role = bit (pw c 0) 0 ∧ t.tan.pos = bit (pw c 0) 1 ∧ t.tan.link = pf c 0 3 2
      ∧ t.tan.reins = !bit (pw c 0) 0 ∧ t.tan.outputs = !bit (pw c 0) 0 ∧ t.tan.step = 1
      ∧ t.tan.epoch = (if bit (pw c 0) 0 then (hlink u (pf c 0 3 2)).nEpoch else u.dev.bootEpoch)
      ∧ t.cfg.tan = { lease := pn c 1, revertHold := pn c 2, revert := bit (pw c 3) 0, takeover := (pw c 4).setWidth 20 } := by
  unfold formPair
  cases bit (pw c 0) 0 <;> exact ⟨rfl, rfl, rfl, rfl, rfl, rfl, rfl, rfl, rfl⟩

/-! ### Handover, resynchronisation, counters -/

theorem reinsHandover_runs : Runs .reinsHandover 0x0B13 0
    (fun _ u => u.tan.joined = true ∧ u.tan.reins = true ∧ u.tan.step = 1 ∧ u.tan.handover = none)
    (fun _ u => [(boundaryIn2ms u).setWidth 32]) (fun _ u => grantHandover 3 u) :=
  runs_row reinsHandoverSpec (fun _ _ _ => rfl) (fun _ _ _ => rfl)
    (hr := fun _ u ⟨hjoined, hreins, hstep, hfree⟩ => by simp [reinsHandoverSpec, mayRelease, hjoined, hreins, hstep, hfree])

theorem reinsHandover_without_reins : Ends .reinsHandover 0x0B13 0 (fun _ u => u.tan.reins = false) .invalidState :=
  ends_notReady reinsHandoverSpec (fun _ _ _ => rfl)
    (fun _ u hreins => by simp [reinsHandoverSpec, mayRelease, show u.tan.reins = false from hreins])

theorem tandemResync_runsOn : RunsOn .tandemResync 0x0B14 0
    (fun _ u => u.tan.joined = true ∧ u.tan.reins = false ∧ u.tan.resync = none)
    (fun c u => setTan (beginResync u) { (beginResync u).tan with resync := some (c.queue.val, c.tag) }) :=
  runsOn_row tandemResyncSpec (fun _ _ _ => rfl) (fun _ _ _ => rfl)
    (hr := fun _ u ⟨hjoined, hreins, hfree⟩ => by simp [tandemResyncSpec, nonHolder, hjoined, hreins, hfree])

theorem tandemCountersRead_runs : Runs .tandemCountersRead 0x0B21 1 (fun c _ => pn c 0 < 2) (fun _ u => u.tan.counters.map w32)
    (fun c u => if pn c 0 = 1 then { u with tan := { u.tan with counters := List.replicate 9 0 } } else u) :=
  runs_row tandemCountersReadSpec (fun _ _ hflag => only_one hflag)
    (fun c u hflag => by
      simp only [tandemCountersReadSpec, plainSpec, bit_zero_eq (show pn c 0 < 2 from hflag), decide_eq_true_eq]
      rfl)

/-- Settles O44: one lemma per row, the members, status and dissolving rows as their tables give them. -/
theorem herdCommandsRun : Obligations.HerdCommandsRun :=
  ⟨herdIdSet_runs, herdIdSet_with_link,
    runs_row herdMembersSetSpec (fun _ _ hdelay => within_iff.mpr hdelay) (fun _ _ _ => rfl),
    runs_row herdStatusSpec (fun _ _ _ => rfl) (fun _ _ _ => rfl), herdLeave_runs, foreignSet_runs, tandemForm_runs,
    tandemForm_without_partner, formPair_forms,
    runs_row tandemDissolveSpec (fun _ _ _ => rfl) (fun _ _ _ => rfl) (hr := fun _ _ hjoined => hjoined),
    fun _ => ⟨rfl, rfl⟩, runs_row tandemStatusSpec (fun _ _ _ => rfl) (fun _ _ _ => rfl), reinsHandover_runs,
    reinsHandover_without_reins, tandemResync_runsOn, runs_row bridleStatusSpec (fun _ _ _ => rfl) (fun _ _ _ => rfl),
    tandemCountersRead_runs⟩

end Sys2Proof.Proofs
end

section
/-! Settles Obligations.HerdAuthority: membership messages, splits, authority and healing. -/

namespace Sys2Proof.Proofs

open Sys2Proof.Machine Sys2Proof.Laws Sys2Proof.Safety

-- Proofs one after another: the threads of many at once would pass the memory that the check allows.
set_option Elab.async false

/-! ### Masks -/

theorem mem_maskList {n : Nat} {m : BitVec n} {i : Nat} : i ∈ maskList m ↔ i < n ∧ bit m i = true := by
  simp [maskList, bit]

theorem bit_setBit_iff {n : Nat} {m : BitVec n} {i j : Nat} :
    bit (setBit m i true) j = true ↔ bit m j = true ∨ (j < n ∧ j = i) := by
  have hone : (BitVec.ofNat n (2 ^ i)).getLsbD j = (decide (j < n) && decide (i = j)) := by
    rw [BitVec.getLsbD_ofNat, Nat.testBit_two_pow]
  rw [bit, setBit, if_pos rfl, BitVec.getLsbD_or, hone, eq_comm (a := j)]
  simp [bit]

theorem bit_foldl_setBit {n : Nat} (l : List Nat) (m : BitVec n) (j : Nat) :
    bit (l.foldl (fun m i => setBit m i true) m) j = true ↔ bit m j = true ∨ (j < n ∧ j ∈ l) := by
  induction l generalizing m with
  | nil => simp
  | cons x r ih =>
    rw [List.foldl_cons, ih, bit_setBit_iff, List.mem_cons]
    tauto

theorem bit_maskOf {n : Nat} (l : List Nat) (j : Nat) : bit (maskOf n l) j = true ↔ j < n ∧ j ∈ l := by
  have hzero : ¬ bit (0 : BitVec n) j = true := by simp [bit]
  rw [maskOf, bit_foldl_setBit]
  exact ⟨fun h => h.resolve_left hzero, Or.inr⟩

/-- The lowest number that a mask names. -/
theorem head?_maskList {n : Nat} {m : BitVec n} {i : Nat} :
    (maskList m).head? = some i ↔ i < n ∧ bit m i = true ∧ ∀ k, k < i → bit m k = false := by
  rw [maskList, List.head?_filter, List.find?_range_eq_some]
  simp [bit, and_left_comm]

/-! ### Membership messages -/

theorem membershipSend_of_due {s : State} (h : periodDue .membership 10000000 s = true) :
    exec .membershipSend s = .next (tellMembership (refreshPresence (ranNow .membership s))) :=
  congrArg Host.Outcome.next (if_pos h)

theorem membershipSend_of_early {s : State} (h : periodDue .membership 10000000 s = false) :
    exec .membershipSend s = .next s :=
  congrArg Host.Outcome.next (if_neg (by rw [h]; exact Bool.false_ne_true))

theorem membershipMessage_of_up (l : Fin 4) (m : BitVec 64) {s : State} (hup : (hlink s l).up = true)
    (halone : s.tan.joined = false) :
    exec (.membershipMessage l m) s =
      .next (refreshPresence { s with herd := { s.herd with told := tabSet s.herd.told l m } }) := by
  change execMembershipMessage l m s = _
  rw [execMembershipMessage, mirrorHerd_of_alone halone]
  exact congrArg Host.Outcome.next (if_pos hup)

/-! ### Authority -/

theorem bit_overdue (s : State) (h : Nat) : bit (overdue s) h = true ↔ h < 64 ∧ bit (members s) h = true
    ∧ ∃ t, (peerOf s h).absent = some t ∧ reached s (t + BitVec.ofNat 64 (1000000 * s.cfg.herd.splitDelay)) = true := by
  rw [overdue, bit_maskOf, List.mem_filter, mem_maskList]
  cases (peerOf s h).absent with
  | none => simp
  | some t => simp [splitNs, and_assoc]

/-- Half of the members suffice with the lowest of them (R389). -/
theorem fullAuthority_iff (s : State) : fullAuthority s = true ↔ maskCount (members s) < 2 * maskCount (presentMask s)
    ∨ (2 * maskCount (presentMask s) = maskCount (members s) ∧ ∃ h, bit (members s) h = true ∧ present s h = true
        ∧ ∀ k, k < h → bit (members s) k = false) := by
  unfold fullAuthority
  cases hlow : (maskList (members s)).head? with
  | none =>
    have hnone : ∀ h, bit (members s) h ≠ true := fun h hbit => by
      have hmem : h ∈ maskList (members s) := mem_maskList.mpr ⟨BitVec.lt_of_getLsbD hbit, hbit⟩
      rw [List.head?_eq_none_iff.mp hlow] at hmem
      cases hmem
    simp [hnone]
  | some low =>
    obtain ⟨_, hbit, hbelow⟩ := head?_maskList.mp hlow
    have honly : (∃ h, bit (members s) h = true ∧ present s h = true ∧ ∀ k, k < h → bit (members s) k = false)
        ↔ present s low = true := by
      refine ⟨fun ⟨h, hh, hpresent, hmin⟩ => ?_, fun hpresent => ⟨low, hbit, hpresent, hbelow⟩⟩
      obtain hlt | rfl | hgt := Nat.lt_trichotomy h low
      · rw [hbelow h hlt] at hh
        cases hh
      · exact hpresent
      · rw [hmin low hgt] at hbit
        cases hbit
    rw [honly]
    simp

/-! ### Splits and healing -/

/-- Reports read by nothing that decides authority. -/
theorem fullAuthority_raise (b : TrbBit) (s : State) : fullAuthority (raise b s) = fullAuthority s :=
  keeps_raise b s fullAuthority

theorem judgeAuthority_herd (s : State) :
    (judgeAuthority s).herd = { s.herd with minority := s.herd.split && !fullAuthority s } := by
  unfold judgeAuthority
  dsimp only
  split
  · exact keeps_raise _ _ State.herd
  · rfl

theorem fullAuthority_judgeAuthority (s : State) : fullAuthority (judgeAuthority s) = fullAuthority s := by
  unfold judgeAuthority
  dsimp only
  split
  · exact fullAuthority_raise _ _
  · rfl

theorem trouble_judgeAuthority {b : TrbBit} {s : State} (h : trouble s b = true) : trouble (judgeAuthority s) b = true := by
  unfold judgeAuthority
  dsimp only
  split
  · exact trouble_raise_of h
  · exact h

/-- A device that comes into the minority says so. -/
theorem minority_judgeAuthority {s : State} (hsplit : s.herd.split = true) (hpart : fullAuthority s = false)
    (hbefore : s.herd.minority = false) : trouble (judgeAuthority s) .minority = true := by
  unfold judgeAuthority
  dsimp only
  rw [if_pos (by rw [hsplit, hpart, hbefore]; rfl)]
  exact trouble_raise _ _

/-- A split declared, with its trouble bit and its events, before authority is judged. -/
def splitDeclared (u : State) : State :=
  postEvent 0x0B01 1 ((presentMask u >>> 32).setWidth 32) (postEvent 0x0B01 0 ((presentMask u).setWidth 32)
    (raise .herdSplit { u with herd := { u.herd with split := true, lost := overdue u } }))

theorem herd_splitDeclared (u : State) : (splitDeclared u).herd = { u.herd with split := true, lost := overdue u } :=
  (keeps_postEvent _ _ _ _ State.herd).trans ((keeps_postEvent _ _ _ _ State.herd).trans (keeps_raise _ _ State.herd))

theorem herdSplit_declares (s : State) :
    let u := refreshPresence s
    overdue u &&& ~~~ u.herd.lost ≠ 0 → ∃ t, exec .herdSplit s = .next t ∧ t.herd.split = true ∧ trouble t .herdSplit = true
      ∧ t.herd.lost = overdue u ∧ t.herd.minority = (!fullAuthority t)
      ∧ (fullAuthority t = false → u.herd.minority = false → trouble t .minority = true) := by
  intro u hnew
  have hsplit : (splitDeclared u).herd.split = true := congrArg Herd.split (herd_splitDeclared u)
  have hlost : (splitDeclared u).herd.lost = overdue u := congrArg Herd.lost (herd_splitDeclared u)
  have hminor : (splitDeclared u).herd.minority = u.herd.minority :=
    (congrArg Herd.minority (herd_splitDeclared u)).trans rfl
  refine ⟨judgeAuthority (splitDeclared u), if_neg hnew, ?_, ?_, ?_, ?_, fun hpart hbefore => ?_⟩
  · rw [judgeAuthority_herd]
    exact hsplit
  · exact trouble_judgeAuthority (trouble_postEvent (trouble_postEvent (trouble_raise _ _)))
  · rw [judgeAuthority_herd]
    exact hlost
  · rw [judgeAuthority_herd, fullAuthority_judgeAuthority]
    simp [hsplit]
  · rw [fullAuthority_judgeAuthority] at hpart
    exact minority_judgeAuthority hsplit hpart (hminor.trans hbefore)

theorem herdSplit_of_known {s : State} (h : overdue (refreshPresence s) &&& ~~~ (refreshPresence s).herd.lost = 0) :
    exec .herdSplit s = .next (refreshPresence s) := if_pos h

/-- A herd made whole in which no packet waits towards a peer. -/
structure Healed (s : State) : Prop where
  split : s.herd.split = false
  minority : s.herd.minority = false
  lost : s.herd.lost = 0
  egress : s.herd.egress = []

theorem Healed.releaseTo {s : State} (hs : Healed s) (h : Nat) : Healed (releaseTo h s) := by
  have hnone : waitingTo s h = [] := by rw [waitingTo, hs.egress]; rfl
  have hgone : tabDel s.herd.egress h = [] := by rw [hs.egress]; rfl
  unfold Machine.releaseTo
  split
  · rw [hnone]
    exact ⟨hs.split, hs.minority, hs.lost, hgone⟩
  · exact hs

theorem herdHeal_heals (s : State) (hsplit : (refreshPresence s).herd.split = true)
    (hwhole : wholeAgain (refreshPresence s) = true) (hnone : (refreshPresence s).herd.egress = []) :
    ∃ t, exec .herdHeal s = .next t ∧ t.herd.split = false ∧ t.herd.minority = false ∧ t.herd.lost = 0 := by
  let u := refreshPresence s
  let v : State := { u with herd := { u.herd with split := false, minority := false, lost := 0#64 } }
  have hherd : (postEvent 0x0B02 0 0#32 v).herd = v.herd := keeps_postEvent _ _ _ _ State.herd
  have hpost : Healed (postEvent 0x0B02 0 0#32 v) :=
    ⟨congrArg Herd.split hherd, congrArg Herd.minority hherd, congrArg Herd.lost hherd, (congrArg Herd.egress hherd).trans hnone⟩
  have hall : ∀ (l : List Nat) (t : State), Healed t → Healed (l.foldl (fun t h => releaseTo h t) t) := by
    intro l
    induction l with
    | nil => exact fun _ ht => ht
    | cons x r ih => exact fun t ht => ih _ (ht.releaseTo x)
  have hend := hall (maskList (members v)) _ hpost
  exact ⟨_, if_pos (by rw [hsplit, hwhole]; rfl), hend.split, hend.minority, hend.lost⟩

/-- Settles O45: presence and authority are read through the masks, and a split or a healing follows the herd block alone. -/
theorem herdAuthority : Obligations.HerdAuthority :=
  ⟨fun _ => membershipSend_of_due, fun _ => membershipSend_of_early, fun _ => rfl,
    fun l m _ => membershipMessage_of_up l m, herdSplit_declares, fun _ => herdSplit_of_known, bit_overdue, fullAuthority_iff,
    fun _ => rfl, herdHeal_heals⟩

end Sys2Proof.Proofs
end

section
/-! What a transmission's refusal or early end leaves: everything but the radios, the ledger, the schedule, the cutting engine's
marks, the link engine's images, the node table, what is reported and the tandem's digest. -/

namespace Sys2Proof.Proofs

open Sys2Proof.Machine Sys2Proof.Laws Sys2Proof.Safety

-- Proofs one after another: the threads of many at once would pass the memory that the check allows.
set_option Elab.async false

/-- What both branches leave, the choice leaves. -/
theorem keeps_ite {α β : Type} {P : α → β} {c : Prop} [Decidable c] {a b : α} {x : β} (ha : P a = x) (hb : P b = x) :
    P (if c then a else b) = x := by
  split
  · exact ha
  · exact hb

/-- What reads nothing that the end of a transmission changes. -/
structure BesideRadio {α : Type} (P : State → α) : Prop where
  trb : ∀ s a, P { s with trb := a } = P s
  que : ∀ s a, P { s with que := a } = P s
  out : ∀ s a, P { s with out := a } = P s
  rx : ∀ s a, P { s with rx := a } = P s
  cut : ∀ s a, P { s with cut := a } = P s
  radio : ∀ s a, P { s with radio := a } = P s
  link : ∀ s a, P { s with link := a } = P s
  sched : ∀ s a, P { s with sched := a } = P s
  air : ∀ s a, P { s with air := a } = P s
  fwd : ∀ s a, P { s with fwd := a } = P s
  pwr : ∀ s a, P { s with pwr := a } = P s
  free : ∀ s a, P { s with free := a } = P s
  items : ∀ s a, P { s with tan := { s.tan with items := a } } = P s

section

variable {α : Type} {P : State → α} (hP : BesideRadio P)

include hP

theorem BesideRadio.report (s : State) (a : Trouble) (b : Tab Queue) (c : Out) :
    P { s with trb := a, que := b, out := c } = P s :=
  (hP.out { s with trb := a, que := b } c).trans ((hP.que { s with trb := a } b).trans (hP.trb s a))

theorem BesideRadio.raise (b : TrbBit) (s : State) : P (raise b s) = P s := keeps_raise b s P hP.report

theorem BesideRadio.postEvent (code source : Nat) (d : Word) (s : State) : P (postEvent code source d s) = P s :=
  keeps_postEvent code source d s P hP.report

theorem BesideRadio.cover (k : Nat) (ws : List Word) (s : State) : P (cover k ws s) = P s := by
  unfold Machine.cover
  split
  · exact hP.items s _
  · rfl

theorem BesideRadio.originate (m : HerdMsg) (s : State) : P (originate m s) = P s := by
  rw [originate_eq]
  exact hP.out s _

/-! ### Records, items and outcomes -/

theorem BesideRadio.postTx (x : Tx) (st : Status) (event : Nat) (s : State) : P (postTx x st event s) = P s := by
  unfold Machine.postTx
  exact (keeps_of_reported (pushPacket_reported _ _ _) P hP.report).trans ((hP.cover _ _ _).trans (hP.radio s _))

theorem BesideRadio.waitAgain (d : Downlink) (st : Status) (s : State) : P (waitAgain d st s) = P s := by
  unfold Machine.waitAgain
  split
  · split
    · exact hP.link s _
    · rfl
  · dsimp only
    split
    · exact hP.sched s _
    · exact hP.sched s _

theorem BesideRadio.takeItem (x : Tx) (s : State) : P (takeItem x s) = P s := by
  unfold Machine.takeItem
  split
  · split
    · split
      · exact hP.link s _
      · rfl
    · exact hP.sched s _
  · rfl

theorem BesideRadio.tellHome (x : Tx) (admitted : Bool) (st : Status) (s : State) : P (tellHome x admitted st s) = P s := by
  unfold Machine.tellHome
  split
  · exact hP.originate _ s
  · rfl

theorem BesideRadio.finalRecord (x : Tx) (st : Status) (event : Nat) (s : State) : P (finalRecord x st event s) = P s := by
  unfold Machine.finalRecord
  split
  · exact hP.postTx x st event s
  · rfl

theorem BesideRadio.deferralRecord (x : Tx) (st : Status) (s : State) : P (deferralRecord x st s) = P s := by
  unfold Machine.deferralRecord
  exact keeps_ite (hP.postTx x st 0 s) rfl

/-- The outcome of a transmission (R219, R287). -/
theorem BesideRadio.outcome (x : Tx) (st : Status) (event rank : Nat) (s : State) : P (outcome x st event rank s) = P s := by
  have hcount : ∀ i, P (countSched i x.plain s) = P s := fun i => hP.sched s _
  have hstart : P (if event = 1 || event = 2 then s else match outcomeCounter st with
      | some i => countSched i x.plain s
      | none => s) = P s := by
    split
    · rfl
    · split
      · exact hcount _
      · rfl
  unfold Machine.outcome
  dsimp only
  split
  · refine (hP.tellHome _ _ _ _).trans ?_
    split
    · exact (hP.waitAgain _ _ _).trans ((hP.takeItem _ _).trans ((hP.deferralRecord _ _ _).trans hstart))
    · exact (hP.deferralRecord _ _ _).trans hstart
  · exact (hP.tellHome _ _ _ _).trans ((hP.finalRecord _ _ _ _).trans ((hP.takeItem _ _).trans hstart))

theorem BesideRadio.shortfall (x : Tx) (rank : Nat) (causer : Option Nat) (s : State) :
    P (shortfall x rank causer s) = P s := by
  have hloss : P (if x.rank = 4 && 1 ≤ rank && rank ≤ 3 then Machine.raise .precedenceLoss s else s) = P s :=
    keeps_ite (hP.raise _ s) rfl
  unfold Machine.shortfall
  dsimp only
  split
  · exact hloss
  · split
    · exact hloss
    · exact (hP.sched _ _).trans hloss

/-! ### Ports and synthesisers -/

theorem BesideRadio.onPorts (p : Nat) (f : Port → Port) (s : State) : P (onPorts p f s) = P s :=
  keeps_foldl P (fun t _ => hP.rx t _) _ s

theorem BesideRadio.settleSeq (p : Nat) (s : State) : P (settleSeq p s) = P s :=
  keeps_foldl P (fun t _ => hP.rx t _) _ s

theorem BesideRadio.rckStart (r : Nat) (s : State) : P (rckStart r s) = P s := by
  unfold Machine.rckStart
  dsimp only
  split
  · split
    · rfl
    · exact hP.radio s _
  · rfl

theorem BesideRadio.returnDone (p : Nat) (s : State) : P (returnDone p s) = P s := by
  have hbase : P (Machine.rckStart p (Machine.settleSeq p s)) = P s := (hP.rckStart _ _).trans (hP.settleSeq _ _)
  unfold Machine.returnDone
  split
  · rfl
  · dsimp only
    split
    · exact (hP.radio _ _).trans hbase
    · exact hbase

theorem BesideRadio.returnScript (n : Nat) (steps : List SpiStep) (s : State) : P (returnScript n steps s) = P s := by
  unfold Machine.returnScript
  split
  · rfl
  · exact hP.rx s _

theorem BesideRadio.returnPort (p n : Nat) (shared : Bool) (s : State) : P (returnPort p n shared s) = P s := by
  have hport : ∀ v, P (setPort s n v) = P s := fun v => hP.rx s _
  unfold Machine.returnPort
  exact keeps_ite (hport _) (keeps_ite ((hP.returnScript _ _ _).trans ((hP.returnScript _ _ _).trans (hport _)))
    ((hP.returnScript _ _ _).trans (hport _)))

theorem BesideRadio.beginReturn (p : Nat) (shared : Bool) (s : State) : P (beginReturn p shared s) = P s := by
  have hports : ∀ t, P ((portsOf s p).foldl (fun t n => Machine.returnPort p n shared t) t) = P t := fun t =>
    keeps_foldl P (fun t n => hP.returnPort p n shared t) _ t
  unfold Machine.beginReturn
  dsimp only
  refine (hP.returnDone _ _).trans ?_
  split
  · exact (hP.radio _ _).trans ((hports _).trans (hP.onPorts _ _ _))
  · exact (hports _).trans (hP.onPorts _ _ _)

theorem BesideRadio.leavePorts (x : Tx) (s : State) : P (leavePorts x s) = P s := by
  unfold Machine.leavePorts
  split
  · rfl
  · split
    · exact hP.settleSeq _ s
    · exact hP.beginReturn _ _ s

theorem BesideRadio.lowerRequest (p : Nat) (s : State) : P (lowerRequest p s) = P s := by
  unfold Machine.lowerRequest
  split
  · rfl
  · exact hP.radio s _

/-! ### Ends -/

theorem BesideRadio.refund (x : Tx) (s : State) : P (refund x s) = P s := by
  have hcharge : P (returnCharge x.plain x.bands x.t0 x.tAir s) = P s := keeps_foldl P (fun t _ => hP.air t _) _ s
  have htokens : ∀ ks cls n t, P (addTokens ks cls n t) = P t := fun ks cls n t => keeps_foldl P (fun u _ => hP.air u _) ks t
  unfold Machine.refund
  dsimp only
  split
  · exact (htokens _ _ _ _).trans hcharge
  · exact (htokens _ _ _ _).trans hcharge

theorem BesideRadio.dropTx (id : Nat) (s : State) : P (dropTx id s) = P s := (hP.pwr _ _).trans (hP.radio s _)

/-- A transmission that is not started (R219). -/
theorem BesideRadio.notStarted (x : Tx) (st : Status) (counter rank : Nat) (event : Option Nat) (s : State) :
    P (notStarted x st counter rank event s) = P s := by
  have hgone : P (Machine.refund x (Machine.dropTx x.id s)) = P s := (hP.refund _ _).trans (hP.dropTx _ _)
  unfold Machine.notStarted
  dsimp only
  refine (hP.lowerRequest _ _).trans ((hP.leavePorts _ _).trans ((hP.outcome _ _ _ _ _).trans ((hP.shortfall _ _ _ _).trans ?_)))
  split
  · exact (hP.postEvent _ _ _ _).trans ((hP.radio _ _).trans hgone)
  · exact hgone

theorem BesideRadio.touchNode (i : Nat) (s : State) : P (touchNode i s) = P s := by
  unfold Machine.touchNode
  split
  · rfl
  · exact hP.fwd s _

theorem BesideRadio.modNode (net : Nat) (addr : Word) (f : NodeRec → NodeRec) (s : State) : P (modNode net addr f s) = P s := by
  unfold Machine.modNode
  split
  · exact (hP.fwd _ _).trans (hP.touchNode _ _)
  · rfl

theorem BesideRadio.onAir (x : Tx) (e : AirEvent) (s : State) : P (onAir x e s) = P s := by
  unfold Machine.onAir
  split
  · rfl
  · exact hP.out s _

theorem BesideRadio.rampDown (x : Tx) (st : Status) (s : State) : P (rampDown x st s) = P s := by
  unfold Machine.rampDown noteUnsure
  dsimp only
  split
  · exact (hP.modNode _ _ _ _).trans ((hP.onAir _ _ _).trans ((hP.radio _ _).trans (hP.free s _)))
  · exact (hP.onAir _ _ _).trans ((hP.radio _ _).trans (hP.free s _))

/-- A transmission on air ended early (R218). -/
theorem BesideRadio.endEarly (x : Tx) (st : Status) (counter rank detail : Nat) (s : State) :
    P (endEarly x st counter rank detail s) = P s := by
  unfold Machine.endEarly
  exact (hP.outcome _ _ _ _ _).trans ((hP.shortfall _ _ _ _).trans ((hP.postEvent _ _ _ _).trans ((hP.radio _ _).trans
    (hP.rampDown _ _ _))))

/-! ### Blanking -/

theorem BesideRadio.blankTx (x : Tx) (s : State) : P (blankTx x s) = P s := by
  unfold Machine.blankTx
  split
  · exact hP.notStarted _ _ _ _ _ _
  · split
    · exact (hP.raise _ _).trans (hP.endEarly _ _ _ _ _ _)
    · rfl

theorem BesideRadio.settleBlank (p : Nat) (s : State) : P (settleBlank p s) = P s := by
  unfold Machine.settleBlank openBlank closeBlank
  dsimp only
  split
  · split
    · exact hP.rx s _
    · exact (hP.cut _ _).trans (hP.rx s _)
  · exact hP.cut s _

theorem BesideRadio.settleInputs (p : Nat) (was : Bool) (s : State) : P (settleInputs p was s) = P s := by
  have hjudged : P ((booked s p).foldl (fun t x => if blankedFor t x then Machine.blankTx x t else t) s) = P s :=
    keeps_foldl P (fun t x => by split; exacts [hP.blankTx x t, rfl]) _ s
  have hset : ∀ t v, P (setTxRun t p v) = P t := fun t v => hP.radio t _
  unfold Machine.settleInputs
  refine keeps_ite ?_ ((hP.settleBlank _ _).trans ?_)
  · exact keeps_ite ((hset _ _).trans hjudged) hjudged
  · exact keeps_ite ((hset _ _).trans hjudged) hjudged

/-- A change of the BLANK inputs (R225). -/
theorem BesideRadio.changeInputs_setBlank (i : Nat) (active : Bool) (s : State) :
    P (changeInputs (setBlank i active) s) = P s :=
  (keeps_foldl P (fun t _ => hP.settleInputs _ _ t) _ _).trans (hP.radio s _)

end

end Sys2Proof.Proofs
end

section
/-! Reins frames (R405): a frame read back gives the type, sequence and instant that it was sealed with. -/

namespace Sys2Proof.Proofs

open Sys2Proof.Machine Sys2Proof.Laws Sys2Proof.Safety

-- Proofs one after another: the threads of many at once would pass the memory that the check allows.
set_option Elab.async false

theorem crcStep_lt {r : Nat} {b : Bool} : crcStep 16 0x1021 r b < 2 ^ 16 := by
  have hstep : (2 * r) % 2 ^ 16 < 2 ^ 16 := Nat.mod_lt _ (by decide)
  unfold crcStep
  dsimp only
  split
  · exact Nat.xor_lt_two_pow hstep (by decide)
  · exact hstep

theorem crc16_lt (l : List Byte) : crc16 l < 2 ^ 16 := by
  have hfold : ∀ (bs : List Bool) (r : Nat), r < 2 ^ 16 → bs.foldl (crcStep 16 0x1021) r < 2 ^ 16 := by
    intro bs
    induction bs with
    | nil => exact fun _ h => h
    | cons b bs ih => exact fun _ _ => ih _ crcStep_lt
  exact hfold _ _ (by decide)

/-- The first bytes of a number are those of its low bits. -/
theorem leBytes_six_add (v c : Nat) : leBytes 6 (v + 2 ^ 48 * c) = leBytes 6 v := by
  refine List.map_congr_left fun i hi => BitVec.eq_of_toNat_eq ?_
  have hlow : i < 6 := List.mem_range.mp hi
  simp only [BitVec.toNat_ofNat, Nat.shiftRight_eq_div_pow]
  interval_cases i <;> omega

/-- The low 48 bits of a frame, below its CRC. -/
def reinsBody (typ : ReinsType) (n : Nat) (i : BitVec 40) : Nat := reinsCode typ + 16 * (n % 16) + 2 ^ 8 * i.toNat

theorem reinsCode_lt (typ : ReinsType) : reinsCode typ < 16 := by cases typ <;> decide

theorem reinsBody_lt (typ : ReinsType) (n : Nat) (i : BitVec 40) : reinsBody typ n i < 2 ^ 48 := by
  have hcode := reinsCode_lt typ
  have hinstant := i.isLt
  unfold reinsBody
  omega

theorem toNat_or_shiftLeft {a b : BitVec 64} {k : Nat} (ha : a.toNat < 2 ^ k) (hb : b.toNat * 2 ^ k < 2 ^ 64) :
    (a ||| (b <<< k)).toNat = a.toNat + 2 ^ k * b.toNat := by
  rw [BitVec.toNat_or, BitVec.toNat_shiftLeft, Nat.shiftLeft_eq, Nat.mod_eq_of_lt hb, Nat.mul_comm, Nat.or_comm,
    ← Nat.two_pow_add_eq_or_of_lt ha, Nat.add_comm]

theorem toNat_reinsBody (typ : ReinsType) (n : Nat) (i : BitVec 40) :
    (BitVec.ofNat 64 (reinsCode typ + 16 * (n % 16)) ||| (i.setWidth 64 <<< 8)).toNat = reinsBody typ n i := by
  have hcode := reinsCode_lt typ
  have hinstant := i.isLt
  have hlow : (BitVec.ofNat 64 (reinsCode typ + 16 * (n % 16))).toNat = reinsCode typ + 16 * (n % 16) := by
    rw [BitVec.toNat_ofNat]
    omega
  have hhigh : (i.setWidth 64).toNat = i.toNat := by
    rw [BitVec.toNat_setWidth]
    omega
  rw [toNat_or_shiftLeft (by rw [hlow]; omega) (by rw [hhigh]; omega), hlow, hhigh]
  rfl

/-- A sealed frame as a number: its body below the CRC of its body. -/
theorem toNat_sealReins (typ : ReinsType) (n : Nat) (i : BitVec 40) :
    (sealReins typ n i).bits.toNat = reinsBody typ n i + 2 ^ 48 * crc16 (leBytes 6 (reinsBody typ n i)) := by
  have hcrc := crc16_lt (leBytes 6 (reinsBody typ n i))
  have hbody := reinsBody_lt typ n i
  have hword : (BitVec.ofNat 64 (crc16 (leBytes 6 (reinsBody typ n i)))).toNat = crc16 (leBytes 6 (reinsBody typ n i)) := by
    rw [BitVec.toNat_ofNat]
    omega
  rw [sealReins, reinsCrc, toNat_reinsBody, toNat_or_shiftLeft (by rw [toNat_reinsBody]; exact hbody)
    (by rw [hword]; omega), toNat_reinsBody, hword]

theorem reinsIs_sealReins (typ : ReinsType) (n : Nat) (i : BitVec 40) : reinsIs (sealReins typ n i) typ = true := by
  have hbits := toNat_sealReins typ n i
  have hcrc := crc16_lt (leBytes 6 (reinsBody typ n i))
  have hbody := reinsBody_lt typ n i
  have hgood : reinsGood (sealReins typ n i) = true := by
    refine decide_eq_true (BitVec.eq_of_toNat_eq ?_)
    rw [reinsCrc, hbits, leBytes_six_add, BitVec.toNat_ushiftRight, hbits, BitVec.toNat_ofNat, Nat.shiftRight_eq_div_pow]
    omega
  have hcode := reinsCode_lt typ
  have htype : ((sealReins typ n i).bits.setWidth 4).toNat = reinsCode typ := by
    rw [BitVec.toNat_setWidth, hbits, reinsBody]
    omega
  rw [reinsIs, hgood, htype]
  simp

theorem reinsInstant_sealReins (typ : ReinsType) (n : Nat) (i : BitVec 40) : reinsInstant (sealReins typ n i) = i := by
  have hcode := reinsCode_lt typ
  have hinstant := i.isLt
  refine BitVec.eq_of_toNat_eq ?_
  rw [reinsInstant, BitVec.toNat_setWidth, BitVec.toNat_ushiftRight, toNat_sealReins, reinsBody, Nat.shiftRight_eq_div_pow]
  omega

theorem reinsSeq_sealReins (typ : ReinsType) (n : Nat) (i : BitVec 40) : reinsSeq (sealReins typ n i) = n % 16 := by
  have hcode := reinsCode_lt typ
  rw [reinsSeq, BitVec.toNat_setWidth, BitVec.toNat_ushiftRight, toNat_sealReins, reinsBody, Nat.shiftRight_eq_div_pow]
  omega

theorem sealReins_read (typ : ReinsType) (n : Nat) (i : BitVec 40) : reinsIs (sealReins typ n i) typ = true
    ∧ reinsInstant (sealReins typ n i) = i ∧ reinsSeq (sealReins typ n i) = n % 16 :=
  ⟨reinsIs_sealReins typ n i, reinsInstant_sealReins typ n i, reinsSeq_sealReins typ n i⟩

/-- A good frame, once its type is read. -/
theorem reinsGood_of_is {f : ReinsFrame} {typ : ReinsType} (h : reinsIs f typ = true) : reinsGood f = true :=
  (Bool.and_eq_true_iff.mp h).1

theorem reinsIs_of_bad {f : ReinsFrame} (h : reinsGood f = false) (typ : ReinsType) : reinsIs f typ = false := by
  rw [reinsIs, h, Bool.false_and]

end Sys2Proof.Proofs
end

section
/-! Settles Obligations.TandemActs: mirrored inputs, slot digests, leases, handovers and takeovers of a tandem. -/

namespace Sys2Proof.Proofs

open Sys2Proof.Machine Sys2Proof.Laws Sys2Proof.Safety

-- Proofs one after another: the threads of many at once would pass the memory that the check allows.
set_option Elab.async false

theorem nonHolder_of_joined {s : State} (hjoined : s.tan.joined = true) (hreins : s.tan.reins = false) : nonHolder s = true := by
  rw [nonHolder, hjoined, hreins]
  rfl

theorem not_nonHolder_of_reins {s : State} (hreins : s.tan.reins = true) : nonHolder s = false := by
  rw [nonHolder, hreins, Bool.not_true, Bool.and_false]

theorem joined_of_nonHolder {s : State} (h : nonHolder s = true) : s.tan.joined = true := (Bool.and_eq_true_iff.mp h).1

/-! ### Mirrored inputs (R400) -/

theorem mirroredInput_of_nonHolder (asn : BitVec 40) (n : Nat) (x : Mirrored) {s : State} (h : nonHolder s = true) :
    exec (.mirroredInput asn n x) s = .next { s with tan := { s.tan with mirrorq := s.tan.mirrorq ++ [(asn.toNat, n, x)] } } :=
  congrArg Host.Outcome.next (if_pos h)

theorem mirroredInput_of_holder (asn : BitVec 40) (n : Nat) (x : Mirrored) {s : State} (h : nonHolder s = false) :
    exec (.mirroredInput asn n x) s = .next s :=
  congrArg Host.Outcome.next (if_neg (by rw [h]; exact Bool.false_ne_true))

/-- A single mirrored input is applied. -/
theorem resolveMirrored_single {a n : Nat} {x : Mirrored} {s : State} (h : s.tan.mirrorq = [(a, n, x)]) :
    resolveMirrored s = settleMirrored x { s with tan := { s.tan with mirrorq := [] } } := by
  rw [resolveMirrored, h]
  rfl

/-- Of two mirrored inputs of one instant the later slot's is applied last, in whichever order they came (R16). -/
theorem resolveMirrored_pair {a b n m : Nat} {x y : Mirrored} {s : State} (hlt : a < b)
    (h : s.tan.mirrorq = [(a, n, x), (b, m, y)] ∨ s.tan.mirrorq = [(b, m, y), (a, n, x)]) :
    resolveMirrored s = settleMirrored y (settleMirrored x { s with tan := { s.tan with mirrorq := [] } }) := by
  have hfirst : keyBefore [a, n] [b, m] = true := if_pos hlt
  have hsecond : keyBefore [b, m] [a, n] = false := by
    rw [keyBefore, if_neg (Nat.not_lt.mpr hlt.le), if_pos hlt]
  rcases h with h | h
  · simp only [resolveMirrored, h, List.foldl_cons, List.foldl_nil, List.takeWhile_nil, List.dropWhile_nil, List.append_nil,
      List.nil_append, List.takeWhile_cons, List.dropWhile_cons, hsecond, Bool.not_false, if_true, List.cons_append]
  · simp only [resolveMirrored, h, List.foldl_cons, List.foldl_nil, List.takeWhile_nil, List.dropWhile_nil, List.append_nil,
      List.nil_append, List.takeWhile_cons, List.dropWhile_cons, hfirst, Bool.not_true, Bool.false_eq_true, if_false,
      List.cons_append]

theorem settleMirrored_grants (v : BitVec 4) (s : State) :
    settleMirrored (.grants v) s = { s with radio := { s.radio with grants := v } } := rfl

/-- Frames on the lanes of a member without the reins are kept for the mirrored input that names them. -/
theorem bhFrameReceived_of_nonHolder (p : Fin 2) (f : EthIn) {s : State} (h : nonHolder s = true) :
    ∃ t, exec (.bhFrameReceived p f) s = .next t ∧ (now s, p.val, f) ∈ t.tan.bhHeard
      ∧ t = { s with tan := { s.tan with bhHeard := t.tan.bhHeard } } :=
  ⟨hearFrame p.val f s, congrArg Host.Outcome.next (if_pos h), List.mem_append_right _ (List.mem_singleton.mpr rfl), rfl⟩

theorem takeMirrored_of_heard {p : Fin 2} {f : EthIn} {t : BitVec 64} {s : State} (h : s.tan.bhHeard = [(t, p.val, f)]) :
    takeMirrored p (f.bytes.length + 4) (crc32c f.bytes) s = receiveFrame p f { s with tan := { s.tan with bhHeard := [] } } := by
  simp [takeMirrored, h]

theorem mirrorSeq_beside : BesideRadio (fun s => s.tan.mirrorSeq) := by
  constructor <;> exact fun _ _ => rfl

theorem blankAssert_of_holder (i : Fin 8) {s : State} (hjoined : s.tan.joined = true) (hreins : s.tan.reins = true) :
    ∃ t, exec (.blankAssert i) s = .next t ∧ t.tan.mirrorSeq = s.tan.mirrorSeq + 1 := by
  refine ⟨changeInputs (setBlank i.val true) (mirrorOut (.blank i true) s), rfl, ?_⟩
  refine (mirrorSeq_beside.changeInputs_setBlank i.val true _).trans ?_
  rw [mirrorOut, hjoined, hreins]
  rfl

/-- A member without the reins posts no reply to a mirrored command (R401). -/
theorem sendReply_of_mirrored {e : InFlight} (st : Status) (r : List Word) {s : State} (hjoined : s.tan.joined = true)
    (hreins : s.tan.reins = false) (hmirrored : e.mirrored = true) :
    (sendReply e st r s).que = s.que ∧ (sendReply e st r s).out = s.out := by
  have hcover : ∀ (k : Nat) (ws : List Word) (t : State), (cover k ws t).que = t.que ∧ (cover k ws t).out = t.out := fun k ws t => by
    unfold cover
    split <;> exact ⟨rfl, rfl⟩
  have hmember : ∀ (k : Nat) (ws : List Word) (t : State), nonHolder (cover k ws t) = nonHolder t := fun k ws t => by
    unfold cover
    split <;> rfl
  have hnone : postsNone e st (cover 2 [pair16 (statusCode st).toNat e.tag.toNat] (noteDone e.tag s)) = true := by
    rw [postsNone, hmirrored, hmember, show nonHolder (noteDone e.tag s) = nonHolder s from rfl, nonHolder_of_joined hjoined hreins]
    simp
  rw [sendReply, if_pos hnone]
  exact hcover _ _ _

end Sys2Proof.Proofs
end

section
/-! Slot digests of a tandem (R403, R404, R413): a member comes back into step by a matching digest. -/

namespace Sys2Proof.Proofs

open Sys2Proof.Machine Sys2Proof.Laws Sys2Proof.Safety

-- Proofs one after another: the threads of many at once would pass the memory that the check allows.
set_option Elab.async false

theorem slotDigest_of_match {asn : BitVec 40} {d : BitVec 64} {s : State} (hjoined : s.tan.joined = true)
    (hdigest : s.tan.digest = some (asn.toNat, d)) (hstep : s.tan.step = 1 ∨ s.tan.step = 2) :
    exec (.slotDigest asn d) s = .next (digestMatches (w32 asn.toNat) s) := by
  have hout : s.tan.step ≠ 3 := by omega
  change execSlotDigest asn d s = _
  simp [execSlotDigest, hdigest, hjoined, hout]

theorem slotDigest_of_mismatch {asn : BitVec 40} {d x : BitVec 64} {s : State} (hjoined : s.tan.joined = true)
    (hdigest : s.tan.digest = some (asn.toNat, d)) (hstep : s.tan.step = 1) (hx : x ≠ d) :
    exec (.slotDigest asn x) s = .next (digestDiffers (w32 asn.toNat) s) := by
  change execSlotDigest asn x s = _
  simp [execSlotDigest, hdigest, hjoined, hstep, hx.symm]

/-- While a member joins the step, a digest that differs says nothing new. -/
theorem slotDigest_while_joining {asn : BitVec 40} {d x : BitVec 64} {s : State} (hdigest : s.tan.digest = some (asn.toNat, d))
    (hstep : s.tan.step = 2) (hx : x ≠ d) : exec (.slotDigest asn x) s = .next s := by
  change execSlotDigest asn x s = _
  simp [execSlotDigest, hdigest, hstep, hx.symm]

/-- Only the configured Lead without the reins, told to revert, begins a revert hold (R414). -/
theorem beginHold_of_other {s : State} (h : nonHolder s = false ∨ s.tan.role = true ∨ s.cfg.tan.revert = false) :
    beginHold s = s := by
  refine if_neg ?_
  rcases h with h | h | h <;> simp [h]

/-- A matching digest noted. -/
def digestNoted (a : Word) (s : State) : State := { s with tan := { s.tan with lastAsn := a, missing := 0 } }

theorem digestMatches_eq (a : Word) (s : State) : digestMatches a s =
    beginHold (pairDigest (if s.tan.step = 1 then digestNoted a s else enterStep (digestNoted a s))) := rfl

/-- A matching digest with no activation of firmware waiting. -/
theorem digestMatches_in_step {a : Word} {s : State} (hother : nonHolder s = false ∨ s.tan.role = true)
    (hstep : s.tan.step = 1) (hfw : s.tan.fwStage = 0) : digestMatches a s = digestNoted a s := by
  have hpair : pairDigest (digestNoted a s) = digestNoted a s := if_neg (by rw [digestNoted, hfw]; decide)
  rw [digestMatches_eq, if_pos hstep, hpair]
  refine beginHold_of_other ?_
  rcases hother with h | h
  · exact .inl h
  · exact .inr (.inl h)

/-! ### Back into step -/

/-- The place of a member in its tandem: in step or not, and what bears on its revert hold. -/
def place (s : State) : Nat × Bool × Bool × Bool := (s.tan.step, s.tan.reins, s.tan.role, s.cfg.tan.revert)

theorem place_complete (q : Nat) (tag : BitVec 16) (st : Status) (r : List Word) (s : State) :
    place (complete q tag st r s) = place s := by
  have hreply : ∀ e t, place (sendReply e st r t) = place t := fun e t => by
    obtain ⟨hother, -, -, htan, -⟩ := sendReply_replied e st r t
    have hcfg : (sendReply e st r t).cfg = t.cfg := by rw [hother]
    rw [place, hcfg, htan]
    rfl
  unfold complete
  split
  · exact hreply _ _
  · rfl

theorem place_takeSnapshot (s : State) : place (takeSnapshot s) = place s := by
  unfold takeSnapshot
  split
  · rfl
  · rfl

theorem place_takeLeadCounters (s : State) : place (takeLeadCounters s) = place s := by
  have hnodes : ∀ t, place (takeNodeCounts t) = place t := fun _ => rfl
  have hcounts : ∀ t n, place (takeCounts n t) = place t := fun _ _ => rfl
  unfold takeLeadCounters
  exact keeps_ite ((hnodes _).trans (keeps_foldl place hcounts _ s)) rfl

theorem place_pairInStep (s : State) : place (pairInStep s) = place s := by
  unfold pairInStep
  split
  · rfl
  · split
    · split
      · exact place_complete _ _ _ _ _
      · rfl
    · rfl

theorem place_pairDigest (s : State) : place (pairDigest s) = place s := by
  unfold pairDigest
  split
  · split
    · rfl
    · exact keeps_ite rfl rfl
  · rfl

theorem place_enterStep (s : State) : place (enterStep s) = (1, (place s).2) := by
  have hsnapshot : place (takeLeadCounters (if s.tan.step = 2 then takeSnapshot s else s)) = place s :=
    (place_takeLeadCounters _).trans (keeps_ite (place_takeSnapshot s) rfl)
  have hstep : ∀ t : State, place t = place s → ∀ n, place (setTan t { t.tan with
      step := 1, stage := n, resync := none, peerDown := false, missing := 0 }) = (1, (place s).2) := fun t ht n => by
    rw [← ht]
    rfl
  unfold enterStep
  refine (place_pairInStep _).trans ?_
  dsimp only
  split
  · exact (place_complete _ _ _ _ _).trans (hstep _ hsnapshot _)
  · exact hstep _ hsnapshot _

/-- A member that joins the step is in it from a matching digest on. -/
theorem digestMatches_enters {a : Word} {s : State} (hstep : s.tan.step = 2)
    (hother : s.tan.reins = true ∨ s.tan.role = true ∨ s.cfg.tan.revert = false) : (digestMatches a s).tan.step = 1 := by
  have hplace : place (pairDigest (enterStep (digestNoted a s))) = (1, s.tan.reins, s.tan.role, s.cfg.tan.revert) :=
    (place_pairDigest _).trans (place_enterStep _)
  simp only [place, Prod.mk.injEq] at hplace
  obtain ⟨hone, hreins, hrole, hrevert⟩ := hplace
  rw [digestMatches_eq, if_neg (by omega), beginHold_of_other]
  · exact hone
  · rw [hrole, hrevert]
    exact hother.imp_left fun h => not_nonHolder_of_reins (hreins.trans h)

theorem digestMissing_of_four {s : State} (hjoined : s.tan.joined = true) (hstep : s.tan.step = 1) (hmissing : 4 ≤ s.tan.missing) :
    exec .digestMissing s = .next { s with tan := { s.tan with step := 3, holdStart := none } } :=
  congrArg Host.Outcome.next (if_pos (by rw [hjoined, hstep, decide_eq_true hmissing]; rfl))

end Sys2Proof.Proofs
end

section
/-! Settles Obligations.TandemActs: reins frames, leases, handovers and takeovers. -/

namespace Sys2Proof.Proofs

open Sys2Proof.Machine Sys2Proof.Laws Sys2Proof.Safety

-- Proofs one after another: the threads of many at once would pass the memory that the check allows.
set_option Elab.async false

/-! ### Renewals and their paths (R406) -/

theorem reinsRenewalSend_of_due {s : State} (hjoined : s.tan.joined = true) (hreins : s.tan.reins = true)
    (hmajority : bridleMajority s = true) (hdue : periodDue .renewal 100000 s = true) :
    ∃ t f, exec .reinsRenewalSend s = .next t ∧ t.out.reins = s.out.reins ++ [f] ∧ reinsIs f .renewal = true
      ∧ reinsInstant f = ((after s (1000 * s.cfg.tan.lease)) >>> 10).setWidth 40
      ∧ t.tan.leaseOwn = some (after s (1000 * s.cfg.tan.lease)) := by
  refine ⟨_, reinsFrame s .renewal (after s (leaseNs s)), congrArg Host.Outcome.next (if_pos ?_), rfl, ?_, ?_, rfl⟩
  · rw [hjoined, hreins, hmajority, hdue]
    rfl
  · exact reinsIs_sealReins _ _ _
  · exact reinsInstant_sealReins _ _ _

theorem reinsRenewalSend_without_majority {s : State} (h : bridleMajority s = false) : exec .reinsRenewalSend s = .next s :=
  congrArg Host.Outcome.next (if_neg (by rw [h]; simp))

theorem reinsRenewalSend_of_early {s : State} (h : periodDue .renewal 100000 s = false) : exec .reinsRenewalSend s = .next s :=
  congrArg Host.Outcome.next (if_neg (by rw [h]; simp))

/-- The state of a member without the reins that has taken its first renewal, before it acknowledges it. -/
def renewalTaken (p : Nat) (f : ReinsFrame) (s : State) : State :=
  setTan (hearPath p s) { (hearPath p s).tan with leaseSeen := some (frameInstant s f) }

theorem reinsRenewal_of_first {p : Fin 2} {f : ReinsFrame} {s : State} (hjoined : s.tan.joined = true)
    (hreins : s.tan.reins = false) (hf : reinsIs f .renewal = true) (hfirst : s.tan.leaseSeen = none) :
    exec (.reinsRenewal p f) s = .next (ackRenewal p.val f (renewalTaken p.val f s)) := by
  have hsettled : settleBoth (hearPath p.val s) = hearPath p.val s := by
    refine if_pos ?_
    change (!s.tan.reins) = true
    rw [hreins]
    rfl
  have htaken : takeRenewal p.val f (hearPath p.val s) = ackRenewal p.val f (renewalTaken p.val f s) := by
    have hnone : (hearPath p.val s).tan.leaseSeen = none := hfirst
    rw [takeRenewal, hsettled, hnone]
    rfl
  change execReinsRenewal p f s = _
  rw [execReinsRenewal, if_neg (by rw [hjoined, reinsGood_of_is hf]; simp), if_pos hf, htaken]

theorem reinsRenewal_takes (p : Fin 2) (f : ReinsFrame) (s : State) (hjoined : s.tan.joined = true)
    (hreins : s.tan.reins = false) (hf : reinsIs f .renewal = true) (hfirst : s.tan.leaseSeen = none) :
    ∃ t, exec (.reinsRenewal p f) s = .next t ∧ t.tan.leaseSeen = some (frameInstant s f)
      ∧ (if p = 0 then t.out.reins = s.out.reins ++ [sealReins .ack (reinsSeq f) (reinsInstant f)] else t.out.reins = s.out.reins)
      ∧ t.tan.pathSilent = s.tan.pathSilent.set p 0 := by
  refine ⟨_, reinsRenewal_of_first hjoined hreins hf hfirst, ?_⟩
  by_cases hp : p = 0
  · subst hp
    exact ⟨rfl, rfl, rfl⟩
  · have hline : ackRenewal p.val f (renewalTaken p.val f s)
        = sendHerd (.reins (sealReins .ack (reinsSeq f) (reinsInstant f))) (renewalTaken p.val f s) :=
      if_neg fun h => hp (Fin.ext h)
    rw [hline, if_neg hp]
    exact ⟨rfl, rfl, rfl⟩

/-- A frame whose CRC is wrong does nothing. -/
theorem bad_frame_does_nothing (p : Fin 2) (f : ReinsFrame) (s : State)
    (hcrc : f.bits >>> 48 ≠ BitVec.ofNat 64 (crc16 (leBytes 6 f.bits.toNat))) :
    exec (.reinsRenewal p f) s = .next s ∧ exec (.reinsRelease f) s = .next s ∧ exec (.handoverGrant f) s = .next s := by
  have hbad : reinsGood f = false := decide_eq_false hcrc
  refine ⟨congrArg Host.Outcome.next (if_pos ?_), congrArg Host.Outcome.next (if_neg ?_),
    congrArg Host.Outcome.next (if_neg ?_)⟩
  · rw [hbad]
    simp
  · rw [reinsIs_of_bad hbad]
    simp
  · rw [reinsIs_of_bad hbad]
    simp

theorem reinsLost_tells (p : Fin 2) (s : State) (hjoined : s.tan.joined = true) (hnew : s.tan.pathSilent.getD p 0 < 3)
    (hreached : reached s (s.tan.pathHeard.getD p 0#64 + 300000#64) = true) :
    ∃ t, exec (.reinsLost p) s = .next t ∧ trouble t .reinsLost = true ∧ t.tan.reins = s.tan.reins
      ∧ t.tan.outputs = s.tan.outputs := by
  have hlost : pathLost s p.val = true := by
    rw [pathLost, hjoined, hreached, decide_eq_true hnew]
    rfl
  exact ⟨_, congrArg Host.Outcome.next (if_pos hlost), trouble_raise _ _, keeps_raise _ _ fun t => t.tan.reins,
    keeps_raise _ _ fun t => t.tan.outputs⟩

/-! ### Releases, grants and the marker (R399, R409, R414) -/

theorem reinsRelease_awaits {f : ReinsFrame} {s : State} (hf : reinsIs f .release = true) (hnon : nonHolder s = true)
    (hstep : s.tan.step = 1) :
    exec (.reinsRelease f) s = .next { s with tan := { s.tan with handover := some (frameInstant s f, true, 0) } } :=
  congrArg Host.Outcome.next (if_pos (by rw [hf, hnon, hstep]; rfl))

theorem revertRequest_grants {f : ReinsFrame} {s : State} (hf : reinsIs f .revert = true) (hjoined : s.tan.joined = true)
    (hreins : s.tan.reins = true) (hstep : s.tan.step = 1) (hfree : s.tan.handover = none) :
    exec (.revertRequest f) s = .next (grantHandover 2 s) :=
  congrArg Host.Outcome.next (if_pos (by rw [hf, mayRelease, hjoined, hreins, hstep, hfree]; rfl))

theorem handoverGrant_awaits {f : ReinsFrame} {s : State} (hf : reinsIs f .grant = true) (hnon : nonHolder s = true)
    (hstep : s.tan.step = 1) :
    exec (.handoverGrant f) s = .next { s with tan := { s.tan with
      handover := some (frameInstant s f, true, if s.tan.asked then 2 else 3) } } :=
  congrArg Host.Outcome.next (if_pos (by rw [hf, hnon, hstep]; rfl))

theorem wholeNs_fromNs (v : BitVec 64) : wholeNs (fromNs v) = v := by
  refine BitVec.eq_of_toNat_eq ?_
  have hv := v.isLt
  rw [wholeNs, fromNs, BitVec.toNat_setWidth, BitVec.toNat_ushiftRight, BitVec.toNat_shiftLeft, BitVec.toNat_setWidth,
    Nat.shiftLeft_eq, Nat.shiftRight_eq_div_pow]
  omega

theorem alignmentMarker_sets_time (f : ReinsFrame) (st : BitVec 64) (s : State) (hf : reinsIs f .marker = true)
    (hnon : nonHolder s = true) (hstep : s.tan.step ≠ 3) : ∃ t, exec (.alignmentMarker f st) s = .next t ∧ now t = st :=
  ⟨_, congrArg Host.Outcome.next (if_pos (by rw [hf, hnon, bne_iff_ne.mpr hstep]; rfl)), wholeNs_fromNs st⟩

theorem revertHoldExpiry_asks {t : BitVec 64} {s : State} (hhold : s.tan.holdStart = some t) (hnon : nonHolder s = true)
    (hrole : s.tan.role = false) (hrevert : s.cfg.tan.revert = true) (hstep : s.tan.step = 1)
    (hreached : reached s (t + BitVec.ofNat 64 (1000000000 * s.cfg.tan.revertHold)) = true) :
    ∃ u, exec .revertHoldExpiry s = .next u ∧ u.out.reins = s.out.reins ++ [reinsFrame s .revert (now s)] ∧ u.tan.asked = true := by
  refine ⟨setTan (sendReins .revert (now s) s) { (sendReins .revert (now s) s).tan with asked := true }, ?_, rfl, rfl⟩
  change execRevertHoldExpiry s = _
  rw [execRevertHoldExpiry, hhold]
  exact congrArg Host.Outcome.next (if_pos (by rw [hnon, hrole, hrevert, hstep, hreached]; rfl))

/-! ### Handovers (R409) -/

theorem tan_takenEvent (cause : Nat) (s : State) : (takenEvent cause s).tan = s.tan := keeps_postEvent _ _ _ _ State.tan

/-- The member that takes the reins drives, and no handover waits any more. -/
theorem takeReins_drives (cause : Nat) {s : State} (hnone : s.tan.handover = none) :
    (takeReins cause s).tan.reins = true ∧ (takeReins cause s).tan.outputs = true ∧ (takeReins cause s).tan.reinsSel = true
      ∧ (takeReins cause s).tan.handover = none ∧ (cause = 0 → trouble (takeReins cause s) .takeover = true) := by
  by_cases hcause : cause = 0
  · subst hcause
    have htan : ∀ t : State, (takenEvent 0 (raise .takeover t)).tan = t.tan := fun t =>
      (tan_takenEvent _ _).trans (keeps_raise _ _ State.tan)
    simp only [takeReins, if_true, htan]
    exact ⟨rfl, rfl, rfl, hnone, fun _ => trouble_postEvent (trouble_raise _ _)⟩
  · simp only [takeReins, if_neg hcause, tan_takenEvent]
    exact ⟨rfl, rfl, rfl, hnone, fun h => absurd h hcause⟩

/-- The outputs of a member in its tandem, and whether a handover waits. -/
def drivers (s : State) : Bool × Bool × Bool × Option (BitVec 64 × Bool × Nat) :=
  (s.tan.reins, s.tan.outputs, s.tan.reinsSel, s.tan.handover)

theorem drivers_pairYield (s : State) : drivers (pairYield s) = drivers s := by
  unfold pairYield
  split
  · split
    · rfl
    · rfl
  · rfl

theorem drivers_yieldReins (cause : Nat) (s : State) :
    drivers (yieldReins cause s) = (false, false, false, s.tan.handover) := by
  refine keeps_ite rfl ((drivers_pairYield _).trans ?_)
  rw [drivers, tan_takenEvent]
  rfl

theorem handoverInstant_of_reached {th : BitVec 64} {takes : Bool} {cause : Nat} {s : State}
    (hwait : s.tan.handover = some (th, takes, cause)) (hreached : reached s th = true) :
    exec .handoverInstant s = .next (if takes then takeReins cause (setTan s { s.tan with handover := none })
      else yieldReins cause (setTan s { s.tan with handover := none })) := by
  change execHandoverInstant s = _
  rw [execHandoverInstant, hwait]
  exact congrArg Host.Outcome.next (if_pos hreached)

theorem handoverInstant_takes {th : BitVec 64} {cause : Nat} {s : State} (hwait : s.tan.handover = some (th, true, cause))
    (hreached : reached s th = true) :
    ∃ t, exec .handoverInstant s = .next t ∧ t.tan.reins = true ∧ t.tan.outputs = true ∧ t.tan.reinsSel = true
      ∧ t.tan.handover = none ∧ (cause = 0 → trouble t .takeover = true) :=
  ⟨_, handoverInstant_of_reached hwait hreached, takeReins_drives cause rfl⟩

theorem handoverInstant_yields {th : BitVec 64} {cause : Nat} {s : State} (hwait : s.tan.handover = some (th, false, cause))
    (hreached : reached s th = true) :
    ∃ t, exec .handoverInstant s = .next t ∧ t.tan.reins = false ∧ t.tan.outputs = false ∧ t.tan.reinsSel = false
      ∧ t.tan.handover = none := by
  have hdrivers := drivers_yieldReins cause (setTan s { s.tan with handover := none })
  simp only [drivers, Prod.mk.injEq] at hdrivers
  exact ⟨_, handoverInstant_of_reached hwait hreached, hdrivers⟩

/-! ### Lease ends and silent takeovers (R406, R407, R410, R411) -/

theorem leaseEndHolder_drops {e : BitVec 64} {s : State} (hlease : s.tan.leaseOwn = some e) (hjoined : s.tan.joined = true)
    (hreins : s.tan.reins = true) (hreached : reached s (e - 100000) = true) (hdown : ∀ l, l < 4 → (hlink s l).up = false) :
    ∃ t, exec .leaseEndHolder s = .next t ∧ t.tan.reins = false ∧ t.tan.outputs = false ∧ t.tan.reinsSel = false
      ∧ t.tan.peerDown = true := by
  have hnone : linksUp s = [] := by simpa [linksUp] using hdown
  have hheld : holdPeersDown (dropDrivers s) = setTan (dropDrivers s) { (dropDrivers s).tan with peerDown := true } := by
    have hlinks : linksUp (dropDrivers s) = [] := hnone
    rw [holdPeersDown, hlinks]
    rfl
  refine ⟨setTan (holdPeersDown (dropDrivers s)) { (holdPeersDown (dropDrivers s)).tan with step := 3, handover := none }, ?_, ?_⟩
  · change execLeaseEndHolder s = _
    rw [execLeaseEndHolder, hlease]
    refine congrArg Host.Outcome.next (if_pos ?_)
    rw [hjoined, hreins, show reached s (before e 100000) = true from hreached]
    rfl
  · rw [hheld]
    exact ⟨rfl, rfl, rfl, rfl⟩

/-- The backhaul frames of the gap before now, oldest first. -/
def gapFrames (a : BitVec 64) (s : State) : List BhOut := (s.tan.bhSent.filter (fun e => 0 ≤ (e.1 - a).toInt)).map (·.2)

/-- The gap of a takeover in which nothing was on air, nothing is remembered and no frame waits for a mirrored input. -/
theorem handleGap_of_quiet {a : BitVec 64} {s : State} (htxs : s.radio.txs = []) (hrecent : s.radio.recent = [])
    (hheard : s.tan.bhHeard = []) : handleGap a s = { s with
      radio := { s.radio with txs := [], recent := [] }, out := { s.out with bh := s.out.bh ++ gapFrames a s }
      tan := { s.tan with bhHeard := [] } } := by
  simp only [handleGap, htxs, hrecent, List.filter_nil, List.append_nil, List.foldl_nil, List.map_nil, takeUncovered, hheard]
  rfl

/-- A member that takes the reins because its partner is silent, before the gap is handled. -/
def silentDrivers (s : State) : State :=
  let s1 := takeDrivers s
  countTan 3 (setTan s1 { s1.tan with step := 3, handover := none, leaseSeen := none })

theorem silentTakeover_of_end {e : BitVec 64} {s : State} (hlease : s.tan.leaseSeen = some e) (hnon : nonHolder s = true)
    (hstep : s.tan.step = 1) (hreached : reached s (e + 100000) = true) :
    exec .silentTakeover s =
      .next (takenEvent 1 (handleGap (e - 100000) (raise .takeover (raise .reinsLost (silentDrivers s))))) := by
  change execSilentTakeover s = _
  rw [execSilentTakeover, hlease]
  exact congrArg Host.Outcome.next (if_pos (by rw [hnon, hstep, show reached s (e + 100000#64) = true from hreached]; rfl))

theorem silentTakeover_of_early {e : BitVec 64} {s : State} (hlease : s.tan.leaseSeen = some e)
    (hearly : reached s (e + 100000) = false) : exec .silentTakeover s = .next s := by
  change execSilentTakeover s = _
  rw [execSilentTakeover, hlease]
  exact congrArg Host.Outcome.next (if_neg (by rw [show reached s (e + 100000#64) = false from hearly]; simp))

theorem silentTakeover_drives (e : BitVec 64) (s : State) (hlease : s.tan.leaseSeen = some e) (hnon : nonHolder s = true)
    (hstep : s.tan.step = 1) (hreached : reached s (e + 100000) = true) (htxs : s.radio.txs = []) (hrecent : s.radio.recent = [])
    (hheard : s.tan.bhHeard = []) :
    ∃ t, exec .silentTakeover s = .next t ∧ t.tan.reins = true ∧ t.tan.outputs = true ∧ t.tan.reinsSel = true
      ∧ trouble t .reinsLost = true ∧ trouble t .takeover = true
      ∧ t.out.bh = s.out.bh ++ (s.tan.bhSent.filter (fun x => decide (0 ≤ (x.1 - (e - 100000)).toInt))).map (·.2) := by
  let told := raise .takeover (raise .reinsLost (silentDrivers s))
  have htan : told.tan = (silentDrivers s).tan := (keeps_raise _ _ State.tan).trans (keeps_raise _ _ State.tan)
  have hradio : told.radio = s.radio := (keeps_raise _ _ State.radio).trans (keeps_raise _ _ State.radio)
  have hbh : told.out.bh = s.out.bh :=
    (quiet_raise (P := fun t => t.out.bh) (fun _ _ _ _ => rfl) _ _).trans (quiet_raise (P := fun t => t.out.bh) (fun _ _ _ _ => rfl) _ _)
  have hgap := handleGap_of_quiet (a := e - 100000) (s := told) (by rw [hradio, htxs]) (by rw [hradio, hrecent])
    (by rw [htan]; exact hheard)
  refine ⟨_, silentTakeover_of_end hlease hnon hstep hreached, ?_, ?_, ?_, ?_, ?_, ?_⟩
  · rw [tan_takenEvent, hgap, htan]
    rfl
  · rw [tan_takenEvent, hgap, htan]
    rfl
  · rw [tan_takenEvent, hgap, htan]
    rfl
  · rw [hgap]
    exact trouble_postEvent (trouble_raise_of (c := .reinsLost) (trouble_raise _ _))
  · rw [hgap]
    exact trouble_postEvent (trouble_raise .takeover (raise .reinsLost (silentDrivers s)))
  · refine (quiet_postEvent (P := fun t => t.out.bh) (fun _ _ _ _ => rfl) _ _ _ _).trans ?_
    rw [hgap, hbh, gapFrames, htan]
    rfl

/-- Settles O46: mirrored inputs, digests, frames, leases, handovers and takeovers, one lemma each. -/
theorem tandemActs : Obligations.TandemActs :=
  ⟨fun asn n x _ => mirroredInput_of_nonHolder asn n x, fun asn n x _ => mirroredInput_of_holder asn n x,
    fun _ _ _ _ hq => resolveMirrored_single hq,
    fun _ _ _ _ _ w _ hlt hq => by rw [resolveMirrored_pair hlt hq, settleMirrored_grants],
    fun _ _ _ _ hq => resolveMirrored_single hq, fun p f _ => bhFrameReceived_of_nonHolder p f, fun _ _ _ _ => takeMirrored_of_heard,
    fun i _ => blankAssert_of_holder i, fun _ st r _ => sendReply_of_mirrored st r,
    fun _ _ _ hjoined hdigest hstep => ⟨slotDigest_of_match hjoined hdigest (.inl hstep),
      fun _ => slotDigest_of_mismatch hjoined hdigest hstep⟩,
    fun _ _ => digestMatches_in_step,
    fun _ _ _ hjoined hdigest hstep hother => ⟨_, slotDigest_of_match hjoined hdigest (.inr hstep), digestMatches_enters hstep hother⟩,
    fun _ _ _ _ => slotDigest_while_joining, fun _ => digestMissing_of_four, fun _ => reinsRenewalSend_of_due,
    fun _ => reinsRenewalSend_without_majority, fun _ => reinsRenewalSend_of_early, reinsRenewal_takes, bad_frame_does_nothing,
    sealReins_read, fun _ _ => reinsRelease_awaits, fun _ _ => revertRequest_grants, fun _ _ => ⟨rfl, rfl⟩,
    fun _ _ => handoverGrant_awaits, alignmentMarker_sets_time, fun _ _ _ => handoverInstant_takes,
    fun _ _ _ => handoverInstant_yields, fun _ _ => leaseEndHolder_drops, silentTakeover_drives,
    fun _ _ => silentTakeover_of_early, reinsLost_tells, fun _ _ => revertHoldExpiry_asks⟩

end Sys2Proof.Proofs
end

section
/-! Settles Obligations.BridleActs: the three channels of Bridle. -/

namespace Sys2Proof.Proofs

open Sys2Proof.Machine Sys2Proof.Laws Sys2Proof.Safety

-- Proofs one after another: the threads of many at once would pass the memory that the check allows.
set_option Elab.async false

/-! ### Frames of a self-test, of a failure, and of the end of every command -/

section SelfTest

variable {α : Type} (P : State → α)
  (hP : ∀ s l p b c d e f, P { s with
    dev := { s.dev with soundness := l, soundPin := p }, tan := b, free := c, trb := d, que := e, out := f } = P s)

include hP

theorem keeps_failOver (s : State) : P (failOver s) = P s := by
  have hreport : ∀ s a b c, P { s with trb := a, que := b, out := c } = P s := fun s => hP s s.dev.soundness s.dev.soundPin s.tan s.free
  unfold failOver releaseReins
  refine (keeps_raise _ _ P hreport).trans (keeps_ite ?_ rfl)
  exact hP s s.dev.soundness s.dev.soundPin _ s.free s.trb s.que _

theorem keeps_setSoundness (n : Nat) (v : Soundness) (s : State) : P (setSoundness n v s) = P s := by
  have hreport : ∀ s a b c, P { s with trb := a, que := b, out := c } = P s := fun s => hP s s.dev.soundness s.dev.soundPin s.tan s.free
  have hset : P { s with dev := { s.dev with soundness := tabSet s.dev.soundness n v } } = P s :=
    hP s _ s.dev.soundPin s.tan s.free s.trb s.que s.out
  exact keeps_ite ((keeps_postEvent _ _ _ _ P hreport).trans hset) hset

/-- A self-test touches the soundness, the tandem and what is reported alone. -/
theorem keeps_selfTest (mask : BitVec 20) (s : State) : P (selfTest mask s).2 = P s := by
  have hfound : ∀ l : List (Nat × Nat), P (l.foldl (fun t e => setSoundness e.1 (soundnessAfter s e.1 e.2) t) s) = P s := fun l =>
    keeps_foldl P (fun t e => keeps_setSoundness P hP e.1 _ t) l s
  have htested : ∀ t n, P t = P s → P { setSound t with free := n } = P s := fun t n ht =>
    (hP t t.dev.soundness _ t.tan n t.trb t.que t.out).trans ht
  have hfailed : ∀ (c : Bool) t, P t = P s → P (if c then failOver t else t) = P s := fun _ t ht =>
    keeps_ite ((keeps_failOver P hP t).trans ht) ht
  have hleft : ∀ (c : Bool) t n, P t = P s → P (if c then { t with tan := { t.tan with step := n } } else t) = P s := fun _ t _ ht =>
    keeps_ite ((hP t t.dev.soundness t.dev.soundPin _ t.free t.trb t.que t.out).trans ht) ht
  have hagain : ∀ (c : Bool) t, P t = P s → P (if c then beginResync t else t) = P s := fun _ t ht =>
    keeps_ite ((hP t t.dev.soundness t.dev.soundPin _ t.free t.trb t.que t.out).trans ht) ht
  unfold selfTest
  exact hagain _ _ (hleft _ _ _ (hfailed _ _ (htested _ _ (hfound _))))

end SelfTest

theorem keeps_abandonAll {α : Type} (P : State → α) (hP : ∀ s a b c d, P { s with sem := a, trb := b, que := c, out := d } = P s)
    (a : BitVec 8) (s : State) : P (abandonAll a s) = P s := by
  have hreport : ∀ s b c d, P { s with trb := b, que := c, out := d } = P s := fun s b c d => hP s s.sem b c d
  refine keeps_foldl P (fun t n => ?_) _ s
  unfold abandonSem
  split
  · exact (keeps_postEvent _ _ _ _ P hreport).trans ((keeps_raise _ _ P hreport).trans (hP t _ t.trb t.que t.out))
  · rfl

/-! ### Semaphores of an agent that resets (R63) -/

theorem holder_abandonSem (n k : Nat) (s : State) :
    (sem (abandonSem n s) k).holder = if k = n then none else (sem s k).holder := by
  have hreport : ∀ d t, sem (postEvent 0x0003 n d (raise .semAbandoned t)) k = sem t k := fun d t =>
    (keeps_postEvent _ _ _ _ (sem · k)).trans (keeps_raise _ _ (sem · k))
  unfold abandonSem
  split
  · rw [hreport, sem_setSem]
    split
    · rfl
    · rfl
  · next hnone =>
    split
    · next hk => rw [hk, hnone]
    · rfl

theorem holder_foldl_abandonSem (l : List Nat) (k : Nat) (s : State) :
    (sem (l.foldl (fun t n => abandonSem n t) s) k).holder = if k ∈ l then none else (sem s k).holder := by
  induction l generalizing s with
  | nil => rfl
  | cons n r ih =>
    rw [List.foldl_cons, ih, holder_abandonSem]
    by_cases hr : k ∈ r
    · simp [hr]
    · by_cases hk : k = n
      · simp [hk]
      · simp [hr, hk]

/-- No semaphore stays with an agent whose semaphores are abandoned. -/
theorem holder_abandonAll (a : BitVec 8) (n : Fin 64) (s : State) : (sem (abandonAll a s) n).holder ≠ some a := by
  rw [abandonAll, holder_foldl_abandonSem]
  split
  · exact nofun
  · next hout =>
    intro hheld
    exact hout (List.mem_filter.mpr ⟨List.mem_range.mpr n.isLt, decide_eq_true hheld⟩)

/-! ### Every command in flight ends (R41, R417) -/

theorem keeps_abortInFlight {α : Type} (P : State → α)
    (hP : ∀ s a b c d e, P { s with trb := a, que := b, out := c, tan := d, cmd := e } = P s) (s : State) :
    P (abortInFlight s) = P s := by
  have hreply : ∀ e st r t, P (sendReply e st r t) = P t := fun e st r t => by
    obtain ⟨hother, -⟩ := sendReply_replied e st r t
    rw [hother, hP]
  have hcmd : ∀ t v, P { t with cmd := v } = P t := fun t v => hP t t.trb t.que t.out t.tan v
  have hcomplete : ∀ q tag st r t, P (complete q tag st r t) = P t := fun q tag st r t => by
    unfold complete
    split
    · exact (hreply _ _ _ _).trans (hcmd _ _)
    · rfl
  unfold abortInFlight endForeign completeAll
  exact (hcmd _ _).trans ((keeps_foldl P (fun t w => hreply _ _ _ t) _ _).trans
    (keeps_foldl P (fun t e => hcomplete _ _ _ _ t) _ s))

theorem noneCleared_abortInFlight (s : State) : NoneCleared s (abortInFlight s) := by
  unfold abortInFlight endForeign completeAll
  exact ((noneCleared_foldl (fun t e => noneCleared_complete _ _ _ _ t) _ s).trans
    (noneCleared_foldl (fun t w => noneCleared_sendReply _ _ _ t) _ _)).trans (noneCleared_of_trb rfl)

/-- Of the commands in flight only held replies are left. -/
theorem held_of_abortInFlight {s : State} {e : InFlight} (h : e ∈ (abortInFlight s).cmd.inFlight) : e.phase = .held := by
  have hforeign : ∀ (l : List WaitingCmd) (t : State),
      e ∈ (l.foldl (fun t w => sendReply (entryOf w.src w.op w.packet) .abortedReset [] t) t).cmd.inFlight →
        e.phase = .held ∨ e ∈ t.cmd.inFlight := by
    intro l
    induction l with
    | nil => exact fun _ h => .inr h
    | cons w r ih => exact fun t h => (ih _ h).elim .inl mem_inFlight_sendReply
  by_contra hrun
  obtain ⟨hmem, hout⟩ := (mem_inFlight_completeAll ((hforeign _ _ h).resolve_left hrun)).resolve_left hrun
  exact hout (List.mem_map_of_mem (List.mem_filter.mpr ⟨hmem, bne_iff_ne.mpr hrun⟩))

/-! ### Votes (R415, R416) -/

theorem bit_setBit_clear {n : Nat} (m : BitVec n) (i : Nat) : bit (setBit m i false) i = false := by
  have hone : i < n → (BitVec.ofNat n (2 ^ i)).getLsbD i = true := fun hi => by
    rw [BitVec.getLsbD_ofNat, Nat.testBit_two_pow_self, decide_eq_true hi, Bool.and_self]
  rw [bit, setBit, if_neg Bool.false_ne_true, BitVec.getLsbD_and, BitVec.getLsbD_not]
  by_cases hi : i < n
  · rw [hone hi]
    simp
  · simp [hi]

theorem bri_giveUpVote (ch : Nat) (st : Bool) (s : State) : (giveUpVote ch st s).bri = { s.bri with
    votes := setBit s.bri.votes ch false, withdrawals := s.bri.withdrawals + 1
    history := (s.bri.history.filter (fun e => !reached s (e.2 + 1000000000#64))) ++ [(ch, now s)] } :=
  (keeps_postEvent _ _ _ _ State.bri).trans (keeps_raise _ _ State.bri)

theorem bridleVote_of_first (ch : Fin 3) (st : Bool) (s : State) (hvote : bit s.bri.votes ch.val = true)
    (hhistory : s.bri.history = []) :
    exec (.bridleVote ch st) s = .next (postEvent 0x0B05 ch.val (w32 (flag st)) (raise .bridleVote (setSound { s with bri := { s.bri with
      votes := setBit s.bri.votes ch false, withdrawals := s.bri.withdrawals + 1, history := [(ch.val, now s)] } }))) := by
  have honce : thirdTime ch.val (giveUpVote ch.val st s) = false := by
    rw [thirdTime, bri_giveUpVote, hhistory]
    simp
  change execBridleVote ch st s = _
  rw [execBridleVote, if_pos hvote]
  dsimp only
  rw [if_neg (by rw [honce]; exact Bool.false_ne_true), giveUpVote, hhistory]
  rfl

/-- A channel that gives up its vote for the third time within 1 s stays out. -/
theorem bridleVote_of_third (ch : Fin 3) (st : Bool) (s : State) (a b : BitVec 64) (hvote : bit s.bri.votes ch.val = true)
    (hhistory : s.bri.history = [(ch.val, a), (ch.val, b)]) (ha : reached s (a + 1000000000) = false)
    (hb : reached s (b + 1000000000) = false) :
    ∃ t, exec (.bridleVote ch st) s = .next t ∧ bit t.bri.out ch.val = true ∧ bit t.bri.votes ch.val = false := by
  have hthird : thirdTime ch.val (giveUpVote ch.val st s) = true := by
    have ha' : reached s (a + 1000000000#64) = false := ha
    have hb' : reached s (b + 1000000000#64) = false := hb
    rw [thirdTime, bri_giveUpVote, hhistory]
    simp [ha', hb']
  let s1 := giveUpVote ch.val st s
  have hexec : exec (.bridleVote ch st) s
      = .next (selfTest 0x80000#20 (setBri s1 { s1.bri with out := setBit s1.bri.out ch.val true })).2 := by
    change execBridleVote ch st s = _
    rw [execBridleVote, if_pos hvote]
    exact congrArg Host.Outcome.next (if_pos hthird)
  have hbri : (selfTest 0x80000#20 (setBri s1 { s1.bri with out := setBit s1.bri.out ch.val true })).2.bri
      = { s1.bri with out := setBit s1.bri.out ch.val true } := keeps_selfTest State.bri (fun _ _ _ _ _ _ _ _ => rfl) _ _
  have hvotes : s1.bri.votes = setBit s.bri.votes ch false := congrArg Bridle.votes (bri_giveUpVote _ _ _)
  refine ⟨_, hexec, ?_, ?_⟩
  · rw [hbri]
    exact bit_setBit_self _ ch.isLt
  · rw [hbri]
    change bit s1.bri.votes ch.val = false
    rw [hvotes]
    exact bit_setBit_clear _ _

/-! ### Checkpoints and restarts (R416, R417) -/

theorem bridleCheckpoint_of_rejoining (passed : Bool) {s : State} (hrejoin : rejoining s ≠ 0) (hruns : s.bri.restarting = false) :
    exec (.bridleCheckpoint passed) s = .next (abandonAll 0x80#8
      (if passed then setSound (setBri s { s.bri with votes := s.bri.votes ||| rejoining s }) else s)) :=
  congrArg Host.Outcome.next (if_neg (by rw [hruns]; simpa using hrejoin))

theorem bridleCheckpoint_passed (s : State) (hrejoin : rejoining s ≠ 0) (hruns : s.bri.restarting = false) :
    ∃ t, exec (.bridleCheckpoint true) s = .next t ∧ t.bri.votes = s.bri.votes ||| (~~~ s.bri.votes &&& ~~~ s.bri.out)
      ∧ t.bri.out = s.bri.out ∧ t.cmd = s.cmd ∧ ∀ n : Fin 64, (sem t n).holder ≠ some 0x80 :=
  ⟨_, bridleCheckpoint_of_rejoining true hrejoin hruns, keeps_abandonAll (fun t => t.bri.votes) (fun _ _ _ _ _ => rfl) _ _,
    keeps_abandonAll (fun t => t.bri.out) (fun _ _ _ _ _ => rfl) _ _, keeps_abandonAll State.cmd (fun _ _ _ _ _ => rfl) _ _,
    fun n => holder_abandonAll _ n _⟩

theorem bridleCheckpoint_failed (s : State) (hrejoin : rejoining s ≠ 0) (hruns : s.bri.restarting = false) :
    ∃ t, exec (.bridleCheckpoint false) s = .next t ∧ t.bri = s.bri :=
  ⟨_, bridleCheckpoint_of_rejoining false hrejoin hruns, keeps_abandonAll State.bri (fun _ _ _ _ _ => rfl) _ _⟩

/-- Bridle at the loss of its majority, as the self-test's failure leaves it. -/
def majorityLost (s : State) : State :=
  failOver (setSound (setBri s { s.bri with restarting := true, restarts := s.bri.restarts + 1 }))

theorem bridleMajorityLoss_restarts (s : State) (hruns : s.bri.restarting = false) :
    ∃ t, exec .bridleMajorityLoss s = .next t ∧ t.dev.cmdReady = false ∧ t.dev.soundPin = false ∧ t.bri.restarting = true
      ∧ t.bri.restarts = s.bri.restarts + 1 ∧ (∀ e ∈ t.cmd.inFlight, e.phase = .held) ∧ trouble t .selftestFail = true := by
  let s1 := abortInFlight (majorityLost s)
  let s2 : State := { s1 with dev := { s1.dev with cmdReady := false, soundPin := false } }
  have hexec : exec .bridleMajorityLoss s = .next (abandonAll 0x80#8 s2) :=
    congrArg Host.Outcome.next (if_neg (by rw [hruns]; exact Bool.false_ne_true))
  have hdev : (abandonAll 0x80#8 s2).dev = s2.dev := keeps_abandonAll State.dev (fun _ _ _ _ _ => rfl) _ _
  have hcmd : (abandonAll 0x80#8 s2).cmd = s1.cmd := keeps_abandonAll State.cmd (fun _ _ _ _ _ => rfl) _ s2
  have hbri : (abandonAll 0x80#8 s2).bri = { s.bri with restarting := true, restarts := s.bri.restarts + 1 } :=
    (keeps_abandonAll State.bri (fun _ _ _ _ _ => rfl) _ s2).trans ((keeps_abortInFlight State.bri (fun _ _ _ _ _ _ => rfl) _).trans
      (keeps_failOver State.bri (fun _ _ _ _ _ _ _ _ => rfl) _))
  have htrouble : trouble s1 .selftestFail = true :=
    noneCleared_abortInFlight _ .selftestFail (trouble_raise .selftestFail (releaseReins _))
  refine ⟨_, hexec, ?_, ?_, ?_, ?_, fun e he => ?_, noneCleared_abandonAll _ s2 .selftestFail htrouble⟩
  · rw [hdev]
  · rw [hdev]
  · rw [hbri]
  · rw [hbri]
  · rw [hcmd] at he
    exact held_of_abortInFlight he

theorem bridleRestartComplete_serves (s : State) (hrestart : s.bri.restarting = true) :
    ∃ t, exec .bridleRestartComplete s = .next t ∧ t.dev.cmdReady = true ∧ t.bri.restarting = false
      ∧ t.bri.votes = ~~~ s.bri.out :=
  ⟨_, congrArg Host.Outcome.next (if_pos hrestart), rfl, rfl, rfl⟩

/-- Settles O47: votes, checkpoints and restarts of Bridle's channels, one lemma each. -/
theorem bridleActs : Obligations.BridleActs :=
  ⟨bridleVote_of_first, bridleVote_of_third, bridleCheckpoint_passed, bridleCheckpoint_failed, bridleMajorityLoss_restarts,
    bridleRestartComplete_serves⟩

end Sys2Proof.Proofs
end

section
/-! Settles Obligations.VaultCommandsRun: slots, attestation, zone keys and masks, and the tamper commands. -/

namespace Sys2Proof.Proofs

open Sys2Proof.Machine Sys2Proof.Laws Sys2Proof.Safety

-- Proofs one after another: the threads of many at once would pass the memory that the check allows.
set_option Elab.async false

theorem within_slot {c : Packet} {i : Nat} (h : pn c i ≤ 63) : within c i 0 63 = true := within_iff.mpr ⟨Nat.zero_le _, h⟩

/-! ### Slots made, imported and retired (R424-R427) -/

theorem newSlotCheck_of_free {k : Nat} {u : State} (hempty : (vaultSlot u k).state = 0) (hlatch : u.vault.tampered = false) :
    newSlotCheck k u = none := by
  simp [newSlotCheck, hempty, hlatch]

theorem newSlotCheck_of_used {k : Nat} {u : State} (hused : (vaultSlot u k).state ≠ 0) :
    newSlotCheck k u = some .notPermittedSlotUsed := by
  simp [newSlotCheck, hused]

theorem newSlotCheck_of_latched {k : Nat} {u : State} (hempty : (vaultSlot u k).state = 0) (hlatch : u.vault.tampered = true) :
    newSlotCheck k u = some .notPermittedTamperLatched := by
  simp [newSlotCheck, hempty, hlatch]

theorem vaultOpen_iff {u : State} : vaultOpen u = true ↔ u.vault.unlocked = true ∧ u.vault.rootOk = true := Bool.and_eq_true_iff

theorem slotGenerate_valid {c : Packet} (hslot : pn c 0 ≤ 63) (htype : pn c 1 = 2) : slotGenerateSpec.valid c = true :=
  within_and ⟨Nat.zero_le _, hslot, htype.ge, htype.le⟩

theorem slotGenerate_run {c : Packet} {u : State} (hopen : vaultOpen u = true) : slotGenerateSpec.run c u =
    let v := transportSlot (drawRandom u).1 (drawRandom (drawRandom u).2).1
    doneWith (wordsOfBytes v.pub) (setSlot (pn c 0) v (drawRandom (drawRandom u).2).2) := if_pos hopen

theorem slotGenerate_runs (r m : BitVec 256) : Runs .slotGenerate 0x0A01 2
    (fun c u => pn c 0 ≤ 63 ∧ pn c 1 = 2 ∧ (vaultSlot u (pn c 0)).state = 0 ∧ u.vault.tampered = false
      ∧ (u.vault.unlocked = true ∧ u.vault.rootOk = true) ∧ (drawRandom u).1 = r ∧ (drawRandom (drawRandom u).2).1 = m)
    (fun _ _ => wordsOfBytes (p256Public (beBytes 32 r.toNat)))
    (fun c u =>
      let v : Slot := { state := 1, typ := 2, origin := 1, pub := p256Public (beBytes 32 r.toNat), key := beBytes 32 r.toNat, mask := m }
      setSlot (pn c 0) v (drawRandom (drawRandom u).2).2) :=
  runs_row slotGenerateSpec (fun _ _ ⟨hslot, htype, _⟩ => slotGenerate_valid hslot htype)
    (fun c u ⟨_, _, _, _, hopen, hr, hm⟩ => by
      rw [slotGenerate_run (vaultOpen_iff.mpr hopen), hr, hm]
      simp only [transportSlot, doneWith])
    (hp := fun _ _ ⟨_, _, hempty, hlatch, _⟩ => newSlotCheck_of_free hempty hlatch)

theorem slotGenerate_without_root : Ends .slotGenerate 0x0A01 2
    (fun c u => pn c 0 ≤ 63 ∧ pn c 1 = 2 ∧ (vaultSlot u (pn c 0)).state = 0 ∧ u.vault.tampered = false ∧ u.vault.rootOk = false)
    .failedRootKey :=
  ends_row slotGenerateSpec (fun _ _ ⟨hslot, htype, _⟩ => slotGenerate_valid hslot htype)
    (fun _ u ⟨_, _, _, _, hroot⟩ => if_neg fun hopen => Bool.false_ne_true (hroot.symm.trans (vaultOpen_iff.mp hopen).2))
    (hp := fun _ _ ⟨_, _, hempty, hlatch, _⟩ => newSlotCheck_of_free hempty hlatch)

/-- The operands of SLOT_IMPORT lie in the ranges that R440 gives them, and its slot may be written. -/
def Importable (c : Packet) (u : State) : Prop :=
  pn c 0 ≤ 63 ∧ (pn c 1 = 1 ∨ pn c 1 = 3) ∧ pn c 2 ≤ 63 ∧ pn c 29 < 16777216 ∧ p256Valid (pbytes c 3 64) = true
    ∧ (vaultSlot u (pn c 0)).state = 0 ∧ u.vault.tampered = false

theorem Importable.valid {c : Packet} {u : State} (h : Importable c u) : slotImportSpec.valid c = true := by
  obtain ⟨hslot, htype, hkey, hcheck, hpoint, _⟩ := h
  have hbits : fits c 29 24 = true := fits_iff.mpr hcheck
  have htypes : (decide (pn c 1 = 1) || decide (pn c 1 = 3)) = true := by simpa using htype
  change (within c 0 0 63 && (decide (pn c 1 = 1) || decide (pn c 1 = 3)) && within c 2 0 63 && fits c 29 24
    && p256Valid (pbytes c 3 64)) = true
  rw [within_slot hslot, htypes, within_slot hkey, hbits, hpoint]
  rfl

theorem Importable.perm {c : Packet} {u : State} (h : Importable c u) : slotImportSpec.perm c u = none := by
  obtain ⟨_, _, _, _, _, hempty, hlatch⟩ := h
  exact newSlotCheck_of_free hempty hlatch

/-- The key-encryption key of an import (R427). -/
def kekOf (c : Packet) (u : State) : List Byte :=
  sha256 ([0#8, 0#8, 0#8, 1#8] ++ ecdh (vaultSlot u (pn c 2)).key (pbytes c 3 64)
    ++ [0x59#8, 0x4E#8, 0x4B#8, 0x57#8, BitVec.ofNat 8 (pn c 0), BitVec.ofNat 8 (pn c 1)])

theorem importKek_eq (c : Packet) (u : State) :
    importKek (vaultSlot u (pn c 2)).key (pbytes c 3 64) (pn c 0) (pn c 1) = kekOf c u := by
  unfold importKek kekOf
  rw [List.append_assoc _ [0x59#8, 0x4E#8, 0x4B#8, 0x57#8]]
  rfl

theorem importField_of_unwrapped {c : Packet} {u : State} {f : List Byte} (hkey : keyUnwrap (kekOf c u) (pbytes c 19 40) = some f)
    (hrest : pn c 1 = 1 → ∀ b ∈ f.drop 16, b = 0#8) (hcheck : checkValue (pn c 1) f = pbytes c 29 3) :
    importField u c = some f := by
  have hzero : (decide (pn c 1 = 1) && (f.drop 16).any (fun b => b != 0#8)) = false := by
    by_cases htype : pn c 1 = 1
    · simpa [htype] using hrest htype
    · simp [htype]
  have hsame : (checkValue (pn c 1) f != pbytes c 29 3) = false := by simp [hcheck]
  simp only [importField, importKek_eq, hkey, hzero, hsame, Bool.false_eq_true, if_false]

theorem importField_of_bad_wrap {c : Packet} {u : State} (hkey : keyUnwrap (kekOf c u) (pbytes c 19 40) = none) :
    importField u c = none := by
  simp only [importField, importKek_eq, hkey]

theorem slotImport_ready {c : Packet} {u : State} (hstate : (vaultSlot u (pn c 2)).state = 1)
    (htype : (vaultSlot u (pn c 2)).typ = 2) : slotImportSpec.ready c u = true := by
  simp [slotImportSpec, hstate, htype]

theorem slotImport_runs (f : List Byte) : Runs .slotImport 0x0A02 30
    (fun c u => Importable c u ∧ (u.vault.unlocked = true ∧ u.vault.rootOk = true) ∧ (vaultSlot u (pn c 2)).state = 1
      ∧ (vaultSlot u (pn c 2)).typ = 2 ∧ keyUnwrap (kekOf c u) (pbytes c 19 40) = some f
      ∧ (pn c 1 = 1 → ∀ b ∈ f.drop 16, b = 0#8) ∧ checkValue (pn c 1) f = pbytes c 29 3)
    (fun _ _ => [])
    (fun c u =>
      let v : Slot := { state := 1, typ := pn c 1, origin := 2, check := checkValue (pn c 1) f, key := f, mask := (drawRandom u).1 }
      setSlot (pn c 0) v (drawRandom u).2) :=
  runs_row slotImportSpec (fun _ _ ⟨h, _⟩ => h.valid)
    (fun c u ⟨_, hopen, _, _, hkey, hrest, hcheck⟩ => by
      refine (if_pos (vaultOpen_iff.mpr hopen)).trans ?_
      rw [importField_of_unwrapped hkey hrest hcheck]
      rfl)
    (hp := fun _ _ ⟨h, _⟩ => h.perm) (hr := fun _ _ ⟨_, _, hstate, htype, _⟩ => slotImport_ready hstate htype)

theorem slotImport_without_transport_key : Ends .slotImport 0x0A02 30
    (fun c u => Importable c u ∧ ¬ ((vaultSlot u (pn c 2)).state = 1 ∧ (vaultSlot u (pn c 2)).typ = 2)) .invalidState :=
  ends_notReady slotImportSpec (fun _ _ ⟨h, _⟩ => h.valid)
    (fun c u ⟨_, hkey⟩ => Bool.eq_false_of_not_eq_true fun h => hkey (by simpa [slotImportSpec] using h))
    (hp := fun _ _ ⟨h, _⟩ => h.perm)

theorem slotImport_of_bad_wrap : Ends .slotImport 0x0A02 30
    (fun c u => Importable c u ∧ (u.vault.unlocked = true ∧ u.vault.rootOk = true) ∧ (vaultSlot u (pn c 2)).state = 1
      ∧ (vaultSlot u (pn c 2)).typ = 2 ∧ keyUnwrap (kekOf c u) (pbytes c 19 40) = none) .invalidCheckValue :=
  ends_row slotImportSpec (fun _ _ ⟨h, _⟩ => h.valid)
    (fun c u ⟨_, hopen, _, _, hkey⟩ => by
      refine (if_pos (vaultOpen_iff.mpr hopen)).trans ?_
      rw [importField_of_bad_wrap hkey])
    (hp := fun _ _ ⟨h, _⟩ => h.perm) (hr := fun _ _ ⟨_, _, hstate, htype, _⟩ => slotImport_ready hstate htype)

theorem slotRetire_ready_iff {c : Packet} {u : State} : slotRetireSpec.ready c u = true ↔
    (vaultSlot u (pn c 0)).state = 1 ∧ netsUsing u (pn c 0) = 0 ∧ ∀ e ∈ u.vault.next, e.2 ≠ pn c 0 := by
  simp [slotRetireSpec, and_assoc]

theorem slotRetire_runs : Runs .slotRetire 0x0A03 1
    (fun c u => pn c 0 ≤ 63 ∧ (vaultSlot u (pn c 0)).state = 1 ∧ netsUsing u (pn c 0) = 0 ∧ ∀ e ∈ u.vault.next, e.2 ≠ pn c 0)
    (fun _ _ => [])
    (fun c u =>
      let u1 := dropKeys (fun e => decide (epochSlot u e.net e.epoch = some (pn c 0))) u
      setSlot (pn c 0) { vaultSlot u (pn c 0) with state := 2, key := [], mask := 0 } u1) :=
  runs_row slotRetireSpec (fun _ _ ⟨hslot, _⟩ => within_slot hslot) (fun _ _ _ => rfl)
    (hr := fun _ _ ⟨_, hfree⟩ => slotRetire_ready_iff.mpr hfree)

theorem slotRetire_of_used : Ends .slotRetire 0x0A03 1
    (fun c u => pn c 0 ≤ 63 ∧ ((vaultSlot u (pn c 0)).state ≠ 1 ∨ netsUsing u (pn c 0) ≠ 0)) .invalidState :=
  ends_notReady slotRetireSpec (fun _ _ ⟨hslot, _⟩ => within_slot hslot)
    (fun _ _ ⟨_, hused⟩ => Bool.eq_false_of_not_eq_true fun h => by
      obtain ⟨hstate, hnets, _⟩ := slotRetire_ready_iff.mp h
      exact hused.elim (· hstate) (· hnets))

/-! ### Attestation (R438) -/

theorem exactly_length (n : Nat) (l : List Byte) : (exactly n l).length = n := by simp [exactly]

theorem leBytes_length (k v : Nat) : (leBytes k v).length = k := by simp [leBytes]

/-- The statement in front of its counter, boot epoch and nonce. -/
def statementHead (s : State) (k : Nat) : List Byte :=
  let v := vaultSlot s k
  let flags := 1 + 2 * flag (v.state = 2) + 4 * flag s.vault.tampered + 8 * flag s.vault.vbatLost
  [0x59#8, 0x4E#8, 0x41#8, 0x54#8, 0x01#8, BitVec.ofNat 8 k, BitVec.ofNat 8 v.typ, BitVec.ofNat 8 v.origin, BitVec.ofNat 8 flags]
    ++ exactly 3 (if v.typ = 2 then [] else v.check) ++ exactly 64 v.pub ++ leBytes 8 s.dev.serial.toNat

theorem statement_eq (s : State) (k : Nat) (n : List Byte) :
    statement s k n = statementHead s k ++ (leBytes 4 s.vault.count ++ (wordBytes s.dev.bootEpoch ++ n)) := by
  simp only [statement, statementHead, List.append_assoc]

theorem statementHead_length (s : State) (k : Nat) : (statementHead s k).length = 84 := by
  simp only [statementHead, List.length_append, exactly_length, leBytes_length]
  rfl

theorem statement_layout (u : State) (k : Nat) (n : List Byte) (hn : n.length = 32) :
    (statement u k n).length = 124 ∧ (statement u k n).take 5 = [0x59#8, 0x4E#8, 0x41#8, 0x54#8, 0x01#8]
      ∧ (statement u k n).drop 92 = n ∧ ((statement u k n).drop 84).take 4 = leBytes 4 u.vault.count
      ∧ (∀ x l, (statement { u with vault := { u.vault with slots := tabSet u.vault.slots k { vaultSlot u k with key := l, mask := x } } } k n)
          = statement u k n) := by
  have hhead := statementHead_length u k
  have hcount := leBytes_length 4 u.vault.count
  have hepoch : (wordBytes u.dev.bootEpoch).length = 4 := leBytes_length _ _
  refine ⟨?_, rfl, ?_, ?_, fun x l => ?_⟩
  · simp only [statement_eq, List.length_append, hhead, hcount, hepoch, hn]
  · rw [statement_eq, ← List.append_assoc (leBytes _ _), ← List.append_assoc]
    refine List.drop_left' ?_
    simp only [List.length_append, hhead, hcount, hepoch]
  · rw [statement_eq, List.drop_left' hhead, List.take_left' hcount]
  · have hslot : vaultSlot { u with vault := { u.vault with slots := tabSet u.vault.slots k { vaultSlot u k with key := l, mask := x } } } k
        = { vaultSlot u k with key := l, mask := x } := (tabGet_tabSet _ _ _ _ _).trans (if_pos rfl)
    simp only [statement, hslot]

theorem attest_runs : Runs .attest 0x0A05 9 (fun c u => pn c 0 ≤ 63 ∧ u.vault.brand = true)
    (fun c u =>
      let st := statement u (pn c 0) (pbytes c 1 32)
      wordsOfBytes (st ++ exactly 64 (ecdsaSign Config.brandKey.toNat (drawRandom u).1.toNat (sha256 st)))) (fun _ u => (drawRandom u).2) :=
  runs_row attestSpec (fun _ _ ⟨hslot, _⟩ => within_slot hslot) (fun _ _ ⟨_, hbrand⟩ => if_pos hbrand)

theorem attest_without_brand : Ends .attest 0x0A05 9 (fun c u => pn c 0 ≤ 63 ∧ u.vault.brand = false) .failedRootKey :=
  ends_row attestSpec (fun _ _ ⟨hslot, _⟩ => within_slot hslot)
    (fun _ _ ⟨_, hbrand⟩ => if_neg (by rw [hbrand]; exact Bool.false_ne_true))

/-! ### Zone keys (R430, R435) -/

theorem zoneNextCheck_of_free {u : State} (hminor : u.herd.minority = false) (hlatch : u.vault.tampered = false) :
    zoneNextCheck u = none := by
  simp [zoneNextCheck, minorityCheck, hminor, hlatch]

theorem zoneNextSet_valid {c : Packet} (hnet : pn c 0 ≤ 15) (hkey : pn c 1 ≤ 63 ∨ pw c 1 = 0xFFFFFFFF) :
    zoneNextSetSpec.valid c = true := by
  refine Bool.and_eq_true_iff.mpr ⟨within_iff.mpr ⟨Nat.zero_le _, hnet⟩, Bool.or_eq_true_iff.mpr ?_⟩
  exact hkey.imp within_slot decide_eq_true

theorem pw_ne_ones {c : Packet} {i : Nat} (h : pn c i ≤ 63) : pw c i ≠ 0xFFFFFFFF#32 := fun hw => by
  have hn : pn c i = (0xFFFFFFFF#32).toNat := congrArg BitVec.toNat hw
  rw [hn] at h
  exact absurd h (by decide)

theorem zoneNextSet_binds : Runs .zoneNextSet 0x0A07 2
    (fun c u => pn c 0 ≤ 15 ∧ pn c 1 ≤ 63 ∧ u.herd.minority = false ∧ u.vault.tampered = false ∧ zoneLoaded u (pn c 1) = true)
    (fun _ _ => []) (fun c u => { u with vault := { u.vault with next := tabSet u.vault.next (pn c 0) (pn c 1) } }) :=
  runs_row zoneNextSetSpec (fun _ _ ⟨hnet, hkey, _⟩ => zoneNextSet_valid hnet (.inl hkey))
    (fun _ _ ⟨_, hkey, _⟩ => if_neg (pw_ne_ones hkey))
    (hp := fun _ _ ⟨_, _, hminor, hlatch, _⟩ => zoneNextCheck_of_free hminor hlatch)
    (hr := fun _ _ ⟨_, _, _, _, hloaded⟩ => Bool.or_eq_true_iff.mpr (.inr hloaded))

theorem zoneNextSet_unbinds : Runs .zoneNextSet 0x0A07 2
    (fun c u => pn c 0 ≤ 15 ∧ pw c 1 = 0xFFFFFFFF ∧ u.herd.minority = false ∧ u.vault.tampered = false)
    (fun _ _ => []) (fun c u => { u with vault := { u.vault with next := tabDel u.vault.next (pn c 0) } }) :=
  runs_row zoneNextSetSpec (fun _ _ ⟨hnet, hnone, _⟩ => zoneNextSet_valid hnet (.inr hnone))
    (fun _ _ ⟨_, hnone, _⟩ => if_pos hnone)
    (hp := fun _ _ ⟨_, _, hminor, hlatch⟩ => zoneNextCheck_of_free hminor hlatch)
    (hr := fun _ _ ⟨_, hnone, _⟩ => Bool.or_eq_true_iff.mpr (.inl (decide_eq_true hnone)))

theorem zoneNextSet_in_minority : Ends .zoneNextSet 0x0A07 2
    (fun c u => pn c 0 ≤ 15 ∧ pn c 1 ≤ 63 ∧ u.herd.minority = true) .notPermittedMinority :=
  ends_notPermitted zoneNextSetSpec (fun _ _ ⟨hnet, hkey, _⟩ => zoneNextSet_valid hnet (.inl hkey))
    (fun _ u ⟨_, _, hminor⟩ => by
      change zoneNextCheck u = _
      rw [zoneNextCheck, minorityCheck, if_pos hminor]
      rfl)

/-! ### Tamper commands (R435, R436) -/

theorem tamperSet_valid {c : Packet} (henable : pn c 0 < 1024) (haction : pn c 1 < 1024) (hclosed : pn c 2 < 4) (hlock : pn c 3 < 2) :
    tamperSetSpec.valid c = true := by
  have hbits : fits c 0 10 = true ∧ fits c 1 10 = true ∧ fits c 2 2 = true ∧ fits c 3 1 = true :=
    ⟨fits_iff.mpr henable, fits_iff.mpr haction, fits_iff.mpr hclosed, fits_iff.mpr hlock⟩
  change (fits c 0 10 && fits c 1 10 && fits c 2 2 && fits c 3 1) = true
  rw [hbits.1, hbits.2.1, hbits.2.2.1, hbits.2.2.2]
  rfl

theorem tamperSet_runs : Runs .tamperSet 0x0A10 4
    (fun c u => pn c 0 < 1024 ∧ pn c 1 < 1024 ∧ pn c 2 < 4 ∧ pn c 3 < 2 ∧ u.vault.tamper.lock = false) (fun _ _ => [])
    (fun c u => { u with vault := { u.vault with tamper :=
      { enable := (pw c 0).setWidth 10, action := (pw c 1).setWidth 10, closed := (pw c 2).setWidth 2, lock := bit (pw c 3) 0 } } }) :=
  runs_row tamperSetSpec (fun _ _ ⟨he, ha, hc, hl, _⟩ => tamperSet_valid he ha hc hl) (fun _ _ _ => rfl)
    (hr := fun _ _ ⟨_, _, _, _, hopen⟩ => congrArg not hopen)

theorem tamperSet_locked : Ends .tamperSet 0x0A10 4
    (fun c u => pn c 0 < 1024 ∧ pn c 1 < 1024 ∧ pn c 2 < 4 ∧ pn c 3 < 2 ∧ u.vault.tamper.lock = true) .invalidState :=
  ends_notReady tamperSetSpec (fun _ _ ⟨he, ha, hc, hl, _⟩ => tamperSet_valid he ha hc hl)
    (fun _ _ ⟨_, _, _, _, hlocked⟩ => congrArg not hlocked)

theorem tamperClear_runs : Runs .tamperClear 0x0A12 1
    (fun c u => pw c 0 = 0x74616D70 ∧ u.vault.tamper.enable &&& u.vault.tripped = 0) (fun _ _ => [])
    (fun _ u => { u with vault := { u.vault with tampered := false } }) :=
  runs_row tamperClearSpec (fun _ _ ⟨hkey, _⟩ => decide_eq_true hkey) (fun _ _ _ => rfl)
    (hr := fun _ _ ⟨_, hcalm⟩ => decide_eq_true hcalm)

theorem tamperClear_while_tripped : Ends .tamperClear 0x0A12 1
    (fun c u => pw c 0 = 0x74616D70 ∧ u.vault.tamper.enable &&& u.vault.tripped ≠ 0) .invalidState :=
  ends_notReady tamperClearSpec (fun _ _ ⟨hkey, _⟩ => decide_eq_true hkey) (fun _ _ ⟨_, htripped⟩ => decide_eq_false htripped)

theorem tamperClear_of_wrong_word : Ends .tamperClear 0x0A12 1 (fun c _ => pw c 0 ≠ 0x74616D70) .invalidParameter :=
  ends_check tamperClearSpec (fun _ _ => rfl) rfl (fun _ _ _ => rfl) (by rintro _ ⟨⟩)
    (fun _ _ hkey => .inl ⟨Bool.and_eq_false_imp.mpr fun h => absurd (of_decide_eq_true h) hkey, rfl⟩)

/-- Settles O48: one lemma per row with conditions of its own, the reading rows as their table gives them. -/
theorem vaultCommandsRun : Obligations.VaultCommandsRun :=
  ⟨runs_row vaultStatusSpec (fun _ _ _ => rfl) (fun _ _ _ => rfl), slotGenerate_runs,
    ends_notPermitted slotGenerateSpec (fun _ _ ⟨hslot, htype, _⟩ => slotGenerate_valid hslot htype)
      (fun _ _ ⟨_, _, hused⟩ => newSlotCheck_of_used hused),
    ends_notPermitted slotGenerateSpec (fun _ _ ⟨hslot, htype, _⟩ => slotGenerate_valid hslot htype)
      (fun _ _ ⟨_, _, hempty, hlatch⟩ => newSlotCheck_of_latched hempty hlatch),
    slotGenerate_without_root, slotImport_runs, slotImport_without_transport_key, slotImport_of_bad_wrap, slotRetire_runs,
    slotRetire_of_used, runs_row slotInfoSpec (fun _ _ hslot => within_slot hslot) (fun _ _ _ => rfl), attest_runs,
    attest_without_brand, statement_layout, runs_row brandCertReadSpec (fun _ _ _ => rfl) (fun _ _ _ => rfl), zoneNextSet_binds,
    zoneNextSet_unbinds, zoneNextSet_in_minority, runs_row maskSetSpec (fun _ _ hperiod => within_iff.mpr hperiod) (fun _ _ _ => rfl),
    tamperSet_runs, tamperSet_locked, runs_row tamperStatusSpec (fun _ _ _ => rfl) (fun _ _ _ => rfl), tamperClear_runs,
    tamperClear_while_tripped, tamperClear_of_wrong_word,
    runs_row vaultZeroiseSpec (fun _ _ hkey => decide_eq_true hkey) (fun _ _ _ => rfl)⟩

end Sys2Proof.Proofs
end

section
/-! Settles Obligations.TamperActs: re-masking, and what a tamper input does. -/

namespace Sys2Proof.Proofs

open Sys2Proof.Machine Sys2Proof.Laws Sys2Proof.Safety

-- Proofs one after another: the threads of many at once would pass the memory that the check allows.
set_option Elab.async false

/-! ### Re-masking (R428) -/

theorem vaultSlot_setSlot (k j : Nat) (v : Slot) (s : State) : vaultSlot (setSlot k v s) j = if j = k then v else vaultSlot s j :=
  tabGet_tabSet _ _ _ _ _

/-- From s to t only masks of slots have changed, and n draws been made. -/
def Remasked (n : Nat) (s t : State) : Prop :=
  (∀ k, ∃ m, vaultSlot t k = { vaultSlot s k with mask := m })
    ∧ t = { s with vault := { s.vault with slots := t.vault.slots }, free := s.free + n }

theorem remasked_remaskSlot (s : State) (k : Nat) : Remasked 1 s (remaskSlot s k) := by
  refine ⟨fun j => ?_, rfl⟩
  have hslot : vaultSlot (remaskSlot s k) j = if j = k then { vaultSlot s k with mask := (drawRandom s).1 } else vaultSlot s j :=
    vaultSlot_setSlot k j _ _
  rw [hslot]
  split
  · next hj => exact ⟨_, by rw [hj]⟩
  · exact ⟨(vaultSlot s j).mask, rfl⟩

theorem Remasked.trans {n m : Nat} {s t u : State} (h : Remasked n s t) (h' : Remasked m t u) : Remasked (n + m) s u := by
  refine ⟨fun k => ?_, ?_⟩
  · obtain ⟨a, ha⟩ := h.1 k
    obtain ⟨b, hb⟩ := h'.1 k
    exact ⟨b, by rw [hb, ha]⟩
  · have hu := h'.2
    rw [h.2] at hu
    rw [hu, Nat.add_assoc]

theorem remasked_foldl (l : List Nat) (s : State) : Remasked l.length s (l.foldl remaskSlot s) := by
  induction l generalizing s with
  | nil => exact ⟨fun k => ⟨(vaultSlot s k).mask, rfl⟩, rfl⟩
  | cons k r ih =>
    rw [List.length_cons, Nat.add_comm]
    exact (remasked_remaskSlot s k).trans (ih _)

theorem vaultRemask_of_early (s : State) (h : periodDue .remask (1000000000 * s.cfg.maskPeriod) s = false) :
    exec .vaultRemask s = .next s :=
  congrArg Host.Outcome.next (if_neg (by rw [h]; exact Bool.false_ne_true))

theorem vaultRemask_of_due (s : State) (h : periodDue .remask (1000000000 * s.cfg.maskPeriod) s = true) :
    ∃ t, exec .vaultRemask s = .next t ∧ t.free = s.free + 64
      ∧ (∀ k : Fin 64, ∃ m, vaultSlot t k = { vaultSlot s k with mask := m })
      ∧ t = { ranNow .remask s with vault := { s.vault with slots := t.vault.slots }, free := t.free } := by
  obtain ⟨hslots, hrest⟩ := remasked_foldl (List.range 64) (ranNow .remask s)
  rw [List.length_range] at hrest
  have hfree : ((List.range 64).foldl remaskSlot (ranNow .remask s)).free = s.free + 64 := congrArg State.free hrest
  refine ⟨_, congrArg Host.Outcome.next (if_pos h), hfree, fun k => hslots k, ?_⟩
  rw [hfree]
  exact hrest

/-! ### Zeroisation (R433, R434) -/

theorem keeps_endVaultCommands {α : Type} (P : State → α)
    (hP : ∀ s a b c d e, P { s with trb := a, que := b, out := c, tan := d, cmd := e } = P s) (s : State) :
    P (endVaultCommands s) = P s := by
  have hcmd : ∀ t v, P { t with cmd := v } = P t := fun t v => hP t t.trb t.que t.out t.tan v
  have hcomplete : ∀ q tag st r t, P (complete q tag st r t) = P t := fun q tag st r t => by
    unfold complete
    split
    · next e _ =>
      obtain ⟨hother, -⟩ := sendReply_replied { e with replyDrop := e.replyDrop || (nonHolder t && !runsWithoutReins e.opcode) } st r
        (dropInFlight q tag t)
      rw [hother, hP]
      exact hcmd _ _
    · rfl
  unfold endVaultCommands completeAll
  exact (keeps_foldl P (fun t e => hcomplete _ _ _ _ t) _ _).trans (hcmd _ _)

/-- What retiring the vault touches: the soundness, the tandem and what is reported. -/
theorem keeps_retireVault {α : Type} (P : State → α)
    (hP : ∀ s l p b c d e f, P { s with
      dev := { s.dev with soundness := l, soundPin := p }, tan := b, free := c, trb := d, que := e, out := f } = P s) (s : State) :
    P (retireVault s) = P s := by
  have hsound : ∀ t, P (setSound t) = P t := fun t => hP t t.dev.soundness _ t.tan t.free t.trb t.que t.out
  have htan : ∀ t v, P { t with tan := v } = P t := fun t v => hP t t.dev.soundness t.dev.soundPin v t.free t.trb t.que t.out
  have hset : ∀ v, P (failOver (setSound (setSoundness 12 v s))) = P s := fun v =>
    (keeps_failOver P hP _).trans ((hsound _).trans (keeps_setSoundness P hP 12 v s))
  unfold retireVault
  exact keeps_ite rfl (keeps_ite ((htan _ _).trans (hset _)) (hset _))

theorem soundness_failOver (n : Nat) (s : State) : soundness (failOver s) n = soundness s n := by
  unfold failOver releaseReins
  refine (keeps_raise _ _ (soundness · n)).trans ?_
  exact keeps_ite (P := (soundness · n)) rfl rfl

theorem soundness_setSoundness (n : Nat) (v : Soundness) (s : State) : soundness (setSoundness n v s) n = v := by
  have hset : soundness { s with dev := { s.dev with soundness := tabSet s.dev.soundness n v } } n = v :=
    (tabGet_tabSet _ _ _ _ _).trans (if_pos rfl)
  exact keeps_ite (P := (soundness · n)) ((keeps_postEvent _ _ _ _ (soundness · n)).trans hset) hset

/-- The vault is out of service once it has been retired. -/
theorem retireVault_retires (s : State) : (soundness (retireVault s) 12).state = 2 := by
  unfold retireVault
  by_cases h : (soundness s 12).state = 2
  · rw [if_pos h]
    exact h
  · rw [if_neg h]
    have hout : ∀ v : Soundness, v.state = 2 → (soundness (failOver (setSound (setSoundness 12 v s))) 12).state = 2 :=
      fun v hv => by
        rw [soundness_failOver]
        exact (congrArg Soundness.state (soundness_setSoundness 12 v s)).trans hv
    exact keeps_ite (P := fun t => (soundness t 12).state) (hout _ rfl) (hout _ rfl)

theorem noneCleared_retireVault (s : State) : NoneCleared s (retireVault s) := by
  have hset : ∀ v, NoneCleared s (setSound (setSoundness 12 v s)) := fun v => by
    unfold setSoundness
    dsimp only
    split
    · exact (noneCleared_of_reported (postEvent_reported _ _ _ _)).after_trb rfl
    · exact noneCleared_of_trb rfl
  have hfail : ∀ t, NoneCleared t (failOver t) := fun t => by
    unfold failOver releaseReins
    dsimp only
    split
    · exact (noneCleared_of_reported (raise_reported _ _)).after_trb rfl
    · exact noneCleared_of_reported (raise_reported _ _)
  unfold retireVault
  dsimp only
  split
  · exact fun _ h => h
  · split
    · exact ((hset _).trans (hfail _)).trans (noneCleared_of_trb rfl)
    · exact (hset _).trans (hfail _)

/-- The state right after the zeroise line of an input, before it is reported. -/
def zeroised (i : Nat) (s : State) : State :=
  let s1 := clearVault (endVaultCommands s)
  { s1 with vault := { s1.vault with tampered := true, lastZero := some i } }

theorem zeroiseBy_of_vin (i : Nat) {s : State} (h : s.dev.vin = true) :
    zeroiseBy i s = retireVault (postZeroised i (raise .tamper (zeroised i s))) := if_pos h

theorem vault_zeroiseBy (i : Nat) {s : State} (h : s.dev.vin = true) : (zeroiseBy i s).vault = (zeroised i s).vault := by
  rw [zeroiseBy_of_vin i h, keeps_retireVault State.vault (fun _ _ _ _ _ _ _ _ => rfl)]
  exact (keeps_postEvent _ _ _ _ State.vault).trans (keeps_raise _ _ State.vault)

theorem link_zeroiseBy (i : Nat) {s : State} (h : s.dev.vin = true) : (zeroiseBy i s).link = (zeroised i s).link := by
  rw [zeroiseBy_of_vin i h, keeps_retireVault State.link (fun _ _ _ _ _ _ _ _ => rfl)]
  exact (keeps_postEvent _ _ _ _ State.link).trans (keeps_raise _ _ State.link)

theorem trouble_zeroiseBy (i : Nat) {s : State} (h : s.dev.vin = true) : trouble (zeroiseBy i s) .tamper = true := by
  rw [zeroiseBy_of_vin i h]
  refine noneCleared_retireVault _ .tamper (trouble_postEvent ?_)
  exact trouble_raise .tamper (zeroised i s)

/-! ### Tamper inputs (R432) -/

/-- An input tripped, before anything follows from it. -/
def tripNoted (i : Nat) (s : State) : State := { s with vault := { s.vault with tripped := setBit s.vault.tripped i true } }

theorem tamperTrip_eq (i : Fin 10) (s : State) (hbattery : i.val ≠ 9) : exec (.tamperTrip i) s =
    if !bit s.vault.tamper.enable i.val then .next (tripNoted i.val s)
    else if bit s.vault.tamper.action i.val then .next (zeroiseBy i.val (tripNoted i.val s))
    else .next (reportTamper i.val (tripNoted i.val s)) :=
  if_neg (by simp [hbattery])

theorem tamperTrip_zeroises (i : Fin 10) (s : State) (hbattery : i.val ≠ 9) (henable : bit s.vault.tamper.enable i.val = true)
    (haction : bit s.vault.tamper.action i.val = true) (hvin : s.dev.vin = true) :
    ∃ t, exec (.tamperTrip i) s = .next t ∧ t.vault.slots = [] ∧ t.vault.next = [] ∧ t.link.keys = []
      ∧ t.vault.tampered = true ∧ t.vault.count = min (s.vault.count + 1) 0xFFFFFFFF ∧ t.vault.lastZero = some i.val
      ∧ t.vault.tamper.lock = false ∧ trouble t .tamper = true ∧ (soundness t 12).state = 2 := by
  have hpowered : (tripNoted i.val s).dev.vin = true := hvin
  have hkept : (endVaultCommands (tripNoted i.val s)).vault = (tripNoted i.val s).vault :=
    keeps_endVaultCommands State.vault (fun _ _ _ _ _ _ => rfl) _
  refine ⟨zeroiseBy i.val (tripNoted i.val s), ?_, ?_⟩
  · rw [tamperTrip_eq i s hbattery, henable, if_neg (by decide), if_pos haction]
  · have hcount : (zeroised i.val (tripNoted i.val s)).vault.count = min (s.vault.count + 1) 0xFFFFFFFF := by
      change min ((endVaultCommands (tripNoted i.val s)).vault.count + 1) 0xFFFFFFFF = _
      rw [hkept]
      rfl
    rw [vault_zeroiseBy i.val hpowered, link_zeroiseBy i.val hpowered]
    refine ⟨rfl, rfl, rfl, rfl, hcount, rfl, rfl, trouble_zeroiseBy i.val hpowered, ?_⟩
    rw [zeroiseBy_of_vin i.val hpowered]
    exact retireVault_retires _

theorem tamperTrip_reports (i : Fin 10) (s : State) (hbattery : i.val ≠ 9) (henable : bit s.vault.tamper.enable i.val = true)
    (haction : bit s.vault.tamper.action i.val = false) (hvin : s.dev.vin = true) :
    ∃ t, exec (.tamperTrip i) s = .next t ∧ t.vault.slots = s.vault.slots ∧ t.link = s.link
      ∧ t.vault.reports = s.vault.reports + 1 ∧ t.vault.tampered = s.vault.tampered ∧ trouble t .tamperSensor = true := by
  have hkept : ∀ {α : Type} (P : State → α) (hP : ∀ s a b c, P { s with trb := a, que := b, out := c } = P s) (u : State),
      P (postEvent 0x0A01 i.val 0#32 (raise .tamperSensor u)) = P u := fun P hP u =>
    (keeps_postEvent _ _ _ _ P hP).trans (keeps_raise _ _ P hP)
  refine ⟨reportTamper i.val (tripNoted i.val s), ?_, ?_⟩
  · rw [tamperTrip_eq i s hbattery, henable, if_neg (by decide), if_neg (by rw [haction]; decide)]
  · rw [reportTamper, if_pos (show (tripNoted i.val s).dev.vin = true from hvin)]
    exact ⟨hkept (fun t => t.vault.slots) (fun _ _ _ _ => rfl) _, hkept State.link (fun _ _ _ _ => rfl) _,
      hkept (fun t => t.vault.reports) (fun _ _ _ _ => rfl) _, hkept (fun t => t.vault.tampered) (fun _ _ _ _ => rfl) _,
      trouble_postEvent (trouble_raise _ _)⟩

theorem tamperTrip_of_disabled (i : Fin 10) (s : State) (hbattery : i.val ≠ 9) (hoff : bit s.vault.tamper.enable i.val = false) :
    exec (.tamperTrip i) s = .next { s with vault := { s.vault with tripped := setBit s.vault.tripped i true } } := by
  rw [tamperTrip_eq i s hbattery, hoff]
  rfl

/-- Settles O49: the zeroise line field by field, a tamper input by its settings, and a re-mask slot by slot. -/
theorem tamperActs : Obligations.TamperActs :=
  ⟨fun _ => rfl, tamperTrip_zeroises, tamperTrip_reports, tamperTrip_of_disabled, fun _ hvin => if_pos (by rw [hvin]; rfl),
    fun _ _ => rfl, vaultRemask_of_early, vaultRemask_of_due⟩

end Sys2Proof.Proofs
end

section
/-! Settles Obligations.PowerCommandsRun: modes, GRAZE and STALL settings, and the power unit's readings. -/

namespace Sys2Proof.Proofs

open Sys2Proof.Machine Sys2Proof.Laws Sys2Proof.Safety

-- Proofs one after another: the threads of many at once would pass the memory that the check allows.
set_option Elab.async false

/-! ### MODE_SET (R448, R449) -/

theorem modeSet_valid {c : Packet} (hmode : pn c 0 = 0 ∨ pn c 0 = 3 ∨ pn c 0 = 4) (hforce : pn c 1 < 2) :
    modeSetSpec.valid c = true := by
  have hbit : fits c 1 1 = true := fits_iff.mpr hforce
  have hnamed : (decide (pn c 0 = 0) || decide (pn c 0 = 3) || decide (pn c 0 = 4)) = true := by simpa [or_assoc] using hmode
  change ((decide (pn c 0 = 0) || decide (pn c 0 = 3) || decide (pn c 0 = 4)) && fits c 1 1) = true
  rw [hnamed, hbit]
  rfl

theorem running_iff {u : State} : Machine.running u = true ↔ u.dev.mode = .gallop ∨ u.dev.mode = .trot := by
  simp [Machine.running]

theorem grazeAllowed_iff {u : State} : grazeAllowed u = true ↔
    (∃ p, p < 4 ∧ (plainCfg u p).enabled = true ∧ senseLoad (senseSet u p) ≠ 0) ∧ u.rx.drains = [] := by
  simp [grazeAllowed, senses, drainsAny]

theorem modeSet_ready_wake {c : Packet} {u : State} (h0 : pn c 0 = 0) :
    modeSetSpec.ready c u = decide (u.dev.mode = .graze) := if_pos h0

theorem modeSet_ready_graze {c : Packet} {u : State} (h3 : pn c 0 = 3) :
    modeSetSpec.ready c u = (Machine.running u && grazeAllowed u) :=
  (if_neg (by omega)).trans (if_pos h3)

theorem modeSet_ready_stall {c : Packet} {u : State} (h4 : pn c 0 = 4) :
    modeSetSpec.ready c u = ((Machine.running u || decide (u.dev.mode = .graze)) && !u.tan.joined && !drainsAny u) :=
  (if_neg (by omega)).trans (if_neg (by omega))

theorem modeSet_wakes : Runs .modeSet 0x0100 2 (fun c u => pn c 0 = 0 ∧ pn c 1 < 2 ∧ u.dev.mode = .graze) (fun _ _ => [0#32])
    (fun _ u => wakeGraze 0xFFFF 2 u) :=
  runs_row modeSetSpec (fun _ _ ⟨h0, hforce, _⟩ => modeSet_valid (.inl h0) hforce) (fun _ _ ⟨h0, _⟩ => if_pos h0)
    (hr := fun _ _ ⟨h0, _, hgraze⟩ => (modeSet_ready_wake h0).trans (decide_eq_true hgraze))

theorem modeSet_enters_graze : RunsOn .modeSet 0x0100 2
    (fun c u => pn c 0 = 3 ∧ pn c 1 < 2 ∧ (u.dev.mode = .gallop ∨ u.dev.mode = .trot) ∧ u.rx.drains = []
      ∧ ∃ p, p < 4 ∧ (plainCfg u p).enabled = true ∧ senseLoad (senseSet u p) ≠ 0)
    (fun c u => beginEntry .graze c.queue.val c.tag (bit (pw c 1) 0) u) :=
  runsOn_row modeSetSpec (fun _ _ ⟨h3, hforce, _⟩ => modeSet_valid (.inr (.inl h3)) hforce)
    (fun c u ⟨h3, _⟩ => by
      have hasked : modeAsked c = .graze := if_pos h3
      refine (if_neg (by omega)).trans ?_
      rw [hasked])
    (hr := fun _ _ ⟨h3, _, hruns, hdrains, hsense⟩ => by
      rw [modeSet_ready_graze h3, running_iff.mpr hruns, grazeAllowed_iff.mpr ⟨hsense, hdrains⟩]
      rfl)

theorem modeSet_enters_stall : RunsOn .modeSet 0x0100 2
    (fun c u => pn c 0 = 4 ∧ pn c 1 < 2 ∧ ((u.dev.mode = .gallop ∨ u.dev.mode = .trot) ∨ u.dev.mode = .graze)
      ∧ u.tan.joined = false ∧ u.rx.drains = [])
    (fun c u => beginEntry .stall c.queue.val c.tag (bit (pw c 1) 0) u) :=
  runsOn_row modeSetSpec (fun _ _ ⟨h4, hforce, _⟩ => modeSet_valid (.inr (.inr h4)) hforce)
    (fun c u ⟨h4, _⟩ => by
      have hasked : modeAsked c = .stall := if_neg (by omega)
      refine (if_neg (by omega)).trans ?_
      rw [hasked])
    (hr := fun _ u ⟨h4, _, hruns, halone, hdrains⟩ => by
      have hmode : (Machine.running u || decide (u.dev.mode = .graze)) = true :=
        Bool.or_eq_true_iff.mpr (hruns.imp running_iff.mpr decide_eq_true)
      rw [modeSet_ready_stall h4, hmode, halone, drainsAny, hdrains]
      rfl)

theorem modeSet_wakes_nothing : Ends .modeSet 0x0100 2 (fun c u => pn c 0 = 0 ∧ pn c 1 < 2 ∧ u.dev.mode ≠ .graze) .invalidState :=
  ends_notReady modeSetSpec (fun _ _ ⟨h0, hforce, _⟩ => modeSet_valid (.inl h0) hforce)
    (fun _ _ ⟨h0, _, hmode⟩ => (modeSet_ready_wake h0).trans (decide_eq_false hmode))

theorem modeSet_stall_in_tandem : Ends .modeSet 0x0100 2 (fun c u => pn c 0 = 4 ∧ pn c 1 < 2 ∧ u.tan.joined = true) .invalidState :=
  ends_notReady modeSetSpec (fun _ _ ⟨h4, hforce, _⟩ => modeSet_valid (.inr (.inr h4)) hforce)
    (fun _ _ ⟨h4, _, hjoined⟩ => by
      rw [modeSet_ready_stall h4, hjoined]
      simp)

theorem wakeWord_of_woken {u : State} {k : Nat} (h : u.pwr.lastWake = some k) : wakeWord u = (w32 k, u) := by
  simp only [wakeWord, h]

/-! ### GRAZE and STALL settings (R454, R455, R457, R459) -/

theorem windowFits_iff {v : BitVec 64 × BitVec 4 × BitVec 8} {n : Nat} :
    windowFits v n = true ↔ senseWindow v + 500000 < 1000000 * n := decide_eq_true_iff

theorem grazeSet_here_iff {c : Packet} {u : State} :
    grazeSetSpec.here c u = true ↔ ∀ p, p < 4 → senseWindow (senseSet u p) + 500000 < 1000000 * pn c 0 := by
  simp [grazeSetSpec, windowFits]

theorem grazeSet_runs : Runs .grazeSet 0x0102 4
    (fun c u => 8 ≤ pn c 0 ∧ pn c 0 ≤ 1024 ∧ 40 ≤ pn c 1 ∧ pn c 1 ≤ 200 ∧ pn c 2 < 2 ∧ 1 ≤ pn c 3 ∧ pn c 3 ≤ 3600
      ∧ ∀ p, p < 4 → senseWindow (senseSet u p) + 500000 < 1000000 * pn c 0) (fun _ _ => [])
    (fun c u => { u with cfg := { u.cfg with pwr := { u.cfg.pwr with
      wakePeriod := pn c 0, senseThresh := pn c 1, grazeAuto := bit (pw c 2) 0, grazeIdle := pn c 3 } } }) :=
  runs_row grazeSetSpec
    (fun c _ ⟨hlo, hhi, hlo', hhi', hauto, hidle, hidle', _⟩ => by
      have hbit : fits c 2 1 = true := fits_iff.mpr hauto
      change (within c 0 8 1024 && within c 1 40 200 && fits c 2 1 && within c 3 1 3600) = true
      rw [within_iff.mpr ⟨hlo, hhi⟩, within_iff.mpr ⟨hlo', hhi'⟩, hbit, within_iff.mpr ⟨hidle, hidle'⟩]
      rfl)
    (fun _ _ _ => rfl) (hh := fun _ _ ⟨_, _, _, _, _, _, _, hwindows⟩ => grazeSet_here_iff.mpr hwindows)

theorem grazeSet_of_short_period : Ends .grazeSet 0x0102 4
    (fun c u => 8 ≤ pn c 0 ∧ ∃ p, p < 4 ∧ 1000000 * pn c 0 ≤ senseWindow (senseSet u p) + 500000) .invalidParameter :=
  ends_check grazeSetSpec (fun _ _ => rfl) rfl (fun _ _ _ => rfl) (by rintro _ ⟨⟩)
    (fun c u ⟨_, p, hp, hshort⟩ => .inl ⟨by
      have hout : grazeSetSpec.here c u = false :=
        Bool.eq_false_of_not_eq_true fun h => absurd (grazeSet_here_iff.mp h p hp) (by omega)
      rw [hout, Bool.and_false], rfl⟩)

/-- The sense set that GRAZE_SENSE_SET gives. -/
def askedSense (c : Packet) : BitVec 64 × BitVec 4 × BitVec 8 := (pw c 2 ++ pw c 1, (pw c 3).setWidth 4, (pw c 3 >>> 8).setWidth 8)

theorem senseOf_eq (c : Packet) : senseOf c = askedSense c := by
  rw [senseOf, askedSense, wide_eq_append]

theorem grazeSenseSet_valid_eq (c : Packet) : grazeSenseSetSpec.valid c =
    (within c 0 0 3 && only c 3 0xFF0F && decide (senseLoad (askedSense c) ≤ 1088)) := by
  rw [← senseOf_eq]
  rfl

theorem grazeSenseSet_runs : Runs .grazeSenseSet 0x0103 4
    (fun c u => pn c 0 ≤ 3 ∧ pw c 3 &&& 0xFFFF00F0 = 0 ∧ senseLoad (askedSense c) ≤ 1088
      ∧ senseWindow (askedSense c) + 500000 < 1000000 * u.cfg.pwr.wakePeriod)
    (fun c _ => [w32 (senseLoad (askedSense c))])
    (fun c u => { u with cfg := { u.cfg with pwr := { u.cfg.pwr with sense := tabSet u.cfg.pwr.sense (pn c 0) (askedSense c) } } }) :=
  runs_row grazeSenseSetSpec
    (fun c _ ⟨hplain, hbits, hload, _⟩ => by
      have hreserved : only c 3 0xFF0F = true := only_iff.mpr hbits
      rw [grazeSenseSet_valid_eq, within_plain hplain, hreserved, decide_eq_true hload]
      rfl)
    (fun c u _ => by
      rw [← senseOf_eq]
      rfl)
    (hh := fun c u ⟨_, _, _, hwindow⟩ => by
      change windowFits (senseOf c) u.cfg.pwr.wakePeriod = true
      rw [senseOf_eq]
      exact windowFits_iff.mpr hwindow)

theorem grazeSenseSet_of_heavy_set : Ends .grazeSenseSet 0x0103 4
    (fun c _ => pn c 0 ≤ 3 ∧ 1088 < senseLoad (askedSense c)) .invalidParameter :=
  ends_check grazeSenseSetSpec (fun _ _ => rfl) rfl (fun _ _ _ => rfl) (by rintro _ ⟨⟩)
    (fun c u ⟨_, hheavy⟩ => .inl ⟨by
      rw [grazeSenseSet_valid_eq, decide_eq_false (Nat.not_le.mpr hheavy), Bool.and_false, Bool.false_and], rfl⟩)

theorem powerCountersRead_runs : Runs .powerCountersRead 0x0106 1 (fun c _ => pn c 0 < 2)
    (fun _ u => (u.pwr.counters ++ [u.vault.pfStarts]).map w32)
    (fun c u => if pn c 0 = 1 then { u with pwr := { u.pwr with counters := List.replicate 5 0 } } else u) :=
  runs_row powerCountersReadSpec (fun _ _ hflag => fits_iff.mpr hflag)
    (fun c u hflag => by
      simp only [powerCountersReadSpec, plainSpec, bit_zero_eq (show pn c 0 < 2 from hflag), decide_eq_true_eq]
      rfl)

/-- Settles O50: one lemma per row with conditions of its own, the reading rows as their table gives them. -/
theorem powerCommandsRun : Obligations.PowerCommandsRun :=
  ⟨modeSet_wakes, modeSet_enters_graze, modeSet_enters_stall, modeSet_wakes_nothing, modeSet_stall_in_tandem,
    runs_row modeStatusSpec (fun _ _ _ => rfl) (fun _ _ _ => rfl), fun _ _ => wakeWord_of_woken, grazeSet_runs,
    grazeSet_of_short_period, grazeSenseSet_runs, grazeSenseSet_of_heavy_set,
    runs_row stallSetSpec (fun _ _ hwake => within_iff.mpr ⟨Nat.zero_le _, hwake⟩) (fun _ _ _ => rfl),
    runs_row powerStatusSpec (fun _ _ _ => rfl) (fun _ _ _ => rfl), powerCountersRead_runs⟩

end Sys2Proof.Proofs
end

section
/-! Power domains (R450-R452): what a domain reads after a change of it or of others, and when a domain gates. -/

namespace Sys2Proof.Proofs

open Sys2Proof.Machine Sys2Proof.Laws Sys2Proof.Safety

-- Proofs one after another: the threads of many at once would pass the memory that the check allows.
set_option Elab.async false

/-! ### Reading a domain -/

theorem pdom_setPdom (d k : Nat) (v : Domain) (s : State) : pdom (setPdom d v s) k = if k = d then v else pdom s k :=
  tabGet_tabSet _ _ _ _ _

theorem pdom_setPdom_same (d : Nat) (v : Domain) (s : State) : pdom (setPdom d v s) d = v := (pdom_setPdom d d v s).trans (if_pos rfl)

theorem pdom_setDomains (l : List Nat) (on : Bool) (k : Nat) (s : State) : pdom (setDomains l on s) k =
    if k ∈ l then { pdom s k with state := if on then 2 else 0, fault := false } else pdom s k := by
  induction l generalizing s with
  | nil => rfl
  | cons d r ih =>
    have hstep : setDomains (d :: r) on s = setDomains r on (setPdom d { pdom s d with state := if on then 2 else 0, fault := false } s) := rfl
    rw [hstep, ih, pdom_setPdom]
    by_cases hd : k = d
    · subst hd
      simp
    · simp [hd]

theorem setDomains_eq (l : List Nat) (on : Bool) (s : State) :
    setDomains l on s = { s with pwr := { s.pwr with domains := (setDomains l on s).pwr.domains } } := by
  induction l generalizing s with
  | nil => rfl
  | cons d r ih => exact ih (setPdom d { pdom s d with state := if on then 2 else 0, fault := false } s)

theorem dev_changeMode (m : Mode) (s : State) : (changeMode m s).dev = { s.dev with mode := m } :=
  keeps_ite (P := State.dev) rfl (keeps_postEvent _ _ _ _ State.dev)

theorem keeps_changeMode {α : Type} (P : State → α) (hP : ∀ s a b c d, P { s with dev := a, trb := b, que := c, out := d } = P s)
    (m : Mode) (s : State) : P (changeMode m s) = P s := by
  have hmode : P { s with dev := { s.dev with mode := m } } = P s := hP s _ s.trb s.que s.out
  have hreport : ∀ s a b c, P { s with trb := a, que := b, out := c } = P s := fun s => hP s s.dev
  exact keeps_ite hmode ((keeps_postEvent _ _ _ _ P hreport).trans hmode)

/-! ### Votes and idle timers (R450, R451) -/

theorem pdVoteWrite_of_alone (d : Fin 47) (v : Word) (s : State) (h : s.tan.joined = false) :
    exec (.pdVoteWrite d v) s = .next (setPdom d { pdom s d with host := v.setWidth 8 } s) := by
  change execPdVoteWrite d v s = _
  rw [execPdVoteWrite, writeVote, nonHolder_of_alone h, mirrorOut_of_alone h]
  rfl

theorem pdVoteWrite_of_nonHolder (d : Fin 47) (v : Word) (s : State) (h : nonHolder s = true) :
    exec (.pdVoteWrite d v) s = .next s := congrArg Host.Outcome.next (if_pos h)

theorem voted_iff (s : State) (d : Nat) : voted s d = true ↔ (pdom s d).host ≠ 0 ∨ (pdom s d).sense = true ∨ ownerVote s d = true := by
  simp [voted, or_assoc]

/-- A domain that is on without a vote gates at once, or under POLICY 1 once its idle time has passed. -/
theorem gateDue_iff (d : Nat) (s : State) (hon : (pdom s d).state = 2) (hfree : voted s d = false) :
    gateDue s d = true ↔ bit (pdom s d).policy 0 = false
      ∨ ∃ t, (pdom s d).idle = some t ∧ reached s (t + BitVec.ofNat 64 (1000000 * bits (pdom s d).policy 16 1)) = true := by
  unfold gateDue
  cases hidle : (pdom s d).idle with
  | none => simp [hon, hfree, hidle]
  | some t => simp [hon, hfree, hidle]

theorem gateDue_of_voted {s : State} {d : Nat} (h : voted s d = true) : gateDue s d = false := by
  simp [gateDue, h]

theorem noteVote_starts (d : Nat) (s : State) (hon : (pdom s d).state = 2) (hfree : voted s d = false) (hidle : (pdom s d).idle = none) :
    (pdom (noteVote d s) d).idle = some (now s) := by
  have hsince : (decide ((pdom s d).state = 2) && !voted s d) = true := by rw [hon, hfree]; rfl
  unfold noteVote
  simp only [hsince, if_true, hidle, Option.getD_none, reduceCtorEq, if_false, pdom_setPdom_same]

theorem noteVote_cancels (d : Nat) (s : State) (h : voted s d = true) : (pdom (noteVote d s) d).idle = none := by
  have hsince : (decide ((pdom s d).state = 2) && !voted s d) = false := by rw [h, Bool.not_true, Bool.and_false]
  unfold noteVote
  simp only [hsince, Bool.false_eq_true, if_false]
  split
  · next hnone => exact hnone.symm
  · rw [pdom_setPdom_same]

/-! ### Gates and ungates (R451, R452) -/

theorem domainFailed_marks (d detail : Nat) (s : State) : (pdom (domainFailed d detail s) d).state = (pdom s d).state
    ∧ (pdom (domainFailed d detail s) d).fault = true ∧ trouble (domainFailed d detail s) .domainFault = true := by
  have hdomain : pdom (domainFailed d detail s) d = { pdom s d with fault := true } :=
    (keeps_postEvent _ _ _ _ (pdom · d)).trans ((keeps_raise _ _ (pdom · d)).trans (pdom_setPdom_same d _ s))
  exact ⟨(congrArg Domain.state hdomain).trans rfl, congrArg Domain.fault hdomain, trouble_postEvent (trouble_raise _ _)⟩

theorem domainIdleGate_of_due (d : Fin 47) (ok : Bool) {s : State} (h : gateDue s d = true) : exec (.domainIdleGate d ok) s =
    .next (if ok then setPdom d { pdom s d with state := 0, fault := false } s else domainFailed d 0 s) :=
  congrArg Host.Outcome.next (if_neg (by rw [h]; exact Bool.false_ne_true))

theorem domainIdleGate_gates (d : Fin 47) (s : State) (hon : (pdom s d).state = 2) (hdue : gateDue s d = true) :
    exec (.domainIdleGate d true) s = .next (setPdom d { pdom s d with state := 0, fault := false } s)
      ∧ ∃ t, exec (.domainIdleGate d false) s = .next t ∧ (pdom t d).state = 2 ∧ (pdom t d).fault = true ∧ trouble t .domainFault = true := by
  obtain ⟨hstate, hfault, htrouble⟩ := domainFailed_marks d 0 s
  exact ⟨domainIdleGate_of_due d true hdue, _, domainIdleGate_of_due d false hdue, hstate.trans hon, hfault, htrouble⟩

theorem domainIdleGate_of_not_due (d : Fin 47) (ok : Bool) (s : State) (h : gateDue s d = false) :
    exec (.domainIdleGate d ok) s = .next s := congrArg Host.Outcome.next (if_pos (by rw [h]; rfl))

theorem domainUngate_of_voted (d : Fin 47) (n : Nat) (s : State) (hoff : (pdom s d).state = 0) (hvoted : voted s d = true) :
    if n < 3 then exec (.domainUngate d n) s = .next (setPdom d { pdom s d with state := 2, fault := false } s)
    else ∃ t, exec (.domainUngate d n) s = .next t ∧ (pdom t d).state = 0 ∧ (pdom t d).fault = true ∧ trouble t .domainFault = true := by
  have hexec : exec (.domainUngate d n) s = .next (if n < 3 then setPdom d { pdom s d with state := 2, fault := false } s
      else domainFailed d 1 s) := congrArg Host.Outcome.next (if_neg (by rw [hoff, hvoted]; decide))
  split
  · next hn => rw [hexec, if_pos hn]
  · next hn =>
    obtain ⟨hstate, hfault, htrouble⟩ := domainFailed_marks d 1 s
    exact ⟨_, by rw [hexec, if_neg hn], hstate.trans hoff, hfault, htrouble⟩

end Sys2Proof.Proofs
end

section
/-! Settles Obligations.PowerEventsAct: GRAZE and STALL entered and left. -/

namespace Sys2Proof.Proofs

open Sys2Proof.Machine Sys2Proof.Laws Sys2Proof.Safety

-- Proofs one after another: the threads of many at once would pass the memory that the check allows.
set_option Elab.async false

/-! ### What a link that leaves service keeps -/

section Links

variable {α : Type} (P : State → α)
  (hP : ∀ s a b c d e f g h, P { s with herd := a, fwd := b, fw := c, tan := d, cmd := e, trb := f, que := g, out := h } = P s)

include hP

theorem keeps_crossHerd (dst : Nat) (p : PacketIn) (s : State) : P (crossHerd dst p s) = P s := by
  have hreport : ∀ t a b c, P { t with trb := a, que := b, out := c } = P t := fun t => hP t t.herd t.fwd t.fw t.tan t.cmd
  have hfwd : ∀ t v, P { t with fwd := v } = P t := fun t v => hP t t.herd v t.fw t.tan t.cmd t.trb t.que t.out
  have hcover : ∀ k ws t, P (cover k ws t) = P t := fun k ws t => by
    unfold cover
    exact keeps_ite (hP t t.herd t.fwd t.fw _ t.cmd t.trb t.que t.out) rfl
  unfold crossHerd noRoute
  refine keeps_ite ((keeps_raise _ _ P hreport).trans ((hfwd _ _).trans (hfwd s _)))
    (keeps_ite ((keeps_raise _ _ P hreport).trans (hfwd s _)) ?_)
  dsimp only
  rw [originate_eq]
  exact (hP _ (State.herd _) (State.fwd _) (State.fw _) (State.tan _) (State.cmd _) (State.trb _) (State.que _) _).trans
    (hcover _ _ _)

theorem keeps_releaseTo (h : Nat) (s : State) : P (releaseTo h s) = P s := by
  have hherd : ∀ t v, P { t with herd := v } = P t := fun t v => hP t v t.fwd t.fw t.tan t.cmd t.trb t.que t.out
  unfold releaseTo
  exact keeps_ite ((hherd _ _).trans ((keeps_foldl P (fun t p => keeps_crossHerd P hP h p t) _ _).trans (hherd s _))) rfl

theorem keeps_datePresence (s : State) (h : Nat) : P (datePresence s h) = P s := by
  have hherd : ∀ v, P (setPeer s h v) = P s := fun v => hP s _ s.fwd s.fw s.tan s.cmd s.trb s.que s.out
  unfold datePresence
  exact keeps_ite (keeps_ite rfl (hherd _)) (keeps_ite rfl (hherd _))

theorem keeps_tellMembership (s : State) : P (tellMembership s) = P s := by
  refine keeps_foldl P (fun t l => ?_) _ s
  rw [originate_eq]
  exact hP t t.herd t.fwd t.fw t.tan t.cmd t.trb t.que _

theorem keeps_refreshPresence (s : State) : P (refreshPresence s) = P s := by
  have hherd : ∀ t v, P { t with herd := v } = P t := fun t v => hP t v t.fwd t.fw t.tan t.cmd t.trb t.que t.out
  have hreleased : ∀ (l : List Nat) v, P (l.foldl (fun t h => releaseTo h t)
      { (maskList (members s)).foldl datePresence s with herd := v }) = P s := fun l v =>
    (keeps_foldl P (fun t h => keeps_releaseTo P hP h t) l _).trans
      ((hherd _ v).trans (keeps_foldl P (fun t h => keeps_datePresence P hP t h) _ s))
  unfold refreshPresence
  exact keeps_ite (hreleased _ _) ((keeps_tellMembership P hP _).trans ((hherd _ _).trans (hreleased _ _)))

theorem keeps_complete (q : Nat) (tag : BitVec 16) (st : Status) (r : List Word) (s : State) : P (complete q tag st r s) = P s := by
  have hcmd : ∀ t v, P { t with cmd := v } = P t := fun t v => hP t t.herd t.fwd t.fw t.tan v t.trb t.que t.out
  unfold complete
  split
  · next e _ =>
    obtain ⟨hother, -⟩ := sendReply_replied { e with replyDrop := e.replyDrop || (nonHolder s && !runsWithoutReins e.opcode) } st r
      (dropInFlight q tag s)
    rw [hother]
    exact (hP _ (State.herd _) (State.fwd _) (State.fw _) _ _ _ _ _).trans (hcmd s _)
  · rfl

theorem keeps_checkChain (s : State) : P (checkChain s) = P s := by
  have hreport : ∀ t a b c, P { t with trb := a, que := b, out := c } = P t := fun t => hP t t.herd t.fwd t.fw t.tan t.cmd
  have hfw : ∀ t v, P { t with fw := v } = P t := fun t v => hP t t.herd t.fwd v t.tan t.cmd t.trb t.que t.out
  have hbroken : ∀ code source d v, P (postEvent code source d (setFw s v)) = P s := fun code source d v =>
    (keeps_postEvent _ _ _ _ P hreport).trans (hfw s v)
  unfold checkChain
  split
  · refine keeps_ite ?_ rfl
    unfold breakChain
    split
    · split
      · exact (keeps_complete P hP _ _ _ _ _).trans (hbroken _ _ _ _)
      · exact hbroken _ _ _ _
    · rfl
  · rfl

/-- A link that leaves service touches the herd, the forwarding unit, the firmware chain, commands and reports alone. -/
theorem keeps_dropLink (l : Nat) (s : State) : P (dropLink l s) = P s := by
  have hherd : ∀ t v, P { t with herd := v } = P t := fun t v => hP t v t.fwd t.fw t.tan t.cmd t.trb t.que t.out
  unfold dropLink
  exact (keeps_checkChain P hP _).trans ((keeps_refreshPresence P hP _).trans ((hherd _ _).trans (hherd s _)))

end Links

/-! ### GRAZE (R453-R457) -/

theorem modeEntryDrainComplete_finishes {t : Transition} {w : Withdrawal} {s : State} (htrans : s.pwr.trans = some t)
    (hdrain : withdrawalOf s t.queue t.tag = some w) (htracks : w.tracks = []) (hidle : ∀ x ∈ s.radio.txs, txActive x = false) :
    exec .modeEntryDrainComplete s = .next (finishEntry t w.aborted s) := by
  have hentry : entryDrain s = some w := by simp only [entryDrain, htrans, hdrain]
  have hquiet : s.radio.txs.any txActive = false := List.any_eq_false.mpr fun x hx => by simp [hidle x hx]
  change execModeEntryDrainComplete s = _
  simp only [execModeEntryDrainComplete, htrans, hentry, htracks, hquiet, List.isEmpty_nil, Bool.not_false, Bool.and_self, if_true]

theorem enterGraze_gates (s : State) :
    ∃ t, enterGraze s = t ∧ t.dev.mode = .graze ∧ ∀ d, d < 32 → (pdom t d).state = 0 := by
  refine ⟨_, rfl, ?_, fun d hd => ?_⟩
  · rw [enterGraze, dev_changeMode]
  · rw [enterGraze, keeps_changeMode (pdom · d) (fun _ _ _ _ _ => rfl), pdom_setDomains,
      if_pos (show d ∈ grazeGates from List.mem_append_left _ (List.mem_range.mpr hd))]
    rfl

/-- The domains of a plain's sense set after its vote. -/
theorem pdom_voteSense (p : Nat) (v : Bool) (s : State) : pdom (voteSense p v s) (p + 32) = { pdom s (p + 32) with sense := v }
    ∧ pdom (voteSense p v s) p = { pdom s p with sense := v, state := if v then 2 else 0 } := by
  have hfirst : pdom (setPdom p { pdom s p with sense := v, state := if v then 2 else 0 } s) (p + 32) = pdom s (p + 32) :=
    (pdom_setPdom _ _ _ _).trans (if_neg (by omega))
  have hboth : ∀ d, pdom (voteSense p v s) d = pdom (setPdom (p + 32) { pdom s (p + 32) with sense := v }
      (setPdom p { pdom s p with sense := v, state := if v then 2 else 0 } s)) d := fun d => by
    rw [voteSense]
    simp only [hfirst]
    rfl
  rw [hboth, hboth, pdom_setPdom_same, pdom_setPdom, if_neg (by omega), pdom_setPdom_same]
  exact ⟨rfl, rfl⟩

theorem sensing_voteSense (p : Nat) (v : Bool) (s : State) : (voteSense p v s).pwr.sensing = setBit s.pwr.sensing p v := rfl

theorem grazeSenseCycle_of_due (p : Fin 4) (s : State) (hmode : s.dev.mode = .graze) (hplain : (plainCfg s p).enabled = true)
    (hset : senseLoad (senseSet s p) ≠ 0) (hnot : bit s.pwr.sensing p = false) (hfirst : tabFind s.pwr.lastSense p = none) :
    ∃ t, exec (.grazeSenseCycle p) s = .next t ∧ (pdom t p).sense = true ∧ (pdom t p).state = 2 ∧ (pdom t (p + 32)).sense = true
      ∧ bit t.pwr.sensing p = true ∧ t.pwr.senseCycles = s.pwr.senseCycles + 1 := by
  let s1 := countPwr 0 (voteSense p.val true s)
  have hexec : exec (.grazeSenseCycle p) s = .next (setPwr s1 { s1.pwr with
      senseCycles := s1.pwr.senseCycles + 1, lastSense := tabSet s1.pwr.lastSense p.val (now s) }) := by
    change execGrazeSenseCycle p s = _
    unfold execGrazeSenseCycle
    simp only [hfirst, hmode, senses, hplain, bne_iff_ne.mpr hset, sensing, hnot, decide_true, Bool.and_self, Bool.not_false, if_true]
    rfl
  obtain ⟨hfront, hpaddock⟩ := pdom_voteSense p true s
  refine ⟨_, hexec, ?_, ?_, ?_, bit_setBit_self s.pwr.sensing p.isLt, rfl⟩
  · exact congrArg Domain.sense hpaddock
  · exact congrArg Domain.state hpaddock
  · exact congrArg Domain.sense hfront

theorem grazeSenseDecision_wakes (p : Fin 4) (k : Nat) (s : State) (hmode : s.dev.mode = .graze) (hsense : bit s.pwr.sensing p = true)
    (hpeak : s.cfg.pwr.senseThresh ≤ k) : exec (.grazeSenseDecision p k) s = .next (wakeGraze p 0 (countPwr 1 s)) := by
  have hruns : (decide (s.dev.mode = .graze) && sensing s p.val) = true := by rw [decide_eq_true hmode]; exact hsense
  exact congrArg Host.Outcome.next ((if_pos hruns).trans (if_pos hpeak))

theorem grazeSenseDecision_sleeps (p : Fin 4) (k : Nat) (s : State) (hmode : s.dev.mode = .graze) (hsense : bit s.pwr.sensing p = true)
    (hpeak : k < s.cfg.pwr.senseThresh) :
    ∃ t, exec (.grazeSenseDecision p k) s = .next t ∧ t.dev.mode = .graze ∧ (pdom t p).sense = false ∧ (pdom t p).state = 0
      ∧ bit t.pwr.sensing p = false ∧ t.que = s.que := by
  have hruns : (decide (s.dev.mode = .graze) && sensing s p.val) = true := by rw [decide_eq_true hmode]; exact hsense
  obtain ⟨-, hpaddock⟩ := pdom_voteSense p false s
  exact ⟨_, congrArg Host.Outcome.next ((if_pos hruns).trans (if_neg (Nat.not_le.mpr hpeak))), hmode,
    congrArg Domain.sense hpaddock, congrArg Domain.state hpaddock, bit_setBit_clear _ _, rfl⟩

/-- Withdrawn SENSE votes touch the power unit alone. -/
theorem clearSense_eq (s : State) : clearSense s = { s with pwr := (clearSense s).pwr } := by
  have hfold : ∀ (l : List Nat) (t : State), l.foldl (fun t p => if sensing t p then voteSense p false t else t) t
      = { t with pwr := (l.foldl (fun t p => if sensing t p then voteSense p false t else t) t).pwr } := by
    intro l
    induction l with
    | nil => exact fun _ => rfl
    | cons p r ih =>
      intro t
      rw [List.foldl_cons, ih]
      split
      · rfl
      · rfl
  exact hfold _ s

/-- A device woken from GRAZE, before its domains are restored and its mode changes. -/
def woken (source cause : Nat) (s : State) : State :=
  let s1 := clearSense s
  postEvent 0x0102 source (w32 cause) (setPwr s1 { s1.pwr with lastWake := some cause, woken := true, lastAct := now s1 })

theorem cfg_woken (source cause : Nat) (s : State) : (woken source cause s).cfg = s.cfg := by
  refine (keeps_postEvent _ _ _ _ State.cfg).trans ?_
  change (clearSense s).cfg = s.cfg
  rw [clearSense_eq]

theorem wakeGraze_eq (source cause : Nat) (s : State) :
    wakeGraze source cause s = changeMode (runningMode s) (restoreDomains (woken source cause s)) := by
  have hmode : runningMode (setPwr (clearSense s) { (clearSense s).pwr with lastWake := some cause, woken := true, lastAct := now (clearSense s) })
      = runningMode s := by
    rw [clearSense_eq]
    rfl
  rw [wakeGraze, hmode]
  rfl

theorem wakeGraze_restores (source cause : Nat) (s : State) : ∃ t, wakeGraze source cause s = t ∧ t.dev.mode = runningMode s
    ∧ t.pwr.lastWake = some cause ∧ ∀ p, p < 4 → (plainCfg s p).enabled = true → (pdom t (32 + p)).state = 2 := by
  refine ⟨_, rfl, ?_, ?_, fun p hp hplain => ?_⟩
  · rw [wakeGraze_eq, dev_changeMode]
  · rw [wakeGraze_eq, keeps_changeMode (fun t => t.pwr.lastWake) (fun _ _ _ _ _ => rfl), restoreDomains, setDomains_eq]
    exact keeps_postEvent _ _ _ _ fun t => t.pwr.lastWake
  · have howner : ownerVote (woken source cause s) (32 + p) = true := by
      have hplain' : (plainCfg (woken source cause s) (32 + p - 32)).enabled = true := by
        rw [Nat.add_sub_cancel_left, plainCfg, cfg_woken]
        exact hplain
      exact (if_neg (by omega)).trans ((if_pos (by omega)).trans hplain')
    have hvoted : voted (woken source cause s) (32 + p) = true := (voted_iff _ _).mpr (.inr (.inr howner))
    rw [wakeGraze_eq, keeps_changeMode (pdom · (32 + p)) (fun _ _ _ _ _ => rfl), restoreDomains, pdom_setDomains,
      if_pos (List.mem_filter.mpr ⟨List.mem_range.mpr (by omega), hvoted⟩)]
    rfl

theorem grazeScheduledWake_of_cell (p : Fin 4) (s : State) (hcell : cellComes s p = true) (hmode : s.dev.mode = .graze)
    (htrans : s.pwr.trans = none) : exec (.grazeScheduledWake p) s = .next (wakeGraze p 1 (countPwr 2 s)) := by
  change execGrazeScheduledWake p s = _
  unfold execGrazeScheduledWake
  simp only [htrans, hcell, hmode, Bool.not_true, Bool.false_eq_true, if_false, if_true]

theorem grazeScheduledWake_without_cell (p : Fin 4) (s : State) (hcell : cellComes s p = false) :
    exec (.grazeScheduledWake p) s = .next s := congrArg Host.Outcome.next (if_pos (by rw [hcell]; rfl))

theorem grazeAutoEntry_enters (s : State) (hmode : s.dev.mode = .gallop ∨ s.dev.mode = .trot) (hauto : s.cfg.pwr.grazeAuto = true)
    (hwoken : s.pwr.woken = true) (htrans : s.pwr.trans = none) (hallowed : grazeAllowed s = true) (htracks : s.rx.tracks = [])
    (htxs : s.radio.txs = []) (hidle : reached s (s.pwr.lastAct + BitVec.ofNat 64 (1000000000 * s.cfg.pwr.grazeIdle)) = true) :
    exec .grazeAutoEntry s = .next (enterGraze s) :=
  congrArg Host.Outcome.next (if_pos (by
    rw [running_iff.mpr hmode, hauto, hwoken, htrans, hallowed, htracks, htxs, hidle]
    rfl))

/-! ### STALL (R458, R459) -/

theorem pdom_gateLinks (d : Nat) (s : State) : pdom (gateLinks s) d = pdom s d := by
  have hlanes : ∀ p t, pdom (lanesDown p t) d = pdom t d := fun p t => keeps_foldl (pdom · d) (by intros; rfl) _ t
  have hlinks : ∀ l t, pdom (dropLink l t) d = pdom t d := fun l t => keeps_dropLink (pdom · d) (fun _ _ _ _ _ _ _ _ _ => rfl) l t
  unfold gateLinks
  exact (keeps_foldl (pdom · d) (fun t l => hlinks l t) _ _).trans (keeps_foldl (pdom · d) (fun t p => hlanes p t) _ s)

/-- A device whose writes are saved and whose TICK has stopped, before its domains gate. -/
def stalled (s : State) : State :=
  let s1 := writeBackAll (gateLinks s)
  let s2 := setPwr s1 { s1.pwr with beforeStall := s.dev.mode, stallAt := s.time.sleepCount, sensing := 0#4 }
  { s2 with time := { s2.time with stopped := true }, dev := { s2.dev with dataReady := false, cmdReady := false } }

theorem pdom_stalled (d : Nat) (s : State) : pdom (stalled s) d = pdom (gateLinks s) d := by
  simp only [pdom, stalled, setPwr, writeBackAll]

theorem enterStall_gates (s : State) : ∃ t, enterStall s = t ∧ t.dev.mode = .stall ∧ t.time.stopped = true ∧ t.dev.dataReady = false
    ∧ (∀ d, d < 46 → (pdom t d).state = 0) ∧ (pdom t 46).state = (pdom s 46).state := by
  have heq : enterStall s = changeMode .stall (setDomains (List.range 46) false (stalled s)) := rfl
  have hdomain : ∀ d, pdom (enterStall s) d = pdom (setDomains (List.range 46) false (stalled s)) d := fun d => by
    rw [heq, keeps_changeMode (pdom · d) (fun _ _ _ _ _ => rfl)]
  refine ⟨_, rfl, ?_, ?_, ?_, fun d hd => ?_, ?_⟩
  · rw [heq, dev_changeMode]
  · rw [heq, keeps_changeMode (fun t => t.time.stopped) (fun _ _ _ _ _ => rfl), setDomains_eq]
    rfl
  · rw [heq, dev_changeMode, setDomains_eq]
    rfl
  · rw [hdomain, pdom_setDomains, if_pos (List.mem_range.mpr hd)]
    rfl
  · rw [hdomain, pdom_setDomains, if_neg (by rw [List.mem_range]; omega)]
    exact congrArg Domain.state ((pdom_stalled 46 s).trans (pdom_gateLinks 46 s))

theorem stallWake_of_perst (x : WakeIn) (s : State) (hmode : s.dev.mode = .stall) (hcause : x.cause = .perst) :
    exec (.stallWake x) s = .next (wakeStall x s) := by
  have hwakes : wakes x s = true := by simp only [wakes, hcause]
  exact congrArg Host.Outcome.next ((if_pos hmode).trans (if_pos hwakes))

theorem makeUpPeriod_of_good {s : State} (h : periodGood s.time.sleepPeriod = true) : makeUpPeriod s = s.time.sleepPeriod.toNat :=
  if_pos h

theorem stallWake_of_early_timer (x : WakeIn) (s : State) (hmode : s.dev.mode = .stall) (hcause : x.cause = .timer)
    (hperiod : periodGood s.time.sleepPeriod = true)
    (hearly : x.cycles * s.time.sleepPeriod.toNat < s.cfg.pwr.stallWake * 65536000000000) : exec (.stallWake x) s = .next s := by
  have hsleeps : wakes x s = false := by
    simp only [wakes, hcause, makeUpPeriod_of_good hperiod, decide_eq_false (show ¬ s.cfg.pwr.stallWake * 1000000000 * 65536
      ≤ x.cycles * s.time.sleepPeriod.toNat by omega), Bool.and_false]
  exact congrArg Host.Outcome.next ((if_pos hmode).trans (if_neg (by rw [hsleeps]; exact Bool.false_ne_true)))

/-- ST and whether TICK stands still. -/
def clock (s : State) : BitVec 96 × Bool := (s.time.st, s.time.stopped)

theorem clock_reselect (n : Option Nat) (s : State) : clock (reselect n s) = clock s := by
  unfold reselect follow
  exact keeps_ite rfl (keeps_ite rfl ((keeps_postEvent _ _ _ _ clock).trans (keeps_raise _ _ clock)))

theorem clock_setBaseState (n st : Nat) (s : State) : clock (setBaseState n st s) = clock s := by
  have hset : clock (setBase s n { base s n with state := st, since := now s }) = clock s := rfl
  unfold setBaseState
  exact keeps_ite rfl ((keeps_postEvent _ _ _ _ clock).trans (keeps_ite ((keeps_raiseAll _ _ clock).trans hset) hset))

theorem clock_setSt (v : BitVec 96) (s : State) : clock (setSt v s) = (v, s.time.stopped) := rfl

theorem clock_makeUpTime (n : Nat) (s : State) : clock (makeUpTime n s) = (s.time.st + makeUpOf s n, false) := by
  have hbases : ∀ d t, clock ((List.range 5).foldl (fun t i => setBase t i { base t i with val := (base t i).val + d }) t) = clock t :=
    fun d t => keeps_foldl clock (by intros; rfl) _ t
  have hstates : ∀ t, clock ((List.range 4).foldl (fun t i => if (base t i).state = 1 then setBaseState i 2 t else t) t) = clock t :=
    fun t => keeps_foldl clock (fun t i => keeps_ite (clock_setBaseState i 2 t) rfl) _ t
  have hst := congrArg Prod.fst ((hstates _).trans (hbases (makeUpOf s n) s))
  simp only [clock] at hst
  simp only [makeUpTime, clock_reselect, clock_setSt, hst]

theorem clock_makeUpGaits (n : Nat) (s : State) : clock (makeUpGaits n s) = clock s := by
  refine keeps_foldl clock (fun t i => ?_) _ s
  unfold makeUpTimer gtIrq
  exact keeps_ite (keeps_ite rfl rfl) rfl

/-- A wake from STALL with no write held. -/
theorem wakeStall_restores (x : WakeIn) (s : State) (hheld : s.pwr.heldPush = []) :
    ∃ t, wakeStall x s = t ∧ t.dev.mode = s.pwr.beforeStall ∧ t.dev.dataReady = true ∧ t.dev.cmdReady = true ∧ t.time.stopped = false
      ∧ (periodGood s.time.sleepPeriod = true →
          t.time.st = s.time.st + BitVec.ofNat 96 (x.cycles * s.time.sleepPeriod.toNat * 65536)) := by
  let count := s.pwr.stallAt + BitVec.ofNat 32 x.cycles
  let s1 := makeUpGaits x.cycles (makeUpTime x.cycles { s with time := { s.time with sleepCount := count } })
  let s2 : State := { s1 with dev := { s1.dev with dataReady := true, cmdReady := true } }
  let s3 := setPwr s2 { s2.pwr with lastWake := some (wakeCode x.cause), heldPush := [] }
  have heq : wakeStall x s = changeMode s.pwr.beforeStall (restoreAfterStall s3) := by
    rw [wakeStall, hheld]
    rfl
  have hrest : restoreAfterStall s3 = { s3 with pwr := { s3.pwr with domains := (restoreAfterStall s3).pwr.domains } } := by
    unfold restoreAfterStall restoreDomains
    dsimp only
    split
    · rw [setDomains_eq grazeGates, setDomains_eq]
    · rw [setDomains_eq]
  have hclock : clock (wakeStall x s) = (s.time.st + makeUpOf s x.cycles, false) := by
    rw [heq, keeps_changeMode clock (fun _ _ _ _ _ => rfl), hrest]
    exact (clock_makeUpGaits _ _).trans (clock_makeUpTime _ _)
  have hdev : (wakeStall x s).dev = { s3.dev with mode := s.pwr.beforeStall } := by rw [heq, dev_changeMode, hrest]
  simp only [clock, Prod.mk.injEq] at hclock
  refine ⟨_, rfl, ?_, ?_, ?_, hclock.2, fun hperiod => ?_⟩
  · rw [hdev]
  · rw [hdev]
    rfl
  · rw [hdev]
    rfl
  · rw [hclock.1, makeUpOf, makeUpPeriod_of_good hperiod]

/-- Settles O51: votes and gates of the domains, GRAZE and STALL, one lemma each. -/
theorem powerEventsAct : Obligations.PowerEventsAct :=
  ⟨pdVoteWrite_of_alone, pdVoteWrite_of_nonHolder, voted_iff, gateDue_iff, noteVote_starts, noteVote_cancels, domainIdleGate_gates,
    fun d ok s hvoted => domainIdleGate_of_not_due d ok s (gateDue_of_voted hvoted), domainIdleGate_of_not_due, domainUngate_of_voted,
    fun _ _ _ => modeEntryDrainComplete_finishes, enterGraze_gates, enterStall_gates, grazeSenseCycle_of_due, grazeSenseDecision_wakes,
    grazeSenseDecision_sleeps, wakeGraze_restores, grazeScheduledWake_of_cell, grazeScheduledWake_without_cell, grazeAutoEntry_enters,
    stallWake_of_perst, stallWake_of_early_timer, wakeStall_restores⟩

end Sys2Proof.Proofs
end

section
/-! Settles Obligations.StartUpActs: resets, power-fail handling, and the lands of the package. -/

namespace Sys2Proof.Proofs

open Sys2Proof.Machine Sys2Proof.Laws Sys2Proof.Safety

-- Proofs one after another: the threads of many at once would pass the memory that the check allows.
set_option Elab.async false

/-! ### Resets (R446, R500) -/

/-- What a device reset starts from: a flash operation under way cut short, and the records saved. -/
def resetFrom (saved : Bool) (s : State) : State :=
  let u := cutOp (sectorsEnded s).1 false (sectorsEnded s).2
  if saved then writeBackAll u else u

theorem deviceReset_eq (saved : Bool) (s : State) : deviceReset saved s = Machine.resetState false (resetFrom saved s) := rfl

theorem keeps_resetFrom {α : Type} (P : State → α) (hP : ∀ s a b c d, P { s with mem := a, fw := b, free := c, fwd := d } = P s)
    (saved : Bool) (s : State) : P (resetFrom saved s) = P s := by
  have hcut : P (cutOp (sectorsEnded s).1 false (sectorsEnded s).2) = P s :=
    (keeps_cutOp P (fun s a b c => hP s a b c s.fwd) _ _ _).trans (hP s s.mem s.fw _ s.fwd)
  exact keeps_ite ((hP _ (State.mem _) (State.fw _) (State.free _) _).trans hcut) hcut

theorem resetNFall_resets (w : Nat) (b : Bool) (s : State) (hvin : s.dev.vin = true) (hwidth : 1000000 ≤ w) :
    ∃ t, exec (.resetNFall w b) s = .next t ∧ t.dev.mode = .saddle ∧ t.dev.resetLow = true ∧ t.dev.cmdReady = false
      ∧ t.cfg = State.reset.cfg ∧ t.que = State.reset.que ∧ t.rx = State.reset.rx ∧ t.link = State.reset.link
      ∧ t.time = { State.reset.time with sleepCount := s.time.sleepCount, sleepPhase := s.time.sleepPhase }
      ∧ t.trb.regs = State.reset.trb.regs ∧ t.trb.log = s.trb.log ∧ t.vault.slots = s.vault.slots ∧ t.vault.count = s.vault.count
      ∧ t.fwd.nodes = t.fwd.dram := by
  have hlong : exec (.resetNFall w b) s = .next { deviceReset (b || decide (1000000 ≤ w)) s with
      dev := { (deviceReset (b || decide (1000000 ≤ w)) s).dev with resetLow := true } } :=
    congrArg Host.Outcome.next (if_neg (by rw [hvin, decide_eq_false (show ¬ w ≤ 10000 by omega)]; decide))
  have htrb : (deviceReset (b || decide (1000000 ≤ w)) s).trb = keptTrouble s := deviceReset_trb _ s
  have htime := keeps_resetFrom State.time (fun _ _ _ _ _ => rfl) (b || decide (1000000 ≤ w)) s
  have hvault := keeps_resetFrom State.vault (fun _ _ _ _ _ => rfl) (b || decide (1000000 ≤ w)) s
  refine ⟨_, hlong, rfl, rfl, rfl, rfl, rfl, rfl, rfl, ?_, ?_, ?_, ?_, ?_, rfl⟩
  · rw [← htime]
    rfl
  · rw [htrb]
    rfl
  · rw [htrb]
    rfl
  · rw [← hvault]
    rfl
  · rw [← hvault]
    rfl

theorem resetNFall_of_short_pulse (w : Nat) (b : Bool) (s : State) (hwidth : w ≤ 10000) : exec (.resetNFall w b) s = .next s :=
  congrArg Host.Outcome.next (if_pos (by rw [decide_eq_true hwidth, Bool.or_true]))

/-! ### Power-fail handling (R444) -/

theorem vault_beside : BesideRadio State.vault := by
  constructor <;> exact fun _ _ => rfl

theorem BesideRadio.endAllOnAir {α : Type} {P : State → α} (hP : BesideRadio P) (st : Status) (s : State) :
    P (endAllOnAir st s) = P s :=
  keeps_foldl P (fun _ x => (hP.outcome x st 2 0 _).trans ((hP.shortfall x 0 none _).trans (hP.rampDown x st _))) _ s

theorem vault_failSteps (e : Option Nat) (s : State) : (failSteps e s).vault = s.vault := by
  have hrelease : (releaseReins s).vault = s.vault := keeps_ite (P := State.vault) rfl rfl
  change (cutOp (e.getD 0) true (endAllOnAir .failedHardware (releaseReins s))).vault = _
  rw [keeps_cutOp State.vault (fun _ _ _ _ => rfl)]
  exact (vault_beside.endAllOnAir _ _).trans hrelease

theorem powerFail_resets (e : Option Nat) (s : State) (hvin : s.dev.vin = true) (hnew : s.dev.powerFail = false) :
    ∃ t, exec (.powerFail e) s = .next t ∧ t.vault.pfFlag = true ∧ t.vault.slots = s.vault.slots ∧ t.trb.log = []
      ∧ t.fwd = State.reset.fwd ∧ t.air = State.reset.air ∧ t.dev.mode = .saddle ∧ t.dev.vin = false ∧ t.mem.dram = [] := by
  refine ⟨_, congrArg Host.Outcome.next (if_neg (by rw [hvin, hnew]; decide)), rfl, ?_, rfl, rfl, rfl, rfl, rfl, rfl⟩
  exact (congrArg Vault.slots (vault_failSteps e s) : (failSteps e s).vault.slots = s.vault.slots)

/-! ### Steps 1-6 of a start (R437, R445, R422, R460-R462) -/

theorem vbatLost_clears (s : State) : ∃ t, vbatLost s = t ∧ t.vault.slots = [] ∧ t.vault.next = [] ∧ t.vault.count = 0
    ∧ t.vault.vbatLost = true ∧ t.vault.start = [] ∧ t.vault.tampered = false ∧ t.vault.tamper = State.reset.vault.tamper
    ∧ trouble t .vbatLow = true := by
  have hvault : ∀ u : State, (postEvent 0x0A03 0 0#32 (raise .vbatLow u)).vault = u.vault := fun u =>
    (keeps_postEvent _ _ _ _ State.vault).trans (keeps_raise _ _ State.vault)
  refine ⟨_, rfl, ?_⟩
  unfold vbatLost
  dsimp only
  rw [hvault]
  exact ⟨rfl, rfl, rfl, rfl, rfl, rfl, rfl, trouble_postEvent (trouble_raise _ _)⟩

theorem checkVbat_after_power_fail (s : State) (hflag : s.vault.pfFlag = true) :
    ∃ t, checkVbat true s = t ∧ t.vault.pfFlag = false ∧ trouble t .vinLow = true ∧ t.vault.slots = s.vault.slots := by
  have hvault : ∀ u : State, (raise .vinLow u).vault = u.vault := fun u => keeps_raise _ _ State.vault
  have hcheck : checkVbat true s = raise .vinLow { s with vault := { s.vault with
      start := s.vault.start.map (fun e => (e.1, nextStart e.2)), pfFlag := false } } := if_pos hflag
  rw [hcheck]
  refine ⟨_, rfl, ?_, trouble_raise _ _, ?_⟩
  · rw [hvault]
  · rw [hvault]

theorem rebuildRoot_fails (s : State) : ∃ t, rebuildRoot none s = t ∧ t.vault.rootOk = false ∧ t.vault.unlocked = false
    ∧ t.vault.brand = false ∧ t.vault.slots = s.vault.slots ∧ t.link.keys = [] ∧ trouble t .rootKeyFail = true := by
  have hvault : ∀ u : State, (raise .rootKeyFail u).vault = u.vault := fun u => keeps_raise _ _ State.vault
  have hlink : ∀ u : State, (raise .rootKeyFail u).link = u.link := fun u => keeps_raise _ _ State.link
  refine ⟨_, rfl, ?_⟩
  unfold rebuildRoot
  dsimp only
  rw [hvault, hlink]
  exact ⟨rfl, rfl, rfl, rfl, rfl, trouble_raise _ _⟩

theorem dev_checkVbat (ok : Bool) (s : State) : (checkVbat ok s).dev = s.dev := by
  have hlost : (vbatLost s).dev = s.dev := (keeps_postEvent _ _ _ _ State.dev).trans (keeps_raise _ _ State.dev)
  unfold checkVbat
  exact keeps_ite (keeps_ite (keeps_raise _ _ State.dev) rfl) hlost

theorem dev_saddleThree (x : SaddleIn) (s : State) : (saddleThree x s).dev =
    { s.dev with hidStrap := x.hid, hid := x.hid, resetLow := false, vin := true, powerFail := false, pg := true } := by
  unfold saddleThree
  rw [dev_checkVbat]
  rfl

theorem saddle_of_kept_supply {x : SaddleIn} {s : State} (hstart : mayStartUp s = true) (hvin : x.vinLost = false) :
    exec (.saddle x) s = .next (saddleFour x (saddleThree x s)) := by
  change execSaddle x s = _
  rw [execSaddle, if_pos hstart, if_neg (by rw [hvin]; exact Bool.false_ne_true)]

theorem saddle_waits (x : SaddleIn) (s : State) (hstart : mayStartUp s = true) (hvin : x.vinLost = false) (hrefin : x.refin = false) :
    ∃ t, exec (.saddle x) s = .next t ∧ t.dev.saddleWait = true ∧ t.dev.mode = .saddle ∧ t.dev.cmdReady = false
      ∧ trouble t .clkLoss = true ∧ t.dev.hid = x.hid := by
  let u : State := { saddleThree x s with dev := { (saddleThree x s).dev with refin := false, saddleWait := true } }
  have hfour : saddleFour x (saddleThree x s) = raise .clkLoss u := if_neg (by rw [hrefin]; exact Bool.false_ne_true)
  have hdev : (raise .clkLoss u).dev = { s.dev with
      hidStrap := x.hid, hid := x.hid, resetLow := false, vin := true, powerFail := false, pg := true, refin := false,
      saddleWait := true } := by
    have hu : u.dev = { (saddleThree x s).dev with refin := false, saddleWait := true } := rfl
    rw [keeps_raise _ _ State.dev, hu, dev_saddleThree]
  have hready : s.dev.mode = .saddle ∧ s.dev.cmdReady = false := by
    simp only [mayStartUp, Bool.and_eq_true, decide_eq_true_eq, Bool.not_eq_true'] at hstart
    exact ⟨hstart.1.1.1, hstart.1.1.2⟩
  refine ⟨_, (saddle_of_kept_supply hstart hvin).trans (congrArg Host.Outcome.next hfour), ?_, ?_, ?_, trouble_raise _ _, ?_⟩
  · rw [hdev]
  · rw [hdev]
    exact hready.1
  · rw [hdev]
    exact hready.2
  · rw [hdev]

theorem saddle_goes_on (x : SaddleIn) (s : State) (hstart : mayStartUp s = true) (hrefin : x.refin = true) (hvin : x.vinLost = false) :
    exec (.saddle x) s = .next (saddleRest x (saddleThree x s)) := by
  rw [saddle_of_kept_supply hstart hvin]
  exact congrArg Host.Outcome.next (if_pos hrefin)

theorem refinDetected_goes_on (x : SaddleIn) (s : State) (hmode : s.dev.mode = .saddle) (hwait : s.dev.saddleWait = true) :
    exec (.refinDetected x) s = .next (saddleRest x s) :=
  congrArg Host.Outcome.next (if_pos (by rw [hmode, hwait]; rfl))

/-! ### Lands (R488, R489) -/

/-- The row of a port signal. -/
def signalRow : PortSignal → String
  | .rxP | .rxN => "A"
  | .txP | .txN => "C"
  | .sclk | .csN => "E"
  | .mosi | .miso => "F"
  | .tr | .txen => "G"
  | .paen => "H"

/-- Which of its port's two columns a signal takes. -/
def signalSide : PortSignal → Nat
  | .rxP | .txP | .sclk | .mosi | .tr | .paen => 0
  | .rxN | .txN | .csN | .miso | .txen => 1

/-- The signal in a row and on a side of its port. -/
def signalAt (row : String) (side : Nat) : PortSignal :=
  if row = "A" then if side = 0 then .rxP else .rxN
  else if row = "C" then if side = 0 then .txP else .txN
  else if row = "E" then if side = 0 then .sclk else .csN
  else if row = "F" then if side = 0 then .mosi else .miso
  else if row = "G" then if side = 0 then .tr else .txen
  else .paen

theorem signalAt_place (a : PortSignal) : signalAt (signalRow a) (signalSide a) = a := by cases a <;> decide

theorem signalSide_lt (a : PortSignal) : signalSide a < 2 := by cases a <;> decide

theorem portLand_eq (n : Nat) (a : PortSignal) : portLand n a = (signalRow a, 6 + 2 * n + signalSide a) := by cases a <;> rfl

/-- No two signals of the radio ports share a land. -/
theorem portLand_injective (m n : Nat) (a b : PortSignal) (h : portLand m a = portLand n b) : m = n ∧ a = b := by
  rw [portLand_eq, portLand_eq, Prod.mk.injEq] at h
  obtain ⟨hrow, hcolumn⟩ := h
  have ha := signalSide_lt a
  have hb := signalSide_lt b
  have hside : signalSide a = signalSide b := by omega
  refine ⟨by omega, ?_⟩
  rw [← signalAt_place a, hrow, hside, signalAt_place]

theorem clock_lands (p q : Nat) : (rckLands p).1 = ("K", 6 + 8 * p) ∧ (sysrefLands p).1 = ("K", 8 + 8 * p)
    ∧ (rckLands p).2 ≠ (sysrefLands q).1 := by
  refine ⟨rfl, rfl, fun h => ?_⟩
  have hcolumn : 7 + 8 * p = 8 + 8 * q := congrArg Prod.snd h
  omega

end Sys2Proof.Proofs
end

section
/-! Settles Obligations.StartUpActs: a start from reset to the mode it leads to. -/

namespace Sys2Proof.Proofs

open Sys2Proof.Machine Sys2Proof.Laws Sys2Proof.Safety

-- Proofs one after another: the threads of many at once would pass the memory that the check allows.
set_option Elab.async false

/-! ### Steps 8-12 (R460-R462, R478) -/

section Plains

variable {α : Type} (P : State → α)
  (hP : ∀ s a b c d e f g h, P { s with rx := a, cut := b, radio := c, free := d, trb := e, que := f, out := g, air := h } = P s)

include hP

/-- The plains that a start enables touch the receive array, the sample store, the radios and what is reported alone. -/
theorem keeps_startPlains (s : State) : P (startPlains s) = P s := by
  have hrx : ∀ t v, P { t with rx := v } = P t := fun t v => hP t v t.cut t.radio t.free t.trb t.que t.out t.air
  have hcut : ∀ t v, P { t with cut := v } = P t := fun t v => hP t t.rx v t.radio t.free t.trb t.que t.out t.air
  have hradio : ∀ t v, P { t with radio := v } = P t := fun t v => hP t t.rx t.cut v t.free t.trb t.que t.out t.air
  have hreport : ∀ t a b c, P { t with trb := a, que := b, out := c } = P t := fun t a b c =>
    hP t t.rx t.cut t.radio t.free a b c t.air
  have halign : ∀ p t, P (realign p t) = P t := fun p t => keeps_foldl P (fun u n => hrx u _) _ t
  have hlink : ∀ p t, P (linkPorts p t) = P t := fun p t => (hrx _ _).trans (keeps_foldl P (fun u n => hrx u _) _ t)
  have hsysref : ∀ m t, P (sendSysref m t) = P t := fun m t => keeps_foldl P (fun u p => hrx u _) _ t
  have hlane : ∀ p n t, P (laneReturns p n t) = P t := fun p n t => (hcut _ _).trans ((hrx _ _).trans (hrx t _))
  have hone : ∀ p l t, P (calibratePlain p l t) = P t := fun p l t =>
    (keeps_foldl P (fun u n => hlane p n u) _ _).trans
      ((halign _ _).trans (keeps_foldl P (fun u n => keeps_ite (hrx u _) rfl) _ t))
  have hfree : ∀ t v, P { t with free := v } = P t := fun t v => hP t t.rx t.cut t.radio v t.trb t.que t.out t.air
  have hcalibrate : ∀ m t, P (calibrate m t) = P t := fun m t => by
    unfold calibrate
    exact (hfree _ _).trans (keeps_foldl P (fun u p => keeps_ite rfl (hone p _ u)) _ t)
  unfold startPlains
  refine (keeps_repartition P (fun t a b c d => hP t t.rx a t.radio t.free b c d t.air) _).trans ?_
  refine (keeps_foldl P (fun t p => hradio t _) _ _).trans ((keeps_foldl P (fun t p => keeps_raise _ t P hreport) _ _).trans ?_)
  exact (hcalibrate _ _).trans ((hsysref _ _).trans (keeps_foldl P (fun t p => (hlink _ _).trans (halign _ t)) _ s))

theorem keeps_startLedger (ok : Bool) (s : State) : P (startLedger ok s) = P s :=
  keeps_foldl P (fun t _ => keeps_ite (hP t t.rx t.cut t.radio t.free t.trb t.que t.out _) rfl) _ s

end Plains

/-- What a start decides about the device: its outputs and mode, its herd ID, its settings and its root. -/
structure Face where
  cmdReady : Bool
  dataReady : Bool
  dramOk : Bool
  mode : Mode
  hid : BitVec 6
  cfg : Cfg
  rootOk : Bool

/-- The face of a state. -/
def face (s : State) : Face :=
  { cmdReady := s.dev.cmdReady, dataReady := s.dev.dataReady, dramOk := s.dev.dramOk, mode := s.dev.mode, hid := s.dev.hid,
    cfg := s.cfg, rootOk := s.vault.rootOk }

/-- Steps 8-10 without a tack: DRAM is trained or not, and the settings are those of reset. -/
theorem face_saddleTen {x : SaddleIn} {k : Nat} {s : State} (hactive : s.fw.active = none) (hprev : s.fw.prev = none) :
    face (saddleTen x k s) = { face s with dramOk := x.dram, cfg := {} } := by
  have hplains : ∀ u : State, face (startLedger x.ledgerOk (startPlains u)) = face u := fun u =>
    (keeps_startLedger face (fun _ _ _ _ _ _ _ _ _ => rfl) _ _).trans (keeps_startPlains face (fun _ _ _ _ _ _ _ _ _ => rfl) _)
  have hevent : ∀ n (u : State), face (postEvent 0x0C03 0 n u) = face u := fun n u => keeps_postEvent _ _ _ _ face
  have houtputs : ∀ u : State, face { u with dev := { u.dev with outputsOn := true } } = face u := fun _ => rfl
  simp only [saddleTen, chooseTack, setFw, hactive, hprev, houtputs, hplains, hevent]
  rfl

/-- The event of a reset touches the queues and what is reported alone. -/
theorem face_resetEvent (s : State) : face (resetEvent s) = face s := by
  have hsettle : ∀ q v t, face (settle q v t) = face t := fun q v t => by rw [settle_eq]; rfl
  have htrim : ∀ t, face (trimEvents t) = face t := fun t => keeps_ite ((keeps_raise _ _ face).trans rfl) rfl
  exact (htrim _).trans (hsettle _ _ _)

theorem face_restoreDomains (s : State) : face (restoreDomains s) = face s := by
  rw [restoreDomains, setDomains_eq]
  rfl

/-- The device at the end of step 11: commands are served, and SOUND follows its self-test. -/
def serving (s : State) : State := restoreDomains (setSound (fullSelfTest (resetEvent { s with dev := { s.dev with cmdReady := true } })).2)

theorem face_serving (s : State) : face (serving s) = { face s with cmdReady := true } := by
  have hsound : ∀ t, face (setSound t) = face t := fun _ => rfl
  have htest : ∀ t, face (fullSelfTest t).2 = face t := fun t =>
    keeps_selfTest face (fun _ _ _ _ _ _ _ _ => rfl) (BitVec.allOnes 20) t
  rw [serving, face_restoreDomains, hsound, htest, face_resetEvent]
  rfl

theorem saddleTwelve_eq (s : State) : saddleTwelve s =
    if (serving s).dev.dramOk then changeMode (runningMode (serving s)) { serving s with dev := { (serving s).dev with dataReady := true } }
    else serving s := by
  unfold saddleTwelve serving
  rfl

theorem face_changeMode (m : Mode) (s : State) : face (changeMode m s) = { face s with mode := m } := by
  rw [face, dev_changeMode, keeps_changeMode State.cfg (fun _ _ _ _ _ => rfl), keeps_changeMode State.vault (fun _ _ _ _ _ => rfl)]
  rfl

theorem face_dataReady (s : State) : face { s with dev := { s.dev with dataReady := true } } = { face s with dataReady := true } := rfl

theorem dramOk_serving (s : State) : (serving s).dev.dramOk = s.dev.dramOk := by
  have hface := face_serving s
  simp only [face, Face.mk.injEq] at hface
  exact hface.2.2.1

theorem cfg_serving (s : State) : (serving s).cfg = s.cfg := by
  have hface := face_serving s
  simp only [face, Face.mk.injEq] at hface
  exact hface.2.2.2.2.2.1

/-- Without a plain that is enabled the device runs in TROT (R447). -/
theorem runningMode_of_reset_cfg {s : State} (h : s.cfg = {}) : runningMode s = .trot := by
  have hoff : (plainCfg s 0).enabled = false := by rw [plainCfg, h]; rfl
  have hany : (List.range 4).any (fun p => !(plainCfg s p).enabled || decide ((plainCfg s p).ports = 0#16) || searchNarrowed s p) = true :=
    List.any_eq_true.mpr ⟨0, by decide, by rw [hoff]; rfl⟩
  exact if_pos (by rw [offByCfg, hany]; simp)

theorem saddleTwelve_with_dram {s : State} (hdram : s.dev.dramOk = true) (hcfg : s.cfg = {}) :
    face (saddleTwelve s) = { face s with cmdReady := true, dataReady := true, mode := .trot } := by
  have hserving := face_serving s
  have hdram' : (serving s).dev.dramOk = true := (dramOk_serving s).trans hdram
  have hcfg' : (serving s).cfg = {} := (cfg_serving s).trans hcfg
  rw [saddleTwelve_eq, if_pos hdram', runningMode_of_reset_cfg hcfg', face_changeMode, face_dataReady, hserving]

theorem saddleTwelve_without_dram {s : State} (hdram : s.dev.dramOk = false) :
    face (saddleTwelve s) = { face s with cmdReady := true } := by
  have hdram' : (serving s).dev.dramOk = false := (dramOk_serving s).trans hdram
  rw [saddleTwelve_eq, if_neg (by rw [hdram']; exact Bool.false_ne_true)]
  exact face_serving s

end Sys2Proof.Proofs
end

section
/-! Settles Obligations.StartUpActs: three starts from reset, and the assembly. -/

namespace Sys2Proof.Proofs

open Sys2Proof.Machine Sys2Proof.Laws Sys2Proof.Safety

-- Proofs one after another: the threads of many at once would pass the memory that the check allows.
set_option Elab.async false

/-! ### From step 5 to the choice of a slot (R460, R482) -/

/-- What step 7 examines for a bootable slot, while no erase stands unfinished in the journal. -/
def examined (x : SaddleIn) (s : State) : State :=
  let s1 := rebuildRoot x.root { s with dev := { s.dev with clkLost := false, refin := true, saddleWait := false } }
  nextBootEpoch (setFw s1 { s1.fw with flashOk := true })

theorem replayJournal_of_empty {s : State} (h : s.fw.journal = []) : replayJournal s = s := by
  rw [replayJournal, h]
  rfl

theorem saddleRest_boots {x : SaddleIn} {s : State} {k : Nat} (hflash : x.flashOk = true) (hjournal : (examined x s).fw.journal = [])
    (hslot : bootSlot (examined x s) = k) (hboot : bootable x (examined x s) k = true) :
    saddleRest x s = saddleTwelve (saddleTen x k (examined x s)) := by
  have hreplay := replayJournal_of_empty hjournal
  have hchoose : chooseSlot x (examined x s) = (some k, examined x s) := by
    unfold chooseSlot
    rw [hslot]
    exact if_pos hboot
  simp only [examined] at hreplay hchoose ⊢
  simp only [saddleRest, hflash, Bool.not_true, Bool.false_eq_true, if_false, hreplay, hchoose]

theorem dev_failSlot (k : Nat) (s : State) : (failSlot k s).dev = s.dev := keeps_ite (P := State.dev) rfl rfl

theorem saddleRest_remounts {x : SaddleIn} {s : State} (hflash : x.flashOk = true) (hjournal : (examined x s).fw.journal = [])
    (hslots : ∀ k, bootable x (examined x s) k = false) : ∃ t, t.dev = (examined x s).dev ∧ saddleRest x s = enterRemount x t := by
  have hreplay := replayJournal_of_empty hjournal
  have hchoose : chooseSlot x (examined x s) =
      (none, failSlot (1 - bootSlot (examined x s)) (failSlot (bootSlot (examined x s)) (examined x s))) := by
    unfold chooseSlot
    simp only [hslots, Bool.false_eq_true, if_false]
  refine ⟨failSlot (1 - bootSlot (examined x s)) (failSlot (bootSlot (examined x s)) (examined x s)),
    (dev_failSlot _ _).trans (dev_failSlot _ _), ?_⟩
  simp only [examined] at hreplay hchoose ⊢
  simp only [saddleRest, hflash, Bool.not_true, Bool.false_eq_true, if_false, hreplay, hchoose]

/-- Without both slots the device stands in REMOUNT, and whether it serves commands is as before. -/
theorem dev_enterRemount {x : SaddleIn} {s : State} (hrecovery : x.recovery = false) :
    (enterRemount x s).dev.mode = .remount ∧ (enterRemount x s).dev.cmdReady = s.dev.cmdReady := by
  have hdev : (enterRemount x s).dev = { (changeMode .remount { s with cfg := { s.cfg with herd := { s.cfg.herd with links := romLinks } } }).dev
      with dramOk := x.dram, fwVersion := 0 } := by
    unfold enterRemount
    simp only [hrecovery, Bool.and_false, Bool.false_eq_true, if_false]
    rfl
  rw [hdev, dev_changeMode]
  exact ⟨rfl, rfl⟩

/-! ### Three starts from reset -/

/-- A start in which every check passes. -/
def goodStart : SaddleIn :=
  { hid := 5, refin := true, vinLost := false, vbatOk := true, root := some 0, flashOk := true, slotA := true, slotB := true, dram := true
    ledgerOk := true, tackOk := true, prevOk := true, recovery := false }

/-- Step 7 of a start from reset. -/
def examinedReset (x : SaddleIn) : State := examined x (saddleThree x State.reset)

theorem starts_from_reset {x : SaddleIn} (hrefin : x.refin = true) (hvin : x.vinLost = false) :
    exec (.saddle x) State.reset = .next (saddleRest x (saddleThree x State.reset)) :=
  saddle_goes_on x _ (by decide) hrefin hvin

theorem start_with_good_slot (b : Bool) : exec (.saddle { goodStart with dram := b }) State.reset =
    .next (saddleTwelve (saddleTen { goodStart with dram := b } 0 (examinedReset { goodStart with dram := b }))) :=
  (starts_from_reset rfl rfl).trans (congrArg Host.Outcome.next (saddleRest_boots rfl rfl rfl rfl))

/-- The device after step 10 of these starts. -/
theorem face_ten_of_reset (b : Bool) : face (saddleTen { goodStart with dram := b } 0 (examinedReset { goodStart with dram := b })) =
    { cmdReady := false, dataReady := false, dramOk := b, mode := .saddle, hid := 5, cfg := {}, rootOk := true } :=
  (face_saddleTen rfl rfl).trans rfl

theorem start_with_dram : ∃ t, exec (.saddle { goodStart with dram := true }) State.reset = .next t ∧ face t =
    { cmdReady := true, dataReady := true, dramOk := true, mode := .trot, hid := 5, cfg := {}, rootOk := true } := by
  have hten := face_ten_of_reset true
  exact ⟨_, start_with_good_slot true, (saddleTwelve_with_dram (congrArg Face.dramOk hten) (congrArg Face.cfg hten)).trans
    (congrArg (fun f : Face => { f with cmdReady := true, dataReady := true, mode := .trot }) hten)⟩

theorem start_without_dram : ∃ t, exec (.saddle { goodStart with dram := false }) State.reset = .next t ∧ face t =
    { cmdReady := true, dataReady := false, dramOk := false, mode := .saddle, hid := 5, cfg := {}, rootOk := true } := by
  have hten := face_ten_of_reset false
  exact ⟨_, start_with_good_slot false, (saddleTwelve_without_dram (congrArg Face.dramOk hten)).trans
    (congrArg (fun f : Face => { f with cmdReady := true }) hten)⟩

/-- A start that finds neither slot bootable. -/
def noSlots : SaddleIn := { goodStart with slotA := false, slotB := false }

theorem start_without_slots : ∃ t, exec (.saddle noSlots) State.reset = .next t ∧ t.dev.mode = .remount ∧ t.dev.cmdReady = false := by
  have hslots : ∀ (s : State) k, bootable noSlots s k = false := fun s k => by simp [bootable, noSlots, goodStart]
  obtain ⟨t, hdev, hrest⟩ := saddleRest_remounts (x := noSlots) (s := saddleThree noSlots State.reset) rfl rfl (hslots _)
  obtain ⟨hmode, hready⟩ := dev_enterRemount (x := noSlots) (s := t) rfl
  exact ⟨_, (starts_from_reset rfl rfl).trans (congrArg Host.Outcome.next hrest), hmode, hready.trans (congrArg Dev.cmdReady hdev)⟩

theorem port_lands (n : Nat) : portLand n .rxP = ("A", 6 + 2 * n) ∧ portLand n .txP = ("C", 6 + 2 * n) ∧ portLand n .sclk = ("E", 6 + 2 * n)
    ∧ portLand n .csN = ("E", 7 + 2 * n) ∧ portLand n .miso = ("F", 7 + 2 * n) ∧ portLand n .paen = ("H", 6 + 2 * n) :=
  ⟨rfl, rfl, rfl, Prod.ext rfl (by dsimp only [portLand, portColumn]; omega),
    Prod.ext rfl (by dsimp only [portLand, portColumn]; omega), rfl⟩

/-- Settles O52: the resets by what each keeps, a start by the steps it takes, and the lands by their row and column. -/
theorem startUpActs : Obligations.StartUpActs := by
  obtain ⟨t, ht, htrot⟩ := start_with_dram
  obtain ⟨u, hu, hcommands⟩ := start_without_dram
  exact ⟨resetNFall_resets, resetNFall_of_short_pulse, powerFail_resets, saddle_waits, saddle_goes_on, refinDetected_goes_on, vbatLost_clears,
    checkVbat_after_power_fail, rebuildRoot_fails, ⟨t, ht, congrArg Face.cmdReady htrot, congrArg Face.dataReady htrot, congrArg Face.mode htrot, congrArg Face.hid htrot,
      congrArg Face.rootOk htrot⟩,
    ⟨u, hu, congrArg Face.cmdReady hcommands, congrArg Face.dataReady hcommands⟩, start_without_slots,
    port_lands, portLand_injective, clock_lands⟩

end Sys2Proof.Proofs
end

section
/-! Settles Obligations.FlashCommandsRun: flash, firmware images, the image chain, activation and tack sets. -/

namespace Sys2Proof.Proofs

open Sys2Proof.Machine Sys2Proof.Laws Sys2Proof.Safety

-- Proofs one after another: the threads of many at once would pass the memory that the check allows.
set_option Elab.async false

/-! ### Reads (R469, R470, R484) -/

theorem flashSpan_iff {c : Packet} {u : State} :
    flashSpan c u = true ↔ 4 ≤ pn c 1 ∧ pn c 1 ≤ 4080 ∧ pn c 1 % 4 = 0 ∧ pn c 0 + pn c 1 ≤ hostSize u := by
  simp only [flashSpan, Bool.and_eq_true, within_iff, decide_eq_true_eq, and_assoc]

theorem flashRead_here {c : Packet} {u : State} (hlo : 4 ≤ pn c 1) (hhi : pn c 1 ≤ 4080) (hwords : pn c 1 % 4 = 0)
    (hsize : pn c 0 + pn c 1 ≤ hostSize u) : flashReadSpec.here c u = true := flashSpan_iff.mpr ⟨hlo, hhi, hwords, hsize⟩

theorem readable_of_none_marked {u : State} (h : u.fw.reerase = []) (a n : Nat) : readable u a n = true := by
  rw [readable, h]
  rfl

theorem not_readable_of_marked {u : State} {a n : Nat} (h : hostSector a ∈ u.fw.reerase) (hn : 1 ≤ n) : readable u a n = false := by
  have hlast : hostSector a ≤ hostSector (a + n - 1) := Nat.div_le_div_right (by omega)
  rw [readable, Bool.not_eq_false']
  exact List.any_eq_true.mpr ⟨_, h, by simpa using hlast⟩

theorem underErase_of_idle {u : State} (h : u.fw.ops = []) (a n : Nat) : underErase u a n = false := by simp only [underErase, h]

theorem readServed_of_idle {u : State} (h : u.fw.ops = []) : readServed u = u := if_neg (by simp [erasing, h])

theorem flashRead_runs : Runs .flashRead 0x0C20 2
    (fun c u => pn c 0 % 4 = 0 ∧ 4 ≤ pn c 1 ∧ pn c 1 ≤ 4080 ∧ pn c 1 % 4 = 0 ∧ pn c 0 + pn c 1 ≤ hostSize u ∧ u.fw.reerase = []
      ∧ u.fw.ops = []) (fun c u => wordsOfBytes (memRead 0xFF#8 u.mem.flash (pn c 0) (pn c 1))) (fun _ u => u) :=
  runs_row flashReadSpec (fun _ _ ⟨haligned, _⟩ => decide_eq_true haligned)
    (fun c u ⟨_, _, _, _, _, hmarked, hidle⟩ => by
      change (if !readable u (pn c 0) (pn c 1) then _ else if underErase u (pn c 0) (pn c 1) then _ else _) = _
      rw [readable_of_none_marked hmarked, underErase_of_idle hidle, readServed_of_idle hidle]
      rfl)
    (hh := fun _ _ ⟨_, hlo, hhi, hwords, hsize, _⟩ => flashRead_here hlo hhi hwords hsize)

theorem flashRead_waits : RunsOn .flashRead 0x0C20 2
    (fun c u => pn c 0 % 4 = 0 ∧ 4 ≤ pn c 1 ∧ pn c 1 ≤ 4080 ∧ pn c 1 % 4 = 0 ∧ pn c 0 + pn c 1 ≤ hostSize u ∧ u.fw.reerase = []
      ∧ underErase u (pn c 0) (pn c 1) = true)
    (fun c u => { u with fw := { u.fw with reads := u.fw.reads ++ [(c.queue.val, c.tag, pn c 0, pn c 1)] } }) :=
  runsOn_row flashReadSpec (fun _ _ ⟨haligned, _⟩ => decide_eq_true haligned)
    (fun c u ⟨_, _, _, _, _, hmarked, herased⟩ => by
      change (if !readable u (pn c 0) (pn c 1) then _ else if underErase u (pn c 0) (pn c 1) then _ else _) = _
      rw [readable_of_none_marked hmarked, herased]
      rfl)
    (hh := fun _ _ ⟨_, hlo, hhi, hwords, hsize, _⟩ => flashRead_here hlo hhi hwords hsize)

theorem flashRead_of_marked_sector : Ends .flashRead 0x0C20 2
    (fun c u => pn c 0 % 4 = 0 ∧ 4 ≤ pn c 1 ∧ pn c 1 ≤ 4080 ∧ pn c 1 % 4 = 0 ∧ pn c 0 + pn c 1 ≤ hostSize u
      ∧ hostSector (pn c 0) ∈ u.fw.reerase) .failedFlash :=
  ends_row flashReadSpec (fun _ _ ⟨haligned, _⟩ => decide_eq_true haligned)
    (fun c u ⟨_, hlo, _, _, _, hmarked⟩ => if_pos (by rw [not_readable_of_marked hmarked (by omega)]; rfl))
    (hh := fun _ _ ⟨_, hlo, hhi, hwords, hsize, _⟩ => flashRead_here hlo hhi hwords hsize)

theorem flashRead_beyond_the_end : Ends .flashRead 0x0C20 2 (fun c u => hostSize u < pn c 0 + pn c 1) .invalidParameter :=
  ends_check flashReadSpec (fun _ _ => rfl) rfl (fun _ _ _ => rfl) (by rintro _ ⟨⟩)
    (fun c u hbeyond => .inl ⟨by
      have hout : flashReadSpec.here c u = false := Bool.eq_false_of_not_eq_true fun h => by
        obtain ⟨_, _, _, hsize⟩ := flashSpan_iff.mp h
        omega
      rw [hout, Bool.and_false], rfl⟩)

/-! ### Programs and erases (R468, R469, R484) -/

theorem startRefusal_setOps (u : State) (l : List FlashOp) (k : FlashKind) :
    startRefusal (setFw u { u.fw with ops := l }) k = startRefusal u k := by
  cases k <;> rfl

/-- An operation that joins an idle flash manager and is not refused at its start begins at once. -/
theorem addOp_of_idle {o : FlashOp} {u : State} (hidle : u.fw.ops = []) (hpower : u.dev.powerFail = false) (hnew : o.begun = false)
    (hok : startRefusal u o.kind = none) :
    addOp o u = (let s1 := startOp o (setFw u { u.fw with ops := [o] })
                 setFw s1 { s1.fw with ops := [{ o with begun := true }] }) := by
  have hjoined : u.fw.ops ++ [o] = [o] := by rw [hidle]; rfl
  have hstart : (o.begun || u.dev.powerFail) = false := by rw [hnew, hpower]; rfl
  unfold addOp
  rw [hjoined]
  change startHead 1 (setFw u { u.fw with ops := [o] }) = _
  simp only [startHead, startRefusal_setOps, hok, show (setFw u { u.fw with ops := [o] }).fw.ops = [o] from rfl,
    show (setFw u { u.fw with ops := [o] }).dev.powerFail = u.dev.powerFail from rfl, hstart, Bool.false_eq_true, if_false]

theorem startRefusal_of_erased {u : State} {a : Nat} {l : List Byte} (hmarked : u.fw.reerase = [])
    (hblank : ∀ i, i < l.length → memGet 0xFF#8 u.mem.flash (a + i) = 0xFF#8) : startRefusal u (.program a l) = none := by
  have hany : (flashBytes u a l.length).any (fun b => b != 0xFF#8) = false := by
    rw [List.any_eq_false]
    intro b hb
    obtain ⟨i, hi, rfl⟩ := List.mem_map.mp hb
    simpa [flashBlank] using hblank i (List.mem_range.mp hi)
  simp [startRefusal, hmarked, hany]

theorem startRefusal_of_written {u : State} {a : Nat} {l : List Byte} (hmarked : u.fw.reerase = []) (hl : l ≠ [])
    (hwritten : memGet 0xFF#8 u.mem.flash a ≠ 0xFF#8) : startRefusal u (.program a l) = some .invalidNotErased := by
  have hany : (flashBytes u a l.length).any (fun b => b != 0xFF#8) = true :=
    List.any_eq_true.mpr ⟨_, List.mem_map.mpr ⟨0, List.mem_range.mpr (List.length_pos_iff.mpr hl), rfl⟩, by simpa [flashBlank] using hwritten⟩
  simp [startRefusal, hmarked, hany]

theorem pbytes_length_le (c : Packet) (i n : Nat) : (pbytes c i n).length ≤ n := List.length_take_le _ _

theorem pbytes_ne_nil {c : Packet} {i n : Nat} (hi : i < c.params.length) (hn : n ≠ 0) : pbytes c i n ≠ [] := by
  have hbytes : 0 < (wordBytes c.params[i]).length := by rw [wordBytes, leBytes_length]; decide
  rw [pbytes, bytesOfWords, List.drop_eq_getElem_cons hi, List.flatMap_cons, ← List.length_pos_iff, List.length_take, List.length_append]
  omega

theorem programLen_eq {c : Packet} {n : Nat} (hlo : 1 ≤ n) (hhi : n ≤ 1020) (h : pn c 1 = 4 * n) : programLen c = some (2 + n) := by
  have hin : (within c 1 4 4080 && decide (pn c 1 % 4 = 0)) = true :=
    Bool.and_eq_true_iff.mpr ⟨within_iff.mpr (by omega), decide_eq_true (by omega)⟩
  rw [programLen, if_pos hin, h, Nat.mul_div_cancel_left n (by decide)]

theorem flashProgram_here {c : Packet} {u : State} {n : Nat} (hlo : 1 ≤ n) (hhi : n ≤ 1020) (h : pn c 1 = 4 * n)
    (hsize : pn c 0 + pn c 1 ≤ hostSize u) : flashProgramSpec.here c u = true :=
  flashSpan_iff.mpr ⟨by omega, by omega, by omega, hsize⟩

theorem flashProgram_run_of_idle {c : Packet} {u : State} (hidle : u.fw.ops = [])
    (hok : startRefusal u (.program (pn c 0) (pbytes c 2 (pn c 1))) = none) : flashProgramSpec.run c u =
      runsOn (addOp { kind := .program (pn c 0) (pbytes c 2 (pn c 1)), cmd := some (c.queue.val, c.tag) } u) := by
  simp only [flashProgramSpec, plainSpec, hidle, List.isEmpty_nil, if_true, hok]

theorem flashProgram_starts (n : Nat) (hlo : 1 ≤ n) (hhi : n ≤ 1020) : RunsOn .flashProgram 0x0C21 (2 + n)
    (fun c u => pn c 1 = 4 * n ∧ pn c 0 + pn c 1 ≤ hostSize u ∧ u.fw.ops = [] ∧ u.fw.reerase = [] ∧ u.dev.powerFail = false
      ∧ ∀ i, i < 4 * n → memGet 0xFF#8 u.mem.flash (pn c 0 + i) = 0xFF#8)
    (fun c u =>
      let o : FlashOp := { kind := .program (pn c 0) (pbytes c 2 (pn c 1)), cmd := some (c.queue.val, c.tag), begun := true }
      { u with fw := { u.fw with ops := [o] } }) :=
  runsOn_row flashProgramSpec (fun _ _ _ => rfl)
    (fun c u ⟨hn, _, hidle, hmarked, hpower, hblank⟩ => by
      have herased : ∀ i, i < (pbytes c 2 (pn c 1)).length → memGet 0xFF#8 u.mem.flash (pn c 0 + i) = 0xFF#8 := fun i hi =>
        hblank i (by have := pbytes_length_le c 2 (pn c 1); omega)
      rw [flashProgram_run_of_idle hidle (startRefusal_of_erased hmarked herased),
        addOp_of_idle hidle hpower rfl (startRefusal_of_erased hmarked herased)]
      rfl)
    (hl := fun _ _ ⟨hn, _⟩ => programLen_eq hlo hhi hn) (hh := fun _ _ ⟨hn, hsize, _⟩ => flashProgram_here hlo hhi hn hsize)
    (hc := fun i hi => by cases hi; omega)

theorem params_length_of_clear {op n : Nat} {c : Packet} {s : State} (h : clear op n c s = true) : c.params.length = n := by
  simp only [clear, Bool.and_eq_true, decide_eq_true_eq] at h
  obtain ⟨⟨⟨⟨⟨⟨⟨_, hlength⟩, _⟩, _⟩, _⟩, _⟩, _⟩, _⟩ := h
  exact hlength

/-- A clear command has the parameter words of its row, so a clause may suppose it. -/
theorem ends_of_length {i : Packet → Instr} {op n : Nat} {pre : Packet → State → Prop} {st : Status}
    (h : Ends i op n (fun c u => pre c u ∧ c.params.length = n) st) : Ends i op n pre st :=
  fun c s hclear hpre => h c s hclear ⟨hpre, params_length_of_clear hclear⟩

theorem flashProgram_of_written_target (n : Nat) (hlo : 1 ≤ n) (hhi : n ≤ 1020) : Ends .flashProgram 0x0C21 (2 + n)
    (fun c u => pn c 1 = 4 * n ∧ pn c 0 + pn c 1 ≤ hostSize u ∧ u.fw.ops = [] ∧ u.fw.reerase = []
      ∧ memGet 0xFF#8 u.mem.flash (pn c 0) ≠ 0xFF#8) .invalidNotErased :=
  ends_of_length (ends_row flashProgramSpec (fun _ _ _ => rfl)
    (fun c u ⟨⟨hn, _, hidle, hmarked, hwritten⟩, hlength⟩ => by
      have hdata : pbytes c 2 (pn c 1) ≠ [] := pbytes_ne_nil (by omega) (by omega)
      simp only [flashProgramSpec, plainSpec, hidle, List.isEmpty_nil, if_true, startRefusal_of_written hmarked hdata hwritten])
    (hl := fun _ _ ⟨⟨hn, _⟩, _⟩ => programLen_eq hlo hhi hn) (hh := fun _ _ ⟨⟨hn, hsize, _⟩, _⟩ => flashProgram_here hlo hhi hn hsize)
    (hc := fun i hi => by cases hi; omega))

theorem flashErase_starts : RunsOn .flashErase 0x0C22 2
    (fun c u => pn c 0 % 65536 = 0 ∧ 1 ≤ pn c 1 ∧ pn c 1 ≤ 64 ∧ pn c 0 + 65536 * pn c 1 ≤ hostSize u ∧ u.fw.ops = []
      ∧ u.dev.powerFail = false)
    (fun c u =>
      let k := (0x1900000 + pn c 0) / 65536
      let o : FlashOp := { kind := .erase k (pn c 1), cmd := some (c.queue.val, c.tag), begun := true }
      { u with fw := { u.fw with ops := [o], journal := u.fw.journal ++ [(0, k)] } }) :=
  runsOn_row flashEraseSpec
    (fun _ _ ⟨haligned, hlo, hhi, _⟩ => Bool.and_eq_true_iff.mpr ⟨decide_eq_true haligned, within_iff.mpr ⟨hlo, hhi⟩⟩)
    (fun c u ⟨_, _, _, _, hidle, hpower⟩ => congrArg runsOn (addOp_of_idle hidle hpower rfl rfl))
    (hh := fun _ _ ⟨_, _, _, hsize, _⟩ => decide_eq_true hsize)

/-! ### Images (R471-R473, R479) -/

theorem fwBegin_valid {c : Packet} (hlo : 2 ≤ pn c 0) (hhi : pn c 0 ≤ 2048) (hchain : pn c 1 < 2) : fwBeginSpec.valid c = true := by
  have hbit : fits c 1 1 = true := fits_iff.mpr hchain
  exact Bool.and_eq_true_iff.mpr ⟨within_iff.mpr ⟨hlo, hhi⟩, hbit⟩

theorem lockCheck_of_unlocked {u : State} (h : u.fw.locked = false) : lockCheck u = none :=
  if_neg (by rw [h]; exact Bool.false_ne_true)

theorem lockCheck_of_locked {u : State} (h : u.fw.locked = true) : lockCheck u = some .notPermittedTackLocked := if_pos h

theorem fwBegin_starts : RunsOn .fwBegin 0x0C00 2
    (fun c u => 2 ≤ pn c 0 ∧ pn c 0 ≤ 2048 ∧ pn c 1 < 2 ∧ u.fw.locked = false ∧ u.fw.flashOk = true)
    (fun c u => addOp { kind := .fwBegin (loadSlot u) (pn c 0) (bit (pw c 1) 0), cmd := some (c.queue.val, c.tag) } u) :=
  runsOn_row fwBeginSpec (fun _ _ ⟨hlo, hhi, hchain, _⟩ => fwBegin_valid hlo hhi hchain)
    (fun _ _ ⟨_, _, _, _, hflash⟩ => if_pos hflash) (hp := fun _ _ ⟨_, _, _, hfree, _⟩ => lockCheck_of_unlocked hfree)

theorem fwBegin_locked : Ends .fwBegin 0x0C00 2 (fun c u => 2 ≤ pn c 0 ∧ pn c 0 ≤ 2048 ∧ pn c 1 < 2 ∧ u.fw.locked = true)
    .notPermittedTackLocked :=
  ends_notPermitted fwBeginSpec (fun _ _ ⟨hlo, hhi, hchain, _⟩ => fwBegin_valid hlo hhi hchain)
    (fun _ _ ⟨_, _, _, hlocked⟩ => lockCheck_of_locked hlocked)

theorem fwBegin_without_flash : Ends .fwBegin 0x0C00 2
    (fun c u => 2 ≤ pn c 0 ∧ pn c 0 ≤ 2048 ∧ pn c 1 < 2 ∧ u.fw.locked = false ∧ u.fw.flashOk = false) .failedFlash :=
  ends_row fwBeginSpec (fun _ _ ⟨hlo, hhi, hchain, _⟩ => fwBegin_valid hlo hhi hchain)
    (fun _ _ ⟨_, _, _, _, hflash⟩ => if_neg (by rw [hflash]; exact Bool.false_ne_true))
    (hp := fun _ _ ⟨_, _, _, hfree, _⟩ => lockCheck_of_unlocked hfree)

theorem loadSlot_of_active (u : State) (t : Tack) (hmode : u.dev.mode ≠ .remount) (hactive : u.fw.active = some t) :
    loadSlot u = 1 - t.slot := by
  simp only [loadSlot, hmode, if_false, hactive]

theorem fwBlockWrite_valid {c : Packet} (hnum : pn c 0 ≤ 2047) (haligned : (p64 c 1).toNat % 4096 = 0)
    (hsize : (p64 c 1).toNat + 4096 ≤ stagingSize) : fwBlockWriteSpec.valid c = true := by
  change (within c 0 0 2047 && decide ((p64 c 1).toNat % 4096 = 0) && decide ((p64 c 1).toNat + 4096 ≤ stagingSize)) = true
  rw [within_iff.mpr ⟨Nat.zero_le _, hnum⟩, decide_eq_true haligned, decide_eq_true hsize]
  rfl

theorem fwBlockWrite_ready_iff {c : Packet} {u : State} : fwBlockWriteSpec.ready c u = true ↔ u.dev.dramOk = true
    ∧ (pn c 0 < (heldBlocks u).length
      ∨ ((openLoad u).isSome = true ∧ pn c 0 = (heldBlocks u).length + pendingBlocks u) ∧ pn c 0 < imageCount u) := by
  simp only [fwBlockWriteSpec, Bool.and_eq_true, Bool.or_eq_true, decide_eq_true_eq]

theorem fwBlockWrite_takes_block : RunsOn .fwBlockWrite 0x0C01 4
    (fun c u => pn c 0 = (heldBlocks u).length + pendingBlocks u ∧ pn c 0 < imageCount u ∧ pn c 0 ≤ 2047 ∧ 1 ≤ pn c 0
      ∧ (p64 c 1).toNat % 4096 = 0 ∧ (p64 c 1).toNat + 4096 ≤ stagingSize ∧ u.dev.dramOk = true ∧ (openLoad u).isSome
      ∧ stagingBad u (p64 c 1).toNat 4096 = false ∧ crc32c (stagingRead u (p64 c 1).toNat 4096) = pw c 3)
    (fun c u => addOp { kind := .fwBlock (u.fw.loading.getD 0) (pn c 0) (stagingRead u (p64 c 1).toNat 4096)
                        cmd := some (c.queue.val, c.tag) } u) :=
  runsOn_row fwBlockWriteSpec (fun _ _ ⟨_, _, hnum, _, haligned, hsize, _⟩ => fwBlockWrite_valid hnum haligned hsize)
    (fun c u ⟨hnext, _, _, hpayload, _, _, _, _, hgood, hcrc⟩ => by
      have hnew : ¬ pn c 0 < (heldBlocks u).length := by omega
      have hcheck : blockCheck u (pn c 0) (stagedBlock c u) = none := if_neg (by omega)
      have hcrc' : (crc32c (stagedBlock c u) != pw c 3) = false := by
        rw [show crc32c (stagedBlock c u) = pw c 3 from hcrc]
        exact bne_self_eq_false' _
      have hgood' : stagingBad u (wide (pw c 1) (pw c 2)).toNat 4096 = false := hgood
      simp only [fwBlockWriteSpec, plainSpec, hnew, if_false, hgood', hcrc', Bool.false_eq_true, hcheck]
      rfl)
    (hr := fun _ _ ⟨hnext, hlast, _, _, _, _, hdram, hopen, _⟩ => fwBlockWrite_ready_iff.mpr ⟨hdram, .inr ⟨⟨hopen, hnext⟩, hlast⟩⟩)

theorem fwBlockWrite_of_held_block : Runs .fwBlockWrite 0x0C01 4
    (fun c u => pn c 0 < (heldBlocks u).length ∧ pn c 0 ≤ 2047 ∧ (p64 c 1).toNat % 4096 = 0 ∧ (p64 c 1).toNat + 4096 ≤ stagingSize
      ∧ u.dev.dramOk = true) (fun _ u => [w32 (heldBlocks u).length]) (fun _ u => u) :=
  runs_row fwBlockWriteSpec (fun _ _ ⟨_, hnum, haligned, hsize, _⟩ => fwBlockWrite_valid hnum haligned hsize)
    (fun _ _ ⟨hheld, _⟩ => if_pos hheld) (hr := fun _ _ ⟨hheld, _, _, _, hdram⟩ => fwBlockWrite_ready_iff.mpr ⟨hdram, .inl hheld⟩)

theorem fwBlockWrite_out_of_order : Ends .fwBlockWrite 0x0C01 4
    (fun c u => (heldBlocks u).length + pendingBlocks u < pn c 0 ∧ pn c 0 ≤ 2047 ∧ (p64 c 1).toNat % 4096 = 0
      ∧ (p64 c 1).toNat + 4096 ≤ stagingSize) .invalidState :=
  ends_notReady fwBlockWriteSpec (fun _ _ ⟨_, hnum, haligned, hsize⟩ => fwBlockWrite_valid hnum haligned hsize)
    (fun c u ⟨hbeyond, _⟩ => Bool.eq_false_of_not_eq_true fun h => by
      obtain ⟨_, hheld | ⟨⟨_, hnext⟩, _⟩⟩ := fwBlockWrite_ready_iff.mp h <;> omega)

/-! ### The image chain (R474, R475) -/

theorem fwChainSet_runs (n : Nat) (hn : n ≤ 63) : Runs .fwChainSet 0x0C03 (1 + n)
    (fun c _ => pn c 0 = n ∧ ∀ w ∈ c.params.drop 1, w.toNat ≤ 63) (fun _ _ => [])
    (fun c u => { u with fw := { u.fw with chain := (c.params.drop 1).map (·.toNat), chainState := 0, chainBreak := none, chainTries := 0 } }) :=
  runs_row fwChainSetSpec (fun _ _ ⟨_, hids⟩ => List.all_eq_true.mpr fun w hw => decide_eq_true (hids w hw)) (fun _ _ _ => rfl)
    (hl := fun c _ ⟨hcount, _⟩ => by
      change chainLen c = _
      rw [chainLen, if_pos (by omega), hcount])
    (hc := fun i hi => by cases hi; omega)

theorem fwChainResume_sends (h : Nat) (l : List Nat) : RunsOn .fwChainResume 0x0C04 0
    (fun _ u => u.fw.chain = h :: l ∧ heldBlocks u ≠ [] ∧ u.fw.resume = none ∧ reachable u h = true)
    (fun c u => sendBlock 1 { u with fw := { u.fw with
      chainState := 1, chainAt := 0, chainTries := 0, chainBreak := none, resume := some (c.queue.val, c.tag) } }) :=
  runsOn_row fwChainResumeSpec (fun _ _ _ => rfl)
    (fun c u ⟨hchain, _, _, hreach⟩ => by
      have hnext : chainNext u = some h := by rw [chainNext, hchain]; rfl
      simp only [fwChainResumeSpec, plainSpec, hnext, hreach, if_true]
      rfl)
    (hr := fun c u ⟨hchain, hheld, hfree, _⟩ => by
      change (!(heldBlocks u).isEmpty && !u.fw.chain.isEmpty && u.fw.resume.isNone) = true
      rw [List.isEmpty_eq_false_iff.mpr hheld, hchain, hfree]
      rfl)

/-! ### Activation, policy and tack sets (R476-R480, R484) -/

/-- Neither a split herd nor a lock forbids a change of tack sets. -/
def Unlocked (u : State) : Prop := u.herd.minority = false ∧ u.fw.locked = false

theorem tackCheck_of_unlocked {u : State} (h : Unlocked u) : tackCheck u = none := by
  obtain ⟨hmajority, hfree⟩ := h
  rw [tackCheck, lockCheck_of_unlocked hfree, minorityCheck, hmajority]
  rfl

theorem tackCheck_of_minority {u : State} (h : u.herd.minority = true) : tackCheck u = some .notPermittedMinority := by
  rw [tackCheck, minorityCheck_of_minority h]
  rfl

theorem fwActivate_begins : RunsOn .fwActivate 0x0C05 1
    (fun _ u => Unlocked u ∧ u.tan.joined = false ∧ (fwSlot u (1 - u.fw.running)).state = 2 ∧ u.fw.act = none ∧ u.fw.pair = none)
    (fun c u => beginActivation c.queue.val c.tag (pw c 0) u) :=
  runsOn_row fwActivateSpec (fun _ _ _ => rfl) (fun _ _ ⟨_, halone, _⟩ => if_pos (by rw [halone]; rfl))
    (hp := fun _ _ ⟨hfree, _⟩ => tackCheck_of_unlocked hfree)
    (hr := fun _ u ⟨_, halone, hcomplete, hact, hpair⟩ => by
      change (decide ((fwSlot u (1 - u.fw.running)).state = 2) && u.fw.act.isNone && u.fw.pair.isNone && pairAllows u) = true
      rw [decide_eq_true hcomplete, hact, hpair, pairAllows, halone]
      rfl)

theorem fwActivate_in_minority : Ends .fwActivate 0x0C05 1 (fun _ u => u.herd.minority = true) .notPermittedMinority :=
  ends_notPermitted fwActivateSpec (fun _ _ _ => rfl) (fun _ _ hminority => tackCheck_of_minority hminority)

theorem fwActivate_without_image : Ends .fwActivate 0x0C05 1
    (fun _ u => Unlocked u ∧ (fwSlot u (1 - u.fw.running)).state ≠ 2) .invalidState :=
  ends_notReady fwActivateSpec (fun _ _ _ => rfl)
    (fun _ u ⟨_, hstate⟩ => by
      change (decide ((fwSlot u (1 - u.fw.running)).state = 2) && u.fw.act.isNone && u.fw.pair.isNone && pairAllows u) = false
      rw [decide_eq_false hstate]
      rfl)
    (hp := fun _ _ ⟨hfree, _⟩ => tackCheck_of_unlocked hfree)

theorem fwPolicySet_runs : Runs .fwPolicySet 0x0C06 2
    (fun c u => pn c 0 < 2 ∧ pn c 1 ≤ 63 ∧ u.fw.locked = false ∧ (vaultSlot u (pn c 1)).state = 1 ∧ (vaultSlot u (pn c 1)).typ = 3)
    (fun _ _ => []) (fun c u => { u with fw := { u.fw with policy := bit (pw c 0) 0, policySlot := pn c 1 } }) :=
  runs_row fwPolicySetSpec
    (fun c _ ⟨hpolicy, hslot, _⟩ => by
      have hbit : fits c 0 1 = true := fits_iff.mpr hpolicy
      exact Bool.and_eq_true_iff.mpr ⟨hbit, within_slot hslot⟩)
    (fun _ _ _ => rfl) (hp := fun _ _ ⟨_, _, hfree, _⟩ => lockCheck_of_unlocked hfree)
    (hr := fun _ _ ⟨_, _, _, hstate, htype⟩ => Bool.and_eq_true_iff.mpr ⟨decide_eq_true hstate, decide_eq_true htype⟩)

theorem tackSave_starts : RunsOn .tackSave 0x0C10 1 (fun _ u => Unlocked u)
    (fun c u => addOp { kind := .tackSave (pw c 0) false, cmd := some (c.queue.val, c.tag)
                        tack := some (snapshot (pw c 0) u.fw.running u) } u) :=
  runsOn_row tackSaveSpec (fun _ _ _ => rfl) (fun _ _ _ => rfl) (hp := fun _ _ hfree => tackCheck_of_unlocked hfree)

theorem tackRevert_valid {c : Packet} (h : pn c 0 < 2) : tackRevertSpec.valid c = true := by
  have hbit : fits c 0 1 = true := fits_iff.mpr h
  exact hbit

theorem tackRevert_runs (t : Tack) : Runs .tackRevert 0x0C11 1
    (fun c u => pw c 0 = 0 ∧ Unlocked u ∧ u.fw.prev = some t ∧ u.fw.revertible = true ∧ u.fw.act = none ∧ u.fw.ops = [])
    (fun _ _ => [t.number])
    (fun _ u => { u with fw := { u.fw with active := some t, prev := u.fw.active, tackSlot := 1 - u.fw.tackSlot } }) :=
  runs_row tackRevertSpec (fun c _ ⟨hlater, _⟩ => tackRevert_valid (by rw [pn, hlater]; decide))
    (fun c u ⟨hlater, _, hprev, _⟩ => by
      have hbit : bit (pw c 0) 0 = false := by rw [hlater]; rfl
      refine (if_neg (by rw [hbit]; exact Bool.false_ne_true)).trans ?_
      simp only [swapTacks, hprev]
      rfl)
    (hp := fun _ _ ⟨_, hfree, _⟩ => tackCheck_of_unlocked hfree)
    (hr := fun _ u ⟨_, _, hprev, hrevertible, hact, hidle⟩ => by
      change (u.fw.prev.isSome && u.fw.revertible && u.fw.act.isNone && !savePending u) = true
      rw [hprev, hrevertible, hact, savePending, hidle]
      rfl)

theorem tackRevert_of_unrevertible : Ends .tackRevert 0x0C11 1
    (fun c u => pn c 0 < 2 ∧ Unlocked u ∧ u.fw.revertible = false) .invalidState :=
  ends_notReady tackRevertSpec (fun _ _ ⟨hnow, _⟩ => tackRevert_valid hnow)
    (fun _ u ⟨_, _, hrevertible⟩ => by
      change (u.fw.prev.isSome && u.fw.revertible && u.fw.act.isNone && !savePending u) = false
      rw [hrevertible, Bool.and_false]
      rfl)
    (hp := fun _ _ ⟨_, hfree, _⟩ => tackCheck_of_unlocked hfree)

theorem tackStatus_runs (a p : Tack) : Runs .tackStatus 0x0C12 0 (fun _ u => u.fw.active = some a ∧ u.fw.prev = some p)
    (fun _ u => [a.number, a.label, w32 a.slot, p.number, p.label, w32 p.slot, w32 (flag u.fw.revertible + 2 * flag u.fw.locked)])
    (fun _ u => u) :=
  runs_row tackStatusSpec (fun _ _ _ => rfl) fun _ u ⟨hactive, hprev⟩ => by
    simp only [tackStatusSpec, plainSpec, tackWords, hactive, hprev]
    rfl

theorem tackLock_locks : Runs .tackLock 0x0C13 2 (fun c _ => pw c 0 = 1) (fun _ _ => [])
    (fun _ u => { u with fw := { u.fw with locked := true } }) :=
  runs_row tackLockSpec (fun c _ hlock => by simp [tackLockSpec, plainSpec, hlock])
    (fun c u hlock => by
      change done (setFw u { u.fw with locked := bit (pw c 0) 0 }) = _
      rw [hlock]
      rfl)

theorem tackLock_unlocks : Runs .tackLock 0x0C13 2 (fun c _ => pw c 0 = 0 ∧ pw c 1 = 0x756E6C6B) (fun _ _ => [])
    (fun _ u => { u with fw := { u.fw with locked := false } }) :=
  runs_row tackLockSpec (fun c _ ⟨hopen, hword⟩ => by simp [tackLockSpec, plainSpec, hopen, hword])
    (fun c u ⟨hopen, _⟩ => by
      change done (setFw u { u.fw with locked := bit (pw c 0) 0 }) = _
      rw [hopen]
      rfl)

theorem tackLock_of_wrong_word : Ends .tackLock 0x0C13 2 (fun c _ => pw c 0 = 0 ∧ pw c 1 ≠ 0x756E6C6B) .invalidParameter :=
  ends_check tackLockSpec (fun _ _ => rfl) rfl (fun _ _ _ => rfl) (by rintro _ ⟨⟩)
    (fun c _ ⟨hopen, hword⟩ => .inl ⟨by
      have hvalid : tackLockSpec.valid c = false := by simpa [tackLockSpec, plainSpec, hopen] using hword
      rw [hvalid, Bool.false_and], rfl⟩)

/-- Settles O53: each command is a row of the table whose checks its clause excludes, and a flash operation that meets an idle
flash manager begins at once. -/
theorem flashCommandsRun : Obligations.FlashCommandsRun :=
  ⟨flashRead_runs, flashRead_waits, flashRead_of_marked_sector, flashRead_beyond_the_end, flashProgram_starts,
    flashProgram_of_written_target, flashErase_starts, runs_row flashStatusSpec (fun _ _ _ => rfl) (fun _ _ _ => rfl), fwBegin_starts,
    fwBegin_locked, fwBegin_without_flash, loadSlot_of_active, fwBlockWrite_takes_block, fwBlockWrite_of_held_block,
    fwBlockWrite_out_of_order, runs_row fwStatusSpec (fun _ _ _ => rfl) (fun _ _ _ => rfl), fwChainSet_runs, fwChainResume_sends,
    fwActivate_begins, fwActivate_in_minority, fwActivate_without_image, fwPolicySet_runs, tackSave_starts,
    fun _ _ _ => ⟨rfl, rfl, rfl, rfl⟩, tackRevert_runs, tackRevert_of_unrevertible, tackStatus_runs, tackLock_locks,
    tackLock_unlocks, tackLock_of_wrong_word⟩

end Sys2Proof.Proofs
end

section
/-! Settles Obligations.FlashEventsAct: flash operations that end, the image chain and activations. -/

namespace Sys2Proof.Proofs

open Sys2Proof.Machine Sys2Proof.Laws Sys2Proof.Safety

-- Proofs one after another: the threads of many at once would pass the memory that the check allows.
set_option Elab.async false

/-! ### What flash operations keep -/

/-- A fill of n bytes with one value. -/
theorem memGet_fill {d v : Byte} (n a x : Nat) (m : List Host.Cell) (h : Memory.wf d m = true) :
    memGet d (memSetAll d m a (List.replicate n v)) x = if a ≤ x ∧ x < a + n then v else memGet d m x := by
  induction n generalizing a m with
  | zero =>
    rw [if_neg (by omega)]
    rfl
  | succ n ih =>
    change memGet d (memSetAll d (memSet d m a v) (a + 1) (List.replicate n v)) x = _
    rw [ih (a + 1) _ (memSet_wf d m a v h), memGet_memSet d m a x v h]
    by_cases hx : x = a
    · rw [if_neg (by omega), if_pos hx, if_pos (by omega)]
    · rw [if_neg hx]
      exact ite_congr (propext (by omega)) (fun _ => rfl) (fun _ => rfl)

/-- An erase's journal touches the journal alone. -/
theorem journalErased_eq (first n : Nat) (s : State) :
    ∃ l, journalErased first n s = setFw s { s.fw with journal := l } := by
  have hfold : ∀ (ks : List Nat) (t : State), ∃ l, ks.foldl (fun t i => if i + 1 = n then journal 3 (first + i) t
      else journal 0 (first + i + 1) (journal 3 (first + i) t)) t = setFw t { t.fw with journal := l } := by
    intro ks
    induction ks with
    | nil => exact fun t => ⟨t.fw.journal, rfl⟩
    | cons i ks ih =>
      intro t
      by_cases hlast : i + 1 = n
      · obtain ⟨l, hl⟩ := ih (journal 3 (first + i) t)
        exact ⟨l, (congrArg (ks.foldl _) (if_pos hlast)).trans (hl.trans rfl)⟩
      · obtain ⟨l, hl⟩ := ih (journal 0 (first + i + 1) (journal 3 (first + i) t))
        exact ⟨l, (congrArg (ks.foldl _) (if_neg hlast)).trans (hl.trans rfl)⟩
  exact hfold _ s

section Operations

variable {α : Type} (P : State → α)

/-- A completion touches the commands, the tandem's digest items and what is reported alone. -/
theorem keeps_completion (hP : ∀ s a b c d e, P { s with cmd := a, tan := b, trb := c, que := d, out := e } = P s)
    (q : Nat) (tag : BitVec 16) (st : Status) (r : List Word) (s : State) : P (complete q tag st r s) = P s := by
  have hcmd : ∀ t v, P { t with cmd := v } = P t := fun t v => hP t v t.tan t.trb t.que t.out
  unfold complete
  split
  · next e _ =>
    obtain ⟨hother, -⟩ := sendReply_replied { e with replyDrop := e.replyDrop || (nonHolder s && !runsWithoutReins e.opcode) } st r
      (dropInFlight q tag s)
    rw [hother]
    exact (hP _ _ _ _ _ _).trans (hcmd s _)
  · rfl

variable (hP : ∀ s a b c d e f g h i j k, P { s with
  fw := { s.fw with slots := a, prev := b, revertible := c, loading := d, journal := e, ops := f },
  cmd := g, tan := h, trb := i, que := j, out := k } = P s)

include hP

theorem keeps_setOps (l : List FlashOp) (s : State) : P (setFw s { s.fw with ops := l }) = P s :=
  hP s s.fw.slots s.fw.prev s.fw.revertible s.fw.loading s.fw.journal l s.cmd s.tan s.trb s.que s.out

theorem keeps_journal (kind sector : Nat) (s : State) : P (journal kind sector s) = P s :=
  hP s s.fw.slots s.fw.prev s.fw.revertible s.fw.loading _ s.fw.ops s.cmd s.tan s.trb s.que s.out

theorem keeps_startOp (o : FlashOp) (s : State) : P (startOp o s) = P s := by
  have hslots : ∀ t a b c d, P (setFw t { t.fw with slots := a, prev := b, revertible := c, loading := d }) = P t := fun t a b c d =>
    hP t a b c d t.fw.journal t.fw.ops t.cmd t.tan t.trb t.que t.out
  have hjournal := fun k => keeps_journal P hP 0 k s
  obtain ⟨kind, cmd, peer, tack, begun⟩ := o
  cases kind with
  | program a l => rfl
  | fwBlock k n b => rfl
  | erase k n => exact hjournal k
  | tackSave l a =>
    exact (hslots _ (journal 0 _ s).fw.slots none false (journal 0 _ s).fw.loading).trans (hjournal _)
  | fwBegin k n c =>
    have hbegun : ∀ u v w x, P (setFw (setFwSlot k v u) { (setFwSlot k v u).fw with revertible := w, loading := x }) = P u :=
      fun u v w x => hslots u (tabSet u.fw.slots k v) u.fw.prev w x
    exact (hbegun (journal 0 (fwSector k) s) _ _ _).trans (hjournal _)

theorem keeps_completeOp (o : FlashOp) (st : Status) (r : List Word) (s : State) : P (completeOp o st r s) = P s := by
  have hreply : ∀ t a b c d e, P { t with cmd := a, tan := b, trb := c, que := d, out := e } = P t := fun t =>
    hP t t.fw.slots t.fw.prev t.fw.revertible t.fw.loading t.fw.journal t.fw.ops
  unfold completeOp
  split
  · exact keeps_completion P hreply _ _ st r s
  · rfl

theorem keeps_startHead (n : Nat) (s : State) : P (startHead n s) = P s := by
  induction n generalizing s with
  | zero => rfl
  | succ n ih =>
    unfold startHead
    split
    · rfl
    · refine keeps_ite rfl ?_
      split
      · exact (ih _).trans ((keeps_completeOp P hP _ _ _ _).trans (keeps_setOps P hP _ s))
      · exact (keeps_setOps P hP _ _).trans (keeps_startOp P hP _ s)

theorem keeps_addOp (o : FlashOp) (s : State) : P (addOp o s) = P s :=
  (keeps_startHead P hP _ _).trans (keeps_setOps P hP _ s)

end Operations

theorem fw_complete (q : Nat) (tag : BitVec 16) (st : Status) (r : List Word) (s : State) : (complete q tag st r s).fw = s.fw :=
  keeps_completion State.fw (fun _ _ _ _ _ _ => rfl) q tag st r s

theorem mem_complete (q : Nat) (tag : BitVec 16) (st : Status) (r : List Word) (s : State) : (complete q tag st r s).mem = s.mem :=
  keeps_completion State.mem (fun _ _ _ _ _ _ => rfl) q tag st r s

theorem cfg_complete (q : Nat) (tag : BitVec 16) (st : Status) (r : List Word) (s : State) : (complete q tag st r s).cfg = s.cfg :=
  keeps_completion State.cfg (fun _ _ _ _ _ _ => rfl) q tag st r s

/-! ### FLASH_OPERATION_COMPLETE (R468, R469, R473, R478) -/

/-- The state in which the last operation takes its effect: its erases are journaled, and nothing is left to do. -/
def operationSpent (ok : Bool) (o : FlashOp) (s : State) : State :=
  let s1 := match eraseSpan s o.kind with
    | some (k, n) => if ok then journalErased k n s else s
    | none => s
  setFw s1 { s1.fw with ops := [] }

theorem operationSpent_of_no_erase {ok : Bool} {o : FlashOp} {s : State} (h : eraseSpan s o.kind = none) :
    operationSpent ok o s = { s with fw := { s.fw with ops := [] } } := by
  simp only [operationSpent, h]
  rfl

theorem operationSpent_of_erase {o : FlashOp} {s : State} {k n : Nat} (h : eraseSpan s o.kind = some (k, n)) :
    ∃ j, operationSpent true o s = { s with fw := { s.fw with ops := [], journal := j } } := by
  obtain ⟨j, hj⟩ := journalErased_eq k n s
  refine ⟨j, ?_⟩
  simp only [operationSpent, h, if_true, hj]
  rfl

theorem serveReads_of_none {s : State} (h : s.fw.reads = []) : serveReads s = s := by
  have hfw : { s.fw with reads := [] } = s.fw := by rw [← h]
  simp only [serveReads, h, List.filter_nil, List.foldl_nil, hfw]
  rfl

theorem flashOperationComplete_of_last {ok : Bool} {o : FlashOp} {s t : State} (hops : s.fw.ops = [o]) (hbegun : o.begun = true)
    (ht : (if ok then opDone o (operationSpent ok o s) else opFailed o (operationSpent ok o s)) = t) (hreads : t.fw.reads = [])
    (hlast : t.fw.ops = []) : exec (.flashOperationComplete ok) s = .next t := by
  have hrun : exec (.flashOperationComplete ok) s = .next (
      let s3 := serveReads (if ok then opDone o (operationSpent ok o s) else opFailed o (operationSpent ok o s))
      startHead s3.fw.ops.length s3) := by
    change execFlashOperationComplete ok s = _
    rw [execFlashOperationComplete, hops]
    exact congrArg Host.Outcome.next (if_neg (by rw [hbegun]; decide))
  rw [hrun, ht, serveReads_of_none hreads]
  dsimp only
  rw [hlast]
  rfl

/-- An operation whose last word is its command's completion from a state with nothing else to do. -/
theorem flashOperationComplete_replies {ok : Bool} {o : FlashOp} {s v : State} {q : Nat} {tag : BitVec 16} {st : Status} {r : List Word}
    (hops : s.fw.ops = [o]) (hbegun : o.begun = true)
    (hdone : (if ok then opDone o (operationSpent ok o s) else opFailed o (operationSpent ok o s)) = complete q tag st r v)
    (hreads : v.fw.reads = []) (hlast : v.fw.ops = []) : exec (.flashOperationComplete ok) s = .next (complete q tag st r v) :=
  flashOperationComplete_of_last hops hbegun hdone ((congrArg Fw.reads (fw_complete q tag st r v)).trans hreads)
    ((congrArg Fw.ops (fw_complete q tag st r v)).trans hlast)

theorem program_ends (a : Nat) (l : List Byte) (q : Nat) (t : BitVec 16) (s : State)
    (hops : s.fw.ops = [{ kind := .program a l, cmd := some (q, t), begun := true }]) (hreads : s.fw.reads = []) :
    exec (.flashOperationComplete true) s = .next (complete q t .ok [] { s with
      fw := { s.fw with ops := [] }, mem := { s.mem with flash := memSetAll 0xFF#8 s.mem.flash a l } }) :=
  flashOperationComplete_replies hops rfl rfl hreads rfl

theorem program_fails (o : FlashOp) (a : Nat) (l : List Byte) (q : Nat) (t : BitVec 16) (s : State) (hops : s.fw.ops = [o])
    (ho : o = { kind := .program a l, cmd := some (q, t), begun := true }) (hreads : s.fw.reads = []) :
    exec (.flashOperationComplete false) s =
      .next (complete q t .failedFlash [] (scramble a l.length { s with fw := { s.fw with ops := [] } })) := by
  subst ho
  exact flashOperationComplete_replies hops rfl rfl hreads rfl

theorem erase_ends (k n q : Nat) (t : BitVec 16) (s : State)
    (hops : s.fw.ops = [{ kind := .erase k n, cmd := some (q, t), begun := true }]) (hreads : s.fw.reads = []) (hk : 0x190 ≤ k)
    (hwf : Memory.wf 0xFF#8 s.mem.flash = true) :
    ∃ u, exec (.flashOperationComplete true) s = .next u ∧ u.fw.ops = []
      ∧ (∀ x, 65536 * k - 0x1900000 ≤ x → x < 65536 * (k + n) - 0x1900000 → memGet 0xFF#8 u.mem.flash x = 0xFF#8)
      ∧ (∀ x, (x < 65536 * k - 0x1900000 ∨ 65536 * (k + n) - 0x1900000 ≤ x)
          → memGet 0xFF#8 u.mem.flash x = memGet 0xFF#8 s.mem.flash x) := by
  obtain ⟨j, hj⟩ := operationSpent_of_erase (o := { kind := .erase k n, cmd := some (q, t), begun := true }) (s := s) rfl
  have hdone : opDone { kind := .erase k n, cmd := some (q, t), begun := true } (operationSpent true _ s) = complete q t .ok []
      (flashWrite (65536 * k - hostArea) (List.replicate (65536 * n) 0xFF#8) { s with fw := { s.fw with ops := [], journal := j } }) :=
    congrArg (opDone _) hj
  have hflash : ∀ x, memGet 0xFF#8 (complete q t .ok [] (flashWrite (65536 * k - hostArea) (List.replicate (65536 * n) 0xFF#8)
      { s with fw := { s.fw with ops := [], journal := j } })).mem.flash x =
      if 65536 * k - hostArea ≤ x ∧ x < 65536 * k - hostArea + 65536 * n then 0xFF#8 else memGet 0xFF#8 s.mem.flash x := fun x => by
    rw [mem_complete]
    exact memGet_fill _ _ _ _ hwf
  refine ⟨_, flashOperationComplete_replies hops rfl hdone hreads rfl, congrArg Fw.ops (fw_complete _ _ _ _ _), fun x hlo hhi => ?_,
    fun x hout => ?_⟩
  · rw [hflash, hostArea, if_pos (by omega)]
  · rw [hflash, hostArea, if_neg (by omega)]

theorem tackSave_ends (v : Tack) (l : Word) (q : Nat) (t : BitVec 16) (s : State)
    (hops : s.fw.ops = [{ kind := .tackSave l false, cmd := some (q, t), tack := some v, begun := true }]) (hreads : s.fw.reads = []) :
    ∃ u, exec (.flashOperationComplete true) s = .next u ∧ u.fw.active = some { v with number := s.fw.nextTack }
      ∧ u.fw.prev = s.fw.active ∧ u.fw.revertible = s.fw.active.isSome ∧ u.fw.nextTack = s.fw.nextTack + 1 ∧ u.cfg = s.cfg := by
  obtain ⟨j, hj⟩ := operationSpent_of_erase (o := { kind := .tackSave l false, cmd := some (q, t), tack := some v, begun := true })
    (s := s) rfl
  have hsaved : ∀ u : State, opDone { kind := .tackSave l false, cmd := some (q, t), tack := some v, begun := true } u =
      complete q t .ok [u.fw.nextTack] { u with fw := { u.fw with
        prev := u.fw.active, revertible := u.fw.active.isSome, active := some { v with number := u.fw.nextTack },
        tackSlot := 1 - u.fw.tackSlot, nextTack := u.fw.nextTack + 1 } } := fun _ => rfl
  have hfw := fw_complete q t .ok [s.fw.nextTack] { s with fw := { s.fw with
    ops := [], journal := j, prev := s.fw.active, revertible := s.fw.active.isSome, active := some { v with number := s.fw.nextTack },
    tackSlot := 1 - s.fw.tackSlot, nextTack := s.fw.nextTack + 1 } }
  exact ⟨_, flashOperationComplete_replies hops rfl ((congrArg (opDone _) hj).trans (hsaved _)) hreads rfl, congrArg Fw.active hfw,
    congrArg Fw.prev hfw, congrArg Fw.revertible hfw, congrArg Fw.nextTack hfw, cfg_complete _ _ _ _ _⟩

theorem fwBegin_ends (k n q : Nat) (t : BitVec 16) (s : State)
    (hops : s.fw.ops = [{ kind := .fwBegin k n false, cmd := some (q, t), begun := true }]) (hreads : s.fw.reads = []) :
    ∃ u, exec (.flashOperationComplete true) s = .next u ∧ fwSlot u k = { state := 1, count := n } ∧ u.fw.loading = some k := by
  obtain ⟨j, hj⟩ := operationSpent_of_erase (o := { kind := .fwBegin k n false, cmd := some (q, t), begun := true }) (s := s) rfl
  have hbegun : ∀ u : State, opDone { kind := .fwBegin k n false, cmd := some (q, t), begun := true } u =
      complete q t .ok [w32 k] { u with fw := { u.fw with
        slots := tabSet u.fw.slots k { state := 1, count := n }, loading := some k, chainState := 0, chainAt := 0, chainTries := 0 } } :=
    fun _ => rfl
  have hfw := fw_complete q t .ok [w32 k] { s with fw := { s.fw with
    ops := [], journal := j, slots := tabSet s.fw.slots k { state := 1, count := n }, loading := some k, chainState := 0, chainAt := 0,
    chainTries := 0 } }
  refine ⟨_, flashOperationComplete_replies hops rfl ((congrArg (opDone _) hj).trans (hbegun _)) hreads rfl, ?_, congrArg Fw.loading hfw⟩
  rw [fwSlot, hfw]
  exact (tabGet_tabSet s.fw.slots k k _ _).trans (if_pos rfl)

/-! ### Sectors marked for re-erase (R470) -/

theorem flashSectorReerase_of_marked {k : Nat} {s : State} (hready : s.dev.dataReady = true) (hmarked : k ∈ s.fw.reerase)
    (hk : 0x190 ≤ k) : exec (.flashSectorReerase k) s = .next (flashWrite (65536 * k - hostArea) (List.replicate 65536 0xFF#8)
      (journal 3 k (journal 0 k (setFw s { s.fw with reerase := s.fw.reerase.filter (· != k) })))) := by
  have hdue : (s.dev.dataReady && s.fw.reerase.contains k) = true := by rw [hready, List.contains_iff_mem.mpr hmarked]; rfl
  have harea : hostArea ≤ 65536 * k := by rw [hostArea]; omega
  change execFlashSectorReerase k s = _
  rw [execFlashSectorReerase, if_pos hdue]
  dsimp only
  rw [if_pos harea]

theorem reerase_erases (k : Nat) (s : State) (hready : s.dev.dataReady = true) (hmarked : k ∈ s.fw.reerase) (hk : 0x190 ≤ k)
    (hwf : Memory.wf 0xFF#8 s.mem.flash = true) :
    ∃ u, exec (.flashSectorReerase k) s = .next u ∧ k ∉ u.fw.reerase
      ∧ (∀ x, 65536 * k - 0x1900000 ≤ x → x < 65536 * k - 0x1900000 + 65536 → memGet 0xFF#8 u.mem.flash x = 0xFF#8) := by
  refine ⟨_, flashSectorReerase_of_marked hready hmarked hk, ?_, fun x hlo hhi => ?_⟩
  · change k ∉ s.fw.reerase.filter (· != k)
    simp
  · have hwritten : ∀ (l : List Byte) (u : State), u.mem = s.mem → memGet 0xFF#8 (flashWrite (65536 * k - hostArea) l u).mem.flash x =
        memGet 0xFF#8 (memSetAll 0xFF#8 s.mem.flash (65536 * k - hostArea) l) x := fun l u hu => by
      rw [← hu]
      rfl
    rw [hwritten _ _ (by rfl), memGet_fill _ _ _ _ hwf, if_pos (by rw [hostArea]; omega)]

theorem reerase_of_unmarked (k : Nat) (s : State) (h : k ∉ s.fw.reerase) : exec (.flashSectorReerase k) s = .next s :=
  congrArg Host.Outcome.next (if_neg (by simp [h]))

/-! ### Images and the chain (R471-R475) -/

theorem slotWith_holds_one_more (v : FwSlot) (n : Nat) (b : List Byte) : (slotWith v n b).blocks = v.blocks ++ [b]
    ∧ (slotWith v n b).state = (if v.blocks.length + 1 < v.count then 1 else if payloadOk (v.blocks ++ [b]) then 2 else 3) := by
  have hheader : ∀ w : FwSlot, w = (if n = 0 then headerTaken b v else v) → w.blocks = v.blocks ∧ w.count = v.count := fun w hw => by
    subst hw
    split <;> exact ⟨rfl, rfl⟩
  obtain ⟨hblocks, hcount⟩ := hheader _ rfl
  unfold slotWith
  dsimp only
  rw [hblocks, hcount, List.length_append]
  exact ⟨rfl, rfl⟩

theorem headerCheck_eq (s : State) (h : List Byte) : headerCheck s h =
    if (Config.kelwaerAnchors.any fun pub => ecdsaOk pub (sha256 (h.take 52)) (slice h 52 64)) = false then some .failedSignature
    else counterCheck s h := by
  change (if (Config.kelwaerAnchors.any fun pub => ecdsaOk pub (sha256 (h.take 52)) (slice h 52 64)) = true then _ else _) = _
  cases Config.kelwaerAnchors.any fun pub => ecdsaOk pub (sha256 (h.take 52)) (slice h 52 64) <;> rfl

theorem counterCheck_without_root (s : State) (h : List Byte) (hpolicy : s.fw.policy = true) (hroot : s.vault.rootOk = false) :
    counterCheck s h = some .failedRootKey := by
  have hclosed : vaultOpen s = false := by rw [vaultOpen, hroot, Bool.and_false]
  simp [counterCheck, hpolicy, hclosed]

theorem fwChainBlock_taken (x : BlockIn) (s : State) (halone : s.tan.joined = false) (hlength : x.bytes.length = 4096)
    (hcrc : crc32c x.bytes = x.crc) (hflash : s.fw.flashOk = true) : exec (.fwChainBlock x) s = .next (takeChainBlock x s) := by
  change execFwChainBlock x s = _
  rw [execFwChainBlock, mirrorHerd_of_alone halone]
  exact congrArg Host.Outcome.next (if_pos (by rw [decide_eq_true hlength, decide_eq_true hcrc, hflash]; rfl))

theorem fwChainBlock_of_bad_crc (x : BlockIn) (s : State) (halone : s.tan.joined = false) (hcrc : crc32c x.bytes ≠ x.crc) :
    exec (.fwChainBlock x) s = .next s := by
  change execFwChainBlock x s = _
  rw [execFwChainBlock, mirrorHerd_of_alone halone]
  exact congrArg Host.Outcome.next (if_neg (by rw [decide_eq_false hcrc]; simp))

theorem takeChainBlock_of_next (x : BlockIn) (k : Nat) (s : State) (hheld : (heldBlocks s).length ≤ x.num) (hpayload : x.num ≠ 0)
    (hopen : openLoad s = some k) (hnext : x.num = (heldBlocks s).length + pendingBlocks s) (hlast : x.num < imageCount s) :
    takeChainBlock x s = addOp { kind := .fwBlock k x.num x.bytes, peer := some x.src.val } s := by
  have hnew : ¬ x.num < (heldBlocks s).length := by omega
  have hdue : (decide (x.num = (heldBlocks s).length + pendingBlocks s) && decide (x.num < imageCount s)) = true := by
    rw [decide_eq_true hnext, decide_eq_true hlast]
    rfl
  unfold takeChainBlock
  dsimp only
  rw [decide_eq_false hnew, Bool.false_and, Bool.false_and, if_neg Bool.false_ne_true, if_neg hpayload, hopen]
  exact if_pos hdue

theorem fwChainAck_taken (src : Fin 64) (e : Word) (n : Nat) (l : List Nat) (s : State) (halone : s.tan.joined = false)
    (hstate : s.fw.chainState = 1) (htries : 0 < s.fw.chainTries) (hchain : s.fw.chain = src.val :: l) (hepoch : oldEpoch s src e = false) :
    exec (.fwChainAck src e n) s = .next (takeChainAck n s) := by
  have hnext : chainNext s = some src.val := by rw [chainNext, hchain]; rfl
  change execFwChainAck src e n s = _
  rw [execFwChainAck, mirrorHerd_of_alone halone]
  exact congrArg Host.Outcome.next (if_pos (by
    rw [decide_eq_true hstate, decide_eq_true htries, decide_eq_true hnext, hepoch]
    rfl))

theorem fwChainAck_of_old_epoch (src : Fin 64) (e : Word) (n : Nat) (s : State) (halone : s.tan.joined = false)
    (hepoch : oldEpoch s src e = true) : exec (.fwChainAck src e n) s = .next s := by
  change execFwChainAck src e n s = _
  rw [execFwChainAck, mirrorHerd_of_alone halone]
  exact congrArg Host.Outcome.next (if_neg (by rw [hepoch]; simp))

theorem takeChainAck_of_whole_image (n : Nat) (s : State) (hresume : s.fw.resume = none) (hwhole : imageCount s ≤ n) :
    takeChainAck n s = { s with fw := { s.fw with chainAt := n, chainTries := 0, chainState := 3 } } := by
  have hanswer : ∀ t : State, t.fw.resume = none → answerResume n t = t := fun t ht => by simp only [answerResume, ht]
  have hpass : ∀ t : State, t.fw.chainState = 3 → passBlock t = t := fun t ht => if_neg (by rw [ht]; simp)
  unfold takeChainAck
  dsimp only
  rw [decide_eq_true hwhole, hanswer _ (by exact hresume), hpass _ (by rfl)]
  rfl

theorem fwChainAckTimeout_early (s : State) (h : periodDue .chainAck 100000000 s = false) : exec .fwChainAckTimeout s = .next s :=
  congrArg Host.Outcome.next (if_neg (by rw [h]; simp))

theorem fwChainAckTimeout_sends_again (s : State) (hstate : s.fw.chainState = 1) (htries : 0 < s.fw.chainTries)
    (hdue : periodDue .chainAck 100000000 s = true) : exec .fwChainAckTimeout s =
      .next (if s.fw.chainTries < 3 then sendBlock (s.fw.chainTries + 1) s else breakChain s) :=
  congrArg Host.Outcome.next (if_pos (by rw [decide_eq_true hstate, decide_eq_true htries, hdue]; rfl))

theorem breakChain_of_no_resume (h : Nat) (l : List Nat) (s : State) (hchain : s.fw.chain = h :: l) (hresume : s.fw.resume = none) :
    breakChain s = postEvent 0x0C01 h (w32 (heldBlocks s).length)
      { s with fw := { s.fw with chainState := 2, chainBreak := some h, chainTries := 0 } } := by
  have hnext : chainNext s = some h := by rw [chainNext, hchain]; rfl
  have hfw : { s.fw with chainState := 2, chainBreak := some h, chainTries := 0, resume := none } =
      { s.fw with chainState := 2, chainBreak := some h, chainTries := 0 } := by rw [← hresume]
  simp only [breakChain, hnext, hresume]
  rw [hfw]
  rfl

/-! ### Activation (R480) -/

theorem activationPauseEnd_restarts (q : Nat) (t : BitVec 16) (l : Word) (t0 : BitVec 64) (s : State) (hact : s.fw.act = some (q, t, l, t0))
    (hran : s.fw.actRan = false) (hpause : s.dev.actPause = false) (hothers : othersRun s q t = false) (halone : s.tan.joined = false) :
    exec .activationPauseEnd s = .next (abandonAll 0x80#8 { s with dev := { s.dev with actPause := true, cmdReady := false } }) := by
  have htan : ∀ u, (abandonAll 0x80#8 u).tan = u.tan := fun u => keeps_abandonAll State.tan (fun _ _ _ _ _ => rfl) 0x80#8 u
  change execActivationPauseEnd s = _
  rw [execActivationPauseEnd, hact]
  refine congrArg Host.Outcome.next ((if_neg (by rw [hran, hpause, hothers]; decide)).trans (if_neg ?_))
  rw [htan, halone]
  exact Bool.false_ne_true

theorem activationTimeout_ends (q : Nat) (t : BitVec 16) (l : Word) (t0 : BitVec 64) (s : State) (hact : s.fw.act = some (q, t, l, t0))
    (hran : s.fw.actRan = false) (hpause : s.dev.actPause = false) (hdue : reached s (t0 + 2000000000) = true) :
    exec .activationTimeout s = .next (complete q t .invalidState []
      { s with fw := { s.fw with act := none }, tan := { s.tan with fwStage := 0 } }) := by
  change execActivationTimeout s = _
  rw [execActivationTimeout, hact]
  exact congrArg Host.Outcome.next (if_neg (by rw [hran, hpause, show reached s (t0 + 2000000000#64) = true from hdue]; decide))

theorem activationFirmwareUp_decides (q : Nat) (t : BitVec 16) (l : Word) (t0 : BitVec 64) (s : State)
    (hact : s.fw.act = some (q, t, l, t0)) (hpause : s.dev.actPause = true) :
    exec (.activationFirmwareUp true) s = .next (firmwareRuns l s) ∧ exec (.activationFirmwareUp false) s = .next (firmwareFails q t s) := by
  change execActivationFirmwareUp true s = _ ∧ execActivationFirmwareUp false s = _
  rw [execActivationFirmwareUp, execActivationFirmwareUp, hact]
  have hpaused : ¬ (!s.dev.actPause) = true := by rw [hpause]; decide
  exact ⟨congrArg Host.Outcome.next ((if_neg hpaused).trans (if_pos rfl)),
    congrArg Host.Outcome.next ((if_neg hpaused).trans (if_neg Bool.false_ne_true))⟩

/-- The device as the new firmware serves, before its tack is saved. -/
def newFirmwareServes (s : State) : State :=
  let s1 := setFw s { s.fw with running := otherSlot s, actRan := true }
  endPause { s1 with dev := { s1.dev with fwVersion := (fwSlot s (otherSlot s)).version } }

/-- The tack save and a resynchronisation that follow touch flash operations, commands, the tandem and what is reported. -/
theorem keeps_firmwareRuns {α : Type} (P : State → α) (hP : ∀ s a b c d e f g h i j k, P { s with
      fw := { s.fw with slots := a, prev := b, revertible := c, loading := d, journal := e, ops := f },
      cmd := g, tan := h, trb := i, que := j, out := k } = P s) (l : Word) (s : State) :
    P (firmwareRuns l s) = P (newFirmwareServes s) := by
  have hresync : ∀ t, P (beginResync t) = P t := fun t =>
    hP t t.fw.slots t.fw.prev t.fw.revertible t.fw.loading t.fw.journal t.fw.ops t.cmd _ t.trb t.que t.out
  unfold firmwareRuns
  exact keeps_ite ((hresync _).trans (keeps_addOp P hP _ _)) (keeps_addOp P hP _ _)

theorem firmwareRuns_serves (l : Word) (s : State) : (firmwareRuns l s).fw.running = 1 - s.fw.running
    ∧ (firmwareRuns l s).dev.cmdReady = true ∧ (firmwareRuns l s).dev.actPause = false
    ∧ (firmwareRuns l s).dev.fwVersion = (fwSlot s (1 - s.fw.running)).version := by
  have hrunning := keeps_firmwareRuns (fun t => t.fw.running) (fun _ _ _ _ _ _ _ _ _ _ _ _ => rfl) l s
  have hdev := keeps_firmwareRuns State.dev (fun _ _ _ _ _ _ _ _ _ _ _ _ => rfl) l s
  rw [hdev]
  exact ⟨hrunning, rfl, rfl, rfl⟩

theorem keeps_firmwareFails {α : Type} (P : State → α)
    (hP : ∀ s a b c d e, P { s with cmd := a, tan := b, trb := c, que := d, out := e } = P s) (q : Nat) (t : BitVec 16) (s : State) :
    P (firmwareFails q t s) =
      P (let s1 := setFwSlot (otherSlot s) { fwSlot s (otherSlot s) with state := 3 } (endPause (abandonAll 0x80#8 s))
         setFw s1 { s1.fw with act := none }) := by
  have htan : ∀ u v, P { u with tan := v } = P u := fun u v => hP u u.cmd v u.trb u.que u.out
  have hraise : ∀ b u, P (raise b u) = P u := fun b u => keeps_raise b u P (fun v => hP v v.cmd v.tan)
  unfold firmwareFails
  refine keeps_ite ((htan _ _).trans ?_) ?_ <;>
    exact (keeps_completion P hP _ _ _ _ _).trans ((hraise _ _).trans (htan _ _))

theorem firmwareFails_serves (q : Nat) (t : BitVec 16) (s : State) : ∃ u, firmwareFails q t s = u ∧ u.fw.running = s.fw.running
    ∧ (fwSlot u (1 - s.fw.running)).state = 3 ∧ trouble u .activationFail = true ∧ u.dev.cmdReady = true ∧ u.fw.act = none := by
  have hfwAbandon : (abandonAll 0x80#8 s).fw = s.fw := keeps_abandonAll State.fw (fun _ _ _ _ _ => rfl) 0x80#8 s
  have hfw : (firmwareFails q t s).fw = { s.fw with
      slots := tabSet s.fw.slots (1 - s.fw.running) { fwSlot s (1 - s.fw.running) with state := 3 }, act := none } := by
    have hends : (firmwareFails q t s).fw = { (abandonAll 0x80#8 s).fw with
        slots := tabSet (abandonAll 0x80#8 s).fw.slots (otherSlot s) { fwSlot s (otherSlot s) with state := 3 }, act := none } :=
      (keeps_firmwareFails State.fw (fun _ _ _ _ _ _ => rfl) q t s).trans rfl
    rw [hends, hfwAbandon]
    rfl
  have hdev := keeps_firmwareFails State.dev (fun _ _ _ _ _ _ => rfl) q t s
  refine ⟨_, rfl, (congrArg Fw.running hfw).trans rfl, ?_, ?_, congrArg Dev.cmdReady hdev, (congrArg Fw.act hfw).trans rfl⟩
  · rw [fwSlot, hfw, tabGet_tabSet, if_pos rfl]
  · have hcomplete : ∀ u : State, trouble (complete q t .failedHardware [] (raise .activationFail u)) .activationFail = true := fun u =>
      noneCleared_complete _ _ _ _ _ _ (trouble_raise _ _)
    have hresync : ∀ u : State, trouble u .activationFail = true → trouble (beginResync u) .activationFail = true := fun u hu =>
      noneCleared_of_trb (s := u) rfl _ hu
    unfold firmwareFails
    dsimp only
    split
    · exact hresync _ (hcomplete _)
    · exact hcomplete _

/-- Settles O54: an operation ends by what its kind leaves and its completion, with nothing else waiting; the chain and an activation by
the branch that each clause's premises select. -/
theorem flashEventsAct : Obligations.FlashEventsAct :=
  ⟨program_ends, erase_ends, tackSave_ends, fwBegin_ends, program_fails, reerase_erases, reerase_of_unmarked, slotWith_holds_one_more,
    headerCheck_eq, counterCheck_without_root, fwChainBlock_taken, fwChainBlock_of_bad_crc, takeChainBlock_of_next, fwChainAck_taken,
    fwChainAck_of_old_epoch, takeChainAck_of_whole_image, fwChainAckTimeout_early, fwChainAckTimeout_sends_again, breakChain_of_no_resume,
    activationPauseEnd_restarts, activationTimeout_ends, activationFirmwareUp_decides, firmwareRuns_serves, firmwareFails_serves⟩

end Sys2Proof.Proofs
end

section
/-! Settles Obligations.CommandsComplete: every well-formed command leads to a next state. -/

namespace Sys2Proof.Proofs

open Sys2Proof.Machine Sys2Proof.Laws Sys2Proof.Safety

-- Proofs one after another: the threads of many at once would pass the memory that the check allows.
set_option Elab.async false

/-- An outcome that is a next state. -/
def Completes (o : Host.Outcome State Fault Refusal) : Prop := ∃ t, o = .next t

theorem completes_next {t : State} : Completes (.next t) := ⟨t, rfl⟩

theorem completes_ite {c : Prop} [Decidable c] {a b : Host.Outcome State Fault Refusal} (ha : Completes a) (hb : Completes b) :
    Completes (if c then a else b) := by split <;> assumption

theorem completes_choice {c : Prop} [Decidable c] {t u : State} : Completes (if c then .next t else .next u) :=
  completes_ite completes_next completes_next

/-! ### Events that look something up: each branch is a next state -/

theorem completes_laneLoss (p : Fin 16) (s : State) : Completes (execLaneLoss p s) := by
  unfold execLaneLoss
  split
  exacts [completes_choice, completes_next]

theorem completes_preambleTimeout (t : Fin 4096) (s : State) : Completes (execPreambleTimeout t s) := by
  unfold execPreambleTimeout
  split
  exacts [completes_choice, completes_next]

theorem completes_pilot (t : Fin 4096) (offset : Word) (stop : BitVec 64) (s : State) : Completes (execPilot t offset stop s) := by
  unfold execPilot
  split
  exacts [completes_choice, completes_next]

theorem completes_headerResult (t : Fin 4096) (x : HeaderIn) (s : State) : Completes (execHeaderResult t x s) := by
  unfold execHeaderResult
  split
  exacts [completes_ite completes_next (completes_ite completes_next completes_choice), completes_next]

theorem completes_syncDecision (t : Fin 4096) (k1 k2 : Nat) (tStart : BitVec 64) (s : State) : Completes (execSyncDecision t k1 k2 tStart s) := by
  unfold execSyncDecision
  split
  exacts [completes_ite completes_next completes_choice, completes_next]

theorem completes_trackLastSymbol (t : Fin 4096) (x : LastIn) (s : State) : Completes (execTrackLastSymbol t x s) := by
  unfold execTrackLastSymbol
  split
  exacts [completes_ite completes_next completes_choice, completes_next]

theorem completes_decoderResult (x : DecodeIn) (s : State) : Completes (execDecoderResult x s) := by
  unfold execDecoderResult
  split
  exacts [completes_next, completes_next]

theorem completes_withdrawalDrainComplete (q : Fin 16) (tag : BitVec 16) (s : State) : Completes (execWithdrawalDrainComplete q tag s) := by
  unfold execWithdrawalDrainComplete
  split
  exacts [completes_choice, completes_next]

theorem completes_beamTableSwap (p : Fin 4) (tx : Bool) (s : State) : Completes (execBeamTableSwap p tx s) := by
  unfold execBeamTableSwap
  split
  exacts [completes_choice, completes_next]

theorem completes_portScriptStart (p : Fin 16) (s : State) : Completes (execPortScriptStart p s) := by
  unfold execPortScriptStart
  dsimp only
  split
  exacts [completes_next, completes_next]

theorem completes_portScriptComplete (p : Fin 16) (cls : Nat) (received : List Word) (s : State) : Completes (execPortScriptComplete p cls received s) := by
  unfold execPortScriptComplete
  split
  exacts [completes_next, completes_choice]

theorem completes_cutSubtractionStart (job : Nat) (s : State) : Completes (execCutSubtractionStart job s) := by
  unfold execCutSubtractionStart
  split
  exacts [completes_choice, completes_next]

theorem completes_cutSubtractionEnd (job : Nat) (p : Fin 4) (s : State) : Completes (execCutSubtractionEnd job p s) := by
  unfold execCutSubtractionEnd
  split
  exacts [completes_choice, completes_next]

theorem completes_cutJobComplete (job : Nat) (s : State) : Completes (execCutJobComplete job s) := by
  unfold execCutJobComplete
  split
  exacts [completes_choice, completes_next]

theorem completes_cutJobExpired (job progress : Nat) (s : State) : Completes (execCutJobExpired job progress s) := by
  unfold execCutJobExpired
  split
  exacts [completes_ite completes_next (completes_ite completes_next completes_choice), completes_next]

theorem completes_cutJobRelease (job : Nat) (s : State) : Completes (execCutJobRelease job s) := by
  unfold execCutJobRelease
  split
  exacts [completes_choice, completes_next]

theorem completes_combineWindowExpiry (set : Nat) (s : State) : Completes (execCombineWindowExpiry set s) := by
  unfold execCombineWindowExpiry
  split
  exacts [completes_choice, completes_next]

theorem completes_linkEngineFrame (s : State) : Completes (execLinkEngineFrame s) := by
  unfold execLinkEngineFrame
  split
  exacts [completes_next, completes_next]

theorem completes_epochOverlapEnd (n : Fin 16) (s : State) : Completes (execEpochOverlapEnd n s) := by
  unfold execEpochOverlapEnd
  split
  exacts [completes_choice, completes_next]

theorem completes_imageRoundComplete (id : BitVec 16) (s : State) : Completes (execImageRoundComplete id s) := by
  unfold execImageRoundComplete
  split
  exacts [completes_choice, completes_next]

theorem completes_reportWaitExpiry (id : BitVec 16) (s : State) : Completes (execReportWaitExpiry id s) := by
  unfold execReportWaitExpiry
  split
  exacts [completes_ite completes_next (completes_ite completes_next completes_choice), completes_next]

theorem completes_coxGrantJudged (tx : Nat) (grant : Bool) (s : State) : Completes (execCoxGrantJudged tx grant s) := by
  unfold execCoxGrantJudged
  split
  exacts [completes_next, completes_ite completes_next completes_choice]

theorem completes_prep (tx : Nat) (p : Fin 4) (s : State) : Completes (execPrep tx p s) := by
  unfold execPrep
  split
  exacts [completes_next, completes_choice]

theorem completes_txSwitchOn (tx : Nat) (s : State) : Completes (execTxSwitchOn tx s) := by
  unfold execTxSwitchOn
  split
  exacts [completes_next, completes_choice]

theorem completes_paenAssert (tx : Nat) (s : State) : Completes (execPaenAssert tx s) := by
  unfold execPaenAssert
  split
  exacts [completes_next, completes_choice]

theorem completes_firstSampleRelease (tx : Nat) (inTime : Bool) (s : State) : Completes (execFirstSampleRelease tx inTime s) := by
  unfold execFirstSampleRelease
  split
  exacts [completes_next, completes_ite completes_next (completes_ite completes_next (completes_ite completes_next completes_choice))]

theorem completes_txUnderrun (tx : Nat) (s : State) : Completes (execTxUnderrun tx s) := by
  unfold execTxUnderrun
  split
  exacts [completes_next, completes_choice]

theorem completes_transmissionEnd (tx : Nat) (s : State) : Completes (execTransmissionEnd tx s) := by
  unfold execTransmissionEnd
  split
  exacts [completes_next, completes_choice]

theorem completes_paenRelease (tx : Nat) (s : State) : Completes (execPaenRelease tx s) := by
  unfold execPaenRelease
  split
  exacts [completes_next, completes_choice]

theorem completes_returnRx (tx : Nat) (s : State) : Completes (execReturnRx tx s) := by
  unfold execReturnRx
  split
  exacts [completes_next, completes_choice]

theorem completes_ownTransmissionSpanEnd (p : Fin 4) (s : State) : Completes (execOwnTransmissionSpanEnd p s) := by
  unfold execOwnTransmissionSpanEnd
  split
  exacts [completes_choice, completes_next]

theorem completes_dlLifetimeExpiry (seq : Nat) (s : State) : Completes (execDlLifetimeExpiry seq s) := by
  unfold execDlLifetimeExpiry
  split
  exacts [completes_choice, completes_next]

theorem completes_rckHopLock (r : Fin 4) (ns : Nat) (s : State) : Completes (execRckHopLock r ns s) := by
  unfold execRckHopLock
  dsimp only
  split
  exacts [completes_next, completes_choice]

theorem completes_laneRelink (p : Fin 16) (arrival : Fin 128) (s : State) : Completes (execLaneRelink p arrival s) := by
  unfold execLaneRelink
  dsimp only
  split
  exacts [completes_ite completes_next (completes_ite completes_next completes_choice), completes_next]

theorem completes_homeSwitch (x : SwitchIn) (s : State) : Completes (execHomeSwitch x s) := by
  unfold execHomeSwitch
  dsimp only
  split
  exacts [completes_choice, completes_next, completes_next, completes_next, completes_next]

theorem completes_decoderQueueEntry (s : State) : Completes (execDecoderQueueEntry s) := by
  refine completes_ite completes_next ?_
  split
  exacts [completes_next, completes_next]

theorem completes_withdrawalDrainTimeout (q : Fin 16) (tag : BitVec 16) (s : State) : Completes (execWithdrawalDrainTimeout q tag s) := by
  unfold execWithdrawalDrainTimeout
  split
  · refine completes_ite completes_next ?_
    dsimp only
    split
    exacts [completes_choice, completes_next]
  · exact completes_next

theorem completes_residueDetection (job : Nat) (d : DetectIn) (redemod : Option RedemodIn) (s : State) :
    Completes (execResidueDetection job d redemod s) := by
  unfold execResidueDetection
  split
  · refine completes_ite completes_next ?_
    split
    · split
      exacts [completes_next, completes_next]
    · exact completes_next
  · exact completes_next

theorem completes_combineDecodeResult (set : Nat) (x : DecodeIn) (s : State) : Completes (execCombineDecodeResult set x s) := by
  unfold execCombineDecodeResult
  split
  · exact completes_next
  · split
    · exact completes_next
    · split
      exacts [completes_next, completes_choice]

theorem completes_homeAck (x : AckIn) (s : State) : Completes (execHomeAck x s) := by
  unfold execHomeAck
  dsimp only
  split
  · exact completes_next
  · split
    exacts [completes_next, completes_choice]

theorem completes_rendezvousCandidatePass (index : Nat) (cell : Fin 4) (asn : BitVec 40) (s : State) :
    Completes (execRendezvousCandidatePass index cell asn s) := by
  unfold execRendezvousCandidatePass
  dsimp only
  split
  · exact completes_next
  · split
    exacts [completes_choice, completes_next]

theorem completes_candidateOutcome (x : OutcomeIn) (s : State) : Completes (execCandidateOutcome x s) := by
  unfold execCandidateOutcome
  dsimp only
  split
  · exact completes_next
  · split
    exacts [completes_next, completes_next]

theorem completes_frameBuild (tx : Nat) (s : State) : Completes (execFrameBuild tx s) := by
  unfold execFrameBuild
  split
  · exact completes_next
  · refine completes_ite completes_next ?_
    split
    exacts [completes_next, completes_next]

theorem completes_coxRequestRise (p : Fin 4) (tx : Option Nat) (asn : BitVec 40) (s : State) : Completes (execCoxRequestRise p tx asn s) := by
  unfold execCoxRequestRise
  dsimp only
  split
  · split
    exacts [completes_choice, completes_next]
  · exact completes_choice

theorem completes_hostReset (kind : HostResetKind) (s : State) : Completes (execHostReset kind s) := by
  cases kind <;> exact completes_next

/-! ### Rows whose operands must be their own -/

theorem completes_registerWrite {off : BitVec 20} {wide : Bool} (v : BitVec 64) (s : State)
    (h : supported off (if wide then 8 else 4) = true) : Completes (exec (.registerWrite off wide v) s) := by
  change Completes (execRegisterWrite off wide v s)
  rw [execRegisterWrite, h]
  exact completes_choice

theorem registerWrite_of_unsupported {off : BitVec 20} {wide : Bool} (v : BitVec 64) (s : State)
    (h : supported off (if wide then 8 else 4) = false) : exec (.registerWrite off wide v) s = .fault .illFormed := by
  change execRegisterWrite off wide v s = _
  rw [execRegisterWrite, h]
  rfl

theorem unsupportedRequest_of_supported {off : BitVec 20} {size : Nat} (w : Bool) (s : State) (h : supported off size = true) :
    exec (.unsupportedRequest off size w) s = .fault .illFormed := by
  change execUnsupportedRequest off size w s = _
  unfold execUnsupportedRequest
  split
  · rfl
  · next hnot => exact absurd (hnot.symm.trans h) Bool.false_ne_true

/-! ### Every row -/

theorem exec_completes (i : Instr) (s : State) (h : wellFormed i = true) : Completes (exec i s) := by
  cases i with
  | undefinedOpcode op c => exact ⟨_, if_neg (by simpa [wellFormed] using h)⟩
  | cmdMalformed q n => exact ⟨_, if_neg (by simpa [wellFormed] using h)⟩
  | arm q v => exact ⟨_, if_pos h⟩
  | dropRest q v => exact ⟨_, if_pos h⟩
  | ctrlReset q v => exact ⟨_, if_pos h⟩
  | gtClear t v => exact ⟨_, if_pos h⟩
  | registerWrite off wide v => exact completes_registerWrite v s h
  | unsupportedRequest off size w => exact ⟨_, exec_unsupportedRequest (by simpa [wellFormed] using h) w s⟩
  | laneLoss p => exact completes_laneLoss p s
  | preambleTimeout t => exact completes_preambleTimeout t s
  | pilot t offset stop => exact completes_pilot t offset stop s
  | headerResult t x => exact completes_headerResult t x s
  | syncDecision t k1 k2 tStart => exact completes_syncDecision t k1 k2 tStart s
  | trackLastSymbol t x => exact completes_trackLastSymbol t x s
  | decoderResult x => exact completes_decoderResult x s
  | withdrawalDrainComplete q tag => exact completes_withdrawalDrainComplete q tag s
  | beamTableSwap p tx => exact completes_beamTableSwap p tx s
  | portScriptStart p => exact completes_portScriptStart p s
  | portScriptComplete p cls received => exact completes_portScriptComplete p cls received s
  | cutSubtractionStart job => exact completes_cutSubtractionStart job s
  | cutSubtractionEnd job p => exact completes_cutSubtractionEnd job p s
  | cutJobComplete job => exact completes_cutJobComplete job s
  | cutJobExpired job progress => exact completes_cutJobExpired job progress s
  | cutJobRelease job => exact completes_cutJobRelease job s
  | combineWindowExpiry set => exact completes_combineWindowExpiry set s
  | linkEngineFrame => exact completes_linkEngineFrame s
  | epochOverlapEnd n => exact completes_epochOverlapEnd n s
  | imageRoundComplete id => exact completes_imageRoundComplete id s
  | reportWaitExpiry id => exact completes_reportWaitExpiry id s
  | coxGrantJudged tx grant => exact completes_coxGrantJudged tx grant s
  | prep tx p => exact completes_prep tx p s
  | txSwitchOn tx => exact completes_txSwitchOn tx s
  | paenAssert tx => exact completes_paenAssert tx s
  | firstSampleRelease tx inTime => exact completes_firstSampleRelease tx inTime s
  | txUnderrun tx => exact completes_txUnderrun tx s
  | transmissionEnd tx => exact completes_transmissionEnd tx s
  | paenRelease tx => exact completes_paenRelease tx s
  | returnRx tx => exact completes_returnRx tx s
  | ownTransmissionSpanEnd p => exact completes_ownTransmissionSpanEnd p s
  | dlLifetimeExpiry seq => exact completes_dlLifetimeExpiry seq s
  | rckHopLock r ns => exact completes_rckHopLock r ns s
  | laneRelink p arrival => exact completes_laneRelink p arrival s
  | homeSwitch x => exact completes_homeSwitch x s
  | decoderQueueEntry => exact completes_decoderQueueEntry s
  | withdrawalDrainTimeout q tag => exact completes_withdrawalDrainTimeout q tag s
  | residueDetection job d redemod => exact completes_residueDetection job d redemod s
  | combineDecodeResult set x => exact completes_combineDecodeResult set x s
  | homeAck x => exact completes_homeAck x s
  | rendezvousCandidatePass index cell asn => exact completes_rendezvousCandidatePass index cell asn s
  | candidateOutcome x => exact completes_candidateOutcome x s
  | frameBuild tx => exact completes_frameBuild tx s
  | coxRequestRise p tx asn => exact completes_coxRequestRise p tx asn s
  | hostReset kind => exact completes_hostReset kind s
  | rckUnlock r => exact completes_choice
  | rckRelock r => exact completes_choice
  | decoderSelfCheck ok => exact completes_ite completes_next completes_choice
  | levelReport p chains => exact completes_ite completes_next completes_choice
  | slotBoundary => exact completes_choice
  | cellSelection p asn => exact completes_choice
  | rendezvousCandidate x => exact completes_choice
  | ledgerSecond => exact completes_choice
  | shaperRefill => exact completes_choice
  | herdSplit => exact completes_choice
  | herdHeal => exact completes_choice
  | tamperTrip k => exact completes_ite completes_next (completes_ite completes_next completes_choice)
  | ringOverwrite p oldest => exact completes_choice
  | _ => exact completes_next

theorem exec_of_illFormed (i : Instr) (s : State) (h : wellFormed i = false) : exec i s = .fault .illFormed := by
  have hpos : ∀ {b : Bool}, b = false → ¬ b = true := fun hb => by rw [hb]; exact Bool.false_ne_true
  cases i with
  | undefinedOpcode op c => exact if_pos (by simpa [wellFormed] using h)
  | cmdMalformed q n => exact if_pos (by simpa [wellFormed] using h)
  | arm q v => exact if_neg (hpos h)
  | dropRest q v => exact if_neg (hpos h)
  | ctrlReset q v => exact if_neg (hpos h)
  | gtClear t v => exact if_neg (hpos h)
  | registerWrite off wide v => exact registerWrite_of_unsupported v s h
  | unsupportedRequest off size w => exact unsupportedRequest_of_supported w s (by simpa [wellFormed] using h)
  | _ => exact absurd h.symm Bool.false_ne_true

end Sys2Proof.Proofs
end

section
/-! Settles Obligations.CommandsComplete: writes of BAR0, the commands of the receive array, and the assembly. -/

namespace Sys2Proof.Proofs

open Sys2Proof.Machine Sys2Proof.Laws Sys2Proof.Safety

-- Proofs one after another: the threads of many at once would pass the memory that the check allows.
set_option Elab.async false

/-! ### Writes of BAR0 (R57, R64, R377) -/

theorem registerWrite_word {off : Nat} (v : BitVec 64) {s : State} (hoff : off < 2 ^ 20) (hword : off % 4 = 0)
    (hmode : s.dev.mode ≠ .stall) : exec (.registerWrite (BitVec.ofNat 20 off) false v) s = .next (writeReg off (v.setWidth 32) s) := by
  have hnat : (BitVec.ofNat 20 off).toNat = off := (BitVec.toNat_ofNat off 20).trans (Nat.mod_eq_of_lt hoff)
  have hsupported : supported (BitVec.ofNat 20 off) 4 = true := by simp [supported, hnat, hword]
  change execRegisterWrite (BitVec.ofNat 20 off) false v s = _
  rw [execRegisterWrite, if_neg (by simp [hsupported]), if_neg (by simp [hmode]), writeBar0, hnat]
  rfl

theorem registerWrite_interval (t : Fin 16) (v : BitVec 64) (s : State) (hmode : s.dev.mode ≠ .stall) :
    exec (.registerWrite (BitVec.ofNat 20 (0x2100C + 32 * t.val)) false v) s
      = .next (setGait s t { gait s t with interval := v.setWidth 32 }) := by
  have ht := t.isLt
  have htimer : (0x2100C + 32 * t.val - 0x21000) / 32 = t.val := by omega
  have hplace : (0x2100C + 32 * t.val) % 32 = 0x0C := by omega
  rw [registerWrite_word v (by omega) (by omega) hmode, writeReg, if_neg (by omega), if_neg (by omega), if_neg (by omega), if_neg (by omega),
    if_neg (by omega), if_neg (by omega), if_neg (by omega), if_neg (by omega), if_pos (by omega), hplace, htimer]
  rfl

theorem registerWrite_trouble_mask (n : Fin 8) (v : BitVec 64) (s : State) (hmode : s.dev.mode ≠ .stall) :
    ∃ t, exec (.registerWrite (BitVec.ofNat 20 (0x1040 + 4 * n.val)) false v) s = .next t ∧ trbMask t n = v.setWidth 32 := by
  have hn := n.isLt
  have hplace : (0x1040 + 4 * n.val - 0x1000 - 0x40) / 4 = n.val := by omega
  refine ⟨_, registerWrite_word v (by omega) (by omega) hmode, ?_⟩
  rw [writeReg, if_neg (by omega), if_pos (by omega), writeTrouble, if_neg (by omega), if_pos (by rw [Bool.and_eq_true]; simp; omega), hplace,
    trbMask]
  exact (tabGet_tabSet s.trb.masks n n _ _).trans (if_pos rfl)

/-! ### Commands of the receive array -/

/-- A clear command whose conditions hold answers ST_OK at once, and what post says of its effect holds. -/
def AnswersOk (i : Packet → Instr) (op n : Nat) (pre : Packet → State → Prop) (post : Packet → State → State → Prop) : Prop :=
  ∀ c s, clear op n c s = true → pre c (takeHead op c s) →
    ∃ r t, exec (i c) s = .next (sendReply (entryOf .host op c) .ok r t) ∧ post c (takeHead op c s) t

theorem answersOk_of_runs {i : Packet → Instr} {op n : Nat} {pre pre' : Packet → State → Prop} {words : Packet → State → List Word}
    {eff : Packet → State → State} {post : Packet → State → State → Prop} (h : Runs i op n pre' words eff)
    (hpost : ∀ c u, pre c u → post c u (eff c u)) (hpre : ∀ c u, pre c u → pre' c u := by intro _ _ h; exact h) :
    AnswersOk i op n pre post :=
  fun c s hclear hc => ⟨_, _, h c s hclear (hpre c _ hc), hpost c _ hc⟩

theorem plainCfg_setPlainCfg_self (s : State) (p : Nat) (v : PlainCfg) : plainCfg (setPlainCfg s p v) p = v := by simp

theorem portCfg_setPortCfg_self (s : State) (n : Nat) (v : PortCfg) : portCfg (setPortCfg s n v) n = v := by simp

theorem rxPlain_setRxPlain_self (s : State) (p : Nat) (v : RxPlain) : rxPlain (setRxPlain s p v) p = v := by simp

theorem plainCfg_changed (p : Nat) (v : PlainCfg) (s : State) : plainCfg (refreshMode (changePlain p v s)) p = v :=
  (keeps_refreshMode (fun t => plainCfg t p) _).trans (plainCfg_setPlainCfg_self s p v)

theorem ports_portsMoved (c : Packet) (u : State) :
    (plainCfg (refreshMode (portsMoved c u)) (pn c 0)).ports = (pw c 1).setWidth 16 := by
  have hrealign : ∀ p s, (plainCfg (realign p s) (pn c 0)).ports = (plainCfg s (pn c 0)).ports := fun p s =>
    keeps_foldl (fun t => (plainCfg t (pn c 0)).ports) (by intros; rfl) _ s
  rw [keeps_refreshMode (fun t => (plainCfg t (pn c 0)).ports), portsMoved, hrealign, movePorts, plainCfg_setPlainCfg_self]

theorem syncSet_answers (n : Nat) (hn : n ≤ 4) : AnswersOk .syncSet 0x0204 (2 + n)
    (fun c u => PlainFree c u ∧ pn c 1 = n ∧ ∀ i, i < n → pn c (2 + i) < 256)
    (fun c _ t => (plainCfg t (pn c 0)).sync = (List.range n).map (fun i => (pw c (2 + i)).setWidth 8)) :=
  answersOk_of_runs (syncSet_runs n hn) fun _ _ _ => congrArg PlainCfg.sync (plainCfg_setPlainCfg_self _ _ _)

theorem detectSet_answers : AnswersOk .detectSet 0x0206 3
    (fun c u => PlainFree c u ∧ 3 ≤ pn c 1 ∧ pn c 1 ≤ 6 ∧ 40 ≤ pn c 2 ∧ pn c 2 ≤ 200)
    (fun c _ t => (plainCfg t (pn c 0)).detCount = pn c 1 ∧ (plainCfg t (pn c 0)).detThresh = pn c 2) :=
  answersOk_of_runs detectSet_runs fun _ _ _ => ⟨congrArg PlainCfg.detCount (plainCfg_setPlainCfg_self _ _ _),
    congrArg PlainCfg.detThresh (plainCfg_setPlainCfg_self _ _ _)⟩

theorem trackCapSet_answers : AnswersOk .trackCapSet 0x0207 2 (fun c u => PlainFree c u ∧ 1 ≤ pn c 1 ∧ pn c 1 ≤ 4096)
    (fun c _ t => (plainCfg t (pn c 0)).trackCap = pn c 1) :=
  answersOk_of_runs trackCapSet_runs fun _ _ _ => congrArg PlainCfg.trackCap (plainCfg_setPlainCfg_self _ _ _)

theorem recordSet_answers : AnswersOk .recordSet 0x0208 4
    (fun c u => PlainFree c u ∧ 34 ≤ pn c 1 ∧ pn c 1 ≤ 63 ∧ 34 ≤ pn c 2 ∧ pn c 2 ≤ 63 ∧ pn c 3 < 4)
    (fun c _ t => (plainCfg t (pn c 0)).recQ = pn c 1 ∧ (plainCfg t (pn c 0)).repQ = pn c 2) :=
  answersOk_of_runs recordSet_runs fun _ _ _ => ⟨congrArg PlainCfg.recQ (plainCfg_setPlainCfg_self _ _ _),
    congrArg PlainCfg.repQ (plainCfg_setPlainCfg_self _ _ _)⟩

theorem sysrefSet_answers : AnswersOk .sysrefSet 0x0213 3 (fun c u => PlainFree c u ∧ pn c 1 ≤ 2 ∧ 1 ≤ pn c 2 ∧ pn c 2 ≤ 1024)
    (fun c _ t => (plainCfg t (pn c 0)).sysref = pn c 1 ∧ (plainCfg t (pn c 0)).sysrefK = pn c 2) :=
  answersOk_of_runs sysrefSet_runs fun _ _ _ => ⟨congrArg PlainCfg.sysref (plainCfg_setPlainCfg_self _ _ _),
    congrArg PlainCfg.sysrefK (plainCfg_setPlainCfg_self _ _ _)⟩

theorem levelSet_answers : AnswersOk .levelSet 0x0222 2 (fun c u => PlainFree c u ∧ pn c 1 < 65536)
    (fun c _ t => (plainCfg t (pn c 0)).clipLimit = pn c 1) :=
  answersOk_of_runs levelSet_runs fun _ _ _ => congrArg PlainCfg.clipLimit (plainCfg_setPlainCfg_self _ _ _)

theorem portLatencySet_answers : AnswersOk .portLatencySet 0x0211 2
    (fun c u => pn c 0 ≤ 15 ∧ pn c 1 < 65536 ∧ plainOfPort u (pn c 0) = none)
    (fun c _ t => (portCfg t (pn c 0)).extLatency = pn c 1) :=
  answersOk_of_runs portLatencySet_runs_alone fun _ _ _ => congrArg PortCfg.extLatency (portCfg_setPortCfg_self _ _ _)

theorem lanePolaritySet_answers : AnswersOk .lanePolaritySet 0x0214 2
    (fun c u => pn c 0 ≤ 15 ∧ pn c 1 < 4 ∧ inEnabledPlain u (pn c 0) = false)
    (fun c _ t => (portCfg t (pn c 0)).rxInv = bit (pw c 1) 0 ∧ (portCfg t (pn c 0)).txInv = bit (pw c 1) 1) :=
  answersOk_of_runs lanePolaritySet_runs fun _ _ _ => ⟨congrArg PortCfg.rxInv (portCfg_setPortCfg_self _ _ _),
    congrArg PortCfg.txInv (portCfg_setPortCfg_self _ _ _)⟩

theorem beamWeightsWrite_answers (n : Nat) (hn : n ≤ 128) : AnswersOk .beamWeightsWrite 0x0230 (3 + n)
    (fun c u => PlainFree c u ∧ pn c 1 ≤ 63 ∧ pn c 2 = n ∧ swapPending u (pn c 0) false = false)
    (fun c _ t => tabGet (rxPlain t (pn c 0)).shadow (pn c 1) [] = (c.params.drop 3).take n) :=
  answersOk_of_runs (beamWeightsWrite_runs n hn) fun c u _ => by
    rw [rxPlain_setRxPlain_self, tabGet_tabSet, if_pos rfl]

theorem beamWeightsRead_answers : AnswersOk .beamWeightsRead 0x0232 3 (fun c _ => pn c 0 ≤ 3 ∧ pn c 1 ≤ 63 ∧ pn c 2 < 2)
    (fun _ u t => t = u) :=
  answersOk_of_runs beamWeightsRead_runs fun _ _ _ => rfl

theorem plainStatus_answers : AnswersOk .plainStatus 0x0202 1 (fun c _ => pn c 0 ≤ 3) (fun _ u t => t = u) :=
  answersOk_of_runs plainStatus_runs fun _ _ _ => rfl

theorem portStatus_answers : AnswersOk .portStatus 0x0212 1 (fun c _ => pn c 0 ≤ 15) (fun _ u t => t.cfg = u.cfg) :=
  answersOk_of_runs portStatus_runs fun _ _ _ => rfl

theorem fabricStatus_answers : AnswersOk .fabricStatus 0x0242 0 (fun _ _ => True) (fun _ u t => t = u) :=
  answersOk_of_runs fabricStatus_runs fun _ _ _ => rfl

theorem rxCountersRead_answers : AnswersOk .rxCountersRead 0x0250 2 (fun c _ => pn c 0 ≤ 3 ∧ pn c 1 < 2)
    (fun c _ t => pn c 1 = 1 → (rxPlain t (pn c 0)).counters = List.replicate 10 0) :=
  answersOk_of_runs rxCountersRead_runs fun c u _ hclears => by rw [if_pos hclears, rxPlain_setRxPlain_self]

theorem plainConfigure_answers : AnswersOk .plainConfigure 0x0200 3
    (fun c u => PlainFree c u ∧ pn c 1 < 65536 ∧ pn c 2 = 0 ∧ (plainCfg u (pn c 0)).enabled = false ∧ PortsFree c u)
    (fun c _ t => (plainCfg t (pn c 0)).ports = (pw c 1).setWidth 16) := by
  obtain ⟨hconfigure, -⟩ := receiveCapacityRuns
  exact answersOk_of_runs hconfigure (fun c u _ => ports_portsMoved c u)
    fun _ _ ⟨⟨hplain, hidle⟩, hports, hflag, hoff, hnamed⟩ => ⟨hplain, hports, hflag, hoff, hidle, hnamed⟩

theorem plainDisable_answers (c : Packet) (s : State) (hclear : clear 0x0201 2 c s = true)
    (hpre : PlainFree c (takeHead 0x0201 c s) ∧ pn c 1 = 0 ∧ FreshTag c (takeHead 0x0201 c s)
      ∧ ∀ t ∈ (takeHead 0x0201 c s).rx.tracks, t.plain ≠ pn c 0) :
    ∃ r t, exec (.plainDisable c) s = .next (sendReply (entryOf .host 0x0201 c) .ok r t) ∧ (plainCfg t (pn c 0)).enabled = false := by
  obtain ⟨⟨hplain, hidle⟩, hforce, hfresh, hnone⟩ := hpre
  obtain ⟨-, -, -, -, hdisabled, -⟩ := receiveCapacityRuns
  rcases Bool.eq_false_or_eq_true (plainCfg (takeHead 0x0201 c s) (pn c 0)).enabled with hon | hoff
  · exact ⟨_, plainDisable_ends_at_once hclear hplain (by omega) hidle hon hfresh hnone⟩
  · exact ⟨_, _, hdisabled c s hclear ⟨hplain, by omega, hidle, hoff⟩, hoff⟩

theorem paddockWithdraw_answers (c : Packet) (s : State) (hclear : clear 0x0240 2 c s = true)
    (hpre : pn c 1 < 2 ∧ searchLoadAll (takeHead 0x0240 c s) ≤ 1088 * maskCount (paddocksIn (paddocksOut c (takeHead 0x0240 c s)))
      ∧ (∀ t ∈ (takeHead 0x0240 c s).rx.tracks, bit (pw c 0) (t.num / 128) = false) ∧ FreshTag c (takeHead 0x0240 c s)) :
    ∃ r t, exec (.paddockWithdraw c) s = .next (sendReply (entryOf .host 0x0240 c) .ok r t)
      ∧ t.cfg.rx.padOut = (takeHead 0x0240 c s).cfg.rx.padOut ||| pw c 0 := by
  obtain ⟨hforce, hroom, hnone, hfresh⟩ := hpre
  obtain ⟨v, hexec, hcfg, -⟩ := paddockWithdraw_ends_at_once hclear hforce hroom hnone hfresh
  refine ⟨_, _, hexec, ?_⟩
  rw [keeps_postEvent _ _ _ _ State.cfg, hcfg]
  rfl

theorem chainEnable_answers : AnswersOk .chainEnable 0x0203 5
    (fun c u => PlainFree c u ∧ (plainCfg u (pn c 0)).chainMask &&& ~~~ chainWords c &&& allChains u (pn c 0) = 0#128)
    (fun c _ t => (plainCfg t (pn c 0)).chainMask = chainWords c) := by
  obtain ⟨-, -, -, -, -, -, -, hchain, -⟩ := receiveCapacityRuns
  exact answersOk_of_runs hchain (fun _ _ _ => congrArg PlainCfg.chainMask (plainCfg_changed _ _ _))
    fun _ _ ⟨⟨hplain, hidle⟩, hnone⟩ => ⟨hplain, hidle, hnone⟩

theorem searchSet_answers : AnswersOk .searchSet 0x0205 3
    (fun c u => PlainFree c u ∧ pw c 1 &&& 0xFFFF00F0#32 = 0#32 ∧ pn c 2 < 2
      ∧ (plainCfg u (pn c 0)).gridMask &&& (pw c 1).setWidth 4 = (plainCfg u (pn c 0)).gridMask
      ∧ (plainCfg u (pn c 0)).sfMask &&& (pw c 1 >>> 8).setWidth 8 = (plainCfg u (pn c 0)).sfMask
      ∧ fitsBudget u (pn c 0) { plainCfg u (pn c 0) with gridMask := (pw c 1).setWidth 4, sfMask := (pw c 1 >>> 8).setWidth 8 } = true)
    (fun c _ t => (plainCfg t (pn c 0)).gridMask = (pw c 1).setWidth 4 ∧ (plainCfg t (pn c 0)).sfMask = (pw c 1 >>> 8).setWidth 8) := by
  obtain ⟨-, -, -, -, -, -, -, -, -, hsearch, -⟩ := receiveCapacityRuns
  exact answersOk_of_runs hsearch
    (fun _ _ _ => ⟨congrArg PlainCfg.gridMask (plainCfg_changed _ _ _), congrArg PlainCfg.sfMask (plainCfg_changed _ _ _)⟩)
    fun _ _ ⟨⟨hplain, hidle⟩, hmasks, hforce, hgrid, hsf, hfits⟩ => ⟨hplain, hmasks, hforce, hidle, hgrid, hsf, hfits⟩

theorem beamEnable_answers : AnswersOk .beamEnable 0x0233 4
    (fun c u => PlainFree c u ∧ pn c 3 < 2 ∧ beamsBelow (p64 c 1) (plainCfg u (pn c 0)).beams = p64 c 1
      ∧ (plainCfg u (pn c 0)).beamMask &&& p64 c 1 = (plainCfg u (pn c 0)).beamMask
      ∧ fitsBudget u (pn c 0) { plainCfg u (pn c 0) with beamMask := p64 c 1 } = true)
    (fun c _ t => (plainCfg t (pn c 0)).beamMask = p64 c 1) := by
  obtain ⟨-, -, -, -, -, -, -, -, -, -, -, -, hbeam, -⟩ := receiveCapacityRuns
  exact answersOk_of_runs hbeam (fun _ _ _ => congrArg PlainCfg.beamMask (plainCfg_changed _ _ _))
    fun _ _ ⟨⟨hplain, hidle⟩, hforce, hbelow, hmask, hfits⟩ => ⟨hplain, hforce, hidle, hbelow, hmask, hfits⟩

theorem paddockRestore_answers : AnswersOk .paddockRestore 0x0241 1 (fun _ _ => True)
    (fun c u t => t.cfg.rx.padOut = u.cfg.rx.padOut &&& ~~~ pw c 0) := by
  obtain ⟨-, -, -, -, -, -, -, -, -, -, -, -, -, -, hrestore, -⟩ := receiveCapacityRuns
  exact answersOk_of_runs hrestore fun _ _ _ => congrArg (fun v : Cfg => v.rx.padOut) (keeps_refreshMode State.cfg _)

theorem linkCalibrate_answers : AnswersOk .linkCalibrate 0x0210 1
    (fun c u => pn c 0 < 65536 ∧ (∀ n ∈ maskList (pw c 0), inEnabledPlain u n = true ∧ (portRun u n).lane ≠ 0)
      ∧ (∀ p ∈ plainsNamed u (pw c 0), draining u p = false) ∧ spreadPlains (sendSysref (pw c 0) u) (pw c 0) = [])
    (fun c u t => t = calibrate (pw c 0) (sendSysref (pw c 0) u)) := by
  obtain ⟨-, -, -, -, -, -, -, -, -, -, -, -, -, -, -, -, -, -, hcalibrate, -⟩ := receiveCapacityRuns
  exact answersOk_of_runs hcalibrate fun _ _ _ => rfl

theorem beamTableActivate_waits (c : Packet) (s : State) (hclear : clear 0x0231 6 c s = true) (hfree : PlainFree c (takeHead 0x0231 c s))
    (hlo : 1 ≤ pn c 1) (hhi : pn c 1 ≤ 64) (hshift : pn c 2 ≤ 7) (hasn : pn c 5 < 256)
    (hahead : asnAhead (takeHead 0x0231 c s) (asnWords c) = true) (hswap : swapPending (takeHead 0x0231 c s) (pn c 0) false = false)
    (hroom : activationRefused (takeHead 0x0231 c s) (pn c 0) (pn c 1) = false)
    (hcrc : bankCrc (rxPlain (takeHead 0x0231 c s) (pn c 0)).shadow (pn c 1) (chainsOf (takeHead 0x0231 c s) (pn c 0)) = pw c 3) :
    ∃ t w, exec (.beamTableActivate c) s = .next (addInFlight (entryOf .host 0x0231 c) t)
      ∧ t.rx.swaps = (takeHead 0x0231 c s).rx.swaps ++ [w] ∧ w.plain = pn c 0 ∧ w.count = pn c 1 ∧ w.shift = pn c 2 := by
  obtain ⟨-, -, -, -, -, -, -, -, -, -, -, -, -, -, -, -, -, -, -, -, hactivate, -⟩ := receiveCapacityRuns
  obtain ⟨hplain, hidle⟩ := hfree
  exact ⟨_, _, hactivate c s hclear ⟨hplain, hlo, hhi, hshift, hasn, hahead, hidle, hswap, hroom, hcrc⟩, rfl, rfl, rfl, rfl⟩

/-! ### Events of the link engine -/

theorem cryptoEngineFaultRestart_raises (s : State) : ∃ t, exec .cryptoEngineFaultRestart s = .next t ∧ trouble t .cryptoRestart = true :=
  ⟨_, rfl, (restartCrypto_ends _).1⟩

theorem epochOverlapEnd_unbinds (n : Fin 16) (slot : Nat) (stop : BitVec 64) (s : State) (hprev : (netRun s n).prev = some (slot, stop))
    (hdue : reached s stop = true) : ∃ t, exec (.epochOverlapEnd n) s = .next t ∧ (netRun t n).prev = none := by
  obtain ⟨t, hexec, hnone, -⟩ := epochOverlapEnd_ends hprev hdue
  exact ⟨t, hexec, hnone⟩

theorem reportWaitExpiry_without_reports (id : BitVec 16) (i : Image) (s : State) (hi : imageAt s id.toNat = some i)
    (hstate : i.state = 2) (hdue : reached s i.deadline = true) (hnone : i.reports = 0) :
    ∃ j, exec (.reportWaitExpiry id) s = .next (postEvent 0x0511 i.id 0#32 (setImage j s)) ∧ j.state = 3 := by
  have hends := reportWaitExpiry_ends hi hstate hdue (.inl hnone)
  rw [if_pos hnone] at hends
  exact ⟨_, hends, rfl⟩

theorem reerase_unmarks (k : Nat) (s : State) (hready : s.dev.dataReady = true) (hmarked : k ∈ s.fw.reerase) (hk : 0x190 ≤ k)
    (hwf : Memory.wf 0xFF#8 s.mem.flash = true) : ∃ u, exec (.flashSectorReerase k) s = .next u ∧ k ∉ u.fw.reerase := by
  obtain ⟨u, hexec, hgone, -⟩ := reerase_erases k s hready hmarked hk hwf
  exact ⟨u, hexec, hgone⟩

/-- Settles O58: an arm of `exec` is a next state or a choice between next states; the commands of the receive array answer as their rows
give, and the events as the parts on the link engine and the flash have shown. -/
theorem commandsComplete : Obligations.CommandsComplete :=
  ⟨exec_completes, exec_of_illFormed,
    ⟨registerWrite_interval, registerWrite_trouble_mask, syncSet_answers, detectSet_answers, trackCapSet_answers, recordSet_answers,
      sysrefSet_answers, levelSet_answers, portLatencySet_answers, lanePolaritySet_answers, beamWeightsWrite_answers,
      beamWeightsRead_answers, plainStatus_answers, portStatus_answers, fabricStatus_answers, rxCountersRead_answers, plainConfigure_answers,
      plainDisable_answers, chainEnable_answers, searchSet_answers, beamEnable_answers, paddockWithdraw_answers, paddockRestore_answers,
      linkCalibrate_answers, beamTableActivate_waits⟩,
    fun _ _ _ => linkEngineFrame_takes, fun src h _ => forwardedFrame_joins src h,
    fun _ _ halone _ hjudge hw htime => ⟨_, homeAck_booked halone hjudge hw htime, rfl⟩, fun _ _ _ => rfl, epochOverlapEnd_unbinds,
    cryptoEngineFaultRestart_raises, fun _ _ _ hi hstate htodo hfly => ⟨_, imageRoundComplete_completes hi hstate htodo hfly, rfl⟩,
    reportWaitExpiry_without_reports, program_ends, reerase_unmarks, fwChainBlock_taken, fwChainAck_taken, fwChainAckTimeout_sends_again,
    activationPauseEnd_restarts, activationTimeout_ends,
    fun q t l t0 s hact hpause => (activationFirmwareUp_decides q t l t0 s hact hpause).1⟩

end Sys2Proof.Proofs
end
